-- ==== Sys2Proof/Word.lean ====
section
/-!
DEFINITION. The word types, and the one sparse map the model keeps every array of the hardware in (register files,
windows, tokens, memory bytes): a list of (key, value) pairs, keys strictly rising, no entry equal to what an
unlisted key reads as, so that equal contents are equal lists.
-/
namespace Sys2Proof

/-- A byte of memory. -/
abbrev Byte := BitVec 8
/-- A register of the task processor, and a 64-bit register of the register spaces. -/
abbrev Word := BitVec 64

/-- A sparse array: `(key, value)` pairs. -/
abbrev SMap (α : Type) := List (Nat × α)

/-- The value at key `k`; `d` is what an unlisted key reads as. -/
def SMap.get {α : Type} (d : α) : SMap α → Nat → α
  | [], _ => d
  | (j, v) :: m, k => if k = j then v else SMap.get d m k

/-- List the pair `(k, v)` at its place, replacing an entry at `k`. -/
def SMap.put {α : Type} : SMap α → Nat → α → SMap α
  | [], k, v => [(k, v)]
  | (j, w) :: m, k, v =>
    if k < j then (k, v) :: (j, w) :: m
    else if k = j then (k, v) :: m
    else (j, w) :: SMap.put m k v

/-- Unlist key `k`. -/
def SMap.del {α : Type} : SMap α → Nat → SMap α
  | [], _ => []
  | (j, w) :: m, k => if k = j then SMap.del m k else (j, w) :: SMap.del m k

/-- Write `v` at key `k`, where an unlisted `k` reads as `d`. -/
def SMap.set {α : Type} [DecidableEq α] (d : α) (m : SMap α) (k : Nat) (v : α) : SMap α :=
  if v = d then SMap.del m k else SMap.put m k v

/-- The keys rise strictly from above `lo`. -/
def SMap.ascFrom {α : Type} : Nat → SMap α → Bool
  | _, [] => true
  | lo, (j, _) :: m => decide (lo ≤ j) && SMap.ascFrom (j + 1) m

/-- No entry equals what its key reads as when unlisted. -/
def SMap.noDefault {α : Type} [DecidableEq α] (d : Nat → α) : SMap α → Bool
  | [] => true
  | (j, v) :: m => decide (v ≠ d j) && SMap.noDefault d m

/-- The canonical form of a sparse array. -/
def SMap.wf {α : Type} [DecidableEq α] (d : Nat → α) (m : SMap α) : Bool :=
  SMap.ascFrom 0 m && SMap.noDefault d m

/-- Write the values of `vs` at the keys `k, k + 1, …`. -/
def SMap.setRange {α : Type} [DecidableEq α] (d : α) : SMap α → Nat → List α → SMap α
  | m, _, [] => m
  | m, k, v :: vs => SMap.setRange d (SMap.set d m k v) (k + 1) vs

/-- The values at the `n` keys `k, k + 1, …`. -/
def SMap.getRange {α : Type} (d : α) (m : SMap α) : Nat → Nat → List α
  | _, 0 => []
  | k, n + 1 => SMap.get d m k :: SMap.getRange d m (k + 1) n

/-- Drop every entry whose key `p` selects. -/
def SMap.drop {α : Type} (p : Nat → Bool) (m : SMap α) : SMap α := m.filter (fun e => !p e.1)

/-- Apply `f` to every entry. The result is put back in canonical form; an entry stays where it hides a later one. -/
def SMap.mapAll {α : Type} [DecidableEq α] (d : α) (f : Nat → α → α) : SMap α → SMap α
  | [] => []
  | (j, v) :: m =>
    if f j v = d ∧ m.all (fun e => e.1 != j) = true then SMap.mapAll d f m else (j, f j v) :: SMap.mapAll d f m

end Sys2Proof
end

