-- ==== Sys2Proof/Syntax.lean ====
section
/-!
DEFINITION. The commands of the panel: its instructions, operations and events, one constructor per row of
spec/opcode_table.json. A command names the part of the panel it happens at and the values that come from outside.
-/
namespace Sys2Proof

/-- A physical core of the panel: site × 50 + physical core index (R12, R23). -/
abbrev CoreIx := Fin 10200
/-- A general register number (R60). -/
abbrev Reg := Fin 32

/-- A task slot of a core. -/
structure At where
  core : CoreIx
  slot : Fin 8
deriving DecidableEq, Repr

/-- The errors a bank's code shows on one access (R92): which of the eight 64-bit words of the accessed line hold a
single-bit error, and which a double-bit error. -/
structure EccErr where
  single : BitVec 8
  double : BitVec 8
deriving DecidableEq, Repr

/-- The errors that the scratchpad's code shows while an engine streams operands (R92): the offsets of the 64-bit words
with a single-bit and with a double-bit error. -/
structure StreamErr where
  single : List Nat
  double : List Nat
deriving DecidableEq, Repr

/-- An engine of a core, and for the DMA engine the descriptor. -/
inductive Engine where
  | matrix | vector
  | dma (desc : Nat)
deriving DecidableEq, Repr

/-- The erroneous symbols the line code finds in a DRAM line (R185). -/
inductive Symbols where
  | none | one | many
deriving DecidableEq, Repr

/-- An output of the bulk mesh (R197, R202): port 0–4 of a router, the station of an exit of a site, or a seam link 0–2
of an edge die, 3 being the edge die itself. -/
inductive Hop where
  | router (site : Fin 204) (r : Fin 50) (port : Fin 5)
  | station (site : Fin 204) (exit : Fin 4)
  | edge (e : Fin 10) (port : Fin 4)
deriving DecidableEq, Repr

/-- An output of a hub of the halyard network (R222, R225): towards its parent, a child hub, or the die's own nodes. -/
inductive HubPort where
  | up
  | child (v : Fin 214)
  | nodes
deriving DecidableEq, Repr

/-- A hop of a NOTICE of kind 0, 1 or 3 (R226): from a core's node to its hub, or from a child hub of the root into the
root. -/
inductive NoticeHop where
  | node (c : CoreIx) (kind : Fin 16)
  | root (h : Fin 214)
deriving DecidableEq, Repr

/-- What a step of bring-up finds (R420, R427): banks (2 × component + bank) whose signatures fail, a record that does
not verify (false: the pattern), links that do not train and tracks found failed (site, exit, seam, group, track),
Vorrad lanes and DRAM ports that do not train, cores, sites and link dies that fail; hem-ring segments that do not train,
and tracks found failed in the yard tracks of one (segment, seam, group, track) and in the reference lines and halyard
repeaters of a spar (spar, seam, group, track). -/
structure BootFinding where
  badBanks : List (Fin 8)
  badRecord : Option Bool
  badLinks : List (Fin 204 × Fin 4)
  tracks : List (Fin 204 × Fin 4 × Fin 8 × Fin 256 × Fin 64)
  badLanes : List (Fin 8 × Fin 16)
  badPorts : List (Fin 204 × Fin 8)
  badCores : List CoreIx
  badSites : List (Fin 204)
  badEdges : List (Fin 9)
  badHem : List (Fin 12) := []
  yardTracks : List (Fin 12 × Fin 8 × Fin 256 × Fin 64) := []
  sparTracks : List (Fin 6 × Fin 8 × Fin 256 × Fin 64) := []
deriving DecidableEq, Repr

/-- Where a bucket line is summed (R295, R300): the unit of a logical die, or the engine of a dimension for a tag. -/
inductive CollAt where
  | unit (d : Fin 192)
  | engine (dim : Fin 4) (tag : Fin 1024)
deriving DecidableEq, Repr


/-- An SPDM request (R471, R472); a measurement request may ask for a signature. -/
inductive SpdmReq where
  | getVersion | getCapabilities | negotiateAlgorithms | getDigests | getCertificate | challenge
  | getMeasurements (signed : Bool)
  | keyExchange | finish | endSession | lmsCosign
  | other
deriving DecidableEq, Repr

/-- A capability of the function (R335). -/
inductive Capability where
  | pciExpress | powerManagement | msix | aer | doe | ide | dataLinkFeature | physical16 | physical32 | physical64
deriving DecidableEq, Repr

/-- What the host reads of the function beside BAR0: its configuration space (R335, R336, R340, R349, R351), and the CDAT that
its DOE mailbox serves (R337). -/
inductive ConfigField where
  | vendorId | deviceId | subsystemVendorId | subsystemId | classCode | headerType
  | powerState | memInfoValid | memActive | range1Size | cxlResetTimeout
  /-- the capability is present -/
  | capability (c : Capability)
  /-- the CXL DVSEC of this ID is present -/
  | dvsec (id : Fin 16)
  /-- size of the memory behind a BAR register; the upper half of a 64-bit pair has none of its own -/
  | barSize (i : Fin 6)
  /-- the integrity failures that the IDE capability and AER have logged -/
  | ideFailures
  /-- CDAT: the DSMAS entry over the decoded window, and the DSLBIS entries (ns, GB/s) -/
  | dsmasBase | dsmasBytes | readLatency | writeLatency | readBandwidth | writeBandwidth
deriving DecidableEq, Repr

/-- A place that a register access names (R10, R353): an offset in the register space of a physical core, a site or an edge
die, an offset of BAR0, the base (false) or size (true) of the committed HDM decoder in the CXL component registers
(R336, R340), or a field of configuration space (R335). -/
inductive RegPlace where
  | core (c : CoreIx) (off : BitVec 16)
  | die (site : Fin 204) (off : BitVec 24)
  | edge (e : Fin 10) (off : BitVec 40)
  | bar (off : BitVec 26)
  | decoder (size : Bool)
  | config (f : ConfigField)
deriving DecidableEq, Repr

/-- The commands: one constructor per row of the table of operations and events, in its order. -/
inductive Instr where
  /-- ADD (R64): Integer register instruction that writes ra + rb to RD, wrapping modulo 2^64. -/
  | add (a : At) (rd ra rb : Reg)
  /-- SUB (R64): Integer register instruction that writes ra − rb to RD, wrapping modulo 2^64. -/
  | sub (a : At) (rd ra rb : Reg)
  /-- AND (R64): Writes the bitwise AND of ra and rb to RD. -/
  | and (a : At) (rd ra rb : Reg)
  /-- OR (R64): Writes the bitwise OR of ra and rb to RD. -/
  | or (a : At) (rd ra rb : Reg)
  /-- XOR (R64): Writes the bitwise XOR of ra and rb to RD. -/
  | xor (a : At) (rd ra rb : Reg)
  /-- ANDN (R64): Writes ra AND NOT rb to RD. -/
  | andn (a : At) (rd ra rb : Reg)
  /-- SLL (R64): Writes ra shifted left by rb[5:0] to RD. -/
  | sll (a : At) (rd ra rb : Reg)
  /-- SRL (R64): Writes ra shifted right by rb[5:0] with zero fill to RD. -/
  | srl (a : At) (rd ra rb : Reg)
  /-- SRA (R64): Writes ra shifted right by rb[5:0] with sign fill to RD. -/
  | sra (a : At) (rd ra rb : Reg)
  /-- ROR (R64): Writes ra rotated right by rb[5:0] to RD. -/
  | ror (a : At) (rd ra rb : Reg)
  /-- SLT (R64): Writes 1 to RD when ra < rb as signed values, else 0. -/
  | slt (a : At) (rd ra rb : Reg)
  /-- SLTU (R64): Writes 1 to RD when ra < rb as unsigned values, else 0. -/
  | sltu (a : At) (rd ra rb : Reg)
  /-- MIN (R64): Writes the signed minimum of ra and rb to RD. -/
  | min (a : At) (rd ra rb : Reg)
  /-- MAX (R64): Writes the signed maximum of ra and rb to RD. -/
  | max (a : At) (rd ra rb : Reg)
  /-- MINU (R64): Writes the unsigned minimum of ra and rb to RD. -/
  | minu (a : At) (rd ra rb : Reg)
  /-- MAXU (R64): Writes the unsigned maximum of ra and rb to RD. -/
  | maxu (a : At) (rd ra rb : Reg)
  /-- MUL (R64): Writes bits [63:0] of ra × rb to RD. -/
  | mul (a : At) (rd ra rb : Reg)
  /-- MULHS (R64): Writes bits [127:64] of the signed 128-bit product to RD. -/
  | mulhs (a : At) (rd ra rb : Reg)
  /-- MULHU (R64): Writes bits [127:64] of the unsigned 128-bit product to RD. -/
  | mulhu (a : At) (rd ra rb : Reg)
  /-- ADDS (R66): Writes the saturated signed sum to RD and sets SAT on saturation. -/
  | adds (a : At) (rd ra rb : Reg)
  /-- SUBS (R66): Writes the saturated signed difference to RD and sets SAT on saturation. -/
  | subs (a : At) (rd ra rb : Reg)
  /-- DIVU (R65): Writes the unsigned quotient to RD, with the special results of R65, holding the slot 33 cycles. -/
  | divu (a : At) (rd ra rb : Reg)
  /-- DIVS (R65): Writes the signed quotient to RD, with the special results of R65. -/
  | divs (a : At) (rd ra rb : Reg)
  /-- REMU (R65): Writes the unsigned remainder to RD, with the special results of R65. -/
  | remu (a : At) (rd ra rb : Reg)
  /-- REMS (R65): Writes the signed remainder with the sign of ra to RD. -/
  | rems (a : At) (rd ra rb : Reg)
  /-- CLZ (R64): Writes the count of leading zero bits of ra to RD. -/
  | clz (a : At) (rd ra rb : Reg)
  /-- CTZ (R64): Writes the count of trailing zero bits of ra to RD. -/
  | ctz (a : At) (rd ra rb : Reg)
  /-- POPC (R64): Writes the count of one bits of ra to RD. -/
  | popc (a : At) (rd ra rb : Reg)
  /-- SEXTB (R64): Writes ra[7:0] sign-extended to RD. -/
  | sextb (a : At) (rd ra rb : Reg)
  /-- SEXTH (R64): Writes ra[15:0] sign-extended to RD. -/
  | sexth (a : At) (rd ra rb : Reg)
  /-- SEXTW (R64): Writes ra[31:0] sign-extended to RD. -/
  | sextw (a : At) (rd ra rb : Reg)
  /-- ZEXTW (R64): Writes ra[31:0] zero-extended to RD. -/
  | zextw (a : At) (rd ra rb : Reg)
  /-- ADDI (R67): Writes ra + sext(IMM) to RD. -/
  | addi (a : At) (rd ra : Reg) (imm : BitVec 16)
  /-- ANDI (R67): Writes ra AND zext(IMM) to RD. -/
  | andi (a : At) (rd ra : Reg) (imm : BitVec 16)
  /-- ORI (R67): Writes ra OR zext(IMM) to RD. -/
  | ori (a : At) (rd ra : Reg) (imm : BitVec 16)
  /-- XORI (R67): Writes ra XOR zext(IMM) to RD. -/
  | xori (a : At) (rd ra : Reg) (imm : BitVec 16)
  /-- SLTI (R67): Writes 1 to RD when ra < sext(IMM) as signed values. -/
  | slti (a : At) (rd ra : Reg) (imm : BitVec 16)
  /-- SLTIU (R67): Writes 1 to RD when ra < sext(IMM) as unsigned values. -/
  | sltiu (a : At) (rd ra : Reg) (imm : BitVec 16)
  /-- SHI (R67): Shifts or rotates ra by IMM[5:0] in the direction IMM[7:6] selects. -/
  | shi (a : At) (rd ra : Reg) (imm : BitVec 16)
  /-- LUI (R67): Writes sext(IMM) × 0x1_0000 to RD. -/
  | lui (a : At) (rd ra : Reg) (imm : BitVec 16)
  /-- LHI (R67): Replaces bits [63:48] of ra with IMM and writes the result to RD. -/
  | lhi (a : At) (rd ra : Reg) (imm : BitVec 16)
  /-- ADDIX (R67): Extended-form instruction that writes ra + IMM[47:0] sign-extended to RD. -/
  | addix (a : At) (rd ra : Reg) (imm : BitVec 48)
  /-- BEQ (R68): Branches when ra equals rb. -/
  | beq (a : At) (ra rb : Reg) (off : BitVec 16)
  /-- BNE (R68): Branches when ra differs from rb. -/
  | bne (a : At) (ra rb : Reg) (off : BitVec 16)
  /-- BLT (R68): Branches on signed ra < rb. -/
  | blt (a : At) (ra rb : Reg) (off : BitVec 16)
  /-- BGE (R68): Branches on signed ra ≥ rb. -/
  | bge (a : At) (ra rb : Reg) (off : BitVec 16)
  /-- BLTU (R68): Branches on unsigned ra < rb. -/
  | bltu (a : At) (ra rb : Reg) (off : BitVec 16)
  /-- BGEU (R68): Branches on unsigned ra ≥ rb. -/
  | bgeu (a : At) (ra rb : Reg) (off : BitVec 16)
  /-- JAL (R68): Writes the return address to RD and jumps PC-relative. -/
  | jal (a : At) (rd : Reg) (off : BitVec 21)
  /-- JALR (R68): Writes the return address to RD and jumps to ra + sext(IMM) with bits [1:0] cleared. -/
  | jalr (a : At) (rd ra : Reg) (imm : BitVec 16)
  /-- LB (R70): Loads a sign-extended byte from the scratchpad segment after bound, alignment and ECC checks. -/
  | lb (a : At) (rd ra : Reg) (imm : BitVec 16)
  /-- LBU (R70): Loads a zero-extended byte from the scratchpad segment. -/
  | lbu (a : At) (rd ra : Reg) (imm : BitVec 16)
  /-- LH (R70): Loads a sign-extended halfword from the scratchpad segment. -/
  | lh (a : At) (rd ra : Reg) (imm : BitVec 16)
  /-- LHU (R70): Loads a zero-extended halfword from the scratchpad segment. -/
  | lhu (a : At) (rd ra : Reg) (imm : BitVec 16)
  /-- LW (R70): Loads a sign-extended word from the scratchpad segment. -/
  | lw (a : At) (rd ra : Reg) (imm : BitVec 16)
  /-- LWU (R70): Loads a zero-extended word from the scratchpad segment. -/
  | lwu (a : At) (rd ra : Reg) (imm : BitVec 16)
  /-- LD (R70): Loads 8 bytes from the scratchpad segment. -/
  | ld (a : At) (rd ra : Reg) (imm : BitVec 16)
  /-- SB (R70): Stores the low byte of rs to the scratchpad segment. -/
  | sb (a : At) (rs ra : Reg) (imm : BitVec 16)
  /-- SH (R70): Stores the low 2 bytes of rs to the scratchpad segment. -/
  | sh (a : At) (rs ra : Reg) (imm : BitVec 16)
  /-- SW (R70): Stores the low 4 bytes of rs to the scratchpad segment. -/
  | sw (a : At) (rs ra : Reg) (imm : BitVec 16)
  /-- SD (R70): Stores 8 bytes of rs to the scratchpad segment. -/
  | sd (a : At) (rs ra : Reg) (imm : BitVec 16)
  /-- AMOADD (R72): Atomically adds rb to the word at ra and returns the old value. -/
  | amoadd (a : At) (rd ra rb : Reg)
  /-- AMOSWAP (R72): Atomically swaps rb into the word at ra and returns the old value. -/
  | amoswap (a : At) (rd ra rb : Reg)
  /-- AMOCAS (R72): Atomically writes rb when the old word equals the prior RD and returns the old value. -/
  | amocas (a : At) (rd ra rb : Reg)
  /-- AMOOR (R72): Atomically ORs rb into the word at ra and returns the old value. -/
  | amoor (a : At) (rd ra rb : Reg)
  /-- AMOAND (R72): Atomically ANDs rb into the word at ra and returns the old value. -/
  | amoand (a : At) (rd ra rb : Reg)
  /-- TAKE (R73): Checked 8-byte load of a channel slot that waits for the full bit and may clear it. -/
  | take (a : At) (rd ra : Reg) (imm : BitVec 16)
  /-- PUT (R73): Checked 8-byte store to a channel slot that waits for the slot to drain and may set the full bit. -/
  | put (a : At) (rs ra : Reg) (imm : BitVec 16)
  /-- WAITC (R73): Waits until a channel slot's full bit reaches the value IMM[15] names. -/
  | waitc (a : At) (rd ra : Reg) (imm : BitVec 16)
  /-- MXI (R74): Checks, takes a token for and queues a matrix descriptor. -/
  | mxi (a : At) (rd ra : Reg) (imm : BitVec 16)
  /-- VXI (R74): Checks, takes a token for and queues a vector descriptor. -/
  | vxi (a : At) (rd ra : Reg) (imm : BitVec 16)
  /-- DXI (R74): Checks, resolves, takes a token for and queues a DMA descriptor. -/
  | dxi (a : At) (rd ra : Reg) (imm : BitVec 16)
  /-- WOPEN (R78): Validates a window descriptor and opens a window, returning a handle or all ones. -/
  | wopen (a : At) (rd ra : Reg) (imm : BitVec 16)
  /-- WCLOSE (R79): Starts the close of a window named by a handle and returns a token. -/
  | wclose (a : At) (rd ra rb : Reg) (fn : BitVec 11)
  /-- WSTAT (R80): Returns a window's status word and optionally clears its sticky flags. -/
  | wstat (a : At) (rd ra rb : Reg) (fn : BitVec 11)
  /-- WAITT (R75): Waits for one token to complete and returns its status, freeing it. -/
  | waitt (a : At) (rd ra : Reg) (imm : BitVec 16)
  /-- WAITM (R75): Waits for any token of a mask to complete and returns status and token number. -/
  | waitm (a : At) (rd ra : Reg) (imm : BitVec 16)
  /-- WAITP (R76): Waits for phase edge p of the task's tick. -/
  | waitp (a : At) (rd ra : Reg) (imm : BitVec 16)
  /-- BAR (R77): Registers the slot's arrival at a barrier and waits for its release. -/
  | bar (a : At) (rd ra : Reg) (imm : BitVec 16)
  /-- HSEND (R81): Queues a 32-bit user message for a core on a user channel. -/
  | hsend (a : At) (rd ra rb : Reg) (fn : BitVec 11)
  /-- HRECV (R82): Takes the oldest user message of a channel, polling or waiting. -/
  | hrecv (a : At) (rd ra : Reg) (imm : BitVec 16)
  /-- TEND (R51): Ends the task, putting the slot in ENDING to drain tokens and close windows. -/
  | tend (a : At) (rd ra : Reg) (imm : BitVec 16)
  /-- YIELD (R83): Makes the slot ineligible until another slot issues or 8 cycles pass. -/
  | yield (a : At) (rd ra : Reg) (imm : BitVec 16)
  /-- RAISE (R83): Faults the slot with RAISED, recording ra. -/
  | raise (a : At) (rd ra : Reg) (imm : BitVec 16)
  /-- RDPAR (R83): Reads the core parameter register at offset 0x0100 + 8k. -/
  | rdpar (a : At) (rd ra : Reg) (imm : BitVec 16)
  /-- RDSYS (R84): Reads a system value such as cycles, tick number, phase or COMMIT_SEQ. -/
  | rdsys (a : At) (rd ra : Reg) (imm : BitVec 16)
  /-- CLRFLG (R83): Clears the selected IEEE flags and SAT of the slot. -/
  | clrflg (a : At) (rd ra : Reg) (imm : BitVec 16)
  /-- LOAD_DATA_RETURN (R71): Load, atomic or TAKE data returns 6 cycles after the bank grant and releases the slot. -/
  | loadDataReturn (a : At)
  /-- BANK_GRANT (R89): A scratchpad bank grants one waiting request by priority and performs its access. -/
  | bankGrant (c : CoreIx) (bank : Fin 16) (err : EccErr)
  /-- SCRUB_READ (R94): Every 8,192 cycles a powered bank scrubs its next line. -/
  | scrubRead (c : CoreIx) (bank : Fin 16) (err : EccErr)
  /-- TASK_LAUNCH (R50): The launcher reads a task descriptor, selects a slot, validates, clears and loads it, making it READY. -/
  | taskLaunch (c : CoreIx)
  /-- TASK_ENDED (R51): An ENDING slot whose tokens and window closes have completed reports the task ended and becomes FREE. -/
  | taskEnded (a : At)
  /-- DESCRIPTOR_COMPLETION (R44): An engine writes a descriptor's status word and completes its token DONE or ERROR, delivering flags. -/
  | descriptorCompletion (c : CoreIx) (eng : Engine)
  /-- COPY (R509): The DMA engine starts a COPY descriptor, moving bytes in transfer order. -/
  | copy (c : CoreIx) (desc : Nat)
  /-- COPY2D (R509): The DMA engine starts a two-dimensional copy row by row. -/
  | copy2d (c : CoreIx) (desc : Nat)
  /-- FILL (R48): The DMA engine starts a FILL writing a repeated 4-byte pattern. -/
  | fill (c : CoreIx) (desc : Nat)
  /-- MCAST (R215): The DMA engine starts a multicast, sending one packet per line on VC 7 along the tree. -/
  | mcast (c : CoreIx) (desc : Nat)
  /-- REPLY_ARRIVAL (R509): A read reply, acknowledgement or refusal reaches the issuing DMA engine for one access. -/
  | replyArrival (acc : Nat)
  /-- MMA (R148): The matrix unit runs a rank-1 accumulation block with the defined chunked dot product. -/
  | mma (c : CoreIx) (err : StreamErr)
  /-- ZACC (R155): The matrix unit zeroes a block of tiles and sets KIND. -/
  | zacc (c : CoreIx)
  /-- LDACC (R155): The matrix unit loads tile elements unchanged from scratchpad. -/
  | ldacc (c : CoreIx) (err : StreamErr)
  /-- ADDACC (R155): The matrix unit adds scratchpad words into tile elements. -/
  | addacc (c : CoreIx) (err : StreamErr)
  /-- STACC (R154): The matrix unit converts and writes tile elements to scratchpad. -/
  | stacc (c : CoreIx) (err : StreamErr)
  /-- CHAIN (R170): The vector engine streams elements through up to eight stages and writes the output. -/
  | chain (c : CoreIx) (err : StreamErr)
  /-- LDPARAM (R168): The vector engine loads every parameter register from a 64-byte block. -/
  | ldparam (c : CoreIx) (err : StreamErr)
  /-- LDTILE (R168): The vector engine copies bytes into a tile buffer. -/
  | ldtile (c : CoreIx) (err : StreamErr)
  /-- REMOTE_WRITE (R102): A remote write arrives at a scratchpad and is performed under a live grant or refused with NACK. -/
  | remoteWrite (acc : Nat)
  /-- REMOTE_READ (R96): A remote read returns current scratchpad contents, or zeros from an off bank. -/
  | remoteRead (acc : Nat)
  /-- MULTICAST_WRITE (R106): A multicast write arrives at a scratchpad and takes a pool credit or is withheld. -/
  | multicastWrite (arr : Nat)
  /-- CREDIT_REQUEST (R104): A credit request arrives and is refused, retried, held or granted. -/
  | creditRequest (acc : Nat)
  /-- HELD_REQUEST_GRANT (R104): A held credit request is granted once credits, slots or a grant entry become free. -/
  | heldRequestGrant (c : CoreIx)
  /-- CREDIT_REPLY (R104): A grant, HOLD, RETRY or REFUSED reply reaches the sending DMA engine. -/
  | creditReply (acc : Nat)
  /-- CREDIT_RETRY (R104): A sender repeats a credit request 1 µs after RETRY. -/
  | creditRetry (c : CoreIx) (desc : Nat)
  /-- CREDIT_RETURN (R104): A sending DMA engine returns its unused credits in one message, releasing unfilled slot reservations. -/
  | creditReturn (c : CoreIx) (desc : Nat)
  /-- GRANT_EXPIRY (R103): A grant expires SPAD_CREDIT_TTL after issue and its outstanding credits are treated as returned. -/
  | grantExpiry (c : CoreIx) (grant : Fin 64)
  /-- CLOSE_COMPLETE (R105): A closing window whose credits are out completes its close, discarding full bits and releasing waiting checked accesses. -/
  | closeComplete (c : CoreIx) (win : Fin 32)
  /-- PD_REQ (R113): A write of SPAD_BANK_PWR.PD_REQ requests power-down of banks. -/
  | pdReq (c : CoreIx) (banks : BitVec 16)
  /-- PU_REQ (R114): A write of SPAD_BANK_PWR.PU_REQ requests power-up of banks. -/
  | puReq (c : CoreIx) (banks : BitVec 16)
  /-- AUTO_POWER_DOWN (R113): A bank uncovered and not kept for 100 µs is requested off under AUTO_PD. -/
  | autoPowerDown (c : CoreIx) (bank : Fin 16)
  /-- BANK_POWER_DOWN (R113): A pending power-down proceeds once the bank is uncovered; the bank is off 64 cycles later. -/
  | bankPowerDown (c : CoreIx) (bank : Fin 16)
  /-- POWER_DOWN_TIMEOUT (R113): A power-down request waiting 100 µs is cancelled and PD_TIMEOUT set. -/
  | powerDownTimeout (c : CoreIx) (bank : Fin 16)
  /-- BANK_POWER_UP_DONE (R114): A bank completes power-up and reads as zero. -/
  | bankPowerUpDone (c : CoreIx) (bank : Fin 16)
  /-- ICINV (R42): A write of CORE_CTRL.ICINV starts invalidation of the instruction cache. -/
  | icinv (c : CoreIx)
  /-- ICACHE_INVALIDATION_DONE (R42): The instruction cache invalidation finishes and ICINV reads 0. -/
  | icacheInvalidationDone (c : CoreIx)
  /-- LAUNCH_EN (R50): A write of CORE_CTRL.LAUNCH_EN lets waiting launches proceed or holds them. -/
  | launchEn (c : CoreIx) (en : Bool)
  /-- TASK_FAULT_VALID_CLEAR (R57): A write of 1 to TASK_FAULT.VALID clears the fault record. -/
  | taskFaultValidClear (a : At)
  /-- ROC_READ (R6): A read of a ROC register returns its value and clears it. -/
  | rocRead (p : RegPlace) (wide : Bool)
  /-- REGISTER_WRITE (R6): A write to any register without a row of its own, following its access code. -/
  | registerWrite (p : RegPlace) (wide : Bool) (v : BitVec 64)
  /-- RWT_WRITE (R276): A write to an RWT field lands in the shadow set and clears SEALED, or is ignored while LOCKED. -/
  | rwtWrite (p : RegPlace) (wide : Bool) (v : BitVec 64)
  /-- DRAM_READ (R187): A DRAM port accepts a read and either merges it or starts a DRAM access. -/
  | dramRead (acc : Nat)
  /-- DRAM_WRITE (R183): A DRAM port accepts a full or masked write to a line. -/
  | dramWrite (acc : Nat) (err : Symbols)
  /-- DRAM_READ_DATA (R185): Read data returns at the port, corrected, uncorrectable or poisoned, and replies go to each merged requester. -/
  | dramReadData (site : Fin 204) (port : Fin 8) (k : Nat) (err : Symbols)
  /-- REFRESH (R181): A bank refresh falls due at the refresh interval. -/
  | refresh (site : Fin 204) (port : Fin 8) (bank : Fin 32)
  /-- PATROL_READ (R185): Patrol scrub reads and corrects the next line of a port. -/
  | patrolRead (site : Fin 204) (port : Fin 8) (err : Symbols)
  /-- DRAM_LIMIT_INTERVAL (R191): A new 1 µs interval starts and releases requests held at the thermal line limit. -/
  | dramLimitInterval (site : Fin 204) (port : Fin 8)
  /-- THERMAL_SAMPLE (R191): Every 1 µs the port samples the die temperature and changes thermal state or die protection. -/
  | thermalSample (site : Fin 204) (temp : Fin 256)
  /-- DRAM_RETIRE (R194): A write of DRAM_RETIRE_CMD with GO retires a row, bank or port. -/
  | dramRetire (site : Fin 204) (cmd : BitVec 32)
  /-- PACKET_DIE_ENTRY (R203): A packet injected or entering a die chooses its exit from MESH_ROUTE or the escape tree, or is discarded. -/
  | packetDieEntry (pkt : Nat)
  /-- ROUTER_FORWARD (R201): A router output grants a packet by VC priority when its next buffer has room. -/
  | routerForward (h : Hop)
  /-- ESCAPE_ENTRY (R203): A head that has waited ESC_WAIT cycles enters VC 6 when its escape pool has room. -/
  | escapeEntry (pkt : Nat)
  /-- MCAST_BRANCH_DROP (R216): A multicast branch held 2.0 µs is dropped with a miss notice and a drop record. -/
  | mcastBranchDrop (pkt : Nat)
  /-- MISS_NOTICE (R216): A miss notice reaches the source DMA engine naming missed targets. -/
  | missNotice (k : Nat)
  /-- MCAST_ACK (R215): A multicast target acknowledges the LAST packet with OK or a refusal. -/
  | mcastAck (k : Nat)
  /-- MCAST_RESEND (R217): Once every target is accounted, the engine re-sends to missed targets by unicast, then writes the bitmap and status. -/
  | mcastResend (c : CoreIx) (desc : Nat)
  /-- SEAM_LINK_FAIL (R206): A seam link fails between tacks; its stations fence it and stop granting credits. -/
  | seamLinkFail (site : Fin 204) (exit : Fin 4)
  /-- THROTTLE_LEVEL_FALL (R219): A router's injection throttle level falls by one after 256 cycles below the threshold. -/
  | throttleLevelFall (c : CoreIx)
  /-- HALYARD_FORWARD (R225): A hub output sends its next halyard message by class priority. -/
  | halyardForward (h : Fin 214) (out : HubPort) (cls0 : Bool)
  /-- PHASE_SEND (R240): The generator sends a PHASE message L0 cycles before the edge is due. -/
  | phaseSend (tick : Nat)
  /-- PHASE (R228): A phase edge takes effect at every node, releasing WAITP and launching the edge's tasks. -/
  | phase
  /-- ABANDON (R245): ABANDON takes effect at every node, cancelling ticks X and X+1 and discarding their state. -/
  | abandon
  /-- COMMIT (R248): COMMIT takes effect: COMMIT_SEQ, world counters, schedule position and held run-ahead operations all advance. -/
  | commit
  /-- TACK (R279): The TACK message takes effect and every holder exchanges its active and shadow copies. -/
  | tack
  /-- CONTROL (R224): A class-0 CONTROL message takes effect at all nodes or one node. -/
  | control (cmd : BitVec 9) (operand : BitVec 32) (node : Option CoreIx)
  /-- BAR_UP (R230): A hub combines barrier arrivals and sends them upward, the root then releasing. -/
  | barUp (h : Fin 214) (k : Fin 2)
  /-- BAR_REL (R230): A barrier release descends and frees waiting slots, starting the next episode. -/
  | barRel (h : Fin 214)
  /-- VOTE (R229): A hub combines member votes of one tick and attempt and sends one upward. -/
  | vote (h : Fin 214) (k : Fin 3)
  /-- NOTICE (R226): A task-fault, scale-overflow, core-lost or event notice climbs to the tick generator. -/
  | notice (hop : NoticeHop)
  /-- DIE_HB (R233): A die heartbeat reaches the root. -/
  | dieHb (h : Fin 214)
  /-- HIST (R234): Histogram counts are summed at hubs into the panel-wide merge. -/
  | hist (h : Fin 214) (k : Fin 2) (slot : Fin 16)
  /-- USER (R235): A user message arrives and is queued or refused. -/
  | user (h : Fin 214)
  /-- USER_ACK (R235): A user message acknowledgement or refusal reaches the sender. -/
  | userAck (h : Fin 214)
  /-- DEBUG (R224): An internal halyard debug message is delivered. -/
  | halDebug (h : Fin 214)
  /-- USER_RESEND (R235): A refused user message is re-sent after 0.5 µs. -/
  | userResend (c : CoreIx)
  /-- HEARTBEAT (R233): Every 1.0 µs active nodes send heartbeats and hubs send DIE_HB. -/
  | heartbeat (h : Fin 214)
  /-- HEARTBEAT_TIMEOUT (R233): A hub declares a core lost after 2.5 µs without its heartbeat and sends a kind-2 notice. -/
  | heartbeatTimeout (c : CoreIx)
  /-- DIE_HB_TIMEOUT (R233): The root declares a die lost after 2.5 µs without its DIE_HB. -/
  | dieHbTimeout (h : Fin 214)
  /-- START_TICK (R239): The generator starts a ready tick at its aligned start time, setting budgets and sending its edges. -/
  | startTick (fixed eta : BitVec 16)
  /-- TICK_IN_EDGE (R239): A rising edge on the tick-in pin aligns a waiting tick's start. -/
  | tickInEdge
  /-- ROOT_VOTE (R249): The root holds the combined vote of a tick, setting D or abandoning on OK = 0. -/
  | rootVote (k : Fin 2)
  /-- TICK_END (R243): At the later of t0 + P and D the tick ends, starting reset copies and possibly run-ahead. -/
  | tickEnd (tick : Nat)
  /-- OVERRUN (R243): With no combined vote by t_eff + P + A the tick is abandoned with cause OVERRUN. -/
  | overrun (tick : Nat)
  /-- COMMIT_TIMEOUT (R243): A tick not committed by the grace deadline is abandoned with cause COMMIT_TIMEOUT. -/
  | commitTimeout (tick : Nat)
  /-- RESET_COPY (R255): The die holding a world slot copies its template into the slot. -/
  | resetCopy (w : Fin 4096) (bad : List Nat)
  /-- RESET_COPY_COMPLETE (R255): The host bridge die reports all reset copies of the tick complete. -/
  | resetCopyComplete (tick : Nat)
  /-- WCTX_DONE_SET (R254): A task write to a done-mark word marks worlds done for its tick and attempt. -/
  | wctxDoneSet (acc : Nat)
  /-- RESET_REQ (R254): A host write of RESET_REQ marks a world for the next tick to start. -/
  | resetReq (w : Fin 4096)
  /-- WCTX_STATUS_WRITE (R267): A write of a world status word is applied or refused as a whole. -/
  | wctxStatusWrite (w : Fin 4096) (v : Word)
  /-- HELD_DXI_ENQUEUE (R260): A run-ahead DXI released at commit enters its queue once it has a place. -/
  | heldDxiEnqueue (c : CoreIx)
  /-- RUN (R251): A write of TICK_CTRL.RUN starts, resumes or stops ticking. -/
  | run (run : Bool)
  /-- STEP_LEFT (R251): A write of TICK_CTRL.STEP_LEFT sets the number of ticks to commit before RUN clears. -/
  | stepLeft (n : BitVec 32)
  /-- TICK_COMMIT_SEQ_WRITE (R251): A write of TICK_COMMIT_SEQ while STOPPED or HALTED sets the sequence, and is otherwise ignored. -/
  | tickCommitSeqWrite (v : Word)
  /-- TACK_BOUNDARY (R279): At the first tick boundary after a TACK is accepted, the mesh drains, templates close and TACK is sent. -/
  | tackBoundary
  /-- TACK_COMPLETE (R279): When the root holds every TACK vote the generations advance, LOCKED clears and the command completes. -/
  | tackComplete
  /-- TACK_VOTE_TIMEOUT (R282): The root's 2.0 µs vote timer completes a tack despite missing votes. -/
  | tackVoteTimeout
  /-- COLL_POST (R292): A stamped 64-byte post to a unit is accepted, discarded or refused. -/
  | collPost (acc : Nat)
  /-- SCALE_FIX (R285): A unit fixes S_eff and GEN for a tick once its conditions hold and writes COLL_SCALE. -/
  | scaleFix (d : Fin 192)
  /-- BUCKET_START (R295): A unit starts a bucket stage once scale is fixed and every key has a copy. -/
  | bucketStart (d : Fin 192) (tag : Fin 1024)
  /-- UNIT_LINE_STEP (R295): A unit serves one line of a ready bucket, summing source lines and child packets and checking residues. -/
  | unitLineStep (w : CollAt) (flip : Option (Fin 8 × Fin 64)) (bad : List Nat)
  /-- COLLECTIVE_PACKET (R298): A collective packet arrives at a unit or engine, is checked, added or forwarded, and returns a credit. -/
  | collectivePacket (n : Nat) (flip : Option (Fin 8 × Fin 64))
  /-- PAIRING_DEADLINE (R305): t_eff + DEADLINE passes and a paired unit may start without second copies. -/
  | pairingDeadline (d : Fin 192) (tag : Fin 1024)
  /-- BUCKET_COMPLETION_REPORT (R303): A die's completion report reaches the management die; the bucket completes when every member has reported. -/
  | bucketCompletionReport (n : Nat)
  /-- FAILURE_RECORD (R304): A bucket failure record reaches the management die, abandoning X with cause BUCKET. -/
  | failureRecord (n : Nat)
  /-- ENGINE_STAGE_SIGNAL (R300): An engine signals the next engine that its reduce-scatter or all-gather stage is complete. -/
  | engineStageSignal (n : Nat)
  /-- FLIT_RECEIVE (R312): A Vorrad port receives a flit and accepts, discards or NAKs it, freeing acknowledged flits. -/
  | flitReceive (i : Fin 8) (flit : List Byte) (corrected : Nat) (bad : List (Fin 16))
  /-- REPLAY_TIMEOUT (R312): With ACK stalled 2.0 µs the sender replays from ACK + 1. -/
  | replayTimeout (i : Fin 8)
  /-- PORT_TRAINING (R314): A Vorrad port trains, measures delay and exchanges identities. -/
  | portTraining (i : Fin 8) (trained : Bool) (peer : Fin 4096) (port : Fin 8) (dim : Fin 4) (delay : BitVec 16)
  /-- VLNK_CTRL_RETRAIN (R314): A write of VLNK_CTRL.RETRAIN requests an online retraining. -/
  | vlnkCtrlRetrain (i : Fin 8)
  /-- LINK_DOWN (R329): A port without good flits for 8.0 µs or at loss of signal declares its link down and fences. -/
  | linkDown (i : Fin 8) (los : Bool)
  /-- END (R319): An END record combines upward once every child has sent it. -/
  | endRecord (n : Nat)
  /-- OFFER (R319): An OFFER record combines upward once every child has sent it. -/
  | offer (n : Nat)
  /-- HIST_UP (R319): A HIST_UP record combines the highest bins upward. -/
  | histUp (n : Nat)
  /-- ABORT_RECORD (R319): The first ABORT of an attempt is forwarded upward and later ones discarded. -/
  | abortRecord (n : Nat)
  /-- MARK (R321): A MARK record sets a tick start time and is relayed with REMAIN reduced. -/
  | mark (n : Nat)
  /-- TOKEN (R320): A TOKEN record supplies the system commit token for a tick. -/
  | token (n : Nat)
  /-- SYS_ABANDON (R320): A SYS_ABANDON record makes each panel abandon the attempt with cause SYSTEM. -/
  | sysAbandon (n : Nat)
  /-- HIST_DOWN (R320): A HIST_DOWN record delivers the system-wide histogram offer. -/
  | histDown (n : Nat)
  /-- VLNK_XPOST (R324): A post to a send context is queued or refused. -/
  | vlnkXpost (acc : Nat)
  /-- TRANSFER_LINE (R325): A data slot arrives at a receive context and is written, ignored, discarded or refused. -/
  | transferLine (n : Nat)
  /-- TRANSFER_ACK (R325): An acknowledgement slot reaches a send context, advancing ACK or reversing the route. -/
  | transferAck (n : Nat)
  /-- RECEIVE_ACK_TIMER (R325): A receive context acknowledges after 2.0 µs without an acknowledgement. -/
  | receiveAckTimer (c : Fin 4096)
  /-- RETRANSMIT_TIMEOUT (R325): A send context whose ACK has not advanced for 20 µs retransmits. -/
  | retransmitTimeout (c : Fin 4096)
  /-- PATH_TIMEOUT (R326): A post whose dimension stays down for PATH_MS fails with PATH_DOWN. -/
  | pathTimeout (c : Fin 4096)
  /-- TRANSIT_SLOT (R317): A transit slot is forwarded by dimension order or discarded with a PATH_DOWN acknowledgement. -/
  | transitSlot (n : Nat)
  /-- HOST_LINK_TRAINING (R334): The CXL link trains at the highest common rate and width. -/
  | hostLinkTraining (rate : Fin 5) (width : Fin 17) (protocols : Bool)
  /-- HOST_LINK_TIMEOUT (R334): The link has not trained at x4 or wider within 1 s after PERST# deasserts. -/
  | hostLinkTimeout (rate : Fin 5) (width : Fin 17)
  /-- HOST_MEMORY_ACCESS (R338): An access to spaces 0x8–0xF is issued on CXL.cache or refused. -/
  | hostMemoryAccess (acc : Nat) (data : List Byte)
  /-- CXL_MEM_READ (R343): A CXL.mem read is translated through raw or export segments and returns data or poison. -/
  | cxlMemRead (line : Nat) (err : Symbols)
  /-- CXL_MEM_WRITE (R344): A CXL.mem write reaches a raw segment or is discarded. -/
  | cxlMemWrite (line : Nat) (data : List Byte) (mask : BitVec 64)
  /-- HOST_MEM_EN (R341): A write of HOST_MEM_CTRL.EN = 1 validates the segment table and enables the window. -/
  | hostMemEn (on : Bool)
  /-- COMMIT_NOTIFICATION (R348): The host bridge die writes COMMIT_SEQ to the host and signals the vector. -/
  | commitNotification
  /-- IDE_INTEGRITY_FAILURE (R349): An IDE integrity failure discards data, logs it and takes the link down. -/
  | ideIntegrityFailure
  /-- MSIX_UNMASK (R350): Unmasking a pending MSI-X vector sends its interrupt. -/
  | msixUnmask (v : Fin 64) (enable : Bool)
  /-- FUNCTION_LEVEL_RESET (R351): A function level reset aborts commands and clears queue, doorbell and MSI-X state. -/
  | functionLevelReset
  /-- CXL_RESET (R351): A CXL Reset performs a fabric reset and then a function level reset. -/
  | cxlReset
  /-- CONVENTIONAL_RESET (R351): PERST#, hot reset or link disable resets the host interface and HDM decoder. -/
  | conventionalReset
  /-- HOST_LINK_LOSS (R351): The host link goes down without reset and host accesses are refused. -/
  | hostLinkLoss
  /-- PANEL_REGISTER_WINDOW (R354): A BAR0 access to the panel register window acts as a host bridge die register access. -/
  | panelRegisterWindow (off : BitVec 25) (n : Fin 65) (write : Option (BitVec 64))
  /-- FEATURES_OK (R357): A write of FEATURES_OK confirms or refuses the requested feature set. -/
  | featuresOk
  /-- HOST_DRIVER_FEATURES_WRITE (R357): A write of requested feature bits clears REFUSED, or is ignored while FEATURES_OK is 1. -/
  | hostDriverFeaturesWrite (w : Fin 4) (v : BitVec 64)
  /-- QUEUE_ENABLE (R360): A write of HOST_Q_CFG.EN enables or disables a queue pair. -/
  | queueEnable (q : Fin 64) (v : BitVec 64)
  /-- SQ_TAIL_DOORBELL (R361): A write of an SQ tail doorbell offers new commands, or puts the pair in ERROR. -/
  | sqTailDoorbell (q : Fin 64) (v : BitVec 12)
  /-- CQ_HEAD_DOORBELL (R361): A write of a CQ head doorbell frees completion entries, or puts the pair in ERROR. -/
  | cqHeadDoorbell (q : Fin 64) (v : BitVec 12)
  /-- EVENT_HEAD_DOORBELL (R373): A write of the event ring head frees entries and writes a pending EVENTS_LOST record. -/
  | eventHeadDoorbell (v : BitVec 16)
  /-- COMMAND_FETCH (R362): The command processor fetches and starts a command by queue order and weight. -/
  | commandFetch (q : Fin 64) (bytes : List Byte)
  /-- COMPLETION_WRITE (R363): A finished command's completion is written at the CQ tail once an entry is free, then the vector is signalled. -/
  | completionWrite (q : Fin 64)
  /-- IDENTIFY (R370): Writes IDENTIFY page 0 to a host buffer. -/
  | identify (q : Fin 64) (cid : BitVec 16)
  /-- FEATURES_GET (R368): Writes LOCKED_SET to a host buffer. -/
  | featuresGet (q : Fin 64) (cid : BitVec 16)
  /-- ABORT (R368): Removes an unstarted command from a queue. -/
  | abort (q : Fin 64) (cid : BitVec 16) (waiting : List (BitVec 16))
  /-- EVENT_RING (R371): Sets up or disables the event ring. -/
  | eventRing (q : Fin 64) (cid : BitVec 16)
  /-- CFG_LOAD (R274): Loads entries of one section into the shadow set. -/
  | cfgLoad (q : Fin 64) (cid : BitVec 16) (data : List Byte)
  /-- CFG_SEAL (R275): Generates content, serialises, checks and seals the shadow set against a digest. -/
  | cfgSeal (q : Fin 64) (cid : BitVec 16)
  /-- CFG_TACK (R278): Accepts a tack of the sealed shadow set, completing when the tack completes. -/
  | cfgTack (q : Fin 64) (cid : BitVec 16)
  /-- TICK_START (R369): Starts ticking from STOPPED or HALTED. -/
  | tickStart (q : Fin 64) (cid : BitVec 16)
  /-- TICK_STOP (R369): Stops ticking and completes once STOPPED. -/
  | tickStop (q : Fin 64) (cid : BitVec 16)
  /-- TICK_STEP (R369): Runs N ticks and completes after the last commits. -/
  | tickStep (q : Fin 64) (cid : BitVec 16)
  /-- TICK_SET_SEQ (R369): Sets TICK_COMMIT_SEQ while stopped. -/
  | tickSetSeq (q : Fin 64) (cid : BitVec 16)
  /-- WORLD_READ (R369): Returns a world's committed entry. -/
  | worldRead (q : Fin 64) (cid : BitVec 16)
  /-- WORLD_WRITE (R369): Writes selected words of a world entry under R267. -/
  | worldWrite (q : Fin 64) (cid : BitVec 16) (data : List Byte)
  /-- WORLD_RESET (R369): Sets RESET_REQ on a range of worlds. -/
  | worldReset (q : Fin 64) (cid : BitVec 16)
  /-- WORLD_STATE (R369): Sets STATE of a range of worlds after checking all. -/
  | worldState (q : Fin 64) (cid : BitVec 16)
  /-- DMA_WRITE (R369): Copies host memory into panel DRAM or scratchpad. -/
  | dmaWrite (q : Fin 64) (cid : BitVec 16) (data : List Byte)
  /-- DMA_READ (R369): Copies panel DRAM or scratchpad into host memory. -/
  | dmaRead (q : Fin 64) (cid : BitVec 16) (bad : List Nat)
  /-- HIST_READ (R368): Copies a merged histogram slot to a host buffer. -/
  | histRead (q : Fin 64) (cid : BitVec 16)
  /-- TEL_READ (R488): Copies a range of one telemetry snapshot page to the host. -/
  | telRead (q : Fin 64) (cid : BitVec 16)
  /-- POWER_CAP (R368): Writes PWR_HOST_CAP and returns the cap in force. -/
  | powerCap (q : Fin 64) (cid : BitVec 16)
  /-- MAINT_START (R447): Requests a maintenance activity from the arbiter. -/
  | maintStart (q : Fin 64) (cid : BitVec 16)
  /-- MAINT_STOP (R447): Ends a maintenance entry after its current step. -/
  | maintStop (q : Fin 64) (cid : BitVec 16)
  /-- FAULT_REHEARSE (R451): Requests a fault injection as a REHEARSAL entry. -/
  | faultRehearse (q : Fin 64) (cid : BitVec 16)
  /-- BASTE_ATTACH (R453): Attaches the candidate panel to a reference for digest comparison. -/
  | basteAttach (q : Fin 64) (cid : BitVec 16) (answer : Option (List Byte × Word))
  /-- BASTE_PROMOTE (R457): Promotes a ready candidate so its exports begin. -/
  | bastePromote (q : Fin 64) (cid : BitVec 16)
  /-- SHARD_EXPORT (R452): Sends a DRAM range over a send context. -/
  | shardExport (q : Fin 64) (cid : BitVec 16)
  /-- SHARD_IMPORT (R452): Receives a DRAM range on a receive context. -/
  | shardImport (q : Fin 64) (cid : BitVec 16)
  /-- FW_STAGE (R466): Writes and verifies a firmware image into the inactive bank. -/
  | fwStage (q : Fin 64) (cid : BitVec 16) (data : List Byte)
  /-- FW_ACTIVATE (R418): Marks a verified staged bank active for its next loading reset. -/
  | fwActivate (q : Fin 64) (cid : BitVec 16)
  /-- FW_LIVE_UPDATE (R459): Replaces component 0 or 1 with its staged bank while compute continues. -/
  | fwLiveUpdate (q : Fin 64) (cid : BitVec 16)
  /-- ATTEST (R471): Carries one SPDM request and returns its response. -/
  | attest (q : Fin 64) (cid : BitVec 16) (req : SpdmReq)
  /-- CONVERTER_PHASE_FAILURE (R379): A converter group loses a phase and continues or derates or latches off. -/
  | converterPhaseFailure (i : Fin 220) (phase : Fin 4)
  /-- GROUP_OUTPUT_SHORT (R387): A short on a converter group output latches the group off. -/
  | groupOutputShort (i : Fin 220)
  /-- CONVERTER_OVERTEMP (R507): A converter group at 125 °C stops within 1.0 µs. -/
  | converterOvertemp (i : Fin 220)
  /-- REGION_PHASE_FAILURE (R385): A region regulator loses a phase, throttling, entering half rate or going dark by count. -/
  | regionPhaseFailure (site : Fin 204) (r : Fin 10) (phase : Option (Fin 5))
  /-- REGION_OVERCURRENT (R385): A region current above 14.0 A opens and latches the region. -/
  | regionOvercurrent (site : Fin 204) (r : Fin 10)
  /-- ON_REQ (R383): A write of PWR_REGION_CTRL.ON_REQ requests region turn-on. -/
  | onReq (site : Fin 204) (req : BitVec 10)
  /-- OFF_REQ (R384): A write of PWR_REGION_CTRL.OFF_REQ requests region turn-off, or is refused. -/
  | offReq (site : Fin 204) (req : BitVec 10)
  /-- REGION_STAGE (R383): A region header stage closes in the turn-on window and its interval runs; after stage 8 the region is ON. -/
  | regionStage (site : Fin 204) (r : Fin 10) (below above : BitVec 8)
  /-- REGION_TURN_OFF (R384): A region whose slots are all FREE opens all stages. -/
  | regionTurnOff (site : Fin 204) (r : Fin 10)
  /-- CONTACT_ESTIMATE (R388): Every 1.0 ms the die estimates contact resistance and compares it with its baseline. -/
  | contactEstimate (site : Fin 204) (est mv current : BitVec 16)
  /-- POWER_COMPARE (R392): Every 1.0 µs a die compares its power with its budget and moves its throttle limits. -/
  | powerCompare (site : Fin 204) (avg : BitVec 16)
  /-- BACKSTOP_CHECK (R393): Every 1.0 µs the management die checks input power and may force matrix limits to 8. -/
  | backstopCheck (avg : BitVec 16)
  /-- SUPPLY_SAMPLE (R394): Every 100 ns the supply monitor samples the busbar and enters or releases reef mode or shuts down. -/
  | supplySample (mv : BitVec 16)
  /-- INPUT_HIGH_TIMER (R395): The input stays between 12.6 V and 13.2 V for 10 ms. -/
  | inputHighTimer
  /-- REFERENCE_LOSS (R402): The 100 MHz reference disappears and PLLs enter holdover. -/
  | referenceLoss
  /-- HOLDOVER_EXPIRY (R402): The reference has not returned within 1.0 ms and the panel shuts down with cause 3. -/
  | holdoverExpiry
  /-- PLL_LOCK_LOSS (R402): A die's PLL loses lock and the die stops. -/
  | pllLockLoss (v : Fin 214)
  /-- DRIFT_RETRAINING (R405): A seam link margin below 2 UI starts an immediate drift retraining. -/
  | driftRetraining (site : Fin 204) (e : Fin 4) (sep : BitVec 9)
  /-- RETRAINING_COMPLETE (R405): A seam retraining realigns FIFOs, applies repairs and resumes credits, or fences the link. -/
  | retrainingComplete (site : Fin 204) (e : Fin 4) (ok : Bool) (tracks : List (Fin 8 × Fin 256 × Fin 64))
  /-- MARGIN_CONTROL (R407): Every 1.0 µs the margin controller raises or lowers a region voltage or enters half rate. -/
  | marginControl (site : Fin 204) (r : Fin 10) (code : BitVec 6) (cur : BitVec 8)
  /-- HALF_RATE_SWITCH (R408): A region switches to half rate at a 64-cycle boundary. -/
  | halfRateSwitch (site : Fin 204) (r : Fin 10)
  /-- FULL_RATE_RETURN (R409): A region re-planned at full rate returns to full rate in slack. -/
  | fullRateReturn (site : Fin 204) (r : Fin 10)
  /-- REPLAN (R411): A write of CLK_PLAN_CTRL.REPLAN starts a re-plan. -/
  | replan
  /-- REPLAN_INTERVAL (R411): The re-plan interval of operating hours expires and a re-plan starts. -/
  | replanInterval
  /-- COLD_RESET (R416): Input applied after absence of 1 s resets every die and starts bring-up. -/
  | coldReset
  /-- MODULE_RESET (R416): MODULE_RESET# or Pliwick resets the module and restarts bring-up. -/
  | moduleReset (pin : Bool)
  /-- FABRIC_RESET (R427): A write of CFG_RESET_CTRL.FABRIC or Pliwick runs the fabric reset steps F1–F9. -/
  | fabricReset (byWrite : Bool)
  /-- PATCH_RESET (R417): A write of CFG_RESET_CTRL.PATCH core-resets every core of a patch, or is refused. -/
  | patchReset (g : BitVec 8)
  /-- CORE_RESET (R417): A write of CFG_RESET_CTRL.CORE resets one core, or is refused. -/
  | coreReset (core : Fin 9216)
  /-- BRING_UP (R420): The management die runs the bring-up steps through readiness. -/
  | bringUp (f : BootFinding)
  /-- BOOT_STEP_TIMEOUT (R420): A bring-up step exceeds its worst case and bring-up ends with READY 5. -/
  | bootStepTimeout
  /-- IDENTITY_RECORD (R421): A die reports its identity record over the halyard network. -/
  | identityRecord (v : Fin 213) (dieId : BitVec 64) (badCores : BitVec 50) (badExits : BitVec 4)
  /-- BROADCAST_COLLECTION (R425): Pliwick collects firmware bitmaps and resends missing chunks or retires cores. -/
  | broadcastCollection (found : List (CoreIx × Fin 16385 × Bool))
  /-- LOST_NOTICE (R438): A core-lost notice reaches the generator, which abandons the oldest tick and remaps or resets the core. -/
  | lostNotice (h : Fin 214)
  /-- HEARTBEAT_RESUME_TIMEOUT (R439): A reset core's heartbeat has not resumed within 100 µs and the core is retired. -/
  | heartbeatResumeTimeout (c : CoreIx)
  /-- RELOAD (R441): After cancellation or tack completion a core's DMA engine reloads declared ranges from the committed slot. -/
  | reload (core : Fin 9216) (bad : List Nat)
  /-- RELOAD_COMPLETE (R441): A core's reloads complete and its launcher may launch the replay. -/
  | reloadComplete (core : Fin 9216)
  /-- ARBITER_ADMISSION (R447): A queued maintenance entry starts once it conflicts with no earlier entry. -/
  | arbiterAdmission
  /-- SEAM_RETRAIN_ACTIVITY (R446): One arbiter retraining of a seam link in slack. -/
  | seamRetrainActivity (site : Fin 204)
  /-- VLNK_RETRAIN (R446): One online retraining of a Vorrad port in slack. -/
  | vlnkRetrain (i : Fin 8)
  /-- DRAM_RETRAIN (R193): One retraining of a DRAM port in slack. -/
  | dramRetrain (site : Fin 204)
  /-- SCRUB (R446): Accelerated scrub and patrol pass of a resource. -/
  | scrub (handle : BitVec 16)
  /-- MARGIN_SWEEP (R411): One voltage step of a region's plan sweep in slack. -/
  | marginSweep (site : Fin 204) (r : Fin 10) (code : BitVec 6)
  /-- AGEING (R410): One region ageing measurement of 20 µs in slack. -/
  | ageing (site : Fin 204) (index : BitVec 20)
  /-- PHASE_TEST (R446): Each region phase is turned off 10 µs in turn and the rail checked. -/
  | phaseTest (site : Fin 204) (ok : Bool)
  /-- CONTACT_CHECK (R446): One contact resistance estimate at current or drawn load. -/
  | contactCheck (site : Fin 204) (est mv current : BitVec 16)
  /-- SPARE_BIST (R446): One unit of BIST on a spare core or spare site. -/
  | spareBist (site : Fin 204) (ok : Bool)
  /-- BASTE_DIGEST (R456): A reference tick digest reaches the candidate and is compared, counting clean ticks. -/
  | basteDigest (digest : BitVec 64)
  /-- BASTE_DIGEST_TIMEOUT (R456): No digest within 50 µs ends basting. -/
  | basteDigestTimeout
  /-- WATCHDOG_EXPIRY (R458): The management processor watchdog expires and Pliwick restarts. -/
  | watchdogExpiry
  /-- GET_VERSION (R471): SPDM request for supported versions. -/
  | getVersion (doe : Bool)
  /-- GET_CAPABILITIES (R471): SPDM request for capabilities. -/
  | getCapabilities (doe : Bool)
  /-- NEGOTIATE_ALGORITHMS (R471): SPDM request negotiating algorithms. -/
  | negotiateAlgorithms (doe : Bool)
  /-- GET_DIGESTS (R471): SPDM request for certificate digests. -/
  | getDigests (doe : Bool)
  /-- GET_CERTIFICATE (R471): SPDM request for the slot 0 chain. -/
  | getCertificate (doe : Bool)
  /-- CHALLENGE (R471): SPDM challenge answered with a signed CHALLENGE_AUTH. -/
  | challenge (doe : Bool)
  /-- GET_MEASUREMENTS (R468): SPDM request returning the measurements, optionally signed. -/
  | getMeasurements (doe signed : Bool)
  /-- KEY_EXCHANGE (R471): SPDM key exchange for a secured session over DOE. -/
  | keyExchange (doe : Bool)
  /-- FINISH (R471): SPDM FINISH completing a session handshake. -/
  | finish (doe : Bool)
  /-- END_SESSION (R471): SPDM request ending a secured session. -/
  | endSession (doe : Bool)
  /-- LMS_COSIGN (R472): Vendor request returning a device LMS co-signature of the previous signed response. -/
  | lmsCosign (doe : Bool)
  /-- DEBUG_TOKEN (R473): A debug token submission is verified and grants or refuses an unlock, replacing the nonce. -/
  | debugToken (img : List Byte)
  /-- SNAP (R478): A write of TEL_CTRL.SNAP while stopped makes a snapshot boundary. -/
  | snap
  /-- SNAPSHOT_FLIP (R478): Once every die has written or 200 µs pass, the window flips and GEN increments. -/
  | snapshotFlip (missing : List (Fin 192))
  /-- SLACK_REPORT (R485): A die reports its last vote time per patch to the management die for the slack record. -/
  | slackReport (d : Fin 192)
  /-- TEL_GET (R489): MCTP vendor request returning GEN and bytes of a snapshot page. -/
  | telGet (page : BitVec 8) (off : BitVec 16) (n : Fin 49)
  /-- MCTP_STATUS (R489): MCTP vendor request returning READY, COMMIT_SEQ and event state. -/
  | mctpStatus
  /-- MCTP_EVENT (R490): The management die pushes an event record over MCTP in SEQ order. -/
  | mctpEvent
  /-- MCTP_EVENT_RETRY (R490): An unacknowledged MCTP event is repeated after 10 ms, up to 3 times, then dropped. -/
  | mctpEventRetry
  /-- REFERENCE_RETURN (R402): The 100 MHz reference returns during holdover; the panel continues without loss and HOLDOVER clears. -/
  | referenceReturn
  /-- SUPPLY_RECOVERY (R396): Once the input has stayed within 11.4–12.6 V for 100 ms after a supply shutdown, and the reference for 100 ms after cause 3, the module-reset sequence begins. -/
  | supplyRecovery
  /-- VLNK_RETRAINING_COMPLETE (R314): An online Vorrad retraining completes; data resumes, unacknowledged flits replay, and retired lanes leave service with the port narrowed or failed. -/
  | vlnkRetrainingComplete (i : Fin 8) (ok : Bool) (failed : List (Fin 16))
  /-- DRAM_RETRAINING_COMPLETE (R193): A DRAM port retraining ends; the port accepts its waiting requests again, or the failure counts under R435. -/
  | dramRetrainingComplete (site : Fin 204) (port : Fin 8) (ok : Bool)
  /-- LIVE_UPDATE_END (R459): A live update ends when the new image starts, or after 200 ms when the old image resumes; command processing resumes and FW_LIVE_UPDATE completes. -/
  | liveUpdateEnd (started : Bool)
  /-- PLIWICK_RESTART_COMPLETE (R458): Pliwick finishes restarting within 200 ms; paused commands resume and held events are written. -/
  | pliwickRestartComplete
  /-- MANAGEMENT_MEMORY_UNCORRECTABLE (R458): An uncorrectable error in the management processor's own memory restarts Pliwick and raises MGMT_RESTART with cause 2. -/
  | managementMemoryUncorrectable
  /-- AGEING_INTERVAL (R410): Every 24 operating hours Pliwick queues the ageing measurement of each die with the maintenance arbiter. -/
  | ageingInterval (site : Fin 204)
  /-- NEXT_ATTEMPT_MARK (R320): GAP_US after sending SYS_ABANDON, the system root sends MARK for the next attempt. -/
  | nextAttemptMark
  /-- LINE_CREDIT_RETURN (R296): A line credit returned by a receiving unit or engine reaches the sender of a collective line. -/
  | lineCreditReturn (n : Nat)
  /-- INSTRUCTION_CACHE_FILL (R42): An instruction cache fill returns from DRAM through the code pair, installing the line or faulting the slot with CODE_POISON. -/
  | instructionCacheFill (a : At) (err : Symbols)
  /-- CONTEXT_DRAM_REPLY (R325): A VC 5 DRAM read or write reply reaches a link-die transfer context, freeing its edge-queue entry and letting it send the line or acknowledge E − 1. -/
  | contextDramReply (c : Fin 4096) (err : Symbols)
  /-- IDE_KEY_MANAGEMENT (R349): A CXL IDE key management request over a secured SPDM session programs or activates IDE keys. -/
  | ideKeyManagement (cachemem : Bool) (activate : Bool)
  /-- MCTP_EVENT_ACKNOWLEDGED (R490): The destination endpoint acknowledges a pushed EVENT message, releasing SMB_ALERT# and letting the next event be sent. -/
  | mctpEventAcknowledged
deriving DecidableEq, Repr

end Sys2Proof
end

