-- ==== Sys2Proof/Decode.lean ====
section
/-!
DEFINITION. What a word spells: by the bits of the table of commands, whose rows give none; and by the instruction
formats of the task processor (R59–R63).
-/
namespace Sys2Proof

/-- The command a word of the table of commands spells: the table's rows give no bits, so none (log 10). -/
def decodeTableWord (_nbits _w : Nat) : Option Instr := none

/-- The instruction with this OP and FN, its registers and its immediate (R63, R64, R72). None: a reserved OP, or a reserved
FN of OP 0x01 or 0x24. -/
def decodeFields (a : At) (op fn : Nat) (r1 r2 r3 : Reg) (imm : BitVec 16) (imm11 : BitVec 11) (off21 : BitVec 21) (immx : BitVec 48) :
    Option Instr :=
  match op with
  | 1 => match fn with
    | 0 => some (.add a r1 r2 r3)
    | 1 => some (.sub a r1 r2 r3)
    | 2 => some (.and a r1 r2 r3)
    | 3 => some (.or a r1 r2 r3)
    | 4 => some (.xor a r1 r2 r3)
    | 5 => some (.andn a r1 r2 r3)
    | 6 => some (.sll a r1 r2 r3)
    | 7 => some (.srl a r1 r2 r3)
    | 8 => some (.sra a r1 r2 r3)
    | 9 => some (.ror a r1 r2 r3)
    | 10 => some (.slt a r1 r2 r3)
    | 11 => some (.sltu a r1 r2 r3)
    | 12 => some (.min a r1 r2 r3)
    | 13 => some (.max a r1 r2 r3)
    | 14 => some (.minu a r1 r2 r3)
    | 15 => some (.maxu a r1 r2 r3)
    | 16 => some (.mul a r1 r2 r3)
    | 17 => some (.mulhs a r1 r2 r3)
    | 18 => some (.mulhu a r1 r2 r3)
    | 19 => some (.adds a r1 r2 r3)
    | 20 => some (.subs a r1 r2 r3)
    | 21 => some (.divu a r1 r2 r3)
    | 22 => some (.divs a r1 r2 r3)
    | 23 => some (.remu a r1 r2 r3)
    | 24 => some (.rems a r1 r2 r3)
    | 32 => some (.clz a r1 r2 r3)
    | 33 => some (.ctz a r1 r2 r3)
    | 34 => some (.popc a r1 r2 r3)
    | 35 => some (.sextb a r1 r2 r3)
    | 36 => some (.sexth a r1 r2 r3)
    | 37 => some (.sextw a r1 r2 r3)
    | 38 => some (.zextw a r1 r2 r3)
    | _ => none
  | 36 => match fn with
    | 0 => some (.amoadd a r1 r2 r3)
    | 1 => some (.amoswap a r1 r2 r3)
    | 2 => some (.amocas a r1 r2 r3)
    | 3 => some (.amoor a r1 r2 r3)
    | 4 => some (.amoand a r1 r2 r3)
    | _ => none
  | 2 => some (.addi a r1 r2 imm)
  | 3 => some (.andi a r1 r2 imm)
  | 4 => some (.ori a r1 r2 imm)
  | 5 => some (.xori a r1 r2 imm)
  | 6 => some (.slti a r1 r2 imm)
  | 7 => some (.sltiu a r1 r2 imm)
  | 8 => some (.shi a r1 r2 imm)
  | 9 => some (.lui a r1 r2 imm)
  | 10 => some (.lhi a r1 r2 imm)
  | 16 => some (.beq a r1 r2 imm)
  | 17 => some (.bne a r1 r2 imm)
  | 18 => some (.blt a r1 r2 imm)
  | 19 => some (.bge a r1 r2 imm)
  | 20 => some (.bltu a r1 r2 imm)
  | 21 => some (.bgeu a r1 r2 imm)
  | 22 => some (.jal a r1 off21)
  | 23 => some (.jalr a r1 r2 imm)
  | 24 => some (.lb a r1 r2 imm)
  | 25 => some (.lbu a r1 r2 imm)
  | 26 => some (.lh a r1 r2 imm)
  | 27 => some (.lhu a r1 r2 imm)
  | 28 => some (.lw a r1 r2 imm)
  | 29 => some (.lwu a r1 r2 imm)
  | 30 => some (.ld a r1 r2 imm)
  | 32 => some (.sb a r1 r2 imm)
  | 33 => some (.sh a r1 r2 imm)
  | 34 => some (.sw a r1 r2 imm)
  | 35 => some (.sd a r1 r2 imm)
  | 38 => some (.take a r1 r2 imm)
  | 39 => some (.put a r1 r2 imm)
  | 40 => some (.mxi a r1 r2 imm)
  | 41 => some (.vxi a r1 r2 imm)
  | 42 => some (.dxi a r1 r2 imm)
  | 44 => some (.wopen a r1 r2 imm)
  | 45 => some (.wclose a r1 r2 r3 imm11)
  | 46 => some (.wstat a r1 r2 r3 imm11)
  | 48 => some (.waitt a r1 r2 imm)
  | 49 => some (.waitm a r1 r2 imm)
  | 50 => some (.waitp a r1 r2 imm)
  | 51 => some (.waitc a r1 r2 imm)
  | 52 => some (.bar a r1 r2 imm)
  | 53 => some (.hsend a r1 r2 r3 imm11)
  | 54 => some (.hrecv a r1 r2 imm)
  | 56 => some (.tend a r1 r2 imm)
  | 57 => some (.yield a r1 r2 imm)
  | 58 => some (.raise a r1 r2 imm)
  | 59 => some (.rdpar a r1 r2 imm)
  | 60 => some (.rdsys a r1 r2 imm)
  | 61 => some (.clrflg a r1 r2 imm)
  | 62 => some (.addix a r1 r2 immx)
  | _ => none

/-- The instruction of slot `a` that the word `w` at its program counter holds, `w1` being the word behind it (R60): OP is
w[5:0]; format R has RD, RA, RB and FN at bits 6, 11, 16 and 21; format I has RD, RA and IMM at 6, 11 and 16; format B has
RA, RB and OFF at 6, 11 and 16; format J has RD and OFF at 6 and 11; format X is format I with IMM[47:32] in the first word
and IMM[31:0] in the second. -/
def decodeWord (a : At) (w w1 : Nat) : Option Instr :=
  decodeFields a (w % 64) (w / 2097152) ⟨w / 64 % 32, Nat.mod_lt _ (by decide)⟩ ⟨w / 2048 % 32, Nat.mod_lt _ (by decide)⟩
    ⟨w / 65536 % 32, Nat.mod_lt _ (by decide)⟩ (BitVec.ofNat 16 (w / 65536)) (BitVec.ofNat 11 (w / 2097152))
    (BitVec.ofNat 21 (w / 2048)) (BitVec.ofNat 48 (w / 65536 * 4294967296 + w1))

end Sys2Proof
end

