-- ==== Sys2Proof/Machine/Bits.lean ====
section
/-!
DEFINITION. Bit fields, sign extension and byte order (R5): little-endian everywhere.
-/
namespace Sys2Proof.Machine

/-- The `w` bits of `x` from bit `lo` up. -/
def field (x lo w : Nat) : Nat := (x >>> lo) % 2 ^ w

/-- `x` with the `w` bits from bit `lo` up replaced by the low `w` bits of `v`. -/
def setField (x lo w v : Nat) : Nat :=
  x - (field x lo w) * 2 ^ lo + (v % 2 ^ w) * 2 ^ lo

/-- Bit `i` of `x`. -/
def bit (x i : Nat) : Bool := x.testBit i

/-- A Bool as a bit. -/
def b2n (b : Bool) : Nat := if b then 1 else 0

/-- The number whose little-endian bytes are `bs` (R5). -/
def leNat : List Byte → Nat
  | [] => 0
  | b :: bs => b.toNat + 256 * leNat bs

/-- The `n` little-endian bytes of `x`. -/
def leBytes : Nat → Nat → List Byte
  | 0, _ => []
  | n + 1, x => BitVec.ofNat 8 x :: leBytes n (x / 256)

/-- The number in the `n` bytes of `bs` from byte `o` up. -/
def leAt (bs : List Byte) (o n : Nat) : Nat := leNat ((bs.drop o).take n)

/-- The bytes of `bs` with those of `v` written from offset `o` up. -/
def patchBytes (bs : List Byte) (o : Nat) (v : List Byte) : List Byte :=
  bs.take o ++ v ++ bs.drop (o + v.length)

/-- Every byte of `bs` from byte `o` to byte `o + n - 1` is zero. -/
def zeroAt (bs : List Byte) (o n : Nat) : Bool := leAt bs o n == 0

/-- `n` bytes of value zero. -/
def zeros (n : Nat) : List Byte := List.replicate n 0

/-- `x` as an `n`-bit number, sign-extended to 64 bits. -/
def sextNat (n x : Nat) : Word := BitVec.signExtend 64 (BitVec.ofNat n x)

/-- The low `n` bits of `x` as a signed number. -/
def toSigned (n x : Nat) : Int := if x % 2 ^ n < 2 ^ (n - 1) then (x % 2 ^ n : Nat) else ((x % 2 ^ n : Nat) : Int) - 2 ^ n

/-- Saturating sum below 2^`w`. -/
def satAdd (w x y : Nat) : Nat := if x + y < 2 ^ w then x + y else 2 ^ w - 1

/-- The quotient rounded up. -/
def ceilDiv (a b : Nat) : Nat := (a + b - 1) / b

/-- The set bits of `x` below bit `n`, ascending. -/
def bitsOf (n x : Nat) : List Nat := (List.range n).filter (fun i => x.testBit i)

/-- The number whose set bits are `l`. -/
def ofBits (l : List Nat) : Nat := l.foldl (fun a i => a ||| 2 ^ i) 0

/-- Insert into an ascending list without repeats. -/
def insertAsc (x : Nat) : List Nat → List Nat
  | [] => [x]
  | y :: ys => if x < y then x :: y :: ys else if x = y then y :: ys else y :: insertAsc x ys

end Sys2Proof.Machine
end

