-- ==== Sys2Proof/Config.lean ====
section
/-!
DEFINITION. What the panel fixes (sizes, clocks, latencies of the spec's tables) and the free values: constants
without a body, for the values the spec leaves open. Nothing can be proved of a free value, so a claim holds whatever
it is.
-/
namespace Sys2Proof.Config

/-- Sites, physical cores per site, logical dies, logical cores per die (R2, R12, R23). -/
def sites : Nat := 204
def physPerSite : Nat := 50
def dies : Nat := 192
def coresPerDie : Nat := 48
/-- Scratchpad bytes, bank bytes (R88). -/
def spadSize : Nat := 0x100000
def bankSize : Nat := 0x10000
/-- DRAM bytes of a die (R22). -/
def dramSize : Nat := 0x400000000

/-- Fabric cycles of 10 ns, 1 µs and 1 ms at 2.1 GHz, and of a halyard cycle (R2, R5). -/
def cyc10ns : Nat := 21
def cycUs : Nat := 2100
def cycMs : Nat := 2100000
def cycSec : Nat := 2100000000
def cycHal : Nat := 2

/-- A fresh value at each use: `n` is the counter the state keeps. -/
opaque freeWord : Nat → BitVec 64
/-- A free natural number at each use. -/
opaque freeNat : Nat → Nat
/-- A free bit at each use. -/
opaque freeBit : Nat → Bool
/-- The value of a core's 16-bit LFSR after the one given: the spec gives its width and its seed, not its polynomial (R204). -/
opaque lfsrNext : BitVec 16 → BitVec 16
/-- LOADED of `MESH_DIST` by calibration, logical die, core and target: a measurement (R30). -/
opaque freeLoaded : Nat → Nat → Nat → Nat → BitVec 12
/-- The serial number of the module (R370): byte `i` of its ASCII text. -/
opaque serialByte : Nat → BitVec 8
/-- Verification of a signature over a header under a vendor key (R465): the key of the key block, the header, and the ECDSA or LMS
field of the signature block. -/
opaque ecdsaVerifies : List (BitVec 8) → List (BitVec 8) → List (BitVec 8) → Bool
opaque lmsVerifies : List (BitVec 8) → List (BitVec 8) → List (BitVec 8) → Bool
/-- The bytes of an SPDM response, drawn fresh: the spec names the messages, not their bytes (R471). -/
opaque spdmBytes : Nat → List (BitVec 8)
/-- A 384-bit digest of what the spec does not lay out in bytes (R468), by what it covers. -/
opaque digestOf : List Nat → Nat

end Sys2Proof.Config
end

