-- ==== Sys2Proof/Machine/RegTable.lean ====
section
/-!
DEFINITION. The register maps of the spec as data: for every register its space, offset, element strides, width,
reset value, and the masks of its fields by access code (R6, R7, R8). One row per row of the spec's summary tables,
the masks from the field tables; a bit in no mask is reserved or read-only.
-/
namespace Sys2Proof.Machine

/-- The register spaces: of each core (panel space 0x2), of each die (0x3; MESH and COLL registers also at the edge
dies), of each Vorrad link die, of the management die, and BAR0 of the host bridge die. -/
inductive RegSpace where
  | core | die | link | mgmt | bar
deriving DecidableEq, Repr

/-- One register, or one array of registers with up to two indices. `level`: 0 the register resets at a cold and a
module reset, 1 also at a fabric reset, 2 also at a core reset. -/
structure RegRow where
  space : RegSpace
  off : Nat
  stride1 : Nat
  count1 : Nat
  stride2 : Nat
  count2 : Nat
  bytes : Nat
  reset : Nat
  rw : Nat
  w1c : Nat
  w1s : Nat
  roc : Nat
  rwt : Nat
  wo : Nat
  level : Nat
deriving DecidableEq, Repr

/-- Offset of `CFG_PLACE_SITE`. -/
def rCFG_PLACE_SITE : Nat := 0x2000
/-- Offset of `CFG_PLACE_GEN`. -/
def rCFG_PLACE_GEN : Nat := 0x2004
/-- Offset of `CFG_SPARE_CORE`. -/
def rCFG_SPARE_CORE : Nat := 0x2008
/-- Offset of `CFG_CORE_PHYS`. -/
def rCFG_CORE_PHYS : Nat := 0x2040
/-- Offset of `MESH_DIST`. -/
def rMESH_DIST : Nat := 0x10000
/-- Offset of `CORE_CTRL`. -/
def rCORE_CTRL : Nat := 0x0
/-- Offset of `CORE_STATUS`. -/
def rCORE_STATUS : Nat := 0x8
/-- Offset of `CORE_FAULT_COUNT`. -/
def rCORE_FAULT_COUNT : Nat := 0x10
/-- Offset of `CORE_ID`. -/
def rCORE_ID : Nat := 0x100
/-- Offset of `CORE_FAMILY`. -/
def rCORE_FAMILY : Nat := 0x108
/-- Offset of `CORE_SLOTS`. -/
def rCORE_SLOTS : Nat := 0x110
/-- Offset of `CORE_SPAD_SIZE`. -/
def rCORE_SPAD_SIZE : Nat := 0x118
/-- Offset of `CORE_SPAD_GEOM`. -/
def rCORE_SPAD_GEOM : Nat := 0x120
/-- Offset of `CORE_MXU_PARAM`. -/
def rCORE_MXU_PARAM : Nat := 0x128
/-- Offset of `CORE_VEC_PARAM`. -/
def rCORE_VEC_PARAM : Nat := 0x130
/-- Offset of `CORE_ICACHE`. -/
def rCORE_ICACHE : Nat := 0x138
/-- Offset of `CORE_PANEL`. -/
def rCORE_PANEL : Nat := 0x140
/-- Offset of `CORE_CLOCK`. -/
def rCORE_CLOCK : Nat := 0x148
/-- Offset of `TASK_STATE`. -/
def rTASK_STATE : Nat := 0x1000
/-- Offset of `TASK_PC`. -/
def rTASK_PC : Nat := 0x1008
/-- Offset of `TASK_CODE_BASE`. -/
def rTASK_CODE_BASE : Nat := 0x1010
/-- Offset of `TASK_CODE_BOUND`. -/
def rTASK_CODE_BOUND : Nat := 0x1018
/-- Offset of `TASK_SPAD_SEG`. -/
def rTASK_SPAD_SEG : Nat := 0x1020
/-- Offset of `TASK_DRAM_BASE`. -/
def rTASK_DRAM_BASE : Nat := 0x1028
/-- Offset of `TASK_DRAM_BOUND`. -/
def rTASK_DRAM_BOUND : Nat := 0x1030
/-- Offset of `TASK_TOKENS`. -/
def rTASK_TOKENS : Nat := 0x1038
/-- Offset of `TASK_FAULT`. -/
def rTASK_FAULT : Nat := 0x1040
/-- Offset of `TASK_FAULT_ADDR`. -/
def rTASK_FAULT_ADDR : Nat := 0x1048
/-- Offset of `SPAD_CTRL`. -/
def rSPAD_CTRL : Nat := 0x2000
/-- Offset of `SPAD_BANK_PWR`. -/
def rSPAD_BANK_PWR : Nat := 0x2008
/-- Offset of `SPAD_BANK_STATUS`. -/
def rSPAD_BANK_STATUS : Nat := 0x2010
/-- Offset of `SPAD_INFLIGHT`. -/
def rSPAD_INFLIGHT : Nat := 0x2018
/-- Offset of `SPAD_ECC_CE`. -/
def rSPAD_ECC_CE : Nat := 0x2020
/-- Offset of `SPAD_ECC_UE`. -/
def rSPAD_ECC_UE : Nat := 0x2028
/-- Offset of `SPAD_ECC_LAST`. -/
def rSPAD_ECC_LAST : Nat := 0x2030
/-- Offset of `SPAD_NACK_COUNT`. -/
def rSPAD_NACK_COUNT : Nat := 0x2038
/-- Offset of `SPAD_NACK_LAST`. -/
def rSPAD_NACK_LAST : Nat := 0x2040
/-- Offset of `SPAD_CREDIT_TTL`. -/
def rSPAD_CREDIT_TTL : Nat := 0x2048
/-- Offset of `SPAD_GRANTS`. -/
def rSPAD_GRANTS : Nat := 0x2050
/-- Offset of `SPAD_WIN_RANGE`. -/
def rSPAD_WIN_RANGE : Nat := 0x2100
/-- Offset of `SPAD_WIN_CFG`. -/
def rSPAD_WIN_CFG : Nat := 0x2108
/-- Offset of `SPAD_WIN_WRITERS`. -/
def rSPAD_WIN_WRITERS : Nat := 0x2110
/-- Offset of `SPAD_WIN_STATUS`. -/
def rSPAD_WIN_STATUS : Nat := 0x2118
/-- Offset of `CORE_HIST_BIN`. -/
def rCORE_HIST_BIN : Nat := 0x3000
/-- Offset of `CORE_HIST_STAT`. -/
def rCORE_HIST_STAT : Nat := 0x3110
/-- Offset of `MXU_STATUS`. -/
def rMXU_STATUS : Nat := 0x5000
/-- Offset of `MXU_THROTTLE`. -/
def rMXU_THROTTLE : Nat := 0x5008
/-- Offset of `MXU_BUSY_CYCLES`. -/
def rMXU_BUSY_CYCLES : Nat := 0x5010
/-- Offset of `MXU_STALL_CYCLES`. -/
def rMXU_STALL_CYCLES : Nat := 0x5018
/-- Offset of `MXU_DESC_COUNT`. -/
def rMXU_DESC_COUNT : Nat := 0x5020
/-- Offset of `MXU_LAST_ERROR`. -/
def rMXU_LAST_ERROR : Nat := 0x5028
/-- Offset of `VEC_STATUS`. -/
def rVEC_STATUS : Nat := 0x5400
/-- Offset of `VEC_THROTTLE`. -/
def rVEC_THROTTLE : Nat := 0x5408
/-- Offset of `VEC_BUSY_CYCLES`. -/
def rVEC_BUSY_CYCLES : Nat := 0x5410
/-- Offset of `VEC_STALL_CYCLES`. -/
def rVEC_STALL_CYCLES : Nat := 0x5418
/-- Offset of `VEC_DESC_COUNT`. -/
def rVEC_DESC_COUNT : Nat := 0x5420
/-- Offset of `VEC_LAST_ERROR`. -/
def rVEC_LAST_ERROR : Nat := 0x5428
/-- Offset of `VEC_QOVF`. -/
def rVEC_QOVF : Nat := 0x5430
/-- Offset of `VEC_PARAM`. -/
def rVEC_PARAM : Nat := 0x5440
/-- Offset of `DRAM_CTRL`. -/
def rDRAM_CTRL : Nat := 0x20000
/-- Offset of `DRAM_ARB_WEIGHT`. -/
def rDRAM_ARB_WEIGHT : Nat := 0x20004
/-- Offset of `DRAM_THERMAL`. -/
def rDRAM_THERMAL : Nat := 0x20008
/-- Offset of `DRAM_RETIRE_CMD`. -/
def rDRAM_RETIRE_CMD : Nat := 0x20010
/-- Offset of `DRAM_RETIRE_STAT`. -/
def rDRAM_RETIRE_STAT : Nat := 0x20014
/-- Offset of `DRAM_PORT_STATUS`. -/
def rDRAM_PORT_STATUS : Nat := 0x21000
/-- Offset of `DRAM_BANKS_RETIRED`. -/
def rDRAM_BANKS_RETIRED : Nat := 0x21004
/-- Offset of `DRAM_CE_COUNT`. -/
def rDRAM_CE_COUNT : Nat := 0x21008
/-- Offset of `DRAM_UE_COUNT`. -/
def rDRAM_UE_COUNT : Nat := 0x2100c
/-- Offset of `DRAM_ERR_LAST`. -/
def rDRAM_ERR_LAST : Nat := 0x21010
/-- Offset of `DRAM_READ_COUNT`. -/
def rDRAM_READ_COUNT : Nat := 0x21014
/-- Offset of `DRAM_MERGE_COUNT`. -/
def rDRAM_MERGE_COUNT : Nat := 0x21018
/-- Offset of `DRAM_WRITE_COUNT`. -/
def rDRAM_WRITE_COUNT : Nat := 0x2101c
/-- Offset of `DRAM_RETIRED_ROW`. -/
def rDRAM_RETIRED_ROW : Nat := 0x21100
/-- Offset of `MESH_DIE_CFG`. -/
def rMESH_DIE_CFG : Nat := 0x30000
/-- Offset of `MESH_TREE`. -/
def rMESH_TREE : Nat := 0x30004
/-- Offset of `MESH_SEAM_STATUS`. -/
def rMESH_SEAM_STATUS : Nat := 0x30008
/-- Offset of `MESH_DISCARD_COUNT`. -/
def rMESH_DISCARD_COUNT : Nat := 0x3000c
/-- Offset of `MESH_ROUTE`. -/
def rMESH_ROUTE : Nat := 0x30100
/-- Offset of `MESH_CORE_CFG`. -/
def rMESH_CORE_CFG : Nat := 0x6000
/-- Offset of `MESH_THROTTLE_CFG`. -/
def rMESH_THROTTLE_CFG : Nat := 0x6008
/-- Offset of `MESH_THROTTLE_STAT`. -/
def rMESH_THROTTLE_STAT : Nat := 0x6010
/-- Offset of `MESH_TEL_CTRL`. -/
def rMESH_TEL_CTRL : Nat := 0x6018
/-- Offset of `MESH_VC_COUNT`. -/
def rMESH_VC_COUNT : Nat := 0x6100
/-- Offset of `MESH_VC_DEPTH`. -/
def rMESH_VC_DEPTH : Nat := 0x6140
/-- Offset of `MESH_STALL_A`. -/
def rMESH_STALL_A : Nat := 0x6180
/-- Offset of `MESH_STALL_B`. -/
def rMESH_STALL_B : Nat := 0x6188
/-- Offset of `MESH_LAT_HIST`. -/
def rMESH_LAT_HIST : Nat := 0x6200
/-- Offset of `HAL_TREE`. -/
def rHAL_TREE : Nat := 0x40000
/-- Offset of `HAL_HB_LOST_LO`. -/
def rHAL_HB_LOST_LO : Nat := 0x40004
/-- Offset of `HAL_HB_LOST_HI`. -/
def rHAL_HB_LOST_HI : Nat := 0x40008
/-- Offset of `HAL_MAX_WAIT`. -/
def rHAL_MAX_WAIT : Nat := 0x4000c
/-- Offset of `HAL_DISCARD`. -/
def rHAL_DISCARD : Nat := 0x40010
/-- Offset of `HAL_CLASS0`. -/
def rHAL_CLASS0 : Nat := 0x40014
/-- Offset of `HAL_BAR_EXPECT`. -/
def rHAL_BAR_EXPECT : Nat := 0x7000
/-- Offset of `HAL_BAR_STAT`. -/
def rHAL_BAR_STAT : Nat := 0x7020
/-- Offset of `HAL_USER_STAT`. -/
def rHAL_USER_STAT : Nat := 0x7028
/-- Offset of `HAL_USER_COUNT`. -/
def rHAL_USER_COUNT : Nat := 0x7030
/-- Offset of `TICK_CTRL`. -/
def rTICK_CTRL : Nat := 0x100000
/-- Offset of `TICK_STATUS`. -/
def rTICK_STATUS : Nat := 0x100008
/-- Offset of `TICK_COMMIT_SEQ`. -/
def rTICK_COMMIT_SEQ : Nat := 0x100010
/-- Offset of `TICK_CUR`. -/
def rTICK_CUR : Nat := 0x100018
/-- Offset of `TICK_SRC`. -/
def rTICK_SRC : Nat := 0x100020
/-- Offset of `TICK_SCHED_LEN`. -/
def rTICK_SCHED_LEN : Nat := 0x100028
/-- Offset of `TICK_TIMING`. -/
def rTICK_TIMING : Nat := 0x100030
/-- Offset of `TICK_ABANDON_COUNT`. -/
def rTICK_ABANDON_COUNT : Nat := 0x100038
/-- Offset of `TICK_LAST_ABANDON`. -/
def rTICK_LAST_ABANDON : Nat := 0x100040
/-- Offset of `TICK_OVERRUN`. -/
def rTICK_OVERRUN : Nat := 0x100048
/-- Offset of `TICK_RA_STAT`. -/
def rTICK_RA_STAT : Nat := 0x100050
/-- Offset of `TICK_SCHED`. -/
def rTICK_SCHED : Nat := 0x100100
/-- Offset of `TICK_PHASE`. -/
def rTICK_PHASE : Nat := 0x100400
/-- Offset of `TICK_RA_LO`. -/
def rTICK_RA_LO : Nat := 0x50000
/-- Offset of `TICK_RA_HI`. -/
def rTICK_RA_HI : Nat := 0x50004
/-- Offset of `CFG_STATUS`. -/
def rCFG_STATUS : Nat := 0x200000
/-- Offset of `CFG_GEN`. -/
def rCFG_GEN : Nat := 0x200008
/-- Offset of `CFG_TACK_STAT`. -/
def rCFG_TACK_STAT : Nat := 0x200010
/-- Offset of `CFG_TACK_COUNT`. -/
def rCFG_TACK_COUNT : Nat := 0x200018
/-- Offset of `CFG_ERROR`. -/
def rCFG_ERROR : Nat := 0x200020
/-- Offset of `CFG_ACTIVE_DIGEST`. -/
def rCFG_ACTIVE_DIGEST : Nat := 0x200040
/-- Offset of `CFG_SHADOW_DIGEST`. -/
def rCFG_SHADOW_DIGEST : Nat := 0x200080
/-- Offset of `COLL_POST`. -/
def rCOLL_POST : Nat := 0x60000
/-- Offset of `COLL_UNIT_STATUS`. -/
def rCOLL_UNIT_STATUS : Nat := 0x60040
/-- Offset of `COLL_MISMATCH`. -/
def rCOLL_MISMATCH : Nat := 0x60044
/-- Offset of `COLL_POST_ERR`. -/
def rCOLL_POST_ERR : Nat := 0x60048
/-- Offset of `COLL_LATE`. -/
def rCOLL_LATE : Nat := 0x6004c
/-- Offset of `COLL_ERR_LAST`. -/
def rCOLL_ERR_LAST : Nat := 0x60050
/-- Offset of `COLL_ERR_LINE`. -/
def rCOLL_ERR_LINE : Nat := 0x60054
/-- Offset of `COLL_SCALE_TICK`. -/
def rCOLL_SCALE_TICK : Nat := 0x60058
/-- Offset of `COLL_SCALE`. -/
def rCOLL_SCALE : Nat := 0x61000
/-- Offset of `COLL_FAIL`. -/
def rCOLL_FAIL : Nat := 0x300000
/-- Offset of `COLL_COUNT`. -/
def rCOLL_COUNT : Nat := 0x300008
/-- Offset of `COLL_PENDING`. -/
def rCOLL_PENDING : Nat := 0x300040
/-- Offset of `VLNK_CTRL`. -/
def rVLNK_CTRL : Nat := 0x80000
/-- Offset of `VLNK_STATUS`. -/
def rVLNK_STATUS : Nat := 0x80008
/-- Offset of `VLNK_PEER`. -/
def rVLNK_PEER : Nat := 0x80010
/-- Offset of `VLNK_FEC`. -/
def rVLNK_FEC : Nat := 0x80018
/-- Offset of `VLNK_RETRY`. -/
def rVLNK_RETRY : Nat := 0x80020
/-- Offset of `VLNK_FLITS`. -/
def rVLNK_FLITS : Nat := 0x80028
/-- Offset of `VLNK_XPOST`. -/
def rVLNK_XPOST : Nat := 0x81000
/-- Offset of `VLNK_XCTX_CFG`. -/
def rVLNK_XCTX_CFG : Nat := 0x100000
/-- Offset of `VLNK_XCTX_BASE`. -/
def rVLNK_XCTX_BASE : Nat := 0x100008
/-- Offset of `VLNK_XCTX_BYTES`. -/
def rVLNK_XCTX_BYTES : Nat := 0x100010
/-- Offset of `VLNK_XCTX_STATE`. -/
def rVLNK_XCTX_STATE : Nat := 0x100018
/-- Offset of `VLNK_SYS_SHAPE`. -/
def rVLNK_SYS_SHAPE : Nat := 0x400000
/-- Offset of `VLNK_SYS_POS`. -/
def rVLNK_SYS_POS : Nat := 0x400008
/-- Offset of `VLNK_SYS_TIMING`. -/
def rVLNK_SYS_TIMING : Nat := 0x400010
/-- Offset of `VLNK_SYS_STATUS`. -/
def rVLNK_SYS_STATUS : Nat := 0x400018
/-- Offset of `VLNK_SYS_COUNT`. -/
def rVLNK_SYS_COUNT : Nat := 0x400020
/-- Offset of `HOST_LINK`. -/
def rHOST_LINK : Nat := 0x0
/-- Offset of `HOST_COMMIT_SEQ`. -/
def rHOST_COMMIT_SEQ : Nat := 0x8
/-- Offset of `HOST_COMMIT_NOTIFY`. -/
def rHOST_COMMIT_NOTIFY : Nat := 0x10
/-- Offset of `HOST_COMMIT_ADDR`. -/
def rHOST_COMMIT_ADDR : Nat := 0x18
/-- Offset of `HOST_MEM_CTRL`. -/
def rHOST_MEM_CTRL : Nat := 0x20
/-- Offset of `HOST_EXPORT_CFG`. -/
def rHOST_EXPORT_CFG : Nat := 0x28
/-- Offset of `HOST_MEM_ERR`. -/
def rHOST_MEM_ERR : Nat := 0x30
/-- Offset of `HOST_PWIN_BASE`. -/
def rHOST_PWIN_BASE : Nat := 0x38
/-- Offset of `HOST_HPA_BASE`. -/
def rHOST_HPA_BASE : Nat := 0x40
/-- Offset of `HOST_HPA_LIMIT`. -/
def rHOST_HPA_LIMIT : Nat := 0x48
/-- Offset of `HOST_SEG`. -/
def rHOST_SEG : Nat := 0x100
/-- Offset of `HOST_DEVICE_STATUS`. -/
def rHOST_DEVICE_STATUS : Nat := 0x1000
/-- Offset of `HOST_FEAT_CTRL`. -/
def rHOST_FEAT_CTRL : Nat := 0x1008
/-- Offset of `HOST_CMD_STAT`. -/
def rHOST_CMD_STAT : Nat := 0x1010
/-- Offset of `HOST_EVENT_STAT`. -/
def rHOST_EVENT_STAT : Nat := 0x1018
/-- Offset of `HOST_DEVICE_FEATURES`. -/
def rHOST_DEVICE_FEATURES : Nat := 0x1020
/-- Offset of `HOST_DRIVER_FEATURES`. -/
def rHOST_DRIVER_FEATURES : Nat := 0x1040
/-- Offset of `HOST_SQ_BASE`. -/
def rHOST_SQ_BASE : Nat := 0x1100
/-- Offset of `HOST_CQ_BASE`. -/
def rHOST_CQ_BASE : Nat := 0x1108
/-- Offset of `HOST_Q_CFG`. -/
def rHOST_Q_CFG : Nat := 0x1110
/-- Offset of `HOST_Q_STATUS`. -/
def rHOST_Q_STATUS : Nat := 0x1118
/-- Offset of `HOST_SQ_TAIL_DB`. -/
def rHOST_SQ_TAIL_DB : Nat := 0x10000
/-- Offset of `HOST_CQ_HEAD_DB`. -/
def rHOST_CQ_HEAD_DB : Nat := 0x10004
/-- Offset of `HOST_EVENT_HEAD_DB`. -/
def rHOST_EVENT_HEAD_DB : Nat := 0x10200
/-- Offset of `PWR_DIE_STATUS`. -/
def rPWR_DIE_STATUS : Nat := 0x70000
/-- Offset of `PWR_DIE_BUDGET`. -/
def rPWR_DIE_BUDGET : Nat := 0x70004
/-- Offset of `PWR_DIE_INPUT`. -/
def rPWR_DIE_INPUT : Nat := 0x70008
/-- Offset of `PWR_CONTACT`. -/
def rPWR_CONTACT : Nat := 0x7000c
/-- Offset of `PWR_REGION_CTRL`. -/
def rPWR_REGION_CTRL : Nat := 0x70010
/-- Offset of `PWR_REGION_STAT`. -/
def rPWR_REGION_STAT : Nat := 0x70020
/-- Offset of `PWR_INPUT`. -/
def rPWR_INPUT : Nat := 0x500000
/-- Offset of `PWR_CAP`. -/
def rPWR_CAP : Nat := 0x500008
/-- Offset of `PWR_HOST_CAP`. -/
def rPWR_HOST_CAP : Nat := 0x500010
/-- Offset of `PWR_CAP_STAT`. -/
def rPWR_CAP_STAT : Nat := 0x500018
/-- Offset of `PWR_REEF_CFG`. -/
def rPWR_REEF_CFG : Nat := 0x500020
/-- Offset of `PWR_REEF_STAT`. -/
def rPWR_REEF_STAT : Nat := 0x500028
/-- Offset of `PWR_REEF_COUNT`. -/
def rPWR_REEF_COUNT : Nat := 0x500030
/-- Offset of `PWR_SUPPLY_REC`. -/
def rPWR_SUPPLY_REC : Nat := 0x500038
/-- Offset of `PWR_GROUP`. -/
def rPWR_GROUP : Nat := 0x500100
/-- Offset of `CLK_DIE_STATUS`. -/
def rCLK_DIE_STATUS : Nat := 0x80000
/-- Offset of `CLK_SEAM`. -/
def rCLK_SEAM : Nat := 0x80010
/-- Offset of `CLK_SEAM_COUNT`. -/
def rCLK_SEAM_COUNT : Nat := 0x80020
/-- Offset of `CLK_MARGIN`. -/
def rCLK_MARGIN : Nat := 0x80040
/-- Offset of `CLK_AGEING`. -/
def rCLK_AGEING : Nat := 0x80080
/-- Offset of `CLK_PLAN`. -/
def rCLK_PLAN : Nat := 0x800c0
/-- Offset of `CLK_PLAN_CTRL`. -/
def rCLK_PLAN_CTRL : Nat := 0x600000
/-- Offset of `CLK_PLAN_STAT`. -/
def rCLK_PLAN_STAT : Nat := 0x600008
/-- Offset of `CLK_REF_STAT`. -/
def rCLK_REF_STAT : Nat := 0x600010
/-- Offset of `CFG_BOOT_STAT`. -/
def rCFG_BOOT_STAT : Nat := 0x201000
/-- Offset of `CFG_BOOT_COUNT`. -/
def rCFG_BOOT_COUNT : Nat := 0x201008
/-- Offset of `CFG_TOPO_STAT`. -/
def rCFG_TOPO_STAT : Nat := 0x201010
/-- Offset of `CFG_FW_STAT`. -/
def rCFG_FW_STAT : Nat := 0x201018
/-- Offset of `CFG_RESET_CTRL`. -/
def rCFG_RESET_CTRL : Nat := 0x201020
/-- Offset of `MNT_ARB_STAT`. -/
def rMNT_ARB_STAT : Nat := 0x700000
/-- Offset of `MNT_REHEARSE_CFG`. -/
def rMNT_REHEARSE_CFG : Nat := 0x700008
/-- Offset of `MNT_REHEARSE_STAT`. -/
def rMNT_REHEARSE_STAT : Nat := 0x700010
/-- Offset of `MNT_BASTE_CFG`. -/
def rMNT_BASTE_CFG : Nat := 0x700018
/-- Offset of `MNT_BASTE_STAT`. -/
def rMNT_BASTE_STAT : Nat := 0x700020
/-- Offset of `MNT_DIGEST`. -/
def rMNT_DIGEST : Nat := 0x700028
/-- Offset of `MNT_FAULT_COUNT`. -/
def rMNT_FAULT_COUNT : Nat := 0x700030
/-- Offset of `MNT_BASTE_REQ`. -/
def rMNT_BASTE_REQ : Nat := 0x700038
/-- Offset of `MNT_ACT`. -/
def rMNT_ACT : Nat := 0x700040
/-- Offset of `SEC_STATUS`. -/
def rSEC_STATUS : Nat := 0x800000
/-- Offset of `SEC_ROLLBACK`. -/
def rSEC_ROLLBACK : Nat := 0x800008
/-- Offset of `SEC_FW`. -/
def rSEC_FW : Nat := 0x800028
/-- Offset of `SEC_LMS_STAT`. -/
def rSEC_LMS_STAT : Nat := 0x800048
/-- Offset of `SEC_DEBUG_NONCE`. -/
def rSEC_DEBUG_NONCE : Nat := 0x800050
/-- Offset of `SEC_KEYHASH`. -/
def rSEC_KEYHASH : Nat := 0x800060
/-- Offset of `TEL_CTRL`. -/
def rTEL_CTRL : Nat := 0x900000
/-- Offset of `TEL_STATUS`. -/
def rTEL_STATUS : Nat := 0x900008
/-- Offset of `TEL_COUNT`. -/
def rTEL_COUNT : Nat := 0x900010
/-- Offset of `TEL_MCTP`. -/
def rTEL_MCTP : Nat := 0x900018

/-- The registers of R30. -/
def regRowsR30 : List RegRow := [
  ⟨.die, rCFG_PLACE_SITE, 0x0, 1, 0x0, 1, 4, 0x0, 0x0, 0x0, 0x0, 0x0, 0x0, 0x0, 0⟩,
  ⟨.die, rCFG_PLACE_GEN, 0x0, 1, 0x0, 1, 4, 0x0, 0x0, 0x0, 0x0, 0x0, 0x0, 0x0, 0⟩,
  ⟨.die, rCFG_SPARE_CORE, 0x0, 1, 0x0, 1, 4, 0x3f1b3f16, 0x0, 0x0, 0x0, 0x0, 0x0, 0x0, 0⟩,
  ⟨.die, rCFG_CORE_PHYS, 0x4, 48, 0x0, 1, 4, 0x0, 0x0, 0x0, 0x0, 0x0, 0x0, 0x0, 0⟩,
  ⟨.die, rMESH_DIST, 0x400, 48, 0x4, 256, 4, 0x0, 0x0, 0x0, 0x0, 0x0, 0x0, 0x0, 0⟩]

/-- The registers of R57. -/
def regRowsR57 : List RegRow := [
  ⟨.core, rCORE_CTRL, 0x0, 1, 0x0, 1, 8, 0xff00, 0xff02, 0x0, 0x1, 0x0, 0x0, 0x0, 2⟩,
  ⟨.core, rCORE_STATUS, 0x0, 1, 0x0, 1, 8, 0x0, 0x0, 0x0, 0x0, 0x0, 0x0, 0x0, 2⟩,
  ⟨.core, rCORE_FAULT_COUNT, 0x0, 1, 0x0, 1, 8, 0x0, 0x0, 0x0, 0x0, 0xffffffff, 0x0, 0x0, 2⟩,
  ⟨.core, rCORE_ID, 0x0, 1, 0x0, 1, 8, 0x0, 0x0, 0x0, 0x0, 0x0, 0x0, 0x0, 2⟩,
  ⟨.core, rCORE_FAMILY, 0x0, 1, 0x0, 1, 8, 0x1024b, 0x0, 0x0, 0x0, 0x0, 0x0, 0x0, 2⟩,
  ⟨.core, rCORE_SLOTS, 0x0, 1, 0x0, 1, 8, 0x10201008, 0x0, 0x0, 0x0, 0x0, 0x0, 0x0, 2⟩,
  ⟨.core, rCORE_SPAD_SIZE, 0x0, 1, 0x0, 1, 8, 0x100000, 0x0, 0x0, 0x0, 0x0, 0x0, 0x0, 2⟩,
  ⟨.core, rCORE_SPAD_GEOM, 0x0, 1, 0x0, 1, 8, 0x90806401010, 0x0, 0x0, 0x0, 0x0, 0x0, 0x0, 2⟩,
  ⟨.core, rCORE_MXU_PARAM, 0x0, 1, 0x0, 1, 8, 0xff0a200820, 0x0, 0x0, 0x0, 0x0, 0x0, 0x0, 2⟩,
  ⟨.core, rCORE_VEC_PARAM, 0x0, 1, 0x0, 1, 8, 0xff080e041008, 0x0, 0x0, 0x0, 0x0, 0x0, 0x0, 2⟩,
  ⟨.core, rCORE_ICACHE, 0x0, 1, 0x0, 1, 8, 0x40040f, 0x0, 0x0, 0x0, 0x0, 0x0, 0x0, 2⟩,
  ⟨.core, rCORE_PANEL, 0x0, 1, 0x0, 1, 8, 0x1000003000c0, 0x0, 0x0, 0x0, 0x0, 0x0, 0x0, 2⟩,
  ⟨.core, rCORE_CLOCK, 0x0, 1, 0x0, 1, 8, 0x41a0834, 0x0, 0x0, 0x0, 0x0, 0x0, 0x0, 2⟩,
  ⟨.core, rTASK_STATE, 0x100, 8, 0x0, 1, 8, 0x0, 0x0, 0x0, 0x0, 0x0, 0x0, 0x0, 0⟩,
  ⟨.core, rTASK_PC, 0x100, 8, 0x0, 1, 8, 0x0, 0x0, 0x0, 0x0, 0x0, 0x0, 0x0, 0⟩,
  ⟨.core, rTASK_CODE_BASE, 0x100, 8, 0x0, 1, 8, 0x0, 0x0, 0x0, 0x0, 0x0, 0x0, 0x0, 0⟩,
  ⟨.core, rTASK_CODE_BOUND, 0x100, 8, 0x0, 1, 8, 0x0, 0x0, 0x0, 0x0, 0x0, 0x0, 0x0, 0⟩,
  ⟨.core, rTASK_SPAD_SEG, 0x100, 8, 0x0, 1, 8, 0x0, 0x0, 0x0, 0x0, 0x0, 0x0, 0x0, 0⟩,
  ⟨.core, rTASK_DRAM_BASE, 0x100, 8, 0x0, 1, 8, 0x0, 0x0, 0x0, 0x0, 0x0, 0x0, 0x0, 0⟩,
  ⟨.core, rTASK_DRAM_BOUND, 0x100, 8, 0x0, 1, 8, 0x0, 0x0, 0x0, 0x0, 0x0, 0x0, 0x0, 0⟩,
  ⟨.core, rTASK_TOKENS, 0x100, 8, 0x0, 1, 8, 0x0, 0x0, 0x0, 0x0, 0x0, 0x0, 0x0, 0⟩,
  ⟨.core, rTASK_FAULT, 0x100, 8, 0x0, 1, 8, 0x0, 0x0, 0x300, 0x0, 0x0, 0x0, 0x0, 0⟩,
  ⟨.core, rTASK_FAULT_ADDR, 0x100, 8, 0x0, 1, 8, 0x0, 0x0, 0x0, 0x0, 0x0, 0x0, 0x0, 0⟩]

/-- The registers of R116. -/
def regRowsR116 : List RegRow := [
  ⟨.core, rSPAD_CTRL, 0x0, 1, 0x0, 1, 8, 0xffff0001, 0xffff0003, 0x0, 0x0, 0x0, 0x0, 0x0, 2⟩,
  ⟨.core, rSPAD_BANK_PWR, 0x0, 1, 0x0, 1, 8, 0x0, 0x0, 0x0, 0xffffffff, 0x0, 0x0, 0x0, 2⟩,
  ⟨.core, rSPAD_BANK_STATUS, 0x0, 1, 0x0, 1, 8, 0xffff, 0x0, 0xffffffff00000000, 0x0, 0x0, 0x0, 0x0, 2⟩,
  ⟨.core, rSPAD_INFLIGHT, 0x0, 1, 0x0, 1, 8, 0x0, 0x0, 0x0, 0x0, 0x0, 0x0, 0x0, 2⟩,
  ⟨.core, rSPAD_ECC_CE, 0x0, 1, 0x0, 1, 8, 0x0, 0x0, 0x0, 0x0, 0xffffffff, 0x0, 0x0, 2⟩,
  ⟨.core, rSPAD_ECC_UE, 0x0, 1, 0x0, 1, 8, 0x0, 0x0, 0x0, 0x0, 0xffffffff, 0x0, 0x0, 2⟩,
  ⟨.core, rSPAD_ECC_LAST, 0x0, 1, 0x0, 1, 8, 0x0, 0x0, 0x8000000000000000, 0x0, 0x0, 0x0, 0x0, 2⟩,
  ⟨.core, rSPAD_NACK_COUNT, 0x0, 1, 0x0, 1, 8, 0x0, 0x0, 0x0, 0x0, 0xffffffff, 0x0, 0x0, 2⟩,
  ⟨.core, rSPAD_NACK_LAST, 0x0, 1, 0x0, 1, 8, 0x0, 0x0, 0x8000000000000000, 0x0, 0x0, 0x0, 0x0, 2⟩,
  ⟨.core, rSPAD_CREDIT_TTL, 0x0, 1, 0x0, 1, 8, 0x14, 0x3ff, 0x0, 0x0, 0x0, 0x0, 0x0, 2⟩,
  ⟨.core, rSPAD_GRANTS, 0x0, 1, 0x0, 1, 8, 0x0, 0x0, 0x0, 0x0, 0x0, 0x0, 0x0, 2⟩,
  ⟨.core, rSPAD_WIN_RANGE, 0x20, 32, 0x0, 1, 8, 0x0, 0x0, 0x0, 0x0, 0x0, 0x0, 0x0, 2⟩,
  ⟨.core, rSPAD_WIN_CFG, 0x20, 32, 0x0, 1, 8, 0x0, 0x0, 0x0, 0x0, 0x0, 0x0, 0x0, 2⟩,
  ⟨.core, rSPAD_WIN_WRITERS, 0x20, 32, 0x0, 1, 8, 0x0, 0x0, 0x0, 0x0, 0x0, 0x0, 0x0, 2⟩,
  ⟨.core, rSPAD_WIN_STATUS, 0x20, 32, 0x0, 1, 8, 0x0, 0x0, 0x0, 0x0, 0x0, 0x0, 0x0, 2⟩]

/-- The registers of R138. -/
def regRowsR138 : List RegRow := [
  ⟨.core, rCORE_HIST_BIN, 0x200, 16, 0x8, 34, 8, 0x0, 0x0, 0x0, 0x0, 0x0, 0x0, 0x0, 2⟩,
  ⟨.core, rCORE_HIST_STAT, 0x200, 16, 0x0, 1, 8, 0x0, 0x0, 0x0, 0x0, 0x0, 0x0, 0x0, 2⟩]

/-- The registers of R160. -/
def regRowsR160 : List RegRow := [
  ⟨.core, rMXU_STATUS, 0x0, 1, 0x0, 1, 8, 0x0, 0x0, 0x0, 0x0, 0x0, 0x0, 0x0, 2⟩,
  ⟨.core, rMXU_THROTTLE, 0x0, 1, 0x0, 1, 8, 0x40, 0x0, 0x0, 0x0, 0x0, 0x0, 0x0, 2⟩,
  ⟨.core, rMXU_BUSY_CYCLES, 0x0, 1, 0x0, 1, 8, 0x0, 0x0, 0x0, 0x0, 0xffffffffffff, 0x0, 0x0, 2⟩,
  ⟨.core, rMXU_STALL_CYCLES, 0x0, 1, 0x0, 1, 8, 0x0, 0x0, 0x0, 0x0, 0xffffffffffffffff, 0x0, 0x0, 2⟩,
  ⟨.core, rMXU_DESC_COUNT, 0x0, 1, 0x0, 1, 8, 0x0, 0x0, 0x0, 0x0, 0xffffffffffff, 0x0, 0x0, 2⟩,
  ⟨.core, rMXU_LAST_ERROR, 0x0, 1, 0x0, 1, 8, 0x0, 0x0, 0x8000000000000000, 0x0, 0x0, 0x0, 0x0, 2⟩]

/-- The registers of R180. -/
def regRowsR180 : List RegRow := [
  ⟨.core, rVEC_STATUS, 0x0, 1, 0x0, 1, 8, 0x0, 0x0, 0x0, 0x0, 0x0, 0x0, 0x0, 2⟩,
  ⟨.core, rVEC_THROTTLE, 0x0, 1, 0x0, 1, 8, 0x40, 0x0, 0x0, 0x0, 0x0, 0x0, 0x0, 2⟩,
  ⟨.core, rVEC_BUSY_CYCLES, 0x0, 1, 0x0, 1, 8, 0x0, 0x0, 0x0, 0x0, 0xffffffffffff, 0x0, 0x0, 2⟩,
  ⟨.core, rVEC_STALL_CYCLES, 0x0, 1, 0x0, 1, 8, 0x0, 0x0, 0x0, 0x0, 0xffffffffffffffff, 0x0, 0x0, 2⟩,
  ⟨.core, rVEC_DESC_COUNT, 0x0, 1, 0x0, 1, 8, 0x0, 0x0, 0x0, 0x0, 0xffffffffffff, 0x0, 0x0, 2⟩,
  ⟨.core, rVEC_LAST_ERROR, 0x0, 1, 0x0, 1, 8, 0x0, 0x0, 0x8000000000000000, 0x0, 0x0, 0x0, 0x0, 2⟩,
  ⟨.core, rVEC_QOVF, 0x0, 1, 0x0, 1, 8, 0x0, 0x0, 0x8000000000000000, 0x0, 0x0, 0x0, 0x0, 2⟩,
  ⟨.core, rVEC_PARAM, 0x8, 5, 0x0, 1, 8, 0x0, 0x0, 0x0, 0x0, 0x0, 0x0, 0x0, 2⟩]

/-- The registers of R196. -/
def regRowsR196 : List RegRow := [
  ⟨.die, rDRAM_CTRL, 0x0, 1, 0x0, 1, 4, 0x3, 0x3, 0x0, 0x0, 0x0, 0x0, 0x0, 1⟩,
  ⟨.die, rDRAM_ARB_WEIGHT, 0x0, 1, 0x0, 1, 4, 0x12412, 0xfffff, 0x0, 0x0, 0x0, 0x0, 0x0, 1⟩,
  ⟨.die, rDRAM_THERMAL, 0x0, 1, 0x0, 1, 4, 0x0, 0x0, 0x0, 0x0, 0x0, 0x0, 0x0, 1⟩,
  ⟨.die, rDRAM_RETIRE_CMD, 0x0, 1, 0x0, 1, 4, 0x0, 0x0, 0x0, 0x0, 0x0, 0x0, 0x81ffffff, 1⟩,
  ⟨.die, rDRAM_RETIRE_STAT, 0x0, 1, 0x0, 1, 4, 0x0, 0x0, 0x0, 0x0, 0x0, 0x0, 0x0, 1⟩,
  ⟨.die, rDRAM_PORT_STATUS, 0x200, 8, 0x0, 1, 4, 0x0, 0x0, 0x0, 0x0, 0x0, 0x0, 0x0, 1⟩,
  ⟨.die, rDRAM_BANKS_RETIRED, 0x200, 8, 0x0, 1, 4, 0x0, 0x0, 0x0, 0x0, 0x0, 0x0, 0x0, 1⟩,
  ⟨.die, rDRAM_CE_COUNT, 0x200, 8, 0x0, 1, 4, 0x0, 0x0, 0x0, 0x0, 0xffffffff, 0x0, 0x0, 1⟩,
  ⟨.die, rDRAM_UE_COUNT, 0x200, 8, 0x0, 1, 4, 0x0, 0x0, 0x0, 0x0, 0xffffffff, 0x0, 0x0, 1⟩,
  ⟨.die, rDRAM_ERR_LAST, 0x200, 8, 0x0, 1, 4, 0x0, 0x0, 0x80000000, 0x0, 0x0, 0x0, 0x0, 1⟩,
  ⟨.die, rDRAM_READ_COUNT, 0x200, 8, 0x0, 1, 4, 0x0, 0x0, 0x0, 0x0, 0xffffffff, 0x0, 0x0, 1⟩,
  ⟨.die, rDRAM_MERGE_COUNT, 0x200, 8, 0x0, 1, 4, 0x0, 0x0, 0x0, 0x0, 0xffffffff, 0x0, 0x0, 1⟩,
  ⟨.die, rDRAM_WRITE_COUNT, 0x200, 8, 0x0, 1, 4, 0x0, 0x0, 0x0, 0x0, 0xffffffff, 0x0, 0x0, 1⟩,
  ⟨.die, rDRAM_RETIRED_ROW, 0x200, 8, 0x4, 64, 4, 0x0, 0x0, 0x0, 0x0, 0x0, 0x0, 0x0, 1⟩]

/-- The registers of R220. -/
def regRowsR220 : List RegRow := [
  ⟨.die, rMESH_DIE_CFG, 0x0, 1, 0x0, 1, 4, 0x428080, 0x0, 0x0, 0x0, 0x0, 0x1ffffff, 0x0, 1⟩,
  ⟨.die, rMESH_TREE, 0x0, 1, 0x0, 1, 4, 0x70000, 0x0, 0x0, 0x0, 0x0, 0x0, 0x0, 1⟩,
  ⟨.die, rMESH_SEAM_STATUS, 0x0, 1, 0x0, 1, 4, 0x3333, 0x0, 0x0, 0x0, 0x0, 0x0, 0x0, 1⟩,
  ⟨.die, rMESH_DISCARD_COUNT, 0x0, 1, 0x0, 1, 4, 0x0, 0x0, 0x0, 0x0, 0xffffffff, 0x0, 0x0, 1⟩,
  ⟨.die, rMESH_ROUTE, 0x4, 202, 0x0, 1, 4, 0x777, 0x0, 0x0, 0x0, 0x0, 0x777, 0x0, 1⟩]

/-- The registers of R221. -/
def regRowsR221 : List RegRow := [
  ⟨.core, rMESH_CORE_CFG, 0x0, 1, 0x0, 1, 8, 0x0, 0x0, 0x0, 0x0, 0x0, 0x3, 0x0, 2⟩,
  ⟨.core, rMESH_THROTTLE_CFG, 0x0, 1, 0x0, 1, 8, 0x803c2818, 0x807f7f7f, 0x0, 0x0, 0x0, 0x0, 0x0, 2⟩,
  ⟨.core, rMESH_THROTTLE_STAT, 0x0, 1, 0x0, 1, 8, 0x0, 0x0, 0x0, 0x0, 0xffffffff00000000, 0x0, 0x0, 2⟩,
  ⟨.core, rMESH_TEL_CTRL, 0x0, 1, 0x0, 1, 8, 0x0, 0x1, 0x0, 0x2, 0x0, 0x0, 0x0, 2⟩,
  ⟨.core, rMESH_VC_COUNT, 0x200, 5, 0x8, 8, 8, 0x0, 0x0, 0x0, 0x0, 0xffffffffffffffff, 0x0, 0x0, 2⟩,
  ⟨.core, rMESH_VC_DEPTH, 0x200, 5, 0x8, 8, 8, 0x0, 0x0, 0x0, 0x0, 0xff00, 0x0, 0x0, 2⟩,
  ⟨.core, rMESH_STALL_A, 0x200, 5, 0x0, 1, 8, 0x0, 0x0, 0x0, 0x0, 0xffffffffffffffff, 0x0, 0x0, 2⟩,
  ⟨.core, rMESH_STALL_B, 0x200, 5, 0x0, 1, 8, 0x0, 0x0, 0x0, 0x0, 0xffffffffffffffff, 0x0, 0x0, 2⟩,
  ⟨.core, rMESH_LAT_HIST, 0x200, 5, 0x8, 8, 8, 0x0, 0x0, 0x0, 0x0, 0xffffffffffffffff, 0x0, 0x0, 2⟩]

/-- The registers of R236. -/
def regRowsR236 : List RegRow := [
  ⟨.die, rHAL_TREE, 0x0, 1, 0x0, 1, 4, 0x7, 0x0, 0x0, 0x0, 0x0, 0x0, 0x0, 1⟩,
  ⟨.die, rHAL_HB_LOST_LO, 0x0, 1, 0x0, 1, 4, 0x0, 0x0, 0xffffffff, 0x0, 0x0, 0x0, 0x0, 1⟩,
  ⟨.die, rHAL_HB_LOST_HI, 0x0, 1, 0x0, 1, 4, 0x0, 0x0, 0x3ffff, 0x0, 0x0, 0x0, 0x0, 1⟩,
  ⟨.die, rHAL_MAX_WAIT, 0x0, 1, 0x0, 1, 4, 0x0, 0x0, 0x0, 0x0, 0xffffffff, 0x0, 0x0, 1⟩,
  ⟨.die, rHAL_DISCARD, 0x0, 1, 0x0, 1, 4, 0x0, 0x0, 0x0, 0x0, 0xffffffff, 0x0, 0x0, 1⟩,
  ⟨.die, rHAL_CLASS0, 0x0, 1, 0x0, 1, 4, 0xa0, 0x0, 0x0, 0x0, 0x0, 0x0, 0x0, 1⟩]

/-- The registers of R237. -/
def regRowsR237 : List RegRow := [
  ⟨.core, rHAL_BAR_EXPECT, 0x8, 4, 0x0, 1, 8, 0x0, 0x0, 0x0, 0x0, 0x0, 0xffffffffffffffff, 0x0, 0⟩,
  ⟨.core, rHAL_BAR_STAT, 0x0, 1, 0x0, 1, 8, 0x0, 0x0, 0x0, 0x0, 0x0, 0x0, 0x0, 2⟩,
  ⟨.core, rHAL_USER_STAT, 0x0, 1, 0x0, 1, 8, 0x0, 0x0, 0x0, 0x0, 0x0, 0x0, 0x0, 2⟩,
  ⟨.core, rHAL_USER_COUNT, 0x0, 1, 0x0, 1, 8, 0x0, 0x0, 0x0, 0x0, 0xffffffffffffffff, 0x0, 0x0, 2⟩]

/-- The registers of R265. -/
def regRowsR265 : List RegRow := [
  ⟨.mgmt, rTICK_CTRL, 0x0, 1, 0x0, 1, 8, 0x0, 0xffffffff0003, 0x0, 0x0, 0x0, 0x0, 0x0, 0⟩,
  ⟨.mgmt, rTICK_STATUS, 0x0, 1, 0x0, 1, 8, 0x0, 0x0, 0x0, 0x0, 0x0, 0x0, 0x0, 0⟩,
  ⟨.mgmt, rTICK_COMMIT_SEQ, 0x0, 1, 0x0, 1, 8, 0x0, 0xffffffffffffffff, 0x0, 0x0, 0x0, 0x0, 0x0, 0⟩,
  ⟨.mgmt, rTICK_CUR, 0x0, 1, 0x0, 1, 8, 0x0, 0x0, 0x0, 0x0, 0x0, 0x0, 0x0, 0⟩,
  ⟨.mgmt, rTICK_SRC, 0x0, 1, 0x0, 1, 8, 0x0, 0x0, 0x0, 0x0, 0x0, 0x7, 0x0, 0⟩,
  ⟨.mgmt, rTICK_SCHED_LEN, 0x0, 1, 0x0, 1, 8, 0x1, 0x0, 0x0, 0x0, 0x0, 0x7f, 0x0, 0⟩,
  ⟨.mgmt, rTICK_TIMING, 0x0, 1, 0x0, 1, 8, 0x190014, 0x3ff03ff, 0x0, 0x0, 0x0, 0x0, 0x0, 0⟩,
  ⟨.mgmt, rTICK_ABANDON_COUNT, 0x0, 1, 0x0, 1, 8, 0x0, 0x0, 0x0, 0x0, 0xffffffffffffffff, 0x0, 0x0, 0⟩,
  ⟨.mgmt, rTICK_LAST_ABANDON, 0x0, 1, 0x0, 1, 8, 0x0, 0x0, 0x8000000000000000, 0x0, 0x0, 0x0, 0x0, 0⟩,
  ⟨.mgmt, rTICK_OVERRUN, 0x0, 1, 0x0, 1, 8, 0x0, 0x0, 0x0, 0x0, 0xffffffffffffffff, 0x0, 0x0, 0⟩,
  ⟨.mgmt, rTICK_RA_STAT, 0x0, 1, 0x0, 1, 8, 0x0, 0x0, 0x0, 0x0, 0xffffffffffffffff, 0x0, 0x0, 0⟩,
  ⟨.mgmt, rTICK_SCHED, 0x8, 64, 0x0, 1, 8, 0x3e8, 0x0, 0x0, 0x0, 0x0, 0x3ffffffffffff, 0x0, 0⟩,
  ⟨.mgmt, rTICK_PHASE, 0x80, 16, 0x8, 16, 8, 0x0, 0x0, 0x0, 0x0, 0x0, 0x3ffffff, 0x0, 0⟩]

/-- The registers of R266. -/
def regRowsR266 : List RegRow := [
  ⟨.die, rTICK_RA_LO, 0x8, 64, 0x0, 1, 4, 0x0, 0x0, 0x0, 0x0, 0x0, 0x0, 0x0, 1⟩,
  ⟨.die, rTICK_RA_HI, 0x8, 64, 0x0, 1, 4, 0x0, 0x0, 0x0, 0x0, 0x0, 0x0, 0x0, 1⟩]

/-- The registers of R283. -/
def regRowsR283 : List RegRow := [
  ⟨.mgmt, rCFG_STATUS, 0x0, 1, 0x0, 1, 8, 0x0, 0x0, 0x0, 0x0, 0x0, 0x0, 0x0, 0⟩,
  ⟨.mgmt, rCFG_GEN, 0x0, 1, 0x0, 1, 8, 0x0, 0x0, 0x0, 0x0, 0x0, 0x0, 0x0, 0⟩,
  ⟨.mgmt, rCFG_TACK_STAT, 0x0, 1, 0x0, 1, 8, 0x0, 0x0, 0x0, 0x0, 0x0, 0x0, 0x0, 0⟩,
  ⟨.mgmt, rCFG_TACK_COUNT, 0x0, 1, 0x0, 1, 8, 0x0, 0x0, 0x0, 0x0, 0xffffffffffffffff, 0x0, 0x0, 0⟩,
  ⟨.mgmt, rCFG_ERROR, 0x0, 1, 0x0, 1, 8, 0x0, 0x0, 0x8000000000000000, 0x0, 0x0, 0x0, 0x0, 0⟩,
  ⟨.mgmt, rCFG_ACTIVE_DIGEST, 0x8, 6, 0x0, 1, 8, 0x0, 0x0, 0x0, 0x0, 0x0, 0x0, 0x0, 0⟩,
  ⟨.mgmt, rCFG_SHADOW_DIGEST, 0x8, 6, 0x0, 1, 8, 0x0, 0x0, 0x0, 0x0, 0x0, 0x0, 0x0, 0⟩]

/-- The registers of R307. -/
def regRowsR307 : List RegRow := [
  ⟨.die, rCOLL_POST, 0x4, 16, 0x0, 1, 4, 0x0, 0x0, 0x0, 0x0, 0x0, 0x0, 0xffffffff, 1⟩,
  ⟨.die, rCOLL_UNIT_STATUS, 0x0, 1, 0x0, 1, 4, 0x0, 0x0, 0x0, 0x0, 0x0, 0x0, 0x0, 1⟩,
  ⟨.die, rCOLL_MISMATCH, 0x0, 1, 0x0, 1, 4, 0x0, 0x0, 0x0, 0x0, 0xffffffff, 0x0, 0x0, 1⟩,
  ⟨.die, rCOLL_POST_ERR, 0x0, 1, 0x0, 1, 4, 0x0, 0x0, 0x0, 0x0, 0xffffffff, 0x0, 0x0, 1⟩,
  ⟨.die, rCOLL_LATE, 0x0, 1, 0x0, 1, 4, 0x0, 0x0, 0x0, 0x0, 0xffffffff, 0x0, 0x0, 1⟩,
  ⟨.die, rCOLL_ERR_LAST, 0x0, 1, 0x0, 1, 4, 0x0, 0x0, 0x80000000, 0x0, 0x0, 0x0, 0x0, 1⟩,
  ⟨.die, rCOLL_ERR_LINE, 0x0, 1, 0x0, 1, 4, 0x0, 0x0, 0x0, 0x0, 0x0, 0x0, 0x0, 1⟩,
  ⟨.die, rCOLL_SCALE_TICK, 0x0, 1, 0x0, 1, 4, 0x0, 0x0, 0x0, 0x0, 0x0, 0x0, 0x0, 1⟩,
  ⟨.die, rCOLL_SCALE, 0x4, 1024, 0x0, 1, 4, 0x0, 0x0, 0x0, 0x0, 0x0, 0x0, 0x0, 1⟩]

/-- The registers of R308. -/
def regRowsR308 : List RegRow := [
  ⟨.mgmt, rCOLL_FAIL, 0x0, 1, 0x0, 1, 8, 0x0, 0x0, 0x8000000000000000, 0x0, 0x0, 0x0, 0x0, 1⟩,
  ⟨.mgmt, rCOLL_COUNT, 0x0, 1, 0x0, 1, 8, 0x0, 0x0, 0x0, 0x0, 0xffffffffffffffff, 0x0, 0x0, 1⟩,
  ⟨.mgmt, rCOLL_PENDING, 0x8, 16, 0x0, 1, 8, 0x0, 0x0, 0x0, 0x0, 0x0, 0x0, 0x0, 1⟩]

/-- The registers of R330. -/
def regRowsR330 : List RegRow := [
  ⟨.link, rVLNK_CTRL, 0x0, 1, 0x0, 1, 8, 0x1, 0x1, 0x0, 0x2, 0x0, 0x0, 0x0, 0⟩,
  ⟨.link, rVLNK_STATUS, 0x0, 1, 0x0, 1, 8, 0x0, 0x0, 0x0, 0x0, 0x0, 0x0, 0x0, 0⟩,
  ⟨.link, rVLNK_PEER, 0x0, 1, 0x0, 1, 8, 0x0, 0x0, 0x0, 0x0, 0x0, 0x0, 0x0, 0⟩,
  ⟨.link, rVLNK_FEC, 0x0, 1, 0x0, 1, 8, 0x0, 0x0, 0x0, 0x0, 0xffffffffffffffff, 0x0, 0x0, 0⟩,
  ⟨.link, rVLNK_RETRY, 0x0, 1, 0x0, 1, 8, 0x0, 0x0, 0x0, 0x0, 0xffffffffffffffff, 0x0, 0x0, 0⟩,
  ⟨.link, rVLNK_FLITS, 0x0, 1, 0x0, 1, 8, 0x0, 0x0, 0x0, 0x0, 0xffffffffffffffff, 0x0, 0x0, 0⟩,
  ⟨.link, rVLNK_XPOST, 0x8, 8, 0x0, 1, 8, 0x0, 0x0, 0x0, 0x0, 0x0, 0x0, 0xffffffffffffffff, 0⟩]

/-- The registers of R331. -/
def regRowsR331 : List RegRow := [
  ⟨.link, rVLNK_XCTX_CFG, 0x20, 512, 0x0, 1, 8, 0x0, 0xffffffff3, 0x0, 0x0, 0x0, 0x0, 0x0, 0⟩,
  ⟨.link, rVLNK_XCTX_BASE, 0x20, 512, 0x0, 1, 8, 0x0, 0x3ffffffff, 0x0, 0x0, 0x0, 0x0, 0x0, 0⟩,
  ⟨.link, rVLNK_XCTX_BYTES, 0x20, 512, 0x0, 1, 8, 0x0, 0x7ffffffff, 0x0, 0x0, 0x0, 0x0, 0x0, 0⟩,
  ⟨.link, rVLNK_XCTX_STATE, 0x20, 512, 0x0, 1, 8, 0x0, 0x0, 0x0, 0x0, 0x0, 0x0, 0x0, 0⟩]

/-- The registers of R332. -/
def regRowsR332 : List RegRow := [
  ⟨.mgmt, rVLNK_SYS_SHAPE, 0x0, 1, 0x0, 1, 8, 0x0, 0x0, 0x0, 0x0, 0x0, 0x7f7f7f7f07, 0x0, 0⟩,
  ⟨.mgmt, rVLNK_SYS_POS, 0x0, 1, 0x0, 1, 8, 0x0, 0x0, 0x0, 0x0, 0x0, 0x3f3f3f3f, 0x0, 0⟩,
  ⟨.mgmt, rVLNK_SYS_TIMING, 0x0, 1, 0x0, 1, 8, 0x3e80050, 0x3ff03ff, 0x0, 0x0, 0x0, 0x0, 0x0, 0⟩,
  ⟨.mgmt, rVLNK_SYS_STATUS, 0x0, 1, 0x0, 1, 8, 0x0, 0x0, 0x0, 0x0, 0x0, 0x0, 0x0, 0⟩,
  ⟨.mgmt, rVLNK_SYS_COUNT, 0x0, 1, 0x0, 1, 8, 0x0, 0x0, 0x0, 0x0, 0xffffffffffffffff, 0x0, 0x0, 0⟩]

/-- The registers of R355. -/
def regRowsR355 : List RegRow := [
  ⟨.bar, rHOST_LINK, 0x0, 1, 0x0, 1, 8, 0x0, 0x0, 0x0, 0x0, 0x0, 0x0, 0x0, 0⟩,
  ⟨.bar, rHOST_COMMIT_SEQ, 0x0, 1, 0x0, 1, 8, 0x0, 0x0, 0x0, 0x0, 0x0, 0x0, 0x0, 0⟩,
  ⟨.bar, rHOST_COMMIT_NOTIFY, 0x0, 1, 0x0, 1, 8, 0x100000000, 0xffff00003f07, 0x0, 0x0, 0x0, 0x0, 0x0, 0⟩,
  ⟨.bar, rHOST_COMMIT_ADDR, 0x0, 1, 0x0, 1, 8, 0x0, 0xfffffffffff, 0x0, 0x0, 0x0, 0x0, 0x0, 0⟩,
  ⟨.bar, rHOST_MEM_CTRL, 0x0, 1, 0x0, 1, 8, 0x0, 0x1, 0x0, 0x0, 0x0, 0x0, 0x0, 0⟩,
  ⟨.bar, rHOST_EXPORT_CFG, 0x0, 1, 0x0, 1, 8, 0x10, 0x1f, 0x0, 0x0, 0x0, 0x0, 0x0, 0⟩,
  ⟨.bar, rHOST_MEM_ERR, 0x0, 1, 0x0, 1, 8, 0x0, 0x0, 0x0, 0x0, 0xffffffffffff, 0x0, 0x0, 0⟩,
  ⟨.bar, rHOST_PWIN_BASE, 0x0, 1, 0x0, 1, 8, 0x300000000000, 0xfffffe000000, 0x0, 0x0, 0x0, 0x0, 0x0, 0⟩,
  ⟨.bar, rHOST_HPA_BASE, 0x10, 8, 0x0, 1, 8, 0x0, 0xffffffff001, 0x0, 0x0, 0x0, 0x0, 0x0, 0⟩,
  ⟨.bar, rHOST_HPA_LIMIT, 0x10, 8, 0x0, 1, 8, 0x0, 0xffffffff000, 0x0, 0x0, 0x0, 0x0, 0x0, 0⟩,
  ⟨.bar, rHOST_SEG, 0x8, 64, 0x0, 1, 8, 0x0, 0x3fffffff00ff03, 0x0, 0x0, 0x0, 0x0, 0x0, 0⟩]

/-- The registers of R376. -/
def regRowsR376 : List RegRow := [
  ⟨.bar, rHOST_DEVICE_STATUS, 0x0, 1, 0x0, 1, 8, 0x0, 0x0, 0x0, 0x0, 0x0, 0x0, 0x0, 0⟩,
  ⟨.bar, rHOST_FEAT_CTRL, 0x0, 1, 0x0, 1, 8, 0x0, 0x0, 0x0, 0x1, 0x0, 0x0, 0x0, 0⟩,
  ⟨.bar, rHOST_CMD_STAT, 0x0, 1, 0x0, 1, 8, 0x0, 0x0, 0x0, 0x0, 0x0, 0x0, 0x0, 0⟩,
  ⟨.bar, rHOST_EVENT_STAT, 0x0, 1, 0x0, 1, 8, 0x0, 0x0, 0x0, 0x0, 0x0, 0x0, 0x0, 0⟩,
  ⟨.bar, rHOST_DEVICE_FEATURES, 0x8, 4, 0x0, 1, 8, 0x0, 0x0, 0x0, 0x0, 0x0, 0x0, 0x0, 0⟩,
  ⟨.bar, rHOST_DRIVER_FEATURES, 0x8, 4, 0x0, 1, 8, 0x0, 0xffffffffffffffff, 0x0, 0x0, 0x0, 0x0, 0x0, 0⟩,
  ⟨.bar, rHOST_SQ_BASE, 0x20, 64, 0x0, 1, 8, 0x0, 0xffffffff000, 0x0, 0x0, 0x0, 0x0, 0x0, 0⟩,
  ⟨.bar, rHOST_CQ_BASE, 0x20, 64, 0x0, 1, 8, 0x0, 0xffffffff000, 0x0, 0x0, 0x0, 0x0, 0x0, 0⟩,
  ⟨.bar, rHOST_Q_CFG, 0x20, 64, 0x0, 1, 8, 0x10000000, 0x17fffff0fff, 0x0, 0x0, 0x0, 0x0, 0x0, 0⟩,
  ⟨.bar, rHOST_Q_STATUS, 0x20, 64, 0x0, 1, 8, 0x0, 0x0, 0x0, 0x0, 0x0, 0x0, 0x0, 0⟩,
  ⟨.bar, rHOST_SQ_TAIL_DB, 0x8, 64, 0x0, 1, 4, 0x0, 0x0, 0x0, 0x0, 0x0, 0x0, 0xffffffff, 0⟩,
  ⟨.bar, rHOST_CQ_HEAD_DB, 0x8, 64, 0x0, 1, 4, 0x0, 0x0, 0x0, 0x0, 0x0, 0x0, 0xffffffff, 0⟩,
  ⟨.bar, rHOST_EVENT_HEAD_DB, 0x0, 1, 0x0, 1, 4, 0x0, 0x0, 0x0, 0x0, 0x0, 0x0, 0xffffffff, 0⟩]

/-- The registers of R399. -/
def regRowsR399 : List RegRow := [
  ⟨.die, rPWR_DIE_STATUS, 0x0, 1, 0x0, 1, 4, 0x0, 0x0, 0x0, 0x0, 0x0, 0x0, 0x0, 0⟩,
  ⟨.die, rPWR_DIE_BUDGET, 0x0, 1, 0x0, 1, 4, 0x0, 0x0, 0x0, 0x0, 0x0, 0x0, 0x0, 0⟩,
  ⟨.die, rPWR_DIE_INPUT, 0x0, 1, 0x0, 1, 4, 0x0, 0x0, 0x0, 0x0, 0x0, 0x0, 0x0, 0⟩,
  ⟨.die, rPWR_CONTACT, 0x0, 1, 0x0, 1, 4, 0x0, 0x0, 0x0, 0x0, 0x0, 0x0, 0x0, 0⟩,
  ⟨.die, rPWR_REGION_CTRL, 0x0, 1, 0x0, 1, 4, 0x80000000, 0x80000000, 0x0, 0x3ff03ff, 0x0, 0x0, 0x0, 0⟩,
  ⟨.die, rPWR_REGION_STAT, 0x4, 10, 0x0, 1, 4, 0x0, 0x0, 0x0, 0x0, 0x0, 0x0, 0x0, 0⟩]

/-- The registers of R400. -/
def regRowsR400 : List RegRow := [
  ⟨.mgmt, rPWR_INPUT, 0x0, 1, 0x0, 1, 8, 0x0, 0x0, 0x0, 0x0, 0x0, 0x0, 0x0, 0⟩,
  ⟨.mgmt, rPWR_CAP, 0x0, 1, 0x0, 1, 8, 0x708, 0x0, 0x0, 0x0, 0x0, 0xffff, 0x0, 0⟩,
  ⟨.mgmt, rPWR_HOST_CAP, 0x0, 1, 0x0, 1, 8, 0x708, 0xffff, 0x0, 0x0, 0x0, 0x0, 0x0, 0⟩,
  ⟨.mgmt, rPWR_CAP_STAT, 0x0, 1, 0x0, 1, 8, 0x0, 0x0, 0x0, 0x0, 0x0, 0x0, 0x0, 0⟩,
  ⟨.mgmt, rPWR_REEF_CFG, 0x0, 1, 0x0, 1, 8, 0x2af8, 0xffff, 0x0, 0x0, 0x0, 0x0, 0x0, 0⟩,
  ⟨.mgmt, rPWR_REEF_STAT, 0x0, 1, 0x0, 1, 8, 0x0, 0x0, 0x0, 0x0, 0x0, 0x0, 0x0, 0⟩,
  ⟨.mgmt, rPWR_REEF_COUNT, 0x0, 1, 0x0, 1, 8, 0x0, 0x0, 0x0, 0x0, 0xffffffff, 0x0, 0x0, 0⟩,
  ⟨.mgmt, rPWR_SUPPLY_REC, 0x0, 1, 0x0, 1, 8, 0x0, 0x0, 0x8000000000000000, 0x0, 0x0, 0x0, 0x0, 0⟩,
  ⟨.mgmt, rPWR_GROUP, 0x8, 220, 0x0, 1, 8, 0x3c, 0x0, 0x0, 0x0, 0x0, 0x0, 0x0, 0⟩]

/-- The registers of R414. -/
def regRowsR414 : List RegRow := [
  ⟨.die, rCLK_DIE_STATUS, 0x0, 1, 0x0, 1, 4, 0x0, 0x0, 0x0, 0x0, 0x0, 0x0, 0x0, 1⟩,
  ⟨.die, rCLK_SEAM, 0x4, 4, 0x0, 1, 4, 0x3, 0x0, 0x0, 0x0, 0x3fe0000, 0x0, 0x0, 1⟩,
  ⟨.die, rCLK_SEAM_COUNT, 0x4, 4, 0x0, 1, 4, 0x0, 0x0, 0x0, 0x0, 0xffffffff, 0x0, 0x0, 1⟩,
  ⟨.die, rCLK_MARGIN, 0x4, 10, 0x0, 1, 4, 0x0, 0x0, 0x0, 0x0, 0x3f00, 0x0, 0x0, 1⟩,
  ⟨.die, rCLK_AGEING, 0x4, 10, 0x0, 1, 4, 0x0, 0x0, 0x0, 0x0, 0x0, 0x0, 0x0, 1⟩,
  ⟨.die, rCLK_PLAN, 0x4, 10, 0x0, 1, 4, 0x0, 0x0, 0x0, 0x0, 0x0, 0x0, 0x0, 1⟩]

/-- The registers of R415. -/
def regRowsR415 : List RegRow := [
  ⟨.mgmt, rCLK_PLAN_CTRL, 0x0, 1, 0x0, 1, 8, 0x2d00002, 0xffff0002, 0x0, 0x1, 0x0, 0x0, 0x0, 0⟩,
  ⟨.mgmt, rCLK_PLAN_STAT, 0x0, 1, 0x0, 1, 8, 0x0, 0x0, 0x0, 0x0, 0x0, 0x0, 0x0, 0⟩,
  ⟨.mgmt, rCLK_REF_STAT, 0x0, 1, 0x0, 1, 8, 0x0, 0x0, 0x0, 0x0, 0xffff00000000, 0x0, 0x0, 0⟩]

/-- The registers of R434. -/
def regRowsR434 : List RegRow := [
  ⟨.mgmt, rCFG_BOOT_STAT, 0x0, 1, 0x0, 1, 8, 0x0, 0x0, 0x0, 0x0, 0x0, 0x0, 0x0, 0⟩,
  ⟨.mgmt, rCFG_BOOT_COUNT, 0x0, 1, 0x0, 1, 8, 0x0, 0x0, 0x0, 0x0, 0xffffffff, 0x0, 0x0, 0⟩,
  ⟨.mgmt, rCFG_TOPO_STAT, 0x0, 1, 0x0, 1, 8, 0x0, 0x0, 0x0, 0x0, 0x0, 0x0, 0x0, 0⟩,
  ⟨.mgmt, rCFG_FW_STAT, 0x0, 1, 0x0, 1, 8, 0x0, 0x0, 0x0, 0x0, 0x0, 0x0, 0x0, 0⟩,
  ⟨.mgmt, rCFG_RESET_CTRL, 0x0, 1, 0x0, 1, 8, 0x0, 0x3fffff00, 0x0, 0x7, 0x0, 0x0, 0x0, 0⟩]

/-- The registers of R461. -/
def regRowsR461 : List RegRow := [
  ⟨.mgmt, rMNT_ARB_STAT, 0x0, 1, 0x0, 1, 8, 0x0, 0x0, 0x0, 0x0, 0x0, 0x0, 0x0, 0⟩,
  ⟨.mgmt, rMNT_REHEARSE_CFG, 0x0, 1, 0x0, 1, 8, 0xa, 0xfff, 0x0, 0x0, 0x0, 0x0, 0x0, 0⟩,
  ⟨.mgmt, rMNT_REHEARSE_STAT, 0x0, 1, 0x0, 1, 8, 0x0, 0x0, 0x0, 0x0, 0x0, 0x0, 0x0, 0⟩,
  ⟨.mgmt, rMNT_BASTE_CFG, 0x0, 1, 0x0, 1, 8, 0x0, 0xfff1, 0x0, 0x0, 0x0, 0x0, 0x0, 0⟩,
  ⟨.mgmt, rMNT_BASTE_STAT, 0x0, 1, 0x0, 1, 8, 0x0, 0x0, 0x0, 0x0, 0x0, 0x0, 0x0, 0⟩,
  ⟨.mgmt, rMNT_DIGEST, 0x0, 1, 0x0, 1, 8, 0x0, 0x0, 0x0, 0x0, 0x0, 0x0, 0x0, 0⟩,
  ⟨.mgmt, rMNT_FAULT_COUNT, 0x0, 1, 0x0, 1, 8, 0x0, 0x0, 0x0, 0x0, 0xffffffffffff, 0x0, 0x0, 0⟩,
  ⟨.mgmt, rMNT_BASTE_REQ, 0x0, 1, 0x0, 1, 8, 0x0, 0x0, 0x0, 0x0, 0x0, 0x0, 0x0, 0⟩,
  ⟨.mgmt, rMNT_ACT, 0x8, 16, 0x0, 1, 8, 0x0, 0x0, 0x0, 0x0, 0x0, 0x0, 0x0, 0⟩]

/-- The registers of R476. -/
def regRowsR476 : List RegRow := [
  ⟨.mgmt, rSEC_STATUS, 0x0, 1, 0x0, 1, 8, 0x0, 0x0, 0x0, 0x0, 0x0, 0x0, 0x0, 0⟩,
  ⟨.mgmt, rSEC_ROLLBACK, 0x8, 4, 0x0, 1, 8, 0x0, 0x0, 0x0, 0x0, 0x0, 0x0, 0x0, 0⟩,
  ⟨.mgmt, rSEC_FW, 0x8, 4, 0x0, 1, 8, 0x0, 0x0, 0x0, 0x0, 0x0, 0x0, 0x0, 0⟩,
  ⟨.mgmt, rSEC_LMS_STAT, 0x0, 1, 0x0, 1, 8, 0x0, 0x0, 0x0, 0x0, 0x0, 0x0, 0x0, 0⟩,
  ⟨.mgmt, rSEC_DEBUG_NONCE, 0x0, 1, 0x0, 1, 8, 0x0, 0x0, 0x0, 0x0, 0x0, 0x0, 0x0, 0⟩,
  ⟨.mgmt, rSEC_KEYHASH, 0x8, 12, 0x0, 1, 8, 0x0, 0x0, 0x0, 0x0, 0x0, 0x0, 0x0, 0⟩]

/-- The registers of R492. -/
def regRowsR492 : List RegRow := [
  ⟨.mgmt, rTEL_CTRL, 0x0, 1, 0x0, 1, 8, 0x640001, 0xffff0001, 0x0, 0x2, 0x0, 0x0, 0x0, 0⟩,
  ⟨.mgmt, rTEL_STATUS, 0x0, 1, 0x0, 1, 8, 0x0, 0x0, 0x0, 0x0, 0x0, 0x0, 0x0, 0⟩,
  ⟨.mgmt, rTEL_COUNT, 0x0, 1, 0x0, 1, 8, 0x0, 0x0, 0x0, 0x0, 0xffffffffffffffff, 0x0, 0x0, 0⟩,
  ⟨.mgmt, rTEL_MCTP, 0x0, 1, 0x0, 1, 8, 0xb0032, 0xfff7f, 0x0, 0x0, 0x0, 0x0, 0x0, 0⟩]

/-- Every register of the spec's maps but those of the world table (R267), which are fields of the state. -/
def regRows : List RegRow :=
  regRowsR30 ++ regRowsR57 ++ regRowsR116 ++ regRowsR138 ++ regRowsR160 ++ regRowsR180 ++ regRowsR196 ++ regRowsR220 ++ regRowsR221 ++ regRowsR236 ++ regRowsR237 ++ regRowsR265 ++ regRowsR266 ++ regRowsR283 ++ regRowsR307 ++ regRowsR308 ++ regRowsR330 ++ regRowsR331 ++ regRowsR332 ++ regRowsR355 ++ regRowsR376 ++ regRowsR399 ++ regRowsR400 ++ regRowsR414 ++ regRowsR415 ++ regRowsR434 ++ regRowsR461 ++ regRowsR476 ++ regRowsR492

end Sys2Proof.Machine
end

