-- ==== Sys2Proof/Machine/TypesColl.lean ====
section
/-!
DEFINITION. The plain data of the reduction units and link-die engines (spec/13) and of the Vorrad ports, transfer
contexts and the system combiner (spec/14).
-/
namespace Sys2Proof.Machine

/-- A line of eight reduction words with its packet residue (R297). -/
structure Line where
  words : List Word
  residue : Nat
deriving DecidableEq, Repr

/-- A holder of a reduction bucket: the unit of a logical die, or the engine of a link die. -/
inductive CollNode where
  | unit (die : Nat)
  | engine (link : Nat)
deriving DecidableEq, Repr

/-- A post accepted by a unit (R292). `seq` numbers the posts in the order they came. -/
structure Post where
  die : Nat
  contrib : Nat
  copy : Nat
  qs : Nat
  src : Nat
  core : Nat
  seq : Nat
deriving DecidableEq, Repr

/-- A bucket at a unit, for the current attempt of the tick it serves (R286, R290, R295). -/
structure UnitBucket where
  tick : Nat
  att : Nat
  gen : Nat
  sEff : Int
  posts : List Post
  started : Bool
  /-- the copy each key uses, fixed at the start: posts -/
  used : List Post
  /-- next line to add, next line to write and forward -/
  upLine : Nat
  downLine : Nat
  /-- lines that have come from children (key child × 2^18 + line) and from above (key line) -/
  fromChild : SMap (Option Line)
  fromAbove : SMap (Option Line)
  /-- lines sent to a neighbour whose credits have not come back: key 0 parent, 1 + child die -/
  out : SMap Nat
  /-- the root of a bucket of several panels: the final lines are in staging (R300) -/
  staged : Bool
  flags : Nat
  complete : Bool
  failed : Bool
deriving DecidableEq, Repr

def UnitBucket.empty : UnitBucket :=
  { tick := 0, att := 0, gen := 0, sEff := 0, posts := [], started := false, used := [], upLine := 0, downLine := 0,
    fromChild := [], fromAbove := [], out := [], staged := false, flags := 0, complete := false, failed := false }

/-- The reduction unit of a logical die. -/
structure CollUnit where
  buckets : SMap UnitBucket
  postSeq : Nat
  /-- the tag round robin serves after -/
  lastTag : Nat
deriving DecidableEq, Repr

def CollUnit.reset : CollUnit := { buckets := [], postSeq := 0, lastTag := 0 }

/-- A bucket at the engine of a dimension (R300): `phase` 0 reduce-scatter, 1 all-gather; `step` and `line` say which
line of its steps is next, `line` counting within the step's shard of the range of `n` lines from `lo`. -/
structure EngineBucket where
  tick : Nat
  att : Nat
  gen : Nat
  phase : Nat
  lo : Nat
  n : Nat
  step : Nat
  line : Nat
  /-- lines received from the ring: key phase × 2^18 + line -/
  inbox : SMap (Option Line)
  running : Bool
  failed : Bool
deriving DecidableEq, Repr

def EngineBucket.empty : EngineBucket :=
  { tick := 0, att := 0, gen := 0, phase := 0, lo := 0, n := 0, step := 0, line := 0, inbox := [], running := false,
    failed := false }

/-- A collective packet on VC 4 (R297, R298). -/
structure CollPacket where
  /-- its number in the bulk mesh, while it is a packet of VC 4 there (R198, R210) -/
  pkt : Option Nat
  src : CollNode
  dst : CollNode
  tag : Nat
  gen : Nat
  tick : Nat
  att : Nat
  line : Nat
  /-- 0 upward, 1 downward, 2 between panels -/
  dir : Nat
  /-- between panels: the dimension -/
  dim : Nat
  /-- between panels: 0 reduce-scatter, 1 all-gather -/
  phase : Nat
  data : Line
deriving DecidableEq, Repr

/-- A failure record on its way to the management die (R304). -/
structure FailRecord where
  src : CollNode
  tag : Nat
  gen : Nat
  cause : Nat
  tick : Nat
  att : Nat
  /-- the failure follows from an injected fault -/
  inj : Bool
deriving DecidableEq, Repr

/-- The collectives of the panel. -/
structure Coll where
  units : SMap CollUnit
  /-- engine state of dimension d for tag t: key 1024 × d + t -/
  engines : SMap EngineBucket
  packets : List CollPacket
  /-- packets discarded because they were not current (R296) -/
  stale : Nat
  /-- line credits on their way back: (holder that gets it, neighbour key, tag, tick, attempt) -/
  returns : List (CollNode × Nat × Nat × Nat × Nat)
  failures : List FailRecord
  /-- completion reports on their way: (die, tag, tick, attempt) -/
  reports : List (Nat × Nat × Nat × Nat)
  /-- the management die: member dies that have reported, by tag -/
  reported : SMap (List Nat)
  /-- stage-complete signals on their way: (tag, tick, attempt, dimension, phase) of the stage to start; phase 2 tells
  the root that the final lines are in staging -/
  signals : List (Nat × Nat × Nat × Nat × Nat)
  /-- R of R285 by tag; the raises decided for the next replay -/
  raises : SMap Nat
  /-- committed ticks a bucket has taken part in, by tag (R290) -/
  parts : SMap Nat
  /-- the offers of R285: the tick of the last merge, and by slot the highest bin of the latest tick that has one (127:
  none) -/
  offers : Option (Nat × List Nat)
  /-- the tick whose scale the units have fixed, by die -/
  fixedTick : SMap (Option Nat)
  /-- units and engines retired (die sites, 204 + link), waiting for the tack or in force -/
  retiring : List Nat
  retired : List Nat
  /-- dies that wait with OK = 0 votes until the record is acknowledged -/
  badDies : List Nat
deriving DecidableEq, Repr

def Coll.reset : Coll :=
  { units := [], engines := [], packets := [], stale := 0, returns := [], failures := [], reports := [], reported := [],
    signals := [], raises := [], parts := [], offers := none, fixedTick := [], retiring := [],
    retired := [], badDies := [] }

/-! Vorrad. -/

/-- A system record (R319). -/
structure SysRecord where
  type : Nat
  att : Nat
  cause : Nat
  tag : Nat
  raise : Bool
  nora : Bool
  tick : Nat
  remain : Nat
  ks : List Nat
deriving DecidableEq, Repr

/-- A slot of a data flit (R311). -/
inductive VSlot where
  | coll (dim tag gen tick residue line phase att : Nat) (words : List Word)
  | xfer (cls : Nat) (ack : Bool) (dstPanel dstCtx lseq dstLine srcCtx srcPanel ackStatus dim : Nat)
      (data : List Byte)
deriving DecidableEq, Repr

/-- The body of a numbered flit (R310). -/
inductive FlitBody where
  | data (slots : List VSlot)
  | halyard (records : List SysRecord)
  | control (retrain : Bool)
deriving DecidableEq, Repr

/-- A port (R312, R313, R329). -/
structure VPort where
  nextSeq : Nat
  /-- the retry buffer: unacknowledged flits, oldest first -/
  unacked : List (Nat × FlitBody)
  /-- the cycle ACK last advanced in, or flits became unacknowledged -/
  ackAt : Nat
  expected : Nat
  nak : Bool
  /-- slots and records that wait for a credit or for room -/
  waiting : List VSlot
  records : List SysRecord
  /-- credits held per class 1–5 -/
  credits : SMap Nat
  /-- slots of each class that the next flits give back to the peer -/
  returned : SMap Nat
  /-- the 256 bytes of the numbered flit sent last (R310) -/
  wire : List Byte
  /-- the class of priority 3 served last -/
  turn : Nat
  lastGood : Nat
  announced : Bool
  /-- a retraining ends by this cycle -/
  trainBy : Option Nat
  /-- rehearsal kind 3: the flits up to this sequence number are the replay (R450) -/
  rehearse : Option Nat
  /-- lanes retired at the next retraining -/
  retireLanes : List Nat
deriving DecidableEq, Repr

def VPort.reset : VPort :=
  { nextSeq := 1, unacked := [], ackAt := 0, expected := 1, nak := false, waiting := [], records := [],
    credits := [(1, 256), (2, 64), (3, 64), (4, 128), (5, 128)], returned := [], wire := [], turn := 1, lastGood := 0, announced := false,
    trainBy := none, rehearse := none, retireLanes := [] }

/-- A post on a send context (R324, R326). -/
structure XPost where
  number : Nat
  length : Nat
  src : Nat
  dstOff : Nat
  doneAddr : Nat
  /-- tick and attempt of a task's post -/
  stamp : Option (Nat × Nat)
  /-- a SHARD_EXPORT's own transfer: no completion word -/
  command : Bool
  /-- lines first sent, lines acknowledged -/
  sent : Nat
  acked : Nat
deriving DecidableEq, Repr

/-- A line of a transfer context: its LSEQ once it has one, its DST_LINE, its panel address (of the source, or of the
destination), the number of its post, and the data of a write. -/
structure XLine where
  lseq : Option Nat
  line : Nat
  addr : Nat
  post : Nat
  data : List Byte
  /-- its DRAM access, a packet of VC 5 of the bulk mesh until its answer is back (R210, R323) -/
  pkt : Option Nat
deriving DecidableEq, Repr

/-- A transfer context beyond its registers (R323, R325). -/
structure XCtx where
  /-- 0 closed, 1 open, 2 BROKEN, 3 waiting for a path -/
  st : Nat
  /-- next LSEQ of a send context, E of a receive context -/
  seq : Nat
  posts : List XPost
  nextNumber : Nat
  unacked : List XLine
  ackAt : Nat
  /-- lines since the last acknowledgement, and the cycle of the first line not acknowledged -/
  sinceAck : Nat
  lineAt : Option Nat
  /-- dimensions routed the other way -/
  reversed : List Nat
  /-- since when both directions of a dimension are down -/
  pathAt : Option Nat
  /-- DRAM accesses under way, oldest first -/
  dram : List XLine
  /-- lines to be read and sent again, oldest first -/
  resend : List Nat
  /-- an acknowledgement is owed once the DRAM writes are done -/
  ackDue : Bool
deriving DecidableEq, Repr

def XCtx.reset : XCtx :=
  { st := 0, seq := 0, posts := [], nextNumber := 1, unacked := [], ackAt := 0, sinceAck := 0, lineAt := none,
    reversed := [], pathAt := none, dram := [], resend := [], ackDue := false }

/-- What the combiner has gathered of one record type, tick and attempt (R319). -/
structure Gather where
  type : Nat
  tick : Nat
  att : Nat
  children : List Nat
  own : Bool
  nora : Bool
  ks : List Nat
  sent : Bool
deriving DecidableEq, Repr

/-- A transfer slot inside the panel, on the hem ring (R20, R211, R317). -/
structure HemSlot where
  /-- the link die it stands in -/
  place : Nat
  /-- the Vorrad port whose receive buffer it still holds, and the one it came in on (8: none) -/
  port : Nat
  via : Nat
  /-- it has taken a segment away from V0 -/
  down : Bool
  /-- the dimensions it takes the other way -/
  rev : List Nat
  slot : VSlot
deriving DecidableEq, Repr

/-- Vorrad: ports, contexts, slots between link dies, and the system combiner. -/
structure Vorrad where
  ports : SMap VPort
  ctxs : SMap XCtx
  /-- transfer slots on the hem ring, and its segments that have failed -/
  hem : List HemSlot
  hemDown : List Nat
  gathers : List Gather
  /-- attempts whose ABORT has been forwarded, and those whose SYS_ABANDON has been sent -/
  aborts : List (Nat × Nat)
  abandons : List (Nat × Nat)
  /-- the marker received: (tick, attempt, start cycle) -/
  mark : Option (Nat × Nat × Nat)
  /-- the root's MARK for the next attempt: (tick, attempt, cycle it is sent in) -/
  nextMark : Option (Nat × Nat × Nat)
  /-- a MARK is owed with the TOKEN of this tick -/
  markOwed : Option Nat
  /-- records that wait at the management die: (port, cycle of arrival, record) -/
  inbox : List (Nat × Nat × SysRecord)
  /-- writes of edge dies that wait for a credit or a port: die, panel address, bytes -/
  held : List (Nat × Nat × List Byte)
deriving DecidableEq, Repr

def Vorrad.reset : Vorrad :=
  { ports := [], ctxs := [], hem := [], hemDown := [], gathers := [], aborts := [], abandons := [], mark := none, nextMark := none,
    markOwed := none, inbox := [], held := [] }

end Sys2Proof.Machine
end

