-- ==== Sys2Proof/Machine/TypesDram.lean ====
section
/-!
DEFINITION. The plain data of the DRAM stack of one site and its eight ports (spec/08).
-/
namespace Sys2Proof.Machine

/-- A read accepted at a port (R185, R187, R188). -/
structure DramRead where
  /-- the accesses that wait for it, in the order they were accepted -/
  accs : List Nat
  /-- the cycle it was accepted in -/
  acceptedAt : Nat
  /-- DRAM offset of its 64-byte line -/
  line : Nat
  /-- 0: the whole line; 1, 2: its first, its second half -/
  half : Nat
  /-- the bytes of the line at acceptance, and whether it is poisoned -/
  data : List Byte
  poisoned : Bool
  /-- it has an entry in the merge buffer that no write has ended -/
  live : Bool
  /-- a write of the whole line has been accepted since -/
  overwritten : Bool
  /-- the cycle the data returned in, with the status it returned -/
  back : Option (Nat × Nat)
deriving DecidableEq, Repr

/-- One port. -/
structure DramPort where
  /-- reads pending at the DRAM, and those whose merge entry still lives -/
  reads : List DramRead
  training : Bool
  /-- a retraining under way ends by this cycle -/
  trainBy : Option Nat
  retired : Bool
  banks : BitVec 32
  /-- the retired-row table, in the order of its entries: (bank, row) -/
  rows : List (Nat × Nat)
  /-- DRAM accesses of the current 1 µs interval: (interval number, accesses) -/
  used : Nat × Nat
  /-- the next line the patrol reads, in lines of the port -/
  patrolLine : Nat
  /-- by bank: the cycle of its last refresh -/
  refreshed : SMap Nat
  /-- the requester the round stands at (0–47 logical cores, 48 remote, 49 edge), the grants it has had in the round, and
  `DRAM_ARB_WEIGHT` as the round took it (R189, R196) -/
  turn : Nat
  given : Nat
  weights : Nat
deriving DecidableEq, Repr

def DramPort.reset : DramPort :=
  { reads := [], training := false, trainBy := none, retired := false, banks := 0, rows := [], used := (0, 0),
    patrolLine := 0, refreshed := [], turn := 0, given := 0, weights := 0x12412 }

/-- The stack and ports of one site. -/
structure Dram where
  /-- contents by DRAM offset -/
  bytes : SMap Byte
  /-- poisoned lines, by line number -/
  poison : SMap Bool
  ports : SMap DramPort
  /-- the thermal state sampled last, the one before it, and the interval it was sampled in (R191, R192) -/
  thermal : Nat
  thermalOld : Nat
  thermalAt : Nat
  /-- since when the temperature has been 3 °C below the entry threshold of the state -/
  coolSince : Option Nat
  /-- `DRAM_RETIRE_STAT.RESULT` -/
  retireResult : Nat
deriving DecidableEq, Repr

def Dram.reset : Dram :=
  { bytes := [], poison := [], ports := [], thermal := 0, thermalOld := 0, thermalAt := 0, coolSince := none,
    retireResult := 0 }

end Sys2Proof.Machine
end

