-- ==== Sys2Proof/Machine/TypesHost.lean ====
section
/-!
DEFINITION. The plain data of the host bridge die (spec/15, 16), as far as it is not a register.
-/
namespace Sys2Proof.Machine

/-- How far a fetched command is. -/
inductive CmdPhase where
  /-- fetched and started; its own command has not acted yet -/
  | started
  /-- it has acted and waits for an event of the panel -/
  | waiting
deriving DecidableEq, Repr

/-- A fetched command (R362, R365). -/
structure HostCmd where
  cid : Nat
  opcode : Nat
  fence : Bool
  noWait : Bool
  /-- P0–P6 -/
  params : List Nat
  sqHead : Nat
  phase : CmdPhase
  /-- bytes or entries moved so far -/
  moved : Nat
  /-- what the command noted when it acted (a tick, a handle) -/
  note : Nat
deriving DecidableEq, Repr

/-- A finished command that waits for its completion entry (R363, R366). -/
structure Completion where
  result : Nat
  sqHead : Nat
  cid : Nat
  code : Nat
  detail : Nat
deriving DecidableEq, Repr

/-- A queue pair beyond its registers (R360–R364). -/
structure QPair where
  sqTail : Nat
  cqHead : Nat
  cmds : List HostCmd
  done : List Completion
  /-- EN has been cleared while commands run: their completions are discarded -/
  draining : Bool
  /-- doorbell values recorded while command processing is paused -/
  heldTail : Option Nat
  heldHead : Option Nat
  /-- SQ entries that ABORT has removed before their fetch -/
  skip : List Nat
deriving DecidableEq, Repr

def QPair.reset : QPair :=
  { sqTail := 0, cqHead := 0, cmds := [], done := [], draining := false, heldTail := none, heldHead := none, skip := [] }

/-- The host bridge die (R333–R352, R356–R364). -/
structure HostIf where
  pairs : SMap QPair
  /-- the I/O pair that weighted round robin serves, and the commands it has had in the round -/
  turn : Nat
  taken : Nat
  /-- LOCKED_SET, when valid -/
  locked : Option (BitVec 256)
  /-- the cycle PERST# deasserted in; the link has not trained since -/
  trainSince : Option Nat
  linkFailRaised : Bool
  /-- the committed HDM decoder: base and size -/
  hdmBase : Nat
  hdmSize : Nat
  /-- a commit notification waits to be sent -/
  notify : Option Nat
  /-- an EXPORT_WRITE event has been raised since EN became 1 -/
  exportRaised : Bool
  /-- IDE keys are programmed: CXL.io, CXL.cachemem -/
  ideKeys : BitVec 2
  /-- integrity failures logged -/
  ideFails : Nat
  /-- the function's power state is D3hot (R335) -/
  d3hot : Bool
  /-- what the last CXL.mem read returned, and whether poisoned -/
  memData : List Byte
  memPoison : Bool
deriving DecidableEq, Repr

def HostIf.reset : HostIf :=
  { pairs := [], turn := 1, taken := 0, locked := none, trainSince := some 0, linkFailRaised := false, hdmBase := 0,
    hdmSize := 0, notify := none, exportRaised := false, ideKeys := 0, ideFails := 0, d3hot := false, memData := [],
    memPoison := false }

end Sys2Proof.Machine
end

