-- ==== Sys2Proof/Machine/TypesConfig.lean ====
section
/-!
DEFINITION. The plain data of a configuration set (spec/12) and of the event records (spec/16, R371–R374).
-/
namespace Sys2Proof.Machine

/-- One entry of the run-ahead range table (R266). -/
structure RaRange where
  die : Nat
  basePg : Nat
  pages : Nat
  /-- 1 speculative, 2 world slot -/
  kind : Nat
  slot : Nat
deriving DecidableEq, Repr

/-- The working graph that a set's generated tables are built over (R202, R205, R223, R513): the sites that are
holes and the seam links that are fenced. -/
structure Graph where
  holes : List Nat
  fenced : List Nat
deriving DecidableEq, Repr

/-- One configuration set (R268, R270). A section is a sparse list of entries of its entry size; an entry never
loaded reads zero (R274). -/
structure ConfigSet where
  /-- TYPE → entry index → entry bytes -/
  sections : SMap (SMap (List Byte))
  /-- TYPE → entry count -/
  counts : SMap Nat
  /-- the RWT registers of the set, by register key -/
  regs : SMap Nat
  /-- the working graph its generated tables stand for -/
  graph : Graph
  /-- the generated run-ahead range table -/
  raTable : List RaRange
  /-- direct writes of the generated registers since they were generated, by register key -/
  routes : SMap (Option Nat)
  /-- the 48 bytes of the set's digest; empty when never sealed -/
  digest : List Byte
  /-- the spare cores that were retired or dark when the placement registers were generated (R30), by physical core -/
  gone : List Nat
deriving DecidableEq, Repr

def ConfigSet.empty : ConfigSet :=
  { sections := [], counts := [], regs := [], graph := ⟨[], []⟩, raTable := [], routes := [], digest := [], gone := [] }

/-- The state of loading, sealing and tacking (R274–R283). -/
structure ConfigCtl where
  isSealed : Bool
  locked : Bool
  amended : Bool
  dirty : BitVec 14
  lockedWrites : Nat
  activeGen : Nat
  shadowGen : Nat
  pending : Bool
  auto : Bool
  drain : Bool
  lastNs : Nat
  /-- the pending tack has passed its boundary: the cycle it did, its closes and drain begun -/
  boundaryAt : Option Nat
  /-- the cycle TACK was sent in -/
  tackSent : Option Nat
  /-- TACK has taken effect, in this cycle -/
  swappedAt : Option Nat
  /-- the queue and command identifier of the CFG_TACK that waits for the tack -/
  command : Option (Nat × Nat)
  /-- placement generation (R30) -/
  placeGen : Nat
  /-- the pending tack halts ticking (R386, R442) -/
  halt : Bool
  /-- an automatic tack is to follow the pending one (R281) -/
  autoQ : Bool
  /-- direct writes of RWT bits that met the tack in its cycle (R7): holder, offset, value -/
  met : List (Nat × Nat × Nat)
  /-- the maps since the last calibration, the calibrated one first: sets that hold their placement and graph (R32) -/
  maps : List ConfigSet
  /-- the number of that calibration, which its measurements are drawn at -/
  calib : Nat
deriving DecidableEq, Repr

def ConfigCtl.reset : ConfigCtl :=
  { isSealed := false, locked := false, amended := false, dirty := 0, lockedWrites := 0, activeGen := 0,
    shadowGen := 0, pending := false, auto := false, drain := false, lastNs := 0,
    boundaryAt := none, tackSent := none, swappedAt := none, command := none, placeGen := 0,
    halt := false, autoQ := false, met := [], maps := [], calib := 0 }

/-- The severities of R372, in the order of their codes 0–4. -/
inductive Severity where
  | info | degraded | tickLost | jobAffecting | moduleFatal
deriving DecidableEq, Repr

def Severity.code : Severity → Nat
  | .info => 0 | .degraded => 1 | .tickLost => 2 | .jobAffecting => 3 | .moduleFatal => 4

/-- Where an event comes from: the SITE, UNIT, EDGE and SLOT fields of R371. -/
structure EventSrc where
  site : Nat
  unit : Nat
  edge : Bool
  slot : Nat
deriving DecidableEq, Repr

/-- No site and no unit. -/
def EventSrc.none : EventSrc := ⟨0xFF, 0x3F, false, 0⟩

/-- An event record (R371), but for its PHASE bit, which the ring gives it. -/
structure Event where
  sev : Severity
  code : Nat
  injected : Bool
  seq : Nat
  tick : Nat
  src : EventSrc
  data : Nat
deriving DecidableEq, Repr

/-- The event ring that EVENT_RING sets up (R371). -/
structure Ring where
  base : Nat
  entries : Nat
  vector : Nat
  irq : Bool
deriving DecidableEq, Repr

/-- The panel's event reporting (R371–R373, R431, R490). -/
structure Events where
  seq : Nat
  ring : Option Ring
  tail : Nat
  head : Nat
  /-- the PHASE bit of the current pass -/
  phase : Bool
  lost : Nat
  /-- code and severity of the most severe lost event -/
  worst : Option (Nat × Severity)
  severeCode : Nat
  severeSev : Nat
  /-- bring-up events held until the first ring (R431) -/
  boot : List Event
  /-- a ring has been set up since the last reset of the events -/
  hadRing : Bool
  /-- records of run-ahead work held until its predecessor commits (R260) -/
  held : List Event
  /-- events that wait for MCTP (R490), oldest first -/
  mctpQ : List Event
  /-- events held while Pliwick restarts (R458) -/
  stopped : List Event
deriving DecidableEq, Repr

def Events.reset : Events :=
  { seq := 0, ring := none, tail := 0, head := 0, phase := true, lost := 0, worst := none, severeCode := 0,
    severeSev := 0, boot := [], hadRing := false, held := [], mctpQ := [], stopped := [] }

/-- The MSI-X function of the host bridge die (R350): enabled, and per vector the mask and pending bits and how many
interrupts have been sent. -/
structure Msix where
  enabled : Bool
  unmasked : BitVec 64
  pending : BitVec 64
  sent : SMap Nat
deriving DecidableEq, Repr

def Msix.reset : Msix := { enabled := false, unmasked := 0, pending := 0, sent := [] }

end Sys2Proof.Machine
end

