-- ==== Sys2Proof/Machine/TypesCore.lean ====
section
/-!
DEFINITION. The plain data of one physical core (spec/02, 03, 04): its task slots, its launcher, its instruction
cache, its scratchpad with banks, windows and grants, and its engine queues.
-/
namespace Sys2Proof.Machine

/-- A status code of R46. -/
abbrev Status := Nat

/-- The slot states of R35, in the order of their codes 0–5. -/
inductive SlotMode where
  | free | launching | ready | waiting | ending | faulted
deriving DecidableEq, Repr

/-- A completion token (R44, R45): FREE, BUSY, or completed with the status it holds (DONE when it is 0x00, else
ERROR). -/
inductive Token where
  | free
  | busy
  | completed (status : Status)
deriving DecidableEq, Repr

/-- What a scratchpad access of the task processor does (R70, R72, R73). `n` is the access size in bytes. -/
inductive MemKind where
  | load (n : Nat) (signed : Bool)
  | store (n : Nat)
  | amoAdd | amoSwap | amoCas | amoOr | amoAnd
  | take (clear : Bool)
  | put (setFull : Bool)
  /-- the descriptor reads of MXI, VXI, DXI and WOPEN (R74, R78, R89) -/
  | mxi | vxi | dxi | wopen
deriving DecidableEq, Repr

/-- A scratchpad access of a slot, from its issue until its grant, and for a load until its data returns (R71). -/
structure MemOp where
  kind : MemKind
  /-- the destination register of a load, atomic or TAKE -/
  rd : Nat
  /-- the offset in the core's scratchpad -/
  off : Nat
  /-- the task-relative address, for the fault record -/
  taskAddr : Word
  /-- the value stored, or operand rb of an atomic -/
  val : Word
  /-- the value RD held at issue (AMOCAS) -/
  oldRd : Word
  /-- the order of issue across the slots of the core (R38) -/
  seq : Nat
  /-- after the grant: the data on its way back; `none` inside is an uncorrectable error -/
  reply : Option (Option Word)
  /-- the cycle in which the data returns; before the grant, of a checked access that waits and may be performed: the cycle
  its bank request is repeated in (R108), 0 while it may not -/
  dueAt : Nat
deriving DecidableEq, Repr

/-- An operation of run-ahead work that R260 holds, with its slot WAITING (R85). -/
inductive HeldOp where
  /-- a DXI: the queue entry number it takes its place with, and RD -/
  | dxi (rd : Nat) (token : Nat)
  /-- an HSEND: channel, destination core and payload -/
  | hsend (chan : Nat) (dest : Nat) (payload : BitVec 32)
deriving DecidableEq, Repr

/-- The condition a WAITING slot waits for (R75). -/
inductive WaitOn where
  | none
  /-- WAITT: the token -/
  | token (rd : Nat) (t : Nat)
  /-- WAITM: the mask of tokens -/
  | mask (rd : Nat) (m : BitVec 16)
  /-- WAITP: the phase edge -/
  | phase (rd : Nat) (p : Nat)
  /-- WAITC: the scratchpad offset, and whether the full bit is waited to be 1 -/
  | channel (off : Nat) (wantFull : Bool)
  /-- BAR: the barrier, and whether the arrival counts towards the next episode (R230) -/
  | barrier (b : Nat) (next : Bool)
  /-- HRECV: the channel, and the cycle the wait began in -/
  | message (rd : Nat) (chan : Nat) (since : Nat)
  /-- R85, R260 -/
  | held (op : HeldOp)
  /-- a TAKE or PUT whose channel slot is not yet as it needs it (R108); the access itself is the slot's `mem` -/
  | checked
deriving DecidableEq, Repr

/-- The three base and bound pairs of a task (R34, R39). -/
structure Segments where
  codeBase : Nat
  codeBound : Nat
  spadBase : Nat
  spadBound : Nat
  dramBase : Nat
  dramBound : Nat
deriving DecidableEq, Repr

def Segments.zero : Segments := ⟨0, 0, 0, 0, 0, 0⟩

/-- The fields of a validated task descriptor the launcher still needs (R49, R50 steps 4 and 5). -/
structure LaunchLoad where
  seg : Segments
  entry : Nat
  arg0 : Word
  arg1 : Word
  zero : Bool
  /-- next scratchpad offset to clear under R111 (only while `zero`) -/
  clearNext : Nat
deriving DecidableEq, Repr

/-- One task slot (R34). -/
structure Slot where
  mode : SlotMode
  /-- g0–g31; g0 is never stored (R62) -/
  regs : SMap Word
  pc : Word
  seg : Segments
  /-- the 16 completion tokens, and those that complete in a cycle to come (R79): cycle, token, status -/
  tokens : SMap Token
  due : List (Nat × Nat × Status)
  fpFlags : BitVec 5
  sat : Bool
  /-- the flags (bit 5 SAT) that a descriptor set last, and the cycle it did in (R83) -/
  flagsAt : Nat × BitVec 6
  faultCode : BitVec 8
  faultValid : Bool
  faultOvf : Bool
  faultPc : BitVec 32
  faultAddr : Word
  /-- the latest fault: its cycle, code, program counter and value (R58) -/
  lastFault : Option (Nat × Nat × Word × Word)
  taskId : BitVec 16
  patch : Nat
  zero : Bool
  abs : Bool
  runahead : Bool
  /-- the tick the task was launched in, and that tick's attempt count then -/
  tick : Nat
  att : Nat
  /-- the first cycle the slot may issue in (R86) -/
  readyAt : Nat
  /-- YIELD: the slot stands back until another slot has issued, or until `readyAt` (R83) -/
  yielding : Bool
  /-- the address of the taken branch whose target is the next fetch (R68) -/
  branchFrom : Option Word
  /-- a division's register write, which lands when the slot next issues (R86, R87) -/
  late : Option (Nat × Word)
  wait : WaitOn
  mem : Option MemOp
  load : Option LaunchLoad
  /-- the windows the task opened without PERSIST, with the generation each had then (R51) -/
  opened : List (Nat × BitVec 16)
deriving DecidableEq, Repr

def Slot.reset : Slot :=
  { mode := .free, regs := [], pc := 0, seg := Segments.zero, tokens := [], due := [], fpFlags := 0, sat := false,
    flagsAt := (0, 0), faultCode := 0, faultValid := false, faultOvf := false, faultPc := 0, faultAddr := 0, lastFault := none, taskId := 0, patch := 0,
    zero := false, abs := false, runahead := false, tick := 0, att := 0, readyAt := 0, yielding := false,
    branchFrom := none, late := none, wait := .none, mem := none, load := none, opened := [] }

/-- A launch that waits at the core's launcher (R50). -/
structure Launch where
  /-- scratchpad offset of the task descriptor, and the PATCH of its launch entry (R272) -/
  off : Nat
  patch : Nat
  tick : Nat
  att : Nat
  runahead : Bool
deriving DecidableEq, Repr

/-- The grant that a write names (R102): its index, the window and the generation, and its number, by which the target
tells the grant from a later one at the same index. -/
structure GrantRef where
  index : Nat
  win : Nat
  gen : BitVec 16
  no : Nat
deriving DecidableEq, Repr

/-- A request of priority 6 that waits at a scratchpad bank (R89). -/
inductive BankReq where
  /-- the core's own DMA engine reads `n` bytes for access `id` -/
  | localRead (id : Nat) (off n : Nat)
  /-- the core's own DMA engine writes -/
  | localWrite (id : Nat) (off : Nat) (data : List Byte)
  /-- a remote write that has passed R102 or R95, under grant `grant` (none: management die write, or a multicast
  write that holds the credit of window `win`) -/
  | remoteWrite (id : Nat) (off : Nat) (data : List Byte) (grant : Option GrantRef) (win : Option Nat)
  /-- a remote read -/
  | remoteRead (id : Nat) (off n : Nat)
  /-- the scrub read of the bank's next line, once it has waited 1,024 cycles (R90) -/
  | scrub
deriving DecidableEq, Repr

/-- One scratchpad bank (R88–R94, R112–R114). -/
structure Bank where
  on : Bool
  /-- a pending power-down request, and when it was made -/
  pdSince : Option Nat
  /-- step 2 of the power-down: the cycle the bank is off in -/
  pdOffAt : Option Nat
  pdTimeout : Bool
  readOff : Bool
  /-- a power-up request waits -/
  puReq : Bool
  /-- a power-up under way: the latest cycle it completes in -/
  puDoneBy : Option Nat
  /-- the first cycle the bank may grant in again -/
  freeAt : Nat
  /-- requests of priority 6, oldest first -/
  p6 : List BankReq
  /-- the class (0 local DMA, 1 remote write, 2 remote read, 3 scrub) that round robin serves next -/
  p6next : Nat
  /-- bank cycles the oldest priority-6 request has waited without a grant (R90) -/
  p6wait : Nat
  /-- the next 64-byte line the scrub reads (0–1023) -/
  scrubLine : Nat
  /-- the cycle the next scrub read is due in -/
  scrubDue : Nat
  /-- corrected words queued for write-back at priority 7 -/
  writeBacks : List Nat
  /-- since when the bank has been uncovered and clear in KEEP, while it is (AUTO_PD, R113) -/
  uncoveredAt : Nat
deriving DecidableEq, Repr

def Bank.reset : Bank :=
  { on := true, pdSince := none, pdOffAt := none, pdTimeout := false, readOff := false, puReq := false,
    puDoneBy := none, freeAt := 0, p6 := [], p6next := 0, p6wait := 0, scrubLine := 0, scrubDue := 8192,
    writeBacks := [], uncoveredAt := 0 }

/-- One scratchpad window (R97–R100, R117). -/
structure Window where
  isOpen : Bool
  closing : Bool
  /-- scratchpad offset -/
  base : Nat
  bound : Nat
  channel : Bool
  check : Bool
  persist : Bool
  patch : Nat
  coreMode : Nat
  edgeMask : BitVec 10
  coreLo : Nat
  coreHi : Nat
  /-- credit pool of a plain window, slot count of a channel window -/
  credits : Nat
  slotBytes : Nat
  unsyncRead : Bool
  overwriteFull : Bool
  nacked : Bool
  /-- the sticky flags (bit 0 UNSYNC_READ, 1 OVERWRITE_FULL, 2 NACKED) set in the latest cycle that set any, and that
  cycle (R80) -/
  fresh : Nat × BitVec 3
  gen : BitVec 16
  creditsOut : Nat
  /-- the channel slots whose full bit is 1 -/
  full : SMap Bool
  /-- the channel slots reserved by a grant -/
  reserved : SMap Bool
  /-- the tokens that WCLOSEs complete when the close does: (slot, token) -/
  closers : List (Nat × Nat)
  /-- the template the window was opened from at a tack; empty for a window of a task (R273) -/
  tmpl : List Byte
deriving DecidableEq, Repr

def Window.reset : Window :=
  { isOpen := false, closing := false, base := 0, bound := 0, channel := false, check := false, persist := false,
    patch := 0, coreMode := 0, edgeMask := 0, coreLo := 0, coreHi := 0, credits := 0, slotBytes := 0,
    unsyncRead := false, overwriteFull := false, nacked := false, fresh := (0, 0), gen := 0, creditsOut := 0, full := [],
    reserved := [], closers := [], tmpl := [] }

/-- Who asks for credits or writes: a core (global logical core ID, with the patch of the sending task) or an edge
die (R100). -/
inductive Requester where
  | core (gid : Nat) (patch : Nat)
  | edge (e : Nat)
deriving DecidableEq, Repr

/-- A live credit grant (R101, R103). -/
structure Grant where
  win : Nat
  gen : BitVec 16
  no : Nat
  /-- credits neither used nor returned -/
  out : Nat
  /-- channel window: the slots granted and not yet filled, and the bytes of each that have landed -/
  slots : SMap Nat
  who : Requester
  /-- first byte and end of the extent granted, as scratchpad offsets -/
  lo : Nat
  hi : Nat
  expireAt : Nat
deriving DecidableEq, Repr

/-- The answer to a credit request (R104). -/
inductive CreditAnswer where
  | refused
  | retry
  | hold
  | grant (ref : GrantRef) (n : Nat)
deriving DecidableEq, Repr

/-- A credit request: `id` names it at its sender. -/
structure CreditReq where
  id : Nat
  who : Requester
  /-- scratchpad offset and bytes of the extent -/
  off : Nat
  extent : Nat
  want : Nat
  /-- channel window: slots of the extent already reserved for it while it is held -/
  got : Nat
deriving DecidableEq, Repr

/-- A descriptor held in the queue of the matrix unit or the vector engine (R43). -/
structure EngDesc where
  slot : Nat
  token : Nat
  tick : Nat
  att : Nat
  /-- the 64 bytes copied at issue -/
  raw : List Byte
  /-- scratchpad offset of the descriptor, for the status word -/
  off : Nat
  spadBase : Nat
  spadBound : Nat
  /-- the bank accesses granted so far (of a CHAIN: of its current group), and the bytes that its reads among them
  returned, in order (R147, R163) -/
  pos : Nat
  got : List Byte
  /-- CHAIN: the groups done -/
  group : Nat
  /-- the descriptor has done its work and waits for DESCRIPTOR_COMPLETION with this status -/
  finished : Option Status
  /-- flags its elements raised, bit 5 SAT, merged into the slot at completion (R135) -/
  flags : BitVec 6
  /-- a QUANT stage saturated (R176) -/
  qovf : Bool
deriving DecidableEq, Repr

end Sys2Proof.Machine
end

