-- ==== Sys2Proof/Machine/TypesHalyard.lean ====
section
/-!
DEFINITION. The plain data of the halyard network (spec/10): messages, the nodes' queues, the hubs' outputs, and of
the tick generator and the world table (spec/11).
-/
namespace Sys2Proof.Machine

/-- A user message on its way (R224 TYPE 0xB, R81, R82). -/
structure UserMsg where
  chan : Nat
  dest : Nat
  sender : Nat
  tick : Nat
  att : Nat
  payload : BitVec 32
deriving DecidableEq, Repr

/-- A message of the send queue of a node (R235). -/
structure UserSend where
  msg : UserMsg
  /-- sent and not yet acknowledged -/
  inFlight : Bool
  /-- after a refusal: the cycle it is sent again in -/
  resendAt : Option Nat
deriving DecidableEq, Repr

/-- An event that a core raises, as the NOTICE of kind 3 carries it to Pliwick (R224, R371): `ahead` tells that run-ahead
work raised it (R260). -/
structure CoreEvent where
  sev : Severity
  code : Nat
  src : EventSrc
  tick : Option Nat
  data : Nat
  ahead : Bool
deriving DecidableEq, Repr

/-- A NOTICE of kind 0, 1 or 3 (R226): the source core, the tick and attempt that raised it, and how many further
notices of its kind it stands for. -/
structure Notice where
  kind : Nat
  core : Nat
  tick : Nat
  att : Nat
  count : Nat
  /-- kind 1: QTAG and QGEN (R176) -/
  tag : Option (Nat × Nat) := none
  /-- kind 3: the event -/
  event : Option CoreEvent := none
deriving DecidableEq, Repr

/-- The halyard node of one physical core (R222, R226, R230, R235, R237). -/
structure Node where
  /-- BAR instructions registered for each barrier: key 64 × TICKP + b -/
  barCount : SMap Nat
  /-- BAR instructions registered for the next episode, after the core's arrival -/
  barNext : SMap Nat
  /-- the cycle the core arrived at the barrier in, while it awaits its release -/
  barArrived : SMap (Option Nat)
  sendQ : List UserSend
  recvQ : List UserMsg
  /-- at most one waiting NOTICE of each kind -/
  notices : List Notice
  /-- the cycle the core voted in for the tick of that TICKP -/
  voted : SMap (Option Nat)
  /-- a launch of the tick of that TICKP was dropped (R242 condition 4) -/
  dropped : SMap Bool
  /-- the check that spec/13 assigns to the core's die has failed for the tick of that TICKP (R242) -/
  voteBad : SMap Bool
  /-- the cycle of the last heartbeat (R233) -/
  hbAt : Nat
  /-- the heartbeat is stopped by a rehearsal or the core has failed -/
  hbStopped : Bool
deriving DecidableEq, Repr

def Node.reset : Node :=
  { barCount := [], barNext := [], barArrived := [], sendQ := [], recvQ := [], notices := [],
    voted := [], dropped := [], voteBad := [], hbAt := 0, hbStopped := false }

/-- A combined VOTE (R229): the tick and attempt it is for, the members and children it holds, and its OK. -/
structure VoteSet where
  tick : Nat
  att : Nat
  ok : Bool
  members : List Nat
  children : List Nat
  /-- the hub has sent its VOTE upward -/
  sent : Bool
deriving DecidableEq, Repr

/-- A message of class 2 (R224). -/
inductive Class2 where
  | hist (tickp : Nat) (slot : Nat) (bin : Nat) (count : Nat)
  | user (m : UserMsg)
  | userAck (sender acker : Nat) (refused : Bool)
  | debug (dest : Nat) (data : BitVec 32)
deriving DecidableEq, Repr

/-- One output of a hub (R225, R226). -/
structure HubOut where
  /-- the pending BAR_UP or BAR_REL of each TICKP, oldest first: (TICKP, attempt, bitmap) -/
  bar : List (Nat × Nat × BitVec 64)
  /-- the waiting kind-2 notice: the cores it names -/
  lost : List Nat
  /-- the waiting VOTE of each TICKP: (tick, attempt, ok) -/
  vote : SMap (Nat × Nat × Bool)
  /-- the DIE_HB table: (hub, live cores), and the hub whose entry was sent last -/
  dieHb : List (Nat × BitVec 6)
  hbLast : Nat
  notices : List Notice
  class2 : List Class2
  /-- a class-B message has been sent, and one waiting class-1 message goes before the next -/
  oweClass1 : Bool
  /-- class-1 messages sent while a class-2 message waited -/
  sinceClass2 : Nat
deriving DecidableEq, Repr

def HubOut.empty : HubOut :=
  { bar := [], lost := [], vote := [], dieHb := [], hbLast := 0, notices := [], class2 := [], oweClass1 := false,
    sinceClass2 := 0 }

/-- One hub (R222): a compute site (0–203) or an edge die (204 + e). -/
structure Hub where
  up : HubOut
  /-- the output towards each child hub, and towards the die's own nodes under key 999 -/
  down : SMap HubOut
  /-- the votes gathered for the tick of each TICKP; key 2 gathers the TACK votes -/
  votes : SMap VoteSet
  /-- barrier arrivals gathered: key 64 × TICKP + b, the members and children (1000 + hub) that have arrived -/
  bars : SMap (List Nat)
  /-- histogram sums: key ((TICKP × 16 + slot) × 128 + bin) -/
  hist : SMap Nat
  /-- the children and members whose end mark of a slot has come: key TICKP × 16 + slot -/
  histEnds : SMap (List Nat)
  /-- the cycle of the last DIE_HB this hub sent -/
  hbAt : Nat
deriving DecidableEq, Repr

def Hub.reset : Hub :=
  { up := HubOut.empty, down := [], votes := [], bars := [], hist := [], histEnds := [], hbAt := 0 }

/-- A class-0 message in flight (R224, R225, R228). -/
inductive Class0 where
  | phase (p tick att : Nat)
  | abandon (tick att : Nat)
  | commit (seq : Nat)
  | tack (gen : Nat)
  | control (cmd operand : Nat) (node : Option Nat)
deriving DecidableEq, Repr

/-- The states of the tick generator (TICK_STATUS.STATE). -/
inductive GenState where
  | stopped | running | stopping | halted
deriving DecidableEq, Repr

/-- The causes of R244, in the order of their codes 1–10. -/
inductive Cause where
  | overrun | commitTimeout | voteFail | taskFault | scaleOverflow | coreLost | dieLost | system | bucket | discard
deriving DecidableEq, Repr

def Cause.code : Cause → Nat
  | .overrun => 1 | .commitTimeout => 2 | .voteFail => 3 | .taskFault => 4 | .scaleOverflow => 5
  | .coreLost => 6 | .dieLost => 7 | .system => 8 | .bucket => 9 | .discard => 10

/-- A started tick (R239, R243, R249). -/
structure TickRun where
  tick : Nat
  att : Nat
  t0 : Nat
  tEff : Option Nat
  /-- the cycle the root held the combined vote in -/
  d : Option Nat
  ended : Bool
  /-- edges already sent, and edges already in effect -/
  edgesSent : Nat
  edges : Nat
  /-- started as run-ahead -/
  runahead : Bool
  /-- schedule position it uses -/
  entry : Nat
  rep : Nat
  /-- the system commit token has arrived (R247 condition 6) -/
  token : Bool
  /-- the digest comparison has passed (R247 condition 5) -/
  digest : Bool
  /-- the buckets of the tick that have completed or are not used -/
  bucketsOpen : List Nat
  /-- the worlds' STATE as latched at the tick's first start (R258), worlds not listed being UNUSED -/
  latched : SMap Nat
  /-- the cycle the conditions of R247 held in; COMMIT was sent then -/
  commitAt : Option Nat
  /-- the cycle the tick ended in -/
  endAt : Nat
  /-- PERIOD and the allowance of its schedule entry, in fabric cycles, and its phase program -/
  period : Nat
  allow : Nat
  prog : Nat
  /-- the panel has offered the tick to the system (R319) -/
  offered : Bool
  /-- the cycle conditions 1 to 4 of R247 first held in -/
  metAt : Option Nat
deriving DecidableEq, Repr

/-- The tick generator (R238–R251). -/
structure TickGen where
  gstate : GenState
  run : Bool
  raEn : Bool
  stepLeft : Nat
  commitSeq : Word
  /-- schedule position (R238) -/
  entry : Nat
  rep : Nat
  /-- the oldest uncommitted started tick, then its run-ahead tick -/
  ticks : List TickRun
  /-- ticks abandoned or discarded whose ABANDON has not taken effect: at the nodes they still run -/
  ending : List TickRun
  /-- attempt counts of ticks that have had an abandon or a discard -/
  attempts : SMap Nat
  /-- abandons of each tick since the last commit -/
  runs : SMap Nat
  /-- the copy of `COMMIT_SEQ` that every node holds (R228) -/
  nodeSeq : Word
  /-- the last phase edge that has taken effect at every node for the tick of each TICKP: phase + 1, 0 before edge 0 -/
  lastEdge : SMap Nat
  /-- commits that have taken effect, the tick committed last, and the one committed before it -/
  commits : Nat
  last : Option TickRun
  prev : Option TickRun
  /-- the root: the cycle of the last DIE_HB of each hub (R233) -/
  hbSeen : SMap Nat
  /-- a replay waits until this cycle -/
  notBefore : Nat
  /-- a ready tick waits for its edge or marker (R239) -/
  waitAlign : Bool
  /-- the cycle a run-ahead or next tick became ready in -/
  ready : Option Nat
  /-- the cycle of the alignment edge that the ready tick takes as t0 -/
  aligned : Option Nat
  /-- the worlds' STATE latched at the first start of a tick still to be replayed: (tick, states) -/
  latch : List (Nat × SMap Nat)
  /-- the class-0 message on its way and the cycle it takes effect in -/
  class0 : Option (Class0 × Nat)
  /-- the earliest cycle the next class-0 message may be sent in (R225) -/
  class0Free : Nat
  /-- class-0 messages waiting to be sent -/
  class0Q : List Class0
  /-- the class-0 control message that took effect last: command, operand and the one node it is for (R224) -/
  control : Option (Nat × Nat × Option Nat)
  /-- a pulse has been driven on the tick-out pin at each of this many starts -/
  tickOut : Nat
deriving DecidableEq, Repr

def TickGen.reset : TickGen :=
  { gstate := .stopped, run := false, raEn := false, stepLeft := 0, commitSeq := 0, entry := 0, rep := 0,
    ticks := [], ending := [], attempts := [], runs := [], control := none,
    nodeSeq := 0, lastEdge := [], commits := 0, last := none, prev := none, hbSeen := [], notBefore := 0, waitAlign := false, ready := none, aligned := none,
    latch := [], class0 := none, class0Free := 0,
    class0Q := [], tickOut := 0 }

/-- A world context (R252, R267). `patch` of WCTX_STATUS comes from the configuration set. -/
structure World where
  state : Nat
  resetReq : Bool
  doneLast : Bool
  resetErr : Bool
  autoReset : Bool
  slots : Nat
  user : BitVec 32
  stateBase : Nat
  slotStride : Nat
  slotBytes : Nat
  template : Nat
  keyLo : Word
  keyHi : Word
  step : Nat
  episode : Nat
  doneTick : Nat
  /-- the tick whose mark the waiting RESET_REQ has become (R254) -/
  reqTick : Option Nat
deriving DecidableEq, Repr

def World.reset : World :=
  { state := 0, resetReq := false, doneLast := false, resetErr := false, autoReset := false, slots := 0, user := 0,
    stateBase := 0, slotStride := 0, slotBytes := 0, template := 0, keyLo := 0, keyHi := 0, step := 0,
    episode := 0, doneTick := 0, reqTick := none }

/-- The reset copies of one tick (R255). -/
structure ResetCopies where
  tick : Nat
  /-- the worlds whose copy is still to be made -/
  todo : List Nat
  /-- all copies are made and the host bridge die has reported them -/
  reported : Bool
deriving DecidableEq, Repr

/-- The world table's side of the host bridge die (R252–R256). -/
structure Worlds where
  table : SMap World
  /-- done marks: key 4096 × TICKP + world holds (tick, attempt) -/
  marks : SMap (Nat × Nat)
  copies : List ResetCopies
deriving DecidableEq, Repr

def Worlds.reset : Worlds := { table := [], marks := [], copies := [] }

end Sys2Proof.Machine
end

