-- ==== Sys2Proof/Machine/TypesMesh.lean ====
section
/-!
DEFINITION. The plain data of the DMA engines and the bulk mesh (spec/02 R48, R509; spec/09).
-/
namespace Sys2Proof.Machine

/-- The operations of a DMA descriptor (R48). -/
inductive DmaOp where
  | copy | copy2d | fill | mcast
deriving DecidableEq, Repr

/-- What a sending DMA engine knows of its credits at a remote scratchpad (R104). -/
inductive CreditState where
  | none
  /-- a request for the extent is under way or held -/
  | asked (lo extent want : Nat)
  /-- RETRY: the request is repeated at this cycle -/
  | retryAt (lo extent want at_ : Nat)
  /-- a grant, its credits not yet used, first address and end of its extent -/
  | granted (ref : GrantRef) (left lo hi : Nat)
deriving DecidableEq, Repr

/-- What an MCAST knows of one target (R215–R217). -/
inductive TargetState where
  | pending
  | acked
  | refused (status : Status)
  | missed
  /-- missed, and the unicast re-send is done -/
  | resent
  /-- missed, and the unicast re-send was refused -/
  | resendRefused (status : Status)
deriving DecidableEq, Repr

/-- A DMA descriptor held in the queue (R43, R48), its operands resolved at issue (R41). -/
structure DmaDesc where
  id : Nat
  slot : Nat
  token : Nat
  tick : Nat
  att : Nat
  patch : Nat
  op : DmaOp
  fence : Bool
  /-- resolved panel addresses -/
  src : Nat
  dst : Nat
  length : Nat
  rows : Nat
  srcStride : Nat
  dstStride : Nat
  pattern : BitVec 32
  /-- the multicast group entry as it was at issue (R218), and the scratchpad offset of the miss bitmap -/
  group : List Byte
  missOff : Nat
  /-- scratchpad offset of the descriptor, for the status word -/
  off : Nat
  /-- held by R260 until the tick before it commits -/
  held : Bool
  started : Bool
  /-- the descriptor issues no further access: it has failed, is cancelled, or has issued all -/
  stopped : Bool
  /-- row and offset in the row of the next access to issue -/
  row : Nat
  col : Nat
  /-- accesses issued and not yet answered -/
  outstanding : Nat
  /-- the failed access earliest in transfer order: (row, col, status) -/
  failed : Option (Nat × Nat × Status)
  credit : CreditState
  /-- MCAST: the targets, by number -/
  targets : SMap TargetState
  /-- MCAST: lines sent so far -/
  sentLines : Nat
  /-- MCAST: the target the unicast re-send is at -/
  resendAt : Nat
  resending : Bool
  /-- Valiant routing was chosen at the descriptor's start (R204) -/
  valiant : Bool
  /-- every access is answered: the status DESCRIPTOR_COMPLETION will write -/
  finished : Option Status
  /-- bytes read and not yet written or sent, by row × 2^25 + offset in the row -/
  gather : SMap (Option Byte)
  /-- with an operand in a register space: the offset of the next write -/
  writeCol : Nat
  /-- grants of which a credit was taken for a write that was never sent, with their target core (R104) -/
  owed : List (Nat × GrantRef)
  /-- the hashes of the lines read for destinations in space 0x0 (R455) -/
  hash : Nat
deriving DecidableEq, Repr

/-- Credits of a descriptor that has completed or been cancelled, to be returned once its writes are answered (R104).
-/
structure CreditDue where
  desc : Nat
  /-- writes sent and not yet answered -/
  outstanding : Nat
  /-- the target core and the grant -/
  target : Nat
  ref : GrantRef
deriving DecidableEq, Repr

/-- What an access does at its target. -/
inductive AccessKind where
  | read (n : Nat)
  | write (data : List Byte)
  | creditReq (extent want : Nat)
  | creditReturn (index n : Nat)
deriving DecidableEq, Repr

/-- Where an access is. -/
inductive Stage where
  /-- its request is a packet of the mesh, or waits to be injected -/
  | requesting
  /-- its request has reached the target and waits there -/
  | atTarget
  /-- its reply is a packet of the mesh -/
  | replying
  /-- its reply has reached the requester -/
  | replied
deriving DecidableEq, Repr

/-- One access of a DMA engine (R509). `core` and `desc` name the engine and its descriptor; (`row`, `col`) its place
in transfer order. -/
structure Access where
  core : Nat
  desc : Nat
  row : Nat
  col : Nat
  kind : AccessKind
  /-- panel address -/
  addr : Nat
  /-- the patch, tick and attempt that stamp it -/
  patch : Nat
  tick : Nat
  att : Nat
  /-- the grant a window write uses -/
  grant : Option GrantRef
  stage : Stage
  /-- the cycle its request was injected in -/
  injectedAt : Nat
  status : Status
  data : List Byte
  answer : Option CreditAnswer
  /-- its request uses Valiant routing (R204) -/
  valiant : Bool
deriving DecidableEq, Repr

/-- Where a packet is (R197). -/
inductive Place where
  /-- waits at its source for injection -/
  | inject
  /-- in an input buffer of the router of a core position -/
  | router (site r : Nat)
  /-- in the station of an exit of a site, from router `r`; of edge die `e` the site is 204 + e -/
  | station (site exit r : Nat)
  /-- at an edge die, behind its stations -/
  | edge (e : Nat)
deriving DecidableEq, Repr

/-- What a packet carries. -/
inductive Cargo where
  | request (acc : Nat)
  | reply (acc : Nat)
  /-- a multicast line of a stream (core, descriptor): its number, its bytes, whether it is the LAST -/
  | mcast (core desc line : Nat) (data : List Byte) (last : Bool)
  /-- a target's acknowledgement of a stream, on its way to the source (R215) -/
  | ack (core desc target : Nat) (st : Status)
  /-- a miss notice of a stream, with the targets below the dropped branch (R216) -/
  | miss (core desc : Nat) (targets : List Nat)
  /-- a reduction packet (R210), by its number among those on their way -/
  | reduction (id : Nat)
  /-- a DRAM access of a transfer context (R323), and its answer -/
  | context (id : Nat) (back : Bool)
deriving DecidableEq, Repr

/-- A packet of the bulk mesh (R198, R203). -/
structure Packet where
  cargo : Cargo
  /-- source: router of a site, or an edge die -/
  from_ : Place
  /-- target of MESH_ROUTE (0–191 logical die, 192 + e edge die), and the router on a compute die (R512); of a
  multicast line its offset at each target and the KIND of its group -/
  dest : Nat
  destRouter : Nat
  vc : Nat
  /-- Valiant intermediate die while in phase 0 -/
  mid : Option Nat
  esc : Bool
  /-- escaped into pool Q (else pool R) -/
  poolQ : Bool
  /-- the exit chosen at this die; `none` before the choice -/
  exit : Option Nat
  seamHops : Nat
  flits : Nat
  /-- the cycle the head reached this place in -/
  since : Nat
  place : Place
  /-- at a router: the input port; at a station: the channel; at an edge die: 8 × seam link + channel, or 100 for its own -/
  inPort : Nat
  /-- the patch of the sending task -/
  patch : Nat
  /-- a multicast branch: since when it has been held (R216) -/
  held : Option Nat
  /-- multicast: the targets still to be served below this packet (KIND 0: global core IDs; KIND 1: logical dies) -/
  targets : List Nat
deriving DecidableEq, Repr

/-- A drop record of a router (R216): the router, the stream, and the targets skipped. -/
structure DropRecord where
  site : Nat
  r : Nat
  core : Nat
  desc : Nat
  targets : List Nat
deriving DecidableEq, Repr

/-- The bulk mesh: the packets and accesses under way. -/
structure Mesh where
  packets : SMap (Option Packet)
  accesses : SMap (Option Access)
  nextPacket : Nat
  nextAccess : Nat
  drops : List DropRecord
  /-- multicast acknowledgements and miss notices that have reached their source core and wait for its engine: (core,
  descriptor, target, status) and (core, descriptor, targets) -/
  acks : List (Nat × Nat × Nat × Status)
  notices : List (Nat × Nat × List Nat)
  /-- targets that have refused a line of a stream that is not over: (core, descriptor, target, status) -/
  refusals : List (Nat × Nat × Nat × Status)
  /-- links that have failed or been fenced since the active set was built (R206) -/
  fenced : List Nat
  /-- links in training or retraining: no credits (R206) -/
  training : List Nat
  /-- the seam links have been trained since the last cold, module or fabric reset -/
  trained : Bool
  /-- injection is closed for a tack (R207) -/
  closed : Bool
  /-- each core's 16-bit LFSR once it has been drawn from (R204), by physical core; key 20000 + site for responders at a
  DRAM port -/
  lfsr : SMap (Option (BitVec 16))
  /-- injection throttle: level, and since when the depth has been low (R219), by physical core -/
  level : SMap Nat
  lowSince : SMap Nat
  /-- packets injected in the current 64-cycle window: (window number, count) -/
  injected : SMap (Nat × Nat)
  /-- round robin of each router among VC 0, 1 and 7 -/
  rr : SMap Nat
  /-- by output, 5 × physical core + port: since when a head has found no room, as far as counted (the cycle + 1; R221) -/
  stalled : SMap Nat
  /-- DRAM accesses of transfer contexts whose answer has reached their link die -/
  back : List Nat
deriving DecidableEq, Repr

def Mesh.reset : Mesh :=
  { packets := [], accesses := [], nextPacket := 0, nextAccess := 0, drops := [], acks := [], notices := [],
    refusals := [], fenced := [],
    training := [], trained := false, closed := false, lfsr := [], level := [], lowSince := [], injected := [], rr := [], stalled := [], back := [] }

/-- The DMA engine of a core: its queue, oldest first (R43). -/
structure Dma where
  queue : List DmaDesc
  /-- DXI of run-ahead work that have not entered the queue (R260); `held` is false once they are released -/
  waiting : List DmaDesc
  nextId : Nat
  returns : List CreditDue
  /-- cancelled descriptors that had started, until their last access is answered (R54, R104) -/
  stopping : List DmaDesc
deriving DecidableEq, Repr

def Dma.reset : Dma := { queue := [], waiting := [], nextId := 0, returns := [], stopping := [] }

end Sys2Proof.Machine
end

