-- ==== Sys2Proof/Machine/TypesMachine.lean ====
section
/-!
DEFINITION. The plain data of a whole core.
-/
namespace Sys2Proof.Machine

/-- The matrix unit (spec/06): accumulator words by tile × 1024 + row × 32 + column, the KIND and POISON of each tile,
and the descriptor queue. -/
structure Mxu where
  acc : SMap (BitVec 32)
  kind : SMap Bool
  poison : SMap Bool
  queue : List EngDesc
deriving DecidableEq, Repr

def Mxu.reset : Mxu := { acc := [], kind := [], poison := [], queue := [] }

/-- The vector engine (spec/07): tile buffer bytes by buffer × 16384 + byte, their POISON, the parameter registers by
byte, and the descriptor queue. -/
structure Vec where
  buf : SMap Byte
  poison : SMap Bool
  params : SMap Byte
  queue : List EngDesc
deriving DecidableEq, Repr

def Vec.reset : Vec := { buf := [], poison := [], params := [], queue := [] }

/-- The exponent histograms (spec/05, R136–R138): bins by (TICKP × 16 + slot) × 68 + bin of the live sets, by
slot × 68 + bin of the snapshot, and whether each is used. -/
structure Hist where
  live : SMap Nat
  liveUsed : SMap Bool
  snap : SMap Nat
  snapUsed : SMap Bool
  /-- the commits of the panel before the core's last reset -/
  since : Nat
deriving DecidableEq, Repr

def Hist.reset : Hist := { live := [], liveUsed := [], snap := [], snapUsed := [], since := 0 }

/-- The scratchpad (spec/04): its bytes, the words whose code reads as uncorrectable, banks, windows and grants. -/
structure Spad where
  bytes : SMap Byte
  ue : SMap Bool
  banks : SMap Bank
  wins : SMap Window
  grants : SMap (Option Grant)
  /-- held credit requests, in arrival order (R104) -/
  hold : List CreditReq
  /-- the number of the next grant -/
  grantNo : Nat
deriving DecidableEq, Repr

def Spad.reset : Spad := { bytes := [], ue := [], banks := [], wins := [], grants := [], hold := [], grantNo := 0 }

/-- One physical core. -/
structure Core where
  slots : SMap Slot
  /-- the slot that issued last, and the first cycle the next instruction may issue in (R36) -/
  lastSlot : Nat
  issueAt : Nat
  /-- the number of the next scratchpad access in issue order (R38) -/
  memSeq : Nat
  /-- a fabric reset has stopped the core, and Pliwick has not reinitialised it yet (R58) -/
  resetting : Bool
  /-- the cycle of the core's last reset (RDSYS index 0) -/
  resetAt : Nat
  launches : List Launch
  /-- the first cycle the launcher may clear its next block in (R111) -/
  clearAt : Nat
  /-- the instruction cache lines present: the panel address of each 64-byte line, and the bytes it was filled with -/
  icache : List (Nat × List Byte)
  icinvBusy : Bool
  spad : Spad
  dma : Dma
  mxu : Mxu
  vec : Vec
  hist : Hist
  node : Node
deriving DecidableEq, Repr

def Core.reset : Core :=
  { slots := [], lastSlot := 7, issueAt := 0, memSeq := 0, resetting := false, resetAt := 0, launches := [], clearAt := 0, icache := [],
    icinvBusy := false, spad := Spad.reset, dma := Dma.reset, mxu := Mxu.reset, vec := Vec.reset,
    hist := Hist.reset, node := Node.reset }

end Sys2Proof.Machine
end

