-- ==== Sys2Proof/Machine/TypesMgmt.lean ====
section
/-!
DEFINITION. The plain data of power, clocks, bring-up, maintenance, security and telemetry (spec/17–22), as far as it
is not a register.
-/
namespace Sys2Proof.Machine

/-- An entry of the alteration log (R422), without its chain digest. -/
structure LogEntry where
  kind : Nat
  site : Nat
  unit : Nat
  detail : Nat
  hours : Nat
deriving DecidableEq, Repr

/-- A sweep under way in a region (R411): the voltage it is at, and the rate it sweeps. -/
structure Sweep where
  mv : Nat
  half : Bool
  /-- the voltage before the sweep -/
  start : Nat
deriving DecidableEq, Repr

/-- A power region of a compute die: what `PWR_REGION_STAT`, `CLK_MARGIN` and `CLK_PLAN` do not show. -/
structure Region where
  /-- end of the interval of the stage that closed last (R383) -/
  stageAt : Nat
  /-- the margin controller evaluates the region again from this cycle (R407) -/
  evalAt : Nat
  /-- since when the code has been 20 or above, and since when 0.90 V has not sufficed -/
  highSince : Option Nat
  endSince : Option Nat
  /-- a margin code has been sampled since CODE_MIN was last read (R414) -/
  codeSeen : Bool
  /-- MARGIN_RAISE has been raised since the last plan -/
  raised : Bool
  /-- half rate under R385: no plan returns it to full rate -/
  faultHalf : Bool
  /-- a switch to half rate waits for its 64-cycle boundary (R408); a return to full rate waits for slack (R409) -/
  toHalf : Bool
  toFull : Bool
  sweep : Option Sweep
  /-- the region waits for its re-plan -/
  replan : Bool
  /-- the plan read at the last plan: full-rate or half-rate voltage of the new plan, applied in slack -/
  newPlan : Option (Nat × Bool)
  /-- a rehearsed phase loss returns: the cycle and the phase (R450) -/
  phaseBack : Option (Nat × Nat)
deriving DecidableEq, Repr

def Region.reset : Region :=
  { stageAt := 0, evalAt := 0, highSince := none, endSince := none, codeSeen := false, raised := false, faultHalf := false,
    toHalf := false, toFull := false, sweep := none, replan := false, newPlan := none,
    phaseBack := none }

/-- The power manager of a compute die. -/
structure DiePower where
  regions : SMap Region
  /-- the limits the power budget sets on matrix and vector issue (R392) -/
  mxuCap : Nat
  vecCap : Nat
  /-- since when the input power has been below 0.9 × the budget -/
  belowSince : Option Nat
  /-- the backstop's matrix limit holds (R393) -/
  backstop : Bool
  /-- the 105 °C protection holds, and since when every sensor reads below 100 °C (R507) -/
  hot : Bool
  hotCool : Option Nat
  /-- CONTACT_RISE has been raised and not re-armed (R388) -/
  riseRaised : Bool
  /-- the previous contact estimate -/
  lastEst : Option Nat
  /-- the die has stopped: its converter group is off, or its PLL has lost lock -/
  stopped : Bool
deriving DecidableEq, Repr

def DiePower.reset : DiePower :=
  { regions := [], mxuCap := 64, vecCap := 64, belowSince := none, backstop := false, hot := false, hotCool := none,
    riseRaised := false, lastEst := none, stopped := false }

/-- What the panel waits for after a shutdown (R396). -/
structure Shutdown where
  cause : Nat
  extreme : Nat
deriving DecidableEq, Repr

/-- The supply monitor (R394–R397) and the reference (R402). -/
structure Supply where
  /-- consecutive samples below WARN_MV -/
  low : Nat
  reefStart : Nat
  since : Option Nat
  highSince : Option Nat
  highRaised : Bool
  /-- when a protective shutdown last came, in operating cycles (R397) -/
  protectAt : Option Nat
  /-- converter groups latched off by a short: the latch clears only at a cold reset (R387) -/
  shorted : List Nat
  latchedOff : Bool
  /-- the panel is in module reset after a shutdown -/
  down : Option Shutdown
  /-- a shutdown whose SUPPLY_SHUTDOWN event is still to be raised, after readiness -/
  report : Option Shutdown
  /-- the tick that was oldest uncommitted when the interval's least input voltage was sampled (R484) -/
  minTick : Nat
  /-- the reference has been lost since this cycle -/
  refLostAt : Option Nat
  /-- the budget weights of the active set have been used for the current tick's budgets -/
  capPending : Option Nat
deriving DecidableEq, Repr

def Supply.reset : Supply :=
  { low := 0, reefStart := 0, since := none, highSince := none, highRaised := false, protectAt := none, shorted := [],
    latchedOff := false, down := none, report := none, minTick := 0, refLostAt := none, capPending := none }

/-- An identity record (R421): the die ID, failed cores, exits that did not train. -/
structure IdRecord where
  dieId : Nat
  badCores : BitVec 50
  badExits : BitVec 4
deriving DecidableEq, Repr

/-- Bring-up (R416–R430). -/
structure Boot where
  /-- the step in progress; 0 when no bring-up runs -/
  step : Nat
  /-- 0 cold, 1 module, 2 fabric -/
  level : Nat
  cause : Nat
  startedAt : Nat
  /-- the cycle the step in progress began in -/
  stepAt : Nat
  /-- the last fabric reset: its cycle, and the commits before it -/
  fabricAt : Nat
  fabricCommits : Nat
  /-- every target holds its firmware (R425) -/
  collected : Bool
  /-- the panel has been ready since the last cold or module reset -/
  wasReady : Bool
  /-- by site, or 204 + edge die -/
  records : SMap (Option IdRecord)
  /-- the alteration log, oldest first -/
  log : List LogEntry
  /-- physical cores that have failed -/
  badCores : List Nat
  /-- sites that have failed, edge dies that have failed -/
  badSites : List Nat
  badEdges : List Nat
  /-- the broadcast: chunks, failures of each target by physical core, targets still missing chunks, rounds -/
  chunks : Nat
  fails : SMap Nat
  missing : List Nat
  rounds : Nat
  resent : Nat
  fwRetired : Nat
  /-- operating cycles before the last cold or module reset -/
  cyclesBase : Nat
  /-- flash: the margin plan by 10 × site + region, each as `CLK_PLAN` shows it with the ageing index at planning
  (R411); contact baselines by site (R388); `PWR_SUPPLY_REC` (R396) -/
  plan : SMap (Nat × Nat)
  /-- operating hours at the last complete plan, and when each site's ageing was last queued -/
  planHours : Nat
  ageHours : SMap Nat
  baselines : SMap Nat
  supplyRec : Nat
  /-- flash: the contact trend of each site, daily means by 8 × site + entry, and its next entry (R483); and the day
  under way: its number, the sum and number of its estimates -/
  trend : SMap Nat
  trendNext : SMap Nat
  trendDay : SMap (Nat × Nat × Nat)
deriving DecidableEq, Repr

def Boot.reset : Boot :=
  { step := 0, level := 0, cause := 0, startedAt := 0, stepAt := 0, fabricAt := 0,
    fabricCommits := 0, collected := false, wasReady := false, records := [],
    log := [], badCores := [], badSites := [], badEdges := [],
    chunks := 0, fails := [], missing := [], rounds := 0, resent := 0, fwRetired := 0, cyclesBase := 0, plan := [],
    planHours := 0, ageHours := [], baselines := [], supplyRec := 0, trend := [], trendNext := [], trendDay := [] }

/-- An entry of the maintenance arbiter (R446, R447). -/
structure MaintEntry where
  handle : Nat
  code : Nat
  pliwick : Bool
  resource : Nat
  running : Bool
  paused : Bool
  /-- MAINT_STOP has been taken: the entry ends after its current step -/
  stopping : Bool
  /-- steps done (regions, phases, units of BIST) -/
  progress : Nat
  /-- a step is under way -/
  inStep : Bool
  /-- rehearsal kind, live-update component -/
  arg : Nat
  /-- the target of a rehearsal -/
  target : Nat
  /-- the command that waits for the entry (pair, identifier) -/
  command : Option (Nat × Nat)
deriving DecidableEq, Repr

/-- An injection in flight (R450): its kind and target. -/
structure Injection where
  kind : Nat
  target : Nat
  number : Nat
deriving DecidableEq, Repr

/-- A reload of R441: the global core, its RELOAD entry, whether it has been copied and met a bad line. -/
structure Reload where
  core : Nat
  entry : Nat
  copied : Bool
  bad : Bool
deriving DecidableEq, Repr

/-- The maintenance arbiter, the fault counts of R435, and basting (R446–R457). -/
structure Maint where
  /-- in order of arrival -/
  entries : List MaintEntry
  nextHandle : Nat
  recovery : Bool
  injection : Option Injection
  injections : Nat
  lastInjectionEnd : Option Nat
  /-- what has been armed by an injection: a bucket line at a site, a patrol line at (site, port) -/
  armedBucket : Option Nat
  armedPatrol : Option (Nat × Nat)
  /-- core losses: (global core, cycle) -/
  coreLosses : List (Nat × Nat)
  /-- cores waiting for their heartbeat after a core reset: (physical core, cycle of the deadline) -/
  resuming : List (Nat × Nat)
  /-- corrected errors: ((site, port), (bank, row), hour) -/
  rowErrors : List ((Nat × Nat) × (Nat × Nat) × Nat)
  /-- failed retrainings of DRAM ports ((site, port), hour) and Vorrad ports (port, hour) -/
  dramFails : List ((Nat × Nat) × Nat)
  portFails : List (Nat × Nat)
  /-- uncorrectable codewords: ((port, lane), cycle) -/
  laneErrors : List ((Nat × Nat) × Nat)
  /-- unit mismatches of R299: (site or 204 + edge, cycle) -/
  unitErrors : List (Nat × Nat)
  /-- the reloads that are to complete before their cores launch the replay -/
  reloads : List Reload
  /-- the digests of the ticks in progress (R455): by TICKP -/
  digest : SMap Nat
  basteAttached : Bool
  basteReady : Bool
  /-- exports are suppressed (R454); the tick they begin with after promotion (R457) -/
  suppressed : Bool
  exportsFrom : Option Nat
  /-- BASTE_PROMOTE has been accepted and waits for the next commit -/
  promoting : Bool
  /-- live update under way: component, old bank, its start, the command -/
  update : Option (Nat × Nat × Option (Nat × Nat))
  /-- Pliwick is restarting until this cycle -/
  restartUntil : Option Nat
  /-- failed tracks of a group: key ((spar × 8 + seam) × 256 + group) (R16) -/
  tracks : SMap Nat
deriving DecidableEq, Repr

def Maint.reset : Maint :=
  { entries := [], nextHandle := 1, recovery := false, injection := none, injections := 0, lastInjectionEnd := none,
    armedBucket := none, armedPatrol := none, coreLosses := [], resuming := [], rowErrors := [], dramFails := [],
    portFails := [], laneErrors := [], unitErrors := [], reloads := [], digest := [], basteAttached := false,
    basteReady := false, suppressed := false, exportsFrom := none, promoting := false, update := none,
    restartUntil := none, tracks := [] }

/-- A firmware bank (R418, R464). -/
structure FwBank where
  valid : Bool
  svn : Nat
  version : Nat
  advance : Bool
  /-- measurement of header and payload -/
  digest : Nat
  bytes : Nat
deriving DecidableEq, Repr

def FwBank.empty : FwBank := { valid := false, svn := 0, version := 0, advance := false, digest := 0, bytes := 0 }

/-- An SPDM response of the panel (R471, R472); measurements by value, a co-signature by its status and leaf index. -/
inductive CertName where
  | root | intermediate | device
deriving DecidableEq, Repr

/-- A certificate of the chain in panel flash (R469): X.509 v3 in DER, signed by its issuer with ECDSA P-384 and followed by the
issuer's LMS signature over its DER bytes; the device certificate holds the device LMS public key in an extension. -/
structure Cert where
  subject : CertName
  issuer : CertName
  der : List Byte
  issuerLms : List Byte
  lmsKey : Option (List Byte)
deriving DecidableEq, Repr

/-- The chain: a root, an intermediate and the device certificate. -/
def Cert.chain : List Cert :=
  [⟨.root, .root, [], [], none⟩, ⟨.intermediate, .root, [], [], none⟩, ⟨.device, .intermediate, [], [], some []⟩]

/-- The ROM-guarded key store of the management die: what the identity key and the device LMS key are derived from (R469). -/
structure KeyStore where
  identity : List Byte
  lms : List Byte
deriving DecidableEq, Repr

inductive SpdmResponse where
  | none
  /-- ERROR: true for UnexpectedRequest -/
  | error (unexpected : Bool)
  | version | capabilities | algorithms | digests | challengeAuth
  | certificate (chain : List Cert)
  | measurements (values : List Nat) (signed : Bool)
  | keyExchange | finished | sessionEnded
  | cosign (exhausted : Bool) (q : Nat)
deriving DecidableEq, Repr

/-- The state of SPDM on one transport (R471, R472): 0 DOE, 1 MCTP, 2 ATTEST. -/
structure Spdm where
  version : Bool
  caps : Bool
  algs : Bool
  /-- the last response was signed, and may be co-signed -/
  signed : Bool
  /-- session: handshaking (false) or established (true) -/
  session : Option Bool
  response : SpdmResponse
deriving DecidableEq, Repr

def Spdm.reset : Spdm :=
  { version := false, caps := false, algs := false, signed := false, session := none, response := .none }

/-- What manufacture fixes: fuses of the management die (R462, R463, R473), and the pattern (R422). -/
structure Rom where
  debugDisable : Bool
  dieId : Nat
  /-- DEVICE_SECRET, 256 bits, which only the ROM reads (R462, R469) -/
  deviceSecret : Nat
  /-- KEYHASH_ECDSA and KEYHASH_LMS as `SEC_KEYHASH` shows them, by word (R462) -/
  keyHash : SMap Nat
  /-- the pattern: the die ID of each site (of edge die e: 204 + e) where it is not the number itself, the sites failed at
  manufacture, the good-core maps where not all cores are good, and the tracks repaired at test as in `Maint.tracks` -/
  patternId : SMap Nat
  patternBad : List Nat
  patternCores : SMap (BitVec 50)
  patternTracks : SMap Nat
deriving DecidableEq, Repr

/-- The fuse hashes of a key block of zeros (log 124): SHA-384 of 97 and of 56 zero bytes, in words. -/
def zeroKeyHashes : List Nat :=
  [0x4717d41b2c85e02a, 0xf4bc66af59ecc1b4, 0xe18505fe7a8807da, 0x74cfbcc0b2ebc530, 0x505e99f8100c2c2a, 0x0a919f9d2beaa656]
    ++ [0x81a139ded2b3bee4, 0x50dbf6ba12a7c82a, 0x866827ee3342c957, 0x9e5bcb0f4f698bb4, 0x03c063be66632979, 0xc9c08a6cbbd76b73]

def Rom.reset : Rom :=
  { debugDisable := false, dieId := 213, deviceSecret := 0, keyHash := zeroKeyHashes.mapIdx (fun i x => (i, x)), patternId := [], patternBad := [], patternCores := [],
    patternTracks := [] }

/-- The root of trust (R462–R476). -/
structure Security where
  rollback : SMap Nat
  /-- the key block in flash: the vendor ECDSA public key of 97 bytes, and the vendor LMS public key of 56 (R463) -/
  ecdsaKey : List (BitVec 8)
  lmsKey : List (BitVec 8)
  /-- by 2 × component + bank -/
  banks : SMap FwBank
  activeB : SMap Bool
  /-- FW_ACTIVATE has marked a staged bank for the next load -/
  staged : SMap Bool
  nextQ : Nat
  /-- end of the block of indices reserved in flash -/
  reservedQ : Nat
  lmsLowRaised : Bool
  nonce : Nat
  debugLevel : Nat
  /-- measurements 1–8, by index; each a 384-bit digest -/
  measured : SMap Nat
  spdm : SMap Spdm
  /-- the certificate chain in flash, and the key store once the ROM has filled it -/
  certs : List Cert
  keyStore : Option KeyStore
deriving DecidableEq, Repr

/-- A bank as the factory leaves it: valid, without an anti-rollback demand, of 128 KiB. -/
def FwBank.built : FwBank := { FwBank.empty with valid := true, bytes := 131072 }

def Security.reset : Security :=
  { rollback := [], ecdsaKey := List.replicate 97 0, lmsKey := List.replicate 56 0
    banks := [(0, FwBank.built), (2, FwBank.built), (4, FwBank.built), (6, FwBank.built)], activeB := [],
    staged := [], nextQ := 0, reservedQ := 0, lmsLowRaised := false, nonce := 0, debugLevel := 0, measured := [],
    spdm := [], certs := Cert.chain, keyStore := none }

/-- A latency record (R482). Bins by number; `min` holds 2^32 − 1 while `count` is 0. -/
structure TelRec where
  min : Int
  max : Int
  count : Nat
  bins : SMap Nat
deriving DecidableEq, Repr

def TelRec.empty : TelRec := { min := 0xFFFFFFFF, max := 0, count := 0, bins := [] }

/-- Accumulators or a snapshot (R477, R478): register-shaped values by register key, records by record key. -/
structure TelData where
  words : SMap Nat
  recs : SMap TelRec
deriving DecidableEq, Repr

def TelData.empty : TelData := { words := [], recs := [] }

/-- A snapshot that waits for its flip (R478): the accumulators latched, the words of its pages by
page × 8192 + word, the cycle of the boundary, TICK, FIRST and FLAGS. -/
structure Latch where
  data : TelData
  words : SMap Nat
  since : Nat
  tick : Nat
  first : Nat
  flags : Nat
deriving DecidableEq, Repr

/-- Telemetry (R477–R487). -/
structure Tel where
  acc : TelData
  latched : Option Latch
  /-- the current snapshot: its words, and the header -/
  shown : SMap Nat
  gen : Nat
  tick : Nat
  first : Nat
  flags : Nat
  /-- the flags gathered for the current interval, and the first tick started in it -/
  nowFlags : Nat
  nowFirst : Option Nat
  /-- the slack reports of the tick committed last, by patch: the dies still to report, and the latest vote (R485) -/
  votes : SMap (List Nat × Nat)
  /-- MCTP: repeats of the event at the head of the queue, and the cycle of the next repeat -/
  mctpTries : Nat
  mctpAt : Option Nat
  /-- the last MCTP message of the panel -/
  mctpResponse : List Byte
deriving DecidableEq, Repr

def Tel.reset : Tel :=
  { acc := TelData.empty, latched := none, shown := [], gen := 0, tick := 0, first := 0, flags := 0,
    nowFlags := 0, nowFirst := none, votes := [], mctpTries := 0, mctpAt := none, mctpResponse := [] }

end Sys2Proof.Machine
end

