-- ==== Sys2Proof/Machine/State.lean ====
section
/-!
DEFINITION. The state of the panel, the reasons a step can stop, and the state after a cold reset.
-/
namespace Sys2Proof.Machine

/-- The faults. -/
inductive Fault where
  /-- Raised by FLIT_RECEIVE, COMMAND_FETCH and CXL_MEM_WRITE when their bytes are not the 256 of a flit, the 64 of a
  submission entry or the 64 of a line (a command that `WellFormed` refuses). Safe: no such flit, entry or line exists. -/
  | illFormed (what : String)
deriving DecidableEq, Repr

/-- The refusals. -/
inductive Refusal where
  /-- Raised by the dispatch for a command that has no meaning yet. Safe. -/
  | notModelled (mnemonic : String)
deriving DecidableEq, Repr

/-- The panel. -/
structure State where
  /-- the commands that wait, first in, first out -/
  pending : List Instr
  /-- fabric cycles since reset -/
  now : Nat
  /-- the model's own: the next free value is drawn at this index -/
  freeCtr : Nat
  /-- the registers of every register space, by `regKey`; an unlisted register holds its reset value -/
  regs : SMap Nat
  /-- the changes that hardware has made to registers in one cycle (R7): the cycle, and by `regKey` the value before them,
  the bits set, and the events counted -/
  hw : Nat × SMap (Nat × Nat × Nat)
  /-- what the last register read returned -/
  readData : Nat
  /-- by physical core, site × 50 + index -/
  cores : SMap Core
  /-- by site -/
  drams : SMap Dram
  mesh : Mesh
  /-- by site, or 204 + edge die -/
  hubs : SMap Hub
  gen : TickGen
  worlds : Worlds
  active : ConfigSet
  shadow : ConfigSet
  cfg : ConfigCtl
  coll : Coll
  vorrad : Vorrad
  /-- power managers, by site -/
  power : SMap DiePower
  supply : Supply
  boot : Boot
  maint : Maint
  sec : Security
  rom : Rom
  tel : Tel
  host : HostIf
  events : Events
  msix : Msix
  /-- host memory, as the panel's writes have left it -/
  hostMem : SMap Byte
deriving DecidableEq, Repr

/-- The panel after a cold reset. -/
def State.reset : State :=
  { pending := [], now := 0, freeCtr := 0, regs := [], hw := (0, []), readData := 0, cores := [], drams := [], mesh := Mesh.reset, hubs := [],
    gen := TickGen.reset, worlds := Worlds.reset, active := ConfigSet.empty, shadow := ConfigSet.empty,
    cfg := ConfigCtl.reset, coll := Coll.reset, vorrad := Vorrad.reset, power := [], supply := Supply.reset,
    boot := Boot.reset, maint := Maint.reset, sec := Security.reset, rom := Rom.reset, tel := Tel.reset, host := HostIf.reset,
    events := Events.reset, msix := Msix.reset,
    hostMem := [] }

end Sys2Proof.Machine
end

