-- ==== Sys2Proof/Machine/Regs.lean ====
section
/-!
DEFINITION. The one home of every register: its key, its reset value, and its reads and writes by field.
-/
namespace Sys2Proof.Machine

/-- The holder of registers: physical core `p` of the panel, the die at a site, edge die `e`, or BAR0. -/
def unitCore (p : Nat) : Nat := p
def unitDie (site : Nat) : Nat := 0x4000 + site
def unitEdge (e : Nat) : Nat := 0x5000 + e
def unitMgmt : Nat := unitEdge 9
def unitHost : Nat := unitEdge 8
def unitBar : Nat := 0x6000

/-- The key of the register of holder `u` at offset `off`. -/
def regKey (u off : Nat) : Nat := u * 0x100000000 + off

/-- The register spaces a holder serves. The edge dies hold the die-level mesh registers, and the link dies the unit
registers, at the same offsets (R220, R307). -/
def unitSpaces (u : Nat) : List RegSpace :=
  if u < 0x4000 then [.core]
  else if u < 0x5000 then [.die]
  else if u < 0x5008 then [.link, .die]
  else if u = 0x5008 then [.die]
  else if u = 0x5009 then [.mgmt, .die]
  else [.bar]

/-- The indices of the element of `r` at offset `off`, when `off` is one. -/
def RegRow.index (r : RegRow) (off : Nat) : Option (Nat × Nat) :=
  if off < r.off then none
  else
    let d := off - r.off
    let i := if r.stride1 = 0 then 0 else d / r.stride1
    let d1 := if r.stride1 = 0 then d else d % r.stride1
    let j := if r.stride2 = 0 then 0 else d1 / r.stride2
    let d2 := if r.stride2 = 0 then d1 else d1 % r.stride2
    if d2 = 0 ∧ i < r.count1 ∧ j < r.count2 then some (i, j) else none

/-- The row of the register of holder `u` at offset `off`. An edge die serves of the die space only the mesh and unit
registers. -/
def regRow? (u off : Nat) : Option RegRow :=
  (regRows.find? (fun r => (unitSpaces u).contains r.space && (r.index off).isSome
    && (r.space != .die || u < 0x5000 || (0x30000 ≤ r.off && r.off < 0x40000)
        || (0x60000 ≤ r.off && r.off < 0x70000 && u < 0x5008))))

/-- The default map of R23: the physical core of logical core `l`. -/
def defaultPhys (l : Nat) : Nat := if l < 22 then l else if l < 26 then l + 1 else l + 2

/-- The reset value of the register of holder `u` at offset `off`; a reserved offset reads zero (R8). -/
def regReset (u off : Nat) : Nat :=
  match regRow? u off with
  | none => 0
  | some r =>
    match r.index off with
    | none => 0
    | some (i, j) =>
      if r.space = .die ∧ r.off = rCFG_CORE_PHYS then defaultPhys i
      else if r.space = .mgmt ∧ r.off = rTICK_PHASE then (if j = 0 then 0x1000000 else 0)
      else if r.space = .bar ∧ r.off = rHOST_DEVICE_FEATURES then (if i = 0 then 0x3FFF else 0)
      else r.reset

/-- The value the register store holds. -/
def State.reg (s : State) (u off : Nat) : Nat := SMap.get (regReset u off) s.regs (regKey u off)

/-- Write the register store. -/
def State.putReg (s : State) (u off v : Nat) : State :=
  { s with regs := SMap.set (regReset u off) s.regs (regKey u off) v }

/-- What hardware has done to a register in this cycle: the value before, the bits set, the events counted (R7). -/
def State.hwOf (s : State) (u off : Nat) : Option (Nat × Nat × Nat) :=
  if s.hw.1 = s.now then (s.hw.2.find? (fun e => e.1 == regKey u off)).map (·.2) else none

/-- The bits of a register that hardware has set in this cycle. -/
def State.hwBits (s : State) (u off : Nat) : Nat := ((s.hwOf u off).map (fun x => x.2.1)).getD 0

/-- Hardware sets bits of the register, or counts events in it (R7). -/
def State.noteHw (s : State) (u off bits events : Nat) : State :=
  let (old, b, n) := (s.hwOf u off).getD (s.reg u off, 0, 0)
  { s with hw := (s.now, SMap.put (if s.hw.1 = s.now then s.hw.2 else []) (regKey u off) (old, b ||| bits, n + events)) }

/-- Hardware writes a register. -/
def State.setReg (s : State) (u off v : Nat) : State := (s.noteHw u off v 0).putReg u off v

/-- A field of a register. -/
def State.fld (s : State) (u off lo w : Nat) : Nat := field (s.reg u off) lo w

/-- Hardware sets a field of a register. -/
def State.setFld (s : State) (u off lo w v : Nat) : State :=
  (s.noteHw u off (v % 2 ^ w * 2 ^ lo) 0).putReg u off (setField (s.reg u off) lo w v)

/-- Hardware adds to a counter field, saturating. -/
def State.bump (s : State) (u off lo w n : Nat) : State :=
  (s.noteHw u off 0 (min n (2 ^ w - 1) * 2 ^ lo)).putReg u off (setField (s.reg u off) lo w (satAdd w (s.fld u off lo w) n))

/-- The value an RWT register has in a configuration set (R6, R268). -/
def ConfigSet.reg (c : ConfigSet) (u off : Nat) : Nat := SMap.get (regReset u off) c.regs (regKey u off)

/-- Write an RWT register of a set. -/
def ConfigSet.setReg (c : ConfigSet) (u off v : Nat) : ConfigSet :=
  { c with regs := SMap.set (regReset u off) c.regs (regKey u off) v }

/-- A field of an RWT register, as the panel obeys it. -/
def State.rwt (s : State) (u off lo w : Nat) : Nat := field (s.active.reg u off) lo w

/-- Every register of the holders `us` whose level is at least `lvl` returns to its reset value; `keep` names offsets
that stay. -/
def State.resetRegs (s : State) (us : Nat → Bool) (lvl : Nat) (keep : Nat → Nat → Bool) : State :=
  { s with regs := s.regs.filter (fun e =>
      let u := e.1 / 0x100000000
      let off := e.1 % 0x100000000
      !(us u && !keep u off && decide (lvl ≤ ((regRow? u off).map RegRow.level).getD 0))) }

end Sys2Proof.Machine
end

