-- ==== Sys2Proof/Machine/Place.lean ====
section
/-!
DEFINITION. Sites, placement and panel addresses (R10–R14, R22–R31).
-/
namespace Sys2Proof.Machine

/-- Column and row of a site (R12). -/
def siteCol (s : Nat) : Nat := s % 17
def siteRow (s : Nat) : Nat := s / 17
def siteAt (c r : Nat) : Nat := r * 17 + c
/-- A site of the spare column (R13). -/
def isSpareSite (s : Nat) : Bool := s % 17 == 8
/-- The default site of a logical die (R26). -/
def defaultSite (d : Nat) : Nat :=
  let x := d % 16
  siteAt (if x < 8 then x else x + 1) (d / 16)
/-- Displacement of a site from the default site of a die (R27). -/
def displacement (d s : Nat) : Nat :=
  let t := defaultSite d
  (max (siteCol s) (siteCol t) - min (siteCol s) (siteCol t))
    + (max (siteRow s) (siteRow t) - min (siteRow s) (siteRow t))
/-- Grid position of a physical core (R23). -/
def coreX (p : Nat) : Nat := p % 5
def coreY (p : Nat) : Nat := p / 5
/-- The router over a DRAM port (R24). -/
def portRouter (port : Nat) : Nat := ([6, 8, 16, 18, 31, 33, 41, 43] : List Nat).getD port 0

/-- The DRAM port and the address at the port of an offset (R182). -/
def dramPort (o : Nat) : Nat := field o 6 3 ^^^ field o 17 3
def dramPortAddr (o : Nat) : Nat := (o / 512) * 64 + o % 64

/-- Entry `i` of section `ty` of a set, `n` bytes; an entry never loaded reads zero (R274). -/
def ConfigSet.entry (c : ConfigSet) (ty i n : Nat) : List Byte :=
  SMap.get (zeros n) (SMap.get [] c.sections ty) i

/-- Entry count of section `ty`. -/
def ConfigSet.count (c : ConfigSet) (ty : Nat) : Nat := SMap.get 0 c.counts ty

/-- The site of logical die `d` (R270 PLACEMENT); `none` when it is unmapped (R29). -/
def ConfigSet.site (c : ConfigSet) (d : Nat) : Option Nat :=
  if d < c.count 1 ∧ d < 192 then
    let v := leAt (c.entry 1 d 64) 0 1
    if v < 204 then some v else none
  else none

/-- The physical core index of logical core `l` of die `d`; `none` when it is vacant (R386). -/
def ConfigSet.phys (c : ConfigSet) (d l : Nat) : Option Nat :=
  let v := leAt (c.entry 1 d 64) (8 + l) 1
  if l < 48 ∧ v < 50 then some v else none

/-- The logical die at a site. -/
def ConfigSet.dieAt (c : ConfigSet) (site : Nat) : Option Nat :=
  (List.range 192).find? (fun d => c.site d == some site)

/-- The logical core that physical core index `p` of die `d` runs. -/
def ConfigSet.coreAt (c : ConfigSet) (d p : Nat) : Option Nat :=
  (List.range 48).find? (fun l => c.phys d l == some p)

/-- The physical core of the panel that runs logical core `l` of die `d`. -/
def ConfigSet.coreIx (c : ConfigSet) (d l : Nat) : Option Nat :=
  match c.site d, c.phys d l with
  | some s, some p => some (s * 50 + p)
  | _, _ => none

/-- The same by global logical core ID (R23). -/
def ConfigSet.coreOf (c : ConfigSet) (gid : Nat) : Option Nat := c.coreIx (gid / 48) (gid % 48)

/-- The global logical core ID that physical core `p` of the panel runs. -/
def ConfigSet.gidOf (c : ConfigSet) (p : Nat) : Option Nat :=
  match c.dieAt (p / 50) with
  | none => none
  | some d => (c.coreAt d (p % 50)).map (fun l => d * 48 + l)

/-- A decoded panel address (R10). -/
inductive Target where
  | dram (die off : Nat)
  | spad (die core off : Nat)
  | coreReg (die core off : Nat)
  | dieReg (die off : Nat)
  | edge (e off : Nat)
  | host (addr : Nat)
deriving DecidableEq, Repr

/-- R10: the space and fields of a 48-bit panel address; `none` where a field is outside its valid values, a
must-be-zero bit is set or the space is reserved. -/
def decodeAddr (a : Nat) : Option Target :=
  if a ≥ 2 ^ 48 then none
  else
    let sp := field a 44 4
    let die := field a 36 8
    let core := field a 30 6
    if sp = 0 then
      if field a 34 2 = 0 ∧ die < 192 then some (.dram die (field a 0 34)) else none
    else if sp = 1 then
      if field a 20 10 = 0 ∧ die < 192 ∧ core < 48 then some (.spad die core (field a 0 20)) else none
    else if sp = 2 then
      if field a 16 14 = 0 ∧ die < 192 ∧ core < 48 then some (.coreReg die core (field a 0 16)) else none
    else if sp = 3 then
      if field a 24 12 = 0 ∧ die < 192 then some (.dieReg die (field a 0 24)) else none
    else if sp = 4 then
      if field a 40 4 < 10 then some (.edge (field a 40 4) (field a 0 40)) else none
    else if sp ≥ 8 then some (.host (field a 0 44))
    else none

/-- R11, R29: what the panel serves at an address under a set; `none` is an address error. -/
def ConfigSet.target (c : ConfigSet) (a : Nat) : Option Target :=
  match decodeAddr a with
  | none => none
  | some (.dram d o) => if (c.site d).isSome then some (.dram d o) else none
  | some (.spad d l o) => if (c.coreIx d l).isSome ∧ o < Config.spadSize then some (.spad d l o) else none
  | some (.coreReg d l o) => if (c.coreIx d l).isSome then some (.coreReg d l o) else none
  | some (.dieReg d o) => if (c.site d).isSome then some (.dieReg d o) else none
  | some t => some t

/-- R41 mode 2: the access of `n` bytes at `a` is refused under R11 at its first or last byte. -/
def ConfigSet.refused (c : ConfigSet) (a n : Nat) : Bool :=
  (c.target a).isNone || (c.target (a + n - 1)).isNone

/-- The panel address of a scratchpad offset of a logical core (R10). -/
def spadAddr (die core off : Nat) : Nat := 2 ^ 44 + die * 2 ^ 36 + core * 2 ^ 30 + off

end Sys2Proof.Machine
end

