-- ==== Sys2Proof/Machine/Ops.lean ====
section
/-!
DEFINITION. The named operations every family uses: cores, slots and their registers, time, host memory, interrupts,
event records and halyard notices.
-/
namespace Sys2Proof.Machine

/-- What a meaning answers. -/
abbrev Res := Host.Outcome State Fault Refusal

/-- The command has its effect `t` when `g` holds; otherwise it is turned away and nothing changes. -/
def when (g : Bool) (s t : State) : Res := .next (if g then t else s)

/-! Cores and slots. -/

def State.core (s : State) (p : Nat) : Core := SMap.get Core.reset s.cores p

def State.setCore (s : State) (p : Nat) (c : Core) : State :=
  { s with cores := SMap.set Core.reset s.cores p c }

def State.modCore (s : State) (p : Nat) (f : Core → Core) : State := s.setCore p (f (s.core p))

def Core.slot (c : Core) (i : Nat) : Slot := SMap.get Slot.reset c.slots i

def Core.setSlot (c : Core) (i : Nat) (sl : Slot) : Core :=
  { c with slots := SMap.set Slot.reset c.slots i sl }

def Core.modSlot (c : Core) (i : Nat) (f : Slot → Slot) : Core := c.setSlot i (f (c.slot i))

def State.slot (s : State) (p i : Nat) : Slot := (s.core p).slot i

def State.modSlot (s : State) (p i : Nat) (f : Slot → Slot) : State := s.modCore p (fun c => c.modSlot i f)

/-- Read a general register; g0 reads as zero (R62). -/
def Slot.reg (sl : Slot) (r : Nat) : Word := if r = 0 then 0 else SMap.get 0 sl.regs r

/-- Write a general register; a write to g0 is discarded (R62). -/
def Slot.setReg (sl : Slot) (r : Nat) (v : Word) : Slot :=
  if r = 0 then sl else { sl with regs := SMap.set 0 sl.regs r v }

/-- A completion token of the slot. -/
def Slot.token (sl : Slot) (t : Nat) : Token := SMap.get .free sl.tokens t

def Slot.setToken (sl : Slot) (t : Nat) (v : Token) : Slot :=
  { sl with tokens := SMap.set .free sl.tokens t v }

/-- The lowest-numbered FREE token (R44). -/
def Slot.freeToken (sl : Slot) : Option Nat := (List.range 16).find? (fun t => sl.token t == .free)

/-! Time. A command stands for its event at the first cycle the spec lets it happen in, so time passes to it. -/

def State.advanceTo (s : State) (t : Nat) : State := { s with now := max s.now t }

/-! Where a core is. -/

/-- The global logical core ID a physical core runs under the active set. -/
def State.gid (s : State) (p : Nat) : Option Nat := s.active.gidOf p

/-- The logical core (0–47) a physical core runs; 63 when none. -/
def State.logicalCore (s : State) (p : Nat) : Nat := ((s.gid p).map (· % 48)).getD 63

/-- The physical core that runs a global logical core ID. -/
def State.physOf (s : State) (gid : Nat) : Option Nat := s.active.coreOf gid

/-- The core runs a mapped logical core. -/
def State.mapped (s : State) (p : Nat) : Bool := (s.gid p).isSome

/-- The power manager of a site, and its regions (R380). -/
def State.die (s : State) (site : Nat) : DiePower := SMap.get DiePower.reset s.power site
def State.modDie (s : State) (site : Nat) (f : DiePower → DiePower) : State :=
  { s with power := SMap.set DiePower.reset s.power site (f (s.die site)) }
def DiePower.region (d : DiePower) (r : Nat) : Region := SMap.get Region.reset d.regions r
def State.modRegion (s : State) (site r : Nat) (f : Region → Region) : State :=
  s.modDie site (fun d => { d with regions := SMap.set Region.reset d.regions r (f (d.region r)) })

/-- The core stands still: its region is dark (R385), its die has stopped (R387, R402), or a fabric reset has stopped it
(R58). -/
def State.coreDown (s : State) (p : Nat) : Bool :=
  (s.core p).resetting || s.fld (unitDie (p / 50)) (rPWR_REGION_STAT + 4 * (p % 50 / 5)) 0 2 == 3
    || (s.die (p / 50)).stopped

/-- Every physical core that runs a mapped logical core. -/
def State.mappedCores (s : State) : List Nat := if s.active.count 1 = 0 then [] else (List.range Config.sites).flatMap (fun site =>
  match s.active.dieAt site with
  | none => []
  | some d => (List.range 50).filterMap (fun p => (s.active.coreAt d p).map (fun _ => site * 50 + p)))

/-- An accelerated scrub runs at a site (R446 SCRUB): its rates are 8 times as high. -/
def State.scrubbing (s : State) (site : Nat) : Bool :=
  s.maint.entries.any (fun e => e.code == 4 && e.running && (e.resource % 256 == site || e.resource % 256 == 0xFF))

/-- READY (R430). -/
def State.ready (s : State) : Nat := s.fld unitBar rHOST_DEVICE_STATUS 0 3

/-! Free values. -/

/-- Draw a free number. -/
def State.freeNat (s : State) : Nat × State := (Config.freeNat s.freeCtr, { s with freeCtr := s.freeCtr + 1 })

/-- Draw a free bit. -/
def State.freeBit (s : State) : Bool × State := (Config.freeBit s.freeCtr, { s with freeCtr := s.freeCtr + 1 })

/-! Host memory and interrupts. -/

/-- The host link is up. -/
def State.linkUp (s : State) : Bool := s.fld unitBar rHOST_LINK 0 3 != 0

/-- Range `i` of R339 when it is VALID: its first address and the first beyond it. -/
def State.hpaRange (s : State) (i : Nat) : Option (Nat × Nat) :=
  let b := s.reg unitBar (rHOST_HPA_BASE + 0x10 * i)
  if bit b 0 then some (field b 12 32 * 4096, field (s.reg unitBar (rHOST_HPA_LIMIT + 0x10 * i)) 12 32 * 4096 + 4096)
  else none

/-- A host access of `n` bytes at `a` is permitted (R338, R339). -/
def State.hostOk (s : State) (a n : Nat) : Bool :=
  let rs := (List.range 8).filterMap s.hpaRange
  s.linkUp && decide (a + n ≤ 2 ^ 44) && (rs.isEmpty || rs.any (fun r => decide (r.1 ≤ a) && decide (a + n ≤ r.2)))

/-- A refused host access is counted (R339). -/
def State.hostRefused (s : State) : State := s.bump unitBar rHOST_LINK 32 32 1

/-- The panel writes bytes to host memory. -/
def State.writeHost (s : State) (a : Nat) (bs : List Byte) : State :=
  { s with hostMem := SMap.setRange 0 s.hostMem a bs }

/-- R350: the panel signals a vector; a masked vector sets its pending bit. -/
def State.signal (s : State) (v : Nat) : State :=
  if !s.msix.enabled then s
  else if bit s.msix.unmasked.toNat v then
    { s with msix := { s.msix with sent := SMap.set 0 s.msix.sent v (SMap.get 0 s.msix.sent v + 1) } }
  else { s with msix := { s.msix with pending := s.msix.pending ||| BitVec.ofNat 64 (2 ^ v) } }

/-! Event records (R371–R374, R490). -/

/-- The 32 bytes of a record (R371). -/
def Event.bytes (e : Event) (phase : Bool) : List Byte :=
  leBytes 1 (e.sev.code + 8 * b2n e.injected + 128 * b2n phase) ++ zeros 1 ++ leBytes 2 e.code
    ++ leBytes 4 e.seq ++ leBytes 8 e.tick
    ++ leBytes 4 (field e.src.site 0 8 + 2 ^ 8 * field e.src.unit 0 6 + 2 ^ 14 * b2n e.src.edge
        + 2 ^ 15 * field e.src.slot 0 3)
    ++ zeros 4 ++ leBytes 8 e.data

/-- The ring has no free entry (R373). -/
def Events.full (ev : Events) (r : Ring) : Bool := (ev.tail + 1) % r.entries == ev.head

/-- Write one record at the ring tail; the PHASE bit inverts at each wrap; the ring's vector is signalled while IRQ is
1 (R371, R373). -/
def State.ringWrite (s : State) (r : Ring) (e : Event) : State :=
  let ev := s.events
  let s := s.writeHost (r.base + 32 * ev.tail) (e.bytes ev.phase)
  let t := (ev.tail + 1) % r.entries
  let s := { s with events := { ev with tail := t, phase := if t = 0 then !ev.phase else ev.phase } }
  if r.irq then s.signal r.vector else s

/-- The more severe of two lost events, the earlier one on a tie (R373). -/
def worseLost (w : Option (Nat × Severity)) (e : Event) : Option (Nat × Severity) :=
  match w with
  | none => some (e.code, e.sev)
  | some (c, v) => if v.code < e.sev.code then some (e.code, e.sev) else some (c, v)

/-- Count an event that finds no place (R373). -/
def State.loseEvent (s : State) (e : Event) : State :=
  { s with events := { s.events with lost := satAdd 32 s.events.lost 1, worst := worseLost s.events.worst e } }

/-- The bring-up events of R432 (codes 0x00A0–0x00AF), which R431 holds and R490 always pushes. -/
def isBootEvent (code : Nat) : Bool := 0xA0 ≤ code && code < 0xB0

/-- A record leaves for the ring, or is held or counted (R373, R431). -/
def State.publish (s : State) (e : Event) : State :=
  match s.events.ring with
  | some r =>
    if s.events.full r then s.loseEvent e
    else if !s.hostOk (r.base + 32 * s.events.tail) 32 then s.hostRefused.loseEvent e
    else s.ringWrite r e
  | none =>
    if isBootEvent e.code && !s.events.hadRing then
      if s.events.boot.length < 64 then { s with events := { s.events with boot := s.events.boot ++ [e] } }
      else s.loseEvent e
    else s

/-- R490: the record waits for MCTP when the push is enabled and it is severe enough, a bring-up event, or the host
link training failure. -/
def State.pushMctp (s : State) (e : Event) : State :=
  let r := s.reg unitMgmt rTEL_MCTP
  if bit r 19 && (decide (field r 16 3 ≤ e.sev.code) || isBootEvent e.code || e.code == 4) then
    { s with events := { s.events with mctpQ := s.events.mctpQ ++ [e] } }
  else s

/-- Form a record: SEQ counts events since the last fabric reset; the latest job-affecting or module-fatal event is
held (R371, R373). -/
def State.makeEvent (s : State) (sev : Severity) (code : Nat) (src : EventSrc) (tick : Option Nat) (data : Nat)
    (injected : Bool) : Event × State :=
  let e : Event := { sev := sev, code := code, injected := injected, seq := s.events.seq,
                     tick := tick.getD s.gen.commitSeq.toNat, src := src, data := data % 2 ^ 64 }
  let ev := { s.events with seq := (s.events.seq + 1) % 2 ^ 32 }
  let ev := if sev.code ≥ 3 then { ev with severeCode := code, severeSev := sev.code } else ev
  (e, { s with events := ev })

/-- A record leaves, unless Pliwick restarts (R458): then it waits. -/
def State.emit (s : State) (e : Event) : State :=
  if s.maint.restartUntil.isSome then { s with events := { s.events with stopped := s.events.stopped ++ [e] } }
  else (s.publish e).pushMctp e

/-- Raise an event. -/
def State.raise (s : State) (sev : Severity) (code : Nat) (src : EventSrc) (tick : Option Nat) (data : Nat)
    (injected : Bool := false) : State :=
  let (e, s) := s.makeEvent sev code src tick data injected
  s.emit e

/-- Raise an event of run-ahead work: its record is held until the tick before it commits (R260). -/
def State.raiseHeld (s : State) (sev : Severity) (code : Nat) (src : EventSrc) (tick : Option Nat) (data : Nat) :
    State :=
  let (e, s) := s.makeEvent sev code src tick data false
  { s with events := { s.events with held := s.events.held ++ [e] } }

/-- The source of an event at a core: its site and physical core, and a slot. -/
def coreSrc (p slot : Nat) : EventSrc := ⟨p / 50, p % 50, false, slot⟩

/-- The source of an event at an edge die. -/
def edgeSrc (e unit : Nat) : EventSrc := ⟨e, unit, true, 0⟩

/-! Features (R356–R359). -/

/-- A feature is negotiated: FEATURES_OK is 1 and LOCKED_SET holds it. -/
def State.feature (s : State) (i : Nat) : Bool :=
  bit (s.reg unitBar rHOST_FEAT_CTRL) 0 &&
    match s.host.locked with
    | some f => bit f.toNat i
    | none => false

/-- A descriptor may name a format code: until FEATURES_OK is 1 any, then K16, K8e4, K8e5 and INT4 as negotiated (R358).
-/
def State.formatOk (s : State) (f : Nat) : Bool :=
  let i := if f = 2 then 6 else if f = 3 then 7 else if f = 4 then 8 else if f = 7 then 9 else 0
  !bit (s.reg unitBar rHOST_FEAT_CTRL) 0 || i == 0 || s.feature i

/-! Halyard notices (R226). -/

/-- A node takes a NOTICE of kind 0, 1 or 3: at most one of each kind waits, further ones are counted in it. -/
def addNotice (l : List Notice) (n : Notice) : List Notice :=
  if l.any (fun m => m.kind == n.kind) then
    l.map (fun m => if m.kind == n.kind then { m with count := m.count + 1 } else m)
  else l ++ [n]

/-- A core's node sends a notice of the given kind for a tick. -/
def State.notice (s : State) (p kind tick att : Nat) : State :=
  s.modCore p (fun c => { c with node := { c.node with
    notices := addNotice c.node.notices
      { kind := kind, core := ((s.gid p).getD 0x3FFF), tick := tick, att := att, count := 0 } } })

/-- A core raises an event (R224, R226): its node sends it to Pliwick in a NOTICE of kind 3; while one waits there already,
the event is only counted. -/
def State.raiseCore (s : State) (p slot : Nat) (sev : Severity) (code : Nat) (run : Option (Nat × Nat)) (data : Nat)
    (ahead : Bool) : State :=
  s.modCore p (fun c => { c with node := { c.node with
    notices := addNotice c.node.notices
      { kind := 3, core := ((s.gid p).getD 0x3FFF), tick := (run.map (·.1)).getD 0, att := (run.map (·.2)).getD 0, count := 0
        event := some { sev := sev, code := code, src := coreSrc p slot, tick := run.map (·.1), data := data, ahead := ahead } } } })

/-- The event of a core reaches Pliwick: one of run-ahead work is held while its tick still runs ahead, and discarded
with its attempt (R260). -/
def State.coreEvent (s : State) (n : Notice) (e : CoreEvent) : State :=
  if !e.ahead then s.raise e.sev e.code e.src e.tick e.data
  else
    match s.gen.ticks.find? (fun t => t.tick == n.tick) with
    | some t =>
      if t.att ≠ n.att then s
      else if n.tick = s.gen.commitSeq.toNat + 1 then s.raise e.sev e.code e.src e.tick e.data
      else s.raiseHeld e.sev e.code e.src e.tick e.data
    | none =>
      if n.tick ≤ s.gen.commitSeq.toNat ∧ s.gen.last.all (fun t => t.tick != n.tick || t.att == n.att) then
        s.raise e.sev e.code e.src e.tick e.data
      else s

/-! Task faults (R52, R53, R55). -/

/-- The fault record takes its first fault; a later one only sets OVF (R55). -/
def Slot.record (sl : Slot) (code : Nat) (pc : Word) (addr : Word) : Slot :=
  if sl.faultValid then { sl with faultOvf := true }
  else { sl with faultValid := true, faultCode := BitVec.ofNat 8 code, faultPc := pc.truncate 32, faultAddr := addr }

/-- DATA of TASK_FAULT (R55). -/
def faultData (s : State) (p : Nat) (sl : Slot) (code : Nat) (pc : Word) : Nat :=
  sl.taskId.toNat + 2 ^ 16 * code + 2 ^ 24 * field pc.toNat 0 32 + 2 ^ 56 * field (s.logicalCore p) 0 6

/-- A task fault of slot `i` of core `p` (R52, R55): FAULTED, the record, the count, the notice and the event. -/
def State.takeFault (s : State) (p i : Nat) (code : Nat) (pc addr : Word) : State :=
  let sl := s.slot p i
  let data := faultData s p sl code pc
  let s := s.modSlot p i (fun sl => { (sl.record code pc addr) with
    lastFault := some (s.now, code, pc, addr), mode := .faulted, wait := .none, mem := none, branchFrom := none })
  let s := s.noteHw (unitCore p) (rTASK_FAULT + 0x100 * i) (2 ^ (if sl.faultValid then 9 else 8)) 0
  let s := s.bump (unitCore p) rCORE_FAULT_COUNT 0 32 1
  let s := s.notice p 0 sl.tick sl.att
  s.raiseCore p i .info 0x10 (some (sl.tick, sl.att)) data sl.runahead

/-- The codes of R53. -/
def fIllegal : Nat := 0x01
def fCodeBound : Nat := 0x02
def fCodePoison : Nat := 0x03
def fSpadBound : Nat := 0x04
def fSpadMisaligned : Nat := 0x05
def fSpadUncorrectable : Nat := 0x06
def fDramBound : Nat := 0x07
def fAbsDenied : Nat := 0x08
def fAddressError : Nat := 0x09
def fDescriptorInvalid : Nat := 0x0A
def fTokenExhausted : Nat := 0x0B
def fTokenInvalid : Nat := 0x0C
def fLaunchInvalid : Nat := 0x0D
def fRaised : Nat := 0x0E

/-- The status codes of R46. -/
def stOk : Status := 0
def stAddressError : Status := 1
def stWindowRefused : Status := 2
def stPoison : Status := 3
def stUncorrectable : Status := 4
def stMulticastPartial : Status := 5
def stCancelled : Status := 6

end Sys2Proof.Machine
end

