-- ==== Sys2Proof/Machine/Topology.lean ====
section
/-!
DEFINITION. The seam links (R18), the working graph, and the trees and routes over it (R202, R205, R223, R513).
Nodes are the sites 0–203 and the edge dies as 204 + e.
-/
namespace Sys2Proof.Machine

/-- The sites attached to an edge die, ascending (R18, R19). -/
def attached (e : Nat) : List Nat :=
  if e < 4 then [siteAt 0 (3 * e), siteAt 0 (3 * e + 1), siteAt 0 (3 * e + 2)]
  else if e < 8 then [siteAt 16 (3 * (e - 4)), siteAt 16 (3 * (e - 4) + 1), siteAt 16 (3 * (e - 4) + 2)]
  else if e = 8 then [siteAt 7 0, siteAt 8 0, siteAt 9 0]
  else [siteAt 7 11, siteAt 8 11, siteAt 9 11]

/-- The edge die attached at an exit (N 0, S 1, E 2, W 3) of a site. -/
def edgeAt (site exit : Nat) : Option Nat :=
  let c := siteCol site
  let r := siteRow site
  if exit = 3 ∧ c = 0 then some (r / 3)
  else if exit = 2 ∧ c = 16 then some (4 + r / 3)
  else if exit = 0 ∧ r = 0 ∧ 7 ≤ c ∧ c ≤ 9 then some 8
  else if exit = 1 ∧ r = 11 ∧ 7 ≤ c ∧ c ≤ 9 then some 9
  else none

/-- The node beyond an exit of a site: a site, or 204 + e. -/
def beyond (site exit : Nat) : Option Nat :=
  let c := siteCol site
  let r := siteRow site
  match edgeAt site exit with
  | some e => some (204 + e)
  | none =>
    if exit = 0 ∧ 0 < r then some (siteAt c (r - 1))
    else if exit = 1 ∧ r < 11 then some (siteAt c (r + 1))
    else if exit = 2 ∧ c < 16 then some (siteAt (c + 1) r)
    else if exit = 3 ∧ 0 < c then some (siteAt (c - 1) r)
    else none

/-- The number of the seam link at an exit of a site: 4 × site + exit of its northern or western end, or
1000 + 4 e + k at edge die e. -/
def linkAt (site exit : Nat) : Nat :=
  match edgeAt site exit with
  | some e => 1000 + 4 * e + ((attached e).findIdx (· == site))
  | none =>
    if exit = 0 then 4 * (site - 17) + 1
    else if exit = 1 then 4 * site + 1
    else if exit = 2 then 4 * site + 2
    else 4 * (site - 1) + 2

/-- The number of the link at an exit of a node, a site or an edge die. -/
def linkOf (v exit : Nat) : Nat := if v < 204 then linkAt v exit else 1000 + 4 * (v - 204) + exit

/-- The two ends of a link. -/
def linkEnds (l : Nat) : Nat × Nat :=
  if l ≥ 1000 then (204 + (l - 1000) / 4, (attached ((l - 1000) / 4)).getD ((l - 1000) % 4) 0)
  else if l % 4 = 1 then (l / 4, l / 4 + 17) else (l / 4, l / 4 + 1)

/-- The exits of a node: 0–3 of a compute die, 0–2 of an edge die (R202), each with the node beyond and the link. -/
def exitsOf (v : Nat) : List (Nat × Nat × Nat) :=
  if v < 204 then
    [0, 1, 2, 3].filterMap (fun x => (beyond v x).map (fun w => (x, w, linkAt v x)))
  else
    (List.range 3).map (fun k => (k, (attached (v - 204)).getD k 0, 1000 + 4 * (v - 204) + k))

/-- The usable exits of a node of the working graph: no hole beyond, no fenced link. -/
def Graph.exits (g : Graph) (v : Nat) : List (Nat × Nat × Nat) :=
  if g.holes.contains v then []
  else (exitsOf v).filter (fun e => !g.holes.contains e.2.1 && !g.fenced.contains e.2.2)

/-- Breadth-first distances (stored + 1) from the nodes of `front`, over `nb`. -/
def bfs (nb : Nat → List Nat) : Nat → Nat → List Nat → SMap Nat → SMap Nat
  | 0, _, _, seen => seen
  | fuel + 1, d, front, seen =>
    let next := (front.flatMap nb).foldl (fun (acc : List Nat × SMap Nat) v =>
      if SMap.get 0 acc.2 v = 0 then (v :: acc.1, SMap.set 0 acc.2 v (d + 1)) else acc) ([], seen)
    if next.1.isEmpty then next.2 else bfs nb fuel (d + 1) next.1 next.2

/-- Distances, stored + 1, from node `t` over the working graph (R513); 0 where there is no path. -/
def Graph.dists (g : Graph) (t : Nat) : SMap Nat :=
  bfs (fun v => (g.exits v).map (fun e => e.2.1)) 220 1 [t] (SMap.set 0 [] t 1)

/-- Levels, stored + 1, of a tree from a root: edge dies other than the root are leaves (R205, R223). -/
def Graph.levels (g : Graph) (root : Nat) : SMap Nat :=
  bfs (fun v => if v ≥ 204 && v != root then [] else (g.exits v).map (fun e => e.2.1)) 220 1 [root]
    (SMap.set 0 [] root 1)

/-- The parent of a node in the tree with these levels: its neighbour (a site, or the root) at the lowest level, the
lower site ID on a tie; with the exit that leads there. -/
def Graph.parent (g : Graph) (lv : SMap Nat) (root v : Nat) : Option (Nat × Nat) :=
  if v = root then none
  else
    ((g.exits v).filter (fun e => (e.2.1 < 204 || e.2.1 == root) && SMap.get 0 lv e.2.1 != 0)).foldl
      (fun best e =>
        match best with
        | none => some (e.2.1, e.1)
        | some b =>
          let lb := SMap.get 0 lv b.1
          let le := SMap.get 0 lv e.2.1
          if le < lb || (le == lb && e.2.1 < b.1) then some (e.2.1, e.1) else best) none

/-- The chain of ancestors of a node, itself first, up to the root. -/
def Graph.ancestors (g : Graph) (lv : SMap Nat) (root : Nat) : Nat → Nat → List Nat
  | 0, v => [v]
  | fuel + 1, v =>
    match g.parent lv root v with
    | none => [v]
    | some (p, _) => v :: Graph.ancestors g lv root fuel p

/-- The root of the halyard tree is the management die (R223). -/
def halRoot : Nat := 213

/-- The next node on the tree route from `v` to `w`: down towards `w` when `w` lies below `v`, else up. -/
def Graph.treeNext (g : Graph) (lv : SMap Nat) (root v w : Nat) : Option Nat :=
  if v = w then none
  else
    let anc := g.ancestors lv root 220 w
    match (anc.zip (anc.drop 1)).find? (fun e => e.2 == v) with
    | some e => some e.1
    | none => (g.parent lv root v).map (·.1)

/-- The exit of node `v` towards neighbour `w`. -/
def exitTo (v w : Nat) : Option Nat := ((exitsOf v).find? (fun e => e.2.1 == w)).map (·.1)

/-- The root of the escape tree (R205): the first of these sites that is not a hole. -/
def Graph.escRoot (g : Graph) : Option Nat := ([93, 110, 92, 94] : List Nat).find? (fun s => !g.holes.contains s)

/-- The escape exit of node `v` towards node `w` (R205). -/
def Graph.esc (g : Graph) (v w : Nat) : Option Nat :=
  match g.escRoot with
  | none => none
  | some r =>
    if v = w then some 4
    else (g.treeNext (g.levels r) r v w).bind (exitTo v)

/-- The node that serves route target `t` (0–191 logical die, 192 + e edge die) under a set. -/
def ConfigSet.routeNode (c : ConfigSet) (t : Nat) : Option Nat :=
  if t < 192 then c.site t
  else if t < 202 then (if c.graph.holes.contains (204 + (t - 192)) then none else some (204 + (t - 192)))
  else none

/-- R513: primary and alternate exits of node `v` to route target `t`; 7 means none. -/
def ConfigSet.route (c : ConfigSet) (v t : Nat) : Nat × Nat :=
  match c.routeNode t with
  | none => (7, 7)
  | some w =>
    if v = w then (4, 7)
    else
      let ds := c.graph.dists w
      let dv := SMap.get 0 ds v
      if dv = 0 then (7, 7)
      else
        let refSite := if w < 204 then w else (attached (w - 204)).getD 0 0
        let minimal := (c.graph.exits v).filter (fun e => SMap.get 0 ds e.2.1 + 1 == dv)
        let first : List Nat :=
          if v < 204 then
            (if siteCol v < siteCol refSite then [2] else if siteCol refSite < siteCol v then [3] else [])
            ++ (if siteRow refSite < siteRow v then [0] else if siteRow v < siteRow refSite then [1] else [])
          else []
        let order := first ++ (([0, 1, 2, 3] : List Nat).filter (fun x => !first.contains x))
        let ranked := order.filter (fun x => minimal.any (fun e => e.1 == x))
        (ranked.getD 0 7, ranked.getD 1 7)

/-- The MESH_ROUTE entry of node `v` for target `t` as the tables give it (R202, R513): PRIMARY, ALT, ESC. -/
def ConfigSet.routeEntry (c : ConfigSet) (v t : Nat) : Nat :=
  let (p, a) := c.route v t
  let e := match c.routeNode t with
    | none => 7
    | some w => (c.graph.esc v w).getD 7
  p + 16 * a + 256 * e

/-- Levels of the halyard tree of the active set, and its depth D (R223). -/
def ConfigSet.halLevels (c : ConfigSet) : SMap Nat := c.graph.levels halRoot

def ConfigSet.halDepth (c : ConfigSet) : Nat :=
  let lv := c.halLevels
  ((List.range 192).filterMap c.site).foldl (fun d s => max d (SMap.get 0 lv s - 1)) 0

/-- L0 of R225, in halyard cycles. -/
def ConfigSet.halL0 (c : ConfigSet) : Nat := if c.halDepth ≤ 30 then 160 else 5 * c.halDepth + 10

end Sys2Proof.Machine
end

