-- ==== Sys2Proof/Machine/SpadOps.lean ====
section
/-!
DEFINITION. The scratchpad of a core: its bytes and check codes, its banks, and the windows over it (R88–R112).
-/
namespace Sys2Proof.Machine

def Core.modSpad (c : Core) (f : Spad → Spad) : Core := { c with spad := f c.spad }
def State.spad (s : State) (p : Nat) : Spad := (s.core p).spad
def State.modSpad (s : State) (p : Nat) (f : Spad → Spad) : State := s.modCore p (fun c => c.modSpad f)

/-- Bytes `o .. o + n - 1` of the scratchpad. -/
def Spad.read (sp : Spad) (o n : Nat) : List Byte := SMap.getRange 0 sp.bytes o n

/-- The 64-bit words (by offset) that bytes `o .. o + n - 1` touch. -/
def wordsOf (o n : Nat) : List Nat :=
  (List.range ((o + n + 7) / 8 - o / 8)).map (fun k => (o / 8 + k) * 8)

/-- A word's code reads as uncorrectable. -/
def Spad.isUe (sp : Spad) (w : Nat) : Bool := SMap.get false sp.ue w

/-- A read of these bytes meets an uncorrectable word (R92). -/
def Spad.anyUe (sp : Spad) (o n : Nat) : Bool := (wordsOf o n).any sp.isUe

/-- A write covers the whole word at `w`. -/
def coversWord (o n w : Nat) : Bool := o ≤ w && w + 8 ≤ o + n

/-- R93: write the bytes; a word written whole takes a good code, a word written in part keeps its own, and a pending
write-back of a written word is dropped (R92). -/
def Spad.write (sp : Spad) (o : Nat) (bs : List Byte) : Spad :=
  let n := bs.length
  let ws := wordsOf o n
  { sp with
    bytes := SMap.setRange 0 sp.bytes o bs
    ue := ws.foldl (fun u w => if coversWord o n w then SMap.set false u w false else u) sp.ue
    banks := SMap.mapAll Bank.reset (fun _ b => { b with writeBacks := b.writeBacks.filter (fun w => !ws.contains w) })
      sp.banks }

/-- The words a write covers in part and whose old code is uncorrectable (R93). -/
def Spad.partialUe (sp : Spad) (o n : Nat) : List Nat :=
  (wordsOf o n).filter (fun w => !coversWord o n w && sp.isUe w)

/-- Write scratchpad bytes of core `p`, raising the event of R93 for each partial write onto an uncorrectable word. `dbl`
are the words whose code shows a double-bit error at this access: one written in part stays uncorrectable. -/
def State.spadWrite (s : State) (p o : Nat) (bs : List Byte) (dbl : Nat → Bool := fun _ => false) : State :=
  let n := bs.length
  let s := s.modSpad p (fun sp => { sp with
    ue := ((wordsOf o n).filter (fun w => !coversWord o n w && dbl w)).foldl (fun u w => SMap.set false u w true) sp.ue })
  let bad := (s.spad p).partialUe o n
  let s := s.modSpad p (fun sp => sp.write o bs)
  bad.foldl (fun s w => s.raiseCore p 0 .degraded 0x11 none w false) s

/-- The words of the line whose code shows a double-bit error. -/
def doubleAt (err : EccErr) (w : Nat) : Bool := bit err.double.toNat (w / 8 % 8)

/-- Record an ECC error in SPAD_ECC_LAST (R92, R94). -/
def State.eccLast (s : State) (p w : Nat) (ue scrub : Bool) : State :=
  s.setReg (unitCore p) rSPAD_ECC_LAST (w + 2 ^ 24 * b2n ue + 2 ^ 25 * b2n scrub + 2 ^ 63)

def Spad.bank (sp : Spad) (b : Nat) : Bank := SMap.get Bank.reset sp.banks b
def Spad.setBank (sp : Spad) (b : Nat) (x : Bank) : Spad := { sp with banks := SMap.set Bank.reset sp.banks b x }
def State.modBank (s : State) (p b : Nat) (f : Bank → Bank) : State :=
  s.modSpad p (fun sp => sp.setBank b (f (sp.bank b)))
/-- The bank an offset lies in (R88). -/
def bankOf (o : Nat) : Nat := o / 0x10000

/-- The code of the words of the line at `line` shows `err` on an access that reads bytes `o .. o + n - 1` (R92): a
single-bit error is corrected, counted and queued for write-back; a double-bit error leaves the word uncorrectable and
is counted. A word already uncorrectable counts again when it is read. -/
def State.eccRead (s : State) (p o n : Nat) (err : EccErr) (scrub : Bool) : State :=
  (wordsOf o n).foldl (fun s w =>
    let k := w / 8 % 8
    if bit err.double.toNat k || (s.spad p).isUe w then
      let s := s.modSpad p (fun sp => { sp with ue := SMap.set false sp.ue w true })
      let s := s.bump (unitCore p) rSPAD_ECC_UE 0 32 1
      s.eccLast p w true scrub
    else if bit err.single.toNat k then
      let s := s.modBank p (bankOf o) (fun b => { b with writeBacks := insertAsc w b.writeBacks })
      let s := s.bump (unitCore p) rSPAD_ECC_CE 0 32 1
      s.eccLast p w false scrub
    else s) s

/-! Windows. -/

def Spad.win (sp : Spad) (w : Nat) : Window := SMap.get Window.reset sp.wins w
def Spad.setWin (sp : Spad) (w : Nat) (x : Window) : Spad := { sp with wins := SMap.set Window.reset sp.wins w x }
def Spad.modWin (sp : Spad) (w : Nat) (f : Window → Window) : Spad := sp.setWin w (f (sp.win w))

/-- The open window that contains bytes `o .. o + n - 1`; a closing window counts as open (R117). -/
def Spad.winAt (sp : Spad) (o n : Nat) : Option Nat :=
  (List.range 32).find? (fun w => let x := sp.win w; x.isOpen && x.base ≤ o && o + n ≤ x.base + x.bound)

/-- The open channel window and the channel slot that hold offset `o`. -/
def Spad.chanAt (sp : Spad) (o : Nat) : Option (Nat × Nat) :=
  (List.range 32).findSome? (fun w =>
    let x := sp.win w
    if x.isOpen && x.channel && x.base ≤ o && o < x.base + x.bound && x.slotBytes != 0 then
      some (w, (o - x.base) / x.slotBytes)
    else none)

def Window.isFull (x : Window) (i : Nat) : Bool := SMap.get false x.full i
def Window.isReserved (x : Window) (i : Nat) : Bool := SMap.get false x.reserved i
def Window.setFull (x : Window) (i : Nat) (b : Bool) : Window := { x with full := SMap.set false x.full i b }
def Window.setReserved (x : Window) (i : Nat) (b : Bool) : Window :=
  { x with reserved := SMap.set false x.reserved i b }

/-- The channel slots of a window that bytes `o .. o + n - 1` touch. -/
def Window.slotsAt (x : Window) (o n : Nat) : List Nat :=
  if x.slotBytes = 0 then []
  else (List.range x.credits).filter (fun i =>
    let lo := x.base + i * x.slotBytes
    decide (lo < o + n) && decide (o < lo + x.slotBytes))

/-- A window sets sticky flag `k` (0 UNSYNC_READ, 1 OVERWRITE_FULL, 2 NACKED). -/
def Window.mark (x : Window) (now k : Nat) : Window :=
  { x with
    unsyncRead := x.unsyncRead || k == 0, overwriteFull := x.overwriteFull || k == 1, nacked := x.nacked || k == 2
    fresh := (now, (if x.fresh.1 = now then x.fresh.2 else 0) ||| BitVec.ofNat 3 (2 ^ k)) }

/-- The sticky flags clear, but those set in this cycle (R80). -/
def Window.clearMarks (x : Window) (now : Nat) : Window :=
  let keep := if x.fresh.1 = now then x.fresh.2.toNat else 0
  { x with
    unsyncRead := x.unsyncRead && bit keep 0, overwriteFull := x.overwriteFull && bit keep 1
    nacked := x.nacked && bit keep 2 }

/-- R109: a plain access sets the sticky flags of every checked channel window it touches. -/
def Spad.touchPlain (now : Nat) (sp : Spad) (isWrite : Bool) (o n : Nat) : Spad :=
  (List.range 32).foldl (fun sp w =>
    let x := sp.win w
    if x.isOpen && x.channel && x.check then
      let hit := (x.slotsAt o n).any (fun i => x.isFull i == isWrite)
      if hit then
        sp.setWin w (x.mark now (b2n isWrite))
      else sp
    else sp) sp

/-- A plain access of core `p`'s scratchpad. -/
def State.touchPlain (s : State) (p : Nat) (isWrite : Bool) (o n : Nat) : State :=
  s.modSpad p (fun sp => sp.touchPlain s.now isWrite o n)

/-- R108: a WAITC on offset `o` completes. -/
def Spad.waitcDone (sp : Spad) (o : Nat) (wantFull : Bool) : Bool :=
  match sp.chanAt o with
  | none => true
  | some (w, i) => (sp.win w).isFull i == wantFull

/-- A checked access with L = 1 sets or clears the full bit of its slot (R107). -/
def Spad.setFullAt (sp : Spad) (o : Nat) (b : Bool) : Spad :=
  match sp.chanAt o with
  | none => sp
  | some (w, i) => sp.modWin w (fun x => x.setFull i b)

/-- The channel slots in open windows (R98). -/
def Spad.slotsUsed (sp : Spad) : Nat :=
  ((List.range 32).map (fun w => let x := sp.win w; if x.isOpen && x.channel then x.credits else 0)).sum

def Window.fullCount (x : Window) : Nat := (x.full.filter (·.2)).length

/-- The status word of a window (R117). -/
def Window.status (x : Window) : Nat :=
  b2n x.isOpen + 2 * b2n x.closing + 4 * b2n x.channel + 8 * b2n x.check + 16 * b2n x.persist
    + 32 * b2n x.unsyncRead + 64 * b2n x.overwriteFull + 128 * b2n x.nacked + 2 ^ 16 * x.gen.toNat
    + 2 ^ 32 * x.creditsOut + 2 ^ 48 * x.fullCount

/-- The access of a task processor writes, and nothing else (R70, R73). -/
def MemKind.isStore : MemKind → Bool
  | .store _ => true
  | .put _ => true
  | _ => false

/-- In-flight writes of bank `b`: those that have passed R102 or R95 and wait at it, stores of the task processor among them
(R112). -/
def Core.inflight (c : Core) (b : Nat) : Nat :=
  ((c.spad.bank b).p6.filter (fun r => match r with
    | .localWrite .. => true
    | .remoteWrite .. => true
    | _ => false)).length
  + ((List.range 8).filter (fun i => match (c.slot i).mem with
    | some m => m.kind.isStore && m.reply.isNone && bankOf m.off == b
    | none => false)).length

/-- The bank has room for one more write: the count of SPAD_INFLIGHT goes up to 8. -/
def Core.takesWrite (c : Core) (b : Nat) : Bool := decide (c.inflight b < 8)

/-- Bank `b` overlaps offsets `lo .. hi - 1`. -/
def overlapsBank (b lo hi : Nat) : Bool :=
  decide (lo < hi) && decide (lo < (b + 1) * 0x10000) && decide (b * 0x10000 < hi)

/-- What covered the banks under offsets `lo .. hi - 1` ends: those that stay uncovered are so from this cycle (R113). -/
def State.uncover (s : State) (p lo hi : Nat) : State :=
  s.modSpad p (fun sp => (List.range 16).foldl (fun sp b =>
    if overlapsBank b lo hi then sp.setBank b { sp.bank b with uncoveredAt := s.now } else sp) sp)

/-- R112: the bank is covered. -/
def Core.covered (c : Core) (b : Nat) : Bool :=
  (List.range 8).any (fun i =>
    let sl := c.slot i
    sl.mode != .free && overlapsBank b sl.seg.spadBase (sl.seg.spadBase + sl.seg.spadBound))
  || (List.range 32).any (fun w => let x := c.spad.win w; x.isOpen && overlapsBank b x.base (x.base + x.bound))
  || c.inflight b != 0

end Sys2Proof.Machine
end

