-- ==== Sys2Proof/Machine/Waits.lean ====
section
/-!
DEFINITION. Completion tokens and the conditions a WAITING slot waits for (R44, R45, R75–R82).
-/
namespace Sys2Proof.Machine

/-- The TICKP of a tick number: its bit 0 (R224). -/
def tickp (t : Nat) : Nat := t % 2

/-- Phase edges of the tick with that number that have taken effect at every node (R228). -/
def edgesOf (edges : SMap Nat) (tick : Nat) : Nat := SMap.get 0 edges (tickp tick)
def State.edges (s : State) (tick : Nat) : Nat := edgesOf s.gen.lastEdge tick

/-- The slot's wait is over with its result in `rd`: it is READY from the next cycle (R75). -/
def Slot.wake (sl : Slot) (now : Nat) : Slot :=
  { sl with mode := .ready, wait := .none, readyAt := max sl.readyAt (now + 1) }

/-- The lowest-numbered completed token of a mask, with its status (R45). -/
def Slot.doneIn (sl : Slot) (m : BitVec 16) : Option (Nat × Status) :=
  (List.range 16).findSome? (fun t =>
    if bit m.toNat t then
      match sl.token t with
      | .completed st => some (t, st)
      | _ => none
    else none)

/-- The mask holds no BUSY or completed token (R45). -/
def Slot.maskDead (sl : Slot) (m : BitVec 16) : Bool :=
  (List.range 16).all (fun t => !(bit m.toNat t) || sl.token t == .free)

/-- A token completes with a status (R44); a token that is not BUSY stays. -/
def Slot.complete (sl : Slot) (t : Nat) (st : Status) : Slot :=
  match sl.token t with
  | .busy => sl.setToken t (.completed st)
  | _ => sl

/-- The tokens due by cycle `now` complete (R79). -/
def Slot.ripen (now : Nat) (sl : Slot) : Slot :=
  if sl.due.isEmpty then sl
  else
    let sl' := (sl.due.filter (fun e => decide (e.1 ≤ now))).foldl (fun sl e => sl.complete e.2.1 e.2.2) sl
    { sl' with due := sl.due.filter (fun e => decide (now < e.1)) }

/-- The lowest-numbered token selected by `f` that completes in a cycle to come: that cycle, the token and its status. -/
def Slot.promised (sl : Slot) (f : Nat → Bool) : Option (Nat × Nat × Status) :=
  (List.range 16).findSome? (fun t => sl.due.find? (fun e => e.2.1 == t && f t))

/-- A completed token is consumed (R45). -/
def Slot.consume (sl : Slot) (t : Nat) : Slot :=
  { (sl.setToken t .free) with due := sl.due.filter (fun e => e.2.1 != t) }

/-- R108: a TAKE of offset `o` may be performed: the slot is full, or no channel window holds it (R73). -/
def Spad.takeReady (sp : Spad) (o : Nat) : Bool :=
  match sp.chanAt o with
  | none => true
  | some (w, i) => (sp.win w).isFull i

/-- R108: a PUT to offset `o` may be performed: the slot is empty and unreserved, or in no channel window. -/
def Spad.putReady (sp : Spad) (o : Nat) : Bool :=
  match sp.chanAt o with
  | none => true
  | some (w, i) => !(sp.win w).isFull i && !(sp.win w).isReserved i

/-- The access may be performed now: a TAKE or PUT needs its channel slot as R108 states. -/
def Spad.memReady (sp : Spad) (m : MemOp) : Bool :=
  match m.kind with
  | .take _ => sp.takeReady m.off
  | .put _ => sp.putReady m.off
  | _ => true

/-- A checked access that waits repeats its bank request in the cycle after its channel slot is as it needs it (R108,
R110). -/
def Slot.repeatRequest (now : Nat) (sp : Spad) (sl : Slot) : Slot :=
  match sl.mem with
  | some m =>
    if m.reply.isSome then sl
    else if !sp.memReady m then { sl with mem := some { m with dueAt := 0 } }
    else if m.dueAt = 0 then { sl with mem := some { m with dueAt := now + 1 } }
    else sl
  | none => sl

/-- One slot's wait is examined (R75): tokens, phase edges and channel slots. -/
def settleSlot (now : Nat) (sp : Spad) (edges : SMap Nat) (sl : Slot) : Slot :=
  let sl := sl.ripen now
  if sl.mode != .waiting then sl
  else
    match sl.wait with
    | .token rd t =>
      match sl.token t with
      | .completed st => ((sl.consume t).setReg rd (BitVec.ofNat 64 st)).wake now
      | _ =>
        match sl.promised (· == t) with
        | some (c, _, st) => ((sl.consume t).setReg rd (BitVec.ofNat 64 st)).wake c
        | none => sl
    | .mask rd m =>
      match sl.doneIn m with
      | some (t, st) => ((sl.consume t).setReg rd (BitVec.ofNat 64 (st + 256 * t))).wake now
      | none =>
        match sl.promised (fun t => bit m.toNat t) with
        | some (c, t, st) => ((sl.consume t).setReg rd (BitVec.ofNat 64 (st + 256 * t))).wake c
        | none => sl
    | .phase rd p => if p < edgesOf edges sl.tick then (sl.setReg rd 0).wake now else sl
    | .channel off full => if sp.waitcDone off full then sl.wake now else sl
    | .checked => sl.repeatRequest now sp
    | _ => sl

/-- The slot that takes the next message of a channel for the ticks of TICKP `k` (R231): the one that began waiting first,
the lower-numbered on a tie (R82). -/
def Core.receiver (c : Core) (k chan : Nat) : Option Nat :=
  ((List.range 8).filterMap (fun i =>
    let sl := c.slot i
    match sl.mode, sl.wait with
    | .waiting, .message _ ch since => if ch = chan ∧ tickp sl.tick = k then some (since, i) else none
    | _, _ => none)).foldl (fun best x =>
      match best with
      | none => some x
      | some b => if x.1 < b.1 then some x else some b) none |>.map (·.2)

/-- The value HRECV writes for a message taken (R82). -/
def userWord (m : UserMsg) : Word :=
  BitVec.ofNat 64 (m.payload.toNat + 2 ^ 32 * (m.sender % 2 ^ 14) + 2 ^ 63)

/-- Take the oldest message of a channel with TICKP `k`: messages of one tick never mix with those of the next (R231). -/
def takeMsg (k chan : Nat) : List UserMsg → Option (UserMsg × List UserMsg)
  | [] => none
  | m :: ms =>
    if m.chan = chan ∧ tickp m.tick = k then some (m, ms)
    else (takeMsg k chan ms).map (fun (x, r) => (x, m :: r))

/-- The oldest message of a channel and TICKP goes to the slot that waits for it, if there are both; `x` is channel + 16 ×
TICKP. -/
def Core.deliver (now : Nat) (c : Core) (x : Nat) : Core :=
  let chan := x % 16
  match c.receiver (x / 16) chan with
  | none => c
  | some i =>
    match takeMsg (x / 16) chan c.node.recvQ with
    | none => c
    | some (m, rest) =>
      let sl := c.slot i
      let rd := match sl.wait with
        | .message rd _ _ => rd
        | _ => 0
      { (c.setSlot i ((sl.setReg rd (userWord m)).wake now)) with node := { c.node with recvQ := rest } }

/-- The waits of every slot of a core are examined (R75). -/
def Core.settle (now : Nat) (edges : SMap Nat) (c : Core) : Core :=
  let c := (List.range 8).foldl (fun c i => c.modSlot i (settleSlot now c.spad edges)) c
  (List.range 32).foldl (Core.deliver now) c

def State.settle (s : State) (p : Nat) : State := s.modCore p (Core.settle s.now s.gen.lastEdge)

/-- A token of a slot will complete in cycle `c` (R79); a token that is not BUSY stays. -/
def Slot.completeAt (sl : Slot) (c t : Nat) (st : Status) : Slot :=
  if sl.token t = .busy then { sl with due := sl.due ++ [(c, t, st)] } else sl

/-- A token of a slot completes, and the waits are examined. -/
def State.completeToken (s : State) (p i t : Nat) (st : Status) : State :=
  (s.modSlot p i (fun sl => sl.complete t st)).settle p

/-- Every BUSY token completes in a known cycle, the last of them in this one. -/
def Slot.onlyDue (sl : Slot) : Bool :=
  (List.range 16).all (fun t => sl.token t != .busy || sl.due.any (fun e => e.2.1 == t))
def Slot.lastDue (sl : Slot) : Nat := (sl.due.map (·.1)).foldl max 0

/-- Some token of the slot is BUSY. -/
def Slot.anyBusy (sl : Slot) : Bool := (List.range 16).any (fun t => sl.token t == .busy)

/-- The TASK_TOKENS word (R57). -/
def Slot.tokenWord (sl : Slot) : Nat :=
  (List.range 16).foldl (fun a t =>
    match sl.token t with
    | .free => a
    | .busy => a + 2 ^ t
    | .completed st => if st = 0 then a + 2 ^ (16 + t) else a + 2 ^ (32 + t)) 0

end Sys2Proof.Machine
end

