-- ==== Sys2Proof/Machine/HalOps.lean ====
section
/-!
DEFINITION. The named operations of the halyard network (R222–R235): hubs and their outputs, routes on the tree,
membership, the sending of votes, barrier arrivals, user messages and class-0 messages.
-/
namespace Sys2Proof.Machine

def State.hub (s : State) (h : Nat) : Hub := SMap.get Hub.reset s.hubs h
def State.setHub (s : State) (h : Nat) (x : Hub) : State := { s with hubs := SMap.set Hub.reset s.hubs h x }
def State.modHub (s : State) (h : Nat) (f : Hub → Hub) : State := s.setHub h (f (s.hub h))

/-- The key of a hub's output to its own nodes. -/
def outNodes : Nat := 999

def Hub.out (h : Hub) (k : Nat) : HubOut := SMap.get HubOut.empty h.down k
def Hub.setOut (h : Hub) (k : Nat) (o : HubOut) : Hub := { h with down := SMap.set HubOut.empty h.down k o }
def Hub.modOut (h : Hub) (k : Nat) (f : HubOut → HubOut) : Hub := h.setOut k (f (h.out k))

/-- The parent hub of hub `h` in the halyard tree of the active set (R223). -/
def State.halParent (s : State) (h : Nat) : Option Nat :=
  (s.active.graph.parent s.active.halLevels halRoot h).map (·.1)

/-- The child hubs of hub `h`. -/
def State.halChildren (s : State) (h : Nat) : List Nat :=
  (List.range 214).filter (fun v => SMap.get 0 s.active.halLevels v != 0 && s.halParent v == some h)

/-- The member nodes of a hub: its physical cores that run a mapped logical core (R229). -/
def State.halMembers (s : State) (h : Nat) : List Nat :=
  if h < 204 then
    ((List.range 50).map (fun p => h * 50 + p)).filter s.mapped
  else []

/-- A node of the tree carries some mapped die at or below it, so it sends a combined vote (R229). -/
def State.hasBelow (s : State) (h : Nat) (p : Nat → Bool) : Bool :=
  (List.range 204).any (fun site =>
    (s.active.graph.ancestors s.active.halLevels halRoot 220 site).contains h
      && (s.halMembers site).any p)

/-- Put a class-2 message on the output of hub `h` that leads to the hub of its destination site (R223). -/
def State.route2 (s : State) (h dest : Nat) (m : Class2) : State :=
  if h = dest then s.modHub h (fun x => x.modOut outNodes (fun o => { o with class2 := o.class2 ++ [m] }))
  else
    match s.active.graph.treeNext s.active.halLevels halRoot h dest with
    | none => s
    | some v =>
      if s.halParent h == some v then
        s.modHub h (fun x => { x with up := { x.up with class2 := x.up.class2 ++ [m] } })
      else s.modHub h (fun x => x.modOut v (fun o => { o with class2 := o.class2 ++ [m] }))

/-- The site of a global logical core ID. -/
def State.siteOf (s : State) (gid : Nat) : Nat := ((s.physOf gid).map (· / 50)).getD 255

/-- The queued messages a node sends now (R235): in HSEND order, at most one unacknowledged per destination. -/
def sendNow (seen : List Nat) : List UserSend → List UserSend × List UserMsg
  | [] => ([], [])
  | u :: us =>
    let go := !u.inFlight && u.resendAt.isNone && !seen.contains u.msg.dest
    let (r, ms) := sendNow (u.msg.dest :: seen) us
    if go then ({ u with inFlight := true } :: r, u.msg :: ms) else (u :: r, ms)

/-- A node sends its queued user messages (R235). -/
def State.pumpUser (s : State) (p : Nat) : State :=
  let (q, ms) := sendNow [] (s.core p).node.sendQ
  let s := s.modCore p (fun c => { c with node := { c.node with sendQ := q } })
  ms.foldl (fun s m => s.route2 (p / 50) (s.siteOf m.dest) (.user m)) s

/-! Barriers. -/

/-- The count of barrier `b` at a core (R230): values 9–15 act as 8. -/
def State.barExpect (s : State) (p b : Nat) : Nat :=
  min 8 (s.rwt (unitCore p) (rHAL_BAR_EXPECT + 8 * (b / 16)) (4 * (b % 16)) 4)

/-- The key of barrier `b` of a tick (R231 keeps it per TICKP). -/
def barKey (tick b : Nat) : Nat := 64 * tickp tick + b

/-- The node of core `p` has `n` registrations for the current episode: the arrival goes to its hub (R230). -/
def State.barArrive (s : State) (p key n : Nat) : State :=
  if n ≤ SMap.get 0 (s.core p).node.barCount key ∧ SMap.get none (s.core p).node.barArrived key = none then
    let s := s.modCore p (fun c => { c with node := { c.node with
      barArrived := SMap.set none c.node.barArrived key (some s.now) } })
    s.modHub (p / 50) (fun h => { h with bars := SMap.set [] h.bars key (insertAsc p (SMap.get [] h.bars key)) })
  else s

/-! Votes. -/

/-- The started tick of this number. -/
def State.tickRun (s : State) (tick : Nat) : Option TickRun := s.gen.ticks.find? (fun t => t.tick == tick)

/-- The phase program of a schedule entry, and the number of its valid phases (R238, R240). -/
def State.schedProg (s : State) (entry : Nat) : Nat := s.rwt unitMgmt (rTICK_SCHED + 8 * entry) 30 4
def State.phaseReg (s : State) (g p : Nat) : Nat := s.active.reg unitMgmt (rTICK_PHASE + 0x80 * g + 8 * p)
def State.phaseCount (s : State) (g : Nat) : Nat :=
  ((List.range 16).takeWhile (fun p => bit (s.phaseReg g p) 24)).length

/-- The phases of a started tick. -/
def State.tickPhases (s : State) (tick : Nat) : Nat :=
  match s.tickRun tick with
  | none => 0
  | some t => s.phaseCount (s.schedProg t.entry)

/-- R242: the core sends its VOTE for tick `tick`; one on a die whose unit has failed a bucket waits until the management
die has the record (R304). -/
def State.mayVote (s : State) (p tick : Nat) : Bool :=
  let c := s.core p
  s.mapped p
    && decide (s.tickPhases tick ≤ s.edges tick) && decide (0 < s.tickPhases tick)
    && !(c.launches.any (fun l => l.tick == tick))
    && (List.range 8).all (fun i => let sl := c.slot i; sl.mode == .free || sl.tick != tick)
    && !(SMap.get false c.node.dropped (tickp tick))
    && (SMap.get none c.node.voted (tickp tick)).isNone
    && !(s.coll.badDies.contains (((s.gid p).getD 0x3FFF) / 48))

/-- A vote joins the set gathered at a hub for that tick and attempt; a set of another tick or attempt is replaced
(R229, R231). -/
def Hub.addVote (h : Hub) (key tick att : Nat) (ok : Bool) (member : Option Nat) (child : Option Nat) : Hub :=
  let cur := SMap.get ⟨0, 0, true, [], [], false⟩ h.votes key
  let base : VoteSet :=
    if cur.tick = tick ∧ cur.att = att then cur else ⟨tick, att, true, [], [], false⟩
  let v := { base with
    ok := base.ok && ok
    members := match member with
      | none => base.members
      | some p => insertAsc p base.members
    children := match child with
      | none => base.children
      | some x => insertAsc x base.children }
  { h with votes := SMap.set ⟨0, 0, true, [], [], false⟩ h.votes key v }

/-- The core votes for the tick if R242 holds: OK unless a check assigned to its die has failed. -/
def State.tryVote (s : State) (p tick : Nat) : State :=
  if s.mayVote p tick then
    let att := ((s.tickRun tick).map TickRun.att).getD 0
    let ok := !(SMap.get false (s.core p).node.voteBad (tickp tick))
    let s := s.modCore p (fun c => { c with node := { c.node with
      voted := SMap.set none c.node.voted (tickp tick) (some s.now) } })
    s.modHub (p / 50) (fun h => h.addVote (tickp tick) tick att ok (some p) none)
  else s

/-! Class 0. -/

/-- The generator sends a class-0 message: at once when none is on its way and the spacing of R225 has passed, else
after those before it. It takes effect L0 halyard cycles after it is sent. -/
def State.sendClass0 (s : State) (m : Class0) : State :=
  match s.gen.class0 with
  | none =>
    let t := max s.now s.gen.class0Free + Config.cycHal * s.active.halL0
    { s with gen := { s.gen with class0 := some (m, t), class0Free := t } }
  | some _ => { s with gen := { s.gen with class0Q := s.gen.class0Q ++ [m] } }

/-- The class-0 message on its way has taken effect: the next waiting one is sent. -/
def State.class0Done (s : State) : State :=
  let s := { s with gen := { s.gen with class0 := none } }
  match s.gen.class0Q with
  | [] => s
  | m :: ms => ({ s with gen := { s.gen with class0Q := ms } }).sendClass0 m

end Sys2Proof.Machine
end

