-- ==== Sys2Proof/Machine/Operands.lean ====
section
/-!
DEFINITION. The instruction words (R59–R63) and the one way an instruction issues (R36, R40, R61, R68, R86).
-/
namespace Sys2Proof.Machine

/-! The formats of R60. -/

def encR (op : Nat) (rd ra rb : Reg) (fn : Nat) : Nat :=
  op + 2 ^ 6 * rd.val + 2 ^ 11 * ra.val + 2 ^ 16 * rb.val + 2 ^ 21 * fn
def encI (op : Nat) (rd ra : Reg) (imm : BitVec 16) : Nat :=
  op + 2 ^ 6 * rd.val + 2 ^ 11 * ra.val + 2 ^ 16 * imm.toNat
def encB (op : Nat) (ra rb : Reg) (off : BitVec 16) : Nat :=
  op + 2 ^ 6 * ra.val + 2 ^ 11 * rb.val + 2 ^ 16 * off.toNat
def encJ (op : Nat) (rd : Reg) (off : BitVec 21) : Nat := op + 2 ^ 6 * rd.val + 2 ^ 11 * off.toNat
/-- The first word of an extended instruction. -/
def encX (op : Nat) (rd ra : Reg) (imm : BitVec 48) : Nat :=
  op + 2 ^ 6 * rd.val + 2 ^ 11 * ra.val + 2 ^ 16 * (imm.toNat / 2 ^ 32)

/-! Immediate operands. -/

/-- sext(IMM) and zext(IMM) of R67. -/
def sext16 (imm : BitVec 16) : Word := imm.signExtend 64
def zext16 (imm : BitVec 16) : Word := imm.zeroExtend 64
/-- IMM[14:0] sign-extended from bit 14 (R70). -/
def sext15 (imm : BitVec 16) : Word := (imm.truncate 15).signExtend 64
/-- 4 × sext(OFF) (R68). -/
def off16 (off : BitVec 16) : Word := off.signExtend 64 * 4
def off21 (off : BitVec 21) : Word := off.signExtend 64 * 4

/-! Issue. -/

/-- The slot may issue: it is READY and no scratchpad access of it is under way (R36, R71). -/
def Slot.canIssue (sl : Slot) : Bool := sl.mode == .ready && sl.mem.isNone

/-- A pending register write of a division lands (R86). -/
def Slot.flush (sl : Slot) : Slot :=
  match sl.late with
  | none => sl
  | some (r, v) => { (sl.setReg r v) with late := none }

/-- The fetch of `n` bytes at the slot's program counter lies in the code segment (R40, R59). -/
def Slot.fetchInside (sl : Slot) (n : Nat) : Bool := decide (sl.pc.toNat + n ≤ sl.seg.codeBound)

/-- The cache lines that hold `n` bytes at the program counter. -/
def Slot.fetchLines (sl : Slot) (n : Nat) : List Nat :=
  let a := sl.seg.codeBase + sl.pc.toNat
  if a / 64 = (a + n - 1) / 64 then [a / 64 * 64] else [a / 64 * 64, (a + n - 1) / 64 * 64]

/-- A line of the instruction cache. -/
def Core.cached (c : Core) (line : Nat) : Option (List Byte) := (c.icache.find? (fun e => e.1 == line)).map (·.2)

/-- The instruction bytes are in the instruction cache (R36, R42). -/
def Core.fetchPresent (c : Core) (sl : Slot) (n : Nat) : Bool :=
  (sl.fetchLines n).all (fun l => (c.cached l).isSome)

/-- The instruction word in the cache at panel address `a`. -/
def Core.codeWord (c : Core) (a : Nat) : Nat := leAt ((c.cached (a / 64 * 64)).getD []) (a % 64) 4

/-- The first instruction word at the slot's program counter, and the second word of an extended instruction. -/
def Core.wordOf (c : Core) (sl : Slot) : Nat := c.codeWord (sl.seg.codeBase + sl.pc.toNat)
def Core.secondWord (c : Core) (sl : Slot) : Nat := c.codeWord (sl.seg.codeBase + sl.pc.toNat + 4)

/-- R70 checks 1 and 2: the bound, then the alignment; the code of the fault. -/
def Slot.addrFault (sl : Slot) (a : Word) (n : Nat) : Option Nat :=
  if ¬ (a.toNat + n ≤ sl.seg.spadBound) then some fSpadBound
  else if a.toNat % n ≠ 0 then some fSpadMisaligned
  else none

/-! The search for the slot that issues (R36). -/

/-- Descriptor reads that wait at a bank for a place in an engine's queue. -/
def Core.pendingReads (c : Core) (k : MemKind) : Nat :=
  ((List.range 8).filter (fun j => match (c.slot j).mem with
    | some m => m.kind == k
    | none => false)).length

/-- The engine's queue has no place (R36, R43, R74): descriptors on their way to it count. -/
def Core.queueFull (c : Core) (k : MemKind) : Bool :=
  match k with
  | .mxi => decide (4 ≤ c.mxu.queue.length + c.pendingReads .mxi)
  | .vxi => decide (4 ≤ c.vec.queue.length + c.pendingReads .vxi)
  | .dxi => decide (16 ≤ c.dma.queue.length + c.pendingReads .dxi)
  | _ => false

/-- An engine-issue instruction waits for a place: its descriptor address passes the first check, and the queue is full
(R74). -/
def Core.engineWaits (c : Core) (sl : Slot) (k : MemKind) (ra : Nat) (imm : BitVec 16) : Bool :=
  (sl.addrFault (sl.flush.reg ra + imm.signExtend 64) 64).isNone && c.queueFull k

/-- HSEND waits for a place in the send queue (R81). DESIGN CHOICE (log 107): one with a reserved field that is not zero
does not wait, and faults. -/
def Core.sendWaits (c : Core) (sl : Slot) (legal : Bool) : Bool :=
  decide (8 ≤ c.node.sendQ.length) && !sl.runahead && legal

/-- The instruction `w` in the cache waits for a place (R36). -/
def Core.placeWaits (c : Core) (sl : Slot) (w : Nat) : Bool :=
  let ra := field w 11 5
  let imm := BitVec.ofNat 16 (field w 16 16)
  match w % 64 with
  | 0x28 => c.engineWaits sl .mxi ra imm
  | 0x29 => c.engineWaits sl .vxi ra imm
  | 0x2A => c.engineWaits sl .dxi ra imm
  | 0x35 => c.sendWaits sl (field w 6 5 == 0 && field w 25 7 == 0)
  | _ => false

/-- The slot is eligible once its time has come: it may issue, and its instruction is in the cache and has its place, or
its fetch faults (R36, R40). -/
def Core.mayIssue (c : Core) (sl : Slot) : Bool :=
  sl.canIssue && (!sl.fetchInside 4 || (c.fetchPresent sl 4
    && (c.wordOf sl % 64 != 0x3E || !sl.fetchInside 8 || c.fetchPresent sl 8) && !c.placeWaits sl (c.wordOf sl)))

/-- The first cycle slot `i` of the core can issue in (R36, R86). -/
def Core.issueTime (c : Core) (i : Nat) : Nat := max (c.slot i).readyAt c.issueAt

/-- The place of slot `i` in the search: ascending from the slot after the one that issued last (R36). -/
def Core.turn (c : Core) (i : Nat) : Nat := (i + 15 - c.lastSlot) % 8

/-- Slot `j` issues before slot `i` can: it is eligible in an earlier cycle, or in the same one and comes first in the
search (R36). -/
def Core.issuesBefore (c : Core) (now i j : Nat) : Bool :=
  let ti := max now (c.issueTime i)
  let tj := max now (c.issueTime j)
  j != i && c.mayIssue (c.slot j) && (decide (tj < ti) || (tj == ti && decide (c.turn j < c.turn i)))

/-- No slot issues before slot `i`. -/
def Core.itsTurn (c : Core) (now i : Nat) : Bool := (List.range 8).all (fun j => !c.issuesBefore now i j)

/-- The issue of an instruction of slot `i` in cycle `t`: the slot that issued last, the next issue cycle, and the end
of the other slots' YIELD (R36, R83). -/
def Core.beginIssue (c : Core) (i t : Nat) : Core :=
  let c := (List.range 8).foldl (fun c j =>
    let sl := c.slot j
    if j != i && sl.yielding then c.setSlot j { sl with yielding := false, readyAt := min sl.readyAt (t + 1) }
    else c) c
  { (c.modSlot i (fun sl => sl.flush.ripen t)) with lastSlot := i, issueAt := t + 1 }

/-- The slot goes on behind an instruction of `len` bytes, and may issue again in the next cycle. -/
def Slot.advance (sl : Slot) (len t : Nat) : Slot :=
  { sl with pc := sl.pc + BitVec.ofNat 64 len, branchFrom := none, readyAt := t + 1, yielding := false }

/-- An instruction of `len` bytes with first word `word` issues from slot `a`, at the first cycle it can. A fetch
outside the code segment faults (R40, R68); without its bytes in the cache the slot is not eligible (R36); a reserved
field that is not zero makes it illegal (R61). While another slot issues first the command is turned away. Otherwise `body` is its effect, on the state in the issue cycle. -/
def tpIssue (a : At) (len word : Nat) (legal : Bool) (body : State → State) (s : State) : Res :=
  let p := a.core.val
  let i := a.slot.val
  let sl := s.slot p i
  if !sl.canIssue || s.coreDown p || !(s.core p).itsTurn s.now i then .next s
  else
    let s1 := s.advanceTo ((s.core p).issueTime i)
    if !sl.fetchInside len then
      .next ((s1.modCore p (fun c => c.beginIssue i s1.now)).takeFault p i fCodeBound
        (sl.branchFrom.getD sl.pc) sl.pc)
    else if !(s.core p).fetchPresent sl len then .next s
    else
      let s2 := s1.modCore p (fun c => c.beginIssue i s1.now)
      if !legal then .next (s2.takeFault p i fIllegal sl.pc (BitVec.ofNat 64 word))
      else .next (body s2)

/-- An instruction whose only effect is on its own slot. -/
def tpSimple (a : At) (len word : Nat) (legal : Bool) (f : Slot → Slot) (s : State) : Res :=
  tpIssue a len word legal
    (fun s => s.modSlot a.core.val a.slot.val (fun sl => f (sl.advance len s.now))) s

/-- An instruction that faults with a code and an address, from the issue cycle. -/
def State.faultAt (s : State) (a : At) (code : Nat) (addr : Word) : State :=
  s.takeFault a.core.val a.slot.val code (s.slot a.core.val a.slot.val).pc addr

/-- A register operation of two sources (R64, R66): `f` gives the result. -/
def aluR (a : At) (fn : Nat) (rd ra rb : Reg) (f : Word → Word → Word) (s : State) : Res :=
  tpSimple a 4 (encR 1 rd ra rb fn) true (fun sl => sl.setReg rd (f (sl.reg ra) (sl.reg rb))) s

/-- A register operation of one source; RB must be zero (R64). -/
def aluU (a : At) (fn : Nat) (rd ra rb : Reg) (f : Word → Word) (s : State) : Res :=
  tpSimple a 4 (encR 1 rd ra rb fn) (rb == 0) (fun sl => sl.setReg rd (f (sl.reg ra))) s

/-- A division: the slot is held for 33 further cycles, and RD is written when it next issues (R86). -/
def aluDiv (a : At) (fn : Nat) (rd ra rb : Reg) (f : Word → Word → Word) (s : State) : Res :=
  tpSimple a 4 (encR 1 rd ra rb fn) true (fun sl =>
    { sl with late := some (rd.val, f (sl.reg ra) (sl.reg rb)), readyAt := sl.readyAt + 33 }) s

/-- An immediate operation (R67). -/
def aluI (a : At) (op : Nat) (rd ra : Reg) (imm : BitVec 16) (legal : Bool) (f : Word → Word) (s : State) : Res :=
  tpSimple a 4 (encI op rd ra imm) legal (fun sl => sl.setReg rd (f (sl.reg ra))) s

end Sys2Proof.Machine
end

