-- ==== Sys2Proof/Machine/Flags.lean ====
section
/-!
DEFINITION. The flags of a slot: the saturation flag of the integer instructions (R66) and the sticky IEEE flags
(R135, R83).
-/
namespace Sys2Proof.Machine

/-- The signed result `x` saturated to 64 bits, and whether it saturated (R66). -/
def satS64 (x : Int) : Word × Bool :=
  if x > 2 ^ 63 - 1 then (BitVec.ofInt 64 (2 ^ 63 - 1), true)
  else if x < -(2 ^ 63) then (BitVec.ofInt 64 (-(2 ^ 63)), true)
  else (BitVec.ofInt 64 x, false)

/-- Write a saturated result: SAT is sticky (R66). -/
def Slot.setSat (sl : Slot) (rd : Nat) (x : Int) : Slot :=
  let r := satS64 x
  { (sl.setReg rd r.1) with sat := sl.sat || r.2 }

/-- Merge flags an engine's descriptor raised into the slot in cycle `now`: bits 0–4 the IEEE flags, bit 5 SAT (R135). -/
def Slot.mergeFlags (now : Nat) (sl : Slot) (f : BitVec 6) : Slot :=
  { sl with
    fpFlags := sl.fpFlags ||| f.truncate 5, sat := sl.sat || f.getLsbD 5
    flagsAt := (now, (if sl.flagsAt.1 = now then sl.flagsAt.2 else 0) ||| f) }

/-- CLRFLG in cycle `now`: clear the flags whose mask bit is 1, but those set in that cycle (R83). -/
def Slot.clearFlags (now : Nat) (sl : Slot) (m : BitVec 16) : Slot :=
  let m := m.truncate 6 &&& ~~~(if sl.flagsAt.1 = now then sl.flagsAt.2 else 0)
  { sl with fpFlags := sl.fpFlags &&& ~~~(m.truncate 5), sat := sl.sat && !m.getLsbD 5 }

/-- The flag word of RDSYS index 4 (R84). -/
def Slot.flagWord (sl : Slot) : Nat := sl.fpFlags.toNat + 2 ^ 5 * b2n sl.sat + 2 ^ 6 * b2n sl.runahead

end Sys2Proof.Machine
end

