-- ==== Sys2Proof/Machine/TpInteger.lean ====
section
/-!
DEFINITION. The integer register class (R64–R66), the immediates (R67), and the branches and jumps (R68, R69).
-/
namespace Sys2Proof.Machine

def boolWord (b : Bool) : Word := if b then 1 else 0

/-- Leading zero bits of a 64-bit word. -/
def clz64 (x : Word) : Nat := ((List.range 64).takeWhile (fun i => !x.getLsbD (63 - i))).length
/-- Trailing zero bits. -/
def ctz64 (x : Word) : Nat := ((List.range 64).takeWhile (fun i => !x.getLsbD i)).length
/-- One bits. -/
def popc64 (x : Word) : Nat := ((List.range 64).filter (fun i => x.getLsbD i)).length

/-- The shift count rb[5:0]. -/
def shamt (x : Word) : Nat := x.toNat % 64

def sll (x : Word) (n : Nat) : Word := x <<< n
def srl (x : Word) (n : Nat) : Word := x >>> n
def sra (x : Word) (n : Nat) : Word := x.sshiftRight n
def ror (x : Word) (n : Nat) : Word := (x >>> n) ||| (x <<< (64 - n))

/-- R65: the quotients and remainders with their special cases. -/
def divu (x y : Word) : Word := if y = 0 then BitVec.allOnes 64 else BitVec.ofNat 64 (x.toNat / y.toNat)
def remu (x y : Word) : Word := if y = 0 then x else BitVec.ofNat 64 (x.toNat % y.toNat)
def divs (x y : Word) : Word := if y = 0 then BitVec.allOnes 64 else BitVec.ofInt 64 (x.toInt.tdiv y.toInt)
def rems (x y : Word) : Word := if y = 0 then x else BitVec.ofInt 64 (x.toInt.tmod y.toInt)

def execAdd (a : At) (rd ra rb : Reg) (s : State) : Res := aluR a 0x000 rd ra rb (fun x y => x + y) s
def execSub (a : At) (rd ra rb : Reg) (s : State) : Res := aluR a 0x001 rd ra rb (fun x y => x - y) s
def execAnd (a : At) (rd ra rb : Reg) (s : State) : Res := aluR a 0x002 rd ra rb (fun x y => x &&& y) s
def execOr (a : At) (rd ra rb : Reg) (s : State) : Res := aluR a 0x003 rd ra rb (fun x y => x ||| y) s
def execXor (a : At) (rd ra rb : Reg) (s : State) : Res := aluR a 0x004 rd ra rb (fun x y => x ^^^ y) s
def execAndn (a : At) (rd ra rb : Reg) (s : State) : Res := aluR a 0x005 rd ra rb (fun x y => x &&& ~~~y) s
def execSll (a : At) (rd ra rb : Reg) (s : State) : Res := aluR a 0x006 rd ra rb (fun x y => sll x (shamt y)) s
def execSrl (a : At) (rd ra rb : Reg) (s : State) : Res := aluR a 0x007 rd ra rb (fun x y => srl x (shamt y)) s
def execSra (a : At) (rd ra rb : Reg) (s : State) : Res := aluR a 0x008 rd ra rb (fun x y => sra x (shamt y)) s
def execRor (a : At) (rd ra rb : Reg) (s : State) : Res := aluR a 0x009 rd ra rb (fun x y => ror x (shamt y)) s
def execSlt (a : At) (rd ra rb : Reg) (s : State) : Res := aluR a 0x00A rd ra rb (fun x y => boolWord (x.slt y)) s
def execSltu (a : At) (rd ra rb : Reg) (s : State) : Res := aluR a 0x00B rd ra rb (fun x y => boolWord (x.ult y)) s
def execMin (a : At) (rd ra rb : Reg) (s : State) : Res :=
  aluR a 0x00C rd ra rb (fun x y => if x.slt y then x else y) s
def execMax (a : At) (rd ra rb : Reg) (s : State) : Res :=
  aluR a 0x00D rd ra rb (fun x y => if x.slt y then y else x) s
def execMinu (a : At) (rd ra rb : Reg) (s : State) : Res :=
  aluR a 0x00E rd ra rb (fun x y => if x.ult y then x else y) s
def execMaxu (a : At) (rd ra rb : Reg) (s : State) : Res :=
  aluR a 0x00F rd ra rb (fun x y => if x.ult y then y else x) s
def execMul (a : At) (rd ra rb : Reg) (s : State) : Res := aluR a 0x010 rd ra rb (fun x y => x * y) s
def execMulhs (a : At) (rd ra rb : Reg) (s : State) : Res :=
  aluR a 0x011 rd ra rb (fun x y => BitVec.ofInt 64 (x.toInt * y.toInt / 2 ^ 64)) s
def execMulhu (a : At) (rd ra rb : Reg) (s : State) : Res :=
  aluR a 0x012 rd ra rb (fun x y => BitVec.ofNat 64 (x.toNat * y.toNat / 2 ^ 64)) s
def execAdds (a : At) (rd ra rb : Reg) (s : State) : Res :=
  tpSimple a 4 (encR 1 rd ra rb 0x013) true
    (fun sl => sl.setSat rd ((sl.reg ra).toInt + (sl.reg rb).toInt)) s
def execSubs (a : At) (rd ra rb : Reg) (s : State) : Res :=
  tpSimple a 4 (encR 1 rd ra rb 0x014) true
    (fun sl => sl.setSat rd ((sl.reg ra).toInt - (sl.reg rb).toInt)) s
def execDivu (a : At) (rd ra rb : Reg) (s : State) : Res := aluDiv a 0x015 rd ra rb divu s
def execDivs (a : At) (rd ra rb : Reg) (s : State) : Res := aluDiv a 0x016 rd ra rb divs s
def execRemu (a : At) (rd ra rb : Reg) (s : State) : Res := aluDiv a 0x017 rd ra rb remu s
def execRems (a : At) (rd ra rb : Reg) (s : State) : Res := aluDiv a 0x018 rd ra rb rems s
def execClz (a : At) (rd ra rb : Reg) (s : State) : Res := aluU a 0x020 rd ra rb (fun x => BitVec.ofNat 64 (clz64 x)) s
def execCtz (a : At) (rd ra rb : Reg) (s : State) : Res := aluU a 0x021 rd ra rb (fun x => BitVec.ofNat 64 (ctz64 x)) s
def execPopc (a : At) (rd ra rb : Reg) (s : State) : Res :=
  aluU a 0x022 rd ra rb (fun x => BitVec.ofNat 64 (popc64 x)) s
def execSextb (a : At) (rd ra rb : Reg) (s : State) : Res :=
  aluU a 0x023 rd ra rb (fun x => (x.truncate 8).signExtend 64) s
def execSexth (a : At) (rd ra rb : Reg) (s : State) : Res :=
  aluU a 0x024 rd ra rb (fun x => (x.truncate 16).signExtend 64) s
def execSextw (a : At) (rd ra rb : Reg) (s : State) : Res :=
  aluU a 0x025 rd ra rb (fun x => (x.truncate 32).signExtend 64) s
def execZextw (a : At) (rd ra rb : Reg) (s : State) : Res :=
  aluU a 0x026 rd ra rb (fun x => (x.truncate 32).zeroExtend 64) s

/-! Immediates (R67). -/

def execAddi (a : At) (rd ra : Reg) (imm : BitVec 16) (s : State) : Res :=
  aluI a 0x02 rd ra imm true (fun x => x + sext16 imm) s
def execAndi (a : At) (rd ra : Reg) (imm : BitVec 16) (s : State) : Res :=
  aluI a 0x03 rd ra imm true (fun x => x &&& zext16 imm) s
def execOri (a : At) (rd ra : Reg) (imm : BitVec 16) (s : State) : Res :=
  aluI a 0x04 rd ra imm true (fun x => x ||| zext16 imm) s
def execXori (a : At) (rd ra : Reg) (imm : BitVec 16) (s : State) : Res :=
  aluI a 0x05 rd ra imm true (fun x => x ^^^ zext16 imm) s
def execSlti (a : At) (rd ra : Reg) (imm : BitVec 16) (s : State) : Res :=
  aluI a 0x06 rd ra imm true (fun x => boolWord (x.slt (sext16 imm))) s
def execSltiu (a : At) (rd ra : Reg) (imm : BitVec 16) (s : State) : Res :=
  aluI a 0x07 rd ra imm true (fun x => boolWord (x.ult (sext16 imm))) s
/-- SHI: IMM[7:6] selects SLL, SRL, SRA or ROR by IMM[5:0]; IMM[15:8] zero. -/
def execShi (a : At) (rd ra : Reg) (imm : BitVec 16) (s : State) : Res :=
  aluI a 0x08 rd ra imm (decide (imm.toNat < 256)) (fun x =>
    let n := imm.toNat % 64
    let k := imm.toNat / 64 % 4
    if k = 0 then sll x n else if k = 1 then srl x n else if k = 2 then sra x n else ror x n) s
/-- LUI: RA must be zero. -/
def execLui (a : At) (rd ra : Reg) (imm : BitVec 16) (s : State) : Res :=
  aluI a 0x09 rd ra imm (ra == 0) (fun _ => sext16 imm * 0x10000) s
def execLhi (a : At) (rd ra : Reg) (imm : BitVec 16) (s : State) : Res :=
  aluI a 0x0A rd ra imm true (fun x => (x &&& 0x0000FFFFFFFFFFFF) ||| (zext16 imm <<< 48)) s
/-- ADDIX: extended form, two words. -/
def execAddix (a : At) (rd ra : Reg) (imm : BitVec 48) (s : State) : Res :=
  tpSimple a 8 (encX 0x3E rd ra imm) true (fun sl => sl.setReg rd (sl.reg ra + imm.signExtend 64)) s

/-! Branches and jumps (R68, R69). -/

/-- The slot goes to `target`: it is not eligible in the next cycle, and the address of the branch is kept for a
fetch that faults there. -/
def Slot.jump (sl : Slot) (from_ target : Word) : Slot :=
  { sl with pc := target, branchFrom := some from_, readyAt := sl.readyAt + 1 }

/-- A conditional branch. -/
def branch (a : At) (op : Nat) (ra rb : Reg) (off : BitVec 16) (c : Word → Word → Bool) (s : State) : Res :=
  let pc := (s.slot a.core.val a.slot.val).pc
  tpSimple a 4 (encB op ra rb off) true (fun sl =>
    if c (sl.reg ra) (sl.reg rb) then sl.jump pc (pc + off16 off) else sl) s

def execBeq (a : At) (ra rb : Reg) (off : BitVec 16) (s : State) : Res := branch a 0x10 ra rb off (fun x y => x == y) s
def execBne (a : At) (ra rb : Reg) (off : BitVec 16) (s : State) : Res := branch a 0x11 ra rb off (fun x y => x != y) s
def execBlt (a : At) (ra rb : Reg) (off : BitVec 16) (s : State) : Res := branch a 0x12 ra rb off (fun x y => x.slt y) s
def execBge (a : At) (ra rb : Reg) (off : BitVec 16) (s : State) : Res :=
  branch a 0x13 ra rb off (fun x y => !x.slt y) s
def execBltu (a : At) (ra rb : Reg) (off : BitVec 16) (s : State) : Res :=
  branch a 0x14 ra rb off (fun x y => x.ult y) s
def execBgeu (a : At) (ra rb : Reg) (off : BitVec 16) (s : State) : Res :=
  branch a 0x15 ra rb off (fun x y => !x.ult y) s

/-- JAL writes the address of the next instruction and goes to PC + 4 × sext(OFF21). -/
def execJal (a : At) (rd : Reg) (off : BitVec 21) (s : State) : Res :=
  let pc := (s.slot a.core.val a.slot.val).pc
  tpSimple a 4 (encJ 0x16 rd off) true (fun sl => (sl.setReg rd (pc + 4)).jump pc (pc + off21 off)) s

/-- JALR goes to ra + sext(IMM) with bits [1:0] cleared. -/
def execJalr (a : At) (rd ra : Reg) (imm : BitVec 16) (s : State) : Res :=
  let pc := (s.slot a.core.val a.slot.val).pc
  tpSimple a 4 (encI 0x17 rd ra imm) true (fun sl =>
    (sl.setReg rd (pc + 4)).jump pc ((sl.reg ra + sext16 imm) &&& ~~~3)) s

end Sys2Proof.Machine
end

