-- ==== Sys2Proof/Machine/TpMemory.lean ====
section
/-!
DEFINITION. The scratchpad loads, stores, atomics and checked channel accesses up to their bank request (R70–R73).
Their grant is BANK_GRANT, their data LOAD_DATA_RETURN.
-/
namespace Sys2Proof.Machine

/-- The access size in bytes (R70, R74, R78). -/
def MemKind.size : MemKind → Nat
  | .load n _ => n
  | .store n => n
  | .mxi => 64
  | .vxi => 64
  | .dxi => 64
  | .wopen => 32
  | _ => 8

/-- A request of slot `i` goes to its bank, at task-relative address `ta`, behind those issued before it (R38). -/
def State.request (s : State) (p i : Nat) (kind : MemKind) (rd rv : Reg) (ta : Word) : State :=
  let sl := s.slot p i
  let op : MemOp := { kind := kind, rd := rd.val, off := sl.seg.spadBase + ta.toNat, taskAddr := ta,
                      val := sl.reg rv, oldRd := sl.reg rd, seq := (s.core p).memSeq, reply := none, dueAt := 0 }
  (s.modCore p (fun c => { c with memSeq := c.memSeq + 1 })).modSlot p i (fun sl =>
    { (sl.advance 4 s.now) with mem := some op })

/-- A scratchpad access of the task processor issues: it waits at its bank, and holds its slot (R37, R71). -/
def tpAccess (a : At) (word : Nat) (kind : MemKind) (rd ra rv : Reg) (disp : Word) (s : State) : Res :=
  let p := a.core.val
  let i := a.slot.val
  tpIssue a 4 word true (fun s =>
    let sl := s.slot p i
    let ta := sl.reg ra + disp
    match sl.addrFault ta kind.size with
    | some code => s.faultAt a code ta
    | none => s.request p i kind rd rv ta) s

/-- A load of I format. -/
def load (a : At) (op n : Nat) (signed : Bool) (rd ra : Reg) (imm : BitVec 16) (s : State) : Res :=
  tpAccess a (encI op rd ra imm) (.load n signed) rd ra 0 (sext16 imm) s
/-- A store of S format: the low `n` bytes of RS. -/
def store (a : At) (op n : Nat) (rs ra : Reg) (imm : BitVec 16) (s : State) : Res :=
  tpAccess a (encI op rs ra imm) (.store n) 0 ra rs (sext16 imm) s
/-- An atomic: the word at ra, operand rb, the old value to RD (R72). -/
def atomic (a : At) (fn : Nat) (k : MemKind) (rd ra rb : Reg) (s : State) : Res :=
  tpAccess a (encR 0x24 rd ra rb fn) k rd ra rb 0 s

def execLb (a : At) (rd ra : Reg) (imm : BitVec 16) (s : State) : Res := load a 0x18 1 true rd ra imm s
def execLbu (a : At) (rd ra : Reg) (imm : BitVec 16) (s : State) : Res := load a 0x19 1 false rd ra imm s
def execLh (a : At) (rd ra : Reg) (imm : BitVec 16) (s : State) : Res := load a 0x1A 2 true rd ra imm s
def execLhu (a : At) (rd ra : Reg) (imm : BitVec 16) (s : State) : Res := load a 0x1B 2 false rd ra imm s
def execLw (a : At) (rd ra : Reg) (imm : BitVec 16) (s : State) : Res := load a 0x1C 4 true rd ra imm s
def execLwu (a : At) (rd ra : Reg) (imm : BitVec 16) (s : State) : Res := load a 0x1D 4 false rd ra imm s
def execLd (a : At) (rd ra : Reg) (imm : BitVec 16) (s : State) : Res := load a 0x1E 8 false rd ra imm s
def execSb (a : At) (rs ra : Reg) (imm : BitVec 16) (s : State) : Res := store a 0x20 1 rs ra imm s
def execSh (a : At) (rs ra : Reg) (imm : BitVec 16) (s : State) : Res := store a 0x21 2 rs ra imm s
def execSw (a : At) (rs ra : Reg) (imm : BitVec 16) (s : State) : Res := store a 0x22 4 rs ra imm s
def execSd (a : At) (rs ra : Reg) (imm : BitVec 16) (s : State) : Res := store a 0x23 8 rs ra imm s
def execAmoadd (a : At) (rd ra rb : Reg) (s : State) : Res := atomic a 0 .amoAdd rd ra rb s
def execAmoswap (a : At) (rd ra rb : Reg) (s : State) : Res := atomic a 1 .amoSwap rd ra rb s
def execAmocas (a : At) (rd ra rb : Reg) (s : State) : Res := atomic a 2 .amoCas rd ra rb s
def execAmoor (a : At) (rd ra rb : Reg) (s : State) : Res := atomic a 3 .amoOr rd ra rb s
def execAmoand (a : At) (rd ra rb : Reg) (s : State) : Res := atomic a 4 .amoAnd rd ra rb s

/-- TAKE: IMM[15] is L (R73). -/
def execTake (a : At) (rd ra : Reg) (imm : BitVec 16) (s : State) : Res :=
  tpAccess a (encI 0x26 rd ra imm) (.take (imm.getLsbD 15)) rd ra 0 (sext15 imm) s
/-- PUT: IMM[15] is L (R73). -/
def execPut (a : At) (rs ra : Reg) (imm : BitVec 16) (s : State) : Res :=
  tpAccess a (encI 0x27 rs ra imm) (.put (imm.getLsbD 15)) 0 ra rs (sext15 imm) s

/-- WAITC waits until the full bit is 1 (IMM[15] = 0) or 0 (IMM[15] = 1); RD must be zero (R73, R75). -/
def execWaitc (a : At) (rd ra : Reg) (imm : BitVec 16) (s : State) : Res :=
  let p := a.core.val
  let i := a.slot.val
  tpIssue a 4 (encI 0x33 rd ra imm) (rd == 0) (fun s =>
    let sl := s.slot p i
    let ta := sl.reg ra + sext15 imm
    match sl.addrFault ta 8 with
    | some code => s.faultAt a code ta
    | none =>
      (s.modSlot p i (fun sl => { (sl.advance 4 s.now) with
        mode := .waiting, wait := .channel (sl.seg.spadBase + ta.toNat) (!imm.getLsbD 15) })).settle p) s

/-! The grant of a task processor access (R70–R73, R89, R108, R109). -/

/-- The access reads its word, so its ECC is checked. -/
def MemKind.reads : MemKind → Bool
  | .store _ => false
  | .put _ => false
  | _ => true

/-- The new word of an atomic (R72). -/
def MemOp.amo (m : MemOp) (old : Word) : Option Word :=
  match m.kind with
  | .amoAdd => some (old + m.val)
  | .amoSwap => some m.val
  | .amoCas => some (if old = m.oldRd then m.val else old)
  | .amoOr => some (old ||| m.val)
  | .amoAnd => some (old &&& m.val)
  | _ => none

/-- The loaded value, extended (R70). -/
def MemKind.extend (k : MemKind) (x : Nat) : Word :=
  match k with
  | .load n true => sextNat (8 * n) x
  | _ => BitVec.ofNat 64 x

/-- The request of slot `i` at bank `b`, when it waits there in cycle `t`; a checked access that waits for its channel slot
repeats it in the cycle after the slot is as it needs it (R108). -/
def Core.memAt (c : Core) (t b i : Nat) : Option MemOp :=
  let sl := c.slot i
  match sl.mem with
  | some m =>
    if m.reply.isNone && bankOf m.off == b && (sl.wait != .checked || (decide (0 < m.dueAt) && decide (m.dueAt ≤ t)))
    then some m else none
  | none => none

/-- The oldest task processor request at bank `b` in cycle `t`: its slot and access (R38, R89). -/
def Core.tpRequest (c : Core) (t b : Nat) : Option (Nat × MemOp) :=
  (List.range 8).foldl (fun best i =>
    match c.memAt t b i, best with
    | none, best => best
    | some m, none => some (i, m)
    | some m, some (j, m') => if m.seq < m'.seq then some (i, m) else some (j, m')) none

/-- A granted store or PUT: the bytes are written, with `err` what the code of the old words shows (R93), the slot is free from the next cycle (R71). -/
def State.grantStore (s : State) (p i : Nat) (m : MemOp) (err : EccErr) : State :=
  let n := m.kind.size
  let s := match m.kind with
    | .put _ => s
    | _ => s.touchPlain p true m.off n
  let s := s.spadWrite p m.off (leBytes n m.val.toNat) (doubleAt err)
  let s := match m.kind with
    | .put true => s.modSpad p (fun sp => sp.setFullAt m.off true)
    | _ => s
  let s := s.modSlot p i (fun sl => { sl with
    mem := none, mode := .ready, wait := .none, readyAt := s.now + 1 })
  s.settle p

/-- A granted load, atomic or TAKE: the data is on its way back and arrives 6 cycles later (R71); an uncorrectable
word gives no data and changes nothing (R70 check 3). -/
def State.grantLoad (s : State) (p i : Nat) (m : MemOp) (err : EccErr) : State :=
  let n := m.kind.size
  let s := match m.kind with
    | .take _ => s
    | _ => s.touchPlain p false m.off n
  let s := s.eccRead p m.off n err false
  let bad := (s.spad p).anyUe m.off n
  let x := leNat ((s.spad p).read m.off n)
  let due := s.now + 6
  let reply : Option Word := if bad then none else some (m.kind.extend x)
  let s :=
    if bad then s
    else
      match m.amo (BitVec.ofNat 64 x) with
      | some v =>
        let s := s.touchPlain p true m.off 8
        (s.spadWrite p m.off (leBytes 8 v.toNat)).modBank p (bankOf m.off) (fun b => { b with freeAt := s.now + 2 })
      | none =>
        match m.kind with
        | .take true => s.modSpad p (fun sp => sp.setFullAt m.off false)
        | _ => s
  let s := s.modSlot p i (fun sl => { sl with
    mem := some { m with reply := some reply, dueAt := due }, mode := .ready, wait := .none })
  s.settle p

/-- The bank grants the request of slot `i`: it is performed, or a checked access puts its slot in WAITING (R73,
R75). -/
def State.grantTp (s : State) (p i : Nat) (m : MemOp) (err : EccErr) : State :=
  if !(s.spad p).memReady m then
    s.modSlot p i (fun sl => { sl with mode := .waiting, wait := .checked, mem := some { m with dueAt := 0 } })
  else if m.kind.reads then s.grantLoad p i m err
  else s.grantStore p i m err

/-- A fault that the access of an issued instruction meets: the program counter is that of the instruction. -/
def State.faultBack (s : State) (p i code : Nat) (addr : Word) : State :=
  let pc := (s.slot p i).pc - 4
  (s.modSlot p i (fun sl => { sl with pc := pc })).takeFault p i code pc addr

/-- A descriptor read is over: RD is there, and the slot goes on, 6 cycles after the grant (R74, R86). -/
def State.endRead (s : State) (p i rd : Nat) (v : Word) : State :=
  s.modSlot p i (fun sl => { (sl.setReg rd v) with mem := none, readyAt := s.now + 6 })

/-- LOAD_DATA_RETURN: 6 cycles after the grant RD is written and the slot may issue in that cycle (R37, R71); an
uncorrectable error faults the slot, RD unwritten. The program counter of the fault is that of the load. -/
def execLoadDataReturn (a : At) (s : State) : Res :=
  let p := a.core.val
  let i := a.slot.val
  let sl := s.slot p i
  match sl.mem with
  | some m =>
    match m.reply with
    | none => .next s
    | some r =>
      let s := s.advanceTo m.dueAt
      match r with
      | some v => .next (s.modSlot p i (fun sl => { (sl.setReg m.rd v) with mem := none, readyAt := s.now }))
      | none => .next (s.faultBack p i fSpadUncorrectable m.taskAddr)
  | none => .next s

end Sys2Proof.Machine
end

