-- ==== Sys2Proof/Machine/WinOps.lean ====
section
/-!
DEFINITION. Windows: opening from a descriptor (R78, R97–R99), the close rule (R79, R104, R105) and the answers to held
credit requests.
-/
namespace Sys2Proof.Machine

/-- The fields of a 32-byte window descriptor (R97). -/
structure WinDesc where
  base : Nat
  bound : Nat
  channel : Bool
  check : Bool
  persist : Bool
  coreMode : Nat
  edgeMask : Nat
  coreLo : Nat
  coreHi : Nat
  credits : Nat
  slotBytes : Nat
deriving DecidableEq, Repr

def winDesc (d : List Byte) : WinDesc :=
  { base := leAt d 0 4, bound := leAt d 4 4, channel := bit (leAt d 8 1) 0, check := bit (leAt d 8 1) 1,
    persist := bit (leAt d 8 1) 2, coreMode := field (leAt d 9 1) 0 2, edgeMask := field (leAt d 10 2) 0 10,
    coreLo := field (leAt d 12 2) 0 14, coreHi := field (leAt d 14 2) 0 14, credits := leAt d 16 2,
    slotBytes := leAt d 18 2 }

/-- R97: every field rule of a window descriptor. -/
def winDescOk (d : List Byte) : Bool :=
  let x := winDesc d
  decide (x.base % 64 = 0) && decide (x.bound % 64 = 0) && decide (64 ≤ x.bound)
    && field (leAt d 8 1) 3 5 == 0 && field (leAt d 9 1) 2 6 == 0 && field (leAt d 10 2) 10 6 == 0
    && field (leAt d 12 2) 14 2 == 0 && field (leAt d 14 2) 14 2 == 0 && zeroAt d 20 12
    && (x.channel || !x.check)
    && (if x.coreMode = 2 then decide (x.coreLo ≤ x.coreHi) && decide (x.coreHi ≤ 9215)
        else x.coreLo == 0 && x.coreHi == 0)
    && (if x.channel then
          x.credits == 0 && decide (x.slotBytes % 8 = 0) && decide (8 ≤ x.slotBytes) && decide (x.slotBytes ≤ 512)
            && decide (x.bound % x.slotBytes = 0) && decide (1 ≤ x.bound / x.slotBytes)
            && decide (x.bound / x.slotBytes ≤ 256)
        else decide (1 ≤ x.credits) && decide (x.credits ≤ 256) && x.slotBytes == 0)

/-- A range of offsets overlaps an open window of the core (R98). -/
def Spad.overlapsOpen (sp : Spad) (lo hi : Nat) : Bool :=
  (List.range 32).any (fun w => let x := sp.win w
    x.isOpen && decide (lo < x.base + x.bound) && decide (x.base < hi))

/-- The lowest-numbered free window (R98). -/
def Spad.freeWin (sp : Spad) : Option Nat := (List.range 32).find? (fun w => !(sp.win w).isOpen)

/-- The next generation (R99). -/
def nextGen (g : BitVec 16) : BitVec 16 := if g = 0xFFFF then 1 else g + 1

/-- The window a descriptor opens at scratchpad offset `base` for a patch; its channel slots start empty and its
sticky flags clear. -/
def openWindow (x : WinDesc) (base patch : Nat) (gen : BitVec 16) : Window :=
  { isOpen := true, closing := false, base := base, bound := x.bound, channel := x.channel, check := x.check,
    persist := x.persist, patch := patch, coreMode := x.coreMode, edgeMask := BitVec.ofNat 10 x.edgeMask,
    coreLo := x.coreLo, coreHi := x.coreHi,
    credits := if x.channel then x.bound / x.slotBytes else x.credits, slotBytes := x.slotBytes,
    unsyncRead := false, overwriteFull := false, nacked := false, fresh := (0, 0), gen := gen, creditsOut := 0, full := [],
    reserved := [], closers := [], tmpl := [] }

/-- The new window fits: a free window, and the channel slot budget of R98. -/
def Spad.roomFor (sp : Spad) (x : WinDesc) : Option Nat :=
  if x.channel ∧ ¬ (sp.slotsUsed + x.bound / x.slotBytes ≤ 1024) then none else sp.freeWin

/-- A remote write waits at a bank inside the window (R79, R105). -/
def Spad.writesWaiting (sp : Spad) (w : Window) : Bool :=
  (List.range 16).any (fun b => (sp.bank b).p6.any (fun r =>
    match r with
    | .remoteWrite _ off d _ _ => decide (off < w.base + w.bound) && decide (w.base < off + d.length)
    | _ => false))

/-- The last condition of a close holds (R104). -/
def Spad.closeReady (sp : Spad) (w : Nat) : Bool :=
  let x := sp.win w
  x.isOpen && x.closing && x.creditsOut == 0 && !sp.writesWaiting x

/-- The close completes: the full bits go, the registers read zero but the generation (R104, R117). -/
def Window.closed (x : Window) : Window := { Window.reset with gen := x.gen }

/-- Complete the close of window `w`: in the next cycle the tokens of its WCLOSEs become DONE, and waits on its slots
complete (R79, R105, R110). -/
def State.completeClose (s : State) (p w : Nat) : State :=
  let x := (s.spad p).win w
  let s := s.modSpad p (fun sp => sp.modWin w Window.closed)
  let s := x.closers.foldl (fun (s : State) e => s.modSlot p e.1 (fun sl => sl.completeAt (s.now + 1) e.2 stOk)) s
  let s := (List.range 8).foldl (fun (s : State) i => s.modSlot p i (fun sl =>
    match sl.mode, sl.wait with
    | .waiting, .channel off _ => if x.base ≤ off ∧ off < x.base + x.bound then sl.wake (s.now + 1) else sl
    | _, _ => sl)) s
  (s.uncover p x.base (x.base + x.bound)).settle p

/-- Complete the close of window `w` if its conditions hold. -/
def State.tryClose (s : State) (p w : Nat) : State :=
  if (s.spad p).closeReady w then s.completeClose p w else s

/-- An answer reaches a sender later, through its access: it is recorded there. -/
def State.answerCredit (s : State) (id : Nat) (ans : CreditAnswer) : State :=
  match SMap.get none s.mesh.accesses id with
  | none => s
  | some a => { s with mesh := { s.mesh with
      accesses := SMap.set none s.mesh.accesses id (some { a with answer := some ans, stage := .replying }) } }

/-- The channel slots of a request's extent, ascending. -/
def Window.extentSlots (x : Window) (r : CreditReq) : List Nat :=
  if x.slotBytes = 0 then []
  else (List.range (r.extent / x.slotBytes)).map (fun k => (r.off - x.base) / x.slotBytes + k)

/-- The slots that a held request has reserved so far are free again, and their credits with them. -/
def Spad.unholdSlots (sp : Spad) (w : Nat) (r : CreditReq) : Spad :=
  (((sp.win w).extentSlots r).take r.got).foldl (fun sp i => sp.modWin w (fun x =>
    { (x.setReserved i false) with creditsOut := x.creditsOut - 1 })) sp

/-- R104 on close: the window is closing, and every held request of it is answered REFUSED, the slots it had reserved being free
again (log 129); the close completes at once when nothing is outstanding. -/
def State.beginClose (s : State) (p w : Nat) : State :=
  let sp := s.spad p
  let x := sp.win w
  if !x.isOpen then s
  else
    let mine := fun (r : CreditReq) => decide (x.base ≤ r.off) && decide (r.off + r.extent ≤ x.base + x.bound)
    let refused := sp.hold.filter mine
    let s := s.modSpad p (fun sp => { (refused.foldl (fun sp r => sp.unholdSlots w r)
        (sp.modWin w (fun x => { x with closing := true }))) with
      hold := sp.hold.filter (fun r => !mine r) })
    let s := refused.foldl (fun s r => s.answerCredit r.id .refused) s
    s.tryClose p w

/-- A handle names an open window of this patch with the generation it has now (R79, R80). -/
def Spad.handle (sp : Spad) (h : Nat) (patch : Nat) : Option Nat :=
  let w := h % 32
  let x := sp.win w
  if x.isOpen && x.gen.toNat == field h 16 16 && x.patch == patch then some w else none

/-! The window instructions. -/

/-- WOPEN: its descriptor address is checked, and the descriptor is read in one bank access (R78 steps 1 and 2). -/
def execWopen (a : At) (rd ra : Reg) (imm : BitVec 16) (s : State) : Res :=
  let p := a.core.val
  let i := a.slot.val
  tpIssue a 4 (encI 0x2C rd ra imm) true (fun s =>
    let sl := s.slot p i
    let ta := sl.reg ra + sext16 imm
    match sl.addrFault ta 32 with
    | some code => s.faultAt a code ta
    | none => s.request p i .wopen rd 0 ta) s

/-- The bank grants the descriptor read of a WOPEN: the checks in order, then the window opens, or RD is all ones (R78).
DESIGN CHOICE (log 108): the read is a plain access (R109). -/
def State.grantWopen (s : State) (p i : Nat) (m : MemOp) (err : EccErr) : State :=
  let s := (s.touchPlain p false m.off 32).eccRead p m.off 32 err false
  if (s.spad p).anyUe m.off 32 then s.faultBack p i fSpadUncorrectable m.taskAddr
  else
    let sl := s.slot p i
    let d := (s.spad p).read m.off 32
    let x := winDesc d
    let lo := sl.seg.spadBase + x.base
    if !winDescOk d then s.faultBack p i fDescriptorInvalid m.taskAddr
    else if ¬ (x.base + x.bound ≤ sl.seg.spadBound) then s.faultBack p i fSpadBound (BitVec.ofNat 64 x.base)
    else if (s.spad p).overlapsOpen lo (lo + x.bound) then s.faultBack p i fDescriptorInvalid m.taskAddr
    else
      match (s.spad p).roomFor x with
      | none => s.endRead p i m.rd (BitVec.allOnes 64)
      | some w =>
        let g := nextGen ((s.spad p).win w).gen
        let s := s.modSpad p (fun sp => sp.setWin w (openWindow x lo sl.patch g))
        (s.endRead p i m.rd (BitVec.ofNat 64 (w + 2 ^ 16 * g.toNat))).modSlot p i (fun sl => { sl with
          opened := if x.persist then sl.opened else sl.opened ++ [(w, g)] })

/-- WCLOSE: a token, and the close of the window that the handle names (R79). -/
def execWclose (a : At) (rd ra rb : Reg) (fn : BitVec 11) (s : State) : Res :=
  let p := a.core.val
  let i := a.slot.val
  tpIssue a 4 (encR 0x2D rd ra rb fn.toNat) (rb == 0 && fn == 0) (fun s =>
    let sl := s.slot p i
    let h := sl.reg ra
    match sl.freeToken with
    | none => s.faultAt a fTokenExhausted h
    | some t =>
      let s := s.modSlot p i (fun sl =>
        (((sl.advance 4 s.now).setToken t .busy).setReg rd (BitVec.ofNat 64 t)))
      match (s.spad p).handle h.toNat sl.patch with
      | none => s.modSlot p i (fun sl => sl.completeAt (s.now + 1) t stWindowRefused)
      | some w =>
        let s := s.modSpad p (fun sp => sp.modWin w (fun x => { x with closers := x.closers ++ [(i, t)] }))
        s.beginClose p w) s

/-- WSTAT: the status word; FN[0] clears the sticky flags that it reads, but those set in this cycle (R80, R117). -/
def execWstat (a : At) (rd ra rb : Reg) (fn : BitVec 11) (s : State) : Res :=
  let p := a.core.val
  let i := a.slot.val
  tpIssue a 4 (encR 0x2E rd ra rb fn.toNat) (rb == 0 && decide (fn.toNat < 2)) (fun s =>
    let sl := s.slot p i
    match (s.spad p).handle (sl.reg ra).toNat sl.patch with
    | none => s.modSlot p i (fun sl => (sl.advance 4 s.now).setReg rd (BitVec.allOnes 64))
    | some w =>
      let v := ((s.spad p).win w).status
      let s := if fn = 1 then
          s.modSpad p (fun sp => sp.modWin w (fun x => x.clearMarks s.now))
        else s
      s.modSlot p i (fun sl => (sl.advance 4 s.now).setReg rd (BitVec.ofNat 64 v))) s

end Sys2Proof.Machine
end

