-- ==== Sys2Proof/Machine/TpSystem.lean ====
section
/-!
DEFINITION. Waits, barriers, user messages and the system instructions (R75–R77, R81–R84).
-/
namespace Sys2Proof.Machine

/-- A waiting instruction: the slot is WAITING on `w`, and its condition is examined at once (R75). -/
def State.waitOn (s : State) (a : At) (w : WaitOn) : State :=
  (s.modSlot a.core.val a.slot.val (fun sl => { (sl.advance 4 s.now) with mode := .waiting, wait := w })).settle
    a.core.val

/-- WAITT: token ra[3:0]; a FREE token faults (R45, R75). -/
def execWaitt (a : At) (rd ra : Reg) (imm : BitVec 16) (s : State) : Res :=
  tpIssue a 4 (encI 0x30 rd ra imm) (imm == 0) (fun s =>
    let sl := s.slot a.core.val a.slot.val
    let t := (sl.reg ra).toNat % 16
    if sl.token t = .free then s.faultAt a fTokenInvalid (BitVec.ofNat 64 t)
    else s.waitOn a (.token rd.val t)) s

/-- WAITM: the mask ra[15:0] OR IMM; a mask without a BUSY or completed token faults (R45, R75). -/
def execWaitm (a : At) (rd ra : Reg) (imm : BitVec 16) (s : State) : Res :=
  tpIssue a 4 (encI 0x31 rd ra imm) true (fun s =>
    let sl := s.slot a.core.val a.slot.val
    let m := (sl.reg ra).truncate 16 ||| imm
    if sl.maskDead m then s.faultAt a fTokenInvalid (m.zeroExtend 64)
    else s.waitOn a (.mask rd.val m)) s

/-- WAITP: phase edge IMM[3:0] of the task's tick; 1 when its program has no such phase (R76). -/
def execWaitp (a : At) (rd ra : Reg) (imm : BitVec 16) (s : State) : Res :=
  tpIssue a 4 (encI 0x32 rd ra imm) (ra == 0 && decide (imm.toNat < 16)) (fun s =>
    let p := a.core.val
    let sl := s.slot p a.slot.val
    if s.edges sl.tick ≤ imm.toNat ∧ s.tickPhases sl.tick < imm.toNat + 1 then
      s.modSlot p a.slot.val (fun sl => (sl.advance 4 s.now).setReg rd 1)
    else s.waitOn a (.phase rd.val imm.toNat)) s

/-- BAR: register at barrier IMM[5:0] and wait for its release; a barrier the core takes no part in completes at once
(R77, R230). -/
def execBar (a : At) (rd ra : Reg) (imm : BitVec 16) (s : State) : Res :=
  tpIssue a 4 (encI 0x34 rd ra imm) (rd == 0 && ra == 0 && decide (imm.toNat < 64)) (fun s =>
    let p := a.core.val
    let b := imm.toNat
    let n := s.barExpect p b
    let key := barKey (s.slot p a.slot.val).tick b
    if n = 0 then s.modSlot p a.slot.val (fun sl => sl.advance 4 s.now)
    else
      let arrived : Bool := (SMap.get none (s.core p).node.barArrived key).isSome
      let s := s.modCore p (fun c => { c with node :=
        if arrived then { c.node with barNext := SMap.set 0 c.node.barNext key (SMap.get 0 c.node.barNext key + 1) }
        else { c.node with barCount := SMap.set 0 c.node.barCount key (SMap.get 0 c.node.barCount key + 1) } })
      let s := s.modSlot p a.slot.val (fun sl => { (sl.advance 4 s.now) with
        mode := .waiting, wait := .barrier b arrived })
      s.barArrive p key n) s

/-- A user message enters the node's send queue and is sent when R235 lets it. -/
def State.enqueueUser (s : State) (p : Nat) (m : UserMsg) : State :=
  (s.modCore p (fun c => { c with node := { c.node with
    sendQ := c.node.sendQ ++ [{ msg := m, inFlight := false, resendAt := none }] } })).pumpUser p

/-- The user message a slot sends. -/
def State.userMsg (s : State) (p : Nat) (sl : Slot) (chan dest : Nat) (payload : BitVec 32) : UserMsg :=
  { chan := chan, dest := dest, sender := (s.gid p).getD 0x3FFF, tick := sl.tick, att := sl.att, payload := payload }

/-- Count an instruction that R260 holds. -/
def State.countHeld (s : State) : State := s.bump unitMgmt rTICK_RA_STAT 32 32 1

/-- HSEND: ra[31:0] on channel FN[3:0] to core rb (R81); held for run-ahead work (R260). With the send queue full the
slot is not eligible. -/
def execHsend (a : At) (rd ra rb : Reg) (fn : BitVec 11) (s : State) : Res :=
  let p := a.core.val
  let i := a.slot.val
  let legal := rd == 0 && decide (fn.toNat < 16)
  if (s.slot p i).fetchInside 4 && (s.core p).sendWaits (s.slot p i) legal then .next s
  else
    tpIssue a 4 (encR 0x35 rd ra rb fn.toNat) legal (fun s =>
      let sl := s.slot p i
      let dest := (sl.reg rb).toNat
      let pay := (sl.reg ra).truncate 32
      if dest > 9215 ∨ (s.active.site (dest / 48)).isNone then s.faultAt a fAddressError (sl.reg rb)
      else if sl.runahead then
        (s.modSlot p i (fun sl => { (sl.advance 4 s.now) with
          mode := .waiting, wait := .held (.hsend fn.toNat dest pay) })).countHeld
      else
        (s.modSlot p i (fun sl => sl.advance 4 s.now)).enqueueUser p (s.userMsg p sl fn.toNat dest pay)) s

/-- HRECV: the oldest message of channel IMM[3:0] and of the slot's TICKP (R231); with POLL (IMM[15]) and none, zero (R82). -/
def execHrecv (a : At) (rd ra : Reg) (imm : BitVec 16) (s : State) : Res :=
  let p := a.core.val
  let i := a.slot.val
  let chan := imm.toNat % 16
  let poll := imm.getLsbD 15
  tpIssue a 4 (encI 0x36 rd ra imm) (ra == 0 && decide (field imm.toNat 4 11 = 0)) (fun s =>
    match takeMsg (tickp (s.slot p i).tick) chan (s.core p).node.recvQ with
    | some (m, rest) =>
      (s.modCore p (fun c => { c with node := { c.node with recvQ := rest } })).modSlot p i (fun sl =>
        (sl.advance 4 s.now).setReg rd (userWord m))
    | none =>
      if poll then s.modSlot p i (fun sl => (sl.advance 4 s.now).setReg rd 0)
      else s.waitOn a (.message rd.val chan s.now)) s

/-! Task end (R51). -/

/-- The windows of the ENDING task that are still the ones it opened. -/
def Core.stillOpen (c : Core) (sl : Slot) : List Nat :=
  (sl.opened.filter (fun e => let x := c.spad.win e.1; x.isOpen && x.gen == e.2)).map (·.1)

/-- R51 steps 1 and 2: once no token is BUSY, every window the task opened without PERSIST closes. -/
def State.closeOwned (s : State) (p i : Nat) : State :=
  if (s.slot p i).anyBusy then s
  else ((s.core p).stillOpen (s.slot p i)).foldl (fun s w =>
    if ((s.spad p).win w).closing then s else s.beginClose p w) s

/-- TEND: the slot enters ENDING and issues nothing further (R51). -/
def execTend (a : At) (rd ra : Reg) (imm : BitVec 16) (s : State) : Res :=
  let p := a.core.val
  let i := a.slot.val
  tpIssue a 4 (encI 0x38 rd ra imm) (rd == 0 && ra == 0 && imm == 0) (fun s =>
    (s.modSlot p i (fun sl => { (sl.advance 4 s.now) with mode := .ending })).closeOwned p i) s

/-- The slot is FREE: nothing of it waits any more; its registers keep what they hold until the next launch. -/
def Slot.freed (sl : Slot) : Slot :=
  { sl with mode := .free, wait := .none, mem := none, late := none, load := none, due := [], opened := [], yielding := false,
            branchFrom := none, runahead := false }

/-- TASK_ENDED: an ENDING slot without BUSY tokens closes its windows, and when every close is complete reports its
task ended, becomes FREE and lets its core vote (R51, R242). -/
def execTaskEnded (a : At) (s : State) : Res :=
  let p := a.core.val
  let i := a.slot.val
  let sl := s.slot p i
  if sl.mode != .ending || !sl.onlyDue || s.coreDown p then .next s
  else
    let s := s.advanceTo sl.lastDue
    let s := (s.modSlot p i (Slot.ripen s.now)).closeOwned p i
    if !((s.core p).stillOpen (s.slot p i)).isEmpty then .next s
    else
      .next (((s.modSlot p i (fun sl => { sl.freed with tokens := [] })).uncover p sl.seg.spadBase
        (sl.seg.spadBase + sl.seg.spadBound)).tryVote p sl.tick)

/-- YIELD: the slot stands back until another slot has issued or 8 cycles have passed (R83). -/
def execYield (a : At) (rd ra : Reg) (imm : BitVec 16) (s : State) : Res :=
  tpSimple a 4 (encI 0x39 rd ra imm) (rd == 0 && ra == 0 && imm == 0) (fun sl =>
    { sl with readyAt := sl.readyAt + 8, yielding := true }) s

/-- RAISE faults the slot with RAISED; the fault value is ra (R83). -/
def execRaise (a : At) (rd ra : Reg) (imm : BitVec 16) (s : State) : Res :=
  tpIssue a 4 (encI 0x3A rd ra imm) (rd == 0 && imm == 0) (fun s =>
    s.faultAt a fRaised ((s.slot a.core.val a.slot.val).reg ra)) s

/-- CORE_ID of a physical core (R57). -/
def State.coreId (s : State) (p : Nat) : Nat :=
  match s.gid p with
  | none => 2 ^ 32 * (p % 50) + 2 ^ 40 * (p / 50)
  | some g => g / 48 + 2 ^ 8 * (g % 48) + 2 ^ 16 * g + 2 ^ 32 * (p % 50) + 2 ^ 40 * (p / 50)

/-- The power region of a physical core runs in half-rate mode (R408). -/
def State.halfRate (s : State) (p : Nat) : Bool :=
  bit (s.reg (unitDie (p / 50)) (rCLK_MARGIN + 4 * coreY (p % 50))) 24

/-- FORMATS of a core's parameters: once FEATURES_OK is 1, without the formats not negotiated (R358). -/
def State.viewFormats (s : State) (p off : Nat) : Option Nat :=
  let ok := bit (s.reg unitBar rHOST_FEAT_CTRL) 0
  let raw := s.reg (unitCore p) off
  let cut := fun lo => ([(2, 6), (3, 7), (4, 8), (7, 9)] : List (Nat × Nat)).foldl (fun v (f : Nat × Nat) =>
    if ok && !s.feature f.2 then setField v (lo + f.1) 1 0 else v) raw
  if off = rCORE_MXU_PARAM then some (cut 32)
  else if off = rCORE_VEC_PARAM then some (cut 40)
  else none

/-- The core parameter register at 0x0100 + 8 k (R57, R83). -/
def State.coreParam (s : State) (p k : Nat) : Nat :=
  if k = 0 then s.coreId p
  else if k = 9 then setField (s.reg (unitCore p) rCORE_CLOCK) 32 1 (b2n (s.halfRate p))
  else if k < 10 then (s.viewFormats p (0x100 + 8 * k)).getD (s.reg (unitCore p) (0x100 + 8 * k))
  else 0

/-- RDPAR: k is IMM[3:0] (R83). -/
def execRdpar (a : At) (rd ra : Reg) (imm : BitVec 16) (s : State) : Res :=
  let p := a.core.val
  tpIssue a 4 (encI 0x3B rd ra imm) (ra == 0 && decide (imm.toNat < 16)) (fun s =>
    let v := s.coreParam p imm.toNat
    s.modSlot p a.slot.val (fun sl => (sl.advance 4 s.now).setReg rd (BitVec.ofNat 64 v))) s

/-- The values of RDSYS (R84). -/
def State.sysValue (s : State) (p i k : Nat) : Nat :=
  let c := s.core p
  let sl := c.slot i
  if k = 0 then s.now - max c.resetAt s.boot.fabricAt
  else if k = 1 then sl.tick
  else if k = 2 then s.edges sl.tick - 1
  else if k = 3 then s.gen.nodeSeq.toNat
  else if k = 4 then sl.flagWord
  else if k = 5 then i + 2 ^ 8 * sl.taskId.toNat + 2 ^ 24 * (sl.patch % 256)
  else if k = 6 then sl.tokenWord
  else 0

/-- RDSYS: the index is IMM[3:0] (R83, R84). -/
def execRdsys (a : At) (rd ra : Reg) (imm : BitVec 16) (s : State) : Res :=
  let p := a.core.val
  let i := a.slot.val
  tpIssue a 4 (encI 0x3C rd ra imm) (ra == 0 && decide (imm.toNat < 16)) (fun s =>
    let v := s.sysValue p i imm.toNat
    s.modSlot p i (fun sl => (sl.advance 4 s.now).setReg rd (BitVec.ofNat 64 v))) s

/-- CLRFLG: the mask is IMM[5:0] (R83). -/
def execClrflg (a : At) (rd ra : Reg) (imm : BitVec 16) (s : State) : Res :=
  tpSimple a 4 (encI 0x3D rd ra imm) (rd == 0 && ra == 0 && decide (imm.toNat < 64)) (fun sl => sl.clearFlags (sl.readyAt - 1) imm) s

end Sys2Proof.Machine
end

