-- ==== Sys2Proof/Machine/MeshOps.lean ====
section
/-!
DEFINITION. Accesses of the DMA engines and their packets (R198, R208, R509, R512).
-/
namespace Sys2Proof.Machine

def State.access (s : State) (id : Nat) : Option Access := SMap.get none s.mesh.accesses id
def State.setAccess (s : State) (id : Nat) (a : Option Access) : State :=
  { s with mesh := { s.mesh with accesses := SMap.set none s.mesh.accesses id a } }
def State.packet (s : State) (k : Nat) : Option Packet := SMap.get none s.mesh.packets k
def State.setPacket (s : State) (k : Nat) (x : Option Packet) : State :=
  { s with mesh := { s.mesh with packets := SMap.set none s.mesh.packets k x } }

/-- The route target (R202) and router (R512) that serve a panel address; `none` for host memory, which the host
bridge die serves. -/
def State.service (s : State) (addr : Nat) : Option (Nat × Nat) :=
  match s.active.target addr with
  | none => none
  | some (.dram d o) => some (d, portRouter (dramPort o))
  | some (.spad d l _) => (s.active.phys d l).map (fun r => (d, r))
  | some (.coreReg d l _) => (s.active.phys d l).map (fun r => (d, r))
  | some (.dieReg d _) => some (d, 22)
  | some (.edge e _) => some (192 + e, 0)
  | some (.host _) => some (200, 0)

/-- The route target and router of a core. -/
def State.coreDest (s : State) (p : Nat) : Nat × Nat := (((s.gid p).getD 0) / 48, p % 50)

/-- The place a packet starts from: the router of a core, or of what a route target and router serve. -/
def State.placeOf (s : State) (t r : Nat) : Place :=
  if t < 192 then .router ((s.active.site t).getD 255) r else .edge (t - 192)

/-- A new packet waits for injection. -/
def State.newPacket (s : State) (x : Packet) : State :=
  let s := s.setPacket s.mesh.nextPacket (some x)
  { s with mesh := { s.mesh with nextPacket := s.mesh.nextPacket + 1 } }

/-- The flits of an access's request or reply (R198): one per 64-byte line of a DRAM write or read reply. -/
def linesOf (n : Nat) : Nat := max 1 (min 4 (ceilDiv n 64))

/-- The packet of a request (R201): VC 1, or VC 0 towards a Valiant intermediate. -/
def State.sendRequest (s : State) (id : Nat) (a : Access) (mid : Option Nat) : State :=
  match s.service a.addr with
  | none => s
  | some (t, r) =>
    s.newPacket { cargo := .request id, from_ := .router (a.core / 50) (a.core % 50), dest := t, destRouter := r,
                  vc := if mid.isSome then 0 else 1, mid := mid, esc := false, poolQ := true, exit := none,
                  seamHops := 0,
                  flits := match a.kind with
                    | .write d => linesOf d.length
                    | _ => 1,
                  since := s.now, place := .inject, inPort := 4, patch := a.patch, held := none, targets := [] }

/-- The LFSR of a core, or of a DRAM port's responders: until its first draw it holds its seed, of a core the global logical
core ID (R204). DESIGN CHOICE (log 109): a responder at a DRAM port draws from an LFSR of its site, seeded with the site. -/
def State.lfsrOf (s : State) (key : Nat) : BitVec 16 :=
  (SMap.get none s.mesh.lfsr key).getD (BitVec.ofNat 16 (if key < 20000 then (s.gid key).getD 0 else key - 20000))

/-- Draw an intermediate die, other than the two ends, from an LFSR (R204). -/
def State.drawMid (s : State) (key a b : Nat) : Option Nat × State :=
  let v := Config.lfsrNext (s.lfsrOf key)
  let dies := (List.range 192).filter (fun d => (s.active.site d).isSome && d != a && d != b)
  let s := { s with mesh := { s.mesh with lfsr := SMap.set none s.mesh.lfsr key (some v) } }
  if dies.isEmpty then (none, s) else (dies[v.toNat % dies.length]?, s)

/-- The LFSR that serves a responder: the core's, or that of the DRAM ports of its site. -/
def State.responderKey (s : State) (addr : Nat) : Nat :=
  match s.active.target addr with
  | some (.dram d _) => 20000 + (s.active.site d).getD 0
  | some (.spad d l _) => (s.active.coreIx d l).getD 0
  | some (.coreReg d l _) => (s.active.coreIx d l).getD 0
  | some (.dieReg d _) => 20000 + (s.active.site d).getD 0
  | _ => 0

/-- The target answers an access: the status and data are recorded and the reply packet waits for injection on VC 3,
or on VC 2 towards a new Valiant intermediate when the request used one (R204, R208). -/
def State.reply (s : State) (id : Nat) (st : Status) (data : List Byte) : State :=
  match s.access id with
  | none => s
  | some a =>
    let s := s.setAccess id (some { a with stage := .replying, status := st, data := data })
    match s.service a.addr with
    | none => s
    | some (t, r) =>
      let (d, dr) := s.coreDest a.core
      let (mid, s) := if a.valiant then s.drawMid (s.responderKey a.addr) t d else (none, s)
      s.newPacket { cargo := .reply id, from_ := s.placeOf t r, dest := d, destRouter := dr,
                    vc := if mid.isSome then 2 else 3, mid := mid,
                    esc := false, poolQ := false, exit := none, seamHops := 0, flits := linesOf data.length,
                    since := s.now, place := .inject, inPort := 4, patch := a.patch, held := none, targets := [] }

/-- An access of the core's own scratchpad is answered without a packet. -/
def State.replyLocal (s : State) (id : Nat) (st : Status) (data : List Byte) : State :=
  match s.access id with
  | none => s
  | some a => s.setAccess id (some { a with stage := .replied, status := st, data := data })

/-- The router of the packet's target on its die (R24, R512): of a multicast branch, of its first target. -/
def State.targetRouter (s : State) (x : Packet) : Nat :=
  match x.cargo, x.targets with
  | .mcast .., t :: _ =>
    if x.destRouter = 0 then (s.active.phys (t / 48) (t % 48)).getD 0 else portRouter (dramPort x.dest)
  | _, _ => x.destRouter

end Sys2Proof.Machine
end

