-- ==== Sys2Proof/Machine/Scratchpad.lean ====
section
/-!
DEFINITION. The scratchpad's commands: bank grants and scrub (R88–R94), remote reads and writes, credits and window
closes (R95–R106), and bank power (R112–R115).
-/
namespace Sys2Proof.Machine

/-! Grants of credits. -/

def Spad.grant (sp : Spad) (i : Nat) : Option Grant := SMap.get none sp.grants i
def Spad.setGrant (sp : Spad) (i : Nat) (g : Option Grant) : Spad := { sp with grants := SMap.set none sp.grants i g }
/-- The live grant that a write or a return names (R101, R102). -/
def Spad.liveGrant (sp : Spad) (r : GrantRef) : Option Grant :=
  match sp.grant r.index with
  | some g => if g.no = r.no then some g else none
  | none => none
/-- Live grants (R101). -/
def Spad.liveGrants (sp : Spad) : Nat := ((List.range 64).filter (fun i => (sp.grant i).isSome)).length
def Spad.freeGrant (sp : Spad) : Option Nat := (List.range 64).find? (fun i => (sp.grant i).isNone)

/-- `n` outstanding credits of grant `i` end: the window counts them back, and the grant's entry frees when none is
left (R101). -/
def Spad.releaseCredits (sp : Spad) (i n : Nat) : Spad :=
  match sp.grant i with
  | none => sp
  | some g =>
    let k := min n g.out
    let sp := sp.modWin g.win (fun x => if x.gen = g.gen then { x with creditsOut := x.creditsOut - k } else x)
    sp.setGrant i (if g.out ≤ k then none else some { g with out := g.out - k })

/-- The slots of a grant that have not been filled lose their reservation (R103, R104). -/
def Spad.unreserve (sp : Spad) (i : Nat) : Spad :=
  match sp.grant i with
  | none => sp
  | some g => g.slots.foldl (fun sp e => sp.modWin g.win (fun x =>
      if x.gen = g.gen then x.setReserved e.1 false else x)) sp

/-- All of a grant's credits end: at its expiry or when its sender returns them (R103, R104). -/
def Spad.endGrant (sp : Spad) (i : Nat) : Spad :=
  match sp.grant i with
  | none => sp
  | some g => (sp.unreserve i).releaseCredits i g.out

/-- A refused write or request is counted and recorded (R102). -/
def State.nack (s : State) (p off : Nat) (who : Requester) (cause : Nat) : State :=
  let s := s.bump (unitCore p) rSPAD_NACK_COUNT 0 32 1
  let r := match who with
    | .core g _ => 2 ^ 20 * (g % 2 ^ 14)
    | .edge e => 2 ^ 20 * e + 2 ^ 34
  s.setReg (unitCore p) rSPAD_NACK_LAST (off % 2 ^ 20 + r + 2 ^ 35 * cause + 2 ^ 63)

/-- R100: the writer is admitted to the window. -/
def Window.admits (x : Window) (who : Requester) : Bool :=
  match who with
  | .core g patch =>
    if x.coreMode = 0 then false
    else if x.coreMode = 1 then patch == x.patch
    else if x.coreMode = 2 then decide (x.coreLo ≤ g) && decide (g ≤ x.coreHi)
    else true
  | .edge e => bit x.edgeMask.toNat e

/-! Bank access. -/

/-- Bytes `off .. off + n - 1`, written under grant `gi`, land in channel slot `i` of window `w`: with its last byte
the slot is full and its credit is used (R101, R107). -/
def Spad.landIn (sp : Spad) (w gi off n i : Nat) : Spad :=
  match sp.grant gi with
  | none => sp
  | some g =>
    let x := sp.win w
    let lo := x.base + i * x.slotBytes
    let landed := SMap.get 0 g.slots i + (min (off + n) (lo + x.slotBytes) - max off lo)
    if landed ≥ x.slotBytes then
      let sp := sp.modWin w (fun x => (x.setFull i true).setReserved i false)
      (sp.setGrant gi (some { g with slots := SMap.del g.slots i })).releaseCredits gi 1
    else sp.setGrant gi (some { g with slots := SMap.put g.slots i landed })

/-- A remote write accepted at its bank is performed: it uses a credit of its grant, and the last byte granted in a
channel slot makes the slot full (R101, R104, R107). A multicast write gives its pool credit back. -/
def State.landRemote (s : State) (p off : Nat) (data : List Byte) (grant : Option GrantRef) (win : Option Nat)
    (err : EccErr) : State :=
  let s := s.spadWrite p off data (doubleAt err)
  let s := match grant with
    | none => s
    | some r =>
      match (s.spad p).liveGrant r with
      | none => s
      | some g =>
        let x := (s.spad p).win g.win
        if x.channel then
          s.modSpad p (fun sp =>
            (x.slotsAt off data.length).foldl (fun sp i => sp.landIn g.win r.index off data.length i) sp)
        else s.modSpad p (fun sp => sp.releaseCredits r.index 1)
  match win with
  | none => s
  | some w => s.modSpad p (fun sp => sp.modWin w (fun x => { x with creditsOut := x.creditsOut - 1 }))

/-- The scrub read of a bank's next line; an uncorrectable word stays and raises SPAD_SCRUB_UE (R94). -/
def State.scrubLine (s : State) (p b : Nat) (err : EccErr) : State :=
  let off := b * 0x10000 + ((s.spad p).bank b).scrubLine * 64
  let s := s.modBank p b (fun x => { x with
    scrubLine := (x.scrubLine + 1) % 1024, scrubDue := s.now + (if s.scrubbing (p / 50) then 1024 else 8192) })
  let s := s.eccRead p off 64 err true
  let bad := (wordsOf off 64).filter (s.spad p).isUe
  bad.foldl (fun s w => s.raiseCore p 0 .degraded 0x12 none w false) s

/-- A granted priority-6 request is performed at bank `b`; `err` is what the code of the line shows. -/
def State.performP6 (s : State) (p b : Nat) (r : BankReq) (err : EccErr) : State :=
  match r with
  | .localRead id off n =>
    let s := (s.touchPlain p false off n).eccRead p off n err false
    if (s.spad p).anyUe off n then s.replyLocal id stUncorrectable []
    else s.replyLocal id stOk ((s.spad p).read off n)
  | .localWrite id off data =>
    (((s.touchPlain p true off data.length).spadWrite p off data (doubleAt err)).uncover p off (off + 1)).replyLocal id stOk []
  | .remoteWrite id off data grant win =>
    (((s.landRemote p off data grant win err).reply id stOk []).settle p).uncover p off (off + 1)
  | .remoteRead id off n =>
    let s := s.eccRead p off n err false
    if (s.spad p).anyUe off n then s.reply id stUncorrectable []
    else s.reply id stOk ((s.spad p).read off n)
  | .scrub => s.scrubLine p b err

/-- The class of a priority-6 request: local DMA 0, remote write 1, remote read 2 (R89), scrub 3. DESIGN CHOICE (log 111): a
scrub that has waited 1,024 cycles takes its turn behind the three classes that R89 names. -/
def BankReq.cls : BankReq → Nat
  | .localRead .. => 0
  | .localWrite .. => 0
  | .remoteWrite .. => 1
  | .remoteRead .. => 2
  | .scrub => 3

/-- The scrub of the core is enabled (R94). -/
def State.scrubOn (s : State) (p : Nat) : Bool := bit (s.reg (unitCore p) rSPAD_CTRL) 0

/-- The requests of priority 6 that wait at a bank in cycle `t`; the scrub among them once it has waited 1,024 cycles (R90). -/
def Bank.waiting (b : Bank) (t : Nat) (scrub : Bool) : List BankReq :=
  b.p6 ++ (if scrub ∧ b.scrubDue + 1024 ≤ t then [.scrub] else [])

/-- The request round robin serves next: the first class from `p6next` on that waits, its oldest request (R89). -/
def Bank.nextP6 (b : Bank) (t : Nat) (scrub : Bool) : Option BankReq :=
  ([0, 1, 2, 3] : List Nat).findSome? (fun k => (b.waiting t scrub).find? (fun r => r.cls == (b.p6next + k) % 4))

/-- The clearing of a LAUNCHING slot wants this bank (R111): the slot. It begins once every bank of its segment is on. -/
def Core.clearing (c : Core) (b : Nat) : Option Nat :=
  (List.range 8).find? (fun i =>
    let sl := c.slot i
    match sl.mode, sl.load with
    | .launching, some l =>
      l.zero && decide (l.clearNext < l.seg.spadBase + l.seg.spadBound) && bankOf l.clearNext == b
        && (List.range 16).all (fun k =>
            !overlapsBank k l.seg.spadBase (l.seg.spadBase + l.seg.spadBound)
              || ((c.spad.bank k).on && (c.spad.bank k).pdOffAt.isNone))
    | _, _ => false)

/-- R50 step 5: the segments, g1 and g2, the program counter, the tokens and the flags are loaded; the slot is
READY. -/
def Slot.loaded (sl : Slot) (l : LaunchLoad) (now : Nat) : Slot :=
  { sl with
    seg := l.seg, regs := SMap.set 0 (SMap.set 0 [] 1 l.arg0) 2 l.arg1, pc := BitVec.ofNat 64 l.entry, tokens := [],
    fpFlags := 0, sat := false, mode := .ready, load := none, readyAt := now + 1, branchFrom := none, late := none,
    wait := .none, mem := none, yielding := false, opened := [] }

/-- One clearing write: 512 bytes of zeros with good codes; after the last one the launch is loaded (R88, R111). -/
def State.clearBlock (s : State) (p i : Nat) : State :=
  match (s.slot p i).load with
  | none => s
  | some l =>
    let s := s.modSpad p (fun sp => sp.write l.clearNext (zeros 512))
    let l := { l with clearNext := l.clearNext + 512 }
    if l.clearNext < l.seg.spadBase + l.seg.spadBound then s.modSlot p i (fun sl => { sl with load := some l })
    else s.modSlot p i (fun sl => sl.loaded l s.now)

/-- A priority-6 request is granted at a bank. -/
def State.grantP6 (s : State) (p b : Nat) (r : BankReq) (err : EccErr) : State :=
  (s.modBank p b (fun x => { x with p6 := x.p6.erase r, p6next := (r.cls + 1) % 4, p6wait := 0 })).performP6 p b r err

/-- The priority-6 requests at a bank wait for `n` bank cycles more. DESIGN CHOICE (log 112): one count per bank, of the
cycles since its last priority-6 grant. -/
def State.missP6 (s : State) (p b n : Nat) : State :=
  let scrub := s.scrubOn p
  s.modBank p b (fun x => { x with p6wait := if (x.waiting s.now scrub).isEmpty then 0 else x.p6wait + n })

/-- Bank `b` takes an access in the current cycle. -/
def State.takeBank (s : State) (p b : Nat) : State := s.modBank p b (fun x => { x with freeAt := s.now + 1 })

/-- The bank takes an access in the first cycle it can. -/
def State.useBank (s : State) (p b : Nat) : State := (s.advanceTo ((s.spad p).bank b).freeAt).takeBank p b

/-- The bank is powered and grants (R113). -/
def Bank.grants (b : Bank) : Bool := b.on && b.pdOffAt.isNone

/-! Remote accesses. -/

/-- The physical core, offset and requester of an access to a scratchpad. -/
def State.spadAccess (s : State) (id : Nat) : Option (Access × Nat × Nat × Requester) :=
  match s.access id with
  | none => none
  | some a =>
    if a.stage != .atTarget then none
    else
      match s.active.target a.addr with
      | some (.spad d l off) =>
        (s.active.coreIx d l).map (fun p => (a, p, off, .core ((s.gid a.core).getD 0x3FFF) a.patch))
      | _ => none

/-- The management die may write any offset of a core while `CORE_CTRL.LAUNCH_EN` is 0 (R95). -/
def State.mgmtMayWrite (s : State) (p : Nat) (who : Requester) : Bool :=
  who == .edge 9 && !bit (s.reg (unitCore p) rCORE_CTRL) 1

/-- R102: why a remote write of `n` bytes at `off` under a grant is refused: the cause code, and the window to mark. -/
def State.writeRefused (s : State) (p off n : Nat) (grant : Option GrantRef) : Option (Nat × Option Nat) :=
  let sp := s.spad p
  match grant with
  | none => some (if (sp.winAt off 1).isSome then 3 else 0, sp.winAt off 1)
  | some r =>
    let x := sp.win r.win
    if !x.isOpen then some (0, none)
    else if x.gen ≠ r.gen then some (3, some r.win)
    else
      match sp.liveGrant r with
      | none => some (3, some r.win)
      | some g =>
        if g.expireAt ≤ s.now then some (3, some r.win)
        else if ¬ (x.base ≤ off ∧ off + n ≤ x.base + x.bound) then some (1, some r.win)
        else none

/-- A refused remote write: the NACK, and the NACKED flag of its window when that is still open (R102). -/
def State.refuseWrite (s : State) (p off : Nat) (who : Requester) (cause : Nat) (w : Option Nat) : State :=
  let s := s.nack p off who cause
  match w with
  | none => s
  | some w => s.modSpad p (fun sp => sp.modWin w (fun x => if x.isOpen then x.mark s.now 2 else x))

/-- REMOTE_WRITE: a remote write arrives. Under a live grant it waits at its bank and is performed at its grant, once fewer than
eight writes wait there; else it is refused with a NACK and changes nothing else (R102). -/
def execRemoteWrite (acc : Nat) (s : State) : Res :=
  match s.spadAccess acc with
  | none => .next s
  | some (a, p, off, who) =>
    match a.kind with
    | .write data =>
      match s.writeRefused p off data.length a.grant with
      | none =>
        when ((s.core p).takesWrite (bankOf off)) s
          ((s.setAccess acc (some { a with stage := .requesting })).modBank p (bankOf off) (fun b =>
            { b with p6 := b.p6 ++ [.remoteWrite acc off data a.grant none] }))
      | some (cause, w) => .next ((s.refuseWrite p off who cause w).reply acc stWindowRefused [])
    | _ => .next s

/-- A remote read meets an off bank: zeros, and READ_OFF (R96). -/
def State.readOffBank (s : State) (p b : Nat) : State :=
  (s.modBank p b (fun x => { x with readOff := true })).noteHw (unitCore p) rSPAD_BANK_STATUS (2 ^ (48 + b)) 0

/-- REMOTE_READ: a remote read waits at its bank; an off bank answers zeros and remembers it (R96). -/
def execRemoteRead (acc : Nat) (s : State) : Res :=
  match s.spadAccess acc with
  | none => .next s
  | some (a, p, off, _) =>
    match a.kind with
    | .read n =>
      if ((s.spad p).bank (bankOf off)).on then
        .next ((s.setAccess acc (some { a with stage := .requesting })).modBank p (bankOf off) (fun b =>
          { b with p6 := b.p6 ++ [.remoteRead acc off n] }))
      else
        .next ((s.readOffBank p (bankOf off)).reply acc stOk (zeros n))
    | _ => .next s

/-! Credits (R104). -/

/-- Issue a grant of `n` credits of window `w` to a request. -/
def State.issueGrant (s : State) (p : Nat) (r : CreditReq) (w n : Nat) (slots : List Nat) : State :=
  let sp := s.spad p
  match sp.freeGrant with
  | none => s
  | some gi =>
    let x := sp.win w
    let ttl := field (s.reg (unitCore p) rSPAD_CREDIT_TTL) 0 10
    let g : Grant := { win := w, gen := x.gen, no := sp.grantNo, out := n, slots := slots.foldl (fun m i => SMap.put m i 0) [],
                       who := r.who, lo := r.off, hi := r.off + r.extent, expireAt := s.now + ttl * Config.cycUs }
    (s.modSpad p (fun sp => { (sp.setGrant gi (some g)) with grantNo := sp.grantNo + 1 })).answerCredit r.id
      (.grant ⟨gi, w, x.gen, sp.grantNo⟩ n)

/-- The channel slot that a held request of window `w` waits for (R104). -/
def Spad.awaits (sp : Spad) (w i : Nat) (q : CreditReq) : Bool :=
  sp.winAt q.off q.extent == some w && ((sp.win w).extentSlots q)[q.got]? == some i

/-- A request of a channel window reserves its slots in ascending order as far as they are empty and unreserved, and no
request of `first` waits for them. -/
def Spad.reserveMore (sp : Spad) (w : Nat) (first : List CreditReq) (r : CreditReq) : Spad × CreditReq :=
  let slots := ((sp.win w).extentSlots r).drop r.got
  let free := slots.takeWhile (fun i =>
    !(sp.win w).isFull i && !(sp.win w).isReserved i && !first.any (sp.awaits w i))
  let sp := free.foldl (fun sp i => sp.modWin w (fun x =>
    { (x.setReserved i true) with creditsOut := x.creditsOut + 1 })) sp
  (sp, { r with got := r.got + free.length })

/-- Serve a request at window `w` now: a grant, or `none` with what it has reserved so far while it must be held. `first` are
the requests held before it. -/
def State.serveCredit (s : State) (p w : Nat) (first : List CreditReq) (r : CreditReq) : Option State × State × CreditReq :=
  let x := (s.spad p).win w
  if x.channel then
    let (sp, r) := (s.spad p).reserveMore w first r
    let s := s.modSpad p (fun _ => sp)
    let slots := x.extentSlots r
    if r.got = slots.length ∧ sp.freeGrant.isSome then (some (s.issueGrant p r w slots.length slots), s, r)
    else (none, s, r)
  else
    let n := min r.want (x.credits - x.creditsOut)
    if n = 0 ∨ (s.spad p).freeGrant.isNone ∨ first.any (fun q => (s.spad p).winAt q.off q.extent == some w) then (none, s, r)
    else
      let s' := s.modSpad p (fun sp => sp.modWin w (fun x => { x with creditsOut := x.creditsOut + n }))
      (some (s'.issueGrant p r w n []), s, r)

/-- Why a request is refused when it arrives (R104): the cause code. -/
def Spad.requestRefused (sp : Spad) (r : CreditReq) : Option Nat :=
  match sp.winAt r.off r.extent with
  | none => some (if (sp.winAt r.off 1).isSome then 1 else 0)
  | some w =>
    let x := sp.win w
    if x.closing then some 4
    else if !x.admits r.who then some 2
    else if x.channel ∧ ¬ ((r.off - x.base) % x.slotBytes = 0 ∧ r.extent % x.slotBytes = 0 ∧ r.extent ≠ 0) then some 5
    else none

/-- CREDIT_REQUEST: a request arrives and is refused, told to retry, held or granted (R104). -/
def execCreditRequest (acc : Nat) (s : State) : Res :=
  match s.spadAccess acc with
  | none => .next s
  | some (a, p, off, who) =>
    match a.kind with
    | .creditReq extent want =>
      let r : CreditReq := { id := acc, who := who, off := off, extent := extent, want := want, got := 0 }
      let sp := s.spad p
      match sp.requestRefused r with
      | some cause => .next (((s.nack p off who cause).reply acc stOk []).answerCredit acc .refused)
      | none =>
        if sp.freeGrant.isNone ∨ 64 ≤ sp.hold.length then
          .next ((s.reply acc stOk []).answerCredit acc .retry)
        else
          match sp.winAt off extent with
          | none => .next s
          | some w =>
            let s := s.reply acc stOk []
            match s.serveCredit p w sp.hold r with
            | (some t, _, _) => .next t
            | (none, t, r') =>
              .next ((t.modSpad p (fun sp => { sp with hold := sp.hold ++ [r'] })).answerCredit acc .hold)
    | _ => .next s

/-- Walk the held requests in arrival order: the first that can be granted is, or that can reserve a further slot does; `before`
are those that come first. -/
def State.serveHeld (s : State) (p : Nat) : List CreditReq → List CreditReq → Option State
  | [], _ => none
  | r :: rs, before =>
    match (s.spad p).winAt r.off r.extent with
    | none => s.serveHeld p rs (before ++ [r])
    | some w =>
      match s.serveCredit p w before r with
      | (some t, _, _) => some (t.modSpad p (fun sp => { sp with hold := before ++ rs }))
      | (none, t, r') =>
        if r'.got > r.got then some (t.modSpad p (fun sp => { sp with hold := before ++ r' :: rs }))
        else s.serveHeld p rs (before ++ [r])

/-- GRANT_EXPIRY: at the end of its lifetime a grant's outstanding credits are as returned (R103). -/
def execGrantExpiry (c : CoreIx) (grant : Fin 64) (s : State) : Res :=
  match (s.spad c.val).grant grant.val with
  | none => .next s
  | some g => .next ((s.advanceTo g.expireAt).modSpad c.val (fun sp => sp.endGrant grant.val))

/-- CLOSE_COMPLETE: the last condition of a close holds (R104, R105, R110). -/
def execCloseComplete (c : CoreIx) (win : Fin 32) (s : State) : Res :=
  when ((s.spad c.val).closeReady win.val) s (s.completeClose c.val win.val)

/-! Bank power (R112–R115). -/

/-- A power-down request for each bank of `bs`; it waits (R113). -/
def State.requestDown (s : State) (p : Nat) (bs : List Nat) : State :=
  bs.foldl (fun s b => s.modBank p b (fun x =>
    if x.on ∧ x.pdSince.isNone ∧ x.pdOffAt.isNone then { x with pdSince := some s.now } else x)) s

/-- Banks of the core that are powering up. -/
def Core.poweringUp (c : Core) : Nat := ((List.range 16).filter (fun b => (c.spad.bank b).puDoneBy.isSome)).length

/-- Power-ups that wait their turn start: at most four banks of a core at a time, off banks only (R114). -/
def State.startPowerUps (s : State) (p : Nat) : State :=
  (List.range 16).foldl (fun s b =>
    let x := (s.spad p).bank b
    if x.puReq ∧ !x.on ∧ x.puDoneBy.isNone ∧ (s.core p).poweringUp < 4 then
      s.modBank p b (fun x => { x with puDoneBy := some (s.now + 2 * Config.cycUs) })
    else s) s

/-- A power-up request for each bank of `bs` (R114). -/
def State.requestUp (s : State) (p : Nat) (bs : List Nat) : State :=
  (bs.foldl (fun s b => s.modBank p b (fun x =>
    if x.on ∧ x.pdOffAt.isNone then x else { x with puReq := true })) s).startPowerUps p

/-- PD_REQ: a write of 1s to SPAD_BANK_PWR.PD_REQ (R113). -/
def execPdReq (c : CoreIx) (banks : BitVec 16) (s : State) : Res :=
  .next (s.requestDown c.val (bitsOf 16 banks.toNat))

/-- PU_REQ: a write of 1s to SPAD_BANK_PWR.PU_REQ (R114). -/
def execPuReq (c : CoreIx) (banks : BitVec 16) (s : State) : Res :=
  .next (s.requestUp c.val (bitsOf 16 banks.toNat))

/-- AUTO_POWER_DOWN: under AUTO_PD the power-down of a bank that has been uncovered and clear in KEEP for 100 µs is requested
(R113). -/
def execAutoPowerDown (c : CoreIx) (bank : Fin 16) (s : State) : Res :=
  let p := c.val
  let b := bank.val
  let r := s.reg (unitCore p) rSPAD_CTRL
  let x := (s.spad p).bank b
  if !(bit r 1) || bit r (16 + b) || (s.core p).covered b || !x.on || x.pdSince.isSome || x.pdOffAt.isSome then .next s
  else .next ((s.advanceTo (x.uncoveredAt + 100 * Config.cycUs)).requestDown p [b])

/-- BANK_POWER_DOWN: a waiting request proceeds once the bank is uncovered: the bank stops granting, and is off 64
cycles later with its contents lost (R113). A launch in the cycle of the request wins (R115), so the bank stops no earlier than in
the cycle after. DESIGN CHOICE (log 113): requests of priority 6 that wait then go on waiting until the bank is on again. What
an off bank's bytes hold is unseen: a remote read gets zeros (R96),
and power-up makes them zero (R114). -/
def execBankPowerDown (c : CoreIx) (bank : Fin 16) (s : State) : Res :=
  let p := c.val
  let b := bank.val
  let x := (s.spad p).bank b
  match x.pdOffAt with
  | some t =>
    let s := s.advanceTo t
    let s := s.modSpad p (fun sp =>
      { sp with
        bytes := SMap.drop (fun k => bankOf k == b) sp.bytes
        ue := SMap.drop (fun k => bankOf k == b) sp.ue })
    .next ((s.modBank p b (fun x => { x with on := false, pdOffAt := none, writeBacks := [], p6wait := 0 })).startPowerUps
      p)
  | none =>
    if x.on && x.pdSince.any (fun t => decide (t < s.now)) && !(s.core p).covered b then
      .next (s.modBank p b (fun x => { x with pdSince := none, pdOffAt := some (s.now + 64) }))
    else .next s

/-- POWER_DOWN_TIMEOUT: a request that has waited 100 µs is cancelled (R113). -/
def execPowerDownTimeout (c : CoreIx) (bank : Fin 16) (s : State) : Res :=
  let p := c.val
  let b := bank.val
  match ((s.spad p).bank b).pdSince with
  | none => .next s
  | some t =>
    let s := s.advanceTo (t + 100 * Config.cycUs)
    .next (((s.modBank p b (fun x => { x with pdSince := none, pdTimeout := true })).noteHw (unitCore p) rSPAD_BANK_STATUS
      (2 ^ (32 + b)) 0).raiseCore p 0 .info 0x13 none b false)

/-- Every bank that a segment overlaps is powered (R114). -/
def Core.banksOn (c : Core) (lo hi : Nat) : Bool :=
  (List.range 16).all (fun b => !overlapsBank b lo hi || ((c.spad.bank b).on && (c.spad.bank b).pdOffAt.isNone))

/-- A LAUNCHING slot whose banks are on and that clears nothing is loaded and READY (R50 steps 4 and 5, R114). -/
def State.tryLoad (s : State) (p i : Nat) : State :=
  let sl := s.slot p i
  match sl.mode, sl.load with
  | .launching, some l =>
    if (s.core p).banksOn l.seg.spadBase (l.seg.spadBase + l.seg.spadBound)
        ∧ ¬ (l.zero ∧ l.clearNext < l.seg.spadBase + l.seg.spadBound) then
      s.modSlot p i (fun sl => sl.loaded l s.now)
    else s
  | _, _ => s

/-- BANK_POWER_UP_DONE: the bank is on and reads as zero with good codes; launches that waited for it go on (R114). -/
def execBankPowerUpDone (c : CoreIx) (bank : Fin 16) (s : State) : Res :=
  let p := c.val
  let b := bank.val
  match ((s.spad p).bank b).puDoneBy with
  | none => .next s
  | some _ =>
    let s := s.modSpad p (fun sp =>
      { sp with
        bytes := SMap.drop (fun k => bankOf k == b) sp.bytes
        ue := SMap.drop (fun k => bankOf k == b) sp.ue })
    let s := s.modBank p b (fun x => { x with on := true, puReq := false, puDoneBy := none, uncoveredAt := s.now })
    let s := s.startPowerUps p
    .next ((List.range 8).foldl (fun s i => s.tryLoad p i) s)

end Sys2Proof.Machine
end

