-- ==== Sys2Proof/Machine/TpEngine.lean ====
section
/-!
DEFINITION. Engine issue (R43, R44, R74): what MXI, VXI and DXI share.
-/
namespace Sys2Proof.Machine

/-- An engine-issue instruction of opcode `op` (R74 steps 1 to 3): its descriptor address, a place in the queue and a FREE
token are checked, and the descriptor read waits at its bank. -/
def engineIssue (a : At) (op : Nat) (kind : MemKind) (rd ra : Reg) (imm : BitVec 16) (s : State) : Res :=
  let p := a.core.val
  let i := a.slot.val
  let sl := s.slot p i
  if sl.fetchInside 4 && (s.core p).engineWaits sl kind ra imm then .next s
  else
    tpIssue a 4 (encI op rd ra imm) true (fun s =>
      let sl := s.slot p i
      let ta := sl.reg ra + sext16 imm
      match sl.addrFault ta 64 with
      | some code => s.faultAt a code ta
      | none =>
        match sl.freeToken with
        | none => s.faultAt a fTokenExhausted ta
        | some _ => s.request p i kind rd 0 ta) s

/-- The bank grants the descriptor read of slot `i` (R74 steps 4 to 6). `fields`: the first pass of step 5; `operands`: the
second pass, the code and value of the first operand that fails; `enter`: the descriptor, its scratchpad offset and its token
enter the queue. DESIGN CHOICE (log 108): the read is a plain access (R109). -/
def State.grantEngine (s : State) (p i : Nat) (m : MemOp) (err : EccErr) (fields : State → List Byte → Bool)
    (operands : State → Slot → List Byte → Option (Nat × Word)) (enter : State → List Byte → Nat → Nat → State) : State :=
  let s := (s.touchPlain p false m.off 64).eccRead p m.off 64 err false
  if (s.spad p).anyUe m.off 64 then s.faultBack p i fSpadUncorrectable m.taskAddr
  else
    let sl := s.slot p i
    let d := (s.spad p).read m.off 64
    if !fields s d then s.faultBack p i fDescriptorInvalid m.taskAddr
    else
      match operands s sl d, sl.freeToken with
      | some (code, v), _ => s.faultBack p i code v
      | none, none => s.faultBack p i fTokenExhausted m.taskAddr
      | none, some t =>
        let s := (s.modSlot p i (fun sl => sl.setToken t .busy)).endRead p i m.rd (BitVec.ofNat 64 t)
        enter s d m.off t

/-- The parts of a queued matrix or vector descriptor. -/
def State.engDesc (s : State) (p i : Nat) (d : List Byte) (off t : Nat) : EngDesc :=
  let sl := s.slot p i
  { slot := i, token := t, tick := sl.tick, att := sl.att, raw := d, off := off,
    spadBase := sl.seg.spadBase, spadBound := sl.seg.spadBound, pos := 0, got := [], group := 0, finished := none,
    flags := 0, qovf := false }

/-- A range of the task's scratchpad segment (R40): SPAD_BOUND with its address when it is outside. -/
def Slot.spadOperand (sl : Slot) (x n : Nat) : Option (Nat × Word) :=
  if x + n ≤ sl.seg.spadBound then none else some (fSpadBound, BitVec.ofNat 64 x)

/-- The first operand that fails. -/
def firstFault : List (Option (Nat × Word)) → Option (Nat × Word)
  | [] => none
  | some f :: _ => some f
  | none :: l => firstFault l

end Sys2Proof.Machine
end

