-- ==== Sys2Proof/Machine/DmaOps.lean ====
section
/-!
DEFINITION. DMA descriptors (R41, R48, R214, R510): their fields, the resolution of their operands, what R260 holds, and
the accesses an engine issues for them (R509).
-/
namespace Sys2Proof.Machine

/-! Address classes. -/

/-- The panel space of an address (R10). -/
def space (a : Nat) : Nat := field a 44 4
/-- A register space: 0x2, 0x3, or 0x4. -/
def isRegAddr (a : Nat) : Bool := decide (2 ≤ space a) && decide (space a ≤ 4)
/-- `COLL_POST` of a die (R292). -/
def isCollPost (a : Nat) : Bool := space a == 3 && field a 0 24 == rCOLL_POST
/-- `VLNK_XPOST` of a link die (R324). -/
def isXpost (a : Nat) : Bool := space a == 4 && decide (field a 40 4 < 8) && field a 0 40 == rVLNK_XPOST
/-- A word of `WCTX_DONE_SET` on edge die 8 (R267): the number of the word. -/
def doneWord (a : Nat) : Option Nat :=
  let o := field a 0 40
  if space a = 4 ∧ field a 40 4 = 8 ∧ 0x01040000 ≤ o ∧ o < 0x01040200 then some ((o - 0x01040000) / 4) else none

/-! The fields (R48). -/

def dmaOp (d : List Byte) : Nat := field (leAt d 0 1) 0 4
def dmaSrcMode (d : List Byte) : Nat := field (leAt d 1 1) 0 2
def dmaDstMode (d : List Byte) : Nat := field (leAt d 1 1) 2 2
def dmaGroup (d : List Byte) : Nat := leAt d 2 2
def dmaLen (d : List Byte) : Nat := leAt d 4 4
def dmaSrc (d : List Byte) : Nat := leAt d 8 8
def dmaDst (d : List Byte) : Nat := leAt d 16 8
def dmaRows (d : List Byte) : Nat := if dmaOp d = 1 then leAt d 24 4 else 1
def dmaSrcStride (d : List Byte) : Nat := leAt d 28 4
def dmaDstStride (d : List Byte) : Nat := leAt d 32 4

/-! Multicast groups (R213). -/

/-- The entry of a group in a set. -/
def ConfigSet.group (c : ConfigSet) (g : Nat) : List Byte :=
  if g = 0 ∨ g > c.count 12 then zeros 32 else c.entry 12 (g - 1) 32

/-- The targets in order: global logical core IDs for KIND 0, logical dies for KIND 1. -/
def groupTargets (g : List Byte) : List Nat :=
  let dies := bitsOf 192 (leAt g 0 24)
  if bit (leAt g 30 1) 0 then dies
  else
    let cores := bitsOf 48 (leAt g 24 6)
    dies.flatMap (fun d => cores.map (fun c => d * 48 + c))

def groupKind (g : List Byte) : Nat := field (leAt g 30 1) 0 1
def groupValid (g : List Byte) : Bool := bit (leAt g 30 1) 1

/-- The miss bitmap's size (R214). -/
def missBytes (n : Nat) : Nat := 2 * ceilDiv n 64 * 8

/-- R214 for an MCAST descriptor. -/
def mcastOk (s : State) (d : List Byte) : Bool :=
  let g := s.active.group (dmaGroup d)
  let dst := dmaDst d
  let o := if groupKind g = 0 then field dst 0 20 else field dst 0 34
  groupValid g && !(groupTargets g).isEmpty && dmaDstMode d == 2
    && (if groupKind g = 0 then decide (dst = 2 ^ 44 + o) && decide (o + dmaLen d ≤ Config.spadSize)
        else decide (dst = o) && decide (o + dmaLen d ≤ Config.dramSize))
    && o % 64 == 0 && dmaLen d % 64 == 0

/-- The first pass of R74 step 5 for a DMA descriptor (R48, R214, R510). -/
def dmaFieldsOk (s : State) (d : List Byte) : Bool :=
  let op := dmaOp d
  let regOperand := fun mode x => mode == 2 && isRegAddr x
  decide (op < 4) && field (leAt d 0 1) 4 4 == 0 && field (leAt d 1 1) 5 3 == 0
    && (op == 3 || dmaGroup d == 0) && decide (1 ≤ dmaLen d) && decide (dmaLen d ≤ 0x1000000)
    && decide (dmaSrc d < 2 ^ 48) && (op != 2 || dmaSrc d == 0) && decide (dmaDst d < 2 ^ 48)
    && (if op = 1 then decide (1 ≤ leAt d 24 4) && decide (leAt d 24 4 ≤ 65536) else zeroAt d 24 12)
    && (op == 2 || zeroAt d 36 4) && zeroAt d 40 8 && (op == 3 || zeroAt d 48 4) && zeroAt d 52 4 && zeroAt d 60 4
    && (op == 2 || dmaSrcMode d != 3) && dmaDstMode d != 3
    && (op != 3 || mcastOk s d)
    && (op == 2 || !regOperand (dmaSrcMode d) (dmaSrc d)
        || (op == 0 && dmaSrc d % 4 == 0 && dmaLen d % 4 == 0))
    && (!regOperand (dmaDstMode d) (dmaDst d)
        || ((op == 0 || op == 2) && dmaDst d % 4 == 0 && dmaLen d % 4 == 0))

/-- The extent of an operand (R41). -/
def dmaExtent (d : List Byte) (stride : Nat) : Nat := (dmaRows d - 1) * (if dmaOp d = 1 then stride else 0) + dmaLen d

/-- R41: why an operand is refused at issue. -/
def State.dmaOperand (s : State) (sl : Slot) (mode x n : Nat) : Option (Nat × Word) :=
  let v := BitVec.ofNat 64 x
  if mode = 0 then sl.spadOperand x n
  else if mode = 1 then if x + n ≤ sl.seg.dramBound then none else some (fDramBound, v)
  else if !sl.abs then some (fAbsDenied, v)
  else if s.active.refused x n then some (fAddressError, v)
  else none

/-- The second pass of R74 step 5: SRC, DST, MISS_OFFSET. -/
def dmaOperands (s : State) (sl : Slot) (d : List Byte) : Option (Nat × Word) :=
  firstFault
    [ if dmaOp d = 2 then none
      else s.dmaOperand sl (dmaSrcMode d) (dmaSrc d) (dmaExtent d (dmaSrcStride d)),
      s.dmaOperand sl (dmaDstMode d) (dmaDst d) (dmaExtent d (dmaDstStride d)),
      if dmaOp d = 3 then
        sl.spadOperand (leAt d 48 4) (missBytes (groupTargets (s.active.group (dmaGroup d))).length)
      else none ]

/-- R41: the resolved panel address. -/
def State.dmaResolve (s : State) (p : Nat) (sl : Slot) (mode x : Nat) : Nat :=
  if mode = 0 then
    let g := (s.gid p).getD 0
    spadAddr (g / 48) (g % 48) (sl.seg.spadBase + x)
  else if mode = 1 then sl.seg.dramBase + x
  else x

/-! What R260 holds of run-ahead work. -/

/-- The write lies wholly inside one entry of the run-ahead range table that lets tick `tick` write it. -/
def ConfigSet.runAheadRange (c : ConfigSet) (tick a n : Nat) : Bool :=
  c.raTable.any (fun r =>
    let base := r.die * 2 ^ 36 + r.basePg * 4096
    decide (base ≤ a) && decide (a + n ≤ base + r.pages * 4096)
      && (r.kind == 1 || (r.kind == 2 && r.slot == tick % 3)))

/-- A DMA write of a run-ahead task of tick `tick` that must wait for the commit before it. -/
def State.holdsWrite (s : State) (tick op dst n : Nat) (group : List Byte) : Bool :=
  if op = 3 then
    groupKind group == 1
      && (groupTargets group).any (fun d => !s.active.runAheadRange tick (d * 2 ^ 36 + dst % 2 ^ 34) n)
  else if space dst = 1 then false
  else if space dst = 0 then !s.active.runAheadRange tick dst n
  else (doneWord dst).isNone

/-- The DMA operation of an OP code. -/
def dmaOpOf (k : Nat) : DmaOp := if k = 0 then .copy else if k = 1 then .copy2d else if k = 2 then .fill else .mcast

/-- The descriptor that enters the queue. -/
def State.dmaDesc (s : State) (p i : Nat) (d : List Byte) (off t : Nat) : DmaDesc :=
  let sl := s.slot p i
  let g := s.active.group (dmaGroup d)
  let op := dmaOp d
  let dst := s.dmaResolve p sl (dmaDstMode d) (dmaDst d)
  { id := (s.core p).dma.nextId, slot := i, token := t, tick := sl.tick, att := sl.att, patch := sl.patch,
    op := dmaOpOf op, fence := bit (leAt d 1 1) 4,
    src := if op = 2 then 0 else s.dmaResolve p sl (dmaSrcMode d) (dmaSrc d), dst := dst, length := dmaLen d,
    rows := dmaRows d, srcStride := dmaSrcStride d, dstStride := dmaDstStride d,
    pattern := BitVec.ofNat 32 (leAt d 36 4), group := if op = 3 then g else [],
    missOff := sl.seg.spadBase + leAt d 48 4, off := off,
    held := sl.runahead && s.holdsWrite sl.tick op dst (dmaExtent d (dmaDstStride d)) g,
    started := false, stopped := false, row := 0, col := 0, outstanding := 0, failed := none, credit := .none,
    targets := [], sentLines := 0, resendAt := 0, resending := false, valiant := false, finished := none,
    gather := [], writeCol := 0, owed := [], hash := 0 }

def Core.modDma (c : Core) (f : Dma → Dma) : Core := { c with dma := f c.dma }
def State.modDma (s : State) (p : Nat) (f : Dma → Dma) : State := s.modCore p (fun c => c.modDma f)

/-- DXI (R74). -/
def execDxi (a : At) (rd ra : Reg) (imm : BitVec 16) (s : State) : Res := engineIssue a 0x2A .dxi rd ra imm s

/-- The bank grants the descriptor read of a DXI; a descriptor that R260 holds waits with its slot until the tick before it
commits. -/
def State.grantDxi (s : State) (p i : Nat) (m : MemOp) (err : EccErr) : State :=
  s.grantEngine p i m err dmaFieldsOk dmaOperands (fun s d off t =>
    let x := s.dmaDesc p i d off t
    let s := s.modDma p (fun m => { m with nextId := m.nextId + 1 })
    if x.held then
      ((s.modDma p (fun m => { m with waiting := m.waiting ++ [x] })).modSlot p i (fun sl =>
        { sl with mode := .waiting, wait := .held (.dxi m.rd t) })).countHeld
    else s.modDma p (fun m => { m with queue := m.queue ++ [x] }))

/-! The queue. -/

/-- A descriptor in the queue, or a cancelled one whose last accesses are under way (R54). -/
def Dma.find (m : Dma) (id : Nat) : Option DmaDesc := (m.queue ++ m.stopping).find? (fun d => d.id == id)
def State.dmaFind (s : State) (p id : Nat) : Option DmaDesc := (s.core p).dma.find id
def State.modDesc (s : State) (p id : Nat) (f : DmaDesc → DmaDesc) : State :=
  let g := fun d => if d.id = id then f d else d
  s.modDma p (fun m => { m with queue := m.queue.map g, stopping := m.stopping.map g })

/-- R43, R48 FENCE: the descriptor may start. -/
def Dma.mayStart (m : Dma) (d : DmaDesc) : Bool :=
  let before := m.queue.takeWhile (fun e => e.id != d.id)
  !d.started && before.all (fun e => e.started)
    && decide ((m.queue.filter (fun e => e.started && e.finished.isNone)).length < 4)
    && (!d.fence || !before.any (fun e => e.slot == d.slot))

/-! Packets and Valiant (R204). -/

/-- Flits of the VC 0, 1 and 7 buffers of a router (R219). A multicast line held for several branches is one flit. -/
def State.routerDepth (s : State) (site r : Nat) : Nat :=
  let ps := s.mesh.packets.filterMap (fun e => match e.2 with
    | some x => if x.place = .router site r ∧ (x.vc = 0 ∨ x.vc = 1 ∨ x.vc = 7) then some x else none
    | none => none)
  ((ps.filter (fun x => x.vc != 7)).map Packet.flits).sum
    + ((ps.filter (fun x => x.vc == 7)).map Packet.cargo).eraseDups.length

/-- R204: the descriptor's packets use Valiant routing. -/
def State.chooseValiant (s : State) (p : Nat) : Bool :=
  let mode := s.rwt (unitCore p) rMESH_CORE_CFG 0 2
  mode == 1 || (mode == 2
    && decide (s.rwt (unitDie (p / 50)) rMESH_DIE_CFG 18 7 ≤ s.routerDepth (p / 50) (p % 50)))

/-! Accesses. -/

/-- A new access of descriptor `d`; its request leaves for its target, or waits at a bank of the core's own
scratchpad. An access that R11 refuses is answered with ADDRESS_ERROR. -/
def State.issueAccess (s : State) (p : Nat) (d : DmaDesc) (row col : Nat) (kind : AccessKind) (addr : Nat)
    (grant : Option GrantRef) : State :=
  let id := s.mesh.nextAccess
  let a : Access := { core := p, desc := d.id, row := row, col := col, kind := kind, addr := addr, patch := d.patch,
                      tick := d.tick, att := d.att, grant := grant, stage := .requesting, injectedAt := s.now, status := stOk, data := [],
                      answer := none, valiant := false }
  let s := { (s.setAccess id (some a)) with mesh := { (s.setAccess id (some a)).mesh with nextAccess := id + 1 } }
  let g := (s.gid p).getD 0
  match s.active.target addr, kind with
  | some (.spad die l off), .read n =>
    if die * 48 + l = g then
      s.modBank p (bankOf off) (fun b => { b with p6 := b.p6 ++ [.localRead id off n] })
    else s.sendRequest id a none
  | some (.spad die l off), .write w =>
    if die * 48 + l = g then
      s.modBank p (bankOf off) (fun b => { b with p6 := b.p6 ++ [.localWrite id off w] })
    else s.sendRequest id a none
  | none, _ => s.setAccess id (some { a with stage := .replied, status := stAddressError })
  | some t, _ =>
    let far := match t with
      | .dram die _ => if die = g / 48 then none else some die
      | .spad die _ _ => if die = g / 48 then none else some die
      | .coreReg die _ _ => if die = g / 48 then none else some die
      | .dieReg die _ => if die = g / 48 then none else some die
      | _ => none
    match far with
    | some die =>
      if d.valiant then
        let (mid, s) := s.drawMid p (g / 48) die
        (s.setAccess id (some { a with valiant := mid.isSome })).sendRequest id a mid
      else s.sendRequest id a none
    | none => s.sendRequest id a none

/-- Source and destination address of a place in transfer order. -/
def DmaDesc.srcAt (d : DmaDesc) (row col : Nat) : Nat := d.src + row * d.srcStride + col
def DmaDesc.dstAt (d : DmaDesc) (row col : Nat) : Nat := d.dst + row * d.dstStride + col

/-- The descriptor is a post: one 64-byte write (R292, R324). -/
def DmaDesc.isPost (d : DmaDesc) : Bool :=
  (isCollPost d.dst || isXpost d.dst) && d.op == .copy && d.length == 64

/-- An operand lies in a register space: its accesses are made one at a time, in ascending order (R510). A post is one. -/
def DmaDesc.byRegister (d : DmaDesc) : Bool :=
  (d.op != .fill && isRegAddr d.src) || isRegAddr d.dst

/-- Bytes of the access at address `x` of one operand, with `rest` bytes to go (R183, R198, R510): within one 64-byte line,
and by 8 or 4 bytes in a register space. -/
def accessSize (x rest : Nat) : Nat :=
  if isRegAddr x then if x % 8 = 0 ∧ 8 ≤ rest then 8 else 4 else min rest (64 - x % 64)

/-- Bytes of the write at a place: a post is one write of 64. -/
def DmaDesc.writeSize (d : DmaDesc) (row col : Nat) : Nat :=
  if d.isPost then 64 else accessSize (d.dstAt row col) (d.length - col)

/-- Bytes of the read, or of a FILL's write, at a place: within one 64-byte line of either side, and as R510 says in a
register space. -/
def DmaDesc.chunk (d : DmaDesc) (row col : Nat) : Nat :=
  let w := d.writeSize row col
  if d.op = .fill then w
  else
    let r := accessSize (d.srcAt row col) (d.length - col)
    if d.byRegister then r else min w r

/-- The writes that `n` bytes from a place on take. -/
def DmaDesc.writesIn (d : DmaDesc) : Nat → Nat → Nat → Nat → Nat
  | 0, _, _, _ => 0
  | fuel + 1, row, col, n =>
    if n = 0 then 0
    else
      let k := max 1 (d.writeSize row col)
      1 + d.writesIn fuel row (col + k) (n - min k n)

/-- The first offset of the write that the byte at a place belongs to. -/
def DmaDesc.unitStart (d : DmaDesc) (row col : Nat) : Nat := col - min col (d.dstAt row col % 64)

/-- Bytes read and not yet written. -/
def DmaDesc.put (d : DmaDesc) (row col : Nat) (bs : List Byte) : DmaDesc :=
  { d with gather := SMap.setRange none d.gather (row * 2 ^ 25 + col) (bs.map some) }
def DmaDesc.gathered (d : DmaDesc) (row col n : Nat) : Option (List Byte) :=
  let l := SMap.getRange none d.gather (row * 2 ^ 25 + col) n
  if l.all (·.isSome) then some (l.map (·.getD 0)) else none
def DmaDesc.drop (d : DmaDesc) (row col n : Nat) : DmaDesc :=
  { d with gather := SMap.setRange none d.gather (row * 2 ^ 25 + col) (List.replicate n none) }

/-- A write of the descriptor to this address needs a credit: it goes to another core's scratchpad. -/
def State.needsCredit (s : State) (p dst : Nat) : Option Nat :=
  match s.active.target dst with
  | some (.spad die l _) => if some (die * 48 + l) = s.gid p then none else s.active.coreIx die l
  | _ => none

/-- The descriptor holds a credit for a write of `n` bytes at `a`. -/
def CreditState.covers (c : CreditState) (a n : Nat) : Option GrantRef :=
  match c with
  | .granted g left lo hi => if 0 < left ∧ lo ≤ a ∧ a + n ≤ hi then some g else Option.none
  | _ => Option.none

def CreditState.use (c : CreditState) : CreditState :=
  match c with
  | .granted g left lo hi => .granted g (left - 1) lo hi
  | c => c

/-- The bytes FILL writes at a place. -/
def DmaDesc.fillBytes (d : DmaDesc) (col n : Nat) : List Byte :=
  (List.range n).map (fun k => (leBytes 4 d.pattern.toNat).getD ((col + k) % 4) 0)

/-- Transfer order (R509): one place before another. -/
def placeLt (a b : Nat × Nat) : Bool := decide (a.1 < b.1) || (a.1 == b.1 && decide (a.2 < b.2))

/-- A failed access of the descriptor: the earliest in transfer order decides, and no further access is issued. -/
def DmaDesc.fail (d : DmaDesc) (row col : Nat) (st : Status) : DmaDesc :=
  { d with
    stopped := true
    failed := match d.failed with
      | none => some (row, col, st)
      | some (r, c, x) => if placeLt (row, col) (r, c) then some (row, col, st) else some (r, c, x) }

/-- Every access of a COPY, COPY2D or FILL is issued and answered: its status is known (R509). -/
def DmaDesc.settle (d : DmaDesc) : DmaDesc :=
  if d.finished.isNone && d.started && d.outstanding == 0 && d.op != .mcast
      && (d.stopped || (decide (d.rows ≤ d.row) && d.gather.isEmpty)) then
    { d with finished := some (match d.failed with
        | some (_, _, st) => st
        | none => stOk) }
  else d

/-- The place behind an access of `n` bytes. -/
def DmaDesc.step (d : DmaDesc) (n : Nat) : DmaDesc :=
  if d.col + n < d.length then { d with col := d.col + n } else { d with row := d.row + 1, col := 0 }

/-- A credit that `grant` gave for a write at `dst` goes unused (R104). -/
def State.owe (s : State) (p id dst : Nat) (grant : Option GrantRef) : State :=
  match grant, s.needsCredit p dst with
  | some g, some q => s.modDesc p id (fun d => { d with owed := if d.owed.contains (q, g) then d.owed else d.owed ++ [(q, g)] })
  | _, _ => s

/-- The grants of which a descriptor has credits to return, with their target core. -/
def State.unused (s : State) (p : Nat) (d : DmaDesc) : List (Nat × GrantRef) :=
  match d.credit with
  | .granted g left lo _ =>
    match s.needsCredit p lo with
    | some q => if left = 0 ∨ d.owed.contains (q, g) then d.owed else d.owed ++ [(q, g)]
    | none => d.owed
  | _ => d.owed

/-- The credits a descriptor still holds are to be returned (R104): the records that CREDIT_RETURN acts on. -/
def State.creditsDue (s : State) (p : Nat) (d : DmaDesc) : State :=
  let due := (s.unused p d).map (fun (e : Nat × GrantRef) =>
    ({ desc := d.id, outstanding := d.outstanding, target := e.1, ref := e.2 } : CreditDue))
  (s.modDma p (fun m => { m with returns := m.returns ++ due })).modDesc p d.id (fun d => { d with owed := [] })

/-- The next credit request of a descriptor: `n` bytes from offset `col` of its row on. -/
def State.askCredit (s : State) (p : Nat) (d : DmaDesc) (col n : Nat) : State :=
  let want := max 1 (min 64 (d.writesIn 130 d.row col n))
  let lo := d.dstAt d.row col
  ((s.creditsDue p d).modDesc p d.id (fun d => { d with credit := .asked lo n want })).issueAccess p d d.row col (.creditReq n want)
    lo none

/-- A write of `n` bytes at offset `col` of the current row may go out: under the grant it needs, if any; else a credit
request does, at most for 4,096 bytes. -/
def State.withCredit (s : State) (p : Nat) (d : DmaDesc) (col n : Nat) (go : State → Option GrantRef → State) : State :=
  match s.needsCredit p (d.dstAt d.row col) with
  | none => go s none
  | some _ =>
    match d.credit.covers (d.dstAt d.row col) n with
    | some g => go (s.modDesc p d.id (fun d => { d with credit := d.credit.use })) (some g)
    | none =>
      match d.credit with
      | .asked .. => s
      | .retryAt .. => s
      | _ => s.askCredit p d col (min 4096 (d.length - col))

/-- Count an access as issued. -/
def DmaDesc.issued (d : DmaDesc) : DmaDesc := { d with outstanding := d.outstanding + 1 }

/-- The source read at the descriptor's place. -/
def State.issueRead (s : State) (p : Nat) (d : DmaDesc) (grant : Option GrantRef) : State :=
  let n := d.chunk d.row d.col
  (s.modDesc p d.id (fun d => (d.step n).issued)).issueAccess p d d.row d.col (.read n) (d.srcAt d.row d.col) grant

/-- The reads of one write: those of a destination line go out together. -/
def State.issueUnit : Nat → State → Nat → Nat → Option GrantRef → State
  | 0, s, _, _, _ => s
  | fuel + 1, s, p, id, grant =>
    match s.dmaFind p id with
    | none => s
    | some d =>
      let s := s.issueRead p d grant
      match s.dmaFind p id with
      | none => s
      | some d' =>
        if d'.row = d.row ∧ d'.unitStart d'.row d'.col ≠ d'.col then s.issueUnit fuel p id grant else s

/-- The next access of a copy with an operand in a register space: the next write whose bytes have come, else the next read; one
at a time. -/
def State.issueByRegister (s : State) (p : Nat) (d : DmaDesc) : State :=
  if d.outstanding != 0 then s
  else
    let n := d.writeSize 0 d.writeCol
    match (if d.writeCol < d.length then d.gathered 0 d.writeCol n else none) with
    | some bs =>
      s.withCredit p { d with row := 0 } d.writeCol n (fun s grant =>
        (s.modDesc p d.id (fun d => { (d.drop 0 d.writeCol n).issued with writeCol := d.writeCol + n })).issueAccess p d 0
          d.writeCol (.write bs) (d.dstAt 0 d.writeCol) grant)
    | none => if d.rows ≤ d.row then s else s.issueRead p d none

/-- The descriptor issues its next access (R509): a credit request, the source reads of a write, or a FILL's write. -/
def State.issueNext (s : State) (p : Nat) (d : DmaDesc) : State :=
  if d.stopped then s
  else if d.op != .fill && d.byRegister then s.issueByRegister p d
  else if d.rows ≤ d.row || (d.byRegister && d.outstanding != 0) then s
  else
    let n := d.writeSize d.row d.col
    s.withCredit p d d.col n (fun s grant =>
      if d.op = .fill then
        (s.modDesc p d.id (fun d => (d.step n).issued)).issueAccess p d d.row d.col (.write (d.fillBytes d.col n))
          (d.dstAt d.row d.col) grant
      else s.issueUnit 2 p d.id grant)

/-- A COPY, COPY2D or FILL command of descriptor `id` of operation `op`: it starts when it may, and issues its next
access. -/
def dmaRun (op : DmaOp) (c : CoreIx) (id : Nat) (s : State) : Res :=
  let p := c.val
  match s.dmaFind p id with
  | none => .next s
  | some d =>
    if d.op != op || d.finished.isSome || s.coreDown p then .next s
    else if !d.started && !(s.core p).dma.mayStart d then .next s
    else
      let s := if d.started then s
        else s.modDesc p id (fun d => { d with started := true, valiant := s.chooseValiant p })
      match s.dmaFind p id with
      | none => .next s
      | some d => .next (s.issueNext p d)

end Sys2Proof.Machine
end

