-- ==== Sys2Proof/Machine/MeshDist.lean ====
section
/-!
DEFINITION. Moves inside a die (R203) and the distances of `MESH_DIST` (R30).
-/
namespace Sys2Proof.Machine

/-- The output port a packet at router `r` takes: towards its exit, or for the local exit (4) along X and then along Y
to router `t` (R203). -/
def nextPort (r exit t : Nat) : Nat :=
  if exit < 4 then exit
  else if coreX r < coreX t then 2
  else if coreX t < coreX r then 3
  else if coreY r < coreY t then 1
  else if coreY t < coreY r then 0
  else 4

/-- The router beyond port `q` of router `r`; `none` when the port faces the die edge (R197). -/
def nextRouter (r q : Nat) : Option Nat :=
  if q = 0 then (if 0 < coreY r then some (r - 5) else none)
  else if q = 1 then (if coreY r < 9 then some (r + 5) else none)
  else if q = 2 then (if coreX r < 4 then some (r + 1) else none)
  else if q = 3 then (if 0 < coreX r then some (r - 1) else none)
  else none

/-- The router that faces router `r` across the seam at an exit (R199). -/
def facing (r exit : Nat) : Nat :=
  if exit = 0 then 45 + coreX r else if exit = 1 then coreX r
  else if exit = 2 then coreY r * 5 else coreY r * 5 + 4

/-- Router hops from `r` to the edge of an exit (R203). -/
def edgeHops (r exit : Nat) : Nat :=
  if exit = 0 then coreY r else if exit = 1 then 9 - coreY r else if exit = 2 then 4 - coreX r else coreX r

/-- Router hops between two routers of a die. -/
def dieHops (a b : Nat) : Nat :=
  (max (coreX a) (coreX b) - min (coreX a) (coreX b)) + (max (coreY a) (coreY b) - min (coreY a) (coreY b))

/-- The router at the edge of an exit that a packet from router `r` leaves by. -/
def edgeRouter (r exit : Nat) : Nat :=
  if exit = 0 then coreX r else if exit = 1 then 45 + coreX r
  else if exit = 2 then coreY r * 5 + 4 else coreY r * 5

/-- Router hops and seam hops of the table route from router `r` of node `v` to the die or edge die of route target `t`
(R30, R513); `none` is unreachable. -/
def ConfigSet.walk (c : ConfigSet) (t : Nat) : Nat → Nat → Nat → Option (Nat × Nat)
  | 0, _, _ => none
  | fuel + 1, v, r =>
    let e := (c.route v t).1
    if e = 4 then some (0, 0)
    else if e = 7 then none
    else
      match (exitsOf v).find? (fun x => x.1 == e) with
      | none => none
      | some (_, w, _) =>
        let rest := if w ≥ 204 then (if c.routeNode t = some w then some (0, 0) else c.walk t fuel w 0)
          else c.walk t fuel w (if v < 204 then facing r e else 0)
        rest.map (fun x => (x.1 + (if v < 204 then edgeHops r e else 0), x.2 + 1))

/-- HOPS and UNLOADED of `MESH_DIST[core][t]` of logical die `d` (R30). -/
def ConfigSet.dist (c : ConfigSet) (d core t : Nat) : Nat × Nat :=
  match c.phys d core, c.site d with
  | some r, some site =>
    if t < 8 then (dieHops r (portRouter t), 2 * dieHops r (portRouter t))
    else if t < 210 then
      match c.walk (t - 8) 220 site r with
      | none => (0xFF, 0)
      | some (a, b) => (min 0xFF (a + b), min 0xFFF (2 * a + 8 * b))
    else (0, 0)
  | _, _ => if t < 210 then (0xFF, 0) else (0, 0)

end Sys2Proof.Machine
end

