-- ==== Sys2Proof/Machine/TelOps.lean ====
section
/-!
DEFINITION. The telemetry accumulators (R477, R482), operating hours, and the alteration log (R422).
-/
namespace Sys2Proof.Machine

/-- The bin of a sample (R482). -/
def telBin (v : Nat) : Nat := min 15 (Nat.log2 v)

/-- A sample joins a record, in bin `b`. -/
def TelRec.addBin (r : TelRec) (v : Int) (b : Nat) : TelRec :=
  { min := if r.count = 0 then v else Min.min r.min v
    max := if r.count = 0 then v else Max.max r.max v
    count := satAdd 64 r.count 1
    bins := SMap.set 0 r.bins b (satAdd 32 (SMap.get 0 r.bins b) 1) }

/-- Keys of the records: mesh read latency, DRAM port latency and barrier wait of a site, commit latency, and the
slack of a patch. -/
def telMesh (site : Nat) : Nat := 100 * site
def telPort (site q : Nat) : Nat := 100 * site + 1 + q
def telBar (site : Nat) : Nat := 100 * site + 9
def telCommit : Nat := 100000
def telSlack (g : Nat) : Nat := 200000 + g

/-- A sample of an accumulator record. -/
def State.telSampleAt (s : State) (key : Nat) (v : Int) (b : Nat) : State :=
  let r := (SMap.get TelRec.empty s.tel.acc.recs key).addBin v b
  let recs := SMap.set TelRec.empty s.tel.acc.recs key r
  { s with tel := { s.tel with acc := { s.tel.acc with recs := recs } } }

def State.telSample (s : State) (key v : Nat) : State := s.telSampleAt key v (telBin v)

/-- The accumulator word at a register key. -/
def State.telWord (s : State) (key : Nat) : Nat := SMap.get 0 s.tel.acc.words key
def State.telSet (s : State) (key v : Nat) : State :=
  { s with tel := { s.tel with acc := { s.tel.acc with words := SMap.set 0 s.tel.acc.words key v } } }

/-- Count in a field of an accumulator word. -/
def State.telBump (s : State) (key lo w n : Nat) : State :=
  let x := s.telWord key
  s.telSet key (setField x lo w (satAdd w (field x lo w) n))

/-- Keep the largest of a field of an accumulator word. -/
def State.telMax (s : State) (key lo w v : Nat) : State :=
  let x := s.telWord key
  if field x lo w < v then s.telSet key (setField x lo w v) else s

/-- Keep the least of a field; a field that holds 0 has had no sample. -/
def State.telMin (s : State) (key lo w v : Nat) : State :=
  let x := s.telWord key
  if field x lo w = 0 ∨ v < field x lo w then s.telSet key (setField x lo w v) else s

/-- Operating hours (R422, R435). -/
def State.opCycles (s : State) : Nat := s.boot.cyclesBase + s.now
def State.hours (s : State) : Nat := s.opCycles / (3600 * Config.cycSec)

/-- A retirement of a bank or port supersedes the retirements of rows inside it (R195). -/
def LogEntry.supersedes (l e : LogEntry) : Bool :=
  l.kind == 9 && e.kind == 9 && l.site == e.site && l.unit == e.unit && field e.detail 20 2 == 0
    && (field l.detail 20 2 == 2 || (field l.detail 20 2 == 1 && field l.detail 15 5 == field e.detail 15 5))

/-- The entries that no later entry supersedes. -/
def standing : List LogEntry → List LogEntry
  | [] => []
  | e :: es => if es.any (fun l => l.supersedes e) then standing es else e :: standing es

/-- Append an entry to the alteration log; a full log first loses the entries that later ones supersede (R422), and its oldest
one if there is none (DESIGN CHOICE, log 125). -/
def State.appendLog (s : State) (kind site unit detail : Nat) : State :=
  let e : LogEntry := { kind := kind, site := site, unit := unit, detail := detail, hours := s.hours }
  let all := s.boot.log ++ [e]
  let kept := if all.length ≤ 8192 then all else standing all
  { s with boot := { s.boot with log := if kept.length ≤ 8192 then kept else kept.drop 1 } }

/-- A fault is injected: what it raises carries INJECTED, and it neither counts nor is logged (R450). -/
def State.isInjected (s : State) (kind target : Nat) : Bool :=
  match s.maint.injection with
  | none => false
  | some i => i.kind == kind && i.target == target

/-- The panel's exports are suppressed for a tick (R454, R457). -/
def State.suppressedAt (s : State) (tick : Nat) : Bool :=
  s.maint.suppressed && match s.maint.exportsFrom with
    | none => true
    | some first => decide (tick < first)

/-- The line hash of R455. -/
def lineHash (a : Nat) (line : List Byte) : Nat :=
  ((List.range 8).map (fun i =>
    ((leAt line (8 * i) 8) ^^^ ((a + 8 * i) % 2 ^ 64)) * (((2 * i + 1) * 0x9E3779B97F4A7C15) % 2 ^ 64))).sum % 2 ^ 64

/-- Line hashes join the digest of a tick. -/
def State.addHash (s : State) (tick h : Nat) : State :=
  let k := tick % 2
  { s with maint := { s.maint with digest := SMap.set 0 s.maint.digest k ((SMap.get 0 s.maint.digest k + h) % 2 ^ 64) } }
def State.addDigest (s : State) (tick a : Nat) (line : List Byte) : State := s.addHash tick (lineHash a line)

end Sys2Proof.Machine
end

