-- ==== Sys2Proof/Machine/DramOps.lean ====
section
/-!
DEFINITION. The DRAM stack of a site: its lines and their poison, retirement, and the access of one line (R182–R186,
R194, R195).
-/
namespace Sys2Proof.Machine

def State.dram (s : State) (site : Nat) : Dram := SMap.get Dram.reset s.drams site
def State.modDram (s : State) (site : Nat) (f : Dram → Dram) : State :=
  { s with drams := SMap.set Dram.reset s.drams site (f (s.dram site)) }
def Dram.port (d : Dram) (p : Nat) : DramPort := SMap.get DramPort.reset d.ports p
def Dram.modPort (d : Dram) (p : Nat) (f : DramPort → DramPort) : Dram :=
  { d with ports := SMap.set DramPort.reset d.ports p (f (d.port p)) }
def State.modPort (s : State) (site p : Nat) (f : DramPort → DramPort) : State :=
  s.modDram site (fun d => d.modPort p f)

/-- The DRAM offset of port address `a` of port `p` (R182). -/
def dramOffset (p a : Nat) : Nat :=
  let hi := (a / 64) * 512
  hi + (p ^^^ field hi 17 3) * 64 + a % 64

/-- Bank and row of an offset (R182). -/
def dramBank (o : Nat) : Nat := field (dramPortAddr o) 11 5
def dramRow (o : Nat) : Nat := field (dramPortAddr o) 16 15

/-- The line lies in a retired region (R194). -/
def Dram.isRetired (d : Dram) (o : Nat) : Bool :=
  let x := d.port (dramPort o)
  x.retired || bit x.banks.toNat (dramBank o) || x.rows.contains (dramBank o, dramRow o)

def Dram.isPoisoned (d : Dram) (o : Nat) : Bool := SMap.get false d.poison (o / 64)
def Dram.setPoison (d : Dram) (o : Nat) (b : Bool) : Dram := { d with poison := SMap.set false d.poison (o / 64) b }

/-- Read bytes within one line: the status and the data (R185, R194). -/
def Dram.read (d : Dram) (o n : Nat) : Status × List Byte :=
  if d.isRetired o || d.isPoisoned o then (stPoison, []) else (stOk, SMap.getRange 0 d.bytes o n)

/-- Panel address of an offset at a site; an unmapped site is shown as die 0. -/
def State.dramAddr (s : State) (site o : Nat) : Nat := ((s.active.dieAt site).getD 0) * 2 ^ 36 + o

/-- A write of the line is accepted: its merge entries end (R188). -/
def DramPort.endEntries (x : DramPort) (o : Nat) (whole : Bool) : DramPort :=
  { x with reads := x.reads.map (fun r =>
      if r.line = o / 64 * 64 then { r with live := false, overwritten := r.overwritten || whole } else r) }

/-! Errors (R185, R435). -/

/-- DRAM_ERR_LAST. -/
def State.dramErr (s : State) (site o : Nat) (ue patrol : Bool) : State :=
  s.setReg (unitDie site) (rDRAM_ERR_LAST + 0x200 * dramPort o)
    (dramRow o + 2 ^ 15 * dramBank o + 2 ^ 20 * field (dramPortAddr o) 6 5 + 2 ^ 26 * b2n ue + 2 ^ 27 * b2n patrol
      + 2 ^ 31)

/-- The entries of the retired-row table and the counts of `DRAM_PORT_STATUS` shown by the registers. -/
def State.showPort (s : State) (site p : Nat) : State :=
  let x := (s.dram site).port p
  let u := unitDie site
  let s := s.setReg u (rDRAM_BANKS_RETIRED + 0x200 * p) x.banks.toNat
  let s := s.setReg u (rDRAM_PORT_STATUS + 0x200 * p)
    ((if x.retired then 2 else b2n x.training) + 2 ^ 8 * (bitsOf 32 x.banks.toNat).length + 2 ^ 16 * x.rows.length)
  (List.range 64).foldl (fun s i =>
    let v := match x.rows[i]? with
      | some (b, r) => r + 2 ^ 15 * b + 2 ^ 31
      | none => 0
    s.setReg u (rDRAM_RETIRED_ROW + 0x200 * p + 4 * i) v) s

/-- The region a retirement names: kind 0 row, 1 bank, 2 port. -/
def DramPort.covers (x : DramPort) (kind bank row : Nat) : Bool :=
  x.retired || (kind ≤ 1 && bit x.banks.toNat bank) || (kind = 0 && x.rows.contains (bank, row))

/-- One retirement at a port, with the widening of R195. -/
def DramPort.retire (x : DramPort) (kind bank row : Nat) : DramPort :=
  let y :=
    if kind = 2 then { x with retired := true, rows := [], reads := x.reads }
    else if kind = 1 ∨ 64 ≤ x.rows.length then
      { x with banks := x.banks ||| BitVec.ofNat 32 (2 ^ bank), rows := x.rows.filter (fun e => e.1 != bank) }
    else { x with rows := x.rows ++ [(bank, row)] }
  if 9 ≤ (bitsOf 32 y.banks.toNat).length then { y with retired := true, rows := [] } else y

/-- R194, R195: retire a row, bank or port; a region already retired is left as it is. A merge never joins a read of
the region to an earlier one. -/
def State.retireDram (s : State) (site p kind bank row : Nat) : State :=
  let x := (s.dram site).port p
  if x.covers kind bank row then s
  else
    let y := x.retire kind bank row
    let s := s.modPort site p (fun _ => y)
    let kind' := if y.retired then 2 else if bit y.banks.toNat bank then 1 else 0
    let first := if kind' = 2 then dramOffset p 0
      else if kind' = 1 then dramOffset p (bank * 2048)
      else dramOffset p (row * 2 ^ 16 + bank * 2048)
    let s := s.showPort site p
    let s := s.appendLog 9 site p (row + 2 ^ 15 * bank + 2 ^ 20 * kind')
    s.raise .degraded 0x22 ⟨site, p, false, 0⟩ none
      (site + 2 ^ 8 * p + 2 ^ 11 * kind' + 2 ^ 13 * s.dramAddr site first)

/-- R435: a corrected error counts on its row, and four within 24 h, or one uncorrectable error, retire the row. -/
def State.countRowError (s : State) (site o : Nat) (ue injected : Bool) : State :=
  if injected then s
  else
    let key := ((site, dramPort o), (dramBank o, dramRow o))
    let recent := s.maint.rowErrors.filter (fun e => decide (s.now < e.2.2 + 24 * 3600 * Config.cycSec))
    let all := recent ++ [(key.1, key.2, s.now)]
    let s := { s with maint := { s.maint with rowErrors := all } }
    if ue ∨ 4 ≤ (all.filter (fun e => e.1 == key.1 && e.2.1 == key.2)).length then
      s.retireDram site (dramPort o) 0 (dramBank o) (dramRow o)
    else s

/-- The port finds erroneous symbols in a line that it reads (R185): corrected and written back, or poisoned. -/
def State.lineError (s : State) (site o : Nat) (err : Symbols) (patrol injected : Bool) : State :=
  let u := unitDie site
  match err with
  | .none => s
  | .one =>
    ((s.bump u (rDRAM_CE_COUNT + 0x200 * dramPort o) 0 32 1).dramErr site o false patrol).countRowError site o false
      injected
  | .many =>
    let s := s.bump u (rDRAM_UE_COUNT + 0x200 * dramPort o) 0 32 1
    let s := (s.dramErr site o true patrol).modDram site (fun d => d.setPoison o true)
    s.countRowError site o true injected

/-! Writes (R183, R186). -/

/-- A write accepted by the port (R183, R186): `put` places its bytes; a whole line clears its poison. A part of a line
that is poisoned, or that the internal read finds uncorrectable (`err`), leaves the line poisoned and raises
DRAM_MASKED_POISON. -/
def State.dramPut (s : State) (site o : Nat) (put : SMap Byte → SMap Byte) (whole : Bool) (err : Symbols) : State :=
  let bad := (s.dram site).isPoisoned o
  let s := s.modDram site (fun d =>
    let d := { d with bytes := put d.bytes }
    (if whole then d.setPoison o false else d).modPort (dramPort o) (fun x => x.endEntries o whole))
  let s := s.bump (unitDie site) (rDRAM_WRITE_COUNT + 0x200 * dramPort o) 0 32 1
  if whole then s
  else
    let s := if bad || err == .many then
        s.raise .degraded 0x20 ⟨site, dramPort o, false, 0⟩ none (s.dramAddr site o)
      else s
    if bad then s else s.lineError site o err false false

/-- The bytes are a whole line. -/
def wholeLine (o n : Nat) : Bool := o % 64 == 0 && n == 64

/-- Write bytes within one line (R183, R186, R194). -/
def State.dramWrite (s : State) (site o : Nat) (bs : List Byte) (err : Symbols) : State × Status :=
  if (s.dram site).isRetired o then (s, stPoison)
  else (s.dramPut site o (fun m => SMap.setRange 0 m o bs) (wholeLine o bs.length) err, stOk)

/-- What an internal read finds where the command does not say it: nothing, one symbol or more. -/
def State.freeFinding (s : State) : Symbols × State :=
  let (n, s) := s.freeNat
  (if n % 3 = 1 then .one else if n % 3 = 2 then .many else .none, s)

/-- A write whose internal read, for a part of a line, finds what it finds. -/
def State.dramWriteFree (s : State) (site o : Nat) (bs : List Byte) : State × Status :=
  if wholeLine o bs.length then s.dramWrite site o bs .none
  else
    let (err, s) := s.freeFinding
    s.dramWrite site o bs err

/-! The port's limits (R191, R192) and arbitration (R189, R190). -/

/-- The thermal state in force at a port: a change takes effect at the next 1 µs interval. -/
def Dram.inForce (d : Dram) (now : Nat) : Nat :=
  if d.thermalAt < now / Config.cycUs then d.thermal else d.thermalOld

/-- Lines a port may perform in an interval; `none` is no limit. -/
def lineLimit (st : Nat) : Option Nat := if st = 2 then some 4000 else if st = 3 then some 2000 else none

/-- DRAM accesses of the port in the current interval. -/
def DramPort.usedNow (x : DramPort) (now : Nat) : Nat := if x.used.1 = now / Config.cycUs then x.used.2 else 0

/-- The port may perform `n` more accesses in the current interval. -/
def Dram.mayAccess (d : Dram) (p now n : Nat) : Bool :=
  match lineLimit (d.inForce now) with
  | none => true
  | some l => decide ((d.port p).usedNow now + n ≤ l)

def DramPort.use (x : DramPort) (now n : Nat) : DramPort :=
  { x with used := (now / Config.cycUs, x.usedNow now + n) }

/-- The requester class of an access at a die: its logical core, 48 for other compute dies, 49 for edge dies. -/
def State.dramClass (s : State) (die core : Nat) : Nat :=
  match s.gid core with
  | some g => if g / 48 = die then g % 48 else 48
  | none => 48

/-- Weight of a requester at a port under the weights `r` (R189). A core is near when its router is at most NEAR_HOPS hops
from the port's. -/
def State.dramWeight (s : State) (site p r cls : Nat) : Nat :=
  if cls = 48 then field r 8 4
  else if cls = 49 then field r 12 4
  else
    let q := portRouter p
    let c := match s.active.dieAt site with
      | some d => (s.active.phys d cls).getD 255
      | none => 255
    let hops := (max (coreX c) (coreX q) - min (coreX c) (coreX q))
      + (max (coreY c) (coreY q) - min (coreY c) (coreY q))
    if c < 50 ∧ hops ≤ field r 16 4 then field r 0 4 else field r 4 4

/-- The classes of the accesses that wait at a port. -/
def State.dramWaiting (s : State) (die p : Nat) : List Nat :=
  s.mesh.accesses.filterMap (fun e =>
    match e.2 with
    | none => none
    | some a =>
      if a.stage != .atTarget then none
      else
        match s.active.target a.addr with
        | some (.dram d o) => if d = die ∧ dramPort o = p then some (s.dramClass die a.core) else none
        | _ => none)

/-- The requester after the one the round stands at, of those that wait. -/
def DramPort.nextTurn (x : DramPort) (waiting : List Nat) : Nat :=
  (((List.range 50).map (fun k => (x.turn + 1 + k) % 50)).find? waiting.contains).getD x.turn

/-- A grant of the weighted round robin to a requester (R189, R190): the requester the round stands at is served up to its
weight, then the next one that waits; `none` while it is another's turn. Weights written are taken with the next round
(R196). -/
def State.dramGrant (s : State) (site die p cls : Nat) : Option State :=
  let x := (s.dram site).port p
  let waiting := cls :: s.dramWaiting die p
  if waiting.contains x.turn && decide (x.given < s.dramWeight site p x.weights x.turn) then
    if x.turn = cls then some (s.modPort site p (fun x => { x with given := x.given + 1 })) else none
  else
    let n := x.nextTurn waiting
    if n ≠ cls then none
    else
      let w := if n ≤ x.turn then s.reg (unitDie site) rDRAM_ARB_WEIGHT else x.weights
      some (s.modPort site p (fun x => { x with turn := n, given := 1, weights := w }))

/-- The port serves requests: it does not train. -/
def Dram.serving (d : Dram) (p : Nat) : Bool := !(d.port p).training

/-! Read merging (R187, R188). -/

/-- The part of a line that a read of `n` bytes at `o` names (R183): 1, 2 a half, 0 the whole. -/
def readHalf (o n : Nat) : Nat := if o % 64 + n ≤ 32 then 1 else if 32 ≤ o % 64 then 2 else 0

/-- The merge entry of a read is live (R188). -/
def DramRead.isLive (r : DramRead) (now : Nat) : Bool :=
  r.live && (match r.back with
    | none => true
    | some (t, _) => decide (now ≤ t + 32))

/-- The reads in the merge buffer. -/
def DramPort.liveReads (x : DramPort) (now : Nat) : List DramRead := x.reads.filter (fun r => r.isLive now)

/-- The earlier read that a new read merges into (R187); with 64 live entries it merges into none (R188). -/
def DramPort.mergeWith (x : DramPort) (now line half : Nat) : Option DramRead :=
  let live := x.liveReads now
  if 64 ≤ live.length then none else live.find? (fun r => r.line == line && r.half == half)

/-- A read of a line that the port starts at the DRAM. -/
def DramPort.newRead (x : DramPort) (d : Dram) (now o half : Nat) (accs : List Nat) (back : Option (Nat × Nat)) : DramRead :=
  let line := o / 64 * 64
  { accs := accs, acceptedAt := now, line := line, half := half, data := SMap.getRange 0 d.bytes line 64,
    poisoned := d.isPoisoned o, live := decide ((x.liveReads now).length < 64), overwritten := false, back := back }

/-- The read that a request joins at a port, while merging is on. -/
def State.joined (s : State) (site o half : Nat) : Option DramRead :=
  if bit (s.reg (unitDie site) rDRAM_CTRL) 0 && !(s.dram site).isRetired o then
    ((s.dram site).port (dramPort o)).mergeWith s.now (o / 64 * 64) half
  else none

/-- A read of the line is pending at the port. -/
def DramPort.pendingLine (x : DramPort) (o : Nat) : Bool :=
  x.reads.any (fun r => r.back.isNone && !r.overwritten && r.line == o / 64 * 64)

/-! Accesses that one command performs whole: of the instruction cache, the edge dies and reset copies. -/

/-- The time a port at its line limit takes its next `n` accesses in (R191). -/
def State.limitTime (s : State) (site p n : Nat) : State :=
  if (s.dram site).mayAccess p s.now n then s else s.advanceTo ((s.now / Config.cycUs + 1) * Config.cycUs)

/-- A read of `n` bytes within one line by requester `cls`, performed at once (R183–R194): its status, its bytes and the
state after; `err` is what the code of the line shows. `none`: the port is training, another requester's turn comes
first, or the read it would join is still pending. -/
def State.readLine (s : State) (site o n cls : Nat) (err : Symbols) : Option (Status × List Byte × State) :=
  let p := dramPort o
  let half := readHalf o n
  let u := unitDie site
  match s.dramGrant site ((s.active.dieAt site).getD 255) p cls with
  | none => none
  | some s =>
    let cut := fun (l : List Byte) => (l.drop (o % 64)).take n
    match s.joined site o half with
    | some r =>
      match r.back with
      | none => none
      | some (_, st) => some (st, if st = stOk then cut r.data else [], s.bump u (rDRAM_MERGE_COUNT + 0x200 * p) 0 32 1)
    | none =>
      if !(s.dram site).serving p then none
      else if (s.dram site).isRetired o then some (stPoison, [], s)
      else
        let s := s.limitTime site p 1
        let d := s.dram site
        let st := if d.isPoisoned o then stPoison else if err = .many then stUncorrectable else stOk
        let r := (d.port p).newRead d s.now o half [] (some (s.now, st))
        let s := s.bump u (rDRAM_READ_COUNT + 0x200 * p) 0 32 1
        let s := s.modPort site p (fun x => { (x.use s.now 1) with reads := x.reads ++ [r] })
        let s := if st = stPoison then s else s.lineError site o err false false
        some (st, if st = stOk then cut r.data else [], s)

/-- A write within one line by requester `cls`, performed at once: its status and the state after. A part of a line waits
while a read of the line is pending (R184). -/
def State.writeLine (s : State) (site o cls : Nat) (put : SMap Byte → SMap Byte) (whole : Bool) (err : Symbols) :
    Option (Status × State) :=
  let p := dramPort o
  match s.dramGrant site ((s.active.dieAt site).getD 255) p cls with
  | none => none
  | some s =>
    if !(s.dram site).serving p || (!whole && ((s.dram site).port p).pendingLine o) then none
    else if (s.dram site).isRetired o then some (stPoison, s)
    else
      let n := if whole then 1 else 2
      let s := s.limitTime site p n
      let s := s.modPort site p (fun x => x.use s.now n)
      some (stOk, s.dramPut site o put whole err)

/-- Bytes written within one line, by `writeLine`. -/
def State.writeBytes (s : State) (site o cls : Nat) (bs : List Byte) (err : Symbols) : Option (Status × State) :=
  s.writeLine site o cls (fun m => SMap.setRange 0 m o bs) (wholeLine o bs.length) err

/-- A masked write of a line (R186): a mask of all bytes is a whole line. -/
def State.writeMask (s : State) (site o cls : Nat) (line : List Byte) (mask : Nat) : Option (Status × State) :=
  if mask = 0 then some (stOk, s)
  else
    let put := fun (m : SMap Byte) i => if bit mask i then SMap.set 0 m (o + i) (line.getD i 0) else m
    let whole := decide (mask = 2 ^ 64 - 1)
    let (err, s) := if whole then (.none, s) else s.freeFinding
    s.writeLine site o cls (fun m => (List.range 64).foldl put m) whole err

end Sys2Proof.Machine
end

