-- ==== Sys2Proof/Machine/PowerOps.lean ====
section
/-!
DEFINITION. Shared operations of power and clocks (spec/17, 18): power managers, regions, issue limits, slack, and
stopping a die.
-/
namespace Sys2Proof.Machine

/-- The region of a physical core index (R380): its core row. -/
def regionOf (p : Nat) : Nat := coreY (p % 50)

/-- `PWR_REGION_STAT` of a region, and its fields STATE, STAGE, PHASES, HALF_RATE, MV. -/
def statOff (r : Nat) : Nat := rPWR_REGION_STAT + 4 * r
def State.regionState (s : State) (site r : Nat) : Nat := s.fld (unitDie site) (statOff r) 0 2
def State.regionMv (s : State) (site r : Nat) : Nat := s.fld (unitDie site) (statOff r) 20 12
def State.regionHalf (s : State) (site r : Nat) : Bool := bit (s.reg (unitDie site) (statOff r)) 11

/-- The cores of the region of a site. -/
def regionCores (site r : Nat) : List Nat := (List.range 5).map (fun x => site * 50 + r * 5 + x)

/-- A region changes between full and half rate: `PWR_REGION_STAT`, `CLK_DIE_STATUS`, `CLK_MARGIN` and the
`CORE_CLOCK` of its cores show it (R408). -/
def State.setHalf (s : State) (site r : Nat) (on : Bool) : State :=
  let u := unitDie site
  let s := s.setFld u (statOff r) 11 1 (b2n on)
  let s := s.setFld u rCLK_DIE_STATUS (8 + r) 1 (b2n on)
  let s := s.setFld u (rCLK_MARGIN + 4 * r) 24 1 (b2n on)
  (regionCores site r).foldl (fun s p => s.setFld (unitCore p) rCORE_CLOCK 32 1 (b2n on)) s

/-- The site's reef line is asserted (R394). -/
def State.reef (s : State) : Bool := bit (s.reg unitMgmt rPWR_REEF_STAT) 0

/-- The lowest limit that any party sets on the matrix issue of a core (R157, R191, R385, R392–R394, R408, R507). -/
def State.mxuLimit (s : State) (p : Nat) : Nat :=
  let site := p / 50
  let d := s.die site
  let r := regionOf p
  let half := s.regionHalf site r
  let l := d.mxuCap
  let l := if d.backstop then min l 8 else l
  let l := if s.reef then min l 16 else l
  let l := if (s.dram site).inForce s.now = 3 then min l 16 else l
  let l := if half then min l 32 else l
  let l := if (d.region r).toHalf then min l 16 else l
  if d.hot then 1 else l

/-- The lowest limit on the vector groups of a core (R177, R385, R392, R408, R507). -/
def State.vecLimit (s : State) (p : Nat) : Nat :=
  let site := p / 50
  let d := s.die site
  let r := regionOf p
  let l := d.vecCap
  let l := if s.regionHalf site r then min l 32 else l
  let l := if (d.region r).toHalf then min l 16 else l
  if d.hot then min l 8 else l

/-- The `MXU_THROTTLE` and `VEC_THROTTLE` words. -/
def State.mxuThrottle (s : State) (p : Nat) : Nat :=
  let d := s.die (p / 50)
  s.mxuLimit p + 2 ^ 8 * b2n (decide (d.mxuCap < 64) || d.backstop) + 2 ^ 9 * b2n s.reef
    + 2 ^ 10 * b2n (decide ((s.dram (p / 50)).inForce s.now = 3) || d.hot)
    + 2 ^ 11 * b2n (s.regionHalf (p / 50) (regionOf p))
def State.vecThrottle (s : State) (p : Nat) : Nat :=
  s.vecLimit p + 2 ^ 8 * b2n (decide ((s.die (p / 50)).vecCap < 64))
    + 2 ^ 11 * b2n (s.regionHalf (p / 50) (regionOf p))

/-- Step 3 of a cold or module bring-up turns the regions on. -/
def State.turningOn (s : State) : Bool := s.boot.step == 3 && s.boot.level != 2 && s.ready == 0

/-! Slack (R383). -/

/-- Ticking is RUNNING or STOPPING. -/
def State.ticking (s : State) : Bool := s.gen.gstate == .running || s.gen.gstate == .stopping

/-- Every mapped core of the site has voted for the oldest uncommitted tick. -/
def State.dieVoted (s : State) (site : Nat) : Bool :=
  match s.gen.ticks with
  | [] => true
  | t :: _ => (s.halMembers site).all (fun p => (SMap.get none (s.core p).node.voted (tickp t.tick)).isSome)

/-- slack(die). -/
def State.slack (s : State) (site : Nat) : Bool :=
  !s.ticking || (s.dieVoted site && !(s.gen.ticks.drop 1).any (fun t => decide (0 < t.edges)))

/-- window(die). -/
def State.turnOnWindow (s : State) (site : Nat) : Bool := s.slack site || s.dieVoted site

/-- A die stops: its converter group is off or its PLL is out of lock; its cores send no heartbeats. -/
def State.stopDie (s : State) (site : Nat) : State :=
  let s := s.modDie site (fun d => { d with stopped := true })
  (List.range 50).foldl (fun s p => s.modCore (site * 50 + p) (fun c => { c with node := { c.node with
    hbStopped := true } })) s

/-- A converter group latches off (`PWR_GROUP`, R377, R387). -/
def groupOff (i : Nat) : Nat := rPWR_GROUP + 8 * i
def State.latchGroup (s : State) (i : Nat) : State := s.setFld unitMgmt (groupOff i) 0 2 2

/-- Telemetry word of a die page at an offset of R483. -/
def telDie (site off : Nat) : Nat := regKey (unitDie site) (0x1000000 + off)
/-- Telemetry word of the panel page (R484). -/
def telPanel (off : Nat) : Nat := regKey unitMgmt (0x1000000 + off)

/-- Samples of a region: its voltage, its temperature and its current join the die page (R483). -/
def State.telRegionMv (s : State) (site r mv : Nat) : State :=
  (s.telMin (telDie site (0xF320 + 8 * r)) 0 12 mv).telMax (telDie site (0xF320 + 8 * r)) 12 12 mv
def State.telTemp (s : State) (site temp : Nat) : State :=
  (List.range 10).foldl (fun (s : State) r =>
    (s.telMin (telDie site (0xF320 + 8 * r)) 32 8 temp).telMax (telDie site (0xF320 + 8 * r)) 40 8 temp) s
def State.telCurrent (s : State) (site r cur : Nat) : State := s.telMax (telDie site (0xF320 + 8 * r)) 48 8 cur

/-! The power budget (R390, R391). -/

/-- The cap that R390 puts in force next: the lower of `PWR_CAP` and `PWR_HOST_CAP`. -/
def State.capGoal (s : State) : Nat := min (s.rwt unitMgmt rPWR_CAP 0 16) (s.fld unitMgmt rPWR_HOST_CAP 0 16)

/-- The weight of logical die `d` in the active set (R390). -/
def ConfigSet.weight (c : ConfigSet) (d : Nat) : Nat :=
  if 1 + d < c.count 9 then field (leAt (c.entry 9 (1 + d) 8) 0 8) 0 8 else 16

/-- R391: the cap comes into force and each mapped die takes its budget B_d, in 0.1 W. `fixed` is Pfixed in W, and
`eta` the plate efficiency in units of 2^-16, both measured over the previous tick. A backstop ends (R393). -/
def State.setBudgets (s : State) (fixed eta : Nat) : State :=
  let cap := s.capGoal
  let s := s.setFld unitMgmt rPWR_CAP_STAT 0 16 cap
  let s := s.setFld unitMgmt rPWR_CAP_STAT 16 16 fixed
  let mapped := (List.range 192).filterMap (fun d => (s.active.site d).map (fun site => (d, site)))
  let sum := (mapped.map (fun e => s.active.weight e.1)).sum
  let avail := cap * 100 * eta / 65536 - fixed * 10
  let s := (s.setFld unitMgmt rPWR_CAP_STAT 40 1 0)
  let s := { s with power := SMap.mapAll DiePower.reset (fun _ d => { d with backstop := false }) s.power }
  mapped.foldl (fun s e =>
    let u := unitDie e.2
    let b := max 150 (avail * s.active.weight e.1 / sum)
    let b := if s.fld u rPWR_DIE_STATUS 5 2 = 0 then b else min b 450
    s.setFld u rPWR_DIE_BUDGET 0 16 b) s

/-- A launch entry of the set names the logical core that the core runs (R272). -/
def State.holdsLaunch (s : State) (c : ConfigSet) (p : Nat) : Bool :=
  match c.gidOf p with
  | none => false
  | some g => (List.range (c.count 4)).any (fun i => field (leAt (c.entry 4 i 8) 0 2) 0 14 == g)

end Sys2Proof.Machine
end

