-- ==== Sys2Proof/Machine/CollOps.lean ====
section
/-!
DEFINITION. Reduction words, bucket descriptors, the on-panel tree and residues (R284–R299), and what a commit and an
abandon do to the collectives.
-/
namespace Sys2Proof.Machine

/-! Bucket descriptors (R289). -/

def ConfigSet.bucket (c : ConfigSet) (t : Nat) : List Byte := c.entry 8 t 64
def bkValid (d : List Byte) : Bool := bit (leAt d 0 1) 0
def bkHistMode (d : List Byte) : Bool := bit (leAt d 0 1) 1
def bkWordsIn (d : List Byte) : Bool := bit (leAt d 0 1) 2
def bkFp32Out (d : List Byte) : Bool := bit (leAt d 0 1) 3
def bkPaired (d : List Byte) : Bool := bit (leAt d 0 1) 4
def bkH (d : List Byte) : Nat := field (leAt d 1 1) 0 6
def bkSlot (d : List Byte) : Nat := field (leAt d 2 1) 0 4
def bkPerDie (d : List Byte) : Nat := field (leAt d 3 1) 0 6
def bkProgs (d : List Byte) : Nat := leAt d 4 2
def bkSFixed (d : List Byte) : Int := toSigned 16 (leAt d 6 2)
def bkElements (d : List Byte) : Nat := leAt d 8 4
def bkWindow (d : List Byte) : Nat := field (leAt d 12 1) 0 7
def bkRoot (d : List Byte) : Nat := leAt d 13 1
def bkResult (d : List Byte) : Nat := leAt d 16 8
def bkStage (d : List Byte) : Nat := leAt d 24 8
def bkMember (d : List Byte) (die : Nat) : Bool := die < 192 && bit (leAt d 32 24) die
def bkPanels (d : List Byte) : Nat := leAt d 56 2
def bkDeadline (d : List Byte) : Nat := leAt d 58 4
/-- Λ, the lines of the bucket. -/
def bkLines (d : List Byte) : Nat := bkElements d / 8

/-- The tags whose buckets take part in ticks of phase program `g` (R290). -/
def ConfigSet.tagsOf (c : ConfigSet) (g : Nat) : List Nat :=
  ((SMap.get [] c.sections 8).map (·.1)).filter (fun t =>
    decide (t < c.count 8) && bkValid (c.bucket t) && bit (bkProgs (c.bucket t)) g)

/-- GEN of a tag in the oldest uncommitted tick (R290). -/
def State.genOf (s : State) (t : Nat) : Nat := SMap.get 0 s.coll.parts t % 16

/-! The tree and the substitutes (R294, R299). -/

/-- The unit of logical die `d` works. -/
def State.unitWorks (s : State) (d : Nat) : Bool :=
  match s.active.site d with
  | none => false
  | some site => !s.coll.retired.contains site

/-- Q of R294. -/
def State.collQ (s : State) (root : Nat) : List Nat :=
  let works := (List.range 192).filter s.unitWorks
  let r := if s.unitWorks root then root else works.getD 0 root
  r :: works.filter (fun d => d != r)

def State.collPos (s : State) (root d : Nat) : Nat := (s.collQ root).findIdx (· == d)
/-- The parent of a die in the tree of a root; `none` at the root. -/
def State.collParent (s : State) (root d : Nat) : Option Nat :=
  let i := s.collPos root d
  if i = 0 then none else (s.collQ root)[(i - 1) / 4]?
def State.collChildren (s : State) (root d : Nat) : List Nat :=
  let i := s.collPos root d
  (List.range 4).filterMap (fun k => (s.collQ root)[4 * i + 1 + k]?)

/-- The substitute of a retired die's unit: the working unit nearest by HOPS from its logical core 0, the lower die on
a tie (R299). -/
def State.substitute (s : State) (d : Nat) : Option Nat :=
  (((List.range 192).filter s.unitWorks).foldl (fun (best : Option (Nat × Nat)) x =>
    let h := (s.active.dist d 0 (8 + x)).1
    match best with
    | none => some (h, x)
    | some b => if h < b.1 then some (h, x) else some b) none).map (·.2)

/-- The dies that the unit of die `d` serves: its own, and each mapped die with a retired unit whose substitute it is.
-/
def State.served (s : State) (d : Nat) : List Nat :=
  if s.coll.retired.isEmpty then [d]
  else (List.range 192).filter (fun x =>
    x == d || ((s.active.site x).isSome && !s.unitWorks x && s.substitute x == some d))

/-- The contributor keys that the unit of die `d` expects for a bucket: (served die, CONTRIB). -/
def State.collKeys (s : State) (b : List Byte) (d : Nat) : List (Nat × Nat) :=
  ((s.served d).filter (bkMember b)).flatMap (fun x => (List.range (bkPerDie b)).map (fun k => (x, k)))

/-- The offers of a merge are held, those of slots without one staying as they were (R285). -/
def State.noteOffers (s : State) (tick : Nat) (ks : List Nat) : State :=
  let old := (s.coll.offers.map (·.2)).getD []
  let new := (List.range 16).map (fun h => if ks.getD h 127 = 127 then old.getD h 127 else ks.getD h 127)
  { s with coll := { s.coll with offers := some (tick, new) } }

/-! Units and their buckets. -/

def State.unit (s : State) (d : Nat) : CollUnit := SMap.get CollUnit.reset s.coll.units d
def State.modUnit (s : State) (d : Nat) (f : CollUnit → CollUnit) : State :=
  { s with coll := { s.coll with units := SMap.set CollUnit.reset s.coll.units d (f (s.unit d)) } }
def CollUnit.bucket (u : CollUnit) (t : Nat) : UnitBucket := SMap.get UnitBucket.empty u.buckets t
def State.modBucket (s : State) (d t : Nat) (f : UnitBucket → UnitBucket) : State :=
  s.modUnit d (fun u => { u with buckets := SMap.set UnitBucket.empty u.buckets t (f (u.bucket t)) })

/-- The site whose registers show the unit of a logical die. -/
def State.unitSite (s : State) (d : Nat) : Nat := unitDie ((s.active.site d).getD 255)

/-- R of R285. -/
def State.raisesOf (s : State) (t : Nat) : Nat := SMap.get 0 s.coll.raises t

/-- R286: VALID clears in every entry until the units fix the scale again. -/
def State.clearScales (s : State) : State :=
  let s := s.coll.fixedTick.foldl (fun s e =>
    ((SMap.get [] s.active.sections 8).map (·.1)).foldl (fun s t =>
      if s.reg (s.unitSite e.1) (rCOLL_SCALE + 4 * t) = 0 then s
      else s.setFld (s.unitSite e.1) (rCOLL_SCALE + 4 * t) 23 1 0) s) s
  { s with coll := { s.coll with fixedTick := [] } }

/-- The events of R305 for the keys of paired buckets that no copy has come for. -/
def State.missingCopies (s : State) (tick prog : Nat) : State :=
  ((s.active.tagsOf prog).filter (fun t => bkPaired (s.active.bucket t))).foldl (fun s t =>
    let b := s.active.bucket t
    ((List.range 192).filter (fun d => bkMember b d)).foldl (fun s d =>
      let host := if s.unitWorks d then d else (s.substitute d).getD d
      let u := (s.unit host).bucket t
      (List.range (bkPerDie b)).foldl (fun s k =>
        if u.posts.any (fun p => p.die == d && p.contrib == k && u.tick == tick) then s
        else s.raise .tickLost 0x53 ⟨(s.active.site d).getD 0xFF, 0x3F, false, 0⟩ (some tick)
          (t + 2 ^ 16 * d + 2 ^ 24 * k)) s) s) s

/-- ABANDON of tick X at the units and engines (R231, R286, R296): their state of X and of X + 1 goes. -/
def State.collAbandon (s : State) (tick prog : Nat) : State :=
  let s := (s.missingCopies tick prog).clearScales
  let units := SMap.mapAll CollUnit.reset (fun _ u => { u with
    buckets := u.buckets.filter (fun e => decide (e.2.tick < tick)) }) s.coll.units
  { s with coll := { s.coll with
      units := units, engines := s.coll.engines.filter (fun e => decide (e.2.tick < tick)), reported := [],
      badDies := [] } }

/-- COMMIT of tick X at the units and engines (R285, R286, R290). -/
def State.collCommit (s : State) (tick prog : Nat) : State :=
  let s := s.clearScales
  let parts := (s.active.tagsOf prog).foldl (fun m t => SMap.set 0 m t (SMap.get 0 m t + 1)) s.coll.parts
  let units := SMap.mapAll CollUnit.reset (fun _ u => { u with
    buckets := u.buckets.filter (fun e => decide (tick < e.2.tick)) }) s.coll.units
  { s with coll := { s.coll with
      parts := parts, units := units, engines := s.coll.engines.filter (fun e => decide (tick < e.2.tick)),
      raises := [], reported := [], badDies := [] } }

/-! Residues (R297). -/

/-- The residue of a word. -/
def wordRes (w : Word) : Nat :=
  let r := ((List.range 5).map (fun k => field w.toNat (13 * k) 13)).sum % 8191
  if w.getLsbD 63 then (r + 8191 - 4096) % 8191 else r

def lineRes (ws : List Word) : Nat := (ws.map wordRes).sum % 8191

/-- The residue field of a packet is well formed and matches its words (R297, R298). -/
def Line.ok (l : Line) : Bool := decide (l.residue < 8191) && lineRes l.words == l.residue

/-- What adding gives (R298). -/
inductive Added where
  | line (l : Line)
  | overflow
  | mismatch
deriving DecidableEq, Repr

/-- add_line of R298: exact sums of signed words; overflow is checked first. A flipped bit of an injected fault is
applied to output word `flip`. -/
def addLine (ins : List Line) (flip : Option (Nat × Nat)) : Added :=
  let sums := (List.range 8).map (fun i => (ins.map (fun l => (l.words.getD i 0).toInt)).sum)
  if sums.any (fun v => decide (v < -(2 ^ 63)) || decide (2 ^ 63 ≤ v)) then .overflow
  else
    let out := sums.map (fun v => BitVec.ofInt 64 v)
    let out := match flip with
      | none => out
      | some (i, b) => out.set (i % 8) ((out.getD (i % 8) 0) ^^^ BitVec.ofNat 64 (2 ^ (b % 64)))
    let want := (ins.map Line.residue).sum % 8191
    if lineRes out = want then .line ⟨out, want⟩ else .mismatch

end Sys2Proof.Machine
end

