-- ==== Sys2Proof/Machine/HostOps.lean ====
section
/-!
DEFINITION. Queue pairs and the finishing of a fetched command (R360–R367), and the ends of maintenance entries and
injections (R447, R451).
-/
namespace Sys2Proof.Machine

def State.pair (s : State) (q : Nat) : QPair := SMap.get QPair.reset s.host.pairs q
def State.modPair (s : State) (q : Nat) (f : QPair → QPair) : State :=
  { s with host := { s.host with pairs := SMap.set QPair.reset s.host.pairs q (f (s.pair q)) } }

/-- A fetched command that has not finished. -/
def State.cmd (s : State) (q cid : Nat) : Option HostCmd := (s.pair q).cmds.find? (fun c => c.cid == cid)
def State.modCmd (s : State) (q cid : Nat) (f : HostCmd → HostCmd) : State :=
  s.modPair q (fun x => { x with cmds := x.cmds.map (fun c => if c.cid = cid then f c else c) })

/-- A command finishes: its completion waits for an entry, or is discarded while its pair drains (R360, R363). -/
def State.finish (s : State) (q cid code detail result : Nat) : State :=
  match s.cmd q cid with
  | none => s
  | some c =>
    s.modPair q (fun x => { x with
      cmds := x.cmds.filter (fun d => d.cid != cid)
      done := if x.draining then x.done
              else x.done ++ [{ result := result, sqHead := c.sqHead, cid := cid, code := code, detail := detail }] })

/-- The command of a maintenance entry or tack, if a command waits for it. -/
def State.finishOpt (s : State) (c : Option (Nat × Nat)) (code detail result : Nat) : State :=
  match c with
  | none => s
  | some (q, cid) => s.finish q cid code detail result

/-- Tick commands that wait finish once their tick has committed, ticking is STOPPED, or it halted (R367–R369). -/
def State.tickWaiters (s : State) : State :=
  s.host.pairs.foldl (fun s e => e.2.cmds.foldl (fun s c =>
    let seq := s.gen.commitSeq.toNat
    if c.phase != .waiting then s
    else if c.opcode = 0x10 ∨ c.opcode = 0x12 ∨ c.opcode = 0x41 then
      if c.note ≤ seq then s.finish e.1 c.cid 0 0 (if c.opcode = 0x12 then seq else c.note)
      else if s.gen.gstate = .halted then s.finish e.1 c.cid 0x0E 0 seq
      else if c.opcode = 0x12 ∧ s.gen.gstate = .stopped then s.finish e.1 c.cid 0 0 seq
      else s
    else if c.opcode = 0x11 then
      if s.gen.gstate = .stopped then s.finish e.1 c.cid 0 0 seq
      else if s.gen.gstate = .halted then s.finish e.1 c.cid 0x0E 0 seq
      else s
    else s) s) s

/-- An entry of the arbiter ends: MAINT_DONE with its handle, code and outcome (0 done, 1 stopped, 2 failed). -/
def State.endEntry (s : State) (e : MaintEntry) (outcome : Nat) : State :=
  let s := { s with maint := { s.maint with entries := s.maint.entries.filter (fun x => x.handle != e.handle) } }
  s.raise .info 0xB8 (edgeSrc 9 0x3F) none (e.handle + 2 ^ 16 * e.code + 2 ^ 24 * outcome)

/-- The injection leaves flight: REHEARSAL_DONE, and its entry ends (R450, R451). -/
def State.endInjection (s : State) : State :=
  match s.maint.injection with
  | none => s
  | some i =>
    let s := { s with maint := { s.maint with injection := none, lastInjectionEnd := some s.now,
                                              armedBucket := none, armedPatrol := none } }
    let s := s.raise .info 0xB9 (edgeSrc 9 0x3F) none i.number true
    match s.maint.entries.find? (fun e => e.code == 10 && e.running) with
    | none => s
    | some e => s.endEntry e 0

end Sys2Proof.Machine
end

