-- ==== Sys2Proof/Machine/Dram.lean ====
section
/-!
DEFINITION. The commands of the DRAM ports (spec/08).
-/
namespace Sys2Proof.Machine

/-- A DMA access that waits at a DRAM port, with the site, die and offset it names. -/
def State.dramAccess (s : State) (id : Nat) : Option (Access × Nat × Nat × Nat) :=
  match s.access id with
  | none => none
  | some a =>
    if a.stage != .atTarget then none
    else
      match s.active.target a.addr with
      | some (.dram d o) => (s.active.site d).map (fun site => (a, site, d, o))
      | _ => none

/-- The bytes of an access out of the line read for it. -/
def sliceFor (a : Access) (o : Nat) (line : List Byte) : List Byte :=
  match a.kind with
  | .read n => (line.drop (o % 64)).take n
  | _ => []

/-- The reply to one access of a read whose data has returned with a status. -/
def State.replyRead (s : State) (id : Nat) (r : DramRead) (st : Status) : State :=
  match s.dramAccess id with
  | none => s
  | some (a, _, _, o) => s.reply id st (if st = stOk then sliceFor a o r.data else [])

/-- DRAM_READ: the port accepts a read and merges it or starts a DRAM access (R183–R194). It waits while the port
trains, at the line limit, and until its requester's turn. -/
def execDramRead (acc : Nat) (s : State) : Res :=
  match s.dramAccess acc with
  | none => .next s
  | some (a, site, d, o) =>
    match a.kind with
    | .read n =>
      let p := dramPort o
      let half := readHalf o n
      let u := unitDie site
      match s.dramGrant site d p (s.dramClass d a.core) with
      | none => .next s
      | some g =>
        match s.joined site o half with
        | some r =>
          let g := g.bump u (rDRAM_MERGE_COUNT + 0x200 * p) 0 32 1
          match r.back with
          | some (_, st) => .next (g.replyRead acc r st)
          | none =>
            .next (g.modPort site p (fun x => { x with
              reads := x.reads.map (fun q => if q = r then { q with accs := q.accs ++ [acc] } else q) }))
        | none =>
          let dr := s.dram site
          if !dr.serving p then .next s
          else if dr.isRetired o then .next (g.reply acc stPoison [])
          else if !dr.mayAccess p s.now 1 then .next s
          else
            let r := (dr.port p).newRead dr s.now o half [acc] none
            let g := g.bump u (rDRAM_READ_COUNT + 0x200 * p) 0 32 1
            .next (g.modPort site p (fun x => { (x.use s.now 1) with reads := x.reads ++ [r] }))
    | _ => .next s

/-- DRAM_WRITE: the port accepts a full or masked write; `err` is what the internal read of a masked write finds
(R183, R186, R194). -/
def execDramWrite (acc : Nat) (err : Symbols) (s : State) : Res :=
  match s.dramAccess acc with
  | none => .next s
  | some (a, site, d, o) =>
    match a.kind with
    | .write data =>
      let p := dramPort o
      let dr := s.dram site
      let whole := wholeLine o data.length
      let n := if whole then 1 else 2
      match s.dramGrant site d p (s.dramClass d a.core) with
      | none => .next s
      | some g =>
        if !dr.serving p || (!whole && (dr.port p).pendingLine o) then .next s
        else if dr.isRetired o then .next (g.reply acc stPoison [])
        else if !dr.mayAccess p s.now n then .next s
        else
          let g := g.modPort site p (fun x => x.use s.now n)
          let (g, st) := g.dramWrite site o data err
          .next (g.reply acc st [])
    | _ => .next s

/-- DRAM_READ_DATA: the data of the `k`-th pending read of a port returns; `err` is what the code of the line shows.
Each merged requester gets its reply (R185, R187). -/
def execDramReadData (site : Fin 204) (port : Fin 8) (k : Nat) (err : Symbols) (s : State) : Res :=
  let x := (s.dram site.val).port port.val
  let waiting := x.reads.filter (fun r => r.back.isNone)
  match waiting[k]? with
  | none => .next s
  | some r =>
    let poisoned := r.poisoned || (!r.overwritten && (s.dram site.val).isPoisoned r.line)
    let err := if poisoned then .none else err
    let st := if poisoned then stPoison else if err = .many then stUncorrectable else stOk
    let was := (s.dram site.val).isPoisoned r.line
    let s := s.lineError site.val r.line err false false
    let s := if r.overwritten then s.modDram site.val (fun d => d.setPoison r.line was) else s
    let s := s.telSample (telPort site.val port.val) (s.now - r.acceptedAt)
    let s := r.accs.foldl (fun s id => s.replyRead id r st) s
    let old := fun (q : DramRead) => match q.back with
      | none => false
      | some (t, _) => decide (t + 32 < s.now)
    .next (s.modPort site.val port.val (fun x => { x with
      reads := (x.reads.map (fun q => if q = r then { q with back := some (s.now, st) } else q)).filter
        (fun q => !old q) }))

/-- The refresh interval of a bank in fabric cycles: 3.9 µs, or 1.95 µs while refresh is doubled (R181, R191). -/
def Dram.refreshEvery (d : Dram) (now : Nat) : Nat := if d.inForce now = 0 then 8190 else 4095

/-- REFRESH: the refresh of a bank falls due; a retired port is not refreshed (R181, R194). -/
def execRefresh (site : Fin 204) (port : Fin 8) (bank : Fin 32) (s : State) : Res :=
  let dr := s.dram site.val
  let x := dr.port port.val
  if x.retired then .next s
  else
    let s := s.advanceTo (SMap.get 0 x.refreshed bank.val + dr.refreshEvery s.now)
    .next (s.modPort site.val port.val (fun x => { x with refreshed := SMap.set 0 x.refreshed bank.val s.now }))

/-- PATROL_READ: the patrol reads and corrects the next line of a port (R185, `DRAM_CTRL.PATROL_EN`); a line into
which a rehearsal has written an error shows one symbol (R450). -/
def execPatrolRead (site : Fin 204) (port : Fin 8) (err : Symbols) (s : State) : Res :=
  let x := (s.dram site.val).port port.val
  if !bit (s.reg (unitDie site.val) rDRAM_CTRL) 1 || x.retired then .next s
  else
    let o := dramOffset port.val (x.patrolLine * 64)
    let armed := s.maint.armedPatrol == some (site.val, port.val)
    let err := if armed then .one else err
    let dr := s.dram site.val
    let s := if dr.isRetired o || dr.isPoisoned o then s else s.lineError site.val o err true armed
    let s := if armed then s.endInjection else s
    .next (s.modPort site.val port.val (fun x => { x with patrolLine := (x.patrolLine + 1) % 2 ^ 25 }))

/-- DRAM_LIMIT_INTERVAL: the next 1 µs interval starts; requests held at the line limit may be accepted again (R191). -/
def execDramLimitInterval (site : Fin 204) (port : Fin 8) (s : State) : Res :=
  let s := s.advanceTo ((s.now / Config.cycUs + 1) * Config.cycUs)
  .next (s.modPort site.val port.val (fun x => { x with used := (s.now / Config.cycUs, 0) }))

/-- Entry thresholds of the thermal states 0–3, in °C (R191). -/
def thermalEntry (st : Nat) : Nat := ([0, 85, 98, 103] : List Nat).getD st 0

/-- The thermal state a temperature enters. -/
def thermalFor (temp : Nat) : Nat := if 103 ≤ temp then 3 else if 98 ≤ temp then 2 else if 85 ≤ temp then 1 else 0

/-- The thermal state after a sample, and since when the temperature has been low (R191). -/
def Dram.thermalStep (d : Dram) (now temp : Nat) : Nat × Option Nat :=
  let up := thermalFor temp
  if d.thermal < up then (up, none)
  else if d.thermal = 0 then (0, none)
  else if temp + 3 ≤ thermalEntry d.thermal then
    let since := d.coolSince.getD now
    if since + Config.cycMs ≤ now then
      (up, if up ≠ 0 ∧ temp + 3 ≤ thermalEntry up then some now else none)
    else (d.thermal, some since)
  else (d.thermal, none)

/-- R507: the protection of a die at 105 °C and at 110 °C. -/
def State.protectDie (s : State) (site temp : Nat) : State :=
  let d := s.die site
  if 110 ≤ temp then
    ((s.modDie site (fun d => { d with hot := true, hotCool := none })).stopDie site).latchGroup site
  else if 105 ≤ temp then s.modDie site (fun d => { d with hot := true, hotCool := none })
  else if d.hot then
    if temp < 100 then
      match d.hotCool with
      | none => s.modDie site (fun d => { d with hotCool := some s.now })
      | some t =>
        if t + Config.cycMs ≤ s.now then s.modDie site (fun d => { d with hot := false, hotCool := none }) else s
    else s.modDie site (fun d => { d with hotCool := none })
  else s

/-- THERMAL_SAMPLE: the port samples the die temperature (R191, R192, R507). -/
def execThermalSample (site : Fin 204) (temp : Fin 256) (s : State) : Res :=
  let d := s.dram site.val
  let (st, cool) := d.thermalStep s.now temp.val
  let s := if d.thermal < st then
      s.raise (if st = 1 then .info else .degraded) 0x21 ⟨site.val, 0x3F, false, 0⟩ none 0 else s
  let s := s.modDram site.val (fun d => { d with
    thermalOld := if d.thermalAt < s.now / Config.cycUs then d.thermal else d.thermalOld
    thermal := st, thermalAt := s.now / Config.cycUs, coolSince := cool })
  let s := s.setReg (unitDie site.val) rDRAM_THERMAL (temp.val + 2 ^ 8 * st)
  .next ((s.telTemp site.val temp.val).protectDie site.val temp.val)

/-- A retirement is in progress at the stack: an access accepted before it is not yet complete (R194 step 1). -/
def Dram.retiring (d : Dram) : Bool :=
  (List.range 8).any (fun p => (d.port p).reads.any (fun r => r.back.isNone && d.isRetired r.line))

/-- DRAM_RETIRE: a write of `DRAM_RETIRE_CMD` (R194, R195). -/
def execDramRetire (site : Fin 204) (cmd : BitVec 32) (s : State) : Res :=
  let c := cmd.toNat
  let u := unitDie site.val
  let d := s.dram site.val
  let result := fun (s : State) r => s.modDram site.val (fun d => { d with retireResult := r })
  let port := field c 20 3
  let kind := field c 23 2
  if !bit c 31 then .next s
  else if d.retiring then .next (result s 3)
  else if kind = 3 then .next (result s 2)
  else if (d.port port).covers kind (field c 15 5) (field c 0 15) then .next (result s 1)
  else .next (result (s.retireDram site.val port kind (field c 15 5) (field c 0 15)) 0)

end Sys2Proof.Machine
end

