-- ==== Sys2Proof/Machine/RegView.lean ====
section
/-!
DEFINITION. Registers that show structured state: the value a read finds at a core (R57, R116, R117, R138, R162, R180,
R221, R237) and at a die (R30, R196, R220, R236, R266), by offset.
-/
namespace Sys2Proof.Machine

/-- The element of a register array at offset `off`: base, stride, count. -/
def elem (base stride count off : Nat) : Option Nat :=
  if base ≤ off ∧ (off - base) % stride = 0 ∧ (off - base) / stride < count then some ((off - base) / stride)
  else none

/-- The first view that answers. -/
def firstSome : List (Option Nat) → Option Nat
  | [] => none
  | some v :: _ => some v
  | none :: l => firstSome l

def SlotMode.code : SlotMode → Nat
  | .free => 0 | .launching => 1 | .ready => 2 | .waiting => 3 | .ending => 4 | .faulted => 5

/-- The task registers of a slot (R57): offset within its block. -/
def Slot.view (sl : Slot) (o : Nat) : Option Nat :=
  if o = 0 then
    some (sl.mode.code + 2 ^ 8 * sl.taskId.toNat + 2 ^ 32 * (sl.patch % 256) + 2 ^ 40 * b2n sl.zero
      + 2 ^ 41 * b2n sl.abs + 2 ^ 48 * sl.fpFlags.toNat + 2 ^ 53 * b2n sl.sat + 2 ^ 54 * b2n sl.runahead)
  else if o = 0x08 then some (sl.pc.toNat % 2 ^ 32)
  else if o = 0x10 then some sl.seg.codeBase
  else if o = 0x18 then some sl.seg.codeBound
  else if o = 0x20 then some (sl.seg.spadBase + 2 ^ 32 * sl.seg.spadBound)
  else if o = 0x28 then some sl.seg.dramBase
  else if o = 0x30 then some sl.seg.dramBound
  else if o = 0x38 then some sl.tokenWord
  else if o = 0x40 then
    some (sl.faultCode.toNat + 2 ^ 8 * b2n sl.faultValid + 2 ^ 9 * b2n sl.faultOvf + 2 ^ 16 * sl.faultPc.toNat)
  else if o = 0x48 then some sl.faultAddr.toNat
  else none

/-- The window registers (R116, R117): `k` 0 RANGE, 1 CFG, 2 WRITERS, 3 STATUS. -/
def Window.view (x : Window) (k : Nat) : Nat :=
  if k = 3 then x.status
  else if !x.isOpen then 0
  else if k = 0 then x.base + 2 ^ 32 * x.bound + 2 ^ 53 * x.slotBytes
  else if k = 1 then
    b2n x.channel + 2 * b2n x.check + 4 * b2n x.persist + 2 ^ 8 * (x.patch % 256) + 2 ^ 16 * x.coreMode
      + 2 ^ 32 * x.edgeMask.toNat + 2 ^ 48 * x.credits
  else x.coreLo + 2 ^ 16 * x.coreHi

/-- One bit per bank. -/
def Spad.bankBits (sp : Spad) (f : Bank → Bool) : Nat := ofBits ((List.range 16).filter (fun b => f (sp.bank b)))

/-- The status word of an engine: QUEUED and BUSY, and the slot and token of the executing descriptor at the places
given (R162, R180). A descriptor at the head of its queue executes. -/
def engineStatus (q : List EngDesc) (slotAt tokenAt : Nat) : Nat :=
  match q with
  | [] => 0
  | d :: _ => q.length + 8 + 2 ^ slotAt * d.slot + 2 ^ tokenAt * d.token

/-- Bits of the `n` entries of a map of flags. -/
def flagBits (n : Nat) (m : SMap Bool) : Nat := ofBits ((List.range n).filter (fun i => SMap.get false m i))

/-- `CORE_HIST_STAT` of a slot (R138): the tick of the snapshot, and whether it saturated or was used. -/
def State.histStat (s : State) (c : Core) (h : Nat) : Nat :=
  let sat := (List.range 68).any (fun b => SMap.get 0 c.hist.snap (h * 68 + b) == 0xFFFFFFFF)
  match s.gen.last with
  | some t =>
    if max c.hist.since s.boot.fabricCommits = s.gen.commits then 0
    else t.tick % 2 ^ 48 + 2 ^ 48 + 2 ^ 49 * b2n sat + 2 ^ 50 * b2n (SMap.get false c.hist.snapUsed h)
  | none => 0

/-- The view of a core register. -/
def State.viewCore (s : State) (p off : Nat) : Option Nat :=
  let c := s.core p
  let sp := c.spad
  if off = rCORE_CTRL then some (s.reg (unitCore p) off + b2n c.icinvBusy)
  else if off = rCORE_STATUS then
    some (b2n c.icinvBusy + 2 * b2n (!c.launches.isEmpty)
      + ((List.range 8).map (fun i => 2 ^ (8 + 3 * i) * (c.slot i).mode.code)).sum)
  else if off = rCORE_ID then some (s.coreId p)
  else if off = rCORE_CLOCK then some (s.coreParam p 9)
  else if off = rSPAD_BANK_PWR then
    some (sp.bankBits (fun b => b.pdSince.isSome || b.pdOffAt.isSome) + 2 ^ 16 * sp.bankBits (fun b => b.puReq))
  else if off = rSPAD_BANK_STATUS then
    some (sp.bankBits (fun b => b.on && b.pdOffAt.isNone) + 2 ^ 16 * sp.bankBits (fun b => b.pdSince.isSome)
      + 2 ^ 32 * sp.bankBits Bank.pdTimeout + 2 ^ 48 * sp.bankBits Bank.readOff)
  else if off = rSPAD_INFLIGHT then
    some (((List.range 16).map (fun b => 2 ^ (4 * b) * min 8 (c.inflight b))).sum)
  else if off = rSPAD_GRANTS then some (sp.liveGrants + 2 ^ 8 * sp.slotsUsed)
  else if off = rMXU_STATUS then
    some (engineStatus c.mxu.queue 24 28 + 2 ^ 8 * flagBits 8 c.mxu.kind + 2 ^ 16 * flagBits 8 c.mxu.poison)
  else if off = rMXU_THROTTLE then some (s.mxuThrottle p)
  else if off = rVEC_STATUS then some (engineStatus c.vec.queue 8 12 + 2 ^ 4 * flagBits 4 c.vec.poison)
  else if off = rVEC_THROTTLE then some (s.vecThrottle p)
  else if off = rMESH_THROTTLE_STAT then
    some (s.reg (unitCore p) off + SMap.get 0 s.mesh.level p)
  else if off = rHAL_BAR_STAT then
    some (ofBits ((List.range 64).filter (fun b =>
      (SMap.get none c.node.barArrived b).isSome || (SMap.get none c.node.barArrived (64 + b)).isSome)))
  else if off = rHAL_USER_STAT then
    some (c.node.recvQ.length + 2 ^ 8 * c.node.sendQ.length
      + 2 ^ 16 * ofBits ((List.range 16).filter (fun ch => c.node.recvQ.any (fun m => m.chan == ch))))
  else if 0x1000 ≤ off ∧ off < 0x1800 then ((c.slot ((off - 0x1000) / 0x100)).ripen s.now).view (off % 0x100)
  else
    firstSome [
      (elem rSPAD_WIN_RANGE 8 128 off).map (fun k => (sp.win (k / 4)).view (k % 4)),
      if rCORE_HIST_BIN ≤ off ∧ off < rCORE_HIST_BIN + 0x2000 ∧ (off - rCORE_HIST_BIN) % 0x200 < 0x110 then
        let h := (off - rCORE_HIST_BIN) / 0x200
        let k := (off - rCORE_HIST_BIN) % 0x200 / 8
        some (SMap.get 0 c.hist.snap (h * 68 + 2 * k) + 2 ^ 32 * SMap.get 0 c.hist.snap (h * 68 + 2 * k + 1))
      else none,
      if rCORE_HIST_STAT ≤ off ∧ (off - rCORE_HIST_STAT) % 0x200 = 0 ∧ off < rCORE_HIST_STAT + 0x2000 then
        some (s.histStat c ((off - rCORE_HIST_STAT) / 0x200))
      else none,
      (elem rVEC_PARAM 8 5 off).map (fun k => leNat (SMap.getRange 0 c.vec.params (8 * k) 8)),
      if rMESH_VC_DEPTH ≤ off ∧ off < rMESH_VC_DEPTH + 0x200 * 5 ∧ (off - rMESH_VC_DEPTH) % 0x200 < 0x40 then
        let q := (off - rMESH_VC_DEPTH) / 0x200
        let v := (off - rMESH_VC_DEPTH) % 0x200 / 8
        let cur := (s.mesh.packets.filterMap (fun e => match e.2 with
          | some x =>
            match x.place, x.exit with
            | .router site r, some e =>
              if site * 50 + r = p ∧ x.vc = v ∧ nextPort r e (s.targetRouter x) = q then some x.flits else none
            | _, _ => none
          | none => none)).sum
        some (s.reg (unitCore p) off / 256 * 256 + min 255 cur)
      else none ]

/-- The state of the seam link at an exit of a site, with its TREE bit (R220). -/
def State.seamState (s : State) (site exit : Nat) : Nat :=
  match beyond site exit with
  | none => 3
  | some w =>
    let l := linkAt site exit
    let g := s.active.graph
    let tree := match g.escRoot with
      | none => false
      | some root =>
        let lv := g.levels root
        (g.parent lv root site).map (·.1) == some w || (g.parent lv root w).map (·.1) == some site
    let st := if !s.mesh.trained then 3
      else if s.mesh.fenced.contains l || g.fenced.contains l then 2
      else if s.mesh.training.contains l then 1 else 0
    st + 4 * b2n (tree && st != 3)

/-- PARENT, CHILDREN and LEVEL of a node in the tree with root `root`. -/
def Graph.position (g : Graph) (root v : Nat) : Nat × Nat × Nat :=
  let lv := g.levels root
  let par := ((g.parent lv root v).map (·.2)).getD 7
  let ch := ofBits (((g.exits v).filter (fun e => (g.parent lv root e.2.1).map (·.1) == some v)).map (·.1))
  (par, ch, SMap.get 1 lv v - 1)

/-- The set's generated tables exist. -/
def ConfigSet.built (c : ConfigSet) : Bool := !c.digest.isEmpty

/-- `CFG_CORE_PHYS[n]` of a die (R30). -/
def ConfigSet.corePhys (c : ConfigSet) (d n : Nat) : Nat :=
  match c.phys d n with
  | none => 0x3F
  | some p => p + 2 ^ 31 * b2n (p == 22 || p == 27)

/-- SPARE_FOR of spare core `p` of a site (R30). -/
def State.spareFor (s : State) (site p : Nat) : Nat :=
  match s.active.dieAt site with
  | none => if s.active.gone.contains (site * 50 + p) then 62 else 63
  | some d =>
    match s.active.coreAt d p with
    | some l => l
    | none => if s.active.gone.contains (site * 50 + p) then 62 else 63

/-- `CFG_PLACE_SITE` of a logical die (R30). -/
def placeSite (d site : Nat) : Nat :=
  siteCol site + 2 ^ 8 * siteRow site + 2 ^ 16 * site + 2 ^ 24 * displacement d site
    + 2 ^ 31 * b2n (site == defaultSite d)

/-- LOADED at calibration number `n` is a measurement; it is 0 where HOPS is 0xFF (R30, R32). -/
def calibrated (n hops d core t : Nat) : Nat := if hops = 0xFF then 0 else (Config.freeLoaded n d core t).toNat

/-- A common denominator of HOPS. -/
def hopsDen : Nat := (List.range 254).foldl (fun a i => Nat.lcm a (i + 1)) 1

/-- Qd of a die (R32): the mean over its entries with HOPS from 1 to 254 at calibration, as numerator and denominator. -/
def queueDelay (n : Nat) (c : ConfigSet) (d : Nat) : Int × Nat :=
  let x := (List.range 48).foldl (fun (x : Int × Nat) core => (List.range 210).foldl (fun (x : Int × Nat) t =>
    let (h, u) := c.dist d core t
    if 1 ≤ h ∧ h ≤ 254 then
      (x.1 + ((calibrated n h d core t : Int) - (u : Int)) * ((hopsDen / h : Nat) : Int), x.2 + 1)
    else x) x) (0, 0)
  (x.1, hopsDen * x.2)

/-- LOADED of an entry across the maps since calibration (R32). `old` is HOPS of the map before, `base` the measured or
derived LOADED that is scaled and the HOPS it belongs to. DEDUCED: the HOPS by which the calibration result is divided is the
one it was measured at (log 106). -/
def loadedAcross (n : Nat) (cal : ConfigSet) (d core t : Nat) : Nat → Nat → Nat × Nat → List ConfigSet → Nat
  | _, v, _, [] => v
  | old, _, base, m :: ms =>
    let (h, u) := m.dist d core t
    if h = 0xFF then loadedAcross n cal d core t h 0 base ms
    else if h = 0 then loadedAcross n cal d core t h u base ms
    else if 1 ≤ old ∧ old ≤ 254 then loadedAcross n cal d core t h (min 0xFFF (ceilDiv (base.1 * h) base.2)) base ms
    else
      let q := queueDelay n cal d
      let v := min 0xFFF ((u : Int) - (-(q.1 * (h : Int))) / (max 1 q.2 : Nat)).toNat
      loadedAcross n cal d core t h v (v, h) ms

/-- LOADED of `MESH_DIST` (R30, R32). -/
def State.loaded (s : State) (d core t : Nat) : Nat :=
  match s.cfg.maps with
  | [] => calibrated s.cfg.calib (s.active.dist d core t).1 d core t
  | cal :: ms =>
    let (h, _) := cal.dist d core t
    let v := calibrated s.cfg.calib h d core t
    loadedAcross s.cfg.calib cal d core t h v (v, h) ms

/-- The mesh registers of node `v`, site or 204 + edge die (R220). -/
def State.viewMesh (s : State) (v off : Nat) : Option Nat :=
  let g := s.active.graph
  if off = rMESH_TREE then
    if !s.active.built then none
    else
      match g.escRoot with
      | none => none
      | some root =>
        let (par, ch, lvl) := g.position root v
        some (root + 2 ^ 8 * lvl + 2 ^ 16 * par + 2 ^ 20 * ch)
  else if off = rMESH_SEAM_STATUS then
    if v < 204 then some (((List.range 4).map (fun e => 2 ^ (4 * e) * s.seamState v e)).sum)
    else
      some (((List.range 4).map (fun k =>
        match (attached (v - 204))[k]? with
        | some site =>
          let e := ((List.range 4).find? (fun e => edgeAt site e == some (v - 204))).getD 0
          2 ^ (4 * k) * s.seamState site e
        | none => 2 ^ (4 * k) * 3)).sum)
  else
    (elem rMESH_ROUTE 4 202 off).map (fun t =>
      let u := if v < 204 then unitDie v else unitEdge (v - 204)
      match SMap.get none s.shadow.routes (regKey u off) with
      | some r => r
      | none => if s.shadow.built then s.shadow.routeEntry v t else 0x777)

/-- The view of a die register. -/
def State.viewDie (s : State) (site off : Nat) : Option Nat :=
  let set := s.active
  let die := set.dieAt site
  if off = rCFG_PLACE_SITE then die.map (fun d => placeSite d site)
  else if off = rCFG_PLACE_GEN then some s.cfg.placeGen
  else if off = rCFG_SPARE_CORE then some (22 + 2 ^ 8 * s.spareFor site 22 + 2 ^ 16 * 27 + 2 ^ 24 * s.spareFor site 27)
  else if off = rDRAM_RETIRE_STAT then
    some (b2n (s.dram site).retiring + 2 * (s.dram site).retireResult)
  else if off = rHAL_TREE then
    if !set.built then none
    else
      let (par, ch, lvl) := set.graph.position halRoot site
      some (par + 2 ^ 4 * ch + 2 ^ 8 * lvl + 2 ^ 16 * set.halDepth)
  else if off = rHAL_CLASS0 then if set.built then some set.halL0 else none
  else
    firstSome [
      s.viewMesh site off,
      (elem rCFG_CORE_PHYS 4 48 off).bind (fun n => die.map (fun d => set.corePhys d n)),
      (elem rMESH_DIST 4 12288 off).bind (fun k => die.map (fun d =>
        let (h, u) := set.dist d (k / 256) (k % 256)
        if k % 256 < 210 then h + 2 ^ 8 * u + 2 ^ 20 * s.loaded d (k / 256) (k % 256) else 0)),
      (elem rTICK_RA_LO 4 128 off).map (fun k =>
        match set.raTable[k / 2]? with
        | none => 0
        | some r => if k % 2 = 0 then r.basePg + 2 ^ 22 * r.die else r.pages + 2 ^ 22 * r.kind + 2 ^ 24 * r.slot) ]

end Sys2Proof.Machine
end

