-- ==== Sys2Proof/Machine/SysTree.lean ====
section
/-!
DEFINITION. The panel's place in a system of panels (R315, R318), and which link die's engine works for a dimension
(R299, R300).
-/
namespace Sys2Proof.Machine

/-- K of the system shape. -/
def State.sysK (s : State) : Nat := s.rwt unitMgmt rVLNK_SYS_SHAPE 0 3
def State.multiPanel (s : State) : Bool := decide (1 ≤ s.sysK)

def State.ringSize (s : State) (d : Nat) : Nat := s.rwt unitMgmt rVLNK_SYS_SHAPE (8 + 8 * d) 7
def State.ringPos (s : State) (d : Nat) : Nat := s.rwt unitMgmt rVLNK_SYS_POS (8 * d) 6

/-- PANELS of the sizes before dimension `d`. -/
def State.sysStride (s : State) (d : Nat) : Nat := ((List.range d).map s.ringSize).foldl (· * ·) 1
/-- The panel's number. -/
def State.panelNo (s : State) : Nat := ((List.range s.sysK).map (fun d => s.ringPos d * s.sysStride d)).sum

/-- The direction from a position towards position 0: the successor one only when it is shorter. -/
def homeSucc (size p : Nat) : Bool := decide (size - p < p)
/-- The highest dimension in which the panel's position is not 0. -/
def State.homeDim (s : State) : Option Nat := (List.range s.sysK).reverse.find? (fun d => s.ringPos d != 0)
/-- The dimension and direction of the parent; `none` at the root. -/
def State.sysParent (s : State) : Option (Nat × Bool) :=
  s.homeDim.map (fun d => (d, homeSucc (s.ringSize d) (s.ringPos d)))
def State.isRoot (s : State) : Bool := s.multiPanel && s.homeDim.isNone
/-- S_DEPTH. -/
def State.sysDepth (s : State) : Nat := ((List.range s.sysK).map (fun d => s.ringSize d / 2)).sum

/-- The link die whose engine works for dimension `d`: that of its first rail's successor port, or its partner while that
one is retired (R299, R300). -/
def State.engineLink (s : State) (d : Nat) : Nat :=
  let l := 4 + d
  if s.coll.retired.contains (204 + l) then l ^^^ 1 else l

end Sys2Proof.Machine
end

