-- ==== Sys2Proof/Machine/MgmtView.lean ====
section
/-!
DEFINITION. Registers that show structured state, continued: at the management die (R265, R283, R308, R332, R400, R415,
R434, R461, R476, R492), at the link dies (R307, R331), in BAR0 (R355, R376), and of power, clocks and collectives at the
dies (R307, R399, R414).
-/
namespace Sys2Proof.Machine

def GenState.code : GenState → Nat
  | .stopped => 0 | .running => 1 | .stopping => 2 | .halted => 3

/-- `TICK_STATUS`. -/
def State.tickStatus (s : State) : Nat :=
  let g := s.gen
  let base := g.gstate.code + 2 ^ 3 * b2n g.waitAlign + 2 ^ 4 * b2n (g.ticks.any TickRun.runahead)
  match g.ticks.head? with
  | none => base
  | some t =>
    base + 2 ^ 5 * b2n (s.multiPanel && t.offered && !t.token) + 2 ^ 8 * (t.edges - 1) + 2 ^ 12 * (t.att % 4)
      + 2 ^ 14 * min 2 (SMap.get 0 g.runs t.tick) + 2 ^ 16 * t.entry + 2 ^ 32 * t.rep

/-- Word `i` of a digest. -/
def digestWord (d : List Byte) (i : Nat) : Nat := leAt d (8 * i) 8

/-- The spare sites that hold no die and have not failed, in ascending row. -/
def State.freeSites (s : State) (c : ConfigSet) : List Nat :=
  (List.range Config.sites).filter (fun v => isSpareSite v && !s.boot.badSites.contains v && (c.dieAt v).isNone)

/-- The power budget limits issue on the die at a site (R392). -/
def State.dieCapped (s : State) (site : Nat) : Bool := decide ((s.die site).mxuCap < 64) || decide ((s.die site).vecCap < 64)

/-- `MNT_ACT` of an arbiter entry; the entries show in order of arrival. -/
def MaintEntry.view (e : MaintEntry) : Nat :=
  e.code + 2 ^ 4 * (if e.paused then 3 else if e.running then 2 else 1) + 2 ^ 6 * b2n e.pliwick + 2 ^ 8 * (e.resource % 65536)
    + 2 ^ 24 * (e.handle % 65536)

/-- `SEC_FW` of a component. -/
def Security.fwView (x : Security) (c : Nat) : Nat :=
  let a := SMap.get FwBank.empty x.banks (2 * c)
  let b := SMap.get FwBank.empty x.banks (2 * c + 1)
  b2n (SMap.get false x.activeB c) + 2 * b2n a.valid + 4 * b2n b.valid + 2 ^ 8 * a.svn + 2 ^ 16 * b.svn

/-- `VLNK_SYS_STATUS` but for LATE_STARTS. -/
def State.sysStatus (s : State) : Nat :=
  match s.sysParent with
  | none => s.panelNo + 2 ^ 12 * b2n s.isRoot + 2 ^ 13 * s.sysDepth
  | some (d, up) => s.panelNo + 2 ^ 13 * s.sysDepth + 2 ^ 18 * d + 2 ^ 20 * b2n up

/-- `HOST_EVENT_STAT`. -/
def State.eventStat (s : State) : Nat :=
  b2n s.events.ring.isSome + 2 ^ 8 * s.events.severeCode + 2 ^ 24 * s.events.severeSev + 2 ^ 32 * s.events.lost

/-- Bring-up has passed a step since the last cold or module reset; before, what the step finds reads as at reset (R9). -/
def State.bootPast (s : State) (n : Nat) : Bool := s.ready != 0 || s.boot.level == 2 || decide (n < s.boot.step)

/-- The fuse hash of the key block's ECDSA key (0) or LMS key (1), 48 bytes (R462). -/
def Rom.fuseHash (r : Rom) (k : Nat) : List Byte := (List.range 6).flatMap (fun i => leBytes 8 (SMap.get 0 r.keyHash (6 * k + i)))

/-- The key block passes: the SHA-384 of each key is its fuse hash (R463). -/
def State.keysOk (s : State) : Bool :=
  sha384 s.sec.ecdsaKey == s.rom.fuseHash 0 && sha384 s.sec.lmsKey == s.rom.fuseHash 1

/-- The view of a register of the management die. -/
def State.viewMgmt (s : State) (off : Nat) : Option Nat :=
  let g := s.gen
  let c := s.cfg
  let bt := s.boot
  let m := s.maint
  let raw := s.reg unitMgmt off
  if off = rTICK_CTRL then some (b2n g.run + 2 * b2n g.raEn + 2 ^ 16 * g.stepLeft)
  else if off = rTICK_STATUS then some s.tickStatus
  else if off = rTICK_COMMIT_SEQ then some g.commitSeq.toNat
  else if off = rTICK_CUR then some (if g.ticks.isEmpty then 0 else (g.commitSeq + 1).toNat)
  else if off = rCFG_STATUS then
    some (b2n c.isSealed + 2 * b2n c.pending + 4 * b2n c.amended + 2 ^ 16 * c.dirty.toNat + 2 ^ 32 * c.lockedWrites)
  else if off = rCFG_GEN then some (c.activeGen + 2 ^ 32 * c.shadowGen)
  else if off = rCFG_TACK_STAT then some (b2n c.pending + 2 * b2n c.auto + 4 * b2n c.drain + 2 ^ 16 * c.lastNs)
  else if off = rPWR_CAP_STAT then
    some (setField raw 32 8 ((List.range Config.sites).filter s.dieCapped).length)
  else if off = rCLK_PLAN_STAT then some (setField raw 32 32 (min (2 ^ 32 - 1) (s.hours - bt.planHours)))
  else if off = rVLNK_SYS_STATUS then some (raw / 2 ^ 32 * 2 ^ 32 + s.sysStatus)
  else if off = rCFG_BOOT_STAT then
    some (s.fld unitBar rHOST_DEVICE_STATUS 0 3 + 2 ^ 4 * bt.step + 2 ^ 8 * bt.level + 2 ^ 12 * bt.cause + raw / 2 ^ 16 * 2 ^ 16)
  else if off = rCFG_TOPO_STAT then
    some (((List.range Config.dies).filter (fun d => (s.active.site d).isSome)).length
      + 2 ^ 8 * (if s.bootPast 7 then (s.freeSites s.active).length else 0) + 2 ^ 12 * bt.badSites.length + 2 ^ 20 * (s.mesh.fenced.length % 1024)
      + 2 ^ 30 * bt.badCores.length + 2 ^ 44 * (if s.bootPast 2 then bt.log.length else 0))
  else if off = rMNT_ARB_STAT then
    let running := (m.entries.filter MaintEntry.running).length
    some (running + 2 ^ 8 * (m.entries.length - running) + 2 ^ 16 * b2n m.recovery)
  else if off = rMNT_REHEARSE_STAT then some (raw / 2 * 2 + b2n m.injection.isSome)
  else if off = rSEC_STATUS then
    some (b2n (s.keysOk && s.bootPast 2) + 2 * b2n s.rom.debugDisable + 4 * s.sec.debugLevel)
  else if off = rSEC_LMS_STAT then some s.sec.nextQ
  else if off = rSEC_DEBUG_NONCE then some s.sec.nonce
  else if off = rTEL_STATUS then some (b2n s.tel.latched.isSome)
  else
    firstSome [
      (elem rCFG_ACTIVE_DIGEST 8 6 off).map (digestWord s.active.digest),
      (elem rCFG_SHADOW_DIGEST 8 6 off).map (digestWord s.shadow.digest),
      (elem rCOLL_PENDING 8 16 off).map (fun i => match g.ticks.head? with
        | none => 0
        | some t => ofBits ((List.range 64).filter (fun b => t.bucketsOpen.contains (64 * i + b)))),
      (elem rMNT_ACT 8 16 off).map (fun i => ((m.entries[i]?).map MaintEntry.view).getD 0),
      (elem rSEC_ROLLBACK 8 4 off).map (fun i => SMap.get 0 s.sec.rollback i),
      (elem rSEC_FW 8 4 off).map s.sec.fwView,
      (elem rSEC_KEYHASH 8 12 off).map (fun i => SMap.get 0 s.rom.keyHash i) ]

/-- `COLL_UNIT_STATUS` of the unit of logical die `d` at a site (R307). -/
def State.unitStatus (s : State) (site d : Nat) : Nat :=
  let served := (s.served d).length - 1
  let u := s.unit d
  let (busy, open_) := match s.gen.ticks.head? with
    | none => (false, 0)
    | some t =>
      let bs := (s.active.tagsOf t.prog).map (fun g =>
        let b := u.bucket g
        if b.tick = t.tick ∧ b.att = t.att then (b.started && !b.complete && !b.failed, !b.complete) else (false, true))
      (bs.any (·.1), (bs.filter (·.2)).length)
  b2n (s.coll.retired.contains site) + 2 * b2n (decide (0 < served)) + 4 * b2n busy + 2 ^ 8 * served + 2 ^ 16 * min 1024 open_

/-- `COLL_UNIT_STATUS` of the engine of link die `e`: it works for the dimensions that name it. -/
def State.engineStatusOf (s : State) (e : Nat) : Nat :=
  let dims := (List.range s.sysK).filter (fun d => s.engineLink d == e)
  let (busy, open_) := match s.gen.ticks.head? with
    | none => (false, 0)
    | some t =>
      let tags := (s.active.tagsOf t.prog).filter (fun g => decide (1 < bkPanels (s.active.bucket g)))
      let at_ := fun d g => SMap.get EngineBucket.empty s.coll.engines (1024 * d + g)
      let mine := fun (b : EngineBucket) => b.tick == t.tick && b.att == t.att
      let running := dims.any (fun d => tags.any (fun g => mine (at_ d g) && (at_ d g).running && !(at_ d g).failed))
      let left := tags.filter (fun g => !dims.isEmpty && t.bucketsOpen.contains g)
      (running, left.length)
  b2n (s.coll.retired.contains (204 + e)) + 2 * b2n (decide (1 < dims.length) || dims.any (fun d => 4 + d != e))
    + 4 * b2n busy + 2 ^ 16 * min 1024 open_

/-- The view of a register of link die `e`. -/
def State.viewLink (s : State) (e off : Nat) : Option Nat :=
  if off = rCOLL_UNIT_STATUS then some (s.engineStatusOf e)
  else
    (elem (rVLNK_XCTX_CFG + 0x18) 0x20 512 off).map (fun i =>
      let x := SMap.get XCtx.reset s.vorrad.ctxs (512 * e + i)
      x.seq % 2 ^ 32 + 2 ^ 32 * min 16 x.posts.length + 2 ^ 37 * x.st + 2 ^ 39 * min 64 x.unacked.length)

/-- The view of a BAR0 register. -/
def State.viewBar (s : State) (off : Nat) : Option Nat :=
  if off = rHOST_COMMIT_SEQ then some s.gen.nodeSeq.toNat
  else if off = rHOST_EVENT_STAT then some s.eventStat
  else
    (elem rHOST_Q_STATUS 0x20 64 off).map (fun q =>
      let p := SMap.get QPair.reset s.host.pairs q
      setField (s.reg unitBar off) 34 1 (b2n (p.draining && !p.cmds.isEmpty)))

/-- The view of the power, clock and collective registers of a die. -/
def State.viewDieMore (s : State) (site off : Nat) : Option Nat :=
  let raw := s.reg (unitDie site) off
  if off = rPWR_DIE_STATUS then some (setField (setField raw 7 1 (b2n (s.dieCapped site))) 8 1 (b2n s.reef))
  else if off = rCOLL_UNIT_STATUS then
    some (match s.active.dieAt site with
      | some d => s.unitStatus site d
      | none => b2n (s.coll.retired.contains site))
  else (elem rCLK_SEAM 4 4 off).map (fun e => setField raw 0 2 (s.seamState site e))

/-- The computed view of a register, where its content is not held in the register store. -/
def State.viewOf (s : State) (u off : Nat) : Option Nat :=
  if u < 0x4000 then firstSome [s.viewFormats u off, s.viewCore u off]
  else if u < 0x5000 then firstSome [s.viewDieMore (u - 0x4000) off, s.viewDie (u - 0x4000) off]
  else if u < 0x6000 then
    let e := u - 0x5000
    firstSome [
      if e < 8 then s.viewLink e off else if e = 9 then s.viewMgmt off else none,
      s.viewMesh (204 + e) off ]
  else s.viewBar off

/-! The pins of the management connector that the panel drives (R500); TICK_OUT pulses are counted in `TickGen.tickOut`. -/

/-- SMB_ALERT# is low: an MCTP event of R490 waits for its acknowledgement. -/
def State.smbAlert (s : State) : Bool := !s.events.mctpQ.isEmpty

/-- PWR_GOOD is released: the input sampled last lies in 11.4–12.6 V, and the management die runs. -/
def State.pwrGood (s : State) : Bool :=
  let mv := s.fld unitMgmt rPWR_INPUT 0 16
  s.supply.down.isNone && decide (11400 ≤ mv) && decide (mv ≤ 12600)

end Sys2Proof.Machine
end

