-- ==== Sys2Proof/Machine/WorldOps.lean ====
section
/-!
DEFINITION. The world table (R252–R258, R267): its words, its writes, and what a commit does to an entry.
-/
namespace Sys2Proof.Machine

def State.world (s : State) (w : Nat) : World := SMap.get World.reset s.worlds.table w
def State.setWorld (s : State) (w : Nat) (x : World) : State :=
  { s with worlds := { s.worlds with table := SMap.set World.reset s.worlds.table w x } }

/-- The patch of a world in a set (R270 WORLD). -/
def ConfigSet.worldPatch (c : ConfigSet) (w : Nat) : Nat := leAt (c.entry 7 w 1) 0 1

/-- Word `k` (0–7) of an entry (R267). -/
def World.word (x : World) (patch k : Nat) : Nat :=
  if k = 0 then x.state + 4 * b2n x.resetReq + 8 * b2n x.doneLast + 16 * b2n x.resetErr + 32 * b2n x.autoReset
      + 2 ^ 8 * patch + 2 ^ 16 * x.slots + 2 ^ 32 * x.user.toNat
  else if k = 1 then x.stateBase
  else if k = 2 then x.slotStride + 2 ^ 32 * x.slotBytes
  else if k = 3 then x.template
  else if k = 4 then x.keyLo.toNat
  else if k = 5 then x.keyHi.toNat
  else if k = 6 then x.step
  else x.episode + 2 ^ 32 * x.doneTick

/-- R267: a write of `WCTX_STATUS` is refused as a whole: 0 no, 1 for SLOTS = 3 without THREE_SLOT, 2 otherwise. -/
def statusRefused (three : Bool) (v : Nat) : Nat :=
  let st := field v 0 2
  let sl := field v 16 2
  if sl = 3 ∧ !three then 1
  else if sl < 2 ∨ st = 3 then 2
  else 0

/-- The entry after a write of `WCTX_STATUS` that is not refused. -/
def World.writeStatus (x : World) (v : Nat) : World :=
  { x with
    state := field v 0 2, resetReq := x.resetReq || bit v 2, resetErr := x.resetErr && !bit v 4,
    autoReset := bit v 5, slots := field v 16 2, user := BitVec.ofNat 32 (v / 2 ^ 32) }

/-- The entry after a write of word 1 to 5; the words 6 and 7 are RO. -/
def World.writeWord (x : World) (k v : Nat) : World :=
  if k = 1 then { x with stateBase := v % 2 ^ 48 }
  else if k = 2 then { x with slotStride := v % 2 ^ 32, slotBytes := v / 2 ^ 32 % 2 ^ 32 }
  else if k = 3 then { x with template := v % 2 ^ 48 }
  else if k = 4 then { x with keyLo := BitVec.ofNat 64 v }
  else if k = 5 then { x with keyHi := BitVec.ofNat 64 v }
  else x

/-- The value of a word is within R267: word 1 a multiple of 4 KiB, word 2 its stride and bytes, word 3 a multiple of
64, both addresses in space 0x0. -/
def worldWordOk (k v : Nat) : Bool :=
  if k = 1 then decide (v % 4096 = 0) && decide (v < 2 ^ 44)
  else if k = 2 then decide (v % 2 ^ 32 % 4096 = 0) && decide (v / 2 ^ 32 % 64 = 0) && decide (64 ≤ v / 2 ^ 32)
    && decide (v / 2 ^ 32 ≤ v % 2 ^ 32)
  else if k = 3 then decide (v % 64 = 0) && decide (v < 2 ^ 44)
  else true

/-- The mark key of a world in a tick. -/
def markKey (tick w : Nat) : Nat := 4096 * (tick % 2) + w

/-- A world is marked done in an attempt of a tick: by a task's write, or by RESET_REQ (R254). -/
def State.marked (s : State) (t : TickRun) (w : Nat) : Bool :=
  SMap.get (0, 0) s.worlds.marks (markKey t.tick w) == (t.tick, t.att) && t.tick != 0
    || ((s.world w).resetReq && (s.world w).reqTick == some t.tick)

/-- R256: an entry at the commit of the tick, `st` its STATE as latched. -/
def World.commit (x : World) (t : TickRun) (st : Nat) (marked : Bool) : World :=
  let x :=
    if st = 1 then
      if marked then
        { x with
          step := 0, episode := (x.episode + 1) % 2 ^ 32, doneLast := true, doneTick := t.tick % 2 ^ 32
          state := if !x.autoReset || x.resetErr then 2 else x.state }
      else { x with step := (x.step + 1) % 2 ^ 48, doneLast := false }
    else if st = 2 then { x with doneLast := false }
    else x
  if x.reqTick = some t.tick then { x with resetReq := false, reqTick := none } else x

/-- The entry as the commit of the tick leaves it. -/
def State.worldAfter (s : State) (t : TickRun) (w : Nat) : World :=
  (s.world w).commit t (SMap.get 0 t.latched w) (s.marked t w)

/-- R257: the entry a read returns: for a task of tick `y`, as the commit of its predecessor leaves it. -/
def State.worldSeen (s : State) (y : Option Nat) (w : Nat) : World :=
  match y, s.gen.ticks.head? with
  | some y, some t => if t.tick + 1 = y then s.worldAfter t w else s.world w
  | _, _ => s.world w

/-- Offsets of the world table on edge die 8 (R252). -/
def worldOff (off : Nat) : Option (Nat × Nat) :=
  if 0x01000000 ≤ off ∧ off < 0x01040000 ∧ off % 8 = 0 then
    some ((off - 0x01000000) / 64, (off - 0x01000000) / 8 % 8)
  else none

/-- `n` bytes of the world table at an offset, for a task of tick `y` or another reader. -/
def State.worldRead (s : State) (y : Option Nat) (off n : Nat) : Option Nat :=
  (worldOff (off / 8 * 8)).map (fun (w, k) =>
    field ((s.worldSeen y w).word (s.active.worldPatch w) k) (8 * (off % 8)) (8 * n))

end Sys2Proof.Machine
end

