-- ==== Sys2Proof/Machine/RegRead.lean ====
section
/-!
DEFINITION. Register reads (R6, R8, R56, R510): the value found, and the fields that a read clears.
-/
namespace Sys2Proof.Machine

/-- What a read of a whole register finds: its view or its stored value; an RWT field reads as the shadow set's value
(R6), a write-only field as zero. -/
def State.regFull (s : State) (u : Nat) (r : RegRow) (off : Nat) : Nat :=
  match s.viewOf u off with
  | some v => v
  | none =>
    let v := if r.rwt = 0 then s.reg u off
      else (s.reg u off - (s.reg u off &&& r.rwt)) + (s.shadow.reg u off &&& r.rwt)
    v - (v &&& r.wo)

/-- The distance of the pointer separation to the nearer end of the FIFO, in 1/64 UI (R404). -/
def sepMargin (sep : Nat) : Nat := min sep (512 - sep)
/-- `CLK_SEAM` of an exit. -/
def seamOff (e : Nat) : Nat := rCLK_SEAM + 4 * e

/-- The post registers refuse every access but a task's post (R307, R330). -/
def refusedReg (u off : Nat) : Bool :=
  decide (0x4000 ≤ u) && decide (u < 0x5008) &&
    ((decide (rCOLL_POST ≤ off) && decide (off < rCOLL_POST + 64))
      || (decide (0x5000 ≤ u) && decide (rVLNK_XPOST ≤ off) && decide (off < rVLNK_XPOST + 64)))

/-- A read clears the ROC bits `clr` of a register: of the counters that hardware has counted in since the beginning of
this cycle it finds the value before, and leaves the events (R7). It answers the bits found. -/
def State.clearRoc (s : State) (u off clr : Nat) : Nat × State :=
  let cur := s.reg u off
  match s.hwOf u off with
  | none => (cur &&& clr, if cur &&& clr = 0 then s else s.putReg u off (cur - (cur &&& clr)))
  | some (old, b, n) =>
    if n &&& clr = 0 then (cur &&& clr, if cur &&& clr = 0 then s else s.putReg u off (cur - (cur &&& clr)))
    else
      (old &&& clr, ({ s with hw := (s.now, SMap.put s.hw.2 (regKey u off) (old - (old &&& clr), b, n)) } : State).putReg u off
        (cur - (cur &&& clr) + (n &&& clr)))

/-- What else a read does: the least margin of a seam link becomes the current one, and no margin code of a region has been
sampled since (R414). -/
def State.afterRead (s : State) (u off : Nat) : State :=
  if u < 0x4000 ∨ 0x5000 ≤ u then s
  else if (elem rCLK_SEAM 4 4 off).isSome then s.putReg u off (setField (s.reg u off) 17 9 (sepMargin (s.fld u off 8 9)))
  else match elem rCLK_MARGIN 4 10 off with
    | some r => s.modRegion (u - 0x4000) r (fun x => { x with codeSeen := false })
    | none => s

/-- Read a whole register: ROC fields clear. -/
def State.readFull (s : State) (u : Nat) (r : RegRow) (off mask : Nat) : Nat × State :=
  let clr := r.roc &&& mask
  let (found, s') := s.clearRoc u off clr
  let all := s.regFull u r off
  let v := if r.roc = 0 then all else all - (all &&& clr) + found
  (v, s'.afterRead u off)

/-- Read `n` (4 or 8) bytes at offset `off` of holder `u`: one register, one half of a 64-bit register, or two 32-bit
registers, the lower one first; a reserved offset reads zero (R8, R56, R510). -/
def State.regRead (s : State) (u off n : Nat) : Nat × State :=
  if u = unitHost ∧ (worldOff (off / 8 * 8)).isSome then ((s.worldRead none off n).getD 0, s)
  else match regRow? u (off / 8 * 8) with
  | some r =>
    if r.bytes = 8 then
      if off % 8 = 4 then
        let (v, s) := s.readFull u r (off / 8 * 8) (0xFFFFFFFF * 2 ^ 32)
        (v / 2 ^ 32, s)
      else if n = 8 then s.readFull u r off (2 ^ 64 - 1)
      else
        let (v, s) := s.readFull u r off 0xFFFFFFFF
        (v % 2 ^ 32, s)
    else
      let one := fun (s : State) o =>
        match regRow? u o with
        | some r => s.readFull u r o 0xFFFFFFFF
        | none => (0, s)
      let (a, s) := one s off
      if n = 8 then
        let (b, s) := one s (off + 4)
        (a + 2 ^ 32 * b, s)
      else (a, s)
  | none =>
    match regRow? u (off / 8 * 8 + 4) with
    | some r =>
      if off % 8 = 4 ∧ r.bytes = 4 then s.readFull u r off 0xFFFFFFFF
      else if n = 8 ∧ r.bytes = 4 then
        let (b, s) := s.readFull u r (off + 4) 0xFFFFFFFF
        (2 ^ 32 * b, s)
      else (0, s)
    | none => (0, s)

/-- The holder and offset of a register address (R10); `none` is no register space. -/
def State.regTarget (s : State) (t : Target) : Option (Nat × Nat) :=
  match t with
  | .coreReg d l o => (s.active.coreIx d l).map (fun p => (unitCore p, o))
  | .dieReg d o => (s.active.site d).map (fun site => (unitDie site, o))
  | .edge e o => some (unitEdge e, o)
  | _ => none

/-- R221, R477: count in a field of a router register, unless FREEZE, and in its accumulator. -/
def State.meshBump (s : State) (p off lo w n : Nat) : State :=
  let s := s.telBump (regKey (unitCore p) off) lo w n
  if bit (s.reg (unitCore p) rMESH_TEL_CTRL) 0 then s else s.bump (unitCore p) off lo w n

end Sys2Proof.Machine
end

