-- ==== Sys2Proof/Machine/Dma.lean ====
section
/-!
DEFINITION. The commands of the DMA engines (R43–R46, R104, R215–R217, R260, R509).
-/
namespace Sys2Proof.Machine

/-- COPY, COPY2D and FILL: the descriptor starts, or issues its next access (R43, R48, R509). -/
def execCopy (c : CoreIx) (desc : Nat) (s : State) : Res := dmaRun .copy c desc s
def execCopy2d (c : CoreIx) (desc : Nat) (s : State) : Res := dmaRun .copy2d c desc s
def execFill (c : CoreIx) (desc : Nat) (s : State) : Res := dmaRun .fill c desc s

/-! Multicast. -/

/-- Index of a target in its group. -/
def DmaDesc.targetIx (d : DmaDesc) (t : Nat) : Nat := (groupTargets d.group).findIdx (· == t)
def DmaDesc.target (d : DmaDesc) (i : Nat) : TargetState := SMap.get .pending d.targets i
def DmaDesc.setTarget (d : DmaDesc) (i : Nat) (t : TargetState) : DmaDesc :=
  { d with targets := SMap.set .pending d.targets i t }

/-- The assembled line at offset `b` of a multicast, when every byte of it has come. -/
def DmaDesc.lineAt (d : DmaDesc) (b : Nat) : Option (List Byte) :=
  d.gathered 0 b 64

/-- A target of a group that runs on a mapped die: others are refused as R11 and R29 refuse an access. -/
def State.hasTarget (s : State) (kind t : Nat) : Bool :=
  if kind = 0 then (s.active.coreOf t).isSome else (s.active.site t).isSome

/-- The pending targets that no line can reach are refused with ADDRESS_ERROR. -/
def State.refuseUnmapped (s : State) (d : DmaDesc) : DmaDesc :=
  (groupTargets d.group).foldl (fun (d : DmaDesc) t =>
    if d.target (d.targetIx t) = .pending ∧ !s.hasTarget (groupKind d.group) t then
      d.setTarget (d.targetIx t) (.refused stAddressError)
    else d) d

/-- The packet of line `k` of a multicast (R215). -/
def State.mcastPacket (s : State) (p : Nat) (d : DmaDesc) (k : Nat) (line : List Byte) : Packet :=
  { cargo := .mcast p d.id k line (decide (64 * (k + 1) = d.length)), from_ := .router (p / 50) (p % 50),
    dest := if groupKind d.group = 0 then (d.dst + 64 * k) % 2 ^ 20 else (d.dst + 64 * k) % 2 ^ 34
    destRouter := groupKind d.group, vc := 7, patch := d.patch, mid := none, esc := false,
    poolQ := false, exit := none, seamHops := 0, flits := 1, since := s.now, place := .inject, inPort := 4, held := none,
    targets := (groupTargets d.group).filter (s.hasTarget (groupKind d.group)) }

/-- A line read for a destination in space 0x0 joins the hashes of the descriptor (R455). -/
def DmaDesc.hashLine (d : DmaDesc) (dest : Nat) (data : List Byte) : DmaDesc :=
  if space dest = 0 ∧ !d.resending then
    { d with hash := (d.hash + lineHash (dest / 64 * 64) (data ++ zeros (64 - data.length))) % 2 ^ 64 }
  else d

/-- The lines that are complete leave in ascending order (R215). -/
def State.sendLines : Nat → State → Nat → Nat → State
  | 0, s, _, _ => s
  | fuel + 1, s, p, id =>
    match s.dmaFind p id with
    | none => s
    | some d =>
      let b := 64 * d.sentLines
      match d.lineAt b with
      | none => s
      | some line =>
        let s := s.newPacket (s.mcastPacket p d d.sentLines line)
        let ds := if groupKind d.group = 0 then [] else (groupTargets d.group).map (fun t => t * 2 ^ 36 + (d.dst + b) % 2 ^ 34)
        (s.modDesc p id (fun d => { ((ds.foldl (fun (d : DmaDesc) a => d.hashLine a line) d).drop 0 b 64) with
          sentLines := d.sentLines + 1 })).sendLines fuel p id

/-- MCAST: the descriptor starts, or issues its next source read (R215). -/
def execMcast (c : CoreIx) (desc : Nat) (s : State) : Res :=
  match s.dmaFind c.val desc with
  | none => .next s
  | some d =>
    if d.resending || s.coreDown c.val then .next s
    else if d.op != .mcast || d.finished.isSome || d.stopped || (d.started && d.rows ≤ d.row) then .next s
    else if !d.started && !(s.core c.val).dma.mayStart d then .next s
    else
      let s := if d.started then s
        else s.modDesc c.val desc (fun d => { d with started := true, valiant := s.chooseValiant c.val })
      let d := { d with valiant := ((s.dmaFind c.val desc).getD d).valiant }
      let b := d.col / 64 * 64
      let n := min (64 - (d.src + d.col) % 64) (b + 64 - d.col)
      let s := s.modDesc c.val desc (fun d => { (d.step n) with outstanding := d.outstanding + 1 })
      .next (s.issueAccess c.val d 0 d.col (.read n) (d.src + d.col) none)

/-- The address of target `i` (R214). -/
def DmaDesc.targetAddr (d : DmaDesc) (i : Nat) : Nat :=
  let t := (groupTargets d.group).getD i 0
  if groupKind d.group = 0 then spadAddr (t / 48) (t % 48) (d.dst % 2 ^ 20) else t * 2 ^ 36 + d.dst % 2 ^ 34

/-- The bits of the targets that `f` selects, as the bytes of one half of the miss bitmap. -/
def DmaDesc.targetBits (d : DmaDesc) (f : TargetState → Bool) : List Byte :=
  let n := (groupTargets d.group).length
  leBytes (missBytes n / 2) (ofBits ((List.range n).filter (fun i => f (d.target i))))

def TargetState.isMissed : TargetState → Bool
  | .missed => true
  | .resent => true
  | .resendRefused _ => true
  | _ => false

def TargetState.refusal : TargetState → Option Status
  | .refused st => some st
  | .resendRefused st => some st
  | _ => none

/-- The status of a multicast whose targets are all accounted for (R217). -/
def DmaDesc.mcastStatus (d : DmaDesc) : Status :=
  let n := (groupTargets d.group).length
  match (List.range n).findSome? (fun i => (d.target i).refusal) with
  | some st => st
  | none => if (List.range n).any (fun i => (d.target i).isMissed) then stMulticastPartial else stOk

/-- The unicast re-send of a target is over: its result is noted. -/
def DmaDesc.endResend (d : DmaDesc) : DmaDesc :=
  let r := match d.target d.resendAt with
    | .resendRefused st => TargetState.resendRefused st
    | _ => .resent
  { (d.setTarget d.resendAt r) with resending := false, stopped := false, credit := .none }

/-- No line of a stream is in the mesh, and no notice of it is on its way. -/
def State.streamOver (s : State) (p id : Nat) : Bool :=
  s.mesh.packets.all (fun e => match e.2 with
    | some x =>
      match x.cargo with
      | .mcast c d _ _ _ => c != p || d != id
      | .miss c d _ => c != p || d != id
      | .ack c d _ _ => c != p || d != id
      | _ => true
    | none => true)
  && s.mesh.notices.all (fun x => x.1 != p || x.2.1 != id) && s.mesh.acks.all (fun x => x.1 != p || x.2.1 != id)

/-- The targets that have refused a line of a stream without an acknowledgement yet. -/
def State.refusedAt (s : State) (p id : Nat) : List (Nat × Status) :=
  s.mesh.refusals.filterMap (fun r => if r.1 = p ∧ r.2.1 = id then some (r.2.2.1, r.2.2.2) else none)

/-- A stream that ends without its LAST line leaves nothing at routers and targets. -/
def State.forgetStream (s : State) (p id : Nat) : State :=
  { s with mesh := { s.mesh with
      drops := s.mesh.drops.filter (fun r => r.core != p || r.desc != id)
      refusals := s.mesh.refusals.filter (fun r => r.1 != p || r.2.1 != id) } }

/-- The bitmap of a multicast is written, and its status is known (R217 steps 3 and 4). -/
def State.writeBitmap (s : State) (p : Nat) (d : DmaDesc) (st : Status) : State :=
  let bits := d.targetBits TargetState.isMissed ++ d.targetBits (fun t => t.refusal.isSome)
  ((s.touchPlain p true d.missOff bits.length).spadWrite p d.missOff bits).modDesc p d.id (fun d => { d with finished := some st })

/-- MCAST_RESEND: with every target acknowledged or missed, the engine re-sends to the missed targets in ascending
order by unicast, then writes the bitmap and knows the status (R217). DESIGN CHOICE (log 110): after a failed source read no
LAST line is sent, so no target acknowledges; once the lines sent are gone from the mesh the bitmap names the targets missed
and those that have refused, nothing is re-sent, and the status is that of the read (R509). -/
def execMcastResend (c : CoreIx) (desc : Nat) (s : State) : Res :=
  let p := c.val
  match s.dmaFind p desc with
  | none => .next s
  | some d =>
    let n := (groupTargets d.group).length
    let queued := (s.core p).dma.queue.contains d
    let d := if d.op = .mcast then s.refuseUnmapped d else d
    if d.op != .mcast || s.coreDown p || d.finished.isSome || !queued then .next s
    else if let some (_, _, st) := d.failed then
      if d.outstanding != 0 || !s.streamOver p desc then .next s
      else
        let d := (s.refusedAt p desc).foldl (fun (d : DmaDesc) (e : Nat × Status) =>
          d.setTarget (d.targetIx e.1) (.refused e.2)) d
        .next (((s.modDesc p desc (fun _ => d)).writeBitmap p d st).forgetStream p desc)
    else if d.length ≠ 64 * d.sentLines || (List.range n).any (fun i => d.target i == .pending) then .next s
    else if d.resending then
      let x := { d with dst := d.targetAddr d.resendAt, length := d.length }
      if d.stopped ∨ 1 ≤ d.row then
        if d.outstanding = 0 then .next ((s.creditsDue p x).modDesc p desc DmaDesc.endResend) else .next s
      else .next ((s.modDesc p desc (fun _ => x)).issueNext p x)
    else
      match (List.range n).find? (fun i => d.target i == .missed) with
      | some i =>
        .next (s.modDesc p desc (fun d => { d with
          resending := true, resendAt := i, row := 0, col := 0, stopped := false, dst := d.targetAddr i }))
      | none =>
        .next ((s.modDesc p desc (fun _ => d)).writeBitmap p d d.mcastStatus)

/-- A target's result reaches its source. -/
def State.noteTarget (s : State) (p id t : Nat) (f : TargetState → TargetState) : State :=
  s.modDesc p id (fun d => d.setTarget (d.targetIx t) (f (d.target (d.targetIx t))))

/-- MCAST_ACK: the `k`-th acknowledgement on its way reaches the source (R215). -/
def execMcastAck (k : Nat) (s : State) : Res :=
  match s.mesh.acks[k]? with
  | none => .next s
  | some (p, id, t, st) =>
    let s := { s with mesh := { s.mesh with acks := s.mesh.acks.eraseIdx k } }
    .next (s.noteTarget p id t (fun x => match x with
      | .pending => if st = stOk then .acked else .refused st
      | x => x))

/-- MISS_NOTICE: the `k`-th miss notice on its way reaches the source; each target counts once (R216). -/
def execMissNotice (k : Nat) (s : State) : Res :=
  match s.mesh.notices[k]? with
  | none => .next s
  | some (p, id, ts) =>
    let s := { s with mesh := { s.mesh with notices := s.mesh.notices.eraseIdx k } }
    .next (ts.foldl (fun s t => s.noteTarget p id t (fun x => match x with
      | .pending => .missed
      | .acked => .missed
      | x => x)) s)

/-! Replies. -/

/-- An access of descriptor `d` has failed: of a re-send, its target refused it; else R509. -/
def DmaDesc.refuse (d : DmaDesc) (row col : Nat) (st : Status) (isRead : Bool) : DmaDesc :=
  if d.resending ∧ !isRead then { (d.setTarget d.resendAt (.resendRefused st)) with stopped := true }
  else d.fail row col st

/-- The status of a descriptor is known once its accesses are answered; that of an MCAST by MCAST_RESEND (R217, R509). -/
def DmaDesc.settleAll (d : DmaDesc) : DmaDesc := if d.op = .mcast then d else d.settle

/-- The bytes of a destination line have come, or some of them: with all of them the line is written. Behind a failed access it
is written or not, which R509 leaves open; the credit of a line not written goes unused. -/
def State.lineArrived (s : State) (p : Nat) (d : DmaDesc) (a : Access) : State :=
  let col := d.unitStart a.row a.col
  let n := d.writeSize a.row col
  let s := s.modDesc p d.id (fun d => d.put a.row a.col a.data)
  match (d.put a.row a.col a.data).gathered a.row col n with
  | none => s
  | some bs =>
    let behind := match d.failed with
      | some (r, c, _) => placeLt (r, c) (a.row, col)
      | none => false
    let (b, s) := if behind then s.freeBit else (true, s)
    let s := s.modDesc p d.id (fun d => d.drop a.row col n)
    let dest := d.dstAt a.row col
    if b then
      (s.modDesc p d.id (fun d => (d.hashLine dest bs).issued)).issueAccess p d a.row col (.write bs) dest a.grant
    else s.owe p d.id dest a.grant

/-- Data read for a place in transfer order goes on: into a multicast line, the next write to or from a register space, or the
write of its line. -/
def State.dataArrived (s : State) (p : Nat) (d : DmaDesc) (a : Access) : State :=
  if d.op = .mcast ∧ !d.resending then
    if d.stopped then s else (s.modDesc p d.id (fun d => d.put 0 a.col a.data)).sendLines 64 p d.id
  else if d.byRegister then
    if d.stopped then s
    else
      let d' := d.put 0 a.col a.data
      let s := s.modDesc p d.id (fun _ => d')
      if (d'.gathered 0 d'.writeCol (d'.writeSize 0 d'.writeCol)).isSome then s.issueByRegister p d' else s
  else s.lineArrived p d a

/-- An answered access of a descriptor that is gone: its credits wait for one answer less (R104). -/
def State.answerLate (s : State) (p id : Nat) : State :=
  s.modDma p (fun m => { m with
    returns := m.returns.map (fun r => if r.desc = id then { r with outstanding := r.outstanding - 1 } else r) })

/-- A cancelled descriptor whose last access is answered is gone, and its credits return (R54, R104). -/
def State.endStopping (s : State) (p id : Nat) : State :=
  match (s.core p).dma.stopping.find? (fun d => d.id == id) with
  | none => s
  | some d =>
    if d.outstanding != 0 then s
    else (s.creditsDue p d).modDma p (fun m => { m with stopping := m.stopping.filter (fun e => e.id != id) })

def AccessKind.isRead : AccessKind → Bool
  | .read _ => true
  | _ => false

/-- REPLY_ARRIVAL: the answer to one access reaches its engine (R509). -/
def execReplyArrival (acc : Nat) (s : State) : Res :=
  match s.access acc with
  | none => .next s
  | some a =>
    let p := a.core
    if a.stage != .replied then .next s
    else
      match a.kind with
      | .creditReq .. => .next s
      | .creditReturn .. => .next s
      | kind =>
        let s := s.setAccess acc none
        let isRead : Bool := kind.isRead
        let s := s.answerLate p a.desc
        match s.dmaFind p a.desc with
        | none => .next s
        | some _ =>
          let s := s.modDesc p a.desc (fun d => { d with outstanding := d.outstanding - 1 })
          match s.dmaFind p a.desc with
          | none => .next s
          | some d =>
            let s := if a.status != stOk then
                let s := s.modDesc p a.desc (fun d => d.refuse a.row a.col a.status isRead)
                if isRead then s.owe p a.desc (d.dstAt a.row (d.unitStart a.row a.col)) a.grant else s
              else if isRead then s.dataArrived p d a
              else s
            .next ((s.modDesc p a.desc DmaDesc.settleAll).endStopping p a.desc)

/-! Credits at the sender (R104). -/

/-- The reply to a request is still a packet of the mesh. -/
def State.replyOnWay (s : State) (acc : Nat) : Bool :=
  s.mesh.packets.any (fun e => match e.2 with
    | some x => x.cargo == .reply acc
    | none => false)

/-- CREDIT_REPLY: a grant, HOLD, RETRY or REFUSED reaches the sending engine (R104). A grant of a channel window covers
every write into its slots. -/
def execCreditReply (acc : Nat) (s : State) : Res :=
  match s.access acc with
  | none => .next s
  | some a =>
    match a.kind, a.answer with
    | .creditReq extent want, some ans =>
      if s.replyOnWay acc then .next s
      else
        let p := a.core
        match ans with
        | .hold => .next (s.setAccess acc (some { a with answer := none }))
        | .retry =>
          .next ((s.setAccess acc none).modDesc p a.desc (fun d => { d with
            credit := .retryAt a.addr extent want (s.now + Config.cycUs) }))
        | .refused =>
          .next ((s.setAccess acc none).modDesc p a.desc (fun d =>
            (({ d with credit := .none } : DmaDesc).refuse a.row a.col stWindowRefused false).settleAll))
        | .grant g n =>
          let s := s.setAccess acc none
          match s.needsCredit p a.addr, s.dmaFind p a.desc with
          | some q, some d =>
            let left := if ((s.spad q).win g.win).channel then d.writesIn 130 a.row a.col extent else n
            .next (s.modDesc p a.desc (fun d => { d with credit := .granted g left a.addr (a.addr + extent) }))
          | some q, none =>
            .next (s.modDma p (fun m => { m with returns := m.returns ++
              [{ desc := a.desc, outstanding := 0, target := q, ref := g }] }))
          | none, _ => .next s
    | _, _ => .next s

/-- CREDIT_RETRY: 1 µs after RETRY the request is repeated (R104). -/
def execCreditRetry (c : CoreIx) (desc : Nat) (s : State) : Res :=
  match s.dmaFind c.val desc with
  | none => .next s
  | some d =>
    match d.credit with
    | .retryAt lo extent _ t =>
      let d := if d.byRegister then { d with row := 0 } else d
      if d.stopped then .next s else .next ((s.advanceTo t).askCredit c.val d (lo - d.dstAt d.row 0) extent)
    | _ => .next s

/-- CREDIT_RETURN: the unused credits of a descriptor that is over return in one message, once every write it sent is
answered (R104). -/
def execCreditReturn (c : CoreIx) (desc : Nat) (s : State) : Res :=
  match (s.core c.val).dma.returns.find? (fun r => r.desc == desc && r.outstanding == 0) with
  | none => .next s
  | some r =>
    let s := s.modDma c.val (fun m => { m with returns := m.returns.erase r })
    match (s.spad r.target).liveGrant r.ref with
    | none => .next s
    | some g => .next (((s.modSpad r.target (fun sp => sp.endGrant r.ref.index)).tryClose r.target g.win).settle r.target)

/-! Completion (R43, R44). -/

/-- The status word and the token of a finished descriptor (R43, R44, R48). -/
def State.completeDesc (s : State) (p slot token off word st : Nat) : State :=
  let s := s.touchPlain p true (off + 56) 4
  (s.spadWrite p (off + 56) (leBytes 4 word)).completeToken p slot token st

/-- A matrix or vector descriptor completes: it is counted, and a status other than OK is recorded (R160, R180). `cnt`
and `err` are the offsets of the count and the record. -/
def State.engineDone (s : State) (p cnt err : Nat) (d : EngDesc) (st : Status) : State :=
  let u := unitCore p
  let s := s.bump u cnt 0 48 1
  if st = stOk || bit (s.reg u err) 63 then s
  else s.setReg u err (st + 2 ^ 8 * d.slot + 2 ^ 12 * d.token + 2 ^ 16 * d.off + 2 ^ 63)

/-- DESCRIPTOR_COMPLETION: an engine writes the status word of a finished descriptor and completes its token,
delivering its flags (R43, R44, R135). -/
def execDescriptorCompletion (c : CoreIx) (eng : Engine) (s : State) : Res :=
  let p := c.val
  let fin := fun (q : List EngDesc) (cnt err : Nat) (drop : Core → Core) =>
    match q with
    | [] => .next s
    | d :: _ =>
      match d.finished with
      | none => .next s
      | some st =>
        let s := (s.modCore p drop).modSlot p d.slot (fun sl => sl.mergeFlags s.now d.flags)
        .next ((s.engineDone p cnt err d st).completeDesc p d.slot d.token d.off (st + 256 * b2n d.qovf) st)
  match eng with
  | .matrix => fin (s.core p).mxu.queue rMXU_DESC_COUNT rMXU_LAST_ERROR (fun c => { c with mxu := { c.mxu with queue := c.mxu.queue.tail } })
  | .vector => fin (s.core p).vec.queue rVEC_DESC_COUNT rVEC_LAST_ERROR (fun c => { c with vec := { c.vec with queue := c.vec.queue.tail } })
  | .dma id =>
    match (s.core p).dma.queue.find? (fun d => d.id == id) with
    | none => .next s
    | some d =>
      match d.finished with
      | none => .next s
      | some st =>
        let s := (s.creditsDue p d).modDma p (fun m => { m with queue := m.queue.filter (fun e => e.id != id) })
        let s := if st = stOk then s.addHash d.tick d.hash else s
        .next (s.completeDesc p d.slot d.token d.off st st)

/-- HELD_DXI_ENQUEUE: a DXI released at the commit enters the queue once it has a place; its slot goes on in the next
cycle (R260). -/
def execHeldDxiEnqueue (c : CoreIx) (s : State) : Res :=
  let p := c.val
  let m := (s.core p).dma
  match m.waiting.find? (fun d => !d.held) with
  | none => .next s
  | some d =>
    if 16 ≤ m.queue.length then .next s
    else
      let s := s.modDma p (fun m => { m with queue := m.queue ++ [d], waiting := m.waiting.erase d })
      .next (s.modSlot p d.slot (fun sl =>
        match sl.wait with
        | .held (.dxi rd t) => (sl.setReg rd (BitVec.ofNat 64 t)).wake s.now
        | _ => sl))

end Sys2Proof.Machine
end

