-- ==== Sys2Proof/Machine/Mesh.lean ====
section
/-!
DEFINITION. The bulk mesh (spec/09): packets at routers, stations and edge dies; routing, escape, multicast branches,
failed links and injection throttling.
-/
namespace Sys2Proof.Machine

def State.modPacket (s : State) (k : Nat) (f : Packet → Packet) : State :=
  match s.packet k with
  | none => s
  | some x => s.setPacket k (some (f x))

/-- The packets of the mesh, with their keys. -/
def State.packetList (s : State) : List (Nat × Packet) :=
  s.mesh.packets.filterMap (fun e => e.2.map (fun x => (e.1, x)))

/-- The node a place belongs to: a site, or 204 + edge die. -/
def Packet.node (x : Packet) : Nat :=
  let of := fun (pl : Place) => match pl with
    | .router site _ => site
    | .station site _ _ => site
    | .edge e => 204 + e
    | .inject => 0
  if x.place = .inject then of x.from_ else of x.place

/-- The registers of the die at a node. -/
def nodeUnit (v : Nat) : Nat := if v < 204 then unitDie v else unitEdge (v - 204)

/-- A packet is discarded and counted at the die it is on (R206); with it a reduction packet is gone. -/
def State.discard (s : State) (k : Nat) (x : Packet) : State :=
  let s := match x.cargo with
    | .reduction id => { s with coll := { s.coll with packets := s.coll.packets.filter (fun y => y.pkt != some id) } }
    | _ => s
  (s.setPacket k none).bump (nodeUnit x.node) rMESH_DISCARD_COUNT 0 32 1

/-! Buffers (R201). -/

/-- Flits a router input buffer holds of a VC (of a pool of VC 6). -/
def bufferFlits (vc : Nat) : Nat := if vc = 4 ∨ vc = 6 ∨ vc = 7 then 4 else 8

/-- The packets in a buffer: at a place, in an input port or channel, of a VC and pool. -/
def State.inBuffer (s : State) (at_ : Packet → Bool) (port vc : Nat) (poolQ : Bool) : List (Nat × Packet) :=
  s.packetList.filter (fun e =>
    at_ e.2 && e.2.inPort == port && e.2.vc == vc && (vc != 6 || e.2.poolQ == poolQ))

/-- Flits in a list of packets; the branches of one multicast line are one flit. -/
def flitsIn (l : List (Nat × Packet)) : Nat :=
  ((l.filter (fun e => e.2.vc != 7)).map (fun e => e.2.flits)).sum
    + ((l.filter (fun e => e.2.vc == 7)).map (fun e => e.2.cargo)).eraseDups.length

def atRouter (site r : Nat) (x : Packet) : Bool := x.place == .router site r
def atStation (site exit : Nat) (x : Packet) : Bool := match x.place with
  | .station a b _ => a == site && b == exit
  | _ => false

/-- Input port `q` of a router has room for a packet. -/
def State.roomRouter (s : State) (site r q : Nat) (x : Packet) : Bool :=
  decide (flitsIn (s.inBuffer (atRouter site r) q x.vc x.poolQ) + x.flits ≤ bufferFlits x.vc)

/-- The link of an exit takes flits: it is neither fenced nor in training (R206). -/
def State.linkOpen (s : State) (l : Nat) : Bool :=
  !s.mesh.fenced.contains l && !s.active.graph.fenced.contains l && !s.mesh.training.contains l

/-- The channel of a station that takes a packet: the least occupied with room, the lowest-numbered on a tie (R199). -/
def State.roomStation (s : State) (site exit : Nat) (x : Packet) : Option Nat :=
  if !s.linkOpen (linkOf site exit) then none
  else
    ((List.range 8).foldl (fun (best : Option (Nat × Nat)) c =>
      let n := flitsIn (s.inBuffer (atStation site exit) c x.vc x.poolQ)
      if n + x.flits ≤ 2 * bufferFlits x.vc then
        match best with
        | none => some (c, n)
        | some (_, m) => if n < m then some (c, n) else best
      else best) none).map (·.1)

def atEdge (e : Nat) (x : Packet) : Bool := x.place == .edge e

/-- The buffer of an edge die that receives from channel `c` of its seam link `k` has room for a packet. -/
def State.roomEdge (s : State) (e k c : Nat) (x : Packet) : Bool :=
  decide (flitsIn (s.inBuffer (atEdge e) (8 * k + c) x.vc x.poolQ) + x.flits ≤ 2 * bufferFlits x.vc)

/-- The opposite port. -/
def opposite (q : Nat) : Nat := if q = 0 then 1 else if q = 1 then 0 else if q = 2 then 3 else 2

/-- The next buffer from port `q` of a router has room for the packet; the local port always takes one (R209). -/
def State.roomBeyond (s : State) (site r q : Nat) (x : Packet) : Bool :=
  if q = 4 then true
  else
    match nextRouter r q with
    | some r' => s.roomRouter site r' (opposite q) x
    | none => (s.roomStation site q x).isSome

/-! Throttling (R219). -/

/-- Thresholds of the levels 1–3. -/
def State.throttleT (s : State) (p l : Nat) : Nat :=
  let r := s.reg (unitCore p) rMESH_THROTTLE_CFG
  if l = 0 then 0 else field r (8 * (l - 1)) 7

/-- The level a router's depth asks for at once. -/
def State.levelFor (s : State) (p depth : Nat) : Nat :=
  if !bit (s.reg (unitCore p) rMESH_THROTTLE_CFG) 31 then 0
  else if s.throttleT p 3 < depth then 3 else if s.throttleT p 2 < depth then 2
  else if s.throttleT p 1 < depth then 1 else 0

/-- The depth of a router may have changed: its level rises at once, and the time its depth has been low is kept
(R219, `lowSince` holding the cycle + 1). -/
def State.noteDepth (s : State) (site r : Nat) : State :=
  let p := site * 50 + r
  let d := s.routerDepth site r
  let l0 := SMap.get 0 s.mesh.level p
  let want := s.levelFor p d
  let l := if !bit (s.reg (unitCore p) rMESH_THROTTLE_CFG) 31 then 0 else max l0 want
  let low := decide (0 < l) && decide (d + 4 ≤ s.throttleT p l)
  let was := SMap.get 0 s.mesh.lowSince p
  let since := if !low then 0 else if l = l0 ∧ was ≠ 0 then was else s.now + 1
  { s with mesh := { s.mesh with
      level := SMap.set 0 s.mesh.level p l, lowSince := SMap.set 0 s.mesh.lowSince p since } }

/-- THROTTLE_LEVEL_FALL: after 256 cycles at or below the threshold minus 4 the level falls by one (R219). -/
def execThrottleLevelFall (c : CoreIx) (s : State) : Res :=
  let p := c.val
  let l := SMap.get 0 s.mesh.level p
  let was := SMap.get 0 s.mesh.lowSince p
  if l = 0 ∨ was = 0 then .next s
  else
    let s := s.advanceTo (was - 1 + 256)
    let s := { s with mesh := { s.mesh with
      level := SMap.set 0 s.mesh.level p (l - 1), lowSince := SMap.set 0 s.mesh.lowSince p 0 } }
    .next (s.noteDepth (p / 50) (p % 50))

/-- Packets injected per 64 cycles at a level. -/
def levelRate (l : Nat) : Nat := if l = 0 then 64 else if l = 1 then 48 else if l = 2 then 32 else 8

/-! Multicast branches (R215, R216). -/

def targetDie (kind t : Nat) : Nat := if kind = 0 then t / 48 else t

/-- The output port the packet wants at router `r`. -/
def State.wantPort (s : State) (x : Packet) (r : Nat) : Option Nat :=
  x.exit.map (fun e => nextPort r e (s.targetRouter x))

/-- The exit of a multicast line at site `v` towards target `t`: up to the parent until `v` covers every target, then
down the tree (R205, R215). -/
def State.mcastExit (s : State) (v kind : Nat) (all : List Nat) (t : Nat) : Option Nat :=
  let g := s.active.graph
  match g.escRoot with
  | none => none
  | some root =>
    let lv := g.levels root
    let sites := all.map (fun t => s.active.site (targetDie kind t))
    let covers := sites.all (fun w => match w with
      | some w => (g.ancestors lv root 220 w).contains v
      | none => true)
    match s.active.site (targetDie kind t) with
    | none => none
    | some w => if covers then (if w = v then some 4 else g.esc v w) else (g.parent lv root v).map (·.2)

/-- The targets of the stream that this router skips (R216). -/
def State.skipped (s : State) (site r core desc : Nat) : List Nat :=
  (s.mesh.drops.filter (fun d => d.site == site && d.r == r && d.core == core && d.desc == desc)).flatMap
    DropRecord.targets

/-- The LAST line of a stream clears the drop record of the router it passes (R216). -/
def State.clearDrop (s : State) (site r : Nat) (x : Packet) : State :=
  match x.cargo with
  | .mcast core desc _ _ true =>
    { s with mesh := { s.mesh with drops := s.mesh.drops.filter (fun d =>
        !(d.site == site && d.r == r && d.core == core && d.desc == desc)) } }
  | _ => s

/-- A link is fenced (R206). -/
def State.isFenced (s : State) (l : Nat) : Bool := s.mesh.fenced.contains l || s.active.graph.fenced.contains l

/-- A multicast line at a router is copied: one packet for each exit and output port that its targets want. Targets
that an earlier drop skips are left out; a branch without a route, or whose exit is fenced, is discarded and counted (R206). A
LAST line whose targets are all skipped passes. -/
def State.splitMcast (s : State) (k : Nat) : State :=
  match s.packet k with
  | none => s
  | some x =>
    match x.place, x.cargo with
    | .router site r, .mcast core desc _ _ _ =>
      let skip := s.skipped site r core desc
      let ts := x.targets.filter (fun t => !skip.contains t)
      let want := ts.map (fun t =>
        let e := s.mcastExit site x.destRouter x.targets t
        (t, e, e.map (fun e => nextPort r e (s.targetRouter { x with targets := [t] }))))
      let keys := (want.map (fun w => (w.2.1, w.2.2))).eraseDups
      let s := s.setPacket k none
      keys.foldl (fun s key =>
        let mine := (want.filter (fun w => (w.2.1, w.2.2) == key)).map (·.1)
        match key.1 with
        | none => s.bump (unitDie site) rMESH_DISCARD_COUNT 0 32 1
        | some e =>
          if e < 4 ∧ s.isFenced (linkAt site e) then s.bump (unitDie site) rMESH_DISCARD_COUNT 0 32 1
          else s.newPacket { x with targets := mine, exit := some e, held := none })
        (if keys.isEmpty then s.clearDrop site r x else s)
    | _, _ => s

/-! Die entry (R203). -/

/-- Enter the escape tree: irreversible. -/
def State.enterEscape (s : State) (k : Nat) (x : Packet) : State :=
  let t := match s.active.routeNode x.dest with
    | none => none
    | some w => s.active.graph.esc x.node w
  match t with
  | none => s.discard k x
  | some e =>
    s.setPacket k (some { x with
      esc := true, poolQ := x.vc == 0 || x.vc == 1, vc := 6, exit := some e, mid := none })

/-- The exit a packet chooses at node `v` is fenced: it is discarded (R206). -/
def State.dropIfFenced (s : State) (k v e : Nat) : State :=
  match s.packet k, (exitsOf v).find? (fun y => y.1 == e) with
  | some x, some (_, _, l) =>
    if e < 4 ∧ s.isFenced l then s.discard k x else s
  | _, _ => s

/-- The exit at a die entry. -/
def State.chooseExit (s : State) (k : Nat) : State :=
  match s.packet k with
  | none => s
  | some x =>
    let v := x.node
    -- the Valiant turn at the intermediate die
    let turn := match x.mid with
      | some m => s.active.site m == some v
      | none => false
    let x := if turn then { x with mid := none, vc := x.vc + 1 } else x
    let s := s.setPacket k (some x)
    if x.vc = 7 then s.splitMcast k
    else if x.esc ∨ x.vc = 4 then
      match (s.active.routeNode x.dest).bind (fun w => s.active.graph.esc v w) with
      | none => s.discard k x
      | some e => (s.setPacket k (some { x with exit := some e })).dropIfFenced k v e
    else if s.rwt (nodeUnit v) rMESH_DIE_CFG 12 6 < x.seamHops then
      let s := s.enterEscape k x
      match (s.packet k).bind Packet.exit with
      | some e => s.dropIfFenced k v e
      | none => s
    else
      let (a, b) := s.active.route v (x.mid.getD x.dest)
      if a = 7 then s.discard k x
      else
        let room : Nat → Bool := fun e => match x.place with
          | .router site r => s.roomBeyond site r (nextPort r e x.destRouter) x
          | .edge d => e == 4 || (s.roomStation (204 + d) e x).isSome
          | _ => true
        let e := if room a ∨ b = 7 then a else if room b then b else a
        (s.setPacket k (some { x with exit := some e })).dropIfFenced k v e

/-- A packet of the core's own injects now under its throttle level (R219): its count in the 64-cycle window. -/
def State.mayInject (s : State) (p : Nat) : Bool :=
  let (w, n) := SMap.get (0, 0) s.mesh.injected p
  decide ((if w = s.now / 64 then n else 0) < levelRate (SMap.get 0 s.mesh.level p))

/-- The request of a packet is injected in this cycle. -/
def State.noteInjected (s : State) (x : Packet) : State :=
  match x.cargo with
  | .request id =>
    match s.access id with
    | some a => s.setAccess id (some { a with injectedAt := s.now })
    | none => s
  | _ => s

/-- PACKET_DIE_ENTRY: a packet that is injected, or that has entered a die, chooses its exit or is discarded (R203,
R207, R219). -/
def execPacketDieEntry (pkt : Nat) (s : State) : Res :=
  match s.packet pkt with
  | none => .next s
  | some x =>
    if x.exit.isSome then .next s
    else
      match x.place, x.from_ with
      | .inject, .router site r =>
        let p := site * 50 + r
        let throttled := x.vc = 0 ∨ x.vc = 1 ∨ x.vc = 7
        if s.mesh.closed ∨ !s.roomRouter site r 4 x then .next s
        else if throttled ∧ !s.mayInject p then
          .next ((s.advanceTo (s.now + 1)).meshBump p rMESH_THROTTLE_STAT 32 32 1)
        else
          let s := if throttled then
              let (w, n) := SMap.get (0, 0) s.mesh.injected p
              let e := (s.now / 64, (if w = s.now / 64 then n else 0) + 1)
              { s with mesh := { s.mesh with injected := SMap.set (0, 0) s.mesh.injected p e } }
            else s
          let s := (s.noteInjected x).setPacket pkt (some { x with place := .router site r, inPort := 4, since := s.now })
          .next ((s.chooseExit pkt).noteDepth site r)
      | .inject, .edge e =>
        if s.mesh.closed then .next s
        else .next ((s.setPacket pkt (some { x with place := .edge e, inPort := 100, since := s.now })).chooseExit pkt)
      | .inject, _ => .next s
      | _, _ => .next ((s.advanceTo x.since).chooseExit pkt)

/-! Delivery. -/

/-- A register access has arrived: a read is answered; a write that is not a post or a done mark is refused (R11, R56,
R196, R510). -/
def State.regAccess (s : State) (id : Nat) (a : Access) : State :=
  match (s.active.target a.addr).bind s.regTarget with
  | none => s
  | some (u, off) =>
    match a.kind with
    | .read n =>
      if refusedReg u off then s.reply id stAddressError []
      else
      let (v, s) := match (if u = unitHost then s.worldRead (some a.tick) off n else none) with
        | some v => (v, s)
        | none => s.regRead u off n
      s.reply id stOk (leBytes n v)
    | .write _ =>
      if isCollPost a.addr || isXpost a.addr || (doneWord a.addr).isSome then s
      else
        let s := if unitEdge 0 ≤ u ∧ u < unitHost ∧ off / 64 = rCOLL_POST / 64 then s.bump u rCOLL_POST_ERR 0 32 1 else s
        s.reply id stAddressError []
    | _ => s

/-- An acknowledgement or a miss notice leaves router `r` of a site for the core that sent the stream, on VC 3 (R198, R216). -/
def State.tellSource (s : State) (site r core : Nat) (cargo : Cargo) : State :=
  let (d, dr) := s.coreDest core
  s.newPacket { cargo := cargo, from_ := .router site r, dest := d, destRouter := dr, vc := 3, mid := none, esc := false,
                poolQ := false, exit := none, seamHops := 0, flits := 1, since := s.now, place := .inject, inPort := 4,
                patch := 0, held := none, targets := [] }

/-- A line reaches a DRAM target of a multicast (KIND 1): it is written, and the LAST line is acknowledged. -/
def State.mcastDram (s : State) (site r : Nat) (x : Packet) : State :=
  match x.cargo, x.targets with
  | .mcast core desc _ data last, t :: _ =>
    let (s, st) := s.dramWriteFree site x.dest data
    let was := (s.mesh.refusals.find? (fun r => r.1 == core && r.2.1 == desc && r.2.2.1 == t)).map (·.2.2.2)
    let st := was.getD st
    let refusals := s.mesh.refusals.filter (fun r => !(r.1 == core && r.2.1 == desc && r.2.2.1 == t))
    if last then
      ({ s with mesh := { s.mesh with refusals := refusals } }).tellSource site r core (.ack core desc t st)
    else { s with mesh := { s.mesh with
        refusals := if st = stOk then refusals else refusals ++ [(core, desc, t, st)] } }
  | _, _ => s

/-- A packet leaves the mesh at its target. -/
def State.deliver (s : State) (k : Nat) (x : Packet) : State :=
  let s := s.setPacket k none
  match x.cargo with
  | .request id =>
    match s.access id with
    | none => s
    | some a =>
      let a := { a with stage := .atTarget }
      (s.setAccess id (some a)).regAccess id a
  | .reply id =>
    match s.access id with
    | none => s
    | some a =>
      let s := if a.kind.isRead then s.telSample (telMesh (a.core / 50)) (s.now - a.injectedAt) else s
      s.setAccess id (some { a with stage := .replied })
  | .mcast .. =>
    match x.place with
    | .router site r => s.mcastDram site r x
    | _ => s
  | .ack core desc t st => { s with mesh := { s.mesh with acks := s.mesh.acks ++ [(core, desc, t, st)] } }
  | .miss core desc ts => { s with mesh := { s.mesh with notices := s.mesh.notices ++ [(core, desc, ts)] } }
  | .reduction _ => s
  | .context id false =>
    match x.from_ with
    | .edge e =>
      s.newPacket { x with cargo := .context id true, from_ := x.place, dest := 192 + e, destRouter := 0, vc := 5, esc := false,
                           poolQ := false, mid := none, exit := none, seamHops := 0, since := s.now, place := .inject, inPort := 4 }
    | _ => s
  | .context id true => { s with mesh := { s.mesh with back := s.mesh.back ++ [id] } }

/-! The grant of an output (R201). -/

/-- A packet is at the head of its buffer; the branches of one multicast line are heads together. -/
def State.isHead (s : State) (k : Nat) (x : Packet) : Bool :=
  !s.packetList.any (fun e =>
    e.2.place == x.place && e.2.inPort == x.inPort && e.2.vc == x.vc && (x.vc != 6 || e.2.poolQ == x.poolQ)
      && e.2.place != .inject && !(x.vc == 7 && e.2.cargo == x.cargo)
      && (decide (e.2.since < x.since) || (e.2.since == x.since && decide (e.1 < k))))

/-- Priority class of a VC at an output. -/
def vcClass (vc : Nat) : Nat :=
  if vc = 6 then 0 else if vc = 2 ∨ vc = 3 then 1 else if vc = 4 then 2 else if vc = 5 then 3 else 4

/-- Place of VC 0, 1 or 7 in the round robin behind the one served last (0 none, else 1 + index). -/
def rrPlace (last vc : Nat) : Nat :=
  let ix := if vc = 0 then 0 else if vc = 1 then 1 else 2
  (ix + 3 - last % 3) % 3

/-- Order of two eligible packets at an output in cycle `now`: one that has waited 64 cycles first, then by class, round
robin, and time. -/
def before (now last : Nat) (a b : Nat × Packet) : Bool :=
  let old := fun (x : Packet) => decide (x.since + 64 ≤ now)
  if old a.2 != old b.2 then old a.2
  else if old a.2 then decide (a.2.since < b.2.since) || (a.2.since == b.2.since && decide (a.1 < b.1))
  else
    let ka := vcClass a.2.vc * 4 + (if vcClass a.2.vc = 4 then rrPlace last a.2.vc else 0)
    let kb := vcClass b.2.vc * 4 + (if vcClass b.2.vc = 4 then rrPlace last b.2.vc else 0)
    decide (ka < kb) || (ka == kb && (decide (a.2.since < b.2.since) || (a.2.since == b.2.since && decide (a.1 < b.1))))

def bestOf (now last : Nat) (l : List (Nat × Packet)) : Option (Nat × Packet) :=
  l.foldl (fun best e => match best with
    | none => some e
    | some b => if before now last e b then some e else best) none

/-- The earliest time a packet of a list reached its place. -/
def earliest (l : List (Nat × Packet)) (d : Nat) : Nat :=
  match l with
  | [] => d
  | e :: l => l.foldl (fun t x => min t x.2.since) e.2.since

/-- Counts of a departure through port `q` of a router (R221). -/
def State.countDepart (s : State) (p q : Nat) (x : Packet) : State :=
  let s := s.meshBump p (rMESH_VC_COUNT + 0x200 * q + 8 * x.vc) 0 32 1
  let s := s.meshBump p (rMESH_VC_COUNT + 0x200 * q + 8 * x.vc) 32 32 x.flits
  let b := telBin (s.now - x.since)
  s.meshBump p (rMESH_LAT_HIST + 0x200 * q + 8 * (b / 2)) (32 * (b % 2)) 32 1

/-- The largest depth of the output a packet has come to wait for (R221). -/
def State.noteMax (s : State) (k : Nat) : State :=
  match s.packet k with
  | some x =>
    match x.place, s.wantPort x (match x.place with
      | .router _ r => r
      | _ => 0) with
    | .router site r, some q =>
      let p := site * 50 + r
      let off := rMESH_VC_DEPTH + 0x200 * q + 8 * x.vc
      let cur := min 255 ((s.viewCore p off).getD 0 % 256)
      let s := s.telMax (regKey (unitCore p) off) 8 8 cur
      if bit (s.reg (unitCore p) rMESH_TEL_CTRL) 0 then s
      else if s.fld (unitCore p) off 8 8 < cur then s.setFld (unitCore p) off 8 8 cur else s
    | _, _ => s
  | none => s

/-- Heads that wait without room: the cycles since one was first noted count as stalls, and the time a multicast branch is
first held is kept (R216, R221). -/
def State.noteBlocked (s : State) (p q : Nat) (l : List (Nat × Packet)) : State :=
  let key := 5 * p + q
  let was := SMap.get 0 s.mesh.stalled key
  let s := if was = 0 then s else s.meshBump p (rMESH_STALL_A + 0x200 * q) 0 32 (s.now + 1 - was)
  let s : State := { s with mesh := { s.mesh with stalled := SMap.set 0 s.mesh.stalled key (if l.isEmpty then 0 else s.now + 1) } }
  l.foldl (fun s e =>
    if e.2.vc = 7 ∧ e.2.held.isNone then s.modPacket e.1 (fun x => { x with held := some s.now }) else s) s

/-- The packet moves on through port `q` of router `r` of a site. -/
def State.moveOn (s : State) (site r q : Nat) (k : Nat) (x : Packet) : State :=
  let p := site * 50 + r
  let s := (s.countDepart p q x).clearDrop site r x
  let s := match x.held with
    | some t => s.meshBump p (rMESH_STALL_B + 0x200 * q) 0 32 (s.now - t)
    | none => s
  if q = 4 then (s.deliver k x).noteDepth site r
  else
    match nextRouter r q with
    | some r' =>
      let s := s.setPacket k (some { x with
        place := .router site r', inPort := opposite q, since := s.now + 2, held := none })
      let s := if x.vc = 7 then s.splitMcast k else s.noteMax k
      (s.noteDepth site r).noteDepth site r'
    | none =>
      match s.roomStation site q x with
      | none => s
      | some c =>
        (s.setPacket k (some { x with place := .station site q r, inPort := c, since := s.now, held := none })).noteDepth
          site r

/-- A packet crosses a seam link into node `w` (R199): into input port `inPort` of router `r` of a site, or into the buffer of
channel `inPort` of seam link `r` of an edge die. -/
def State.crossSeam (s : State) (w : Nat) (r inPort : Nat) (k : Nat) (x : Packet) : State :=
  let x := { x with exit := none, seamHops := x.seamHops + 1, since := s.now + 8, held := none, inPort := inPort }
  if w ≥ 204 then s.setPacket k (some { x with place := .edge (w - 204), inPort := 8 * r + inPort })
  else (s.setPacket k (some { x with place := .router w r })).noteDepth w r

/-- The far end of a station's exit: the node, the facing router, and its input port. -/
def farEnd (site exit r : Nat) : Option (Nat × Nat × Nat) :=
  (beyond site exit).map (fun w => (w, facing r exit, opposite exit))

/-- The seam link of edge die `w` - 204 that leads to a site. -/
def seamOf (w site : Nat) : Nat := (attached (w - 204)).findIdx (· == site)

/-- The heads in the station at an exit of a node. -/
def State.stationHeads (s : State) (v exit : Nat) : List (Nat × Packet) :=
  s.packetList.filter (fun e => atStation v exit e.2 && s.isHead e.1 e.2)

/-- The router of a site that a packet from edge die `e` enters: `n` draws it among those of the edge. -/
def entryRouter (e n : Nat) : Nat × Nat :=
  if e < 4 then (n % 10 * 5, 3) else if e < 8 then (n % 10 * 5 + 4, 2) else if e = 8 then (n % 5, 0) else (45 + n % 5, 1)

/-- A branch is dropped: a miss notice for its targets, and a record so that the stream skips it, while the router has a free
one; lines of the stream that are in the router already skip it too (R216). -/
def State.dropBranch (s : State) (k : Nat) (x : Packet) : State :=
  match x.place, x.cargo, x.held with
  | .router site r, .mcast core desc _ _ last, some t =>
    let q := (s.wantPort x r).getD 4
    let s := s.meshBump (site * 50 + r) (rMESH_STALL_B + 0x200 * q) 0 32 (s.now - t)
    let s := s.tellSource site r core (.miss core desc x.targets)
    let used : Nat := (s.mesh.drops.filter (fun d => d.site == site && d.r == r)).length
    let s := s.setPacket k none
    let s := if used < 16 && !last then
        let s : State := { s with mesh := { s.mesh with drops := s.mesh.drops ++
            [{ site := site, r := r, core := core, desc := desc, targets := x.targets }] } }
        s.packetList.foldl (fun (s : State) e =>
          match e.2.cargo with
          | .mcast c d _ _ _ =>
            if e.2.place = x.place ∧ c = core ∧ d = desc then
              let ts := e.2.targets.filter (fun t => !x.targets.contains t)
              if ts.isEmpty then (s.setPacket e.1 none).clearDrop site r e.2
              else s.setPacket e.1 (some { e.2 with targets := ts })
            else s
          | _ => s) s
      else s
    s.noteDepth site r
  | _, _, _ => s

/-- A branch has been held for more than 2.0 µs: it can no longer be taken (R212, R216). -/
def Packet.heldOut (x : Packet) (now : Nat) : Bool := x.vc == 7 && x.held.any (fun t => decide (t + 4200 < now))

/-- The local output of a router may take a multicast line for a scratchpad only by MULTICAST_WRITE. -/
def Packet.forSpad (x : Packet) (port : Nat) : Bool := x.vc == 7 && port == 4 && x.destRouter == 0

/-- ROUTER_FORWARD: an output grants the next packet (R199, R201). -/
def execRouterForward (h : Hop) (s : State) : Res :=
  match h with
  | .router site r port =>
    let cands := s.packetList.filter (fun e =>
      atRouter site.val r.val e.2 && s.wantPort e.2 r.val == some port.val && s.isHead e.1 e.2 && !e.2.forSpad port.val)
    if cands.isEmpty then .next s
    else
      let s := s.advanceTo (earliest cands s.now)
      let out := cands.filter (fun e => e.2.heldOut s.now)
      if !out.isEmpty then .next (out.foldl (fun s e => s.dropBranch e.1 e.2) s)
      else
        let here := cands.filter (fun e => decide (e.2.since ≤ s.now))
        let p := site.val * 50 + r.val
        let (go, stay) := here.partition (fun e => s.roomBeyond site.val r.val port.val e.2)
        let key := p * 5 + port.val
        let s := s.noteBlocked p port.val stay
        match bestOf s.now (SMap.get 0 s.mesh.rr key) go with
        | none => .next (s.advanceTo (s.now + 1))
        | some (k, x) =>
          let s := if 1 < go.length then s.meshBump p (rMESH_STALL_A + 0x200 * port.val) 32 32 1 else s
          let s := if vcClass x.vc = 4 then
              let ix := if x.vc = 0 then 1 else if x.vc = 1 then 2 else 3
              { s with mesh := { s.mesh with rr := SMap.set 0 s.mesh.rr key ix } }
            else s
          .next (s.moveOn site.val r.val port.val k x)
  | .station site exit =>
    let cands := s.stationHeads site.val exit.val
    if cands.isEmpty then .next s
    else
      let l := linkAt site.val exit.val
      if s.mesh.fenced.contains l then .next (cands.foldl (fun s e => s.discard e.1 e.2) s)
      else
        let s := s.advanceTo (earliest cands s.now)
        let go := cands.filter (fun e => decide (e.2.since ≤ s.now) && s.linkOpen l && (match e.2.place with
          | .station a b r =>
            match farEnd a b r with
            | some (w, r', q) =>
              if 204 ≤ w then s.roomEdge (w - 204) (seamOf w a) e.2.inPort e.2 else s.roomRouter w r' q e.2
            | none => false
          | _ => false))
        match bestOf s.now 0 go with
        | none => .next s
        | some (k, x) =>
          match x.place with
          | .station a b r =>
            match farEnd a b r with
            | some (w, r', q) =>
              if 204 ≤ w then .next (s.crossSeam w (seamOf w a) x.inPort k x) else .next (s.crossSeam w r' q k x)
            | none => .next s
          | _ => .next s
  | .edge e port =>
    let want := if port.val = 3 then 4 else port.val
    let v := 204 + e.val
    let l := 1000 + 4 * e.val + port.val
    let waiting := s.stationHeads v want
    let cands := s.packetList.filter (fun x => atEdge e.val x.2 && x.2.exit == some want && s.isHead x.1 x.2)
    if want ≠ 4 ∧ s.mesh.fenced.contains l then .next (waiting.foldl (fun s e => s.discard e.1 e.2) s)
    else if want ≠ 4 ∧ !waiting.isEmpty ∧ s.linkOpen l then
      -- the station sends over its seam link
      let (n, s') := s.freeNat
      let (r, q) := entryRouter e.val n
      let w := (attached e.val).getD port.val 0
      let s' := s'.advanceTo (earliest waiting s'.now)
      match bestOf s'.now 0 (waiting.filter (fun x => decide (x.2.since ≤ s'.now) && s'.roomRouter w r q x.2)) with
      | none => .next s'
      | some (k, x) => .next (s'.crossSeam w r q k x)
    else if cands.isEmpty then .next s
    else
      let s := s.advanceTo (earliest cands s.now)
      let here := cands.filter (fun x => decide (x.2.since ≤ s.now))
      if want = 4 then
        match bestOf s.now 0 here with
        | none => .next s
        | some (k, x) => .next (s.deliver k x)
      else
        match bestOf s.now 0 (here.filter (fun x => (s.roomStation v want x.2).isSome)) with
        | none => .next s
        | some (k, x) =>
          match s.roomStation v want x with
          | none => .next s
          | some c => .next (s.setPacket k (some { x with place := .station v want 0, inPort := c, since := s.now }))

/-- The head of a buffer on VC 0–3 or 5 has no room where it goes, and its die lets it escape after ESC_WAIT cycles: the cycle,
whether it still has no room then, and whether the escape pool has. -/
def State.escapeFrom (s : State) (k : Nat) (x : Packet) : Option (Nat × (State → Bool) × Bool) :=
  let y := { x with vc := 6, poolQ := x.vc == 0 || x.vc == 1 }
  if x.esc ∨ x.vc = 4 ∨ x.vc = 6 ∨ x.vc = 7 ∨ !s.isHead k x then none
  else
    let t := x.since + s.rwt (nodeUnit x.node) rMESH_DIE_CFG 0 12
    match x.place, x.exit with
    | .router site r, some e =>
      some (t, fun s => !s.roomBeyond site r (nextPort r e x.destRouter) x, s.roomRouter site r x.inPort y)
    | .edge d, some e =>
      if e = 4 then none
      else some (t, fun s => (s.roomStation (204 + d) e x).isNone,
        x.inPort == 100 || s.roomEdge d (x.inPort / 8) (x.inPort % 8) y)
    | _, _ => none

/-- ESCAPE_ENTRY: a head on VC 0–3 or 5 that has waited ESC_WAIT cycles without room enters VC 6 when its pool has room
(R203). -/
def execEscapeEntry (pkt : Nat) (s : State) : Res :=
  match s.packet pkt with
  | none => .next s
  | some x =>
    match s.escapeFrom pkt x with
    | none => .next s
    | some (t, blocked, pool) =>
      let s := s.advanceTo t
      if !blocked s then .next s
      else if !pool then
        match x.place, x.exit with
        | .router site r, some e =>
          .next ((s.advanceTo (s.now + 1)).meshBump (site * 50 + r) (rMESH_STALL_B + 0x200 * nextPort r e x.destRouter) 32 32 1)
        | _, _ => .next s
      else
        let s := s.enterEscape pkt { x with since := s.now }
        let s := match x.place with
          | .router site r => s.noteDepth site r
          | _ => s
        match (s.packet pkt).bind Packet.exit with
        | some e => .next (s.dropIfFenced pkt x.node e)
        | none => .next s

/-- The plain window of core `p` that covers a multicast line at `off` has a free credit (R106). -/
def State.mcastCredit (s : State) (p off : Nat) : Bool :=
  match (s.spad p).winAt off 64 with
  | none => false
  | some w =>
    let x := (s.spad p).win w
    !x.closing && !x.channel && decide (x.creditsOut < x.credits)

/-- MCAST_BRANCH_DROP: a branch held for 2.0 µs is dropped (R216); when its room or its credit appears in that cycle it is not
(R218). -/
def execMcastBranchDrop (pkt : Nat) (s : State) : Res :=
  match s.packet pkt with
  | none => .next s
  | some x =>
    match x.place, x.held with
    | .router site r, some t =>
      let q := (s.wantPort x r).getD 4
      let s' := s.advanceTo (t + 4200)
      let room := if x.forSpad q then s.mcastCredit (site * 50 + r) x.dest else s.roomBeyond site r q x
      if room && decide (s'.now ≤ t + 4200) then .next s else .next (s'.dropBranch pkt x)
    | _, _ => .next s

/-- No packet that may leave through the local output of a router comes before this one (R201). -/
def State.localTurn (s : State) (site r k : Nat) (x : Packet) : Bool :=
  let last := SMap.get 0 s.mesh.rr ((site * 50 + r) * 5 + 4)
  !s.packetList.any (fun e =>
    e.1 != k && atRouter site r e.2 && s.wantPort e.2 r == some 4 && s.isHead e.1 e.2 && decide (e.2.since ≤ s.now)
      && !e.2.forSpad 4 && before s.now last e (k, x))

/-- MULTICAST_WRITE: a multicast line arrives at the scratchpad of its target: it takes a credit of the open plain window
that covers it, is withheld while the pool has none or the window closes, or is refused (R95, R100, R102, R106). The
LAST line is acknowledged with OK or the refusal (R215). DESIGN CHOICE (log 120): a line whose window is closing, or has closed
while the line was held, is held. -/
def execMulticastWrite (arr : Nat) (s : State) : Res :=
  match s.packet arr with
  | none => .next s
  | some x =>
    match x.place, x.cargo, x.targets with
    | .router site r, .mcast core desc _ data last, [t] =>
      if x.exit ≠ some 4 ∨ x.destRouter ≠ 0 ∨ s.active.coreOf t ≠ some (site * 50 + r) ∨ !s.isHead arr x then .next s
      else
        let p := site * 50 + r
        let s := s.advanceTo x.since
        let sp := s.spad p
        let off := x.dest
        let who : Requester := .core ((s.gid core).getD 0x3FFF) x.patch
        let mine := fun (e : Nat × Nat × Nat × Status) => e.1 == core && e.2.1 == desc && e.2.2.1 == t
        let done := fun (s : State) (st : Status) =>
          let was := (s.mesh.refusals.find? mine).map (·.2.2.2)
          let st := was.getD st
          let rest := s.mesh.refusals.filter (fun e => !mine e)
          let s := match x.held with
            | some h => s.meshBump p (rMESH_STALL_B + 0x200 * 4) 0 32 (s.now - h)
            | none => s
          let s : State := { s with mesh := { s.mesh with rr := SMap.set 0 s.mesh.rr (p * 5 + 4) 3 } }
          let s := ((s.countDepart p 4 x).clearDrop site r x).setPacket arr none
          let s := if last then
              ({ s with mesh := { s.mesh with refusals := rest } }).tellSource site r core (.ack core desc t st)
            else { s with mesh := { s.mesh with
              refusals := if st = stOk then rest else rest ++ [(core, desc, t, st)] } }
          s.noteDepth site r
        let hold := fun (s : State) => s.modPacket arr (fun x => { x with held := some (x.held.getD s.now) })
        let refuse := fun (s : State) cause w => done (s.refuseWrite p off who cause w) stWindowRefused
        if !s.localTurn site r arr x then .next s
        else if x.heldOut s.now then .next (s.dropBranch arr x)
        else if core = p then
          .next (done (s.modBank p (bankOf off) (fun b => { b with p6 := b.p6 ++ [.localWrite (2 ^ 64) off data] })) stOk)
        else
          match sp.winAt off 64 with
          | none =>
            if x.held.isSome then .next (hold s)
            else .next (refuse s (if (sp.winAt off 1).isSome then 1 else 0) (sp.winAt off 1))
          | some w =>
            let win := sp.win w
            if win.closing then .next (hold s)
            else if !win.admits who then .next (refuse s 2 (some w))
            else if win.channel then .next (refuse s 6 (some w))
            else if win.creditsOut < win.credits ∧ (s.core p).takesWrite (bankOf off) then
              let s := s.modSpad p (fun sp => sp.modWin w (fun y => { y with creditsOut := y.creditsOut + 1 }))
              .next (done (s.modBank p (bankOf off) (fun b =>
                { b with p6 := b.p6 ++ [.remoteWrite (2 ^ 64) off data none (some w)] })) stOk)
            else .next (hold s)
    | _, _, _ => .next s

/-! Links. -/

/-- A seam link is fenced: its stations take and deliver nothing more (R206). -/
def State.fenceLink (s : State) (l : Nat) : State :=
  if s.mesh.fenced.contains l then s
  else { s with mesh := { s.mesh with fenced := l :: s.mesh.fenced, training := s.mesh.training.filter (· != l) } }

/-- Every packet in a fenced station, or whose chosen exit leads to it, is discarded (R206). -/
def State.purgeLink (s : State) (l : Nat) : State :=
  s.packetList.foldl (fun s e =>
    let out := match e.2.place, e.2.exit with
      | .station a b _, _ => linkOf a b == l
      | .router a _, some x => decide (x < 4) && (exitsOf a).any (fun y => y.1 == x && y.2.2 == l)
      | .edge a, some x => decide (x < 3) && 1000 + 4 * a + x == l
      | _, _ => false
    if out then s.discard e.1 e.2 else s) s

end Sys2Proof.Machine
end

