-- ==== Sys2Proof/Machine/Launch.lean ====
section
/-!
DEFINITION. The launcher, the instruction cache, and the cancellation of a tick's work (R39, R42, R49, R50, R54, R57).
-/
namespace Sys2Proof.Machine

/-- R39 for the segments of a task descriptor on logical die `die`. -/
def Segments.ok (g : Segments) (c : ConfigSet) (die : Nat) : Bool :=
  g.codeBase % 64 == 0 && g.codeBase / 2 ^ 36 == die && decide (g.codeBase % 2 ^ 36 < Config.dramSize)
    && g.codeBound % 64 == 0 && decide (64 ≤ g.codeBound) && decide (g.codeBound ≤ 0x1000000)
    && g.spadBase % 512 == 0 && g.spadBound % 512 == 0 && decide (g.spadBase + g.spadBound ≤ Config.spadSize)
    && g.dramBase % 4096 == 0 && decide (g.dramBase / 2 ^ 36 < 192) && (c.site (g.dramBase / 2 ^ 36)).isSome
    && g.dramBound % 4096 == 0 && decide (g.dramBase % 2 ^ 36 + g.dramBound ≤ Config.dramSize)

/-- The segments of a task descriptor (R49). -/
def taskSegments (d : List Byte) : Segments :=
  { codeBase := leAt d 8 8, codeBound := leAt d 16 4, spadBase := leAt d 24 4, spadBound := leAt d 28 4,
    dramBase := leAt d 32 8, dramBound := leAt d 40 8 }

/-- The patch table entry permits absolute addressing (R271). -/
def ConfigSet.absOk (c : ConfigSet) (patch : Nat) : Bool := bit (leAt (c.entry 2 patch 32) 0 1) 1

/-- R50 step 3: the descriptor is valid; `patch` is that of the launch entry (R272). -/
def taskOk (c : ConfigSet) (die patch : Nat) (d : List Byte) : Bool :=
  let entry := leAt d 20 4
  field (leAt d 2 1) 3 4 == 0 && field (leAt d 3 1) 2 6 == 0 && zeroAt d 5 3
    && (taskSegments d).ok c die && entry % 4 == 0 && decide (entry < leAt d 16 4)
    && (!bit (leAt d 3 1) 1 || c.absOk (leAt d 4 1)) && leAt d 4 1 == patch

/-- R50 step 2: the slot of a launch, if one qualifies. -/
def State.launchSlot (s : State) (p : Nat) (d : List Byte) : Option Nat :=
  let c := s.core p
  if bit (leAt d 2 1) 7 then
    (List.range 8).find? (fun i => (c.slot i).mode == .free && bit (s.reg (unitCore p) rCORE_CTRL) (8 + i))
  else
    let i := field (leAt d 2 1) 0 3
    if (c.slot i).mode = .free then some i else none

/-- R50 step 1: a descriptor that cannot be read drops its launch. -/
def State.dropLaunch (s : State) (p : Nat) (l : Launch) : State :=
  let s := s.eccRead p l.off 64 ⟨0, 0⟩ false
  let s := s.bump (unitCore p) rCORE_FAULT_COUNT 0 32 1
  let s := s.modCore p (fun c => { c with node := { c.node with
    dropped := SMap.set false c.node.dropped (tickp l.tick) true } })
  let s := s.notice p 0 l.tick l.att
  s.raiseCore p 0 .info 0x14 (some (l.tick, l.att)) l.off l.runahead

/-- The attributes a slot takes from its task descriptor. -/
def Slot.taken (sl : Slot) (d : List Byte) (l : Launch) : Slot :=
  { sl with
    taskId := BitVec.ofNat 16 (leAt d 0 2), patch := leAt d 4 1, zero := bit (leAt d 3 1) 0, abs := bit (leAt d 3 1) 1,
    runahead := l.runahead, tick := l.tick, att := l.att }

/-- TASK_LAUNCH: the launcher performs the first waiting launch (R50). DESIGN CHOICE (log 117): a later launch may go on while an
earlier slot still waits LAUNCHING for its banks or its clearing. -/
def execTaskLaunch (c : CoreIx) (s : State) : Res :=
  let p := c.val
  match (s.core p).launches, s.gid p with
  | l :: rest, some g =>
    if s.maint.reloads.any (fun r => r.core == g) || !bit (s.reg (unitCore p) rCORE_CTRL) 1 || s.coreDown p || !((s.spad p).bank (bankOf l.off)).on then .next s
    else if (s.spad p).anyUe l.off 64 then
      .next ((s.modCore p (fun c => { c with launches := rest })).dropLaunch p l)
    else
      let d := (s.spad p).read l.off 64
      match s.launchSlot p d with
      | none => .next s
      | some i =>
        let s := s.modCore p (fun c => { c with launches := rest })
        let s := s.modSlot p i (fun sl => sl.taken d l)
        if !taskOk s.active (g / 48) l.patch d then
          .next (s.takeFault p i fLaunchInvalid (s.slot p i).pc (BitVec.ofNat 64 l.off))
        else
          let seg := taskSegments d
          let load : LaunchLoad := { seg := seg, entry := leAt d 20 4, arg0 := BitVec.ofNat 64 (leAt d 48 8),
                                     arg1 := BitVec.ofNat 64 (leAt d 56 8), zero := bit (leAt d 3 1) 0,
                                     clearNext := seg.spadBase }
          let s := s.modSlot p i (fun sl => { sl with mode := .launching, seg := seg, load := some load })
          let banks := (List.range 16).filter (fun b =>
            overlapsBank b seg.spadBase (seg.spadBase + seg.spadBound))
          .next ((s.requestUp p banks).tryLoad p i)
  | _, _ => .next s

/-! The instruction cache (R42). -/

/-- ICINV: the invalidation starts. -/
def execIcinv (c : CoreIx) (s : State) : Res := .next (s.modCore c.val (fun x => { x with icinvBusy := true }))

/-- ICACHE_INVALIDATION_DONE: no line is present, and ICINV reads 0. -/
def execIcacheInvalidationDone (c : CoreIx) (s : State) : Res :=
  when (s.core c.val).icinvBusy s (s.modCore c.val (fun x => { x with icinvBusy := false, icache := [] }))

/-- The line that the slot's next fetch lacks. -/
def Core.missingLine (c : Core) (sl : Slot) : Option Nat :=
  (sl.fetchLines 4 ++ (if sl.fetchInside 8 then sl.fetchLines 8 else [])).find? (fun l => (c.cached l).isNone)

/-- Install a line: in a full set of four ways it replaces one, which the spec leaves open. -/
def State.installLine (s : State) (p line : Nat) (data : List Byte) : State :=
  let (n, s) := s.freeNat
  s.modCore p (fun c =>
    let set := c.icache.filter (fun e => e.1 / 64 % 128 == line / 64 % 128)
    let keep := if set.length < 4 then c.icache else c.icache.erase (set.getD (n % set.length) (0, []))
    { c with icache := (line, data) :: keep })

/-- The instruction at the slot's program counter needs the line: it holds the first word, or the first word is in the cache
and is that of two (R60). -/
def Core.needsLine (c : Core) (sl : Slot) (line : Nat) : Bool :=
  (sl.fetchLines 4).contains line || (c.fetchPresent sl 4 && c.wordOf sl % 64 == 0x3E)

/-- INSTRUCTION_CACHE_FILL: the line that a READY slot lacks comes from DRAM; `err` is what its code shows. A poisoned
or uncorrectable line that the fetch needs faults the slot in the cycle its instruction would have issued in (R42, R52): not
while an access of the slot is under way, and not before its turn. The line behind may come in too; bad, it stays out unless it
holds the second word of the instruction. -/
def execInstructionCacheFill (a : At) (err : Symbols) (s : State) : Res :=
  let p := a.core.val
  let i := a.slot.val
  let sl := s.slot p i
  if sl.mode != .ready || !sl.fetchInside 4 || s.coreDown p then .next s
  else
    match (s.core p).missingLine sl with
    | none => .next s
    | some line =>
      match s.active.target line with
      | some (.dram d o) =>
        match s.active.site d with
        | none => .next s
        | some site =>
          match s.readLine site o 64 (s.dramClass d p) err with
          | none => .next s
          | some (st, data, s1) =>
            if st = stOk then .next (s1.installLine p line data)
            else if !(s.core p).needsLine sl line then .next s1
            else if !sl.canIssue || !(s.core p).itsTurn s.now i then .next s
            else
              let s2 := s1.advanceTo ((s.core p).issueTime i)
              .next ((s2.modCore p (fun c => c.beginIssue i s2.now)).takeFault p i fCodePoison sl.pc sl.pc)
      | _ => .next s

/-- LAUNCH_EN: a write of CORE_CTRL.LAUNCH_EN (R50, R57). -/
def execLaunchEn (c : CoreIx) (en : Bool) (s : State) : Res :=
  .next (s.setFld (unitCore c.val) rCORE_CTRL 1 1 (b2n en))

/-- TASK_FAULT_VALID_CLEAR: the record is cleared as a whole (R57); a fault of the same cycle is recorded with VALID = 1 and
OVF = 0 (R58). -/
def Slot.clearFault (now : Nat) (sl : Slot) : Slot :=
  let sl := { sl with faultValid := false, faultOvf := false, faultCode := 0, faultPc := 0, faultAddr := 0 }
  match sl.lastFault with
  | some (t, code, pc, addr) => if t = now then sl.record code pc addr else sl
  | none => sl
def execTaskFaultValidClear (a : At) (s : State) : Res :=
  .next (s.modSlot a.core.val a.slot.val (Slot.clearFault s.now))

end Sys2Proof.Machine
end

