-- ==== Sys2Proof/Machine/EdgeOps.lean ====
section
/-!
DEFINITION. Reads and writes of the panel by its edge dies: the host bridge die, the management die and the link dies. Each is
performed whole by the command that makes it, through the port or the bank it reaches (R92–R107, R183–R194). `none` says that
the port or the bank would make it wait.
-/
namespace Sys2Proof.Machine

/-- The requester class of the edge queue of a DRAM port (R189). -/
def clsEdge : Nat := 49

/-- What the code of a scratchpad line shows where the command does not say it. -/
def State.freeEcc (s : State) : EccErr × State :=
  let (n, s) := s.freeNat
  (⟨BitVec.ofNat 8 n, BitVec.ofNat 8 (n / 256)⟩, s)

/-- The live grant of an edge die that covers these bytes (R101). -/
def State.edgeGrant (s : State) (p o n : Nat) (who : Requester) : Option GrantRef :=
  (List.range 64).findSome? (fun i =>
    match (s.spad p).grant i with
    | none => none
    | some g =>
      let r : GrantRef := ⟨i, g.win, g.gen, g.no⟩
      if g.who = who ∧ g.lo ≤ o ∧ o + n ≤ g.hi ∧ (s.writeRefused p o n (some r)).isNone then some r else none)

/-- An edge die asks for the credit of one packet, or of one channel slot, of `ext` bytes that it writes from `o` on
(R104): refused with a cause; or its grant; or `none` while the request would be held or told to retry. -/
def State.edgeCredit (s : State) (p o n ext : Nat) (who : Requester) : Option (State × Option GrantRef) :=
  let sp := s.spad p
  let (slot, all) := match sp.winAt o 1 with
    | some w =>
      let x := sp.win w
      if x.channel then (x.slotBytes, min ext (x.base + x.bound - o)) else (n, n)
    | none => (n, n)
  let r : CreditReq := { id := s.mesh.nextAccess, who := who, off := o, extent := slot, want := 1, got := 0 }
  match sp.requestRefused { r with extent := all } with
  | some cause => some (s.nack p o who cause, none)
  | none =>
    match sp.winAt o slot with
    | none => some (s.nack p o who 0, none)
    | some w =>
      match s.serveCredit p w sp.hold r with
      | (some t, _, _) => some (t, t.edgeGrant p o n who)
      | _ => none

/-- The bytes of an edge die's write land under a grant (R101, R107), or under none for the management die while launches
are off (R95). -/
def State.edgeLand (s : State) (p o : Nat) (bs : List Byte) (grant : Option GrantRef) : State :=
  let part := (wordsOf o bs.length).any (fun w => !coversWord o bs.length w)
  let (err, s) := if part then s.freeEcc else (⟨0, 0⟩, s)
  ((s.useBank p (bankOf o)).landRemote p o bs grant none err).settle p

/-- An edge die `e` writes bytes within one line, of `ext` that it writes from there on: the status and the state after. -/
def State.edgeWriteOf (s : State) (e a : Nat) (bs : List Byte) (ext : Nat) : Option (Status × State) :=
  match s.active.target a with
  | some (.dram d o) =>
    match s.active.site d with
    | none => some (stAddressError, s)
    | some site =>
      let (err, s) := if wholeLine o bs.length then (.none, s) else s.freeFinding
      s.writeBytes site o clsEdge bs err
  | some (.spad d l o) =>
    match s.active.coreIx d l with
    | none => some (stAddressError, s)
    | some p =>
      if s.mgmtMayWrite p (.edge e) then some (stOk, s.edgeLand p o bs none)
      else
        match s.edgeGrant p o bs.length (.edge e) with
        | some r => if (s.core p).takesWrite (bankOf o) then some (stOk, s.edgeLand p o bs (some r)) else none
        | none =>
          match s.edgeCredit p o bs.length ext (.edge e) with
          | none => none
          | some (t, none) => some (stWindowRefused, t)
          | some (t, some r) => if (t.core p).takesWrite (bankOf o) then some (stOk, t.edgeLand p o bs (some r)) else none
  | _ => some (stAddressError, s)

/-- A write of one packet that no command waits for: it waits at its die when it must. -/
def State.edgeWrite (s : State) (e a : Nat) (bs : List Byte) : State :=
  match s.edgeWriteOf e a bs bs.length with
  | some (_, t) => t
  | none => { s with vorrad := { s.vorrad with held := s.vorrad.held ++ [(e, a, bs)] } }

/-- The writes that wait at edge dies are tried again, in the order they were made. -/
def State.retryEdge (s : State) : State :=
  let held := s.vorrad.held
  held.foldl (fun s x => s.edgeWrite x.1 x.2.1 x.2.2) { s with vorrad := { s.vorrad with held := [] } }

/-- An edge die reads `n` bytes of a line of DRAM, or of a scratchpad (R92, R96); `dbl` tells that the code shows an
uncorrectable error: the status, the bytes and the state after. -/
def State.edgeReadLine (s : State) (a n : Nat) (dbl : Bool) : Option (Status × List Byte × State) :=
  match s.active.target a with
  | some (.dram d o) =>
    match s.active.site d with
    | none => some (stAddressError, [], s)
    | some site =>
      let (one, s) := s.freeBit
      s.readLine site o n clsEdge (if dbl then .many else if one then .one else .none)
  | some (.spad d l o) =>
    match s.active.coreIx d l with
    | none => some (stAddressError, [], s)
    | some p =>
      if !((s.spad p).bank (bankOf o)).on then some (stOk, zeros n, s.readOffBank p (bankOf o))
      else if !((s.spad p).bank (bankOf o)).grants then none
      else
        let (err, s) := s.freeEcc
        let err : EccErr := ⟨err.single, if dbl then BitVec.ofNat 8 (2 ^ (o / 8 % 8)) else 0⟩
        let s := (s.useBank p (bankOf o)).eccRead p o n err false
        if (s.spad p).anyUe o n then some (stUncorrectable, [], s) else some (stOk, (s.spad p).read o n, s)
  | _ => some (stAddressError, [], s)

/-- A read of `n` bytes, of at most a line, that may lie in two lines: divided at the line (R183). -/
def State.edgeRead (s : State) (a n : Nat) (dbl : Bool) : Option (Status × List Byte × State) :=
  let k := min n (64 - a % 64)
  match s.edgeReadLine a k dbl with
  | none => none
  | some (st, bs, s) =>
    if st ≠ stOk ∨ k = n then some (st, bs, s)
    else
      match s.edgeReadLine (a + k) (n - k) false with
      | none => none
      | some (st, cs, s) => some (st, if st = stOk then bs ++ cs else [], s)

/-- HELD_REQUEST_GRANT: credits, slots or an entry have become free and a held request is granted, or a held write of an edge
die goes on (R104). -/
def execHeldRequestGrant (c : CoreIx) (s : State) : Res :=
  match s.serveHeld c.val (s.spad c.val).hold [] with
  | some t => .next t
  | none => .next s.retryEdge

end Sys2Proof.Machine
end

