-- ==== Sys2Proof/Machine/Num.lean ====
section
/-!
DEFINITION. The number formats and their arithmetic (spec/05): encodings, rounding, flags, conversions, histogram bins.
Flags are a number: bits 0–4 NV, DZ, OF, UF, NX (R134), bit 5 SAT.
-/
namespace Sys2Proof.Machine

def flNV : Nat := 1
def flDZ : Nat := 2
def flOF : Nat := 4
def flUF : Nat := 8
def flNX : Nat := 16
def flSAT : Nat := 32

/-! Formats (R118, R120). -/

def fmtFP32 : Nat := 0
def fmtFP16 : Nat := 1
def fmtK16 : Nat := 2
def fmtK8e4 : Nat := 3
def fmtK8e5 : Nat := 4

/-- Width in bits of a format code; 8 stands for the reduction word and 9 for INT32. -/
def fmtWidth (f : Nat) : Nat := ([32, 16, 16, 8, 8, 16, 8, 4, 64, 32] : List Nat).getD f 32
def isFloat (f : Nat) : Bool := decide (f < 5)
def isInt (f : Nat) : Bool := decide (5 ≤ f) && decide (f < 8)

/-- Exponent bits, fraction bits and bias of a floating-point format. -/
def expBits (f : Nat) : Nat := ([8, 5, 8, 4, 5] : List Nat).getD f 8
def fracBits (f : Nat) : Nat := ([23, 10, 7, 3, 2] : List Nat).getD f 23
def fBias (f : Nat) : Int := (([127, 15, 127, 7, 15] : List Nat).getD f 127 : Nat)
/-- Precision, least and greatest exponent. -/
def fPrec (f : Nat) : Nat := fracBits f + 1
def fEmin (f : Nat) : Int := 1 - fBias f
def fEmax (f : Nat) : Int := if f = fmtK8e4 then 8 else fBias f

/-- A decoded floating-point number. A finite one is (−1)^neg × mag × 2^exp. -/
inductive FVal where
  | nan (signalling : Bool)
  | inf (neg : Bool)
  | fin (neg : Bool) (mag : Nat) (exp : Int)
deriving DecidableEq, Repr

/-- R121, R122. -/
def fDecode (f x : Nat) : FVal :=
  let fb := fracBits f
  let s := bit x (fb + expBits f)
  let e := field x fb (expBits f)
  let fr := field x 0 fb
  let top := 2 ^ expBits f - 1
  if f = fmtK8e4 ∧ e = top ∧ fr = 7 then .nan false
  else if f ≠ fmtK8e4 ∧ e = top then
    if fr = 0 then .inf s else .nan ((f = fmtFP32 || f = fmtFP16) && !bit fr (fb - 1))
  else if e = 0 then .fin s fr (1 - fBias f - fb)
  else .fin s (2 ^ fb + fr) (e - fBias f - fb)

def signBit (f : Nat) (s : Bool) : Nat := if s then 2 ^ (fracBits f + expBits f) else 0
/-- The canonical NaN, the infinity and the largest finite number. -/
def fNan (f : Nat) : Nat := ([0x7FC00000, 0x7E00, 0x7FC0, 0x7F, 0x7E] : List Nat).getD f 0
def fInf (f : Nat) (s : Bool) : Nat := signBit f s + (2 ^ expBits f - 1) * 2 ^ fracBits f
def fLargest (f : Nat) (s : Bool) : Nat := signBit f s + ([0x7F7FFFFF, 0x7BFF, 0x7F7F, 0x7E, 0x7B] : List Nat).getD f 0
def fZero (f : Nat) (s : Bool) : Nat := signBit f s

/-- An infinite result of arithmetic (R126). -/
def fMakeInf (f : Nat) (s fsat : Bool) : Nat :=
  if f = fmtK8e4 then (if fsat then fLargest f s else 0x7F) else fInf f s

/-! Rounding (R128, R130). -/

/-- Rounding directions: 0 RNE, 1 RTZ, 2 RUP, 3 RDN. `mag` × 2^`exp` in units of 2^`q`. -/
def roundAt (s : Bool) (mag : Nat) (exp q : Int) (rm : Nat) : Nat :=
  if q ≤ exp then mag * 2 ^ (exp - q).toNat
  else
    let d := (q - exp).toNat
    let k := mag / 2 ^ d
    let r := mag % 2 ^ d
    let h := 2 ^ (d - 1)
    let up := if rm = 0 then decide (h < r) || (r == h && k % 2 == 1)
      else if rm = 1 then false
      else if rm = 2 then decide (0 < r) && !s
      else decide (0 < r) && s
    if up then k + 1 else k

/-- A multiple of 2^`q` is exact. -/
def isExact (mag : Nat) (exp q : Int) : Bool := decide (q ≤ exp) || mag % 2 ^ (q - exp).toNat == 0

/-- R130. -/
def overflowResult (f : Nat) (s : Bool) (rm : Nat) (fsat : Bool) : Nat :=
  if fsat then fLargest f s
  else if f = fmtK8e4 then 0x7F
  else if f = fmtK16 || rm = 0 || (rm = 2 && !s) || (rm = 3 && s) then fInf f s
  else fLargest f s

/-- The encoding of (−1)^s × `k` × 2^`q`, where `q` is at least the weight of the last bit of the least normal number. -/
def fEncode (f : Nat) (s : Bool) (k : Nat) (q : Int) : Nat :=
  let p := fPrec f
  let (k, q) := if k = 2 ^ p then (2 ^ (p - 1), q + 1) else (k, q)
  if k < 2 ^ (p - 1) then signBit f s + k
  else signBit f s + (q + (p - 1) + fBias f).toNat * 2 ^ fracBits f + (k - 2 ^ (p - 1))

/-- Round (−1)^s × `mag` × 2^`exp` into format `f` (R128). -/
def fRound (f : Nat) (s : Bool) (mag : Nat) (exp : Int) (rm : Nat) (fsat : Bool) : Nat × Nat :=
  let rm := if f = fmtK16 then 0 else rm
  if mag = 0 then (fZero f s, 0)
  else
    let p : Int := fPrec f
    let e : Int := Nat.log2 mag + exp
    let ku := roundAt s mag exp (e - (p - 1)) rm
    let tiny := decide (e < fEmin f) && !(e == fEmin f - 1 && ku == 2 ^ fPrec f)
    let q := max e (fEmin f) - (p - 1)
    let k := roundAt s mag exp q rm
    let qTop := fEmax f - (p - 1)
    let kTop := if f = fmtK8e4 then 14 else 2 ^ fPrec f - 1
    if decide (qTop < q) || (q == qTop && decide (kTop < k)) then (overflowResult f s rm fsat, flOF + flNX)
    else
      let nx := !isExact mag exp q
      (fEncode f s k q, (if nx then flNX else 0) + (if tiny && nx then flUF else 0))

/-- NCTL (R124). -/
def nRM (n : Nat) : Nat := n % 4
def nFsat (n : Nat) : Bool := bit n 2
def nWrap (n : Nat) : Bool := bit n 3

/-- Round under NCTL. -/
def fRoundN (f n : Nat) (s : Bool) (mag : Nat) (exp : Int) : Nat × Nat := fRound f s mag exp (nRM n) (nFsat n)

/-! Integers (R127). -/

def iVal (f x : Nat) : Int := toSigned (fmtWidth f) x
def iEnc (f : Nat) (v : Int) : Nat := (v % 2 ^ fmtWidth f).toNat

/-- Narrow an exact result into an integer format. -/
def iNarrow (f : Nat) (wrap : Bool) (v : Int) : Nat × Nat :=
  let h : Int := 2 ^ (fmtWidth f - 1)
  if -h ≤ v ∧ v < h then (iEnc f v, 0)
  else if wrap then (iEnc f v, 0)
  else (iEnc f (if v < 0 then -h else h - 1), flSAT)

/-! Floating-point arithmetic (R125, R126). -/

def FVal.isSnan : FVal → Bool
  | .nan b => b
  | _ => false
def FVal.isNan : FVal → Bool
  | .nan _ => true
  | _ => false
def FVal.isZero : FVal → Bool
  | .fin _ m _ => m == 0
  | _ => false
def FVal.isInf : FVal → Bool
  | .inf _ => true
  | _ => false
def FVal.neg : FVal → Bool
  | .inf s => s
  | .fin s _ _ => s
  | .nan _ => false
def FVal.flip : FVal → FVal
  | .inf s => .inf (!s)
  | .fin s m e => .fin (!s) m e
  | .nan b => .nan b

/-- The signed magnitude of a finite number in units of 2^`q`, `q` at most its exponent. -/
def sMag (s : Bool) (m : Nat) (e q : Int) : Int := (if s then -1 else 1) * ((m * 2 ^ (e - q).toNat : Nat) : Int)

/-- NaN with the invalid flag when wanted. -/
def nanRes (f : Nat) (nv : Bool) : Nat × Nat := (fNan f, if nv then flNV else 0)

/-- The exact sum of two finite numbers, rounded once; `rm` fixes the sign of an exact zero. -/
def finAdd (f n : Nat) (s1 : Bool) (m1 : Nat) (e1 : Int) (s2 : Bool) (m2 : Nat) (e2 : Int) : Nat × Nat :=
  let q := min e1 e2
  let v := sMag s1 m1 e1 q + sMag s2 m2 e2 q
  if v = 0 then
    let rm := if f = fmtK16 then 0 else nRM n
    (fZero f (if m1 = 0 ∧ m2 = 0 ∧ s1 = s2 then s1 else rm = 3), 0)
  else fRoundN f n (decide (v < 0)) v.natAbs q

def fAddV (f n : Nat) (a b : FVal) : Nat × Nat :=
  match a, b with
  | .nan x, y => nanRes f (x || y.isSnan)
  | x, .nan y => nanRes f (y || x.isSnan)
  | .inf s, .inf t => if s = t then (fMakeInf f s (nFsat n), 0) else nanRes f true
  | .inf s, _ => (fMakeInf f s (nFsat n), 0)
  | _, .inf t => (fMakeInf f t (nFsat n), 0)
  | .fin s1 m1 e1, .fin s2 m2 e2 => finAdd f n s1 m1 e1 s2 m2 e2

def fMulV (f n : Nat) (a b : FVal) : Nat × Nat :=
  match a, b with
  | .nan x, y => nanRes f (x || y.isSnan)
  | x, .nan y => nanRes f (y || x.isSnan)
  | .fin s m e, .fin t k g => fRoundN f n (s != t) (m * k) (e + g)
  | x, y => if x.isZero || y.isZero then nanRes f true else (fMakeInf f (x.neg != y.neg) (nFsat n), 0)

def fFmaV (f n : Nat) (a b c : FVal) : Nat × Nat :=
  let bad := (a.isZero && b.isInf) || (a.isInf && b.isZero)
  if a.isNan || b.isNan || c.isNan || bad then nanRes f (a.isSnan || b.isSnan || c.isSnan || bad)
  else
    match a, b, c with
    | .fin s m e, .fin t k g, .fin u x h => finAdd f n (s != t) (m * k) (e + g) u x h
    | .fin .., .fin .., c => (fMakeInf f c.neg (nFsat n), 0)
    | a, b, .inf u => if (a.neg != b.neg) = u then (fMakeInf f u (nFsat n), 0) else nanRes f true
    | a, b, _ => (fMakeInf f (a.neg != b.neg) (nFsat n), 0)

def fDivV (f n : Nat) (a b : FVal) : Nat × Nat :=
  match a, b with
  | .nan x, y => nanRes f (x || y.isSnan)
  | x, .nan y => nanRes f (y || x.isSnan)
  | .inf _, .inf _ => nanRes f true
  | .inf s, y => (fMakeInf f (s != y.neg) (nFsat n), 0)
  | x, .inf t => (fZero f (x.neg != t), 0)
  | .fin s m e, .fin t k g =>
    if k = 0 then (if m = 0 then nanRes f true else (fMakeInf f (s != t) (nFsat n), flDZ))
    else
      let v := m * 2 ^ 64 / k
      let sticky := if m * 2 ^ 64 % k = 0 then 0 else 1
      fRoundN f n (s != t) (2 * v + sticky) (e - g - 65)

/-- The integer square root by bits `i - 1` to 0 above `r`. -/
def isqrtBits (n : Nat) : Nat → Nat → Nat
  | 0, r => r
  | i + 1, r => isqrtBits n i (if (r + 2 ^ i) * (r + 2 ^ i) ≤ n then r + 2 ^ i else r)

def fSqrtV (f n : Nat) (a : FVal) : Nat × Nat :=
  match a with
  | .nan x => nanRes f x
  | .inf s => if s then nanRes f true else (fMakeInf f false (nFsat n), 0)
  | .fin s m e =>
    if m = 0 then (fZero f s, 0)
    else if s then nanRes f true
    else
      let (m, e) := if e % 2 = 0 then (m, e) else (2 * m, e - 1)
      let v := m * 2 ^ 64
      let r := isqrtBits v 48 0
      fRoundN f n false (2 * r + (if r * r = v then 0 else 1)) (e / 2 - 33)

/-- Order of two numbers that are no NaN: −1, 0 or 1. -/
def fOrder (a b : FVal) : Int :=
  match a, b with
  | .inf s, .inf t => if s = t then 0 else if s then -1 else 1
  | .inf s, _ => if s then -1 else 1
  | _, .inf t => if t then 1 else -1
  | .fin s m e, .fin t k g => let q := min e g; (sMag s m e q - sMag t k g q).sign
  | _, _ => 0

/-- minimumNumber and maximumNumber of encodings `x`, `y`. -/
def fMinMax (f : Nat) (max_ : Bool) (x y : Nat) : Nat × Nat :=
  let a := fDecode f x
  let b := fDecode f y
  let fl := if a.isSnan || b.isSnan then flNV else 0
  if a.isNan && b.isNan then (fNan f, fl)
  else if a.isNan then (y, fl)
  else if b.isNan then (x, fl)
  else
    let o := fOrder a b
    let less := decide (o < 0) || (o == 0 && a.neg && !b.neg)
    (if less != max_ then x else y, 0)

/-! Conversions (R129–R133). -/

def cvtFF (f g n x : Nat) : Nat × Nat :=
  match fDecode f x with
  | .nan s => nanRes g s
  | .inf s => if g = fmtK8e4 then (if nFsat n then (fLargest g s, flOF + flNX) else (0x7F, flNV)) else (fInf g s, 0)
  | .fin s m e => if m = 0 then (fZero g s, 0) else fRoundN g n s m e

/-- R132. -/
def cvtFI (f g n x : Nat) : Nat × Nat :=
  let h : Int := 2 ^ (fmtWidth g - 1)
  match fDecode f x with
  | .nan _ => (0, flNV)
  | .inf s => (iEnc g (if s then -h else h - 1), flNV)
  | .fin s m e =>
    let k : Int := roundAt s m e 0 (nRM n)
    let v := if s then -k else k
    if -h ≤ v ∧ v < h then (iEnc g v, 0) else (iEnc g (if v < 0 then -h else h - 1), flNV)

/-- An integer into a floating-point format (R128). -/
def cvtIF (g n : Nat) (v : Int) : Nat × Nat := fRoundN g n (decide (v < 0)) v.natAbs 0

/-- Any conversion. -/
def cvt (f g n x : Nat) : Nat × Nat :=
  if isFloat f then (if isFloat g then cvtFF f g n x else cvtFI f g n x)
  else if isFloat g then cvtIF g n (iVal f x)
  else iNarrow g (nWrap n) (iVal f x)

/-! Histogram bins (R136). -/

/-- The bin of a non-zero magnitude. -/
def magBin (e : Int) : Nat := if e < -48 then 64 else if e > 15 then 65 else (e + 48).toNat

/-- The bin of an encoding; format 9 is INT32. -/
def histBin (f x : Nat) : Nat :=
  if isFloat f then
    match fDecode f x with
    | .nan _ => 67
    | .inf _ => 67
    | .fin _ m e => if m = 0 then 66 else magBin (Nat.log2 m + e)
  else
    let v := toSigned (fmtWidth f) x
    if v = 0 then 66 else magBin (Nat.log2 v.natAbs)

/-! Quantisation (R176). -/

/-- The word of a value, the flags, and whether it overflows. `qs` is the scale, `qh` the headroom. -/
def quant (f : Nat) (qs : Int) (qh x : Nat) : Word × Nat × Bool :=
  let lim : Nat := 2 ^ (63 - qh)
  let sat := fun (s : Bool) => BitVec.ofInt 64 (if s then -((lim : Int) - 1) else (lim : Int) - 1)
  match fDecode f x with
  | .nan _ => (0, flNV, true)
  | .inf s => (sat s, 0, true)
  | .fin s m e =>
    let k := roundAt s m (e + (63 - (qh : Int) - qs)) 0 0
    if lim ≤ k then (sat s, flSAT, true)
    else (BitVec.ofInt 64 (if s then -(k : Int) else k), 0, false)

/-! The approximations (R171–R174). -/

/-- Special values, or the exact finite source. -/
def specialOr (f n x : Nat) (infR ninfR zeroR : Bool → Nat × Nat) (negOk : Bool) (core : Bool → Nat → Int → Nat × Nat) :
    Nat × Nat :=
  match fDecode f x with
  | .nan s => nanRes f s
  | .inf false => infR false
  | .inf true => ninfR true
  | .fin s m e => if m = 0 then zeroR s else if s && !negOk then nanRes f true else core s m e

/-- Floor of `v` / 2^32 and 2^30. -/
def fl32 (v : Int) : Int := v / 2 ^ 32
def fl30 (v : Int) : Int := v / 2 ^ 30

def horner32 (cs : List Int) (x : Int) : Int := match cs with
  | [] => 0
  | c :: cs => cs.foldl (fun p c => c + fl32 (p * x)) c

def ceTable : List Int := [65510, 661577, 5726719, 41309550, 238388332, 1031764991, 2977044472, 4294967296]

def exp2Fin (f n : Nat) (s : Bool) (m : Nat) (e : Int) : Nat × Nat :=
  let v := sMag s m e (-149)
  if 128 * 2 ^ 149 ≤ v then fRoundN f n false 1 128
  else if v < -152 * 2 ^ 149 then fRoundN f n false 1 (-153)
  else
    let k : Int := roundAt false m e (-32) 0
    let x := if s then -k else k
    let n' := fl32 (x + 2 ^ 31)
    let fr := x - n' * 2 ^ 32
    fRoundN f n false (horner32 ceTable fr).toNat (n' - 32)

def fExp2 (f n x : Nat) : Nat × Nat :=
  specialOr f n x (fun _ => (fMakeInf f false (nFsat n), 0)) (fun _ => (fZero f false, 0))
    (fun _ => fRoundN f n false 1 0) true (exp2Fin f n)

def clTable : List Int := [238320308, 281651274, 344240445, 442594858, 619632802, 1032721336, 3098164009]

def log2Fin (f n m : Nat) (ex : Int) : Nat × Nat :=
  let e : Int := Nat.log2 m + ex
  let g : Int := (m * 2 ^ (30 - Nat.log2 m) : Nat)
  let (g, e) := if 3 * 2 ^ 29 ≤ g then (g / 2, e + 1) else (g, e)
  let u := Int.tdiv ((g - 2 ^ 30) * 2 ^ 30) (g + 2 ^ 30)
  let w := fl30 (u * u)
  let p := match clTable with
    | [] => 0
    | c :: cs => cs.foldl (fun p c => c + fl30 (p * w)) c
  let r := e * 2 ^ 30 + fl30 (p * u)
  if r = 0 then (fZero f false, 0) else fRoundN f n (decide (r < 0)) r.natAbs (-30)

def fLog2 (f n x : Nat) : Nat × Nat :=
  specialOr f n x (fun _ => (fMakeInf f false (nFsat n), 0)) (fun _ => nanRes f true)
    (fun _ => (fMakeInf f true (nFsat n), flDZ)) false (fun _ m e => log2Fin f n m e)

def trTable : List Nat := [248, 234, 221, 210, 200, 191, 182, 174, 167, 161, 155, 149, 144, 139, 134, 130]

def rcpFin (f n : Nat) (s : Bool) (m : Nat) (ex : Int) : Nat × Nat :=
  let e : Int := Nat.log2 m + ex
  if m = 2 ^ Nat.log2 m then fRoundN f n s 1 (-e)
  else
    let mq : Int := (m * 2 ^ (32 - Nat.log2 m) : Nat)
    let y : Int := (trTable.getD (mq / 2 ^ 28 % 16).toNat 0 : Nat) * 2 ^ 24
    let d := 2 ^ 32 - fl32 (mq * y)
    let p := (List.range 6).foldl (fun (p : Int) _ => 2 ^ 32 + fl32 (p * d)) (2 ^ 32)
    fRoundN f n s (fl32 (y * p)).toNat (-32 - e)

def fRcp (f n x : Nat) : Nat × Nat :=
  specialOr f n x (fun _ => (fZero f false, 0)) (fun _ => (fZero f true, 0))
    (fun s => (fMakeInf f s (nFsat n), flDZ)) true (rcpFin f n)

def tqTable : List Nat := [248, 235, 223, 214, 205, 197, 190, 184, 176, 166, 158, 151, 145, 139, 134, 130]
def cqTable : List Int := [0x39C00000, 0x3F000000, 0x46000000, 0x50000000, 0x60000000, 0x80000000, 0x100000000]

def rsqFin (f n m : Nat) (ex : Int) : Nat × Nat :=
  let e : Int := Nat.log2 m + ex
  let odd := decide (e % 2 ≠ 0)
  let e := if odd then e - 1 else e
  if !odd && m == 2 ^ Nat.log2 m then fRoundN f n false 1 (-(e / 2))
  else
    let mq : Int := (m * 2 ^ (32 - Nat.log2 m) : Nat) * (if odd then 2 else 1)
    let j := if odd then 8 + (mq / 2 ^ 30 % 8).toNat else (mq / 2 ^ 29 % 8).toNat
    let y : Int := (tqTable.getD j 0 : Nat) * 2 ^ 24
    let d := 2 ^ 32 - fl32 (fl32 (mq * y) * y)
    fRoundN f n false (fl32 (y * horner32 cqTable d)).toNat (-32 - e / 2)

def fRsq (f n x : Nat) : Nat × Nat :=
  specialOr f n x (fun _ => (fZero f false, 0)) (fun _ => nanRes f true)
    (fun s => (fMakeInf f s (nFsat n), flDZ)) false (fun _ m e => rsqFin f n m e)

/-! RAND (R175). -/

def ror32 (x n : Nat) : Nat := x / 2 ^ n + x % 2 ^ n * 2 ^ (32 - n)
def rol32 (x n : Nat) : Nat := ror32 x (32 - n)

/-- Ten rounds from a 128-bit key (four words) and a 64-bit counter. -/
def randWords (k : List Nat) (ctr : Nat) : Nat × Nat :=
  (List.range 10).foldl (fun (st : Nat × Nat) i =>
    let rk := (k.getD (i % 4) 0 + (i + 1) * 0x9E3779B9) % 2 ^ 32
    let x := ((ror32 st.1 8 + st.2) % 2 ^ 32) ^^^ rk
    (x, rol32 st.2 3 ^^^ x)) (ctr % 2 ^ 32, ctr / 2 ^ 32 % 2 ^ 32)

/-- The result in a format. -/
def randMap (f r : Nat) : Nat :=
  if f = fmtFP32 then (fRound f false (r / 2 ^ 8) (-24) 0 false).1
  else if f = fmtFP16 then (fRound f false (r / 2 ^ 21) (-11) 0 false).1
  else if f = fmtK16 then (fRound f false (r / 2 ^ 24) (-8) 0 false).1
  else r % 2 ^ fmtWidth f

/-! The defined dot product (R148–R150). -/

/-- R150: `sum` in units of 2^(emax − 48), with the sticky bit. -/
def roundChunk (sum : Int) (st : Bool) (emax : Int) : Nat × Nat :=
  let s := decide (sum < 0)
  let m := sum.natAbs
  let qw := emax - 48
  let e : Int := Nat.log2 m + qw
  let q := max e (-126) - 23
  let (k, w) :=
    if q ≤ qw then (m, qw)
    else
      let d := (q - qw).toNat
      let k := m / 2 ^ d
      let r := m % 2 ^ d
      let h := 2 ^ (d - 1)
      (if h < r ∨ (r = h ∧ (st = true ∨ k % 2 = 1)) then k + 1 else k, q)
  let tooLarge : Bool := decide (127 < (if k = 0 then (0 : Int) else Nat.log2 k + w))
  if tooLarge then (fInf fmtFP32 s, flOF + flNX)
  else
    let nx := st || !isExact m qw w
    let small : Bool := k == 0 || decide (Nat.log2 k + w < -126)
    ((fRound fmtFP32 s k w 0 false).1, (if nx then flNX else 0) + (if nx && small then flUF else 0))

/-- The exact products of a chunk: sign, magnitude, exponent, of those that are not zero. -/
def products (ps : List (FVal × FVal)) : List (Bool × Nat × Int) :=
  ps.filterMap (fun e =>
    match e with
    | (.fin s m x, .fin t k y) => if m * k = 0 then none else some (s != t, m * k, x + y)
    | _ => none)

/-- R149. -/
def chunkSum (ps : List (FVal × FVal)) : Nat × Nat :=
  let nv := if ps.any (fun e => e.1.isSnan || e.2.isSnan) then flNV else 0
  if ps.any (fun e => e.1.isNan || e.2.isNan) then (fNan 0, nv)
  else if ps.any (fun e => (e.1.isZero && e.2.isInf) || (e.1.isInf && e.2.isZero)) then (fNan 0, flNV)
  else
    let infs := (ps.filter (fun e => e.1.isInf || e.2.isInf)).map (fun e => e.1.neg != e.2.neg)
    if infs.contains true && infs.contains false then (fNan 0, flNV)
    else
      match infs with
      | s :: _ => (fInf 0 s, 0)
      | [] =>
        match products ps with
        | [] => (0, 0)
        | p :: rest =>
          let top := fun (x : Bool × Nat × Int) => (Nat.log2 x.2.1 : Int) + x.2.2
          let emax := rest.foldl (fun a x => max a (top x)) (top p)
          let r := (p :: rest).foldl (fun (acc : Int × Bool) x =>
            let sh := x.2.2 + 48 - emax
            let t : Nat := if 0 ≤ sh then x.2.1 * 2 ^ sh.toNat else x.2.1 / 2 ^ (-sh).toNat
            let lost := decide (sh < 0) && x.2.1 % 2 ^ (-sh).toNat != 0
            (acc.1 + (if x.1 then -(t : Int) else t), acc.2 || lost)) (0, false)
          if r.1 = 0 then (0, if r.2 then flNX else 0) else roundChunk r.1 r.2 emax

/-- R148 over the pairs of a dot product in ascending K, the global index of the first being `kg`. -/
def mmaFp : Nat → Nat → Nat → Nat → List (FVal × FVal) → Nat × Nat
  | 0, _, acc, fl, _ => (acc, fl)
  | n + 1, kg, acc, fl, ps =>
    match ps with
    | [] => (acc, fl)
    | _ =>
      let len := 32 - kg % 32
      let c := chunkSum (ps.take len)
      let a := fAddV 0 0 (fDecode 0 acc) (fDecode 0 c.1)
      mmaFp n (kg + len) a.1 (fl ||| c.2 ||| a.2) (ps.drop len)

/-- R153: the products are added one by one. -/
def mmaInt (wrap : Bool) (acc : Int) (ps : List (Int × Int)) : Int × Nat :=
  ps.foldl (fun (st : Int × Nat) e =>
    let v := st.1 + e.1 * e.2
    let x := iNarrow 9 wrap v
    (toSigned 32 x.1, st.2 ||| x.2)) (acc, 0)

end Sys2Proof.Machine
end

