-- ==== Sys2Proof/Machine/EngOps.lean ====
section
/-!
DEFINITION. What the matrix unit and the vector engine share: operand accesses at their bank grants with their code errors,
element packing, histogram taps, and the end of a descriptor's work (R43, R88–R92, R119, R136).
-/
namespace Sys2Proof.Machine

/-- The error bits of the line at `line`. -/
def lineErr (e : StreamErr) (line : Nat) : EccErr :=
  let pick := fun (l : List Nat) => BitVec.ofNat 8 (ofBits ((List.range 8).filter (fun k => l.contains (line + 8 * k))))
  ⟨pick e.single, pick e.double⟩

/-- Bytes `off .. off + n - 1`, cut at the 64-byte lines: offset and length of each bank access (R88). -/
def linePieces (off n : Nat) : List (Nat × Nat) :=
  (List.range (if n = 0 then 0 else (off + n + 63) / 64 - off / 64)).map (fun k =>
    let lo := max off ((off / 64 + k) * 64)
    (lo, min (off + n) ((off / 64 + k) * 64 + 64) - lo))

/-- An engine's request at bank `b` waits: the bank does not grant, or a request of higher priority than an engine's is there
in the next cycle the bank is free in (R89, R90). -/
def State.engWaits (s : State) (p b : Nat) : Bool :=
  let bk := (s.spad p).bank b
  let t := max s.now bk.freeAt
  !bk.grants || (decide (7 ≤ bk.p6wait) && (bk.nextP6 t (s.scrubOn p)).isSome) || ((s.core p).tpRequest t b).isSome
    || (((s.core p).clearing b).isSome && decide ((s.core p).clearAt ≤ t))

/-- The bank grants an access to an engine: priority-6 requests miss one cycle. -/
def State.engTurn (s : State) (p b : Nat) : State := (s.useBank p b).missP6 p b 1

/-- An engine reads within a line (R92): the new state, and whether a word is uncorrectable. -/
def State.engRead (s : State) (p : Nat) (x : Nat × Nat) (err : EccErr) : State × Bool :=
  let s := (s.touchPlain p false x.1 x.2).eccRead p x.1 x.2 err false
  (s, (s.spad p).anyUe x.1 x.2)

/-- Element `e` of width `w` bits of packed bytes (R119). -/
def packedAt (bs : List Byte) (w e : Nat) : Nat :=
  if w = 4 then field (leAt bs (e / 2) 1) (4 * (e % 2)) 4 else leAt bs (e * (w / 8)) (w / 8)

/-- Packed nibbles, the lower one first. -/
def packNibbles : List Nat → List Byte
  | [] => []
  | [x] => [BitVec.ofNat 8 (x % 16)]
  | x :: y :: ys => BitVec.ofNat 8 (x % 16 + 16 * (y % 16)) :: packNibbles ys

/-- Pack elements of width `w`. -/
def pack (w : Nat) (l : List Nat) : List Byte :=
  if w = 4 then packNibbles l else l.flatMap (leBytes (w / 8))

/-- Taps count bins of a histogram slot for the tick of the issuing task (R136, R137). -/
def Hist.count (h : Hist) (tick slot : Nat) (bins : List Nat) : Hist :=
  let base := (tick % 2) * 16 + slot
  { h with
    live := bins.foldl (fun m b => SMap.set 0 m (base * 68 + b) (satAdd 32 (SMap.get 0 m (base * 68 + b)) 1)) h.live
    liveUsed := if bins.isEmpty then h.liveUsed else SMap.set false h.liveUsed base true }

/-- The tap of a descriptor: HSEL[4] enables, HSEL[3:0] names the slot. -/
def State.tap (s : State) (p tick hsel : Nat) (bins : List Nat) : State :=
  if bit hsel 4 then s.modCore p (fun c => { c with hist := c.hist.count tick (hsel % 16) bins }) else s

/-- The cycles an engine's groups waited depend on timing that the model leaves out: the counter takes free numbers. Under
limit 64 no group waits for the throttle (R157, R177). -/
def State.stalls (s : State) (p off limit : Nat) : State :=
  let (a, s) := s.freeNat
  let s := s.bump (unitCore p) off 0 32 a
  if 64 ≤ limit then s
  else
    let (b, s) := s.freeNat
    s.bump (unitCore p) off 32 32 b

/-- The head of a queue. -/
def modHead (q : List EngDesc) (f : EngDesc → EngDesc) : List EngDesc :=
  match q with
  | [] => []
  | d :: q => f d :: q
def State.modMxuHead (s : State) (p : Nat) (f : EngDesc → EngDesc) : State :=
  s.modCore p (fun c => { c with mxu := { c.mxu with queue := modHead c.mxu.queue f } })
def State.modVecHead (s : State) (p : Nat) (f : EngDesc → EngDesc) : State :=
  s.modCore p (fun c => { c with vec := { c.vec with queue := modHead c.vec.queue f } })

/-- The work of the head of the matrix queue is done. -/
def State.mxuDone (s : State) (p : Nat) (st : Status) (flags : Nat) : State :=
  s.modMxuHead p (fun d => { d with finished := some st, flags := BitVec.ofNat 6 flags, got := [] })

/-- The work of the head of the vector queue is done. -/
def State.vecDone (s : State) (p : Nat) (st : Status) : State :=
  s.modVecHead p (fun d => { d with finished := some st, got := [] })

/-- One bank access of an engine is granted: the head of its queue has gone one further. -/
def EngDesc.moved (d : EngDesc) (bs : List Byte) : EngDesc := { d with pos := d.pos + 1, got := d.got ++ bs }

/-- The head of a queue, while its work is to be done and it is of operation `op`. -/
def headOf (q : List EngDesc) (op : Nat) : Option EngDesc :=
  match q with
  | [] => none
  | d :: _ => if d.finished.isNone ∧ leAt d.raw 0 1 % 16 = op then some d else none

/-- The same of a core's engine; the engines of a core that stands still do nothing. -/
def State.engHead (s : State) (p : Nat) (q : List EngDesc) (op : Nat) : Option EngDesc :=
  if s.coreDown p then none else headOf q op
/-- The head of a queue whatever its operation, while its work is to be done. -/
def State.engFront (s : State) (p : Nat) (q : List EngDesc) : Option EngDesc :=
  match q with
  | [] => none
  | d :: _ => if d.finished.isNone ∧ !s.coreDown p then some d else none

end Sys2Proof.Machine
end

