-- ==== Sys2Proof/Machine/Vec.lean ====
section
/-!
DEFINITION. The vector engine (spec/07): VXI, and the operations of its descriptors.
-/
namespace Sys2Proof.Machine

/-! Descriptor fields (R164). -/

def vxOp (d : List Byte) : Nat := leAt d 0 1 % 16
def vxLast (d : List Byte) : Nat := field (leAt d 0 1) 4 3
def vxOutStage (d : List Byte) : Nat := leAt d 1 1 % 8
def vxDest (d : List Byte) : Nat := field (leAt d 1 1) 3 3
def vxOutMask (d : List Byte) : Nat := leAt d 2 1 % 16
def vxHsel (d : List Byte) : Nat := leAt d 3 1 % 32
def vxCount (d : List Byte) : Nat := leAt d 4 3
def vxIn0 (d : List Byte) : Nat := leAt d 8 4
def vxIn1 (d : List Byte) : Nat := leAt d 12 4
def vxOut (d : List Byte) : Nat := leAt d 16 4
def vxInFmt (d : List Byte) (n : Nat) : Nat := field (leAt d 20 3) (3 * n) 3
def vxTbFmt (d : List Byte) (n : Nat) : Nat := field (leAt d 20 3) (6 + 3 * n) 3
def vxStage (d : List Byte) (s : Nat) : Nat := leAt d (24 + 4 * s) 4

/-! Stage words (R165). -/

def stSop (w : Nat) : Nat := field w 0 5
def stFmt (w : Nat) : Nat := field w 5 3
def stNctl (w : Nat) : Nat := field w 8 4
def stSrc (w k : Nat) : Nat := field w (12 + 4 * k) 4
def stMask (w : Nat) : Nat := field w 24 4
def stAux (w : Nat) : Nat := field w 28 4

/-- How many element operands an operation has (R169); the key of RAND is none. -/
def sopArity (op : Nat) : Nat :=
  ([1, 2, 2, 2, 3, 2, 2, 1, 1, 2, 2, 1, 2, 2, 2, 2, 2, 2, 1, 1, 1, 1, 2, 1, 0, 1, 1] : List Nat).getD op 0

/-- The operation is permitted in a format (R169). -/
def sopOk (op f : Nat) : Bool :=
  let k8 := f == 3 || f == 4
  if 0x1A < op then false
  else if 1 ≤ op ∧ op ≤ 4 then !k8
  else if 0x0F ≤ op ∧ op ≤ 0x11 then isInt f
  else if (0x12 ≤ op ∧ op ≤ 0x17) ∨ op = 0x19 then isFloat f
  else if op = 0x18 then !k8
  else true

/-- The result format of a stage; 8 is the reduction word. -/
def stRes (w : Nat) : Nat := if stSop w = 0x0B then stAux w % 8 else if stSop w = 0x19 then 8 else stFmt w

/-- The operand sources a stage uses. -/
def stSources (w : Nat) : List Nat := (List.range (sopArity (stSop w))).map (stSrc w)

def vxStages (d : List Byte) : List Nat := (List.range (vxLast d + 1)).map (vxStage d)
/-- The source codes that some stage uses, and the tile buffers that serve as keys. -/
def vxUsed (d : List Byte) : List Nat := (vxStages d).flatMap stSources
def vxKeys (d : List Byte) : List Nat :=
  ((vxStages d).filter (fun w => stSop w == 0x18)).map (fun w => stSrc w 0 - 3)
def vxReadsIn (d : List Byte) (n : Nat) : Bool := (vxUsed d).contains (1 + n)
def vxReadsTb (d : List Byte) (n : Nat) : Bool := (vxUsed d).contains (3 + n)
/-- The format and the element width of the output. -/
def vxOutFmt (d : List Byte) : Nat := stRes (vxStage d (vxOutStage d))
def vxOutWidth (d : List Byte) : Nat := fmtWidth (vxOutFmt d)

/-- R166, R167 items 2 and 3: a source of stage `s` in its format. -/
def vxSourceOk (d : List Byte) (s f code : Nat) : Bool :=
  if code = 0 then true
  else if code ≤ 2 then vxInFmt d (code - 1) == f
  else if code ≤ 6 then vxTbFmt d (code - 3) == f
  else if code ≤ 10 then true
  else if code ≤ 14 then decide (code - 10 ≤ s) && stRes (vxStage d (s - (code - 10))) == f
  else false

/-- The field rules of one stage. -/
def vxStageOk (d : List Byte) (s : Nat) : Bool :=
  let w := vxStage d s
  let op := stSop w
  let aux := stAux w
  sopOk op (stFmt w)
    && (List.range (sopArity op)).all (fun k => vxSourceOk d s (stFmt w) (stSrc w k))
    && (if op = 0x18 then decide (3 ≤ stSrc w 0) && decide (stSrc w 0 ≤ 6) && stSrc w 1 == 0 && stSrc w 2 == 0
        else (List.range 3).all (fun k => decide (k < sopArity op) || stSrc w k == 0
          || (k == 2 && (op == 9 || op == 10) && decide (stSrc w 2 ≤ 7))))
    && (bit (stMask w) 3 || stMask w == 0)
    && (if op = 9 then true else if op = 0x0B then decide (aux < 8) else if op = 0x18 then decide (aux < 2) else aux == 0)

def countOps (d : List Byte) (l : List Nat) : Nat := ((vxStages d).filter (fun w => l.contains (stSop w))).length

/-- Bytes of `n` elements of width `w`. -/
def elemBytes (n w : Nat) : Nat := ceilDiv (n * w) 8

/-- R167 item 8: the alignment of an element of width `w`. -/
def elemAligned (a w : Nat) : Bool := a % (if w = 4 then 1 else w / 8) == 0

/-- R167 item 9: input `n` may be overlapped by the output. -/
def vxOverlapOk (d : List Byte) (n a : Nat) : Bool :=
  let wi := fmtWidth (vxInFmt d n)
  let wo := vxOutWidth d
  !vxReadsIn d n || (a == vxOut d && wi == wo)
    || decide (a + elemBytes (vxCount d) wi ≤ vxOut d) || decide (vxOut d + elemBytes (vxCount d) wo ≤ a)

/-- The fields of a CHAIN (R164, R167). -/
def vxChainOk (d : List Byte) : Bool :=
  let htap := countOps d [0x1A]
  decide (vxOutStage d ≤ vxLast d) && decide (vxDest d ≤ 4)
    && (bit (vxOutMask d) 3 || vxOutMask d == 0)
    && (if htap = 0 then vxHsel d == 0 else bit (vxHsel d) 4) && decide (1 ≤ vxCount d)
    && (List.range (vxLast d + 1)).all (vxStageOk d)
    && zeroAt d (24 + 4 * (vxLast d + 1)) (4 * (7 - vxLast d))
    && (vxReadsIn d 0 || (vxIn0 d == 0 && vxInFmt d 0 == 0)) && (vxReadsIn d 1 || (vxIn1 d == 0 && vxInFmt d 1 == 0))
    && (List.range 4).all (fun n => vxReadsTb d n || vxTbFmt d n == 0)
    && field (leAt d 20 3) 18 6 == 0
    && decide (countOps d [0x16, 0x17] ≤ 1) && decide (htap ≤ 1) && decide (countOps d [0x19] ≤ 1)
    && (countOps d [0x19] == 0 || stSop (vxStage d (vxOutStage d)) == 0x19)
    && (!vxReadsIn d 0 || elemAligned (vxIn0 d) (fmtWidth (vxInFmt d 0)))
    && (!vxReadsIn d 1 || elemAligned (vxIn1 d) (fmtWidth (vxInFmt d 1)))
    && (if vxDest d = 0 then elemAligned (vxOut d) (vxOutWidth d) && vxOverlapOk d 0 (vxIn0 d) && vxOverlapOk d 1 (vxIn1 d)
        else vxOut d == 0 && decide (elemBytes (vxCount d) (vxOutWidth d) ≤ 16384))

/-- The field rules that come before the extents. -/
def vxFieldsOk (s : State) (d : List Byte) : Bool :=
  let op := vxOp d
  decide (op ≤ 2) && !bit (leAt d 0 1) 7 && leAt d 1 1 / 64 == 0 && leAt d 2 1 / 16 == 0 && leAt d 3 1 / 32 == 0
    && zeroAt d 7 1 && zeroAt d 23 1 && zeroAt d 60 4
    && (if op = 0 then vxChainOk d && (vxStages d).all (fun w => s.formatOk (stFmt w) && (stSop w != 0x0B || s.formatOk (stAux w % 8)))
        else vxLast d == 0 && vxOutStage d == 0 && zeroAt d 2 2 && vxIn0 d % 64 == 0 && zeroAt d 12 44
          && (if op = 1 then vxDest d == 0 && vxCount d == 0
              else decide (1 ≤ vxDest d) && decide (vxDest d ≤ 4) && vxCount d % 64 == 0 && decide (64 ≤ vxCount d)
                && decide (vxCount d ≤ 16384)))

/-- The extents of the operands, in the order of their address fields (R40, R167). -/
def vxOperands (_ : State) (sl : Slot) (d : List Byte) : Option (Nat × Word) :=
  if vxOp d = 0 then
    firstFault
      [if vxReadsIn d 0 then sl.spadOperand (vxIn0 d) (elemBytes (vxCount d) (fmtWidth (vxInFmt d 0))) else none,
       if vxReadsIn d 1 then sl.spadOperand (vxIn1 d) (elemBytes (vxCount d) (fmtWidth (vxInFmt d 1))) else none,
       if vxDest d = 0 then sl.spadOperand (vxOut d) (elemBytes (vxCount d) (vxOutWidth d)) else none]
  else sl.spadOperand (vxIn0 d) (if vxOp d = 1 then 64 else vxCount d)

/-- VXI (R74). -/
def execVxi (a : At) (rd ra : Reg) (imm : BitVec 16) (s : State) : Res := engineIssue a 0x29 .vxi rd ra imm s

/-- The grant of its descriptor read. -/
def State.grantVxi (s : State) (p i : Nat) (m : MemOp) (err : EccErr) : State :=
  s.grantEngine p i m err vxFieldsOk vxOperands (fun s d off t =>
    let x := s.engDesc p i d off t
    s.modCore p (fun c => { c with vec := { c.vec with queue := c.vec.queue ++ [x] } }))

/-! Parameters (R168). -/

def State.modVec (s : State) (p : Nat) (f : Vec → Vec) : State := s.modCore p (fun c => { c with vec := f c.vec })
def Vec.param (v : Vec) (o n : Nat) : Nat := leNat (SMap.getRange 0 v.params o n)
def Vec.tmod (v : Vec) (n : Nat) : Nat :=
  let t := v.param (16 + 2 * n) 2
  if t = 0 ∨ 16384 < t then 16384 else t
def Vec.keyGroup (v : Vec) : Nat := let g := v.param 32 1; if 24 < g then 24 else g
def Vec.headroom (v : Vec) : Nat := let h := v.param 33 1; if h = 0 ∨ 32 < h then 32 else h
def Vec.scale (v : Vec) : Int := toSigned 16 (v.param 34 2)

/-- The parameter block as the registers hold it: bits that no field names are not held. -/
def paramBytes (bs : List Byte) : List Byte :=
  bs.take 32 ++ [BitVec.ofNat 8 (leAt bs 32 1 % 32), BitVec.ofNat 8 (leAt bs 33 1 % 64)] ++ (bs.drop 34).take 3
    ++ [BitVec.ofNat 8 (leAt bs 37 1 % 64)]

/-! Stage operations (R169). -/

/-- Predicate `k` of CMP, from the order of two values or `none` for an unordered pair. -/
def predicate (k : Nat) (o : Option Int) : Bool :=
  match o with
  | none => k == 1 || k == 6
  | some o =>
    if k = 0 then o == 0 else if k = 1 then o != 0 else if k = 2 then decide (o < 0) else if k = 3 then decide (o ≤ 0)
    else if k = 4 then decide (0 < o) else if k = 5 then decide (0 ≤ o) else k == 7

/-- The order of two encodings, and the flags of comparing them. -/
def compareEnc (f a b : Nat) : Option Int × Nat :=
  if isFloat f then
    let x := fDecode f a
    let y := fDecode f b
    (if x.isNan || y.isNan then none else some (fOrder x y), if x.isSnan || y.isSnan then flNV else 0)
  else (some ((iVal f a - iVal f b).sign), 0)

/-- An integer operation on exact values. -/
def intOp (f n : Nat) (v : Int) : Nat × Nat := iNarrow f (nWrap n) v

/-- The result and the flags of an operation without effects on masks, histograms or buckets. -/
def sopValue (op f n aux a b c : Nat) (sel : Bool) : Nat × Nat :=
  let w := fmtWidth f
  let fl := isFloat f
  let da := fDecode f a
  let db := fDecode f b
  match op with
  | 0x01 => if fl then fAddV f n da db else intOp f n (iVal f a + iVal f b)
  | 0x02 => if fl then fAddV f n da db.flip else intOp f n (iVal f a - iVal f b)
  | 0x03 => if fl then fMulV f n da db else intOp f n (iVal f a * iVal f b)
  | 0x04 => if fl then fFmaV f n da db (fDecode f c) else intOp f n (iVal f a * iVal f b + iVal f c)
  | 0x05 => if fl then fMinMax f false a b else (if iVal f a ≤ iVal f b then a else b, 0)
  | 0x06 => if fl then fMinMax f true a b else (if iVal f a ≤ iVal f b then b else a, 0)
  | 0x07 => if fl then (a % 2 ^ (w - 1), 0) else intOp f n (iVal f a).natAbs
  | 0x08 => if fl then (a ^^^ 2 ^ (w - 1), 0) else intOp f n (-iVal f a)
  | 0x0A => (if sel then a else b, 0)
  | 0x0B => cvt f (aux % 8) n a
  | 0x0C => (a &&& b, 0)
  | 0x0D => (a ||| b, 0)
  | 0x0E => (a ^^^ b, 0)
  | 0x0F => (a * 2 ^ (b % w) % 2 ^ w, 0)
  | 0x10 => (a / 2 ^ (b % w), 0)
  | 0x11 => (iEnc f (iVal f a / 2 ^ (b % w)), 0)
  | 0x12 => fExp2 f n a
  | 0x13 => fLog2 f n a
  | 0x14 => fRcp f n a
  | 0x15 => fRsq f n a
  | 0x16 => fDivV f n da db
  | 0x17 => fSqrtV f n da
  | _ => (a, 0)

/-- One element on its way through the stages. -/
structure Elem where
  /-- the results of the stages passed -/
  results : List Nat
  /-- its bits of the eight mask registers -/
  masks : Nat
  flags : Nat
  /-- QUANT saturated -/
  ovf : Bool
  /-- bins that an HTAP stage counts -/
  bins : List Nat
deriving DecidableEq, Repr

def Elem.enter : Elem := { results := [], masks := 255, flags := 0, ovf := false, bins := [] }

/-- The operand of source code `code` for element `e` at stage `s`, in format `f` (R166). -/
def vxOperand (v : Vec) (d : List Byte) (in0 in1 e : Nat) (x : Elem) (s f code : Nat) : Nat :=
  if code = 0 then 0
  else if code = 1 then in0
  else if code = 2 then in1
  else if code ≤ 6 then
    let n := code - 3
    let i := e % v.tmod n
    let w := fmtWidth (vxTbFmt d n)
    let at_ := n * 16384 + (i * w / 8) % 16384
    if w = 4 then field (leNat (SMap.getRange 0 v.buf at_ 1)) (4 * (i % 2)) 4 else leNat (SMap.getRange 0 v.buf at_ (w / 8))
  else if code ≤ 10 then v.param (4 * (code - 7)) 4 % 2 ^ fmtWidth f
  else x.results.getD (s - (code - 10)) 0

/-- RAND for element `e` with key buffer `n` (R175). -/
def vxRand (v : Vec) (n e aux f : Nat) : Nat :=
  let kg := v.keyGroup
  let key := SMap.getRange 0 v.buf (n * 16384 + 16 * (e / 2 ^ kg % 1024)) 16
  let r := randWords ((List.range 4).map (fun i => leAt key (4 * i) 4)) ((v.param 24 8 + e % 2 ^ kg) % 2 ^ 64)
  randMap f (if bit aux 0 then r.2 else r.1)

/-- One stage acts on one element (R169, R170). -/
def vxStep (v : Vec) (d : List Byte) (in0 in1 e : Nat) (x : Elem) (s : Nat) : Elem :=
  let w := vxStage d s
  let op := stSop w
  let f := stFmt w
  let get := fun k => vxOperand v d in0 in1 e x s f (stSrc w k)
  let a := if op = 0x18 then 0 else get 0
  if bit (stMask w) 3 && !bit x.masks (stMask w % 8) then
    { x with results := x.results ++ [if op ≠ 0x18 ∧ stRes w = f then a else 0] }
  else if op = 0x09 then
    let b := get 1
    let r := compareEnc f a b
    let k := stSrc w 2
    let old := bit x.masks k
    let new := predicate (stAux w % 8) r.1 && (!bit (stAux w) 3 || old)
    { x with results := x.results ++ [a], masks := setField x.masks k 1 (b2n new), flags := x.flags ||| r.2 }
  else if op = 0x18 then { x with results := x.results ++ [vxRand v (stSrc w 0 - 3) e (stAux w) f] }
  else if op = 0x19 then
    let r := quant f v.scale v.headroom a
    { x with results := x.results ++ [r.1.toNat], flags := x.flags ||| r.2.1, ovf := x.ovf || r.2.2 }
  else if op = 0x1A then { x with results := x.results ++ [a], bins := x.bins ++ [histBin f a] }
  else
    let b := if 2 ≤ sopArity op then get 1 else 0
    let c := if 3 ≤ sopArity op then get 2 else 0
    let r := sopValue op f (stNctl w) (stAux w) a b c (op == 0x0A && bit x.masks (stSrc w 2 % 8))
    { x with results := x.results ++ [r.1], flags := x.flags ||| r.2 }

def vxElement (v : Vec) (d : List Byte) (in0 in1 e : Nat) : Elem :=
  (List.range (vxLast d + 1)).foldl (vxStep v d in0 in1 e) Elem.enter

/-! Groups (R163). -/

/-- The width of a chain and the elements of a group. -/
def vxWidth (d : List Byte) : Nat :=
  let ins := ((List.range 2).filter (vxReadsIn d)).map (fun n => fmtWidth (vxInFmt d n))
  let tbs := ((List.range 4).filter (vxReadsTb d)).map (fun n => fmtWidth (vxTbFmt d n))
  (ins ++ tbs ++ (vxStages d).map (fun w => fmtWidth (stRes w))).foldl max 4
def vxLanes (d : List Byte) : Nat :=
  let w := vxWidth d
  if w = 64 then 8 else if w = 32 then 16 else if w = 16 then 32 else 64
def vxGroups (d : List Byte) : Nat := ceilDiv (vxCount d) (vxLanes d)

/-- The output bytes of a group with the bits of each that are written; `on` tells which elements are. -/
def packMasked (w : Nat) (l : List (Nat × Bool)) : List (Nat × Byte) :=
  if w = 4 then
    let m := pack 4 (l.map (fun e => if e.2 then 15 else 0))
    (m.map (·.toNat)).zip (pack 4 (l.map (·.1)))
  else (l.flatMap (fun e => List.replicate (w / 8) (if e.2 then 255 else 0))).zip (pack w (l.map (·.1)))

/-- A byte with the bits of a mask replaced. -/
def mergeByte (old : Byte) (m : Nat × Byte) : Byte :=
  BitVec.ofNat 8 ((old.toNat &&& (255 - m.1)) + (m.2.toNat &&& m.1))

/-- Masked bytes are written from offset `o` up: a word written in whole takes a good code, another keeps its own (R93,
R167). `dbl` are the words whose code shows a double-bit error. -/
def State.spadMerge (s : State) (p o : Nat) (l : List (Nat × Byte)) (dbl : Nat → Bool) : State :=
  let at_ := fun b => if o ≤ b then (l.getD (b - o) (0, 0)).1 else 0
  let ws := (wordsOf o l.length).map (fun w => (w, (List.range 8).map (fun k => at_ (w + k))))
  let hit := ws.filter (fun w => w.2.any (fun m => m != 0))
  let part := hit.filter (fun w => w.2.any (fun m => m != 255))
  let s := s.modSpad p (fun sp => { sp with
    ue := (part.filter (fun w => dbl w.1)).foldl (fun u w => SMap.set false u w.1 true) sp.ue })
  let bad := part.filter (fun w => (s.spad p).isUe w.1)
  let s := hit.foldl (fun (s : State) w =>
    s.touchPlain p true (max o w.1) (min (o + l.length) (w.1 + 8) - max o w.1)) s
  let s := s.modSpad p (fun sp =>
    let new := (List.zip (sp.read o l.length) l).map (fun e => mergeByte e.1 e.2)
    { sp with
      bytes := SMap.setRange 0 sp.bytes o new
      ue := hit.foldl (fun u w => if part.contains w then u else SMap.set false u w.1 false) sp.ue
      banks := SMap.mapAll Bank.reset (fun _ b => { b with
        writeBacks := b.writeBacks.filter (fun w => !(hit.map (·.1)).contains w) }) sp.banks })
  bad.foldl (fun s w => s.raiseCore p 0 .degraded 0x11 none w.1 false) s

/-- Masked bytes are written into a tile buffer. -/
def Vec.bufMerge (v : Vec) (o : Nat) (l : List (Nat × Byte)) : Vec :=
  { v with buf := SMap.setRange 0 v.buf o ((List.zip (SMap.getRange 0 v.buf o l.length) l).map (fun e => mergeByte e.1 e.2)) }

/-- The scale-overflow notice of a descriptor and its record (R176). -/
def State.scaleNotice (s : State) (p : Nat) (d : EngDesc) : State :=
  let v := (s.core p).vec
  let tag := v.param 36 2 % 1024
  let g := v.param 36 2 / 1024 % 16
  let u := unitCore p
  let s := s.setReg u rVEC_QOVF (satAdd 16 (s.fld u rVEC_QOVF 0 16) 1 + 2 ^ 16 * tag + 2 ^ 26 * g + 2 ^ 63)
  s.modCore p (fun c => { c with node := { c.node with
    notices := addNotice c.node.notices
      { kind := 1, core := ((s.gid p).getD 0x3FFF), tick := d.tick, att := d.att, count := 0, tag := some (tag, g) } } })

def Vec.isPoisoned (v : Vec) (n : Nat) : Bool := SMap.get false v.poison n
def Vec.setPoison (v : Vec) (n : Nat) (b : Bool) : Vec := { v with poison := SMap.set false v.poison n b }

/-- A poisoned tile buffer that a CHAIN reads (R178). -/
def Vec.readsPoison (v : Vec) (d : List Byte) : Bool :=
  (List.range 4).any (fun n => v.isPoisoned n && (vxReadsTb d n || (vxKeys d).contains n))

/-- First element and element count of the group that a CHAIN is in. -/
def EngDesc.lo (d : EngDesc) : Nat := d.group * vxLanes d.raw
def EngDesc.size (d : EngDesc) : Nat := min (vxLanes d.raw) (vxCount d.raw - d.lo)

/-- Bytes of input `n` in the group. -/
def EngDesc.inBytes (d : EngDesc) (n : Nat) : Nat :=
  if vxReadsIn d.raw n then elemBytes d.size (fmtWidth (vxInFmt d.raw n)) else 0

/-- The bank accesses that read: of the group a CHAIN is in, IN0 first; of an LDPARAM and an LDTILE. -/
def EngDesc.reads (d : EngDesc) : List (Nat × Nat) :=
  let span := fun n a => linePieces (d.spadBase + a + d.lo * fmtWidth (vxInFmt d.raw n) / 8) (d.inBytes n)
  if vxOp d.raw = 0 then span 0 (vxIn0 d.raw) ++ span 1 (vxIn1 d.raw)
  else linePieces (d.spadBase + vxIn0 d.raw) (if vxOp d.raw = 1 then 64 else vxCount d.raw)

/-- The elements of the group, out of the bytes its reads returned. -/
def EngDesc.elems (d : EngDesc) (v : Vec) : List Elem :=
  let input := fun n (bs : List Byte) j =>
    if vxReadsIn d.raw n then packedAt bs (fmtWidth (vxInFmt d.raw n)) j else 0
  (List.range d.size).map (fun j =>
    vxElement v d.raw (input 0 (d.got.take (d.inBytes 0)) j) (input 1 (d.got.drop (d.inBytes 0)) j) (d.lo + j))

/-- The output mask lets an element be written (R164). -/
def EngDesc.written (d : EngDesc) (x : Elem) : Bool := !bit (vxOutMask d.raw) 3 || bit x.masks (vxOutMask d.raw % 8)

/-- The output bytes of the group, with the bits of each that are written, and their offset in the output. -/
def EngDesc.output (d : EngDesc) (v : Vec) : List (Nat × Byte) :=
  packMasked (vxOutWidth d.raw) ((d.elems v).map (fun x => (x.results.getD (vxOutStage d.raw) 0, d.written x)))
def EngDesc.outAt (d : EngDesc) : Nat := d.lo * vxOutWidth d.raw / 8

/-- The bank accesses that write the group's output: those with a bit to write. -/
def EngDesc.writes (d : EngDesc) (v : Vec) : List (Nat × List (Nat × Byte)) :=
  if vxOp d.raw ≠ 0 ∨ vxDest d.raw ≠ 0 then []
  else
    let o := d.spadBase + vxOut d.raw + d.outAt
    let out := d.output v
    ((linePieces o out.length).map (fun x => (x.1, (out.drop (x.1 - o)).take x.2))).filter (fun x =>
      x.2.any (fun b => b.1 != 0))

/-- The next bank access of the vector engine: its offset and length (R163, R168). -/
def State.vecNext (s : State) (p : Nat) : Option (Nat × Nat) :=
  let v := (s.core p).vec
  match s.engFront p v.queue with
  | none => none
  | some d =>
    if vxOp d.raw = 0 ∧ (vxGroups d.raw ≤ d.group ∨ v.readsPoison d.raw) then none
    else
      match d.reads.drop d.pos with
      | x :: _ => some x
      | [] => (((d.writes v).drop (d.pos - d.reads.length)).head?).map (fun x => (x.1, x.2.length))

/-- The end of a group of a CHAIN: the flags, the counts and the notice of its elements, and the tile buffer it writes. An
element that OUT_MASK excludes raises no flag and counts in no bin (R135, R136). -/
def State.groupDone (s : State) (p : Nat) (d : EngDesc) : State :=
  let v := (s.core p).vec
  let es := d.elems v
  let on := es.filter d.written
  let ovf := on.any (·.ovf)
  let flags := on.foldl (fun a x => a ||| x.flags) 0
  let s := if ovf && !d.qovf then s.scaleNotice p d else s
  let s := s.tap p d.tick (vxHsel d.raw) (on.flatMap (·.bins))
  let s := if vxDest d.raw = 0 then s
    else s.modVec p (fun v => v.bufMerge ((vxDest d.raw - 1) * 16384 + d.outAt) (d.output v))
  s.modVecHead p (fun d => { d with
    group := d.group + 1, pos := 0, got := [], flags := d.flags ||| BitVec.ofNat 6 flags, qovf := d.qovf || ovf })

/-- An operand of the head is uncorrectable: it stops (R178). -/
def State.vecFail (s : State) (p : Nat) (d : EngDesc) : State :=
  let s := if vxDest d.raw = 0 then s else s.modVec p (fun v => v.setPoison (vxDest d.raw - 1) true)
  s.vecDone p stUncorrectable

/-- The group of the head that has no access left is done. -/
def State.groupOver (s : State) (p : Nat) : State :=
  match s.engHead p (s.core p).vec.queue 0 with
  | none => s
  | some d => if d.reads.length + (d.writes (s.core p).vec).length ≤ d.pos then s.groupDone p d else s

/-- The next access of the vector engine is performed; `err` is what the code of the line shows. -/
def State.vecAccess (s : State) (p : Nat) (err : EccErr) : State :=
  let v := (s.core p).vec
  match s.engFront p v.queue with
  | none => s
  | some d =>
    let s := if vxOp d.raw = 0 ∧ d.pos = 0 then s.bump (unitCore p) rVEC_BUSY_CYCLES 0 48 1 else s
    match d.reads.drop d.pos with
    | x :: _ =>
      let (s, bad) := s.engRead p x err
      if bad then s.vecFail p d
      else
        let bs := (s.spad p).read x.1 x.2
        if vxOp d.raw = 2 then
          (s.modVec p (fun v => { v with buf := SMap.setRange 0 v.buf ((vxDest d.raw - 1) * 16384 + 64 * d.pos) bs })).modVecHead
            p (fun d => d.moved [])
        else (s.modVecHead p (fun d => d.moved bs)).groupOver p
    | [] =>
      match (d.writes v).drop (d.pos - d.reads.length) with
      | [] => s
      | x :: _ => ((s.spadMerge p x.1 x.2 (doubleAt err)).modVecHead p (fun d => d.moved [])).groupOver p

/-- Groups of a CHAIN without a bank access pass; the others go on while their banks grant. -/
def State.vecRun (p : Nat) (err : StreamErr) : Nat → State → State
  | 0, s => s
  | n + 1, s =>
    match s.vecNext p with
    | some x =>
      if s.engWaits p (bankOf x.1) then s
      else State.vecRun p err n ((s.engTurn p (bankOf x.1)).vecAccess p (lineErr err (x.1 / 64 * 64)))
    | none =>
      match s.engHead p (s.core p).vec.queue 0 with
      | none => s
      | some d =>
        if d.group < vxGroups d.raw then
          State.vecRun p err n ((s.bump (unitCore p) rVEC_BUSY_CYCLES 0 48 1).groupDone p d)
        else s

/-- CHAIN at the head of the queue: it goes on as far as its banks grant, and is done after its last group (R163, R178). -/
def execChain (c : CoreIx) (err : StreamErr) (s : State) : Res :=
  let p := c.val
  match s.engHead p (s.core p).vec.queue 0 with
  | none => .next s
  | some d =>
    if (s.core p).vec.readsPoison d.raw then .next (s.vecDone p stUncorrectable)
    else
      let s := State.vecRun p err (40 * vxGroups d.raw) s
      match s.engHead p (s.core p).vec.queue 0 with
      | none => .next (s.stalls p rVEC_STALL_CYCLES (s.vecLimit p))
      | some d =>
        if d.group < vxGroups d.raw then .next s
        else .next ((s.stalls p rVEC_STALL_CYCLES (s.vecLimit p)).vecDone p stOk)

/-- The parameter registers take the block that an LDPARAM has read (R168). -/
def State.loadParams (s : State) (p : Nat) (d : EngDesc) : State :=
  s.modVec p (fun v => { v with params := SMap.setRange 0 v.params 0 (paramBytes d.got) })

/-- LDPARAM: every parameter register is loaded, or none (R168, R178). -/
def execLdparam (c : CoreIx) (err : StreamErr) (s : State) : Res :=
  let p := c.val
  match s.engHead p (s.core p).vec.queue 1 with
  | none => .next s
  | some _ =>
    let s := State.vecRun p err 1 s
    match s.engHead p (s.core p).vec.queue 1 with
    | none => .next s
    | some d => if d.pos = 0 then .next s else .next ((s.loadParams p d).vecDone p stOk)

/-- LDTILE: the bytes are copied into the buffer line by line (R168, R178). -/
def execLdtile (c : CoreIx) (err : StreamErr) (s : State) : Res :=
  let p := c.val
  match s.engHead p (s.core p).vec.queue 2 with
  | none => .next s
  | some d =>
    let s := State.vecRun p err (vxCount d.raw / 64) s
    match s.engHead p (s.core p).vec.queue 2 with
    | none => .next s
    | some d =>
      if d.pos < vxCount d.raw / 64 then .next s
      else .next ((s.modVec p (fun v => v.setPoison (vxDest d.raw - 1) false)).vecDone p stOk)

/-- The group that a CHAIN is in is finished, its accesses granted one after the other. -/
def State.forceGroup (p : Nat) : Nat → State → State
  | 0, s => s
  | n + 1, s =>
    match s.engHead p (s.core p).vec.queue 0 with
    | none => s
    | some d => if d.pos = 0 then s else State.forceGroup p n (s.vecAccess p ⟨0, 0⟩)

/-- A cancellation lets the vector engine finish what it has begun: the group of a CHAIN, and the load of an LDPARAM that has
read its block (R178). -/
def State.finishGroup (p : Nat) (s : State) : State :=
  match s.engHead p (s.core p).vec.queue 1 with
  | some d => if d.pos = 0 then s else s.loadParams p d
  | none => State.forceGroup p 64 s

end Sys2Proof.Machine
end

