-- ==== Sys2Proof/Machine/Mxu.lean ====
section
/-!
DEFINITION. The matrix unit (spec/06): MXI, and the operations of its descriptors.
-/
namespace Sys2Proof.Machine

/-! Descriptor fields (R144). -/

def mxOp (d : List Byte) : Nat := leAt d 0 1 % 16
def mxFmt (d : List Byte) : Nat := leAt d 1 1 % 8
def mxNctl (d : List Byte) : Nat := leAt d 1 1 / 16
def mxAcc0 (d : List Byte) : Nat := leAt d 2 1 % 8
def mxTM (d : List Byte) : Nat := leAt d 3 1 % 16
def mxTN (d : List Byte) : Nat := leAt d 3 1 / 16
def mxInit (d : List Byte) : Bool := bit (leAt d 4 1) 0
def mxKindInt (d : List Byte) : Bool := bit (leAt d 4 1) 1
def mxRaw (d : List Byte) : Bool := bit (leAt d 4 1) 2
def mxHsel (d : List Byte) : Nat := leAt d 5 1 % 32
def mxK (d : List Byte) : Nat := leAt d 8 4
def mxKg0 (d : List Byte) : Nat := leAt d 12 4

/-- Element width of C: the output format of STACC, else 32. -/
def mxCWidth (d : List Byte) : Nat := if mxOp d = 4 ∧ !mxRaw d then fmtWidth (mxFmt d) else 32

/-- Bytes of one row of A, B and C (R146). -/
def mxSegA (d : List Byte) : Nat := mxTM d * 4 * fmtWidth (mxFmt d)
def mxSegB (d : List Byte) : Nat := mxTN d * 4 * fmtWidth (mxFmt d)
def mxSegC (d : List Byte) : Nat := mxTN d * 4 * mxCWidth d

/-- The alignment of a row. -/
def mxAlign (seg : Nat) : Nat := if 64 ≤ seg then 64 else if 32 < seg then 64 else if 16 < seg then 32 else 16

def rowOk (addr stride seg : Nat) : Bool :=
  decide (addr % mxAlign seg = 0) && decide (stride % mxAlign seg = 0) && decide (seg ≤ stride)

/-- The field rules of R144, R146 and R358 that come before the extents. -/
def mxFieldsOk (s : State) (d : List Byte) : Bool :=
  let op := mxOp d
  let mma := op == 0
  let st := op == 4
  let useC := decide (2 ≤ op)
  let n := mxTM d * mxTN d
  decide (op ≤ 4) && leAt d 0 1 / 16 == 0 && s.formatOk (mxFmt d)
    && !bit (leAt d 1 1) 3 && (mma || st || mxFmt d == 0) && (!mxRaw d || mxFmt d == 0)
    && (if st then !mxRaw d || mxNctl d == 0
        else if (mma && isInt (mxFmt d)) || op == 3 then mxNctl d % 8 == 0
        else mxNctl d == 0)
    && leAt d 2 1 / 8 == 0 && decide (1 ≤ mxTM d) && decide (mxTM d ≤ 8) && decide (1 ≤ mxTN d) && decide (mxTN d ≤ 8)
    && decide (n ≤ 8) && decide (mxAcc0 d + n ≤ 8)
    && leAt d 4 1 / 8 == 0 && (mma || !mxInit d) && (op == 1 || op == 2 || !mxKindInt d) && (st || !mxRaw d)
    && leAt d 5 1 / 32 == 0 && (st || mxHsel d == 0) && zeroAt d 6 2
    && (if mma then decide (1 ≤ mxK d) && decide (mxK d ≤ 65536) && decide (mxKg0 d + mxK d ≤ 2 ^ 32)
          && rowOk (leAt d 16 4) (leAt d 20 4) (mxSegA d) && rowOk (leAt d 24 4) (leAt d 28 4) (mxSegB d)
        else zeroAt d 8 24)
    && (if useC then rowOk (leAt d 32 4) (leAt d 36 4) (mxSegC d) else zeroAt d 32 8)
    && zeroAt d 40 16 && zeroAt d 60 4

/-- The extents of the operands, in the order of their address fields. -/
def mxOperands (_ : State) (sl : Slot) (d : List Byte) : Option (Nat × Word) :=
  if mxOp d = 0 then
    firstFault [sl.spadOperand (leAt d 16 4) ((mxK d - 1) * leAt d 20 4 + mxSegA d),
                sl.spadOperand (leAt d 24 4) ((mxK d - 1) * leAt d 28 4 + mxSegB d)]
  else if 2 ≤ mxOp d then sl.spadOperand (leAt d 32 4) ((mxTM d * 32 - 1) * leAt d 36 4 + mxSegC d)
  else none

/-- MXI (R74). -/
def execMxi (a : At) (rd ra : Reg) (imm : BitVec 16) (s : State) : Res := engineIssue a 0x28 .mxi rd ra imm s

/-- The grant of its descriptor read. -/
def State.grantMxi (s : State) (p i : Nat) (m : MemOp) (err : EccErr) : State :=
  s.grantEngine p i m err mxFieldsOk mxOperands (fun s d off t =>
    let x := s.engDesc p i d off t
    s.modCore p (fun c => { c with mxu := { c.mxu with queue := c.mxu.queue ++ [x] } }))

/-! Tiles (R142, R145). -/

def Mxu.elem (m : Mxu) (t row col : Nat) : BitVec 32 := SMap.get 0 m.acc (t * 1024 + row * 32 + col)

/-- A tile takes its elements from `f row col`. -/
def Mxu.setTile (m : Mxu) (t : Nat) (f : Nat → Nat → Nat) : Mxu :=
  { m with acc := SMap.setRange 0 m.acc (t * 1024) ((List.range 1024).map (fun i => BitVec.ofNat 32 (f (i / 32) (i % 32)))) }

def Mxu.isInt (m : Mxu) (t : Nat) : Bool := SMap.get false m.kind t
def Mxu.setKind (m : Mxu) (t : Nat) (k : Bool) : Mxu := { m with kind := SMap.set false m.kind t k }
def Mxu.isPoisoned (m : Mxu) (t : Nat) : Bool := SMap.get false m.poison t
def Mxu.setPoison (m : Mxu) (t : Nat) (b : Bool) : Mxu := { m with poison := SMap.set false m.poison t b }
def State.modMxu (s : State) (p : Nat) (f : Mxu → Mxu) : State := s.modCore p (fun c => { c with mxu := f c.mxu })

/-- The tiles of a descriptor's block: tile, block row and block column. -/
def mxTiles (d : List Byte) : List (Nat × Nat × Nat) :=
  (List.range (mxTM d * mxTN d)).map (fun k => (mxAcc0 d + k, k / mxTN d, k % mxTN d))

/-- The flags a sum in FP32, or in INT32, may raise. -/
def sumFlags (int_ : Bool) : Nat := if int_ then flSAT else flNV + flOF + flUF + flNX

/-! Streams (R147, R156). -/

/-- The rows of operands A and B, in the order of K. -/
def mxRows (d : EngDesc) : List (Nat × Nat) :=
  (List.range (mxK d.raw)).flatMap (fun k =>
    [(d.spadBase + leAt d.raw 16 4 + k * leAt d.raw 20 4, mxSegA d.raw),
     (d.spadBase + leAt d.raw 24 4 + k * leAt d.raw 28 4, mxSegB d.raw)])

/-- The rows of C: offset and length. -/
def mxRowsC (d : EngDesc) : List (Nat × Nat) :=
  (List.range (32 * mxTM d.raw)).map (fun m => (d.spadBase + leAt d.raw 32 4 + m * leAt d.raw 36 4, mxSegC d.raw))

/-- The bank accesses of a descriptor, in order: reads of A and B rows, reads of C, and for STACC writes of C. -/
def mxAccesses (d : EngDesc) : List (Nat × Nat) :=
  if mxOp d.raw = 1 then []
  else ((if mxOp d.raw = 0 then mxRows d else mxRowsC d)).flatMap (fun r => linePieces r.1 r.2)

/-- R154: one element in the output format, with its flags. -/
def mxOutput (d : List Byte) (int_ : Bool) (x : Nat) : Nat × Nat :=
  if mxRaw d then (x, 0)
  else if int_ then
    (if isFloat (mxFmt d) then cvtIF (mxFmt d) (mxNctl d) (toSigned 32 x) else iNarrow (mxFmt d) (nWrap (mxNctl d)) (toSigned 32 x))
  else if mxFmt d = 0 then (x, 0)
  else cvt 0 (mxFmt d) (mxNctl d) x

/-- Row `mm` of the block that a STACC writes: each element with its flags, and whether its tile is INT32. -/
def mxOutRow (m : Mxu) (d : EngDesc) (mm : Nat) : List ((Nat × Nat) × Bool) :=
  (List.range (32 * mxTN d.raw)).map (fun nn =>
    let t := mxAcc0 d.raw + (mm / 32) * mxTN d.raw + nn / 32
    (mxOutput d.raw (m.isInt t) (m.elem t (mm % 32) (nn % 32)).toNat, m.isInt t))

/-- The bytes that STACC writes with its bank access `k`. -/
def mxOutBytes (m : Mxu) (d : EngDesc) (k : Nat) : List Byte :=
  let per := (linePieces (d.spadBase + leAt d.raw 32 4) (mxSegC d.raw)).length
  let row := pack (mxCWidth d.raw) ((mxOutRow m d (k / per)).map (fun x => x.1.1))
  let at_ := d.spadBase + leAt d.raw 32 4 + k / per * leAt d.raw 36 4
  match (linePieces at_ (mxSegC d.raw))[k % per]? with
  | some x => (row.drop (x.1 - at_)).take x.2
  | none => []

/-- A STACC whose block holds a poisoned tile (R158). -/
def Mxu.storesPoison (m : Mxu) (d : List Byte) : Bool := mxOp d == 4 && (mxTiles d).any (fun t => m.isPoisoned t.1)

/-- The next bank access of the matrix unit. -/
def State.mxuNext (s : State) (p : Nat) : Option (Nat × Nat) :=
  let m := (s.core p).mxu
  match s.engFront p m.queue with
  | none => none
  | some d => if m.storesPoison d.raw then none else ((mxAccesses d).drop d.pos).head?

/-- Rank-1 groups of an MMA with `k` rows of each operand (R156). -/
def mxGroupsOf (d : List Byte) (k : Nat) : Nat := if mxFmt d = 7 then ceilDiv k 2 else k
def mxGroups (d : List Byte) : Nat := mxGroupsOf d (mxK d)

/-- An MMA that stops adds the groups whose rows it has read. DESIGN CHOICE (log 119): how far it had come when it issued its
last group is not stated. -/
def State.mxuBusy (s : State) (p : Nat) (d : EngDesc) : State :=
  let per := (linePieces (d.spadBase + leAt d.raw 16 4) (mxSegA d.raw)).length
    + (linePieces (d.spadBase + leAt d.raw 24 4) (mxSegB d.raw)).length
  if mxOp d.raw = 0 then s.bump (unitCore p) rMXU_BUSY_CYCLES 0 48 (mxGroupsOf d.raw (d.pos / max 1 per)) else s

/-- An uncorrectable operand: every tile the descriptor targets is poisoned (R158). How far the unit had come is not
stated, so the flags gathered (R135) are free among those in `can`. -/
def State.mxuFail (s : State) (p : Nat) (d : EngDesc) (can : Nat) : State :=
  let (f, s) := (s.mxuBusy p d).freeNat
  (s.modMxu p (fun m => (mxTiles d.raw).foldl (fun m t => m.setPoison t.1 true) m)).mxuDone p stUncorrectable (f % 64 &&& can)

/-- The flags that a descriptor's elements may raise. -/
def mxMayRaise (d : List Byte) : Nat :=
  if mxOp d = 0 then sumFlags (isInt (mxFmt d)) else if mxOp d = 3 then sumFlags false + sumFlags true else 0

/-- The next access of the matrix unit is performed; `err` is what the code of the line shows. -/
def State.mxuAccess (s : State) (p : Nat) (err : EccErr) : State :=
  let m := (s.core p).mxu
  match s.engFront p m.queue with
  | none => s
  | some d =>
    match ((mxAccesses d).drop d.pos).head? with
    | none => s
    | some x =>
      if mxOp d.raw = 4 then
        ((s.touchPlain p true x.1 x.2).spadWrite p x.1 (mxOutBytes m d d.pos) (doubleAt err)).modMxuHead p (fun d => d.moved [])
      else
        let (s, bad) := s.engRead p x err
        if bad then s.mxuFail p d (mxMayRaise d.raw)
        else s.modMxuHead p (fun d => d.moved ((s.spad p).read x.1 x.2))

/-- The matrix unit goes on while its banks grant; the vector engine comes first (R89). -/
def State.mxuRun (p : Nat) (err : StreamErr) : Nat → State → State
  | 0, s => s
  | n + 1, s =>
    match s.mxuNext p with
    | none => s
    | some x =>
      let b := bankOf x.1
      if s.engWaits p b || (s.vecNext p).any (fun y => bankOf y.1 == b) then s
      else State.mxuRun p err n ((s.engTurn p b).mxuAccess p (lineErr err (x.1 / 64 * 64)))

/-- The head of operation `op`, once its accesses have gone as far as their banks grant: the state, and the descriptor when all
of them are done. -/
def State.mxuStream (s : State) (p op : Nat) (err : StreamErr) : State × Option EngDesc :=
  match s.engHead p (s.core p).mxu.queue op with
  | none => (s, none)
  | some d =>
    let n := (mxAccesses d).length
    let s := State.mxuRun p err (n - d.pos) s
    match s.engHead p (s.core p).mxu.queue op with
    | none => (s, none)
    | some d => if d.pos < n then (s, none) else (s, some d)

/-! MMA (R148, R153). -/

/-- Element `e` of each row of an operand, in ascending K, out of the bytes the unit has read: row k of A, then of B; `at_` is
where the operand's row begins in them. -/
def mxColumn (d : EngDesc) (at_ seg e : Nat) : List Nat :=
  (List.range (mxK d.raw)).map (fun k =>
    packedAt ((d.got.drop (k * (mxSegA d.raw + mxSegB d.raw) + at_)).take seg) (fmtWidth (mxFmt d.raw)) e)

/-- One target element: its new value and the flags. -/
def mxElement (d : EngDesc) (start : BitVec 32) (mm nn : Nat) : Nat × Nat :=
  let f := mxFmt d.raw
  let as := mxColumn d 0 (mxSegA d.raw) mm
  let bs := mxColumn d (mxSegA d.raw) (mxSegB d.raw) nn
  if isFloat f then
    mmaFp (mxK d.raw) (mxKg0 d.raw) start.toNat 0 ((as.zip bs).map (fun e => (fDecode f e.1, fDecode f e.2)))
  else
    let r := mmaInt (nWrap (mxNctl d.raw)) start.toInt ((as.zip bs).map (fun e => (iVal f e.1, iVal f e.2)))
    (iEnc 9 r.1, r.2)

/-- The new values of a tile by index, and the flags of all its elements. -/
def mxTile (m : Mxu) (d : EngDesc) (t : Nat × Nat × Nat) : List Nat × Nat :=
  let int_ := isInt (mxFmt d.raw)
  let fresh := !mxInit d.raw || m.isInt t.1 != int_
  (List.range 1024).foldl (fun (acc : List Nat × Nat) i =>
    let start := if fresh then 0 else m.elem t.1 (i / 32) (i % 32)
    let r := mxElement d start (32 * t.2.1 + i / 32) (32 * t.2.2 + i % 32)
    (acc.1 ++ [r.1], acc.2 ||| r.2)) ([], 0)

/-- The tiles take the results of an MMA that has read its rows. -/
def State.mmaResult (s : State) (p : Nat) (d : EngDesc) : State :=
  let m := (s.core p).mxu
  let out := (mxTiles d.raw).map (fun t => (t.1, mxTile m d t))
  let flags := out.foldl (fun a e => a ||| e.2.2) 0
  (s.modMxu p (fun m => out.foldl (fun (m : Mxu) e =>
    let m := (m.setTile e.1 (fun r k => e.2.1.getD (32 * r + k) 0)).setKind e.1 (isInt (mxFmt d.raw))
    if mxInit d.raw then m else m.setPoison e.1 false) m)).mxuDone p stOk flags

/-- MMA at the head of the queue. -/
def execMma (c : CoreIx) (err : StreamErr) (s : State) : Res :=
  let p := c.val
  match s.mxuStream p 0 err with
  | (s, none) => .next s
  | (s, some d) =>
    .next (((s.bump (unitCore p) rMXU_BUSY_CYCLES 0 48 (mxGroups d.raw)).stalls p rMXU_STALL_CYCLES (s.mxuLimit p)).mmaResult p d)

/-! The other operations (R154, R155). -/

/-- ZACC: every element is zero. -/
def execZacc (c : CoreIx) (s : State) : Res :=
  let p := c.val
  match s.engHead p (s.core p).mxu.queue 1 with
  | none => .next s
  | some d =>
    .next ((s.modMxu p (fun m => (mxTiles d.raw).foldl (fun (m : Mxu) t =>
      ((m.setTile t.1 (fun _ _ => 0)).setKind t.1 (mxKindInt d.raw)).setPoison t.1 false) m)).mxuDone p stOk 0)

/-- The 32-bit word of C at block row `mm` and column `nn`, out of the bytes the unit has read. -/
def mxWordC (d : EngDesc) (mm nn : Nat) : Nat := leNat ((d.got.drop (mm * mxSegC d.raw + 4 * nn)).take 4)

/-- LDACC: every element is loaded. -/
def execLdacc (c : CoreIx) (err : StreamErr) (s : State) : Res :=
  let p := c.val
  match s.mxuStream p 2 err with
  | (s, none) => .next s
  | (s, some d) =>
    .next ((s.modMxu p (fun m => (mxTiles d.raw).foldl (fun (m : Mxu) t =>
      ((m.setTile t.1 (fun r k => mxWordC d (32 * t.2.1 + r) (32 * t.2.2 + k))).setKind t.1 (mxKindInt d.raw)).setPoison
        t.1 false) m)).mxuDone p stOk 0)

/-- An element and a word added in the tile's kind. -/
def mxAdd (int_ wrap : Bool) (x : BitVec 32) (w : Nat) : Nat × Nat :=
  if int_ then iNarrow 9 wrap (x.toInt + toSigned 32 w)
  else fAddV 0 0 (fDecode 0 x.toNat) (fDecode 0 w)

/-- ADDACC: every element is added to. -/
def execAddacc (c : CoreIx) (err : StreamErr) (s : State) : Res :=
  let p := c.val
  match s.mxuStream p 3 err with
  | (s, none) => .next s
  | (s, some d) =>
    let m := (s.core p).mxu
    let sums := (mxTiles d.raw).map (fun t => (t.1, (List.range 1024).map (fun i =>
      mxAdd (m.isInt t.1) (nWrap (mxNctl d.raw)) (m.elem t.1 (i / 32) (i % 32))
        (mxWordC d (32 * t.2.1 + i / 32) (32 * t.2.2 + i % 32)))))
    let flags := sums.foldl (fun a e => e.2.foldl (fun a r => a ||| r.2) a) 0
    .next ((s.modMxu p (fun m => sums.foldl (fun (m : Mxu) e =>
      m.setTile e.1 (fun r k => (e.2.getD (32 * r + k) (0, 0)).1)) m)).mxuDone p stOk flags)

/-- The format an output element counts in (R136, R154). -/
def mxTapFmt (d : List Byte) (int_ : Bool) : Nat := if mxRaw d then (if int_ then 9 else 0) else mxFmt d

/-- STACC: the block is converted and stored, in ascending block row. -/
def execStacc (c : CoreIx) (err : StreamErr) (s : State) : Res :=
  let p := c.val
  match s.engHead p (s.core p).mxu.queue 4 with
  | none => .next s
  | some d =>
    if (s.core p).mxu.storesPoison d.raw then .next (s.mxuDone p stUncorrectable 0)
    else
      match s.mxuStream p 4 err with
      | (s, none) => .next s
      | (s, some d) =>
        let rows := (List.range (32 * mxTM d.raw)).map (mxOutRow (s.core p).mxu d)
        let flags := rows.foldl (fun a r => r.foldl (fun a e => a ||| e.1.2) a) 0
        let bins := rows.flatMap (fun r => r.map (fun e => histBin (mxTapFmt d.raw e.2) e.1.1))
        .next ((s.tap p d.tick (mxHsel d.raw) bins).mxuDone p stOk flags)

end Sys2Proof.Machine
end

