-- ==== Sys2Proof/Machine/Cancel.lean ====
section
/-!
DEFINITION. Cancellation of the work of a tick (R54, R158, R178).
-/
namespace Sys2Proof.Machine

/-- The accumulator tiles that a matrix descriptor targets, and the tile buffer that a vector descriptor writes (0: none).
-/
def EngDesc.tiles (d : EngDesc) : List Nat :=
  (List.range (leAt d.raw 3 1 % 16 * (leAt d.raw 3 1 / 16))).map (· + leAt d.raw 2 1 % 8)
def EngDesc.bufferOut (d : EngDesc) : Nat := if leAt d.raw 0 1 % 16 = 1 then 0 else field (leAt d.raw 1 1) 3 3

/-- A started descriptor of the matrix unit or the vector engine is cancelled: it is counted and recorded, and the engine writes
its status word (R43, R54, R160, R180). -/
def State.engineCancelled (s : State) (p cnt err : Nat) (d : EngDesc) : State :=
  ((s.engineDone p cnt err d stCancelled).touchPlain p true (d.off + 56) 4).spadWrite p (d.off + 56)
    (leBytes 4 (stCancelled + 256 * b2n d.qovf))

/-- The descriptor has started: one of its accesses is granted, or its work is done. -/
def EngDesc.started (d : EngDesc) : Bool := decide (0 < d.pos) || decide (0 < d.group) || d.finished.isSome

/-- Started matrix descriptors of a tick are cancelled: their tiles are poisoned (R158). DESIGN CHOICE (log 115): of a STACC too;
a descriptor that has not started is neither counted nor recorded. -/
def State.cancelMatrix (s : State) (p tick : Nat) : State :=
  ((s.core p).mxu.queue.filter (fun d => d.tick == tick && d.started)).foldl (fun s d =>
    ((if d.finished.isNone then s.mxuBusy p d else s).modCore p (fun c => { c with mxu := { c.mxu with
      poison := d.tiles.foldl (fun m t => SMap.set false m t true) c.mxu.poison } })).engineCancelled p rMXU_DESC_COUNT
        rMXU_LAST_ERROR d) s

/-- The started vector descriptor of a tick is cancelled: a CHAIN ends with the group it is in, an LDTILE with the line, and an
LDPARAM loads what it has read; a tile buffer it writes is poisoned (R178). `finish` does what remains of a group. -/
def State.cancelVector (s : State) (p tick : Nat) (finish : State → State) : State :=
  let mine := (s.core p).vec.queue.filter (fun d => d.tick == tick && d.started)
  let s := if mine.any (fun d => d.finished.isNone) then finish s else s
  ((s.core p).vec.queue.filter (fun d => d.tick == tick && d.started)).foldl (fun s d =>
    let s := if d.bufferOut = 0 then s
      else s.modCore p (fun c => { c with vec := { c.vec with poison := SMap.set false c.vec.poison (d.bufferOut - 1) true } })
    s.engineCancelled p rVEC_DESC_COUNT rVEC_LAST_ERROR d) s

/-- Started DMA descriptors of a tick stop: the engine writes their status words, the lines under way are finished, and their
credits come back once their writes are answered (R43, R54, R104). -/
def State.cancelDma (s : State) (p tick : Nat) : State :=
  ((s.core p).dma.queue.filter (fun d => d.tick == tick && d.started)).foldl (fun (s : State) d =>
    let s := (s.touchPlain p true (d.off + 56) 4).spadWrite p (d.off + 56) (leBytes 4 stCancelled)
    let s := if d.op = .mcast then s.forgetStream p d.id else s
    (s.modDma p (fun m => { m with stopping := m.stopping ++ [{ d with stopped := true }],
                                    queue := m.queue.filter (fun e => e.id != d.id) })).endStopping p d.id) s

/-- The descriptors of a tick leave the engines of a core (R54). -/
def State.cancelDescs (s : State) (p tick : Nat) : State :=
  let s := ((s.cancelMatrix p tick).cancelVector p tick (State.finishGroup p)).cancelDma p tick
  s.modCore p (fun c => { c with
    dma := { c.dma with
      queue := c.dma.queue.filter (fun d => d.tick != tick), waiting := c.dma.waiting.filter (fun d => d.tick != tick) }
    mxu := { c.mxu with queue := c.mxu.queue.filter (fun d => d.tick != tick) }
    vec := { c.vec with queue := c.vec.queue.filter (fun d => d.tick != tick) } })

/-- The tokens of a slot that are BUSY complete with CANCELLED (R54). -/
def Slot.cancelTokens (sl : Slot) : Slot :=
  { ((List.range 16).foldl (fun (sl : Slot) t => sl.complete t stCancelled) sl) with due := [] }

/-- A slot of the cancelled tick: its BUSY tokens complete with CANCELLED; it closes its windows, and is FREE once they are
closed. Its fault record stays. DESIGN CHOICE (log 116): a store that has issued and waits for its bank is dropped. -/
def State.cancelSlot (s : State) (p i : Nat) : State :=
  let s := s.modSlot p i (fun sl => { sl.cancelTokens with
    mode := .ending, wait := .none, mem := none, late := none, load := none, yielding := false, branchFrom := none })
  let s := s.modSpad p (fun sp => { sp with wins := SMap.mapAll Window.reset (fun _ w => { w with
    closers := w.closers.filter (fun e => e.1 != i) }) sp.wins })
  let s := s.closeOwned p i
  if ((s.core p).stillOpen (s.slot p i)).isEmpty then
    let g := (s.slot p i).seg
    (s.modSlot p i Slot.freed).uncover p g.spadBase (g.spadBase + g.spadBound)
  else s

/-- The work of a tick is cancelled at a core (R54). -/
def State.cancelTick (s : State) (p tick : Nat) : State :=
  let s := s.modCore p (fun c => { c with launches := c.launches.filter (fun l => l.tick != tick) })
  let s := s.cancelDescs p tick
  (List.range 8).foldl (fun s i =>
    let sl := s.slot p i
    if sl.mode != .free && sl.tick == tick then s.cancelSlot p i else s) s

end Sys2Proof.Machine
end

