-- ==== Sys2Proof/Machine/TelPages.lean ====
section
/-!
DEFINITION. Snapshots of telemetry: the boundary, and the words of the pages (R478, R481–R485).
-/
namespace Sys2Proof.Machine

/-- The key of the word at a byte offset of a page. -/
def telKey (page off : Nat) : Nat := page * 8192 + off / 8

/-- The words of a record at an offset (R482). -/
def TelRec.words (r : TelRec) (page off : Nat) : List (Nat × Nat) :=
  let low := fun (x : Int) => (x % 2 ^ 32).toNat
  [(telKey page off, low r.min + 2 ^ 32 * low r.max), (telKey page off + 1, r.count)]
    ++ (List.range 8).map (fun j => (telKey page off + 2 + j, SMap.get 0 r.bins (2 * j) + 2 ^ 32 * SMap.get 0 r.bins (2 * j + 1)))

/-- Where an accumulator word stands in the pages (R483, R484): a router register of a core in its record, a word of a die
or of the panel at its offset. -/
def State.telPlace (s : State) (key : Nat) : Option Nat :=
  let u := key / 2 ^ 32
  let off := key % 2 ^ 32
  if u < 0x4000 then
    let o := off - rMESH_VC_COUNT
    let x := if o % 0x200 < 0x90 then o % 0x200 else o % 0x200 - 0x100 + 0x90
    (s.gid u).map (fun g => telKey (g / 48) (0x500 * (g % 48) + 0x100 * (o / 0x200) + x))
  else if u < 0x5000 then (s.active.dieAt (u - 0x4000)).map (fun d => telKey d (off - 0x1000000))
  else some (telKey 192 (off - 0x1000000))

/-- The records of a mapped die: mesh reads, the eight DRAM ports, barriers. -/
def dieRecs (site d : Nat) : List (Nat × Nat × Nat) :=
  (telMesh site, d, 0xF000) :: ((List.range 8).map (fun q => (telPort site q, d, 0xF050 + 0x50 * q)) ++ [(telBar site, d, 0xF2D0)])

/-- Every record with its place. -/
def State.recPlaces (s : State) : List (Nat × Nat × Nat) :=
  (List.range 192).flatMap (fun d => match s.active.site d with
    | some v => dieRecs v d
    | none => [])
    ++ [(telCommit, 192, 0)] ++ (List.range 256).map (fun g => (telSlack g, 193, 0x50 * g))

/-- The live values that a die adds to its page at the boundary: its contact estimate, baseline and trend. -/
def State.contactWords (s : State) (site d : Nat) (acc : Nat) : List (Nat × Nat) :=
  let c := s.reg (unitDie site) rPWR_CONTACT
  let t := fun k => SMap.get 0 s.boot.trend (8 * site + k)
  [(telKey d 0xF378, field c 16 16 + 2 ^ 16 * field acc 16 16 + 2 ^ 32 * field c 0 16),
   (telKey d 0xF380, t 0 + 2 ^ 16 * t 1 + 2 ^ 32 * t 2 + 2 ^ 48 * t 3),
   (telKey d 0xF388, t 4 + 2 ^ 16 * t 5 + 2 ^ 32 * t 6 + 2 ^ 48 * t 7),
   (telKey d 0xF390, SMap.get 0 s.boot.trendNext site)]

/-- The flits that wait at routers now: CUR of `MESH_VC_DEPTH`, by register key. -/
def State.depthsNow (s : State) : List (Nat × Nat) :=
  let ps := s.mesh.packets.foldl (fun l e => match e.2.map (fun (x : Packet) => x.place) with
    | some (.router site r) => insertAsc (50 * site + r) l
    | _ => l) []
  ps.flatMap (fun p => (List.range 40).map (fun k =>
    let off := rMESH_VC_DEPTH + 0x200 * (k / 8) + 8 * (k % 8)
    (regKey (unitCore p) off, (s.viewCore p off).getD 0 % 256)))

/-- The words of the pages that the accumulators give. -/
def State.telWords (s : State) : SMap Nat :=
  let put := fun (m : SMap Nat) (l : List (Nat × Nat)) => l.foldl (fun m e => SMap.set 0 m e.1 e.2) m
  let add := fun (m : SMap Nat) (key v : Nat) => match s.telPlace key with
    | some k => SMap.set 0 m k (SMap.get 0 m k + v)
    | none => m
  let m := s.tel.acc.words.foldl (fun m e => add m e.1 e.2) ([] : SMap Nat)
  let m := s.depthsNow.foldl (fun m e => add m e.1 e.2) m
  let m := s.recPlaces.foldl (fun m e => put m ((SMap.get TelRec.empty s.tel.acc.recs e.1).words e.2.1 e.2.2)) m
  (List.range 192).foldl (fun m d => match s.active.site d with
    | some v => put m (s.contactWords v d (s.telWord (telDie v 0xF378)))
    | none => m) m

/-- The accumulators at the beginning of an interval: zero, but for the flits that wait then, which a depth's MAX counts. -/
def State.freshAcc (s : State) : TelData :=
  { TelData.empty with words := s.depthsNow.foldl (fun m e => SMap.set 0 m e.1 (2 ^ 8 * e.2)) [] }

/-- R478: a snapshot boundary; `stopped` for a write of SNAP. One that falls before the last has flipped is skipped. -/
def State.telBoundary (s : State) (stopped : Bool) : State :=
  let t := s.tel
  if t.latched.isSome then
    ({ s with tel := { t with nowFlags := t.nowFlags ||| 8 } }).bump unitMgmt rTEL_COUNT 0 32 1
  else
    let l : Latch := { data := t.acc, words := s.telWords, since := s.now, tick := s.gen.commitSeq.toNat, first := t.nowFirst.getD 0,
                       flags := t.nowFlags ||| (if stopped then 4 else 0) }
    { s with tel := { t with latched := some l, acc := s.freshAcc, nowFlags := 0, nowFirst := none } }

/-! A die that has not written in time goes on with its interval (R478). -/

/-- Two parts of an interval of a word: the least and largest of the fields of regions, input and contact, the sums of router
counts and the largest of their depths. A field of 0 has had no sample. -/
def telJoin (key a b : Nat) : Nat :=
  let off := key % 2 ^ 32
  let least := fun lo w => (if field a lo w = 0 then field b lo w else if field b lo w = 0 then field a lo w
    else min (field a lo w) (field b lo w)) * 2 ^ lo
  let most := fun lo w => max (field a lo w) (field b lo w) * 2 ^ lo
  if 0x4000 * 2 ^ 32 ≤ key then
    if off < 0x100F370 then least 0 12 + most 12 12 + least 32 8 + most 40 8 + most 48 8
    else least 0 16 + most 16 16 + most 32 16
  else if (off - rMESH_VC_COUNT) % 0x200 / 0x40 = 1 then most 8 8
  else satAdd 32 (field a 0 32) (field b 0 32) + 2 ^ 32 * satAdd 32 (field a 32 32) (field b 32 32)

/-- Two parts of an interval of a record. -/
def TelRec.join (a b : TelRec) : TelRec :=
  if a.count = 0 then b
  else if b.count = 0 then a
  else
    { min := Min.min a.min b.min, max := Max.max a.max b.max, count := satAdd 64 a.count b.count
      bins := b.bins.foldl (fun m e => SMap.set 0 m e.1 (satAdd 32 (SMap.get 0 m e.1) e.2)) a.bins }

/-- The site whose die holds an accumulator word, or a record. -/
def telSite (key : Nat) : Option Nat :=
  let u := key / 2 ^ 32
  if u < 0x4000 then some (u / 50) else if u < 0x5000 then some (u - 0x4000) else none
def recSite (key : Nat) : Option Nat := if key < telCommit then some (key / 100) else none

/-- The latched accumulators of some sites go on. -/
def State.telResume (s : State) (data : TelData) (sites : List Nat) : State :=
  let mine := fun (v : Option Nat) => v.any (fun v => sites.contains v)
  let s := (data.words.filter (fun e => mine (telSite e.1))).foldl (fun (s : State) e =>
    s.telSet e.1 (telJoin e.1 e.2 (s.telWord e.1))) s
  (data.recs.filter (fun e => mine (recSite e.1))).foldl (fun (s : State) e =>
    let recs := SMap.set TelRec.empty s.tel.acc.recs e.1 (e.2.join (SMap.get TelRec.empty s.tel.acc.recs e.1))
    { s with tel := { s.tel with acc := { s.tel.acc with recs := recs } } }) s

/-! Slack (R485). -/

/-- The launches of an edge of a program: global core and patch (R272). -/
def ConfigSet.launchesOf (c : ConfigSet) (prog p : Nat) : List (Nat × Nat) :=
  (List.range (c.count 4)).filterMap (fun i =>
    let v := leAt (c.entry 4 i 8) 0 8
    if field v 14 4 = prog ∧ field v 18 4 = p then some (field v 0 14, field v 36 8) else none)

/-- The dies that ran tasks of each patch in a tick's program: the reports that follow its commit. -/
def State.slackDue (s : State) (prog phases : Nat) : SMap (List Nat × Nat) :=
  ((List.range phases).flatMap (fun p => s.active.launchesOf prog p)).foldl (fun m l =>
    let x := SMap.get ([], 0) m l.2
    SMap.set ([], 0) m l.2 (insertAsc (l.1 / 48) x.1, x.2)) []

/-- A slack sample, in fabric cycles: its bin, and its value in 10 ns. -/
def slackBin (cyc : Int) : Nat :=
  if cyc ≤ 0 then 0
  else
    let us := cyc.toNat / Config.cycUs
    if us < 2 then 1 else min 15 (Nat.log2 us + 1)

end Sys2Proof.Machine
end

