-- ==== Sys2Proof/Machine/CtxOps.lean ====
section
/-!
DEFINITION. Transfer contexts: their registers, the DRAM accesses of their lines, and the posts that join them (R323, R324).
-/
namespace Sys2Proof.Machine

/-- A transfer context (R323). -/
def State.ctx (s : State) (c : Nat) : XCtx := SMap.get XCtx.reset s.vorrad.ctxs c
def State.modCtx (s : State) (c : Nat) (f : XCtx → XCtx) : State :=
  { s with vorrad := { s.vorrad with ctxs := SMap.set XCtx.reset s.vorrad.ctxs c (f (s.ctx c)) } }
/-- A register of a context. -/
def State.ctxReg (s : State) (c off : Nat) : Nat := s.reg (unitEdge (c / 512)) (off + 0x20 * (c % 512))
def State.ctxMode (s : State) (c : Nat) : Nat := field (s.ctxReg c rVLNK_XCTX_CFG) 0 2
def State.ctxPanel (s : State) (c : Nat) : Nat := field (s.ctxReg c rVLNK_XCTX_CFG) 4 12
def State.ctxPeer (s : State) (c : Nat) : Nat := field (s.ctxReg c rVLNK_XCTX_CFG) 16 12
def State.ctxDie (s : State) (c : Nat) : Nat := field (s.ctxReg c rVLNK_XCTX_CFG) 28 8
def State.ctxBase (s : State) (c : Nat) : Nat := field (s.ctxReg c rVLNK_XCTX_BASE) 0 34
def State.ctxSize (s : State) (c : Nat) : Nat := field (s.ctxReg c rVLNK_XCTX_BYTES) 0 35

/-! DRAM accesses of contexts (R323). -/

/-- Site and port of a DRAM address. -/
def State.dramPlace (s : State) (a : Nat) : Nat × Nat :=
  match s.active.target a with
  | some (.dram d o) => ((s.active.site d).getD 255, dramPort o)
  | _ => (255, 0)

/-- Entries that link die `e` uses at the DRAM port of an address. -/
def State.edgeEntries (s : State) (e a : Nat) : Nat :=
  let w := s.dramPlace a
  ((s.vorrad.ctxs.filter (fun x => x.1 / 512 == e)).map (fun x =>
    (x.2.dram.filter (fun l => s.dramPlace l.addr == w)).length)).sum

/-- The next line a send context reads: one to be sent again, else the first unread line of the oldest post. -/
def XCtx.nextRead (x : XCtx) : Option (XLine × XCtx) :=
  match x.resend with
  | n :: ns => ((x.unacked.find? (fun l => l.lseq == some n)).map (fun l => (l, { x with resend := ns })))
  | [] =>
    match x.posts.find? (fun p => decide (p.sent * 64 < p.length)) with
    | none => none
    | some p =>
      if 64 ≤ x.unacked.length + (x.dram.filter (fun l => l.lseq.isNone)).length then none
      else
        let l : XLine := { lseq := none, line := (p.dstOff + p.sent * 64) / 64, addr := p.src + p.sent * 64,
                           post := p.number, data := [], pkt := none }
        some (l, { x with posts := x.posts.map (fun (q : XPost) =>
          if q.number = p.number then { q with sent := q.sent + 1 } else q) })

/-- A DRAM access of a context leaves its link die for the port on VC 5 (R201, R210, R323). -/
def State.ctxIssue (s : State) (c : Nat) (l : XLine) : State :=
  match s.service l.addr with
  | none => s.modCtx c (fun x => { x with dram := x.dram ++ [l] })
  | some (t, r) =>
    let id := s.mesh.nextPacket
    let s := s.modCtx c (fun x => { x with dram := x.dram ++ [{ l with pkt := some id }] })
    s.newPacket { cargo := .context id false, from_ := .edge (c / 512), dest := t, destRouter := r, vc := 5, mid := none, esc := false,
                  poolQ := false, exit := none, seamHops := 0, flits := 1, since := s.now, place := .inject, inPort := 4,
                  patch := 0, held := none, targets := [] }

/-- The answer to a context's DRAM access is back. -/
def State.ctxBack (s : State) (l : XLine) : Bool :=
  match l.pkt with
  | none => true
  | some id => s.mesh.back.contains id

/-- A send context issues the reads it may. -/
def State.ctxPump (s : State) (c : Nat) : Nat → State
  | 0 => s
  | fuel + 1 =>
    let x := s.ctx c
    if s.ctxMode c ≠ 1 ∨ (x.st ≠ 1 ∧ x.st ≠ 3) then s
    else
      match x.nextRead with
      | none => s
      | some (l, y) =>
        if 4 ≤ s.edgeEntries (c / 512) l.addr then s
        else ((s.modCtx c (fun _ => y)).ctxIssue c l).ctxPump c fuel

/-- A post joins its context. -/
def State.addPost (s : State) (c : Nat) (len src off done : Nat) (stamp : Option (Nat × Nat)) (command : Bool) : State :=
  let s := s.modCtx c (fun x => { x with
    posts := x.posts ++ [{ number := x.nextNumber, length := len, src := src, dstOff := off, doneAddr := done, stamp := stamp,
                           command := command, sent := 0, acked := 0 }]
    nextNumber := x.nextNumber + 1 })
  s.ctxPump c 64

end Sys2Proof.Machine
end

