-- ==== Sys2Proof/Machine/TickOps.lean ====
section
/-!
DEFINITION. The tick generator's decisions (R238–R251): schedule positions, readiness, the abandon, and the conditions
of a commit.
-/
namespace Sys2Proof.Machine

def State.modGen (s : State) (f : TickGen → TickGen) : State := { s with gen := f s.gen }
def State.modRun (s : State) (tick : Nat) (f : TickRun → TickRun) : State :=
  s.modGen (fun g => { g with ticks := g.ticks.map (fun t => if t.tick = tick then f t else t) })

/-! Systems of panels (R315, R318). -/

/-- The inbox port of the panel's own records. -/
def ownPort : Nat := 8

/-- The panel's own ABORT record goes to the system combiner (R319, R320). -/
def State.ownAbort (s : State) (tick att cause : Nat) (raise : Option Nat) : State :=
  if s.multiPanel then
    let r : SysRecord := { type := 3, att := att % 256, cause := cause, tag := raise.getD 0, raise := raise.isSome,
                           nora := false, tick := tick, remain := 0, ks := [] }
    { s with vorrad := { s.vorrad with inbox := s.vorrad.inbox ++ [(ownPort, s.now, r)] } }
  else s

/-! Schedule positions (R238). -/

def State.schedLen (s : State) : Nat := s.rwt unitMgmt rTICK_SCHED_LEN 0 7
def State.sched (s : State) (entry lo w : Nat) : Nat := s.rwt unitMgmt (rTICK_SCHED + 8 * entry) lo w

/-- The position after a commit. -/
def State.nextPos (s : State) (pos : Nat × Nat) : Nat × Nat :=
  if pos.2 < s.sched pos.1 34 16 then (pos.1, pos.2 + 1)
  else if pos.1 + 1 < s.schedLen then (pos.1 + 1, 0)
  else (0, 0)

/-- The position a tick uses: the current one for the next tick to commit, the one behind it for its successor. -/
def State.posOf (s : State) (tick : Nat) : Nat × Nat :=
  let pos := (s.gen.entry, s.gen.rep)
  if tick ≤ s.gen.commitSeq.toNat + 1 then pos else s.nextPos pos

/-- The phase program of a tick. -/
def State.progOf (s : State) (tick : Nat) : Nat := s.schedProg (s.posOf tick).1

/-- The tick that starts next. -/
def State.nextTick (s : State) : Nat :=
  match s.gen.ticks.getLast? with
  | some t => t.tick + 1
  | none => s.gen.commitSeq.toNat + 1

/-- `continuing` of R249. -/
def State.continuing (s : State) (y : Nat) : Bool :=
  s.gen.run && (s.gen.stepLeft == 0 || decide (y ≤ s.gen.commitSeq.toNat + s.gen.stepLeft))

/-- Run-ahead is permitted for the successor of an ended tick (R259, R278). -/
def State.raPermitted (s : State) : Bool := s.feature 0 && s.gen.raEn && !s.cfg.pending

/-- The next tick becomes ready at a cycle, not before the end of a replay gap (R239, R245). -/
def State.setReady (s : State) (t : Nat) : State :=
  s.modGen (fun g => { g with
    ready := some (max t g.notBefore), aligned := none, waitAlign := s.rwt unitMgmt rTICK_SRC 0 2 != 0 })

def State.clearReady (s : State) : State :=
  s.modGen (fun g => { g with ready := none, aligned := none, waitAlign := false })

/-- The oldest uncommitted started tick. -/
def State.oldest (s : State) : Option TickRun := s.gen.ticks.head?

/-- TICK_STATUS.STATE once nothing more is to run (R251). -/
def State.settleState (s : State) : State :=
  if s.gen.gstate = .stopping ∧ s.gen.ticks.isEmpty ∧ s.gen.ready.isNone then
    s.modGen (fun g => { g with gstate := .stopped })
  else s

/-! Done marks and reset copies (R254, R255). -/

/-- The marks of a tick's attempts, and the copies they started, are discarded from `tick` on. -/
def State.dropMarks (s : State) (tick : Nat) : State :=
  { s with worlds := { s.worlds with
      marks := s.worlds.marks.filter (fun e => decide (e.2.1 < tick)), copies := s.worlds.copies.filter (fun c => decide (c.tick < tick)) } }

/-! Abandon (R245). -/

/-- The phase and commit messages of ticks from `tick` on that have not been sent are not sent. -/
def Class0.keeps (tick : Nat) : Class0 → Bool
  | .phase _ t _ => decide (t < tick)
  | .commit n => decide (n < tick)
  | _ => true

/-- The record and the counts of an abandon. -/
def State.recordAbandon (s : State) (t : TickRun) (c : Cause) (discard : Bool) : State :=
  let s := s.setReg unitMgmt rTICK_LAST_ABANDON
    (t.tick % 2 ^ 48 + 2 ^ 48 * c.code + 2 ^ 52 * (t.att % 4) + 2 ^ 63)
  let s := s.bump unitMgmt rTICK_ABANDON_COUNT 0 32 1
  let s := if discard then s.bump unitMgmt rTICK_ABANDON_COUNT 32 32 1 else s
  let s := s.telBump (telPanel 0x58) 0 64 (1 + b2n discard)
  { s with tel := { s.tel with nowFlags := s.tel.nowFlags ||| 2 } }

/-- Real recovery begins with these causes unless the fault is injected (R447). -/
def Cause.recovers : Cause → Bool
  | .coreLost => true
  | .dieLost => true
  | .bucket => true
  | _ => false

/-- An injection of a kind whose path abandons a tick is in flight (R450). -/
def State.injecting (s : State) (k : Nat) : Bool :=
  match s.maint.injection with
  | some i => i.kind == k
  | none => false

/-- The generator abandons a started tick (R244, R245, R249): a cause that comes after the cycle its commit conditions
held in finds it committed (R250). `raise` is the tag whose scale the replay raises (R287), `inj` that the cause is
injected. -/
def State.abandon (s : State) (tick : Nat) (c : Cause) (raise : Option Nat) (inj : Bool) : State :=
  match s.tickRun tick with
  | none => s
  | some t =>
    if t.commitAt.isSome && t.commitAt != some s.now then s
    else
      let discard := s.gen.ticks.any (fun x => x.tick == tick + 1)
      let n := SMap.get 0 s.gen.runs tick + 1
      let s := s.modGen (fun g => { g with
        ticks := g.ticks.filter (fun x => decide (x.tick < tick))
        ending := g.ending ++ g.ticks.filter (fun x => decide (tick ≤ x.tick))
        attempts := SMap.set 0 (if discard then SMap.set 0 g.attempts (tick + 1) (SMap.get 0 g.attempts (tick + 1) + 1)
          else g.attempts) tick (t.att + 1)
        runs := SMap.set 0 g.runs tick n
        class0 := match g.class0 with
          | some (.commit k, x) => if k = tick then none else some (.commit k, x)
          | x => x
        class0Q := g.class0Q.filter (Class0.keeps tick) })
      let s := (s.clearReady.recordAbandon t c discard).dropMarks tick
      let s := { s with events := { s.events with held := if discard || t.runahead then [] else s.events.held } }
      let s := if c.recovers && !inj then { s with maint := { s.maint with recovery := true } } else s
      let s := s.raise .tickLost 0x31 .none (some tick) (c.code + 2 ^ 8 * (t.att % 256)) inj
      let s := if s.multiPanel then (if c = .system then s else s.ownAbort tick t.att c.code raise)
        else match raise with
          | some g => { s with coll := { s.coll with raises := SMap.set 0 s.coll.raises g (SMap.get 0 s.coll.raises g + 1) } }
          | none => s
      let s := if n = 3 then
          ((s.modGen (fun g => { g with gstate := .halted, run := false })).raise .jobAffecting 0x32 .none (some tick) tick).tickWaiters
        else s
      s.sendClass0 (.abandon tick t.att)

/-- A cause that concerns the oldest uncommitted tick. -/
def State.abandonOldest (s : State) (c : Cause) (inj : Bool) : State :=
  match s.oldest with
  | none => s
  | some t => s.abandon t.tick c none inj

/-! Commit (R247). -/

/-- A deadline of the tick, `extra` after t_eff + P + A, has passed: "by" includes its cycle (R243, R250). -/
def TickRun.late (t : TickRun) (extra now : Nat) : Bool :=
  match t.tEff with
  | some e => decide (e + t.period + t.allow + extra < now)
  | none => false

/-- GRACE_US of R243. -/
def State.grace (s : State) : Nat := Config.cycUs * s.fld unitMgmt rTICK_TIMING 0 10

/-- Conditions 1 to 4 of R247. -/
def State.tickMet (s : State) (t : TickRun) : Bool :=
  t.tick == s.gen.commitSeq.toNat + 1 && t.ended
    && s.worlds.copies.all (fun c => c.tick != t.tick || c.reported)
    && t.bucketsOpen.isEmpty

/-- Conditions 1 to 5 of R247. -/
def State.mayOffer (s : State) (t : TickRun) : Bool := s.tickMet t && (!s.maint.basteAttached || t.digest)

/-- The panel's own END or OFFER record of a tick (R319). -/
def State.ownRecord (s : State) (type tick att : Nat) (nora : Bool) : State :=
  if s.multiPanel then
    let r : SysRecord := { type := type, att := att % 256, cause := 0, tag := 0, raise := false, nora := nora, tick := tick,
                           remain := 0, ks := [] }
    { s with vorrad := { s.vorrad with inbox := s.vorrad.inbox ++ [(ownPort, s.now, r)] } }
  else s

/-- The offset of the digest region: the last 4 KiB of the DRAM of logical die 0 (R453). -/
def digestBase : Nat := 2 ^ 34 - 4096

/-- R456: the reference, with SEND, posts the digest of a tick to the candidate: it goes into a line of the region, and from
there on context 4,095 (log 93). -/
def State.postDigest (s : State) (tick : Nat) : State :=
  let x := s.ctx 4095
  let off := 64 * (tick % 64)
  match s.active.site 0 with
  | none => s
  | some site =>
    if !bit (s.reg unitMgmt rMNT_BASTE_CFG) 0 || s.ctxMode 4095 != 1 || !(x.st == 1 || x.st == 3) then s
    else
      let line := leBytes 8 (SMap.get 0 s.maint.digest (tickp tick)) ++ zeros 56
      (s.dramWrite site (digestBase + off) line .none).1.addPost 4095 64 (digestBase + off) off 0 none true

/-- The panel offers the tick to its system once conditions 1 to 5 hold (R319); a reference posts its digest once conditions 1 to 4
do (R456). -/
def State.tryOffer (s : State) : State :=
  match s.oldest with
  | none => s
  | some t =>
    let s := if s.tickMet t && t.metAt.isNone then
        (s.modRun t.tick (fun t => { t with metAt := some s.now })).postDigest t.tick
      else s
    if s.mayOffer t && !t.offered && s.multiPanel then
      (s.modRun t.tick (fun t => { t with offered := true })).ownRecord 2 t.tick t.att false
    else s

/-- The oldest tick commits in the first cycle all conditions hold in: COMMIT is sent; after its deadline it is abandoned
instead (R243). -/
def State.tryCommit (s : State) : State :=
  let s := s.tryOffer
  match s.oldest with
  | none => s
  | some t =>
    if t.commitAt.isNone && t.late s.grace s.now then s.abandon t.tick .commitTimeout none false
    else if s.mayOffer t && t.commitAt.isNone && (!s.multiPanel || t.token) then
      (s.modRun t.tick (fun t => { t with commitAt := some s.now })).sendClass0 (.commit t.tick)
    else s

/-- The panel halts ticking (R245, R441, R442). -/
def State.haltTicking (s : State) : State :=
  ((s.modGen (fun g => { g with gstate := .halted, run := false })).clearReady).tickWaiters

end Sys2Proof.Machine
end

