-- ==== Sys2Proof/Machine/Tick.lean ====
section
/-!
DEFINITION. The commands of the tick generator and of the world table, and the class-0 messages that move a tick (R228,
R238–R263, R267).
-/
namespace Sys2Proof.Machine

/-! Start (R239, R249). -/

/-- The MARK of an attempt of a tick, if it has arrived: its start cycle (R321). -/
def State.markFor (s : State) (tick att : Nat) : Option Nat :=
  match s.vorrad.mark with
  | some (t, a, start) => if t = tick ∧ a = att % 256 then some start else none
  | none => none

/-- The start time of a ready tick, and whether a marker found it late (R239, R321). -/
def State.startTime (s : State) (r tick att : Nat) : Option (Nat × Bool) :=
  let src := s.rwt unitMgmt rTICK_SRC 0 2
  if src = 0 then some (r, false)
  else if src = 1 then s.gen.aligned.map (fun t => (t, false))
  else (s.markFor tick att).map (fun t => (max r t, decide (t < r)))

/-- The buckets that take part in a tick of a program. -/
def State.openBuckets (s : State) (prog : Nat) : List Nat := s.active.tagsOf prog

/-- The states of the worlds as a tick latches them at its first start (R258). -/
def State.latchWorlds (s : State) (tick : Nat) : SMap Nat :=
  match s.gen.latch.find? (fun e => e.1 == tick) with
  | some e => e.2
  | none => (s.worlds.table.filter (fun e => e.2.state != 0)).map (fun e => (e.1, e.2.state))

/-- The tick starts at `t0`. -/
def State.startTick (s : State) (tick t0 : Nat) : State :=
  let pos := s.posOf tick
  let ra := !s.gen.ticks.isEmpty
  let p := s.sched pos.1 0 24
  let prog := s.schedProg pos.1
  let lat := s.latchWorlds tick
  let run : TickRun :=
    { tick := tick, att := SMap.get 0 s.gen.attempts tick, t0 := t0, tEff := if ra then none else some t0, d := none,
      ended := false, edgesSent := 0, edges := 0, runahead := ra, entry := pos.1, rep := pos.2, token := false,
      digest := false, bucketsOpen := s.openBuckets prog, latched := lat, commitAt := none, endAt := 0, metAt := none,
      period := Config.cyc10ns * p, allow := Config.cyc10ns * (p * s.sched pos.1 24 6 / 100), prog := prog,
      offered := false }
  let s := s.modGen (fun g => { g with
    ticks := g.ticks ++ [run]
    latch := g.latch.filter (fun e => e.1 != tick) ++ [(tick, lat)]
    tickOut := if bit (s.active.reg unitMgmt rTICK_SRC) 2 then g.tickOut + 1 else g.tickOut })
  let s := if ra then s.bump unitMgmt rTICK_RA_STAT 0 32 1 else s
  let table := SMap.mapAll World.reset (fun _ w =>
    if w.resetReq ∧ w.reqTick = none then { w with reqTick := some tick } else w) s.worlds.table
  { s with
    worlds := { s.worlds with table := table }
    tel := { s.tel with
      nowFlags := if ra then s.tel.nowFlags ||| 1 else s.tel.nowFlags
      nowFirst := some (s.tel.nowFirst.getD tick) } }

/-- START_TICK: the ready tick starts at its aligned start time; the budgets of R391 are set from the plate's measured
fixed power `fixed` (W) and efficiency `eta` (2^-16). -/
def execStartTick (fixed eta : BitVec 16) (s : State) : Res :=
  match s.gen.ready with
  | none => .next s
  | some r =>
    if s.cfg.pending || !s.ticking || 2 ≤ s.gen.ticks.length then .next s
    else
      let tick := s.nextTick
      match s.startTime r tick (SMap.get 0 s.gen.attempts tick) with
      | none => .next s
      | some (t, late) =>
        let s := s.advanceTo t
        let s := if late then s.bump unitMgmt rVLNK_SYS_STATUS 32 32 1 else s
        .next ((s.clearReady.startTick tick s.now).setBudgets fixed.toNat eta.toNat)

/-- TICK_IN_EDGE: an edge of the tick-in pin aligns the ready tick in external mode, and is else ignored (R239). -/
def execTickInEdge (s : State) : Res :=
  match s.gen.ready with
  | none => .next s
  | some r =>
    when (s.rwt unitMgmt rTICK_SRC 0 2 == 1 && decide (r ≤ s.now) && s.gen.aligned.isNone) s
      (s.modGen (fun g => { g with aligned := some s.now, waitAlign := false }))

/-! Phases (R240, R241). -/

/-- The condition of an edge holds: the reset copies that open the tick are reported, and a run-ahead tick's edge
without RA waits for the commit before it (R240). -/
def State.edgeMayGo (s : State) (t : TickRun) : Bool :=
  (t.edgesSent != 0 || s.worlds.copies.all (fun c => c.tick + 1 != t.tick || c.reported))
    && (t.tEff.isSome || bit (s.phaseReg t.prog t.edgesSent) 25)

/-- PHASE_SEND: the generator sends the next edge of a started tick, L0 before it is due or when its condition holds
(R240). -/
def execPhaseSend (tick : Nat) (s : State) : Res :=
  match s.tickRun tick with
  | none => .next s
  | some t =>
    if s.phaseCount t.prog ≤ t.edgesSent || !s.edgeMayGo t then .next s
    else
      let due := t.t0 + Config.cyc10ns * field (s.phaseReg t.prog t.edgesSent) 0 24
      let s := s.advanceTo (due - Config.cycHal * s.active.halL0)
      .next ((s.modRun tick (fun t => { t with edgesSent := t.edgesSent + 1 })).sendClass0
        (.phase t.edgesSent tick t.att))

/-- The launch list of an edge: (core, descriptor offset, patch) in image order (R241, R272). -/
def ConfigSet.launchList (c : ConfigSet) (prog p : Nat) : List (Nat × Nat × Nat) :=
  (List.range (c.count 4)).filterMap (fun i =>
    let v := leAt (c.entry 4 i 8) 0 8
    if field v 14 4 = prog ∧ field v 18 4 = p then some (field v 0 14, 64 * field v 22 14, field v 36 8) else none)

/-- The launchers take the launches of an edge. -/
def State.launchEdge (s : State) (tick att p : Nat) : State :=
  let ra := decide (s.gen.commitSeq.toNat + 1 < tick)
  (s.active.launchList (s.progOf tick) p).foldl (fun s e =>
    match s.physOf e.1 with
    | none => s
    | some c => s.modCore c (fun x => { x with
        launches := x.launches ++ [{ off := e.2.1, patch := e.2.2, tick := tick, att := att, runahead := ra }] })) s

/-- Every core's waits are examined. -/
def State.settleAll (s : State) : State := s.cores.foldl (fun s e => s.settle e.1) s

def State.modNodes (s : State) (f : Node → Node) : State :=
  { s with cores := SMap.mapAll Core.reset (fun _ c => { c with node := f c.node }) s.cores }

/-- The nodes' votes and checks of a TICKP start afresh. -/
def Node.freshVote (k : Nat) (n : Node) : Node :=
  { n with voted := SMap.set none n.voted k none, dropped := SMap.set false n.dropped k false,
           voteBad := SMap.set false n.voteBad k false }

/-- PHASE: the edge takes effect at every node (R228, R241). -/
def execPhase (s : State) : Res :=
  match s.gen.class0 with
  | some (.phase p tick att, t) =>
    let s := s.advanceTo t
    let s := if p = 0 then s.modNodes (Node.freshVote (tickp tick)) else s
    let s := s.modGen (fun g => { g with lastEdge := SMap.set 0 g.lastEdge (tickp tick) (p + 1) })
    let s := s.modRun tick (fun t => { t with edges := p + 1 })
    let s := (s.launchEdge tick att p).settleAll
    let s := if p + 1 = s.tickPhases tick then s.mappedCores.foldl (fun s c => s.tryVote c tick) s else s
    .next s.class0Done
  | _ => .next s

/-! The vote and the end (R243). -/

/-- The hub holds a vote from every member and every child that carries members below it (R229). -/
def State.voteComplete (s : State) (h : Nat) (v : VoteSet) : Bool :=
  (s.halMembers h).all (fun p => v.members.contains p)
    && (s.halChildren h).all (fun c => v.children.contains c || !s.hasBelow c (fun _ => true))

/-- ROOT_VOTE: the root holds the combined vote of the tick of a TICKP; one that comes after the overrun deadline finds the
tick abandoned (R243, R249, R250). -/
def execRootVote (k : Fin 2) (s : State) : Res :=
  let v := SMap.get ⟨0, 0, true, [], [], false⟩ (s.hub halRoot).votes k.val
  match s.tickRun v.tick with
  | none => .next s
  | some t =>
    if v.att ≠ t.att || t.d.isSome || v.children.isEmpty || !s.voteComplete halRoot v then .next s
    else if t.late 0 s.now then .next (s.abandon t.tick .overrun none false)
    else if !v.ok then .next (s.abandon t.tick .voteFail none false)
    else
      let s := s.modRun t.tick (fun t => { t with d := some s.now })
      let due := t.t0 + t.period
      if s.now ≤ due then .next s
      else
        let x := (s.now - due) / Config.cyc10ns
        let s := s.setFld unitMgmt rTICK_OVERRUN 0 32 (max (s.fld unitMgmt rTICK_OVERRUN 0 32) (min x (2 ^ 32 - 1)))
        .next (s.bump unitMgmt rTICK_OVERRUN 32 32 1)

/-- The worlds whose copies the end of a tick starts (R255). -/
def State.copiesOf (s : State) (t : TickRun) : List Nat :=
  (t.latched.filter (fun e => e.2 == 1 && s.marked t e.1 && (s.world e.1).autoReset)).map (·.1)

/-- TICK_END: at the later of t0 + P and D the tick ends (R243, R249). -/
def execTickEnd (tick : Nat) (s : State) : Res :=
  match s.tickRun tick with
  | none => .next s
  | some t =>
    match t.d with
    | none => .next s
    | some d =>
      if t.ended then .next s
      else
        let s := s.advanceTo (max d (t.t0 + t.period))
        let s := s.modRun tick (fun t => { t with ended := true, endAt := s.now })
        let s := s.ownRecord 1 tick t.att (!s.raPermitted)
        let todo := s.copiesOf t
        let s := if todo.isEmpty then s
          else { s with worlds := { s.worlds with copies := s.worlds.copies ++ [⟨tick, todo, false⟩] } }
        let s := if s.gen.ticks.length = 1 && s.continuing (tick + 1) && s.raPermitted then s.setReady s.now else s
        .next s.tryCommit

/-- OVERRUN: no combined vote by t_eff + P + A (R243). -/
def execOverrun (tick : Nat) (s : State) : Res :=
  match s.tickRun tick with
  | none => .next s
  | some t =>
    match t.tEff with
    | none => .next s
    | some e =>
      when t.d.isNone s ((s.advanceTo (e + t.period + t.allow)).abandon tick .overrun none false)

/-- COMMIT_TIMEOUT: no commit by t_eff + P + A + GRACE_US (R243). -/
def execCommitTimeout (tick : Nat) (s : State) : Res :=
  match s.tickRun tick with
  | none => .next s
  | some t =>
    match t.tEff with
    | none => .next s
    | some e =>
      when t.commitAt.isNone s ((s.advanceTo (e + t.period + t.allow + s.grace)).abandon tick .commitTimeout none false)

/-! Abandon takes effect (R54, R137, R228, R231, R245). -/

/-- The TICKPs that the abandon of a tick clears: its own, and its successor's when its predecessor is committed. -/
def State.clearedP (s : State) (tick : Nat) : List Nat :=
  if tick ≤ s.gen.commitSeq.toNat + 1 then [tickp tick, tickp (tick + 1)] else [tickp tick]

/-- Entries of a map keyed by TICKP × n + k that stay. -/
def dropP {α : Type} (ps : List Nat) (n : Nat) (m : SMap α) : SMap α := SMap.drop (fun k => ps.contains (k / n)) m

def Node.cancel (n : Node) (ps : List Nat) (tick : Nat) : Node :=
  let mine := fun (m : UserMsg) => m.tick == tick || m.tick == tick + 1
  { n with
    barCount := dropP ps 64 n.barCount, barNext := dropP ps 64 n.barNext, barArrived := dropP ps 64 n.barArrived
    sendQ := n.sendQ.filter (fun u => !mine u.msg), recvQ := n.recvQ.filter (fun m => !mine m)
    voted := dropP ps 1 n.voted, dropped := dropP ps 1 n.dropped, voteBad := dropP ps 1 n.voteBad }

def Hist.cancel (h : Hist) (ps : List Nat) : Hist :=
  { h with live := dropP ps (16 * 68) h.live, liveUsed := dropP ps 16 h.liveUsed }

/-- What an output holds of a tick and its successor goes. -/
def HubOut.cancel (o : HubOut) (ps : List Nat) (tick : Nat) : HubOut :=
  { o with
    bar := o.bar.filter (fun e => !ps.contains e.1), vote := dropP ps 1 o.vote
    class2 := o.class2.filter (fun m => match m with
      | .user u => u.tick != tick && u.tick != tick + 1
      | _ => true) }

/-- R231: every hub discards its state of a tick and its successor. -/
def Hub.cancel (h : Hub) (ps : List Nat) (tick : Nat) : Hub :=
  { h with
    votes := dropP ps 1 h.votes, bars := dropP ps 64 h.bars, up := h.up.cancel ps tick
    down := SMap.mapAll HubOut.empty (fun _ o => o.cancel ps tick) h.down }

/-- R327: the link dies drop the stamped posts of a tick and its successor. -/
def State.cancelXposts (s : State) (tick : Nat) : State :=
  let keep := fun (p : XPost) => match p.stamp with
    | some (t, _) => t != tick && t != tick + 1
    | none => true
  { s with vorrad := { s.vorrad with
      ctxs := SMap.mapAll XCtx.reset (fun _ c => { c with posts := c.posts.filter keep }) s.vorrad.ctxs } }

/-- The ranges that R441 reloads at an abandon. -/
def State.reloadsDue (s : State) : List Reload :=
  (List.range (s.active.count 11)).map (fun i =>
    { core := field (leAt (s.active.entry 11 i 32) 0 2) 0 14, entry := i, copied := false, bad := false })

/-- ABANDON: it takes effect at every node; the replay of the tick is ready after GAP_US (R245, R262). -/
def execAbandon (s : State) : Res :=
  match s.gen.class0 with
  | some (.abandon tick _, t) =>
    let s := s.advanceTo t
    let ps := s.clearedP tick
    let s := s.cores.foldl (fun s e => (s.cancelTick e.1 tick).cancelTick e.1 (tick + 1)) s
    let s := s.modNodes (fun n => n.cancel ps tick)
    let s := { s with cores := SMap.mapAll Core.reset (fun _ c => { c with hist := c.hist.cancel ps }) s.cores }
    let s := { s with hubs := SMap.mapAll Hub.reset (fun _ h => h.cancel ps tick) s.hubs }
    let s := s.modGen (fun g => { g with lastEdge := dropP ps 1 g.lastEdge, ending := g.ending.filter (fun t => decide (t.tick < tick)) })
    let s := (s.collAbandon tick (s.progOf tick)).cancelXposts tick
    let s := { s with maint := { s.maint with
      digest := dropP ps 1 s.maint.digest, reloads := s.reloadsDue } }
    let gap := s.now + Config.cycUs * s.fld unitMgmt rTICK_TIMING 16 10
    let s := s.modGen (fun g => { g with notBefore := gap })
    let oldest := decide (tick = s.gen.commitSeq.toNat + 1)
    let ended := s.gen.ticks.any (fun t => t.tick + 1 == tick && t.ended)
    let s := if s.ticking && (oldest || (ended && s.raPermitted)) then s.setReady s.now else s
    .next s.class0Done
  | _ => .next s

/-! Commit takes effect (R248). -/

/-- The histograms of a core at a commit (R137). -/
def Hist.commit (h : Hist) (k : Nat) : Hist :=
  let n := 16 * 68
  { h with
    snap := (h.live.filter (fun e => e.1 / n == k)).map (fun e => (e.1 % n, e.2))
    snapUsed := (h.liveUsed.filter (fun e => e.1 / 16 == k)).map (fun e => (e.1 % 16, e.2))
    live := dropP [k] n h.live, liveUsed := dropP [k] 16 h.liveUsed }

/-- A slot whose task runs ahead for tick `y` is run-ahead no more. -/
def Slot.endAhead (y : Nat) (sl : Slot) : Slot := if sl.tick = y then { sl with runahead := false } else sl

/-- The cores at the commit of tick `x`: histograms, and the tasks of `x + 1` with what R260 held of them. -/
def Core.commit (x : Nat) (c : Core) : Core :=
  { c with
    hist := c.hist.commit (tickp x)
    slots := SMap.mapAll Slot.reset (fun _ sl => sl.endAhead (x + 1)) c.slots
    launches := c.launches.map (fun (l : Launch) => if l.tick = x + 1 then { l with runahead := false } else l)
    dma := { c.dma with waiting := c.dma.waiting.map (fun (d : DmaDesc) => if d.tick = x + 1 then { d with held := false } else d) } }

/-- A released HSEND of a slot enters the send queue when it has a place (R260). -/
def State.releaseHsend (s : State) (p : Nat) : State :=
  (List.range 8).foldl (fun s i =>
    let sl := s.slot p i
    match sl.mode, sl.wait with
    | .waiting, .held (.hsend chan dest pay) =>
      if sl.runahead || 8 ≤ (s.core p).node.sendQ.length then s
      else (s.modSlot p i (fun sl => sl.wake s.now)).enqueueUser p (s.userMsg p sl chan dest pay)
    | _, _ => s) s

/-- Every held record of run-ahead work leaves (R260). -/
def State.releaseEvents (s : State) : State :=
  s.events.held.foldl (fun (s : State) (e : Event) => s.emit e) { s with events := { s.events with held := [] } }

/-- The worlds at the commit (R254, R256). -/
def State.commitWorlds (s : State) (t : TickRun) : State :=
  let ws := (s.worlds.table.filter (fun (e : Nat × World) => SMap.get 0 t.latched e.1 != 0 || e.2.reqTick == some t.tick)).map (·.1)
  let table := ws.foldl (fun m w => SMap.set World.reset m w (s.worldAfter t w)) s.worlds.table
  { s with worlds := { s.worlds with
      table := table, marks := s.worlds.marks.filter (fun e => e.2.1 != t.tick)
      copies := s.worlds.copies.filter (fun c => c.tick != t.tick) } }

/-- The generator's own state at the commit. -/
def State.commitGen (s : State) (t : TickRun) : State :=
  let pos := s.nextPos (s.gen.entry, s.gen.rep)
  let left := s.gen.stepLeft - 1
  let stop := s.gen.stepLeft == 1
  let low := BitVec.ofNat 32 t.tick
  let up := s.gen.nodeSeq.toNat / 2 ^ 32 + (if low.toNat < s.gen.nodeSeq.toNat % 2 ^ 32 then 1 else 0)
  s.modGen (fun g => { g with
    commitSeq := BitVec.ofNat 64 t.tick, nodeSeq := BitVec.ofNat 64 (up * 2 ^ 32 + low.toNat)
    entry := pos.1, rep := pos.2, runs := [], attempts := SMap.drop (fun k => decide (k ≤ t.tick)) g.attempts
    latch := g.latch.filter (fun e => e.1 != t.tick), commits := g.commits + 1, last := some t, prev := g.last
    lastEdge := SMap.set 0 g.lastEdge (tickp t.tick) 0
    ticks := (g.ticks.drop 1).map (fun x => { x with tEff := some s.now })
    stepLeft := left, run := if stop then false else g.run
    gstate := if stop && g.gstate == .running then .stopping else g.gstate })

/-- Telemetry at the commit (R478, R484). -/
def State.commitTel (s : State) (t : TickRun) : State :=
  let s := s.telSample telCommit ((s.now - t.endAt) / Config.cyc10ns)
  let s := s.telBump (telPanel 0x50) 0 64 1
  let s := { s with tel := { s.tel with votes := s.slackDue t.prog (s.phaseCount t.prog) } }
  let every := s.fld unitMgmt rTEL_CTRL 16 16
  if bit (s.reg unitMgmt rTEL_CTRL) 0 && s.gen.commitSeq.toNat % every == 0 then s.telBoundary false else s

/-- Maintenance at the commit: recovery ends (R447), an injection whose replay commits leaves flight (R450), the digest
is shown (R455), and a promotion takes effect (R457). -/
def State.commitMaint (s : State) (t : TickRun) : State :=
  let s := s.setReg unitMgmt rMNT_DIGEST (SMap.get 0 s.maint.digest (tickp t.tick))
  let s := { s with maint := { s.maint with
    recovery := false, entries := s.maint.entries.map (fun (e : MaintEntry) => { e with paused := false })
    digest := SMap.set 0 s.maint.digest (tickp t.tick) 0 } }
  let s := if s.maint.suppressed && !s.suppressedAt (t.tick + 1) then
      { s with maint := { s.maint with suppressed := false, exportsFrom := none } } else s
  let s := if decide (0 < t.att) && (s.injecting 1 || s.injecting 4) then s.endInjection else s
  if s.maint.promoting then
    let first := s.nextTick
    let s := { s with maint := { s.maint with
      promoting := false, basteAttached := false, basteReady := false, exportsFrom := some first } }
    let s := s.setFld unitMgmt rMNT_BASTE_STAT 0 2 0
    let s := s.raise .info 0xBC .none (some t.tick) first
    s.host.pairs.foldl (fun (s : State) (e : Nat × QPair) => e.2.cmds.foldl (fun s c =>
      if c.opcode = 0x41 then s.modCmd e.1 c.cid (fun c => { c with note := first }) else s) s) s
  else s

/-- Hubs drop the merge of the tick before last, whose TICKP the new merge takes. -/
def Hub.freshHist (k : Nat) (h : Hub) : Hub :=
  { h with hist := dropP [k] 2048 h.hist, histEnds := dropP [k] 16 h.histEnds }

/-- A bin of a merge grows by a count (R234). -/
def Hub.addBin (k slot bin count : Nat) (h : Hub) : Hub :=
  let key := (16 * k + slot) * 128 + bin
  { h with hist := SMap.set 0 h.hist key (satAdd 32 (SMap.get 0 h.hist key) count) }

/-- The node of core `p` hands its snapshots to its hub for the merge of the tick with TICKP `k` (R137, R234). -/
def State.handHist (s : State) (k p : Nat) : State :=
  let h := (s.core p).hist
  (h.snap.filter (fun e => SMap.get false h.snapUsed (e.1 / 68))).foldl (fun s e =>
    s.modHub (p / 50) (Hub.addBin k (e.1 / 68) (e.1 % 68) e.2)) s

/-- What becomes ready at a commit (R239, R249, R262); a pending tack comes first (R279). -/
def State.readyAfter (s : State) (replay : Bool) : State :=
  if s.cfg.pending then s
  else
    match s.gen.ticks with
    | [] => if s.continuing (s.gen.commitSeq.toNat + 1) || (replay && s.ticking) then s.setReady s.now else s
    | t :: _ => if t.ended && s.continuing (t.tick + 1) && s.raPermitted && s.gen.ticks.length == 1 then
        s.setReady s.now else s

/-- COMMIT takes effect (R248). -/
def execCommit (s : State) : Res :=
  match s.gen.class0, s.oldest with
  | some (.commit x, t), some run =>
    if run.tick ≠ x then .next s.class0Done
    else
      let s := s.advanceTo t
      let replay := decide (0 < SMap.get 0 s.gen.runs (x + 1))
      let s := (s.commitWorlds run).collCommit x run.prog
      let s := s.commitGen run
      let s := { s with
        cores := SMap.mapAll Core.reset (fun _ c => c.commit x) s.cores
        hubs := SMap.mapAll Hub.reset (fun _ h => h.freshHist (tickp x)) s.hubs }
      let s := s.cores.foldl (fun s e => s.handHist (tickp x) e.1) s
      let s := s.cores.foldl (fun s e => s.releaseHsend e.1) s.releaseEvents
      let s := (s.commitTel run).commitMaint run
      let n := s.reg unitBar rHOST_COMMIT_NOTIFY
      let s := if bit n 0 ∧ x % field n 32 16 = 0 then { s with host := { s.host with notify := some x } } else s
      .next ((s.readyAfter replay).settleState.tickWaiters.class0Done.tryCommit)
  | _, _ => .next s

/-- CONTROL: Pliwick sends a class-0 control message and it takes effect at all nodes or at one; what its commands do is
internal to the panel's firmware (R224, R225). -/
def execControl (cmd : BitVec 9) (operand : BitVec 32) (node : Option CoreIx) (s : State) : Res :=
  match s.gen.class0 with
  | some _ => .next s
  | none =>
    let t := max s.now s.gen.class0Free + Config.cycHal * s.active.halL0
    .next ((s.advanceTo t).modGen (fun g => { g with
      class0Free := t, control := some (cmd.toNat, operand.toNat, node.map (·.val)) }))

/-! Reset copies (R255). -/

/-- The site and offset of a DRAM panel address. -/
def State.dramSite (s : State) (a : Nat) : Option (Nat × Nat) :=
  match s.active.target a with
  | some (.dram d o) => (s.active.site d).map (fun site => (site, o))
  | _ => none

/-- One line of a copy, by edge-queue requests of the ports (R189): a bad template line poisons the line of the slot. `none`
while a port makes it wait. -/
def State.copyLine (s : State) (tick src dst : Nat) (ue : Bool) : Option (State × Bool) :=
  match s.dramSite src, s.dramSite dst with
  | some (ss, so), some (ds, dO) =>
    match s.readLine ss so 64 49 (if ue then .many else .none) with
    | none => none
    | some (st, line, s) =>
      if st ≠ stOk then some (s.modDram ds (fun d => d.setPoison dO true), true)
      else (s.writeBytes ds dO 49 line .none).map (fun r => (r.2.addDigest tick dst line, false))
  | _, _ => some (s, true)

/-- The lines of a copy from line `k` on; `bad` are the template lines whose code reads as uncorrectable. -/
def State.copyLines (tick src dst : Nat) (bad : List Nat) : Nat → Nat → State → Bool → Option (State × Bool)
  | 0, _, s, err => some (s, err)
  | n + 1, k, s, err =>
    match s.copyLine tick (src + 64 * k) (dst + 64 * k) (bad.contains k) with
    | none => none
    | some (s, e) => State.copyLines tick src dst bad n (k + 1) s (err || e)

/-- RESET_COPY: the die that holds the slot copies the template of a world into slot X mod S. -/
def execResetCopy (w : Fin 4096) (bad : List Nat) (s : State) : Res :=
  match s.worlds.copies.find? (fun c => c.todo.contains w.val) with
  | none => .next s
  | some c =>
    let x := s.world w.val
    let dst := x.stateBase + (c.tick % x.slots) * x.slotStride
    match State.copyLines c.tick x.template dst bad (x.slotBytes / 64) 0 s false with
    | none => .next s
    | some (s, err) =>
    let s := { s with worlds := { s.worlds with
      copies := s.worlds.copies.map (fun (d : ResetCopies) => if d.tick = c.tick then { d with todo := d.todo.filter (· != w.val) } else d) } }
    if err then
      .next ((s.setWorld w.val { (s.world w.val) with resetErr := true }).raise .degraded 0x33 (edgeSrc 8 0x3F)
        (some c.tick) w.val)
    else .next s

/-- RESET_COPY_COMPLETE: the host bridge die reports that all the copies of a tick are made. -/
def execResetCopyComplete (tick : Nat) (s : State) : Res :=
  match s.worlds.copies.find? (fun c => c.tick == tick) with
  | none => .next s
  | some c =>
    when (c.todo.isEmpty && !c.reported) s
      ({ s with worlds := { s.worlds with
          copies := s.worlds.copies.map (fun (d : ResetCopies) => if d.tick = tick then { d with reported := true } else d) } }).tryCommit

/-! Done marks and the status word (R254, R258, R267). -/

/-- WCTX_DONE_SET: a task's write of a done-mark word marks worlds for its tick and attempt; marks of an attempt that is
gone count for nothing. -/
def execWctxDoneSet (acc : Nat) (s : State) : Res :=
  match s.access acc with
  | none => .next s
  | some a =>
    match a.stage, doneWord a.addr, a.kind with
    | .atTarget, some i, .write data =>
      let live := s.gen.ticks.any (fun t => t.tick == a.tick && t.att == a.att)
      let ws := (bitsOf (8 * data.length) (leNat data)).map (fun b => 32 * i + b)
      let s := if !live then s
        else { s with worlds := { s.worlds with
          marks := ws.foldl (fun m w => SMap.set (0, 0) m (markKey a.tick w) (a.tick, a.att)) s.worlds.marks } }
      .next (s.reply acc stOk [])
    | _, _, _ => .next s

/-- RESET_REQ: a host write of 1; it marks the world in the first tick that starts after it (R254). -/
def execResetReq (w : Fin 4096) (s : State) : Res :=
  .next (s.setWorld w.val { (s.world w.val) with resetReq := true })

/-- WCTX_STATUS_WRITE: the word is written, or refused as a whole (R267). -/
def execWctxStatusWrite (w : Fin 4096) (v : Word) (s : State) : Res :=
  when (statusRefused (s.feature 1) v.toNat == 0) s (s.setWorld w.val ((s.world w.val).writeStatus v.toNat))

/-! TICK_CTRL (R251). -/

/-- A write of RUN. -/
def State.writeRun (s : State) (run : Bool) : State :=
  match s.gen.gstate, run with
  | .running, true => s
  | .stopping, true =>
    let s := s.modGen (fun g => { g with gstate := .running, run := true })
    match s.gen.ticks with
    | [] => if s.gen.ready.isNone && !s.gen.class0.isSome then s.setReady s.now else s
    | t :: rest => if rest.isEmpty && t.ended && s.continuing (t.tick + 1) && s.raPermitted && s.gen.ready.isNone then
        s.setReady s.now else s
  | _, true =>
    let s := s.modGen (fun g => { g with gstate := .running, run := true })
    if s.gen.ticks.isEmpty then (s.modGen (fun g => { g with attempts := [], runs := [] })).setReady s.now else s
  | .running, false =>
    let s := s.modGen (fun g => { g with gstate := .stopping, run := false })
    let s := if SMap.get 0 s.gen.runs s.nextTick = 0 then s.clearReady else s
    s.settleState.tickWaiters
  | _, false => s

/-- STEP_LEFT: a write of TICK_CTRL.STEP_LEFT. -/
def execStepLeft (n : BitVec 32) (s : State) : Res := .next (s.modGen (fun g => { g with stepLeft := n.toNat }))

/-- A write of TICK_COMMIT_SEQ: only while STOPPED or HALTED. The nodes' copies follow it. -/
def State.writeSeq (s : State) (v : Word) : State :=
  if s.gen.gstate = .stopped ∨ s.gen.gstate = .halted then
    s.modGen (fun g => { g with commitSeq := v, nodeSeq := v })
  else s

def execTickCommitSeqWrite (v : Word) (s : State) : Res := .next (s.writeSeq v)

end Sys2Proof.Machine
end

