-- ==== Sys2Proof/Machine/Halyard.lean ====
section
/-!
DEFINITION. The commands of the halyard network (R222–R235): its hubs' outputs, barriers, votes, notices, heartbeats,
histogram merges and user messages. Class 0 is in Tick and Config.
-/
namespace Sys2Proof.Machine

/-! Outputs (R225, R226). -/

/-- A message at the head of an output. -/
inductive OutMsg where
  | bar (key att : Nat) (bits : BitVec 64)
  | lost (cores : List Nat)
  | vote (key tick att : Nat) (ok : Bool)
  | dieHb (hub : Nat) (live : BitVec 6)
  | notice (n : Notice)
  | class2 (m : Class2)
deriving DecidableEq, Repr

/-! The flits (R224). A flit whose content the spec calls internal is `none`. -/

/-- TICKP and ATT in a first flit. -/
def flitTick (k att : Nat) : Nat := 2 ^ 8 * (k % 2) + 2 ^ 9 * (att % 4)

/-- The flits of a class-0 message that takes effect in cycle `t`, under an L0: SEND_TIME is the halyard cycle L0 before,
modulo 4,096. -/
def Class0.flits (m : Class0) (l0 t : Nat) : List Nat :=
  let st := 2 ^ 11 * ((t / Config.cycHal + 4096 - l0 % 4096) % 4096)
  match m with
  | .phase p tick att => [2 ^ 4 * p + flitTick tick att + st, tick % 2 ^ 32]
  | .abandon tick att => [1 + flitTick tick att + st, tick % 2 ^ 32]
  | .commit n => [2 + st, n % 2 ^ 32]
  | .tack g => [3 + st, g % 2 ^ 32]
  | .control cmd operand _ => [4 + st + 2 ^ 23 * cmd, operand]

def Class2.flits : Class2 → List (Option Nat)
  | .hist k slot bin count => [some (0xA + 2 ^ 4 * slot + 2 ^ 8 * bin + 2 ^ 15 * k), some count]
  | .user m => [some (0xB + 2 ^ 4 * m.chan + 2 ^ 8 * m.dest),
      some (m.sender + 2 ^ 14 * (m.tick % 2 ^ 16) + 2 ^ 30 * (m.att % 4)), some m.payload.toNat]
  | .userAck sender acker refused => [some (0xC + 2 ^ 4 * b2n refused + 2 ^ 8 * sender), some acker]
  | .debug _ _ => [none, none]

/-- The flits of a message of an output; `up` tells that it climbs. -/
def OutMsg.flits (up : Bool) : OutMsg → List (Option Nat)
  | .bar k att bits =>
    [some ((if up then 5 else 6) + flitTick k att), some (field bits.toNat 0 32), some (field bits.toNat 32 32)]
  | .lost cs => [some (8 + 2 ^ 4 * 2 + 2 ^ 8 * (cs.headD 0)), none]
  | .vote k tick att ok => [some (7 + flitTick k att + 2 ^ 11 * b2n ok), some (tick % 2 ^ 32)]
  | .dieHb h l => [some (9 + 2 ^ 8 * h), some l.toNat]
  | .notice n => [some (8 + 2 ^ 4 * n.kind + 2 ^ 8 * n.core), none]
  | .class2 m => m.flits

/-- The entry of the DIE_HB table that round robin serves next: the first hub behind the one served last (R226). -/
def HubOut.nextHb (o : HubOut) : Option (Nat × BitVec 6) :=
  o.dieHb.foldl (fun best e => match best with
    | none => some e
    | some b => if (e.1 + 255 - o.hbLast) % 256 < (b.1 + 255 - o.hbLast) % 256 then some e else some b) none

/-- The first waiting class-1 message in the order of R226; a NOTICE goes only while its receiver has a free entry. -/
def HubOut.next1 (o : HubOut) (room : Bool) : Option OutMsg :=
  if !o.lost.isEmpty then some (.lost o.lost)
  else
    match o.vote, o.nextHb, o.notices with
    | (k, t, a, ok) :: _, _, _ => some (.vote k t a ok)
    | [], some (h, l), _ => some (.dieHb h l)
    | [], none, n :: _ => if room then some (.notice n) else none
    | [], none, [] => none

/-- The message an output sends next (R225): the oldest class-B message, but one waiting class-1 message goes between two of
them; in place of a class-1 message one of class 2, after eight that it has waited for. -/
def HubOut.next (o : HubOut) (room : Bool) : Option OutMsg :=
  let one := o.next1 room
  let two := o.class2.head?.map OutMsg.class2
  let low := if two.isSome && (one.isNone || decide (8 ≤ o.sinceClass2)) then two else one
  match o.bar with
  | (k, a, b) :: _ => if o.oweClass1 && one.isSome then low else some (.bar k a b)
  | [] => low

/-- The output after it has sent a message. -/
def HubOut.sent (o : HubOut) (m : OutMsg) : HubOut :=
  let o := match m with
    | .class2 _ => { o with sinceClass2 := 0 }
    | .bar .. => { o with oweClass1 := true }
    | _ => { o with oweClass1 := false, sinceClass2 := if o.class2.isEmpty then 0 else o.sinceClass2 + 1 }
  match m with
  | .bar k _ _ => { o with bar := o.bar.filter (fun e => e.1 != k) }
  | .lost _ => { o with lost := [] }
  | .vote k _ _ _ => { o with vote := SMap.del o.vote k }
  | .dieHb h _ => { o with dieHb := o.dieHb.filter (fun e => e.1 != h), hbLast := h }
  | .notice _ => { o with notices := o.notices.drop 1 }
  | .class2 _ => { o with class2 := o.class2.drop 1 }

/-- Class of a message, as `HAL_MAX_WAIT` numbers its fields. -/
def OutMsg.cls : OutMsg → Nat
  | .bar .. => 1
  | .class2 _ => 3
  | _ => 2

/-- A hub output has sent a message of a class after a wait; how long it waited is not timed in the model, so the value
compared is free. -/
def State.noteWait (s : State) (h cls : Nat) : State :=
  if h < 204 then
    let (n, s) := s.freeNat
    let u := unitDie h
    s.setFld u rHAL_MAX_WAIT (8 * cls) 8 (max (s.fld u rHAL_MAX_WAIT (8 * cls) 8) (n % 256))
  else s

/-- A message that carries a TICKP and ATT no longer current is discarded (R231). -/
def State.discardAt (s : State) (h : Nat) : State :=
  if h < 204 then s.bump (unitDie h) rHAL_DISCARD 0 32 1 else s

/-- The started tick of a TICKP, as the nodes know it: until its ABANDON takes effect it runs. -/
def State.runOf (s : State) (k : Nat) : Option TickRun := (s.gen.ending ++ s.gen.ticks).find? (fun t => tickp t.tick == k)

/-- The attempt of the started tick of a TICKP. -/
def State.attOf (s : State) (k : Nat) : Option Nat := (s.runOf k).map TickRun.att

/-- A bitmap of barriers is current: the tick of its TICKP runs with its ATT (R231). -/
def State.currentBar (s : State) (k att : Nat) : Bool := (s.attOf k).any (fun a => a % 4 == att % 4)

/-- A message stamped with `n` bits of a tick and with its attempt is current: that attempt runs, or the tick is committed and
none of its TICKP has started since (R231). -/
def State.currentMsg (s : State) (tick att : Nat) (n : Nat := 32) : Bool :=
  match s.runOf (tickp tick) with
  | some t => t.tick % 2 ^ n == tick % 2 ^ n && t.att % 4 == att % 4
  | none => decide (tick ≤ s.gen.commitSeq.toNat)

def State.hubOut (s : State) (h : Nat) (p : HubPort) : HubOut :=
  match p with
  | .up => (s.hub h).up
  | .child v => (s.hub h).out v.val
  | .nodes => (s.hub h).out outNodes

def State.modHubOut (s : State) (h : Nat) (p : HubPort) (f : HubOut → HubOut) : State :=
  s.modHub h (fun x => match p with
    | .up => { x with up := f x.up }
    | .child v => x.modOut v.val f
    | .nodes => x.modOut outNodes f)

/-- The receiving hub has a free NOTICE entry on its own upward output; the root takes every notice. -/
def State.noticeRoom (s : State) (v : Nat) : Bool := v == halRoot || decide ((s.hub v).up.notices.length < 8)

/-- A hub of the tree at which some core of the subtree takes part in barrier `b`. -/
def State.barBelow (s : State) (h b : Nat) : Bool := s.hasBelow h (fun p => decide (0 < s.barExpect p b))

/-- The bits of a bitmap that pass `f`. -/
def keepBits (bits : BitVec 64) (f : Nat → Bool) : BitVec 64 := BitVec.ofNat 64 (ofBits ((bitsOf 64 bits.toNat).filter f))

/-- A pending class-B message takes further bits of the same TICKP and attempt; one of an older attempt gives way. -/
def HubOut.addBar (o : HubOut) (k att : Nat) (bits : BitVec 64) : HubOut :=
  if bits = 0 then o
  else if o.bar.any (fun e => e.1 == k) then
    { o with bar := o.bar.map (fun e => if e.1 = k then (k, att, if e.2.1 = att then e.2.2 ||| bits else bits) else e) }
  else { o with bar := o.bar ++ [(k, att, bits)] }

/-- A release passes down a hub: its gathered arrivals go, and each output that leads to a taking part core gets the bits
that concern it (R230). -/
def State.releaseAt (s : State) (h k att : Nat) (bits : BitVec 64) : State :=
  let bs := bitsOf 64 bits.toNat
  let s := s.modHub h (fun x => { x with bars := bs.foldl (fun m b => SMap.set [] m (64 * k + b) []) x.bars })
  let s := (s.halChildren h).foldl (fun s v =>
    let bb := keepBits bits (s.barBelow v)
    s.modHub h (fun x => x.modOut v (fun o => o.addBar k att bb))) s
  let own := keepBits bits (fun b => (s.halMembers h).any (fun p => decide (0 < s.barExpect p b)))
  s.modHub h (fun x => x.modOut outNodes (fun o => o.addBar k att own))

/-- A notice reaches the root (R226, R244, R287). A scale overflow raises its bucket when it names the current generation;
an event is published, and those counted behind it are lost. -/
def State.noticeAtRoot (s : State) (n : Notice) : State :=
  let live := s.gen.ticks.any (fun t => t.tick == n.tick && t.att == n.att)
  let s := if n.kind = 3 then { s with events := { s.events with lost := satAdd 32 s.events.lost n.count } } else s
  let s := match n.event with
    | some e => s.coreEvent n e
    | none => s
  if !live then s
  else if n.kind = 0 then s.abandon n.tick .taskFault none false
  else if n.kind = 1 then s.abandon n.tick .scaleOverflow (n.tag.bind (fun (t, g) =>
    if g = s.genOf t then some t else none)) false
  else s

/-- A message arrives at hub `v` from hub `h` below it. -/
def State.arriveUp (s : State) (h v : Nat) (m : OutMsg) : State :=
  match m with
  | .bar k att bits =>
    if s.currentBar k att then
      s.modHub v (fun x => { x with bars := (bitsOf 64 bits.toNat).foldl (fun m b =>
        SMap.set [] m (64 * k + b) (insertAsc (1000 + h) (SMap.get [] m (64 * k + b)))) x.bars })
    else s.discardAt v
  | .lost cs => s.modHub v (fun x => { x with up := { x.up with lost := cs.foldl (fun l c => insertAsc c l) x.up.lost } })
  | .vote k tick att ok =>
    if k = 2 ∨ s.currentMsg tick att then s.modHub v (fun x => x.addVote k tick att ok none (some h)) else s.discardAt v
  | .dieHb d l => s.modHub v (fun x => { x with up := { x.up with
      dieHb := if x.up.dieHb.any (fun e => e.1 == d) then x.up.dieHb.map (fun e => if e.1 = d then (d, l) else e)
        else x.up.dieHb ++ [(d, l)] } })
  | .notice n => s.modHub v (fun x => { x with up := { x.up with notices := x.up.notices ++ [n] } })
  | .class2 c =>
    match c with
    | .hist k slot bin count =>
      if bin = 127 then
        s.modHub v (fun x => { x with
          histEnds := SMap.set [] x.histEnds (16 * k + slot) (insertAsc (1000 + h) (SMap.get [] x.histEnds (16 * k + slot))) })
      else
        let key := (16 * k + slot) * 128 + bin
        s.modHub v (fun x => { x with hist := SMap.set 0 x.hist key (satAdd 32 (SMap.get 0 x.hist key) count) })
    | .user u => s.route2 v (s.siteOf u.dest) c
    | .userAck sender _ _ => s.route2 v (s.siteOf sender) c
    | .debug dest _ => s.route2 v (s.siteOf dest) c

/-- A message arrives at hub `v` from its parent. -/
def State.arriveDown (s : State) (v : Nat) (m : OutMsg) : State :=
  match m with
  | .bar k att bits => if s.currentBar k att then s.releaseAt v k att bits else s.discardAt v
  | .class2 (.user u) => s.route2 v (s.siteOf u.dest) (.user u)
  | .class2 (.userAck a b r) => s.route2 v (s.siteOf a) (.userAck a b r)
  | .class2 (.debug d x) => s.route2 v (s.siteOf d) (.debug d x)
  | _ => s

/-- The notices, losses and heartbeats that reach the root have commands of their own. -/
def OutMsg.endsAtRoot : OutMsg → Bool
  | .lost _ => true
  | .dieHb .. => true
  | .notice _ => true
  | _ => false

/-- HALYARD_FORWARD: a hub output sends its next message over one seam hop (R225); with `cls0`, the class-0 message
under way passes the output. -/
def execHalyardForward (h : Fin 214) (out : HubPort) (cls0 : Bool) (s : State) : Res :=
  if cls0 then when s.gen.class0.isSome s (s.noteWait h.val 0)
  else
    match out with
    | .nodes => .next s
    | .up =>
      match s.halParent h.val with
      | none => .next s
      | some v =>
        match (s.hub h.val).up.next (s.noticeRoom v) with
        | none => .next s
        | some m =>
          if v = halRoot && m.endsAtRoot then .next s
          else .next (((s.modHubOut h.val .up (fun o => o.sent m)).noteWait h.val m.cls).arriveUp h.val v m)
    | .child v =>
      if s.halParent v.val ≠ some h.val then .next s
      else
        match ((s.hub h.val).out v.val).next true with
        | none => .next s
        | some m => .next (((s.modHubOut h.val (.child v) (fun o => o.sent m)).noteWait h.val m.cls).arriveDown v.val m)

/-- A child hub of the root sends into the root a message that ends there. -/
def State.intoRoot (s : State) (h : Nat) : Option (OutMsg × State) :=
  if s.halParent h = some halRoot then
    match (s.hub h).up.next true with
    | some m => if m.endsAtRoot then some (m, (s.modHubOut h .up (fun o => o.sent m)).noteWait h m.cls) else none
    | none => none
  else none

/-! Barriers (R230). -/

/-- Every member and every child with a core that takes part in barrier `b` has arrived at the hub. -/
def State.barDone (s : State) (h k b : Nat) : Bool :=
  let got := SMap.get [] (s.hub h).bars (64 * k + b)
  !got.isEmpty && !got.contains 9999
    && (s.halMembers h).all (fun p => got.contains p || s.barExpect p b == 0)
    && (s.halChildren h).all (fun v => got.contains (1000 + v) || !s.barBelow v b)

/-- BAR_UP: a hub sends upward the bits of the barriers of a TICKP that are complete below it; the root releases them.
-/
def execBarUp (h : Fin 214) (k : Fin 2) (s : State) : Res :=
  match s.attOf k.val with
  | none => .next s
  | some att =>
    let keys := ((s.hub h.val).bars.filter (fun e => e.1 / 64 == k.val)).map (fun e => e.1 % 64)
    let bs := keys.filter (s.barDone h.val k.val)
    let bits := BitVec.ofNat 64 (ofBits bs)
    if h.val = halRoot then .next (s.releaseAt halRoot k.val att bits)
    else
      .next (s.modHub h.val (fun x => { x with
        bars := bs.foldl (fun m b => SMap.set [] m (64 * k.val + b) (insertAsc 9999 (SMap.get [] m (64 * k.val + b)))) x.bars
        up := x.up.addBar k.val att bits }))

/-- A core is released from a barrier: its waiting slots go on, and the registrations made since its arrival count for
the next episode (R230). -/
def Core.release (now key b k : Nat) (c : Core) : Core :=
  let next := SMap.get 0 c.node.barNext key
  let c := { c with node := { c.node with
    barArrived := SMap.set none c.node.barArrived key none, barCount := SMap.set 0 c.node.barCount key next
    barNext := SMap.set 0 c.node.barNext key 0 } }
  (List.range 8).foldl (fun c i => c.modSlot i (fun sl =>
    if sl.mode = .waiting ∧ sl.tick % 2 = k then
      match sl.wait with
      | .barrier x false => if x = b then sl.wake now else sl
      | .barrier x true => if x = b then { sl with wait := .barrier x false } else sl
      | _ => sl
    else sl)) c

/-- One core is released from barrier `b`: the barrier wait is sampled (R483), and the next episode may be complete for
it at once. -/
def State.releaseCore (s : State) (p k b : Nat) : State :=
  let key := 64 * k + b
  match SMap.get none (s.core p).node.barArrived key with
  | none => s
  | some t =>
    let s := s.telSample (telBar (p / 50)) ((s.now - t) / Config.cycHal)
    let s := s.modCore p (Core.release s.now key b k)
    s.barArrive p key (s.barExpect p b)

/-- BAR_REL: the release reaches the nodes of a die. -/
def execBarRel (h : Fin 214) (s : State) : Res :=
  match ((s.hub h.val).out outNodes).next true with
  | some (.bar k att bits) =>
    let s := (s.modHubOut h.val .nodes (fun o => o.sent (.bar k att bits))).noteWait h.val 1
    if !s.currentBar k att then .next (s.discardAt h.val)
    else
      .next ((bitsOf 64 bits.toNat).foldl (fun s b =>
        (s.halMembers h.val).foldl (fun s p => s.releaseCore p k b) s) s)
  | _ => .next s

/-! Votes (R229, R279). -/

/-- VOTE: a hub that holds every vote below it sends one upward: 0 and 1 the TICKPs, 2 the votes of a tack, which its own
nodes give once the exchange has taken effect. -/
def execVote (h : Fin 214) (k : Fin 3) (s : State) : Res :=
  if h.val = halRoot then .next s
  else
    let v := SMap.get ⟨0, 0, true, [], [], false⟩ (s.hub h.val).votes k.val
    if k.val = 2 then
      match s.cfg.swappedAt with
      | none => .next s
      | some _ =>
        let gen := s.cfg.activeGen + 1
        let got := if v.tick = gen then v.children else []
        let ok : Bool := (s.halChildren h.val).all (fun c => got.contains c || !s.hasBelow c (fun _ => true))
        if !ok || (v.tick == gen && v.sent) || !s.hasBelow h.val (fun _ => true) then .next s
        else
          .next (s.modHub h.val (fun x => { x with
            votes := SMap.set ⟨0, 0, true, [], [], false⟩ x.votes 2 ⟨gen, 0, true, [], got, true⟩
            up := { x.up with vote := SMap.set (0, 0, false) x.up.vote 2 (gen, 0, true) } }))
    else if v.sent || (v.members.isEmpty && v.children.isEmpty) || !s.voteComplete h.val v
        || !s.currentMsg v.tick v.att then .next s
    else
      .next (s.modHub h.val (fun x => { x with
        votes := SMap.set ⟨0, 0, true, [], [], false⟩ x.votes k.val { v with sent := true }
        up := { x.up with vote := SMap.set (0, 0, false) x.up.vote k.val (v.tick, v.att, v.ok) } }))

/-! Notices and heartbeats (R226, R233). -/

/-- NOTICE: a node's notice goes to its hub while that has a free entry; a notice that reaches the root abandons its
tick. -/
def execNotice (hop : NoticeHop) (s : State) : Res :=
  match hop with
  | .node c kind =>
    let p := c.val
    match (s.core p).node.notices.find? (fun n => n.kind == kind.val) with
    | none => .next s
    | some n =>
      when (s.noticeRoom (p / 50)) s
        ((s.modCore p (fun c => { c with node := { c.node with
            notices := c.node.notices.filter (fun m => m.kind != kind.val) } })).modHub (p / 50) (fun x =>
          { x with up := { x.up with notices := x.up.notices ++ [n] } }))
  | .root h =>
    match s.intoRoot h.val with
    | some (.notice n, t) => .next (t.noticeAtRoot n)
    | _ => .next s

/-- DIE_HB: a die heartbeat reaches the root. -/
def execDieHb (h : Fin 214) (s : State) : Res :=
  match s.intoRoot h.val with
  | some (.dieHb d _, t) => .next (t.modGen (fun g => { g with hbSeen := SMap.set 0 g.hbSeen d t.now }))
  | _ => .next s

/-- The die of a hub works: its converter group and PLL run. -/
def State.hubAlive (s : State) (h : Nat) : Bool :=
  if h < 204 then !(s.die h).stopped && !s.boot.badSites.contains h else !s.boot.badEdges.contains (h - 204)

/-- A node sends heartbeats: its core has not failed, its region is on (R381), and no rehearsal stops it. -/
def State.nodeAlive (s : State) (p : Nat) : Bool :=
  !(s.core p).node.hbStopped && !s.boot.badCores.contains p && s.regionState (p / 50) (regionOf p) == 2

/-- HEARTBEAT: 1.0 µs after the last one, the active nodes of a die send their heartbeats and its hub sends DIE_HB. -/
def execHeartbeat (h : Fin 214) (s : State) : Res :=
  if !s.hubAlive h.val then .next s
  else
    let s := s.advanceTo ((s.hub h.val).hbAt + Config.cycUs)
    let live := ((List.range 50).map (fun p => h.val * 50 + p)).filter (fun p => decide (h.val < 204) && s.nodeAlive p)
    let s := live.foldl (fun s p => s.modCore p (fun c => { c with node := { c.node with hbAt := s.now } })) s
    let n := BitVec.ofNat 6 live.length
    let s := s.modHub h.val (fun x => { x with hbAt := s.now })
    if h.val = halRoot then .next s
    else .next (s.modHub h.val (fun x => { x with up := { x.up with
      dieHb := if x.up.dieHb.any (fun e => e.1 == h.val) then x.up.dieHb.map (fun e => if e.1 = h.val then (h.val, n) else e)
        else x.up.dieHb ++ [(h.val, n)] } }))

/-- HEARTBEAT_TIMEOUT: 2.5 µs without a core's heartbeat: its hub declares the core lost (R233), unless its region
is off and it holds no task (R381). -/
def execHeartbeatTimeout (c : CoreIx) (s : State) : Res :=
  let p := c.val
  let site := p / 50
  let i := p % 50
  let off := if i < 32 then rHAL_HB_LOST_LO else rHAL_HB_LOST_HI
  let idle := (List.range 8).all (fun k => (s.slot p k).mode == .free)
  if !s.hubAlive site || s.fld (unitDie site) off (i % 32) 1 = 1 || (s.regionState site (regionOf p) != 2 && idle) then .next s
  else
    let s := s.advanceTo ((s.core p).node.hbAt + 5 * Config.cycUs / 2)
    let s := s.setFld (unitDie site) off (i % 32) 1 1
    .next (s.modHub site (fun x => { x with up := { x.up with lost := insertAsc p x.up.lost } }))

/-! Histogram merges (R234). -/

/-- The committed tick whose merge has TICKP `k`: the last one, or the one before it. -/
def TickGen.merging (g : TickGen) (k : Nat) : Option TickRun :=
  match g.last with
  | none => none
  | some t => if tickp t.tick = k then some t else g.prev.filter (fun t => tickp t.tick == k)

/-- The offers of R285 in a merge: the highest bin in 0–65 of each slot with a non-zero count. -/
def Hub.offers (h : Hub) (k : Nat) : List Nat :=
  (List.range 16).map (fun slot =>
    (((List.range 66).filter (fun b => SMap.get 0 h.hist ((16 * k + slot) * 128 + b) != 0)).getLast?).getD 127)

/-- The root holds the merge of every slot of tick `t`: the panel's offers are known, and go to the system (R319). -/
def State.rootMerged (s : State) (k : Nat) (t : TickRun) : State :=
  let h := s.hub halRoot
  if (List.range 16).all (fun slot => (SMap.get [] h.histEnds (16 * k + slot)).contains 9999) then
    let ks := h.offers k
    if s.multiPanel then
      let r : SysRecord := { type := 4, att := t.att % 256, cause := 0, tag := 0, raise := false, nora := false, tick := t.tick,
                             remain := 0, ks := ks }
      { s with vorrad := { s.vorrad with inbox := s.vorrad.inbox ++ [(ownPort, s.now, r)] } }
    else s.noteOffers t.tick ks
  else s

/-- HIST: with the end marks of all its children, a hub forwards a slot's sums and its own end mark; the root then holds
the merge. The hub has had its own nodes' snapshots since the commit. -/
def execHist (h : Fin 214) (k : Fin 2) (slot : Fin 16) (s : State) : Res :=
  let v := h.val
  let key := 16 * k.val + slot.val
  let ends := SMap.get [] (s.hub v).histEnds key
  match s.gen.merging k.val with
  | none => .next s
  | some t =>
  if ends.contains 9999
      || !(s.halChildren v).all (fun c => ends.contains (1000 + c) || !s.hasBelow c (fun _ => true)) then .next s
  else
    let sums := (List.range 68).map (fun b => (b, SMap.get 0 (s.hub v).hist (key * 128 + b)))
    let s := s.modHub v (fun x => { x with histEnds := SMap.set [] x.histEnds key (insertAsc 9999 ends) })
    if v = halRoot then .next (s.rootMerged k.val t)
    else
      let ms := (sums.filter (fun e => e.2 != 0)).map (fun e => Class2.hist k.val slot.val e.1 e.2)
      .next (s.modHub v (fun x => { x with up := { x.up with
        class2 := x.up.class2 ++ ms ++ [.hist k.val slot.val 127 0] } }))

/-! User messages (R235). -/

/-- USER: a user message reaches its core and is queued, or refused; one that is stale is discarded (R231). -/
def execUser (h : Fin 214) (s : State) : Res :=
  match ((s.hub h.val).out outNodes).next true with
  | some (.class2 (.user m)) =>
    let s := (s.modHubOut h.val .nodes (fun o => o.sent (.class2 (.user m)))).noteWait h.val 3
    if !s.currentMsg m.tick m.att 16 then .next (s.discardAt h.val)
    else
      match s.physOf m.dest with
      | none => .next s
      | some p =>
        let refused := decide (32 ≤ (s.core p).node.recvQ.length)
        let s := if refused then s.bump (unitCore p) rHAL_USER_COUNT 0 32 1
          else (s.modCore p (fun c => { c with node := { c.node with recvQ := c.node.recvQ ++ [m] } })).settle p
        .next (s.route2 h.val (s.siteOf m.sender) (.userAck m.sender m.dest refused))
  | _ => .next s

/-- The sender's queue after an acknowledgement of `acker`: the message leaves, or waits 0.5 µs. -/
def ackUser (acker now : Nat) (refused : Bool) (q : List UserSend) : List UserSend :=
  if refused then
    q.map (fun u => if u.inFlight ∧ u.msg.dest = acker then { u with inFlight := false, resendAt := some (now + 1050) } else u)
  else q.filter (fun u => !(u.inFlight && u.msg.dest == acker))

/-- USER_ACK: an acknowledgement or refusal reaches the sender. -/
def execUserAck (h : Fin 214) (s : State) : Res :=
  match ((s.hub h.val).out outNodes).next true with
  | some (.class2 (.userAck sender acker refused)) =>
    let s := (s.modHubOut h.val .nodes (fun o => o.sent (.class2 (.userAck sender acker refused)))).noteWait h.val 3
    match s.physOf sender with
    | none => .next s
    | some p =>
      let s := s.modCore p (fun c => { c with node := { c.node with sendQ := ackUser acker s.now refused c.node.sendQ } })
      .next ((s.pumpUser p).releaseHsend p)
  | _ => .next s

/-- DEBUG: an internal debug message is delivered; what a node does with it is internal to the panel (R224). -/
def execHalDebug (h : Fin 214) (s : State) : Res :=
  match ((s.hub h.val).out outNodes).next true with
  | some (.class2 (.debug d x)) =>
    .next ((s.modHubOut h.val .nodes (fun o => o.sent (.class2 (.debug d x)))).noteWait h.val 3)
  | _ => .next s

/-- USER_RESEND: the refused message of a core that waits longest is sent again, 0.5 µs after its refusal. -/
def execUserResend (c : CoreIx) (s : State) : Res :=
  let p := c.val
  match ((s.core p).node.sendQ.filterMap (·.resendAt)).min? with
  | none => .next s
  | some t =>
    let s := s.advanceTo t
    let s := s.modCore p (fun c => { c with node := { c.node with
      sendQ := c.node.sendQ.map (fun u => if u.resendAt = some t then { u with resendAt := none } else u) } })
    .next ((s.bump (unitCore p) rHAL_USER_COUNT 32 32 1).pumpUser p)

end Sys2Proof.Machine
end

