-- ==== Sys2Proof/Machine/ConfigSets.lean ====
section
/-!
DEFINITION. The contents of a configuration set: loading, its canonical image, the registers it carries, and the content
that Pliwick generates (R268–R276, R202, R205, R266).
-/
namespace Sys2Proof.Machine

/-- Entry bytes and the largest entry count of a section type (R270). -/
def secBytes (ty : Nat) : Nat := ([0, 64, 32, 64, 8, 48, 8, 1, 64, 8, 16, 32, 32, 16] : List Nat).getD ty 0
def secMax (ty : Nat) : Nat :=
  ([0, 192, 256, 256, 65536, 2048, 322, 4096, 1024, 256, 64, 1024, 1023, 4096] : List Nat).getD ty 0

/-- Entry `i` of section `ty`. -/
def ConfigSet.item (c : ConfigSet) (ty i : Nat) : List Byte := c.entry ty i (secBytes ty)

/-- Every entry of a section. -/
def ConfigSet.items (c : ConfigSet) (ty : Nat) : List (List Byte) := (List.range (c.count ty)).map (c.item ty)

/-- Write entry `i` of a section. -/
def ConfigSet.setItem (c : ConfigSet) (ty i : Nat) (e : List Byte) : ConfigSet :=
  { c with sections := SMap.set [] c.sections ty (SMap.set (zeros (secBytes ty)) (SMap.get [] c.sections ty) i e) }

/-- The section holds its entries below `n`. -/
def ConfigSet.cut (c : ConfigSet) (ty n : Nat) : ConfigSet :=
  { c with
    sections := SMap.set [] c.sections ty ((SMap.get [] c.sections ty).filter (fun e => decide (e.1 < n)))
    counts := SMap.set 0 c.counts ty n }

/-- Put entries from index `i` up. -/
def ConfigSet.putItems (c : ConfigSet) (ty : Nat) : Nat → List (List Byte) → ConfigSet
  | _, [] => c
  | i, e :: es => (c.setItem ty i e).putItems ty (i + 1) es

/-- A load of entries from `first` up (R274). -/
def ConfigSet.load (c : ConfigSet) (ty first : Nat) (es : List (List Byte)) : ConfigSet :=
  ((c.cut ty first).putItems ty first es).cut ty (first + es.length)

/-! The registers of a set (R268, R276). -/

/-- The ring sizes and positions of R315. -/
def sysRing (shape d : Nat) : Nat := field shape (8 + 8 * d) 7
def sysSize (shape : Nat) : Nat := ((List.range (field shape 0 3)).map (sysRing shape)).foldl (· * ·) 1

/-- R315: a shape and positions are valid together. -/
def sysOk (shape pos : Nat) : Bool :=
  let k := field shape 0 3
  decide (k ≤ 4) && (List.range k).all (fun d => decide (2 ≤ sysRing shape d) && decide (sysRing shape d ≤ 64))
    && (List.range 4).all (fun d => decide (d < k) || sysRing shape d == 0)
    && decide (sysSize shape ≤ 4096)
    && decide (((List.range k).map (fun d => sysRing shape d / 2)).sum ≤ 16)
    && (List.range 4).all (fun d =>
      if d < k then decide (field pos (8 * d) 6 < sysRing shape d) else field pos (8 * d) 6 == 0)

/-- The register accepts the value in this set: one outside its ranges, or that its table names as ignored, changes
nothing. -/
def ConfigSet.accepts (c : ConfigSet) (u off v : Nat) : Bool :=
  if off = rMESH_DIE_CFG ∧ 0x4000 ≤ u then
    decide (16 ≤ field v 0 12) && decide (8 ≤ field v 12 6) && decide (1 ≤ field v 18 7) && decide (field v 18 7 ≤ 100)
  else if u < 0x4000 ∧ off = rMESH_CORE_CFG then field v 0 2 != 3
  else if u = unitMgmt ∧ off = rTICK_SRC then field v 0 2 != 3
  else if u = unitMgmt ∧ off = rTICK_SCHED_LEN then decide (1 ≤ field v 0 7) && decide (field v 0 7 ≤ 64)
  else if u = unitMgmt ∧ off = rPWR_CAP then decide (400 ≤ field v 0 16) && decide (field v 0 16 ≤ 1800)
  else if u = unitMgmt ∧ off = rVLNK_SYS_SHAPE then sysOk v (c.reg u rVLNK_SYS_POS)
  else if u = unitMgmt ∧ off = rVLNK_SYS_POS then sysOk (c.reg u rVLNK_SYS_SHAPE) v
  else true

/-- The RWT bits of a register. -/
def rwtMask (u off : Nat) : Nat := ((regRow? u off).map RegRow.rwt).getD 0

/-- `MESH_ROUTE` is an RWT register that Pliwick generates (R202, R268). -/
def isGenerated (u off : Nat) : Bool := 0x4000 ≤ u && decide (rMESH_ROUTE ≤ off) && decide (off < rMESH_ROUTE + 4 * 202)

/-- Write the RWT bits of a register of a set, when it accepts the value. -/
def ConfigSet.putRwt (c : ConfigSet) (u off v : Nat) : ConfigSet :=
  let m := rwtMask u off
  if c.accepts u off v then c.setReg u off ((c.reg u off - (c.reg u off &&& m)) + (v &&& m)) else c

/-- The register that SCHEDULE entry `i` loads (R270). -/
def schedReg (i : Nat) : Nat :=
  if i = 0 then rTICK_SCHED_LEN
  else if i = 1 then rTICK_SRC
  else if i < 66 then rTICK_SCHED + 8 * (i - 2)
  else rTICK_PHASE + 8 * (i - 66)

/-- The holder and offset of the register at a panel address, under the set's own placement. -/
def ConfigSet.regHolder (c : ConfigSet) (a : Nat) : Option (Nat × Nat) :=
  match c.target a with
  | some (.coreReg d l o) => (c.coreIx d l).map (fun p => (unitCore p, o))
  | some (.dieReg d o) => (c.site d).map (fun site => (unitDie site, o))
  | some (.edge e o) => some (unitEdge e, o)
  | _ => none

/-- The registers that the set's SCHEDULE, POWER and REGS entries carry, written in order. -/
def ConfigSet.applyRegs (c : ConfigSet) : ConfigSet :=
  let c := (List.range (c.count 6)).foldl (fun (c : ConfigSet) i => c.putRwt unitMgmt (schedReg i) (leAt (c.item 6 i) 0 8)) c
  let c := if 0 < c.count 9 then c.putRwt unitMgmt rPWR_CAP (leAt (c.item 9 0) 0 2) else c
  (List.range (c.count 13)).foldl (fun (c : ConfigSet) i =>
    match c.regHolder (leAt (c.item 13 i) 0 8) with
    | some (u, o) => if isGenerated u o then c else c.putRwt u o (leAt (c.item 13 i) 8 8)
    | none => c) c

/-- A direct write of a register shows in the entries that carry it, so that the image holds the register's value. -/
def ConfigSet.noteRwt (c : ConfigSet) (u off : Nat) : ConfigSet :=
  let v := leBytes 8 (c.reg u off)
  let c := if u = unitMgmt then
      (List.range (c.count 6)).foldl (fun (c : ConfigSet) i => if schedReg i = off then c.setItem 6 i v else c) c
    else c
  let c := if u = unitMgmt ∧ off = rPWR_CAP ∧ 0 < c.count 9 then
      c.setItem 9 0 (patchBytes (c.item 9 0) 0 (v.take 2)) else c
  (List.range (c.count 13)).foldl (fun (c : ConfigSet) i =>
    if c.regHolder (leAt (c.item 13 i) 0 8) = some (u, off) then c.setItem 13 i (patchBytes (c.item 13 i) 8 v) else c) c

/-- A tack takes effect in this cycle and has not yet done so. -/
def State.tackDue (s : State) : Bool :=
  match s.gen.class0 with
  | some (.tack _, t) => decide (t ≤ s.now)
  | _ => false

/-- R6, R276: a direct write of the RWT bits of a register. In the cycle of a tack it lands in the set that is shadow after
the tack (R7). -/
def State.writeRwt (s : State) (u off v : Nat) : State :=
  if s.tackDue then { s with cfg := { s.cfg with met := s.cfg.met ++ [(u, off, v)] } }
  else if s.cfg.pending && s.cfg.swappedAt != some s.now then { s with cfg := { s.cfg with lockedWrites := satAdd 16 s.cfg.lockedWrites 1 } }
  else if isGenerated u off then
    { s with
      shadow := { s.shadow with routes := SMap.set none s.shadow.routes (regKey u off) (some (v &&& rwtMask u off)) }
      cfg := { s.cfg with isSealed := false } }
  else if s.shadow.accepts u off v then
    { s with shadow := (s.shadow.putRwt u off v).noteRwt u off, cfg := { s.cfg with isSealed := false } }
  else s

/-! The canonical image (R269). -/

def up64 (x : Nat) : Nat := ceilDiv x 64 * 64
def padded (bs : List Byte) : List Byte := bs ++ zeros (up64 bs.length - bs.length)

/-- The types of the sections that hold entries. -/
def ConfigSet.types (c : ConfigSet) : List Nat := ((List.range 14).filter (fun t => decide (0 < c.count t)))

def ConfigSet.secData (c : ConfigSet) (ty : Nat) : List Byte := (c.items ty).flatten

/-- The section table: type, count and offset of each section. -/
def ConfigSet.table (c : ConfigSet) : Nat → List Nat → List Byte
  | _, [] => []
  | off, ty :: tys =>
    leBytes 1 ty ++ zeros 3 ++ leBytes 4 (c.count ty) ++ leBytes 8 off
      ++ c.table (off + up64 (c.count ty * secBytes ty)) tys

/-- The bytes that the digest covers. -/
def ConfigSet.image (c : ConfigSet) : List Byte :=
  let tys := c.types
  let start := up64 (64 + 16 * tys.length)
  let data := tys.flatMap (fun ty => padded (c.secData ty))
  let head := leBytes 4 0x4746434B ++ leBytes 2 1 ++ leBytes 1 tys.length ++ zeros 1 ++ leBytes 8 (start + data.length) ++ zeros 48
  padded (head ++ c.table start tys) ++ data

/-! Generated content. -/

/-- The working graph now: holes and failed edge dies, and the links that are fenced (R202, R513). -/
def State.workGraph (s : State) : Graph :=
  { holes := s.boot.badSites ++ s.boot.badEdges.map (· + 204), fenced := s.mesh.fenced }

/-- Merge a page run into runs of one die and slot that it touches; runs are (base, end). -/
def mergeRun (r : Nat × Nat) : List (Nat × Nat) → List (Nat × Nat)
  | [] => [r]
  | x :: xs =>
    if r.2 < x.1 then r :: x :: xs
    else if x.2 < r.1 then x :: mergeRun r xs
    else mergeRun (min r.1 x.1, max r.2 x.2) xs

/-- The worlds that contribute to the run-ahead table (R266). -/
def State.raWorlds (s : State) : List (Nat × World) :=
  s.worlds.table.filter (fun e => e.2.slots == 3 && (e.2.state == 1 || e.2.state == 2))

/-- The runs of one slot of the 3-slot worlds of a die. -/
def State.slotRuns (s : State) (d k : Nat) : List (Nat × Nat) :=
  (s.raWorlds.filter (fun e => e.2.stateBase / 2 ^ 36 == d)).foldl (fun runs e =>
    let b := (e.2.stateBase % 2 ^ 36 + k * e.2.slotStride) / 4096
    mergeRun (b, b + ceilDiv e.2.slotBytes 4096) runs) []

/-- The run-ahead range table: the speculative segments, then the slots by die. -/
def State.raEntries (s : State) (c : ConfigSet) : List RaRange :=
  (c.items 10).map (fun e => { die := leAt e 0 1, basePg := leAt e 4 4, pages := leAt e 8 4, kind := 1, slot := 0 })
    ++ (List.range 3).flatMap (fun k => (List.range 192).flatMap (fun d =>
      (s.slotRuns d k).map (fun r => { die := d, basePg := r.1, pages := r.2 - r.1, kind := 2, slot := k })))

/-- The spare cores that are retired or dark (R30). -/
def State.goneSpares (s : State) : List Nat :=
  (List.range Config.sites).flatMap (fun v => ([22, 27] : List Nat).filterMap (fun p =>
    if s.boot.badCores.contains (v * 50 + p) || s.coreDown (v * 50 + p) then some (v * 50 + p) else none))

/-- Step 1 of R275. -/
def State.generate (s : State) (c : ConfigSet) : ConfigSet :=
  { c.applyRegs with graph := s.workGraph, raTable := s.raEntries c, routes := [], gone := s.goneSpares }

end Sys2Proof.Machine
end

