-- ==== Sys2Proof/Machine/ConfigCheck.lean ====
section
/-!
DEFINITION. The checks of a seal (R277), in their order. `auto` is a seal by Pliwick itself for an automatic tack (R281),
which leaves out the vacancy, image-copy and digest checks: R386 lets it make a core vacant that holds a launch entry, and
R442 places a die on a site whose DRAM holds nothing yet.
-/
namespace Sys2Proof.Machine

/-- A failure: code, section type, entry. -/
abbrev SealFail := Nat × Nat × Nat

/-- The first entry of a section that a test fails. -/
def ConfigSet.firstBad (c : ConfigSet) (code ty : Nat) (ok : Nat → List Byte → Bool) : Option SealFail :=
  ((List.range (c.count ty)).find? (fun i => !ok i (c.item ty i))).map (fun i => (code, ty, i))

/-- The first failure of a list of checks. -/
def firstFail : List (Option SealFail) → Option SealFail
  | [] => none
  | some f :: _ => some f
  | none :: l => firstFail l

def failIf (b : Bool) (code ty i : Nat) : Option SealFail := if b then some (code, ty, i) else none

/-- Bits of a byte from bit `lo` up are zero. -/
def topZero (e : List Byte) (o n lo : Nat) : Bool := leAt e o n / 2 ^ lo == 0

/-- The reserved fields of an entry are zero (R270–R273, R289, R390, R440, R213). -/
def reservedOk (ty i : Nat) (e : List Byte) : Bool :=
  if ty = 1 then zeroAt e 1 7 && zeroAt e 56 8
  else if ty = 2 then topZero e 0 1 2 && topZero e 2 2 14 && topZero e 4 2 14 && zeroAt e 6 26
  else if ty = 3 then zeroAt e 12 4
  else if ty = 4 then topZero e 0 8 44
  else if ty = 5 then
    topZero e 0 2 14 && zeroAt e 3 13 && topZero e 24 1 3 && topZero e 25 1 2 && topZero e 26 2 10 && topZero e 28 2 14
      && topZero e 30 2 14 && zeroAt e 36 12
  else if ty = 6 then
    topZero e 0 8 (if i = 0 then 7 else if i = 1 then 3 else if i < 66 then 50 else 26)
  else if ty = 8 then
    topZero e 0 1 5 && topZero e 1 1 6 && topZero e 2 1 4 && topZero e 3 1 6 && topZero e 12 1 7 && zeroAt e 14 2
      && zeroAt e 62 2
  else if ty = 9 then topZero e 0 8 (if i = 0 then 16 else 8)
  else if ty = 10 then zeroAt e 1 3 && zeroAt e 12 4
  else if ty = 11 then topZero e 0 2 14 && topZero e 2 1 2 && zeroAt e 3 1 && zeroAt e 24 8
  else if ty = 12 then topZero e 30 1 2 && zeroAt e 31 1
  else true

/-! Placement (code 3). -/

/-- A physical core works: it has not failed, and its region is not dark (R385). -/
def State.coreWorks (s : State) (site p : Nat) : Bool :=
  !s.boot.badCores.contains (site * 50 + p) && s.regionState site (regionOf p) != 3

/-- The site byte and the core map of logical die `d`. -/
def ConfigSet.siteByte (c : ConfigSet) (d : Nat) : Nat := if d < c.count 1 then leAt (c.item 1 d) 0 1 else 0xFF
def ConfigSet.physByte (c : ConfigSet) (d l : Nat) : Nat := leAt (c.item 1 d) (8 + l) 1

/-- A logical core may run on its default core or a spare of its die (R25). -/
def mayRun (l p : Nat) : Bool := p == defaultPhys l || p == 22 || p == 27

def State.placeOk (s : State) (c : ConfigSet) (d : Nat) : Bool :=
  let v := c.siteByte d
  if v = 0xFF then
    s.feature 3 && (!decide (d < c.count 1) || (List.range 48).all (fun l => c.physByte d l == 0xFF))
  else
    decide (v < 204) && (v == defaultSite d || isSpareSite v) && !s.boot.badSites.contains v
      && (List.range d).all (fun x => c.siteByte x != v)
      && (List.range 48).all (fun l =>
        let p := c.physByte d l
        p == 0xFF || (decide (p < 50) && mayRun l p && s.coreWorks v p
          && (List.range l).all (fun k => c.physByte d k != p)))

/-! Trees (code 4). -/

/-- A tree spans every mapped die and every edge die that works. -/
def ConfigSet.spans (c : ConfigSet) (root : Nat) : Bool :=
  let lv := c.graph.levels root
  ((List.range 192).filterMap c.site).all (fun v => SMap.get 0 lv v != 0)
    && (List.range 10).all (fun e => c.graph.holes.contains (204 + e) || SMap.get 0 lv (204 + e) != 0)

/-- No route written into the set holds an invalid exit code, 5 or 6 (R220). -/
def ConfigSet.exitsOk (c : ConfigSet) : Bool :=
  c.routes.all (fun e => e.2.all (fun v => [0, 4, 8].all (fun lo => field v lo 3 != 5 && field v lo 3 != 6)))

def ConfigSet.treesOk (c : ConfigSet) : Bool :=
  c.exitsOk && c.spans halRoot && (match c.graph.escRoot with
    | none => false
    | some r => c.spans r)

/-! Schedule (code 5). -/

/-- The value of SCHEDULE entry `i`: the entry, or the register where the section does not hold it. -/
def ConfigSet.schedVal (c : ConfigSet) (i : Nat) : Nat :=
  if i < c.count 6 then leAt (c.item 6 i) 0 8 else c.reg unitMgmt (schedReg i)

def ConfigSet.phaseVal (c : ConfigSet) (g p : Nat) : Nat := c.schedVal (66 + 16 * g + p)
def ConfigSet.phaseOn (c : ConfigSet) (g p : Nat) : Bool := bit (c.phaseVal g p) 24
def ConfigSet.phaseOff (c : ConfigSet) (g p : Nat) : Nat := field (c.phaseVal g p) 0 24

/-- R240 for a program that an entry of this period names. -/
def ConfigSet.progOk (c : ConfigSet) (g period : Nat) : Bool :=
  c.phaseOn g 0 && c.phaseOff g 0 == 0
    && (List.range 15).all (fun p => !c.phaseOn g (p + 1)
      || (c.phaseOn g p && decide (c.phaseOff g p < c.phaseOff g (p + 1))))
    && (List.range 16).all (fun p => !c.phaseOn g p || decide (c.phaseOff g p < period))

def ConfigSet.schedOk (c : ConfigSet) (i : Nat) : Bool :=
  let v := c.schedVal (2 + i)
  decide (1000 ≤ field v 0 24) && decide (field v 0 24 ≤ 10000000) && decide (field v 24 6 ≤ 50)
    && c.progOk (field v 30 4) (field v 0 24)

def State.checkSched (s : State) (c : ConfigSet) : Option SealFail :=
  let len := c.schedVal 0
  firstFail [
    failIf (len = 0 || decide (64 < len)) 5 6 0, failIf (field (c.schedVal 1) 0 2 == 3) 5 6 1,
    ((List.range len).find? (fun i => !c.schedOk i)).map (fun i => (5, 6, 2 + i)),
    if s.feature 0 then none
    else ((List.range 256).find? (fun i => bit (c.schedVal (66 + i)) 24 && bit (c.schedVal (66 + i)) 25)).map
      (fun i => (5, 6, 66 + i)) ]

/-! Patches and launches (code 6). -/

def ConfigSet.patchValid (c : ConfigSet) (g : Nat) : Bool := decide (g < c.count 2) && bit (leAt (c.item 2 g) 0 1) 0

/-- The core, the key and the patch of a launch entry. -/
def launchCore (e : List Byte) : Nat := field (leAt e 0 8) 0 14
def launchKey (e : List Byte) : Nat := launchCore e * 256 + field (leAt e 0 8) 14 4 * 16 + field (leAt e 0 8) 18 4
def launchPatch (e : List Byte) : Nat := field (leAt e 0 8) 36 8

/-- The distinct cores that hold launch entries of a patch. -/
def ConfigSet.patchCores (c : ConfigSet) (g : Nat) : List Nat :=
  ((c.items 4).filter (fun e => launchPatch e == g)).foldl (fun l e => insertAsc (launchCore e) l) []

def ConfigSet.checkPatches (c : ConfigSet) (auto : Bool) : Option SealFail :=
  firstFail [
    c.firstBad 6 4 (fun i e =>
      c.patchValid (launchPatch e) && (auto || (c.coreOf (launchCore e)).isSome)
        && (i == 0 || decide (launchKey (c.item 4 (i - 1)) ≤ launchKey e))
        && (decide (i < 16) || launchKey (c.item 4 (i - 16)) != launchKey e)),
    c.firstBad 6 7 (fun _ e => c.patchValid (leAt e 0 1)),
    c.firstBad 6 5 (fun _ e => c.patchValid (leAt e 2 1)),
    c.firstBad 6 2 (fun i e => !c.patchValid i
      || (decide (leAt e 1 1 < c.count 3) && leAt e 2 2 == (c.patchCores i).length)) ]

/-! Image copies (code 7). -/

/-- The copy of an image on a die lies in its DRAM and matches its digest; one with a poisoned or a retired line cannot be
read, and does not match. -/
def State.copyOk (s : State) (c : ConfigSet) (image d : Nat) : Bool :=
  let e := c.item 3 image
  let base := leAt e 0 8
  let len := leAt e 8 4
  match c.site d with
  | none => true
  | some site =>
    decide (base % 64 = 0) && decide (base + len ≤ Config.dramSize)
      && (List.range (ceilDiv len 64)).all (fun i => ((s.dram site).read (base + 64 * i) 64).1 == stOk)
      && sha384 (SMap.getRange 0 (s.dram site).bytes base len) == e.drop 16

def State.checkCopies (s : State) (c : ConfigSet) : Option SealFail :=
  c.firstBad 7 2 (fun g e => !c.patchValid g
    || ((c.patchCores g).foldl (fun l x => insertAsc (x / 48) l) []).all (fun d => s.copyOk c (leAt e 1 1) d))

/-! Window templates (code 8). -/

def tmplCore (e : List Byte) : Nat := field (leAt e 0 2) 0 14
def tmplDesc (e : List Byte) : WinDesc := winDesc (e.drop 16)

/-- Two templates of one core overlap. -/
def tmplOverlap (a b : List Byte) : Bool :=
  let x := tmplDesc a
  let y := tmplDesc b
  tmplCore a == tmplCore b && decide (x.base < y.base + y.bound) && decide (y.base < x.base + x.bound)

def ConfigSet.checkTemplates (c : ConfigSet) (auto : Bool) : Option SealFail :=
  c.firstBad 8 5 (fun i e =>
    let x := tmplDesc e
    let before := ((c.items 5).take i).filter (fun y => tmplCore y == tmplCore e)
    let slots := ((before ++ [e]).map (fun y => let d := tmplDesc y; if d.channel then d.bound / d.slotBytes else 0)).sum
    winDescOk (e.drop 16) && x.persist && decide (x.base + x.bound ≤ Config.spadSize)
      && decide (tmplCore e ≤ 9215) && (auto || (c.coreOf (tmplCore e)).isSome)
      && decide (before.length < 32) && before.all (fun y => !tmplOverlap y e) && decide (slots ≤ 1024))

/-! The run-ahead table, buckets, power, reloads, groups, registers (codes 9–14). -/

def State.checkRa (s : State) (c : ConfigSet) : Option SealFail :=
  firstFail [
    c.firstBad 9 10 (fun _ e => (c.site (leAt e 0 1)).isSome && decide (leAt e 4 4 + leAt e 8 4 ≤ 2 ^ 22)),
    failIf (s.raWorlds.any (fun e => e.2.stateBase % 4096 != 0)) 9 10 0,
    failIf (decide (64 < c.raTable.length)) 9 10 0 ]

/-- The fields of a bucket descriptor and the rules of R291 for one bucket. -/
def ConfigSet.bucketOk (c : ConfigSet) (b : List Byte) : Bool :=
  let n := bkElements b
  let size := if bkFp32Out b then n * 4 else n * 8
  let members := (List.range 192).filter (bkMember b)
  decide (1 ≤ bkH b) && decide (bkH b ≤ 32) && decide (1 ≤ bkPerDie b) && decide (bkPerDie b ≤ 48) && bkProgs b != 0
    && decide (-126 ≤ bkSFixed b) && decide (bkSFixed b ≤ 128) && decide (n % 8 = 0) && decide (8 ≤ n)
    && decide (n ≤ 2097152) && decide (1 ≤ bkWindow b) && decide (bkWindow b ≤ 64) && decide (bkRoot b < 192)
    && decide (bkResult b % 64 = 0) && decide (bkStage b % 64 = 0) && (bkPanels b != 1 || bkStage b == 0)
    && !members.isEmpty && decide (1 ≤ bkPanels b) && decide (bkPanels b ≤ 4096) && decide (bkDeadline b ≤ 10000000)
    && decide (members.length * bkPerDie b * bkPanels b ≤ 2 ^ bkH b)
    && members.all (fun d => (c.site d).isSome) && (c.site (bkRoot b)).isSome
    && bkPanels b == sysSize (c.reg unitMgmt rVLNK_SYS_SHAPE)
    && decide (bkResult b + up64 size + 64 ≤ Config.dramSize)
    && (bkPanels b == 1 || decide (bkStage b + n * 8 ≤ Config.dramSize))

/-- The line credits of the buckets of a program up to entry `i`. -/
def ConfigSet.windowSum (c : ConfigSet) (g i : Nat) : Nat :=
  (((c.items 8).take (i + 1)).map (fun b => if bkValid b && bit (bkProgs b) g then bkWindow b else 0)).sum

/-- Code 10, with PAIRED only under BACKUP_PAIRING (R356). -/
def State.checkBuckets (s : State) (c : ConfigSet) : Option SealFail :=
  c.firstBad 10 8 (fun i b => !bkValid b
    || ((!bkPaired b || s.feature 2) && c.bucketOk b && (List.range 16).all (fun g => !bit (bkProgs b) g || decide (c.windowSum g i ≤ 512))))

def ConfigSet.checkPower (c : ConfigSet) : Option SealFail :=
  firstFail [
    failIf (decide (193 < c.count 9)) 11 9 193,
    c.firstBad 11 9 (fun i e =>
      if i = 0 then decide (400 ≤ leAt e 0 2) && decide (leAt e 0 2 ≤ 1800) else leAt e 0 1 != 0) ]

def reloadCore (e : List Byte) : Nat := field (leAt e 0 2) 0 14

def reloadOk (e : List Byte) : Bool :=
  let core := reloadCore e
  let n := leAt e 2 1
  let bytes := leAt e 8 4
  let stride := leAt e 12 4
  let base := leAt e 16 8
  decide (core ≤ 9215) && (n == 2 || n == 3) && decide (leAt e 4 4 % 64 = 0) && decide (bytes % 64 = 0)
    && decide (64 ≤ bytes) && decide (leAt e 4 4 + bytes ≤ Config.spadSize) && decide (stride % 4096 = 0)
    && decide (bytes ≤ stride) && decide (base % 4096 = 0) && base / 2 ^ 36 == core / 48
    && decide (base % 2 ^ 36 + (n - 1) * stride + bytes ≤ Config.dramSize)

def ConfigSet.checkReloads (c : ConfigSet) : Option SealFail :=
  c.firstBad 12 11 (fun i e => reloadOk e && ((c.items 11).take i).all (fun y =>
    reloadCore y != reloadCore e || !(decide (leAt e 4 4 < leAt y 4 4 + leAt y 8 4)
      && decide (leAt y 4 4 < leAt e 4 4 + leAt e 8 4))))

def ConfigSet.checkGroups (c : ConfigSet) : Option SealFail :=
  c.firstBad 13 12 (fun _ e => !bit (leAt e 30 1) 0 || zeroAt e 24 6)

/-- R274, R277: the entry names an RWT register that is not generated, with a value that the register takes. -/
def ConfigSet.regsOk (c : ConfigSet) (e : List Byte) : Bool :=
  match c.regHolder (leAt e 0 8) with
  | none => false
  | some (u, o) =>
    let v := leAt e 8 8
    rwtMask u o != 0 && !isGenerated u o && v &&& rwtMask u o == v && c.accepts u o v

def ConfigSet.checkRegs (c : ConfigSet) : Option SealFail := c.firstBad 14 13 (fun _ e => c.regsOk e)

/-- The first failure of the seal of a generated set; `digest` is the host's (none: Pliwick's own seal). -/
def State.sealFail (s : State) (c : ConfigSet) (digest : Option (List Byte)) : Option SealFail :=
  let auto := digest.isNone
  firstFail [
    failIf c.types.isEmpty 1 0 0,
    firstFail (c.types.map (fun ty => c.firstBad 2 ty (reservedOk ty))),
    ((List.range 192).find? (fun d => !s.placeOk c d)).map (fun d => (3, 1, d)),
    failIf (!c.treesOk) 4 1 0,
    s.checkSched c,
    c.checkPatches auto,
    if auto then none else s.checkCopies c,
    c.checkTemplates auto,
    s.checkRa c, s.checkBuckets c, c.checkPower, c.checkReloads, c.checkGroups, c.checkRegs,
    failIf (field (c.reg unitMgmt rVLNK_SYS_SHAPE) 0 3 != 0 && !s.feature 13) 14 13 0,
    match digest with
    | none => none
    | some d => failIf (sha384 c.image != d) 15 0 0 ]

/-! The outcome of a seal (R275). -/

/-- The first failure is recorded in `CFG_ERROR`. -/
def State.recordSeal (s : State) (f : SealFail) : State :=
  s.setReg unitMgmt rCFG_ERROR (f.1 + 2 ^ 8 * f.2.1 + 2 ^ 16 * f.2.2 + 2 ^ 63)

/-- The generated set is sealed with this digest. -/
def State.sealed (s : State) (c : ConfigSet) (digest : List Byte) (amended : Bool) : State :=
  { s with
    shadow := { c with digest := digest }
    cfg := { s.cfg with isSealed := true, dirty := 0, amended := amended } }

/-- The regions that a set uses, through its launch entries, and that are not on (R383). -/
def State.wantedRegions (s : State) (c : ConfigSet) : List (Nat × Nat) :=
  let used := (c.items 4).filterMap (fun e => (c.coreOf (launchCore e)).map (fun p => (p / 50) * 10 + regionOf p))
  ((used.foldl (fun l k => insertAsc k l) []).map (fun k => (k / 10, k % 10))).filter (fun e => s.regionState e.1 e.2 != 2)

/-- The turn-on of a region is requested. -/
def State.requestOn (s : State) (e : Nat × Nat) : State := s.setFld (unitDie e.1) rPWR_REGION_CTRL e.2 1 1

end Sys2Proof.Machine
end

