-- ==== Sys2Proof/Machine/ConfigTack.lean ====
section
/-!
DEFINITION. Automatic tacks (R25, R27, R281, R386), and the steps of a tack (R273, R278, R279).
-/
namespace Sys2Proof.Machine

/-! The remap (R25, R27). -/

/-- The least displacement of a die to the free sites, and its site; the lower row on a tie. -/
def nearestSite (d : Nat) (free : List Nat) : Option (Nat × Nat) :=
  free.foldl (fun best v =>
    match best with
    | none => some (displacement d v, v)
    | some b => if displacement d v < b.1 then some (displacement d v, v) else some b) none

/-- The die that R27 places next: (displacement, die, site). -/
def nextPlaced (dies free : List Nat) : Option (Nat × Nat × Nat) :=
  dies.foldl (fun best d =>
    match nearestSite d free, best with
    | some (x, v), none => some (x, d, v)
    | some (x, v), some b => if x < b.1 then some (x, d, v) else some b
    | none, b => b) none

/-- The entry of a die on a site with these physical cores. -/
def placeEntry (site : Nat) (phys : List Nat) : List Byte :=
  leBytes 1 site ++ zeros 7 ++ phys.map (BitVec.ofNat 8) ++ zeros 8

/-- R27: the unplaced dies take spare sites, on their default cores; with no free site a die becomes unmapped if
REDUCED_SIZE is negotiated, and else keeps its place (R442). -/
def State.placeDies (s : State) : Nat → ConfigSet → List Nat → ConfigSet
  | 0, c, _ => c
  | n + 1, c, dies =>
    match nextPlaced dies (s.freeSites c) with
    | some (_, d, v) =>
      s.placeDies n (c.setItem 1 d (placeEntry v ((List.range 48).map defaultPhys))) (dies.filter (· != d))
    | none =>
      if s.feature 3 then dies.foldl (fun (c : ConfigSet) d => c.setItem 1 d (placeEntry 0xFF (List.replicate 48 0xFF))) c
      else c

/-- On-die hops between two routers. -/
def coreHops (p q : Nat) : Nat :=
  (max (coreX p) (coreX q) - min (coreX p) (coreX q)) + (max (coreY p) (coreY q) - min (coreY p) (coreY q))

/-- R25: the spare core that a logical core moves to: nearest to the failed core, the lower index on a tie. -/
def State.spareFree (s : State) (c : ConfigSet) (d site failed : Nat) : Option Nat :=
  let free := ([22, 27] : List Nat).filter (fun p => s.coreWorks site p && (List.range 48).all (fun l => c.physByte d l != p))
  match free with
  | [a, b] => some (if coreHops failed b < coreHops failed a then b else a)
  | l => l.head?

/-- The logical cores of a die on cores that do not work move to spare cores, in ascending order, or become vacant (R386,
R439). -/
def State.moveCores (s : State) (c : ConfigSet) (d : Nat) : ConfigSet :=
  match c.site d with
  | none => c
  | some site =>
    (List.range 48).foldl (fun (c : ConfigSet) l =>
      let p := c.physByte d l
      if p = 0xFF || s.coreWorks site p then c
      else
        let v := (s.spareFree c d site p).getD 0xFF
        c.setItem 1 d (patchBytes (c.item 1 d) (8 + l) [BitVec.ofNat 8 v])) c

/-- The RWT registers that a set holds for one part are held for another. -/
def ConfigSet.copyRegs (c : ConfigSet) (u v : Nat) : ConfigSet :=
  (c.regs.filter (fun e => e.1 / 0x100000000 == u)).foldl (fun (c : ConfigSet) e => c.setReg v (e.1 % 0x100000000) e.2) c

/-- The RWT registers follow a die or core that has moved. -/
def ConfigSet.followRegs (old new : ConfigSet) : ConfigSet :=
  (List.range 192).foldl (fun (c : ConfigSet) d =>
    match old.site d, new.site d with
    | some a, some b =>
      let c := if a = b then c else c.copyRegs (unitDie a) (unitDie b)
      (List.range 48).foldl (fun (c : ConfigSet) l =>
        match old.coreIx d l, new.coreIx d l with
        | some p, some q => if p = q then c else c.copyRegs (unitCore p) (unitCore q)
        | _, _ => c) c
    | _, _ => c) new

/-- The remap of a set for the failures now known. -/
def State.remapSet (s : State) (c : ConfigSet) : ConfigSet :=
  let lost := (List.range 192).filter (fun d =>
    match c.site d with
    | none => false
    | some v => s.boot.badSites.contains v)
  let placed := s.placeDies 192 c lost
  c.followRegs ((List.range 192).foldl (fun (c : ConfigSet) d => s.moveCores c d) placed)

/-- A launch entry names a vacant core (R386). -/
def ConfigSet.vacantLaunch (c : ConfigSet) : Bool := (c.items 4).any (fun e => (c.coreOf (launchCore e)).isNone)

/-- What a remap changes: logical cores moved to a spare core of their die (die, logical core, spare), and dies placed on
another site. -/
def coresMoved (old new : ConfigSet) : List (Nat × Nat × Nat) :=
  (List.range 192).flatMap (fun d =>
    if (new.site d).isNone || old.site d != new.site d then []
    else (List.range 48).filterMap (fun l =>
      match new.phys d l with
      | some p => if old.phys d l = some p then none else some (d, l, p)
      | none => none))
def diesMoved (old new : ConfigSet) : List (Nat × Nat) :=
  (List.range 192).filterMap (fun d =>
    match new.site d with
    | some v => if old.site d = some v then none else some (d, v)
    | none => none)

/-- The log entries and events of a remap (R422, R439, R442). -/
def State.noteRemap (s : State) (old new : ConfigSet) : State :=
  let s := (diesMoved old new).foldl (fun (s : State) e => s.appendLog 2 e.2 0 e.1) s
  (coresMoved old new).foldl (fun (s : State) e =>
    let site := (new.site e.1).getD 0
    (s.appendLog 4 site e.2.2 e.2.1).raise .degraded 0xB1 ⟨site, 0x3F, false, 0⟩ none (e.2.1 + 2 ^ 8 * e.2.2)) s

/-! Acceptance (R278, R281). -/

/-- A tack of the sealed shadow set is accepted. -/
def State.acceptTack (s : State) (auto : Bool) (cmd : Option (Nat × Nat)) (halt : Bool) : State :=
  { s with
    maint := { s.maint with recovery := s.maint.recovery || auto }
    cfg := { s.cfg with
      pending := true, locked := true, auto := auto, drain := false, command := cmd, halt := halt, boundaryAt := none,
      tackSent := none, swappedAt := none } }

/-- R281: the automatic tack that follows a loss. While a host tack waits, its set is amended; once a tack has been sent,
another follows it. -/
def State.autoTack (s : State) (halt : Bool) : State :=
  if s.cfg.tackSent.isSome then
    let s := { s with cfg := { s.cfg with autoQ := true } }
    if halt then s.haltTicking else s
  else
    let host := s.cfg.pending && !s.cfg.auto
    let base := if host then s.shadow else s.active
    let c := s.generate (s.remapSet base)
    match s.sealFail c none with
    | some f =>
      let s := s.recordSeal f
      let s := if host then s else { s with shadow := c, cfg := { s.cfg with isSealed := false } }
      if halt then s.haltTicking else s
    | none =>
      let s := (s.sealed c (sha384 c.image) host).noteRemap base c
      let s := s.raise .degraded 0x41 .none none 0
      if s.cfg.pending then { s with cfg := { s.cfg with halt := s.cfg.halt || halt } }
      else s.acceptTack true none halt

/-! The boundary (R273, R278, R279). -/

/-- No started tick runs, and no class-0 message is on its way. -/
def State.atBoundary (s : State) : Bool :=
  s.gen.class0.isNone && s.gen.class0Q.isEmpty && (s.gen.ticks.isEmpty || !s.ticking)

/-- The tack changes placement, holes, `MESH_ROUTE` or a tree. -/
def State.tackDrains (s : State) : Bool :=
  decide (s.active.graph ≠ s.shadow.graph) || decide ((List.range 192).map s.active.siteByte ≠ (List.range 192).map s.shadow.siteByte)
    || (List.range 192).any (fun d => decide ((List.range 48).map (s.active.phys d) ≠ (List.range 48).map (s.shadow.phys d)))

/-- Every router and station is empty. -/
def State.drained (s : State) : Bool :=
  s.mesh.packets.all (fun e =>
    match e.2 with
    | some x =>
      x.place == .inject
    | none => true)

/-- The templates that the new set gives the core `p`. -/
def ConfigSet.templatesOf (c : ConfigSet) (p : Nat) : List (List Byte) :=
  (c.items 5).filter (fun e => c.coreOf (tmplCore e) == some p)

/-- The template windows that close: those of the old set that the new one does not repeat. -/
def Spad.oldTemplates (sp : Spad) (new : List (List Byte)) : List Nat :=
  (List.range 32).filter (fun w => let x := sp.win w
    x.isOpen && !x.tmpl.isEmpty && !new.contains x.tmpl)

/-- A template that opens anew. -/
def Spad.opensNew (sp : Spad) (e : List Byte) : Bool :=
  !(List.range 32).any (fun w => let x := sp.win w; x.isOpen && !x.closing && x.tmpl == e)

/-- The task windows that overlap a template that opens anew. -/
def Spad.inTheWay (sp : Spad) (new : List (List Byte)) : List Nat :=
  (List.range 32).filter (fun w => let x := sp.win w
    x.isOpen && x.tmpl.isEmpty && new.any (fun e => let d := tmplDesc e
      sp.opensNew e && decide (d.base < x.base + x.bound) && decide (x.base < d.base + d.bound)))

def Window.slots (x : Window) : Nat := if x.isOpen && x.channel then x.credits else 0

/-- The new templates fit beside the windows that `gone` leaves open: free windows and channel slots. -/
def Spad.fits (sp : Spad) (new : List (List Byte)) (gone : List Nat) : Bool :=
  let open_ := (List.range 32).filter (fun w => (sp.win w).isOpen && !gone.contains w)
  let add := new.filter sp.opensNew
  let addSlots := (add.map (fun e => let d := tmplDesc e; if d.channel then d.bound / d.slotBytes else 0)).sum
  decide (open_.length + add.length ≤ 32)
    && decide ((open_.map (fun w => (sp.win w).slots)).sum + addSlots ≤ 1024)

/-- The task windows that close besides, the highest number first, until the templates fit. -/
def Spad.evict (sp : Spad) (new : List (List Byte)) (gone : List Nat) : Nat → List Nat
  | 0 => []
  | w + 1 =>
    let x := sp.win w
    if sp.fits new gone then []
    else if x.isOpen && x.tmpl.isEmpty && !gone.contains w then w :: sp.evict new (w :: gone) w
    else sp.evict new gone w

/-- The closes of R273 on core `p`, as far as they have not begun. -/
def State.tackCloses (s : State) (p : Nat) : State :=
  let new := s.shadow.templatesOf p
  let sp := s.spad p
  let must := sp.oldTemplates new ++ sp.inTheWay new
  let closing := (List.range 32).filter (fun w => (sp.win w).isOpen && (sp.win w).closing)
  let more := sp.evict new (must ++ closing) 32
  let s := more.foldl (fun (s : State) w =>
    s.raiseCore p 0 .info 0x15 none (w + 2 ^ 16 * (sp.win w).gen.toNat) false) s
  (must ++ more).foldl (fun (s : State) w => if ((s.spad p).win w).closing then s else s.beginClose p w) s

/-- The closes on core `p` are complete, and its templates fit. -/
def State.closesDone (s : State) (p : Nat) : Bool :=
  let new := s.shadow.templatesOf p
  let sp := s.spad p
  (sp.oldTemplates new).isEmpty && (sp.inTheWay new).isEmpty && sp.fits new []

/-- TACK_BOUNDARY, as far as it can go now: the mesh is closed and drained, the closes are made, and then TACK is sent.
-/
def State.tackBoundary (s : State) : State :=
  let s := match s.cfg.boundaryAt with
    | some _ => s
    | none =>
      let dr := s.tackDrains
      { s with cfg := { s.cfg with boundaryAt := some s.now, drain := dr }, mesh := { s.mesh with closed := dr || s.mesh.closed } }
  if s.cfg.drain && !s.drained then s
  else
    let s := s.cores.foldl (fun (s : State) e => s.tackCloses e.1) s
    if s.cores.all (fun e => s.closesDone e.1) then
      ({ s with cfg := { s.cfg with tackSent := some s.now } }).sendClass0 (.tack (s.cfg.activeGen + 1))
    else s

/-! The exchange (R279 step 4). -/

/-- The templates of the new set open on core `p`. -/
def State.openTemplates (s : State) (p : Nat) : State :=
  (s.active.templatesOf p).foldl (fun (s : State) e =>
    let sp := s.spad p
    let x := tmplDesc e
    match sp.opensNew e, sp.freeWin with
    | true, some w =>
      let win := openWindow x x.base (leAt e 2 1) (nextGen (sp.win w).gen)
      s.modSpad p (fun sp => sp.setWin w { win with tmpl := e })
    | _, _ => s) s

/-- The physical cores that templates of a set name. -/
def ConfigSet.templateCores (c : ConfigSet) : List Nat :=
  (c.items 5).foldl (fun l e =>
    match c.coreOf (tmplCore e) with
    | some p => insertAsc p l
    | none => l) []

/-- While ticking is stopped, a new cap applies at once (R390). -/
def State.capNow (s : State) : State :=
  if s.ticking then s else s.setFld unitMgmt rPWR_CAP_STAT 0 16 s.capGoal

def genAfter (g : Nat) : Nat := if g = 0xFFFFFFFF then 1 else g + 1

/-- What the distance table is computed over: the placement and the graph of a set. -/
def ConfigSet.map (c : ConfigSet) : ConfigSet :=
  { ConfigSet.empty with sections := c.sections.filter (fun e => e.1 == 1), counts := c.counts.filter (fun e => e.1 == 1), graph := c.graph }

/-- A calibration measures LOADED anew, over the active map (R30, R32). -/
def State.calibrate (s : State) : State :=
  { s with freeCtr := s.freeCtr + 1, cfg := { s.cfg with calib := s.freeCtr, maps := [s.active.map] } }

/-- The active map joins those that LOADED is derived over. -/
def State.noteMap (s : State) : State :=
  if s.cfg.maps.getLast? = some s.active.map then s
  else { s with cfg := { s.cfg with maps := s.cfg.maps ++ [s.active.map] } }

/-- The regions of spare sites that hold no die any more go off: their cores stay dark (R13). -/
def State.darkenSpares (s : State) (old : ConfigSet) : State :=
  ((List.range 192).filterMap old.site).foldl (fun (s : State) v =>
    if isSpareSite v && (s.active.dieAt v).isNone then
      (List.range 10).foldl (fun (s : State) r =>
        if s.regionState v r = 3 then s else s.setFld (unitDie v) (statOff r) 0 6 0) s
    else s) s

/-- A core that runs another logical core than before starts with its engines' state at reset values (R159, R179). -/
def State.freshEngines (s : State) (old : ConfigSet) : State :=
  { s with cores := SMap.mapAll Core.reset (fun p (c : Core) =>
      if (s.gid p).isSome && s.gid p != old.gidOf p then { c with mxu := Mxu.reset, vec := Vec.reset } else c) s.cores }

/-- Every holder exchanges its copies. -/
def State.exchange (s : State) : State :=
  let old := s.active
  let new := s.shadow
  let moved := decide (new.graph ≠ old.graph)
  let placed := moved || s.cfg.drain && ((List.range 192).any (fun d => old.site d != new.site d || (List.range 48).any (fun l => old.phys d l != new.phys d l)))
  let sched := (List.range 322).any (fun i => old.reg unitMgmt (schedReg i) != new.reg unitMgmt (schedReg i))
  let s := { s with
    active := new, shadow := old
    cfg := { s.cfg with swappedAt := some s.now, placeGen := if placed then genAfter s.cfg.placeGen else s.cfg.placeGen }
    cores := SMap.mapAll Core.reset (fun _ c => { c with icache := [] }) s.cores
    coll := if s.cfg.auto then { s.coll with retired := s.coll.retiring.foldl (fun l x => insertAsc x l) s.coll.retired, retiring := [] }
      else s.coll }
  let s := if sched then s.modGen (fun g => { g with entry := 0, rep := 0 }) else s
  let s := if placed then (s.noteMap.darkenSpares old).freshEngines old else s
  let s := s.active.templateCores.foldl (fun (s : State) p => s.openTemplates p) s
  let s := if moved && decide (21 < s.active.halDepth) then s.raise .degraded 0x30 .none none s.active.halDepth else s
  let s := if s.cfg.halt || s.active.vacantLaunch then s.haltTicking else s
  let met := s.cfg.met
  let s := { s.capNow with cfg := { s.cfg with met := [] } }
  met.foldl (fun (s : State) w => s.writeRwt w.1 w.2.1 w.2.2) s

/-! Completion (R279 step 6, R386). -/

/-- The set without the launch entries on vacant cores, and CORES of its patches lowered. -/
def ConfigSet.shrunk (c : ConfigSet) : ConfigSet :=
  let keep := (c.items 4).filter (fun e => (c.coreOf (launchCore e)).isSome)
  let c := c.load 4 0 keep
  (List.range (c.count 2)).foldl (fun (c : ConfigSet) g =>
    if c.patchValid g then c.setItem 2 g (patchBytes (c.item 2 g) 2 (leBytes 2 (c.patchCores g).length)) else c) c

/-- R386 steps 3 and 4: the shrink that the host may accept. -/
def State.offerShrink (s : State) : State :=
  if !s.active.vacantLaunch then s
  else
    let c := s.active.shrunk
    let fits := (List.range (c.count 2)).all (fun g =>
      let e := s.active.item 2 g
      let m := field (leAt e 4 2) 0 14
      !s.active.patchValid g || (s.active.patchCores g == c.patchCores g)
        || decide ((if m = 0 then field (leAt e 2 2) 0 14 else m) ≤ (c.patchCores g).length))
    let s := if fits then
        let c := s.generate c
        match s.sealFail c none with
        | none => s.sealed c (sha384 c.image) false
        | some f => s.recordSeal f
      else s
    s.raise .jobAffecting 0x42 .none none (b2n fits)

/-- The tack is complete. -/
def State.completeTack (s : State) : State :=
  let ns := min (2 ^ 32 - 1) ((s.now - s.cfg.boundaryAt.getD s.now) * 10 / 21)
  let g := s.cfg.activeGen
  let cmd := s.cfg.command
  let auto := s.cfg.auto
  let again := s.cfg.autoQ
  let s := { s with
    cfg := { s.cfg with
      activeGen := (g + 1) % 2 ^ 32, shadowGen := g, pending := false, locked := false, lastNs := ns
      boundaryAt := none, tackSent := none, swappedAt := none, command := none, halt := false, autoQ := false }
    mesh := { s.mesh with closed := false }
    hubs := SMap.mapAll Hub.reset (fun _ h => { h with votes := SMap.del h.votes 2 }) s.hubs
    tel := { s.tel with nowFlags := s.tel.nowFlags ||| 32 } }
  let res := (g + 1) % 2 ^ 32 + 2 ^ 32 * ns
  let s := s.bump unitMgmt rCFG_TACK_COUNT (if auto then 32 else 0) 32 1
  let s := (s.raise .info 0x40 .none none res).finishOpt cmd 0 0 res
  let replay := decide (0 < SMap.get 0 s.gen.runs s.nextTick)
  let s := if s.gen.ticks.isEmpty && s.gen.ready.isNone && s.ticking && (s.continuing s.nextTick || replay) then s.setReady s.now
    else s
  let s := s.offerShrink
  if again then s.autoTack false else s

end Sys2Proof.Machine
end

