-- ==== Sys2Proof/Machine/Config.lean ====
section
/-!
DEFINITION. The commands of a tack: its boundary, the TACK message, its completion (R278–R282).
-/
namespace Sys2Proof.Machine

/-- TACK_BOUNDARY: at a tick boundary the pending tack drains the mesh, closes windows and is sent; it is given again
while drain and closes are under way. -/
def execTackBoundary (s : State) : Res :=
  when (s.cfg.pending && s.cfg.tackSent.isNone && s.atBoundary) s s.tackBoundary

/-- TACK: it takes effect at every node in one cycle. -/
def execTack (s : State) : Res :=
  match s.gen.class0 with
  | some (.tack _, t) => .next ((s.advanceTo t).exchange.class0Done)
  | _ => .next s

/-- TACK_COMPLETE: the root holds every vote of the tack. -/
def execTackComplete (s : State) : Res :=
  let v := SMap.get ⟨0, 0, true, [], [], false⟩ (s.hub halRoot).votes 2
  let got := if v.tick = s.cfg.activeGen + 1 then v.children else []
  when (s.cfg.swappedAt.isSome && (s.halChildren halRoot).all (fun c => got.contains c || !s.hasBelow c (fun _ => true))) s
    s.completeTack

/-- TACK_VOTE_TIMEOUT: the root's timer of 2.0 µs from the send of TACK expires. -/
def execTackVoteTimeout (s : State) : Res :=
  match s.cfg.tackSent, s.cfg.swappedAt with
  | some t, some _ => .next (s.advanceTo (t + 2 * Config.cycUs)).completeTack
  | _, _ => .next s

end Sys2Proof.Machine
end

