-- ==== Sys2Proof/Machine/MaintOps.lean ====
section
/-!
DEFINITION. The maintenance arbiter (R446–R448): its entries, their resources and conflicts.
-/
namespace Sys2Proof.Machine

/-- SITE and UNIT of a resource (R446). -/
def MaintEntry.site (e : MaintEntry) : Nat := field e.resource 0 8
def MaintEntry.unit (e : MaintEntry) : Nat := field e.resource 8 8

/-- A new entry, unless all 16 are in use: its handle (R447). -/
def State.addEntry (s : State) (code resource arg target : Nat) (pliwick : Bool) (c : Option (Nat × Nat)) :
    Option (Nat × State) :=
  if 16 ≤ s.maint.entries.length then none
  else
    let h := s.maint.nextHandle
    let e : MaintEntry := { handle := h, code := code, pliwick := pliwick, resource := resource, running := false, paused := false,
                            stopping := false, progress := 0, inStep := false, arg := arg, target := target, command := c }
    some (h, { s with maint := { s.maint with
      entries := s.maint.entries ++ [e], nextHandle := if h = 0xFFFF then 1 else h + 1 } })

/-- An entry that Pliwick queues itself; none is queued beside one of the same code and resource. -/
def State.pliwickEntry (s : State) (code resource : Nat) : State :=
  if s.maint.entries.any (fun e => e.code == code && e.resource == resource) then s
  else ((s.addEntry code resource 0 0 true none).map (·.2)).getD s

def State.modEntry (s : State) (handle : Nat) (f : MaintEntry → MaintEntry) : State :=
  { s with maint := { s.maint with entries := s.maint.entries.map (fun e => if e.handle = handle then f e else e) } }

/-- The running entry of a code at a resource that may take a step, or is in one. -/
def State.runningEntry (s : State) (code : Nat) (p : MaintEntry → Bool) : Option MaintEntry :=
  s.maint.entries.find? (fun e => e.code == code && e.running && !e.paused && (e.inStep || !s.maint.recovery || code == 4) && p e)

/-- A step of an entry is over: it ends when MAINT_STOP has been taken or it is done; in a real recovery it pauses. -/
def State.stepOver (s : State) (e : MaintEntry) (finished : Bool) (ok : Bool) : State :=
  if e.stopping then s.endEntry e 1
  else if finished then s.endEntry e (if ok then 0 else 2)
  else s.modEntry e.handle (fun e => { e with
    progress := e.progress + 1, inStep := false, paused := s.maint.recovery && e.code != 4 })

/-- The exits that a SEAM_RETRAIN entry retrains, and the one its next step is at. -/
def MaintEntry.seams (e : MaintEntry) : List Nat :=
  if e.unit = 0xFF then (List.range 4).filter (fun x => (beyond e.site x).isSome) else [e.unit]
def MaintEntry.seam (e : MaintEntry) : Option Nat := e.seams[e.progress]?

/-- The dies that a resource touches: for a seam link both, for the panel every one. -/
def MaintEntry.dies (e : MaintEntry) : List Nat :=
  if e.site = 0xFF then List.range 214
  else if e.code = 1 then e.site :: e.seams.filterMap (fun x => beyond e.site x)
  else [e.site]

/-- Two resources touch a common die. -/
def sameDie (a b : MaintEntry) : Bool := a.dies.any (fun d => b.dies.contains d)

/-- Two resources are the same, or one is part of the other; a link is the same from both ends. -/
def sameResource (a b : MaintEntry) : Bool :=
  if a.code = 1 ∧ b.code = 1 then a.seams.any (fun x => b.seams.any (fun y => linkAt a.site x == linkAt b.site y))
  else (a.site == b.site || a.site == 0xFF || b.site == 0xFF) && (a.unit == b.unit || a.unit == 0xFF || b.unit == 0xFF)

/-- The conflict matrix of R448: 0 compatible, 1 L, 2 D, 3 P; row and column are codes from 1. -/
def conflictRow : Nat → List Nat
  | 1 => [1, 0, 0, 0, 2, 0, 2, 0, 0, 3, 3]
  | 2 => [0, 1, 0, 0, 0, 0, 0, 0, 0, 3, 3]
  | 3 => [0, 0, 1, 2, 2, 0, 2, 0, 0, 3, 3]
  | 4 => [0, 0, 2, 1, 0, 0, 0, 0, 0, 0, 0]
  | 5 => [2, 0, 2, 0, 2, 2, 2, 2, 2, 3, 3]
  | 6 => [0, 0, 0, 0, 2, 2, 2, 0, 0, 3, 3]
  | 7 => [2, 0, 2, 0, 2, 2, 2, 2, 2, 3, 3]
  | 8 => [0, 0, 0, 0, 2, 0, 2, 2, 0, 3, 3]
  | 9 => [0, 0, 0, 0, 2, 0, 2, 0, 1, 3, 0]
  | 10 => [3, 3, 3, 0, 3, 3, 3, 3, 3, 3, 3]
  | 11 => [3, 3, 3, 0, 3, 3, 3, 3, 0, 3, 3]
  | _ => []

/-- Two entries conflict (R448). -/
def conflicts (a b : MaintEntry) : Bool :=
  let k := (conflictRow a.code).getD (b.code - 1) 0
  if k = 1 then sameResource a b else if k = 2 then sameDie a b else k == 3

/-- Slack on every die that a resource of the panel touches: every mapped die. -/
def State.panelSlack (s : State) : Bool :=
  (List.range 192).all (fun d => match s.active.site d with
    | some site => s.slack site
    | none => true)

end Sys2Proof.Machine
end

