-- ==== Sys2Proof/Machine/PortOps.lean ====
section
/-!
DEFINITION. The sending side of a Vorrad port (R310–R313): classes and credits, the order of service, the retry buffer.
-/
namespace Sys2Proof.Machine

def State.port (s : State) (i : Nat) : VPort := SMap.get VPort.reset s.vorrad.ports i
def State.modVPort (s : State) (i : Nat) (f : VPort → VPort) : State :=
  { s with vorrad := { s.vorrad with ports := SMap.set VPort.reset s.vorrad.ports i (f (s.port i)) } }

/-- `VLNK_STATUS.STATE`: 0 down, 1 training, 2 up, 3 failed. -/
def State.portState (s : State) (i : Nat) : Nat := s.fld (unitEdge i) rVLNK_STATUS 0 2
def State.setPortState (s : State) (i v : Nat) : State := s.setFld (unitEdge i) rVLNK_STATUS 0 2 v

/-- The class of a slot (R311). -/
def VSlot.cls : VSlot → Nat
  | .coll .. => 1
  | .xfer c .. => c

/-- A slot of a class may be sent: one waits and a credit is held. -/
def VPort.maySend (p : VPort) (c : Nat) : Bool :=
  decide (0 < SMap.get 0 p.credits c) && p.waiting.any (fun x => x.cls == c)

/-- The class served next: replies first, then collective, request and transit in turn (R313). -/
def VPort.nextClass (p : VPort) : Option Nat :=
  if p.maySend 3 then some 3
  else
    let order := ([1, 2, 4, 5] : List Nat).filter p.maySend
    match order.find? (fun c => decide (p.turn < c)) with
    | some c => some c
    | none => order.head?

/-- Take the oldest waiting slot of a class. -/
def takeSlot (c : Nat) : List VSlot → Option (VSlot × List VSlot)
  | [] => none
  | x :: xs => if x.cls = c then some (x, xs) else (takeSlot c xs).map (fun r => (r.1, x :: r.2))

/-- Up to `n` slots for a data flit. -/
def VPort.fill (p : VPort) : Nat → List VSlot × VPort
  | 0 => ([], p)
  | n + 1 =>
    match p.nextClass with
    | none => ([], p)
    | some c =>
      match takeSlot c p.waiting with
      | none => ([], p)
      | some (x, rest) =>
        let q := { p with
          waiting := rest, credits := SMap.set 0 p.credits c (SMap.get 0 p.credits c - 1), turn := if c = 3 then p.turn else c }
        let r := q.fill n
        (x :: r.1, r.2)

/-! The bytes of a flit (R310, R311, R319). -/

/-- One step of the CRC-32 of IEEE 802.3, least significant bit first. -/
def crcStep (c : Nat) : Nat := if c % 2 = 1 then (c / 2) ^^^ 0xEDB88320 else c / 2

/-- CRC-32 over bytes (PRESUMED: IEEE 802.3's preset, bit order and complement, log 12). -/
def crc32 (bs : List Byte) : Nat :=
  (bs.foldl (fun c b =>
    crcStep (crcStep (crcStep (crcStep (crcStep (crcStep (crcStep (crcStep (c ^^^ b.toNat))))))))) 0xFFFFFFFF) ^^^ 0xFFFFFFFF

/-- The CRC of a flit is good (R310). -/
def flitCrcOk (f : List Byte) : Bool := leAt f 60 4 == crc32 (f.take 60 ++ f.drop 64)

/-- Bytes filled up with zeros to a length. -/
def filled (n : Nat) (bs : List Byte) : List Byte := (bs ++ zeros n).take n

/-- The header of a slot, and its data. -/
def VSlot.header : VSlot → Nat
  | .coll dim tag gen tick residue line phase att _ =>
    1 + 2 ^ 4 * dim + 2 ^ 16 * tag + 2 ^ 26 * gen + 2 ^ 32 * (tick % 2 ^ 32) + 2 ^ 64 * residue + 2 ^ 80 * line + 2 ^ 98 * phase
      + 2 ^ 99 * (att % 256)
  | .xfer cls ack dst dctx lseq line sctx spanel st dim _ =>
    cls + 2 ^ 3 * b2n ack + 2 ^ 4 * dst + 2 ^ 16 * dctx + 2 ^ 32 * (lseq % 2 ^ 32) + 2 ^ 64 * line + 2 ^ 92 * sctx + 2 ^ 104 * spanel
      + 2 ^ 116 * st + 2 ^ 124 * dim
def VSlot.bytes : VSlot → List Byte
  | .coll _ _ _ _ _ _ _ _ words => filled 64 (words.flatMap (fun w => leBytes 8 w.toNat))
  | .xfer _ _ _ _ _ _ _ _ _ _ data => filled 64 data

/-- The 32 bytes of a record. -/
def SysRecord.bytes (r : SysRecord) : List Byte :=
  leBytes 1 r.type ++ leBytes 1 r.att ++ leBytes 2 (r.cause + 2 ^ 4 * r.tag + 2 ^ 14 * b2n r.raise + 2 ^ 15 * b2n r.nora)
    ++ leBytes 8 r.tick ++ leBytes 4 r.remain ++ leBytes 14 ((r.ks.mapIdx (fun h k => 2 ^ (7 * h) * k)).sum) ++ zeros 2

/-- KIND, the slot headers and the last 192 bytes of a numbered flit; the spec gives link control no content. -/
def FlitBody.kind : FlitBody → Nat
  | .data _ => 1
  | .halyard _ => 2
  | .control _ => 3
def FlitBody.headers : FlitBody → List Byte
  | .data slots => filled 48 (slots.flatMap (fun x => leBytes 16 x.header))
  | _ => zeros 48
def FlitBody.bytes : FlitBody → List Byte
  | .data slots => filled 192 (slots.flatMap VSlot.bytes)
  | .halyard rs => filled 192 (rs.flatMap SysRecord.bytes)
  | .control _ => zeros 192

/-- The slots of a class whose return a flit can tell. -/
def VPort.toReturn (p : VPort) (c : Nat) : Nat := min 255 (SMap.get 0 p.returned c)

/-- The 256 bytes of a numbered flit: it acknowledges the last flit accepted in order, and returns slots. -/
def VPort.flit (p : VPort) (seq : Nat) (b : FlitBody) : List Byte :=
  let head := leBytes 1 b.kind ++ leBytes 2 seq ++ leBytes 2 ((p.expected + 4095) % 4096 + 2 ^ 12 * b2n p.nak)
    ++ ([1, 2, 3, 4, 5] : List Nat).flatMap (fun c => leBytes 1 (p.toReturn c)) ++ zeros 2 ++ b.headers
  head ++ leBytes 4 (crc32 (head ++ b.bytes)) ++ b.bytes

/-- A numbered flit is sent and retained (R312). -/
def VPort.sendFlit (p : VPort) (now : Nat) (b : FlitBody) : VPort :=
  { p with
    nextSeq := (p.nextSeq + 1) % 4096, unacked := p.unacked ++ [(p.nextSeq, b)], wire := p.flit p.nextSeq b
    returned := p.returned.foldl (fun m e => SMap.set 0 m e.1 (e.2 - p.toReturn e.1)) p.returned
    ackAt := if p.unacked.isEmpty then now else p.ackAt }

/-- The next flit of a port: system records pre-empt data (R313); the retry buffer's limits hold (R312). -/
def VPort.next (p : VPort) (now : Nat) : Option VPort :=
  if !p.records.isEmpty && decide (p.unacked.length < 512) then
    some ({ p with records := p.records.drop 6 }.sendFlit now (.halyard (p.records.take 6)))
  else if p.unacked.length < 496 then
    let r := p.fill 3
    if r.1.isEmpty then none else some (r.2.sendFlit now (.data r.1))
  else none

/-- The port sends what it may. -/
def State.pumpPort (s : State) (i : Nat) : Nat → State
  | 0 => s
  | fuel + 1 =>
    if s.portState i ≠ 2 then s
    else
      match (s.port i).next s.now with
      | none => s
      | some p => ((s.modVPort i (fun _ => p)).bump (unitEdge i) rVLNK_FLITS 0 32 1).pumpPort i fuel

def State.pump (s : State) (i : Nat) : State :=
  s.pumpPort i ((s.port i).waiting.length + (s.port i).records.length)

/-- A slot waits at a port. -/
def State.queueSlot (s : State) (i : Nat) (x : VSlot) : State :=
  (s.modVPort i (fun p => { p with waiting := p.waiting ++ [x] })).pump i

/-- A system record waits at a port. -/
def State.queueRecord (s : State) (i : Nat) (r : SysRecord) : State :=
  (s.modVPort i (fun p => { p with records := p.records ++ [r] })).pump i

/-- A slot of a class leaves the receive buffer of a port: its credit goes back. -/
def State.returnSlot (s : State) (i c : Nat) : State :=
  if 8 ≤ i then s else s.modVPort i (fun p => { p with returned := SMap.set 0 p.returned c (SMap.get 0 p.returned c + 1) })

end Sys2Proof.Machine
end

