-- ==== Sys2Proof/Machine/Coll.lean ====
section
/-!
DEFINITION. The commands of the reduction units and link-die engines (spec/13).
-/
namespace Sys2Proof.Machine

/-! The current attempt and its buckets. -/

/-- The oldest uncommitted tick, which buckets serve. -/
def State.collRun (s : State) : Option TickRun :=
  s.oldest.filter (fun t => t.tick == s.gen.commitSeq.toNat + 1)

/-- A bucket takes part in a tick (R290). -/
def State.takesPart (s : State) (t : Nat) (run : TickRun) : Bool := (s.active.tagsOf run.prog).contains t

/-- A bucket at a unit for an attempt: as it stands, or afresh. -/
def State.bucketFor (s : State) (d t : Nat) (run : TickRun) : UnitBucket :=
  let b := (s.unit d).bucket t
  if b.tick = run.tick ∧ b.att = run.att then b
  else { UnitBucket.empty with tick := run.tick, att := run.att, gen := s.genOf t }
def State.putBucket (s : State) (d t : Nat) (b : UnitBucket) : State := s.modBucket d t (fun _ => b)

def engineKey (dim t : Nat) : Nat := 1024 * dim + t
def State.engineFor (s : State) (dim t : Nat) (run : TickRun) : EngineBucket :=
  let b := SMap.get EngineBucket.empty s.coll.engines (engineKey dim t)
  if b.tick = run.tick ∧ b.att = run.att then b
  else { EngineBucket.empty with tick := run.tick, att := run.att, gen := s.genOf t }
def State.putEngine (s : State) (dim t : Nat) (b : EngineBucket) : State :=
  { s with coll := { s.coll with engines := SMap.set EngineBucket.empty s.coll.engines (engineKey dim t) b } }

/-- The scale of the tick is fixed at the unit (R285). -/
def State.scaleFixed (s : State) (d : Nat) (run : TickRun) : Bool :=
  SMap.get none s.coll.fixedTick d == some run.tick

/-! The system ring (R300, R315, R316). -/

/-- The rails of dimension `d` of `k` (R316). -/
def railsOf (k d : Nat) : List Nat :=
  if k = 1 then [0, 1, 2, 3]
  else if k = 2 then [d, d + 2]
  else if k = 3 then (if d = 0 then [0, 3] else [d])
  else [d]
/-- Both engines of a pair are retired. -/
def State.noEngine (s : State) : Bool :=
  ([0, 2, 4, 6] : List Nat).any (fun l => s.coll.retired.contains (204 + l) && s.coll.retired.contains (205 + l))

/-- Shard `j` of the `n` lines from `lo`: its first line and its length. -/
def shard (lo n size j : Nat) : Nat × Nat := (lo + j * n / size, (j + 1) * n / size - j * n / size)
/-- The range R_d of a bucket of `lines` lines. -/
def State.collRange (s : State) (lines : Nat) : Nat → Nat × Nat
  | 0 => (0, lines)
  | d + 1 => let r := s.collRange lines d; shard r.1 r.2 (s.ringSize d) ((s.ringPos d + 1) % s.ringSize d)

/-! Failure (R299, R304). -/

/-- The register unit, the retirement key and the event source of a holder. -/
def State.collUnitOf (s : State) : CollNode → Nat
  | .unit d => s.unitSite d
  | .engine l => unitEdge l
def State.collKeyOf (s : State) : CollNode → Nat
  | .unit d => (s.active.site d).getD 255
  | .engine l => 204 + l
def State.collSrcOf (s : State) : CollNode → EventSrc
  | .unit d => ⟨(s.active.site d).getD 255, 0x3F, false, 0⟩
  | .engine l => edgeSrc l 0x3F

/-- A bucket fails at a unit or engine (R304). -/
def State.collFail (s : State) (n : CollNode) (dim t cause contrib copy line : Nat) (run : TickRun) (inj : Bool) : State :=
  let u := s.collUnitOf n
  let g := s.genOf t
  let s := (s.setReg u rCOLL_ERR_LAST (t + 2 ^ 10 * g + 2 ^ 14 * cause + 2 ^ 17 * contrib + 2 ^ 23 * copy + 2 ^ 31)).setReg
    u rCOLL_ERR_LINE line
  let s := match n with
    | .unit d => s.putBucket d t { s.bucketFor d t run with failed := true }
    | .engine _ => s.putEngine dim t { s.engineFor dim t run with failed := true }
  { s with coll := { s.coll with
      failures := s.coll.failures ++ [{ src := n, tag := t, gen := g, cause := cause, tick := run.tick, att := run.att,
                                        inj := inj }]
      badDies := match n with
        | .unit d => insertAsc d s.coll.badDies
        | .engine _ => s.coll.badDies } }

/-- A residue mismatch: the bucket fails, the unit counts it, and the third within an hour retires the unit at the next
automatic tack (R299); one that an injection made counts for nothing there (R450). -/
def State.collMismatch (s : State) (n : CollNode) (dim t line : Nat) (run : TickRun) (inj : Bool) : State :=
  let k := s.collKeyOf n
  let s := (s.collFail n dim t 1 0 0 line run inj).bump (s.collUnitOf n) rCOLL_MISMATCH 0 32 1
  if inj then s
  else
    let errs := s.maint.unitErrors ++ [(k, s.now)]
    let s : State := { s with maint := { s.maint with unitErrors := errs } }
    let recent := errs.filter (fun e => e.1 == k && decide (s.now ≤ e.2 + 3600 * Config.cycSec))
    if decide (3 ≤ recent.length) && !s.coll.retiring.contains k && !s.coll.retired.contains k then
      let s : State := { s with coll := { s.coll with retiring := insertAsc k s.coll.retiring } }
      (s.appendLog 11 k 0 0).raise .degraded 0x50 (s.collSrcOf n) none 0
    else s

/-! Posts (R292). -/

/-- Bytes of a line of a contribution in its source, and of the whole source. -/
def bkSrcLine (b : List Byte) : Nat := if bkWordsIn b then 64 else 32

/-- A post record may be accepted: no field is wrong and the source is in the panel. -/
def State.postOk (s : State) (b : List Byte) (die : Nat) (r : List Byte) (run : TickRun) : Bool :=
  let t := field (leAt r 0 2) 0 10
  let src := leAt r 8 8
  s.takesPart t run && bkMember b die && decide (field (leAt r 2 1) 0 6 < bkPerDie b)
    && (bkPaired b || !bit (leAt r 2 1) 6)
    && field (leAt r 0 2) 10 6 == 0 && !bit (leAt r 2 1) 7 && zeroAt r 3 1 && zeroAt r 6 2 && zeroAt r 16 48
    && (bkWordsIn b || zeroAt r 4 2)
    && decide (space src ≤ 1) && src % 64 == 0 && !s.active.refused src (bkLines b * bkSrcLine b)

/-- Every line of a key has been read. -/
def UnitBucket.readAll (u : UnitBucket) (b : List Byte) : Bool := u.started && decide (bkLines b ≤ u.upLine)

/-- COLL_POST: a post has arrived at a die. It is accepted, discarded as stale, refused, or counted as late (R292,
R305); a retired die's posts go on to its substitute (R299). -/
def execCollPost (acc : Nat) (s : State) : Res :=
  match s.access acc with
  | none => .next s
  | some a =>
    match a.stage, a.kind, s.active.target a.addr with
    | .atTarget, .write r, some (.dieReg die off) =>
      if off ≠ rCOLL_POST then .next s
      else
        match (if s.unitWorks die then some die else s.substitute die) with
        | none => .next (s.reply acc stAddressError [])
        | some d =>
          let err := fun (s : State) => s.bump (s.unitSite d) rCOLL_POST_ERR 0 32 1
          if r.length ≠ 64 then .next ((err s).reply acc stAddressError [])
          else
            match s.collRun with
            | none => .next ((err s).reply acc stOk [])
            | some run =>
              if run.tick ≠ a.tick ∨ run.att ≠ a.att then .next ((err s).reply acc stOk [])
              else
                let t := field (leAt r 0 2) 0 10
                let b := s.active.bucket t
                let u := s.bucketFor d t run
                let k := field (leAt r 2 1) 0 6
                let copy := b2n (bit (leAt r 2 1) 6)
                if !s.postOk b die r run || u.posts.any (fun p => p.die == die && p.contrib == k && p.copy == copy) then
                  .next ((err s).reply acc stAddressError [])
                else
                  let p : Post := { die := die, contrib := k, copy := copy, qs := leAt r 4 2, src := leAt r 8 8,
                                    core := a.core, seq := 2 * s.now + copy }
                  let s := if u.readAll b then s.bump (s.unitSite d) rCOLL_LATE 0 32 1 else s
                  .next ((s.putBucket d t { u with posts := u.posts ++ [p] }).reply acc stOk [])
    | _, _, _ => .next s

/-! Scale (R285, R286). -/

/-- S_base and S_eff of a tag. -/
def State.scaleBase (s : State) (t : Nat) : Int :=
  let b := s.active.bucket t
  if !bkHistMode b then bkSFixed b
  else
    let ks : List Nat := (s.coll.offers.map (fun o => o.2)).getD []
    let k : Nat := ks.getD (bkSlot b) 127
    if k = 127 then bkSFixed b
    else (if k ≤ 63 then (k : Int) - 48 else if k = 64 then -49 else 16) + 1
def State.scaleEff (s : State) (t : Nat) : Int := min (s.scaleBase t + 8 * s.raisesOf t) 128

/-- The merge of the tick before is complete and, in a system, its offer has arrived. -/
def State.offersIn (s : State) : Bool :=
  match s.gen.last with
  | none => true
  | some t => t.tick != s.gen.commitSeq.toNat || (s.coll.offers.map (·.1)) == some t.tick

/-- SCALE_FIX: the unit of a die fixes S_eff and GEN of every bucket of the tick. -/
def execScaleFix (d : Fin 192) (s : State) : Res :=
  match s.collRun with
  | none => .next s
  | some run =>
    if !s.unitWorks d.val || s.scaleFixed d.val run || !s.offersIn then .next s
    else
      let u := s.unitSite d.val
      let s := (s.active.tagsOf run.prog).foldl (fun (s : State) t =>
        let e := s.scaleEff t
        let b := s.bucketFor d.val t run
        (s.putBucket d.val t { b with sEff := e }).setReg u (rCOLL_SCALE + 4 * t)
          ((e % 2 ^ 16).toNat + 2 ^ 16 * b.gen + 2 ^ 20 * min (s.raisesOf t) 7 + 2 ^ 23)) s
      let s := s.setReg u rCOLL_SCALE_TICK (run.tick % 2 ^ 32)
      .next { s with coll := { s.coll with fixedTick := SMap.set none s.coll.fixedTick d.val (some run.tick) } }

/-! Start (R295, R305). -/

/-- The posts of a key, and the one that arrived first: in one cycle the lower COPY. -/
def UnitBucket.postsOf (u : UnitBucket) (k : Nat × Nat) : List Post :=
  u.posts.filter (fun p => p.die == k.1 && p.contrib == k.2)
def firstPost (l : List Post) : Option Post :=
  l.foldl (fun (best : Option Post) p => match best with
    | none => some p
    | some b => if p.seq < b.seq then some p else some b) none

/-- The pairing wait is over. -/
def State.pairingOver (s : State) (u : UnitBucket) (b : List Byte) (keys : List (Nat × Nat)) (run : TickRun) : Bool :=
  !bkPaired b || keys.all (fun k => decide (2 ≤ (u.postsOf k).length))
    || decide (run.tEff.getD run.t0 + Config.cyc10ns * bkDeadline b ≤ s.now)

/-- The unit starts the stage, if it may. -/
def State.bucketStart (s : State) (d t : Nat) : State :=
  match s.collRun with
  | none => s
  | some run =>
    let b := s.active.bucket t
    let u := s.bucketFor d t run
    let keys := s.collKeys b d
    if !s.takesPart t run || !s.unitWorks d || u.started || u.failed || !s.scaleFixed d run
        || keys.any (fun k => (u.postsOf k).isEmpty) || !s.pairingOver u b keys run then s
    else
      let s := s.putBucket d t { u with started := true, used := keys.filterMap (fun k => firstPost (u.postsOf k)) }
      let root := (s.collQ (bkRoot b)).getD 0 0
      if decide (1 < bkPanels b) && s.noEngine && d == root then
        (s.collFail (.unit d) 0 t 6 0 0 0 run false).raise .jobAffecting 0x51 (s.collSrcOf (.unit d)) (some run.tick) t
      else
        match u.posts.find? (fun p => bkWordsIn b && toSigned 16 p.qs != u.sEff) with
        | some p => s.collFail (.unit d) 0 t 3 p.contrib p.copy 0 run false
        | none => s

/-- BUCKET_START. -/
def execBucketStart (d : Fin 192) (tag : Fin 1024) (s : State) : Res := .next (s.bucketStart d.val tag.val)

/-- PAIRING_DEADLINE: t_eff + DEADLINE passes, and a unit whose keys all have a copy starts (R305). -/
def execPairingDeadline (d : Fin 192) (tag : Fin 1024) (s : State) : Res :=
  match s.collRun with
  | none => .next s
  | some run =>
    let b := s.active.bucket tag.val
    when (s.takesPart tag.val run && bkPaired b) s
      ((s.advanceTo (run.tEff.getD run.t0 + Config.cyc10ns * bkDeadline b)).bucketStart d.val tag.val)

/-! Lines downward (R288, R295, R303). -/

def UnitBucket.outTo (u : UnitBucket) (k : Nat) : Nat := SMap.get 0 u.out k
def UnitBucket.send (u : UnitBucket) (k : Nat) : UnitBucket := { u with out := SMap.set 0 u.out k (u.outTo k + 1) }

/-- A final line as a member writes it: the words, or FP32 values with their flags. -/
def resultBytes (b : List Byte) (sEff : Int) (l : Line) : List Byte × Nat :=
  if bkFp32Out b then
    let rs := l.words.map (fun w =>
      let v := w.toInt
      fRound fmtFP32 (decide (v < 0)) v.natAbs (-(63 - (bkH b : Int) - sEff)) 0 false)
    (rs.flatMap (fun r => leBytes 4 r.1), rs.foldl (fun a r => a ||| r.2) 0)
  else (l.words.flatMap (fun w => leBytes 8 w.toNat), 0)

/-- The mesh target of a unit or an engine, and the router of its die. -/
def CollNode.target : CollNode → Nat × Nat
  | .unit d => (d, 22)
  | .engine l => (192 + l, 0)

/-- A reduction packet leaves its die on VC 4 of the bulk mesh (R198, R210, R300, R316). -/
def State.sendReduction (s : State) (k : CollPacket) : State :=
  let a := k.src.target
  let b := k.dst.target
  if a.1 = b.1 then { s with coll := { s.coll with packets := s.coll.packets ++ [k] } }
  else
    let id := s.mesh.nextPacket
    let s : State := { s with coll := { s.coll with packets := s.coll.packets ++ [{ k with pkt := some id }] } }
    s.newPacket { cargo := .reduction id, from_ := s.placeOf a.1 a.2, dest := b.1, destRouter := b.2, vc := 4, mid := none, esc := false,
                  poolQ := false, exit := none, seamHops := 0, flits := 1, since := s.now, place := .inject, inPort := 4,
                  patch := 0, held := none, targets := [] }

/-- A reduction packet is still in the bulk mesh. -/
def State.inMesh (s : State) (k : CollPacket) : Bool :=
  s.mesh.packets.any (fun e => match e.2, k.pkt with
    | some x, some id => x.cargo == .reduction id
    | _, _ => false)

/-- The bytes of the result region, rounded up to a line. -/
def resultRegion (b : List Byte) : Nat := up64 (bkElements b * (if bkFp32Out b then 4 else 8))

/-- The member dies for which a unit writes results and reports. -/
def State.resultDies (s : State) (b : List Byte) (d : Nat) : List Nat := (s.served d).filter (bkMember b)

/-- A member's write into its own DRAM. -/
def State.resultWrite (s : State) (m off : Nat) (bs : List Byte) (run : TickRun) : State :=
  match s.active.site m with
  | none => s
  | some site =>
    let a := m * 2 ^ 36 + off
    let line := zeros (off % 64) ++ bs ++ zeros (64 - off % 64 - bs.length)
    ((s.dramWriteFree site off bs).1).addDigest run.tick (a / 64 * 64) line

/-- The unit has written its last line: completion words and reports (R303). -/
def State.bucketDone (s : State) (d t : Nat) (b : List Byte) (run : TickRun) : State :=
  let u := s.bucketFor d t run
  let word := run.tick % 2 ^ 48 + 2 ^ 48 * u.gen + 2 ^ 52 * (u.flags % 32) + 2 ^ 63
  let s := (s.resultDies b d).foldl (fun (s : State) m =>
    match s.active.site m with
    | none => s
    | some site =>
      let s := (s.dramWriteFree site (bkResult b + resultRegion b) (leBytes 8 word)).1
      { s with coll := { s.coll with reports := s.coll.reports ++ [(m, t, run.tick, run.att)] } }) s
  s.putBucket d t { u with complete := true }

/-- A final line goes to the children and into the results; its residue is checked (R298). -/
def State.downLine (s : State) (d t : Nat) (b : List Byte) (l : Line) (run : TickRun) : State :=
  let u := s.bucketFor d t run
  if !l.ok then s.collMismatch (.unit d) 0 t u.downLine run false
  else
    let cs := s.collChildren (bkRoot b) d
    let (bs, fl) := resultBytes b u.sEff l
    let off := bkResult b + u.downLine * bs.length
    let s := (s.resultDies b d).foldl (fun s m => s.resultWrite m off bs run) s
    let ps := cs.map (fun c => { pkt := none, src := .unit d, dst := .unit c, tag := t, gen := u.gen, tick := run.tick, att := run.att,
                                 line := u.downLine, dir := 1, dim := 0, phase := 0, data := l : CollPacket })
    let u := cs.foldl (fun u c => u.send (1 + c)) u
    let s := s.putBucket d t { u with
      downLine := u.downLine + 1, flags := if (s.resultDies b d).isEmpty then u.flags else u.flags ||| fl }
    let s := ps.foldl State.sendReduction s
    if u.downLine + 1 = bkLines b then s.bucketDone d t b run else s

/-- Credits are at hand towards every child. -/
def State.childRoom (s : State) (d : Nat) (b : List Byte) (u : UnitBucket) : Bool :=
  (s.collChildren (bkRoot b) d).all (fun c => decide (u.outTo (1 + c) < bkWindow b))

/-- Final lines that have come from above go on in ascending order while credits last; each consumed line returns its
credit (R296). -/
def State.drainDown (d t : Nat) (b : List Byte) (run : TickRun) : Nat → State → State
  | 0, s => s
  | fuel + 1, s =>
    let u := s.bucketFor d t run
    match SMap.get none u.fromAbove u.downLine with
    | none => s
    | some l =>
      if u.failed || !s.childRoom d b u then s
      else
        let s := s.putBucket d t { u with fromAbove := SMap.set none u.fromAbove u.downLine none }
        let s := s.downLine d t b l run
        let s := match s.collParent (bkRoot b) d with
          | none => s
          | some p => { s with coll := { s.coll with
              returns := s.coll.returns ++ [(.unit p, 1 + d, t, run.tick, run.att)] } }
        State.drainDown d t b run fuel s

/-! Lines upward (R295, R298, R305). -/

/-- A unit reads `n` bytes of a source: `none` when they are poisoned or uncorrectable; `bad` tells that the code shows an
uncorrectable error. -/
def State.srcRead (s : State) (a n : Nat) (bad : Bool) : Option (List Byte) :=
  if bad then none
  else
    match s.active.target a with
    | some (.dram d o) =>
      match s.active.site d with
      | none => none
      | some site => let r := (s.dram site).read o n; if r.1 = stOk then some r.2 else none
    | some (.spad d l o) =>
      match s.active.coreIx d l with
      | none => none
      | some p => if (s.spad p).anyUe o n then none else some ((s.spad p).read o n)
    | _ => none

/-- What such a read leaves behind: it counts at the DRAM, and an uncorrectable line is recorded (R92, R185, R187). -/
def State.srcNote (s : State) (a n : Nat) (bad : Bool) : State :=
  match s.active.target a with
  | some (.dram d o) =>
    match s.active.site d with
    | none => s
    | some site =>
      if (s.dram site).isRetired o then s
      else
        let t := s.bump (unitDie site) (rDRAM_READ_COUNT + 0x200 * dramPort o) 0 32 1
        if bad && !(s.dram site).isPoisoned o then t.lineError site o .many false false else t
  | some (.spad d l o) =>
    match s.active.coreIx d l with
    | none => s
    | some p => s.eccRead p o n ⟨0, if bad then BitVec.ofNat 8 (2 ^ (o / 8 % 8)) else 0⟩ false
  | _ => s

/-- The words of a source line, whether a value overflows the scale (R284, R287). -/
def wordsOfLine (b : List Byte) (sEff : Int) (bs : List Byte) : List Word × Bool :=
  if bkWordsIn b then ((List.range 8).map (fun i => BitVec.ofNat 64 (leAt bs (8 * i) 8)), false)
  else
    let rs := (List.range 8).map (fun i => quant fmtFP32 sEff (bkH b) (leAt bs (4 * i) 4))
    (rs.map (·.1), rs.any (·.2.2))

/-- The next upward line can be summed: every child's packet is in and there is a credit for the sum. -/
def State.upReady (s : State) (d t : Nat) (run : TickRun) : Bool :=
  let b := s.active.bucket t
  let u := s.bucketFor d t run
  u.started && !u.failed && decide (u.upLine < bkLines b)
    && (s.collChildren (bkRoot b) d).all (fun c => (SMap.get none u.fromChild (c * 2 ^ 18 + u.upLine)).isSome)
    && (match s.collParent (bkRoot b) d with
      | some _ => decide (u.outTo 0 < bkWindow b)
      | none => decide (1 < bkPanels b) || s.childRoom d b u)

/-- The root has a final line in staging to send down (R300). -/
def State.stagedReady (s : State) (d t : Nat) (run : TickRun) : Bool :=
  let b := s.active.bucket t
  let u := s.bucketFor d t run
  u.staged && !u.failed && decide (u.downLine < bkLines b) && s.childRoom d b u

/-- Site of the staging region's die. -/
def State.stageSite (s : State) (b : List Byte) : Option Nat := s.active.site (bkRoot b)
/-- A staged line with its residue computed at the read; `none` when it is poisoned or uncorrectable (R301). -/
def State.stageRead (s : State) (b : List Byte) (line : Nat) (bad : Bool) : Option Line :=
  (s.srcRead (bkRoot b * 2 ^ 36 + bkStage b + 64 * line) 64 bad).map (fun bs =>
    let ws := (List.range 8).map (fun i => BitVec.ofNat 64 (leAt bs (8 * i) 8))
    ⟨ws, lineRes ws⟩)
/-- What that read leaves behind. -/
def State.stageNote (s : State) (b : List Byte) (line : Nat) (bad : Bool) : State :=
  s.srcNote (bkRoot b * 2 ^ 36 + bkStage b + 64 * line) 64 bad
def State.stageWrite (s : State) (b : List Byte) (line : Nat) (l : Line) : State :=
  match s.stageSite b with
  | none => s
  | some site => (s.dramWrite site (bkStage b + 64 * line) (l.words.flatMap (fun w => leBytes 8 w.toNat)) .none).1

/-- The sum of an upward line leaves the unit. -/
def State.upSend (s : State) (d t : Nat) (b : List Byte) (l : Line) (run : TickRun) : State :=
  let u := s.bucketFor d t run
  let i := u.upLine
  let cs := s.collChildren (bkRoot b) d
  let u := { u with
    upLine := i + 1, fromChild := cs.foldl (fun m c => SMap.set none m (c * 2 ^ 18 + i) none) u.fromChild }
  let s := { s with coll := { s.coll with
    returns := s.coll.returns ++ cs.map (fun c => (CollNode.unit c, 0, t, run.tick, run.att)) } }
  match s.collParent (bkRoot b) d with
  | some p =>
    let s := s.putBucket d t (u.send 0)
    s.sendReduction { pkt := none, src := CollNode.unit d, dst := CollNode.unit p, tag := t, gen := u.gen, tick := run.tick,
                      att := run.att, line := i, dir := 0, dim := 0, phase := 0, data := l }
  | none =>
    let s := s.putBucket d t u
    if bkPanels b ≤ 1 then s.downLine d t b l run
    else
      let s := s.stageWrite b i l
      if i + 1 = bkLines b then
        { s with coll := { s.coll with signals := s.coll.signals ++ [(t, run.tick, run.att, 0, 0)] } }
      else s

/-- One upward line of a bucket: sources are read, compared and converted, and added to the children's packets. `bad`
lists which of the lines read show an uncorrectable error, used copies first. -/
def State.upStep (s : State) (d t : Nat) (flip : Option (Nat × Nat)) (bad : List Nat) (run : TickRun) : State :=
  let b := s.active.bucket t
  let u := s.bucketFor d t run
  let n := bkSrcLine b
  let i := u.upLine
  let me := CollNode.unit d
  let posts := if s.suppressedAt run.tick then [] else u.used
  let others := if s.suppressedAt run.tick then [] else u.posts.filter (fun p => !u.used.contains p)
  let read := fun (k : Nat) (p : Post) => (p, s.srcRead (p.src + i * n) n (bad.contains k))
  let got := posts.mapIdx read
  let cmp := others.mapIdx (fun k p => read (posts.length + k) p)
  let s := ((posts ++ others).mapIdx (fun k p => (k, p))).foldl
    (fun (s : State) e => s.srcNote (e.2.src + i * n) n (bad.contains e.1)) s
  if (got ++ cmp).any (fun e => e.2.isNone) then s.collFail me 0 t 5 0 0 i run false
  else
    match others.find? (fun p => bkWordsIn b && toSigned 16 p.qs != u.sEff) with
    | some p => s.collFail me 0 t 3 p.contrib p.copy i run false
    | none =>
      let differs := fun (e : Post × Option (List Byte)) =>
        got.any (fun g => g.1.die == e.1.die && g.1.contrib == e.1.contrib && g.2 != e.2)
      match cmp.find? differs with
      | some e =>
        let other := ((got.find? (fun g => g.1.die == e.1.die && g.1.contrib == e.1.contrib)).map (·.1.core)).getD 0
        (s.collFail me 0 t 4 e.1.contrib 0 i run false).raise .jobAffecting 0x52 (s.collSrcOf me) (some run.tick)
          ((s.gid other).getD 0x3FFF + 2 ^ 16 * (s.gid e.1.core).getD 0x3FFF)
      | none =>
        let ws := got.map (fun e => wordsOfLine b u.sEff (e.2.getD []))
        let armed := s.maint.armedBucket == some (s.collKeyOf me)
        if ws.any (·.2) then s.collFail me 0 t 2 0 0 i run false
        else
          let (f, s) := if armed then s.freeNat else (0, s)
          let s := if armed then { s with maint := { s.maint with armedBucket := none } } else s
          let flip := if armed then some (f % 8, f / 8 % 64) else flip
          let cs := (s.collChildren (bkRoot b) d).filterMap (fun c => SMap.get none u.fromChild (c * 2 ^ 18 + i))
          match addLine (ws.map (fun w => ⟨w.1, lineRes w.1⟩) ++ cs) flip with
          | .overflow => s.collFail me 0 t 2 0 0 i run false
          | .mismatch => s.collMismatch me 0 t i run armed
          | .line l => s.upSend d t b l run

/-- The root sends the next final line down from staging. -/
def State.stagedStep (s : State) (d t : Nat) (bad : List Nat) (run : TickRun) : State :=
  let b := s.active.bucket t
  let u := s.bucketFor d t run
  let staged := s.stageRead b u.downLine (bad.contains 0)
  let s := s.stageNote b u.downLine (bad.contains 0)
  match staged with
  | none => s.collFail (.unit d) 0 t 5 0 0 u.downLine run false
  | some l => s.downLine d t b l run

/-- The tag that round robin serves next (R295). -/
def nextTag (last : Nat) (ready : List Nat) : Option Nat :=
  match ready.find? (fun t => decide (last < t)) with
  | some t => some t
  | none => ready.head?

/-! Engines (R300). -/

/-- Empty shards take no step. -/
def skipSteps (p size : Nat) (lo n phase : Nat) : Nat → Nat → Nat → Nat
  | 0, _, st => st
  | fuel + 1, line, st =>
    if size ≤ st then st
    else
      let j := if phase = 0 then (p + size - st) % size else (p + 1 + size - st) % size
      if line < (shard lo n size j).2 then st else skipSteps p size lo n phase fuel 0 (st + 1)

/-- A stage of an engine is over: the next one is signalled (R300). -/
def State.stageOver (s : State) (dim t : Nat) (u : EngineBucket) (run : TickRun) : State :=
  let s := s.putEngine dim t { u with running := false }
  let next : Nat × Nat :=
    if u.phase = 0 then (if dim + 1 < s.sysK then (dim + 1, 0) else (dim, 1))
    else if dim = 0 then (0, 2) else (dim - 1, 1)
  { s with coll := { s.coll with signals := s.coll.signals ++ [(t, run.tick, run.att, next.1, next.2)] } }

/-- The engine's place after a line, and the end of its stage. -/
def State.engineMoved (s : State) (dim t : Nat) (u : EngineBucket) (run : TickRun) : State :=
  let size := s.ringSize dim
  let st := skipSteps (s.ringPos dim) size u.lo u.n u.phase (size + 1) u.line u.step
  let u := if st = u.step then u else { u with step := st, line := 0 }
  if size ≤ st then s.stageOver dim t u run else s.putEngine dim t u

/-- A line of another panel's or this panel's engine, as the slot of a port (R311). -/
def CollPacket.slot (k : CollPacket) : VSlot :=
  .coll k.dim k.tag k.gen k.tick k.data.residue k.line k.phase k.att k.data.words

/-- A line leaves on the successor port of its rail; the link die of another rail than the engine's relays it, a packet of
VC 4 away (R316). -/
def State.ringSend (s : State) (dim t line phase : Nat) (l : Line) (run : TickRun) : State :=
  let rails := railsOf s.sysK dim
  let port := 4 + rails.getD (line % rails.length) 0
  let k : CollPacket := { pkt := none, src := .engine (s.engineLink dim), dst := .engine port, tag := t, gen := s.genOf t,
                          tick := run.tick % 2 ^ 32, att := run.att % 256, line := line, dir := 2, dim := dim, phase := phase, data := l }
  if port = s.engineLink dim then s.queueSlot port k.slot else s.sendReduction k

/-- One line of an engine's stage. -/
def State.engineStep (s : State) (dim t : Nat) (flip : Option (Nat × Nat)) (bad : List Nat) (run : TickRun) : State :=
  let b := s.active.bucket t
  let u := s.engineFor dim t run
  let size := s.ringSize dim
  let p := s.ringPos dim
  let me := CollNode.engine (s.engineLink dim)
  if !u.running || u.failed then s
  else
    let j := if u.phase = 0 then (p + size - u.step) % size else (p + 1 + size - u.step) % size
    let line := (shard u.lo u.n size j).1 + u.line
    let key := u.phase * 2 ^ 18 + line
    let staged := s.stageRead b line (bad.contains 0)
    let s := if u.step = 0 ∨ u.phase = 0 then s.stageNote b line (bad.contains 0) else s
    let moved := { u with line := u.line + 1, inbox := SMap.set none u.inbox key none }
    let last := u.step + 1 == size
    match u.step, SMap.get none u.inbox key with
    | 0, _ =>
      match staged with
      | none => s.collFail me dim t 5 0 0 line run false
      | some l => (s.ringSend dim t line u.phase l run).engineMoved dim t moved run
    | _ + 1, none => s
    | _ + 1, some x =>
      if u.phase = 0 then
        match staged with
        | none => s.collFail me dim t 5 0 0 line run false
        | some l =>
          match addLine [x, l] flip with
          | .overflow => s.collFail me dim t 2 0 0 line run false
          | .mismatch => s.collMismatch me dim t line run false
          | .line o =>
            ((if last then s.stageWrite b line o else s.ringSend dim t line 0 o run)).engineMoved dim t moved run
      else if !x.ok then s.collMismatch me dim t line run false
      else
        let s := s.stageWrite b line x
        (if last then s else s.ringSend dim t line 1 x run).engineMoved dim t moved run

/-- UNIT_LINE_STEP: a unit serves one line of the ready bucket that round robin names, or an engine one line of a bucket;
`flip` is an adder's error. -/
def execUnitLineStep (w : CollAt) (flip : Option (Fin 8 × Fin 64)) (bad : List Nat) (s : State) : Res :=
  match s.collRun with
  | none => .next s
  | some run =>
    let flip := flip.map (fun e => (e.1.val, e.2.val))
    match w with
    | .engine dim tag =>
      when (decide (dim.val < s.sysK) && s.takesPart tag.val run) s (s.engineStep dim.val tag.val flip bad run)
    | .unit d =>
      let ready := (s.active.tagsOf run.prog).filter (fun t => s.upReady d.val t run || s.stagedReady d.val t run)
      match nextTag (s.unit d.val).lastTag ready with
      | none => .next s
      | some t =>
        let s := s.modUnit d.val (fun u => { u with lastTag := t })
        if s.upReady d.val t run then .next (s.upStep d.val t flip bad run)
        else .next (s.stagedStep d.val t bad run)

/-! Packets, credits and signals (R296, R298, R300). -/

/-- A line with one bit flipped. -/
def Line.flipped (l : Line) (f : Option (Fin 8 × Fin 64)) : Line :=
  match f with
  | none => l
  | some (i, b) => { l with words := l.words.set i.val ((l.words.getD i.val 0) ^^^ BitVec.ofNat 64 (2 ^ b.val)) }

/-- The port that a link die relays a packet to: it is not the engine of the packet's dimension (R316). -/
def State.relayPort (s : State) (k : CollPacket) : Option Nat :=
  match k.dst with
  | .engine l => if l = s.engineLink k.dim then none else some l
  | .unit _ => none

/-- COLLECTIVE_PACKET: packet `n` arrives; `flip` is what has happened to it on its way. One that is not current is
discarded and counted, without a credit. -/
def execCollectivePacket (n : Nat) (flip : Option (Fin 8 × Fin 64)) (s : State) : Res :=
  match s.coll.packets[n]? with
  | none => .next s
  | some k =>
    if s.inMesh k then .next s
    else
    let s : State := { s with coll := { s.coll with packets := s.coll.packets.eraseIdx n } }
    match s.relayPort k with
    | some port => .next (s.queueSlot port { k with data := k.data.flipped flip }.slot)
    | none =>
    let stale : State := { s with coll := { s.coll with stale := s.coll.stale + 1 } }
    match s.collRun with
    | none => .next stale
    | some run =>
      let l := k.data.flipped flip
      let cur := if k.dir = 2 then k.tick == run.tick % 2 ^ 32 && k.att == run.att % 256
        else k.tick == run.tick && k.att == run.att
      if !cur || !s.takesPart k.tag run || k.gen != s.genOf k.tag then .next stale
      else
        let b := s.active.bucket k.tag
        match k.dst, k.src with
        | .unit d, .unit c =>
          let u := s.bucketFor d k.tag run
          if k.dir = 0 then
            .next (s.putBucket d k.tag { u with fromChild := SMap.set none u.fromChild (c * 2 ^ 18 + k.line) (some l) })
          else
            let s := s.putBucket d k.tag { u with fromAbove := SMap.set none u.fromAbove k.line (some l) }
            .next (State.drainDown d k.tag b run 65 s)
        | .engine _, _ =>
          let u := s.engineFor k.dim k.tag run
          .next (s.putEngine k.dim k.tag { u with
            inbox := SMap.set none u.inbox (k.phase * 2 ^ 18 + k.line) (some l) })
        | _, _ => .next s

/-- LINE_CREDIT_RETURN: a line credit reaches its sender, which goes on with the lines that waited for it. -/
def execLineCreditReturn (n : Nat) (s : State) : Res :=
  match s.coll.returns[n]?, s.collRun with
  | some (.unit d, key, t, tick, att), some run =>
    let s : State := { s with coll := { s.coll with returns := s.coll.returns.eraseIdx n } }
    if tick ≠ run.tick ∨ att ≠ run.att then .next s
    else
      let u := s.bucketFor d t run
      let s := s.putBucket d t { u with out := SMap.set 0 u.out key (u.outTo key - 1) }
      .next (State.drainDown d t (s.active.bucket t) run 65 s)
  | some _, _ => .next { s with coll := { s.coll with returns := s.coll.returns.eraseIdx n } }
  | none, _ => .next s

/-- ENGINE_STAGE_SIGNAL: a stage starts at its engine, or the root learns that the final lines are in staging. -/
def execEngineStageSignal (n : Nat) (s : State) : Res :=
  match s.coll.signals[n]? with
  | none => .next s
  | some (t, tick, att, dim, phase) =>
    let s : State := { s with coll := { s.coll with signals := s.coll.signals.eraseIdx n } }
    match s.collRun with
    | none => .next s
    | some run =>
      if tick ≠ run.tick ∨ att ≠ run.att then .next s
      else
        let b := s.active.bucket t
        if phase = 2 then
          let root := (s.collQ (bkRoot b)).getD 0 0
          .next (s.putBucket root t { s.bucketFor root t run with staged := true })
        else
          let r := s.collRange (bkLines b) dim
          let u := { s.engineFor dim t run with
            phase := phase, lo := r.1, n := r.2, step := 0, line := 0, running := true }
          .next (s.engineMoved dim t u run)

/-! At the management die (R303, R304). -/

/-- BUCKET_COMPLETION_REPORT: a member's report arrives; with every member's, the bucket completes. -/
def execBucketCompletionReport (n : Nat) (s : State) : Res :=
  match s.coll.reports[n]? with
  | none => .next s
  | some (m, t, tick, att) =>
    let s : State := { s with coll := { s.coll with reports := s.coll.reports.eraseIdx n } }
    match s.collRun with
    | none => .next s
    | some run =>
      if tick ≠ run.tick ∨ att ≠ run.att then .next s
      else
        let l := insertAsc m (SMap.get [] s.coll.reported t)
        let s : State := { s with coll := { s.coll with reported := SMap.set [] s.coll.reported t l } }
        if (List.range 192).all (fun d => !bkMember (s.active.bucket t) d || l.contains d) then
          .next (((s.bump unitMgmt rCOLL_COUNT 0 32 1).modRun tick (fun r => { r with
            bucketsOpen := r.bucketsOpen.filter (fun x => x != t) })).tryCommit)
        else .next s

/-- The record of a unit is acknowledged: the cores of its die may vote, with OK = 0 (R304). -/
def State.badVotes (s : State) (n : CollNode) (tick : Nat) : State :=
  match n with
  | .engine _ => s
  | .unit d =>
    let s : State := { s with coll := { s.coll with badDies := s.coll.badDies.filter (fun x => x != d) } }
    ((List.range 48).filterMap (fun l => s.active.coreIx d l)).foldl (fun (s : State) p =>
      (s.modCore p (fun c => { c with node := { c.node with
        voteBad := SMap.set false c.node.voteBad (tickp tick) true } })).tryVote p tick) s

/-- FAILURE_RECORD: a record reaches the management die. The first of an attempt abandons the tick, and raises the scale
when the record says so; the cores of its die may then vote, with OK = 0. A record of an earlier attempt only counts. -/
def execFailureRecord (n : Nat) (s : State) : Res :=
  match s.coll.failures[n]? with
  | none => .next s
  | some f =>
    let s : State := { s with coll := { s.coll with failures := s.coll.failures.eraseIdx n } }
    let s := s.bump unitMgmt rCOLL_COUNT 32 32 1
    let src := match f.src with
      | .unit d => 2 ^ 18 * d
      | .engine l => 2 ^ 17 + 2 ^ 18 * l
    let s := if bit (s.reg unitMgmt rCOLL_FAIL) 63 then s
      else s.setReg unitMgmt rCOLL_FAIL
        (f.tag + 2 ^ 10 * f.gen + 2 ^ 14 * f.cause + src + 2 ^ 32 * (f.tick % 2 ^ 16) + 2 ^ 63)
    match s.tickRun f.tick with
    | none => .next s
    | some run =>
      if run.att ≠ f.att then .next s
      else .next ((s.badVotes f.src f.tick).abandon f.tick .bucket (if f.cause = 2 then some f.tag else none) f.inj)

end Sys2Proof.Machine
end

