-- ==== Sys2Proof/Machine/VorradOps.lean ====
section
/-!
DEFINITION. The system of panels seen from one panel (R315–R321): positions, ports and their dimensions, routes, the
control tree, and the transfer contexts (R323–R327).
-/
namespace Sys2Proof.Machine

/-! Positions (R315, R316). -/

/-- The coordinate of a panel number in a dimension. -/
def State.coordOf (s : State) (n d : Nat) : Nat := n / s.sysStride d % max 1 (s.ringSize d)
/-- The panel one step along a dimension. -/
def State.neighbour (s : State) (d : Nat) (succ : Bool) : Nat :=
  let p := s.ringPos d
  let size := s.ringSize d
  let q := if succ then (p + 1) % size else (p + size - 1) % size
  s.panelNo + q * s.sysStride d - p * s.sysStride d

/-- The rail, the direction and the dimension of a port. -/
def railOf (i : Nat) : Nat := i % 4
def isSucc (i : Nat) : Bool := decide (4 ≤ i)
def State.dimOf (s : State) (i : Nat) : Nat :=
  ((List.range s.sysK).find? (fun d => (railsOf s.sysK d).contains (railOf i))).getD 0
/-- The port of a rail in a direction. -/
def portOf (rail : Nat) (succ : Bool) : Nat := if succ then 4 + rail else rail
/-- The port of the first working rail of a dimension in a direction (R318, R329). -/
def State.workingPort (s : State) (d : Nat) (succ : Bool) : Option Nat :=
  ((railsOf s.sysK d).map (fun r => portOf r succ)).find? (fun i => s.portState i == 2)

/-! The control tree (R318). -/

/-- The panel one step along dimension `d` is a child. -/
def State.isChild (s : State) (d : Nat) (succ : Bool) : Bool :=
  let size := s.ringSize d
  let p := s.ringPos d
  let q := if succ then (p + 1) % size else (p + size - 1) % size
  decide (s.homeDim.getD 0 ≤ d) && q != 0 && homeSucc size q == !succ
/-- The children, each named 2 × dimension + direction. -/
def State.sysChildren (s : State) : List Nat :=
  (List.range s.sysK).flatMap (fun d =>
    ([false, true] : List Bool).filterMap (fun u => if s.isChild d u then some (2 * d + b2n u) else none))
/-- The child or parent that a port leads to: 2 × dimension + direction. -/
def State.sideOf (s : State) (i : Nat) : Nat := 2 * s.dimOf i + b2n (isSucc i)

/-! System records (R319). -/

/-- A record from its 32 bytes. -/
def SysRecord.decode (b : List Byte) : SysRecord :=
  let w := leAt b 2 2
  { type := leAt b 0 1, att := leAt b 1 1, cause := field w 0 4, tag := field w 4 10, raise := bit w 14, nora := bit w 15,
    tick := leAt b 4 8, remain := leAt b 12 4, ks := (List.range 16).map (fun h => field (leAt b 16 14) (7 * h) 7) }

/-- A record leaves towards a neighbour in the tree, on the first working rail. -/
def State.sendRecord (s : State) (side : Nat) (r : SysRecord) : State :=
  match s.workingPort (side / 2) (side % 2 == 1) with
  | none => s
  | some i => s.queueRecord i r

/-- A record goes to every child. A MARK loses the relay time `spent` (fabric cycles) and the delay of the child port
(R321). -/
def State.sendDown (s : State) (r : SysRecord) (spent : Option Nat) : State :=
  s.sysChildren.foldl (fun s c =>
    let d := ((s.workingPort (c / 2) (c % 2 == 1)).map (fun i => s.fld (unitEdge i) rVLNK_PEER 16 16)).getD 0
    match spent with
    | none => s.sendRecord c r
    | some n => s.sendRecord c { r with remain := r.remain - n / Config.cycHal - d * 21 / 2000 }) s

/-- A record goes to the parent. -/
def State.sendUp (s : State) (r : SysRecord) : State :=
  match s.sysParent with
  | none => s
  | some (d, u) => s.sendRecord (2 * d + b2n u) r

/-- The panel is in a fabric reset: its link dies run without the management die (R318, R328). -/
def State.inFabricReset (s : State) : Bool := s.boot.level == 2 && s.fld unitBar rHOST_DEVICE_STATUS 0 3 == 0

/-- A link die relays a record among the ports (R318): downward records to every child port, the first ABORT of an
attempt to the parent port; END, OFFER and HIST_UP are discarded. -/
def State.relayRecord (s : State) (r : SysRecord) : State :=
  if r.type = 3 then
    if s.vorrad.aborts.contains (r.tick, r.att) then s
    else
      let s : State := { s with vorrad := { s.vorrad with aborts := s.vorrad.aborts ++ [(r.tick, r.att)] } }
      s.sendUp r
  else if r.type = 5 then s.sendDown r (some 0)
  else if 6 ≤ r.type ∧ r.type ≤ 8 then s.sendDown r none
  else s

/-! Routes (R317). -/

/-- The fields of a transfer slot that routing reads. -/
structure XRoute where
  dst : Nat
  ctx : Nat
  ack : Bool
deriving DecidableEq, Repr

/-- The first dimension in which the destination differs. -/
def State.routeDim (s : State) (dst : Nat) : Option Nat :=
  (List.range s.sysK).find? (fun d => s.coordOf dst d != s.ringPos d)

/-- The direction in dimension `d` (R317): a slot that came in along it goes on, else the shorter way, the successor one
on a tie, the other way when reversed. -/
def State.routeSucc (s : State) (dst d : Nat) (from_ : Nat) (rev : Bool) : Bool :=
  if from_ < 8 ∧ s.dimOf from_ = d then !isSucc from_
  else
    let size := s.ringSize d
    let up := (s.coordOf dst d + size - s.ringPos d) % size
    let short := decide (up ≤ size - up)
    if rev then !short else short

/-- The hop of dimension `d` crosses its dateline. -/
def State.crosses (s : State) (d : Nat) (succ : Bool) : Bool :=
  if succ then s.ringPos d + 1 == s.ringSize d else s.ringPos d == 0

/-- The class a slot travels in on its next hop (R211, R317): request or reply on the last hop, else pool A, and pool B
from the dateline on. -/
def State.routeClass (s : State) (r : XRoute) (d : Nat) (succ : Bool) (from_ cls : Nat) : Nat :=
  if s.neighbour d succ = r.dst then (if r.ack then 3 else 2)
  else if s.crosses d succ ∨ (from_ < 8 ∧ s.dimOf from_ = d ∧ cls = 5) then 5 else 4

/-- The slot that answers a discarded one (R317); a discarded PATH_DOWN slot is not answered. -/
def pathDownSlot (me d : Nat) : VSlot → Option VSlot
  | .coll .. => none
  | .xfer _ ack _ dctx lseq _ sctx spanel st _ _ =>
    if ack ∧ st = 3 then none else some (.xfer 3 true spanel sctx lseq 0 dctx me 3 d [])

/-! The hem ring (R19–R21, R211). -/

/-- The role of a segment. -/
inductive HemRole where
  | ring | chord
  /-- it stands in for another segment -/
  | alternate (of_ : Nat)
deriving DecidableEq, Repr

/-- A segment of the hem ring: the link dies it joins, and the spar whose yard tracks carry it (none: an edge segment). -/
structure HemSegment where
  a : Nat
  b : Nat
  spar : Option Nat
  role : HemRole
deriving DecidableEq, Repr

/-- The segments of R20, in its order. -/
def hemSegments : List HemSegment :=
  [⟨0, 1, none, .ring⟩, ⟨1, 2, none, .ring⟩, ⟨2, 3, none, .ring⟩, ⟨4, 5, none, .ring⟩, ⟨5, 6, none, .ring⟩, ⟨6, 7, none, .ring⟩,
   ⟨0, 4, some 0, .ring⟩, ⟨3, 7, some 5, .ring⟩, ⟨1, 5, some 2, .chord⟩, ⟨2, 6, some 3, .chord⟩,
   ⟨0, 4, some 1, .alternate 6⟩, ⟨3, 7, some 4, .alternate 7⟩]

/-- The spar ends that an edge die touches (R19). -/
def sparEnds (e : Nat) : List Nat :=
  if e = 8 then [0] else if e = 9 then [5] else ([[0, 1], [1, 2], [3, 4], [4, 5]] : List (List Nat)).getD (e % 4) []

/-- Channels of a segment in each direction, each of 64 bytes per fabric cycle, and its halyard wires (R19). -/
def hemChannels : Nat := 8
def hemHalyardWires : Nat := 64

/-- The segment carries slots: it has not failed; an alternate carries them in place of a segment that has. -/
def State.hemCarries (s : State) (k : Nat) : Bool :=
  !s.vorrad.hemDown.contains k && (match (hemSegments[k]?).map HemSegment.role with
    | some (.alternate r) => s.vorrad.hemDown.contains r
    | some _ => true
    | none => false)

/-- The link dies one segment away, lower numbers first. -/
def State.hemBeside (s : State) (v : Nat) : List Nat :=
  (List.range 8).filter (fun w => (List.range 12).any (fun k => s.hemCarries k && (match hemSegments[k]? with
    | some x => (x.a == v && x.b == w) || (x.a == w && x.b == v)
    | none => false)))

/-- Levels from V0, by breadth-first search over the segments in use: `n` more levels behind those found. -/
def State.hemLevels (s : State) : Nat → List (Nat × Nat) → List (Nat × Nat)
  | 0, seen => seen
  | n + 1, seen =>
    s.hemLevels n (seen ++ ((List.range 8).filter (fun v => !seen.any (fun e => e.1 == v)
      && (s.hemBeside v).any (fun w => seen.any (fun e => e.1 == w)))).map (fun v => (v, 7 - n)))

/-- A step from `v` to `w` goes up, towards V0: to a lower level, or at one level to a lower number. -/
def hemUp (lv : List (Nat × Nat)) (v w : Nat) : Bool :=
  let l := fun x => ((lv.find? (fun e => e.1 == x)).map (·.2)).getD 8
  decide (l w < l v) || (l w == l v && decide (w < v))

/-- Link die `goal` is reached from `v` in `n` segments, up and then down (R211); `down` tells that a step down has been
taken. -/
def State.hemReaches (s : State) (lv : List (Nat × Nat)) (goal : Nat) : Nat → Nat → Bool → Bool
  | 0, v, _ => v == goal
  | n + 1, v, down => (s.hemBeside v).any (fun w =>
    if hemUp lv v w then !down && s.hemReaches lv goal n w false else s.hemReaches lv goal n w true)

/-- The next link die on the way from `v` to `goal`, and whether the step goes down: a shortest way up and then down, the
lowest number where several are (DESIGN CHOICE, log 121). -/
def State.hemNext (s : State) (v goal : Nat) (down : Bool) : Option (Nat × Bool) :=
  let lv := s.hemLevels 7 [(0, 0)]
  match (List.range 9).find? (fun n => s.hemReaches lv goal n v down) with
  | some (n + 1) => ((s.hemBeside v).find? (fun w =>
      if hemUp lv v w then !down && s.hemReaches lv goal n w false else s.hemReaches lv goal n w true)).map (fun w =>
        (w, !hemUp lv v w))
  | _ => none

/-- A slot enters the hem ring at a link die. -/
def State.enterHem (s : State) (place port : Nat) (rev : List Nat) (x : VSlot) : State :=
  { s with vorrad := { s.vorrad with hem := s.vorrad.hem ++ [⟨place, port, port, false, rev, x⟩] } }

/-- A new slot of this panel, at a link die. -/
def State.sendSlot (s : State) (place : Nat) (x : VSlot) (rev : List Nat) : State := s.enterHem place 8 rev x

/-- Slot `n` leaves the hem ring; the receive buffer of its port is free. -/
def State.leaveHem (s : State) (n : Nat) (h : HemSlot) : State :=
  ({ s with vorrad := { s.vorrad with hem := s.vorrad.hem.eraseIdx n } } : State).returnSlot h.port h.slot.cls

/-- Slot `n` takes one segment towards link die `goal`. -/
def State.hemHop (s : State) (n : Nat) (h : HemSlot) (goal : Nat) : State :=
  match s.hemNext h.place goal h.down with
  | none => s
  | some (v, dn) =>
    ({ s with vorrad := { s.vorrad with hem := s.vorrad.hem.set n { h with place := v, port := 8, down := dn } } } : State).returnSlot
      h.port h.slot.cls

/-- Slot `n` goes on: towards the link die of its context, or of the port of its next panel, which then takes it; with that
port down it is discarded and answered (R317). -/
def State.hemMove (s : State) (n : Nat) (h : HemSlot) : State :=
  match h.slot with
  | .coll .. => s
  | .xfer cls ack dst dctx lseq line sctx spanel st dim data =>
    match s.routeDim dst with
    | none => if h.place = dctx / 512 then s else s.hemHop n h (dctx / 512)
    | some d =>
      let succ := s.routeSucc dst d h.via (h.rev.contains d)
      let rails := railsOf s.sysK d
      let port := portOf (rails.getD (sctx % rails.length) 0) succ
      let c := s.routeClass ⟨dst, sctx, ack⟩ d succ h.via cls
      if s.portState port = 1 ∨ s.portState port = 2 then
        if h.place = port then (s.leaveHem n h).queueSlot port (.xfer c ack dst dctx lseq line sctx spanel st dim data)
        else s.hemHop n h port
      else
        match pathDownSlot s.panelNo d h.slot with
        | none => s.leaveHem n h
        | some y => (s.leaveHem n h).sendSlot h.place y []

/-! Completion (R326). -/

/-- The command that waits for a context: SHARD_EXPORT (0x42) or SHARD_IMPORT (0x43). -/
def State.ctxCommand (s : State) (c : Nat) : Option (Nat × HostCmd) :=
  (s.host.pairs.flatMap (fun e => e.2.cmds.map (fun x => (e.1, x)))).find? (fun e =>
    e.2.phase == .waiting && (e.2.opcode == 0x42 || e.2.opcode == 0x43) && e.2.note == c)

/-- A post ends with a status: its completion word, or its command (R326, R452). -/
def State.postEnds (s : State) (c : Nat) (p : XPost) (st : Nat) : State :=
  if p.command then
    match s.ctxCommand c with
    | none => s
    | some (q, x) => if st = 0 then s.finish q x.cid 0 0 p.length else s.finish q x.cid 0x0F st 0
  else s.edgeWrite (c / 512) p.doneAddr (leBytes 8 (p.number % 2 ^ 32 + 2 ^ 32 * st + 2 ^ 63))

/-- A send context fails: every post on it ends with the status, and the context is BROKEN. -/
def State.ctxFail (s : State) (c st : Nat) : State :=
  let x := s.ctx c
  let s := s.modCtx c (fun x => { XCtx.reset with st := 2, seq := x.seq, nextNumber := x.nextNumber })
  x.posts.foldl (fun s p => s.postEnds c p st) s

/-- A posts' lines are all acknowledged: it completes, and with it the reversal of routes (R317, R326). -/
def State.ctxFinish (s : State) (c : Nat) : Nat → State
  | 0 => s
  | fuel + 1 =>
    match (s.ctx c).posts with
    | [] => s
    | p :: ps =>
      if p.acked * 64 < p.length then s
      else
        let s := s.modCtx c (fun x => { x with posts := ps, reversed := [], pathAt := none, st := if x.st = 3 then 1 else x.st })
        (s.postEnds c p 0).ctxFinish c fuel

/-- An acknowledgement slot of a receive context (R311, R325). -/
def State.ctxAck (s : State) (c st lseq : Nat) : State :=
  s.sendSlot (c / 512) (.xfer 3 true (s.ctxPanel c) (s.ctxPeer c) (lseq % 2 ^ 32) 0 c s.panelNo st 0 []) (s.ctx c).reversed

/-- A receive context acknowledges E − 1, once its DRAM writes are done (R325). -/
def State.ctxAckDue (s : State) (c : Nat) : State :=
  let x := s.ctx c
  if x.dram.isEmpty then
    (s.modCtx c (fun x => { x with sinceAck := 0, lineAt := none, ackDue := false })).ctxAck c 0 (x.seq + 2 ^ 32 - 1)
  else s.modCtx c (fun x => { x with ackDue := true })

/-- A fabric reset breaks every open context; its posts end without a word, and a shard transfer's command ends with
PEER_RESET (R328, R452). -/
def State.ctxsReset (s : State) : State :=
  let s : State := { s with vorrad := { s.vorrad with
      ctxs := SMap.mapAll XCtx.reset (fun _ x =>
        if x.st = 0 then x else { XCtx.reset with st := 2, seq := x.seq, nextNumber := x.nextNumber }) s.vorrad.ctxs } }
  s.host.pairs.foldl (fun (s : State) e => e.2.cmds.foldl (fun (s : State) c =>
    if c.phase == .waiting && (c.opcode == 0x42 || c.opcode == 0x43) then s.finish e.1 c.cid 0x0F 2 0 else s) s) s

/-- A context opens or closes as its `CFG` is written (R323, R331). -/
def State.ctxOpen (s : State) (c mode : Nat) : State :=
  s.modCtx c (fun _ => if mode = 0 then XCtx.reset else { XCtx.reset with st := 1 })

end Sys2Proof.Machine
end

