-- ==== Sys2Proof/Machine/Vorrad.lean ====
section
/-!
DEFINITION. The commands of the Vorrad ports, the system records and the transfer contexts (spec/14).
-/
namespace Sys2Proof.Machine

/-! Flits (R310–R312). -/

/-- Slot `k` of a data flit (R311). -/
def decodeSlot (f : List Byte) (k : Nat) : Option VSlot :=
  let h := leAt f (12 + 16 * k) 16
  let data := (f.drop (64 + 64 * k)).take 64
  let c := field h 0 3
  if c = 1 then
    some (.coll (field h 4 2) (field h 16 10) (field h 26 4) (field h 32 32) (field h 64 16) (field h 80 18) (field h 98 1)
      (field h 99 8) ((List.range 8).map (fun i => BitVec.ofNat 64 (leAt data (8 * i) 8))))
  else if 2 ≤ c ∧ c ≤ 5 then
    some (.xfer c (bit h 3) (field h 4 12) (field h 16 12) (field h 32 32) (field h 64 28) (field h 92 12)
      (field h 104 12) (field h 116 8) (field h 124 2) (if bit h 3 then [] else data))
  else none

/-- The system records of a halyard flit. -/
def decodeRecords (f : List Byte) : List SysRecord :=
  ((List.range 6).map (fun k => SysRecord.decode ((f.drop (64 + 32 * k)).take 32))).filter (fun r =>
    decide (1 ≤ r.type) && decide (r.type ≤ 8))

/-- Records of a port that its receive buffer holds. -/
def State.recordsHeld (s : State) (i : Nat) : Nat := (s.vorrad.inbox.filter (fun e => e.1 == i)).length

/-- The flits up to ACK are freed, when ACK names one of them. -/
def VPort.free (p : VPort) (ack now : Nat) : VPort :=
  if p.unacked.any (fun f => f.1 == ack) then
    { p with unacked := (p.unacked.dropWhile (fun f => f.1 != ack)).drop 1, ackAt := now }
  else p

/-- The unacknowledged flits are sent again, in their order (R312). -/
def State.replay (s : State) (i : Nat) : State :=
  match (s.port i).unacked.getLast? with
  | none => s
  | some (n, b) =>
    (s.modVPort i (fun p => { p with ackAt := s.now, wire := p.flit n b })).bump (unitEdge i) rVLNK_RETRY 0 32 1

/-- Uncorrectable codewords on lanes: counted, and a lane with more than 8 in 1 ms is to be retired (R435). Those of an
injection count for nothing. -/
def State.badLanes (s : State) (i : Nat) (bad : List Nat) : State :=
  bad.foldl (fun s lane =>
    let s := s.bump (unitEdge i) rVLNK_FEC 32 32 1
    if s.isInjected 3 (i + 256 * lane) then s
    else
      let errs := (s.maint.laneErrors ++ [((i, lane), s.now)]).filter (fun e => decide (s.now ≤ e.2 + Config.cycMs))
      let s : State := { s with maint := { s.maint with laneErrors := errs } }
      let p := s.port i
      if decide (8 < (errs.filter (fun e => e.1 == (i, lane))).length) && !p.retireLanes.contains lane
          && !bit (s.reg (unitEdge i) rVLNK_STATUS) (16 + lane) then
        let s := s.modVPort i (fun p => { p with retireLanes := insertAsc lane p.retireLanes })
        (s.appendLog 10 (204 + i) lane 0).raise .degraded 0xB4 (edgeSrc i 0x3F) none lane
      else s) s

/-- ACK, NAK and CREDITS of a flit that is taken. -/
def State.flitHead (s : State) (i : Nat) (f : List Byte) : State :=
  let w := leAt f 3 2
  let s := s.modVPort i (fun p => { (p.free (field w 0 12) s.now) with
    credits := (List.range 5).foldl (fun m c => SMap.set 0 m (c + 1) (SMap.get 0 m (c + 1) + leAt f (5 + c) 1)) p.credits })
  let p := s.port i
  let s := match p.rehearse with
    | none => s
    | some q =>
      if q ≠ p.nextSeq ∧ !p.unacked.any (fun f => f.1 == q) then
        (s.modVPort i (fun p => { p with rehearse := none })).endInjection
      else s
  if bit w 12 then s.replay i else s

/-- What an accepted flit brings. -/
def State.flitBody (s : State) (i : Nat) (f : List Byte) : State :=
  let kind := field (leAt f 0 1) 0 4
  if kind = 1 then
    (List.range 3).foldl (fun (s : State) k =>
      match decodeSlot f k with
      | none => s
      | some (.coll dim tag gen tick res line ph att ws) =>
        let p : CollPacket := { pkt := none, src := .engine i, dst := .engine (s.engineLink dim), tag := tag, gen := gen, tick := tick,
                                att := att, line := line, dir := 2, dim := dim, phase := ph, data := ⟨ws, res⟩ }
        (s.sendReduction p).returnSlot i 1
      | some x => s.enterHem i i [] x) s
  else if kind = 2 then
    if s.inFabricReset then (decodeRecords f).foldl (fun s r => s.relayRecord r) s
    else { s with vorrad := { s.vorrad with inbox := s.vorrad.inbox ++ (decodeRecords f).map (fun r => (i, s.now, r)) } }
  else
    (s.modVPort i (fun p => { p with announced := true, trainBy := some (s.now + 40 * Config.cycUs) })).setPortState i 1

/-- FLIT_RECEIVE: a flit of 256 bytes arrives at a port that is up; `corrected` symbols were corrected in it, and an
uncorrectable codeword of each lane of `bad` touched it (R312). A flit that is discarded has no effect but that count and
NAK; while NAK stands, so is every flit until the replay. -/
def execFlitReceive (i : Fin 8) (flit : List Byte) (corrected : Nat) (bad : List (Fin 16)) (s : State) : Res :=
  let i := i.val
  if flit.length ≠ 256 then .fault (.illFormed "flit")
  else if s.portState i ≠ 2 then .next s
  else
    let u := unitEdge i
    let s := (s.bump u rVLNK_FEC 0 32 corrected).badLanes i (bad.map (·.val))
    let discard := fun (s : State) => (s.modVPort i (fun p => { p with nak := true })).bump u rVLNK_RETRY 32 32 1
    if !bad.isEmpty || !flitCrcOk flit then .next (discard s)
    else
      let s := s.modVPort i (fun p => { p with lastGood := s.now })
      let kind := field (leAt flit 0 1) 0 4
      if kind = 0 ∨ 4 ≤ kind then
        .next (if (s.port i).nak then discard s else (s.flitHead i flit).pump i)
      else if field (leAt flit 1 2) 0 12 ≠ (s.port i).expected ∨ (kind = 2 ∧ 96 ≤ s.recordsHeld i) then .next (discard s)
      else
        let s := s.modVPort i (fun p => { p with expected := (p.expected + 1) % 4096, nak := false })
        .next ((((s.bump u rVLNK_FLITS 32 32 1).flitHead i flit).flitBody i flit).pump i)

/-- REPLAY_TIMEOUT: ACK has not advanced for 2.0 µs while flits are unacknowledged (R312). -/
def execReplayTimeout (i : Fin 8) (s : State) : Res :=
  when (s.portState i.val == 2 && !(s.port i.val).unacked.isEmpty) s
    ((s.advanceTo ((s.port i.val).ackAt + 2 * Config.cycUs)).replay i.val)

/-! Training and loss (R314, R316, R329, R444). -/

/-- PORT_TRAINING: a port that is down trains, and both ends exchange their identities; `trained` tells that its lanes
came up (R314, R316). A single panel's ports stay down (R315). -/
def execPortTraining (i : Fin 8) (trained : Bool) (peer : Fin 4096) (port : Fin 8) (dim : Fin 4) (delay : BitVec 16)
    (s : State) : Res :=
  let i := i.val
  let u := unitEdge i
  if s.portState i ≠ 0 || !bit (s.reg u rVLNK_CTRL) 0 || !s.multiPanel || !trained then .next s
  else
    let d := s.dimOf i
    if peer.val = s.neighbour d (isSucc i) ∧ port.val = (i + 4) % 8 ∧ dim.val = d then
      let s := ((s.setPortState i 2).setFld u rVLNK_STATUS 3 1 0).setReg u rVLNK_PEER
        (peer.val + 2 ^ 12 * port.val + 2 ^ 16 * delay.toNat)
      .next (s.modVPort i (fun p => { VPort.reset with lastGood := s.now, records := p.records, retireLanes := p.retireLanes }))
    else .next ((s.setFld u rVLNK_STATUS 3 1 1).raise .degraded 0x60 (edgeSrc i 0x3F) none 0)

/-- The panel at the other end of a port's tree link is missing: no rail works any more (R444). -/
def State.noteMissing (s : State) (i : Nat) : State :=
  let d := s.dimOf i
  let side := s.sideOf i
  let inTree := s.sysChildren.contains side || s.sysParent == some (d, isSucc i)
  if inTree && (s.workingPort d (isSucc i)).isNone then
    s.raise .jobAffecting 0xB7 (edgeSrc i 0x3F) none (s.neighbour d (isSucc i))
  else s

/-- The records that a port has not had acknowledged, or that wait there. -/
def VPort.heldRecords (p : VPort) : List SysRecord :=
  p.unacked.flatMap (fun f => match f.2 with
    | .halyard rs => rs
    | _ => []) ++ p.records

/-- The link of a port is down: it is fenced, its slots are discarded and answered, its records move on (R329). -/
def State.linkDown (s : State) (i : Nat) : State :=
  let p := s.port i
  let d := s.dimOf i
  let s := s.setPortState i 0
  let s := if p.rehearse.isSome then s.endInjection else s
  let s := s.modVPort i (fun p => { VPort.reset with retireLanes := p.retireLanes })
  let s := s.raise .degraded 0x61 (edgeSrc i 0x3F) none 0
  let s := p.waiting.foldl (fun s x => match pathDownSlot s.panelNo d x with
    | none => s
    | some y => s.sendSlot i y []) s
  let s := match s.workingPort d (isSucc i) with
    | none => s
    | some j => p.heldRecords.foldl (fun s r => s.queueRecord j r) s
  s.noteMissing i

/-- LINK_DOWN: 8.0 µs without a good flit, or loss of signal (R329). -/
def execLinkDown (i : Fin 8) (los : Bool) (s : State) : Res :=
  let t := if los then s.now else (s.port i.val).lastGood + 8 * Config.cycUs
  when (s.portState i.val == 2) s ((s.advanceTo t).linkDown i.val)

/-- The resource of a link die. -/
def linkResource (i : Nat) : Nat := 204 + i + 0xFF00

/-- VLNK_CTRL_RETRAIN: `VLNK_CTRL.RETRAIN` is written 1; the retraining is queued with the arbiter (R314). -/
def execVlnkCtrlRetrain (i : Fin 8) (s : State) : Res :=
  .next ((s.setFld (unitEdge i.val) rVLNK_CTRL 1 1 1).pliwickEntry 2 (linkResource i.val))

/-- VLNK_RETRAIN: a running entry's retraining of a port starts, in slack of every mapped die (R314, R446). -/
def execVlnkRetrain (i : Fin 8) (s : State) : Res :=
  match s.runningEntry 2 (fun e => e.site == 204 + i.val && !e.inStep) with
  | none => .next s
  | some e =>
    if !s.panelSlack || s.portState i.val ≠ 2 then .next s
    else
      let p := ((s.port i.val).sendFlit s.now (.control true))
      let s := (s.modVPort i.val (fun _ => { p with announced := true, trainBy := some (s.now + 40 * Config.cycUs) }))
      let s := (s.setPortState i.val 1).bump (unitEdge i.val) rVLNK_FLITS 0 32 1
      .next (s.modEntry e.handle (fun e => { e with inStep := true }))

/-- The port retires for good (R435). -/
def State.portFailed (s : State) (i : Nat) : State :=
  let p := s.port i
  let s := (s.setPortState i 3).appendLog 10 (204 + i) 16 0
  let s := s.raise .degraded 0xB5 (edgeSrc i 0x3F) none i
  let s := p.waiting.foldl (fun s x => match pathDownSlot s.panelNo (s.dimOf i) x with
    | none => s
    | some y => s.sendSlot i y []) s
  let s := match s.workingPort (s.dimOf i) (isSucc i) with
    | none => s
    | some j => p.heldRecords.foldl (fun s r => s.queueRecord j r) s
  (s.modVPort i (fun _ => VPort.reset)).noteMissing i

/-- The lanes that leave service narrow the port or fail it (R314). -/
def State.narrowPort (s : State) (i : Nat) (lanes : List Nat) : State :=
  let u := unitEdge i
  let gone := s.fld u rVLNK_STATUS 16 16 ||| ofBits lanes
  let s := s.setFld u rVLNK_STATUS 16 16 gone
  if gone = 0 then s
  else if gone % 256 ≠ 0 ∧ gone / 256 ≠ 0 then s.portFailed i
  else s.setFld u rVLNK_STATUS 2 1 1

/-- VLNK_RETRAINING_COMPLETE: an online retraining ends; `ok` tells that it succeeded, and the lanes of `failed` did not
retrain (R314, R435). -/
def execVlnkRetrainingComplete (i : Fin 8) (ok : Bool) (failed : List (Fin 16)) (s : State) : Res :=
  let i := i.val
  let p := s.port i
  if s.portState i ≠ 1 || p.trainBy.isNone then .next s
  else
    let u := unitEdge i
    let lanes := p.retireLanes
    let s := s.setFld u rVLNK_CTRL 1 1 0
    let s := s.modVPort i (fun p => { p with
      announced := false, trainBy := none, retireLanes := [], lastGood := s.now, ackAt := s.now })
    let s := (s.setPortState i 2).narrowPort i lanes
    -- lanes that fail the retraining are retired at the next one
    let s := failed.foldl (fun (s : State) l =>
      if bit (s.reg u rVLNK_STATUS) (16 + l.val) then s
      else
        let s := s.modVPort i (fun p => { p with retireLanes := insertAsc l.val p.retireLanes })
        (s.appendLog 10 (204 + i) l.val 0).raise .degraded 0xB4 (edgeSrc i 0x3F) none l.val) s
    let day := 24 * 3600 * Config.cycSec
    let s : State := if ok then s else { s with maint := { s.maint with portFails := s.maint.portFails ++ [(i, s.now)] } }
    let n := (s.maint.portFails.filter (fun e => e.1 == i && decide (s.now ≤ e.2 + day))).length
    let s := if !ok && decide (2 ≤ n) && s.portState i == 2 then s.portFailed i else s
    let s := if ok then s else if s.portState i = 2 then s.pliwickEntry 2 (linkResource i) else s
    let s := match s.runningEntry 2 (fun e => e.site == 204 + i && e.inStep) with
      | none => s
      | some e => s.stepOver e true ok
    .next ((if s.portState i = 2 then s.replay i else s).pump i)

/-! System records (R318–R321). -/

/-- The record `n` of the inbox, if it has the type: its port, arrival and content, and the state without it. -/
def State.takeRecord (s : State) (n type : Nat) : Option (Nat × Nat × SysRecord × State) :=
  if s.inFabricReset then none
  else
    match s.vorrad.inbox[n]? with
    | none => none
    | some (p, t, r) =>
      if r.type ≠ type then none
      else some (p, t, r, { s with vorrad := { s.vorrad with inbox := s.vorrad.inbox.eraseIdx n } })

/-- The marker is sent by the root: to the children with REMAIN = MARK_LEAD, and to itself (R320, R321). -/
def State.sendMark (s : State) (tick att : Nat) : State :=
  let lead := 105 * s.fld unitMgmt rVLNK_SYS_TIMING 0 10
  let r : SysRecord := { type := 5, att := att % 256, cause := 0, tag := 0, raise := false, nora := false, tick := tick,
                         remain := lead, ks := [] }
  let s : State := { s with vorrad := { s.vorrad with mark := some (tick, att % 256, s.now + Config.cycHal * lead) } }
  s.sendDown r none

/-- The attempt the panel makes of a tick next, or makes now. -/
def State.attemptOf (s : State) (tick : Nat) : Nat :=
  match s.tickRun tick with
  | some t => t.att
  | none => SMap.get 0 s.gen.attempts tick

/-- TOKEN at a panel: condition 6 of R247. -/
def State.takeToken (s : State) (r : SysRecord) : State :=
  match s.tickRun r.tick with
  | none => s
  | some t =>
    if t.att % 256 ≠ r.att then s else (s.modRun r.tick (fun t => { t with token := true })).tryCommit

/-- What the root does once an upward record is complete (R320). -/
def State.rootGathered (s : State) (g : Gather) : State :=
  if g.type = 1 then
    if !g.nora && s.gen.raEn then s.sendMark (g.tick + 1) (s.attemptOf (g.tick + 1))
    else { s with vorrad := { s.vorrad with markOwed := some g.tick } }
  else if g.type = 2 then
    let r : SysRecord := { type := 6, att := g.att, cause := 0, tag := 0, raise := false, nora := false, tick := g.tick,
                           remain := 0, ks := [] }
    let s := (s.sendDown r none).takeToken r
    if s.vorrad.markOwed = some g.tick then
      ({ s with vorrad := { s.vorrad with markOwed := none } } : State).sendMark (g.tick + 1) (s.attemptOf (g.tick + 1))
    else s
  else
    let r : SysRecord := { type := 8, att := g.att, cause := 0, tag := 0, raise := false, nora := false, tick := g.tick,
                           remain := 0, ks := g.ks }
    (s.sendDown r none).noteOffers g.tick g.ks

/-- The larger of two offered bins, 127 being none. -/
def joinBin (a b : Nat) : Nat := if a = 127 then b else if b = 127 then a else max a b

/-- An upward record joins what is gathered; once the panel and every child have sent, it goes on (R319). -/
def State.gather (s : State) (from_ : Option Nat) (r : SysRecord) : State :=
  let att := if r.type = 4 then 0 else r.att
  let same := fun (g : Gather) => g.type == r.type && g.tick == r.tick && g.att == att
  let g := (s.vorrad.gathers.find? same).getD
    { type := r.type, tick := r.tick, att := att, children := [], own := false, nora := false, ks := [], sent := false }
  let g := { g with
    children := match from_ with
      | none => g.children
      | some c => insertAsc c g.children
    own := g.own || from_.isNone, nora := g.nora || r.nora
    ks := (List.range 16).map (fun h => joinBin (g.ks.getD h 127) (r.ks.getD h 127)) }
  let rest := s.vorrad.gathers.filter (fun x => !same x && decide (s.gen.commitSeq.toNat ≤ x.tick + 1))
  if g.sent then s
  else if g.own && s.sysChildren.all g.children.contains then
    let s : State := { s with vorrad := { s.vorrad with gathers := rest ++ [{ g with sent := true }] } }
    if s.isRoot then s.rootGathered g
    else s.sendUp { type := g.type, att := g.att, cause := 0, tag := 0, raise := false, nora := g.nora, tick := g.tick,
                    remain := 0, ks := g.ks }
  else { s with vorrad := { s.vorrad with gathers := rest ++ [g] } }

/-- An upward record of the inbox. -/
def State.upward (s : State) (n type : Nat) : State :=
  match s.takeRecord n type with
  | none => s
  | some (p, _, r, s) =>
    if p = ownPort then s.gather none r
    else if s.sysChildren.contains (s.sideOf p) then s.gather (some (s.sideOf p)) r
    else s

/-- END: record `n` of the inbox (R319, R320). -/
def execEndRecord (n : Nat) (s : State) : Res := .next (s.upward n 1)
/-- OFFER. -/
def execOffer (n : Nat) (s : State) : Res := .next (s.upward n 2)
/-- HIST_UP. -/
def execHistUp (n : Nat) (s : State) : Res := .next (s.upward n 4)

/-- SYS_ABANDON at a panel (R320): an attempt not yet abandoned is abandoned with cause SYSTEM, and only the tag of the
record rises in the replay. -/
def State.takeSysAbandon (s : State) (r : SysRecord) : State :=
  let s := match s.tickRun r.tick with
    | none => s
    | some t =>
      if t.att % 256 = r.att then
        (s.abandon r.tick .system none false).bump unitMgmt rVLNK_SYS_COUNT 32 32 1
      else s
  if r.raise then
    { s with coll := { s.coll with raises := SMap.set 0 s.coll.raises r.tag (SMap.get 0 s.coll.raises r.tag + 1) } }
  else s

/-- The root's SYS_ABANDON on the first ABORT of an attempt (R320). -/
def State.rootAbort (s : State) (r : SysRecord) : State :=
  if s.vorrad.abandons.contains (r.tick, r.att) then s
  else
    let done := s.vorrad.abandons.filter (fun e => decide (s.gen.commitSeq.toNat ≤ e.1))
    let s : State := { s with vorrad := { s.vorrad with abandons := done ++ [(r.tick, r.att)] } }
    let r := { r with type := 7 }
    let s := (s.sendDown r none).takeSysAbandon r
    let at_ := s.now + Config.cycUs * s.fld unitMgmt rTICK_TIMING 16 10
    { s with vorrad := { s.vorrad with nextMark := some (r.tick, s.attemptOf r.tick, at_) } }

/-- ABORT: the first of an attempt goes on (R319). -/
def execAbortRecord (n : Nat) (s : State) : Res :=
  match s.takeRecord n 3 with
  | none => .next s
  | some (p, _, r, s) =>
    if p ≠ ownPort ∧ !s.sysChildren.contains (s.sideOf p) then .next s
    else if s.isRoot then .next (s.rootAbort r)
    else if s.vorrad.aborts.contains (r.tick, r.att) then .next s
    else
      let old := s.vorrad.aborts.filter (fun e => decide (s.gen.commitSeq.toNat ≤ e.1))
      let s : State := { s with vorrad := { s.vorrad with aborts := old ++ [(r.tick, r.att)] } }
      .next ((s.sendUp r).bump unitMgmt rVLNK_SYS_COUNT 0 32 1)

/-- A downward record comes from the parent. -/
def State.fromParent (s : State) (p : Nat) : Bool := s.sysParent == some (s.dimOf p, isSucc p) && decide (p < 8)

/-- MARK: the start time of an attempt; relayed with REMAIN reduced (R321). -/
def execMark (n : Nat) (s : State) : Res :=
  match s.takeRecord n 5 with
  | none => .next s
  | some (p, t, r, s) =>
    if !s.fromParent p then .next s
    else
      let s : State := { s with vorrad := { s.vorrad with mark := some (r.tick, r.att, t + Config.cycHal * r.remain) } }
      .next (s.sendDown r (some (s.now - t)))

/-- TOKEN: the system commit token (R320). -/
def execToken (n : Nat) (s : State) : Res :=
  match s.takeRecord n 6 with
  | none => .next s
  | some (p, _, r, s) => if s.fromParent p then .next ((s.sendDown r none).takeToken r) else .next s

/-- SYS_ABANDON (R320). -/
def execSysAbandon (n : Nat) (s : State) : Res :=
  match s.takeRecord n 7 with
  | none => .next s
  | some (p, _, r, s) => if s.fromParent p then .next ((s.sendDown r none).takeSysAbandon r) else .next s

/-- HIST_DOWN: the system-wide offer (R285, R320). -/
def execHistDown (n : Nat) (s : State) : Res :=
  match s.takeRecord n 8 with
  | none => .next s
  | some (p, _, r, s) => if s.fromParent p then .next ((s.sendDown r none).noteOffers r.tick r.ks) else .next s

/-- NEXT_ATTEMPT_MARK: GAP_US after SYS_ABANDON the root sends MARK for the next attempt (R320). -/
def execNextAttemptMark (s : State) : Res :=
  match s.vorrad.nextMark with
  | none => .next s
  | some (tick, att, t) =>
    let s : State := { (s.advanceTo t) with vorrad := { s.vorrad with nextMark := none } }
    when s.isRoot s (s.sendMark tick att)

/-! Posts (R324, R327). -/

/-- The address a completion word may go to (R324). -/
def State.doneOk (s : State) (e a : Nat) : Bool :=
  decide (a % 8 = 0) && !s.active.refused a 8 &&
    (match s.active.target a with
    | some (.dram _ _) => true
    | some (.spad d l o) =>
      match s.active.coreIx d l with
      | none => false
      | some p =>
        match (s.spad p).winAt o 8 with
        | none => false
        | some w => ((s.spad p).win w).admits (.edge e)
    | _ => false)

/-- No field of a post record is invalid (R324). -/
def State.xpostOk (s : State) (e : Nat) (r : List Byte) : Bool :=
  let ctx := leAt r 0 2
  let len := leAt r 4 4
  let src := leAt r 8 8
  let off := leAt r 16 8
  decide (ctx < 4096) && ctx / 512 == e && s.ctxMode ctx == 1 && (s.ctx ctx).st != 0
    && decide (64 ≤ len) && decide (len ≤ 0x40000000) && len % 64 == 0
    && space src == 0 && src % 64 == 0 && !s.active.refused src len
    && off % 64 == 0 && decide (off + len ≤ 2 ^ 34)
    && zeroAt r 2 2 && zeroAt r 32 32
    && s.doneOk e (leAt r 24 8)

/-- VLNK_XPOST: a post of a task reaches a link die; it is queued or refused (R324). A post of an attempt that has been
abandoned is dropped (R327), and a panel with suppressed exports sends none (R454). -/
def execVlnkXpost (acc : Nat) (s : State) : Res :=
  match s.access acc with
  | none => .next s
  | some a =>
    match a.stage, a.kind, s.active.target a.addr with
    | .atTarget, .write r, some (.edge e off) =>
      if off ≠ rVLNK_XPOST ∨ 8 ≤ e then .next s
      else if r.length ≠ 64 ∨ !s.xpostOk e r then .next (s.reply acc stAddressError [])
      else
        let c := leAt r 0 2
        let current := decide (a.tick ≤ s.gen.commitSeq.toNat) || ((s.tickRun a.tick).map TickRun.att) == some a.att
        if !current || s.suppressedAt a.tick then .next (s.reply acc stOk [])
        else if (s.ctx c).st = 2 ∨ 16 ≤ (s.ctx c).posts.length then .next (s.reply acc stAddressError [])
        else
          .next ((s.addPost c (leAt r 4 4) (leAt r 8 8) (leAt r 16 8) (leAt r 24 8) (some (a.tick, a.att)) false).reply
            acc stOk [])
    | _, _, _ => .next s

/-! Lines and acknowledgements (R325, R326). -/

/-- A line's place against the expected number, modulo 2^32. -/
def lseqBefore (lseq e : Nat) : Bool := decide (2 ^ 31 ≤ (lseq + 2 ^ 32 - e % 2 ^ 32) % 2 ^ 32)

/-- SHARD_IMPORT completes once E has advanced by its lines (R452). -/
def State.importDone (s : State) (c : Nat) : State :=
  match s.ctxCommand c with
  | some (q, x) => if x.opcode = 0x43 ∧ x.moved ≤ 64 * (s.ctx c).seq then s.finish q x.cid 0 0 x.moved else s
  | none => s

/-- A data slot at a receive context (R325): written, ignored, discarded or refused. Whether it is its post's last line
is a free bit. -/
def State.receiveLine (s : State) (c lseq line sctx spanel : Nat) (data : List Byte) : State :=
  let x := s.ctx c
  let refuse := fun (s : State) st => s.sendSlot (c / 512) (.xfer 3 true spanel sctx lseq 0 c s.panelNo st 0 []) x.reversed
  if s.inFabricReset ∨ x.st = 2 then refuse s 2
  else if s.ctxMode c ≠ 2 || x.st ≠ 1 || spanel ≠ s.ctxPanel c || decide (s.ctxSize c < (line + 1) * 64)
      || (s.active.site (s.ctxDie c)).isNone then refuse s 1
  else
    let e := x.seq % 2 ^ 32
    if lseq ≠ e ∧ !lseqBefore lseq e then s
    else
      let (last, s) := s.freeBit
      let l : XLine := { lseq := some lseq, line := line, addr := s.ctxDie c * 2 ^ 36 + s.ctxBase c + line * 64, post := 0,
                         data := data, pkt := none }
      let s := s.modCtx c (fun x => { x with
        seq := if lseq = e then x.seq + 1 else x.seq
        sinceAck := x.sinceAck + 1, lineAt := some (x.lineAt.getD s.now)
        reversed := if last then [] else x.reversed })
      let s := if lseq = e then s.ctxIssue c l else s
      let s := s.importDone c
      if last ∨ 16 ≤ (s.ctx c).sinceAck then s.ctxAckDue c else s

/-- TRANSFER_LINE: data slot `n`, for a context of the link die it stands in, arrives (R325). -/
def execTransferLine (n : Nat) (s : State) : Res :=
  match s.vorrad.hem[n]? with
  | none => .next s
  | some h =>
    match h.slot with
    | .xfer _ false dst dctx lseq line sctx spanel _ _ data =>
      if dst ≠ s.panelNo ∨ h.place ≠ dctx / 512 then .next s
      else .next ((s.leaveHem n h).receiveLine dctx lseq line sctx spanel data)
    | _ => .next s

/-- Lines up to an acknowledged number leave a send context. -/
def XCtx.acknowledge (x : XCtx) (lseq now : Nat) : XCtx :=
  let done := x.unacked.filter (fun l => !lseqBefore lseq (l.lseq.getD 0))
  if done.isEmpty then x
  else
    let left := x.unacked.filter (fun l => lseqBefore lseq (l.lseq.getD 0))
    { x with
      unacked := left, ackAt := now, pathAt := none, st := if x.st = 3 then 1 else x.st
      resend := x.resend.filter (fun n => left.any (fun l => l.lseq == some n))
      posts := x.posts.map (fun (p : XPost) => { p with acked := p.acked + (done.filter (fun l => l.post == p.number)).length }) }

/-- Every unacknowledged line is read and sent again (R325). -/
def State.retransmit (s : State) (c : Nat) : State :=
  let s := s.modCtx c (fun x => { x with
    resend := (x.unacked.filterMap XLine.lseq).filter (fun n => !x.dram.any (fun l => l.lseq == some n)), ackAt := s.now })
  s.ctxPump c 64

/-- PATH_DOWN at a context: it routes the dimension the other way; a second one for the same dimension finds both
directions down (R317, R326). -/
def State.takePathDown (s : State) (c d : Nat) : State :=
  let x := s.ctx c
  if x.st ≠ 1 ∧ x.st ≠ 3 then s
  else if x.reversed.contains d then
    let s := s.modCtx c (fun x => { x with
      reversed := x.reversed.filter (· != d), st := if s.ctxMode c = 1 then 3 else x.st, pathAt := some (x.pathAt.getD s.now) })
    if s.ctxMode c = 1 then s.retransmit c else s
  else
    let s := s.modCtx c (fun x => { x with reversed := insertAsc d x.reversed })
    if s.ctxMode c = 1 then s.retransmit c else s

/-- An acknowledgement slot at a context (R325, R326). -/
def State.receiveAck (s : State) (c lseq st d : Nat) : State :=
  if st = 3 then s.takePathDown c d
  else
    let x := s.ctx c
    if s.ctxMode c ≠ 1 || (x.st ≠ 1 && x.st ≠ 3) then s
    else if st = 0 then ((s.modCtx c (fun x => x.acknowledge lseq s.now)).ctxFinish c 16).ctxPump c 64
    else s.ctxFail c st

/-- TRANSFER_ACK: acknowledgement slot `n`, for a context of the link die it stands in, arrives (R325). -/
def execTransferAck (n : Nat) (s : State) : Res :=
  match s.vorrad.hem[n]? with
  | none => .next s
  | some h =>
    match h.slot with
    | .xfer _ true dst dctx lseq _ _ _ st dim _ =>
      if dst ≠ s.panelNo ∨ h.place ≠ dctx / 512 then .next s
      else .next ((s.leaveHem n h).receiveAck dctx lseq st dim)
    | _ => .next s

/-- TRANSIT_SLOT: slot `n` takes the next segment of the hem ring, or the port of its next panel takes it (R211, R317). -/
def execTransitSlot (n : Nat) (s : State) : Res :=
  match s.vorrad.hem[n]? with
  | none => .next s
  | some h => .next (s.hemMove n h)

/-- RECEIVE_ACK_TIMER: 2.0 µs after the first line without an acknowledgement (R325). -/
def execReceiveAckTimer (c : Fin 4096) (s : State) : Res :=
  match (s.ctx c.val).lineAt with
  | none => .next s
  | some t =>
    when (s.ctxMode c.val == 2 && (s.ctx c.val).st == 1) s ((s.advanceTo (t + 2 * Config.cycUs)).ctxAckDue c.val)

/-- RETRANSMIT_TIMEOUT: ACK has not advanced for 20 µs (R325). -/
def execRetransmitTimeout (c : Fin 4096) (s : State) : Res :=
  let x := s.ctx c.val
  when (s.ctxMode c.val == 1 && (x.st == 1 || x.st == 3) && !x.unacked.isEmpty) s
    ((s.advanceTo (x.ackAt + 20 * Config.cycUs)).retransmit c.val)

/-- PATH_TIMEOUT: both directions of a dimension have been down for PATH_MS (R326). -/
def execPathTimeout (c : Fin 4096) (s : State) : Res :=
  match (s.ctx c.val).pathAt with
  | none => .next s
  | some t =>
    when (s.ctxMode c.val == 1 && (s.ctx c.val).st == 3) s
      ((s.advanceTo (t + Config.cycMs * s.fld unitMgmt rVLNK_SYS_TIMING 16 10)).ctxFail c.val 3)

/-! DRAM replies (R323, R325). -/

/-- A source line has been read for a send context: it is sent, or the context fails (R325, R326). -/
def State.sourceLine (s : State) (c : Nat) (l : XLine) (got : Option (List Byte)) : State :=
  let x := s.ctx c
  if x.st ≠ 1 ∧ x.st ≠ 3 then s
  else if l.lseq.isNone && !x.posts.any (fun p => p.number == l.post) then s
  else
    match got with
    | none => s.ctxFail c 4
    | some data =>
      let n := l.lseq.getD (x.seq % 2 ^ 32)
      let s := s.modCtx c (fun x => { x with
        seq := if l.lseq.isNone then x.seq + 1 else x.seq
        ackAt := if x.unacked.isEmpty then s.now else x.ackAt
        unacked := if l.lseq.isNone then x.unacked ++ [{ l with lseq := some n }] else x.unacked })
      s.sendSlot (c / 512) (.xfer 2 false (s.ctxPanel c) (s.ctxPeer c) n l.line c s.panelNo 0 0 data) (s.ctx c).reversed

/-- The contexts of a link die issue what an edge-queue entry that came back allows. -/
def State.pumpCtxs (s : State) (e : Nat) : State :=
  s.vorrad.ctxs.foldl (fun s x => if x.1 / 512 = e then s.ctxPump x.1 64 else s) s

/-- The port performs the oldest DRAM access of a context on the edge queue (R189, R323): the bytes that a read gives, and
the state; `none` while the port makes it wait. -/
def State.ctxAccess (s : State) (c : Nat) (l : XLine) (err : Symbols) : Option (Option (List Byte) × State) :=
  match s.dramSite l.addr with
  | none => some (none, s)
  | some (site, o) =>
    if s.ctxMode c = 2 then
      (s.writeBytes site o clsEdge l.data (if wholeLine o l.data.length then .none else err)).map (fun r => (none, r.2))
    else
      (s.readLine site o 64 clsEdge err).map (fun r => (if r.1 = stOk then some r.2.1 else none, r.2.2))

/-- CONTEXT_DRAM_REPLY: the reply to the oldest DRAM access of a context comes back; `err` is what the code of the line shows
(R325). -/
def execContextDramReply (c : Fin 4096) (err : Symbols) (s : State) : Res :=
  let c := c.val
  match (s.ctx c).dram with
  | [] => .next s
  | l :: ls =>
    if !s.ctxBack l then .next s
    else
    match s.ctxAccess c l err with
    | none => .next s
    | some (got, s) =>
    let s : State := { s with mesh := { s.mesh with back := s.mesh.back.filter (fun id => l.pkt != some id) } }
    let s := s.modCtx c (fun x => { x with dram := ls })
    let s := if s.ctxMode c = 2 then s else s.sourceLine c l got
    let s := if s.ctxMode c = 2 ∧ (s.ctx c).ackDue ∧ ls.isEmpty then s.ctxAckDue c else s
    .next (s.pumpCtxs (c / 512))

end Sys2Proof.Machine
end

