-- ==== Sys2Proof/Machine/HostLink.lean ====
section
/-!
DEFINITION. The commands of the CXL link, the memory window, notifications, interrupts and host-side resets (spec/15).
-/
namespace Sys2Proof.Machine

/-! The link (R334, R349, R351). -/

/-- HOST_LINK_FAIL (R334): the highest rate attempted, the width reached, and whether the protocols were not selected. -/
def State.linkFail (s : State) (rate width : Nat) (proto : Bool) : State :=
  ({ s with host := { s.host with trainSince := none, linkFailRaised := true } } : State).raise .jobAffecting 4 (edgeSrc 8 0x3F)
    none (rate % 8 + 2 ^ 3 * (width % 32) + 2 ^ 8 * b2n proto)

/-- HOST_LINK_TRAINING: the link trains at the highest common rate and width, or fails when the protocols are not all
selected; a width below x4 is no training (R334). -/
def execHostLinkTraining (rate : Fin 5) (width : Fin 17) (protocols : Bool) (s : State) : Res :=
  if s.linkUp || rate.val = 0 then .next s
  else if !protocols then .next (s.linkFail rate.val width.val true)
  else if width.val ≠ 4 ∧ width.val ≠ 8 ∧ width.val ≠ 16 then .next s
  else
    let s := s.setFld unitBar rHOST_LINK 0 9 (rate.val + 2 ^ 3 * width.val + 2 ^ 8 * b2n (rate.val == 4))
    .next { s with host := { s.host with trainSince := none, linkFailRaised := false } }

/-- HOST_LINK_TIMEOUT: 1 s after PERST# deasserts the link has not trained (R334). -/
def execHostLinkTimeout (rate : Fin 5) (width : Fin 17) (s : State) : Res :=
  match s.host.trainSince with
  | none => .next s
  | some t => when (!s.linkUp) s ((s.advanceTo (t + Config.cycSec)).linkFail rate.val width.val false)

/-- The link goes down without a reset: DOWNS counts (R351). -/
def State.linkLost (s : State) : State :=
  if s.linkUp then (s.setFld unitBar rHOST_LINK 0 11 0).bump unitBar rHOST_LINK 16 16 1 else s

/-- HOST_LINK_LOSS. -/
def execHostLinkLoss (s : State) : Res := .next s.linkLost

/-- IDE_INTEGRITY_FAILURE: while IDE is enabled, received data fails its check; it is discarded and logged, and the link
goes down (R349). -/
def execIdeIntegrityFailure (s : State) : Res :=
  when (s.fld unitBar rHOST_LINK 9 2 != 0) s
    ({ s with host := { s.host with ideFails := s.host.ideFails + 1 } } : State).linkLost

/-- IDE_KEY_MANAGEMENT: over a secured session on the DOE mailbox keys of CXL.io or CXL.cachemem are programmed, or the
stream is activated with programmed keys (R349). -/
def execIdeKeyManagement (cachemem activate : Bool) (s : State) : Res :=
  let k := b2n cachemem
  let open_ := match (SMap.get Spdm.reset s.sec.spdm 0).session with
    | some b => b
    | none => false
  if !open_ then .next s
  else if activate then
    when (s.host.ideKeys.getLsbD k && s.linkUp) s (s.setFld unitBar rHOST_LINK (9 + k) 1 1)
  else .next { s with host := { s.host with ideKeys := s.host.ideKeys ||| BitVec.ofNat 2 (2 ^ k) } }

/-! Panel accesses to host memory (R338, R339). -/

/-- HOST_MEMORY_ACCESS: an access to spaces 0x8–0xF reaches the host bridge die; `data` is what host memory returns for a
read. -/
def execHostMemoryAccess (acc : Nat) (data : List Byte) (s : State) : Res :=
  match s.access acc with
  | none => .next s
  | some a =>
    match a.stage, s.active.target a.addr with
    | .atTarget, some (.host h) =>
      match a.kind with
      | .read n =>
        if s.hostOk h n then .next (s.reply acc stOk ((List.range n).map (fun i => data.getD i 0)))
        else .next (s.hostRefused.reply acc stAddressError [])
      | .write bs =>
        if s.hostOk h bs.length then .next ((s.writeHost h bs).reply acc stOk [])
        else .next (s.hostRefused.reply acc stAddressError [])
      | _ => .next (s.reply acc stAddressError [])
    | _, _ => .next s

/-! The memory window (R340–R345). -/

def segSize : Nat := 2 ^ 28
/-- Fields of a segment. -/
def segKind (v : Nat) : Nat := field v 0 2
def segDie (v : Nat) : Nat := field v 8 8
def segLo (v : Nat) : Nat := field v 24 12 * segSize
def segBytes (v : Nat) : Nat := field v 36 12 * segSize
def segOff (v : Nat) : Nat := field v 48 6 * segSize

/-- The fields of a segment lie in their ranges (R355): the size is at least 1 where there is one, the die of a raw one exists. -/
def segOk (v : Nat) : Bool :=
  segKind v != 3 && (segKind v == 0 || field v 36 12 != 0) && (segKind v != 1 || decide (segDie v < 192))

def State.segs (s : State) : List Nat :=
  ((List.range 64).map (fun i => s.reg unitBar (rHOST_SEG + 8 * i))).filter (fun v => segKind v != 0)
/-- STRIDE_LOG2. -/
def State.stride (s : State) : Nat := s.fld unitBar rHOST_EXPORT_CFG 0 5

/-- Two segments of a list overlap. -/
def segsOverlap : List Nat → Bool
  | [] => false
  | v :: vs => vs.any (fun w => decide (segLo v < segLo w + segBytes w) && decide (segLo w < segLo v + segBytes v))
      || segsOverlap vs

/-- ERR of R341 for the segment table. -/
def State.segError (s : State) : Nat :=
  let l := s.segs
  let exports := l.filter (fun v => segKind v == 2)
  if segsOverlap l then 1
  else if l.any (fun v => segKind v == 1 && decide (64 * segSize < segOff v + segBytes v)) then 2
  else if 1 < exports.length then 3
  else if exports.any (fun v => decide (segBytes v < 4096 * 2 ^ s.stride)) then 4
  else if l.any (fun v => decide (s.host.hdmSize < segLo v + segBytes v)) then 5
  else 0

/-- HOST_MEM_EN: a write of `HOST_MEM_CTRL.EN` (R341). -/
def execHostMemEn (on : Bool) (s : State) : Res :=
  if s.host.d3hot then .next s
  else if !on then .next (s.setFld unitBar rHOST_MEM_CTRL 0 1 0)
  else
    let e := s.segError
    let s := s.setFld unitBar rHOST_MEM_CTRL 8 8 e
    if e ≠ 0 then .next (s.setFld unitBar rHOST_MEM_CTRL 0 1 0)
    else
      .next { (s.setFld unitBar rHOST_MEM_CTRL 0 1 1) with host := { s.host with exportRaised := false } }

/-- Where a line of the window is: `none` unmapped; zeros; or a DRAM address. -/
inductive WindowLine where
  | unmapped
  | zeros
  | at_ (die off : Nat)
deriving DecidableEq, Repr

/-- The segment that covers a device physical address. -/
def State.segAt (s : State) (dpa : Nat) : Option Nat :=
  if s.fld unitBar rHOST_MEM_CTRL 0 1 = 0 then none
  else s.segs.find? (fun v => decide (segLo v ≤ dpa) && decide (dpa < segLo v + segBytes v))

/-- The line of the export view at an offset (R343). -/
def State.exportLine (s : State) (o : Nat) : WindowLine :=
  let w := o / 2 ^ s.stride
  let b := o % 2 ^ s.stride
  let x := s.world w
  if 4095 < w ∨ x.state = 0 ∨ x.slotBytes ≤ b then .zeros
  else
    let a := x.stateBase + (s.gen.commitSeq.toNat % max 1 x.slots) * x.slotStride + b
    .at_ (field a 36 8) (field a 0 34)

/-- Translation of a line of the window (R341–R343). -/
def State.windowLine (s : State) (dpa : Nat) : WindowLine :=
  match s.segAt dpa with
  | none => .unmapped
  | some v => if segKind v = 1 then .at_ (segDie v) (segOff v + (dpa - segLo v)) else s.exportLine (dpa - segLo v)

/-- The host gets a line. -/
def State.memReply (s : State) (data : List Byte) (poison : Bool) : State :=
  { s with host := { s.host with memData := data, memPoison := poison } }

/-- CXL_MEM_READ: the host reads the 64-byte line `line` of the decoder's range; `err` is what the DRAM line shows
(R340–R345). -/
def execCxlMemRead (line : Nat) (err : Symbols) (s : State) : Res :=
  let dpa := 64 * line
  let poison := fun (s : State) => s.memReply (zeros 64) true
  if !s.linkUp || s.host.d3hot || decide (s.host.hdmSize ≤ dpa) then .next s
  else if s.fld unitBar rHOST_MEM_CTRL 1 1 = 0 then .next (poison s)
  else
    match s.windowLine dpa with
    | .unmapped => .next (poison (s.bump unitBar rHOST_MEM_ERR 16 16 1))
    | .zeros => .next (s.memReply (zeros 64) false)
    | .at_ d o =>
      match s.active.site d with
      | none => .next (poison (s.bump unitBar rHOST_MEM_ERR 0 16 1))
      | some site =>
        match s.readLine site o 64 clsEdge err with
        | none => .next s
        | some (st, bs, s) =>
          if st = stOk then .next (s.memReply bs false) else .next (poison (s.bump unitBar rHOST_MEM_ERR 0 16 1))

/-- CXL_MEM_WRITE: the host writes bytes of a line; only a raw segment takes them (R340, R341, R344). -/
def execCxlMemWrite (line : Nat) (data : List Byte) (mask : BitVec 64) (s : State) : Res :=
  let dpa := 64 * line
  if data.length ≠ 64 then .fault (.illFormed "line")
  else if !s.linkUp || s.host.d3hot || decide (s.host.hdmSize ≤ dpa) || s.fld unitBar rHOST_MEM_CTRL 1 1 = 0 then .next s
  else
    match s.segAt dpa with
    | none => .next (s.bump unitBar rHOST_MEM_ERR 16 16 1)
    | some v =>
      if segKind v = 2 then
        let s := s.bump unitBar rHOST_MEM_ERR 32 16 1
        if s.host.exportRaised then .next s
        else
          let s : State := { s with host := { s.host with exportRaised := true } }
          .next (s.raise .info 0x70 (edgeSrc 8 0x3F) none 0)
      else
        match s.active.site (segDie v) with
        | none => .next s
        | some site =>
          let bytes := (List.range 64).map (fun i => data.getD i 0)
          match s.writeMask site (segOff v + (dpa - segLo v)) clsEdge bytes mask.toNat with
          | none => .next s
          | some (_, s) => .next s

/-! Notifications and interrupts (R348, R350). -/

/-- COMMIT_NOTIFICATION: the host bridge die writes the latest qualifying `COMMIT_SEQ` and signals the vector. -/
def execCommitNotification (s : State) : Res :=
  match s.host.notify with
  | none => .next s
  | some x =>
    let n := s.reg unitBar rHOST_COMMIT_NOTIFY
    let a := s.reg unitBar rHOST_COMMIT_ADDR
    let s : State := { s with host := { s.host with notify := none } }
    if !bit n 0 then .next s
    else
      let s := if !bit n 1 then s else if s.hostOk a 8 then s.writeHost a (leBytes 8 x) else s.hostRefused
      .next (if bit n 2 then s.signal (field n 8 6) else s)

/-- MSIX_UNMASK: a vector is unmasked and MSI-X enabled; an interrupt that waits is sent (R350). -/
def execMsixUnmask (v : Fin 64) (enable : Bool) (s : State) : Res :=
  let m := s.msix
  let b := BitVec.ofNat 64 (2 ^ v.val)
  let on := m.enabled || enable
  let t : State := { s with msix := { m with enabled := on, unmasked := m.unmasked ||| b } }
  if s.host.d3hot then .next s
  else if on && bit m.pending.toNat v.val then
    .next { t with msix := { t.msix with
      pending := m.pending &&& ~~~b, sent := SMap.set 0 m.sent v.val (SMap.get 0 m.sent v.val + 1) } }
  else .next t

/-! Host-side resets (R351, R359, R376). -/

/-- The offsets of the registers that a function level reset resets. -/
def flrResets (off : Nat) : Bool :=
  off == rHOST_COMMIT_NOTIFY || off == rHOST_COMMIT_ADDR || off == rHOST_PWIN_BASE
    || (decide (rHOST_HPA_BASE ≤ off) && decide (off < rHOST_HPA_BASE + 0x80))
    || off == rHOST_CMD_STAT || off == rHOST_EVENT_STAT
    || (decide (rHOST_SQ_BASE ≤ off) && decide (off < rHOST_SQ_BASE + 0x20 * 64))

/-- A function level reset; it ends in D0 (PRESUMED, log 122). -/
def State.functionReset (s : State) : State :=
  let s := s.resetRegs (· == unitBar) 0 (fun _ off => !flrResets off)
  { s with
    host := { s.host with pairs := [], turn := 1, taken := 0, notify := none, d3hot := false }
    msix := Msix.reset
    events := { s.events with ring := none, tail := 0, head := 0, phase := true, lost := 0, worst := none, severeCode := 0,
                              severeSev := 0 } }

/-- FUNCTION_LEVEL_RESET. -/
def execFunctionLevelReset (s : State) : Res := .next s.functionReset

/-- A conventional reset: the function level reset, every HOST_ register and the HDM decoder; LOCKED_SET and Mem_Active
stay (R340, R351, R359). The link is down, and trains once PERST# deasserts. -/
def State.conventionalReset (s : State) : State :=
  let active := s.fld unitBar rHOST_MEM_CTRL 1 1
  let ready := s.reg unitBar rHOST_DEVICE_STATUS
  let s := s.functionReset.resetRegs (· == unitBar) 0 (fun _ off => decide (0x20000 ≤ off))
  let s := (s.setFld unitBar rHOST_MEM_CTRL 1 1 active).setReg unitBar rHOST_DEVICE_STATUS ready
  { s with host := { s.host with
      hdmBase := 0, hdmSize := 0, exportRaised := false, ideKeys := 0, trainSince := some s.now, linkFailRaised := false } }

/-- CONVENTIONAL_RESET: PERST#, hot reset or link disable. -/
def execConventionalReset (s : State) : Res := .next s.conventionalReset

end Sys2Proof.Machine
end

