-- ==== Sys2Proof/Machine/HostQueue.lean ====
section
/-!
DEFINITION. Feature negotiation, queues, doorbells, the fetch of commands and the write of completions (spec/16).
-/
namespace Sys2Proof.Machine

/-! Features (R356–R359). -/

def State.setReadyCode (s : State) (v : Nat) : State := s.setFld unitBar rHOST_DEVICE_STATUS 0 3 v

/-- The offered and the requested features, as 256-bit sets. -/
def State.offered (s : State) : Nat :=
  ((List.range 4).map (fun i => s.reg unitBar (rHOST_DEVICE_FEATURES + 8 * i) * 2 ^ (64 * i))).sum
def State.requested (s : State) : Nat :=
  ((List.range 4).map (fun i => s.reg unitBar (rHOST_DRIVER_FEATURES + 8 * i) * 2 ^ (64 * i))).sum

/-- The lowest set bit of a feature set. -/
def lowestBit (x : Nat) : Nat := ((bitsOf 256 x).head?).getD 0

/-- READY becomes 1 or 2 (R430, R340): every mapped core may launch, and the memory window is active. -/
def State.becomeReady (s : State) : State :=
  let s := s.mappedCores.foldl (fun (s : State) p => s.setFld (unitCore p) rCORE_CTRL 1 1 1) s
  s.setFld unitBar rHOST_MEM_CTRL 1 1 1

/-- FEATURES_OK: a write of FEATURES_OK = 1 (R357). -/
def execFeaturesOk (s : State) : Res :=
  let refuse := fun b => s.setFld unitBar rHOST_FEAT_CTRL 0 16 (2 + 2 ^ 8 * b)
  if s.host.d3hot || bit (s.reg unitBar rHOST_FEAT_CTRL) 0 || s.ready = 0 || decide (3 < s.ready) then .next s
  else
    let extra := s.requested &&& (s.requested ^^^ s.offered)
    if extra ≠ 0 then .next (refuse (lowestBit extra))
    else
      let differs := match s.host.locked with
        | none => 0
        | some l => s.requested ^^^ l.toNat
      if differs ≠ 0 then .next (refuse (lowestBit differs))
      else
        let s' := s.setFld unitBar rHOST_FEAT_CTRL 0 1 1
        let s' : State := { s' with host := { s'.host with locked := some (BitVec.ofNat 256 s.requested) } }
        .next (if s.ready = 3 ∧ bit s.requested 3 then (s'.setReadyCode 2).becomeReady else s')

/-- HOST_DRIVER_FEATURES_WRITE (R357). -/
def execHostDriverFeaturesWrite (w : Fin 4) (v : BitVec 64) (s : State) : Res :=
  if s.host.d3hot || bit (s.reg unitBar rHOST_FEAT_CTRL) 0 then .next s
  else .next ((s.setReg unitBar (rHOST_DRIVER_FEATURES + 8 * w.val) v.toNat).setFld unitBar rHOST_FEAT_CTRL 1 1 0)

/-! Pairs (R360, R361, R364). -/

def qOff (r q : Nat) : Nat := r + 0x20 * q
def State.qCfg (s : State) (q lo w : Nat) : Nat := s.fld unitBar (qOff rHOST_Q_CFG q) lo w
def State.qEnabled (s : State) (q : Nat) : Bool := s.qCfg q 40 1 == 1
def State.sqSize (s : State) (q : Nat) : Nat := s.qCfg q 0 12 + 1
def State.cqSize (s : State) (q : Nat) : Nat := s.qCfg q 16 12 + 1
def State.qStat (s : State) (q lo w : Nat) : Nat := s.fld unitBar (qOff rHOST_Q_STATUS q) lo w
def State.setQStat (s : State) (q lo w v : Nat) : State := s.setFld unitBar (qOff rHOST_Q_STATUS q) lo w v
def State.sqHead (s : State) (q : Nat) : Nat := s.qStat q 0 12
def State.cqTail (s : State) (q : Nat) : Nat := s.qStat q 16 12
def State.qError (s : State) (q : Nat) : Bool := s.qStat q 33 1 == 1
/-- Command processing is paused (R375). -/
def State.paused (s : State) : Bool := bit (s.reg unitBar rHOST_CMD_STAT) 0

/-- The pair still runs commands of an EN that has been cleared. -/
def QPair.busy (p : QPair) : Bool := p.draining && !p.cmds.isEmpty

/-- A fetched command has started: neither it nor one before it waits behind a fence (R362). -/
def startedAmong (cid : Nat) : List HostCmd → Bool → Bool
  | [], _ => false
  | c :: cs, first => (first || !c.fence) && (c.cid == cid || startedAmong cid cs false)

/-- EN is cleared: the commands that have started run to their end, and the others are dropped (R364). -/
def QPair.drain (p : QPair) : QPair :=
  { p with
    cmds := p.cmds.filter (fun c => startedAmong c.cid p.cmds true)
    draining := true, done := [], heldTail := none, heldHead := none, skip := [] }

/-- QUEUE_ENABLE: a write of `HOST_Q_CFG[q]` (R360, R364, R376). -/
def execQueueEnable (q : Fin 64) (v : BitVec 64) (s : State) : Res :=
  let q := q.val
  let off := qOff rHOST_Q_CFG q
  let v := v.toNat
  let on := bit v 40
  let p := s.pair q
  if s.host.d3hot then .next s
  else if s.qEnabled q then
    if on then .next s
    else
      let s := s.setFld unitBar off 40 1 0
      .next (s.modPair q QPair.drain)
  else
    let v := v &&& 0x17FFFFF0FFF
    if field v 0 12 = 0 ∨ field v 16 12 = 0 then .next s
    else if !on then .next (s.setReg unitBar off v)
    else if p.busy || (if q = 0 then !bit (s.reg unitBar rHOST_FEAT_CTRL) 0 else !s.qEnabled 0) then .next s
    else
      let s := (s.setReg unitBar off v).setReg unitBar (qOff rHOST_Q_STATUS q) (2 ^ 32)
      .next (s.modPair q (fun _ => QPair.reset))

/-- A pair enters ERROR (R364). -/
def State.queueError (s : State) (q cause : Nat) : State :=
  ((s.setQStat q 33 1 1).setQStat q 36 3 cause).raise .degraded 2 (edgeSrc 8 0x3F) none (q + 2 ^ 8 * cause)

/-- The SQ tail moves. -/
def State.takeTail (s : State) (q v : Nat) : State :=
  if s.sqSize q ≤ v then s.queueError q 1 else s.modPair q (fun p => { p with sqTail := v })

/-- The CQ head moves; it may not pass the CQ tail. -/
def State.takeHead (s : State) (q v : Nat) : State :=
  let n := s.cqSize q
  let h := (s.pair q).cqHead
  if n ≤ v || decide ((s.cqTail q + n - h) % n < (v + n - h) % n) then s.queueError q 2
  else s.modPair q (fun p => { p with cqHead := v })

def State.dbIgnored (s : State) : State := s.bump unitBar rHOST_CMD_STAT 16 16 1

/-- SQ_TAIL_DOORBELL (R361); while command processing is paused the value is recorded (R375). -/
def execSqTailDoorbell (q : Fin 64) (v : BitVec 12) (s : State) : Res :=
  if s.host.d3hot then .next s
  else if !s.qEnabled q.val then .next s.dbIgnored
  else if s.paused then .next (s.modPair q.val (fun p => { p with heldTail := some v.toNat }))
  else .next (s.takeTail q.val v.toNat)

/-- CQ_HEAD_DOORBELL (R361). -/
def execCqHeadDoorbell (q : Fin 64) (v : BitVec 12) (s : State) : Res :=
  if s.host.d3hot then .next s
  else if !s.qEnabled q.val then .next s.dbIgnored
  else if s.paused then .next (s.modPair q.val (fun p => { p with heldHead := some v.toNat }))
  else .next (s.takeHead q.val v.toNat)

/-- The doorbells recorded during a pause take effect. -/
def State.releaseDoorbells (s : State) : State :=
  (List.range 64).foldl (fun s q =>
    let p := s.pair q
    let s := match p.heldTail with
      | none => s
      | some v => s.takeTail q v
    let s := match p.heldHead with
      | none => s
      | some v => s.takeHead q v
    if p.heldTail.isNone && p.heldHead.isNone then s
    else s.modPair q (fun p => { p with heldTail := none, heldHead := none })) s

/-- EVENT_HEAD_DOORBELL: entries are freed, and a record of lost events is written first (R373). -/
def execEventHeadDoorbell (v : BitVec 16) (s : State) : Res :=
  match s.events.ring with
  | none => .next s
  | some r =>
    if s.host.d3hot || decide (r.entries ≤ v.toNat) then .next s
    else
      let s : State := { s with events := { s.events with head := v.toNat } }
      if s.events.lost = 0 || s.events.full r || !s.hostOk (r.base + 32 * s.events.tail) 32 then .next s
      else
        let w := s.events.worst.getD (0, .info)
        let data := s.events.lost + 2 ^ 32 * w.1 + 2 ^ 48 * w.2.code
        let (e, s) := s.makeEvent .info 1 (edgeSrc 8 0x3F) none data false
        let s := s.ringWrite r e
        .next { s with events := { s.events with lost := 0, worst := none } }

/-! Commands (R362, R365–R369). -/

/-- The bits a command of an opcode may set in its parameters P0, P1, …; parameters not listed are reserved (R368). -/
def paramMasks (op : Nat) : Option (List Nat) :=
  let all := 2 ^ 64 - 1
  if op = 0x01 then some [all, 0xFF]
  else if op = 0x02 then some [all]
  else if op = 0x03 then some [0xFFFF003F]
  else if op = 0x04 then some [all, 0xBF01FFFF]
  else if op = 0x08 then some [all, 0xFFFFFFFF0000000F, 0xFFFFFFFF]
  else if op = 0x09 then some [all, all, all, all, all, all]
  else if op = 0x0A then some []
  else if op = 0x10 then some [1]
  else if op = 0x11 then some []
  else if op = 0x12 then some [0x1FFFFFFFF]
  else if op = 0x13 then some [all]
  else if op = 0x18 then some [0xFFF, all]
  else if op = 0x19 then some [0xFF0FFF, all]
  else if op = 0x1A then some [0x1FFF0FFF]
  else if op = 0x1B then some [0x1FFF0FFF, 3]
  else if op = 0x20 ∨ op = 0x21 then some [all, all, all]
  else if op = 0x28 then some [0xF, all]
  else if op = 0x29 then some [all, all, all]
  else if op = 0x30 then some [0xFFFF]
  else if op = 0x38 then some [0xFF, 0xFFFF]
  else if op = 0x39 then some [0xFFFF]
  else if op = 0x3A then some [0xFF, 0xFFFF]
  else if op = 0x40 then some [0xFFF, 0xFFFFFFFF]
  else if op = 0x41 then some []
  else if op = 0x42 ∨ op = 0x43 then some [0xFF, all, all, 0xFFF]
  else if op = 0x48 then some [all, all, 0xF]
  else if op = 0x49 ∨ op = 0x4A then some [0, 0, 0xF]
  else if op = 0x50 then some [all, all, all, all]
  else none

/-- The opcodes that an I/O queue may carry. -/
def anyQueue (op : Nat) : Bool := ([0x18, 0x1A, 0x1B, 0x20, 0x21, 0x28, 0x29] : List Nat).contains op

/-- The byte of the first reserved bit that is set in a command (R365). -/
def badField (op : Nat) (b : List Byte) (masks : List Nat) : Option Nat :=
  let flags := leAt b 1 1
  let known := if op = 0x38 ∨ op = 0x3A then 3 else 1
  if flags / (known + 1) ≠ 0 then some 1
  else if !zeroAt b 4 4 then some 4
  else ((List.range 7).find? (fun n => leAt b (8 + 8 * n) 8 &&& (2 ^ 64 - 1 - masks.getD n 0) != 0)).map (fun n => 8 + 8 * n)

/-- The feature bit that a command needs (R368). -/
def featureOf (op p0 : Nat) : Option Nat :=
  if (op = 0x10 ∧ bit p0 0) ∨ (op = 0x12 ∧ bit p0 32) then some 0
  else if op = 0x3A then some 4
  else if op = 0x40 ∨ op = 0x41 then some 11
  else if op = 0x42 ∨ op = 0x43 then some 12
  else if op = 0x4A then some 10
  else none

/-- Opcodes that need no readiness (R369). -/
def needsReady (op : Nat) : Bool := !([0x01, 0x02, 0x04, 0x48, 0x49, 0x4A, 0x50] : List Nat).contains op

/-- The status with which a command completes at once, if any: code and detail (R362, R365–R369). -/
def State.refusal (s : State) (q : Nat) (b : List Byte) (dup : Bool) : Option (Nat × Nat) :=
  let op := leAt b 0 1
  if dup then some (2, 2)
  else
    match paramMasks op with
    | none => some (1, 0)
    | some masks =>
      if q ≠ 0 ∧ !anyQueue op then some (1, 0)
      else
        match badField op b masks with
        | some o => some (2, o)
        | none =>
          match featureOf op (leAt b 8 8) with
          | some f =>
            if !s.feature f then some (3, f)
            else if needsReady op && s.ready != 1 && s.ready != 2 then some (8, 2) else none
          | none => if needsReady op && s.ready != 1 && s.ready != 2 then some (8, 2) else none

/-- A pair may be fetched from: the admin queue runs one command at a time, an I/O queue keeps up to 16 (R362). -/
def State.fetchable (s : State) (q : Nat) : Bool :=
  s.qEnabled q && !s.qError q && !s.paused && s.sqHead q != (s.pair q).sqTail
    && (if q = 0 then (s.pair 0).cmds.isEmpty else decide ((s.pair q).cmds.length < 16))

/-- The pair that is served next: the admin queue first, then the I/O queues by weighted round robin (R362). -/
def State.nextPair (s : State) : Option Nat :=
  if s.fetchable 0 then some 0
  else
    let weight := fun q => max 1 (s.qCfg q 28 4)
    if s.fetchable s.host.turn && decide (s.host.taken < weight s.host.turn) && s.host.turn != 0 then some s.host.turn
    else
      let order := (List.range 63).map (fun k => (s.host.turn + k) % 63 + 1)
      order.find? s.fetchable

/-- COMMAND_FETCH: the command processor fetches the next entry of a pair when its turn has come; `bytes` is what the
entry holds (R362, R364). -/
def execCommandFetch (q : Fin 64) (bytes : List Byte) (s : State) : Res :=
  let q := q.val
  if bytes.length ≠ 64 then .fault (.illFormed "submission entry")
  else if s.nextPair ≠ some q then .next s
  else
    let n := s.sqSize q
    let h := s.sqHead q
    let base := field (s.reg unitBar (qOff rHOST_SQ_BASE q)) 12 32 * 4096
    if !s.hostOk (base + 64 * h) 64 then .next (s.hostRefused.queueError q 3)
    else
      let h' := (h + 1) % n
      let taken := if q = 0 then s.host.taken else if q = s.host.turn then s.host.taken + 1 else 1
      let s : State := { s with host := { s.host with taken := taken, turn := if q = 0 then s.host.turn else q } }
      let s := s.setQStat q 0 12 h'
      if (s.pair q).skip.contains h then .next (s.modPair q (fun p => { p with skip := p.skip.filter (· != h) }))
      else
        let b := (List.range 64).map (fun i => bytes.getD i 0)
        let cid := leAt b 2 2
        let dup := (s.pair q).cmds.any (fun c => c.cid == cid)
        match s.refusal q b dup with
        | some (code, detail) =>
          .next (s.modPair q (fun p => { p with
            done := p.done ++ [{ result := 0, sqHead := h', cid := cid, code := code, detail := detail }] }))
        | none =>
          let c : HostCmd := { cid := cid, opcode := leAt b 0 1, fence := bit (leAt b 1 1) 0, noWait := bit (leAt b 1 1) 1,
                               params := (List.range 7).map (fun n => leAt b (8 + 8 * n) 8), sqHead := h',
                               phase := .started, moved := 0, note := 0 }
          .next (s.modPair q (fun p => { p with cmds := p.cmds ++ [c] }))

/-- The started command of a pair with an identifier and opcode, which has not acted yet. -/
def State.started (s : State) (q cid op : Nat) : Option HostCmd :=
  (s.cmd q cid).filter (fun c => c.opcode == op && c.phase == .started && startedAmong cid (s.pair q).cmds true)

/-- The command has acted and waits for the panel. -/
def State.await (s : State) (q cid note : Nat) : State :=
  s.modCmd q cid (fun c => { c with phase := .waiting, note := note })

/-- A parameter. -/
def HostCmd.p (c : HostCmd) (n : Nat) : Nat := c.params.getD n 0

/-- The 16 bytes of a completion (R366). -/
def Completion.bytes (c : Completion) (q : Nat) (phase : Bool) : List Byte :=
  leBytes 8 c.result ++ leBytes 2 c.sqHead ++ leBytes 1 q ++ leBytes 1 (b2n phase) ++ leBytes 2 c.cid ++ leBytes 1 c.code
    ++ leBytes 1 c.detail

/-- COMPLETION_WRITE: the oldest finished command's completion is written once an entry is free, and the vector is
signalled (R363, R364). -/
def execCompletionWrite (q : Fin 64) (s : State) : Res :=
  let q := q.val
  match (s.pair q).done with
  | [] => .next s
  | c :: cs =>
    let n := s.cqSize q
    let t := s.cqTail q
    if !s.qEnabled q || s.paused || (t + 1) % n = (s.pair q).cqHead then .next s
    else
      let a := field (s.reg unitBar (qOff rHOST_CQ_BASE q)) 12 32 * 4096 + 16 * t
      if !s.hostOk a 16 then
        if s.qError q then .next s else .next (s.hostRefused.queueError q 4)
      else
        let phase := s.qStat q 32 1
        let s := s.writeHost a (c.bytes q (phase == 1))
        let s := s.modPair q (fun p => { p with done := cs })
        let s := s.setQStat q 16 12 ((t + 1) % n)
        let s := if t + 1 = n then s.setQStat q 32 1 (1 - phase) else s
        .next (if s.qCfg q 38 1 = 1 then s.signal (s.qCfg q 32 6) else s)

end Sys2Proof.Machine
end

