-- ==== Sys2Proof/Machine/HostCmd.lean ====
section
/-!
DEFINITION. The host commands of R368 on identity, events, configuration sets, ticking, worlds, data and the power cap.
Each acts on a command that COMMAND_FETCH has started.
-/
namespace Sys2Proof.Machine

abbrev Cid := BitVec 16

/-! Status codes (R367). -/
def cOk : Nat := 0
def cInvalidField : Nat := 2
def cFeature : Nat := 3
def cBusy : Nat := 4
def cAddress : Nat := 5
def cData : Nat := 6
def cAborted : Nat := 7
def cState : Nat := 8
def cNotSealed : Nat := 9
def cSealFailed : Nat := 0x0A
def cAuth : Nat := 0x0B
def cRollback : Nat := 0x0C
def cRefused : Nat := 0x0D
def cTransfer : Nat := 0x0F

/-- A command ends in SUCCESS with a result, or with a status and a detail. -/
def State.done (s : State) (q : Fin 64) (cid : Cid) (result : Nat) : State := s.finish q.val cid.toNat cOk 0 result
def State.fail (s : State) (q : Fin 64) (cid : Cid) (code detail : Nat) : State := s.finish q.val cid.toNat code detail 0

/-- The meaning of a command: `f` on the started command of opcode `op`, if there is one. -/
def onCommand (s : State) (q : Fin 64) (cid : Cid) (op : Nat) (f : HostCmd → State) : Res :=
  match s.started q.val cid.toNat op with
  | none => .next s
  | some c => .next (f c)

/-- `n` bytes go to the host buffer in parameter `k`; a refused buffer is an ADDRESS_ERROR (R339, R369). -/
def State.toBuffer (s : State) (q : Fin 64) (cid : Cid) (c : HostCmd) (k : Nat) (bs : List Byte) (result : Nat) : State :=
  if s.hostOk (c.p k) bs.length then (s.writeHost (c.p k) bs).done q cid result
  else s.hostRefused.fail q cid cAddress k

/-- The state when the host buffer in parameter `k` may be read. -/
def State.fromBuffer (s : State) (q : Fin 64) (cid : Cid) (c : HostCmd) (k n : Nat) (f : State) : State :=
  if s.hostOk (c.p k) n then f else s.hostRefused.fail q cid cAddress k

/-- The first `n` bytes of what host memory holds. -/
def hostBytes (data : List Byte) (n : Nat) : List Byte := (List.range n).map (fun i => data.getD i 0)

/-! Identity, features, ABORT, events (R368, R370, R371, R431). -/

/-- The version of the active bank of a firmware component. -/
def State.fwBank (s : State) (comp : Nat) : FwBank :=
  SMap.get FwBank.empty s.sec.banks (2 * comp + b2n (SMap.get false s.sec.activeB comp))

/-- IDENTIFY page 0. -/
def State.identifyPage (s : State) : List Byte :=
  let part : List Byte := [0x4B, 0x43, 0x50, 0x2D, 0x31, 0x39, 0x32] ++ zeros 9
  let mapped := ((List.range 192).filter (fun d => (s.active.site d).isSome)).length
  let spare := (s.freeSites s.active).length
  part ++ (List.range 16).map Config.serialByte ++ leBytes 8 (regReset (unitCore 0) rCORE_FAMILY)
    ++ leBytes 8 (regReset (unitCore 0) rCORE_PANEL) ++ leBytes 32 s.offered
    ++ (List.range 4).flatMap (fun k => leBytes 4 (s.fwBank k).version) ++ leBytes 2 mapped ++ leBytes 2 spare ++ zeros 3996

/-- IDENTIFY. -/
def execIdentify (q : Fin 64) (cid : Cid) (s : State) : Res :=
  onCommand s q cid 0x01 fun c =>
    if c.p 1 ≠ 0 then s.fail q cid cInvalidField 16 else s.toBuffer q cid c 0 s.identifyPage 4096

/-- FEATURES_GET. -/
def execFeaturesGet (q : Fin 64) (cid : Cid) (s : State) : Res :=
  onCommand s q cid 0x02 fun c =>
    s.toBuffer q cid c 0 (leBytes 32 ((s.host.locked.map BitVec.toNat).getD 0)) 0

/-- ABORT: a command that has not started is removed, and completes with ABORTED; `waiting` are the identifiers of the SQ
entries that are still to be fetched, in order (R362, R375). -/
def execAbort (q : Fin 64) (cid : Cid) (waiting : List (BitVec 16)) (s : State) : Res :=
  onCommand s q cid 0x03 fun c =>
    let p := field (c.p 0) 0 6
    let victim := field (c.p 0) 16 16
    let gone := fun (s : State) (head : Nat) => s.modPair p (fun x => { x with
      done := x.done ++ [{ result := 0, sqHead := head, cid := victim, code := cAborted, detail := 0 }] })
    match s.cmd p victim with
    | some v =>
      if v.phase == .started && !startedAmong victim (s.pair p).cmds true then
        ((gone s v.sqHead).modPair p (fun x => { x with cmds := x.cmds.filter (fun d => d.cid != victim) })).done q cid 1
      else s.done q cid 0
    | none =>
      match waiting.findIdx? (fun w => w.toNat == victim) with
      | none => s.done q cid 0
      | some k =>
        let n := s.sqSize p
        let i := (s.sqHead p + k) % n
        if k < ((s.pair p).sqTail + n - s.sqHead p) % n ∧ !(s.pair p).skip.contains i then
          ((gone s ((i + 1) % n)).modPair p (fun x => { x with skip := x.skip ++ [i] })).done q cid 1
        else s.done q cid 0

/-- EVENT_RING: a ring is set up or disabled; the first one takes the held bring-up events (R371, R431). -/
def execEventRing (q : Fin 64) (cid : Cid) (s : State) : Res :=
  onCommand s q cid 0x04 fun c =>
    let n := field (c.p 1) 0 17
    let ev := s.events
    if c.p 0 = 0 then ({ s with events := { ev with ring := none, tail := 0, head := 0, phase := true } } : State).done q cid 0
    else if c.p 0 % 4096 ≠ 0 then s.fail q cid cInvalidField 8
    else if n < 64 ∨ 65536 < n ∨ n ≠ 2 ^ Nat.log2 n then s.fail q cid cInvalidField 16
    else if !s.hostOk (c.p 0) (32 * n) then s.hostRefused.fail q cid cAddress 0
    else
      let r : Ring := { base := c.p 0, entries := n, vector := field (c.p 1) 24 6, irq := bit (c.p 1) 31 }
      let s : State := { s with events := { ev with
        ring := some r, tail := 0, head := 0, phase := true, boot := [], hadRing := true } }
      ((if ev.hadRing then [] else ev.boot).foldl (fun (s : State) e => s.publish e) s).done q cid 0

/-! Configuration sets (R274, R275, R278, R369). -/

/-- CFG_LOAD: `data` are the entries in host memory. -/
def execCfgLoad (q : Fin 64) (cid : Cid) (data : List Byte) (s : State) : Res :=
  onCommand s q cid 0x08 fun c =>
    let ty := field (c.p 1) 0 4
    let first := c.p 1 / 2 ^ 32
    let n := c.p 2
    if s.cfg.pending then s.fail q cid cBusy 0
    else if ty < 1 ∨ 13 < ty then s.fail q cid cInvalidField 16
    else if secMax ty < first + n then s.fail q cid cInvalidField 24
    else if n ≠ 0 ∧ !s.hostOk (c.p 0) (n * secBytes ty) then s.hostRefused.fail q cid cAddress 0
    else
      let es := (List.range n).map (fun i => hostBytes (data.drop (i * secBytes ty)) (secBytes ty))
      let set := s.shadow.load ty first es
      let set := if ty = 6 ∨ ty = 9 ∨ ty = 13 then set.applyRegs else set
      ({ s with shadow := set,
                cfg := { s.cfg with isSealed := false, dirty := s.cfg.dirty ||| BitVec.ofNat 14 (2 ^ ty) } } : State).done q cid n

/-- The digest that a CFG_SEAL carries. -/
def HostCmd.digest (c : HostCmd) : List Byte := (List.range 6).flatMap (fun k => leBytes 8 (c.p k))

/-- CFG_SEAL: the set is generated, checked and sealed, once the regions it uses are on (R275, R277, R383). -/
def execCfgSeal (q : Fin 64) (cid : Cid) (s : State) : Res :=
  onCommand s q cid 0x09 fun c =>
    if s.cfg.pending then s.fail q cid cBusy 0
    else
      let set := s.generate s.shadow
      let s : State := { s with shadow := set, cfg := { s.cfg with isSealed := false } }
      match s.sealFail set (some c.digest) with
      | some f => (s.recordSeal f).fail q cid cSealFailed f.1
      | none =>
        let off := s.wantedRegions set
        if off.isEmpty then (s.sealed set c.digest false).done q cid 0
        else (off.foldl (fun (s : State) e => s.requestOn e) s).await q.val cid.toNat 0

/-- CFG_TACK: the tack is accepted; the command completes with it (R278, R279). -/
def execCfgTack (q : Fin 64) (cid : Cid) (s : State) : Res :=
  onCommand s q cid 0x0A fun _ =>
    if s.cfg.pending then s.fail q cid cBusy 0
    else if !s.cfg.isSealed then s.fail q cid cNotSealed 0
    else (s.acceptTack false (some (q.val, cid.toNat)) false).await q.val cid.toNat 0

/-! Ticking (R251, R369). -/

/-- Ticking starts. The root of a system sends the marker of the first tick (DESIGN CHOICE: the spec names no marker for a
tick that no END precedes). -/
def State.startTicking (s : State) : State :=
  let was := s.gen.ready.isNone
  let s := s.writeRun true
  if was && s.gen.ready.isSome && s.isRoot then s.sendMark s.nextTick (s.attemptOf s.nextTick) else s

/-- RUN: a write of TICK_CTRL.RUN (R251). -/
def execRun (run : Bool) (s : State) : Res := .next (if run then s.startTicking else s.writeRun false)

/-- Ticking may start or its sequence be set. -/
def State.still (s : State) : Bool := s.gen.gstate == .stopped || s.gen.gstate == .halted

/-- TICK_START. -/
def execTickStart (q : Fin 64) (cid : Cid) (s : State) : Res :=
  onCommand s q cid 0x10 fun c =>
    if !s.still then s.fail q cid cState 4
    else
      let s := s.modGen (fun g => { g with raEn := bit (c.p 0) 0, stepLeft := 0 })
      (s.startTicking).await q.val cid.toNat (s.gen.commitSeq.toNat + 1)

/-- TICK_STOP. -/
def execTickStop (q : Fin 64) (cid : Cid) (s : State) : Res :=
  onCommand s q cid 0x11 fun _ =>
    if s.still then s.done q cid s.gen.commitSeq.toNat
    else ((s.await q.val cid.toNat 0).writeRun false).tickWaiters

/-- TICK_STEP. -/
def execTickStep (q : Fin 64) (cid : Cid) (s : State) : Res :=
  onCommand s q cid 0x12 fun c =>
    let n := field (c.p 0) 0 32
    if n = 0 then s.fail q cid cInvalidField 8
    else if !s.still then s.fail q cid cState 4
    else
      let s := s.modGen (fun g => { g with raEn := bit (c.p 0) 32, stepLeft := n })
      (s.startTicking).await q.val cid.toNat (s.gen.commitSeq.toNat + n)

/-- TICK_SET_SEQ. -/
def execTickSetSeq (q : Fin 64) (cid : Cid) (s : State) : Res :=
  onCommand s q cid 0x13 fun c =>
    if s.still then (s.writeSeq (BitVec.ofNat 64 (c.p 0))).done q cid 0 else s.fail q cid cState 1

/-! Worlds (R254, R257, R258, R267, R369). -/

/-- WORLD_READ. -/
def execWorldRead (q : Fin 64) (cid : Cid) (s : State) : Res :=
  onCommand s q cid 0x18 fun c =>
    let w := field (c.p 0) 0 12
    let bs := (List.range 8).flatMap (fun k => leBytes 8 ((s.world w).word (s.active.worldPatch w) k))
    s.toBuffer q cid c 1 bs s.gen.commitSeq.toNat

/-- A word of an entry as WORLD_WRITE writes it: the counters too. -/
def World.hostWord (x : World) (k v : Nat) : World :=
  if k = 0 then x.writeStatus v
  else if k = 6 then { x with step := v % 2 ^ 48 }
  else if k = 7 then { x with episode := v % 2 ^ 32, doneTick := v / 2 ^ 32 % 2 ^ 32 }
  else x.writeWord k v

/-- WORLD_WRITE: `data` is the host's buffer (R267, R369). A change of SLOTS, layout, key or counters needs an UNUSED world
or STOPPED ticking. -/
def execWorldWrite (q : Fin 64) (cid : Cid) (data : List Byte) (s : State) : Res :=
  onCommand s q cid 0x19 fun c =>
    let w := field (c.p 0) 0 12
    let mask := bitsOf 8 (field (c.p 0) 16 8)
    let bs := hostBytes data 64
    let word := fun k => leAt bs (8 * k) 8
    let x := s.world w
    let y := mask.foldl (fun (x : World) k => x.hostWord k (word k)) x
    let fixed := x.state != 0 && s.gen.gstate != .stopped
    let changes := decide ((y.slots, y.stateBase, y.slotStride, y.slotBytes, y.template) ≠
        (x.slots, x.stateBase, x.slotStride, x.slotBytes, x.template))
      || decide ((y.keyLo, y.keyHi, y.step, y.episode, y.doneTick) ≠ (x.keyLo, x.keyHi, x.step, x.episode, x.doneTick))
    let refused := if mask.contains 0 then statusRefused (s.feature 1) (word 0) else 0
    s.fromBuffer q cid c 1 64
      (if refused = 1 then s.fail q cid cFeature 1
      else if refused = 2 || mask.any (fun k => !worldWordOk k (word k)) then s.fail q cid cInvalidField 16
      else if fixed && changes then s.fail q cid cState 3
      else (s.setWorld w y).done q cid 0)

/-- The worlds of a range. -/
def HostCmd.worlds (c : HostCmd) : List Nat := (List.range (field (c.p 0) 16 13)).map (fun k => field (c.p 0) 0 12 + k)
def HostCmd.worldsOk (c : HostCmd) : Bool :=
  decide (1 ≤ field (c.p 0) 16 13) && decide (field (c.p 0) 0 12 + field (c.p 0) 16 13 ≤ 4096)

/-- WORLD_RESET. -/
def execWorldReset (q : Fin 64) (cid : Cid) (s : State) : Res :=
  onCommand s q cid 0x1A fun c =>
    if !c.worldsOk then s.fail q cid cInvalidField 8
    else
      (c.worlds.foldl (fun (s : State) w => s.setWorld w { (s.world w) with resetReq := true }) s).done q cid c.worlds.length

/-- WORLD_STATE: every world of the range is checked first. -/
def execWorldState (q : Fin 64) (cid : Cid) (s : State) : Res :=
  onCommand s q cid 0x1B fun c =>
    let st := field (c.p 1) 0 2
    if !c.worldsOk then s.fail q cid cInvalidField 8
    else if st ≠ 1 ∧ st ≠ 2 then s.fail q cid cInvalidField 16
    else if c.worlds.any (fun w => decide ((s.world w).slots < 2)) then s.fail q cid cInvalidField 8
    else
      (c.worlds.foldl (fun (s : State) w => s.setWorld w { (s.world w) with state := st }) s).done q cid c.worlds.length

/-! Data (R342, R369). -/

/-- DMA_WRITE line by line: what stops it is a status and a detail. DESIGN CHOICE (log 118): a write that meets a retired
region stops it with DATA_ERROR, as a read of it does. -/
def dmaToPanel (host panel : Nat) : Nat → List Byte → State → Option (State × Option (Nat × Nat))
  | 0, _, s => some (s, none)
  | n + 1, data, s =>
    if !s.hostOk host 64 then some (s.hostRefused, some (cAddress, 0))
    else if s.active.refused panel 64 then some (s, some (cAddress, 1))
    else
      let first := 64 - panel % 64
      let bs := hostBytes data 64
      let rest := 64 * (n + 1)
      match s.edgeWriteOf 8 panel (bs.take first) rest with
      | none => none
      | some (st, s) =>
        match (if st = stOk ∧ first < 64 then s.edgeWriteOf 8 (panel + first) (bs.drop first) (rest - first) else some (st, s)) with
        | none => none
        | some (st, s) =>
          if st = stOk then dmaToPanel (host + 64) (panel + 64) n (data.drop 64) s
          else some (s, some (if st = stPoison then (cData, 1) else (cAddress, 1)))

/-- The parameters of a DMA command: byte of the first field out of range (R368). -/
def HostCmd.dmaBad (c : HostCmd) : Option Nat :=
  if 1 < space (c.p 1) ∨ 2 ^ 48 ≤ c.p 1 then some 16
  else if c.p 2 % 64 ≠ 0 ∨ 2 ^ 30 < c.p 2 then some 24 else none

/-- DMA_WRITE: `data` is what host memory holds. -/
def execDmaWrite (q : Fin 64) (cid : Cid) (data : List Byte) (s : State) : Res :=
  onCommand s q cid 0x20 fun c =>
    match c.dmaBad with
    | some o => s.fail q cid cInvalidField o
    | none =>
      match dmaToPanel (c.p 0) (c.p 1) (c.p 2 / 64) data s with
      | none => s
      | some (s, none) => s.done q cid (c.p 2)
      | some (s, some (code, detail)) => s.fail q cid code detail

/-- DMA_READ line by line; `bad` are the lines whose code reads as uncorrectable. -/
def dmaToHost (host panel : Nat) (bad : List Nat) : Nat → Nat → State → Option (State × Option (Nat × Nat))
  | 0, _, s => some (s, none)
  | n + 1, k, s =>
    let h := host + 64 * k
    let a := panel + 64 * k
    if s.active.refused a 64 then some (s, some (cAddress, 1))
    else
      match s.edgeRead a 64 (bad.contains k) with
      | none => none
      | some (st, bs, s) =>
        if st ≠ stOk then some (s, some (cData, 1))
        else if !s.hostOk h 64 then some (s.hostRefused, some (cAddress, 0))
        else dmaToHost host panel bad n (k + 1) (s.writeHost h bs)

/-- DMA_READ. -/
def execDmaRead (q : Fin 64) (cid : Cid) (bad : List Nat) (s : State) : Res :=
  onCommand s q cid 0x21 fun c =>
    match c.dmaBad with
    | some o => s.fail q cid cInvalidField o
    | none =>
      match dmaToHost (c.p 0) (c.p 1) bad (c.p 2 / 64) 0 s with
      | none => s
      | some (s, none) => s.done q cid (c.p 2)
      | some (s, some (code, detail)) => s.fail q cid code detail

/-- The latest tick whose merge of a slot is complete at the root: of the last commit, or of the one before (R136, R229).
-/
def State.mergedTick (s : State) (slot : Nat) : Option Nat :=
  let h := s.hub halRoot
  let c := s.gen.commitSeq.toNat
  let whole := fun t => (SMap.get [] h.histEnds (16 * tickp t + slot)).contains 9999
  if s.gen.last.isNone then none else if whole c then some c else if 1 < s.gen.commits ∧ whole (c - 1) then some (c - 1) else none

/-- HIST_READ: 68 bins and the tick of the merge; zeros before the first merge. -/
def execHistRead (q : Fin 64) (cid : Cid) (s : State) : Res :=
  onCommand s q cid 0x28 fun c =>
    let slot := field (c.p 0) 0 4
    let t := s.mergedTick slot
    let bin := fun b => match t with
      | none => 0
      | some t => SMap.get 0 (s.hub halRoot).hist ((16 * tickp t + slot) * 128 + b)
    s.toBuffer q cid c 1 ((List.range 68).flatMap (fun b => leBytes 4 (bin b)) ++ leBytes 8 (t.getD 0)) (t.getD 0)

/-- POWER_CAP (R368, R390). -/
def execPowerCap (q : Fin 64) (cid : Cid) (s : State) : Res :=
  onCommand s q cid 0x30 fun c =>
    if c.p 0 < 400 ∨ 1800 < c.p 0 then s.fail q cid cInvalidField 8
    else
      let s := (s.setFld unitMgmt rPWR_HOST_CAP 0 16 (c.p 0)).capNow
      s.done q cid s.capGoal

end Sys2Proof.Machine
end

