-- ==== Sys2Proof/Machine/ResetOps.lean ====
section
/-!
DEFINITION. The resets of a core and of the module, and what they keep (R58, R105, R416, R417).
-/
namespace Sys2Proof.Machine

/-! A core reset. -/

/-- A slot becomes FREE; of its registers the fault record stays (R58). -/
def Slot.coreReset (sl : Slot) : Slot :=
  { Slot.reset with
    faultCode := sl.faultCode, faultValid := sl.faultValid, faultOvf := sl.faultOvf, faultPc := sl.faultPc,
    faultAddr := sl.faultAddr, lastFault := sl.lastFault }

/-- A bank is on, without requests of its power and without flags (R116); remote reads at it go on waiting. -/
def Bank.coreReset (now : Nat) (b : Bank) : Bank :=
  { Bank.reset with
    freeAt := b.freeAt, scrubLine := b.scrubLine, scrubDue := b.scrubDue, uncoveredAt := now
    p6 := b.p6.filter (fun r => match r with
      | .remoteRead .. => true
      | _ => false) }

/-- Every window closes at once, every grant and full bit is discarded, and the generations stay (R105); the contents
stay. -/
def Spad.coreReset (sp : Spad) (now : Nat) : Spad :=
  { sp with
    wins := SMap.mapAll Window.reset (fun _ w => w.closed) sp.wins, grants := [], hold := []
    banks := SMap.mapAll Bank.reset (fun _ b => b.coreReset now) sp.banks }

/-- Remote writes that wait at a core's banks: the accesses. -/
def Spad.remoteWrites (sp : Spad) : List Nat :=
  sp.banks.flatMap (fun e => e.2.p6.filterMap (fun r => match r with
    | .remoteWrite id .. => some id
    | _ => none))

def Core.coreReset (c : Core) (now commits : Nat) : Core :=
  { c with
    slots := SMap.mapAll Slot.reset (fun _ sl => sl.coreReset) c.slots, lastSlot := 7, issueAt := now, resetAt := now
    icinvBusy := false, icache := if c.icinvBusy then [] else c.icache
    spad := c.spad.coreReset now, dma := { Dma.reset with nextId := c.dma.nextId }, mxu := Mxu.reset, vec := Vec.reset
    hist := { Hist.reset with since := commits }
    node := { c.node with hbAt := now, hbStopped := false } }

/-- The router of a core returns to Valiant mode 0 and throttle level 0
(R221). -/
def State.resetRouter (s : State) (p : Nat) : State :=
  { s with
    active := s.active.setReg (unitCore p) rMESH_CORE_CFG (regReset (unitCore p) rMESH_CORE_CFG)
    mesh := { s.mesh with level := SMap.set 0 s.mesh.level p 0, lowSince := SMap.set 0 s.mesh.lowSince p 0 } }

/-- A core reset: the core's state and its registers; its half-rate state, which belongs to its region, stays. DESIGN CHOICE
(log 114): remote writes that wait at its banks are refused, as those that arrive after it. -/
def State.coreReset (s : State) (p : Nat) : State :=
  let s := (s.spad p).remoteWrites.foldl (fun (s : State) id => s.reply id stWindowRefused []) s
  let s := (s.spad p).hold.foldl (fun (s : State) r => s.answerCredit r.id .refused) s
  let s := s.resetRegs (· == unitCore p) 2 (fun _ off => off == rCORE_CLOCK)
  let s := s.resetRouter p
  s.modCore p (fun c => c.coreReset s.now s.gen.commits)

/-- Pliwick has reinitialised a core: it launches again if it runs a mapped logical core and READY is 1 or 2 (R417). -/
def State.reinit (s : State) (p : Nat) : State :=
  if s.mapped p && (s.ready == 1 || s.ready == 2) then s.setFld (unitCore p) rCORE_CTRL 1 1 1 else s

/-! A cold or module reset. -/

/-- A new random nonce (R476). -/
def State.newNonce (s : State) : State :=
  { s with freeCtr := s.freeCtr + 1, sec := { s.sec with nonce := (Config.freeWord s.freeCtr).toNat } }

/-- Fuses and flash stay; the signing index resumes at the end of its block (R462, R470, R473). -/
def Security.afterReset (x : Security) : Security :=
  { x with nextQ := x.reservedQ, debugLevel := 0, spdm := [], measured := [], keyStore := none }

/-- The flash of bring-up stays, and operating time goes on. -/
def State.bootKept (s : State) (level cause : Nat) : Boot :=
  { Boot.reset with
    step := 0, level := level, cause := cause, log := s.boot.log, cyclesBase := s.opCycles, plan := s.boot.plan, planHours := s.boot.planHours,
    ageHours := s.boot.ageHours,
    baselines := s.boot.baselines, supplyRec := s.boot.supplyRec, trend := s.boot.trend, trendNext := s.boot.trendNext }

/-- Every die is reset: all that is not fuses, panel flash or host memory returns to its reset value, and bring-up can begin
(R416, R420). `level` 0 is a cold reset, which also clears the latches of R387 and R397. -/
def State.powerOn (s : State) (level cause : Nat) : State :=
  let keep := { Supply.reset with
    protectAt := s.supply.protectAt, report := s.supply.report, shorted := if level = 0 then [] else s.supply.shorted,
    latchedOff := s.supply.latchedOff && level != 0 }
  let count := s.reg unitMgmt rCFG_BOOT_COUNT
  let t : State := { State.reset with
    pending := s.pending, rom := s.rom, freeCtr := s.freeCtr, hostMem := s.hostMem, boot := s.bootKept level cause, supply := keep
    sec := s.sec.afterReset }
  let t := t.newNonce.setReg unitMgmt rPWR_SUPPLY_REC s.boot.supplyRec
  let t := if level = 0 then t else t.setReg unitMgmt rCFG_BOOT_COUNT count
  t.supply.shorted.foldl (fun (s : State) i => s.latchGroup i) t

/-- A module reset: counted, and bring-up begins. -/
def State.moduleReset (s : State) (cause : Nat) : State :=
  (s.powerOn 1 cause).bump unitMgmt rCFG_BOOT_COUNT 0 16 1

/-- The orderly and the protective shutdown (R396, R397, R402): the supply record is written, and the module stays in
module reset; events already waiting for MCTP are still sent. -/
def State.shutdown (s : State) (cause extreme : Nat) : State :=
  let rec_ := cause + 2 ^ 16 * extreme + 2 ^ 63
  let q := s.events.mctpQ
  let t := ({ s with boot := { s.boot with supplyRec := rec_ } }).powerOn 1 3
  { t with
    supply := { t.supply with down := some ⟨cause, extreme⟩, report := some ⟨cause, extreme⟩ }
    events := { t.events with mctpQ := q } }

end Sys2Proof.Machine
end

