-- ==== Sys2Proof/Machine/FaultOps.lean ====
section
/-!
DEFINITION. The losses of cores, dies, links and edge dies (R385–R387, R435–R439, R442).
-/
namespace Sys2Proof.Machine

/-! Cores (R438, R439). -/

def hourCycles : Nat := 3600 * Config.cycSec

/-- Losses of a logical core within the last hour. -/
def State.recentLosses (s : State) (g : Nat) : Nat :=
  (s.maint.coreLosses.filter (fun e => e.1 == g && decide (s.now < e.2 + hourCycles))).length

/-- A core retires for good (R422 KIND 3). -/
def State.retireCore (s : State) (p cause : Nat) : State :=
  let s : State := { s with
    boot := { s.boot with badCores := insertAsc p s.boot.badCores }
    maint := { s.maint with resuming := s.maint.resuming.filter (fun e => e.1 != p) } }
  s.appendLog 3 (p / 50) (p % 50) cause

/-- CORE_LOST is raised and counted; a fault under rehearsal does not count. -/
def State.noteLoss (s : State) (p : Nat) (inj : Bool) : State :=
  let g := (s.gid p).getD 0x3FFF
  let s := if inj then s
    else ({ s with maint := { s.maint with coreLosses := s.maint.coreLosses ++ [(g, s.now)] } } : State).bump unitMgmt rMNT_FAULT_COUNT 0 16 1
  s.raise .degraded 0xB0 (coreSrc p 0) none (g + 2 ^ 16 * min 0xFFFF (s.recentLosses g)) inj

/-- A core whose heartbeat has been lost is reset and kept at its first loss within 1 h, and retires at the second
(R439). A core whose region is dark, or whose die has stopped, has been dealt with already. -/
def State.coreLost (s : State) (p : Nat) : State :=
  if s.boot.badCores.contains p || s.coreDown p then s
  else
    let g := (s.gid p).getD 0x3FFF
    let inj := s.isInjected 1 g
    let s := s.noteLoss p inj
    if !inj && decide (2 ≤ s.recentLosses g) then s.retireCore p 1
    else
      let s := (s.coreReset p).reinit p
      { s with maint := { s.maint with resuming := s.maint.resuming ++ [(p, s.now + 100 * Config.cycUs)] } }

/-- The automatic tack follows a retirement that changes the map (R436). -/
def State.tackIfMapped (s : State) (ps : List Nat) : State :=
  if ps.any (fun p => s.mapped p && !s.coreWorks (p / 50) (p % 50)) then s.autoTack false else s

/-- R438 for the cores that a notice names. -/
def State.coresLost (s : State) (ps : List Nat) : State :=
  let inj := ps.all (fun p => s.isInjected 1 ((s.gid p).getD 0x3FFF))
  let due := ps.any (fun p => !s.boot.badCores.contains p && !s.coreDown p)
  let s := ps.foldl (fun (s : State) p => s.coreLost p) s
  if due then (s.tackIfMapped ps).abandonOldest .coreLost inj else s

/-! Regions (R385, R386). -/

/-- A region goes dark: its mapped cores are lost, and the automatic tack remaps them. -/
def State.darkRegion (s : State) (site r code : Nat) : State :=
  let u := unitDie site
  let ph := s.fld u (statOff r) 6 5
  let s := s.setReg u (statOff r) (3 + 2 ^ 6 * ph)
  let s := s.setFld u rPWR_REGION_CTRL r 1 0
  let s := (s.appendLog 5 site r (2 + 2 ^ 4 * ph)).raise .degraded code ⟨site, r, false, 0⟩ none 0
  let ps := (regionCores site r).filter s.mapped
  if ps.isEmpty then s
  else
    let s := ps.foldl (fun (s : State) p => s.noteLoss p false) s
    (s.autoTack false).abandonOldest .coreLost false

/-! Dies (R387, R402, R437, R442). -/

/-- Every seam link at a node is fenced. -/
def State.fenceNode (s : State) (v : Nat) : State :=
  (exitsOf v).foldl (fun (s : State) e => (s.fenceLink e.2.2).purgeLink e.2.2) s

/-- A compute die is lost. -/
def State.dieLost (s : State) (site : Nat) : State :=
  if s.boot.badSites.contains site then s
  else
    let die := s.active.dieAt site
    let s : State := { s with boot := { s.boot with badSites := insertAsc site s.boot.badSites } }
    let s := ((s.stopDie site).fenceNode site).appendLog 1 site 0 0
    match die with
    | none => s.autoTack false
    | some d =>
      let s := (s.bump unitMgmt rMNT_FAULT_COUNT 16 16 1).autoTack true
      let new := match s.shadow.site d with
        | some v => if s.boot.badSites.contains v then 0xFF else v
        | none => 0xFF
      (s.raise .jobAffecting 0xB2 ⟨site, 0x3F, false, 0⟩ none (d + 2 ^ 8 * new)).abandonOldest .dieLost false

/-- The mapped sites that the halyard tree no longer reaches. -/
def State.isolated (s : State) : List Nat :=
  let g := s.workGraph
  let lv := g.levels halRoot
  ((List.range 192).filterMap s.active.site).filter (fun v => !g.holes.contains v && SMap.get 0 lv v == 0)

/-- R437: the seam link at an exit of a site is fenced between tacks. -/
def State.seamLost (s : State) (site exit : Nat) : State :=
  let l := linkAt site exit
  let s := ((s.fenceLink l).purgeLink l).appendLog 8 site exit 0
  let s := s.raise .degraded 0xB3 ⟨site, 0x3F, false, 0⟩ none exit
  match s.isolated with
  | [] => s.autoTack false
  | vs => vs.foldl (fun (s : State) v => s.dieLost v) s

/-- An edge die is lost, with its Vorrad port and engine, or with the host link (R387, R423). -/
def State.edgeLost (s : State) (e step : Nat) : State :=
  if s.boot.badEdges.contains e then s
  else
    let s : State := { s with boot := { s.boot with badEdges := insertAsc e s.boot.badEdges } }
    let s := (s.fenceNode (204 + e)).appendLog 13 (204 + e) 0 step
    let s := if e < 8 then
        let s := (if s.portState e = 2 then s.linkDown e else s).setPortState e 3
        { s with coll := { s.coll with retiring := insertAsc (204 + e) s.coll.retiring } }
      else s.linkLost
    s.autoTack false

/-- R387: a converter group latches off; `cause` 1 a short, 2 an over-temperature stop. -/
def State.groupLost (s : State) (i cause : Nat) : State :=
  if s.fld unitMgmt (groupOff i) 0 2 = 2 then s
  else
    let s := s.latchGroup i
    let s : State := if cause = 1 then { s with supply := { s.supply with shorted := insertAsc i s.supply.shorted } } else s
    let data := i + 2 ^ 8 * cause
    if i < 204 then (s.raise .jobAffecting 0x85 ⟨i, 0x3F, false, 0⟩ none data).dieLost i
    else if i < 210 ∨ i = 219 then (s.raise .moduleFatal 0x85 .none none data).moduleReset 2
    else (s.raise .jobAffecting 0x85 (edgeSrc (i - 210) 0x3F) none data).edgeLost (i - 210) 0

end Sys2Proof.Machine
end

