-- ==== Sys2Proof/Machine/Power.lean ====
section
/-!
DEFINITION. The commands of power delivery (spec/17, R507).
-/
namespace Sys2Proof.Machine

/-! Converter groups (R377–R379, R387, R507). -/

/-- The phases of a group that work. -/
def groupPhases (i : Nat) : Nat := if i < 204 then 4 else 2

/-- The SITE of a group in the alteration log; a spar has none. -/
def groupSite (i : Nat) : Nat := if i < 204 then i else if i < 210 then 0xFF else 204 + (i - 210)
def groupSrc (i : Nat) : EventSrc :=
  if i < 204 then ⟨i, 0x3F, false, 0⟩ else if i < 210 then .none else edgeSrc (i - 210) 0x3F

/-- A die is derated (R389): its budget is limited from the next tick start. -/
def State.derate (s : State) (site cause : Nat) : State :=
  (s.setFld (unitDie site) rPWR_DIE_STATUS 5 2 cause).appendLog 12 site 0 cause

/-- CONVERTER_PHASE_FAILURE. -/
def execConverterPhaseFailure (i : Fin 220) (phase : Fin 4) (s : State) : Res :=
  let i := i.val
  let s0 := s
  if groupPhases i ≤ phase.val ∨ s.fld unitMgmt (groupOff i) (2 + phase.val) 1 = 0 then .next s
  else
    let s := s.setFld unitMgmt (groupOff i) (2 + phase.val) 1 0
    let s := if i < 204 then s.setFld (unitDie i) rPWR_DIE_STATUS (9 + phase.val) 1 0 else s
    let s := (s.appendLog 6 (groupSite i) phase.val i).raise .degraded 0x80 (groupSrc i) none 0
    let lost := groupPhases i - (bitsOf (groupPhases i) (s.fld unitMgmt (groupOff i) 2 4)).length
    if lost < 2 then .next s
    else if i < 204 then
      if s0.fld (unitDie i) rPWR_DIE_STATUS 5 2 = 2 then .next s
      else .next ((s.setFld unitMgmt (groupOff i) 0 2 1).derate i 2)
    else .next (s.groupLost i 1)

/-- GROUP_OUTPUT_SHORT. -/
def execGroupOutputShort (i : Fin 220) (s : State) : Res := .next (s.groupLost i.val 1)

/-- CONVERTER_OVERTEMP. -/
def execConverterOvertemp (i : Fin 220) (s : State) : Res := .next (s.groupLost i.val 2)

/-! Region regulators (R385). -/

/-- A phase of a region is lost, or, without one, its controller. `inj`: a rehearsal turns the phase off, which neither
counts nor is logged (R450). -/
def State.losePhase (s : State) (site r : Nat) (phase : Option Nat) (inj : Bool) : State :=
  let u := unitDie site
  match phase with
  | none => s.darkRegion site r 0x83
  | some k =>
    let s := s.setFld u (statOff r) (6 + k) 1 0
    let ph := s.fld u (statOff r) 6 5
    let left := (bitsOf 5 ph).length
    if inj then s.raise .degraded 0x81 ⟨site, r, false, 0⟩ none 0 true
    else if 4 ≤ left then
      (s.appendLog 5 site r (2 ^ 4 * ph)).raise .degraded 0x81 ⟨site, r, false, 0⟩ none 0
    else if left = 3 then
      let s := s.modRegion site r (fun x => { x with faultHalf := true, toHalf := true })
      (s.appendLog 5 site r (1 + 2 ^ 4 * ph)).raise .degraded 0x82 ⟨site, r, false, 0⟩ none 0
    else s.darkRegion site r 0x83

/-- REGION_PHASE_FAILURE; without a phase, the controller is lost. -/
def execRegionPhaseFailure (site : Fin 204) (r : Fin 10) (phase : Option (Fin 5)) (s : State) : Res :=
  let works := match phase with
    | none => true
    | some k => s.fld (unitDie site.val) (statOff r.val) (6 + k.val) 1 == 1
  when (s.regionState site.val r.val != 3 && works) s (s.losePhase site.val r.val (phase.map Fin.val) false)

/-- REGION_OVERCURRENT: current above 14.0 A. -/
def execRegionOvercurrent (site : Fin 204) (r : Fin 10) (s : State) : Res :=
  when (s.regionState site.val r.val != 3) s (s.darkRegion site.val r.val 0x84)

/-! Turning regions on and off (R383, R384). -/

/-- The cores of the site stay dark: a spare site without a logical die (R13). -/
def State.siteDark (s : State) (site : Nat) : Bool := isSpareSite site && (s.active.dieAt site).isNone

/-- ON_REQ: requests for regions that are on, and refused ones for dark regions and for a spare site without a logical die,
clear at once. -/
def execOnReq (site : Fin 204) (req : BitVec 10) (s : State) : Res :=
  .next ((bitsOf 10 req.toNat).foldl (fun (s : State) r =>
    if s.regionState site.val r < 2 && !s.siteDark site.val then s.requestOn (site.val, r) else s) s)

/-- A core of the region holds a launch entry of the active set. -/
def State.regionUsed (s : State) (site r : Nat) : Bool := (regionCores site r).any (fun p => s.holdsLaunch s.active p)

/-- OFF_REQ: refused for a region that holds a launch entry of the active set, and its bit clears. -/
def execOffReq (site : Fin 204) (req : BitVec 10) (s : State) : Res :=
  .next ((bitsOf 10 req.toNat).foldl (fun (s : State) r =>
    let st := s.regionState site.val r
    if st = 1 ∨ st = 2 then s.setFld (unitDie site.val) rPWR_REGION_CTRL (16 + r) 1 (b2n (!s.regionUsed site.val r)) else s) s)

/-- REGION_TURN_OFF: all stages open at once, once every slot of the region is FREE. -/
def execRegionTurnOff (site : Fin 204) (r : Fin 10) (s : State) : Res :=
  let u := unitDie site.val
  let st := s.regionState site.val r.val
  let ctrl := s.reg u rPWR_REGION_CTRL
  let asked := bit ctrl (16 + r.val) || (bit ctrl 31 && st == 2 && !s.regionUsed site.val r.val)
  let free := (regionCores site.val r.val).all (fun p => (List.range 8).all (fun i => (s.slot p i).mode == .free))
  let t := s.setFld u (statOff r.val) 0 6 0
  let t := ((t.setFld u (statOff r.val) 20 12 0).setFld u rPWR_REGION_CTRL (16 + r.val) 1 0).setFld u rPWR_REGION_CTRL r.val 1 0
  when ((st == 1 || st == 2) && asked && free) s t

/-- The current limit of a region in 0.1 A (R382). -/
def State.regionLimit (s : State) (site r : Nat) : Nat :=
  if (bitsOf 5 (s.fld (unitDie site) (statOff r) 6 5)).length ≤ 3 then 75 else 100

/-- The plan of a region in flash (R411): 750 mV at full rate until one is made. -/
def State.planOf (s : State) (site r : Nat) : Nat × Nat := SMap.get (750, 0) s.boot.plan (10 * site + r)

/-- A CFG_SEAL that has waited for the regions its set uses: it is checked again, sealed and completed (R383). -/
def State.sealAfterRegions (s : State) : State :=
  let set := s.shadow
  if !(s.wantedRegions set).isEmpty then s
  else s.host.pairs.foldl (fun (s : State) (e : Nat × QPair) => e.2.cmds.foldl (fun (s : State) c =>
    if c.opcode != 0x09 || c.phase != .waiting then s
    else
      match s.sealFail set (some c.digest) with
      | some f => (s.recordSeal f).finish e.1 c.cid cSealFailed f.1 0
      | none => (s.sealed set c.digest false).finish e.1 c.cid 0 0 0) s) s

/-- The region is on at its plan voltage; its cores are reset and reinitialised. -/
def State.regionOn (s : State) (site r : Nat) : State :=
  let u := unitDie site
  let plan := (s.planOf site r).1
  let s := (s.setFld u (statOff r) 0 2 2).setFld u (statOff r) 20 12 (plan % 1024)
  let s := s.setFld u rPWR_REGION_CTRL r 1 0
  let s := (regionCores site r).foldl (fun (s : State) p => if s.boot.badCores.contains p then s else (s.coreReset p).reinit p) s
  s.setHalf site r (bit plan 10 || ((s.die site).region r).faultHalf)

/-- REGION_STAGE: the next header stage of a requested region closes, in the turn-on window and not in reef mode, and
its interval runs; `below` and `above` are the neighbours' currents in 0.1 A. After the eighth the region is on. -/
def execRegionStage (site : Fin 204) (r : Fin 10) (below above : BitVec 8) (s : State) : Res :=
  let site := site.val
  let r := r.val
  let u := unitDie site
  let st := s.regionState site r
  let first := (List.range 10).find? (fun k => s.regionState site k == 0 && bit (s.reg u rPWR_REGION_CTRL) k)
  let begins := st == 0 && first == some r && (List.range 10).all (fun k => s.regionState site k != 1)
  if !(st == 1 || begins) || !s.turnOnWindow site || s.reef then .next s
  else
    let s := if st = 1 then s.advanceTo ((s.die site).region r).stageAt else s
    let k := s.fld u (statOff r) 2 4 + 1
    let loud := (decide (0 < r) && decide (85 * s.regionLimit site (r - 1) < 100 * below.toNat))
      || (decide (r < 9) && decide (85 * s.regionLimit site (r + 1) < 100 * above.toNat))
    let due := s.now + (if loud then Config.cycUs else Config.cycUs / 4)
    let s := (s.setFld u (statOff r) 0 2 1).setFld u (statOff r) 2 4 k
    let s := s.modRegion site r (fun x => { x with stageAt := due })
    if k < 8 then .next s else .next ((s.advanceTo due).regionOn site r).sealAfterRegions

/-! Contacts (R388, R389). -/

/-- An estimate joins the mean of its operating day; the mean of a day that is over becomes the next entry of the trend
(R483). -/
def State.trendEstimate (s : State) (site est : Nat) : State :=
  let day := s.hours / 24
  let (d, sum, n) := SMap.get (0, 0, 0) s.boot.trendDay site
  if n = 0 ∨ d = day then
    { s with boot := { s.boot with trendDay := SMap.set (0, 0, 0) s.boot.trendDay site (day, sum + est, n + 1) } }
  else
    let k := SMap.get 0 s.boot.trendNext site
    { s with boot := { s.boot with
      trend := SMap.set 0 s.boot.trend (8 * site + k) (sum / n % 65536)
      trendNext := SMap.set 0 s.boot.trendNext site ((k + 1) % 8)
      trendDay := SMap.set (0, 0, 0) s.boot.trendDay site (day, est, 1) } }

/-- One contact estimate in µΩ, at an input voltage in mV and a mean input current in 0.1 A. Before commissioning has recorded a baseline
nothing is compared. -/
def State.contactEstimate (s : State) (site est mv current : Nat) : State :=
  let u := unitDie site
  let s := s.setReg u rPWR_DIE_INPUT (mv + 2 ^ 16 * current)
  let s := (s.telMin (telDie site 0xF370) 0 16 mv).telMax (telDie site 0xF370) 16 16 current
  if current < 100 then s
  else
    let e := est
    let base := s.fld u rPWR_CONTACT 0 16
    let src : EventSrc := ⟨site, 0x3F, false, 0⟩
    let last := (s.die site).lastEst
    let s := (s.setFld u rPWR_CONTACT 16 16 e).telMax (telDie site 0xF378) 16 16 e
    let s := (s.trendEstimate site e).modDie site (fun d => { d with lastEst := some e })
    if base = 0 then s
    else
      let s := if 125 * base < 100 * e ∧ !(s.die site).riseRaised then
          (s.modDie site (fun d => { d with riseRaised := true })).raise .degraded 0x86 src none 0
        else if 100 * e < 120 * base then s.modDie site (fun d => { d with riseRaised := false })
        else s
      let s := if 160 * base < 100 * e ∧ s.fld u rPWR_DIE_STATUS 5 2 = 0 then (s.derate site 1).raise .degraded 0x87 src none 0
        else s
      match last with
      | none => s
      | some l =>
        let diff := max e l - min e l
        if 10 * base < 100 * diff then s.raise .degraded 0x88 src none 0 else s

/-- CONTACT_ESTIMATE, in µΩ, at an input voltage in mV and a mean input current in 0.1 A. -/
def execContactEstimate (site : Fin 204) (est mv current : BitVec 16) (s : State) : Res :=
  .next (s.contactEstimate site.val est.toNat mv.toNat current.toNat)

/-! The power budget (R392, R393). -/

/-- POWER_COMPARE: a die compares its 10 µs average, in 0.1 W, with its budget. -/
def execPowerCompare (site : Fin 204) (avg : BitVec 16) (s : State) : Res :=
  let site := site.val
  let u := unitDie site
  let b := s.fld u rPWR_DIE_BUDGET 0 16
  let a := avg.toNat
  let s := (s.setFld u rPWR_DIE_BUDGET 16 16 a).telMax (telDie site 0xF370) 32 16 a
  if b < a then
    .next (s.modDie site (fun d =>
      let d := { d with belowSince := none }
      if d.mxuCap = 1 then { d with vecCap := max 1 (d.vecCap - 8) } else { d with mxuCap := max 1 (d.mxuCap - 8) }))
  else if 10 * a < 9 * b then
    let now := s.now
    .next (s.modDie site (fun d =>
      let since := d.belowSince.getD now
      let d := { d with belowSince := some since }
      if now < since + 10 * Config.cycUs then d
      else if d.vecCap < 64 then { d with vecCap := min 64 (d.vecCap + 8) }
      else { d with mxuCap := min 64 (d.mxuCap + 8) }))
  else .next (s.modDie site (fun d => { d with belowSince := none }))

/-- BACKSTOP_CHECK: the 12 V input power averaged over 10 µs, in 10 W units. -/
def execBackstopCheck (avg : BitVec 16) (s : State) : Res :=
  let a := avg.toNat
  let s := (s.setFld unitMgmt rPWR_INPUT 32 16 a).telMax (telPanel 0x60) 32 16 a
  if 105 * s.fld unitMgmt rPWR_CAP_STAT 0 16 < 100 * a ∨ 1800 < a then
    let s := (List.range 204).foldl (fun (s : State) v => s.modDie v (fun d => { d with backstop := true })) s
    .next (s.setFld unitMgmt rPWR_CAP_STAT 40 1 1)
  else .next s

/-! The supply (R394–R397). -/

/-- The excursion above 12.6 V of R395. -/
def State.inputHigh (s : State) (mv : Nat) : State :=
  let p := s.supply
  if 12600 ≤ mv ∧ mv ≤ 13200 then { s with supply := { p with highSince := some (p.highSince.getD s.now) } }
  else { s with supply := { p with highSince := none, highRaised := false } }

/-- The telemetry of a sample (R484): the tick that was oldest uncommitted at the least voltage stands beside it. -/
def State.telInput (s : State) (mv : Nat) : State :=
  let k := telPanel 0x60
  let least := s.telWord k % 65536
  let s := if least = 0 ∨ mv < least then s.telSet (telPanel 0x68) ((s.oldest.map TickRun.tick).getD 0) else s
  (s.telMin k 0 16 mv).telMax k 16 16 mv

/-- Reef mode begins (R394). -/
def State.reefOn (s : State) (mv : Nat) : State :=
  let s := s.setReg unitMgmt rPWR_REEF_STAT (setField (1 + 2 ^ 16 * mv) 32 32 (s.fld unitMgmt rPWR_REEF_STAT 32 32))
  let s := s.bump unitMgmt rPWR_REEF_COUNT 0 32 1
  ({ s with supply := { s.supply with low := 0, reefStart := s.now, since := none } }).raise .degraded 0x89 .none none 0

/-- Reef mode ends; the time that it took of step 3 of bring-up does not count (R433). -/
def State.reefOff (s : State) : State :=
  let s : State := if s.turningOn then
      { s with boot := { s.boot with stepAt := s.boot.stepAt + (s.now - max s.boot.stepAt s.supply.reefStart) } }
    else s
  let us := (s.now - s.supply.reefStart) / Config.cycUs
  let vmin := s.fld unitMgmt rPWR_REEF_STAT 16 16
  let s := s.setReg unitMgmt rPWR_REEF_STAT (2 ^ 16 * vmin + 2 ^ 32 * (us % 2 ^ 32))
  ({ s with supply := { s.supply with since := none, low := 0 } }).raise .info 0x8A .none none (vmin + 2 ^ 16 * (us % 2 ^ 32))

/-- SUPPLY_SAMPLE: a busbar sample in mV. -/
def execSupplySample (mv : BitVec 16) (s : State) : Res :=
  let v := mv.toNat
  if s.supply.down.isSome then .next s
  else
    let s := ((s.setFld unitMgmt rPWR_INPUT 0 16 v).telInput v).inputHigh v
    if 13200 < v then
      let again := match s.supply.protectAt with
        | some t => decide (s.opCycles < t + hourCycles)
        | none => false
      let s := { s with supply := { s.supply with protectAt := some s.opCycles, latchedOff := s.supply.latchedOff || again } }
      .next (s.shutdown 2 v)
    else if v < 10200 then .next (s.shutdown 1 v)
    else if !s.reef then
      let low := if v < s.fld unitMgmt rPWR_REEF_CFG 0 16 then s.supply.low + 1 else 0
      if 4 ≤ low then .next (s.reefOn v) else .next { s with supply := { s.supply with low := low } }
    else
      let s := s.setFld unitMgmt rPWR_REEF_STAT 16 16 (min v (s.fld unitMgmt rPWR_REEF_STAT 16 16))
      let since := if 11300 < v then some (s.supply.since.getD s.now) else none
      let s := { s with supply := { s.supply with since := since } }
      match since with
      | some t => if t + Config.cycMs ≤ s.now then .next s.reefOff else .next s
      | none => .next s

/-- INPUT_HIGH_TIMER: 10 ms between 12.6 V and 13.2 V, once for each excursion. -/
def execInputHighTimer (s : State) : Res :=
  match s.supply.highSince with
  | none => .next s
  | some t =>
    when (!s.supply.highRaised) s
      (({ s with supply := { s.supply with highRaised := true } }).advanceTo (t + 10 * Config.cycMs) |>.raise .degraded 0x8B .none none 0)

/-- SUPPLY_RECOVERY: the input, and after cause 3 the reference, have been good for 100 ms: the module-reset sequence
begins. -/
def execSupplyRecovery (s : State) : Res := when (s.supply.down.isSome && !s.supply.latchedOff) s (s.moduleReset 3)

end Sys2Proof.Machine
end

