-- ==== Sys2Proof/Machine/Clocks.lean ====
section
/-!
DEFINITION. The commands of clocks, margins and ageing (spec/18).
-/
namespace Sys2Proof.Machine

/-! The reference and the PLLs (R402). -/

/-- REFERENCE_LOSS: the PLLs hold their frequency. -/
def execReferenceLoss (s : State) : Res :=
  let t : State := { s with supply := { s.supply with refLostAt := some s.now } }
  let t := (t.setFld unitMgmt rCLK_REF_STAT 0 2 2).bump unitMgmt rCLK_REF_STAT 32 16 1
  when (s.supply.refLostAt.isNone && s.supply.down.isNone) s t

/-- REFERENCE_RETURN within 1.0 ms: nothing is lost. -/
def execReferenceReturn (s : State) : Res :=
  match s.supply.refLostAt with
  | none => .next s
  | some t =>
    when (decide (s.now ≤ t + Config.cycMs)) s
      (({ s with supply := { s.supply with refLostAt := none } } : State).setFld unitMgmt rCLK_REF_STAT 0 2 1)

/-- HOLDOVER_EXPIRY: REF_LOST goes out, and the panel shuts down with cause 3. -/
def execHoldoverExpiry (s : State) : Res :=
  match s.supply.refLostAt with
  | none => .next s
  | some t => .next (((s.advanceTo (t + Config.cycMs)).raise .moduleFatal 0x96 .none none 0).shutdown 3 0)

/-- PLL_LOCK_LOSS of a site, or of edge die `v - 204`: the die stops and is lost; without the management die the module is
reset (R387). -/
def execPllLockLoss (v : Fin 214) (s : State) : Res :=
  if v.val < 204 then .next ((s.setFld (unitDie v.val) rCLK_DIE_STATUS 0 1 0).dieLost v.val)
  else if v.val = halRoot then .next (s.moduleReset 2)
  else .next (s.edgeLost (v.val - 204) 0)

/-! Seam links (R16, R404, R405). -/

def State.setSep (s : State) (site e sep : Nat) : State :=
  let u := unitDie site
  let s := s.setFld u (seamOff e) 8 9 sep
  let m := s.fld u (seamOff e) 17 9
  if sepMargin sep < m then s.setFld u (seamOff e) 17 9 (sepMargin sep) else s

/-- The link of an exit is up: trained, not fenced, not in training. -/
def State.seamUp (s : State) (site e : Nat) : Bool := (beyond site e).isSome && s.seamState site e % 4 == 0

/-- A retraining begins: both stations stop granting credits. -/
def State.holdLink (s : State) (l : Nat) : State := { s with mesh := { s.mesh with training := l :: s.mesh.training } }

/-- DRIFT_RETRAINING: the margin of a link has fallen below 2 UI at the receiver of an exit, at separation `sep`. -/
def execDriftRetraining (site : Fin 204) (e : Fin 4) (sep : BitVec 9) (s : State) : Res :=
  let inj := s.isInjected 2 (site.val + 2 ^ 8 * e.val)
  let t := (s.setSep site.val e.val sep.toNat).bump (unitDie site.val) (rCLK_SEAM_COUNT + 4 * e.val) 0 16 1
  let t := t.raise .info 0x90 ⟨site.val, 0x3F, false, 0⟩ none (e.val + 2 ^ 8 * sep.toNat) inj
  when (s.seamUp site.val e.val && decide (sepMargin sep.toNat < 128)) s (t.holdLink (linkAt site.val e.val))

/-- The tracks found failed are repaired and recorded; a third one in a group is not, and fails the link (R16). -/
def State.repairTracks (s : State) (spar : Nat) : List (Nat × Nat × Nat) → State × Bool
  | [] => (s, true)
  | (seam, group, track) :: ts =>
    let k := (spar * 8 + seam) * 256 + group
    let n := SMap.get 0 s.maint.tracks k + 1
    let s : State := { s with maint := { s.maint with tracks := SMap.set 0 s.maint.tracks k n } }
    if 3 ≤ n then (s, false)
    else (s.appendLog 7 spar seam (track + 2 ^ 8 * group)).repairTracks spar ts

/-- The spar whose seams a site's links cross. -/
def sparOf (site : Nat) : Nat := siteRow site / 2

/-- A link on the same spar whose retraining began before that of link `l` is still in it. -/
def State.earlierTraining (s : State) (site l : Nat) : Bool :=
  ((s.mesh.training.dropWhile (· != l)).drop 1).any (fun k =>
    let e := linkEnds k
    (decide (e.1 < 204) && sparOf e.1 == sparOf site) || (decide (e.2 < 204) && sparOf e.2 == sparOf site))

/-- RETRAINING_COMPLETE: a retraining realigns the FIFOs and repairs the tracks found failed (seam, group, track); or it
cannot restore 4 UI, or finds a third failed track, and the link is fenced. While an earlier retraining repairs one of the
groups, which a free bit tells, it waits for that one to finish and examines the group again (R17). -/
def execRetrainingComplete (site : Fin 204) (e : Fin 4) (ok : Bool) (tracks : List (Fin 8 × Fin 256 × Fin 64))
    (s : State) : Res :=
  let l := linkAt site.val e.val
  if (beyond site.val e.val).isNone || !s.mesh.training.contains l then .next s
  else
    let (waits, s) := if tracks.isEmpty || !s.earlierTraining site.val l then (false, s) else s.freeBit
    if waits then .next s
    else
    let inj := s.isInjected 2 (site.val + 2 ^ 8 * e.val)
    let (s, fits) := s.repairTracks (sparOf site.val) (tracks.map (fun t => (t.1.val, t.2.1.val, t.2.2.val)))
    let s : State := { s with mesh := { s.mesh with training := s.mesh.training.filter (· != l) } }
    let good := ok && fits
    let s := if good then s.setFld (unitDie site.val) (seamOff e.val) 8 9 256
      else
        let s := s.bump (unitDie site.val) (rCLK_SEAM_COUNT + 4 * e.val) 16 16 1
        (s.raise .degraded 0x91 ⟨site.val, 0x3F, false, 0⟩ none e.val inj).seamLost site.val e.val
    let s := match s.runningEntry 1 (fun x => x.inStep && x.site == site.val && x.seam == some e.val) with
      | none => s
      | some x => s.stepOver x (decide (x.seams.length ≤ x.progress + 1)) good
    .next (if inj then s.endInjection else s)

/-- SEAM_LINK_FAIL: a seam link fails between tacks (R206, R437). -/
def execSeamLinkFail (site : Fin 204) (e : Fin 4) (s : State) : Res :=
  let l := linkAt site.val e.val
  when ((beyond site.val e.val).isSome && !s.mesh.fenced.contains l) s (s.seamLost site.val e.val)

/-! The margin controller (R407–R409). -/

def marginOff (r : Nat) : Nat := rCLK_MARGIN + 4 * r
def planOff (r : Nat) : Nat := rCLK_PLAN + 4 * r
def State.planMv (s : State) (site r : Nat) : Nat := s.fld (unitDie site) (planOff r) 0 10

/-- A region's voltage, with the raise above its plan voltage. -/
def State.setMv (s : State) (site r mv : Nat) : State :=
  let s := s.setFld (unitDie site) (statOff r) 20 12 mv
  s.setFld (unitDie site) (marginOff r) 16 8 ((mv - s.planMv site r) / 5)

/-- A new plan applies in slack (R411): the region takes its voltage, and turns to half rate or may return to full rate.
-/
def State.applyPlan (s : State) (site r : Nat) : State :=
  let x := (s.die site).region r
  match x.newPlan with
  | some (mv, half) =>
    if !s.slack site then s
    else
      let was := s.regionHalf site r
      let s := s.setReg (unitDie site) (planOff r) (s.planOf site r).1
      let s := s.modRegion site r (fun x => { x with
        newPlan := none, raised := false, toHalf := x.toHalf || (half && !was), toFull := !half && was && !x.faultHalf })
      s.setMv site r mv
  | none => s

/-- A rehearsed phase loss ends after 10 ms (R450). -/
def State.phaseReturns (s : State) (site r : Nat) : State :=
  match ((s.die site).region r).phaseBack with
  | none => s
  | some (t, k) =>
    if s.now < t then s
    else
      let s := s.modRegion site r (fun x => { x with phaseBack := none })
      (s.setFld (unitDie site) (statOff r) (6 + k) 1 1).endInjection

/-- The region is to turn to half rate. -/
def State.wantHalf (s : State) (site r : Nat) : State := s.modRegion site r (fun x => { x with toHalf := true })

/-- The raise of 5 mV at a code of 8 or below, and the end of the margin at 0.90 V. -/
def State.raiseMv (s : State) (site r mv : Nat) : State :=
  let x := (s.die site).region r
  let src : EventSrc := ⟨site, r, false, 0⟩
  if mv < 900 then
    let new := min 900 (mv + 5)
    let due := s.now + 10 * Config.cycUs
    let s := (s.modRegion site r (fun x => { x with evalAt := due, endSince := none })).setMv site r new
    if s.planMv site r + 25 ≤ new ∧ !x.raised then
      (s.modRegion site r (fun x => { x with raised := true })).raise .info 0x92 src none (r + 2 ^ 8 * new)
    else s
  else
    let since := x.endSince.getD s.now
    let s := s.modRegion site r (fun x => { x with endSince := some since })
    if since + 10 * Config.cycUs ≤ s.now ∧ !s.regionHalf site r ∧ !x.toHalf then
      (s.wantHalf site r).raise .degraded 0x93 src none r
    else s

/-- MARGIN_CONTROL: the controller acts on a powered region, at margin code `code` and current `cur` in 0.1 A; it raises
and lowers nothing while the region is swept (R411). -/
def execMarginControl (site : Fin 204) (r : Fin 10) (code : BitVec 6) (cur : BitVec 8) (s : State) : Res :=
  let site := site.val
  let r := r.val
  let u := unitDie site
  if s.regionState site r ≠ 2 then .next s
  else
    let k := code.toNat
    let s := (s.setFld u (statOff r) 12 8 cur.toNat).setFld u (marginOff r) 0 6 k
    let least := s.fld u (marginOff r) 8 6
    let s := if !((s.die site).region r).codeSeen || decide (k < least) then s.setFld u (marginOff r) 8 6 k else s
    let s := s.modRegion site r (fun x => { x with codeSeen := true })
    let s := ((s.applyPlan site r).phaseReturns site r)
    let mv := s.regionMv site r
    let s := (s.telRegionMv site r mv).telCurrent site r cur.toNat
    let x := (s.die site).region r
    let half := s.regionHalf site r || x.toHalf
    if k ≤ 3 ∧ !half then
      let s := (s.wantHalf site r).setFld u (marginOff r) 25 1 1
      .next (s.raise .degraded 0x94 ⟨site, r, false, 0⟩ none (r + 2 ^ 8 * k))
    else if x.sweep.isSome ∨ s.now < x.evalAt then .next s
    else if k ≤ 8 then .next ((s.modRegion site r (fun x => { x with highSince := none })).raiseMv site r mv)
    else if 20 ≤ k then
      let since := x.highSince.getD s.now
      let s := s.modRegion site r (fun x => { x with highSince := some since, endSince := none })
      if since + Config.cycMs ≤ s.now ∧ s.planMv site r < mv then
        let now := s.now
        .next ((s.modRegion site r (fun x => { x with highSince := some now })).setMv site r (max (s.planMv site r) (mv - 5)))
      else .next s
    else .next (s.modRegion site r (fun x => { x with highSince := none, endSince := none }))

/-- HALF_RATE_SWITCH: at the next 64-cycle boundary. -/
def execHalfRateSwitch (site : Fin 204) (r : Fin 10) (s : State) : Res :=
  let site := site.val
  let r := r.val
  let t := s.advanceTo (ceilDiv s.now 64 * 64)
  let t := ((t.modRegion site r (fun x => { x with toHalf := false })).setHalf site r true).setMv site r (s.planMv site r)
  when ((s.die site).region r).toHalf s t

/-- FULL_RATE_RETURN: in slack, of a region whose new plan is at full rate. -/
def execFullRateReturn (site : Fin 204) (r : Fin 10) (s : State) : Res :=
  let site := site.val
  let r := r.val
  let x := (s.die site).region r
  let t := ((s.modRegion site r (fun x => { x with toFull := false })).setHalf site r false).setMv site r (s.planMv site r)
  when (x.toFull && !x.faultHalf && s.regionHalf site r && s.slack site) s (t.setFld (unitDie site) (marginOff r) 25 1 0)

/-! The margin plan (R411). -/

/-- A re-plan of every region is queued with the arbiter. -/
def State.queueReplan (s : State) : State := (s.setFld unitMgmt rCLK_PLAN_CTRL 0 1 1).pliwickEntry 5 0xFFFF

/-- REPLAN: a write of `CLK_PLAN_CTRL.REPLAN`. -/
def execReplan (s : State) : Res := .next s.queueReplan

/-- REPLAN_INTERVAL: INTERVAL_H operating hours have passed since the last plan, with AUTO = 1. -/
def execReplanInterval (s : State) : Res :=
  let due := (s.boot.planHours + s.fld unitMgmt rCLK_PLAN_CTRL 16 16) * hourCycles
  when (bit (s.reg unitMgmt rCLK_PLAN_CTRL) 1 && !bit (s.reg unitMgmt rCLK_PLAN_CTRL) 0) s
    (s.advanceTo (due - s.boot.cyclesBase)).queueReplan

/-- The regions of a resource that are on are to be planned. -/
def State.startPlan (s : State) (e : MaintEntry) : State :=
  let sites := if e.site = 0xFF then List.range 204 else [e.site]
  let rs := sites.flatMap (fun v => ((List.range 10).filter (fun r => s.regionState v r == 2)).map (fun r => (v, r)))
  let s := rs.foldl (fun (s : State) x => s.modRegion x.1 x.2 (fun x => { x with replan := true })) s
  (s.setFld unitMgmt rCLK_PLAN_STAT 0 1 1).setFld unitMgmt rCLK_PLAN_STAT 8 11 (s.fld unitMgmt rCLK_PLAN_STAT 8 11 + rs.length)

def roundUp5 (x : Int) : Int := (x + 4) / 5 * 5

/-- G of `plan_region`, in mV: the index now less the index at the last plan, or 500 ppm without one. -/
def State.guardBand (s : State) (site r : Nat) : Int :=
  let now : Int := (s.fld (unitDie site) (rCLK_AGEING + 4 * r) 0 20 : Nat)
  let dA : Int := if s.boot.plan.any (fun e => e.1 == 10 * site + r) then now - ((s.planOf site r).2 : Nat) else 500
  20 + 2 * ((dA + 99) / 100)

/-- A region is planned: the plan goes to flash, and applies from the next slack. -/
def State.planRegion (s : State) (site r : Nat) (mv : Nat) (half : Bool) : State :=
  let word := mv % 1024 + 2 ^ 10 * b2n half + 2 ^ 12 * (s.hours % 2 ^ 20)
  let idx := s.fld (unitDie site) (rCLK_AGEING + 4 * r) 0 20
  let start := (((s.die site).region r).sweep.map Sweep.start).getD mv
  let s : State := { s with boot := { s.boot with plan := SMap.set (750, 0) s.boot.plan (10 * site + r) (word, idx) } }
  let s := s.modRegion site r (fun x => { x with sweep := none, replan := false, newPlan := some (mv, half) })
  let s := s.setMv site r start
  s.setFld unitMgmt rCLK_PLAN_STAT 8 11 (s.fld unitMgmt rCLK_PLAN_STAT 8 11 - 1)

/-- Regions with a new plan, and those of them planned at half rate. -/
def State.planned (s : State) : Nat × Nat :=
  let l := (List.range 204).flatMap (fun v => (List.range 10).filterMap (fun r => ((s.die v).region r).newPlan))
  (l.length, (l.filter (·.2)).length)

/-- Every region has been planned: PLAN_DONE. -/
def State.planDone (s : State) : State :=
  if s.fld unitMgmt rCLK_PLAN_STAT 8 11 ≠ 0 then s
  else
    let n := s.planned
    let s : State := { s with boot := { s.boot with planHours := s.hours } }
    ((s.setFld unitMgmt rCLK_PLAN_STAT 0 1 0).setFld unitMgmt rCLK_PLAN_CTRL 0 1 0).raise .info 0x95 .none none (n.1 + 2 ^ 16 * n.2)

/-- A sweep that is stopped leaves the plans of its regions, which return to their voltage before it. -/
def State.dropPlan (s : State) (e : MaintEntry) : State :=
  let sites := if e.site = 0xFF then List.range 204 else [e.site]
  let rs := sites.flatMap (fun v => ((List.range 10).filter (fun r => ((s.die v).region r).replan)).map (fun r => (v, r)))
  let s := rs.foldl (fun (s : State) x =>
    let s := match ((s.die x.1).region x.2).sweep with
      | none => s
      | some w => s.setMv x.1 x.2 w.start
    s.modRegion x.1 x.2 (fun x => { x with sweep := none, replan := false })) s
  let left := s.fld unitMgmt rCLK_PLAN_STAT 8 11 - rs.length
  let s := s.setFld unitMgmt rCLK_PLAN_STAT 8 11 left
  if left = 0 then (s.setFld unitMgmt rCLK_PLAN_STAT 0 1 0).setFld unitMgmt rCLK_PLAN_CTRL 0 1 0 else s

/-- A sweep ends with voltage `v`, or none: the plan of the region, or its sweep at half rate. -/
def State.sweepEnds (s : State) (site r : Nat) (x : Sweep) (v : Option Nat) : State :=
  let g := s.guardBand site r
  if x.half then
    let mv := (max 550 (roundUp5 ((v.getD 900 : Nat) + g))).toNat
    (s.planRegion site r mv true).raise .degraded 0x93 ⟨site, r, false, 0⟩ none r
  else
    let full := match v with
      | none => none
      | some vf => if roundUp5 ((vf : Int) + g) ≤ 900 then some (max 550 (roundUp5 ((vf : Int) + g))).toNat else none
    match full with
    | some mv => s.planRegion site r mv false
    | none => s.modRegion site r (fun y => { y with sweep := some { x with mv := s.regionMv site r, half := true } })

/-- MARGIN_SWEEP: one voltage step of the sweep of a region in slack; `code` is the lowest code over 10 µs. A die sweeps
one region at a time. -/
def execMarginSweep (site : Fin 204) (r : Fin 10) (code : BitVec 6) (s : State) : Res :=
  let site := site.val
  let r := r.val
  let x := (s.die site).region r
  let other := (List.range 10).any (fun k => k != r && ((s.die site).region k).sweep.isSome)
  match s.runningEntry 5 (fun e => e.site == site || e.site == 0xFF) with
  | none => .next s
  | some e =>
    if !x.replan || other || !s.slack site then .next s
    else
      let s := s.advanceTo (s.now + 10 * Config.cycUs)
      let sw := x.sweep.getD { mv := s.regionMv site r, half := false, start := s.regionMv site r }
      let s := s.modRegion site r (fun y => { y with sweep := some sw })
      let v := sw.mv
      let s := if code.toNat < 12 then s.sweepEnds site r sw (if v = 900 then none else some (v + 5))
        else if v ≤ 550 then s.sweepEnds site r sw (some v)
        else (s.modRegion site r (fun y => { y with sweep := some { sw with mv := v - 5 } })).setFld (unitDie site) (statOff r) 20 12 (v - 5)
      let left := (List.range 204).any (fun k => (e.site == k || e.site == 0xFF)
        && (List.range 10).any (fun q => ((s.die k).region q).replan))
      .next (if !left then s.planDone.stepOver e true true else if e.stopping then (s.dropPlan e).stepOver e false true
        else s.stepOver e false true)

/-! Ageing (R410). -/

/-- AGEING_INTERVAL: 24 operating hours after a die's last measurement was queued, its next is. -/
def execAgeingInterval (site : Fin 204) (s : State) : Res :=
  let due := (SMap.get 0 s.boot.ageHours site.val + 24) * hourCycles
  let s1 := s.advanceTo (due - s.boot.cyclesBase)
  let t := s1.pliwickEntry 6 (site.val + 0xFF00)
  when (decide (s.maint.entries.length < 16)) s
    { t with boot := { t.boot with ageHours := SMap.set 0 t.boot.ageHours site.val s1.hours } }

/-- AGEING: one region of a die is measured for 20 µs in slack; `index` is its ageing index in ppm. -/
def execAgeing (site : Fin 204) (index : BitVec 20) (s : State) : Res :=
  match s.runningEntry 6 (fun e => e.site == site.val) with
  | none => .next s
  | some e =>
    let t := (s.advanceTo (s.now + 20 * Config.cycUs)).setFld (unitDie site.val) (rCLK_AGEING + 4 * e.progress) 0 20 index.toNat
    when (s.slack site.val) s (t.stepOver e (decide (9 ≤ e.progress)) true)

end Sys2Proof.Machine
end

