-- ==== Sys2Proof/Machine/BootOps.lean ====
section
/-!
DEFINITION. What the steps of bring-up do (R419–R430).
-/
namespace Sys2Proof.Machine

/-- Bring-up ends with READY 5. -/
def State.bootFails (s : State) : State := s.setReadyCode 5

/-! Firmware (R419, R464–R467). -/

def State.bank (s : State) (c : Nat) (b : Bool) : FwBank := SMap.get FwBank.empty s.sec.banks (2 * c + b2n b)
def State.setBank (s : State) (c : Nat) (b : Bool) (x : FwBank) : State :=
  { s with sec := { s.sec with banks := SMap.set FwBank.empty s.sec.banks (2 * c + b2n b) x } }
def State.activeBank (s : State) (c : Nat) : Bool := SMap.get false s.sec.activeB c
def State.rollback (s : State) (c : Nat) : Nat := SMap.get 0 s.sec.rollback c

/-- FW_AUTH_FAIL: 1 format, 2 signature, 3 rollback (R466, R474). -/
def State.authFail (s : State) (c why : Nat) : State := s.raise .degraded 0xD0 .none none (c + 2 ^ 8 * why)

/-- Why a bank does not verify (R465): 2 the keys or a signature, 3 its security version; 0 when it passes. -/
def State.verifies (s : State) (c : Nat) (b : Bool) (bad : List Nat) : Nat :=
  let x := s.bank c b
  if !s.keysOk || !x.valid || bad.contains (2 * c + b2n b) then 2 else if x.svn < s.rollback c then 3 else 0

/-- The measurement of a component (R468): header and payload of the image that has been loaded. -/
def State.measure (s : State) (c : Nat) : State :=
  { s with sec := { s.sec with measured := SMap.set 0 s.sec.measured (c + 1) (s.bank c (s.activeBank c)).digest } }

/-- A component is loaded at a reset (R418, R419): a staged bank becomes active, the active bank is verified, and else the
other one is; whether a bank has verified. -/
def State.loadComponent (s : State) (c : Nat) (bad : List Nat) : State × Bool :=
  let staged := SMap.get false s.sec.staged c
  let a := s.activeBank c != staged
  let s : State := { s with sec := { s.sec with
    activeB := SMap.set false s.sec.activeB c a, staged := SMap.set false s.sec.staged c false } }
  let why := s.verifies c a bad
  if why = 0 then (s.measure c, true)
  else
    let s := s.authFail c why
    let other := s.verifies c (!a) bad
    if other = 0 then
      let s : State := { s with sec := { s.sec with activeB := SMap.set false s.sec.activeB c (!a) } }
      ((s.raise .degraded 0xA0 .none none c).measure c, true)
    else (s.authFail c other, false)

/-- ROLLBACK[c] advances to the SVN of the running image (R467). -/
def State.advanceRollback (s : State) (c : Nat) : State :=
  let x := s.bank c (s.activeBank c)
  if x.advance ∧ s.rollback c < x.svn then
    let v := min 64 x.svn
    let s : State := { s with sec := { s.sec with rollback := SMap.set 0 s.sec.rollback c v } }
    s.raise .info 0xD1 .none none (c + 2 ^ 8 * v)
  else s

/-! Failures (R423). -/

/-- A link is fenced at bring-up. -/
def State.bootFence (s : State) (site exit : Nat) : State :=
  let l := linkAt site exit
  if (beyond site exit).isNone || s.mesh.fenced.contains l then s
  else ((s.fenceLink l).appendLog 8 site exit 0).raise .degraded 0xA7 ⟨site, 0x3F, false, 0⟩ none 0

/-- The site holds a logical die, in the active set or by the most recent KIND 2 entry of a die. -/
def State.assigned (s : State) (v : Nat) : Bool :=
  (s.active.dieAt v).isSome || (List.range 192).any (fun d =>
    ((s.boot.log.filter (fun e => e.kind == 2 && e.detail == d)).getLast?).any (fun e => e.site == v))

/-- A failed site becomes a hole, and its seam links are fenced (R28). -/
def State.holeAt (s : State) (v : Nat) : State :=
  (exitsOf v).foldl (fun (s : State) e => s.fenceLink e.2.2)
    { s with boot := { s.boot with badSites := insertAsc v s.boot.badSites } }

/-- A site fails, found by step `n`. -/
def State.failSite (s : State) (v n : Nat) : State :=
  if s.boot.badSites.contains v then s
  else
    let code := if isSpareSite v && !s.assigned v then 0xA5 else 0xA4
    let s := s.holeAt v
    (s.appendLog 1 v 0 n).raise .degraded code ⟨v, 0x3F, false, 0⟩ none 0

/-- Cores of a site that have failed. -/
def State.failedAt (s : State) (v : Nat) : List Nat := s.boot.badCores.filter (fun p => p / 50 == v)

/-- A core fails at bring-up, for cause 2 or 3: it retires, or its site fails when it has no free spare core left. -/
def State.bootCore (s : State) (p cause n : Nat) : State :=
  if s.boot.badCores.contains p || s.boot.badSites.contains (p / 50) then s
  else if 2 ≤ (s.failedAt (p / 50)).length then s.failSite (p / 50) n
  else (s.retireCore p cause).raise .degraded 0xA6 (coreSrc p 0) none cause

/-- An edge die fails at bring-up. -/
def State.bootEdge (s : State) (e n : Nat) : State :=
  if s.boot.badEdges.contains e then s
  else
    let s : State := { s with boot := { s.boot with badEdges := insertAsc e s.boot.badEdges } }
    let s := s.appendLog 13 (204 + e) 0 n
    if e < 8 then
      let s : State := { s with coll := { s.coll with retired := insertAsc (204 + e) s.coll.retired } }
      (s.setPortState e 3).raise .jobAffecting 0xA8 (edgeSrc e 0x3F) none 0
    else (s.raise .moduleFatal 0xA8 (edgeSrc e 0x3F) none 0).bootFails

/-! The records (R422): what the alteration log tells of parts that stay out of service. -/

/-- The pattern: sites and cores that failed at manufacture, and tracks repaired at test. -/
def State.readPattern (s : State) : State :=
  let good := fun p => (SMap.get (BitVec.allOnes 50) s.rom.patternCores (p / 50)).getLsbD (p % 50)
  let s := s.rom.patternBad.foldl (fun (s : State) v => s.holeAt v) s
  { s with
    boot := { s.boot with
      badCores := ((List.range 10200).filter (fun p => !good p)).foldl (fun l p => insertAsc p l) s.boot.badCores }
    maint := { s.maint with tracks := s.rom.patternTracks } }

/-- Steps 1 to 3 reapply one entry of the log. -/
def State.reapply (s : State) (e : LogEntry) : State :=
  let u := unitDie e.site
  match e.kind with
  | 1 => s.holeAt e.site
  | 3 => { s with boot := { s.boot with badCores := insertAsc (50 * e.site + e.unit) s.boot.badCores } }
  | 5 =>
    let s := s.modRegion e.site e.unit (fun x => { x with faultHalf := e.detail % 4 == 1 })
    let s := s.setFld u (statOff e.unit) 6 5 (field e.detail 4 5)
    if e.detail % 4 = 2 then s.setFld u (statOff e.unit) 0 2 3 else s
  | 6 =>
    let s := s.setFld unitMgmt (groupOff e.detail) (2 + e.unit) 1 0
    if e.detail < 204 then s.setFld (unitDie e.detail) rPWR_DIE_STATUS (9 + e.unit) 1 0 else s
  | 7 =>
    let k := (e.site * 8 + e.unit) * 256 + field e.detail 8 8
    { s with maint := { s.maint with tracks := SMap.set 0 s.maint.tracks k (SMap.get 0 s.maint.tracks k + 1) } }
  | 8 => s.fenceLink (linkAt e.site e.unit)
  | 10 =>
    if e.unit < 16 then s.setFld (unitEdge (e.site - 204)) rVLNK_STATUS (16 + e.unit) 1 1 else s.setPortState (e.site - 204) 3
  | 11 => { s with coll := { s.coll with retired := insertAsc e.site s.coll.retired } }
  | 12 =>
    let s := s.setFld u rPWR_DIE_STATUS 5 2 e.detail
    if e.detail = 2 then s.setFld unitMgmt (groupOff e.site) 0 2 1 else s
  | _ => s

/-- Step 10 reapplies the retirements of R194. -/
def State.reapplyDram (s : State) (e : LogEntry) : State :=
  if e.kind = 9 then s.modPort e.site e.unit (fun x => x.retire (field e.detail 20 2) (field e.detail 15 5) (field e.detail 0 15))
  else s

/-! Power and links (steps 3 and 4). -/

/-- A region starts at its plan voltage, unless the log keeps it dark. -/
def State.bootRegion (s : State) (v r : Nat) : State :=
  let plan := (s.planOf v r).1
  let s := s.setReg (unitDie v) (planOff r) plan
  if s.regionState v r = 3 then s
  else
    let s := (s.setFld (unitDie v) (statOff r) 0 2 2).setFld (unitDie v) (statOff r) 20 12 (plan % 1024)
    if bit plan 10 || ((s.die v).region r).faultHalf then s.setHalf v r true else s

/-- A site whose group is not latched starts: its rails, its PLL, its contact baseline and its regions; the cores of a spare
site that holds no die stay dark (R13). -/
def State.bootSite (s : State) (v : Nat) : State :=
  if s.fld unitMgmt (groupOff v) 0 2 = 2 then s
  else
    let u := unitDie v
    let s := ((s.setFld u rPWR_DIE_STATUS 0 5 0x1F).setFld u rCLK_DIE_STATUS 0 1 1).setFld u rPWR_CONTACT 0 16 (SMap.get 0 s.boot.baselines v)
    if isSpareSite v && !s.assigned v then s
    else (List.range 10).foldl (fun (s : State) r => s.bootRegion v r) s

/-- All phases work until the log says otherwise. -/
def State.freshPhases (s : State) (v : Nat) : State :=
  let s := s.setFld (unitDie v) rPWR_DIE_STATUS 9 4 0xF
  (List.range 10).foldl (fun (s : State) r => s.setFld (unitDie v) (statOff r) 6 5 0x1F) s

/-- Training centres every link at 4 UI (R404). -/
def State.centreLinks (s : State) : State :=
  (List.range 204).foldl (fun (s : State) v => (List.range 4).foldl (fun (s : State) e =>
    if (beyond v e).isNone then s
    else (s.setFld (unitDie v) (seamOff e) 8 9 256).setFld (unitDie v) (seamOff e) 17 9 256) s) s

/-- Cold training of the hem ring and the spars' own bundles: segments that do not train fail, and tracks found failed are
repaired, or fail the segment that uses them (R16, R20, R420); no rule names the link that a third failed track of a
reference line or a halyard repeater fails. -/
def State.trainHem (s : State) (f : BootFinding) : State :=
  let down := fun (s : State) (k : Nat) => { s with vorrad := { s.vorrad with hemDown := insertAsc k s.vorrad.hemDown } }
  let s := f.badHem.foldl (fun s k => down s k.val) s
  let s := f.yardTracks.foldl (fun (s : State) t =>
    match (hemSegments[t.1.val]?).bind HemSegment.spar with
    | none => s
    | some spar =>
      let (s, fits) := s.repairTracks spar [(t.2.1.val, t.2.2.1.val, t.2.2.2.val)]
      if fits then s else down s t.1.val) s
  f.sparTracks.foldl (fun (s : State) t => (s.repairTracks t.1.val [(t.2.1.val, t.2.2.1.val, t.2.2.2.val)]).1) s

/-- The links of a step that fail to train are fenced; tracks found failed are repaired, or fence their link. -/
def State.trainLinks (s : State) (f : BootFinding) : State :=
  let s : State := { s with mesh := { s.mesh with trained := true, training := [] } }
  let s := f.tracks.foldl (fun (s : State) t =>
    let (s, fits) := s.repairTracks (sparOf t.1.val) [(t.2.2.1.val, t.2.2.2.1.val, t.2.2.2.2.val)]
    if fits then s else s.bootFence t.1.val t.2.1.val) s
  (f.badLinks.foldl (fun (s : State) l => s.bootFence l.1.val l.2.val) s).centreLinks

/-! Topology and placement (R423, R424). -/

/-- The record of a site against the pattern; one with more failed cores than spare cores fails. -/
def State.compareSite (s : State) (v n : Nat) : State :=
  if s.boot.badSites.contains v then s
  else
    match SMap.get none s.boot.records v with
    | none => s.failSite v n
    | some r =>
      if r.dieId ≠ SMap.get v s.rom.patternId v then
        (s.raise .moduleFatal 0xA3 ⟨v, 0x3F, false, 0⟩ none 0).bootFails
      else
        let bad := ((bitsOf 50 r.badCores.toNat).map (50 * v + ·)).filter (fun p => !s.boot.badCores.contains p)
        if 2 < (s.failedAt v).length + bad.length then s.failSite v n
        else bad.foldl (fun (s : State) p => s.bootCore p 3 n) s

/-- The links of a site that has reported: those that cannot be trained are fenced. -/
def State.compareLinks (s : State) (v : Nat) : State :=
  match SMap.get none s.boot.records v with
  | none => s
  | some r =>
    if s.boot.badSites.contains v || r.dieId != SMap.get v s.rom.patternId v then s
    else (bitsOf 4 r.badExits.toNat).foldl (fun (s : State) x => s.bootFence v x) s

/-- Step 6 or F4: every link, site and edge die is compared; the links first, so that each neighbour of a site that has
failed tells of its link. -/
def State.compareAll (s : State) (n : Nat) : State :=
  let s := (List.range 204).foldl (fun (s : State) v => s.compareLinks v) s
  let s := (List.range 204).foldl (fun (s : State) v => s.compareSite v n) s
  (List.range 9).foldl (fun (s : State) e => match SMap.get none s.boot.records (204 + e) with
    | none => s.bootEdge e n
    | some r => if r.dieId = SMap.get (204 + e) s.rom.patternId (204 + e) then s
        else (s.raise .moduleFatal 0xA3 (edgeSrc e 0x3F) none 0).bootFails) s

/-- The physical cores that the log gives the logical cores of a site. -/
def State.loggedCores (s : State) (v : Nat) : List Nat :=
  s.boot.log.foldl (fun l e => if e.kind = 4 ∧ e.site = v then l.set e.detail e.unit else l) ((List.range 48).map defaultPhys)

/-- The site that a die takes before R27: its default site, or the spare site of its most recent KIND 2 entry. -/
def State.loggedSite (s : State) (d : Nat) : Option Nat :=
  let v := defaultSite d
  if !s.boot.badSites.contains v then some v
  else
    match (s.boot.log.filter (fun e => e.kind == 2 && e.detail == d)).getLast? with
    | some e => if s.boot.badSites.contains e.site then none else some e.site
    | none => none

/-- The entry of an unmapped die. -/
def unplacedEntry : List Byte := placeEntry 0xFF (List.replicate 48 0xFF)

/-- A set whose 192 dies are all unmapped. -/
def unplacedSet : ConfigSet :=
  (List.range 192).foldl (fun (c : ConfigSet) d => c.setItem 1 d unplacedEntry) { ConfigSet.empty with counts := [(1, 192)] }

/-- The placement of a cold or module reset before R27 has placed the rest: dies without a site are unmapped. -/
def State.loggedSet (s : State) : ConfigSet :=
  (List.range 192).foldl (fun (c : ConfigSet) d =>
    match s.loggedSite d with
    | some v => if (c.dieAt v).isSome then c else c.setItem 1 d (placeEntry v (s.loggedCores v))
    | none => c) unplacedSet

/-- R27 and R25 complete a placement; what they place is logged (KIND 2 and 4). -/
def State.completePlacement (s : State) (c : ConfigSet) (lost : List Nat) : State × ConfigSet :=
  let placed := s.placeDies 192 c lost
  let s := (diesMoved c placed).foldl (fun (s : State) e => s.appendLog 2 e.2 0 e.1) s
  let moved := (List.range 192).foldl (fun (c : ConfigSet) d => s.moveCores c d) placed
  let s := (coresMoved placed moved).foldl (fun (s : State) e =>
    s.appendLog 4 ((moved.site e.1).getD 0) e.2.2 e.2.1) s
  (s, moved)

/-- The regions of spare sites that have taken a die are turned on by bring-up (R13, R383). -/
def State.lightSpares (s : State) : State :=
  ((List.range 192).filterMap s.active.site).foldl (fun (s : State) v =>
    if isSpareSite v then (List.range 10).foldl (fun (s : State) r => if s.regionState v r = 0 then s.bootRegion v r else s) s
    else s) s

/-- Step 1: the ROM derives the device's keys from DEVICE_SECRET and puts them into its key store (R469). -/
def State.deriveKeys (s : State) : State :=
  let secret := leBytes 32 s.rom.deviceSecret
  { s with sec := { s.sec with keyStore := some ⟨hkdf384 secret "KCP-192 identity", hkdf384 secret "KCP-192 lms"⟩ } }

/-- The halyard tree has been built: one deeper than 21 raises HALYARD_DEPTH (R227). -/
def State.noteTree (s : State) : State :=
  if 21 < s.active.halDepth then s.raise .degraded 0x30 .none none s.active.halDepth else s

/-- Step 7: the boot set (R424, R429). -/
def State.placeBoot (s : State) : State :=
  let c := s.loggedSet
  let (s, c) := s.completePlacement c ((List.range 192).filter (fun d => (c.site d).isNone))
  let c := s.generate c
  let c := { c with digest := sha384 c.image }
  ({ s with active := c, shadow := c, cfg := { ConfigCtl.reset with activeGen := 1, shadowGen := 1, placeGen := 1 } } : State).calibrate.lightSpares.noteTree

/-- F5: each die keeps its site unless that has failed; a placement that changes follows into the shadow set, which is
sealed again (R424, R429). -/
def State.placeFabric (s : State) : State :=
  let lost := fun (c : ConfigSet) => (List.range 192).filter (fun d => (c.site d).any (fun v => s.boot.badSites.contains v))
  let old := s.active
  let (s, new) := s.completePlacement old (lost old)
  let new := (lost new).foldl (fun (c : ConfigSet) d => c.setItem 1 d unplacedEntry) new
  let changed := decide (new.sections ≠ old.sections)
  let s : State := { s with
    active := { s.generate (old.followRegs new) with digest := old.digest }
    cfg := { s.cfg with placeGen := genAfter s.cfg.placeGen } }
  let s := s.calibrate.lightSpares.noteTree
  if changed then
    let sh := s.generate (s.remapSet s.shadow)
    let s := if s.cfg.isSealed then s.sealed sh (sha384 sh.image) s.cfg.amended else { s with shadow := sh }
    s.raise .degraded 0x41 .none none 0
  else { s with shadow := { s.generate s.shadow with digest := s.shadow.digest } }

/-! Readiness (R430). -/

def ConfigSet.mappedDies (c : ConfigSet) : Nat := ((List.range 192).filter (fun d => (c.site d).isSome)).length

/-- READY of R430. -/
def State.readiness (s : State) : Nat :=
  let n := s.active.mappedDies
  let links := (List.range 8).all (fun e => s.boot.badEdges.contains e) && s.multiPanel
  if n < 128 ∨ !s.active.treesOk ∨ links then 4
  else if n < 192 then 3
  else if s.boot.log.any (fun e => 1 ≤ e.kind && e.kind ≤ 13) then 2
  else 1

/-- Bring-up ends: READY, its consequences, the anti-rollback counters of the components `loaded`, and BOOT_READY; the
event of a shutdown follows readiness. -/
def State.report (s : State) (loaded : List Nat) : State :=
  let r := s.readiness
  let ms := (s.now - s.boot.startedAt) / Config.cycMs
  let s := (s.setReadyCode r).setReg unitMgmt rCFG_BOOT_STAT (2 ^ 16 * (ms % 2 ^ 32))
  let s := if r = 1 ∨ r = 2 then loaded.foldl (fun (s : State) c => s.advanceRollback c) s.becomeReady else s
  let s : State := { s with
    mesh := { s.mesh with closed := false }
    gen := { s.gen with nodeSeq := s.gen.commitSeq }
    boot := { s.boot with wasReady := s.boot.wasReady || decide (r ≤ 3) } }
  let s := s.raise .info 0xA9 .none none (r + 2 ^ 32 * (ms % 2 ^ 32))
  match s.supply.report with
  | none => s
  | some x =>
    ({ s with supply := { s.supply with report := none } }).raise .moduleFatal 0x8C .none none (x.cause + 2 ^ 16 * x.extreme)

/-! The broadcast (R425). -/

/-- The broadcast of the core firmware begins. -/
def State.startBroadcast (s : State) : State :=
  let n := ceilDiv (s.bank 2 (s.activeBank 2)).bytes 4096
  let s : State := { s with boot := { s.boot with
    chunks := n, fails := [], rounds := 0, resent := 0, fwRetired := 0, collected := false } }
  s.setReg unitMgmt rCFG_FW_STAT (n % 65536)

/-- `CFG_FW_STAT` after a collection. -/
def State.showBroadcast (s : State) : State :=
  s.setReg unitMgmt rCFG_FW_STAT (s.boot.chunks % 65536 + 2 ^ 16 * min 2 s.boot.rounds
    + 2 ^ 24 * min (2 ^ 24 - 1) s.boot.resent + 2 ^ 48 * min 65535 s.boot.fwRetired)

/-- One target that has not its firmware: its third failure retires it, else its missing chunks are sent again, all of
them when its digest does not match. -/
def State.resendTo (s : State) (p missing : Nat) (digestOk : Bool) (n : Nat) : State :=
  let k := SMap.get 0 s.boot.fails p + 1
  let s : State := { s with boot := { s.boot with fails := SMap.set 0 s.boot.fails p k } }
  if k = 3 then
    ({ s with boot := { s.boot with fwRetired := s.boot.fwRetired + 1 } } : State).bootCore p 2 n
  else { s with boot := { s.boot with resent := s.boot.resent + (if digestOk then missing else s.boot.chunks) } }

/-! The fabric reset (R427, R428). -/

/-- F1: the uncommitted ticks end, STATE becomes STOPPED, injection closes, READY becomes 0, and the negotiated features
are gone. -/
def State.startFabric (s : State) (cause : Nat) : State :=
  let ticks := s.gen.ticks
  let s := (s.bump unitMgmt rCFG_BOOT_COUNT 16 16 1).setFld unitMgmt rCFG_RESET_CTRL 0 1 0
  let s := s.dropMarks (s.gen.commitSeq.toNat + 1)
  let g := { TickGen.reset with
    commitSeq := s.gen.commitSeq, entry := s.gen.entry, rep := s.gen.rep, nodeSeq := s.gen.nodeSeq, commits := s.gen.commits
    last := s.gen.last, prev := s.gen.prev, tickOut := s.gen.tickOut
    attempts := ticks.foldl (fun (m : SMap Nat) t => SMap.set 0 m t.tick (t.att + 1)) s.gen.attempts }
  let s : State := { s with
    gen := g
    mesh := { s.mesh with closed := true }
    host := { s.host with locked := none }
    events := { s.events with seq := 0, held := [] }
    boot := { s.boot with
      step := 1, level := 2, cause := cause, startedAt := s.now, stepAt := s.now, records := [], fabricAt := s.now
      fabricCommits := s.gen.commits } }
  let s := (s.setReg unitBar rHOST_FEAT_CTRL 0).setReadyCode 0
  let s := (List.range 4).foldl (fun (s : State) w => s.setReg unitBar (rHOST_DRIVER_FEATURES + 8 * w) 0) s
  s.newNonce.tickWaiters

/-- F2 keeps of a core its task registers, until it is reinitialised, and its window generations (R58, R99). -/
def Core.fabricReset (c : Core) (now : Nat) : Core :=
  { Core.reset with
    slots := SMap.mapAll Slot.reset (fun _ sl => { sl with wait := .none, mem := none, load := none, due := [] }) c.slots
    resetting := true, issueAt := now, spad := { Spad.reset with wins := SMap.mapAll Window.reset (fun _ w => w.closed) c.spad.wins } }

/-- DRAM_PORT_STATUS, DRAM_BANKS_RETIRED and DRAM_RETIRED_ROW: what they show is rebuilt from the alteration log (R194,
R196). -/
def showsRetirement (off : Nat) : Bool :=
  decide (0x21000 ≤ off) && decide (off < 0x22000) && (decide (off % 0x200 < 8) || decide (0x100 ≤ off % 0x200))

/-- A port at a fabric reset: its reads and its round are gone, and its retirements stay. -/
def DramPort.fabricReset (x : DramPort) : DramPort :=
  { DramPort.reset with
    training := x.training, retired := x.retired, banks := x.banks, rows := x.rows, patrolLine := x.patrolLine
    refreshed := x.refreshed, used := x.used }

/-- The ports that are not retired begin or end their training (R193, R420). -/
def State.portsTrain (s : State) (on : Bool) : State :=
  (List.range 204).foldl (fun (s : State) v => (List.range 8).foldl (fun (s : State) p =>
    if ((s.dram v).port p).retired then s
    else (s.modPort v p (fun x => { x with training := on, trainBy := none })).setFld (unitDie v)
      (rDRAM_PORT_STATUS + 0x200 * p) 0 2 (b2n on)) s) s

/-- F2: the units of the compute dies, the engines and the transfer contexts are reset. -/
def State.resetUnits (s : State) : State :=
  let s := s.resetRegs (fun _ => true) 1 (fun u off =>
    (decide (u < 0x4000) && off == rCORE_CLOCK) || (decide (0x4000 ≤ u) && showsRetirement off))
  let s := (List.range 204).foldl (fun (s : State) v => (List.range 10).foldl (fun (s : State) r =>
    let s := (s.setReg (unitDie v) (planOff r) (s.planOf v r).1).setFld (unitDie v) rCLK_DIE_STATUS 0 1 (b2n !(s.die v).stopped)
    let s := s.setFld (unitDie v) (rCLK_MARGIN + 4 * r) 16 8 ((s.regionMv v r - (s.planOf v r).1 % 1024) / 5)
    let s := s.modRegion v r (fun x => { x with codeSeen := false })
    if s.regionHalf v r then s.setHalf v r true else s) s) s
  let s : State := { s with
    cores := SMap.mapAll Core.reset (fun _ c => c.fabricReset s.now) s.cores
    drams := SMap.mapAll Dram.reset (fun _ d => { d with ports := SMap.mapAll DramPort.reset (fun _ x => x.fabricReset) d.ports }) s.drams
    mesh := { Mesh.reset with fenced := s.mesh.fenced, closed := true, nextAccess := s.mesh.nextAccess, nextPacket := s.mesh.nextPacket }
    hubs := [], coll := { Coll.reset with retired := s.coll.retired }
    maint := { s.maint with resuming := [], reloads := [] } }
  s.ctxsReset

/-- Every core is reinitialised with its firmware (R58, R417). -/
def State.reinitAll (s : State) : State :=
  { s with cores := SMap.mapAll Core.reset (fun _ c => { c with slots := [], resetting := false }) s.cores }

end Sys2Proof.Machine
end

