-- ==== Sys2Proof/Machine/Boot.lean ====
section
/-!
DEFINITION. The commands of resets and bring-up (spec/19).
-/
namespace Sys2Proof.Machine

/-! Resets (R416, R417). -/

/-- COLD_RESET: power is applied after it has been absent. -/
def execColdReset (s : State) : Res := .next (s.powerOn 0 0)

/-- MODULE_RESET by the pin or by Pliwick; a panel that is shut down is in module reset already (R396). -/
def execModuleReset (pin : Bool) (s : State) : Res :=
  when s.supply.down.isNone s (s.moduleReset (if pin then 1 else 2))

/-- A fabric reset is taken once the panel has been ready since its last cold or module reset, and not while one runs. -/
def State.fabricAllowed (s : State) : Bool := s.boot.wasReady && s.ready != 0 && s.supply.down.isNone

/-- FABRIC_RESET, by a write of CFG_RESET_CTRL, which clears REFUSED, or by Pliwick. -/
def execFabricReset (byWrite : Bool) (s : State) : Res :=
  let s := if byWrite then s.setFld unitMgmt rCFG_RESET_CTRL 3 1 0 else s
  when s.fabricAllowed s (s.startFabric (if byWrite then 5 else 2))

/-- CXL_RESET: a fabric reset, after which the host interface is reset like at a function level reset (R351). -/
def execCxlReset (s : State) : Res := when s.fabricAllowed s (s.startFabric 4)

/-- A core or patch reset of physical cores, refused while ticking is neither STOPPED nor HALTED. -/
def State.requestReset (s : State) (ps : List Nat) : State :=
  if !s.still then s.setFld unitMgmt rCFG_RESET_CTRL 3 1 1
  else ps.foldl (fun (s : State) p => (s.coreReset p).reinit p) (s.setFld unitMgmt rCFG_RESET_CTRL 3 1 0)

/-- The physical cores that hold a launch entry of a patch in the active set. -/
def State.patchCores (s : State) (g : Nat) : List Nat :=
  ((s.active.items 4).filter (fun e => launchPatch e == g)).foldl (fun l e => match s.active.coreOf (launchCore e) with
    | some p => insertAsc p l
    | none => l) []

/-- PATCH_RESET. -/
def execPatchReset (g : BitVec 8) (s : State) : Res :=
  .next ((s.setFld unitMgmt rCFG_RESET_CTRL 8 8 g.toNat).requestReset (s.patchCores g.toNat))

/-- CORE_RESET of a global logical core. -/
def execCoreReset (core : Fin 9216) (s : State) : Res :=
  .next ((s.setFld unitMgmt rCFG_RESET_CTRL 16 14 core.val).requestReset (s.active.coreOf core.val).toList)

/-! Bring-up (R420, R427). -/

/-- The step in which the DRAM ports train. -/
def State.dramStep (s : State) : Nat := if s.boot.level = 2 then 7 else 10

/-- The step in progress is over; where the DRAM ports train in the next one, that begins (R193). Steps 8 and 9 have one
worst case. -/
def State.nextStep (s : State) : State :=
  let start := if s.boot.level ≠ 2 ∧ s.boot.step = 8 then s.boot.stepAt else s.now
  let t : State := { s with boot := { s.boot with step := s.boot.step + 1, stepAt := start } }
  if t.boot.step = t.dramStep then t.portsTrain true else t

/-- Parts found bad by BIST retire or fail; when any does, the topology is compared and placed again by `redo`. -/
def State.bist (s : State) (f : BootFinding) (n : Nat) (redo : State → State) : State :=
  let t := f.badCores.foldl (fun (s : State) p => s.bootCore p.val 3 n) s
  let t := f.badSites.foldl (fun (s : State) v => s.failSite v.val n) t
  let t := f.badEdges.foldl (fun (s : State) e => s.bootEdge e.val n) t
  if t.boot.badCores = s.boot.badCores ∧ t.boot.badSites = s.boot.badSites ∧ t.boot.badEdges = s.boot.badEdges then t else redo t

/-- DRAM ports that do not train retire (R193). -/
def State.trainDram (s : State) (f : BootFinding) : State :=
  f.badPorts.foldl (fun (s : State) x => s.retireDram x.1.val x.2.val 2 0 0) (s.portsTrain false)

/-- Step 2: firmware and records. -/
def State.bootVerify (s : State) (f : BootFinding) : State :=
  let bad := f.badBanks.map (·.val)
  let (s, ok) := ([0, 1, 2] : List Nat).foldl (fun (x : State × Bool) c =>
    let y := x.1.loadComponent c bad
    (y.1, x.2 && y.2)) (s, true)
  let (s, link) := s.loadComponent 3 bad
  let s := if link then s else (List.range 8).foldl (fun (s : State) e => s.bootEdge e 2) s
  if !ok then s.bootFails
  else
    match f.badRecord with
    | some log => (s.raise .moduleFatal 0xA1 .none none (b2n log)).bootFails
    | none =>
      let s := (List.range 204).foldl (fun (s : State) v => s.freshPhases v) s
      s.boot.log.foldl (fun (s : State) e => s.reapply e) s.readPattern

/-- Vorrad lanes that do not train retire (R422 KIND 10). -/
def State.trainLanes (s : State) (f : BootFinding) : State :=
  f.badLanes.foldl (fun (s : State) l =>
    if bit (s.reg (unitEdge l.1.val) rVLNK_STATUS) (16 + l.2.val) then s
    else ((s.setFld (unitEdge l.1.val) rVLNK_STATUS (16 + l.2.val) 1 1).appendLog 10 (204 + l.1.val) l.2.val 0).raise .degraded 0xB4
      (edgeSrc l.1.val 0x3F) none l.2.val) s

/-- A step of a cold or module bring-up is done. -/
def State.bootStep (s : State) (f : BootFinding) : State :=
  match s.boot.step with
  | 1 => s.deriveKeys
  | 2 => s.bootVerify f
  | 3 => (List.range 204).foldl (fun (s : State) v => s.bootSite v) s
  | 4 => ((s.trainLinks f).trainHem f).trainLanes f
  | 5 => if (List.range 213).all (fun v => (SMap.get none s.boot.records v).isSome) then s else s.advanceTo (s.boot.stepAt + Config.cycSec)
  | 6 => s.compareAll 6
  | 7 => s.placeBoot.startBroadcast
  | 9 => f.badEdges.foldl (fun (s : State) e => s.bootEdge e.val 9) s
  | 10 => (s.boot.log.foldl (fun (s : State) e => s.reapplyDram e) s).trainDram f
  | 11 => s.bist f 11 (fun (s : State) => (s.compareAll 11).placeBoot)
  | 12 => s.report [0, 1, 2, 3]
  | _ => s

/-- F6 begins: the core firmware of the active bank is broadcast. -/
def State.fabricFirmware (s : State) (f : BootFinding) : State :=
  let x := s.loadComponent 2 (f.badBanks.map (·.val))
  if x.2 then x.1.startBroadcast else x.1.bootFails

/-- A step of a fabric reset is done; after a CXL Reset the host interface is reset. -/
def State.fabricStep (s : State) (f : BootFinding) : State :=
  match s.boot.step with
  | 2 => s.resetUnits
  | 3 => s.trainLinks f
  | 4 => s.compareAll 4
  | 5 => s.placeFabric.fabricFirmware f
  | 6 => s.reinitAll
  | 7 => s.trainDram f
  | 8 => s.bist f 8 (fun (s : State) => (s.compareAll 8).placeFabric)
  | 9 => if s.boot.cause = 4 then (s.report [2]).functionReset else s.report [2]
  | _ => s

/-- The step in progress waits for the broadcast. -/
def State.broadcasting (s : State) : Bool := s.boot.step == (if s.boot.level == 2 then 6 else 8) && !s.boot.collected

/-- BRING_UP: bring-up begins, or its step in progress is done with what it has found; reef mode holds the turn-ons of step 3. -/
def execBringUp (f : BootFinding) (s : State) : Res :=
  if s.ready ≠ 0 || s.supply.down.isSome || s.broadcasting || (s.turningOn && s.reef) then .next s
  else if s.boot.step = 0 then
    .next { s with boot := { s.boot with step := 1, startedAt := s.now, stepAt := s.now } }
  else
    let t := if s.boot.level = 2 then s.fabricStep f else s.bootStep f
    .next (if t.ready = 0 then t.nextStep else t)

/-- The worst case of a step of R420, in ms. -/
def stepMs (n : Nat) : Nat := ([0, 500, 4000, 3000, 6000, 1000, 500, 1000, 3000, 3000, 4000, 80000, 2000] : List Nat).getD n 0

/-- BOOT_STEP_TIMEOUT: the step in progress takes longer than its worst case; the time of step 3 stops in reef mode (R433). -/
def execBootStepTimeout (s : State) : Res :=
  when (s.boot.step != 0 && s.boot.level != 2 && s.ready == 0 && !(s.turningOn && s.reef)) s
    (((s.advanceTo (s.boot.stepAt + stepMs s.boot.step * Config.cycMs)).raise .moduleFatal 0xA2 .none none s.boot.step).bootFails)

/-- The converter group of a site or edge die runs, and its die has not stopped: it can send its record. -/
def State.runs (s : State) (v : Nat) : Bool :=
  s.fld unitMgmt (groupOff (if v < 204 then v else v + 6)) 0 2 != 2 && !(decide (v < 204) && (s.die v).stopped)

/-- IDENTITY_RECORD of a site, or of edge die `v - 204` (R421). -/
def execIdentityRecord (v : Fin 213) (dieId : BitVec 64) (badCores : BitVec 50) (badExits : BitVec 4) (s : State) : Res :=
  let r : IdRecord := { dieId := dieId.toNat, badCores := badCores, badExits := badExits }
  when (s.boot.step == (if s.boot.level == 2 then 4 else 5) && s.ready == 0 && s.runs v.val) s
    { s with boot := { s.boot with records := SMap.set none s.boot.records v.val (some r) } }

/-! The broadcast (R425). -/

/-- A target of the broadcast: a working core of a working site. -/
def State.isTarget (s : State) (p : Nat) : Bool := !s.boot.badCores.contains p && !s.boot.badSites.contains (p / 50)

/-- BROADCAST_COLLECTION: `found` are the targets that lack chunks, with their number, or whose digest does not match. -/
def execBroadcastCollection (found : List (CoreIx × Fin 16385 × Bool)) (s : State) : Res :=
  if !s.broadcasting || s.ready ≠ 0 then .next s
  else
    let n := s.boot.step
    let ps := (found.filter (fun x => decide (x.2.1.val ≠ 0) || !x.2.2)).foldl (fun l x => insertAsc x.1.val l) []
    let due := ps.filter s.isTarget
    if due.isEmpty then .next { s with boot := { s.boot with collected := true } }
    else
      let s : State := { s with boot := { s.boot with rounds := s.boot.rounds + 1 } }
      .next (due.foldl (fun (s : State) p =>
        match found.find? (fun x => x.1.val == p) with
        | some x => if s.isTarget p then s.resendTo p x.2.1.val x.2.2 n else s
        | none => s) s).showBroadcast

end Sys2Proof.Machine
end

