-- ==== Sys2Proof/Machine/Arbiter.lean ====
section
/-!
DEFINITION. What the maintenance arbiter decides: the resources that fit an activity, rehearsals, and the admission and
end of entries (R446–R451).
-/
namespace Sys2Proof.Machine

/-! Resources (R446). -/

/-- The site is in service. -/
def State.siteGood (s : State) (v : Nat) : Bool := decide (v < 204) && !s.boot.badSites.contains v

/-- The physical core is a spare: good, and no logical core runs on it. -/
def State.isSpare (s : State) (p : Nat) : Bool := !s.boot.badCores.contains p && !s.mapped p

/-- The resource fits the code and is in service. -/
def State.resourceOk (s : State) (e : MaintEntry) : Bool :=
  let v := e.site
  let u := e.unit
  let whole := u == 0xFF
  match e.code with
  | 1 => s.siteGood v && (whole || decide (u < 4)) && !e.seams.isEmpty
      && e.seams.all (fun x => (beyond v x).isSome && (whole || !s.mesh.fenced.contains (linkAt v x)))
  | 2 => decide (204 ≤ v) && decide (v < 212) && whole && s.portState (v - 204) != 3 && !s.boot.badEdges.contains (v - 204)
  | 3 => s.siteGood v && (whole || (decide (u < 8) && !((s.dram v).port u).retired))
  | 4 => whole && (s.siteGood v || v == 0xFF)
  | 5 => whole && (s.siteGood v || v == 0xFF)
  | 6 => whole && s.siteGood v
  | 7 => s.siteGood v && (whole || (decide (u < 10) && s.regionState v u != 3))
  | 8 => whole && s.siteGood v
  | 9 => s.siteGood v && (if whole then isSpareSite v && (s.active.dieAt v).isNone
      else decide (u < 50) && (s.active.dieAt v).isSome && s.isSpare (50 * v + u))
  | _ => false

/-- The target of a rehearsal exists, is mapped and in service (R451). -/
def State.rehearsalOk (s : State) (kind target : Nat) : Bool :=
  let v := field target 0 8
  let u := field target 8 8
  let site := decide (v < 204) && (s.active.dieAt v).isSome && !s.boot.badSites.contains v
  match kind with
  | 1 => match s.physOf target with
      | some p => !s.boot.badCores.contains p && !s.coreDown p
      | none => false
  | 2 => site && decide (u < 4) && (beyond v u).isSome && !s.mesh.fenced.contains (linkAt v u)
  | 3 => decide (v < 8) && decide (u < 16) && s.portState v == 2 && !bit (s.reg (unitEdge v) rVLNK_STATUS) (16 + u)
  | 4 => site && !s.coll.retired.contains v
  | 5 => site && decide (u < 8) && !((s.dram v).port u).retired
  | 6 => site && decide (u < 10) && s.regionState v u == 2
  | _ => false

/-- The resource of an entry has left service. -/
def State.entryLost (s : State) (e : MaintEntry) : Bool :=
  if e.code = 10 then !e.running && !s.rehearsalOk e.arg e.target
  else if e.code = 11 then false
  else !s.resourceOk e

/-- Slack on every die that a resource touches. -/
def State.entrySlack (s : State) (e : MaintEntry) : Bool := e.dies.all (fun v => decide (204 ≤ v) || s.slack v)

/-! Admission (R447, R451). -/

/-- A rehearsal may start: no other injection is in flight, and MIN_S seconds have passed since the last one. -/
def State.injectionDue (s : State) : Bool :=
  s.maint.injection.isNone && !s.maint.recovery && s.feature 4 && match s.maint.lastInjectionEnd with
    | none => true
    | some t => decide (t + s.fld unitMgmt rMNT_REHEARSE_CFG 0 12 * Config.cycSec ≤ s.now)

/-- A queued entry may start: it conflicts with no running entry and with none queued before it. -/
def State.admissible (s : State) (e : MaintEntry) : Bool :=
  let earlier := s.maint.entries.takeWhile (fun x => x.handle != e.handle)
  let rivals := earlier ++ s.maint.entries.filter (fun x => x.running && x.handle != e.handle)
  !e.running && !rivals.any (fun x => conflicts x e) && (!s.maint.recovery || e.code == 4)
    && (e.code != 10 || s.injectionDue)

/-- The lowest phase of a region that works. -/
def State.firstPhase (s : State) (v r : Nat) : Nat := ((bitsOf 5 (s.fld (unitDie v) (statOff r) 6 5)).head?).getD 0

/-- The injection of an admitted rehearsal (R450). -/
def State.inject (s : State) (e : MaintEntry) : State :=
  let n := s.maint.injections + 1
  let v := field e.target 0 8
  let u := field e.target 8 8
  let s : State := { s with maint := { s.maint with injections := n, injection := some ⟨e.arg, e.target, n⟩ } }
  let s := (s.setFld unitMgmt rMNT_REHEARSE_STAT 4 4 e.arg).setFld unitMgmt rMNT_REHEARSE_STAT 16 32 n
  let s := (s.bump unitMgmt rMNT_FAULT_COUNT 32 16 1).finishOpt e.command cOk 0 n
  match e.arg with
  | 1 => match s.physOf e.target with
      | some p => s.modCore p (fun c => { c with node := { c.node with hbStopped := true } })
      | none => s
  | 3 => s.modVPort v (fun p => { p with rehearse := some (((p.unacked.getLast?).map (·.1)).getD p.nextSeq) })
  | 4 => { s with maint := { s.maint with armedBucket := some v } }
  | 5 => { s with maint := { s.maint with armedPatrol := some (v, u) } }
  | 6 =>
    let k := s.firstPhase v u
    (s.losePhase v u (some k) true).modRegion v u (fun x => { x with phaseBack := some (s.now + 10 * Config.cycMs, k) })
  | _ => s

/-- Command processing pauses (R375, R458, R459). -/
def State.pauseCommands (s : State) : State := s.setFld unitBar rHOST_CMD_STAT 0 1 1

/-- Command processing resumes once neither a live update nor a restart holds it. -/
def State.resumeCommands (s : State) : State :=
  if s.maint.update.isSome || s.maint.restartUntil.isSome then s
  else (s.setFld unitBar rHOST_CMD_STAT 0 1 0).releaseDoorbells

/-- An entry starts. -/
def State.startEntry (s : State) (e : MaintEntry) : State :=
  let s := s.modEntry e.handle (fun e => { e with running := true, inStep := e.code == 10 || e.code == 11 })
  if e.code = 5 then s.startPlan e
  else if e.code = 10 then s.inject e
  else if e.code = 11 then
    ({ s with maint := { s.maint with update := some (e.arg, s.now, e.command) } } : State).pauseCommands
  else s

/-- An entry ends because its resource has left service (R449); a rehearsal's command is refused. -/
def State.endLost (s : State) (e : MaintEntry) : State :=
  let s := if e.code = 10 then s.finishOpt e.command cRefused 1 0 else s
  (if e.running && e.code == 5 then s.dropPlan e else s).endEntry e 2

/-- MAINT_STOP of an entry: at once, or after the step under way; the command of a queued rehearsal or live update is
aborted. -/
def State.stopEntry (s : State) (e : MaintEntry) : State :=
  if e.running && e.inStep then s.modEntry e.handle (fun e => { e with stopping := true })
  else
    let s := if e.running then s else s.finishOpt e.command cAborted 0 0
    (if e.running && e.code == 5 then s.dropPlan e else s).endEntry e 1

end Sys2Proof.Machine
end

