-- ==== Sys2Proof/Machine/Maintain.lean ====
section
/-!
DEFINITION. The commands of losses, reloads, the maintenance arbiter and restarts of Pliwick (R233, R438–R451, R458).
-/
namespace Sys2Proof.Machine

/-! Losses (R233, R438, R439, R442). -/

/-- DIE_HB_TIMEOUT: 2.5 µs without the heartbeat of a die, measured at the root: the die is lost. -/
def execDieHbTimeout (h : Fin 214) (s : State) : Res :=
  let h := h.val
  let t := s.advanceTo (SMap.get 0 s.gen.hbSeen h + 5 * Config.cycUs / 2)
  if h = halRoot then .next s
  else if h < 204 then when (!s.boot.badSites.contains h) s (t.dieLost h)
  else when (!s.boot.badEdges.contains (h - 204)) s (t.edgeLost (h - 204) 0)

/-- LOST_NOTICE: a notice of kind 2 reaches the root. -/
def execLostNotice (h : Fin 214) (s : State) : Res :=
  match s.intoRoot h.val with
  | some (.lost cs, t) => .next (t.coresLost cs)
  | _ => .next s

/-- HEARTBEAT_RESUME_TIMEOUT: 100 µs after a core's reset; a core without a heartbeat since then retires. -/
def execHeartbeatResumeTimeout (c : CoreIx) (s : State) : Res :=
  let p := c.val
  match s.maint.resuming.find? (fun e => e.1 == p) with
  | none => .next s
  | some e =>
    let s : State := { s with maint := { s.maint with resuming := s.maint.resuming.filter (fun x => x.1 != p) } }
    let s := s.advanceTo e.2
    if e.2 < (s.core p).node.hbAt + 100 * Config.cycUs then .next s
    else .next ((s.retireCore p 1).tackIfMapped [p])

/-! Reloads (R441). -/

/-- A range is copied line by line into the scratchpad by the core's DMA engine, requester `cls` of the port; a line that is
poisoned, or that the code of lines `bad` cannot correct, leaves the scratchpad as it is. Whether one was met; `none` while the
port makes it wait. -/
def State.reloadLines (site o cls p off : Nat) (bad : List Nat) : Nat → Nat → State → Bool → Option (State × Bool)
  | 0, _, s, b => some (s, b)
  | n + 1, k, s, b =>
    match s.readLine site (o + 64 * k) 64 cls (if bad.contains k then .many else .none) with
    | none => none
    | some (st, bs, s) =>
      if st = stOk then
        State.reloadLines site o cls p off bad n (k + 1)
          ((s.useBank p (bankOf (off + 64 * k))).spadWrite p (off + 64 * k) bs) b
      else State.reloadLines site o cls p off bad n (k + 1) s true

/-- RELOAD: the next range of a core is copied from slot TICK_COMMIT_SEQ mod S, once the core's cancelled tasks have ended
and no tack is pending; `bad` are the lines that read as uncorrectable. -/
def execReload (core : Fin 9216) (bad : List Nat) (s : State) : Res :=
  let g := core.val
  match s.maint.reloads.find? (fun r => r.core == g && !r.copied), s.physOf g, s.active.site (g / 48) with
  | some r, some p, some site =>
    let b := s.active.item 11 r.entry
    let slots := max 1 (field (leAt b 2 1) 0 2)
    let o := leAt b 16 8 % 2 ^ 34 + s.gen.commitSeq.toNat % slots * leAt b 12 4
    let busy := (List.range 8).any (fun i => (s.slot p i).mode == .ending)
    if s.cfg.pending || busy then .next s
    else
      match State.reloadLines site o (g % 48) p (leAt b 4 4) bad (leAt b 8 4 / 64) 0 s false with
      | none => .next s
      | some (s, met) =>
      let s : State := { s with maint := { s.maint with reloads := s.maint.reloads.map (fun (x : Reload) =>
        if x.core = g ∧ x.entry = r.entry then { x with copied := true, bad := met } else x) } }
      .next (s.settle p)
  | _, _, _ => .next s

/-- RELOAD_COMPLETE: every range of a core has been copied, or the core is vacant; after a bad line ticking halts. -/
def execReloadComplete (core : Fin 9216) (s : State) : Res :=
  let own := s.maint.reloads.filter (fun r => r.core == core.val)
  if own.isEmpty || (own.any (fun r => !r.copied) && (s.physOf core.val).isSome) then .next s
  else
    let s : State := { s with maint := { s.maint with reloads := s.maint.reloads.filter (fun r => r.core != core.val) } }
    if own.any (fun r => r.bad) then
      let t := s.gen.commitSeq.toNat + 1
      .next ((s.raise .jobAffecting 0x32 .none (some t) t).haltTicking)
    else .next s

/-! The arbiter (R446, R447, R451). -/

/-- ARBITER_ADMISSION: an entry whose resource has left service ends; else the first entry that may start does. -/
def execArbiterAdmission (s : State) : Res :=
  match s.maint.entries.find? s.entryLost with
  | some e => .next (s.endLost e)
  | none =>
    match s.maint.entries.find? s.admissible with
    | some e => .next (s.startEntry e)
    | none => .next s

/-- An entry that a command asks for; BUSY when it would wait with NO_WAIT, or when all 16 are in use. -/
def State.askEntry (s : State) (q : Fin 64) (cid : Cid) (c : HostCmd) (code resource arg target : Nat) (waits : Bool) : State :=
  match s.addEntry code resource arg target false (if waits then some (q.val, cid.toNat) else none) with
  | none => s.fail q cid cBusy 0
  | some (h, t) =>
    if c.noWait && !t.maint.entries.any (fun e => e.handle == h && t.admissible e) then s.fail q cid cBusy 0
    else if waits then t.await q.val cid.toNat h
    else t.done q cid h

/-- MAINT_START. -/
def execMaintStart (q : Fin 64) (cid : Cid) (s : State) : Res :=
  onCommand s q cid 0x38 fun c =>
    let code := field (c.p 0) 0 8
    let e : MaintEntry := { handle := 0, code := code, pliwick := false, resource := c.p 1, running := false, paused := false,
                            stopping := false, progress := 0, inStep := false, arg := 0, target := 0, command := none }
    if code = 0 ∨ 10 ≤ code then s.fail q cid cInvalidField 8
    else if !s.resourceOk e then s.fail q cid cInvalidField 16
    else s.askEntry q cid c code (c.p 1) 0 0 false

/-- MAINT_STOP. -/
def execMaintStop (q : Fin 64) (cid : Cid) (s : State) : Res :=
  onCommand s q cid 0x39 fun c =>
    match s.maint.entries.find? (fun e => e.handle == c.p 0) with
    | none => s.fail q cid cInvalidField 8
    | some e => (s.stopEntry e).done q cid 0

/-- FAULT_REHEARSE: it completes with the injection's number once that starts. -/
def execFaultRehearse (q : Fin 64) (cid : Cid) (s : State) : Res :=
  onCommand s q cid 0x3A fun c =>
    let kind := field (c.p 0) 0 8
    if kind = 0 ∨ 6 < kind then s.fail q cid cInvalidField 8
    else if !s.rehearsalOk kind (c.p 1) then s.fail q cid cRefused 1
    else s.askEntry q cid c 10 0xFFFF kind (c.p 1) true

/-! Activities (R446). -/

/-- SEAM_RETRAIN_ACTIVITY: a retraining of the link starts in slack of both dies, once no drift retraining of it runs; it
counts, so that a drift below 2 UI meanwhile counts no more (R413); a link that has been fenced is passed over. -/
def execSeamRetrainActivity (site : Fin 204) (s : State) : Res :=
  match s.runningEntry 1 (fun e => e.site == site.val && !e.inStep) with
  | none => .next s
  | some e =>
    match e.seam with
    | none => .next (s.stepOver e true true)
    | some x =>
      let l := linkAt site.val x
      if s.mesh.fenced.contains l then .next (s.stepOver e (decide (e.seams.length ≤ e.progress + 1)) (e.unit == 0xFF))
      else when (!s.mesh.training.contains l && s.slack site.val && (beyond site.val x).all (fun w => decide (204 ≤ w) || s.slack w)) s
        (((s.holdLink l).bump (unitDie site.val) (rCLK_SEAM_COUNT + 4 * x) 0 16 1).modEntry e.handle (fun e => { e with inStep := true }))

/-- The port that the next step of a DRAM_RETRAIN entry retrains. -/
def MaintEntry.dramPort (e : MaintEntry) : Nat := if e.unit = 0xFF then e.progress else e.unit

/-- DRAM_RETRAIN: a retraining of a DRAM port starts in slack; the port accepts no request while it runs (R193). -/
def execDramRetrain (site : Fin 204) (s : State) : Res :=
  match s.runningEntry 3 (fun e => e.site == site.val && !e.inStep) with
  | none => .next s
  | some e =>
    let p := e.dramPort
    if ((s.dram site.val).port p).retired then .next (s.stepOver e (e.unit != 0xFF || decide (7 ≤ e.progress)) (e.unit == 0xFF))
    else
      let t := s.modPort site.val p (fun x => { x with training := true, trainBy := some (s.now + 5 * Config.cycUs) })
      when (s.slack site.val) s ((t.showPort site.val p).modEntry e.handle (fun e => { e with inStep := true }))

/-- DRAM_RETRAINING_COMPLETE: the port accepts requests again; a failed retraining counts, the second within 24 h retires the
port, and the first is repeated in the next slack (R435). -/
def execDramRetrainingComplete (site : Fin 204) (port : Fin 8) (ok : Bool) (s : State) : Res :=
  let v := site.val
  let p := port.val
  if !((s.dram v).port p).training then .next s
  else
    let s := (s.modPort v p (fun x => { x with training := false, trainBy := none })).showPort v p
    let s := match s.runningEntry 3 (fun e => e.site == v && e.inStep && e.dramPort == p) with
      | none => s
      | some e => s.stepOver e (e.unit != 0xFF || decide (7 ≤ e.progress)) ok
    if ok then .next s
    else
      let s : State := { s with maint := { s.maint with dramFails := s.maint.dramFails ++ [((v, p), s.now)] } }
      let n := (s.maint.dramFails.filter (fun e => e.1 == (v, p) && decide (s.now ≤ e.2 + 24 * hourCycles))).length
      .next (if 2 ≤ n then s.retireDram v p 2 0 0 else s.pliwickEntry 3 (v + 2 ^ 8 * p))

/-- SCRUB: the accelerated pass of a running entry over its resource is done. -/
def execScrub (handle : BitVec 16) (s : State) : Res :=
  match s.runningEntry 4 (fun e => e.handle == handle.toNat) with
  | none => .next s
  | some e => .next (s.stepOver e true true)

/-- PHASE_TEST: the next phase of a region is off for 10 µs; `ok` tells that the rail stayed within 10 mV. A phase that fails
is lost. -/
def execPhaseTest (site : Fin 204) (ok : Bool) (s : State) : Res :=
  match s.runningEntry 7 (fun e => e.site == site.val) with
  | none => .next s
  | some e =>
    let v := site.val
    let r := if e.unit = 0xFF then e.progress / 5 else e.unit
    let k := e.progress % 5
    let s1 := s.advanceTo (s.now + 10 * Config.cycUs)
    let works := s.regionState v r == 2 && s.fld (unitDie v) (statOff r) (6 + k) 1 == 1
    let t := if works && !ok then s1.losePhase v r (some k) false else s1
    when (s.slack v) s (t.stepOver e (decide ((if e.unit = 0xFF then 49 else 4) ≤ e.progress)) true)

/-- CONTACT_CHECK: one estimate in slack, with at least 10 A drawn. -/
def execContactCheck (site : Fin 204) (est mv current : BitVec 16) (s : State) : Res :=
  match s.runningEntry 8 (fun e => e.site == site.val) with
  | none => .next s
  | some e =>
    when (s.slack site.val) s ((s.contactEstimate site.val est.toNat mv.toNat (max 100 current.toNat)).stepOver e true true)

/-- Units of BIST of a core (itself, 16 banks, matrix unit, vector engine), and of a site (its cores, its reduction unit and
its DRAM stack). -/
def bistUnits (whole : Bool) : Nat := if whole then 50 * 19 + 2 else 19

/-- The unit of a site's BIST that tests its DRAM stack leaves zeros with a valid code (R511). -/
def State.bistStack (s : State) (v unit : Nat) : State :=
  if unit = 50 * 19 + 1 then s.modDram v (fun x => { x with bytes := [], poison := [] }) else s

/-- SPARE_BIST: one unit of BIST of a spare core or an unassigned spare site; the first failure retires it. The cores of an
unassigned spare site are powered within the unit only, and dark behind it (R13). -/
def execSpareBist (site : Fin 204) (ok : Bool) (s : State) : Res :=
  let v := site.val
  match s.runningEntry 9 (fun e => e.site == v) with
  | none => .next s
  | some e =>
    let whole := e.unit == 0xFF
    if !whole && !s.slack v then .next s
    else if ok then
      let t := if whole then s.bistStack v e.progress else s
      .next (t.stepOver e (decide (bistUnits whole ≤ e.progress + 1)) true)
    else
      let t := if whole then (s.dieLost v).raise .degraded 0xB6 ⟨v, 0x3F, false, 0⟩ none 0x3F
        else (s.retireCore (50 * v + e.unit) 3).raise .degraded 0xB6 (coreSrc (50 * v + e.unit) 0) none e.unit
      .next (t.endEntry e 2)

/-! Restarts of Pliwick (R458). -/

/-- Pliwick restarts: commands pause, events wait, and MGMT_RESTART tells the cause. -/
def State.restartPliwick (s : State) (cause : Nat) : State :=
  (({ s with maint := { s.maint with restartUntil := some (s.now + 200 * Config.cycMs) } } : State).pauseCommands).raise
    .degraded 0xBD (edgeSrc 9 0x3F) none cause

/-- WATCHDOG_EXPIRY: 500 ms without service. -/
def execWatchdogExpiry (s : State) : Res :=
  when s.maint.restartUntil.isNone s ((s.advanceTo (500 * Config.cycMs)).restartPliwick 1)

/-- MANAGEMENT_MEMORY_UNCORRECTABLE. -/
def execManagementMemoryUncorrectable (s : State) : Res := when s.maint.restartUntil.isNone s (s.restartPliwick 2)

/-- PLIWICK_RESTART_COMPLETE: within 200 ms commands resume and the held events are written. -/
def execPliwickRestartComplete (s : State) : Res :=
  let held := s.events.stopped
  let t : State := { s with maint := { s.maint with restartUntil := none }, events := { s.events with stopped := [] } }
  when s.maint.restartUntil.isSome s (held.foldl (fun (s : State) e => s.emit e) t.resumeCommands)

end Sys2Proof.Machine
end

