-- ==== Sys2Proof/Machine/Transfer.lean ====
section
/-!
DEFINITION. Shard transfer and basting (R452–R457).
-/
namespace Sys2Proof.Machine

/-! Shard transfer (R452). -/

/-- What stops a shard command before it begins: status and detail. The die must be mapped, the range lie in its DRAM. -/
def State.shardRefusal (s : State) (c : HostCmd) : Option (Nat × Nat) :=
  if !s.still then some (cState, 1)
  else if (s.active.site (c.p 0)).isNone then some (cInvalidField, 8)
  else if c.p 1 % 64 ≠ 0 ∨ 2 ^ 34 ≤ c.p 1 then some (cInvalidField, 16)
  else if c.p 2 % 64 ≠ 0 ∨ 2 ^ 34 < c.p 1 + c.p 2 then some (cInvalidField, 24)
  else none

/-- SHARD_EXPORT: one post of the range on an open send context; it completes with the post. -/
def execShardExport (q : Fin 64) (cid : Cid) (s : State) : Res :=
  onCommand s q cid 0x42 fun c =>
    let k := field (c.p 3) 0 12
    match s.shardRefusal c with
    | some (code, detail) => s.fail q cid code detail
    | none =>
      if s.ctxMode k ≠ 1 ∨ (s.ctx k).st ≠ 1 then s.fail q cid cInvalidField 32
      else if c.p 2 = 0 then s.done q cid 0
      else (s.await q.val cid.toNat k).addPost k (c.p 2) (c.p 0 * 2 ^ 36 + c.p 1) 0 0 none true

/-- SHARD_IMPORT: it completes once the receive context has taken its lines. -/
def execShardImport (q : Fin 64) (cid : Cid) (s : State) : Res :=
  onCommand s q cid 0x43 fun c =>
    let k := field (c.p 3) 0 12
    match s.shardRefusal c with
    | some (code, detail) => s.fail q cid code detail
    | none =>
      if s.ctxMode k ≠ 2 || (s.ctx k).st ≠ 1 || s.ctxDie k ≠ c.p 0 || s.ctxBase k ≠ c.p 1 || decide (s.ctxSize k < c.p 2) then
        s.fail q cid cInvalidField 32
      else ((s.await q.val cid.toNat k).modCmd q.val cid.toNat (fun x => { x with moved := c.p 2 })).importDone k

/-! Basting (R453–R457). -/

/-- The context of the digests, with its region in the last 4 KiB of logical die 0, opens with a panel: mode 1 send, 2
receive. -/
def State.openDigestCtx (s : State) (mode panel : Nat) : State :=
  let u := unitEdge 7
  let o := 0x20 * 511
  let s := s.setReg u (rVLNK_XCTX_CFG + o) (mode + 2 ^ 4 * panel + 2 ^ 16 * 4095)
  let s := (s.setReg u (rVLNK_XCTX_BASE + o) digestBase).setReg u (rVLNK_XCTX_BYTES + o) 4096
  s.ctxOpen 4095 mode

/-- BASTE_ATTACH: `answer` is what the reference answers within 10 ms: the digest of its active set and its
COMMIT_SEQ. -/
def execBasteAttach (q : Fin 64) (cid : Cid) (answer : Option (List Byte × Word)) (s : State) : Res :=
  onCommand s q cid 0x40 fun c =>
    match answer with
    | none => (s.advanceTo (s.now + 10 * Config.cycMs)).fail q cid cRefused 2
    | some (digest, seq) =>
      if digest ≠ s.active.digest then s.fail q cid cRefused 3
      else if seq ≠ s.gen.commitSeq then s.fail q cid cRefused 4
      else
        let panel := field (c.p 0) 0 12
        let need := field (c.p 1) 0 32
        let s := (s.openDigestCtx 2 panel).setReg unitMgmt rMNT_BASTE_STAT (1 + 2 ^ 4 * panel)
        let s := s.setReg unitMgmt rMNT_BASTE_REQ (if need = 0 then 1000 else need)
        ({ s with maint := { s.maint with
            basteAttached := true, basteReady := false, suppressed := true, exportsFrom := none, promoting := false } } : State).done
          q cid 0

/-- Basting ends with a cause: 1 a mismatch, 2 no digest. Exports stay suppressed. -/
def State.endBasting (s : State) (cause tick : Nat) : State :=
  let s : State := { s with maint := { s.maint with basteAttached := false, basteReady := false, promoting := false } }
  let s := (s.setFld unitMgmt rMNT_BASTE_STAT 0 4 (2 ^ 2 * cause)).raise .degraded 0xBB (edgeSrc 9 0x3F) (some tick)
    (cause + 2 ^ 2 * tick)
  s.tryCommit

/-- BASTE_DIGEST: the reference's digest of the oldest tick is compared once conditions 1 to 4 of R247 hold here. -/
def execBasteDigest (digest : BitVec 64) (s : State) : Res :=
  match s.oldest with
  | none => .next s
  | some t =>
    if !s.maint.basteAttached || !s.tickMet t || t.digest then .next s
    else if digest.toNat ≠ SMap.get 0 s.maint.digest (tickp t.tick) then .next (s.endBasting 1 t.tick)
    else
      let s := (s.modRun t.tick (fun t => { t with digest := true })).bump unitMgmt rMNT_BASTE_STAT 32 32 1
      let full := decide (s.reg unitMgmt rMNT_BASTE_REQ ≤ s.fld unitMgmt rMNT_BASTE_STAT 32 32)
      let s := if full && !s.maint.basteReady then
          (({ s with maint := { s.maint with basteReady := true } } : State).setFld unitMgmt rMNT_BASTE_STAT 0 2 2).raise .info 0xBA
            (edgeSrc 9 0x3F) (some t.tick) (s.fld unitMgmt rMNT_BASTE_STAT 4 12)
        else s
      .next s.tryCommit

/-- BASTE_DIGEST_TIMEOUT: no digest within 50 µs of conditions 1 to 4. -/
def execBasteDigestTimeout (s : State) : Res :=
  match s.oldest with
  | none => .next s
  | some t =>
    when (s.maint.basteAttached && s.tickMet t && !t.digest) s
      ((s.advanceTo (t.metAt.getD s.now + 50 * Config.cycUs)).endBasting 2 t.tick)

/-- BASTE_PROMOTE: it completes with the first tick that exports; that tick is known at the next commit. -/
def execBastePromote (q : Fin 64) (cid : Cid) (s : State) : Res :=
  onCommand s q cid 0x41 fun _ =>
    if !s.maint.basteReady then s.fail q cid cRefused 5
    else ({ s with maint := { s.maint with promoting := true } } : State).await q.val cid.toNat (2 ^ 64)

end Sys2Proof.Machine
end

