-- ==== Sys2Proof/Machine/Firmware.lean ====
section
/-!
DEFINITION. Staging, activation and live update of firmware (R418, R459, R464–R467).
-/
namespace Sys2Proof.Machine

/-! Images (R464, R465). -/

/-- The fields of an image's 128-byte header are valid for component `c`, up to COMPONENT: MAGIC, FLAGS, SVN, the payload's
length within the `n` bytes of the image, and zero reserved bytes. -/
def headerOk (img : List Byte) (n : Nat) : Bool :=
  let pay := leAt img 16 8
  leAt img 0 4 == 0x474D494B && decide (leAt img 5 1 < 2) && zeroAt img 6 2 && decide (leAt img 12 4 ≤ 64)
    && decide (32 ≤ pay) && decide (pay ≤ 0x4000000) && zeroAt img 72 56 && n == up64 (128 + pay) + 1920

/-- The failure of an image for component `c`: 1 format, 2 authentication, 3 rollback; 0 when it passes. -/
def State.verifyImage (s : State) (img : List Byte) (n c : Nat) : Nat :=
  let head := img.take 128
  let pay := leAt img 16 8
  let sig := img.drop (up64 (128 + pay))
  if !s.keysOk then 2
  else if !headerOk img n || leAt img 4 1 ≠ c || (decide (8 ≤ c) && leAt img 12 4 ≠ 0) then 1
  else if sha384 ((img.drop 128).take pay) ≠ (img.drop 24).take 48 then 2
  else if !Config.ecdsaVerifies s.sec.ecdsaKey head (sig.take 96) || !Config.lmsVerifies s.sec.lmsKey head ((sig.drop 96).take 1772) then 2
  else if c ≤ 3 ∧ leAt img 12 4 < s.rollback c then 3
  else 0

/-- The bank that an image fills. -/
def bankOfImage (img : List Byte) : FwBank :=
  let pay := leAt img 16 8
  { valid := true, svn := leAt img 12 4, version := leAt img 8 4, advance := bit (leAt img 5 1) 0
    digest := leNat (sha384 (img.take (128 + pay))), bytes := pay }

/-! The commands (R368, R466). -/

/-- FW_STAGE: the inactive bank is written, and valid only when the image passes; `data` is what host memory holds. -/
def execFwStage (q : Fin 64) (cid : Cid) (data : List Byte) (s : State) : Res :=
  onCommand s q cid 0x48 fun c =>
    let k := field (c.p 2) 0 4
    if 3 < k then s.fail q cid cInvalidField 24
    else if s.maint.update.any (fun u => u.1 == k) then s.fail q cid cBusy 0
    else s.fromBuffer q cid c 0 (c.p 1)
      (let img := hostBytes data (c.p 1)
       let b := !s.activeBank k
       match s.verifyImage img (c.p 1) k with
       | 0 => (s.setBank k b (bankOfImage img)).done q cid 0
       | 1 => ((s.setBank k b FwBank.empty).authFail k 1).fail q cid cInvalidField (if leAt img 4 1 ≠ k then 24 else 8)
       | 2 => ((s.setBank k b FwBank.empty).authFail k 2).fail q cid cAuth 0
       | _ => ((s.setBank k b FwBank.empty).authFail k 3).fail q cid cRollback k)

/-- FW_ACTIVATE: the staged bank is verified again and marked for the next reset that loads the component. -/
def execFwActivate (q : Fin 64) (cid : Cid) (s : State) : Res :=
  onCommand s q cid 0x49 fun c =>
    let k := field (c.p 2) 0 4
    if 3 < k then s.fail q cid cInvalidField 24
    else
      match s.verifies k (!s.activeBank k) [] with
      | 0 => ({ s with sec := { s.sec with staged := SMap.set false s.sec.staged k true } } : State).done q cid 0
      | 3 => (s.authFail k 3).fail q cid cRollback k
      | why => (s.authFail k why).fail q cid cAuth 0

/-- FW_LIVE_UPDATE: queued with the arbiter; an image that is absent or unverified is refused (R459). -/
def execFwLiveUpdate (q : Fin 64) (cid : Cid) (s : State) : Res :=
  onCommand s q cid 0x4A fun c =>
    let k := field (c.p 2) 0 4
    if 1 < k then s.fail q cid cInvalidField 24
    else if !(s.bank k (!s.activeBank k)).valid then (s.authFail k 2).fail q cid cRefused 6
    else s.askEntry q cid c 11 0xFFFF k 0 true

/-- LIVE_UPDATE_END: the new image runs, within 200 ms, and its bank is active; or the old image resumes after 200 ms. -/
def execLiveUpdateEnd (started : Bool) (s : State) : Res :=
  match s.maint.update, s.maint.entries.find? (fun e => e.code == 11 && e.running) with
  | some (k, t0, cmd), some e =>
    let limit := t0 + 200 * Config.cycMs
    let ended := fun (s : State) => ({ s with maint := { s.maint with update := none } } : State).resumeCommands
    if started then
      if limit < s.now then .next s
      else
        let us := (s.now - t0) / Config.cycUs
        let s : State := { s with sec := { s.sec with
          activeB := SMap.set false s.sec.activeB k (!s.activeBank k), staged := SMap.set false s.sec.staged k false } }
        let s := (s.measure k).finishOpt cmd cOk 0 us
        let s := (ended s).raise .info 0xBE (edgeSrc 9 0x3F) none (k + 2 ^ 8 * min 0xFFFF us)
        let s := if s.ready = 1 ∨ s.ready = 2 then s.advanceRollback k else s
        .next (s.endEntry e 0)
    else
      let s := ((s.advanceTo limit).finishOpt cmd 0x10 0 0).raise .jobAffecting 3 (edgeSrc 8 0x3F) none 0
      .next ((ended s).endEntry e 2)
  | _, _ => .next s

end Sys2Proof.Machine
end

