-- ==== Sys2Proof/Machine/Grant.lean ====
section
/-!
DEFINITION. The grant of a scratchpad bank, and its scrub (R88–R94).
-/
namespace Sys2Proof.Machine

/-- The bank grants the request of a task processor slot: a load, store, atomic, TAKE or PUT, or a descriptor read (R89). -/
def State.grantSlot (s : State) (p i : Nat) (m : MemOp) (err : EccErr) : State :=
  match m.kind with
  | .mxi => s.grantMxi p i m err
  | .vxi => s.grantVxi p i m err
  | .dxi => s.grantDxi p i m err
  | .wopen => s.grantWopen p i m err
  | _ => s.grantTp p i m err

/-- Bank cycles that the request takes: an atomic takes two (R72). -/
def MemKind.cycles (k : MemKind) : Nat :=
  match k with
  | .amoAdd => 2
  | .amoSwap => 2
  | .amoCas => 2
  | .amoOr => 2
  | .amoAnd => 2
  | _ => 1

/-- The next access of an engine lies in the bank. -/
def atBank (b : Nat) (x : Option (Nat × Nat)) : Bool := x.any (fun y => bankOf y.1 == b)

/-- What bank `b` grants in the current cycle, in which it is free, by the priorities of R89 and R90; `none` when nothing
waits. -/
def State.grantAt (s : State) (p b : Nat) (err : EccErr) : Option State :=
  let bk := (s.spad p).bank b
  let c := s.core p
  let took := s.takeBank p b
  match bk.nextP6 s.now (s.scrubOn p), decide (7 ≤ bk.p6wait) with
  | some r, true => some (took.grantP6 p b r err)
  | next, _ =>
    match c.tpRequest s.now b with
    | some (i, m) => some ((took.missP6 p b m.kind.cycles).grantSlot p i m err)
    | none =>
      match (if c.clearAt ≤ s.now then c.clearing b else none) with
      | some i => some (((took.missP6 p b 1).modCore p (fun c => { c with clearAt := s.now + 1 })).clearBlock p i)
      | none =>
        if atBank b (s.vecNext p) then some ((took.missP6 p b 1).vecAccess p err)
        else if atBank b (s.mxuNext p) then some ((took.missP6 p b 1).mxuAccess p err)
        else
          match next with
          | some r => some (took.grantP6 p b r err)
          | none =>
            match bk.writeBacks with
            | _ :: ws => some (took.modBank p b (fun x => { x with writeBacks := ws }))
            | [] => none

/-- The cycles in which a request comes to be at the bank: a checked access that repeats its request, and the next clearing
write of the launcher. -/
def Core.laterAt (c : Core) (b : Nat) : List Nat :=
  (List.range 8).filterMap (fun i => match (c.slot i).mem with
    | some m => if m.reply.isNone && bankOf m.off == b && decide (0 < m.dueAt) then some m.dueAt else none
    | none => none)
  ++ (if (c.clearing b).isSome then [c.clearAt] else [])

/-- BANK_GRANT: the bank grants the access that R89 and R90 name, in the first cycle in which it is free and one waits; `err` is
what the code of the line shows. -/
def execBankGrant (c : CoreIx) (bank : Fin 16) (err : EccErr) (s : State) : Res :=
  let p := c.val
  let b := bank.val
  let bk := (s.spad p).bank b
  if !bk.grants then .next s
  else
    match (s.advanceTo bk.freeAt).grantAt p b err with
    | some t => .next t
    | none =>
      match (s.core p).laterAt b with
      | [] => .next s
      | t :: ts =>
        match (s.advanceTo (ts.foldl min t)).grantAt p b err with
        | some u => .next u
        | none => .next s

/-- SCRUB_READ: the powered bank's next line is read every 8,192 cycles, when nothing else waits at the bank (R89, R94); after
1,024 cycles it competes at priority 6 (R90). -/
def execScrubRead (c : CoreIx) (bank : Fin 16) (err : EccErr) (s : State) : Res :=
  let p := c.val
  let b := bank.val
  let bk := (s.spad p).bank b
  if !bk.grants || !s.scrubOn p then .next s
  else
    let s' := s.advanceTo (max bk.scrubDue bk.freeAt)
    match s'.grantAt p b err with
    | none => .next ((s'.takeBank p b).scrubLine p b err)
    | some _ => .next s

end Sys2Proof.Machine
end

