-- ==== Sys2Proof/Machine/Security.lean ====
section
/-!
DEFINITION. Attestation and debug unlock (R468–R473).
-/
namespace Sys2Proof.Machine

/-! Measurements (R422, R468). -/

/-- The 32 bytes of an entry of the alteration log, with its chain digest. -/
def LogEntry.bytes (e : LogEntry) (chain : List Byte) : List Byte :=
  leBytes 1 e.kind ++ leBytes 1 e.site ++ leBytes 1 e.unit ++ zeros 1 ++ leBytes 4 e.detail ++ leBytes 8 e.hours ++ chain

/-- The chain digest of the newest of these entries, when the first one's is `chain`: each entry carries the first 16 bytes
of the digest of the one before it. -/
def newestChain (chain : List Byte) : List LogEntry → List Byte
  | [] => chain
  | [_] => chain
  | e :: es => newestChain ((sha384 (e.bytes chain)).take 16) es

/-- Measurement `i`: 1–4 firmware, 5 the pattern, 6 the fuses and the debug level, 7 the active set, 8 the log. -/
def State.measurement (s : State) (i : Nat) : Nat :=
  match i with
  | 5 => Config.digestOf [5]
  | 6 => Config.digestOf ([6] ++ (List.range 4).map s.rollback ++ [b2n s.rom.debugDisable, s.sec.debugLevel])
  | 7 => leNat s.active.digest
  | 8 => leNat (newestChain (zeros 16) s.boot.log)
  | _ => SMap.get 0 s.sec.measured i

/-! SPDM (R471). -/

def State.spdmOn (s : State) (t : Nat) : Spdm := SMap.get Spdm.reset s.sec.spdm t
def State.setSpdm (s : State) (t : Nat) (x : Spdm) : State :=
  { s with sec := { s.sec with spdm := SMap.set Spdm.reset s.sec.spdm t x } }

/-- A response that is not signed. -/
def State.respond (s : State) (t : Nat) (x : Spdm) (r : SpdmResponse) : State := s.setSpdm t { x with response := r, signed := false }
/-- A signed response. -/
def State.respondSigned (s : State) (t : Nat) (x : Spdm) (r : SpdmResponse) : State := s.setSpdm t { x with response := r, signed := true }
/-- A request out of place. -/
def State.spdmError (s : State) (t : Nat) (unexpected : Bool) : State := s.respond t (s.spdmOn t) (.error unexpected)

/-- A co-signature of the response just sent takes the next leaf index, whose block is reserved in flash first; without an
index left it fails (R470, R472). -/
def State.cosign (s : State) (t : Nat) : State :=
  let x := s.spdmOn t
  let q := s.sec.nextQ
  if !x.signed then s.spdmError t true
  else if 2 ^ 20 ≤ q then (s.respond t x (.cosign true 0)).raise .jobAffecting 0xD3 .none none 0
  else
    let s := s.respond t x (.cosign false q)
    let low := decide (95 * 2 ^ 20 ≤ 100 * (q + 1)) && !s.sec.lmsLowRaised
    let s : State := { s with sec := { s.sec with
      nextQ := q + 1, reservedQ := (q / 256 + 1) * 256, lmsLowRaised := s.sec.lmsLowRaised || low } }
    if low then s.raise .degraded 0xD2 .none none (min 0xFFFF (2 ^ 20 - (q + 1))) else s

/-- One request on a transport: negotiation comes in order, and sessions are held over DOE only. -/
def State.spdm (s : State) (t : Nat) (r : SpdmReq) : State :=
  let x := s.spdmOn t
  match r with
  | .getVersion => s.respond t { Spdm.reset with version := true } .version
  | .getCapabilities => if x.version then s.respond t { x with caps := true } .capabilities else s.spdmError t true
  | .negotiateAlgorithms => if x.caps then s.respond t { x with algs := true } .algorithms else s.spdmError t true
  | .getDigests => if x.algs then s.respond t x .digests else s.spdmError t true
  | .getCertificate => if x.algs then s.respond t x (.certificate s.sec.certs) else s.spdmError t true
  | .challenge => if x.algs then s.respondSigned t x .challengeAuth else s.spdmError t true
  | .getMeasurements signed =>
    let m : SpdmResponse := .measurements ((List.range 8).map (fun i => s.measurement (i + 1))) signed
    if !x.algs then s.spdmError t true else if signed then s.respondSigned t x m else s.respond t x m
  | .keyExchange => if t ≠ 0 then s.spdmError t false
      else if x.algs && x.session.isNone then s.respond t { x with session := some false } .keyExchange else s.spdmError t true
  | .finish => if t ≠ 0 then s.spdmError t false
      else if x.session = some false then s.respond t { x with session := some true } .finished else s.spdmError t true
  | .endSession => if t ≠ 0 then s.spdmError t false
      else if x.session = some true then s.respond t { x with session := none } .sessionEnded else s.spdmError t true
  | .lmsCosign => s.cosign t
  | .other => s.spdmError t false

/-- The transport of a request that is not in an ATTEST command: DOE or MCTP. -/
def overBus (doe : Bool) : Nat := if doe then 0 else 1

/-- GET_VERSION. -/
def execGetVersion (doe : Bool) (s : State) : Res := .next (s.spdm (overBus doe) .getVersion)
/-- GET_CAPABILITIES. -/
def execGetCapabilities (doe : Bool) (s : State) : Res := .next (s.spdm (overBus doe) .getCapabilities)
/-- NEGOTIATE_ALGORITHMS. -/
def execNegotiateAlgorithms (doe : Bool) (s : State) : Res := .next (s.spdm (overBus doe) .negotiateAlgorithms)
/-- GET_DIGESTS. -/
def execGetDigests (doe : Bool) (s : State) : Res := .next (s.spdm (overBus doe) .getDigests)
/-- GET_CERTIFICATE. -/
def execGetCertificate (doe : Bool) (s : State) : Res := .next (s.spdm (overBus doe) .getCertificate)
/-- CHALLENGE. -/
def execChallenge (doe : Bool) (s : State) : Res := .next (s.spdm (overBus doe) .challenge)
/-- GET_MEASUREMENTS. -/
def execGetMeasurements (doe signed : Bool) (s : State) : Res := .next (s.spdm (overBus doe) (.getMeasurements signed))
/-- KEY_EXCHANGE. -/
def execKeyExchange (doe : Bool) (s : State) : Res := .next (s.spdm (overBus doe) .keyExchange)
/-- FINISH. -/
def execFinish (doe : Bool) (s : State) : Res := .next (s.spdm (overBus doe) .finish)
/-- END_SESSION. -/
def execEndSession (doe : Bool) (s : State) : Res := .next (s.spdm (overBus doe) .endSession)
/-- LMS_COSIGN. -/
def execLmsCosign (doe : Bool) (s : State) : Res := .next (s.spdm (overBus doe) .lmsCosign)

/-- ATTEST: one request message of the host, and its response. `req` is what the bytes in host memory spell. -/
def execAttest (q : Fin 64) (cid : Cid) (req : SpdmReq) (s : State) : Res :=
  onCommand s q cid 0x50 fun c =>
    s.fromBuffer q cid c 0 (c.p 1)
      (let bs := (Config.spdmBytes s.freeCtr).take (c.p 3)
       (({ s with freeCtr := s.freeCtr + 1 } : State).spdm 2 req).toBuffer q cid c 2 bs bs.length)

/-! Debug unlock (R473). -/

/-- Why a token of `n` bytes is refused: 1 signature, 2 die ID, 3 nonce, 4 fuse; 0 when it is granted. -/
def State.tokenRefusal (s : State) (img : List Byte) (n : Nat) : Nat :=
  if s.verifyImage img n 9 ≠ 0 ∨ leAt img 16 8 ≠ 32 then 1
  else if leAt img 128 8 ≠ s.rom.dieId then 2
  else if leAt img 136 8 ≠ s.sec.nonce then 3
  else if s.rom.debugDisable then 4
  else 0

/-- DEBUG_TOKEN: a token reaches the management die; whether granted or refused, the nonce is replaced. -/
def execDebugToken (img : List Byte) (s : State) : Res :=
  let why := s.tokenRefusal img img.length
  let level := field (leAt img 144 1) 0 3
  let t := s.newNonce
  if why = 0 then
    .next (({ t with sec := { t.sec with debugLevel := level } } : State).raise .degraded 0xD4 .none none level)
  else .next (t.raise .info 0xD5 .none none why)

end Sys2Proof.Machine
end

