-- ==== Sys2Proof/Machine/Telemetry.lean ====
section
/-!
DEFINITION. The commands of telemetry and of the MCTP endpoint (R478–R490).
-/
namespace Sys2Proof.Machine

/-! Snapshots (R478, R486). -/

/-- SNAP: a write of TEL_CTRL.SNAP = 1. -/
def execSnap (s : State) : Res :=
  when (bit (s.reg unitMgmt rTEL_CTRL) 0 && s.still) s ((s.telBoundary true).setFld unitMgmt rTEL_CTRL 1 1 1)

/-- The words of page 194: for each slot the merge of the latest tick that has one, and the tick. -/
def State.histWords (s : State) : List (Nat × Nat) :=
  (List.range 16).flatMap (fun slot => match s.mergedTick slot with
    | none => []
    | some t =>
      let bin := fun b => SMap.get 0 (s.hub halRoot).hist ((16 * tickp t + slot) * 128 + b)
      (List.range 34).map (fun j => (telKey 194 (0x200 * slot) + j, bin (2 * j) + 2 ^ 32 * bin (2 * j + 1)))
        ++ [(telKey 194 (0x200 * slot) + 34, t)])

/-- SNAPSHOT_FLIP: the window flips once every mapped die has written; with dies `missing` at 200 µs, whose pages read as
zeros and whose interval goes on. -/
def execSnapshotFlip (missing : List (Fin 192)) (s : State) : Res :=
  match s.tel.latched with
  | none => .next s
  | some l =>
    let gone := (missing.map Fin.val).filter (fun d => (s.active.site d).isSome)
    let s := if gone.isEmpty then s else s.advanceTo (l.since + 200 * Config.cycUs)
    let shown := SMap.drop (fun k => gone.contains (k / 8192)) l.words
    let shown := s.histWords.foldl (fun m e => SMap.set 0 m e.1 e.2) shown
    let s := (s.telResume l.data (gone.filterMap s.active.site)).setFld unitMgmt rTEL_CTRL 1 1 0
    .next { s with tel := { s.tel with
      latched := none, shown := shown, gen := s.tel.gen + 1, tick := l.tick, first := l.first
      flags := l.flags ||| (if gone.isEmpty then 0 else 16) } }

/-- SLACK_REPORT: a die reports the last vote of its cores for each patch of the tick committed last; with the last report a
patch takes its sample. -/
def execSlackReport (d : Fin 192) (s : State) : Res :=
  match s.gen.last with
  | none => .next s
  | some t =>
    let launches := (List.range (s.phaseCount t.prog)).flatMap (fun p => s.active.launchesOf t.prog p)
    let vote := fun (g : Nat) => ((launches.filter (fun l => l.1 / 48 == d.val && l.2 == g)).map (fun l =>
      match s.physOf l.1 with
      | some p => (SMap.get none (s.core p).node.voted (tickp t.tick)).getD 0
      | none => 0)).foldl max 0
    let due := s.tel.votes.filter (fun e => e.2.1.contains d.val)
    .next (due.foldl (fun (s : State) e =>
      let left := e.2.1.filter (· != d.val)
      let v := max e.2.2 (vote e.1)
      let s := { s with tel := { s.tel with votes := SMap.set ([], 0) s.tel.votes e.1 (left, if left.isEmpty then 0 else v) } }
      if left.isEmpty then
        let cyc : Int := (t.period : Int) - ((v : Int) - (t.t0 : Int))
        s.telSampleAt (telSlack e.1) (cyc / (Config.cyc10ns : Int)) (slackBin cyc)
      else s) s)

/-! Reads (R480, R481, R487–R489). -/

/-- The word at a byte offset of a page of the current snapshot. -/
def State.pageWord (s : State) (page off : Nat) : Nat :=
  if page = 255 then
    match off / 8 with
    | 0 => s.tel.gen
    | 1 => s.tel.tick
    | 2 => s.tel.first
    | 3 => s.tel.flags
    | _ => 0
  else SMap.get 0 s.tel.shown (telKey page off)

/-- `n` bytes of a page. -/
def State.pageBytes (s : State) (page off n : Nat) : List Byte :=
  (List.range n).map (fun i => BitVec.ofNat 8 (s.pageWord page (off + i) / 2 ^ (8 * ((off + i) % 8))))

/-- TEL_READ. -/
def execTelRead (q : Fin 64) (cid : Cid) (s : State) : Res :=
  onCommand s q cid 0x29 fun c =>
    let page := field (c.p 0) 0 8
    let off := 64 * field (c.p 0) 16 16
    let n := c.p 2
    if field (c.p 0) 8 8 ≠ 0 ∨ 2 ^ 32 ≤ c.p 0 ∨ 0x10000 ≤ off then s.fail q cid cInvalidField 8
    else if n % 64 ≠ 0 ∨ 0x10000 < off + n then s.fail q cid cInvalidField 24
    else s.toBuffer q cid c 1 (s.pageBytes page off n) s.tel.tick

/-- What the management die sends over MCTP. -/
def State.mctpSend (s : State) (bs : List Byte) : State := { s with tel := { s.tel with mctpResponse := bs } }

/-- TEL_GET: GEN, and 1 to 48 bytes of a page. -/
def execTelGet (page : BitVec 8) (off : BitVec 16) (n : Fin 49) (s : State) : Res :=
  when (decide (0 < n.val)) s (s.mctpSend (leBytes 8 s.tel.gen ++ s.pageBytes page.toNat off.toNat n.val))

/-- MCTP_STATUS: READY, COMMIT_SEQ and `HOST_EVENT_STAT`. -/
def execMctpStatus (s : State) : Res :=
  .next (s.mctpSend (leBytes 1 s.ready ++ leBytes 8 s.gen.commitSeq.toNat ++ leBytes 8 s.eventStat))

/-! Pushed events (R490). -/

/-- MCTP_EVENT: the oldest event that waits is sent. -/
def execMctpEvent (s : State) : Res :=
  match s.events.mctpQ with
  | [] => .next s
  | e :: _ =>
    let t := s.mctpSend (e.bytes false)
    when (s.tel.mctpAt.isNone && bit (s.reg unitMgmt rTEL_MCTP) 19) s
      { t with tel := { t.tel with mctpTries := 0, mctpAt := some (s.now + 10 * Config.cycMs) } }

/-- The event sent has been dealt with. -/
def State.mctpNext (s : State) : State :=
  { s with tel := { s.tel with mctpAt := none, mctpTries := 0 }, events := { s.events with mctpQ := s.events.mctpQ.drop 1 } }

/-- MCTP_EVENT_RETRY: 10 ms without an acknowledgement: the event is sent again, or dropped and counted after 3 repeats. -/
def execMctpEventRetry (s : State) : Res :=
  match s.tel.mctpAt, s.events.mctpQ with
  | some t, e :: _ =>
    let s := s.advanceTo t
    if 3 ≤ s.tel.mctpTries then .next (s.mctpNext.bump unitMgmt rTEL_COUNT 32 32 1)
    else
      let x := s.mctpSend (e.bytes false)
      .next { x with tel := { x.tel with mctpTries := x.tel.mctpTries + 1, mctpAt := some (s.now + 10 * Config.cycMs) } }
  | _, _ => .next s

/-- MCTP_EVENT_ACKNOWLEDGED: the next event may be sent. -/
def execMctpEventAcknowledged (s : State) : Res := when s.tel.mctpAt.isSome s s.mctpNext

end Sys2Proof.Machine
end

