-- ==== Sys2Proof/Machine/RegWrite.lean ====
section
/-!
DEFINITION. Register writes (R6–R8, R56, R196, R276, R510): each by its access codes, the ranges of its table and the
effect the spec gives it; and the commands of register access and of the panel register window (R354).
-/
namespace Sys2Proof.Machine

/-- The state a meaning leaves, or the state before it where it does not go on. -/
def State.after (s : State) (r : Res) : State :=
  match r with
  | .next s' => s'
  | _ => s

/-- A whole register is written: `v` the written bits, `m` which bits the access reaches. RW bits take the value, W1C bits
written 1 clear; other bits stay. -/
def RegRow.written (r : RegRow) (old v m : Nat) : Nat :=
  let rw := r.rw &&& m
  let w1c := r.w1c &&& m &&& v
  let kept := old - (old &&& rw)
  let kept := kept - (kept &&& w1c)
  kept + (v &&& rw)

/-- The written bits but for those of W1C bits that hardware sets in the same cycle (R7). -/
def State.heldBits (s : State) (u : Nat) (r : RegRow) (off v : Nat) : Nat := v - (v &&& r.w1c &&& s.hwBits u off)

/-- Write by access codes alone. -/
def State.plainWrite (s : State) (u : Nat) (r : RegRow) (off v m : Nat) : State :=
  s.putReg u off (r.written (s.reg u off) (s.heldBits u r off v) m)

/-- Write by access codes, unless the register's value would fall outside the ranges of its table. -/
def State.checkedWrite (s : State) (u : Nat) (r : RegRow) (off v m : Nat) (ok : Nat → Bool) : State :=
  if ok (r.written (s.reg u off) v m) then s.plainWrite u r off v m else s

/-- A write of 1 to the VALID bit clears the record, unless hardware sets it in the same cycle (R7). -/
def State.clears (s : State) (u off w bit_ : Nat) : Bool := bit w bit_ && !bit (s.hwBits u off) bit_
def State.clearRecord (s : State) (u off w bit_ : Nat) : State := if s.clears u off w bit_ then s.putReg u off 0 else s

/-- A field lies in a range. -/
def within (v lo w a b : Nat) : Bool := decide (a ≤ field v lo w) && decide (field v lo w ≤ b)

/-! Core registers. -/

/-- `MESH_TEL_CTRL.CLEAR`: the counters, maxima and bins of the router (R221). -/
def State.clearRouter (s : State) (p : Nat) : State :=
  let mine := fun (off : Nat) => ([rMESH_VC_COUNT, rMESH_VC_DEPTH, rMESH_STALL_A, rMESH_STALL_B, rMESH_LAT_HIST] : List Nat).any
    (fun o => match regRow? (unitCore p) off with
      | some r => r.off == o
      | none => false)
  ({ s with regs := s.regs.filter (fun e => !(e.1 / 0x100000000 == unitCore p && mine (e.1 % 0x100000000))) }).setFld (unitCore p)
    rMESH_THROTTLE_STAT 32 32 0

/-- A write of a register of physical core `p` (R57, R116, R117, R162, R180, R221). -/
def State.coreWrite (s : State) (p : Nat) (r : RegRow) (off v m : Nat) : State :=
  let u := unitCore p
  let w := v &&& m
  if off = rCORE_CTRL then
    let s := s.plainWrite u r off v m
    if bit w 0 then s.modCore p (fun x => { x with icinvBusy := true }) else s
  else if r.off = rTASK_FAULT then
    let i := (off - 0x1000) / 0x100
    let s := if s.clears u off w 9 then s.modSlot p i (fun sl => { sl with faultOvf := false }) else s
    if s.clears u off w 8 then s.modSlot p i (Slot.clearFault s.now) else s
  else if off = rSPAD_CTRL then
    let old := s.reg u off
    let s := s.plainWrite u r off v m
    (List.range 16).foldl (fun (s : State) b =>
      if bit old (16 + b) && !bit (s.reg u off) (16 + b) then s.modBank p b (fun x => { x with uncoveredAt := s.now }) else s) s
  else if off = rSPAD_BANK_PWR then (s.requestDown p (bitsOf 16 (field w 0 16))).requestUp p (bitsOf 16 (field w 16 16))
  else if off = rSPAD_BANK_STATUS then
    (List.range 16).foldl (fun (s : State) b => s.modBank p b (fun x => { x with
      pdTimeout := x.pdTimeout && !s.clears u off w (32 + b), readOff := x.readOff && !s.clears u off w (48 + b) })) s
  else if off = rSPAD_ECC_LAST ∨ off = rSPAD_NACK_LAST ∨ off = rMXU_LAST_ERROR ∨ off = rVEC_LAST_ERROR ∨ off = rVEC_QOVF then
    s.clearRecord u off w 63
  else if off = rSPAD_CREDIT_TTL then s.checkedWrite u r off v m (fun x => within x 0 10 1 1000)
  else if off = rMESH_THROTTLE_CFG then
    (s.checkedWrite u r off v m (fun x =>
      decide (1 ≤ field x 0 7) && decide (field x 0 7 < field x 8 7) && decide (field x 8 7 < field x 16 7)
        && decide (field x 16 7 ≤ 100))).noteDepth (p / 50) (p % 50)
  else if off = rMESH_TEL_CTRL then
    let s := s.plainWrite u r off v m
    if bit w 1 then s.clearRouter p else s
  else s.plainWrite u r off v m

/-! Die registers. -/

/-- A write of a register of the die at a site (R196, R236, R307, R399, R414). -/
def State.dieWrite (s : State) (site : Nat) (r : RegRow) (off v m : Nat) : State :=
  let u := unitDie site
  let w := v &&& m
  if off = rDRAM_ARB_WEIGHT then
    s.checkedWrite u r off v m (fun x => (List.range 4).all (fun k => field x (4 * k) 4 != 0))
  else if off = rDRAM_RETIRE_CMD then
    if h : site < 204 then s.after (execDramRetire ⟨site, h⟩ (BitVec.ofNat 32 w) s) else s
  else if r.off = rDRAM_ERR_LAST then s.clearRecord u off w 31
  else if r.off = rCOLL_POST then s.bump u rCOLL_POST_ERR 0 32 1
  else if off = rCOLL_ERR_LAST then if s.clears u off w 31 then (s.putReg u off 0).putReg u rCOLL_ERR_LINE 0 else s
  else if off = rPWR_REGION_CTRL then
    let s := s.plainWrite u r off v m
    if h : site < 204 then
      let s := s.after (execOnReq ⟨site, h⟩ (BitVec.ofNat 10 (field w 0 10)) s)
      s.after (execOffReq ⟨site, h⟩ (BitVec.ofNat 10 (field w 16 10)) s)
    else s
  else s.plainWrite u r off v m

/-! Registers of the management die. -/

/-- A write of `TICK_CTRL`: RA_EN and STEP_LEFT are written first (R251). -/
def State.tickWrite (s : State) (v m : Nat) : State :=
  let old := b2n s.gen.run + 2 * b2n s.gen.raEn + 2 ^ 16 * s.gen.stepLeft
  let x := (old - (old &&& m)) + (v &&& m)
  let s := s.modGen (fun g => { g with raEn := bit x 1, stepLeft := field x 16 32 })
  if bit m 0 then s.after (execRun (bit x 0) s) else s

/-- A write of `CFG_RESET_CTRL`: the numbers, then the requests, the widest first (R417). -/
def State.resetWrite (s : State) (r : RegRow) (v m : Nat) : State :=
  let w := v &&& m
  let s := s.plainWrite unitMgmt r rCFG_RESET_CTRL v m
  if bit w 0 then s.after (execFabricReset true s)
  else
    let s := if bit w 1 then s.after (execPatchReset (BitVec.ofNat 8 (s.fld unitMgmt rCFG_RESET_CTRL 8 8)) s) else s
    if bit w 2 then s.requestReset (s.active.coreOf (s.fld unitMgmt rCFG_RESET_CTRL 16 14)).toList else s

/-- A write of `MNT_BASTE_CFG`: the reference's digest context opens with SEND (R453). -/
def State.basteWrite (s : State) (r : RegRow) (v m : Nat) : State :=
  let was := bit (s.reg unitMgmt rMNT_BASTE_CFG) 0
  let s := s.plainWrite unitMgmt r rMNT_BASTE_CFG v m
  let now := bit (s.reg unitMgmt rMNT_BASTE_CFG) 0
  if now && !was then s.openDigestCtx 1 (s.fld unitMgmt rMNT_BASTE_CFG 4 12)
  else if was && !now then (s.setReg (unitEdge 7) (rVLNK_XCTX_CFG + 0x20 * 511) 0).ctxOpen 4095 0
  else s

/-- A write of a register of the management die. -/
def State.mgmtWrite (s : State) (r : RegRow) (off v m : Nat) : State :=
  let u := unitMgmt
  let w := v &&& m
  if off = rTICK_CTRL then s.tickWrite v m
  else if off = rTICK_COMMIT_SEQ then
    let old := s.gen.commitSeq.toNat
    s.writeSeq (BitVec.ofNat 64 ((old - (old &&& m)) + w))
  else if off = rTICK_TIMING then s.checkedWrite u r off v m (fun x => within x 0 10 1 1000 && within x 16 10 1 1023)
  else if off = rTICK_LAST_ABANDON ∨ off = rCFG_ERROR ∨ off = rCOLL_FAIL then s.clearRecord u off w 63
  else if off = rVLNK_SYS_TIMING then s.checkedWrite u r off v m (fun x => within x 0 10 10 1000 && within x 16 10 1 1000)
  else if off = rPWR_HOST_CAP then (s.checkedWrite u r off v m (fun x => within x 0 16 400 1800)).capNow
  else if off = rPWR_REEF_CFG then s.checkedWrite u r off v m (fun x => within x 0 16 10600 11200)
  else if off = rPWR_SUPPLY_REC then
    if s.clears u off w 63 then { s.putReg u off 0 with boot := { s.boot with supplyRec := 0 } } else s
  else if off = rCLK_PLAN_CTRL then
    let s := s.checkedWrite u r off v m (fun x => within x 16 16 24 8760)
    if bit w 0 then s.queueReplan else s
  else if off = rCFG_RESET_CTRL then s.resetWrite r v m
  else if off = rMNT_REHEARSE_CFG then s.checkedWrite u r off v m (fun x => within x 0 12 1 3600)
  else if off = rMNT_BASTE_CFG then s.basteWrite r v m
  else if off = rTEL_CTRL then
    let s := s.checkedWrite u r off v m (fun x => field x 16 16 != 0)
    if bit w 1 then s.after (execSnap s) else s
  else if off = rTEL_MCTP then s.checkedWrite u r off v m (fun x => within x 16 3 0 4)
  else s.plainWrite u r off v m

/-! Registers of the link dies (R330, R331). -/

/-- A write of a context register: while the context is not closed, only a `CFG` of MODE 0, which closes it, is taken. -/
def State.ctxWrite (s : State) (e : Nat) (r : RegRow) (off v m : Nat) : State :=
  let u := unitEdge e
  let c := 512 * e + (off - rVLNK_XCTX_CFG) / 0x20
  let new := r.written (s.reg u off) v m
  let mode := field new 0 2
  let o := (off - rVLNK_XCTX_CFG) % 0x20
  if o = 0 then
    if mode = 3 then s
    else if mode = 0 then (s.putReg u off new).ctxOpen c 0
    else if (s.ctx c).st ≠ 0 then s
    else (s.putReg u off new).ctxOpen c mode
  else if (s.ctx c).st ≠ 0 then s
  else s.putReg u off new

/-- A write of a register of link die `e`: with EN = 0 its port stays down. -/
def State.linkWrite (s : State) (e : Nat) (r : RegRow) (off v m : Nat) : State :=
  let u := unitEdge e
  let w := v &&& m
  if off = rVLNK_CTRL then
    let s := s.plainWrite u r off v m
    let s := if !bit (s.reg u off) 0 && (s.portState e == 2 || s.portState e == 1) then s.linkDown e else s
    if h : e < 8 then if bit w 1 then s.after (execVlnkCtrlRetrain ⟨e, h⟩ s) else s else s
  else if r.off = rVLNK_XPOST then s
  else if r.off = rCOLL_POST then s.bump u rCOLL_POST_ERR 0 32 1
  else if off = rCOLL_ERR_LAST then if s.clears u off w 31 then (s.putReg u off 0).putReg u rCOLL_ERR_LINE 0 else s
  else if rVLNK_XCTX_CFG ≤ off ∧ off < rVLNK_XCTX_CFG + 0x4000 then s.ctxWrite e r off v m
  else s.plainWrite u r off v m

/-! Registers of BAR0 (R355, R376). -/

/-- The pair whose register array holds an offset. -/
def pairOf (base off : Nat) : Nat := (off - base) / 0x20

/-- A write of a BAR0 register. -/
def State.barWrite (s : State) (r : RegRow) (off v m : Nat) : State :=
  let u := unitBar
  let w := v &&& m
  let whole := r.written (s.reg u off) v m
  if off = rHOST_COMMIT_NOTIFY then s.checkedWrite u r off v m (fun x => field x 32 16 != 0)
  else if off = rHOST_COMMIT_ADDR then s.checkedWrite u r off v m (fun x => x % 8 == 0)
  else if off = rHOST_MEM_CTRL then if bit m 0 then s.after (execHostMemEn (bit w 0) s) else s
  else if off = rHOST_EXPORT_CFG then
    if bit (s.reg u rHOST_MEM_CTRL) 0 then s else s.checkedWrite u r off v m (fun x => within x 0 5 12 24)
  else if off = rHOST_PWIN_BASE then s.checkedWrite u r off v m (fun x => within x 44 4 2 4)
  else if r.off = rHOST_SEG then
    if bit (s.reg u rHOST_MEM_CTRL) 0 then s else s.checkedWrite u r off v m (fun x => segOk x && (segKind x != 2 || s.feature 5))
  else if off = rHOST_FEAT_CTRL then if bit w 0 then s.after (execFeaturesOk s) else s
  else if r.off = rHOST_DRIVER_FEATURES then
    s.after (execHostDriverFeaturesWrite (Fin.ofNat 4 ((off - rHOST_DRIVER_FEATURES) / 8)) (BitVec.ofNat 64 whole) s)
  else if r.off = rHOST_SQ_BASE then if s.qEnabled (pairOf rHOST_SQ_BASE off) then s else s.plainWrite u r off v m
  else if r.off = rHOST_CQ_BASE then if s.qEnabled (pairOf rHOST_CQ_BASE off) then s else s.plainWrite u r off v m
  else if r.off = rHOST_Q_CFG then
    s.after (execQueueEnable (Fin.ofNat 64 (pairOf rHOST_Q_CFG off)) (BitVec.ofNat 64 whole) s)
  else if r.off = rHOST_SQ_TAIL_DB then
    s.after (execSqTailDoorbell (Fin.ofNat 64 ((off - rHOST_SQ_TAIL_DB) / 8)) (BitVec.ofNat 12 w) s)
  else if r.off = rHOST_CQ_HEAD_DB then
    s.after (execCqHeadDoorbell (Fin.ofNat 64 ((off - rHOST_CQ_HEAD_DB) / 8)) (BitVec.ofNat 12 w) s)
  else if off = rHOST_EVENT_HEAD_DB then s.after (execEventHeadDoorbell (BitVec.ofNat 16 w) s)
  else s.plainWrite u r off v m

/-! All holders. -/

/-- A whole register is written, of its bits those of `m`: its RWT bits into the shadow set, the rest by its holder. -/
def State.writeFull (s : State) (u : Nat) (r : RegRow) (off v m : Nat) : State :=
  let s := if r.rwt &&& m = 0 then s
    else
      let old := s.shadow.reg u off
      s.writeRwt u off ((old - (old &&& m)) + (v &&& m))
  if r.rwt ≠ 0 ∧ r.rw ||| r.w1c ||| r.w1s ||| r.wo = 0 then s
  else if u < 0x4000 then s.coreWrite u r off v m
  else if u < 0x5000 then s.dieWrite (u - 0x4000) r off v m
  else if u < 0x5008 then s.linkWrite (u - 0x5000) r off v m
  else if u = unitMgmt then s.mgmtWrite r off v m
  else if u = unitBar then s.barWrite r off v m
  else s.plainWrite u r off v m

/-- A write of a word of the world table by the host bridge die, of its bits those of `m` (R267). -/
def State.worldPut (s : State) (w k v m : Nat) : State :=
  let x := s.world w
  let old := x.word 0 k
  if k = 0 then
    let keep := old - (old &&& 0x14)
    let v := (keep - (keep &&& m)) + (v &&& m)
    if statusRefused (s.feature 1) v = 0 then s.setWorld w (x.writeStatus v) else s
  else
    let v := (old - (old &&& m)) + (v &&& m)
    if worldWordOk k v then s.setWorld w (x.writeWord k v) else s

/-- Write `n` (4 or 8) bytes at offset `off` of holder `u` (R8, R56, R510): a reserved offset ignores the write. -/
def State.regWrite (s : State) (u off n v : Nat) : State :=
  let low := 0xFFFFFFFF
  let all := 2 ^ 64 - 1
  let base := off / 8 * 8
  let half := if n = 8 then all else if off % 8 = 4 then low * 2 ^ 32 else low
  let lifted := if n = 4 ∧ off % 8 = 4 then v % 2 ^ 32 * 2 ^ 32 else v
  match (if u = unitHost then worldOff base else none) with
  | some (w, k) => s.worldPut w k lifted half
  | none =>
    match regRow? u base with
    | some r =>
      if r.bytes = 8 then s.writeFull u r base lifted half
      else
        let s := if off % 8 = 0 then s.writeFull u r base (v % 2 ^ 32) low else s
        let hi := if n = 8 then v / 2 ^ 32 else v
        if n = 8 ∨ off % 8 = 4 then
          match regRow? u (base + 4) with
          | some r2 => s.writeFull u r2 (base + 4) (hi % 2 ^ 32) low
          | none => s
        else s
    | none =>
      match regRow? u (base + 4) with
      | some r2 =>
        let hi := if n = 8 then v / 2 ^ 32 else v
        if r2.bytes = 4 ∧ (n = 8 ∨ off % 8 = 4) then s.writeFull u r2 (base + 4) (hi % 2 ^ 32) low else s
      | none => s

/-- Holder and offset of a place. -/
def regPlace : RegPlace → Nat × Nat
  | .core c off => (unitCore c.val, off.toNat)
  | .die site off => (unitDie site.val, off.toNat)
  | .edge e off => (unitEdge e.val, off.toNat)
  | .bar off => (unitBar, off.toNat)
  | .decoder _ => (unitBar, 0)
  | .config _ => (unitBar, 0)

/-! Configuration space (R335). -/

/-- The IDs of the CXL DVSECs: the one for Devices and the Register Locator. -/
def cxlDvsecs : List Nat := [0, 8]

/-- What a field reads as: the identity, capabilities and DVSECs (R335), the power state (0 D0, 3 D3hot), BAR0/1 and BAR2/3
(R336), the CDAT (R337), the memory bits and the size of Range 1 (R340), the integrity failures (R349), the CXL Reset timeout in
seconds (R351). -/
def State.configValue (s : State) : ConfigField → Nat
  | .vendorId => 0x1E6B
  | .deviceId => 0x0C19
  | .subsystemVendorId => 0x1E6B
  | .subsystemId => 0x0001
  | .classCode => 0x120000
  | .headerType => 0
  | .powerState => if s.host.d3hot then 3 else 0
  | .memInfoValid => 1
  | .memActive => s.fld unitBar rHOST_MEM_CTRL 1 1
  | .range1Size => 2 ^ 40
  | .cxlResetTimeout => 10
  | .capability _ => 1
  | .dvsec id => b2n (cxlDvsecs.contains id.val)
  | .barSize i => if i = 0 then 2 ^ 26 else if i = 2 then 2 ^ 20 else 0
  | .ideFailures => s.host.ideFails
  | .dsmasBase => 0
  | .dsmasBytes => s.host.hdmSize
  | .readLatency => 900
  | .writeLatency => 700
  | .readBandwidth => 100
  | .writeBandwidth => 100

/-- A write of configuration space: the power state takes D0 and D3hot; the other fields take none. -/
def State.configWrite (s : State) (f : ConfigField) (v : Nat) : State :=
  match f with
  | .powerState => if v = 0 ∨ v = 3 then { s with host := { s.host with d3hot := v == 3 } } else s
  | _ => s

/-- A place that only the host reaches, through BAR0 or BAR2. -/
def throughBar : RegPlace → Bool
  | .bar _ => true
  | .decoder _ => true
  | _ => false

/-- In D3hot the panel serves only configuration accesses (R335). -/
def State.serves (s : State) (p : RegPlace) : Bool := !s.host.d3hot || !throughBar p

def accessBytes (wide : Bool) : Nat := if wide then 8 else 4

/-- All ones in `n` bytes. -/
def allOnes (n : Nat) : Nat := 2 ^ (8 * n) - 1

/-- An access of `n` bytes is 4 or 8 bytes and naturally aligned (R354). -/
def accessOk (off n : Nat) : Bool := (n == 4 || n == 8) && off % n == 0

/-- A register read, with its side effects: a place in the telemetry window shows the current snapshot (R481). -/
def State.readAt (s : State) (u off n : Nat) : Nat × State :=
  if u = unitBar ∧ 0x1000000 ≤ off ∧ off < 0x2000000 then
    let x := off - 0x1000000
    (leNat (s.pageBytes (x / 0x10000) (x % 0x10000) n), s)
  else if refusedReg u off then (allOnes n, s)
  else s.regRead u off n

/-- An access through the panel register window, at an offset of the window (R354); an address that the panel refuses reads
all ones. -/
def State.windowRead (s : State) (x n : Nat) : State :=
  match (s.active.target (s.reg unitBar rHOST_PWIN_BASE + x)).bind s.regTarget with
  | none => { s with readData := allOnes n }
  | some (u, off) =>
    let (v, s) := s.readAt u off n
    { s with readData := v }
def State.windowWrite (s : State) (x n v : Nat) : State :=
  match (s.active.target (s.reg unitBar rHOST_PWIN_BASE + x)).bind s.regTarget with
  | none => s
  | some (u, off) => s.regWrite u off n v

/-- The offset of the panel register window in BAR0 (R353). -/
def windowAt : Nat := 0x2000000

/-- ROC_READ: a register is read, and its ROC fields clear (R6). -/
def execRocRead (p : RegPlace) (wide : Bool) (s : State) : Res :=
  let n := accessBytes wide
  let (u, off) := regPlace p
  match p with
  | .config f => .next { s with readData := s.configValue f }
  | .decoder size =>
    .next { s with readData := (if !s.serves p then allOnes n else if size then s.host.hdmSize else s.host.hdmBase) }
  | _ =>
    if !accessOk off n || !s.serves p then .next { s with readData := allOnes n }
    else if u = unitBar ∧ windowAt ≤ off then .next (s.windowRead (off - windowAt) n)
    else
      let (v, s) := s.readAt u off n
      .next { s with readData := v }

/-- REGISTER_WRITE: a register is written by its access codes (R6), by the host bridge die, the management die or the host.
The HDM decoder takes multiples of 256 MiB, and a size of up to 1 TiB (R340). -/
def execRegisterWrite (p : RegPlace) (wide : Bool) (v : BitVec 64) (s : State) : Res :=
  let n := accessBytes wide
  let (u, off) := regPlace p
  match p with
  | .decoder size =>
    when (s.serves p && v.toNat % segSize == 0 && (!size || decide (v.toNat ≤ 2 ^ 40))) s
      (if size then { s with host := { s.host with hdmSize := v.toNat } }
       else { s with host := { s.host with hdmBase := v.toNat } })
  | .config f => .next (s.configWrite f v.toNat)
  | _ =>
    if !accessOk off n || !s.serves p then .next s
    else if u = unitBar ∧ windowAt ≤ off then .next (s.windowWrite (off - windowAt) n v.toNat)
    else .next (s.regWrite u off n v.toNat)

/-- RWT_WRITE: a write to RWT fields lands in the shadow set and clears SEALED, or is ignored while a tack is pending
(R6, R276). -/
def execRwtWrite (p : RegPlace) (wide : Bool) (v : BitVec 64) (s : State) : Res :=
  let n := accessBytes wide
  let (u, off) := regPlace p
  match p with
  | .decoder _ => .next s
  | .config _ => .next s
  | _ => when (accessOk off n && s.serves p) s (s.regWrite u off n v.toNat)

/-- PANEL_REGISTER_WINDOW: an access of `n` bytes at an offset of the window, a write with its data (R354). -/
def execPanelRegisterWindow (off : BitVec 25) (n : Fin 65) (write : Option (BitVec 64)) (s : State) : Res :=
  let x := off.toNat
  match write with
  | none => .next (if accessOk x n.val && !s.host.d3hot then s.windowRead x n.val else { s with readData := allOnes n.val })
  | some v => when (accessOk x n.val && !s.host.d3hot) s (s.windowWrite x n.val v.toNat)

end Sys2Proof.Machine
end

