-- ==== Sys2Proof/Machine/Dispatch.lean ====
section
/-!
DEFINITION. The one dispatch: an arm per command, each a direct call of its meaning.
-/
namespace Sys2Proof.Machine

def exec (i : Instr) (s : State) : Host.Outcome State Fault Refusal :=
  match i with
  | .add a rd ra rb => Sys2Proof.Machine.execAdd a rd ra rb s
  | .sub a rd ra rb => Sys2Proof.Machine.execSub a rd ra rb s
  | .and a rd ra rb => Sys2Proof.Machine.execAnd a rd ra rb s
  | .or a rd ra rb => Sys2Proof.Machine.execOr a rd ra rb s
  | .xor a rd ra rb => Sys2Proof.Machine.execXor a rd ra rb s
  | .andn a rd ra rb => Sys2Proof.Machine.execAndn a rd ra rb s
  | .sll a rd ra rb => Sys2Proof.Machine.execSll a rd ra rb s
  | .srl a rd ra rb => Sys2Proof.Machine.execSrl a rd ra rb s
  | .sra a rd ra rb => Sys2Proof.Machine.execSra a rd ra rb s
  | .ror a rd ra rb => Sys2Proof.Machine.execRor a rd ra rb s
  | .slt a rd ra rb => Sys2Proof.Machine.execSlt a rd ra rb s
  | .sltu a rd ra rb => Sys2Proof.Machine.execSltu a rd ra rb s
  | .min a rd ra rb => Sys2Proof.Machine.execMin a rd ra rb s
  | .max a rd ra rb => Sys2Proof.Machine.execMax a rd ra rb s
  | .minu a rd ra rb => Sys2Proof.Machine.execMinu a rd ra rb s
  | .maxu a rd ra rb => Sys2Proof.Machine.execMaxu a rd ra rb s
  | .mul a rd ra rb => Sys2Proof.Machine.execMul a rd ra rb s
  | .mulhs a rd ra rb => Sys2Proof.Machine.execMulhs a rd ra rb s
  | .mulhu a rd ra rb => Sys2Proof.Machine.execMulhu a rd ra rb s
  | .adds a rd ra rb => Sys2Proof.Machine.execAdds a rd ra rb s
  | .subs a rd ra rb => Sys2Proof.Machine.execSubs a rd ra rb s
  | .divu a rd ra rb => Sys2Proof.Machine.execDivu a rd ra rb s
  | .divs a rd ra rb => Sys2Proof.Machine.execDivs a rd ra rb s
  | .remu a rd ra rb => Sys2Proof.Machine.execRemu a rd ra rb s
  | .rems a rd ra rb => Sys2Proof.Machine.execRems a rd ra rb s
  | .clz a rd ra rb => Sys2Proof.Machine.execClz a rd ra rb s
  | .ctz a rd ra rb => Sys2Proof.Machine.execCtz a rd ra rb s
  | .popc a rd ra rb => Sys2Proof.Machine.execPopc a rd ra rb s
  | .sextb a rd ra rb => Sys2Proof.Machine.execSextb a rd ra rb s
  | .sexth a rd ra rb => Sys2Proof.Machine.execSexth a rd ra rb s
  | .sextw a rd ra rb => Sys2Proof.Machine.execSextw a rd ra rb s
  | .zextw a rd ra rb => Sys2Proof.Machine.execZextw a rd ra rb s
  | .addi a rd ra imm => Sys2Proof.Machine.execAddi a rd ra imm s
  | .andi a rd ra imm => Sys2Proof.Machine.execAndi a rd ra imm s
  | .ori a rd ra imm => Sys2Proof.Machine.execOri a rd ra imm s
  | .xori a rd ra imm => Sys2Proof.Machine.execXori a rd ra imm s
  | .slti a rd ra imm => Sys2Proof.Machine.execSlti a rd ra imm s
  | .sltiu a rd ra imm => Sys2Proof.Machine.execSltiu a rd ra imm s
  | .shi a rd ra imm => Sys2Proof.Machine.execShi a rd ra imm s
  | .lui a rd ra imm => Sys2Proof.Machine.execLui a rd ra imm s
  | .lhi a rd ra imm => Sys2Proof.Machine.execLhi a rd ra imm s
  | .addix a rd ra imm => Sys2Proof.Machine.execAddix a rd ra imm s
  | .beq a ra rb off => Sys2Proof.Machine.execBeq a ra rb off s
  | .bne a ra rb off => Sys2Proof.Machine.execBne a ra rb off s
  | .blt a ra rb off => Sys2Proof.Machine.execBlt a ra rb off s
  | .bge a ra rb off => Sys2Proof.Machine.execBge a ra rb off s
  | .bltu a ra rb off => Sys2Proof.Machine.execBltu a ra rb off s
  | .bgeu a ra rb off => Sys2Proof.Machine.execBgeu a ra rb off s
  | .jal a rd off => Sys2Proof.Machine.execJal a rd off s
  | .jalr a rd ra imm => Sys2Proof.Machine.execJalr a rd ra imm s
  | .lb a rd ra imm => Sys2Proof.Machine.execLb a rd ra imm s
  | .lbu a rd ra imm => Sys2Proof.Machine.execLbu a rd ra imm s
  | .lh a rd ra imm => Sys2Proof.Machine.execLh a rd ra imm s
  | .lhu a rd ra imm => Sys2Proof.Machine.execLhu a rd ra imm s
  | .lw a rd ra imm => Sys2Proof.Machine.execLw a rd ra imm s
  | .lwu a rd ra imm => Sys2Proof.Machine.execLwu a rd ra imm s
  | .ld a rd ra imm => Sys2Proof.Machine.execLd a rd ra imm s
  | .sb a rs ra imm => Sys2Proof.Machine.execSb a rs ra imm s
  | .sh a rs ra imm => Sys2Proof.Machine.execSh a rs ra imm s
  | .sw a rs ra imm => Sys2Proof.Machine.execSw a rs ra imm s
  | .sd a rs ra imm => Sys2Proof.Machine.execSd a rs ra imm s
  | .amoadd a rd ra rb => Sys2Proof.Machine.execAmoadd a rd ra rb s
  | .amoswap a rd ra rb => Sys2Proof.Machine.execAmoswap a rd ra rb s
  | .amocas a rd ra rb => Sys2Proof.Machine.execAmocas a rd ra rb s
  | .amoor a rd ra rb => Sys2Proof.Machine.execAmoor a rd ra rb s
  | .amoand a rd ra rb => Sys2Proof.Machine.execAmoand a rd ra rb s
  | .take a rd ra imm => Sys2Proof.Machine.execTake a rd ra imm s
  | .put a rs ra imm => Sys2Proof.Machine.execPut a rs ra imm s
  | .waitc a rd ra imm => Sys2Proof.Machine.execWaitc a rd ra imm s
  | .mxi a rd ra imm => Sys2Proof.Machine.execMxi a rd ra imm s
  | .vxi a rd ra imm => Sys2Proof.Machine.execVxi a rd ra imm s
  | .dxi a rd ra imm => Sys2Proof.Machine.execDxi a rd ra imm s
  | .wopen a rd ra imm => Sys2Proof.Machine.execWopen a rd ra imm s
  | .wclose a rd ra rb fn => Sys2Proof.Machine.execWclose a rd ra rb fn s
  | .wstat a rd ra rb fn => Sys2Proof.Machine.execWstat a rd ra rb fn s
  | .waitt a rd ra imm => Sys2Proof.Machine.execWaitt a rd ra imm s
  | .waitm a rd ra imm => Sys2Proof.Machine.execWaitm a rd ra imm s
  | .waitp a rd ra imm => Sys2Proof.Machine.execWaitp a rd ra imm s
  | .bar a rd ra imm => Sys2Proof.Machine.execBar a rd ra imm s
  | .hsend a rd ra rb fn => Sys2Proof.Machine.execHsend a rd ra rb fn s
  | .hrecv a rd ra imm => Sys2Proof.Machine.execHrecv a rd ra imm s
  | .tend a rd ra imm => Sys2Proof.Machine.execTend a rd ra imm s
  | .yield a rd ra imm => Sys2Proof.Machine.execYield a rd ra imm s
  | .raise a rd ra imm => Sys2Proof.Machine.execRaise a rd ra imm s
  | .rdpar a rd ra imm => Sys2Proof.Machine.execRdpar a rd ra imm s
  | .rdsys a rd ra imm => Sys2Proof.Machine.execRdsys a rd ra imm s
  | .clrflg a rd ra imm => Sys2Proof.Machine.execClrflg a rd ra imm s
  | .loadDataReturn a => Sys2Proof.Machine.execLoadDataReturn a s
  | .bankGrant c bank err => Sys2Proof.Machine.execBankGrant c bank err s
  | .scrubRead c bank err => Sys2Proof.Machine.execScrubRead c bank err s
  | .taskLaunch c => Sys2Proof.Machine.execTaskLaunch c s
  | .taskEnded a => Sys2Proof.Machine.execTaskEnded a s
  | .descriptorCompletion c eng => Sys2Proof.Machine.execDescriptorCompletion c eng s
  | .copy c desc => Sys2Proof.Machine.execCopy c desc s
  | .copy2d c desc => Sys2Proof.Machine.execCopy2d c desc s
  | .fill c desc => Sys2Proof.Machine.execFill c desc s
  | .mcast c desc => Sys2Proof.Machine.execMcast c desc s
  | .replyArrival acc => Sys2Proof.Machine.execReplyArrival acc s
  | .mma c err => Sys2Proof.Machine.execMma c err s
  | .zacc c => Sys2Proof.Machine.execZacc c s
  | .ldacc c err => Sys2Proof.Machine.execLdacc c err s
  | .addacc c err => Sys2Proof.Machine.execAddacc c err s
  | .stacc c err => Sys2Proof.Machine.execStacc c err s
  | .chain c err => Sys2Proof.Machine.execChain c err s
  | .ldparam c err => Sys2Proof.Machine.execLdparam c err s
  | .ldtile c err => Sys2Proof.Machine.execLdtile c err s
  | .remoteWrite acc => Sys2Proof.Machine.execRemoteWrite acc s
  | .remoteRead acc => Sys2Proof.Machine.execRemoteRead acc s
  | .multicastWrite arr => Sys2Proof.Machine.execMulticastWrite arr s
  | .creditRequest acc => Sys2Proof.Machine.execCreditRequest acc s
  | .heldRequestGrant c => Sys2Proof.Machine.execHeldRequestGrant c s
  | .creditReply acc => Sys2Proof.Machine.execCreditReply acc s
  | .creditRetry c desc => Sys2Proof.Machine.execCreditRetry c desc s
  | .creditReturn c desc => Sys2Proof.Machine.execCreditReturn c desc s
  | .grantExpiry c grant => Sys2Proof.Machine.execGrantExpiry c grant s
  | .closeComplete c win => Sys2Proof.Machine.execCloseComplete c win s
  | .pdReq c banks => Sys2Proof.Machine.execPdReq c banks s
  | .puReq c banks => Sys2Proof.Machine.execPuReq c banks s
  | .autoPowerDown c bank => Sys2Proof.Machine.execAutoPowerDown c bank s
  | .bankPowerDown c bank => Sys2Proof.Machine.execBankPowerDown c bank s
  | .powerDownTimeout c bank => Sys2Proof.Machine.execPowerDownTimeout c bank s
  | .bankPowerUpDone c bank => Sys2Proof.Machine.execBankPowerUpDone c bank s
  | .icinv c => Sys2Proof.Machine.execIcinv c s
  | .icacheInvalidationDone c => Sys2Proof.Machine.execIcacheInvalidationDone c s
  | .launchEn c en => Sys2Proof.Machine.execLaunchEn c en s
  | .taskFaultValidClear a => Sys2Proof.Machine.execTaskFaultValidClear a s
  | .rocRead p wide => Sys2Proof.Machine.execRocRead p wide s
  | .registerWrite p wide v => Sys2Proof.Machine.execRegisterWrite p wide v s
  | .rwtWrite p wide v => Sys2Proof.Machine.execRwtWrite p wide v s
  | .dramRead acc => Sys2Proof.Machine.execDramRead acc s
  | .dramWrite acc err => Sys2Proof.Machine.execDramWrite acc err s
  | .dramReadData site port k err => Sys2Proof.Machine.execDramReadData site port k err s
  | .refresh site port bank => Sys2Proof.Machine.execRefresh site port bank s
  | .patrolRead site port err => Sys2Proof.Machine.execPatrolRead site port err s
  | .dramLimitInterval site port => Sys2Proof.Machine.execDramLimitInterval site port s
  | .thermalSample site temp => Sys2Proof.Machine.execThermalSample site temp s
  | .dramRetire site cmd => Sys2Proof.Machine.execDramRetire site cmd s
  | .packetDieEntry pkt => Sys2Proof.Machine.execPacketDieEntry pkt s
  | .routerForward h => Sys2Proof.Machine.execRouterForward h s
  | .escapeEntry pkt => Sys2Proof.Machine.execEscapeEntry pkt s
  | .mcastBranchDrop pkt => Sys2Proof.Machine.execMcastBranchDrop pkt s
  | .missNotice k => Sys2Proof.Machine.execMissNotice k s
  | .mcastAck k => Sys2Proof.Machine.execMcastAck k s
  | .mcastResend c desc => Sys2Proof.Machine.execMcastResend c desc s
  | .seamLinkFail site exit => Sys2Proof.Machine.execSeamLinkFail site exit s
  | .throttleLevelFall c => Sys2Proof.Machine.execThrottleLevelFall c s
  | .halyardForward h out cls0 => Sys2Proof.Machine.execHalyardForward h out cls0 s
  | .phaseSend tick => Sys2Proof.Machine.execPhaseSend tick s
  | .phase => Sys2Proof.Machine.execPhase s
  | .abandon => Sys2Proof.Machine.execAbandon s
  | .commit => Sys2Proof.Machine.execCommit s
  | .tack => Sys2Proof.Machine.execTack s
  | .control cmd operand node => Sys2Proof.Machine.execControl cmd operand node s
  | .barUp h k => Sys2Proof.Machine.execBarUp h k s
  | .barRel h => Sys2Proof.Machine.execBarRel h s
  | .vote h k => Sys2Proof.Machine.execVote h k s
  | .notice hop => Sys2Proof.Machine.execNotice hop s
  | .dieHb h => Sys2Proof.Machine.execDieHb h s
  | .hist h k slot => Sys2Proof.Machine.execHist h k slot s
  | .user h => Sys2Proof.Machine.execUser h s
  | .userAck h => Sys2Proof.Machine.execUserAck h s
  | .halDebug h => Sys2Proof.Machine.execHalDebug h s
  | .userResend c => Sys2Proof.Machine.execUserResend c s
  | .heartbeat h => Sys2Proof.Machine.execHeartbeat h s
  | .heartbeatTimeout c => Sys2Proof.Machine.execHeartbeatTimeout c s
  | .dieHbTimeout h => Sys2Proof.Machine.execDieHbTimeout h s
  | .startTick fixed eta => Sys2Proof.Machine.execStartTick fixed eta s
  | .tickInEdge => Sys2Proof.Machine.execTickInEdge s
  | .rootVote k => Sys2Proof.Machine.execRootVote k s
  | .tickEnd tick => Sys2Proof.Machine.execTickEnd tick s
  | .overrun tick => Sys2Proof.Machine.execOverrun tick s
  | .commitTimeout tick => Sys2Proof.Machine.execCommitTimeout tick s
  | .resetCopy w bad => Sys2Proof.Machine.execResetCopy w bad s
  | .resetCopyComplete tick => Sys2Proof.Machine.execResetCopyComplete tick s
  | .wctxDoneSet acc => Sys2Proof.Machine.execWctxDoneSet acc s
  | .resetReq w => Sys2Proof.Machine.execResetReq w s
  | .wctxStatusWrite w v => Sys2Proof.Machine.execWctxStatusWrite w v s
  | .heldDxiEnqueue c => Sys2Proof.Machine.execHeldDxiEnqueue c s
  | .run run => Sys2Proof.Machine.execRun run s
  | .stepLeft n => Sys2Proof.Machine.execStepLeft n s
  | .tickCommitSeqWrite v => Sys2Proof.Machine.execTickCommitSeqWrite v s
  | .tackBoundary => Sys2Proof.Machine.execTackBoundary s
  | .tackComplete => Sys2Proof.Machine.execTackComplete s
  | .tackVoteTimeout => Sys2Proof.Machine.execTackVoteTimeout s
  | .collPost acc => Sys2Proof.Machine.execCollPost acc s
  | .scaleFix d => Sys2Proof.Machine.execScaleFix d s
  | .bucketStart d tag => Sys2Proof.Machine.execBucketStart d tag s
  | .unitLineStep w flip bad => Sys2Proof.Machine.execUnitLineStep w flip bad s
  | .collectivePacket n flip => Sys2Proof.Machine.execCollectivePacket n flip s
  | .pairingDeadline d tag => Sys2Proof.Machine.execPairingDeadline d tag s
  | .bucketCompletionReport n => Sys2Proof.Machine.execBucketCompletionReport n s
  | .failureRecord n => Sys2Proof.Machine.execFailureRecord n s
  | .engineStageSignal n => Sys2Proof.Machine.execEngineStageSignal n s
  | .flitReceive idx flit corrected bad => Sys2Proof.Machine.execFlitReceive idx flit corrected bad s
  | .replayTimeout idx => Sys2Proof.Machine.execReplayTimeout idx s
  | .portTraining idx trained peer port dim delay => Sys2Proof.Machine.execPortTraining idx trained peer port dim delay s
  | .vlnkCtrlRetrain idx => Sys2Proof.Machine.execVlnkCtrlRetrain idx s
  | .linkDown idx los => Sys2Proof.Machine.execLinkDown idx los s
  | .endRecord n => Sys2Proof.Machine.execEndRecord n s
  | .offer n => Sys2Proof.Machine.execOffer n s
  | .histUp n => Sys2Proof.Machine.execHistUp n s
  | .abortRecord n => Sys2Proof.Machine.execAbortRecord n s
  | .mark n => Sys2Proof.Machine.execMark n s
  | .token n => Sys2Proof.Machine.execToken n s
  | .sysAbandon n => Sys2Proof.Machine.execSysAbandon n s
  | .histDown n => Sys2Proof.Machine.execHistDown n s
  | .vlnkXpost acc => Sys2Proof.Machine.execVlnkXpost acc s
  | .transferLine n => Sys2Proof.Machine.execTransferLine n s
  | .transferAck n => Sys2Proof.Machine.execTransferAck n s
  | .receiveAckTimer c => Sys2Proof.Machine.execReceiveAckTimer c s
  | .retransmitTimeout c => Sys2Proof.Machine.execRetransmitTimeout c s
  | .pathTimeout c => Sys2Proof.Machine.execPathTimeout c s
  | .transitSlot n => Sys2Proof.Machine.execTransitSlot n s
  | .hostLinkTraining rate width protocols => Sys2Proof.Machine.execHostLinkTraining rate width protocols s
  | .hostLinkTimeout rate width => Sys2Proof.Machine.execHostLinkTimeout rate width s
  | .hostMemoryAccess acc data => Sys2Proof.Machine.execHostMemoryAccess acc data s
  | .cxlMemRead line err => Sys2Proof.Machine.execCxlMemRead line err s
  | .cxlMemWrite line data mask => Sys2Proof.Machine.execCxlMemWrite line data mask s
  | .hostMemEn on => Sys2Proof.Machine.execHostMemEn on s
  | .commitNotification => Sys2Proof.Machine.execCommitNotification s
  | .ideIntegrityFailure => Sys2Proof.Machine.execIdeIntegrityFailure s
  | .msixUnmask v enable => Sys2Proof.Machine.execMsixUnmask v enable s
  | .functionLevelReset => Sys2Proof.Machine.execFunctionLevelReset s
  | .cxlReset => Sys2Proof.Machine.execCxlReset s
  | .conventionalReset => Sys2Proof.Machine.execConventionalReset s
  | .hostLinkLoss => Sys2Proof.Machine.execHostLinkLoss s
  | .panelRegisterWindow off n write => Sys2Proof.Machine.execPanelRegisterWindow off n write s
  | .featuresOk => Sys2Proof.Machine.execFeaturesOk s
  | .hostDriverFeaturesWrite w v => Sys2Proof.Machine.execHostDriverFeaturesWrite w v s
  | .queueEnable q v => Sys2Proof.Machine.execQueueEnable q v s
  | .sqTailDoorbell q v => Sys2Proof.Machine.execSqTailDoorbell q v s
  | .cqHeadDoorbell q v => Sys2Proof.Machine.execCqHeadDoorbell q v s
  | .eventHeadDoorbell v => Sys2Proof.Machine.execEventHeadDoorbell v s
  | .commandFetch q bytes => Sys2Proof.Machine.execCommandFetch q bytes s
  | .completionWrite q => Sys2Proof.Machine.execCompletionWrite q s
  | .identify q cid => Sys2Proof.Machine.execIdentify q cid s
  | .featuresGet q cid => Sys2Proof.Machine.execFeaturesGet q cid s
  | .abort q cid waiting => Sys2Proof.Machine.execAbort q cid waiting s
  | .eventRing q cid => Sys2Proof.Machine.execEventRing q cid s
  | .cfgLoad q cid data => Sys2Proof.Machine.execCfgLoad q cid data s
  | .cfgSeal q cid => Sys2Proof.Machine.execCfgSeal q cid s
  | .cfgTack q cid => Sys2Proof.Machine.execCfgTack q cid s
  | .tickStart q cid => Sys2Proof.Machine.execTickStart q cid s
  | .tickStop q cid => Sys2Proof.Machine.execTickStop q cid s
  | .tickStep q cid => Sys2Proof.Machine.execTickStep q cid s
  | .tickSetSeq q cid => Sys2Proof.Machine.execTickSetSeq q cid s
  | .worldRead q cid => Sys2Proof.Machine.execWorldRead q cid s
  | .worldWrite q cid data => Sys2Proof.Machine.execWorldWrite q cid data s
  | .worldReset q cid => Sys2Proof.Machine.execWorldReset q cid s
  | .worldState q cid => Sys2Proof.Machine.execWorldState q cid s
  | .dmaWrite q cid data => Sys2Proof.Machine.execDmaWrite q cid data s
  | .dmaRead q cid bad => Sys2Proof.Machine.execDmaRead q cid bad s
  | .histRead q cid => Sys2Proof.Machine.execHistRead q cid s
  | .telRead q cid => Sys2Proof.Machine.execTelRead q cid s
  | .powerCap q cid => Sys2Proof.Machine.execPowerCap q cid s
  | .maintStart q cid => Sys2Proof.Machine.execMaintStart q cid s
  | .maintStop q cid => Sys2Proof.Machine.execMaintStop q cid s
  | .faultRehearse q cid => Sys2Proof.Machine.execFaultRehearse q cid s
  | .basteAttach q cid answer => Sys2Proof.Machine.execBasteAttach q cid answer s
  | .bastePromote q cid => Sys2Proof.Machine.execBastePromote q cid s
  | .shardExport q cid => Sys2Proof.Machine.execShardExport q cid s
  | .shardImport q cid => Sys2Proof.Machine.execShardImport q cid s
  | .fwStage q cid data => Sys2Proof.Machine.execFwStage q cid data s
  | .fwActivate q cid => Sys2Proof.Machine.execFwActivate q cid s
  | .fwLiveUpdate q cid => Sys2Proof.Machine.execFwLiveUpdate q cid s
  | .attest q cid req => Sys2Proof.Machine.execAttest q cid req s
  | .converterPhaseFailure idx phase => Sys2Proof.Machine.execConverterPhaseFailure idx phase s
  | .groupOutputShort idx => Sys2Proof.Machine.execGroupOutputShort idx s
  | .converterOvertemp idx => Sys2Proof.Machine.execConverterOvertemp idx s
  | .regionPhaseFailure site r phase => Sys2Proof.Machine.execRegionPhaseFailure site r phase s
  | .regionOvercurrent site r => Sys2Proof.Machine.execRegionOvercurrent site r s
  | .onReq site req => Sys2Proof.Machine.execOnReq site req s
  | .offReq site req => Sys2Proof.Machine.execOffReq site req s
  | .regionStage site r below above => Sys2Proof.Machine.execRegionStage site r below above s
  | .regionTurnOff site r => Sys2Proof.Machine.execRegionTurnOff site r s
  | .contactEstimate site est mv current => Sys2Proof.Machine.execContactEstimate site est mv current s
  | .powerCompare site avg => Sys2Proof.Machine.execPowerCompare site avg s
  | .backstopCheck avg => Sys2Proof.Machine.execBackstopCheck avg s
  | .supplySample mv => Sys2Proof.Machine.execSupplySample mv s
  | .inputHighTimer => Sys2Proof.Machine.execInputHighTimer s
  | .referenceLoss => Sys2Proof.Machine.execReferenceLoss s
  | .holdoverExpiry => Sys2Proof.Machine.execHoldoverExpiry s
  | .pllLockLoss v => Sys2Proof.Machine.execPllLockLoss v s
  | .driftRetraining site e sep => Sys2Proof.Machine.execDriftRetraining site e sep s
  | .retrainingComplete site e ok tracks => Sys2Proof.Machine.execRetrainingComplete site e ok tracks s
  | .marginControl site r code cur => Sys2Proof.Machine.execMarginControl site r code cur s
  | .halfRateSwitch site r => Sys2Proof.Machine.execHalfRateSwitch site r s
  | .fullRateReturn site r => Sys2Proof.Machine.execFullRateReturn site r s
  | .replan => Sys2Proof.Machine.execReplan s
  | .replanInterval => Sys2Proof.Machine.execReplanInterval s
  | .coldReset => Sys2Proof.Machine.execColdReset s
  | .moduleReset pin => Sys2Proof.Machine.execModuleReset pin s
  | .fabricReset byWrite => Sys2Proof.Machine.execFabricReset byWrite s
  | .patchReset g => Sys2Proof.Machine.execPatchReset g s
  | .coreReset core => Sys2Proof.Machine.execCoreReset core s
  | .bringUp f => Sys2Proof.Machine.execBringUp f s
  | .bootStepTimeout => Sys2Proof.Machine.execBootStepTimeout s
  | .identityRecord v dieId badCores badExits => Sys2Proof.Machine.execIdentityRecord v dieId badCores badExits s
  | .broadcastCollection found => Sys2Proof.Machine.execBroadcastCollection found s
  | .lostNotice h => Sys2Proof.Machine.execLostNotice h s
  | .heartbeatResumeTimeout c => Sys2Proof.Machine.execHeartbeatResumeTimeout c s
  | .reload core bad => Sys2Proof.Machine.execReload core bad s
  | .reloadComplete core => Sys2Proof.Machine.execReloadComplete core s
  | .arbiterAdmission => Sys2Proof.Machine.execArbiterAdmission s
  | .seamRetrainActivity site => Sys2Proof.Machine.execSeamRetrainActivity site s
  | .vlnkRetrain idx => Sys2Proof.Machine.execVlnkRetrain idx s
  | .dramRetrain site => Sys2Proof.Machine.execDramRetrain site s
  | .scrub handle => Sys2Proof.Machine.execScrub handle s
  | .marginSweep site r code => Sys2Proof.Machine.execMarginSweep site r code s
  | .ageing site index => Sys2Proof.Machine.execAgeing site index s
  | .phaseTest site ok => Sys2Proof.Machine.execPhaseTest site ok s
  | .contactCheck site est mv current => Sys2Proof.Machine.execContactCheck site est mv current s
  | .spareBist site ok => Sys2Proof.Machine.execSpareBist site ok s
  | .basteDigest digest => Sys2Proof.Machine.execBasteDigest digest s
  | .basteDigestTimeout => Sys2Proof.Machine.execBasteDigestTimeout s
  | .watchdogExpiry => Sys2Proof.Machine.execWatchdogExpiry s
  | .getVersion doe => Sys2Proof.Machine.execGetVersion doe s
  | .getCapabilities doe => Sys2Proof.Machine.execGetCapabilities doe s
  | .negotiateAlgorithms doe => Sys2Proof.Machine.execNegotiateAlgorithms doe s
  | .getDigests doe => Sys2Proof.Machine.execGetDigests doe s
  | .getCertificate doe => Sys2Proof.Machine.execGetCertificate doe s
  | .challenge doe => Sys2Proof.Machine.execChallenge doe s
  | .getMeasurements doe signed => Sys2Proof.Machine.execGetMeasurements doe signed s
  | .keyExchange doe => Sys2Proof.Machine.execKeyExchange doe s
  | .finish doe => Sys2Proof.Machine.execFinish doe s
  | .endSession doe => Sys2Proof.Machine.execEndSession doe s
  | .lmsCosign doe => Sys2Proof.Machine.execLmsCosign doe s
  | .debugToken img => Sys2Proof.Machine.execDebugToken img s
  | .snap => Sys2Proof.Machine.execSnap s
  | .snapshotFlip missing => Sys2Proof.Machine.execSnapshotFlip missing s
  | .slackReport d => Sys2Proof.Machine.execSlackReport d s
  | .telGet page off n => Sys2Proof.Machine.execTelGet page off n s
  | .mctpStatus => Sys2Proof.Machine.execMctpStatus s
  | .mctpEvent => Sys2Proof.Machine.execMctpEvent s
  | .mctpEventRetry => Sys2Proof.Machine.execMctpEventRetry s
  | .referenceReturn => Sys2Proof.Machine.execReferenceReturn s
  | .supplyRecovery => Sys2Proof.Machine.execSupplyRecovery s
  | .vlnkRetrainingComplete idx ok failed => Sys2Proof.Machine.execVlnkRetrainingComplete idx ok failed s
  | .dramRetrainingComplete site port ok => Sys2Proof.Machine.execDramRetrainingComplete site port ok s
  | .liveUpdateEnd started => Sys2Proof.Machine.execLiveUpdateEnd started s
  | .pliwickRestartComplete => Sys2Proof.Machine.execPliwickRestartComplete s
  | .managementMemoryUncorrectable => Sys2Proof.Machine.execManagementMemoryUncorrectable s
  | .ageingInterval site => Sys2Proof.Machine.execAgeingInterval site s
  | .nextAttemptMark => Sys2Proof.Machine.execNextAttemptMark s
  | .lineCreditReturn n => Sys2Proof.Machine.execLineCreditReturn n s
  | .instructionCacheFill a err => Sys2Proof.Machine.execInstructionCacheFill a err s
  | .contextDramReply c err => Sys2Proof.Machine.execContextDramReply c err s
  | .ideKeyManagement cachemem activate => Sys2Proof.Machine.execIdeKeyManagement cachemem activate s
  | .mctpEventAcknowledged => Sys2Proof.Machine.execMctpEventAcknowledged s

end Sys2Proof.Machine
end

