-- ==== Sys2Proof/Machine/Cycle.lean ====
section
/-!
DEFINITION. What a fabric cycle does of itself, while no command waits: each core issues the instruction that its
cache holds for the slot whose turn it is (R36, R42, R61).
-/
namespace Sys2Proof.Machine

/-- The slot of core `p` that issues in this cycle: eligible, with its issue cycle come, and before every other in the
search (R36). -/
def State.issuer (s : State) (p : Nat) : Option (Fin 8) :=
  let c := s.core p
  if s.coreDown p then none
  else (List.finRange 8).find? (fun i =>
    c.mayIssue (c.slot i.val) && decide (c.issueTime i.val ≤ s.now) && c.itsTurn s.now i.val)

/-- The slot issues the word at its program counter: what the word spells, or a fault ILLEGAL_INSTRUCTION where it spells
nothing (R61). -/
def State.issueWord (s : State) (a : At) : Res :=
  let c := s.core a.core.val
  let sl := c.slot a.slot.val
  match Sys2Proof.decodeWord a (c.wordOf sl) (c.secondWord sl) with
  | some i => exec i s
  | none => tpIssue a 4 (c.wordOf sl) false id s

/-- Core `p` issues in this cycle. -/
def State.issueCore (s : State) (p : Nat) : Res :=
  match s.issuer p with
  | some i => if h : p < 10200 then s.issueWord ⟨⟨p, h⟩, i⟩ else .next s
  | none => .next s

/-- The cores of a list issue, one after the other. -/
def State.issueCores : State → List Nat → Res
  | s, [] => .next s
  | s, p :: ps =>
    match s.issueCore p with
    | .next s' => s'.issueCores ps
    | .fault f => .fault f
    | .refused r => .refused r

/-- One fabric cycle: the cores issue, writes that wait at edge dies are tried again, and time goes on (DESIGN CHOICE,
log 2). -/
def State.cycle (s : State) : Res :=
  match s.issueCores (s.cores.map (·.1)) with
  | .next s' => .next { s'.retryEdge with now := s'.retryEdge.now + 1 }
  | .fault f => .fault f
  | .refused r => .refused r

end Sys2Proof.Machine
end

