-- ==== Sys2Proof/Machine/Step.lean ====
section
/-!
DEFINITION. One step of the panel: the command at the front of the queue, or one fabric cycle while none waits.
-/
namespace Sys2Proof.Machine

/-- The command at the front of the queue acts on the panel with the rest of the queue; on an empty queue a fabric cycle
passes, in which the cores issue (DESIGN CHOICE, log 2). -/
def step (s : State) : Host.Outcome State Fault Refusal :=
  match s.pending with
  | [] => s.cycle
  | c :: rest => exec c { s with pending := rest }

/-- The command that a word spells, put at the front of the queue. -/
def State.withFetchWord (s : State) (nbits w : Nat) : State :=
  match Sys2Proof.decodeTableWord nbits w with
  | none => s
  | some c => { s with pending := c :: s.pending }

end Sys2Proof.Machine
end

