-- ==== Sys2Proof/Safety.lean ====
section
/-!
DEFINITION. What counts as a safe step and run, and the canonical form of the panel's memories.
-/
namespace Sys2Proof.Machine

/-- A step goes on: it neither faults nor is refused. -/
def State.goesOn (s : State) : Prop := ∃ t, step s = .next t

/-- `t` comes of `s` by `n` steps that all go on. -/
def State.reaches : Nat → State → State → Prop
  | 0, s, t => s = t
  | n + 1, s, t => ∃ u, step s = .next u ∧ State.reaches n u t

/-- The canonical form of an addressed memory: keys strictly rising, no listed byte equal to what an unlisted one reads as,
zero. -/
def Memory.wf (m : SMap Byte) : Bool := SMap.wf (fun _ => (0 : Byte)) m

/-- Host memory, every scratchpad and every DRAM stack are in canonical form. -/
def State.memoriesCanonical (s : State) : Bool :=
  Memory.wf s.hostMem && s.cores.all (fun e => Memory.wf e.2.spad.bytes) && s.drams.all (fun e => Memory.wf e.2.bytes)

end Sys2Proof.Machine
end

