-- ==== Sys2Proof/WellFormed.lean ====
section
/-!
DEFINITION. Well-formed commands: those whose operands have the sizes that the spec gives them.
-/
namespace Sys2Proof

/-- A flit is 256 bytes (R310), a submission queue entry 64 (R365), a line of the memory window 64 (R340). The types of the
other operands admit no value that the panel does not have. -/
def Instr.wf : Instr → Bool
  | .flitReceive _ flit _ _ => flit.length == 256
  | .commandFetch _ bytes => bytes.length == 64
  | .cxlMemWrite _ data _ => data.length == 64
  | _ => true

end Sys2Proof
end

