-- ==== Sys2Proof/Certificates/Slice0/Obligations.lean ====
section
/-!
DEFINITION. The statements for the provers: the vocabulary they share, then one definition per statement.
-/

namespace Sys2Proof.Claims

open Sys2Proof.Machine

/-! The issue of a task processor instruction. -/

/-- The slot a command names. -/
abbrev at_ (s : State) (a : At) : Slot := s.slot a.core.val a.slot.val

/-- An instruction of `len` bytes issues from slot `a`: the slot is READY with no scratchpad access under way, its core
stands still neither in a dark region nor on a stopped die, no other slot of the core comes before it, and the fetch lies in the code segment with its bytes in the
instruction cache (R36, R40, R42, R71). -/
def Fires (s : State) (a : At) (len : Nat) : Prop :=
  (at_ s a).mode = .ready ∧ (at_ s a).mem = none ∧ s.coreDown a.core.val = false
    ∧ (s.core a.core.val).itsTurn s.now a.slot.val = true ∧ (at_ s a).pc.toNat + len ≤ (at_ s a).seg.codeBound
    ∧ (s.core a.core.val).fetchPresent (at_ s a) len = true

/-- The cycle the instruction issues in: the first from now on in which the slot and its core can issue (R36, R86). -/
def issueCycle (s : State) (a : At) : Nat :=
  Nat.max s.now (Nat.max (at_ s a).readyAt (s.core a.core.val).issueAt)

/-- The slot as its next instruction finds it: a division's register write has landed (R86), and the tokens that were due by
then are complete (R79). -/
abbrev own (s : State) (a : At) : Slot := (at_ s a).flush.ripen (issueCycle s a)

/-- What an issue from slot `a` leaves alone: every other core; of this core everything but its slots, the slot that
issued last, the next issue cycle and the parts `f` resets to what they were; of the other slots everything but the end
of their YIELD; and of the panel everything but time and the parts `g` resets. -/
def IssueFrame (s t : State) (a : At) (f : Core → Core) (g : State → State) : Prop :=
  t.now = issueCycle s a
    ∧ (t.core a.core.val).lastSlot = a.slot.val
    ∧ (t.core a.core.val).issueAt = issueCycle s a + 1
    ∧ (∀ q, q ≠ a.core.val → t.core q = s.core q)
    ∧ f { t.core a.core.val with
          slots := (s.core a.core.val).slots, lastSlot := (s.core a.core.val).lastSlot,
          issueAt := (s.core a.core.val).issueAt } = s.core a.core.val
    ∧ (∀ j, j ≠ a.slot.val →
        { t.slot a.core.val j with
          yielding := (s.slot a.core.val j).yielding, readyAt := (s.slot a.core.val j).readyAt } = s.slot a.core.val j)
    ∧ g { t with now := s.now, cores := s.cores } = s

/-- The slot behind an instruction of `len` bytes that takes one cycle (R86). -/
def stepped (s : State) (a : At) (len : Nat) (sl : Slot) : Slot :=
  { sl with
    pc := (own s a).pc + BitVec.ofNat 64 len, branchFrom := none, readyAt := issueCycle s a + 1, yielding := false }

/-- The sources of an instruction as numbers. -/
abbrev un (s : State) (a : At) (r : Reg) : Nat := ((own s a).reg r).toNat
abbrev sg (s : State) (a : At) (r : Reg) : Int := ((own s a).reg r).toInt

/-- R64: the slot, destination and result of an integer register instruction with two sources. -/
def integerResult (s : State) : Instr → Option (At × Reg × Word)
  | .add a rd ra rb => some (a, rd, BitVec.ofNat 64 (un s a ra + un s a rb))
  | .sub a rd ra rb => some (a, rd, BitVec.ofInt 64 ((un s a ra : Int) - un s a rb))
  | .and a rd ra rb => some (a, rd, BitVec.ofNat 64 (un s a ra &&& un s a rb))
  | .or a rd ra rb => some (a, rd, BitVec.ofNat 64 (un s a ra ||| un s a rb))
  | .xor a rd ra rb => some (a, rd, BitVec.ofNat 64 (un s a ra ^^^ un s a rb))
  | .andn a rd ra rb => some (a, rd, BitVec.ofNat 64 (un s a ra &&& (2 ^ 64 - 1 - un s a rb)))
  | .sll a rd ra rb => some (a, rd, BitVec.ofNat 64 (un s a ra * 2 ^ (un s a rb % 64)))
  | .srl a rd ra rb => some (a, rd, BitVec.ofNat 64 (un s a ra / 2 ^ (un s a rb % 64)))
  | .sra a rd ra rb => some (a, rd, BitVec.ofInt 64 (sg s a ra / 2 ^ (un s a rb % 64)))
  | .ror a rd ra rb => some (a, rd, ((own s a).reg ra).rotateRight (un s a rb % 64))
  | .slt a rd ra rb => some (a, rd, if sg s a ra < sg s a rb then 1 else 0)
  | .sltu a rd ra rb => some (a, rd, if un s a ra < un s a rb then 1 else 0)
  | .min a rd ra rb => some (a, rd, BitVec.ofInt 64 (Min.min (sg s a ra) (sg s a rb)))
  | .max a rd ra rb => some (a, rd, BitVec.ofInt 64 (Max.max (sg s a ra) (sg s a rb)))
  | .minu a rd ra rb => some (a, rd, BitVec.ofNat 64 (Nat.min (un s a ra) (un s a rb)))
  | .maxu a rd ra rb => some (a, rd, BitVec.ofNat 64 (Nat.max (un s a ra) (un s a rb)))
  | .mul a rd ra rb => some (a, rd, BitVec.ofInt 64 (sg s a ra * sg s a rb))
  | .mulhs a rd ra rb => some (a, rd, BitVec.ofInt 64 (sg s a ra * sg s a rb / 2 ^ 64))
  | .mulhu a rd ra rb => some (a, rd, BitVec.ofNat 64 (un s a ra * un s a rb / 2 ^ 64))
  | _ => none

/-- R66: the exact sum or difference of a saturating instruction. -/
def saturatingExact (s : State) : Instr → Option (At × Reg × Int)
  | .adds a rd ra rb => some (a, rd, sg s a ra + sg s a rb)
  | .subs a rd ra rb => some (a, rd, sg s a ra - sg s a rb)
  | _ => none

/-- R65: the result of a division, and its three special cases. -/
def divisionResult (s : State) : Instr → Option (At × Reg × Word)
  | .divu a rd ra rb =>
      some (a, rd, if un s a rb = 0 then BitVec.allOnes 64 else BitVec.ofNat 64 (un s a ra / un s a rb))
  | .remu a rd ra rb =>
      some (a, rd, if un s a rb = 0 then (own s a).reg ra else BitVec.ofNat 64 (un s a ra % un s a rb))
  | .divs a rd ra rb =>
      some (a, rd, if un s a rb = 0 then BitVec.allOnes 64
        else if sg s a ra = -(2 ^ 63) ∧ sg s a rb = -1 then (own s a).reg ra
        else BitVec.ofInt 64 ((sg s a ra).tdiv (sg s a rb)))
  | .rems a rd ra rb =>
      some (a, rd, if un s a rb = 0 then (own s a).reg ra
        else if sg s a ra = -(2 ^ 63) ∧ sg s a rb = -1 then 0
        else BitVec.ofInt 64 ((sg s a ra).tmod (sg s a rb)))
  | _ => none

/-- The leading zero bits of a 64-bit number. -/
def leadingZeros (x : Nat) : Nat := if x = 0 then 64 else 63 - Nat.log2 x
/-- Its one bits. -/
def oneBits (x : Nat) : Nat := ((List.range 64).map (fun i => x / 2 ^ i % 2)).sum

/-- R64: the instructions of one source, whose RB field must be zero: `v` is the result in RD. -/
def UnaryResult (s : State) (v : Word) : Instr → At × Reg → Prop
  | .clz a rd ra rb, x => x = (a, rd) ∧ rb = 0 ∧ v.toNat = leadingZeros (un s a ra)
  | .ctz a rd ra rb, x => x = (a, rd) ∧ rb = 0 ∧
      (if un s a ra = 0 then v.toNat = 64 else 2 ^ v.toNat ∣ un s a ra ∧ ¬ 2 ^ (v.toNat + 1) ∣ un s a ra)
  | .popc a rd ra rb, x => x = (a, rd) ∧ rb = 0 ∧ v.toNat = oneBits (un s a ra)
  | .sextb a rd ra rb, x => x = (a, rd) ∧ rb = 0 ∧ v.toInt = toSigned 8 (un s a ra)
  | .sexth a rd ra rb, x => x = (a, rd) ∧ rb = 0 ∧ v.toInt = toSigned 16 (un s a ra)
  | .sextw a rd ra rb, x => x = (a, rd) ∧ rb = 0 ∧ v.toInt = toSigned 32 (un s a ra)
  | .zextw a rd ra rb, x => x = (a, rd) ∧ rb = 0 ∧ v.toNat = un s a ra % 2 ^ 32
  | _, _ => False

/-- The instructions of one source, with the slot and RD, when their RB field is zero. -/
def unaryForm : Instr → Option (At × Reg)
  | .clz a rd _ rb => if rb = 0 then some (a, rd) else none
  | .ctz a rd _ rb => if rb = 0 then some (a, rd) else none
  | .popc a rd _ rb => if rb = 0 then some (a, rd) else none
  | .sextb a rd _ rb => if rb = 0 then some (a, rd) else none
  | .sexth a rd _ rb => if rb = 0 then some (a, rd) else none
  | .sextw a rd _ rb => if rb = 0 then some (a, rd) else none
  | .zextw a rd _ rb => if rb = 0 then some (a, rd) else none
  | _ => none

/-- R67: the slot, length, destination and result of an instruction with an immediate, where its reserved bits are zero. -/
def immediateResult (s : State) : Instr → Option (At × Nat × Reg × Word)
  | .addi a rd ra imm => some (a, 4, rd, BitVec.ofInt 64 (sg s a ra + imm.toInt))
  | .andi a rd ra imm => some (a, 4, rd, BitVec.ofNat 64 (un s a ra &&& imm.toNat))
  | .ori a rd ra imm => some (a, 4, rd, BitVec.ofNat 64 (un s a ra ||| imm.toNat))
  | .xori a rd ra imm => some (a, 4, rd, BitVec.ofNat 64 (un s a ra ^^^ imm.toNat))
  | .slti a rd ra imm => some (a, 4, rd, if sg s a ra < imm.toInt then 1 else 0)
  | .sltiu a rd ra imm => some (a, 4, rd, if un s a ra < (BitVec.ofInt 64 imm.toInt).toNat then 1 else 0)
  | .shi a rd ra imm =>
      if imm.toNat < 256 then
        some (a, 4, rd,
          if imm.toNat < 64 then BitVec.ofNat 64 (un s a ra * 2 ^ imm.toNat)
          else if imm.toNat < 128 then BitVec.ofNat 64 (un s a ra / 2 ^ (imm.toNat - 64))
          else if imm.toNat < 192 then BitVec.ofInt 64 (sg s a ra / 2 ^ (imm.toNat - 128))
          else ((own s a).reg ra).rotateRight (imm.toNat - 192))
      else none
  | .lui a rd ra imm => if ra = 0 then some (a, 4, rd, BitVec.ofInt 64 (imm.toInt * 2 ^ 16)) else none
  | .lhi a rd ra imm => some (a, 4, rd, BitVec.ofNat 64 (un s a ra % 2 ^ 48 + imm.toNat * 2 ^ 48))
  | .addix a rd ra imm => some (a, 8, rd, BitVec.ofInt 64 (sg s a ra + imm.toInt))
  | _ => none

/-- R68, R69: the slot, the target if the branch is taken, and the link register (0: none) of a branch or jump. -/
def flowResult (s : State) : Instr → Option (At × Option Word × Reg)
  | .beq a ra rb off => some (a, if un s a ra = un s a rb then some (to16 s a off) else none, 0)
  | .bne a ra rb off => some (a, if un s a ra ≠ un s a rb then some (to16 s a off) else none, 0)
  | .blt a ra rb off => some (a, if sg s a ra < sg s a rb then some (to16 s a off) else none, 0)
  | .bge a ra rb off => some (a, if sg s a rb ≤ sg s a ra then some (to16 s a off) else none, 0)
  | .bltu a ra rb off => some (a, if un s a ra < un s a rb then some (to16 s a off) else none, 0)
  | .bgeu a ra rb off => some (a, if un s a rb ≤ un s a ra then some (to16 s a off) else none, 0)
  | .jal a rd off => some (a, some (BitVec.ofInt 64 ((own s a).pc.toNat + 4 * off.toInt)), rd)
  | .jalr a rd ra imm =>
      some (a, some (BitVec.ofNat 64 ((BitVec.ofInt 64 (sg s a ra + imm.toInt)).toNat / 4 * 4)), rd)
  | _ => none
where
  /-- PC + 4 × sext(OFF). -/
  to16 (s : State) (a : At) (off : BitVec 16) : Word := BitVec.ofInt 64 ((own s a).pc.toNat + 4 * off.toInt)

end Sys2Proof.Claims

open Sys2Proof Sys2Proof.Machine Sys2Proof.Claims

/-- R62: register g0 reads as zero and discards writes; any other register holds what was last written to it, and a write
leaves every other register and every other part of the slot as they are. -/
def Obligations.GeneralRegisters : Prop :=
  ∀ (sl : Slot) (r q : Nat) (v : Word),
    sl.reg 0 = 0 ∧ sl.setReg 0 v = sl
      ∧ (r ≠ 0 → (sl.setReg r v).reg r = v)
      ∧ (q ≠ r → (sl.setReg r v).reg q = sl.reg q)
      ∧ { sl.setReg r v with regs := sl.regs } = sl

/-- R64, R86: every integer register instruction of two sources that issues writes its result to RD, goes to the next
instruction, and changes nothing else. -/
def Sys2Proof.Claims.IntegerResults : Prop :=
  ∀ (s : State) (i : Instr) (a : At) (rd : Reg) (v : Word),
    integerResult s i = some (a, rd, v) → Fires s a 4 →
      ∃ t, exec i s = .next t
        ∧ at_ t a = stepped s a 4 ((own s a).setReg rd v)
        ∧ IssueFrame s t a id id

/-- R66: ADDS and SUBS write the exact sum or difference clamped to the signed 64-bit range, and set SAT exactly when it
lies outside; SAT is sticky. -/
def Sys2Proof.Claims.SaturatingResults : Prop :=
  ∀ (s : State) (i : Instr) (a : At) (rd : Reg) (x : Int),
    saturatingExact s i = some (a, rd, x) → Fires s a 4 →
      ∃ t, exec i s = .next t
        ∧ at_ t a = stepped s a 4
            { (own s a).setReg rd (BitVec.ofInt 64 (Max.max (-(2 ^ 63)) (Min.min (2 ^ 63 - 1) x))) with
              sat := (own s a).sat || decide (x < -(2 ^ 63) ∨ 2 ^ 63 - 1 < x) }
        ∧ IssueFrame s t a id id

/-- R65, R86: a division or remainder writes the result, with the special cases of a zero divisor and of the overflow, when
the slot next issues, which is 33 further cycles away. -/
def Obligations.DivisionResults : Prop :=
  ∀ (s : State) (i : Instr) (a : At) (rd : Reg) (v : Word),
    divisionResult s i = some (a, rd, v) → Fires s a 4 →
      ∃ t, exec i s = .next t
        ∧ (at_ t a).flush = { stepped s a 4 ((own s a).setReg rd v) with readyAt := issueCycle s a + 34 }
        ∧ (∀ r, (at_ t a).reg r = (own s a).reg r)
        ∧ IssueFrame s t a id id

/-- R64: CLZ, CTZ, POPC and the extensions of one source. -/
def Sys2Proof.Claims.UnaryResults : Prop :=
  ∀ (s : State) (i : Instr) (a : At) (rd : Reg),
    unaryForm i = some (a, rd) → Fires s a 4 →
      ∃ t v, exec i s = .next t ∧ UnaryResult s v i (a, rd)
        ∧ at_ t a = stepped s a 4 ((own s a).setReg rd v)
        ∧ IssueFrame s t a id id

/-- R67: the immediate instructions, ADDIX with its two words. -/
def Sys2Proof.Claims.ImmediateResults : Prop :=
  ∀ (s : State) (i : Instr) (a : At) (len : Nat) (rd : Reg) (v : Word),
    immediateResult s i = some (a, len, rd, v) → Fires s a len →
      ∃ t, exec i s = .next t
        ∧ at_ t a = stepped s a len ((own s a).setReg rd v)
        ∧ IssueFrame s t a id id

/-- R68, R69, R86: a branch not taken goes to the next instruction; a branch taken or a jump goes to its target, and the slot
may issue again one cycle later than otherwise; a jump links the address of the next instruction in RD. -/
def Obligations.BranchResults : Prop :=
  ∀ (s : State) (i : Instr) (a : At) (target : Option Word) (rd : Reg),
    flowResult s i = some (a, target, rd) → Fires s a 4 →
      ∃ t, exec i s = .next t
        ∧ at_ t a = (match target with
            | none => stepped s a 4 (own s a)
            | some x => { stepped s a 4 ((own s a).setReg rd ((own s a).pc + 4)) with
                pc := x, branchFrom := some (own s a).pc, readyAt := issueCycle s a + 2 })
        ∧ IssueFrame s t a id id

/-- The results of the integer instructions (R64, R67, R86). -/
def Obligations.IntegerResults : Prop := Claims.IntegerResults ∧ Claims.UnaryResults ∧ Claims.ImmediateResults

/-- An integer instruction other than ADDS and SUBS, with its slot and length. -/
def Sys2Proof.Claims.IsInteger (s : State) (i : Instr) (a : At) (len : Nat) : Prop :=
  (len = 4 ∧ ((∃ x, integerResult s i = some (a, x)) ∨ (∃ x, divisionResult s i = some (a, x)) ∨ (∃ x, unaryForm i = some (a, x))))
    ∨ ∃ x, immediateResult s i = some (a, len, x)

/-- R66: ADDS and SUBS write the exact signed result clamped to the signed 64-bit range and set SAT when it lies outside; every
other integer instruction leaves SAT as it is. -/
def Obligations.SaturationAndItsFlag : Prop :=
  Claims.SaturatingResults
    ∧ ∀ (s : State) (i : Instr) (a : At) (len : Nat), Claims.IsInteger s i a len → Fires s a len →
        ∃ t, exec i s = .next t ∧ (at_ t a).sat = (own s a).sat

namespace Sys2Proof.Claims

open Sys2Proof.Machine

/-- A physical core as an index. -/
abbrev corep (a : At) : Nat := a.core.val

/-- The slots of a core other than `i`, but for the ends of YIELD and the tokens that were due; a slot that was WAITING may have
had its wait end. -/
def OtherSlots (s t : State) (a : At) : Prop :=
  ∀ j, j < 8 → j ≠ a.slot.val → (s.slot (corep a) j).mode ≠ .waiting →
    { t.slot (corep a) j with
      yielding := (s.slot (corep a) j).yielding, readyAt := (s.slot (corep a) j).readyAt }
      = (s.slot (corep a) j).ripen (issueCycle s a)

/-- What the issue of an instruction that may end waits leaves alone: the other cores, the scratchpad, the launches, the
cache, the engines and the histograms of this core, its slots that did not wait, and the rest of the panel but for the parts
`g` resets. -/
def WaitFrame (s t : State) (a : At) (g : State → State) : Prop :=
  t.now = issueCycle s a
    ∧ (∀ q, q ≠ corep a → t.core q = s.core q)
    ∧ (t.core (corep a)).spad = (s.core (corep a)).spad
    ∧ (t.core (corep a)).launches = (s.core (corep a)).launches
    ∧ (t.core (corep a)).icache = (s.core (corep a)).icache
    ∧ (t.core (corep a)).dma = (s.core (corep a)).dma
    ∧ (t.core (corep a)).mxu = (s.core (corep a)).mxu
    ∧ (t.core (corep a)).vec = (s.core (corep a)).vec
    ∧ (t.core (corep a)).hist = (s.core (corep a)).hist
    ∧ OtherSlots s t a
    ∧ g { t with now := s.now, cores := s.cores } = s

/-- A task fault of slot `i` of core `p`, whose slot was `x` (R52, R55, R226): FAULTED, its registers and tokens kept; the
fault record takes its first fault, and a later one only sets OVF; the core's fault count rises, and a NOTICE of kind 0 and
one of kind 3 wait at its node, the latter with the event TASK_FAULT where none waited there before. -/
def FaultFrom (x : Slot) (s t : State) (p i : Nat) (code : Nat) (pc addr : Word) : Prop :=
  (t.slot p i).mode = .faulted ∧ (t.slot p i).mem = none ∧ (t.slot p i).wait = .none
    ∧ (t.slot p i).regs = x.regs ∧ (t.slot p i).tokens = x.tokens ∧ (t.slot p i).pc = x.pc
    ∧ (t.slot p i).faultValid = true
    ∧ (x.faultValid = false →
        (t.slot p i).faultCode = BitVec.ofNat 8 code ∧ (t.slot p i).faultPc = pc.truncate 32 ∧ (t.slot p i).faultAddr = addr
          ∧ (t.slot p i).faultOvf = x.faultOvf)
    ∧ (x.faultValid = true →
        (t.slot p i).faultCode = x.faultCode ∧ (t.slot p i).faultPc = x.faultPc
          ∧ (t.slot p i).faultAddr = x.faultAddr ∧ (t.slot p i).faultOvf = true)
    ∧ t.fld (unitCore p) rCORE_FAULT_COUNT 0 32 = Nat.min (2 ^ 32 - 1) (s.fld (unitCore p) rCORE_FAULT_COUNT 0 32 + 1)
    ∧ t.events = s.events
    ∧ (t.core p).node.notices.any (fun n => n.kind == 0) = true
    ∧ (∃ n ∈ (t.core p).node.notices, n.kind = 3
        ∧ ((∀ m ∈ (s.core p).node.notices, m.kind ≠ 3) → ∃ e, n.event = some e ∧ e.code = 0x10 ∧ e.sev = .info
          ∧ e.src = ⟨p / 50, p % 50, false, i⟩ ∧ e.tick = some x.tick ∧ e.ahead = x.runahead))
    ∧ (∀ q, q ≠ p → t.core q = s.core q)
    ∧ (t.core p).spad.bytes = (s.core p).spad.bytes

/-- A task fault of slot `a` in the issue cycle of its instruction. -/
def Faulted (s t : State) (a : At) (code : Nat) (pc addr : Word) : Prop :=
  FaultFrom (own s a) s t (corep a) a.slot.val code pc addr

/-- Slot `j` issues before slot `i` (R36): it is eligible in an earlier cycle, or in the same one and comes first in the search
that ascends from the slot after the one that issued last. -/
def ComesBefore (s : State) (p i j : Nat) : Prop :=
  j < 8 ∧ j ≠ i ∧ (s.core p).mayIssue (s.slot p j) = true
    ∧ ∀ ti tj, ti = Nat.max s.now (Nat.max (s.slot p i).readyAt (s.core p).issueAt) →
      tj = Nat.max s.now (Nat.max (s.slot p j).readyAt (s.core p).issueAt) →
        tj < ti ∨ (tj = ti ∧ (j + 15 - (s.core p).lastSlot) % 8 < (i + 15 - (s.core p).lastSlot) % 8)

/-- R59–R63: the slot, the length in bytes and the first word of every task processor instruction, and whether its reserved
fields are zero. -/
def tpForm : Instr → Option (At × Nat × Nat × Bool)
  | .add a d x y => r a 1 d x y 0x000 | .sub a d x y => r a 1 d x y 0x001 | .and a d x y => r a 1 d x y 0x002
  | .or a d x y => r a 1 d x y 0x003 | .xor a d x y => r a 1 d x y 0x004 | .andn a d x y => r a 1 d x y 0x005
  | .sll a d x y => r a 1 d x y 0x006 | .srl a d x y => r a 1 d x y 0x007 | .sra a d x y => r a 1 d x y 0x008
  | .ror a d x y => r a 1 d x y 0x009 | .slt a d x y => r a 1 d x y 0x00A | .sltu a d x y => r a 1 d x y 0x00B
  | .min a d x y => r a 1 d x y 0x00C | .max a d x y => r a 1 d x y 0x00D | .minu a d x y => r a 1 d x y 0x00E
  | .maxu a d x y => r a 1 d x y 0x00F | .mul a d x y => r a 1 d x y 0x010 | .mulhs a d x y => r a 1 d x y 0x011
  | .mulhu a d x y => r a 1 d x y 0x012 | .adds a d x y => r a 1 d x y 0x013 | .subs a d x y => r a 1 d x y 0x014
  | .divu a d x y => r a 1 d x y 0x015 | .divs a d x y => r a 1 d x y 0x016 | .remu a d x y => r a 1 d x y 0x017
  | .rems a d x y => r a 1 d x y 0x018
  | .clz a d x y => u a d x y 0x020 | .ctz a d x y => u a d x y 0x021 | .popc a d x y => u a d x y 0x022
  | .sextb a d x y => u a d x y 0x023 | .sexth a d x y => u a d x y 0x024 | .sextw a d x y => u a d x y 0x025
  | .zextw a d x y => u a d x y 0x026
  | .addi a d x m => i a 0x02 d x m true | .andi a d x m => i a 0x03 d x m true | .ori a d x m => i a 0x04 d x m true
  | .xori a d x m => i a 0x05 d x m true | .slti a d x m => i a 0x06 d x m true | .sltiu a d x m => i a 0x07 d x m true
  | .shi a d x m => i a 0x08 d x m (m.toNat / 256 = 0) | .lui a d x m => i a 0x09 d x m (x = 0)
  | .lhi a d x m => i a 0x0A d x m true
  | .addix a d x m => some (a, 8, 0x3E + 2 ^ 6 * d.val + 2 ^ 11 * x.val + 2 ^ 16 * (m.toNat / 2 ^ 32), true)
  | .beq a x y o => b a 0x10 x y o | .bne a x y o => b a 0x11 x y o | .blt a x y o => b a 0x12 x y o
  | .bge a x y o => b a 0x13 x y o | .bltu a x y o => b a 0x14 x y o | .bgeu a x y o => b a 0x15 x y o
  | .jal a d o => some (a, 4, 0x16 + 2 ^ 6 * d.val + 2 ^ 11 * o.toNat, true)
  | .jalr a d x m => i a 0x17 d x m true
  | .lb a d x m => i a 0x18 d x m true | .lbu a d x m => i a 0x19 d x m true | .lh a d x m => i a 0x1A d x m true
  | .lhu a d x m => i a 0x1B d x m true | .lw a d x m => i a 0x1C d x m true | .lwu a d x m => i a 0x1D d x m true
  | .ld a d x m => i a 0x1E d x m true | .sb a d x m => i a 0x20 d x m true | .sh a d x m => i a 0x21 d x m true
  | .sw a d x m => i a 0x22 d x m true | .sd a d x m => i a 0x23 d x m true
  | .amoadd a d x y => r a 0x24 d x y 0 | .amoswap a d x y => r a 0x24 d x y 1 | .amocas a d x y => r a 0x24 d x y 2
  | .amoor a d x y => r a 0x24 d x y 3 | .amoand a d x y => r a 0x24 d x y 4
  | .take a d x m => i a 0x26 d x m true | .put a d x m => i a 0x27 d x m true
  | .mxi a d x m => i a 0x28 d x m true | .vxi a d x m => i a 0x29 d x m true | .dxi a d x m => i a 0x2A d x m true
  | .wopen a d x m => i a 0x2C d x m true
  | .wclose a d x y f => f11 a 0x2D d x y f (y = 0 ∧ f = 0)
  | .wstat a d x y f => f11 a 0x2E d x y f (y = 0 ∧ f.toNat ≤ 1)
  | .waitt a d x m => i a 0x30 d x m (m = 0) | .waitm a d x m => i a 0x31 d x m true
  | .waitp a d x m => i a 0x32 d x m (x = 0 ∧ m.toNat ≤ 15) | .waitc a d x m => i a 0x33 d x m (d = 0)
  | .bar a d x m => i a 0x34 d x m (d = 0 ∧ x = 0 ∧ m.toNat ≤ 63)
  | .hsend a d x y f => f11 a 0x35 d x y f (d = 0 ∧ f.toNat ≤ 15)
  | .hrecv a d x m => i a 0x36 d x m (x = 0 ∧ m.toNat / 16 % 2 ^ 11 = 0)
  | .tend a d x m => i a 0x38 d x m (d = 0 ∧ x = 0 ∧ m = 0) | .yield a d x m => i a 0x39 d x m (d = 0 ∧ x = 0 ∧ m = 0)
  | .raise a d x m => i a 0x3A d x m (d = 0 ∧ m = 0) | .rdpar a d x m => i a 0x3B d x m (x = 0 ∧ m.toNat ≤ 15)
  | .rdsys a d x m => i a 0x3C d x m (x = 0 ∧ m.toNat ≤ 15)
  | .clrflg a d x m => i a 0x3D d x m (d = 0 ∧ x = 0 ∧ m.toNat ≤ 63)
  | _ => none
where
  r (a : At) (op : Nat) (d x y : Reg) (fn : Nat) : Option (At × Nat × Nat × Bool) :=
    some (a, 4, op + 2 ^ 6 * d.val + 2 ^ 11 * x.val + 2 ^ 16 * y.val + 2 ^ 21 * fn, true)
  u (a : At) (d x y : Reg) (fn : Nat) : Option (At × Nat × Nat × Bool) :=
    some (a, 4, 1 + 2 ^ 6 * d.val + 2 ^ 11 * x.val + 2 ^ 16 * y.val + 2 ^ 21 * fn, decide (y = 0))
  i (a : At) (op : Nat) (d x : Reg) (m : BitVec 16) (ok : Bool) : Option (At × Nat × Nat × Bool) :=
    some (a, 4, op + 2 ^ 6 * d.val + 2 ^ 11 * x.val + 2 ^ 16 * m.toNat, ok)
  b (a : At) (op : Nat) (x y : Reg) (o : BitVec 16) : Option (At × Nat × Nat × Bool) :=
    some (a, 4, op + 2 ^ 6 * x.val + 2 ^ 11 * y.val + 2 ^ 16 * o.toNat, true)
  f11 (a : At) (op : Nat) (d x y : Reg) (f : BitVec 11) (ok : Bool) : Option (At × Nat × Nat × Bool) :=
    some (a, 4, op + 2 ^ 6 * d.val + 2 ^ 11 * x.val + 2 ^ 16 * y.val + 2 ^ 21 * f.toNat, ok)

/-- R70, R72, R73, R78: the slot, kind, destination register, task-relative address and stored or operand value of an
instruction that accesses the scratchpad. -/
def accessForm (s : State) : Instr → Option (At × MemKind × Reg × Word × Word)
  | .lb a d x m => some (a, .load 1 true, d, ea s a x m, 0)
  | .lbu a d x m => some (a, .load 1 false, d, ea s a x m, 0)
  | .lh a d x m => some (a, .load 2 true, d, ea s a x m, 0)
  | .lhu a d x m => some (a, .load 2 false, d, ea s a x m, 0)
  | .lw a d x m => some (a, .load 4 true, d, ea s a x m, 0)
  | .lwu a d x m => some (a, .load 4 false, d, ea s a x m, 0)
  | .ld a d x m => some (a, .load 8 false, d, ea s a x m, 0)
  | .sb a v x m => some (a, .store 1, 0, ea s a x m, (own s a).reg v)
  | .sh a v x m => some (a, .store 2, 0, ea s a x m, (own s a).reg v)
  | .sw a v x m => some (a, .store 4, 0, ea s a x m, (own s a).reg v)
  | .sd a v x m => some (a, .store 8, 0, ea s a x m, (own s a).reg v)
  | .amoadd a d x y => some (a, .amoAdd, d, (own s a).reg x, (own s a).reg y)
  | .amoswap a d x y => some (a, .amoSwap, d, (own s a).reg x, (own s a).reg y)
  | .amocas a d x y => some (a, .amoCas, d, (own s a).reg x, (own s a).reg y)
  | .amoor a d x y => some (a, .amoOr, d, (own s a).reg x, (own s a).reg y)
  | .amoand a d x y => some (a, .amoAnd, d, (own s a).reg x, (own s a).reg y)
  | .take a d x m => some (a, .take (decide (2 ^ 15 ≤ m.toNat)), d, ea15 s a x m, 0)
  | .put a v x m => some (a, .put (decide (2 ^ 15 ≤ m.toNat)), 0, ea15 s a x m, (own s a).reg v)
  | .wopen a d x m => some (a, .wopen, d, ea s a x m, 0)
  | _ => none
where
  /-- ra + sext(IMM). -/
  ea (s : State) (a : At) (x : Reg) (m : BitVec 16) : Word := BitVec.ofInt 64 (sg s a x + m.toInt)
  /-- ra + IMM[14:0] sign-extended from bit 14. -/
  ea15 (s : State) (a : At) (x : Reg) (m : BitVec 16) : Word := BitVec.ofInt 64 (sg s a x + toSigned 15 m.toNat)

/-- The bytes of an access (R70). -/
def accessBytes : MemKind → Nat
  | .load n _ => n
  | .store n => n
  | .wopen => 32
  | .mxi => 64
  | .vxi => 64
  | .dxi => 64
  | _ => 8

end Sys2Proof.Claims

/-- R36, R40, R42, R68: no task processor instruction does anything while its slot is not READY or has a scratchpad access
under way, while its core stands still, or while another slot comes before it; a fetch that leaves the code segment faults with CODE_BOUND, the recorded program
counter being that of the taken branch that led there; and nothing issues while its bytes are not in the cache. -/
def Sys2Proof.Claims.FetchTraps : Prop :=
  ∀ (s : State) (i : Instr) (a : At) (len word : Nat) (ok : Bool),
    tpForm i = some (a, len, word, ok) →
      (((at_ s a).mode ≠ .ready ∨ (at_ s a).mem ≠ none ∨ s.coreDown (corep a) = true
          ∨ ∃ j, ComesBefore s (corep a) a.slot.val j) → exec i s = .next s)
      ∧ ((at_ s a).mode = .ready → (at_ s a).mem = none → s.coreDown (corep a) = false →
          (∀ j, ¬ ComesBefore s (corep a) a.slot.val j) →
          ((at_ s a).seg.codeBound < (at_ s a).pc.toNat + len →
            ∃ t, exec i s = .next t
              ∧ Faulted s t a 0x02 ((at_ s a).branchFrom.getD (at_ s a).pc) (at_ s a).pc)
          ∧ ((at_ s a).pc.toNat + len ≤ (at_ s a).seg.codeBound →
              (s.core (corep a)).fetchPresent (at_ s a) len = false → exec i s = .next s))

/-- R61, R63: an instruction with a reserved field that is not zero takes the fault ILLEGAL_INSTRUCTION, with its first word
as the fault value. -/
def Sys2Proof.Claims.ReservedFieldTraps : Prop :=
  ∀ (s : State) (i : Instr) (a : At) (len word : Nat),
    tpForm i = some (a, len, word, false) → Fires s a len →
      ∃ t, exec i s = .next t ∧ Faulted s t a 0x01 (own s a).pc (BitVec.ofNat 64 word)

/-- R70–R73, R78: an access of a load, store, atomic, TAKE or PUT, or the descriptor read of a WOPEN, that lies in the scratchpad segment and is aligned waits at its
bank, in the order of issue, and the slot goes on behind it; else the fault is SPAD_BOUND, before SPAD_MISALIGNED. -/
def Obligations.AccessIssue : Prop :=
  ∀ (s : State) (i : Instr) (a : At) (k : MemKind) (rd : Reg) (ta v : Word),
    accessForm s i = some (a, k, rd, ta, v) → Fires s a 4 →
      (ta.toNat + accessBytes k ≤ (own s a).seg.spadBound → accessBytes k ∣ ta.toNat →
        ∃ t op, exec i s = .next t
          ∧ at_ t a = { stepped s a 4 (own s a) with mem := some op }
          ∧ op.kind = k ∧ op.rd = rd.val ∧ op.off = (own s a).seg.spadBase + ta.toNat ∧ op.taskAddr = ta ∧ op.val = v
          ∧ op.oldRd = (own s a).reg rd ∧ op.seq = (s.core (corep a)).memSeq ∧ op.reply = none
          ∧ (t.core (corep a)).memSeq = (s.core (corep a)).memSeq + 1
          ∧ IssueFrame s t a (fun c => { c with memSeq := (s.core (corep a)).memSeq }) id)
      ∧ ((own s a).seg.spadBound < ta.toNat + accessBytes k →
          ∃ t, exec i s = .next t ∧ Faulted s t a 0x04 (own s a).pc ta)
      ∧ (ta.toNat + accessBytes k ≤ (own s a).seg.spadBound → ¬ accessBytes k ∣ ta.toNat →
          ∃ t, exec i s = .next t ∧ Faulted s t a 0x05 (own s a).pc ta)

/-- Where an instruction traps before it has any effect (R40, R59, R61). -/
def Obligations.Traps : Prop :=
  Claims.FetchTraps ∧ Claims.ReservedFieldTraps

namespace Sys2Proof.Claims

open Sys2Proof.Machine

/-- The slot waits on `w` behind its instruction (R75). -/
def waitingOn (s : State) (a : At) (w : WaitOn) : Slot := { stepped s a 4 (own s a) with mode := .waiting, wait := w }

/-- The slot goes on with `v` in RD and `sl` otherwise: its wait is over at once. -/
def wokenWith (s : State) (a : At) (rd : Reg) (v : Nat) (sl : Slot) : Slot :=
  { stepped s a 4 (sl.setReg rd (BitVec.ofNat 64 v)) with wait := .none }

/-- Token `t` of a mask is the lowest completed one (R45). -/
def LowestDone (sl : Slot) (m : BitVec 16) (t st : Nat) : Prop :=
  t < 16 ∧ m.getLsbD t = true ∧ sl.token t = .completed st
    ∧ ∀ u, u < t → m.getLsbD u = true → ∀ x, sl.token u ≠ .completed x

/-- The mask of WAITM (R75). -/
def waitMask (s : State) (a : At) (ra : Reg) (imm : BitVec 16) : BitVec 16 :=
  BitVec.ofNat 16 (un s a ra % 2 ^ 16 ||| imm.toNat)

/-- The slot whose completed token `k` is consumed (R45). -/
def consumed (sl : Slot) (k : Nat) : Slot :=
  { sl.setToken k .free with due := sl.due.filter (fun e => e.2.1 != k) }

/-- Token `k` will not complete in a cycle that is known already (R79). -/
def NotDue (sl : Slot) (k : Nat) : Prop := ∀ e ∈ sl.due, e.2.1 ≠ k

/-- A FREE entry of a free list is the lowest. -/
def LowestFreeToken (sl : Slot) (t : Nat) : Prop :=
  t < 16 ∧ sl.token t = .free ∧ ∀ u, u < t → sl.token u ≠ .free

/-- The values of RDPAR (R57, R83): index 0 is CORE_ID, 9 CORE_CLOCK with the half-rate bit, 1 to 8 the other parameter
registers, the format fields without those not negotiated (R358); the rest read zero. -/
def parameter (s : State) (p k : Nat) : Nat :=
  if k = 0 then
    (match s.gid p with
      | none => 0
      | some g => g / 48 + 2 ^ 8 * (g % 48) + 2 ^ 16 * g) + 2 ^ 32 * (p % 50) + 2 ^ 40 * (p / 50)
  else if k = 9 then setField (s.reg (unitCore p) rCORE_CLOCK) 32 1 (b2n (s.halfRate p))
  else if k ≤ 8 then (s.viewFormats p (0x100 + 8 * k)).getD (s.reg (unitCore p) (0x100 + 8 * k))
  else 0

/-- The values of RDSYS (R84) in the issue cycle. -/
def systemValue (s : State) (a : At) (k : Nat) : Nat :=
  if k = 0 then issueCycle s a - Nat.max (s.core (corep a)).resetAt s.boot.fabricAt
  else if k = 1 then (own s a).tick
  else if k = 2 then s.edges (own s a).tick - 1
  else if k = 3 then s.gen.nodeSeq.toNat
  else if k = 4 then (own s a).fpFlags.toNat + 32 * b2n (own s a).sat + 64 * b2n (own s a).runahead
  else if k = 5 then a.slot.val + 2 ^ 8 * (own s a).taskId.toNat + 2 ^ 24 * ((own s a).patch % 256)
  else if k = 6 then
    ((List.range 16).map (fun t => match (own s a).token t with
      | .free => 0
      | .busy => 2 ^ t
      | .completed 0 => 2 ^ (16 + t)
      | .completed _ => 2 ^ (32 + t))).sum
  else 0

/-- The instructions that read a value into RD (R83, R84), where their reserved fields are zero. -/
def readForm (s : State) : Instr → Option (At × Reg × Nat)
  | .rdpar a rd ra imm => if ra = 0 ∧ imm.toNat ≤ 15 then some (a, rd, parameter s (corep a) imm.toNat) else none
  | .rdsys a rd ra imm => if ra = 0 ∧ imm.toNat ≤ 15 then some (a, rd, systemValue s a imm.toNat) else none
  | _ => none

/-- The words of an access hold no uncorrectable error. -/
def Clean (sp : Spad) (o n : Nat) : Prop := ∀ w, o / 8 * 8 ≤ w → w < o + n → w % 8 = 0 → sp.isUe w = false

/-- The descriptor reads of one engine that wait at a bank of the core. -/
def readsWaiting (s : State) (p : Nat) (k : MemKind) : Nat :=
  ((List.range 8).filter (fun j => match (s.slot p j).mem with
    | some m => m.kind == k
    | none => false)).length

/-- The engine-issue instructions (R74): slot, RD, task-relative descriptor address, the kind of the descriptor read, and
whether the queue has no place, descriptors on their way to it counted. -/
def engineForm (s : State) : Instr → Option (At × Reg × Word × MemKind × Bool)
  | .mxi a rd ra imm =>
      some (a, rd, BitVec.ofInt 64 (sg s a ra + imm.toInt), .mxi,
        decide (4 ≤ (s.core (corep a)).mxu.queue.length + readsWaiting s (corep a) .mxi))
  | .vxi a rd ra imm =>
      some (a, rd, BitVec.ofInt 64 (sg s a ra + imm.toInt), .vxi,
        decide (4 ≤ (s.core (corep a)).vec.queue.length + readsWaiting s (corep a) .vxi))
  | .dxi a rd ra imm =>
      some (a, rd, BitVec.ofInt 64 (sg s a ra + imm.toInt), .dxi,
        decide (16 ≤ (s.core (corep a)).dma.queue.length + readsWaiting s (corep a) .dxi))
  | _ => none

/-- HRECV of slot `a` may take the message: its channel, and the TICKP of the slot's tick (R82, R231). -/
def ForSlot (s : State) (a : At) (imm : BitVec 16) (m : UserMsg) : Prop :=
  m.chan = imm.toNat % 16 ∧ m.tick % 2 = (own s a).tick % 2

/-- A flag of the slot that a descriptor set in the issue cycle (R83). -/
def freshFlag (s : State) (a : At) (k : Nat) : Bool :=
  decide ((own s a).flagsAt.1 = issueCycle s a) && (own s a).flagsAt.2.getLsbD k

end Sys2Proof.Claims

/-- R45, R75, R79: WAITT on a BUSY token waits; on a completed one RD takes its status, the token is FREE and the slot goes
on; on a FREE one the fault is TOKEN_INVALID. A token that is due goes to its waiting slot in the cycle it completes in, and the
slot may issue in the next. WAITM does so for the lowest completed token of its mask, with the token's number above the status;
it waits while the mask holds a BUSY token and none completed. -/
def Sys2Proof.Claims.TokenWaits : Prop :=
  ∀ (s : State) (a : At) (rd ra : Reg) (imm : BitVec 16), Fires s a 4 →
    (imm = 0 → ∀ k, k = un s a ra % 16 →
      ((own s a).token k = .busy → NotDue (own s a) k →
        ∃ t, exec (.waitt a rd ra imm) s = .next t ∧ at_ t a = waitingOn s a (.token rd.val k) ∧ WaitFrame s t a id)
      ∧ (∀ c st before after, (own s a).token k = .busy → (own s a).due = before ++ (c, k, st) :: after →
          (∀ e ∈ before, e.2.1 ≠ k) →
        ∃ t, exec (.waitt a rd ra imm) s = .next t
          ∧ at_ t a = { wokenWith s a rd st (consumed (own s a) k) with readyAt := Nat.max (issueCycle s a + 1) (c + 1) }
          ∧ WaitFrame s t a id)
      ∧ (∀ st, (own s a).token k = .completed st →
        ∃ t, exec (.waitt a rd ra imm) s = .next t
          ∧ at_ t a = wokenWith s a rd st (consumed (own s a) k) ∧ WaitFrame s t a id)
      ∧ ((own s a).token k = .free →
        ∃ t, exec (.waitt a rd ra imm) s = .next t ∧ Faulted s t a 0x0C (own s a).pc (BitVec.ofNat 64 k)))
    ∧ (∀ k st, LowestDone (own s a) (waitMask s a ra imm) k st →
        ∃ t, exec (.waitm a rd ra imm) s = .next t
          ∧ at_ t a = wokenWith s a rd (st + 256 * k) (consumed (own s a) k) ∧ WaitFrame s t a id)
    ∧ ((∀ k, k < 16 → (waitMask s a ra imm).getLsbD k = true →
          (∀ st, (own s a).token k ≠ .completed st) ∧ NotDue (own s a) k) →
        (∃ k, k < 16 ∧ (waitMask s a ra imm).getLsbD k = true ∧ (own s a).token k = .busy) →
          ∃ t, exec (.waitm a rd ra imm) s = .next t
            ∧ at_ t a = waitingOn s a (.mask rd.val (waitMask s a ra imm)) ∧ WaitFrame s t a id)
    ∧ (∀ k c st before after, k < 16 → (waitMask s a ra imm).getLsbD k = true →
        (∀ u, u < 16 → (waitMask s a ra imm).getLsbD u = true → ∀ x, (own s a).token u ≠ .completed x) →
        (∃ u, u < 16 ∧ (waitMask s a ra imm).getLsbD u = true ∧ (own s a).token u = .busy) →
        (∀ u, u < k → (waitMask s a ra imm).getLsbD u = true → NotDue (own s a) u) →
        (own s a).due = before ++ (c, k, st) :: after → (∀ e ∈ before, e.2.1 ≠ k) →
          ∃ t, exec (.waitm a rd ra imm) s = .next t
            ∧ at_ t a = { wokenWith s a rd (st + 256 * k) (consumed (own s a) k) with
                readyAt := Nat.max (issueCycle s a + 1) (c + 1) }
            ∧ WaitFrame s t a id)
    ∧ ((∀ k, k < 16 → (waitMask s a ra imm).getLsbD k = true → (own s a).token k = .free) →
        ∃ t, exec (.waitm a rd ra imm) s = .next t
          ∧ Faulted s t a 0x0C (own s a).pc ((waitMask s a ra imm).zeroExtend 64))

/-- R75, R76, R108: WAITP returns 0 once its phase edge has passed, 1 when the tick's program has no such phase, and else
waits; WAITC waits until the full bit of its channel slot is as asked, and goes on at once where no channel window holds the
address. -/
def Sys2Proof.Claims.PhaseAndChannelWaits : Prop :=
  ∀ (s : State) (a : At) (rd ra : Reg) (imm : BitVec 16), Fires s a 4 →
    (ra = 0 → imm.toNat ≤ 15 →
      (imm.toNat < s.edges (own s a).tick →
        ∃ t, exec (.waitp a rd ra imm) s = .next t ∧ at_ t a = wokenWith s a rd 0 (own s a) ∧ WaitFrame s t a id)
      ∧ (s.edges (own s a).tick ≤ imm.toNat → s.tickPhases (own s a).tick ≤ imm.toNat →
        ∃ t, exec (.waitp a rd ra imm) s = .next t
          ∧ at_ t a = stepped s a 4 ((own s a).setReg rd 1) ∧ WaitFrame s t a id)
      ∧ (s.edges (own s a).tick ≤ imm.toNat → imm.toNat < s.tickPhases (own s a).tick →
        ∃ t, exec (.waitp a rd ra imm) s = .next t
          ∧ at_ t a = waitingOn s a (.phase rd.val imm.toNat) ∧ WaitFrame s t a id))
    ∧ (rd = 0 → ∀ ta : Word, ta = BitVec.ofInt 64 (sg s a ra + toSigned 15 imm.toNat) →
        ta.toNat + 8 ≤ (own s a).seg.spadBound → 8 ∣ ta.toNat →
        ∃ t, exec (.waitc a rd ra imm) s = .next t ∧ WaitFrame s t a id
          ∧ at_ t a =
            (match (s.spad (corep a)).chanAt ((own s a).seg.spadBase + ta.toNat) with
            | none => { stepped s a 4 (own s a) with wait := .none }
            | some (w, i) =>
              if ((s.spad (corep a)).win w).isFull i = decide (imm.toNat < 2 ^ 15) then
                { stepped s a 4 (own s a) with wait := .none }
              else waitingOn s a (.channel ((own s a).seg.spadBase + ta.toNat) (decide (imm.toNat < 2 ^ 15)))))

/-- R77, R230: BAR at a barrier its core takes no part in goes on at once; else it registers the slot, for the episode under
way or, after the core's arrival, for the next one, and waits; with the last registration of its core expected, the core
arrives at its hub. -/
def Sys2Proof.Claims.BarrierRegistration : Prop :=
  ∀ (s : State) (a : At) (imm : BitVec 16) (n : Nat), Fires s a 4 → imm.toNat ≤ 63 →
    n = Nat.min 8 (s.rwt (unitCore (corep a)) (rHAL_BAR_EXPECT + 8 * (imm.toNat / 16)) (4 * (imm.toNat % 16)) 4) →
    ∀ key, key = 64 * ((own s a).tick % 2) + imm.toNat →
      (n = 0 → ∃ t, exec (.bar a 0 0 imm) s = .next t ∧ at_ t a = stepped s a 4 (own s a) ∧ IssueFrame s t a id id)
      ∧ (n ≠ 0 → SMap.get none (s.core (corep a)).node.barArrived key = none →
          ∃ t, exec (.bar a 0 0 imm) s = .next t
            ∧ at_ t a = waitingOn s a (.barrier imm.toNat false)
            ∧ SMap.get 0 (t.core (corep a)).node.barCount key = SMap.get 0 (s.core (corep a)).node.barCount key + 1
            ∧ (SMap.get 0 (s.core (corep a)).node.barCount key + 1 < n →
                SMap.get none (t.core (corep a)).node.barArrived key = none ∧ t.hubs = s.hubs)
            ∧ (n ≤ SMap.get 0 (s.core (corep a)).node.barCount key + 1 →
                SMap.get none (t.core (corep a)).node.barArrived key = some (issueCycle s a)
                  ∧ corep a ∈ SMap.get [] (t.hub (corep a / 50)).bars key)
            ∧ IssueFrame s t a (fun c => { c with node := (s.core (corep a)).node }) (fun u => { u with hubs := s.hubs }))
      ∧ (n ≠ 0 → SMap.get none (s.core (corep a)).node.barArrived key ≠ none →
          ∃ t, exec (.bar a 0 0 imm) s = .next t
            ∧ at_ t a = waitingOn s a (.barrier imm.toNat true)
            ∧ SMap.get 0 (t.core (corep a)).node.barNext key = SMap.get 0 (s.core (corep a)).node.barNext key + 1
            ∧ (t.core (corep a)).node.barCount = (s.core (corep a)).node.barCount
            ∧ IssueFrame s t a (fun c => { c with node := (s.core (corep a)).node }) id)

/-- R81, R82, R260: HSEND puts its message at the end of the send queue of its node, or waits with it while its task runs
ahead; a destination that no core serves faults with ADDRESS_ERROR. HRECV takes the oldest message of its channel and
of the ticks of its own TICKP (R231); without one it waits, or with POLL writes zero. -/
def Obligations.UserMessages : Prop :=
  ∀ (s : State) (a : At) (rd ra rb : Reg) (fn : BitVec 11) (imm : BitVec 16), Fires s a 4 →
    (fn.toNat ≤ 15 →
      ((own s a).runahead = false → (s.core (corep a)).node.sendQ.length < 8 → un s a rb ≤ 9215 →
        s.active.site (un s a rb / 48) ≠ none →
          ∃ t, exec (.hsend a 0 ra rb fn) s = .next t
            ∧ at_ t a = stepped s a 4 (own s a)
            ∧ (t.core (corep a)).node.sendQ.map UserSend.msg = (s.core (corep a)).node.sendQ.map UserSend.msg
                ++ [{ chan := fn.toNat, dest := un s a rb, sender := (s.gid (corep a)).getD 0x3FFF,
                      tick := (own s a).tick, att := (own s a).att, payload := BitVec.ofNat 32 (un s a ra) }]
            ∧ IssueFrame s t a (fun c => { c with node := (s.core (corep a)).node }) (fun u => { u with hubs := s.hubs }))
      ∧ ((own s a).runahead = true → un s a rb ≤ 9215 → s.active.site (un s a rb / 48) ≠ none →
          ∃ t, exec (.hsend a 0 ra rb fn) s = .next t
            ∧ at_ t a = waitingOn s a (.held (.hsend fn.toNat (un s a rb) (BitVec.ofNat 32 (un s a ra))))
            ∧ IssueFrame s t a id (fun u => { u with regs := s.regs, hw := s.hw }))
      ∧ (((own s a).runahead = true ∨ (s.core (corep a)).node.sendQ.length < 8) →
          (9215 < un s a rb ∨ s.active.site (un s a rb / 48) = none) →
          ∃ t, exec (.hsend a 0 ra rb fn) s = .next t ∧ Faulted s t a 0x09 (own s a).pc ((own s a).reg rb)))
    ∧ (imm.toNat / 16 % 2 ^ 11 = 0 →
      (∀ m before after, (s.core (corep a)).node.recvQ = before ++ m :: after → ForSlot s a imm m →
        (∀ x ∈ before, ¬ ForSlot s a imm x) →
          ∃ t, exec (.hrecv a rd 0 imm) s = .next t
            ∧ at_ t a = stepped s a 4 ((own s a).setReg rd
                (BitVec.ofNat 64 (m.payload.toNat + 2 ^ 32 * (m.sender % 2 ^ 14) + 2 ^ 63)))
            ∧ (t.core (corep a)).node.recvQ = before ++ after
            ∧ IssueFrame s t a (fun c => { c with node := (s.core (corep a)).node }) id)
      ∧ ((∀ x ∈ (s.core (corep a)).node.recvQ, ¬ ForSlot s a imm x) →
          ∃ t, exec (.hrecv a rd 0 imm) s = .next t
            ∧ (2 ^ 15 ≤ imm.toNat → at_ t a = stepped s a 4 ((own s a).setReg rd 0))
            ∧ (imm.toNat < 2 ^ 15 →
                at_ t a = waitingOn s a (.message rd.val (imm.toNat % 16) (issueCycle s a)))))

/-- R83, R84: RDPAR and RDSYS write the parameter or system value of their index to RD; YIELD stands back for 8 cycles;
CLRFLG clears the flags its mask names but those set in that very cycle, and no other. -/
def Sys2Proof.Claims.SystemInstructions : Prop :=
  ∀ (s : State) (a : At), Fires s a 4 →
    (∀ i rd v, readForm s i = some (a, rd, v) →
      ∃ t, exec i s = .next t ∧ at_ t a = stepped s a 4 ((own s a).setReg rd (BitVec.ofNat 64 v))
        ∧ IssueFrame s t a id id)
    ∧ (∃ t, exec (.yield a 0 0 0) s = .next t
        ∧ at_ t a = { stepped s a 4 (own s a) with readyAt := issueCycle s a + 9, yielding := true }
        ∧ IssueFrame s t a id id)
    ∧ (∀ imm : BitVec 16, imm.toNat ≤ 63 →
        ∃ t f, exec (.clrflg a 0 0 imm) s = .next t
          ∧ at_ t a = { stepped s a 4 (own s a) with
              fpFlags := f, sat := (own s a).sat && (!imm.getLsbD 5 || freshFlag s a 5) }
          ∧ (∀ k, k < 5 → f.getLsbD k = ((own s a).fpFlags.getLsbD k && (!imm.getLsbD k || freshFlag s a k)))
          ∧ IssueFrame s t a id id)

/-- R51, R83: TEND makes the slot ENDING with its tokens and registers as they are, and closes the windows the task opened
without PERSIST once no token is BUSY; RAISE takes the fault RAISED with ra as its value. -/
def Sys2Proof.Claims.TaskEndAndRaise : Prop :=
  ∀ (s : State) (a : At) (ra : Reg), Fires s a 4 →
    (∃ t, exec (.tend a 0 0 0) s = .next t
      ∧ at_ t a = { stepped s a 4 (own s a) with mode := .ending }
      ∧ ((own s a).anyBusy = true → IssueFrame s t a id id)
      ∧ ((own s a).anyBusy = false → ∀ w g, (w, g) ∈ (own s a).opened → ((s.spad (corep a)).win w).isOpen = true →
          ((s.spad (corep a)).win w).gen = g →
            ((t.spad (corep a)).win w).closing = true ∨ ((t.spad (corep a)).win w).isOpen = false))
    ∧ (∃ t, exec (.raise a 0 ra 0) s = .next t ∧ Faulted s t a 0x0E (own s a).pc ((own s a).reg ra))

/-- R43, R44, R74: an engine-issue instruction whose descriptor address is in bounds and aligned, whose queue has a place and
whose task has a FREE token reads its descriptor at its bank and holds its slot; with the queue full it does not issue; without a
FREE token it faults with TOKEN_EXHAUSTED, behind SPAD_BOUND and SPAD_MISALIGNED. -/
def Obligations.EngineIssue : Prop :=
  ∀ (s : State) (i : Instr) (a : At) (rd : Reg) (ta : Word) (k : MemKind) (full : Bool),
    engineForm s i = some (a, rd, ta, k, full) → Fires s a 4 →
      (ta.toNat + 64 ≤ (own s a).seg.spadBound → 64 ∣ ta.toNat →
        (full = true → exec i s = .next s)
        ∧ (full = false → (∀ u, u < 16 → (own s a).token u ≠ .free) →
            ∃ t, exec i s = .next t ∧ Faulted s t a 0x0B (own s a).pc ta)
        ∧ (full = false → (∃ u, u < 16 ∧ (own s a).token u = .free) →
            ∃ t op, exec i s = .next t
              ∧ at_ t a = { stepped s a 4 (own s a) with mem := some op }
              ∧ op.kind = k ∧ op.rd = rd.val ∧ op.off = (own s a).seg.spadBase + ta.toNat ∧ op.taskAddr = ta
              ∧ op.seq = (s.core (corep a)).memSeq ∧ op.reply = none
              ∧ (t.core (corep a)).memSeq = (s.core (corep a)).memSeq + 1
              ∧ IssueFrame s t a (fun c => { c with memSeq := (s.core (corep a)).memSeq }) id))
      ∧ ((own s a).seg.spadBound < ta.toNat + 64 → ∃ t, exec i s = .next t ∧ Faulted s t a 0x04 (own s a).pc ta)
      ∧ (ta.toNat + 64 ≤ (own s a).seg.spadBound → ¬ 64 ∣ ta.toNat →
          ∃ t, exec i s = .next t ∧ Faulted s t a 0x05 (own s a).pc ta)

/-- The waiting instructions (R44, R48, R75, R76, R96). -/
def Obligations.TokenAndPhaseWaits : Prop :=
  Claims.TokenWaits ∧ Claims.PhaseAndChannelWaits ∧ Claims.BarrierRegistration

/-- The system instructions, ENDTASK and RAISE (R53, R80-R83, R217). -/
def Obligations.SystemInstructions : Prop :=
  Claims.SystemInstructions ∧ Claims.TaskEndAndRaise

namespace Sys2Proof.Claims

open Sys2Proof.Machine

/-- The byte of a core's scratchpad at an offset. -/
def sbyte (s : State) (p o : Nat) : Byte := SMap.get 0 (s.spad p).bytes o

/-- The scratchpad bytes of core `p` are the same but for those of `bs` from offset `o` up. -/
def BytesWritten (s t : State) (p o : Nat) (bs : List Byte) : Prop :=
  ∀ x, sbyte t p x = if o ≤ x ∧ x < o + bs.length then bs.getD (x - o) 0 else sbyte s p x

/-- Bank `b` of core `p` may grant: it is on and not powering down (R88, R113). -/
def BankServes (s : State) (p b : Nat) : Prop :=
  ((s.spad p).bank b).on = true ∧ ((s.spad p).bank b).pdOffAt = none

/-- The cycle the bank grants in. -/
def grantCycle (s : State) (p b : Nat) : Nat := Nat.max s.now ((s.spad p).bank b).freeAt

/-- No request of priority 6 comes first at bank `b` (R90): none waits, the scrub's among them once it has waited 1,024 cycles, or
it has not waited seven cycles. -/
def NoP6First (s : State) (p b : Nat) : Prop :=
  (((s.spad p).bank b).p6 = []
      ∧ ((s.reg (unitCore p) rSPAD_CTRL).testBit 0 = false ∨ grantCycle s p b < ((s.spad p).bank b).scrubDue + 1024))
    ∨ ((s.spad p).bank b).p6wait < 7

/-- Slot `i` has the oldest task processor request at bank `b`, and no request of priority 6 comes first (R38, R89, R90); a checked
access that waits for its channel slot repeats its request by then (R108). -/
def TpTurn (s : State) (p b i : Nat) (m : MemOp) : Prop :=
  BankServes s p b ∧ i < 8 ∧ NoP6First s p b
    ∧ (s.slot p i).mem = some m ∧ m.reply = none ∧ m.off / 0x10000 = b
    ∧ ((s.slot p i).wait ≠ .checked ∨ (0 < m.dueAt ∧ m.dueAt ≤ grantCycle s p b))
    ∧ ∀ j, j < 8 → j ≠ i → ∀ x, (s.slot p j).mem = some x → x.reply = none → x.off / 0x10000 = b → m.seq < x.seq

/-- The slot is as it was, but that tokens that were due may be complete (R79). -/
def SameButDue (x y : Slot) : Prop :=
  ({ y with tokens := x.tokens, due := x.due } : Slot) = x ∧ (x.due = [] → y = x)

/-- The other cores, the other slots that do not wait, and the engines of this core are as they were. -/
def GrantFrame (s t : State) (p i : Nat) : Prop :=
  (∀ q, q ≠ p → t.core q = s.core q)
    ∧ (∀ j, j ≠ i → (s.slot p j).mode ≠ .waiting → SameButDue (s.slot p j) (t.slot p j))
    ∧ (t.core p).dma = (s.core p).dma ∧ (t.core p).mxu = (s.core p).mxu ∧ (t.core p).vec = (s.core p).vec
    ∧ (t.core p).icache = (s.core p).icache ∧ (t.core p).hist = (s.core p).hist
    ∧ t.pending = s.pending ∧ t.mesh = s.mesh ∧ t.hubs = s.hubs ∧ t.drams = s.drams ∧ t.gen = s.gen
    ∧ t.active = s.active ∧ t.worlds = s.worlds

/-- No word that bytes `o .. o + n - 1` touch shows an error on this access. -/
def NoError (err : EccErr) : Prop := err.single = 0 ∧ err.double = 0

/-- The value of a load of `n` bytes (R5, R70). -/
def loadValue (n : Nat) (signed : Bool) (bs : List Byte) : Word :=
  if signed then BitVec.ofInt 64 (toSigned (8 * n) (leNat bs)) else BitVec.ofNat 64 (leNat bs)

/-- The word an atomic leaves in memory (R72). -/
def atomicResult (k : MemKind) (old v rdOld : Word) : Option Word :=
  match k with
  | .amoAdd => some (BitVec.ofNat 64 (old.toNat + v.toNat))
  | .amoSwap => some v
  | .amoCas => some (if old = rdOld then v else old)
  | .amoOr => some (BitVec.ofNat 64 (old.toNat ||| v.toNat))
  | .amoAnd => some (BitVec.ofNat 64 (old.toNat &&& v.toNat))
  | _ => none

/-- A task fault that the access of an instruction meets after its issue: the program counter goes back to the instruction
(R52). -/
def FaultBack (s t : State) (p i : Nat) (code : Nat) (addr : Word) : Prop :=
  FaultFrom { s.slot p i with pc := (s.slot p i).pc - 4 } s t p i code ((s.slot p i).pc - 4) addr

/-- The first pass of the checks of a descriptor, and the second: the code and value of the first operand that fails (R74). -/
def descFields (s : State) (k : MemKind) (d : List Byte) : Bool :=
  match k with
  | .mxi => mxFieldsOk s d
  | .vxi => vxFieldsOk s d
  | _ => dmaFieldsOk s d

def descOperands (s : State) (k : MemKind) (sl : Slot) (d : List Byte) : Option (Nat × Word) :=
  match k with
  | .mxi => mxOperands s sl d
  | .vxi => vxOperands s sl d
  | _ => dmaOperands s sl d

/-- A descriptor of the matrix unit or the vector engine as it is queued (R43). -/
def Queued (sl : Slot) (i : Nat) (d : List Byte) (off tok : Nat) (e : EngDesc) : Prop :=
  e.slot = i ∧ e.token = tok ∧ e.tick = sl.tick ∧ e.att = sl.att ∧ e.raw = d ∧ e.off = off
    ∧ e.spadBase = sl.seg.spadBase ∧ e.spadBound = sl.seg.spadBound ∧ e.finished = none ∧ e.flags = 0 ∧ e.pos = 0 ∧ e.got = []

/-- The panel address that an operand of a DMA descriptor names (R41). -/
def resolved (s : State) (p : Nat) (sl : Slot) (mode x : Nat) : Nat :=
  if mode = 0 then
    let g := (s.gid p).getD 0
    2 ^ 44 + (g / 48) * 2 ^ 36 + (g % 48) * 2 ^ 30 + (sl.seg.spadBase + x)
  else if mode = 1 then sl.seg.dramBase + x
  else x

/-- A DMA descriptor as it is queued (R43, R48). -/
def QueuedDma (s : State) (p i : Nat) (sl : Slot) (d : List Byte) (off tok : Nat) (e : DmaDesc) : Prop :=
  e.slot = i ∧ e.token = tok ∧ e.tick = sl.tick ∧ e.patch = sl.patch ∧ e.off = off
    ∧ e.op = ([DmaOp.copy, .copy2d, .fill, .mcast].getD (dmaOp d) .mcast) ∧ e.length = leAt d 4 4
    ∧ e.fence = (leAt d 1 1).testBit 4
    ∧ (dmaOp d ≠ 2 → e.src = resolved s p sl (dmaSrcMode d) (leAt d 8 8))
    ∧ e.dst = resolved s p sl (dmaDstMode d) (leAt d 16 8)
    ∧ e.started = false ∧ e.finished = none

/-- The slot behind a descriptor read: RD is there, and the slot may issue again six cycles after the grant (R74, R86). -/
def readDone (s : State) (p b i rd : Nat) (v : Nat) (sl : Slot) : Slot :=
  { sl.setReg rd (BitVec.ofNat 64 v) with mem := none, readyAt := grantCycle s p b + 6 }

/-- A sticky flag of a window that was set in the issue cycle (R80). -/
def freshMark (s : State) (a : At) (x : Window) (k : Nat) : Bool :=
  decide (x.fresh.1 = issueCycle s a) && x.fresh.2.getLsbD k

/-- The status word of a window (R80, R117). -/
def windowStatus (x : Window) : Nat :=
  (if x.isOpen then 1 else 0) + (if x.closing then 2 else 0) + (if x.channel then 4 else 0) + (if x.check then 8 else 0)
    + (if x.persist then 16 else 0) + (if x.unsyncRead then 32 else 0) + (if x.overwriteFull then 64 else 0)
    + (if x.nacked then 128 else 0) + 2 ^ 16 * x.gen.toNat + 2 ^ 32 * x.creditsOut
    + 2 ^ 48 * (x.full.filter (fun e => e.2)).length

/-- A handle names window `w` of the task's patch (R79, R80). -/
def Names (s : State) (a : At) (h w : Nat) : Prop :=
  w = h % 32 ∧ ((s.spad (corep a)).win w).isOpen = true ∧ ((s.spad (corep a)).win w).gen.toNat = h / 2 ^ 16 % 2 ^ 16
    ∧ ((s.spad (corep a)).win w).patch = (own s a).patch

/-- No window answers to a handle. -/
def NamesNone (s : State) (a : At) (h : Nat) : Prop := ∀ w, ¬ Names s a h w

end Sys2Proof.Claims

/-- R37, R70, R71, R88: BANK_GRANT of a store writes the low bytes of its value, little-endian, at its place and no other
byte; the slot is free from the next cycle. Of a load or an atomic the data is on its way for six cycles, and an atomic
writes its new word. -/
def Sys2Proof.Claims.BankGrantOfAccess : Prop :=
  ∀ (s : State) (c : CoreIx) (b : Fin 16) (err : EccErr) (i : Nat) (m : MemOp),
    TpTurn s c.val b.val i m → NoError err →
      (∀ n, m.kind = .store n → ∃ t, exec (.bankGrant c b err) s = .next t
        ∧ BytesWritten s t c.val m.off (leBytes n m.val.toNat)
        ∧ t.slot c.val i = ({ s.slot c.val i with
            mem := none, mode := .ready, wait := .none, readyAt := grantCycle s c.val b.val + 1 } : Slot).ripen
              (grantCycle s c.val b.val)
        ∧ t.hostMem = s.hostMem ∧ t.regs = s.regs ∧ t.events = s.events
        ∧ GrantFrame s t c.val i)
      ∧ (∀ n sg, m.kind = .load n sg → Clean (s.spad c.val) m.off n → ∃ t, exec (.bankGrant c b err) s = .next t
        ∧ BytesWritten s t c.val 0 []
        ∧ t.slot c.val i = ({ s.slot c.val i with
            mode := .ready, wait := .none,
            mem := some { m with reply := some (some (loadValue n sg ((s.spad c.val).read m.off n)))
                                 dueAt := grantCycle s c.val b.val + 6 } } : Slot).ripen (grantCycle s c.val b.val)
        ∧ t.hostMem = s.hostMem ∧ t.regs = s.regs ∧ t.events = s.events
        ∧ GrantFrame s t c.val i)
      ∧ (∀ new, atomicResult m.kind (BitVec.ofNat 64 (leNat ((s.spad c.val).read m.off 8))) m.val m.oldRd = some new →
          m.off % 8 = 0 → Clean (s.spad c.val) m.off 8 → ∃ t, exec (.bankGrant c b err) s = .next t
        ∧ BytesWritten s t c.val m.off (leBytes 8 new.toNat)
        ∧ t.slot c.val i = ({ s.slot c.val i with
            mode := .ready, wait := .none,
            mem := some { m with reply := some (some (BitVec.ofNat 64 (leNat ((s.spad c.val).read m.off 8))))
                                 dueAt := grantCycle s c.val b.val + 6 } } : Slot).ripen (grantCycle s c.val b.val)
        ∧ t.hostMem = s.hostMem ∧ t.regs = s.regs ∧ t.events = s.events
        ∧ ((t.spad c.val).bank b.val).freeAt = grantCycle s c.val b.val + 2
        ∧ GrantFrame s t c.val i)

/-- R73, R107, R108: a TAKE of a channel slot that is not full, or a PUT into one that is full or reserved, puts its slot in
WAITING with nothing else changed, its request to be repeated; a TAKE with L clears the full bit it finds, a PUT with L sets it. -/
def Sys2Proof.Claims.CheckedAccess : Prop :=
  ∀ (s : State) (c : CoreIx) (b : Fin 16) (err : EccErr) (i w k : Nat) (m : MemOp) (l : Bool),
    TpTurn s c.val b.val i m → NoError err → Clean (s.spad c.val) m.off 8 → m.off % 8 = 0 →
      (s.spad c.val).chanAt m.off = some (w, k) →
      (m.kind = .take l →
        (((s.spad c.val).win w).isFull k = false → ∃ t, exec (.bankGrant c b err) s = .next t
          ∧ t.slot c.val i = { s.slot c.val i with
              mode := .waiting, wait := .checked, mem := some { m with dueAt := 0 } } ∧ BytesWritten s t c.val 0 []
          ∧ (t.spad c.val).wins = (s.spad c.val).wins ∧ GrantFrame s t c.val i)
        ∧ (((s.spad c.val).win w).isFull k = true → ∃ t, exec (.bankGrant c b err) s = .next t
          ∧ (t.slot c.val i).mem = some { m with
              reply := some (some (BitVec.ofNat 64 (leNat ((s.spad c.val).read m.off 8))))
              dueAt := grantCycle s c.val b.val + 6 }
          ∧ ((t.spad c.val).win w).isFull k = !l ∧ BytesWritten s t c.val 0 [] ∧ GrantFrame s t c.val i))
      ∧ (m.kind = .put l →
        ((((s.spad c.val).win w).isFull k = true ∨ ((s.spad c.val).win w).isReserved k = true) →
          ∃ t, exec (.bankGrant c b err) s = .next t
          ∧ t.slot c.val i = { s.slot c.val i with
              mode := .waiting, wait := .checked, mem := some { m with dueAt := 0 } } ∧ BytesWritten s t c.val 0 []
          ∧ (t.spad c.val).wins = (s.spad c.val).wins ∧ GrantFrame s t c.val i)
        ∧ (((s.spad c.val).win w).isFull k = false → ((s.spad c.val).win w).isReserved k = false →
          ∃ t, exec (.bankGrant c b err) s = .next t
          ∧ BytesWritten s t c.val m.off (leBytes 8 m.val.toNat)
          ∧ ((t.spad c.val).win w).isFull k = l
          ∧ (t.slot c.val i).mem = none ∧ (t.slot c.val i).mode = .ready ∧ GrantFrame s t c.val i))

/-- R37, R71: LOAD_DATA_RETURN writes the data to RD and lets the slot issue in that cycle; data that was uncorrectable
faults the slot with SPAD_UNCORRECTABLE, RD unwritten. A slot without data on its way is left alone. -/
def Sys2Proof.Claims.LoadReturn : Prop :=
  ∀ (s : State) (a : At),
    (∀ m v, (at_ s a).mem = some m → m.reply = some (some v) →
      ∃ t, exec (.loadDataReturn a) s = .next t
        ∧ t.now = Nat.max s.now m.dueAt
        ∧ at_ t a = { (at_ s a).setReg m.rd v with mem := none, readyAt := Nat.max s.now m.dueAt }
        ∧ (∀ q, q ≠ corep a → t.core q = s.core q)
        ∧ (∀ j, j ≠ a.slot.val → t.slot (corep a) j = s.slot (corep a) j)
        ∧ { t.core (corep a) with slots := (s.core (corep a)).slots } = s.core (corep a)
        ∧ { t with now := s.now, cores := s.cores } = s)
    ∧ (∀ m, (at_ s a).mem = some m → m.reply = some none →
      ∃ t, exec (.loadDataReturn a) s = .next t
        ∧ FaultBack s t (corep a) a.slot.val 0x06 m.taskAddr)
    ∧ ((∀ m, (at_ s a).mem = some m → m.reply = none) → exec (.loadDataReturn a) s = .next s)

/-- R74: the bank grants the descriptor read of an engine-issue instruction. An uncorrectable word faults with
SPAD_UNCORRECTABLE; a descriptor that fails the first pass faults with
DESCRIPTOR_INVALID, one that fails the second with what its operand gives; a valid one takes the lowest FREE token, which is BUSY
and its number in RD, and its 64 bytes enter the engine's queue at its end; a DMA descriptor that R260 holds waits with its
slot. -/
def Sys2Proof.Claims.DescriptorGrant : Prop :=
  ∀ (s : State) (c : CoreIx) (b : Fin 16) (err : EccErr) (i : Nat) (m : MemOp) (d : List Byte),
    TpTurn s c.val b.val i m → NoError err → (m.kind = .mxi ∨ m.kind = .vxi ∨ m.kind = .dxi) →
      d = (s.spad c.val).read m.off 64 →
      (¬ Clean (s.spad c.val) m.off 64 →
        ∃ t, exec (.bankGrant c b err) s = .next t ∧ FaultBack s t c.val i 0x06 m.taskAddr)
      ∧ (Clean (s.spad c.val) m.off 64 → descFields s m.kind d = false →
        ∃ t, exec (.bankGrant c b err) s = .next t ∧ FaultBack s t c.val i 0x0A m.taskAddr)
      ∧ (∀ code v, Clean (s.spad c.val) m.off 64 → descFields s m.kind d = true → descOperands s m.kind (s.slot c.val i) d = some (code, v) →
        ∃ t, exec (.bankGrant c b err) s = .next t ∧ FaultBack s t c.val i code v)
      ∧ (Clean (s.spad c.val) m.off 64 → descFields s m.kind d = true →
          descOperands s m.kind (s.slot c.val i) d = none → (∀ u, u < 16 → (s.slot c.val i).token u ≠ .free) →
        ∃ t, exec (.bankGrant c b err) s = .next t ∧ FaultBack s t c.val i 0x0B m.taskAddr)
      ∧ (∀ k, Clean (s.spad c.val) m.off 64 → descFields s m.kind d = true →
          descOperands s m.kind (s.slot c.val i) d = none → LowestFreeToken (s.slot c.val i) k →
        ∃ t, exec (.bankGrant c b err) s = .next t
          ∧ BytesWritten s t c.val 0 [] ∧ t.events = s.events ∧ t.mesh = s.mesh ∧ t.hubs = s.hubs ∧ t.drams = s.drams ∧ t.now = grantCycle s c.val b.val
          ∧ (∀ q, q ≠ c.val → t.core q = s.core q) ∧ (∀ j, j ≠ i → t.slot c.val j = s.slot c.val j)
          ∧ ∀ sl, sl = readDone s c.val b.val i m.rd k ((s.slot c.val i).setToken k .busy) →
            (m.kind = .mxi → t.slot c.val i = sl ∧ t.regs = s.regs ∧ ∃ e, Queued (s.slot c.val i) i d m.off k e
                ∧ (t.core c.val).mxu = { (s.core c.val).mxu with queue := (s.core c.val).mxu.queue ++ [e] }
                ∧ (t.core c.val).vec = (s.core c.val).vec ∧ (t.core c.val).dma = (s.core c.val).dma)
            ∧ (m.kind = .vxi → t.slot c.val i = sl ∧ t.regs = s.regs ∧ ∃ e, Queued (s.slot c.val i) i d m.off k e
                ∧ (t.core c.val).vec = { (s.core c.val).vec with queue := (s.core c.val).vec.queue ++ [e] }
                ∧ (t.core c.val).mxu = (s.core c.val).mxu ∧ (t.core c.val).dma = (s.core c.val).dma)
            ∧ (m.kind = .dxi → ∃ e, QueuedDma s c.val i (s.slot c.val i) d m.off k e
                ∧ ((s.slot c.val i).runahead = false → e.held = false)
                ∧ (t.core c.val).mxu = (s.core c.val).mxu ∧ (t.core c.val).vec = (s.core c.val).vec
                ∧ (e.held = false → t.slot c.val i = sl ∧ t.regs = s.regs
                    ∧ (t.core c.val).dma.queue = (s.core c.val).dma.queue ++ [e]
                    ∧ (t.core c.val).dma.waiting = (s.core c.val).dma.waiting)
                ∧ (e.held = true → t.slot c.val i = { sl with mode := .waiting, wait := .held (.dxi m.rd k) }
                    ∧ (t.core c.val).dma.queue = (s.core c.val).dma.queue
                    ∧ (t.core c.val).dma.waiting = (s.core c.val).dma.waiting ++ [e])))

/-- R78, R97–R99, R117: the bank grants the descriptor read of a WOPEN. A valid descriptor opens the lowest free window with the
next generation, and RD takes its handle, or all ones when no window or too few channel slots are left; one whose fields are not
as R97 says or that overlaps an open window faults with DESCRIPTOR_INVALID, one outside the segment with SPAD_BOUND. -/
def Sys2Proof.Claims.WindowOpening : Prop :=
  ∀ (s : State) (c : CoreIx) (b : Fin 16) (err : EccErr) (i : Nat) (m : MemOp),
    TpTurn s c.val b.val i m → NoError err → m.kind = .wopen →
      (¬ Clean (s.spad c.val) m.off 32 →
        ∃ t, exec (.bankGrant c b err) s = .next t ∧ FaultBack s t c.val i 0x06 m.taskAddr)
      ∧ (Clean (s.spad c.val) m.off 32 → ∀ d x lo, d = (s.spad c.val).read m.off 32 → x = winDesc d → lo = (s.slot c.val i).seg.spadBase + x.base →
      (winDescOk d = false → ∃ t, exec (.bankGrant c b err) s = .next t ∧ FaultBack s t c.val i 0x0A m.taskAddr)
      ∧ (winDescOk d = true → (s.slot c.val i).seg.spadBound < x.base + x.bound →
          ∃ t, exec (.bankGrant c b err) s = .next t ∧ FaultBack s t c.val i 0x04 (BitVec.ofNat 64 x.base))
      ∧ (winDescOk d = true → x.base + x.bound ≤ (s.slot c.val i).seg.spadBound →
          ((∃ w, w < 32 ∧ ((s.spad c.val).win w).isOpen = true ∧ ((s.spad c.val).win w).base < lo + x.bound
              ∧ lo < ((s.spad c.val).win w).base + ((s.spad c.val).win w).bound) →
            ∃ t, exec (.bankGrant c b err) s = .next t ∧ FaultBack s t c.val i 0x0A m.taskAddr)
          ∧ ((∀ w, w < 32 → ((s.spad c.val).win w).isOpen = true →
                lo + x.bound ≤ ((s.spad c.val).win w).base
                  ∨ ((s.spad c.val).win w).base + ((s.spad c.val).win w).bound ≤ lo) →
            (∀ w, w < 32 → ((s.spad c.val).win w).isOpen = false →
              (∀ u, u < w → ((s.spad c.val).win u).isOpen = true) →
              (x.channel = true → (s.spad c.val).slotsUsed + x.bound / x.slotBytes ≤ 1024) →
              ∃ t, exec (.bankGrant c b err) s = .next t
                ∧ ((t.spad c.val).win w).isOpen = true ∧ ((t.spad c.val).win w).closing = false
                ∧ ((t.spad c.val).win w).base = lo ∧ ((t.spad c.val).win w).bound = x.bound
                ∧ ((t.spad c.val).win w).gen
                    = (if ((s.spad c.val).win w).gen = 0xFFFF then 1 else ((s.spad c.val).win w).gen + 1)
                ∧ ((t.spad c.val).win w).patch = (s.slot c.val i).patch
                ∧ ((t.spad c.val).win w).creditsOut = 0 ∧ ((t.spad c.val).win w).full = []
                ∧ t.slot c.val i = { readDone s c.val b.val i m.rd (w + 2 ^ 16 * ((t.spad c.val).win w).gen.toNat)
                      (s.slot c.val i) with
                    opened := if x.persist then (s.slot c.val i).opened
                      else (s.slot c.val i).opened ++ [(w, ((t.spad c.val).win w).gen)] }
                ∧ (∀ v, v ≠ w → ((t.spad c.val).win v).isOpen = ((s.spad c.val).win v).isOpen)
                ∧ BytesWritten s t c.val 0 [] ∧ GrantFrame s t c.val i)
            ∧ (((∀ w, w < 32 → ((s.spad c.val).win w).isOpen = true)
                  ∨ (x.channel = true ∧ 1024 < (s.spad c.val).slotsUsed + x.bound / x.slotBytes)) →
              ∃ t, exec (.bankGrant c b err) s = .next t
                ∧ t.slot c.val i = readDone s c.val b.val i m.rd (2 ^ 64 - 1) (s.slot c.val i)
                ∧ (∀ w, ((t.spad c.val).win w).isOpen = ((s.spad c.val).win w).isOpen)
                ∧ BytesWritten s t c.val 0 [] ∧ GrantFrame s t c.val i))))

/-- R79, R80, R117: WCLOSE takes a token, which completes with WINDOW_REFUSED in the next cycle when no window answers to the
handle, and else begins the close; WSTAT returns the status word, or all ones, and clears the sticky flags when asked, but those
set in that very cycle. -/
def Obligations.WindowInstructions : Prop :=
  ∀ (s : State) (a : At) (rd ra : Reg), Fires s a 4 →
    (∀ k, LowestFreeToken (own s a) k →
      (NamesNone s a (un s a ra) →
        ∃ t, exec (.wclose a rd ra 0 0) s = .next t
          ∧ at_ t a = { stepped s a 4 (((own s a).setToken k .busy).setReg rd (BitVec.ofNat 64 k)) with
              due := (own s a).due ++ [(issueCycle s a + 1, k, 2)] }
          ∧ IssueFrame s t a id id)
      ∧ (∀ w, Names s a (un s a ra) w →
        ∃ t, exec (.wclose a rd ra 0 0) s = .next t
          ∧ (at_ t a).reg rd = (if rd = 0 then 0 else BitVec.ofNat 64 k) ∧ (at_ t a).token k = .busy
          ∧ (t.spad (corep a)).bytes = (s.spad (corep a)).bytes ∧ (∀ q, q ≠ corep a → t.core q = s.core q)
          ∧ t.regs = s.regs ∧ t.hubs = s.hubs ∧ t.drams = s.drams ∧ t.hostMem = s.hostMem ∧ t.events = s.events
          ∧ (∀ v, v ≠ w → ((t.spad (corep a)).win v).isOpen = ((s.spad (corep a)).win v).isOpen)
          ∧ ((((t.spad (corep a)).win w).closing = true ∧ (a.slot.val, k) ∈ ((t.spad (corep a)).win w).closers)
              ∨ (((t.spad (corep a)).win w).isOpen = false ∧ (issueCycle s a + 1, k, 0) ∈ (at_ t a).due))))
    ∧ ((∀ u, u < 16 → (own s a).token u ≠ .free) →
        ∃ t, exec (.wclose a rd ra 0 0) s = .next t ∧ Faulted s t a 0x0B (own s a).pc ((own s a).reg ra))
    ∧ (∀ fn : BitVec 11, fn.toNat ≤ 1 →
      (NamesNone s a (un s a ra) →
        ∃ t, exec (.wstat a rd ra 0 fn) s = .next t
          ∧ at_ t a = stepped s a 4 ((own s a).setReg rd (BitVec.allOnes 64)) ∧ IssueFrame s t a id id)
      ∧ (∀ w x, Names s a (un s a ra) w → x = (s.spad (corep a)).win w →
        ∃ t, exec (.wstat a rd ra 0 fn) s = .next t
          ∧ at_ t a = stepped s a 4 ((own s a).setReg rd (BitVec.ofNat 64 (windowStatus x)))
          ∧ (t.spad (corep a)).win w = (if fn = 1 then
              { x with unsyncRead := x.unsyncRead && freshMark s a x 0, overwriteFull := x.overwriteFull && freshMark s a x 1
                       nacked := x.nacked && freshMark s a x 2 }
            else x)
          ∧ IssueFrame s t a (fun c => { c with spad := { c.spad with wins := (s.spad (corep a)).wins } }) id))

/-- A granted access to the scratchpad (R72, R88-R94, R103). -/
def Obligations.GrantedAccesses : Prop :=
  Claims.BankGrantOfAccess ∧ Claims.CheckedAccess ∧ Claims.LoadReturn ∧ Claims.DescriptorGrant ∧ Claims.WindowOpening

namespace Sys2Proof.Claims

open Sys2Proof.Machine

/-- The loads (R70): slot, bytes, whether signed, RD, and task-relative address. -/
def loadForm (s : State) : Instr → Option (At × Nat × Bool × Reg × Word)
  | .lb a d x m => some (a, 1, true, d, accessForm.ea s a x m)
  | .lbu a d x m => some (a, 1, false, d, accessForm.ea s a x m)
  | .lh a d x m => some (a, 2, true, d, accessForm.ea s a x m)
  | .lhu a d x m => some (a, 2, false, d, accessForm.ea s a x m)
  | .lw a d x m => some (a, 4, true, d, accessForm.ea s a x m)
  | .lwu a d x m => some (a, 4, false, d, accessForm.ea s a x m)
  | .ld a d x m => some (a, 8, false, d, accessForm.ea s a x m)
  | _ => none

/-- The bank access of slot `a` alone waits at bank `b`, which serves it next. -/
def AloneAtBank (s : State) (a : At) (b : Nat) : Prop :=
  BankServes s (corep a) b ∧ ((s.spad (corep a)).bank b).p6 = [] ∧ ((s.spad (corep a)).bank b).p6wait < 7
    ∧ ∀ j, j < 8 → j ≠ a.slot.val → (s.slot (corep a) j).mem = none

end Sys2Proof.Claims

/-- R37, R70, R71, R88: a load that no other access disturbs runs from its issue over its grant to the return of its data:
RD holds the little-endian bytes at its address, extended as the load says, the program counter is behind it, and no byte of
the scratchpad has changed. -/
def Obligations.LoadRunsToItsEnd : Prop :=
  ∀ (s : State) (i : Instr) (a : At) (n : Nat) (sgn : Bool) (rd : Reg) (ta : Word) (off : Nat) (b : Fin 16),
    loadForm s i = some (a, n, sgn, rd, ta) → Fires s a 4 → (own s a).wait = .none →
      ta.toNat + n ≤ (own s a).seg.spadBound → n ∣ ta.toNat → off = (own s a).seg.spadBase + ta.toNat →
      b.val = off / 0x10000 → AloneAtBank s a b.val → Clean (s.spad (corep a)) off n →
      ∃ t u v, exec i s = .next t ∧ exec (.bankGrant a.core b ⟨0, 0⟩) t = .next u ∧ exec (.loadDataReturn a) u = .next v
        ∧ (at_ v a).reg rd = (if rd = 0 then 0 else loadValue n sgn ((s.spad (corep a)).read off n))
        ∧ (∀ r : Reg, r ≠ rd → (at_ v a).reg r = (own s a).reg r)
        ∧ (at_ v a).pc = (own s a).pc + 4 ∧ (at_ v a).mode = .ready ∧ (at_ v a).mem = none
        ∧ (∀ x, sbyte v (corep a) x = sbyte s (corep a) x)

namespace Sys2Proof.Claims

open Sys2Proof.Machine

/-- Nothing but core `p` changes. -/
def CoreOnly (s t : State) (p : Nat) : Prop :=
  (∀ q, q ≠ p → t.core q = s.core q) ∧ { t with cores := s.cores } = s

/-- Nothing but core `p` and time change. -/
def CoreAndTime (s t : State) (p : Nat) : Prop :=
  (∀ q, q ≠ p → t.core q = s.core q) ∧ { t with cores := s.cores, now := s.now } = s

/-- Of core `p` nothing but its banks change. -/
def BanksOnly (s t : State) (p : Nat) : Prop :=
  { t.core p with spad := { (t.core p).spad with banks := (s.core p).spad.banks } } = s.core p

/-- Nothing but the register at offset `o` of holder `u` changes. -/
def RegOnly (s t : State) (u o : Nat) : Prop :=
  (∀ k, k ≠ regKey u o → ∀ d, SMap.get d t.regs k = SMap.get d s.regs k) ∧ { t with regs := s.regs, hw := s.hw } = s

/-- A NOTICE of kind 3 waits at the node of core `p` (R226), with an event of this code where none waited there before. -/
def NoticeOf (s t : State) (p code : Nat) : Prop :=
  ∃ n ∈ (t.core p).node.notices, n.kind = 3
    ∧ ((∀ m ∈ (s.core p).node.notices, m.kind ≠ 3) → ∃ e, n.event = some e ∧ e.code = code)

/-- The slot that a task descriptor selects (R49, R50 step 2): the one it names when that is FREE, or with bit 7 the lowest
FREE slot that CORE_CTRL enables. -/
def SlotSelected (s : State) (p : Nat) (d : List Byte) (i : Nat) : Prop :=
  if leAt d 2 1 / 128 % 2 = 1 then
    i < 8 ∧ (s.slot p i).mode = .free ∧ (s.reg (unitCore p) rCORE_CTRL).testBit (8 + i) = true
      ∧ ∀ j, j < i → ¬ ((s.slot p j).mode = .free ∧ (s.reg (unitCore p) rCORE_CTRL).testBit (8 + j) = true)
  else i = leAt d 2 1 % 8 ∧ (s.slot p i).mode = .free

/-- The launcher of core `p` performs launch `l`, its first, with the descriptor `d` of a logical core `g` (R50, R441). -/
def Launches (s : State) (p g : Nat) (l : Launch) (rest : List Launch) (d : List Byte) : Prop :=
  (s.core p).launches = l :: rest ∧ s.gid p = some g ∧ s.maint.reloads.any (fun r => r.core == g) = false
    ∧ (s.reg (unitCore p) rCORE_CTRL).testBit 1 = true ∧ s.coreDown p = false
    ∧ ((s.spad p).bank (l.off / 0x10000)).on = true ∧ Clean (s.spad p) l.off 64 ∧ d = (s.spad p).read l.off 64

/-- A bank lies in part in offsets `lo .. hi - 1`. -/
def InBank (b lo hi : Nat) : Prop := ∃ o, lo ≤ o ∧ o < hi ∧ o / 0x10000 = b

/-- Slot `i` has taken the attributes of a task (R49, R50, R272). -/
def TaskTaken (t : State) (p i : Nat) (l : Launch) (d : List Byte) : Prop :=
  (t.slot p i).taskId = BitVec.ofNat 16 (leAt d 0 2) ∧ (t.slot p i).patch = leAt d 4 1
    ∧ (t.slot p i).abs = (leAt d 3 1).testBit 1 ∧ (t.slot p i).runahead = l.runahead
    ∧ (t.slot p i).tick = l.tick ∧ (t.slot p i).att = l.att

/-- Bank `b` waits for nothing and is on. -/
abbrev bankAt (s : State) (p b : Nat) : Bank := (s.spad p).bank b

end Sys2Proof.Claims

/-- R42, R50, R57: a write of LAUNCH_EN changes that bit of CORE_CTRL and nothing else; ICINV starts an invalidation, whose
end leaves no line in the cache; a clear of TASK_FAULT.VALID clears the whole record of the slot, but that a fault of the very
cycle is then recorded with VALID = 1 and OVF = 0 (R58). -/
def Sys2Proof.Claims.CoreControls : Prop :=
  ∀ (s : State) (c : CoreIx) (a : At) (en : Bool),
    (∃ t, exec (.launchEn c en) s = .next t ∧ RegOnly s t (unitCore c.val) rCORE_CTRL
      ∧ (t.reg (unitCore c.val) rCORE_CTRL).testBit 1 = en
      ∧ ∀ k, k ≠ 1 → (t.reg (unitCore c.val) rCORE_CTRL).testBit k = (s.reg (unitCore c.val) rCORE_CTRL).testBit k)
    ∧ (∃ t, exec (.icinv c) s = .next t ∧ t.core c.val = { s.core c.val with icinvBusy := true } ∧ CoreOnly s t c.val)
    ∧ ((s.core c.val).icinvBusy = true → ∃ t, exec (.icacheInvalidationDone c) s = .next t
        ∧ t.core c.val = { s.core c.val with icinvBusy := false, icache := [] } ∧ CoreOnly s t c.val)
    ∧ ((s.core c.val).icinvBusy = false → exec (.icacheInvalidationDone c) s = .next s)
    ∧ (∃ t, exec (.taskFaultValidClear a) s = .next t
        ∧ ((∀ code pc addr, (at_ s a).lastFault ≠ some (s.now, code, pc, addr)) →
            at_ t a = { at_ s a with faultValid := false, faultOvf := false, faultCode := 0, faultPc := 0, faultAddr := 0 })
        ∧ (∀ code pc addr, (at_ s a).lastFault = some (s.now, code, pc, addr) →
            at_ t a = { at_ s a with
              faultValid := true, faultOvf := false, faultCode := BitVec.ofNat 8 code, faultPc := pc.truncate 32
              faultAddr := addr })
        ∧ (∀ j, j ≠ a.slot.val → t.slot (corep a) j = s.slot (corep a) j)
        ∧ { t.core (corep a) with slots := (s.core (corep a)).slots } = s.core (corep a) ∧ CoreOnly s t (corep a))

/-- R42, R52: a fill brings the first line that the next fetch of a READY slot lacks into the instruction cache, as its port reads
it; a set of four lines gives one of its own up, and no other set changes. A line that reads as poisoned or uncorrectable and that
the fetch needs faults the slot with CODE_POISON in the cycle its instruction would have issued in; one that it does not need
stays out. -/
def Sys2Proof.Claims.CacheFill : Prop :=
  ∀ (s u : State) (a : At) (err : Symbols) (line d o site : Nat) (st : Status) (data : List Byte),
    (at_ s a).mode = .ready → (at_ s a).pc.toNat + 4 ≤ (at_ s a).seg.codeBound → s.coreDown (corep a) = false →
      (s.core (corep a)).missingLine (at_ s a) = some line → s.active.target line = some (.dram d o) →
      s.active.site d = some site → s.readLine site o 64 (s.dramClass d (corep a)) err = some (st, data, u) →
      (st = 0 →
        ∃ t, exec (.instructionCacheFill a err) s = .next t
          ∧ (line, data) ∈ (t.core (corep a)).icache
          ∧ (∀ l, l ≠ (line, data) → l ∈ (t.core (corep a)).icache → l ∈ (s.core (corep a)).icache)
          ∧ (∀ l, l ∈ (s.core (corep a)).icache → l.1 / 64 % 128 ≠ line / 64 % 128 → l ∈ (t.core (corep a)).icache)
          ∧ (((s.core (corep a)).icache.filter (fun l => l.1 / 64 % 128 == line / 64 % 128)).length < 4 →
              (t.core (corep a)).icache = (line, data) :: (s.core (corep a)).icache)
          ∧ { t.core (corep a) with icache := (s.core (corep a)).icache } = s.core (corep a)
          ∧ (∀ q, q ≠ corep a → t.core q = s.core q)
          ∧ { t with cores := u.cores, freeCtr := u.freeCtr } = u)
      ∧ (st ≠ 0 → (s.core (corep a)).needsLine (at_ s a) line = false → exec (.instructionCacheFill a err) s = .next u)
      ∧ (st ≠ 0 → (s.core (corep a)).needsLine (at_ s a) line = true →
          ((at_ s a).mem = none → (∀ j, ¬ ComesBefore s (corep a) a.slot.val j) →
            ∃ t, exec (.instructionCacheFill a err) s = .next t ∧ (t.core (corep a)).icache = (s.core (corep a)).icache
              ∧ t.now = Nat.max u.now (Nat.max (at_ s a).readyAt (s.core (corep a)).issueAt)
              ∧ FaultFrom ((at_ s a).flush.ripen t.now) u t (corep a) a.slot.val 0x03 (at_ s a).pc (at_ s a).pc)
          ∧ (((at_ s a).mem ≠ none ∨ ∃ j, ComesBefore s (corep a) a.slot.val j) →
            exec (.instructionCacheFill a err) s = .next s))

/-- R49, R50, R114: TASK_LAUNCH performs the first launch of a core. With a valid descriptor the selected slot takes the
task; when its scratchpad segment is wholly on and is not to be cleared it is READY at ENTRY, with the two arguments in g1
and g2, zero elsewhere, and its tokens FREE; else it is LAUNCHING. An invalid one faults the slot with LAUNCH_INVALID, and
one that cannot be read drops the launch. -/
def Sys2Proof.Claims.TaskLaunches : Prop :=
  ∀ (s : State) (c : CoreIx) (g : Nat) (l : Launch) (rest : List Launch) (d : List Byte) (i : Nat),
    (Launches s c.val g l rest d → SlotSelected s c.val d i →
      (taskOk s.active (g / 48) l.patch d = true → ∃ t, exec (.taskLaunch c) s = .next t
        ∧ (t.core c.val).launches = rest ∧ TaskTaken t c.val i l d
        ∧ (∀ j, j ≠ i → t.slot c.val j = s.slot c.val j)
        ∧ (∀ lo hi, lo = leAt d 24 4 → hi = lo + leAt d 28 4 →
            ((∀ b, b < 16 → InBank b lo hi → (bankAt s c.val b).on = true ∧ (bankAt s c.val b).pdOffAt = none) →
              ((leAt d 3 1).testBit 0 = false ∨ lo = hi) →
                (t.slot c.val i).mode = .ready ∧ (t.slot c.val i).pc = BitVec.ofNat 64 (leAt d 20 4)
                  ∧ (∀ r, (t.slot c.val i).reg r = if r = 1 then BitVec.ofNat 64 (leAt d 48 8)
                      else if r = 2 then BitVec.ofNat 64 (leAt d 56 8) else 0)
                  ∧ (∀ k, (t.slot c.val i).token k = .free) ∧ (t.slot c.val i).seg = taskSegments d
                  ∧ (t.slot c.val i).fpFlags = 0 ∧ (t.slot c.val i).sat = false ∧ (t.slot c.val i).readyAt = s.now + 1)
            ∧ (((∃ b, b < 16 ∧ InBank b lo hi ∧ (bankAt s c.val b).on = false)
                  ∨ ((leAt d 3 1).testBit 0 = true ∧ lo < hi)) →
                (t.slot c.val i).mode = .launching)
            ∧ (∀ b, b < 16 → InBank b lo hi → (bankAt s c.val b).on = false → (bankAt t c.val b).puReq = true)))
      ∧ (taskOk s.active (g / 48) l.patch d = false → ∃ t, exec (.taskLaunch c) s = .next t
        ∧ (t.core c.val).launches = rest ∧ (t.slot c.val i).mode = .faulted
        ∧ ((s.slot c.val i).faultValid = false →
            (t.slot c.val i).faultCode = 0x0D ∧ (t.slot c.val i).faultAddr = BitVec.ofNat 64 l.off)))
    ∧ ((s.core c.val).launches = l :: rest → s.gid c.val = some g →
        s.maint.reloads.any (fun r => r.core == g) = false → (s.reg (unitCore c.val) rCORE_CTRL).testBit 1 = true →
        s.coreDown c.val = false → (bankAt s c.val (l.off / 0x10000)).on = true → ¬ Clean (s.spad c.val) l.off 64 →
        ∃ t, exec (.taskLaunch c) s = .next t ∧ (t.core c.val).launches = rest
          ∧ SMap.get false (t.core c.val).node.dropped (l.tick % 2) = true
          ∧ ∀ j, t.slot c.val j = s.slot c.val j)

/-- R51, R242: an ENDING slot whose tokens are not BUSY, or complete in a known cycle, and whose windows are closed is FREE, from
the last of those cycles; while a token is BUSY without such a cycle nothing happens. -/
def Sys2Proof.Claims.TaskEnds : Prop :=
  ∀ (s : State) (a : At), (at_ s a).mode = .ending → s.coreDown (corep a) = false →
    ((∀ k, k < 16 → (at_ s a).token k = .busy → ∃ e ∈ (at_ s a).due, e.2.1 = k) →
      (∀ w g, (w, g) ∈ (at_ s a).opened →
        ¬ (((s.spad (corep a)).win w).isOpen = true ∧ ((s.spad (corep a)).win w).gen = g)) →
      ∃ t, exec (.taskEnded a) s = .next t
        ∧ (s.now ≤ t.now ∧ ∀ e ∈ (at_ s a).due, e.1 ≤ t.now)
        ∧ (at_ t a).mode = .free ∧ (at_ t a).tokens = [] ∧ (at_ t a).opened = [] ∧ (at_ t a).mem = none
        ∧ (at_ t a).regs = (at_ s a).regs ∧ (at_ t a).faultValid = (at_ s a).faultValid
        ∧ (∀ j, j ≠ a.slot.val → t.slot (corep a) j = s.slot (corep a) j)
        ∧ { t.spad (corep a) with banks := (s.spad (corep a)).banks } = s.spad (corep a)
        ∧ (∀ q, q ≠ corep a → t.core q = s.core q))
    ∧ ((∃ k, k < 16 ∧ (at_ s a).token k = .busy ∧ NotDue (at_ s a) k) → exec (.taskEnded a) s = .next s)

/-- R112–R115: power-down requests wait, are granted once the bank is uncovered, in a later cycle, and put it off 64 cycles later,
or are cancelled after 100 µs with PD_TIMEOUT; AUTO_PD requests one for a bank uncovered for 100 µs. Power-up requests start at most
four at a time, and a bank that comes on reads as zero. -/
def Sys2Proof.Claims.BankPower : Prop :=
  ∀ (s : State) (c : CoreIx) (banks : BitVec 16) (b : Fin 16),
    (∃ t, exec (.pdReq c banks) s = .next t ∧ CoreOnly s t c.val ∧ BanksOnly s t c.val
      ∧ ∀ k, k < 16 → bankAt t c.val k =
          if banks.getLsbD k = true ∧ (bankAt s c.val k).on = true ∧ (bankAt s c.val k).pdSince = none
              ∧ (bankAt s c.val k).pdOffAt = none
          then { bankAt s c.val k with pdSince := some s.now } else bankAt s c.val k)
    ∧ (∃ t, exec (.puReq c banks) s = .next t ∧ CoreOnly s t c.val ∧ BanksOnly s t c.val
      ∧ (∀ k, k < 16 → banks.getLsbD k = true → (bankAt s c.val k).on = false → (bankAt t c.val k).puReq = true)
      ∧ (∀ k, k < 16 → { bankAt t c.val k with
            puReq := (bankAt s c.val k).puReq, puDoneBy := (bankAt s c.val k).puDoneBy } = bankAt s c.val k)
      ∧ ((s.core c.val).poweringUp ≤ 4 → (t.core c.val).poweringUp ≤ 4)
      ∧ ((s.core c.val).poweringUp < 4 → banks = BitVec.ofNat 16 (2 ^ b.val) →
          (∀ k, k < 16 → (bankAt s c.val k).puReq = false) → (bankAt s c.val b.val).on = false →
          (bankAt s c.val b.val).puDoneBy = none →
            (bankAt t c.val b.val).puDoneBy = some (s.now + 2 * Config.cycUs)))
    ∧ (((bankAt s c.val b.val).on = true ∧ (s.reg (unitCore c.val) rSPAD_CTRL).testBit 1 = true
          ∧ (s.reg (unitCore c.val) rSPAD_CTRL).testBit (16 + b.val) = false ∧ (s.core c.val).covered b.val = false) →
        ((bankAt s c.val b.val).pdSince = none → (bankAt s c.val b.val).pdOffAt = none →
          ∃ t, exec (.autoPowerDown c b) s = .next t ∧ CoreAndTime s t c.val ∧ BanksOnly s t c.val
            ∧ t.now = Nat.max s.now ((bankAt s c.val b.val).uncoveredAt + 100 * Config.cycUs)
            ∧ bankAt t c.val b.val = { bankAt s c.val b.val with pdSince := some t.now })
        ∧ (((bankAt s c.val b.val).pdSince ≠ none ∨ (bankAt s c.val b.val).pdOffAt ≠ none) →
            exec (.autoPowerDown c b) s = .next s))
    ∧ (((s.core c.val).covered b.val = true ∨ (bankAt s c.val b.val).on = false) → exec (.autoPowerDown c b) s = .next s)
    ∧ (∀ k, (bankAt s c.val b.val).on = true → (bankAt s c.val b.val).pdSince = some k →
        (bankAt s c.val b.val).pdOffAt = none →
        (k < s.now → (s.core c.val).covered b.val = false → ∃ t, exec (.bankPowerDown c b) s = .next t ∧ CoreOnly s t c.val
          ∧ BanksOnly s t c.val
          ∧ bankAt t c.val b.val = { bankAt s c.val b.val with pdSince := none, pdOffAt := some (s.now + 64) })
        ∧ ((s.now ≤ k ∨ (s.core c.val).covered b.val = true) → exec (.bankPowerDown c b) s = .next s))
    ∧ (∀ k, (bankAt s c.val b.val).pdOffAt = some k →
        ∃ t, exec (.bankPowerDown c b) s = .next t ∧ CoreAndTime s t c.val ∧ t.now = Nat.max s.now k
          ∧ (bankAt t c.val b.val).on = false ∧ (bankAt t c.val b.val).pdOffAt = none
          ∧ (∀ o, o / 0x10000 ≠ b.val → sbyte t c.val o = sbyte s c.val o))
    ∧ (∀ k, (bankAt s c.val b.val).pdSince = some k →
        ∃ t, exec (.powerDownTimeout c b) s = .next t ∧ t.now = Nat.max s.now (k + 100 * Config.cycUs)
          ∧ bankAt t c.val b.val = { bankAt s c.val b.val with pdSince := none, pdTimeout := true }
          ∧ { t.core c.val with node := (s.core c.val).node
                                spad := { (t.spad c.val) with banks := (s.spad c.val).banks } } = s.core c.val
          ∧ NoticeOf s t c.val 0x13 ∧ (∀ q, q ≠ c.val → t.core q = s.core q) ∧ t.regs = s.regs ∧ t.events = s.events)
    ∧ (∀ k, (bankAt s c.val b.val).puDoneBy = some k →
        ∃ t, exec (.bankPowerUpDone c b) s = .next t ∧ (bankAt t c.val b.val).on = true
          ∧ (bankAt t c.val b.val).puReq = false
          ∧ (∀ o, sbyte t c.val o = if o / 0x10000 = b.val then 0 else sbyte s c.val o)
          ∧ CoreOnly s t c.val)
    ∧ ((bankAt s c.val b.val).puDoneBy = none → exec (.bankPowerUpDone c b) s = .next s)

/-- R92, R94: a scrub reads the next line of its bank when it is due and nothing else waits at the bank, and moves on; while
something else waits it does nothing; a line without an error changes nothing
else, and a double-bit error makes its word uncorrectable, counts in SPAD_ECC_UE and raises SPAD_SCRUB_UE. -/
def Sys2Proof.Claims.ScrubReads : Prop :=
  ∀ (s : State) (c : CoreIx) (b : Fin 16) (err : EccErr) (line : Nat),
    BankServes s c.val b.val → (s.reg (unitCore c.val) rSPAD_CTRL).testBit 0 = true →
      line = b.val * 0x10000 + (bankAt s c.val b.val).scrubLine * 64 → Clean (s.spad c.val) line 64 →
      ∀ due, due = s.advanceTo (Nat.max (bankAt s c.val b.val).scrubDue (bankAt s c.val b.val).freeAt) →
      (due.grantAt c.val b.val err ≠ none → exec (.scrubRead c b err) s = .next s)
      ∧ (NoError err → due.grantAt c.val b.val err = none → ∃ t, exec (.scrubRead c b err) s = .next t ∧ CoreAndTime s t c.val ∧ BanksOnly s t c.val
        ∧ t.now = Nat.max s.now (Nat.max (bankAt s c.val b.val).scrubDue (bankAt s c.val b.val).freeAt)
        ∧ bankAt t c.val b.val = { bankAt s c.val b.val with
            scrubLine := ((bankAt s c.val b.val).scrubLine + 1) % 1024
            scrubDue := t.now + (if s.scrubbing (c.val / 50) then 1024 else 8192)
            freeAt := t.now + 1 })
      ∧ (∀ k, k < 8 → err.single = 0 → err.double = BitVec.ofNat 8 (2 ^ k) → due.grantAt c.val b.val err = none →
        ∃ t, exec (.scrubRead c b err) s = .next t
          ∧ (∀ w, (t.spad c.val).isUe w = if w = line + 8 * k then true else (s.spad c.val).isUe w)
          ∧ t.fld (unitCore c.val) rSPAD_ECC_UE 0 32
              = Nat.min (2 ^ 32 - 1) (s.fld (unitCore c.val) rSPAD_ECC_UE 0 32 + 1)
          ∧ (∀ o, sbyte t c.val o = sbyte s c.val o) ∧ (∀ q, q ≠ c.val → t.core q = s.core q)
          ∧ NoticeOf s t c.val 0x12)

/-- Core commands and the instruction cache (R37, R38, R56, R57). -/
def Obligations.CoreControls : Prop :=
  Claims.CoreControls ∧ Claims.CacheFill

/-- A task begins and ends (R46, R50, R52, R53). -/
def Obligations.TaskLaunchesAndEnds : Prop :=
  Claims.TaskLaunches ∧ Claims.TaskEnds

/-- Bank power and the scrubber (R92, R104). -/
def Obligations.BanksAndScrub : Prop :=
  Claims.BankPower ∧ Claims.ScrubReads

namespace Sys2Proof.Claims

open Sys2Proof.Machine

/-- Access `id` waits at the scratchpad of physical core `p`, at offset `off`. -/
def AtSpad (s : State) (id : Nat) (a : Access) (p off : Nat) : Prop :=
  s.access id = some a ∧ a.stage = .atTarget ∧
    ∃ d l, s.active.target a.addr = some (.spad d l off) ∧ s.active.coreIx d l = some p

/-- The requester of an access (R100). -/
def requester (s : State) (a : Access) : Requester := .core ((s.gid a.core).getD 0x3FFF) a.patch

/-- R101, R102: a write of `n` bytes at `off` is covered by the live grant it names. -/
def Covered (s : State) (p off n : Nat) (a : Access) (r : GrantRef) : Prop :=
  a.grant = some r ∧ (∃ g, (s.spad p).grant r.index = some g ∧ g.no = r.no ∧ s.now < g.expireAt)
    ∧ ((s.spad p).win r.win).isOpen = true ∧ ((s.spad p).win r.win).gen = r.gen
    ∧ ((s.spad p).win r.win).base ≤ off ∧ off + n ≤ ((s.spad p).win r.win).base + ((s.spad p).win r.win).bound

/-- Request `r` names bank `b`'s queue end. -/
def QueuedAt (s t : State) (p b : Nat) (r : BankReq) : Prop :=
  ((t.spad p).bank b) = { (s.spad p).bank b with p6 := ((s.spad p).bank b).p6 ++ [r] }

/-- A request for `want` credits of plain window `w` at its place, and what it can have (R104). -/
def PlainRequest (s : State) (p w off extent want n : Nat) : Prop :=
  w < 32 ∧ (s.spad p).winAt off extent = some w ∧ ((s.spad p).win w).channel = false
    ∧ ((s.spad p).win w).closing = false
    ∧ n = Nat.min want (((s.spad p).win w).credits - ((s.spad p).win w).creditsOut)

/-- Grant `gi` of `n` credits of window `w`, new (R101, R103). -/
def NewGrant (s t : State) (p w gi off extent n : Nat) (who : Requester) : Prop :=
  (s.spad p).grant gi = none ∧ gi < 64 ∧ (∀ k, k < gi → (s.spad p).grant k ≠ none)
    ∧ (t.spad p).grant gi = some {
        win := w, gen := ((s.spad p).win w).gen, no := (s.spad p).grantNo, out := n, slots := [], who := who, lo := off
        hi := off + extent, expireAt := s.now + s.fld (unitCore p) rSPAD_CREDIT_TTL 0 10 * Config.cycUs }
    ∧ ((t.spad p).win w).creditsOut = ((s.spad p).win w).creditsOut + n

/-- The DMA descriptors by operation. -/
def dmaCommand (c : CoreIx) (id : Nat) : Instr → Option DmaOp
  | .copy x y => if x = c ∧ y = id then some .copy else none
  | .copy2d x y => if x = c ∧ y = id then some .copy2d else none
  | .fill x y => if x = c ∧ y = id then some .fill else none
  | _ => none

/-- The panel addresses of the source and destination of a place in transfer order (R48, R509). -/
def srcPlace (d : DmaDesc) : Nat := d.src + d.row * d.srcStride + d.col
def dstPlace (d : DmaDesc) : Nat := d.dst + d.row * d.dstStride + d.col

/-- Descriptor `d` is the one of core `p` with its number, and it may go on (R43, R48). -/
def DmaGoes (s : State) (p : Nat) (d : DmaDesc) : Prop :=
  s.dmaFind p d.id = some d ∧ d.finished = none ∧ d.stopped = false ∧ d.row < d.rows ∧ s.coreDown p = false
    ∧ (d.started = true ∨ (s.core p).dma.mayStart d = true)

/-- An access answered with a status for descriptor `d` of its engine. -/
def Answered (s : State) (acc : Nat) (a : Access) (d : DmaDesc) : Prop :=
  s.access acc = some a ∧ a.stage = .replied ∧ s.dmaFind a.core a.desc = some d ∧ d.id = a.desc
    ∧ (s.core a.core).dma.returns = []

/-- A finished descriptor of an engine: its slot, token, offset, status word and status. -/
def FinishedIn (s : State) (p : Nat) (eng : Engine) (slot tok off word st : Nat) : Prop :=
  match eng with
  | .matrix => ∃ d q, (s.core p).mxu.queue = d :: q ∧ d.finished = some st ∧ d.slot = slot ∧ d.token = tok ∧ d.off = off
      ∧ word = st + (if d.qovf then 256 else 0)
  | .vector => ∃ d q, (s.core p).vec.queue = d :: q ∧ d.finished = some st ∧ d.slot = slot ∧ d.token = tok ∧ d.off = off
      ∧ word = st + (if d.qovf then 256 else 0)
  | .dma id => ∃ d, (s.core p).dma.queue.find? (fun e => e.id == id) = some d ∧ d.finished = some st ∧ d.slot = slot ∧ d.token = tok ∧ d.off = off
      ∧ word = st

end Sys2Proof.Claims

/-- R95, R96, R102: a remote write covered by a live grant waits at its bank, or, while eight writes wait there, at the mesh; any
other is refused, counted in
SPAD_NACK_COUNT and changes no byte. A remote read waits at its bank, and of an off bank it returns zeros. -/
def Sys2Proof.Claims.RemoteAccesses : Prop :=
  ∀ (s : State) (id p off : Nat) (a : Access), AtSpad s id a p off →
    (∀ data r, a.kind = .write data → Covered s p off data.length a r →
      8 ≤ (s.core p).inflight (off / 0x10000) → exec (.remoteWrite id) s = .next s)
    ∧ (∀ data r, a.kind = .write data → Covered s p off data.length a r → (s.core p).inflight (off / 0x10000) < 8 →
      ∃ t, exec (.remoteWrite id) s = .next t
        ∧ QueuedAt s t p (off / 0x10000) (.remoteWrite id off data (some r) none)
        ∧ BanksOnly s t p ∧ (∀ q, q ≠ p → t.core q = s.core q) ∧ (∀ x, sbyte t p x = sbyte s p x))
    ∧ (∀ data, a.kind = .write data → (∀ r, ¬ Covered s p off data.length a r) →
      ∃ t, exec (.remoteWrite id) s = .next t
        ∧ (∃ b, t.access id = some b ∧ b.status = 2 ∧ b.stage = .replying)
        ∧ t.fld (unitCore p) rSPAD_NACK_COUNT 0 32
            = Nat.min (2 ^ 32 - 1) (s.fld (unitCore p) rSPAD_NACK_COUNT 0 32 + 1)
        ∧ (∀ q, ∀ x, sbyte t q x = sbyte s q x) ∧ (t.spad p).banks = (s.spad p).banks)
    ∧ (∀ n, a.kind = .read n → (bankAt s p (off / 0x10000)).on = true →
      ∃ t, exec (.remoteRead id) s = .next t ∧ QueuedAt s t p (off / 0x10000) (.remoteRead id off n) ∧ BanksOnly s t p)
    ∧ (∀ n, a.kind = .read n → (bankAt s p (off / 0x10000)).on = false →
      ∃ t, exec (.remoteRead id) s = .next t
        ∧ (∃ b, t.access id = some b ∧ b.status = 0 ∧ b.data = zeros n ∧ b.stage = .replying)
        ∧ bankAt t p (off / 0x10000) = { bankAt s p (off / 0x10000) with readOff := true })

/-- R101, R103, R104: a request for credits of an open plain window that admits its sender is granted what the pool has, of
at least one, under the lowest free grant entry, for SPAD_CREDIT_TTL microseconds; with no entry free or 64 held it is told
to retry, and without a credit it is held. A held request at the front is granted in the same way. -/
def Sys2Proof.Claims.CreditRequests : Prop :=
  ∀ (s : State) (c : CoreIx) (id p off w extent want n : Nat) (a : Access),
    (AtSpad s id a p off → a.kind = .creditReq extent want → PlainRequest s p w off extent want n →
      ((s.spad p).win w).admits (requester s a) = true →
      ((∃ k, k < 64 ∧ (s.spad p).grant k = none) → (s.spad p).hold.length < 64 → 1 ≤ n →
          (∀ r ∈ (s.spad p).hold, (s.spad p).winAt r.off r.extent ≠ some w) →
        ∃ t gi b, exec (.creditRequest id) s = .next t ∧ NewGrant s t p w gi off extent n (requester s a)
          ∧ t.access id = some b ∧ b.answer = some (.grant ⟨gi, w, ((s.spad p).win w).gen, (s.spad p).grantNo⟩ n)
          ∧ (t.spad p).hold = (s.spad p).hold)
      ∧ (((∀ k, k < 64 → (s.spad p).grant k ≠ none) ∨ 64 ≤ (s.spad p).hold.length) →
        ∃ t b, exec (.creditRequest id) s = .next t ∧ t.access id = some b ∧ b.answer = some .retry ∧ t.cores = s.cores)
      ∧ ((∃ k, k < 64 ∧ (s.spad p).grant k = none) → (s.spad p).hold.length < 64 → n = 0 →
        ∃ t b, exec (.creditRequest id) s = .next t ∧ t.access id = some b ∧ b.answer = some .hold
          ∧ (t.spad p).hold = (s.spad p).hold
              ++ [{ id := id, who := requester s a, off := off, extent := extent, want := want, got := 0 }]))
    ∧ (∀ r rest, (s.spad c.val).hold = r :: rest → PlainRequest s c.val w r.off r.extent r.want n → 1 ≤ n →
        (∃ k, k < 64 ∧ (s.spad c.val).grant k = none) →
        ∃ t gi, exec (.heldRequestGrant c) s = .next t ∧ NewGrant s t c.val w gi r.off r.extent n r.who
          ∧ (t.spad c.val).hold = rest)

/-- R103–R105, R110: at its expiry, or when its sender returns it, a grant ends and its window counts its credits back; a
close whose conditions hold completes, leaves the window closed with its generation, and completes the tokens that wait for
it in the next cycle. At the sender a grant is taken up, RETRY is repeated after 1 µs, and REFUSED fails the descriptor. -/
def Sys2Proof.Claims.CreditEnds : Prop :=
  ∀ (s : State) (c : CoreIx),
    (∀ (gi : Fin 64) g, (s.spad c.val).grant gi.val = some g → g.slots = [] →
      ∃ t, exec (.grantExpiry c gi) s = .next t ∧ t.now = Nat.max s.now g.expireAt
        ∧ (t.spad c.val).grant gi.val = none
        ∧ ((t.spad c.val).win g.win).creditsOut = ((s.spad c.val).win g.win).creditsOut
            - (if ((s.spad c.val).win g.win).gen = g.gen then g.out else 0)
        ∧ CoreAndTime s t c.val ∧ (∀ x, sbyte t c.val x = sbyte s c.val x))
    ∧ (∀ w : Fin 32, ((s.spad c.val).win w.val).isOpen = true → ((s.spad c.val).win w.val).closing = true →
        ((s.spad c.val).win w.val).creditsOut = 0 → (s.spad c.val).writesWaiting ((s.spad c.val).win w.val) = false →
        ∃ t, exec (.closeComplete c w) s = .next t
          ∧ (t.spad c.val).win w.val = { Window.reset with gen := ((s.spad c.val).win w.val).gen }
          ∧ (∀ i k, (i, k) ∈ ((s.spad c.val).win w.val).closers → (s.slot c.val i).mode ≠ .waiting →
              (s.slot c.val i).token k = .busy → NotDue (s.slot c.val i) k →
                (t.slot c.val i).token k = .busy ∧ (s.now + 1, k, 0) ∈ (t.slot c.val i).due)
          ∧ CoreOnly s t c.val)
    ∧ (∀ id a r n extent want q d, s.access id = some a → a.kind = .creditReq extent want →
        a.answer = some (.grant r n) → s.replyOnWay id = false → s.needsCredit a.core a.addr = some q →
        ((s.spad q).win r.win).channel = false → s.dmaFind a.core a.desc = some d →
        ∃ t d', exec (.creditReply id) s = .next t ∧ t.access id = none ∧ t.dmaFind a.core a.desc = some d'
          ∧ d' = { d with credit := .granted r n a.addr (a.addr + extent) })
    ∧ (∀ desc d lo extent want k, s.dmaFind c.val desc = some d → d.credit = .retryAt lo extent want k → d.stopped = false →
        s.active.target lo ≠ none → d.dst + (if d.byRegister then 0 else d.row * d.dstStride) ≤ lo →
        ∃ t b, exec (.creditRetry c desc) s = .next t ∧ t.now = Nat.max s.now k
          ∧ t.access s.mesh.nextAccess = some b ∧ b.addr = lo ∧ (∃ m, b.kind = .creditReq extent m)
          ∧ (∃ d' m, t.dmaFind c.val desc = some d' ∧ d'.credit = .asked lo extent m))
    ∧ (∀ desc r rest g, (s.core c.val).dma.returns = r :: rest → r.desc = desc → r.outstanding = 0 →
        (s.spad r.target).grant r.ref.index = some g → g.no = r.ref.no →
        ∃ t, exec (.creditReturn c desc) s = .next t ∧ (t.core c.val).dma.returns = rest
          ∧ (t.spad r.target).grant r.ref.index = none)

/-- R43, R48, R183, R198, R509: a COPY, COPY2D or FILL that may start or has started, and whose destination needs no credit,
issues its next accesses: the reads of the source for one line of its destination, or the pattern written there, at its place in
transfer order, and goes on to the place behind it. -/
def Sys2Proof.Claims.DmaAccesses : Prop :=
  ∀ (s : State) (c : CoreIx) (i : Instr) (d : DmaDesc) (op : DmaOp) (n w k : Nat),
    dmaCommand c d.id i = some op → DmaGoes s c.val d → d.op = op → d.byRegister = false →
      w = Nat.min (d.length - d.col) (64 - dstPlace d % 64) →
      n = (if op = .fill then w else Nat.min w (64 - srcPlace d % 64)) → k = (if n < w then 2 else 1) →
      d.col < d.length → s.needsCredit c.val (dstPlace d) = none →
      ∃ t x d', exec i s = .next t
        ∧ t.access s.mesh.nextAccess = some x ∧ x.core = c.val ∧ x.desc = d.id ∧ x.row = d.row ∧ x.col = d.col
        ∧ x.patch = d.patch ∧ x.tick = d.tick
        ∧ (op ≠ .fill → x.addr = srcPlace d ∧ x.kind = .read n)
        ∧ (n < w → ∃ y, t.access (s.mesh.nextAccess + 1) = some y ∧ y.core = c.val ∧ y.desc = d.id ∧ y.row = d.row
            ∧ y.col = d.col + n ∧ y.addr = srcPlace d + n ∧ y.kind = .read (w - n))
        ∧ (op = .fill → x.addr = dstPlace d ∧ ∃ bs, x.kind = .write bs ∧ bs.length = n
            ∧ ∀ j, j < n → bs.getD j 0 = BitVec.ofNat 8 (d.pattern.toNat / 2 ^ (8 * ((d.col + j) % 4))))
        ∧ t.dmaFind c.val d.id = some d' ∧ d'.started = true ∧ d'.outstanding = d.outstanding + k
        ∧ (d'.row, d'.col) = (if d.col + w < d.length then (d.row, d.col + w) else (d.row + 1, 0))
        ∧ t.mesh.nextAccess = s.mesh.nextAccess + k

/-- R510: a COPY with an operand in a register space makes its accesses one at a time: while one is under way it issues none; then
the write for which the bytes have come, where it needs no credit, else the next read, of 8 bytes at a multiple of 8 and of 4
elsewhere. -/
def Sys2Proof.Claims.RegisterCopies : Prop :=
  ∀ (s : State) (c : CoreIx) (d : DmaDesc), d.op = .copy → d.byRegister = true → DmaGoes s c.val d → d.row = 0 →
    (d.started = true → d.outstanding ≠ 0 → exec (.copy c d.id) s = .next s)
    ∧ (d.outstanding = 0 → (d.length ≤ d.writeCol ∨ d.gathered 0 d.writeCol (d.writeSize 0 d.writeCol) = none) →
        ∃ t x d' n, exec (.copy c d.id) s = .next t ∧ t.access s.mesh.nextAccess = some x ∧ x.core = c.val ∧ x.desc = d.id
          ∧ x.addr = srcPlace d ∧ x.kind = .read n
          ∧ (isRegAddr (srcPlace d) = true →
              n = (if srcPlace d % 8 = 0 ∧ 8 ≤ d.length - d.col then 8 else 4))
          ∧ (isRegAddr (srcPlace d) = false → n = Nat.min (d.length - d.col) (64 - srcPlace d % 64))
          ∧ t.dmaFind c.val d.id = some d' ∧ d'.started = true ∧ d'.outstanding = 1)
    ∧ (∀ bs, d.outstanding = 0 → d.writeCol < d.length →
        d.gathered 0 d.writeCol (d.writeSize 0 d.writeCol) = some bs → s.needsCredit c.val (d.dst + d.writeCol) = none →
        ∃ t x d', exec (.copy c d.id) s = .next t ∧ t.access s.mesh.nextAccess = some x ∧ x.core = c.val ∧ x.desc = d.id
          ∧ x.addr = d.dst + d.writeCol ∧ x.kind = .write bs
          ∧ t.dmaFind c.val d.id = some d' ∧ d'.writeCol = d.writeCol + d.writeSize 0 d.writeCol ∧ d'.outstanding = 1
          ∧ (d'.row, d'.col) = (d.row, d.col))

/-- R509: the reply to a write that succeeded ends one access, and the last one of a descriptor that has issued all finishes
it with OK; data that was read waits until the bytes of its destination line are complete, which then go out as one write; an
access that failed stops the descriptor, with the status of the earliest place in transfer order. -/
def Sys2Proof.Claims.DmaReplies : Prop :=
  ∀ (s : State) (acc : Nat) (a : Access) (d : DmaDesc), Answered s acc a d → d.op ≠ .mcast → d.resending = false →
      1 ≤ d.outstanding → d.finished = none → d.started = true → (∀ e ∈ (s.core a.core).dma.stopping, e.id ≠ d.id) →
    (∀ bs, a.kind = .write bs → a.status = 0 →
      ∃ t d', exec (.replyArrival acc) s = .next t ∧ t.access acc = none ∧ t.dmaFind a.core a.desc = some d'
        ∧ d'.outstanding = d.outstanding - 1
        ∧ d'.finished = (if d.outstanding = 1 ∧ (d.stopped = true ∨ (d.rows ≤ d.row ∧ d.gather = []))
            then some ((d.failed.map (fun f => f.2.2)).getD 0) else none))
    ∧ (∀ n lo, a.kind = .read n → a.status = 0 → d.failed = none → d.byRegister = false → acc ≠ s.mesh.nextAccess →
        lo = d.unitStart a.row a.col →
      (∀ bs, (d.put a.row a.col a.data).gathered a.row lo (d.writeSize a.row lo) = some bs →
        ∃ t d' x, exec (.replyArrival acc) s = .next t ∧ t.dmaFind a.core a.desc = some d' ∧ d'.finished = none
          ∧ d'.outstanding = d.outstanding
          ∧ t.access s.mesh.nextAccess = some x ∧ x.kind = .write bs ∧ x.grant = a.grant
          ∧ x.addr = d.dst + a.row * d.dstStride + lo)
      ∧ ((d.put a.row a.col a.data).gathered a.row lo (d.writeSize a.row lo) = none →
        ∃ t d', exec (.replyArrival acc) s = .next t ∧ t.dmaFind a.core a.desc = some d'
          ∧ d'.outstanding = d.outstanding - 1 ∧ d'.gather = (d.put a.row a.col a.data).gather
          ∧ t.mesh.nextAccess = s.mesh.nextAccess))
    ∧ (∀ n, a.kind = .read n → a.status ≠ 0 → d.failed = none →
      ∃ t d', exec (.replyArrival acc) s = .next t ∧ t.dmaFind a.core a.desc = some d' ∧ d'.stopped = true
        ∧ d'.failed = some (a.row, a.col, a.status))

/-- R215–R217: an acknowledgement or a miss notice of a multicast marks its target; with every target accounted for and none
missed the miss bitmap is written and the descriptor is finished; a missed one is re-sent to by unicast first. -/
def Sys2Proof.Claims.MulticastTargets : Prop :=
  ∀ (s : State) (c : CoreIx) (d : DmaDesc) (i t0 : Nat),
    s.dmaFind c.val d.id = some d → (groupTargets d.group)[i]? = some t0 → (groupTargets d.group).Nodup →
    (∀ k st, s.mesh.acks[k]? = some (c.val, d.id, t0, st) → d.target i = .pending →
      ∃ t d', exec (.mcastAck k) s = .next t ∧ t.mesh.acks = s.mesh.acks.eraseIdx k ∧ t.dmaFind c.val d.id = some d'
        ∧ d'.target i = (if st = 0 then .acked else .refused st) ∧ (∀ j, j ≠ i → d'.target j = d.target j))
    ∧ (∀ k, s.mesh.notices[k]? = some (c.val, d.id, [t0]) →
        (d.target i = .pending ∨ d.target i = .acked) →
      ∃ t d', exec (.missNotice k) s = .next t ∧ t.mesh.notices = s.mesh.notices.eraseIdx k
        ∧ t.dmaFind c.val d.id = some d' ∧ d'.target i = .missed ∧ (∀ j, j ≠ i → d'.target j = d.target j))
    ∧ (d.op = .mcast → d ∈ (s.core c.val).dma.queue → s.coreDown c.val = false → d.finished = none → d.failed = none → d.length = 64 * d.sentLines → d.resending = false →
        (∀ j, j < (groupTargets d.group).length → d.target j ≠ .pending) →
        ((∀ j, j < (groupTargets d.group).length → d.target j ≠ .missed) →
          ∃ t d', exec (.mcastResend c d.id) s = .next t ∧ t.dmaFind c.val d.id = some d'
            ∧ d'.finished = some d.mcastStatus
            ∧ (∀ j, j < (groupTargets d.group).length →
                (sbyte t c.val (d.missOff + j / 8)).getLsbD (j % 8) = (d.target j).isMissed))
        ∧ (∀ j, j < (groupTargets d.group).length → d.target j = .missed → (∀ k, k < j → d.target k ≠ .missed) →
          ∃ t d', exec (.mcastResend c d.id) s = .next t ∧ t.dmaFind c.val d.id = some d' ∧ d'.resending = true
            ∧ d'.resendAt = j ∧ d'.dst = d.targetAddr j ∧ d'.row = 0 ∧ d'.col = 0))

/-- R43, R215, R260: an MCAST reads its source in order, line by line; a DXI released at the commit enters the queue while
it has a place, and its slot goes on with the token in RD. -/
def Sys2Proof.Claims.MulticastAndHeldStarts : Prop :=
  ∀ (s : State) (c : CoreIx) (d : DmaDesc),
    (DmaGoes s c.val d → d.op = .mcast → d.resending = false →
      ∃ t x d' n, exec (.mcast c d.id) s = .next t
        ∧ t.access s.mesh.nextAccess = some x ∧ x.core = c.val ∧ x.desc = d.id ∧ x.addr = d.src + d.col
        ∧ x.kind = .read n ∧ n ≤ 64 ∧ (d.src + d.col) % 64 + n ≤ 64
        ∧ t.dmaFind c.val d.id = some d' ∧ d'.started = true ∧ d'.outstanding = d.outstanding + 1)
    ∧ ((s.core c.val).dma.waiting.find? (fun e => !e.held) = some d → (s.core c.val).dma.queue.length < 16 →
        ∀ rd k, (s.slot c.val d.slot).wait = .held (.dxi rd k) →
        ∃ t, exec (.heldDxiEnqueue c) s = .next t
          ∧ (t.core c.val).dma.queue = (s.core c.val).dma.queue ++ [d]
          ∧ (t.core c.val).dma.waiting = (s.core c.val).dma.waiting.erase d
          ∧ (t.slot c.val d.slot).mode = .ready ∧ (t.slot c.val d.slot).wait = .none
          ∧ (t.slot c.val d.slot).reg rd = (if rd = 0 then 0 else BitVec.ofNat 64 k)
          ∧ CoreOnly s t c.val)

/-- R43, R44, R48, R135: a completion writes the status word of a finished descriptor at its bytes 56 to 59, completes its
BUSY token with the status, and takes the descriptor out of its queue. -/
def Sys2Proof.Claims.DescriptorCompletions : Prop :=
  ∀ (s : State) (c : CoreIx) (eng : Engine) (slot tok off word st : Nat),
    FinishedIn s c.val eng slot tok off word st → slot < 8 →
      ∃ t, exec (.descriptorCompletion c eng) s = .next t
        ∧ BytesWritten s t c.val (off + 56) (leBytes 4 word)
        ∧ ((s.slot c.val slot).token tok = .busy → (s.slot c.val slot).mode ≠ .waiting →
            (t.slot c.val slot).token tok = .completed st)
        ∧ (∀ rd, (s.slot c.val slot).token tok = .busy → (s.slot c.val slot).mode = .waiting →
            (s.slot c.val slot).wait = .token rd tok →
            (t.slot c.val slot).mode = .ready ∧ (t.slot c.val slot).token tok = .free
              ∧ (t.slot c.val slot).reg rd = (if rd = 0 then 0 else BitVec.ofNat 64 st))
        ∧ (match eng with
          | .matrix => (t.core c.val).mxu.queue = (s.core c.val).mxu.queue.tail
          | .vector => (t.core c.val).vec.queue = (s.core c.val).vec.queue.tail
          | .dma id => (t.core c.val).dma.queue = (s.core c.val).dma.queue.filter (fun e => e.id != id))

/-- Remote accesses, credits and their ends (R95-R103). -/
def Obligations.RemoteAccessesAndCredits : Prop :=
  Claims.RemoteAccesses ∧ Claims.CreditRequests ∧ Claims.CreditEnds

/-- The accesses and the replies of DMA descriptors (R210-R216). -/
def Obligations.DmaTransfers : Prop :=
  Claims.DmaAccesses ∧ Claims.RegisterCopies ∧ Claims.DmaReplies

/-- Multicast, held starts and the completions of descriptors. -/
def Obligations.MulticastAndCompletions : Prop :=
  Claims.MulticastTargets ∧ Claims.MulticastAndHeldStarts ∧ Claims.DescriptorCompletions

namespace Sys2Proof.Claims

open Sys2Proof.Machine

/-- The head of the matrix queue of core `p`, of operation `op`, whose work is to be done and has not begun (R43, R144). -/
def MatrixHead (s : State) (p : Nat) (d : EngDesc) (q : List EngDesc) (op : Nat) : Prop :=
  (s.core p).mxu.queue = d :: q ∧ d.finished = none ∧ d.pos = 0 ∧ d.got = [] ∧ leAt d.raw 0 1 % 16 = op ∧ s.coreDown p = false

/-- The head of the vector queue of core `p` (R43, R164). -/
def VectorHead (s : State) (p : Nat) (d : EngDesc) (q : List EngDesc) (op : Nat) : Prop :=
  (s.core p).vec.queue = d :: q ∧ d.finished = none ∧ d.pos = 0 ∧ d.got = [] ∧ d.group = 0 ∧ leAt d.raw 0 1 % 16 = op
    ∧ s.coreDown p = false

/-- The head of the matrix queue is finished with a status; the queue is else as it was. -/
def MatrixDone (t : State) (p : Nat) (d : EngDesc) (q : List EngDesc) (st : Nat) : Prop :=
  ∃ f k, (t.core p).mxu.queue = { d with finished := some st, flags := f, pos := k } :: q

/-- The head of the vector queue is finished with a status. -/
def VectorDone (t : State) (p : Nat) (d : EngDesc) (q : List EngDesc) (st : Nat) : Prop :=
  ∃ f o k g, (t.core p).vec.queue = { d with finished := some st, flags := f, qovf := o, pos := k, group := g } :: q

/-- Nothing comes before an engine at the banks of core `p` for `n` accesses: every bank serves, and neither a task processor, a
clearing write nor a request of priority 6 waits (R89, R90). -/
def BanksFree (s : State) (p n : Nat) : Prop :=
  (∀ b, b < 16 → BankServes s p b ∧ ((s.spad p).bank b).p6 = [])
    ∧ (∀ j, j < 8 → (s.slot p j).mem = none ∧ (s.slot p j).mode ≠ .launching)
    ∧ ((s.reg (unitCore p) rSPAD_CTRL).testBit 0 = false
        ∨ ∀ a b, a < 16 → b < 16 →
            Nat.max s.now ((s.spad p).bank a).freeAt + n < ((s.spad p).bank b).scrubDue + 1024)

/-- The same for the matrix unit, whose accesses come after those of the vector engine. -/
def MatrixFree (s : State) (p n : Nat) : Prop := BanksFree s p n ∧ s.vecNext p = none

/-- The tiles of a descriptor's block: ACC_TILE onward, TM × TN of them (R142, R145). -/
def blockTile (d : EngDesc) (t : Nat) : Prop :=
  leAt d.raw 2 1 % 8 ≤ t ∧ t < leAt d.raw 2 1 % 8 + (leAt d.raw 3 1 % 16) * (leAt d.raw 3 1 / 16)

/-- Block row and column of a tile. -/
def tileRow (d : EngDesc) (t : Nat) : Nat := (t - leAt d.raw 2 1 % 8) / (leAt d.raw 3 1 / 16)
def tileCol (d : EngDesc) (t : Nat) : Nat := (t - leAt d.raw 2 1 % 8) % (leAt d.raw 3 1 / 16)

/-- An accumulator element. -/
def accAt (s : State) (p t r k : Nat) : BitVec 32 := SMap.get 0 (s.core p).mxu.acc (t * 1024 + r * 32 + k)

/-- The tiles outside the block keep elements, KIND and POISON. -/
def OtherTiles (s t : State) (p : Nat) (d : EngDesc) : Prop :=
  ∀ x, ¬ blockTile d x →
    (∀ r k, r < 32 → k < 32 → accAt t p x r k = accAt s p x r k)
      ∧ (t.core p).mxu.isInt x = (s.core p).mxu.isInt x ∧ (t.core p).mxu.isPoisoned x = (s.core p).mxu.isPoisoned x

/-- The 32-bit word of operand C for an element of a tile (R146). -/
def wordC (s : State) (p : Nat) (d : EngDesc) (t r k : Nat) : Nat :=
  leNat ((s.spad p).read (d.spadBase + leAt d.raw 32 4 + (32 * tileRow d t + r) * leAt d.raw 36 4
    + 4 * (32 * tileCol d t + k)) 4)

/-- No error shows while an engine streams its operands, and the rows hold none. -/
def StreamClean (s : State) (p : Nat) (err : StreamErr) (rows : List (Nat × Nat)) : Prop :=
  err.single = [] ∧ err.double = [] ∧ ∀ e ∈ rows, Clean (s.spad p) e.1 e.2

/-- An integer result in `n` bits under WRAP: modulo 2^`n`, or clamped (R133). -/
def narrowed (n : Nat) (wrap : Bool) (x : Int) : Int :=
  if wrap then toSigned n ((x % 2 ^ n).toNat) else Max.max (-(2 ^ (n - 1))) (Min.min (2 ^ (n - 1) - 1) x)

/-- The scratchpad bytes of a core are as they were. -/
def SameBytes (s t : State) (p : Nat) : Prop := ∀ x, sbyte t p x = sbyte s p x

/-- The other cores, the DRAM, the queue of commands and the placement are as they were. -/
def EngineFrame (s t : State) (p : Nat) : Prop :=
  (∀ q, q ≠ p → t.core q = s.core q) ∧ (∀ j, t.slot p j = s.slot p j) ∧ t.drams = s.drams ∧ t.pending = s.pending
    ∧ t.mesh = s.mesh ∧ t.active = s.active

/-- A byte of a tile buffer and of the parameter registers of the vector engine. -/
def bufAt (s : State) (p n k : Nat) : Byte := SMap.get 0 (s.core p).vec.buf (n * 16384 + k)
def paramAt (s : State) (p k : Nat) : Byte := SMap.get 0 (s.core p).vec.params k

end Sys2Proof.Claims

/-- R154, R155, R158: ZACC zeroes, and LDACC loads, every element of the tiles of its block, sets their KIND and clears their
POISON; STACC with RAW writes the words of the elements to the rows of C, and of a poisoned tile it writes nothing and ends
with UNCORRECTABLE. No other tile and no other byte changes. -/
def Sys2Proof.Claims.MatrixMoves : Prop :=
  ∀ (s : State) (c : CoreIx) (d : EngDesc) (q : List EngDesc) (err : StreamErr),
    1 ≤ leAt d.raw 3 1 / 16 → 1 ≤ leAt d.raw 3 1 % 16 →
    (MatrixHead s c.val d q 1 → ∃ t, exec (.zacc c) s = .next t ∧ t.now = s.now ∧ MatrixDone t c.val d q 0 ∧ OtherTiles s t c.val d
        ∧ EngineFrame s t c.val ∧ SameBytes s t c.val
        ∧ ∀ x, blockTile d x → (∀ r k, r < 32 → k < 32 → accAt t c.val x r k = 0)
            ∧ (t.core c.val).mxu.isInt x = (leAt d.raw 4 1).testBit 1 ∧ (t.core c.val).mxu.isPoisoned x = false)
    ∧ (MatrixHead s c.val d q 2 → MatrixFree s c.val (mxAccesses d).length → StreamClean s c.val err (mxRowsC d) →
        ∃ t, exec (.ldacc c err) s = .next t ∧ MatrixDone t c.val d q 0 ∧ OtherTiles s t c.val d ∧ EngineFrame s t c.val
        ∧ SameBytes s t c.val
        ∧ ∀ x, blockTile d x → (∀ r k, r < 32 → k < 32 → accAt t c.val x r k = BitVec.ofNat 32 (wordC s c.val d x r k))
            ∧ (t.core c.val).mxu.isInt x = (leAt d.raw 4 1).testBit 1 ∧ (t.core c.val).mxu.isPoisoned x = false)
    ∧ (MatrixHead s c.val d q 4 → MatrixFree s c.val (mxAccesses d).length →
        (∀ x, blockTile d x → (s.core c.val).mxu.isPoisoned x = false) →
        (leAt d.raw 4 1).testBit 2 = true → 128 * (leAt d.raw 3 1 / 16) ≤ leAt d.raw 36 4 →
        ∃ t, exec (.stacc c err) s = .next t ∧ MatrixDone t c.val d q 0
        ∧ (∀ x r k, blockTile d x → r < 32 → k < 32 → wordC t c.val d x r k = (accAt s c.val x r k).toNat)
        ∧ (∀ x, (∀ e ∈ mxRowsC d, ¬ (e.1 ≤ x ∧ x < e.1 + e.2)) → sbyte t c.val x = sbyte s c.val x)
        ∧ (∀ x r k, accAt t c.val x r k = accAt s c.val x r k))
    ∧ (MatrixHead s c.val d q 4 → (∃ x, blockTile d x ∧ (s.core c.val).mxu.isPoisoned x = true) →
        ∃ t, exec (.stacc c err) s = .next t ∧ MatrixDone t c.val d q 4 ∧ SameBytes s t c.val
          ∧ (∀ x r k, accAt t c.val x r k = accAt s c.val x r k))

/-- R123, R133, R148, R153, R155: ADDACC adds the words of C to the elements, in an INT32 tile with wrap or saturation as
NCTL says; an integer MMA with wrap and without INIT leaves in every element the sum of the products of the operands' elements over
K, modulo 2^32; a floating-point MMA leaves FP32 tiles. An uncorrectable operand poisons every tile of the block and ends
the descriptor with UNCORRECTABLE. -/
def Sys2Proof.Claims.MatrixArithmetic : Prop :=
  ∀ (s : State) (c : CoreIx) (d : EngDesc) (q : List EngDesc) (err : StreamErr),
    1 ≤ leAt d.raw 3 1 / 16 → 1 ≤ leAt d.raw 3 1 % 16 →
    (MatrixHead s c.val d q 3 → MatrixFree s c.val (mxAccesses d).length → StreamClean s c.val err (mxRowsC d) →
        ∃ t, exec (.addacc c err) s = .next t ∧ MatrixDone t c.val d q 0 ∧ OtherTiles s t c.val d ∧ EngineFrame s t c.val
        ∧ SameBytes s t c.val
        ∧ ∀ x, blockTile d x → (s.core c.val).mxu.isInt x = true → ∀ r k, r < 32 → k < 32 →
            (accAt t c.val x r k).toInt = narrowed 32 ((leAt d.raw 1 1).testBit 7)
              ((accAt s c.val x r k).toInt + toSigned 32 (wordC s c.val d x r k)))
    ∧ (MatrixHead s c.val d q 0 → MatrixFree s c.val (mxAccesses d).length → StreamClean s c.val err (mxRows d) →
        ∃ t, exec (.mma c err) s = .next t ∧ MatrixDone t c.val d q 0 ∧ OtherTiles s t c.val d ∧ SameBytes s t c.val
        ∧ ∀ x, blockTile d x → (t.core c.val).mxu.isInt x = (5 ≤ leAt d.raw 1 1 % 8 && leAt d.raw 1 1 % 8 < 8 : Bool)
          ∧ (5 ≤ leAt d.raw 1 1 % 8 → leAt d.raw 1 1 % 8 < 8 → (leAt d.raw 1 1).testBit 7 = true →
              (leAt d.raw 4 1).testBit 0 = false → ∀ r k, r < 32 → k < 32 →
              accAt t c.val x r k = BitVec.ofInt 32 (((List.range (leAt d.raw 8 4)).map (fun j =>
                iVal (leAt d.raw 1 1 % 8) (packedAt ((s.spad c.val).read
                    (d.spadBase + leAt d.raw 16 4 + j * leAt d.raw 20 4) (mxSegA d.raw))
                  (fmtWidth (leAt d.raw 1 1 % 8)) (32 * tileRow d x + r))
                * iVal (leAt d.raw 1 1 % 8) (packedAt ((s.spad c.val).read
                    (d.spadBase + leAt d.raw 24 4 + j * leAt d.raw 28 4) (mxSegB d.raw))
                  (fmtWidth (leAt d.raw 1 1 % 8)) (32 * tileCol d x + k)))).sum)))
    ∧ (∀ e w, MatrixHead s c.val d q 0 → MatrixFree s c.val (mxAccesses d).length → err.single = [] → err.double = [] → e ∈ mxRows d → e.1 / 8 * 8 ≤ w →
        w < e.1 + e.2 → w % 8 = 0 → (s.spad c.val).isUe w = true →
        ∃ t, exec (.mma c err) s = .next t ∧ MatrixDone t c.val d q 4
          ∧ (∀ x, blockTile d x → (t.core c.val).mxu.isPoisoned x = true)
          ∧ (∀ x r k, accAt t c.val x r k = accAt s c.val x r k) ∧ SameBytes s t c.val)

/-- R163, R168, R178: LDPARAM loads every parameter register, holding only the bits its fields have; LDTILE copies its bytes
into the buffer it names and clears that buffer's POISON, or with an uncorrectable line sets it; a CHAIN that reads no
poisoned buffer and no uncorrectable word runs over all its groups and is finished with OK, and one that would read a
poisoned buffer ends with UNCORRECTABLE and writes nothing. -/
def Sys2Proof.Claims.VectorDescriptors : Prop :=
  ∀ (s : State) (c : CoreIx) (d : EngDesc) (q : List EngDesc) (err : StreamErr) (src n : Nat),
    src = d.spadBase + leAt d.raw 8 4 → n = leAt d.raw 1 1 / 8 % 8 - 1 →
    (VectorHead s c.val d q 1 → BanksFree s c.val 1 → 64 ∣ src → StreamClean s c.val err [(src, 64)] →
      ∃ t, exec (.ldparam c err) s = .next t ∧ VectorDone t c.val d q 0 ∧ EngineFrame s t c.val ∧ SameBytes s t c.val
        ∧ (∀ k, k < 37 → k ≠ 32 → k ≠ 33 → paramAt t c.val k = sbyte s c.val (src + k))
        ∧ (paramAt t c.val 32).toNat = (sbyte s c.val (src + 32)).toNat % 32
        ∧ (paramAt t c.val 33).toNat = (sbyte s c.val (src + 33)).toNat % 64
        ∧ (paramAt t c.val 37).toNat = (sbyte s c.val (src + 37)).toNat % 64
        ∧ (∀ m k, bufAt t c.val m k = bufAt s c.val m k))
    ∧ (VectorHead s c.val d q 2 → BanksFree s c.val 256 → 64 ∣ src → 64 ∣ leAt d.raw 4 3 → leAt d.raw 4 3 ≤ 16384 →
      StreamClean s c.val err [(src, leAt d.raw 4 3)] →
      ∃ t, exec (.ldtile c err) s = .next t ∧ VectorDone t c.val d q 0 ∧ EngineFrame s t c.val ∧ SameBytes s t c.val
        ∧ (∀ k, k < leAt d.raw 4 3 → bufAt t c.val n k = sbyte s c.val (src + k))
        ∧ (∀ k, leAt d.raw 4 3 ≤ k → k < 16384 → bufAt t c.val n k = bufAt s c.val n k)
        ∧ (∀ m k, m ≠ n → k < 16384 → bufAt t c.val m k = bufAt s c.val m k)
        ∧ (t.core c.val).vec.isPoisoned n = false)
    ∧ (VectorHead s c.val d q 2 → BanksFree s c.val 256 → 64 ∣ src → 64 ∣ leAt d.raw 4 3 → leAt d.raw 4 3 ≤ 16384 →
      1 ≤ leAt d.raw 1 1 / 8 % 8 → err.single = [] → err.double = [] →
      (∃ w, src ≤ w ∧ w < src + leAt d.raw 4 3 / 64 * 64 ∧ w % 8 = 0 ∧ (s.spad c.val).isUe w = true) →
      ∃ t, exec (.ldtile c err) s = .next t ∧ VectorDone t c.val d q 4 ∧ SameBytes s t c.val
        ∧ (t.core c.val).vec.isPoisoned n = true)
    ∧ (VectorHead s c.val d q 0 → BanksFree s c.val (40 * vxGroups d.raw) →
      (∀ k, k < 4 → (vxReadsTb d.raw k = true ∨ k ∈ vxKeys d.raw) → (s.core c.val).vec.isPoisoned k = false) →
      (∀ w, (s.spad c.val).isUe w = false) → err.single = [] → err.double = [] →
      ∃ t, exec (.chain c err) s = .next t ∧ VectorDone t c.val d q 0
        ∧ t.drams = s.drams ∧ (∀ j, t.slot c.val j = s.slot c.val j)
        ∧ (vxDest d.raw ≠ 0 → SameBytes s t c.val)
        ∧ (vxDest d.raw = 0 → (t.core c.val).vec.buf = (s.core c.val).vec.buf))
    ∧ (VectorHead s c.val d q 0 →
      (∃ k, k < 4 ∧ (vxReadsTb d.raw k = true ∨ k ∈ vxKeys d.raw) ∧ (s.core c.val).vec.isPoisoned k = true) →
      ∃ t, exec (.chain c err) s = .next t ∧ VectorDone t c.val d q 4 ∧ SameBytes s t c.val
        ∧ (t.core c.val).vec.buf = (s.core c.val).vec.buf)

/-- R163, R166, R169: a CHAIN of one unmasked stage on 16-bit integers from IN0 and IN1 writes, for every element, the sum, the
difference or the bitwise result of its two operands, and no other byte. -/
def Sys2Proof.Claims.VectorElements : Prop :=
  ∀ (s : State) (c : CoreIx) (d : EngDesc) (q : List EngDesc) (err : StreamErr) (op n in0 in1 out : Nat)
    (f : Nat → Nat → Nat),
    VectorHead s c.val d q 0 → BanksFree s c.val (40 * vxGroups d.raw) → (∀ w, (s.spad c.val).isUe w = false) → err.single = [] → err.double = [] →
      vxLast d.raw = 0 → vxOutStage d.raw = 0 → vxDest d.raw = 0 → vxOutMask d.raw = 0 → vxHsel d.raw = 0 →
      vxInFmt d.raw 0 = 5 → vxInFmt d.raw 1 = 5 →
      vxStage d.raw 0 = op + 2 ^ 5 * 5 + 2 ^ 11 + 2 ^ 12 * 1 + 2 ^ 16 * 2 →
      n = vxCount d.raw → in0 = d.spadBase + vxIn0 d.raw → in1 = d.spadBase + vxIn1 d.raw →
      out = d.spadBase + vxOut d.raw → in0 % 2 = 0 → in1 % 2 = 0 → out % 2 = 0 →
      (in0 + 2 * n ≤ out ∨ out + 2 * n ≤ in0) → (in1 + 2 * n ≤ out ∨ out + 2 * n ≤ in1) →
      (op, f) ∈ ([(0x01, fun a b => (a + b) % 2 ^ 16), (0x02, fun a b => (a + 2 ^ 16 - b) % 2 ^ 16),
        (0x0C, fun a b => a &&& b), (0x0D, fun a b => a ||| b), (0x0E, fun a b => a ^^^ b)] : List (Nat × (Nat → Nat → Nat))) →
      ∃ t, exec (.chain c err) s = .next t ∧ VectorDone t c.val d q 0
        ∧ (∀ e, e < n → leNat ((t.spad c.val).read (out + 2 * e) 2)
            = f (leNat ((s.spad c.val).read (in0 + 2 * e) 2)) (leNat ((s.spad c.val).read (in1 + 2 * e) 2)))
        ∧ (∀ x, ¬ (out ≤ x ∧ x < out + 2 * n) → sbyte t c.val x = sbyte s c.val x)

/-- R89, R92, R147, R163: the bank grants the next read of an engine when nothing of a higher priority waits there, the vector
engine before the matrix unit: the head of its queue has the bytes as they are at the grant, and is one access further. -/
def Sys2Proof.Claims.EngineReads : Prop :=
  ∀ (s : State) (c : CoreIx) (b : Fin 16) (err : EccErr) (d : EngDesc) (q : List EngDesc) (x : Nat × Nat),
    BankServes s c.val b.val → NoP6First s c.val b.val → (∀ j, j < 8 → (s.slot c.val j).mem = none) →
      (∀ j, j < 8 → (s.slot c.val j).mode ≠ .launching) → x.1 / 0x10000 = b.val → NoError err → Clean (s.spad c.val) x.1 x.2 →
      ((s.core c.val).mxu.queue = d :: q → s.mxuNext c.val = some x → leAt d.raw 0 1 % 16 ≠ 4 →
          (∀ y, s.vecNext c.val = some y → y.1 / 0x10000 ≠ b.val) →
          ∃ t, exec (.bankGrant c b err) s = .next t ∧ EngineFrame s t c.val ∧ SameBytes s t c.val
            ∧ (t.core c.val).mxu = { (s.core c.val).mxu with
                queue := { d with pos := d.pos + 1, got := d.got ++ (s.spad c.val).read x.1 x.2 } :: q })
      ∧ ((s.core c.val).vec.queue = d :: q → s.vecNext c.val = some x → leAt d.raw 0 1 % 16 = 1 →
          d.pos < d.reads.length →
          ∃ t, exec (.bankGrant c b err) s = .next t ∧ EngineFrame s t c.val ∧ SameBytes s t c.val
            ∧ (t.core c.val).vec = { (s.core c.val).vec with
                queue := { d with pos := d.pos + 1, got := d.got ++ (s.spad c.val).read x.1 x.2 } :: q })

/-- The matrix unit, and the reads of both engines at their banks. -/
def Obligations.MatrixUnit : Prop :=
  Claims.MatrixMoves ∧ Claims.MatrixArithmetic ∧ Claims.EngineReads

/-- The vector engine. -/
def Obligations.VectorEngine : Prop :=
  Claims.VectorDescriptors ∧ Claims.VectorElements

namespace Sys2Proof.Claims

open Sys2Proof.Machine

/-- Access `id` waits at the DRAM of a site, on logical die `d`, at offset `o` (R182). -/
def AtDram (s : State) (id : Nat) (a : Access) (site d o : Nat) : Prop :=
  s.access id = some a ∧ a.stage = .atTarget ∧ s.active.target a.addr = some (.dram d o) ∧ s.active.site d = some site

abbrev portAt (s : State) (site p : Nat) : DramPort := (s.dram site).port p

/-- The port takes `n` accesses of a requester of class `cls` now: it does not train, its line limit leaves room for them, and
the weighted round robin has reached the requester (R189, R191, R193). -/
def PortTurn (s : State) (cls site d p n : Nat) : Prop :=
  (portAt s site p).training = false ∧ (s.dram site).mayAccess p s.now n = true ∧ s.dramGrant site d p cls ≠ none

/-- No read of part `half` of the line of `o` that merging could join is in the merge buffer (R187, R188). -/
def NoMerge (s : State) (site p o half : Nat) : Prop :=
  (s.reg (unitDie site) rDRAM_CTRL).testBit 0 = false ∨ 64 ≤ ((portAt s site p).liveReads s.now).length
    ∨ ∀ r, r ∈ (portAt s site p).reads → r.isLive s.now = true → r.line = o / 64 * 64 → r.half ≠ half

/-- A byte of the DRAM of a site. -/
def dbyte (s : State) (site o : Nat) : Byte := SMap.get 0 (s.dram site).bytes o

/-- The bytes of a site's DRAM are the same but for those of `bs` from offset `o` up; no other site's change. -/
def DramWritten (s t : State) (site o : Nat) (bs : List Byte) : Prop :=
  (∀ x, dbyte t site x = if o ≤ x ∧ x < o + bs.length then bs.getD (x - o) 0 else dbyte s site x)
    ∧ ∀ v, v ≠ site → t.dram v = s.dram v

/-- A 32-bit counter has counted one, saturating. -/
def Counted (s t : State) (u o : Nat) : Prop := t.fld u o 0 32 = Nat.min (2 ^ 32 - 1) (s.fld u o 0 32 + 1)

/-- Access `id` is answered with a status and data. -/
def Replied (t : State) (id st : Nat) (data : List Byte) : Prop :=
  ∃ b, t.access id = some b ∧ b.stage = .replying ∧ b.status = st ∧ b.data = data

end Sys2Proof.Claims

/-- R183, R185, R187, R188, R189, R194: a read of a retired region is answered with POISON; a read that the port accepts now
joins a read of the same part of the same line in the merge buffer while merging is on, and gets the data of one that has
returned at once; else it is pending by itself, in the buffer unless 64 reads are there, with the bytes of its line as they
are. -/
def Sys2Proof.Claims.DramReads : Prop :=
  ∀ (s : State) (id site d o n p : Nat) (a : Access), AtDram s id a site d o → a.kind = .read n → p = dramPort o →
    s.dramGrant site d p (s.dramClass d a.core) ≠ none →
    ((s.dram site).isRetired o = true → (portAt s site p).training = false →
      ∃ t, exec (.dramRead id) s = .next t ∧ Replied t id 3 [] ∧ DramWritten s t site 0 []
        ∧ (portAt t site p).reads = (portAt s site p).reads)
    ∧ ((s.dram site).isRetired o = false → NoMerge s site p o (readHalf o n) →
        PortTurn s (s.dramClass d a.core) site d p 1 →
        ∃ t r, exec (.dramRead id) s = .next t
          ∧ (portAt t site p).reads = (portAt s site p).reads ++ [r]
          ∧ r.accs = [id] ∧ r.line = o / 64 * 64 ∧ r.half = readHalf o n ∧ r.back = none ∧ r.acceptedAt = s.now
          ∧ r.data = SMap.getRange 0 (s.dram site).bytes (o / 64 * 64) 64 ∧ r.poisoned = (s.dram site).isPoisoned o
          ∧ (r.live = true ↔ ((portAt s site p).liveReads s.now).length < 64) ∧ r.overwritten = false
          ∧ (portAt t site p).usedNow s.now = (portAt s site p).usedNow s.now + 1
          ∧ Counted s t (unitDie site) (rDRAM_READ_COUNT + 0x200 * p) ∧ DramWritten s t site 0 []
          ∧ t.access id = some a)
    ∧ (∀ r, (s.dram site).isRetired o = false → (s.reg (unitDie site) rDRAM_CTRL).testBit 0 = true →
        (portAt s site p).reads = [r] → r.live = true → r.line = o / 64 * 64 → r.half = readHalf o n →
        (r.back = none → ∃ t, exec (.dramRead id) s = .next t
          ∧ (portAt t site p).reads = [{ r with accs := r.accs ++ [id] }]
          ∧ Counted s t (unitDie site) (rDRAM_MERGE_COUNT + 0x200 * p) ∧ DramWritten s t site 0 [])
        ∧ (∀ c, r.back = some (c, 0) → s.now ≤ c + 32 → ∃ t, exec (.dramRead id) s = .next t
          ∧ Replied t id 0 ((r.data.drop (o % 64)).take n) ∧ (portAt t site p).reads = [r]
          ∧ Counted s t (unitDie site) (rDRAM_MERGE_COUNT + 0x200 * p) ∧ DramWritten s t site 0 []))

/-- R184, R185: the data of a pending read returns to its requester: its bytes with OK, or POISON for a line poisoned when the
read was accepted or since by an earlier read, or UNCORRECTABLE when its code shows more errors than it corrects, which
poisons the line unless a later write has replaced it. -/
def Sys2Proof.Claims.DramReadReturns : Prop :=
  ∀ (s : State) (site : Fin 204) (port : Fin 8) (err : Symbols) (r : DramRead) (id d o n : Nat) (a : Access) (bad : Bool),
    (portAt s site.val port.val).reads = [r] → r.back = none → r.accs = [id] → AtDram s id a site.val d o →
      a.kind = .read n → r.line = o / 64 * 64 →
      bad = (r.poisoned || (!r.overwritten && (s.dram site.val).isPoisoned o)) →
      ∃ t st, st = (if bad then 3 else if err = .many then 4 else 0)
        ∧ exec (.dramReadData site port 0 err) s = .next t
        ∧ Replied t id st (if st = 0 then (r.data.drop (o % 64)).take n else [])
        ∧ (portAt t site.val port.val).reads = [{ r with back := some (s.now, st) }]
        ∧ (t.dram site.val).isPoisoned o
            = ((s.dram site.val).isPoisoned o || (!bad && decide (err = .many) && !r.overwritten))
        ∧ DramWritten s t site.val 0 []

/-- R183–R186, R188, R194: an accepted write stores its bytes and no other; a whole line loses its poison; a part of a line
that is poisoned, or that its internal read finds uncorrectable, is stored, answered with OK, and leaves the line poisoned;
the line's reads leave the merge buffer; a write to a retired region stores nothing and is answered with POISON. A part of
a line waits while a read of the line is pending. -/
def Sys2Proof.Claims.DramWrites : Prop :=
  ∀ (s : State) (id site d o p : Nat) (a : Access) (data : List Byte) (err : Symbols), AtDram s id a site d o →
    a.kind = .write data → p = dramPort o →
    (wholeLine o data.length = true
      ∨ ∀ r, r ∈ (portAt s site p).reads → r.line = o / 64 * 64 → r.back = none → r.overwritten = true) →
    ((s.dram site).isRetired o = false →
      PortTurn s (s.dramClass d a.core) site d p (if wholeLine o data.length then 1 else 2) → o % 64 + data.length ≤ 64 →
        ∃ t, exec (.dramWrite id err) s = .next t ∧ Replied t id 0 [] ∧ DramWritten s t site o data
          ∧ (∀ x, (t.dram site).isPoisoned x = if x / 64 = o / 64 then
                ((s.dram site).isPoisoned o || decide (err = .many)) && !decide (o % 64 = 0 ∧ data.length = 64)
              else (s.dram site).isPoisoned x)
          ∧ (∀ r, r ∈ (portAt t site p).reads → r.line = o / 64 * 64 → r.live = false)
          ∧ Counted s t (unitDie site) (rDRAM_WRITE_COUNT + 0x200 * p))
    ∧ ((s.dram site).isRetired o = true → (portAt s site p).training = false →
        s.dramGrant site d p (s.dramClass d a.core) ≠ none →
        ∃ t, exec (.dramWrite id err) s = .next t ∧ Replied t id 3 [] ∧ DramWritten s t site 0 [])

/-- R183, R187, R191: a read of a clean line that one command performs whole (of an instruction cache or an edge die), which
merges with none, gives OK and the bytes it names, and counts as a read. -/
def Sys2Proof.Claims.WholeReads : Prop :=
  ∀ (s : State) (site o n cls p : Nat), p = dramPort o → NoMerge s site p o (readHalf o n) →
    PortTurn s cls site ((s.active.dieAt site).getD 255) p 1 → (s.dram site).isRetired o = false →
    (s.dram site).isPoisoned o = false →
    ∃ t, s.readLine site o n cls .none
        = some (0, ((SMap.getRange 0 (s.dram site).bytes (o / 64 * 64) 64).drop (o % 64)).take n, t)
      ∧ Counted s t (unitDie site) (rDRAM_READ_COUNT + 0x200 * p) ∧ DramWritten s t site 0 []

/-- R181, R185, R191, R194: a refresh falls due one interval after the last one of its bank; the patrol reads the next line
of its port, and a corrected error counts; a 1 µs interval begins with no access counted; and a write of DRAM_RETIRE_CMD retires
its row, bank or port, or says why it does not. -/
def Sys2Proof.Claims.DramUpkeep : Prop :=
  ∀ (s : State) (site : Fin 204) (port : Fin 8) (bank : Fin 32) (cmd : BitVec 32),
    ((portAt s site.val port.val).retired = false → ∃ t, exec (.refresh site port bank) s = .next t
      ∧ t.now = Nat.max s.now (SMap.get 0 (portAt s site.val port.val).refreshed bank.val
          + (if (s.dram site.val).inForce s.now = 0 then 8190 else 4095))
      ∧ SMap.get 0 (portAt t site.val port.val).refreshed bank.val = t.now
      ∧ (∀ b, b ≠ bank.val → SMap.get 0 (portAt t site.val port.val).refreshed b
          = SMap.get 0 (portAt s site.val port.val).refreshed b)
      ∧ { t with now := s.now, drams := s.drams } = s)
    ∧ ((s.reg (unitDie site.val) rDRAM_CTRL).testBit 1 = true → (portAt s site.val port.val).retired = false →
        s.maint.armedPatrol = none →
        (∃ t, exec (.patrolRead site port .none) s = .next t
          ∧ portAt t site.val port.val = { portAt s site.val port.val with
              patrolLine := ((portAt s site.val port.val).patrolLine + 1) % 2 ^ 25 }
          ∧ { t with drams := s.drams } = s)
        ∧ (∀ o, o = dramOffset port.val ((portAt s site.val port.val).patrolLine * 64) →
            (s.dram site.val).isRetired o = false → (s.dram site.val).isPoisoned o = false →
            ∃ t, exec (.patrolRead site port .one) s = .next t
              ∧ Counted s t (unitDie site.val) (rDRAM_CE_COUNT + 0x200 * dramPort o)
              ∧ (portAt t site.val port.val).patrolLine = ((portAt s site.val port.val).patrolLine + 1) % 2 ^ 25
              ∧ DramWritten s t site.val 0 []))
    ∧ (∃ t, exec (.dramLimitInterval site port) s = .next t
        ∧ t.now = (s.now / Config.cycUs + 1) * Config.cycUs
        ∧ portAt t site.val port.val = { portAt s site.val port.val with used := (t.now / Config.cycUs, 0) }
        ∧ { t with now := s.now, drams := s.drams } = s)
    ∧ (cmd.toNat / 2 ^ 31 = 1 → (s.dram site.val).retiring = true → ∃ t, exec (.dramRetire site cmd) s = .next t
        ∧ t.dram site.val = { s.dram site.val with retireResult := 3 })
    ∧ (cmd.toNat / 2 ^ 31 = 1 → (s.dram site.val).retiring = false →
        (field cmd.toNat 23 2 = 3 → ∃ t, exec (.dramRetire site cmd) s = .next t
          ∧ t.dram site.val = { s.dram site.val with retireResult := 2 })
        ∧ (field cmd.toNat 23 2 ≠ 3 →
            (portAt s site.val (field cmd.toNat 20 3)).covers (field cmd.toNat 23 2) (field cmd.toNat 15 5) (field cmd.toNat 0 15)
              = true →
            ∃ t, exec (.dramRetire site cmd) s = .next t ∧ t.dram site.val = { s.dram site.val with retireResult := 1 })
        ∧ (field cmd.toNat 23 2 ≠ 3 →
            (portAt s site.val (field cmd.toNat 20 3)).covers (field cmd.toNat 23 2) (field cmd.toNat 15 5) (field cmd.toNat 0 15)
              = false →
            ∃ t, exec (.dramRetire site cmd) s = .next t ∧ (t.dram site.val).retireResult = 0
              ∧ (portAt t site.val (field cmd.toNat 20 3)).covers (field cmd.toNat 23 2) (field cmd.toNat 15 5)
                  (field cmd.toNat 0 15) = true
              ∧ (∀ p, p ≠ field cmd.toNat 20 3 → portAt t site.val p = portAt s site.val p)
              ∧ DramWritten s t site.val 0 []))

/-- R191, R192, R507: a temperature sample is shown in DRAM_THERMAL with the thermal state: the state rises at once to the one
whose entry threshold the sample has reached, and falls to the one for the sample once it has been 3 °C below that of its
state for 1 ms; the state sampled is in force at the port from the next 1 µs interval on. A die at 105 °C is protected. -/
def Sys2Proof.Claims.ThermalSamples : Prop :=
  ∀ (s : State) (site : Fin 204) (temp : Fin 256), (s.dram site.val).thermal ≤ 3 →
    ∃ t st, exec (.thermalSample site temp) s = .next t
      ∧ (t.dram site.val).thermal = st ∧ t.reg (unitDie site.val) rDRAM_THERMAL = temp.val + 2 ^ 8 * st
      ∧ ((s.dram site.val).thermal ≤ (if 103 ≤ temp.val then 3 else if 98 ≤ temp.val then 2 else if 85 ≤ temp.val then 1 else 0) →
          st = (if 103 ≤ temp.val then 3 else if 98 ≤ temp.val then 2 else if 85 ≤ temp.val then 1 else 0))
      ∧ ((s.dram site.val).coolSince = none → (s.dram site.val).thermal ≤ st)
      ∧ (∀ c, (s.dram site.val).coolSince = some c → c + 2100000 ≤ s.now → 0 < (s.dram site.val).thermal →
          temp.val + 3 ≤ ([0, 85, 98, 103] : List Nat).getD (s.dram site.val).thermal 0 →
          st = (if 98 ≤ temp.val then 2 else if 85 ≤ temp.val then 1 else 0))
      ∧ (t.dram site.val).inForce s.now = (s.dram site.val).inForce s.now
      ∧ (∀ m, s.now / 2100 < m / 2100 → (t.dram site.val).inForce m = st)
      ∧ (105 ≤ temp.val → (t.die site.val).hot = true)
      ∧ DramWritten s t site.val 0 []

/-- Accesses to a DRAM stack. -/
def Obligations.DramAccesses : Prop :=
  Claims.DramReads ∧ Claims.DramReadReturns ∧ Claims.DramWrites ∧ Claims.WholeReads

/-- The upkeep of a DRAM stack and its thermal samples. -/
def Obligations.DramUpkeepAndThermal : Prop :=
  Claims.DramUpkeep ∧ Claims.ThermalSamples

namespace Sys2Proof.Claims

open Sys2Proof.Machine

/-- The mesh, time, the registers, telemetry and the draw of free values apart, nothing changes. -/
def MeshFrame (s t : State) : Prop :=
  { t with now := s.now, mesh := s.mesh, regs := s.regs, hw := s.hw, tel := s.tel, freeCtr := s.freeCtr } = s

/-- No packet but `k` changes. -/
def OtherPackets (s t : State) (k : Nat) : Prop := ∀ j, j ≠ k → t.packet j = s.packet j

/-- Packet `k` is discarded, and counted at die `u` (R206); nothing else changes, but that a reduction packet is gone. -/
def Discarded (s t : State) (k : Nat) (x : Packet) (u : Nat) : Prop :=
  t.packet k = none ∧ OtherPackets s t k ∧ Counted s t u rMESH_DISCARD_COUNT ∧ t.now = s.now
    ∧ MeshFrame { s with coll := t.coll } t
    ∧ { t.coll with packets := s.coll.packets } = s.coll
    ∧ (∀ y, y ∈ t.coll.packets ↔ y ∈ s.coll.packets ∧ ∀ id, x.cargo = .reduction id → y.pkt ≠ some id)

/-- A new packet from router `r` of a site tells core `core` of its multicast stream, on VC 3 (R198, R215, R216); every packet
but it and `k` is as it was. -/
def Told (s t : State) (k site r core : Nat) (c : Cargo) : Prop :=
  (∃ y, t.packet s.mesh.nextPacket = some y ∧ y.cargo = c ∧ y.from_ = .router site r ∧ y.place = .inject
      ∧ (y.dest, y.destRouter) = s.coreDest core ∧ y.vc = 3 ∧ y.flits = 1)
    ∧ ∀ j, j ≠ k → j ≠ s.mesh.nextPacket → t.packet j = s.packet j

/-- The link at exit `e` of site `v` is fenced neither since the active set was built nor by it (R206). -/
def ExitUp (s : State) (v e : Nat) : Prop :=
  ∀ y, y ∈ exitsOf v → y.1 = e → s.mesh.fenced.contains y.2.2 = false ∧ s.active.graph.fenced.contains y.2.2 = false

/-- Packet `k` waits for injection at router `r` of a site, and may be injected now (R201, R207, R219). -/
def Injects (s : State) (k : Nat) (x : Packet) (site r : Nat) : Prop :=
  s.packet k = some x ∧ x.exit = none ∧ x.place = .inject ∧ x.from_ = .router site r ∧ s.mesh.closed = false
    ∧ s.roomRouter site r 4 x = true ∧ (x.vc = 0 ∨ x.vc = 1 ∨ x.vc = 7 → s.mayInject (site * 50 + r) = true)

/-- Packet `k` enters a die at router `r` of a site, at time `now`: from the router's core or what it serves, or over a seam
link. `y` is the packet there, after the turn at its Valiant intermediate die (R203). -/
def Enters (s : State) (k : Nat) (x y : Packet) (site r now : Nat) : Prop :=
  ∃ x0, (Injects s k x site r ∧ x0 = { x with place := .router site r, inPort := 4, since := s.now } ∧ now = s.now
      ∨ s.packet k = some x ∧ x.exit = none ∧ x.place = .router site r ∧ x0 = x ∧ now = Nat.max s.now x.since)
    ∧ ((∃ m, x0.mid = some m ∧ s.active.site m = some site) ∧ y = { x0 with mid := none, vc := x0.vc + 1 }
      ∨ (∀ m, x0.mid = some m → s.active.site m ≠ some site) ∧ y = x0)

/-- Packet `k` is the one head that wants output `port` of router `r` of a site. -/
def WantsPort (s : State) (k : Nat) (x : Packet) (site r port : Nat) : Prop :=
  s.packet k = some x ∧ x.vc ≠ 7 ∧
    s.packetList.filter (fun e => atRouter site r e.2 && s.wantPort e.2 r == some port && s.isHead e.1 e.2
      && !(e.2.vc == 7 && port == 4 && e.2.destRouter == 0)) = [(k, x)]

/-- Packet `k` is the one head in the station of an exit of a site. -/
def InStation (s : State) (k : Nat) (x : Packet) (site exit r : Nat) : Prop :=
  s.packet k = some x ∧ x.place = .station site exit r ∧
    s.packetList.filter (fun e => atStation site exit e.2 && s.isHead e.1 e.2) = [(k, x)]

/-- A multicast line for target `g` has reached its router, that of core `p`, and it is its turn there (R201, R215). -/
def LineAt (s : State) (k : Nat) (x : Packet) (p core desc line g : Nat) (data : List Byte) (last : Bool) : Prop :=
  s.packet k = some x ∧ k ≠ s.mesh.nextPacket ∧ x.place = .router (p / 50) (p % 50) ∧ x.cargo = .mcast core desc line data last
    ∧ x.vc = 7 ∧ x.targets = [g] ∧ x.exit = some 4 ∧ x.destRouter = 0 ∧ s.active.coreOf g = some p ∧ core ≠ p
    ∧ s.isHead k x = true ∧ (s.advanceTo x.since).localTurn (p / 50) (p % 50) k x = true
    ∧ (∀ t0, x.held = some t0 → Nat.max s.now x.since ≤ t0 + 4200)
    ∧ (∀ e, e ∈ s.mesh.refusals → ¬ (e.1 = core ∧ e.2.1 = desc ∧ e.2.2.1 = g))

/-- The line is refused with a NACK of its window, if it lies in one; the refusal is kept, or acknowledged with the LAST. -/
def LineRefused (s t : State) (k : Nat) (p core desc g off : Nat) (last : Bool) : Prop :=
  t.packet k = none ∧ Counted s t (unitCore p) rSPAD_NACK_COUNT
    ∧ (last = true → Told s t k (p / 50) (p % 50) core (.ack core desc g 2) ∧ t.mesh.refusals = s.mesh.refusals)
    ∧ (last = false → OtherPackets s t k ∧ t.mesh.refusals = s.mesh.refusals ++ [(core, desc, g, 2)])
    ∧ (∀ q, q ≠ p → t.core q = s.core q) ∧ (t.spad p).bytes = (s.spad p).bytes
    ∧ (∀ w, (s.spad p).winAt off 1 = some w → ((t.spad p).win w).nacked = true)

end Sys2Proof.Claims

/-- R201, R203, R206, R207, R219: a packet that is injected now stands at its router's local port. On minimal routing within the
hop limit, a packet that enters a die has the primary exit of MESH_ROUTE there, or the alternate one; without a route it is
discarded and counted. Injection waits while it is closed or the buffer is full; a throttled packet waits a cycle and is
counted. -/
def Sys2Proof.Claims.DieEntry : Prop :=
  ∀ (s : State) (k site r : Nat) (x : Packet), s.packet k = some x → site < 204 →
    (∀ a b y now, Enters s k x y site r now → y.vc ≠ 4 → y.vc ≠ 7 → y.esc = false →
      y.seamHops ≤ s.rwt (unitDie site) rMESH_DIE_CFG 12 6 → s.active.route site (y.mid.getD y.dest) = (a, b) →
      (a ≠ 7 → ExitUp s site a → ExitUp s site b → ∃ t e, exec (.packetDieEntry k) s = .next t
        ∧ (e = a ∨ b ≠ 7 ∧ e = b) ∧ t.packet k = some { y with exit := some e }
        ∧ OtherPackets s t k ∧ t.now = now ∧ MeshFrame s t ∧ t.regs = s.regs)
      ∧ (a = 7 → ∃ t, exec (.packetDieEntry k) s = .next t ∧ t.now = now ∧ Discarded { s with now := now } t k y (unitDie site)))
    ∧ (x.exit = none → x.place = .inject → x.from_ = .router site r →
        (s.mesh.closed = true ∨ s.roomRouter site r 4 x = false → exec (.packetDieEntry k) s = .next s)
        ∧ (s.mesh.closed = false → s.roomRouter site r 4 x = true → (x.vc = 0 ∨ x.vc = 1 ∨ x.vc = 7) →
          s.mayInject (site * 50 + r) = false →
          ∃ t, exec (.packetDieEntry k) s = .next t ∧ t.mesh = s.mesh ∧ t.now = s.now + 1 ∧ MeshFrame s t))

/-- R199, R201: the one packet that an output can grant moves on to the next router's buffer two cycles later, or to the
station of its exit, when there is room, and waits a cycle when there is not; a station's packet crosses to the far end eight
cycles later with one seam hop more, and is discarded when its link has failed. A request that reaches its target's router waits
there for its DRAM port or bank, and a reply that reaches its core's router is there for its engine. -/
def Sys2Proof.Claims.Forwarding : Prop :=
  ∀ (s : State) (k : Nat) (x : Packet) (site : Fin 204) (r : Fin 50) (port : Fin 5) (exit : Fin 4),
    (WantsPort s k x site.val r.val port.val → port.val ≠ 4 → s.roomBeyond site.val r.val port.val x = true →
      ∃ t, exec (.routerForward (.router site r port)) s = .next t ∧ t.now = Nat.max s.now x.since
        ∧ OtherPackets s t k ∧ MeshFrame s t
        ∧ (∀ r', nextRouter r.val port.val = some r' → t.packet k = some { x with
            place := .router site.val r', inPort := opposite port.val, since := t.now + 2, held := none })
        ∧ (nextRouter r.val port.val = none → ∃ c, s.roomStation site.val port.val x = some c ∧ t.packet k = some { x with
            place := .station site.val port.val r.val, inPort := c, since := t.now, held := none }))
    ∧ (WantsPort s k x site.val r.val port.val → port.val ≠ 4 → s.roomBeyond site.val r.val port.val x = false →
      ∃ t, exec (.routerForward (.router site r port)) s = .next t ∧ t.now = Nat.max s.now x.since + 1
        ∧ t.packet k = some x ∧ OtherPackets s t k ∧ MeshFrame s t)
    ∧ (∀ id a d o, WantsPort s k x site.val r.val 4 → port.val = 4 → x.cargo = .request id → s.access id = some a →
        (s.active.target a.addr = some (.dram d o) ∨ ∃ c, s.active.target a.addr = some (.spad d c o)) →
        ∃ t, exec (.routerForward (.router site r port)) s = .next t ∧ t.packet k = none ∧ OtherPackets s t k
          ∧ t.access id = some { a with stage := .atTarget } ∧ (∀ j, j ≠ id → t.access j = s.access j) ∧ MeshFrame s t)
    ∧ (∀ id a, WantsPort s k x site.val r.val 4 → port.val = 4 → x.cargo = .reply id → s.access id = some a →
        ∃ t, exec (.routerForward (.router site r port)) s = .next t ∧ t.packet k = none ∧ OtherPackets s t k
          ∧ t.access id = some { a with stage := .replied } ∧ (∀ j, j ≠ id → t.access j = s.access j) ∧ MeshFrame s t)
    ∧ (∀ r0 w q r', InStation s k x site.val exit.val r0 → farEnd site.val exit.val r0 = some (w, r', q) →
        (s.linkOpen (linkAt site.val exit.val) = true →
          (if 204 ≤ w then s.roomEdge (w - 204) (seamOf w site.val) x.inPort x else s.roomRouter w r' q x) = true →
          ∃ t, exec (.routerForward (.station site exit)) s = .next t ∧ t.now = Nat.max s.now x.since
            ∧ t.packet k = some { x with
                exit := none, seamHops := x.seamHops + 1, since := t.now + 8, held := none
                inPort := if 204 ≤ w then 8 * seamOf w site.val + x.inPort else q
                place := if 204 ≤ w then .edge (w - 204) else .router w r' }
            ∧ OtherPackets s t k ∧ MeshFrame s t ∧ t.regs = s.regs)
        ∧ (s.mesh.fenced.contains (linkAt site.val exit.val) = true →
          ∃ t, exec (.routerForward (.station site exit)) s = .next t ∧ Discarded s t k x (unitDie site.val)))

/-- R203, R205, R216, R219: a head on VC 0–3 or 5 that has waited ESC_WAIT cycles without room enters the escape tree for good,
on VC 6 in the pool of its class; a multicast branch held for 2.0 µs is dropped with a miss notice and, while the router has
fewer than 16, a record; a throttle level falls by one 256 cycles after the depth came down. -/
def Sys2Proof.Claims.EscapeDropAndThrottle : Prop :=
  ∀ (s : State) (k site r : Nat) (x : Packet), s.packet k = some x → x.place = .router site r → site < 204 →
    (∀ e w e', x.exit = some e → x.esc = false → x.vc ≠ 4 → x.vc ≠ 6 → x.vc ≠ 7 → s.isHead k x = true →
      s.roomBeyond site r (nextPort r e x.destRouter) x = false →
      s.roomRouter site r x.inPort { x with vc := 6, poolQ := x.vc == 0 || x.vc == 1 } = true →
      s.active.routeNode x.dest = some w → s.active.graph.esc site w = some e' → ExitUp s site e' →
      ∃ t, exec (.escapeEntry k) s = .next t
        ∧ t.now = Nat.max s.now (x.since + s.rwt (unitDie site) rMESH_DIE_CFG 0 12)
        ∧ t.packet k = some { x with
            esc := true, vc := 6, poolQ := x.vc == 0 || x.vc == 1, exit := some e', mid := none, since := t.now }
        ∧ OtherPackets s t k ∧ MeshFrame s t)
    ∧ (∀ core desc line data last t0 q, x.cargo = .mcast core desc line data last → x.held = some t0 →
      k ≠ s.mesh.nextPacket → s.wantPort x r = some q →
      (∀ e, e ∈ s.packetList → e.1 ≠ k → e.2.place = x.place → ∀ n bs l, e.2.cargo ≠ .mcast core desc n bs l) →
      ((if x.forSpad q then s.mcastCredit (site * 50 + r) x.dest else s.roomBeyond site r q x) = false →
        ∃ t, exec (.mcastBranchDrop k) s = .next t ∧ t.now = Nat.max s.now (t0 + 4200) ∧ t.packet k = none
          ∧ Told s t k site r core (.miss core desc x.targets)
          ∧ t.mesh.drops = s.mesh.drops ++
              (if (s.mesh.drops.filter (fun d => d.site == site && d.r == r)).length < 16 ∧ last = false then
                [{ site := site, r := r, core := core, desc := desc, targets := x.targets }] else [])
          ∧ MeshFrame s t)
      ∧ ((if x.forSpad q then s.mcastCredit (site * 50 + r) x.dest else s.roomBeyond site r q x) = true →
          s.now ≤ t0 + 4200 → exec (.mcastBranchDrop k) s = .next s))
    ∧ (∀ (c : CoreIx) l was, l = SMap.get 0 s.mesh.level c.val → was = SMap.get 0 s.mesh.lowSince c.val → l ≠ 0 → was ≠ 0 →
      ∃ t, exec (.throttleLevelFall c) s = .next t ∧ t.now = Nat.max s.now (was - 1 + 256)
        ∧ SMap.get 0 t.mesh.level c.val = (if (s.reg (unitCore c.val) rMESH_THROTTLE_CFG).testBit 31 = true then
            Nat.max (l - 1) (s.levelFor c.val (s.routerDepth (c.val / 50) (c.val % 50))) else 0)
        ∧ t.mesh.packets = s.mesh.packets ∧ MeshFrame s t ∧ t.regs = s.regs)

/-- R95, R102, R106, R215: a multicast line at its target takes a credit of the plain window that covers it and joins the
queue of its bank; without a credit it is withheld; with no window, or at a channel window, it is refused. Its LAST line is
acknowledged. -/
def Sys2Proof.Claims.MulticastLines : Prop :=
  ∀ (s : State) (k : Nat) (x : Packet) (p core desc line g : Nat) (data : List Byte) (last : Bool),
    LineAt s k x p core desc line g data last → p < 10200 →
    (∀ w, (s.spad p).winAt x.dest 64 = some w → ((s.spad p).win w).closing = false →
      ((s.spad p).win w).admits (.core ((s.gid core).getD 0x3FFF) x.patch) = true →
      (((s.spad p).win w).channel = false → ((s.spad p).win w).creditsOut < ((s.spad p).win w).credits →
        (s.core p).takesWrite (bankOf x.dest) = true →
        ∃ t, exec (.multicastWrite k) s = .next t ∧ t.now = Nat.max s.now x.since ∧ t.packet k = none
          ∧ ((t.spad p).win w) = { (s.spad p).win w with creditsOut := ((s.spad p).win w).creditsOut + 1 }
          ∧ QueuedAt s t p (bankOf x.dest) (.remoteWrite (2 ^ 64) x.dest data none (some w))
          ∧ (last = true → Told s t k (p / 50) (p % 50) core (.ack core desc g 0)) ∧ (last = false → OtherPackets s t k)
          ∧ t.mesh.refusals = s.mesh.refusals ∧ (∀ q, q ≠ p → t.core q = s.core q))
      ∧ (((s.spad p).win w).channel = false →
        (((s.spad p).win w).credits ≤ ((s.spad p).win w).creditsOut ∨ (s.core p).takesWrite (bankOf x.dest) = false) →
        ∃ t, exec (.multicastWrite k) s = .next t
          ∧ t.packet k = some { x with held := some (x.held.getD (Nat.max s.now x.since)) }
          ∧ OtherPackets s t k ∧ t.cores = s.cores ∧ t.regs = s.regs)
      ∧ (((s.spad p).win w).channel = true →
        ∃ t, exec (.multicastWrite k) s = .next t ∧ LineRefused s t k p core desc g x.dest last))
    ∧ ((s.spad p).winAt x.dest 64 = none → x.held = none →
        ∃ t, exec (.multicastWrite k) s = .next t ∧ LineRefused s t k p core desc g x.dest last)

/-- R95, R102, R106, R199, R201, R203, R205, R206, R215, R216, R219: packets of the bulk mesh enter, move, escape, are dropped and
arrive. -/
def Obligations.MeshPackets : Prop :=
  Sys2Proof.Claims.DieEntry ∧ Sys2Proof.Claims.Forwarding ∧ Sys2Proof.Claims.EscapeDropAndThrottle
    ∧ Sys2Proof.Claims.MulticastLines

namespace Sys2Proof.Claims

open Sys2Proof.Machine

/-- A 64-bit register of core `c` at `off`, of access codes `r`, that shows its own stored value (R6, R8). -/
def CoreRegister (s : State) (c : CoreIx) (off : BitVec 16) (r : RegRow) : Prop :=
  regRow? (unitCore c.val) off.toNat = some r ∧ r.bytes = 8 ∧ off.toNat % 8 = 0
    ∧ s.viewOf (unitCore c.val) off.toNat = none ∧ r.rwt = 0 ∧ s.reg (unitCore c.val) off.toNat < 2 ^ 64

/-- The offsets of the core registers whose writes do more than their access codes say. -/
def coreSpecial : List Nat :=
  [rCORE_CTRL, rSPAD_CTRL, rMESH_THROTTLE_CFG, rSPAD_BANK_PWR, rSPAD_BANK_STATUS, rSPAD_ECC_LAST, rSPAD_NACK_LAST, rMXU_LAST_ERROR, rVEC_LAST_ERROR,
    rVEC_QOVF, rSPAD_CREDIT_TTL, rMESH_TEL_CTRL]

/-- The values that the identity and capability fields of the function read as (R335), and its BARs (R336) and CDAT (R337). -/
def configIdentity : List (ConfigField × Nat) :=
  [(.vendorId, 0x1E6B), (.deviceId, 0x0C19), (.subsystemVendorId, 0x1E6B), (.subsystemId, 1), (.classCode, 0x120000),
    (.headerType, 0), (.capability .pciExpress, 1), (.capability .powerManagement, 1), (.capability .msix, 1), (.capability .aer, 1),
    (.capability .doe, 1), (.capability .ide, 1), (.capability .dataLinkFeature, 1), (.dvsec 0, 1), (.dvsec 3, 0), (.dvsec 8, 1),
    (.barSize 0, 0x4000000), (.barSize 2, 0x100000), (.barSize 4, 0), (.readLatency, 900), (.writeLatency, 700), (.readBandwidth, 100),
    (.writeBandwidth, 100), (.memInfoValid, 1), (.range1Size, 2 ^ 40), (.cxlResetTimeout, 10)]

/-- An RWT register that a direct write reaches: 64 bits wide, of no other access code, not a generated one. -/
def RwtRegister (s : State) (u off : Nat) (r : RegRow) : Prop :=
  regRow? u off = some r ∧ r.bytes = 8 ∧ off % 8 = 0 ∧ r.rwt ≠ 0 ∧ r.rw = 0 ∧ r.w1c = 0 ∧ r.w1s = 0 ∧ r.wo = 0
    ∧ isGenerated u off = false ∧ s.shadow.reg u off < 2 ^ 64

end Sys2Proof.Claims

/-- R6, R7, R8, R340: a read of a register gives its value, with its write-only bits as zero, and clears its ROC bits and nothing
else; counters that have counted in this cycle give what they held before, and keep the events of the cycle. A reserved offset
reads as zero. The HDM decoder gives its base and its size. -/
def Sys2Proof.Claims.RegisterReads : Prop :=
  ∀ (s : State) (c : CoreIx) (off : BitVec 16) (r : RegRow) (size : Bool) (wide : Bool),
    (CoreRegister s c off r → r.roc &&& r.wo = 0 → (∀ x, s.hwOf (unitCore c.val) off.toNat = some x → x.2.2 &&& r.roc = 0) →
      ∃ t, exec (.rocRead (.core c off) true) s = .next t
      ∧ (∀ i, i < 64 → t.readData.testBit i = ((s.reg (unitCore c.val) off.toNat).testBit i && !r.wo.testBit i))
      ∧ (∀ i, i < 64 → (t.reg (unitCore c.val) off.toNat).testBit i
          = ((s.reg (unitCore c.val) off.toNat).testBit i && !r.roc.testBit i))
      ∧ (∀ k, k ≠ regKey (unitCore c.val) off.toNat → ∀ d, SMap.get d t.regs k = SMap.get d s.regs k)
      ∧ { t with regs := s.regs, readData := s.readData } = s)
    ∧ (∀ old b n, CoreRegister s c off r → r.roc &&& r.wo = 0 → r.roc < 2 ^ 64 →
        s.hwOf (unitCore c.val) off.toNat = some (old, b, n) → n &&& r.roc ≠ 0 →
        ∃ t, exec (.rocRead (.core c off) true) s = .next t
          ∧ (∀ i, i < 64 → t.readData.testBit i = if r.roc.testBit i = true then old.testBit i
              else (s.reg (unitCore c.val) off.toNat).testBit i && !r.wo.testBit i)
          ∧ (∀ i, i < 64 → (t.reg (unitCore c.val) off.toNat).testBit i = if r.roc.testBit i = true then n.testBit i
              else (s.reg (unitCore c.val) off.toNat).testBit i)
          ∧ { t with regs := s.regs, hw := s.hw, readData := s.readData } = s)
    ∧ (regRow? (unitCore c.val) off.toNat = none → regRow? (unitCore c.val) (off.toNat + 4) = none → off.toNat % 8 = 0 →
        exec (.rocRead (.core c off) true) s = .next { s with readData := 0 })
    ∧ (s.host.d3hot = false → exec (.rocRead (.decoder size) wide) s =
        .next { s with readData := if size = true then s.host.hdmSize else s.host.hdmBase })

/-- R6, R7, R8, R340: a write gives the RW bits of a register their new value, clears the W1C bits written 1 but those that hardware
sets in that cycle, and leaves every other bit and every other register; a write of a reserved offset is ignored. A bank that a
write of SPAD_CTRL keeps no longer is uncovered from then on, and thresholds out of order do not reach MESH_THROTTLE_CFG. The HDM decoder takes a base, and a size of up to 1 TiB,
in multiples of 256 MiB. -/
def Sys2Proof.Claims.RegisterWrites : Prop :=
  ∀ (s : State) (c : CoreIx) (off : BitVec 16) (r : RegRow) (v : BitVec 64) (size : Bool) (wide : Bool),
    (CoreRegister s c off r → off.toNat ∉ coreSpecial → r.off ≠ rTASK_FAULT → r.rw &&& r.w1c = 0 →
      ∃ t, exec (.registerWrite (.core c off) true v) s = .next t
        ∧ (∀ i, i < 64 → (t.reg (unitCore c.val) off.toNat).testBit i =
            if r.rw.testBit i = true then v.getLsbD i
            else if r.w1c.testBit i = true ∧ v.getLsbD i = true ∧ (s.hwBits (unitCore c.val) off.toNat).testBit i = false then false
            else (s.reg (unitCore c.val) off.toNat).testBit i)
        ∧ RegOnly s t (unitCore c.val) off.toNat)
    ∧ (CoreRegister s c off r → off.toNat = rSPAD_CTRL → ∃ t, exec (.registerWrite (.core c off) true v) s = .next t
        ∧ (∀ i, i < 64 → (t.reg (unitCore c.val) rSPAD_CTRL).testBit i =
            if i < 2 ∨ 16 ≤ i ∧ i < 32 then v.getLsbD i else (s.reg (unitCore c.val) rSPAD_CTRL).testBit i)
        ∧ (∀ b, b < 16 → (s.reg (unitCore c.val) rSPAD_CTRL).testBit (16 + b) = true → v.getLsbD (16 + b) = false →
            ((t.spad c.val).bank b).uncoveredAt = s.now)
        ∧ (t.spad c.val).bytes = (s.spad c.val).bytes ∧ (t.spad c.val).wins = (s.spad c.val).wins
        ∧ (∀ q, q ≠ c.val → t.core q = s.core q) ∧ { t with regs := s.regs, cores := s.cores } = s)
    ∧ (∀ t1 t2 t3, CoreRegister s c off r → off.toNat = rMESH_THROTTLE_CFG → t1 = field v.toNat 0 7 → t2 = field v.toNat 8 7 →
        t3 = field v.toNat 16 7 →
        (1 ≤ t1 → t1 < t2 → t2 < t3 → t3 ≤ 100 → ∃ t, exec (.registerWrite (.core c off) true v) s = .next t
          ∧ t.fld (unitCore c.val) rMESH_THROTTLE_CFG 0 7 = t1 ∧ t.fld (unitCore c.val) rMESH_THROTTLE_CFG 8 7 = t2
          ∧ t.fld (unitCore c.val) rMESH_THROTTLE_CFG 16 7 = t3
          ∧ (t.reg (unitCore c.val) rMESH_THROTTLE_CFG).testBit 31 = v.getLsbD 31
          ∧ (v.getLsbD 31 = false → SMap.get 0 t.mesh.level c.val = 0)
          ∧ { t with regs := s.regs, mesh := s.mesh } = s)
        ∧ (¬ (1 ≤ t1 ∧ t1 < t2 ∧ t2 < t3 ∧ t3 ≤ 100) → ∃ t, exec (.registerWrite (.core c off) true v) s = .next t
          ∧ { t with mesh := s.mesh } = s))
    ∧ (regRow? (unitCore c.val) off.toNat = none → regRow? (unitCore c.val) (off.toNat + 4) = none → off.toNat % 8 = 0 →
        exec (.registerWrite (.core c off) true v) s = .next s)
    ∧ (s.host.d3hot = false → v.toNat % 2 ^ 28 = 0 → (size = true → v.toNat ≤ 2 ^ 40) →
        exec (.registerWrite (.decoder size) wide v) s = .next { s with host := { s.host with
          hdmSize := if size = true then v.toNat else s.host.hdmSize,
          hdmBase := if size = true then s.host.hdmBase else v.toNat } })

/-- R6, R7, R276: a write of an RWT register changes those bits of the shadow set and clears SEALED, and the active set stays;
while a tack is pending it changes nothing but the count of such writes; in the cycle of the exchange it lands in the set that
is shadow after it. -/
def Sys2Proof.Claims.ShadowWrites : Prop :=
  ∀ (s : State) (e : Fin 10) (off : BitVec 40) (r : RegRow) (v : BitVec 64), RwtRegister s (unitEdge e.val) off.toNat r →
    e.val ≠ 8 → s.tackDue = false →
    ((s.cfg.pending = false ∨ s.cfg.swappedAt = some s.now) → s.shadow.accepts (unitEdge e.val) off.toNat v.toNat = true →
      ∃ t, exec (.rwtWrite (.edge e off) true v) s = .next t
        ∧ (∀ i, i < 64 → (t.shadow.reg (unitEdge e.val) off.toNat).testBit i =
            if r.rwt.testBit i = true then v.getLsbD i else (s.shadow.reg (unitEdge e.val) off.toNat).testBit i)
        ∧ t.cfg.isSealed = false ∧ t.active = s.active
        ∧ { t with shadow := s.shadow, cfg := { t.cfg with isSealed := s.cfg.isSealed } } = s)
    ∧ (s.cfg.pending = true → s.cfg.swappedAt ≠ some s.now →
        exec (.rwtWrite (.edge e off) true v) s = .next { s with cfg := { s.cfg with
          lockedWrites := if s.cfg.lockedWrites + 1 < 2 ^ 16 then s.cfg.lockedWrites + 1 else 2 ^ 16 - 1 } })

/-- R353, R354: an aligned access of 8 bytes through the panel register window is the same access of the core register that
the window's place names; a place that is no register reads as all ones, and its write changes nothing. -/
def Sys2Proof.Claims.WindowAccesses : Prop :=
  ∀ (s : State) (x : BitVec 25) (c : CoreIx) (off : BitVec 16) (d l a : Nat) (v : BitVec 64), x.toNat % 8 = 0 →
    a = s.reg unitBar rHOST_PWIN_BASE + x.toNat → s.host.d3hot = false →
    (s.active.target a = some (.coreReg d l off.toNat) → s.active.coreIx d l = some c.val → off.toNat % 8 = 0 →
      (∃ t, exec (.panelRegisterWindow x 8 none) s = .next t ∧ exec (.rocRead (.core c off) true) s = .next t)
      ∧ (∃ t, exec (.panelRegisterWindow x 8 (some v)) s = .next t
          ∧ exec (.registerWrite (.core c off) true v) s = .next t))
    ∧ (s.active.target a = none →
        exec (.panelRegisterWindow x 8 none) s = .next { s with readData := 2 ^ 64 - 1 }
          ∧ exec (.panelRegisterWindow x 8 (some v)) s = .next s)

/-- R335: configuration space reads as the identity of the panel; its power state takes D0 and D3hot; in D3hot the registers behind
the host's windows do not change. -/
def Sys2Proof.Claims.ConfigurationSpace : Prop :=
  ∀ (s : State) (wide : Bool) (v : BitVec 64) (off : BitVec 26) (size : Bool),
    (∀ f x, (f, x) ∈ configIdentity → exec (.rocRead (.config f) wide) s = .next { s with readData := x }
      ∧ exec (.registerWrite (.config f) wide v) s = .next s)
    ∧ exec (.rocRead (.config .powerState) wide) s = .next { s with readData := if s.host.d3hot = true then 3 else 0 }
    ∧ exec (.registerWrite (.config .powerState) wide 3) s = .next { s with host := { s.host with d3hot := true } }
    ∧ exec (.registerWrite (.config .powerState) wide 0) s = .next { s with host := { s.host with d3hot := false } }
    ∧ (s.host.d3hot = true → exec (.registerWrite (.bar off) wide v) s = .next s
        ∧ exec (.registerWrite (.decoder size) wide v) s = .next s
        ∧ ∃ x, exec (.rocRead (.bar off) wide) s = .next { s with readData := x })

/-- R6, R7, R8, R276, R335, R340, R353, R354: reads and writes of registers do what the access codes say. The value that a refused read
through the window gives is the model's choice (log 13). -/
def Obligations.RegisterAccess : Prop :=
  Sys2Proof.Claims.RegisterReads ∧ Sys2Proof.Claims.RegisterWrites ∧ Sys2Proof.Claims.ShadowWrites
    ∧ Sys2Proof.Claims.WindowAccesses ∧ Sys2Proof.Claims.ConfigurationSpace

namespace Sys2Proof.Claims

open Sys2Proof.Machine

/-- Hubs, the registers and the draw of free values apart, nothing changes. -/
def HubFrame (s t : State) : Prop := { t with hubs := s.hubs, regs := s.regs, hw := s.hw, freeCtr := s.freeCtr } = s

/-- Hub `h` has parent `v`, another hub, and sends `m` upward next (R223, R225, R226). -/
def SendsUp (s : State) (h v : Nat) (m : OutMsg) : Prop :=
  s.halParent h = some v ∧ v ≠ h ∧ (v = halRoot → m.endsAtRoot = false)
    ∧ (s.hub h).up.next (s.noticeRoom v) = some m

/-- Hub `h` sends into the root a message that ends there. -/
def SendsIn (s : State) (h : Nat) (m : OutMsg) : Prop :=
  s.halParent h = some halRoot ∧ h ≠ halRoot ∧ (s.hub h).up.next true = some m

/-- Hub `h` hands `m` to its own nodes next. -/
def HandsDown (s : State) (h : Nat) (m : OutMsg) : Prop := ((s.hub h).out outNodes).next true = some m

/-- No slot of core `p` waits. -/
def NoneWaits (s : State) (p : Nat) : Prop := ∀ i, i < 8 → (s.slot p i).mode ≠ .waiting

/-- The votes a hub has gathered for key `k` (R229). -/
abbrev votesAt (s : State) (h k : Nat) : VoteSet := SMap.get ⟨0, 0, true, [], [], false⟩ (s.hub h).votes k

end Sys2Proof.Claims

/-- R223–R226, R229, R231: a hub's upward output sends its next message to its parent: a current vote joins the votes the
parent gathers, a message of barriers the arrivals, a notice the parent's own notices; a stale vote is discarded and counted.
The output keeps what it has not sent. A class-0 message passes every output without a change of what waits there. -/
def Sys2Proof.Claims.HubSends : Prop :=
  ∀ (s : State) (h : Fin 214) (v : Nat),
    (∀ k tick att ok, SendsUp s h.val v (.vote k tick att ok) → k < 2 →
      (s.currentMsg tick att = true → ∃ t, exec (.halyardForward h .up false) s = .next t
        ∧ (t.hub h.val).up = (s.hub h.val).up.sent (.vote k tick att ok)
        ∧ h.val ∈ (votesAt t v k).children ∧ (votesAt t v k).tick = tick ∧ (votesAt t v k).att = att
        ∧ (∀ w, w ≠ h.val → w ≠ v → t.hub w = s.hub w) ∧ HubFrame s t)
      ∧ (s.currentMsg tick att = false → ∃ t, exec (.halyardForward h .up false) s = .next t
        ∧ (t.hub h.val).up = (s.hub h.val).up.sent (.vote k tick att ok)
        ∧ (v < 204 → Counted s t (unitDie v) rHAL_DISCARD)
        ∧ (∀ w, w ≠ h.val → t.hub w = s.hub w) ∧ HubFrame s t))
    ∧ (∀ k att bits, SendsUp s h.val v (.bar k att bits) → s.currentBar k att = true →
      ∃ t, exec (.halyardForward h .up false) s = .next t
        ∧ (∀ b, b < 64 → bits.getLsbD b = true → 1000 + h.val ∈ SMap.get [] (t.hub v).bars (64 * k + b))
        ∧ (∀ w, w ≠ h.val → w ≠ v → t.hub w = s.hub w) ∧ HubFrame s t)
    ∧ (∀ n, SendsUp s h.val v (.notice n) → ∃ t, exec (.halyardForward h .up false) s = .next t
        ∧ (t.hub v).up.notices = (s.hub v).up.notices ++ [n]
        ∧ (∀ w, w ≠ h.val → w ≠ v → t.hub w = s.hub w) ∧ HubFrame s t)
    ∧ (∀ out, s.gen.class0 ≠ none → ∃ t, exec (.halyardForward h out true) s = .next t ∧ t.hubs = s.hubs ∧ HubFrame s t)

/-- R230: a hub that is not the root sends upward the bits of exactly the barriers of a TICKP whose arrivals below it are
complete; at a die's nodes a release ends the wait of every slot that waits at its barrier, and the next episode begins with no
arrival. -/
def Sys2Proof.Claims.Barriers : Prop :=
  ∀ (s : State) (h : Fin 214) (k : Fin 2) (att : Nat),
    (s.attOf k.val = some att → h.val ≠ halRoot → (∀ e, e ∈ (s.hub h.val).up.bar → e.1 ≠ k.val) →
      ∃ t bits, exec (.barUp h k) s = .next t
        ∧ (t.hub h.val).up.bar = (s.hub h.val).up.bar ++ (if bits = 0 then [] else [(k.val, att, bits)])
        ∧ (∀ b, b < 64 → bits.getLsbD b = s.barDone h.val k.val b)
        ∧ (∀ w, w ≠ h.val → t.hub w = s.hub w) ∧ { t with hubs := s.hubs } = s)
    ∧ (∀ b p i, b < 64 → HandsDown s h.val (.bar k.val att (BitVec.ofNat 64 (2 ^ b))) → s.currentBar k.val att = true →
        p ∈ s.halMembers h.val → SMap.get none (s.core p).node.barArrived (64 * k.val + b) ≠ none →
        SMap.get 0 (s.core p).node.barNext (64 * k.val + b) = 0 → 0 < s.barExpect p b → i < 8 →
        (s.slot p i).mode = .waiting → (s.slot p i).tick % 2 = k.val → (s.slot p i).wait = .barrier b false →
        ∃ t, exec (.barRel h) s = .next t ∧ (t.slot p i).mode = .ready
          ∧ SMap.get none (t.core p).node.barArrived (64 * k.val + b) = none
          ∧ SMap.get 0 (t.core p).node.barCount (64 * k.val + b) = 0)

/-- R229, R279: a hub that holds every vote below it, and has not sent it, sends the combined vote upward, once; in a tack that
has taken effect, a hub whose children with mapped dies below them have all voted sends its own. -/
def Sys2Proof.Claims.Votes : Prop :=
  ∀ (s : State) (h : Fin 214) (k : Fin 3), h.val ≠ halRoot →
    (k.val ≠ 2 → (votesAt s h.val k.val).sent = false →
      ((votesAt s h.val k.val).members ≠ [] ∨ (votesAt s h.val k.val).children ≠ []) →
      s.voteComplete h.val (votesAt s h.val k.val) = true →
      s.currentMsg (votesAt s h.val k.val).tick (votesAt s h.val k.val).att = true →
      ∃ t, exec (.vote h k) s = .next t
        ∧ SMap.get (0, 0, false) (t.hub h.val).up.vote k.val
            = ((votesAt s h.val k.val).tick, (votesAt s h.val k.val).att, (votesAt s h.val k.val).ok)
        ∧ votesAt t h.val k.val = { votesAt s h.val k.val with sent := true }
        ∧ (∀ w, w ≠ h.val → t.hub w = s.hub w) ∧ { t with hubs := s.hubs } = s)
    ∧ (k.val ≠ 2 → (votesAt s h.val k.val).sent = true → exec (.vote h k) s = .next s)
    ∧ (k.val = 2 → s.cfg.swappedAt ≠ none → (votesAt s h.val 2).tick = s.cfg.activeGen + 1 →
        (votesAt s h.val 2).sent = false → s.hasBelow h.val (fun _ => true) = true →
        (∀ c, c ∈ s.halChildren h.val → c ∈ (votesAt s h.val 2).children) →
        ∃ t, exec (.vote h k) s = .next t ∧ (votesAt t h.val 2).sent = true
          ∧ SMap.get (0, 0, false) (t.hub h.val).up.vote 2 = (s.cfg.activeGen + 1, 0, true)
          ∧ (∀ w, w ≠ h.val → t.hub w = s.hub w) ∧ { t with hubs := s.hubs } = s)

/-- R226, R244: a node's notice goes to its hub, and leaves the node, while the hub has a free entry; a task fault notice that
reaches the root has its running tick abandoned with cause TASK_FAULT, and one of an attempt that is gone changes nothing but
the queue it came from. -/
def Sys2Proof.Claims.Notices : Prop :=
  ∀ (s : State) (c : CoreIx) (h : Fin 214) (kind : Fin 16) (n : Notice),
    ((s.core c.val).node.notices.find? (fun x => x.kind == kind.val) = some n → s.noticeRoom (c.val / 50) = true →
      ∃ t, exec (.notice (.node c kind)) s = .next t
        ∧ (t.hub (c.val / 50)).up.notices = (s.hub (c.val / 50)).up.notices ++ [n]
        ∧ (t.core c.val).node.notices = (s.core c.val).node.notices.filter (fun m => m.kind != kind.val)
        ∧ (∀ w, w ≠ c.val / 50 → t.hub w = s.hub w) ∧ (∀ q, q ≠ c.val → t.core q = s.core q)
        ∧ { t with hubs := s.hubs, cores := s.cores } = s)
    ∧ (∀ e, SendsIn s h.val (.notice n) → n.kind = 3 → n.event = some e → e.ahead = false → s.maint.restartUntil = none →
        s.events.ring = none → isBootEvent e.code = false → (s.reg unitMgmt rTEL_MCTP).testBit 19 = false →
        ∃ t, exec (.notice (.root h)) s = .next t ∧ t.events.seq = (s.events.seq + 1) % 2 ^ 32
          ∧ t.events.lost = Nat.min (2 ^ 32 - 1) (s.events.lost + n.count)
          ∧ (3 ≤ e.sev.code → t.events.severeCode = e.code) ∧ HubFrame s { t with events := s.events })
    ∧ (SendsIn s h.val (.notice n) → n.kind = 0 → n.event = none →
        ((∀ x, x ∈ s.gen.ticks → ¬ (x.tick = n.tick ∧ x.att = n.att)) →
          ∃ t, exec (.notice (.root h)) s = .next t ∧ (t.hub h.val).up = (s.hub h.val).up.sent (.notice n) ∧ HubFrame s t)
        ∧ (∀ x, x ∈ s.gen.ticks → (∀ y, y ∈ s.gen.ticks → y.tick = n.tick → y = x) → x.tick = n.tick → x.att = n.att →
            x.commitAt = none →
            ∃ t, exec (.notice (.root h)) s = .next t ∧ (∀ y, y ∈ t.gen.ticks → y.tick < n.tick)
              ∧ SMap.get 0 t.gen.attempts n.tick = n.att + 1
              ∧ t.reg unitMgmt rTICK_LAST_ABANDON = n.tick % 2 ^ 48 + 2 ^ 48 * 4 + 2 ^ 52 * (n.att % 4) + 2 ^ 63))

/-- R226, R233: one microsecond after its last one a working hub sends its DIE_HB, and every live node of its die its own
heartbeat; the root notes the time of one that reaches it; a core silent for 2.5 µs is declared lost by its hub. -/
def Sys2Proof.Claims.Heartbeats : Prop :=
  ∀ (s : State) (h : Fin 214) (c : CoreIx),
    (s.hubAlive h.val = true → h.val ≠ halRoot → ∃ t n, exec (.heartbeat h) s = .next t
      ∧ t.now = Nat.max s.now ((s.hub h.val).hbAt + 2100) ∧ (t.hub h.val).hbAt = t.now ∧ (h.val, n) ∈ (t.hub h.val).up.dieHb
      ∧ (∀ p, p / 50 = h.val → p < 10200 → (t.core p).node.hbAt = if s.nodeAlive p = true then t.now else (s.core p).node.hbAt)
      ∧ (∀ w, w ≠ h.val → t.hub w = s.hub w) ∧ { t with now := s.now, hubs := s.hubs, cores := s.cores } = s)
    ∧ (∀ d live, SendsIn s h.val (.dieHb d live) → ∃ t, exec (.dieHb h) s = .next t
        ∧ SMap.get 0 t.gen.hbSeen d = s.now ∧ (∀ e, e ≠ d → SMap.get 0 t.gen.hbSeen e = SMap.get 0 s.gen.hbSeen e)
        ∧ (t.hub h.val).up = (s.hub h.val).up.sent (.dieHb d live)
        ∧ HubFrame s { t with gen := s.gen })
    ∧ (∀ off, off = (if c.val % 50 < 32 then rHAL_HB_LOST_LO else rHAL_HB_LOST_HI) →
        s.hubAlive (c.val / 50) = true → s.fld (unitDie (c.val / 50)) off (c.val % 50 % 32) 1 = 0 →
        s.regionState (c.val / 50) (regionOf c.val) = 2 →
        ∃ t, exec (.heartbeatTimeout c) s = .next t ∧ t.now = Nat.max s.now ((s.core c.val).node.hbAt + 5250)
          ∧ t.fld (unitDie (c.val / 50)) off (c.val % 50 % 32) 1 = 1 ∧ c.val ∈ (t.hub (c.val / 50)).up.lost
          ∧ { t with now := s.now, regs := s.regs, hw := s.hw, hubs := s.hubs } = s)

/-- R224, R231, R235: a user message that reaches its die joins the queue of its core and is acknowledged, or, with 32 messages
queued, is refused and counted; a stale one is discarded. An acknowledged message leaves its sender, a refused one waits 0.5 µs
and is then sent again. A debug message leaves the network. -/
def Sys2Proof.Claims.UserTraffic : Prop :=
  ∀ (s : State) (h : Fin 214) (m : UserMsg) (p : Nat),
    (HandsDown s h.val (.class2 (.user m)) → s.currentMsg m.tick m.att 16 = true → s.physOf m.dest = some p →
      s.siteOf m.sender = h.val → NoneWaits s p →
      ((s.core p).node.recvQ.length < 32 → ∃ t, exec (.user h) s = .next t
        ∧ (t.core p).node.recvQ = (s.core p).node.recvQ ++ [m]
        ∧ Class2.userAck m.sender m.dest false ∈ ((t.hub h.val).out outNodes).class2)
      ∧ (32 ≤ (s.core p).node.recvQ.length → ∃ t, exec (.user h) s = .next t ∧ t.cores = s.cores
        ∧ Class2.userAck m.sender m.dest true ∈ ((t.hub h.val).out outNodes).class2))
    ∧ (HandsDown s h.val (.class2 (.user m)) → s.currentMsg m.tick m.att 16 = false →
        ∃ t, exec (.user h) s = .next t ∧ t.cores = s.cores
          ∧ (t.hub h.val).out outNodes = ((s.hub h.val).out outNodes).sent (.class2 (.user m)))
    ∧ (∀ sender acker refused u, HandsDown s h.val (.class2 (.userAck sender acker refused)) → s.physOf sender = some p →
        NoneWaits s p → (s.core p).node.sendQ = [u] → u.inFlight = true → u.msg.dest = acker →
        ∃ t, exec (.userAck h) s = .next t ∧ (t.core p).node.sendQ =
          if refused = true then [{ u with inFlight := false, resendAt := some (s.now + 1050) }] else [])
    ∧ (∀ dest x, HandsDown s h.val (.class2 (.debug dest x)) → ∃ t, exec (.halDebug h) s = .next t
        ∧ (t.hub h.val).out outNodes = ((s.hub h.val).out outNodes).sent (.class2 (.debug dest x)) ∧ HubFrame s t)
    ∧ (∀ (c : CoreIx) u at_, (s.core c.val).node.sendQ = [u] → u.resendAt = some at_ → u.inFlight = false →
        ∃ t, exec (.userResend c) s = .next t ∧ t.now = Nat.max s.now at_
          ∧ (t.core c.val).node.sendQ = [{ u with inFlight := true, resendAt := none }])

/-- R234, R285: with the end marks of all its children that have mapped dies below them, a hub below the root sends the sums of
a slot up behind one another, with its end mark last. -/
def Sys2Proof.Claims.HistogramMerge : Prop :=
  ∀ (s : State) (h : Fin 214) (k : Fin 2) (slot : Fin 16), h.val ≠ halRoot → s.gen.merging k.val ≠ none →
    ¬ (9999 ∈ SMap.get [] (s.hub h.val).histEnds (16 * k.val + slot.val)) →
    (∀ c, c ∈ s.halChildren h.val → 1000 + c ∈ SMap.get [] (s.hub h.val).histEnds (16 * k.val + slot.val)) →
    ∃ t ms, exec (.hist h k slot) s = .next t
      ∧ 9999 ∈ SMap.get [] (t.hub h.val).histEnds (16 * k.val + slot.val)
      ∧ (t.hub h.val).hist = (s.hub h.val).hist
      ∧ (t.hub h.val).up.class2 = (s.hub h.val).up.class2 ++ ms ++ [.hist k.val slot.val 127 0]
      ∧ (∀ b n, .hist k.val slot.val b n ∈ ms ↔ b < 68 ∧ n ≠ 0
          ∧ n = SMap.get 0 (t.hub h.val).hist ((16 * k.val + slot.val) * 128 + b))
      ∧ (∀ w, w ≠ h.val → t.hub w = s.hub w) ∧ { t with hubs := s.hubs } = s

/-- R223–R226, R229–R231, R279: hubs send, gather and release: votes, barriers and histograms. -/
def Obligations.HalyardGathering : Prop :=
  Sys2Proof.Claims.HubSends ∧ Sys2Proof.Claims.Barriers ∧ Sys2Proof.Claims.Votes ∧ Sys2Proof.Claims.HistogramMerge

/-- R224, R226, R231, R233, R235, R244: notices, heartbeats and user messages of the halyard network. -/
def Obligations.HalyardMessages : Prop :=
  Sys2Proof.Claims.Notices ∧ Sys2Proof.Claims.Heartbeats ∧ Sys2Proof.Claims.UserTraffic

namespace Sys2Proof.Claims

open Sys2Proof.Machine

/-- The tick generator apart, nothing changes. -/
def GenOnly (s t : State) : Prop := { t with gen := s.gen } = s

/-- The started tick `x` is abandoned with a cause: it and its successors no longer run, its attempt count rises, and
TICK_LAST_ABANDON and TICK_ABANDON_COUNT say so (R244, R245). -/
def Abandons (s t : State) (x : TickRun) (cause : Nat) : Prop :=
  t.gen.ticks = s.gen.ticks.filter (fun y => decide (y.tick < x.tick))
    ∧ SMap.get 0 t.gen.attempts x.tick = x.att + 1
    ∧ t.reg unitMgmt rTICK_LAST_ABANDON = x.tick % 2 ^ 48 + 2 ^ 48 * cause + 2 ^ 52 * (x.att % 4) + 2 ^ 63
    ∧ Counted s t unitMgmt rTICK_ABANDON_COUNT

/-- Cycle `c` is not after the overrun deadline of tick `x`, and not after the commit deadline of the oldest tick (R243). -/
def InTime (x : TickRun) (c : Nat) : Prop := ∀ e, x.tEff = some e → c ≤ e + x.period + x.allow
def MayCommit (s : State) (c : Nat) : Prop :=
  ∀ y e, s.oldest = some y → y.tEff = some e → c ≤ e + y.period + y.allow + 2100 * s.fld unitMgmt rTICK_TIMING 0 10

/-- Fabric cycles that a class-0 message takes to take effect (R225). -/
def classDelay (s : State) : Nat := 2 * s.active.halL0

/-- Logical world `w` is changed by a commit of tick `x` as R256 says of one latched RUN. -/
def WorldStepped (s t : State) (x : TickRun) (w : Nat) : Prop :=
  if s.marked x w = true then
    (t.world w).step = 0 ∧ (t.world w).episode = ((s.world w).episode + 1) % 2 ^ 32 ∧ (t.world w).doneLast = true
      ∧ (t.world w).doneTick = x.tick % 2 ^ 32
  else
    (t.world w).step = ((s.world w).step + 1) % 2 ^ 48 ∧ (t.world w).episode = (s.world w).episode
      ∧ (t.world w).doneLast = false

/-- A slot of a world's copy: from byte `so` of the DRAM of site `ss` to byte `dO` of that of `ds`, `n` lines (R255). -/
def CopyPlaces (s : State) (src dst ss so ds dO n : Nat) : Prop :=
  so % 64 = 0 ∧ dO % 64 = 0 ∧ ∀ k, k < n → s.dramSite (src + 64 * k) = some (ss, so + 64 * k) ∧ s.dramSite (dst + 64 * k) = some (ds, dO + 64 * k)
    ∧ (s.dram ss).isRetired (so + 64 * k) = false ∧ (s.dram ss).isPoisoned (so + 64 * k) = false
    ∧ (s.dram ds).isRetired (dO + 64 * k) = false

/-- Nothing holds an access back at the ports of a site: none trains, none has an access that waits or a read in its merge
buffer, and no line limit is in force (R187, R189, R191, R193). -/
def PortsFree (s : State) (site : Nat) : Prop :=
  (∀ p, (portAt s site p).training = false ∧ (portAt s site p).reads = []) ∧ (∀ d p, s.dramWaiting d p = [])
    ∧ (s.dram site).inForce s.now < 2

end Sys2Proof.Claims

/-- R251, R239: RUN = 1 while stopped or halted with no tick started makes the next tick ready at once, or at the end of a
replay gap; RUN = 0 lets the started ticks end. STEP_LEFT and, while STOPPED or HALTED, TICK_COMMIT_SEQ are written. -/
def Sys2Proof.Claims.TickControl : Prop :=
  ∀ (s : State) (n : BitVec 32) (v : Word),
    ((s.gen.gstate = .stopped ∨ s.gen.gstate = .halted) → s.gen.ticks = [] → s.isRoot = false →
      ∃ t, exec (.run true) s = .next t ∧ t.gen.gstate = .running ∧ t.gen.run = true
        ∧ t.gen.ready = some (Nat.max s.now s.gen.notBefore) ∧ t.gen.commitSeq = s.gen.commitSeq ∧ GenOnly s t)
    ∧ (s.gen.gstate = .running → ∃ t, exec (.run false) s = .next t ∧ t.gen.run = false ∧ t.gen.ticks = s.gen.ticks
        ∧ (t.gen.gstate = .stopping ∨ (t.gen.gstate = .stopped ∧ s.gen.ticks = [])))
    ∧ exec (.stepLeft n) s = .next { s with gen := { s.gen with stepLeft := n.toNat } }
    ∧ exec (.tickCommitSeqWrite v) s = .next (if s.gen.gstate = .stopped ∨ s.gen.gstate = .halted then
        { s with gen := { s.gen with commitSeq := v, nodeSeq := v } } else s)

/-- R239, R249: a ready tick starts at its start time, when no tack is pending and at most one tick has started; without
alignment that is the time it became ready. In external mode an edge of tick-in gives the start time; in the other modes the edge
is ignored. -/
def Sys2Proof.Claims.TickStarts : Prop :=
  ∀ (s : State) (fixed eta : BitVec 16) (r : Nat), s.gen.ready = some r →
    (s.rwt unitMgmt rTICK_SRC 0 2 = 0 → s.cfg.pending = false →
      (s.gen.gstate = .running ∨ s.gen.gstate = .stopping) → s.gen.ticks.length < 2 →
      ∃ t x, exec (.startTick fixed eta) s = .next t ∧ t.now = Nat.max s.now r ∧ t.gen.ready = none
        ∧ t.gen.ticks = s.gen.ticks ++ [x] ∧ x.t0 = t.now ∧ x.ended = false ∧ x.d = none ∧ x.edgesSent = 0
        ∧ x.att = SMap.get 0 s.gen.attempts x.tick ∧ x.runahead = !s.gen.ticks.isEmpty
        ∧ (s.gen.ticks = [] → x.tick = s.gen.commitSeq.toNat + 1 ∧ x.tEff = some t.now)
        ∧ (∀ y, s.gen.ticks = [y] → x.tick = y.tick + 1 ∧ x.tEff = none)
        ∧ t.cores = s.cores)
    ∧ (s.rwt unitMgmt rTICK_SRC 0 2 = 1 → r ≤ s.now → s.gen.aligned = none →
        ∃ t, exec .tickInEdge s = .next t ∧ t.gen.aligned = some s.now ∧ GenOnly s t)
    ∧ (s.rwt unitMgmt rTICK_SRC 0 2 ≠ 1 → exec .tickInEdge s = .next s)

/-- R225, R228, R240, R241: the next edge of a started tick is sent early enough to take effect when it is due; when it takes
effect the nodes hold it, and the launches of its list wait at their cores. A control message takes its time on the network. -/
def Sys2Proof.Claims.Phases : Prop :=
  ∀ (s : State) (tick : Nat) (x : TickRun) (cmd : BitVec 9) (op : BitVec 32) (node : Option CoreIx),
    (s.tickRun tick = some x → x.edgesSent < s.phaseCount x.prog → s.edgeMayGo x = true → s.gen.class0 = none →
      ∃ t, exec (.phaseSend tick) s = .next t
        ∧ t.now = Nat.max s.now (x.t0 + 21 * field (s.phaseReg x.prog x.edgesSent) 0 24 - classDelay s)
        ∧ t.gen.class0 = some (.phase x.edgesSent tick x.att, Nat.max t.now s.gen.class0Free + classDelay s)
        ∧ (∀ y, y ∈ t.gen.ticks → y.tick = tick → ∃ z, z ∈ s.gen.ticks ∧ y = { z with edgesSent := z.edgesSent + 1 })
        ∧ GenOnly { s with now := t.now } t)
    ∧ (∀ p att t0, s.gen.class0 = some (.phase p tick att, t0) → s.gen.class0Q = [] →
        ∃ t, exec .phase s = .next t ∧ t.now = Nat.max s.now t0 ∧ t.gen.class0 = none
          ∧ SMap.get 0 t.gen.lastEdge (tick % 2) = p + 1
          ∧ (∀ y, y ∈ t.gen.ticks → y.tick = tick → y.edges = p + 1)
          ∧ ∀ e c, e ∈ s.active.launchList (s.progOf tick) p → s.physOf e.1 = some c →
              { off := e.2.1, patch := e.2.2, tick := tick, att := att, runahead := decide (s.gen.commitSeq.toNat + 1 < tick) }
                ∈ (t.core c).launches)
    ∧ (s.gen.class0 = none → ∃ t, exec (.control cmd op node) s = .next t
        ∧ t.now = Nat.max s.now (Nat.max s.now s.gen.class0Free + classDelay s)
        ∧ t.gen.control = some (cmd.toNat, op.toNat, node.map (fun c => c.val))
        ∧ t.gen.class0Free = Nat.max s.now s.gen.class0Free + classDelay s ∧ GenOnly { s with now := t.now } t)

/-- R229, R243–R245, R249, R255: the root's combined vote gives a tick its D, or abandons it with VOTE_FAIL; the tick ends at
the later of D and its period, and starts the copies of its worlds; without a vote by the end of its allowance, or a commit by
the end of the grace after that, it is abandoned. -/
def Sys2Proof.Claims.TickEnds : Prop :=
  ∀ (s : State) (k : Fin 2) (tick : Nat) (x : TickRun), s.tickRun tick = some x →
    ((votesAt s halRoot k.val).tick = tick → (votesAt s halRoot k.val).att = x.att → x.d = none →
      (votesAt s halRoot k.val).children ≠ [] → s.voteComplete halRoot (votesAt s halRoot k.val) = true →
      (InTime x s.now → (votesAt s halRoot k.val).ok = true → ∃ t, exec (.rootVote k) s = .next t
        ∧ t.gen.ticks = s.gen.ticks.map (fun y => if y.tick = tick then { y with d := some s.now } else y)
        ∧ t.now = s.now ∧ { t with gen := s.gen, regs := s.regs, hw := s.hw } = s)
      ∧ (InTime x s.now → (votesAt s halRoot k.val).ok = false → x.commitAt = none → x.tick = tick →
          ∃ t, exec (.rootVote k) s = .next t ∧ Abandons s t x 3)
      ∧ (¬ InTime x s.now → x.commitAt = none → x.tick = tick → ∃ t, exec (.rootVote k) s = .next t ∧ Abandons s t x 1))
    ∧ (∀ d, x.d = some d → x.ended = false → MayCommit s (Nat.max s.now (Nat.max d (x.t0 + x.period))) → ∃ t, exec (.tickEnd tick) s = .next t
        ∧ t.now = Nat.max s.now (Nat.max d (x.t0 + x.period))
        ∧ (∀ y, y ∈ t.gen.ticks → y.tick = tick → y.ended = true ∧ y.endAt = t.now)
        ∧ t.gen.ticks.map TickRun.tick = s.gen.ticks.map TickRun.tick
        ∧ t.worlds.copies = s.worlds.copies
            ++ (if s.copiesOf x = [] then [] else [{ tick := tick, todo := s.copiesOf x, reported := false }]))
    ∧ (∀ e, x.tEff = some e → x.tick = tick → x.commitAt = none →
        (x.d = none → ∃ t, exec (.overrun tick) s = .next t ∧ t.now = Nat.max s.now (e + x.period + x.allow)
          ∧ Abandons s t x 1)
        ∧ (∃ t, exec (.commitTimeout tick) s = .next t
          ∧ t.now = Nat.max s.now (e + x.period + x.allow + 2100 * s.fld unitMgmt rTICK_TIMING 0 10) ∧ Abandons s t x 2))

/-- R54, R228, R231, R245: ABANDON of the next tick to commit takes effect: its tasks and its successor's end, the gathered
votes and barrier arrivals of both go, and the replay is ready when the gap is over. -/
def Sys2Proof.Claims.AbandonEffect : Prop :=
  ∀ (s : State) (tick att t0 : Nat), s.gen.class0 = some (.abandon tick att, t0) → s.gen.class0Q = [] →
    tick = s.gen.commitSeq.toNat + 1 →
    ∃ t, exec .abandon s = .next t ∧ t.now = Nat.max s.now t0 ∧ t.gen.class0 = none
      ∧ t.gen.notBefore = t.now + 2100 * s.fld unitMgmt rTICK_TIMING 16 10
      ∧ ((s.gen.gstate = .running ∨ s.gen.gstate = .stopping) → t.gen.ready = some t.gen.notBefore)
      ∧ (∀ p i, i < 8 → (s.slot p i).mode ≠ .free → ((s.slot p i).tick = tick ∨ (s.slot p i).tick = tick + 1) →
          (t.slot p i).mode = .ending ∨ (t.slot p i).mode = .free)
      ∧ (∀ h k, k < 2 → (votesAt t h k).members = [] ∧ (votesAt t h k).children = []
          ∧ ∀ e, e ∈ (t.hub h).up.bar → e.1 ≠ k)
      ∧ (∀ k, k < 2 → SMap.get 0 t.gen.lastEdge k = 0)

/-- R228, R238, R248, R256: COMMIT takes effect: COMMIT_SEQ and the schedule position move on, the tick is the last one
committed, and every world that was latched RUN has stepped or begun a new episode. -/
def Sys2Proof.Claims.CommitEffect : Prop :=
  ∀ (s : State) (x : TickRun) (rest : List TickRun) (t0 : Nat), s.gen.class0 = some (.commit x.tick, t0) →
    s.gen.ticks = x :: rest →
    ∃ t, exec .commit s = .next t ∧ t.now = Nat.max s.now t0
      ∧ t.gen.commitSeq = BitVec.ofNat 64 x.tick ∧ t.gen.last = some x ∧ t.gen.prev = s.gen.last ∧ t.gen.commits = s.gen.commits + 1
      ∧ t.gen.ticks.map TickRun.tick = rest.map TickRun.tick
      ∧ t.gen.stepLeft = s.gen.stepLeft - 1
      ∧ (t.gen.entry, t.gen.rep) =
          (if s.gen.rep < s.sched s.gen.entry 34 16 then (s.gen.entry, s.gen.rep + 1)
            else if s.gen.entry + 1 < s.schedLen then (s.gen.entry + 1, 0) else (0, 0))
      ∧ ∀ w, s.world w ≠ World.reset → SMap.get 0 x.latched w = 1 → WorldStepped s t x w

/-- R254, R258, R267: RESET_REQ and the status word of a world are written, the word as a whole or not at all; a task's write of
a done-mark word marks its worlds for its tick and attempt while that attempt runs. -/
def Sys2Proof.Claims.WorldMarks : Prop :=
  ∀ (s : State) (w : Fin 4096) (v : Word) (acc i : Nat) (a : Access) (data : List Byte),
    exec (.resetReq w) s = .next (s.setWorld w.val { s.world w.val with resetReq := true })
    ∧ ((field v.toNat 16 2 = 2 ∨ (field v.toNat 16 2 = 3 ∧ s.feature 1 = true)) → field v.toNat 0 2 ≠ 3 →
        exec (.wctxStatusWrite w v) s = .next (s.setWorld w.val { s.world w.val with
          state := field v.toNat 0 2, resetReq := (s.world w.val).resetReq || v.getLsbD 2,
          resetErr := (s.world w.val).resetErr && !v.getLsbD 4, autoReset := v.getLsbD 5, slots := field v.toNat 16 2,
          user := BitVec.ofNat 32 (v.toNat / 2 ^ 32) }))
    ∧ ((field v.toNat 16 2 < 2 ∨ (field v.toNat 16 2 = 3 ∧ s.feature 1 = false) ∨ field v.toNat 0 2 = 3) →
        exec (.wctxStatusWrite w v) s = .next s)
    ∧ (s.access acc = some a → a.stage = .atTarget → doneWord a.addr = some i → a.kind = .write data →
        (∃ x, x ∈ s.gen.ticks ∧ x.tick = a.tick ∧ x.att = a.att) →
        ∃ t, exec (.wctxDoneSet acc) s = .next t ∧ Replied t acc 0 [] ∧ t.worlds.table = s.worlds.table
          ∧ ∀ b, b < 8 * data.length → (leNat data).testBit b = true →
              SMap.get (0, 0) t.worlds.marks (4096 * (a.tick % 2) + (32 * i + b)) = (a.tick, a.att))

/-- R255: the copy of a world gives the slot of the tick's successor the bytes of its template, and the world is no longer to
be copied; when none is, the host bridge die reports it. -/
def Sys2Proof.Claims.WorldCopies : Prop :=
  ∀ (s : State) (w : Fin 4096) (c : ResetCopies) (ss so ds dO n : Nat),
    s.worlds.copies.find? (fun c => c.todo.contains w.val) = some c → (s.world w.val).slotBytes = 64 * n →
    CopyPlaces s (s.world w.val).template
      ((s.world w.val).stateBase + c.tick % (s.world w.val).slots * (s.world w.val).slotStride) ss so ds dO n →
    (ss ≠ ds ∨ so + 64 * n ≤ dO ∨ dO + 64 * n ≤ so) → PortsFree s ss → PortsFree s ds →
    ∃ t, exec (.resetCopy w []) s = .next t ∧ (∀ j, j < 64 * n → dbyte t ds (dO + j) = dbyte s ss (so + j))
      ∧ t.worlds.table = s.worlds.table ∧ t.now = s.now
      ∧ ∀ y, y ∈ t.worlds.copies → y.tick = c.tick → ¬ (w.val ∈ y.todo)
def Sys2Proof.Claims.CopiesReported : Prop :=
  ∀ (s : State) (tick : Nat) (c : ResetCopies), s.worlds.copies.find? (fun c => c.tick == tick) = some c → c.todo = [] →
    c.reported = false → ∃ t, exec (.resetCopyComplete tick) s = .next t
      ∧ (∀ y, y ∈ t.worlds.copies → y.tick = tick → y.reported = true) ∧ t.worlds.table = s.worlds.table

/-- R279: at a tick boundary a pending tack that moves placement closes the mesh and waits until its routers are empty; one that
moves nothing, with no window to close, is sent as TACK. TACK exchanges the two sets at once. With the votes of every child, or
2.0 µs after it was sent, the tack is complete: the generation rises and injection opens. -/
def Sys2Proof.Claims.TackSteps : Prop :=
  ∀ (s : State),
    (s.cfg.pending = true → s.cfg.tackSent = none → s.atBoundary = true → s.cfg.boundaryAt = none →
      (s.tackDrains = true → s.drained = false → ∃ t, exec .tackBoundary s = .next t ∧ t.mesh.closed = true
        ∧ t.cfg.boundaryAt = some s.now ∧ t.cfg.tackSent = none
        ∧ { t with mesh := s.mesh, cfg := s.cfg } = s)
      ∧ (s.tackDrains = false → s.shadow.count 5 = 0 →
          (∀ p w, ((s.spad p).win w).tmpl = []) → (∀ p, (s.spad p).fits [] [] = true) →
          ∃ t, exec .tackBoundary s = .next t ∧ t.cfg.tackSent = some s.now ∧ t.cores = s.cores
            ∧ t.gen.class0 = some (.tack (s.cfg.activeGen + 1), Nat.max s.now s.gen.class0Free + classDelay s)))
    ∧ (∀ g t0, s.gen.class0 = some (.tack g, t0) → s.gen.class0Q = [] → s.cfg.met = [] → ∃ t, exec .tack s = .next t
        ∧ t.now = Nat.max s.now t0 ∧ t.active = s.shadow ∧ t.shadow = s.active ∧ t.cfg.swappedAt = some t.now
        ∧ t.gen.class0 = none ∧ ∀ p, (t.core p).icache = [])
    ∧ (∀ t0 at_, s.cfg.swappedAt = some at_ → s.cfg.autoQ = false → s.active.vacantLaunch = false →
        ((votesAt s halRoot 2).tick = s.cfg.activeGen + 1 →
          (∀ c, c ∈ s.halChildren halRoot → c ∈ (votesAt s halRoot 2).children) →
          ∃ t, exec .tackComplete s = .next t ∧ t.now = s.now
            ∧ t.cfg.activeGen = (s.cfg.activeGen + 1) % 2 ^ 32 ∧ t.cfg.shadowGen = s.cfg.activeGen ∧ t.cfg.pending = false
            ∧ t.cfg.locked = false ∧ t.cfg.isSealed = s.cfg.isSealed ∧ t.mesh.closed = false ∧ t.active = s.active)
        ∧ (s.cfg.tackSent = some t0 →
          ∃ t, exec .tackVoteTimeout s = .next t ∧ t.now = Nat.max s.now (t0 + 4200)
            ∧ t.cfg.activeGen = (s.cfg.activeGen + 1) % 2 ^ 32 ∧ t.cfg.pending = false ∧ t.mesh.closed = false
            ∧ t.active = s.active))

/-- R225, R228, R239–R241, R249, R251: ticking is controlled, ticks start and their phases take effect. The start of the first
tick of a system of panels is the model's choice (log 17). -/
def Obligations.TickProgress : Prop :=
  Sys2Proof.Claims.TickControl ∧ Sys2Proof.Claims.TickStarts ∧ Sys2Proof.Claims.Phases

/-- R54, R228, R229, R231, R238, R243–R245, R248, R249, R255, R256: ticks end, are abandoned, and commit. -/
def Obligations.TickOutcomes : Prop :=
  Sys2Proof.Claims.TickEnds ∧ Sys2Proof.Claims.AbandonEffect ∧ Sys2Proof.Claims.CommitEffect

/-- R254, R255, R258, R267, R279: the world table's marks and copies, and the steps of a tack. -/
def Obligations.WorldsAndTacks : Prop :=
  Sys2Proof.Claims.WorldMarks ∧ Sys2Proof.Claims.WorldCopies ∧ Sys2Proof.Claims.CopiesReported
    ∧ Sys2Proof.Claims.TackSteps

namespace Sys2Proof.Claims

open Sys2Proof.Machine

/-- The bucket of tag `t` at the unit of die `d`. -/
abbrev bucketAt (s : State) (d t : Nat) : UnitBucket := (s.unit d).bucket t

/-- Tick `x` is the one buckets serve, and tag `t` takes part in it (R290). -/
def Serves (s : State) (x : TickRun) (t : Nat) : Prop := s.collRun = some x ∧ s.takesPart t x = true

/-- A post `r` of tag `t` has arrived at working die `d`, stamped with the attempt that runs (R292). -/
def PostArrives (s : State) (acc : Nat) (a : Access) (d t : Nat) (r : List Byte) (x : TickRun) : Prop :=
  s.access acc = some a ∧ a.stage = .atTarget ∧ a.kind = .write r ∧ s.active.target a.addr = some (.dieReg d rCOLL_POST)
    ∧ s.unitWorks d = true ∧ r.length = 64 ∧ s.collRun = some x ∧ t = field (leAt r 0 2) 0 10

/-- The unit of die `d` may start tag `t` but for the wait for pairs: it is neither started nor failed, the scale is fixed,
and every key has a copy (R295). -/
def MayStart (s : State) (d t : Nat) (x : TickRun) : Prop :=
  Serves s x t ∧ s.unitWorks d = true ∧ s.scaleFixed d x = true
    ∧ (s.bucketFor d t x).started = false ∧ (s.bucketFor d t x).failed = false
    ∧ (∀ k, k ∈ s.collKeys (s.active.bucket t) d → (s.bucketFor d t x).postsOf k ≠ [])
    ∧ bkPanels (s.active.bucket t) ≤ 1

/-- It has started: each key uses the copy that came first. -/
def Started (s t' : State) (d t : Nat) (x : TickRun) : Prop :=
  bucketAt t' d t = { s.bucketFor d t x with
    started := true
    used := (s.collKeys (s.active.bucket t) d).filterMap (fun k => firstPost ((s.bucketFor d t x).postsOf k)) }

/-- A reduction packet from die `d` to die `p` enters the bulk mesh on VC 4 (R198, R210); between units of one die none is needed.
-/
def OnVc4 (s t : State) (d p : Nat) : Prop :=
  d = p ∨ ∃ y, t.packet s.mesh.nextPacket = some y ∧ y.cargo = .reduction s.mesh.nextPacket ∧ y.vc = 4 ∧ y.dest = p
    ∧ y.destRouter = 22 ∧ y.place = .inject

/-- The scale code of every post is the unit's. -/
def ScalesMatch (s : State) (d t : Nat) (x : TickRun) : Prop :=
  bkWordsIn (s.active.bucket t) = true →
    ∀ p, p ∈ (s.bucketFor d t x).posts → toSigned 16 p.qs = (s.bucketFor d t x).sEff

/-- Word `i` of the line that a post's source gives next, as a signed number. -/
def sourceWord (s : State) (p : Post) (line i : Nat) : Int :=
  (BitVec.ofNat 64 (leAt ((s.srcRead (p.src + line * 64) 64 false).getD []) (8 * i) 8)).toInt

/-- The exact sum of word `i` over the copies that a bucket of reduction words uses. -/
def exactSum (s : State) (u : UnitBucket) (i : Nat) : Int := (u.used.map (fun p => sourceWord s p u.upLine i)).sum

/-- Tag `t` is the one ready bucket of the leaf unit of die `d`, whose parent is `p`: it reads reduction words, all its
sources are clean, and it compares no second copies (R295, R298). -/
def LeafStep (s : State) (d p t : Nat) (x : TickRun) : Prop :=
  s.collRun = some x
    ∧ (s.active.tagsOf x.prog).filter (fun t => s.upReady d t x || s.stagedReady d t x) = [t] ∧ s.upReady d t x = true
    ∧ s.collChildren (bkRoot (s.active.bucket t)) d = [] ∧ s.collParent (bkRoot (s.active.bucket t)) d = some p
    ∧ bkWordsIn (s.active.bucket t) = true ∧ s.suppressedAt x.tick = false
    ∧ s.maint.armedBucket ≠ some (s.collKeyOf (.unit d))
    ∧ (∀ q, q ∈ (s.bucketFor d t x).posts → q ∈ (s.bucketFor d t x).used)
    ∧ (∀ q, q ∈ (s.bucketFor d t x).used → s.srcRead (q.src + (s.bucketFor d t x).upLine * 64) 64 false ≠ none)

/-- Slot `x` waits at port `i`, or has left it in a data flit that is not acknowledged (R311–R313, R316). -/
def Leaves (t : State) (i : Nat) (x : VSlot) : Prop :=
  x ∈ (t.port i).waiting ∨ ∃ n l, (n, FlitBody.data l) ∈ (t.port i).unacked ∧ x ∈ l

/-- Where a record of a failure came from, as COLL_FAIL shows it (R304). -/
def failSource : CollNode → Nat
  | .unit d => 2 ^ 18 * d
  | .engine l => 2 ^ 17 + 2 ^ 18 * l

end Sys2Proof.Claims

/-- R285, R286, R292, R295, R305: an accepted post joins its bucket at the unit and is answered OK; one that is there already is
refused and counted; one of another attempt is answered and counted, and changes no bucket. The scale of every bucket is fixed
once. A bucket whose keys all have a copy starts, a paired one at its deadline at the latest; a scale code that differs fails
it. -/
def Sys2Proof.Claims.BucketBegins : Prop :=
  ∀ (s : State) (d : Fin 192) (tag : Fin 1024) (x : TickRun),
    (∀ acc a r, PostArrives s acc a d.val tag.val r x →
      (x.tick = a.tick → x.att = a.att → s.postOk (s.active.bucket tag.val) d.val r x = true →
        ((∀ q, q ∈ (s.bucketFor d.val tag.val x).posts →
            ¬ (q.die = d.val ∧ q.contrib = field (leAt r 2 1) 0 6 ∧ q.copy = field (leAt r 2 1) 6 1)) →
          ∃ t q, exec (.collPost acc) s = .next t ∧ Replied t acc 0 []
            ∧ (bucketAt t d.val tag.val).posts = (s.bucketFor d.val tag.val x).posts ++ [q]
            ∧ q.die = d.val ∧ q.contrib = field (leAt r 2 1) 0 6 ∧ q.qs = leAt r 4 2 ∧ q.src = leAt r 8 8
            ∧ q.core = a.core)
        ∧ ((∃ q, q ∈ (s.bucketFor d.val tag.val x).posts
              ∧ q.die = d.val ∧ q.contrib = field (leAt r 2 1) 0 6 ∧ q.copy = field (leAt r 2 1) 6 1) →
          ∃ t, exec (.collPost acc) s = .next t ∧ Replied t acc 1 [] ∧ t.coll = s.coll
            ∧ Counted s t (s.unitSite d.val) rCOLL_POST_ERR))
      ∧ ((x.tick ≠ a.tick ∨ x.att ≠ a.att) → ∃ t, exec (.collPost acc) s = .next t ∧ Replied t acc 0 [] ∧ t.coll = s.coll
          ∧ Counted s t (s.unitSite d.val) rCOLL_POST_ERR))
    ∧ (s.collRun = some x → s.unitWorks d.val = true → s.scaleFixed d.val x = false → s.offersIn = true →
        ∃ t, exec (.scaleFix d) s = .next t ∧ t.scaleFixed d.val x = true
          ∧ t.reg (s.unitSite d.val) rCOLL_SCALE_TICK = x.tick % 2 ^ 32
          ∧ ∀ k, k ∈ s.active.tagsOf x.prog → (bucketAt t d.val k).sEff = s.scaleEff k)
    ∧ (MayStart s d.val tag.val x →
        (bkPaired (s.active.bucket tag.val) = false →
          (ScalesMatch s d.val tag.val x → ∃ t, exec (.bucketStart d tag) s = .next t ∧ Started s t d.val tag.val x
            ∧ t.coll.failures = s.coll.failures)
          ∧ (¬ ScalesMatch s d.val tag.val x → ∃ t f, exec (.bucketStart d tag) s = .next t
            ∧ (bucketAt t d.val tag.val).failed = true ∧ t.coll.failures = s.coll.failures ++ [f]
            ∧ f.tag = tag.val ∧ f.cause = 3 ∧ f.tick = x.tick ∧ f.att = x.att))
        ∧ (bkPaired (s.active.bucket tag.val) = true → ScalesMatch s d.val tag.val x →
          ∃ t, exec (.pairingDeadline d tag) s = .next t ∧ Started s t d.val tag.val x
            ∧ t.now = Nat.max s.now (x.tEff.getD x.t0 + 21 * bkDeadline (s.active.bucket tag.val))))

/-- R210, R284, R295, R297, R298: a leaf unit adds the words of its used copies exactly and sends the line, with its residue, to its
parent over the bulk mesh; no sum may leave 64 bits. -/
def Sys2Proof.Claims.LineSums : Prop :=
  ∀ (s : State) (d : Fin 192) (p t : Nat) (x : TickRun), LeafStep s d.val p t x →
    (∀ i, i < 8 → -(2 ^ 63) ≤ exactSum s (s.bucketFor d.val t x) i ∧ exactSum s (s.bucketFor d.val t x) i < 2 ^ 63) →
    ∃ t' l, exec (.unitLineStep (.unit d) none []) s = .next t'
      ∧ OnVc4 s t' d.val p
      ∧ t'.coll.packets = s.coll.packets ++ [{
          pkt := if d.val = p then none else some s.mesh.nextPacket
          src := .unit d.val, dst := .unit p, tag := t, gen := (s.bucketFor d.val t x).gen, tick := x.tick, att := x.att,
          line := (s.bucketFor d.val t x).upLine, dir := 0, dim := 0, phase := 0, data := l }]
      ∧ l.words.length = 8 ∧ l.residue = lineRes l.words
      ∧ (∀ i, i < 8 → (l.words.getD i 0).toInt = exactSum s (s.bucketFor d.val t x) i)
      ∧ (bucketAt t' d.val t).upLine = (s.bucketFor d.val t x).upLine + 1
      ∧ (bucketAt t' d.val t).outTo 0 = (s.bucketFor d.val t x).outTo 0 + 1

/-- R296–R298, R300: a current packet that has left the mesh is held at its unit, by child and line, or at its engine, by phase and line; one that is not
current is discarded and counted; at the link die of another rail it is queued for that port (R316). A line credit counts down what is out. A stage signal starts an engine's stage, or tells the root that the
final lines are in staging. -/
def Sys2Proof.Claims.LinesMove : Prop :=
  ∀ (s : State) (n : Nat) (x : TickRun),
    (∀ k, s.coll.packets[n]? = some k → s.inMesh k = false → s.collRun = some x →
      (∀ d c, k.dst = .unit d → k.src = .unit c → k.dir = 0 → k.tick = x.tick → k.att = x.att →
          s.takesPart k.tag x = true → k.gen = s.genOf k.tag →
          ∃ t, exec (.collectivePacket n none) s = .next t
            ∧ SMap.get none (bucketAt t d k.tag).fromChild (c * 2 ^ 18 + k.line) = some k.data
            ∧ t.coll.packets = s.coll.packets.eraseIdx n)
      ∧ (∀ l, k.dst = .engine l → l = s.engineLink k.dim → k.dir = 2 → k.tick = x.tick % 2 ^ 32 → k.att = x.att % 256 →
          s.takesPart k.tag x = true → k.gen = s.genOf k.tag →
          ∃ t, exec (.collectivePacket n none) s = .next t
            ∧ SMap.get none (t.engineFor k.dim k.tag x).inbox (k.phase * 2 ^ 18 + k.line) = some k.data
            ∧ t.coll.packets = s.coll.packets.eraseIdx n)
      ∧ (s.takesPart k.tag x = false → (∀ l, k.dst = .engine l → l = s.engineLink k.dim) →
          ∃ t, exec (.collectivePacket n none) s = .next t ∧ { t with coll := s.coll } = s
            ∧ t.coll = { s.coll with packets := s.coll.packets.eraseIdx n, stale := s.coll.stale + 1 })
      ∧ (∀ l, k.dst = .engine l → l ≠ s.engineLink k.dim → ∃ t, exec (.collectivePacket n none) s = .next t
          ∧ Leaves t l k.slot ∧ t.coll = { s.coll with packets := s.coll.packets.eraseIdx n }))
    ∧ (∀ d key tag, s.coll.returns[n]? = some (.unit d, key, tag, x.tick, x.att) → s.collRun = some x →
        SMap.get none (s.bucketFor d tag x).fromAbove (s.bucketFor d tag x).downLine = none →
        ∃ t, exec (.lineCreditReturn n) s = .next t
          ∧ (bucketAt t d tag).outTo key = (s.bucketFor d tag x).outTo key - 1
          ∧ t.coll.returns = s.coll.returns.eraseIdx n)
    ∧ (∀ tag dim phase, s.coll.signals[n]? = some (tag, x.tick, x.att, dim, phase) → s.collRun = some x →
        (phase = 2 → ∃ t, exec (.engineStageSignal n) s = .next t
          ∧ (bucketAt t ((s.collQ (bkRoot (s.active.bucket tag))).getD 0 0) tag).staged = true
          ∧ t.coll.signals = s.coll.signals.eraseIdx n)
        ∧ (∀ j r, phase ≠ 2 → r = s.collRange (bkLines (s.active.bucket tag)) dim → 0 < s.ringSize dim →
            j = (if phase = 0 then s.ringPos dim % s.ringSize dim else (s.ringPos dim + 1) % s.ringSize dim) →
            0 < (shard r.1 r.2 (s.ringSize dim) j).2 →
            ∃ t, exec (.engineStageSignal n) s = .next t
              ∧ t.engineFor dim tag x = { s.engineFor dim tag x with
                  phase := phase, lo := r.1, n := r.2, step := 0, line := 0, running := true }
              ∧ t.coll.signals = s.coll.signals.eraseIdx n))

/-- R303, R304: a bucket is complete at the management die once every member die has reported it; a failure record is held in
COLL_FAIL while that is clear, and has its tick abandoned; an overflow raises the scale of its tag. -/
def Sys2Proof.Claims.BucketEnds : Prop :=
  ∀ (s : State) (n : Nat) (x : TickRun),
    (∀ m tag, s.coll.reports[n]? = some (m, tag, x.tick, x.att) → s.collRun = some x →
      ((∀ d, d < 192 → bkMember (s.active.bucket tag) d = true → d = m ∨ d ∈ SMap.get [] s.coll.reported tag) →
        ∃ t, exec (.bucketCompletionReport n) s = .next t ∧ Counted s t unitMgmt rCOLL_COUNT
          ∧ t.coll.reports = s.coll.reports.eraseIdx n
          ∧ ∀ y, y ∈ t.gen.ticks → y.tick = x.tick → ¬ (tag ∈ y.bucketsOpen))
      ∧ ((∃ d, d < 192 ∧ bkMember (s.active.bucket tag) d = true ∧ d ≠ m ∧ ¬ (d ∈ SMap.get [] s.coll.reported tag)) →
        ∃ t, exec (.bucketCompletionReport n) s = .next t ∧ t.gen = s.gen ∧ t.regs = s.regs
          ∧ t.coll.reports = s.coll.reports.eraseIdx n
          ∧ SMap.get [] t.coll.reported tag = insertAsc m (SMap.get [] s.coll.reported tag)))
    ∧ (∀ f, s.coll.failures[n]? = some f → s.tickRun f.tick = some x → x.att = f.att → x.commitAt = none →
        ∃ t, exec (.failureRecord n) s = .next t ∧ Abandons s t x 9 ∧ t.coll.failures = s.coll.failures.eraseIdx n
          ∧ ((s.reg unitMgmt rCOLL_FAIL).testBit 63 = false → t.reg unitMgmt rCOLL_FAIL =
              f.tag + 2 ^ 10 * f.gen + 2 ^ 14 * f.cause + failSource f.src + 2 ^ 32 * (f.tick % 2 ^ 16) + 2 ^ 63)
          ∧ ((s.reg unitMgmt rCOLL_FAIL).testBit 63 = true → t.reg unitMgmt rCOLL_FAIL = s.reg unitMgmt rCOLL_FAIL)
          ∧ (s.multiPanel = false → f.cause = 2 → SMap.get 0 t.coll.raises f.tag = SMap.get 0 s.coll.raises f.tag + 1))

/-- R284–R286, R290, R292, R295: a collective is posted and starts, and its engines sum lines. -/
def Obligations.CollectiveStartsAndSums : Prop := Sys2Proof.Claims.BucketBegins ∧ Sys2Proof.Claims.LineSums

/-- R295–R298, R300, R303–R305: the lines of a collective move, and it completes or fails. -/
def Obligations.CollectiveMovesAndEnds : Prop := Sys2Proof.Claims.LinesMove ∧ Sys2Proof.Claims.BucketEnds

namespace Sys2Proof.Claims

open Sys2Proof.Machine

/-- Record `r` waits at port `i`, or has left it in a halyard flit that is not acknowledged (R313, R318). -/
def RecordLeaves (t : State) (i : Nat) (r : SysRecord) : Prop :=
  r ∈ (t.port i).records ∨ ∃ n l, (n, FlitBody.halyard l) ∈ (t.port i).unacked ∧ r ∈ l

/-- Entry `n` of the management die's inbox is record `r` of a type, which came in on a port at a time (R318). -/
def InInbox (s : State) (n type p at_ : Nat) (r : SysRecord) : Prop :=
  s.vorrad.inbox[n]? = some (p, at_, r) ∧ r.type = type ∧ s.inFabricReset = false

/-- The command that takes an upward record of a type (R319). -/
def upwardCommand (n : Nat) : Nat → Option Instr
  | 1 => some (.endRecord n)
  | 2 => some (.offer n)
  | 4 => some (.histUp n)
  | _ => none

/-- Slot `n` on the hem ring is a transfer slot for context `c`, at its link die (R211, R323). -/
def ArrivedHere (s : State) (n c : Nat) (x : VSlot) : Prop :=
  ∃ h, s.vorrad.hem[n]? = some h ∧ h.slot = x ∧ h.place = c / 512

/-- A receive context is open for lines of a panel (R323, R325). -/
def Receives (s : State) (c spanel line : Nat) : Prop :=
  s.inFabricReset = false ∧ (s.ctx c).st = 1 ∧ s.ctxMode c = 2 ∧ spanel = s.ctxPanel c ∧ (line + 1) * 64 ≤ s.ctxSize c
    ∧ (s.active.site (s.ctxDie c)).isSome = true

/-- Context `c` is an open send context (R323). -/
def Sends (s : State) (c : Nat) : Prop := s.ctxMode c = 1 ∧ ((s.ctx c).st = 1 ∨ (s.ctx c).st = 3)

end Sys2Proof.Claims

/-- R310, R312, R318: a flit that is uncorrectable or whose CRC is bad is discarded and asks for a replay; a numbered one in
order is accepted, and the records of a halyard flit go to the inbox; one out of order is discarded. A flit is 256 bytes, and one
that a port sends carries its kind, its number and a good CRC. After 2.0 µs without an acknowledgement the retry buffer is replayed. -/
def Sys2Proof.Claims.Flits : Prop :=
  ∀ (s : State) (i : Fin 8) (f : List Byte) (n : Nat) (bad : List (Fin 16)),
    (f.length ≠ 256 → exec (.flitReceive i f n bad) s = .fault (.illFormed "flit"))
    ∧ (f.length = 256 → s.portState i.val = 2 →
        ((bad ≠ [] ∨ flitCrcOk f = false) → ∃ t, exec (.flitReceive i f n bad) s = .next t ∧ (t.port i.val).nak = true
          ∧ (t.port i.val).expected = (s.port i.val).expected ∧ t.vorrad.inbox = s.vorrad.inbox
          ∧ t.vorrad.hem = s.vorrad.hem)
        ∧ (∀ kind, kind = field (leAt f 0 1) 0 4 → flitCrcOk f = true → (s.port i.val).rehearse = none →
            (kind = 1 ∨ (kind = 2 ∧ s.recordsHeld i.val < 96)) →
            (field (leAt f 1 2) 0 12 = (s.port i.val).expected → ∃ t, exec (.flitReceive i f n []) s = .next t
              ∧ (t.port i.val).expected = ((s.port i.val).expected + 1) % 4096 ∧ (t.port i.val).nak = false
              ∧ (t.port i.val).lastGood = s.now
              ∧ (kind = 2 → s.inFabricReset = false →
                  t.vorrad.inbox = s.vorrad.inbox ++ (decodeRecords f).map (fun r => (i.val, s.now, r))))
            ∧ (field (leAt f 1 2) 0 12 ≠ (s.port i.val).expected → ∃ t, exec (.flitReceive i f n []) s = .next t
              ∧ (t.port i.val).expected = (s.port i.val).expected ∧ (t.port i.val).nak = true
              ∧ t.vorrad.inbox = s.vorrad.inbox)))
    ∧ (s.portState i.val = 2 → (s.port i.val).unacked ≠ [] → ∃ t, exec (.replayTimeout i) s = .next t
        ∧ t.now = Nat.max s.now ((s.port i.val).ackAt + 4200)
        ∧ (∀ k b, (s.port i.val).unacked.getLast? = some (k, b) →
            t.port i.val = { s.port i.val with ackAt := t.now, wire := (s.port i.val).flit k b })
        ∧ Counted s t (unitEdge i.val) rVLNK_RETRY)
    ∧ (∀ (p : VPort) seq b, (p.flit seq b).length = 256 ∧ flitCrcOk (p.flit seq b) = true
        ∧ field (leAt (p.flit seq b) 0 1) 0 4 = b.kind ∧ field (leAt (p.flit seq b) 1 2) 0 12 = seq % 2 ^ 12)

/-- R314–R316, R329: a port that is down, enabled, and in a system of panels comes up when its peer is the neighbour it
expects, and else stays down with the mark of a wrong peer; loss of its link takes it down at once, 8.0 µs after its last good
flit at the latest, with all that waited there gone. -/
def Sys2Proof.Claims.PortsUpAndDown : Prop :=
  ∀ (s : State) (i : Fin 8) (peer : Fin 4096) (port : Fin 8) (dim : Fin 4) (delay : BitVec 16) (los : Bool),
    (s.portState i.val = 0 → (s.reg (unitEdge i.val) rVLNK_CTRL).testBit 0 = true → s.multiPanel = true →
      (peer.val = s.neighbour (s.dimOf i.val) (isSucc i.val) → port.val = (i.val + 4) % 8 → dim.val = s.dimOf i.val →
        ∃ t, exec (.portTraining i true peer port dim delay) s = .next t ∧ t.portState i.val = 2
          ∧ (t.port i.val).expected = 1 ∧ (t.port i.val).nextSeq = 1 ∧ (t.port i.val).unacked = []
          ∧ t.reg (unitEdge i.val) rVLNK_PEER = peer.val + 2 ^ 12 * port.val + 2 ^ 16 * delay.toNat
          ∧ (∀ j, j ≠ i.val → t.port j = s.port j))
      ∧ (¬ (peer.val = s.neighbour (s.dimOf i.val) (isSucc i.val) ∧ port.val = (i.val + 4) % 8 ∧ dim.val = s.dimOf i.val) →
        ∃ t, exec (.portTraining i true peer port dim delay) s = .next t ∧ t.portState i.val = 0
          ∧ (t.reg (unitEdge i.val) rVLNK_STATUS).testBit 3 = true ∧ ∀ j, t.port j = s.port j))
    ∧ (s.portState i.val = 2 → ∃ t, exec (.linkDown i los) s = .next t
        ∧ t.now = (if los = true then s.now else Nat.max s.now ((s.port i.val).lastGood + 16800))
        ∧ t.portState i.val = 0 ∧ t.port i.val = { VPort.reset with retireLanes := (s.port i.val).retireLanes })

/-- R314, R446: a write of RETRAIN, or a running entry of the arbiter in slack, has a port retrained: it announces the
retraining and sends no more until it ends; a retraining in which every lane takes part brings it back up. -/
def Sys2Proof.Claims.PortRetraining : Prop :=
  ∀ (s : State) (i : Fin 8) (e : MaintEntry),
    (∃ t, exec (.vlnkCtrlRetrain i) s = .next t ∧ (t.reg (unitEdge i.val) rVLNK_CTRL).testBit 1 = true
      ∧ (s.maint.entries.length < 16 → ∃ x, x ∈ t.maint.entries ∧ x.code = 2 ∧ x.resource = linkResource i.val)
      ∧ { t with regs := s.regs, maint := s.maint } = s)
    ∧ (s.runningEntry 2 (fun e => e.site == 204 + i.val && !e.inStep) = some e → s.panelSlack = true → s.portState i.val = 2 →
        ∃ t, exec (.vlnkRetrain i) s = .next t ∧ t.portState i.val = 1 ∧ (t.port i.val).announced = true
          ∧ (t.port i.val).trainBy = some (s.now + 84000)
          ∧ (t.port i.val).unacked = (s.port i.val).unacked ++ [((s.port i.val).nextSeq, .control true)]
          ∧ ∀ x, x ∈ t.maint.entries → x.handle = e.handle → x.inStep = true)
    ∧ (s.portState i.val = 1 → (s.port i.val).trainBy ≠ none → (s.port i.val).retireLanes = [] →
        s.fld (unitEdge i.val) rVLNK_STATUS 16 16 = 0 →
        ∃ t, exec (.vlnkRetrainingComplete i true []) s = .next t ∧ t.portState i.val = 2
          ∧ (t.port i.val).trainBy = none ∧ (t.port i.val).announced = false ∧ (t.port i.val).lastGood = s.now)

/-- R285, R318–R321: an upward record of a leaf panel goes to its parent once its own is there; MARK gives the start time of an
attempt, TOKEN the commit token of a tick, SYS_ABANDON abandons the attempt with cause SYSTEM, HIST_DOWN brings the offers. The
first ABORT of an attempt goes up, and at the root abandons the attempt; the root sends the next MARK after the gap. -/
def Sys2Proof.Claims.SystemRecords : Prop :=
  ∀ (s : State) (n p at_ : Nat) (r : SysRecord) (x : TickRun),
    (∀ ty c d u i, upwardCommand n ty = some c → InInbox s n ty p at_ r → p = ownPort → s.sysChildren = [] →
      s.isRoot = false → s.sysParent = some (d, u) → s.workingPort d u = some i →
      (∀ g, g ∈ s.vorrad.gathers → ¬ (g.type = ty ∧ g.tick = r.tick ∧ g.att = (if ty = 4 then 0 else r.att))) →
      ∃ t q, exec c s = .next t ∧ RecordLeaves t i q ∧ q.type = ty ∧ q.tick = r.tick
        ∧ q.att = (if ty = 4 then 0 else r.att) ∧ q.nora = r.nora ∧ t.vorrad.inbox = s.vorrad.inbox.eraseIdx n)
    ∧ (InInbox s n 5 p at_ r → s.fromParent p = true → ∃ t, exec (.mark n) s = .next t
        ∧ t.vorrad.mark = some (r.tick, r.att, at_ + 2 * r.remain) ∧ t.vorrad.inbox = s.vorrad.inbox.eraseIdx n)
    ∧ (InInbox s n 6 p at_ r → s.fromParent p = true → s.tickRun r.tick = some x → x.att % 256 = r.att → MayCommit s s.now →
        ∃ t, exec (.token n) s = .next t ∧ (∀ y, y ∈ t.gen.ticks → y.tick = r.tick → y.token = true)
          ∧ t.vorrad.inbox = s.vorrad.inbox.eraseIdx n)
    ∧ (InInbox s n 7 p at_ r → s.fromParent p = true → s.tickRun r.tick = some x → x.att % 256 = r.att → x.commitAt = none →
        ∃ t, exec (.sysAbandon n) s = .next t ∧ Abandons s t x 8
          ∧ (r.raise = true → SMap.get 0 t.coll.raises r.tag = SMap.get 0 s.coll.raises r.tag + 1))
    ∧ (InInbox s n 8 p at_ r → s.fromParent p = true → ∃ t ks, exec (.histDown n) s = .next t
        ∧ t.coll.offers = some (r.tick, ks) ∧ (∀ h, h < 16 → r.ks.getD h 127 ≠ 127 → ks.getD h 127 = r.ks.getD h 127)
        ∧ t.vorrad.inbox = s.vorrad.inbox.eraseIdx n)
    ∧ (InInbox s n 3 p at_ r → (p = ownPort ∨ s.sideOf p ∈ s.sysChildren) →
        (s.isRoot = false → (∀ a, a ∈ s.vorrad.aborts → a ≠ (r.tick, r.att)) →
          ∃ t, exec (.abortRecord n) s = .next t ∧ (r.tick, r.att) ∈ t.vorrad.aborts
            ∧ (∀ d u i, s.sysParent = some (d, u) → s.workingPort d u = some i → RecordLeaves t i r))
        ∧ (s.isRoot = true → (∀ a, a ∈ s.vorrad.abandons → a ≠ (r.tick, r.att)) → s.tickRun r.tick = some x →
            x.att % 256 = r.att → x.commitAt = none →
            ∃ t, exec (.abortRecord n) s = .next t ∧ Abandons s t x 8
              ∧ t.vorrad.nextMark = some (r.tick, x.att + 1, s.now + 2100 * s.fld unitMgmt rTICK_TIMING 16 10)))
    ∧ (∀ tick att m, s.vorrad.nextMark = some (tick, att, m) → s.isRoot = true → ∃ t, exec .nextAttemptMark s = .next t
        ∧ t.now = Nat.max s.now m ∧ t.vorrad.nextMark = none
        ∧ t.vorrad.mark = some (tick, att % 256, t.now + 2 * (105 * s.fld unitMgmt rVLNK_SYS_TIMING 0 10)))

/-- R210, R211, R317, R323–R326: a post of a task joins its send context; a line that its context expects is taken, and is to be written to
its place by a DRAM access on VC 5; an acknowledgement frees the lines up to it, and one that refuses breaks the context. Slots
for other panels take the hem ring, whose segments join every two link dies, and leave on the port of their route; at one that
is down they are discarded and answered. -/
def Sys2Proof.Claims.TransferTraffic : Prop :=
  ∀ (s : State) (n c : Nat),
    (∀ acc a e r, s.access acc = some a → a.stage = .atTarget → a.kind = .write r →
      s.active.target a.addr = some (.edge e rVLNK_XPOST) → e < 8 →
      ((r.length ≠ 64 ∨ s.xpostOk e r = false) → ∃ t, exec (.vlnkXpost acc) s = .next t ∧ Replied t acc 1 []
        ∧ t.vorrad = s.vorrad)
      ∧ (r.length = 64 → s.xpostOk e r = true → c = leAt r 0 2 → a.tick ≤ s.gen.commitSeq.toNat →
          s.suppressedAt a.tick = false → (s.ctx c).st ≠ 2 → (s.ctx c).posts.length < 16 →
          ∃ t, exec (.vlnkXpost acc) s = .next t ∧ Replied t acc 0 []
            ∧ (t.ctx c).posts.map (fun p => (p.number, p.length, p.src, p.dstOff, p.doneAddr)) =
                (s.ctx c).posts.map (fun p => (p.number, p.length, p.src, p.dstOff, p.doneAddr))
                  ++ [((s.ctx c).nextNumber, leAt r 4 4, leAt r 8 8, leAt r 16 8, leAt r 24 8)]
            ∧ (t.ctx c).nextNumber = (s.ctx c).nextNumber + 1))
    ∧ (∀ cls lseq line sctx spanel st dim data dlen,
        ArrivedHere s n c (.xfer cls false s.panelNo c lseq line sctx spanel st dim data) →
        Receives s c spanel line → lseq = (s.ctx c).seq % 2 ^ 32 → dlen = (s.ctx c).dram.length →
        ∃ t l, exec (.transferLine n) s = .next t ∧ (t.ctx c).seq = (s.ctx c).seq + 1
          ∧ (t.ctx c).dram[dlen]? = some l ∧ l.data = data ∧ l.addr = s.ctxDie c * 2 ^ 36 + s.ctxBase c + line * 64
          ∧ (l.pkt = none ∨ l.pkt = some s.mesh.nextPacket ∧ ∃ y, t.packet s.mesh.nextPacket = some y
              ∧ y.cargo = .context s.mesh.nextPacket false ∧ y.vc = 5 ∧ y.from_ = .edge (c / 512))
          ∧ t.vorrad.hem = s.vorrad.hem.eraseIdx n)
    ∧ (∀ cls lseq line sctx spanel dim data,
        ArrivedHere s n c (.xfer cls true s.panelNo c lseq line sctx spanel 0 dim data) → Sends s c →
        ∃ t, exec (.transferAck n) s = .next t
          ∧ (t.ctx c).unacked = (s.ctx c).unacked.filter (fun l => lseqBefore lseq (l.lseq.getD 0)))
    ∧ (∀ cls lseq line sctx spanel st dim data,
        ArrivedHere s n c (.xfer cls true s.panelNo c lseq line sctx spanel st dim data) → Sends s c → st ≠ 0 → st ≠ 3 →
        ∃ t, exec (.transferAck n) s = .next t ∧ (t.ctx c).st = 2 ∧ (t.ctx c).posts = [] ∧ (t.ctx c).unacked = [])
    ∧ (∀ h cls ack dst lseq line sctx spanel st dim data d succ port,
        s.vorrad.hem[n]? = some h → h.slot = .xfer cls ack dst c lseq line sctx spanel st dim data →
        s.routeDim dst = some d → succ = s.routeSucc dst d h.via (h.rev.contains d) →
        port = portOf ((railsOf s.sysK d).getD (sctx % (railsOf s.sysK d).length) 0) succ →
        ((s.portState port = 1 ∨ s.portState port = 2) → h.place = port →
          ∃ t, exec (.transitSlot n) s = .next t ∧ t.vorrad.hem = s.vorrad.hem.eraseIdx n
            ∧ Leaves t port (.xfer (s.routeClass ⟨dst, sctx, ack⟩ d succ h.via cls) ack dst c lseq line sctx spanel st dim data))
        ∧ ((s.portState port = 1 ∨ s.portState port = 2) → h.place ≠ port → ∀ v dn, s.hemNext h.place port h.down = some (v, dn) →
          ∃ t, exec (.transitSlot n) s = .next t
            ∧ t.vorrad.hem = s.vorrad.hem.set n { h with place := v, port := 8, down := dn })
        ∧ ((s.portState port = 0 ∨ s.portState port = 3) → ¬ (ack = true ∧ st = 3) →
          ∃ t, exec (.transitSlot n) s = .next t ∧ t.vorrad.hem = s.vorrad.hem.eraseIdx n
            ++ [{ place := h.place, port := 8, via := 8, down := false, rev := []
                  slot := .xfer 3 true spanel sctx lseq 0 c s.panelNo 3 d [] }]))
    ∧ (s.vorrad.hemDown = [] → ∀ v g, v < 8 → g < 8 → v ≠ g → ∃ w dn, s.hemNext v g false = some (w, dn)
        ∧ ∃ x, x ∈ hemSegments ∧ (x.a = v ∧ x.b = w ∨ x.a = w ∧ x.b = v))

/-- R323, R325, R326: a receive context acknowledges 2.0 µs after its first line; a send context sends its unacknowledged lines
again after 20 µs, and fails its posts when no path has been found for PATH_MS. A reply of DRAM stores a received line, and sends
a read one, once the answer to its packet is back. -/
def Sys2Proof.Claims.ContextTimers : Prop :=
  ∀ (s : State) (c : Fin 4096),
    (∀ t0, (s.ctx c.val).lineAt = some t0 → s.ctxMode c.val = 2 → (s.ctx c.val).st = 1 → ∃ t,
      exec (.receiveAckTimer c) s = .next t ∧ t.now = Nat.max s.now (t0 + 4200)
        ∧ ((s.ctx c.val).dram = [] → (t.ctx c.val).lineAt = none ∧ (t.ctx c.val).sinceAck = 0)
        ∧ ((s.ctx c.val).dram ≠ [] → (t.ctx c.val).ackDue = true))
    ∧ (Sends s c.val → (s.ctx c.val).unacked ≠ [] → ∃ t, exec (.retransmitTimeout c) s = .next t
        ∧ t.now = Nat.max s.now ((s.ctx c.val).ackAt + 42000) ∧ (t.ctx c.val).ackAt = t.now
        ∧ (t.ctx c.val).unacked = (s.ctx c.val).unacked)
    ∧ (∀ t0, (s.ctx c.val).pathAt = some t0 → s.ctxMode c.val = 1 → (s.ctx c.val).st = 3 → ∃ t,
        exec (.pathTimeout c) s = .next t
          ∧ t.now = Nat.max s.now (t0 + 2100000 * s.fld unitMgmt rVLNK_SYS_TIMING 16 10)
          ∧ (t.ctx c.val).st = 2 ∧ (t.ctx c.val).posts = [])
    ∧ (∀ l ls d o site, (s.ctx c.val).dram = l :: ls → s.active.target l.addr = some (.dram d o) →
        s.active.site d = some site → (s.dram site).isRetired o = false →
        (s.ctxBack l = false → exec (.contextDramReply c .none) s = .next s)
        ∧ (s.ctxBack l = true → PortsFree s site → s.ctxMode c.val = 2 → (s.ctx c.val).ackDue = false → ∃ t, exec (.contextDramReply c .none) s = .next t
          ∧ (t.ctx c.val).dram = ls ∧ DramWritten s t site o l.data)
        ∧ (s.ctxBack l = true → PortsFree s site → Sends s c.val → l.lseq = none → (∃ p, p ∈ (s.ctx c.val).posts ∧ p.number = l.post) →
            (s.dram site).isPoisoned o = false → ∃ t, exec (.contextDramReply c .none) s = .next t
              ∧ (t.ctx c.val).seq = (s.ctx c.val).seq + 1
              ∧ (t.ctx c.val).unacked = (s.ctx c.val).unacked ++ [{ l with lseq := some ((s.ctx c.val).seq % 2 ^ 32) }]))

/-- R310, R312, R314–R316, R318, R329, R446: flits, and the state of the Vorrad ports. -/
def Obligations.VorradPorts : Prop :=
  Sys2Proof.Claims.Flits ∧ Sys2Proof.Claims.PortsUpAndDown ∧ Sys2Proof.Claims.PortRetraining

/-- R318–R321: the records of a system of panels gather up its tree and go down it. -/
def Obligations.SystemTreeRecords : Prop := Sys2Proof.Claims.SystemRecords

/-- R285, R317, R323–R326: transfers between panels. -/
def Obligations.PanelTransfers : Prop := Sys2Proof.Claims.TransferTraffic ∧ Sys2Proof.Claims.ContextTimers

namespace Sys2Proof.Claims

open Sys2Proof.Machine

/-- Only the registers, the host bridge die's data and the cycle count differ. -/
def HostFrame (s t : State) : Prop := { t with regs := s.regs, hw := s.hw, host := s.host, now := s.now } = s

/-- Only the registers differ. -/
def RegsOnly (s t : State) : Prop := { t with regs := s.regs, hw := s.hw } = s

/-- One event is made (R371). -/
def OneEvent (s t : State) : Prop := t.events.seq = (s.events.seq + 1) % 2 ^ 32

/-- Byte `a` of host memory as the panel has written it. -/
def hbyte (s : State) (a : Nat) : Byte := SMap.get 0 s.hostMem a

/-- The bytes of host memory from `a` are `bs`, and no other byte has changed. -/
def HostWritten (s t : State) (a : Nat) (bs : List Byte) : Prop :=
  (∀ k, k < bs.length → hbyte t (a + k) = bs.getD k 0) ∧ (∀ x, ¬ (a ≤ x ∧ x < a + bs.length) → hbyte t x = hbyte s x)

/-- A refused host access is counted in `HOST_LINK.REFUSED` (R339). -/
def RefusedCounted (s t : State) : Prop :=
  t.fld unitBar rHOST_LINK 32 32 = Nat.min (2 ^ 32 - 1) (s.fld unitBar rHOST_LINK 32 32 + 1)

/-- A window line is served: the link is up, the panel is not in D3hot, the line lies in the decoder's range, and the window is active (R340). -/
def WindowLineServed (s : State) (line : Nat) : Prop :=
  s.linkUp = true ∧ s.host.d3hot = false ∧ 64 * line < s.host.hdmSize ∧ s.fld unitBar rHOST_MEM_CTRL 1 1 ≠ 0

/-- The raw segment, or the export segment, that covers a device physical address (R341). -/
def Segment (s : State) (kind dpa v : Nat) : Prop := s.segAt dpa = some v ∧ segKind v = kind

/-- The event ring takes a record: it is set up and not full, the host permits the write, and Pliwick runs (R371, R373). -/
def RingTakes (s : State) (r : Ring) : Prop :=
  s.events.ring = some r ∧ s.events.full r = false ∧ s.hostOk (r.base + 32 * s.events.tail) 32 = true
    ∧ s.maint.restartUntil = none

end Sys2Proof.Claims

/-- R334, R349, R351: training with all protocols selected sets the link's rate and width; without them, and 1 s after PERST#
deasserts, the link has failed. Losing the link, or an integrity failure while IDE is on, takes it down and counts it. Keys come
over an open session, and only programmed keys are activated. -/
def Sys2Proof.Claims.HostLink : Prop :=
  ∀ (s : State) (rate : Fin 5) (width : Fin 17) (cm : Bool) (at_ : Nat) (est : Bool),
    (s.linkUp = false → rate.val ≠ 0 →
      ((width.val = 4 ∨ width.val = 8 ∨ width.val = 16) → ∃ t, exec (.hostLinkTraining rate width true) s = .next t
        ∧ t.linkUp = true ∧ t.fld unitBar rHOST_LINK 0 3 = rate.val ∧ t.fld unitBar rHOST_LINK 3 5 = width.val
        ∧ (t.fld unitBar rHOST_LINK 8 1 = 1 ↔ rate.val = 4) ∧ t.host.trainSince = none ∧ HostFrame s t)
      ∧ (∃ t, exec (.hostLinkTraining rate width false) s = .next t ∧ t.linkUp = false ∧ t.host.linkFailRaised = true
          ∧ OneEvent s t ∧ t.events.severeCode = 4 ∧ t.events.severeSev = 3))
    ∧ (s.linkUp = false → s.host.trainSince = some at_ → ∃ t, exec (.hostLinkTimeout rate width) s = .next t
        ∧ t.now = Nat.max s.now (at_ + 2100000000) ∧ t.host.trainSince = none ∧ t.host.linkFailRaised = true
        ∧ OneEvent s t ∧ t.events.severeCode = 4)
    ∧ (s.linkUp = true → ∃ t, exec .hostLinkLoss s = .next t ∧ t.linkUp = false
        ∧ t.fld unitBar rHOST_LINK 16 16 = Nat.min 65535 (s.fld unitBar rHOST_LINK 16 16 + 1) ∧ RegsOnly s t)
    ∧ (s.linkUp = true → s.fld unitBar rHOST_LINK 9 2 ≠ 0 → ∃ t, exec .ideIntegrityFailure s = .next t ∧ t.linkUp = false
        ∧ t.host.ideFails = s.host.ideFails + 1 ∧ HostFrame s t)
    ∧ ((SMap.get Spdm.reset s.sec.spdm 0).session = some true →
        (∃ t, exec (.ideKeyManagement cm false) s = .next t ∧ t.host.ideKeys.getLsbD (if cm = true then 1 else 0) = true
          ∧ t.host.ideKeys.getLsbD (if cm = true then 0 else 1) = s.host.ideKeys.getLsbD (if cm = true then 0 else 1)
          ∧ HostFrame s t)
        ∧ (s.linkUp = true → s.host.ideKeys.getLsbD (if cm = true then 1 else 0) = true →
          ∃ t, exec (.ideKeyManagement cm true) s = .next t
            ∧ t.fld unitBar rHOST_LINK (if cm = true then 10 else 9) 1 = 1 ∧ RegsOnly s t))
    ∧ ((SMap.get Spdm.reset s.sec.spdm 0).session ≠ some true → exec (.ideKeyManagement cm est) s = .next s)

/-- R338, R339: an access of the panel to host memory that the host permits reads or writes there; one that it does not
permit is answered with ADDRESS_ERROR and counts; a credit request is answered with ADDRESS_ERROR. -/
def Sys2Proof.Claims.HostMemory : Prop :=
  ∀ (s : State) (acc : Nat) (data : List Byte) (a : Access) (h : Nat),
    s.access acc = some a → a.stage = .atTarget → s.active.target a.addr = some (.host h) →
      (∀ n, a.kind = .read n → s.hostOk h n = true → n ≤ data.length → ∃ t, exec (.hostMemoryAccess acc data) s = .next t
        ∧ Replied t acc 0 (data.take n) ∧ t.hostMem = s.hostMem ∧ t.regs = s.regs)
      ∧ (∀ bs, a.kind = .write bs → s.hostOk h bs.length = true → ∃ t, exec (.hostMemoryAccess acc data) s = .next t
        ∧ Replied t acc 0 [] ∧ HostWritten s t h bs ∧ t.regs = s.regs)
      ∧ ((∃ n, a.kind = .read n ∧ s.hostOk h n = false) ∨ (∃ bs, a.kind = .write bs ∧ s.hostOk h bs.length = false) →
        ∃ t, exec (.hostMemoryAccess acc data) s = .next t ∧ Replied t acc 1 [] ∧ RefusedCounted s t
          ∧ t.hostMem = s.hostMem)
      ∧ (∀ extent want, a.kind = .creditReq extent want → ∃ t, exec (.hostMemoryAccess acc data) s = .next t
          ∧ Replied t acc 1 [])

/-- R335, R340–R345: enabling the window checks its segments. A line of a raw segment reads and writes device memory at the segment's
place, with poison where that is uncorrectable; the export view reads as zeros where no world has bytes, and takes no write,
which counts and, the first time, is reported; an address without a segment reads as poison and counts. In D3hot none of this
happens. -/
def Sys2Proof.Claims.MemoryWindow : Prop :=
  ∀ (s : State) (line : Nat) (data : List Byte) (mask : BitVec 64) (v site o : Nat),
    (s.host.d3hot = true → exec (.hostMemEn true) s = .next s ∧ exec (.cxlMemRead line .none) s = .next s
        ∧ (data.length = 64 → exec (.cxlMemWrite line data mask) s = .next s))
    ∧ (s.host.d3hot = false → s.segError = 0 → ∃ t, exec (.hostMemEn true) s = .next t ∧ t.fld unitBar rHOST_MEM_CTRL 0 1 = 1
        ∧ t.fld unitBar rHOST_MEM_CTRL 8 8 = 0 ∧ t.host = { s.host with exportRaised := false } ∧ HostFrame s t)
    ∧ (s.host.d3hot = false → s.segError ≠ 0 → ∃ t, exec (.hostMemEn true) s = .next t ∧ t.fld unitBar rHOST_MEM_CTRL 0 1 = 0
        ∧ t.fld unitBar rHOST_MEM_CTRL 8 8 = s.segError ∧ RegsOnly s t)
    ∧ (s.host.d3hot = false → ∃ t, exec (.hostMemEn false) s = .next t ∧ t.fld unitBar rHOST_MEM_CTRL 0 1 = 0 ∧ RegsOnly s t)
    ∧ (data.length ≠ 64 → exec (.cxlMemWrite line data mask) s = .fault (.illFormed "line"))
    ∧ (s.linkUp = true → s.host.d3hot = false → 64 * line < s.host.hdmSize → s.fld unitBar rHOST_MEM_CTRL 1 1 = 0 →
        ∃ t, exec (.cxlMemRead line .none) s = .next t ∧ t.host.memPoison = true ∧ HostFrame s t)
    ∧ (WindowLineServed s line →
        (s.segAt (64 * line) = none →
          (∃ t, exec (.cxlMemRead line .none) s = .next t ∧ t.host.memPoison = true ∧ HostFrame s t
            ∧ t.fld unitBar rHOST_MEM_ERR 16 16 = Nat.min 65535 (s.fld unitBar rHOST_MEM_ERR 16 16 + 1))
          ∧ (data.length = 64 → ∃ t, exec (.cxlMemWrite line data mask) s = .next t ∧ RegsOnly s t
            ∧ t.fld unitBar rHOST_MEM_ERR 16 16 = Nat.min 65535 (s.fld unitBar rHOST_MEM_ERR 16 16 + 1)))
        ∧ (Segment s 1 (64 * line) v → s.active.site (segDie v) = some site → o = segOff v + (64 * line - segLo v) →
          o % 64 = 0 → PortsFree s site →
          ((s.dram site).isRetired o = false → ((s.dram site).read o 64).1 = stOk →
            (∃ t, exec (.cxlMemRead line .none) s = .next t ∧ t.host.memData = ((s.dram site).read o 64).2
              ∧ t.host.memPoison = false ∧ DramWritten s t site 0 [])
            ∧ (∃ t, exec (.cxlMemRead line .many) s = .next t ∧ t.host.memPoison = true
              ∧ t.fld unitBar rHOST_MEM_ERR 0 16 = Nat.min 65535 (s.fld unitBar rHOST_MEM_ERR 0 16 + 1)))
          ∧ (data.length = 64 → (s.dram site).isRetired o = false →
            ∃ t, exec (.cxlMemWrite line data mask) s = .next t
              ∧ (∀ k, k < 64 → dbyte t site (o + k) = if mask.getLsbD k = true then data.getD k 0 else dbyte s site (o + k))
              ∧ (∀ x, ¬ (o ≤ x ∧ x < o + 64) → dbyte t site x = dbyte s site x) ∧ t.host = s.host))
        ∧ (Segment s 2 (64 * line) v →
          (s.exportLine (64 * line - segLo v) = .zeros → ∃ t, exec (.cxlMemRead line .none) s = .next t
            ∧ t.host.memData = zeros 64 ∧ t.host.memPoison = false ∧ HostFrame s t ∧ t.regs = s.regs)))

/-- R344: a write to the export view completes, changes no memory of the panel, and counts in EXPORT_WRITES; the first one since EN
became 1 raises an event of severity info, which a ring that takes records holds. -/
def Obligations.ExportWrites : Prop :=
  ∀ (s : State) (line : Nat) (data : List Byte) (mask : BitVec 64) (v : Nat),
    (s.host.d3hot = false → s.segError = 0 → ∃ t, exec (.hostMemEn true) s = .next t ∧ t.host.exportRaised = false)
    ∧ (WindowLineServed s line → Segment s 2 (64 * line) v → data.length = 64 →
        ∃ t, exec (.cxlMemWrite line data mask) s = .next t ∧ t.drams = s.drams ∧ t.cores = s.cores
          ∧ t.fld unitBar rHOST_MEM_ERR 32 16 = Nat.min 65535 (s.fld unitBar rHOST_MEM_ERR 32 16 + 1)
          ∧ t.host = { s.host with exportRaised := true }
          ∧ (s.host.exportRaised = true → t.events = s.events)
          ∧ (s.host.exportRaised = false → OneEvent s t ∧ (∀ r, RingTakes s r →
              HostWritten s t (r.base + 32 * s.events.tail) (Event.bytes
                { sev := .info, code := 0x70, injected := false, seq := s.events.seq, tick := s.gen.commitSeq.toNat,
                  src := edgeSrc 8 0x3F, data := 0 } s.events.phase)
              ∧ t.events.tail = (s.events.tail + 1) % r.entries)))

/-- R348, R350: a commit notification writes the commit sequence to its address where the host wants it and permits it, and
signals its vector; unmasking a vector sends the interrupt that waits there. -/
def Sys2Proof.Claims.NotificationsAndVectors : Prop :=
  ∀ (s : State) (x : Nat) (v : Fin 64) (en : Bool),
    (s.host.notify = some x → (s.reg unitBar rHOST_COMMIT_NOTIFY).testBit 0 = true →
      ((s.reg unitBar rHOST_COMMIT_NOTIFY).testBit 2 = false → (s.reg unitBar rHOST_COMMIT_NOTIFY).testBit 1 = true →
        s.hostOk (s.reg unitBar rHOST_COMMIT_ADDR) 8 = true → ∃ t, exec .commitNotification s = .next t
          ∧ t.host.notify = none ∧ HostWritten s t (s.reg unitBar rHOST_COMMIT_ADDR) (leBytes 8 x) ∧ t.msix = s.msix
          ∧ t.regs = s.regs)
      ∧ (∀ k, k = s.fld unitBar rHOST_COMMIT_NOTIFY 8 6 → (s.reg unitBar rHOST_COMMIT_NOTIFY).testBit 2 = true →
        s.msix.enabled = true → s.msix.unmasked.getLsbD k = true → ∃ t, exec .commitNotification s = .next t
          ∧ t.host.notify = none ∧ SMap.get 0 t.msix.sent k = SMap.get 0 s.msix.sent k + 1))
    ∧ (s.host.d3hot = false → ∃ t, exec (.msixUnmask v en) s = .next t ∧ t.msix.unmasked.getLsbD v.val = true
        ∧ (∀ j, j ≠ v.val → t.msix.unmasked.getLsbD j = s.msix.unmasked.getLsbD j
            ∧ t.msix.pending.getLsbD j = s.msix.pending.getLsbD j ∧ SMap.get 0 t.msix.sent j = SMap.get 0 s.msix.sent j)
        ∧ ((s.msix.enabled = true ∨ en = true) → t.msix.enabled = true ∧ t.msix.pending.getLsbD v.val = false
          ∧ SMap.get 0 t.msix.sent v.val = SMap.get 0 s.msix.sent v.val + (if s.msix.pending.getLsbD v.val = true then 1 else 0))
        ∧ { t with msix := s.msix } = s)

/-- R351, R359: a function level reset disables every pair and the ring and resets the interrupts, and leaves the link, the
window and the locked features; a conventional reset also takes the link down and clears the decoder, and leaves the locked
features, the active bit of the window and readiness. Neither touches ticking, the cores or device memory. -/
def Sys2Proof.Claims.HostResets : Prop :=
  ∀ (s : State),
    (∃ t, exec .functionLevelReset s = .next t ∧ t.host.pairs = [] ∧ t.events.ring = none ∧ t.msix = Msix.reset
      ∧ (∀ q, q < 64 → t.qEnabled q = false) ∧ t.host.locked = s.host.locked ∧ t.host.hdmSize = s.host.hdmSize
      ∧ t.reg unitBar rHOST_LINK = s.reg unitBar rHOST_LINK ∧ t.reg unitBar rHOST_MEM_CTRL = s.reg unitBar rHOST_MEM_CTRL
      ∧ t.gen = s.gen ∧ t.cores = s.cores ∧ t.drams = s.drams ∧ t.cfg = s.cfg ∧ t.active = s.active)
    ∧ (∃ t, exec .conventionalReset s = .next t ∧ t.linkUp = false ∧ t.host.hdmSize = 0 ∧ t.host.trainSince = some s.now
      ∧ t.host.pairs = [] ∧ t.events.ring = none ∧ t.msix = Msix.reset ∧ t.host.locked = s.host.locked
      ∧ t.fld unitBar rHOST_MEM_CTRL 1 1 = s.fld unitBar rHOST_MEM_CTRL 1 1
      ∧ t.fld unitBar rHOST_DEVICE_STATUS 0 3 = s.fld unitBar rHOST_DEVICE_STATUS 0 3
      ∧ t.gen = s.gen ∧ t.cores = s.cores ∧ t.drams = s.drams ∧ t.cfg = s.cfg ∧ t.active = s.active)

/-- The CXL link, host memory, notifications and host-side resets (R334, R338, R339, R348–R351, R359). -/
def Obligations.HostBridge : Prop :=
  Claims.HostLink ∧ Claims.HostMemory ∧ Claims.NotificationsAndVectors ∧ Claims.HostResets

/-- The memory window (R340–R345). -/
def Obligations.HostMemoryWindow : Prop := Claims.MemoryWindow

namespace Sys2Proof.Claims

open Sys2Proof.Machine

/-- Command `c` has been fetched and started in pair `q`, and the pair does not drain (R360, R362). -/
def Begun (s : State) (q : Fin 64) (cid : BitVec 16) (op : Nat) (c : HostCmd) : Prop :=
  s.started q.val cid.toNat op = some c ∧ (s.pair q.val).draining = false

/-- The command leaves pair `q`, and its completion waits there for an entry (R363, R366). -/
def Completes (s t : State) (q : Fin 64) (c : HostCmd) (code detail result : Nat) : Prop :=
  (t.pair q.val).done = (s.pair q.val).done
      ++ [{ result := result, sqHead := c.sqHead, cid := c.cid, code := code, detail := detail }]
    ∧ (t.pair q.val).cmds = (s.pair q.val).cmds.filter (fun d => d.cid != c.cid)

/-- The command has acted, stays in pair `q`, and waits for the panel. -/
def Awaits (s t : State) (q : Fin 64) (c : HostCmd) (note : Nat) : Prop :=
  (t.pair q.val).done = (s.pair q.val).done
    ∧ t.cmd q.val c.cid = some { c with phase := .waiting, note := note }

/-- The host bridge die's data apart, nothing changes. -/
def HostOnly (s t : State) : Prop := { t with host := s.host } = s

/-- Pair `q` is in ERROR with a cause (R364). -/
def InError (t : State) (q cause : Nat) : Prop := t.qError q = true ∧ t.qStat q 36 3 = cause

/-- The submission entry that pair `q` fetches next lies here (R360). -/
def submissionAt (s : State) (q : Nat) : Nat := s.fld unitBar (qOff rHOST_SQ_BASE q) 12 32 * 4096 + 64 * s.sqHead q

/-- The completion entry that pair `q` writes next lies here (R360). -/
def completionAt (s : State) (q : Nat) : Nat := s.fld unitBar (qOff rHOST_CQ_BASE q) 12 32 * 4096 + 16 * s.cqTail q

end Sys2Proof.Claims

/-- R356, R357, R430: FEATURES_OK locks the requested set when it is offered and no other is locked, and readiness 3 becomes 2
when the set holds feature 3; else it names the lowest feature that stands against it. Features are written until then, and in
D3hot no such write is taken (R335). -/
def Sys2Proof.Claims.Negotiation : Prop :=
  ∀ (s : State) (w : Fin 4) (v : BitVec 64) (i : Nat),
    (s.host.d3hot = false → s.fld unitBar rHOST_FEAT_CTRL 0 1 = 0 →
      (1 ≤ s.ready → s.ready ≤ 3 →
        ((∀ k, s.requested.testBit k = true → s.offered.testBit k = true) →
          (∀ l, s.host.locked = some l → l.toNat = s.requested) →
          ∃ t, exec .featuresOk s = .next t ∧ t.fld unitBar rHOST_FEAT_CTRL 0 1 = 1
            ∧ t.host = { s.host with locked := some (BitVec.ofNat 256 s.requested) }
            ∧ t.ready = (if s.ready = 3 ∧ s.requested.testBit 3 = true then 2 else s.ready) ∧ HostFrame s t)
        ∧ (i < 256 → s.requested.testBit i = true → s.offered.testBit i = false →
          (∀ k, k < i → s.requested.testBit k = true → s.offered.testBit k = true) →
          ∃ t, exec .featuresOk s = .next t ∧ t.fld unitBar rHOST_FEAT_CTRL 0 1 = 0 ∧ t.fld unitBar rHOST_FEAT_CTRL 1 1 = 1
            ∧ t.fld unitBar rHOST_FEAT_CTRL 8 8 = i ∧ RegsOnly s t))
      ∧ (∃ t, exec (.hostDriverFeaturesWrite w v) s = .next t ∧ t.reg unitBar (rHOST_DRIVER_FEATURES + 8 * w.val) = v.toNat
          ∧ t.fld unitBar rHOST_FEAT_CTRL 0 1 = 0 ∧ t.fld unitBar rHOST_FEAT_CTRL 1 1 = 0
          ∧ t.fld unitBar rHOST_FEAT_CTRL 8 8 = s.fld unitBar rHOST_FEAT_CTRL 8 8 ∧ RegsOnly s t))
    ∧ (s.host.d3hot = true → exec .featuresOk s = .next s)
    ∧ (s.host.d3hot = true ∨ s.fld unitBar rHOST_FEAT_CTRL 0 1 = 1 → exec (.hostDriverFeaturesWrite w v) s = .next s)

/-- R360, R361, R364, R375: a pair is enabled once its queues have sizes, the features are locked, and for an I/O pair the admin
pair is enabled; disabling discards what waits for completion, and the commands that have not started. A doorbell moves the tail or head within the queue, and otherwise
puts the pair in ERROR; of a disabled pair it is ignored and counted, and during a pause it is recorded. In D3hot the registers take no write (R335). -/
def Sys2Proof.Claims.PairsAndDoorbells : Prop :=
  ∀ (s : State) (q : Fin 64) (v : BitVec 64) (d : BitVec 12),
    (s.host.d3hot = true →
      exec (.queueEnable q v) s = .next s ∧ exec (.sqTailDoorbell q d) s = .next s ∧ exec (.cqHeadDoorbell q d) s = .next s)
    ∧ (s.host.d3hot = false →
    (s.qEnabled q.val = false → v.getLsbD 40 = true → field v.toNat 0 12 ≠ 0 → field v.toNat 16 12 ≠ 0 →
      (s.pair q.val).busy = false → (q.val = 0 → s.fld unitBar rHOST_FEAT_CTRL 0 1 = 1) →
      (q.val ≠ 0 → s.qEnabled 0 = true) →
      ∃ t, exec (.queueEnable q v) s = .next t ∧ t.qEnabled q.val = true ∧ t.sqSize q.val = field v.toNat 0 12 + 1
        ∧ t.cqSize q.val = field v.toNat 16 12 + 1 ∧ t.sqHead q.val = 0 ∧ t.cqTail q.val = 0 ∧ t.qStat q.val 32 1 = 1
        ∧ t.qError q.val = false ∧ t.pair q.val = QPair.reset ∧ HostFrame s t)
    ∧ (s.qEnabled q.val = true → v.getLsbD 40 = false → ∃ t, exec (.queueEnable q v) s = .next t ∧ t.qEnabled q.val = false
        ∧ (t.pair q.val).done = [] ∧ (t.pair q.val).draining = true
        ∧ (t.pair q.val).cmds = (s.pair q.val).cmds.filter (fun c => startedAmong c.cid (s.pair q.val).cmds true)
        ∧ HostFrame s t)
    ∧ (s.qEnabled q.val = false →
        (∃ t, exec (.sqTailDoorbell q d) s = .next t ∧ RegsOnly s t
          ∧ t.fld unitBar rHOST_CMD_STAT 16 16 = Nat.min 65535 (s.fld unitBar rHOST_CMD_STAT 16 16 + 1))
        ∧ (∃ t, exec (.cqHeadDoorbell q d) s = .next t ∧ RegsOnly s t
          ∧ t.fld unitBar rHOST_CMD_STAT 16 16 = Nat.min 65535 (s.fld unitBar rHOST_CMD_STAT 16 16 + 1)))
    ∧ (s.qEnabled q.val = true → s.paused = true →
        (∃ t, exec (.sqTailDoorbell q d) s = .next t ∧ t.pair q.val = { s.pair q.val with heldTail := some d.toNat }
          ∧ HostOnly s t)
        ∧ (∃ t, exec (.cqHeadDoorbell q d) s = .next t ∧ t.pair q.val = { s.pair q.val with heldHead := some d.toNat }
          ∧ HostOnly s t))
    ∧ (s.qEnabled q.val = true → s.paused = false →
        (d.toNat < s.sqSize q.val → ∃ t, exec (.sqTailDoorbell q d) s = .next t
          ∧ t.pair q.val = { s.pair q.val with sqTail := d.toNat } ∧ HostOnly s t)
        ∧ (s.sqSize q.val ≤ d.toNat → ∃ t, exec (.sqTailDoorbell q d) s = .next t ∧ InError t q.val 1 ∧ OneEvent s t
          ∧ t.host = s.host)
        ∧ ((d.toNat < s.cqSize q.val ∧ (d.toNat + s.cqSize q.val - (s.pair q.val).cqHead) % s.cqSize q.val
              ≤ (s.cqTail q.val + s.cqSize q.val - (s.pair q.val).cqHead) % s.cqSize q.val) →
          ∃ t, exec (.cqHeadDoorbell q d) s = .next t ∧ t.pair q.val = { s.pair q.val with cqHead := d.toNat }
            ∧ HostOnly s t)
        ∧ (s.cqSize q.val ≤ d.toNat → ∃ t, exec (.cqHeadDoorbell q d) s = .next t ∧ InError t q.val 2 ∧ OneEvent s t
          ∧ t.host = s.host)))

/-- R373: the event head doorbell frees entries; when events had been lost, a record of how many and of the most severe is
written first. -/
def Sys2Proof.Claims.EventHead : Prop :=
  ∀ (s : State) (d : BitVec 16) (r : Ring) (w : Nat × Severity), s.events.ring = some r → d.toNat < r.entries →
    (s.host.d3hot = true → exec (.eventHeadDoorbell d) s = .next s)
    ∧ (s.host.d3hot = false → s.events.lost = 0 → exec (.eventHeadDoorbell d) s = .next { s with events := { s.events with head := d.toNat } })
    ∧ (s.host.d3hot = false → s.events.lost ≠ 0 → s.events.worst = some w → ({ s.events with head := d.toNat } : Events).full r = false →
        s.hostOk (r.base + 32 * s.events.tail) 32 = true →
        ∃ t, exec (.eventHeadDoorbell d) s = .next t ∧ t.events.lost = 0 ∧ t.events.worst = none
          ∧ t.events.head = d.toNat ∧ t.events.tail = (s.events.tail + 1) % r.entries ∧ OneEvent s t
          ∧ HostWritten s t (r.base + 32 * s.events.tail) (Event.bytes
              { sev := .info, code := 1, injected := false, seq := s.events.seq, tick := s.gen.commitSeq.toNat,
                src := edgeSrc 8 0x3F, data := (s.events.lost + 2 ^ 32 * w.1 + 2 ^ 48 * w.2.code) % 2 ^ 64 } s.events.phase))

/-- R362, R364–R369: the command processor fetches the 64 bytes of the next entry of the pair whose turn it is, and the head moves
on; the command starts with its fields, or, when a check refuses it, completes at once with that status. A host that does not
permit the fetch puts the pair in ERROR. -/
def Sys2Proof.Claims.Fetches : Prop :=
  ∀ (s : State) (q : Fin 64) (b : List Byte) (x : Nat × Nat),
    (b.length ≠ 64 → exec (.commandFetch q b) s = .fault (.illFormed "submission entry"))
    ∧ (b.length = 64 → s.nextPair = some q.val →
        (s.hostOk (submissionAt s q.val) 64 = false →
          ∃ t, exec (.commandFetch q b) s = .next t ∧ InError t q.val 3 ∧ OneEvent s t ∧ t.host = s.host)
        ∧ (s.hostOk (submissionAt s q.val) 64 = true → (s.pair q.val).skip.contains (s.sqHead q.val) = false →
            (∀ c, c ∈ (s.pair q.val).cmds → c.cid ≠ leAt b 2 2) →
            (s.refusal q.val b false = none → ∃ t, exec (.commandFetch q b) s = .next t ∧ HostFrame s t
              ∧ t.sqHead q.val = (s.sqHead q.val + 1) % s.sqSize q.val ∧ (t.pair q.val).done = (s.pair q.val).done
              ∧ (t.pair q.val).cmds = (s.pair q.val).cmds ++
                [{ cid := leAt b 2 2, opcode := leAt b 0 1, fence := (leAt b 1 1).testBit 0, noWait := (leAt b 1 1).testBit 1,
                   params := (List.range 7).map (fun n => leAt b (8 + 8 * n) 8),
                   sqHead := (s.sqHead q.val + 1) % s.sqSize q.val, phase := .started, moved := 0, note := 0 }])
            ∧ (s.refusal q.val b false = some x → ∃ t, exec (.commandFetch q b) s = .next t ∧ HostFrame s t
              ∧ t.sqHead q.val = (s.sqHead q.val + 1) % s.sqSize q.val ∧ (t.pair q.val).cmds = (s.pair q.val).cmds
              ∧ (t.pair q.val).done = (s.pair q.val).done ++
                [{ result := 0, sqHead := (s.sqHead q.val + 1) % s.sqSize q.val, cid := leAt b 2 2, code := x.1,
                   detail := x.2 }])))

/-- R363, R364: the oldest completion of an enabled pair is written once an entry is free, with the phase of this pass; the tail
moves on, the phase inverts at the wrap, and the pair's vector is signalled if the host wants it. -/
def Sys2Proof.Claims.CompletionWrites : Prop :=
  ∀ (s : State) (q : Fin 64) (c : Completion) (cs : List Completion), (s.pair q.val).done = c :: cs →
    s.qEnabled q.val = true → s.paused = false →
    (s.cqTail q.val + 1) % s.cqSize q.val ≠ (s.pair q.val).cqHead →
    (s.hostOk (completionAt s q.val) 16 = true → ∃ t, exec (.completionWrite q) s = .next t
      ∧ (t.pair q.val).done = cs ∧ (t.pair q.val).cmds = (s.pair q.val).cmds
      ∧ t.cqTail q.val = (s.cqTail q.val + 1) % s.cqSize q.val
      ∧ HostWritten s t (completionAt s q.val) (c.bytes q.val (s.qStat q.val 32 1 == 1))
      ∧ t.qStat q.val 32 1 = (if s.cqTail q.val + 1 = s.cqSize q.val then 1 - s.qStat q.val 32 1 else s.qStat q.val 32 1)
      ∧ (s.qCfg q.val 38 1 = 0 → t.msix = s.msix)
      ∧ (∀ k, k = s.qCfg q.val 32 6 → s.qCfg q.val 38 1 = 1 → s.msix.enabled = true → s.msix.unmasked.getLsbD k = true →
          SMap.get 0 t.msix.sent k = SMap.get 0 s.msix.sent k + 1))
    ∧ (s.hostOk (completionAt s q.val) 16 = false → s.qError q.val = false →
        ∃ t, exec (.completionWrite q) s = .next t ∧ InError t q.val 4 ∧ t.host = s.host)

/-- Feature negotiation, queue pairs, doorbells, and the fetch and completion of commands (R356–R366, R373). -/
def Obligations.QueuesAndFeatures : Prop :=
  Claims.Negotiation ∧ Claims.PairsAndDoorbells ∧ Claims.EventHead ∧ Claims.Fetches ∧ Claims.CompletionWrites

namespace Sys2Proof.Claims

open Sys2Proof.Machine

/-- The command ends with a status and a detail, and changes nothing else (R367). -/
def FailsWith (i : Instr) (s : State) (q : Fin 64) (c : HostCmd) (code detail : Nat) : Prop :=
  ∃ t, exec i s = .next t ∧ Completes s t q c code detail 0 ∧ HostOnly s t

/-- The command writes bytes to the host buffer in parameter `k` when the host permits that, and else ends with ADDRESS_ERROR
(R339, R367). -/
def FillsBuffer (i : Instr) (s : State) (q : Fin 64) (c : HostCmd) (k : Nat) (bs : List Byte) (result : Nat) : Prop :=
  (s.hostOk (c.p k) bs.length = true → ∃ t, exec i s = .next t ∧ Completes s t q c 0 0 result
    ∧ HostWritten s t (c.p k) bs ∧ { t with host := s.host, hostMem := s.hostMem } = s)
  ∧ (s.hostOk (c.p k) bs.length = false → ∃ t, exec i s = .next t ∧ Completes s t q c 5 k 0 ∧ RefusedCounted s t
    ∧ HostFrame s t)

/-- The state in which a seal checks: the shadow set with its generated content, unsealed (R275). -/
def generated (s : State) : State := { s with shadow := s.generate s.shadow, cfg := { s.cfg with isSealed := false } }

/-- Ticking has started: the next tick is ready now, or at the end of a replay gap (R251). -/
def TickingStarted (s t : State) : Prop :=
  t.gen.gstate = .running ∧ t.gen.run = true ∧ t.gen.ready = some (Nat.max s.now s.gen.notBefore)
    ∧ t.gen.commitSeq = s.gen.commitSeq ∧ t.cores = s.cores

/-- The bytes of the panel from address `a` on lie in the DRAM of one site from offset `o` on, not retired and not poisoned. -/
def DramSpan (s : State) (a n d site o : Nat) : Prop :=
  s.active.site d = some site ∧ (∀ k, k < n → s.active.target (a + k) = some (.dram d (o + k)))
    ∧ a % 64 = o % 64
    ∧ ∀ x, o ≤ x → x < o + n → (s.dram site).isRetired (x / 64 * 64) = false ∧ (s.dram site).isRetired x = false
        ∧ (s.dram site).isPoisoned (x / 64 * 64) = false ∧ (s.dram site).isPoisoned x = false

/-- The entry that a request adds to the arbiter (R447). -/
def newEntry (h code resource arg target : Nat) (cmd : Option (Nat × Nat)) : MaintEntry :=
  { handle := h, code := code, pliwick := false, resource := resource, running := false, paused := false,
    stopping := false, progress := 0, inStep := false, arg := arg, target := target, command := cmd }

end Sys2Proof.Claims

/-- R368, R370: IDENTIFY writes page 0, and FEATURES_GET the locked feature set, or zeros. -/
def Sys2Proof.Claims.IdentifyAndFeatures : Prop :=
  ∀ (s : State) (q : Fin 64) (cid : BitVec 16) (c : HostCmd),
    (Begun s q cid 1 c → (c.p 1 = 0 → s.identifyPage.length = 4096 ∧ FillsBuffer (.identify q cid) s q c 0 s.identifyPage 4096)
      ∧ (c.p 1 ≠ 0 → FailsWith (.identify q cid) s q c 2 16))
    ∧ (Begun s q cid 2 c → ∀ l, (∀ x, s.host.locked = some x → l = leBytes 32 x.toNat) →
        (s.host.locked = none → l = zeros 32) → FillsBuffer (.featuresGet q cid) s q c 0 l 0)

/-- R362, R368: ABORT removes a command that has not started, fetched or not, which completes with ABORTED, and answers 1; of one
that has started, or is not there, it answers 0. -/
def Sys2Proof.Claims.Aborts : Prop :=
  ∀ (s : State) (q : Fin 64) (cid : BitVec 16) (c : HostCmd) (w : List (BitVec 16)) (p victim : Nat),
    Begun s q cid 3 c → p = field (c.p 0) 0 6 → victim = field (c.p 0) 16 16 →
    (∀ v, p ≠ q.val → s.cmd p victim = some v → v.phase = .started → startedAmong victim (s.pair p).cmds true = false →
      ∃ t, exec (.abort q cid w) s = .next t ∧ Completes s t q c 0 0 1 ∧ HostOnly s t
        ∧ (t.pair p).cmds = (s.pair p).cmds.filter (fun d => d.cid != victim)
        ∧ (t.pair p).done = (s.pair p).done ++ [{ result := 0, sqHead := v.sqHead, cid := victim, code := 7, detail := 0 }])
    ∧ (∀ v, s.cmd p victim = some v → (v.phase = .waiting ∨ startedAmong victim (s.pair p).cmds true = true) →
      ∃ t, exec (.abort q cid w) s = .next t ∧ Completes s t q c 0 0 0 ∧ HostOnly s t)
    ∧ (s.cmd p victim = none → (∀ x, x ∈ w → x.toNat ≠ victim) →
      ∃ t, exec (.abort q cid w) s = .next t ∧ Completes s t q c 0 0 0 ∧ HostOnly s t)
    ∧ (∀ k i, p ≠ q.val → s.cmd p victim = none → w.findIdx? (fun x => x.toNat == victim) = some k →
      k < ((s.pair p).sqTail + s.sqSize p - s.sqHead p) % s.sqSize p → i = (s.sqHead p + k) % s.sqSize p →
      (s.pair p).skip.contains i = false → ∃ t, exec (.abort q cid w) s = .next t ∧ Completes s t q c 0 0 1 ∧ HostOnly s t
        ∧ (t.pair p).skip = (s.pair p).skip ++ [i]
        ∧ (t.pair p).done = (s.pair p).done
            ++ [{ result := 0, sqHead := (i + 1) % s.sqSize p, cid := victim, code := 7, detail := 0 }])

/-- R371, R431: EVENT_RING sets up an empty ring at an aligned place with a power of two of entries, and the first ring takes the
held bring-up events; an address of 0 disables it. -/
def Sys2Proof.Claims.EventRings : Prop :=
  ∀ (s : State) (q : Fin 64) (cid : BitVec 16) (c : HostCmd) (n : Nat), Begun s q cid 4 c → n = field (c.p 1) 0 17 →
    (c.p 0 = 0 → ∃ t, exec (.eventRing q cid) s = .next t ∧ Completes s t q c 0 0 0 ∧ t.events.ring = none
      ∧ { t with host := s.host, events := s.events } = s)
    ∧ (c.p 0 ≠ 0 → (c.p 0 % 4096 ≠ 0 → FailsWith (.eventRing q cid) s q c 2 8)
      ∧ (c.p 0 % 4096 = 0 → (n < 64 ∨ 65536 < n ∨ n ≠ 2 ^ Nat.log2 n) → FailsWith (.eventRing q cid) s q c 2 16)
      ∧ (c.p 0 % 4096 = 0 → 64 ≤ n → n ≤ 65536 → n = 2 ^ Nat.log2 n → s.hostOk (c.p 0) (32 * n) = true →
        ∃ t, exec (.eventRing q cid) s = .next t ∧ Completes s t q c 0 0 0
          ∧ t.events.ring = some { base := c.p 0, entries := n, vector := field (c.p 1) 24 6, irq := (c.p 1).testBit 31 }
          ∧ t.events.head = 0 ∧ t.events.hadRing = true ∧ t.events.boot = []
          ∧ (s.events.hadRing = true → t.events.tail = 0 ∧ t.hostMem = s.hostMem)
          ∧ (s.events.hadRing = false → s.events.boot.length < n → t.events.tail = s.events.boot.length
              ∧ ∀ i e, s.events.boot[i]? = some e → ∀ k, k < 32 →
                  hbyte t (c.p 0 + 32 * i + k) = (e.bytes true).getD k 0)))

/-- R274, R275, R278, R383: CFG_LOAD replaces entries of a section of the shadow set and cuts it behind them; CFG_SEAL generates
and checks the set and seals it with the given digest, or names the failed check; with regions still off it waits for them.
CFG_TACK of a sealed set is accepted and waits for the tack. All are BUSY while a tack is pending. -/
def Sys2Proof.Claims.ConfigurationSets : Prop :=
  ∀ (s : State) (q : Fin 64) (cid : BitVec 16) (c : HostCmd) (data : List Byte) (ty first n : Nat),
    (Begun s q cid 8 c → ty = field (c.p 1) 0 4 → first = c.p 1 / 2 ^ 32 → n = c.p 2 →
      (s.cfg.pending = true → FailsWith (.cfgLoad q cid data) s q c 4 0)
      ∧ (s.cfg.pending = false → (ty < 1 ∨ 13 < ty) → FailsWith (.cfgLoad q cid data) s q c 2 16)
      ∧ (s.cfg.pending = false → 1 ≤ ty → ty ≤ 13 → secMax ty < first + n → FailsWith (.cfgLoad q cid data) s q c 2 24)
      ∧ (s.cfg.pending = false → 1 ≤ ty → ty ≤ 13 → first + n ≤ secMax ty → s.hostOk (c.p 0) (n * secBytes ty) = true →
        ∃ t, exec (.cfgLoad q cid data) s = .next t ∧ Completes s t q c 0 0 n ∧ t.cfg.isSealed = false
          ∧ t.cfg.dirty.getLsbD ty = true ∧ t.active = s.active
          ∧ (ty ≠ 6 → ty ≠ 9 → ty ≠ 13 → t.shadow.count ty = first + n
            ∧ (∀ i, i < n → n * secBytes ty ≤ data.length →
                t.shadow.item ty (first + i) = (data.drop (i * secBytes ty)).take (secBytes ty))
            ∧ (∀ i, i < first → t.shadow.item ty i = s.shadow.item ty i))))
    ∧ (Begun s q cid 9 c →
      (s.cfg.pending = true → FailsWith (.cfgSeal q cid) s q c 4 0)
      ∧ (s.cfg.pending = false →
        (∀ f, (generated s).sealFail (generated s).shadow (some c.digest) = some f →
          ∃ t, exec (.cfgSeal q cid) s = .next t ∧ Completes s t q c 0x0A f.1 0 ∧ t.cfg.isSealed = false
            ∧ t.reg unitMgmt rCFG_ERROR = f.1 + 2 ^ 8 * f.2.1 + 2 ^ 16 * f.2.2 + 2 ^ 63 ∧ t.active = s.active)
        ∧ ((generated s).sealFail (generated s).shadow (some c.digest) = none →
          ((generated s).wantedRegions (generated s).shadow = [] → ∃ t, exec (.cfgSeal q cid) s = .next t
            ∧ Completes s t q c 0 0 0 ∧ t.cfg.isSealed = true ∧ t.cfg.dirty = 0 ∧ t.active = s.active
            ∧ t.shadow = { s.generate s.shadow with digest := c.digest })
          ∧ ((generated s).wantedRegions (generated s).shadow ≠ [] → ∃ t, exec (.cfgSeal q cid) s = .next t
            ∧ Awaits s t q c 0 ∧ t.cfg.isSealed = false
            ∧ ∀ e, e ∈ (generated s).wantedRegions (generated s).shadow →
                t.fld (unitDie e.1) rPWR_REGION_CTRL e.2 1 = 1))))
    ∧ (Begun s q cid 10 c →
      (s.cfg.pending = true → FailsWith (.cfgTack q cid) s q c 4 0)
      ∧ (s.cfg.pending = false → s.cfg.isSealed = false → FailsWith (.cfgTack q cid) s q c 9 0)
      ∧ (s.cfg.pending = false → s.cfg.isSealed = true → ∃ t, exec (.cfgTack q cid) s = .next t ∧ Awaits s t q c 0
          ∧ t.cfg.pending = true ∧ t.cfg.auto = false ∧ t.cfg.command = some (q.val, cid.toNat)
          ∧ t.active = s.active ∧ t.shadow = s.shadow))

/-- R251, R369: the tick commands. TICK_START and TICK_STEP start ticking from STOPPED or HALTED and wait for the tick they name,
TICK_STOP lets the started ticks end, TICK_SET_SEQ sets the sequence. In another state they end with the state they need. -/
def Sys2Proof.Claims.TickCommands : Prop :=
  ∀ (s : State) (q : Fin 64) (cid : BitVec 16) (c : HostCmd) (n : Nat),
    (Begun s q cid 0x10 c →
      (s.still = true → s.gen.ticks = [] → s.isRoot = false → ∃ t, exec (.tickStart q cid) s = .next t
        ∧ TickingStarted s t ∧ t.gen.raEn = (c.p 0).testBit 0 ∧ t.gen.stepLeft = 0
        ∧ Awaits s t q c (s.gen.commitSeq.toNat + 1))
      ∧ (s.still = false → FailsWith (.tickStart q cid) s q c 8 4))
    ∧ (Begun s q cid 0x12 c → n = field (c.p 0) 0 32 →
      (n ≠ 0 → s.still = true → s.gen.ticks = [] → s.isRoot = false → ∃ t, exec (.tickStep q cid) s = .next t
        ∧ TickingStarted s t ∧ t.gen.raEn = (c.p 0).testBit 32 ∧ t.gen.stepLeft = n
        ∧ Awaits s t q c (s.gen.commitSeq.toNat + n))
      ∧ (n = 0 → FailsWith (.tickStep q cid) s q c 2 8)
      ∧ (n ≠ 0 → s.still = false → FailsWith (.tickStep q cid) s q c 8 4))
    ∧ (Begun s q cid 0x11 c →
      (s.still = true → ∃ t, exec (.tickStop q cid) s = .next t ∧ Completes s t q c 0 0 s.gen.commitSeq.toNat ∧ HostOnly s t)
      ∧ (s.gen.gstate = .running → s.gen.ticks ≠ [] → ∃ t, exec (.tickStop q cid) s = .next t ∧ t.gen.run = false
        ∧ t.gen.gstate = .stopping ∧ t.gen.ticks = s.gen.ticks))
    ∧ (Begun s q cid 0x13 c →
      (s.still = true → ∃ t, exec (.tickSetSeq q cid) s = .next t ∧ Completes s t q c 0 0 0
        ∧ t.gen.commitSeq = BitVec.ofNat 64 (c.p 0)
        ∧ { t with host := s.host, gen := { t.gen with commitSeq := s.gen.commitSeq, nodeSeq := s.gen.nodeSeq } } = s)
      ∧ (s.still = false → FailsWith (.tickSetSeq q cid) s q c 8 1))

/-- R252, R254, R257, R267, R369: WORLD_READ writes the eight words of an entry, WORLD_WRITE sets the masked words, WORLD_RESET
sets RESET_REQ and WORLD_STATE the state of every world of its range. -/
def Sys2Proof.Claims.WorldCommands : Prop :=
  ∀ (s : State) (q : Fin 64) (cid : BitVec 16) (c : HostCmd) (data : List Byte) (w lo n st k : Nat),
    (Begun s q cid 0x18 c → w = field (c.p 0) 0 12 → FillsBuffer (.worldRead q cid) s q c 1
        ((List.range 8).flatMap (fun j => leBytes 8 ((s.world w).word (s.active.worldPatch w) j))) s.gen.commitSeq.toNat)
    ∧ (Begun s q cid 0x19 c → w = field (c.p 0) 0 12 → data.length = 64 → s.hostOk (c.p 1) 64 = true →
        ((s.world w).state = 0 ∨ s.gen.gstate = .stopped) →
        ((c.p 0).testBit 16 = true → statusRefused (s.feature 1) (leAt data 0 8) = 0) →
        (∀ j, 1 ≤ j → j < 8 → (c.p 0).testBit (16 + j) = true → worldWordOk j (leAt data (8 * j) 8) = true) →
        ∃ t, exec (.worldWrite q cid data) s = .next t ∧ Completes s t q c 0 0 0
          ∧ (1 ≤ k → k < 8 → (t.world w).word 0 k = if (c.p 0).testBit (16 + k) = true then
              (if k = 6 then leAt data 48 8 % 2 ^ 48 else leAt data (8 * k) 8) else (s.world w).word 0 k)
          ∧ ((c.p 0).testBit 16 = true → (t.world w).state = field (leAt data 0 8) 0 2
              ∧ (t.world w).slots = field (leAt data 0 8) 16 2 ∧ (t.world w).autoReset = (leAt data 0 8).testBit 5
              ∧ (t.world w).user.toNat = leAt data 4 4)
          ∧ (∀ v, v ≠ w → t.world v = s.world v)
          ∧ { t with host := s.host, worlds := { t.worlds with table := s.worlds.table } } = s)
    ∧ (lo = field (c.p 0) 0 12 → n = field (c.p 0) 16 13 → 1 ≤ n → lo + n ≤ 4096 →
        (Begun s q cid 0x1A c → ∃ t, exec (.worldReset q cid) s = .next t ∧ Completes s t q c 0 0 n
          ∧ ∀ v, t.world v = if lo ≤ v ∧ v < lo + n then { s.world v with resetReq := true } else s.world v)
        ∧ (Begun s q cid 0x1B c → st = field (c.p 1) 0 2 → (st = 1 ∨ st = 2) →
          (∀ v, lo ≤ v → v < lo + n → 2 ≤ (s.world v).slots) → ∃ t, exec (.worldState q cid) s = .next t
            ∧ Completes s t q c 0 0 n
            ∧ ∀ v, t.world v = if lo ≤ v ∧ v < lo + n then { s.world v with state := st } else s.world v))

/-- R339, R342, R368, R369: DMA_WRITE and DMA_READ move a multiple of 64 bytes between host memory and device memory whose ports
serve at once: whole lines are written; up to three of them are read, where no error has been corrected of late; otherwise a line
whose code cannot be corrected, or a row retired for it, ends them with DATA_ERROR. Histograms are
read as 68 bins and the tick of their merge; telemetry pages are read from the snapshot; a power cap within its limits applies. -/
def Sys2Proof.Claims.DataCommands : Prop :=
  ∀ (s : State) (q : Fin 64) (cid : BitVec 16) (c : HostCmd) (data : List Byte) (d site o n slot page off : Nat),
    (Begun s q cid 0x20 c → (∀ x, c.dmaBad = some x → FailsWith (.dmaWrite q cid data) s q c 2 x)
      ∧ (c.dmaBad = none → n = c.p 2 → data.length = n → s.hostOk (c.p 0) n = true → DramSpan s (c.p 1) n d site o →
        PortsFree s site →
        (o % 64 = 0 → ∃ t, exec (.dmaWrite q cid data) s = .next t ∧ Completes s t q c 0 0 n ∧ DramWritten s t site o data)
        ∧ (o % 64 ≠ 0 → ∃ t, exec (.dmaWrite q cid data) s = .next t
            ∧ (Completes s t q c 0 0 n ∧ DramWritten s t site o data
              ∨ Completes s t q c 6 1 0 ∧ ∃ k, k ≤ n ∧ DramWritten s t site o (data.take k)))))
    ∧ (Begun s q cid 0x21 c → (∀ x, c.dmaBad = some x → FailsWith (.dmaRead q cid []) s q c 2 x)
      ∧ (c.dmaBad = none → n = c.p 2 → s.hostOk (c.p 0) n = true → DramSpan s (c.p 1) n d site o → PortsFree s site →
        (n ≤ 192 → o % 64 = 0 → s.maint.rowErrors = [] →
          ∃ t, exec (.dmaRead q cid []) s = .next t ∧ Completes s t q c 0 0 n ∧ DramWritten s t site 0 []
            ∧ HostWritten s t (c.p 0) ((List.range n).map (fun k => dbyte s site (o + k))))
        ∧ (∃ t, exec (.dmaRead q cid []) s = .next t ∧ (Completes s t q c 0 0 n ∨ Completes s t q c 6 1 0)
            ∧ DramWritten s t site 0 [])))
    ∧ (Begun s q cid 0x28 c → slot = field (c.p 0) 0 4 →
      (s.mergedTick slot = none → FillsBuffer (.histRead q cid) s q c 1 (zeros 280) 0)
      ∧ (∀ x, s.mergedTick slot = some x → FillsBuffer (.histRead q cid) s q c 1
          ((List.range 68).flatMap (fun b => leBytes 4 (SMap.get 0 (s.hub halRoot).hist ((16 * (x % 2) + slot) * 128 + b)))
            ++ leBytes 8 x) x))
    ∧ (Begun s q cid 0x29 c → page = field (c.p 0) 0 8 → off = 64 * field (c.p 0) 16 16 → field (c.p 0) 8 8 = 0 →
      c.p 0 < 2 ^ 32 → off < 0x10000 → c.p 2 % 64 = 0 → off + c.p 2 ≤ 0x10000 →
      FillsBuffer (.telRead q cid) s q c 1 (s.pageBytes page off (c.p 2)) s.tel.tick)
    ∧ (Begun s q cid 0x30 c → ((c.p 0 < 400 ∨ 1800 < c.p 0) → FailsWith (.powerCap q cid) s q c 2 8)
      ∧ (400 ≤ c.p 0 → c.p 0 ≤ 1800 → ∃ t, exec (.powerCap q cid) s = .next t
          ∧ Completes s t q c 0 0 (Nat.min (s.rwt unitMgmt rPWR_CAP 0 16) (c.p 0))
          ∧ t.fld unitMgmt rPWR_HOST_CAP 0 16 = c.p 0 ∧ HostFrame s t
          ∧ (s.ticking = false → t.fld unitMgmt rPWR_CAP_STAT 0 16 = Nat.min (s.rwt unitMgmt rPWR_CAP 0 16) (c.p 0))))

/-- R446, R447, R450, R451: MAINT_START queues an entry of the arbiter for a resource that fits and answers its handle; MAINT_STOP
ends an entry, at once or after its step; FAULT_REHEARSE queues a rehearsal of a target in service and waits for it. -/
def Sys2Proof.Claims.MaintenanceCommands : Prop :=
  ∀ (s : State) (q : Fin 64) (cid : BitVec 16) (c : HostCmd) (code : Nat) (e : MaintEntry),
    (Begun s q cid 0x38 c → code = field (c.p 0) 0 8 →
      ((code = 0 ∨ 10 ≤ code) → FailsWith (.maintStart q cid) s q c 2 8)
      ∧ (1 ≤ code → code < 10 → e = newEntry 0 code (c.p 1) 0 0 none →
        (s.resourceOk e = false → FailsWith (.maintStart q cid) s q c 2 16)
        ∧ (s.resourceOk e = true → 16 ≤ s.maint.entries.length → FailsWith (.maintStart q cid) s q c 4 0)
        ∧ (s.resourceOk e = true → s.maint.entries.length < 16 → c.noWait = false →
          ∃ t, exec (.maintStart q cid) s = .next t ∧ Completes s t q c 0 0 s.maint.nextHandle
            ∧ t.maint.entries = s.maint.entries ++ [{ e with handle := s.maint.nextHandle }]
            ∧ { t with host := s.host, maint := s.maint } = s)))
    ∧ (Begun s q cid 0x39 c → s.maint.entries.find? (fun x => x.handle == c.p 0) = some e →
      (e.running = true → e.inStep = true → ∃ t, exec (.maintStop q cid) s = .next t ∧ Completes s t q c 0 0 0
        ∧ ∀ x, x ∈ t.maint.entries → x.handle = e.handle → x.stopping = true)
      ∧ ((e.running = false ∨ e.inStep = false) → e.command = none →
        ∃ t, exec (.maintStop q cid) s = .next t ∧ Completes s t q c 0 0 0 ∧ OneEvent s t
          ∧ t.maint.entries = s.maint.entries.filter (fun x => x.handle != e.handle)))
    ∧ (Begun s q cid 0x3A c → code = field (c.p 0) 0 8 →
      ((code = 0 ∨ 6 < code) → FailsWith (.faultRehearse q cid) s q c 2 8)
      ∧ (1 ≤ code → code ≤ 6 → s.rehearsalOk code (c.p 1) = false → FailsWith (.faultRehearse q cid) s q c 0x0D 1)
      ∧ (1 ≤ code → code ≤ 6 → s.rehearsalOk code (c.p 1) = true → s.maint.entries.length < 16 → c.noWait = false →
        ∃ t, exec (.faultRehearse q cid) s = .next t ∧ Awaits s t q c s.maint.nextHandle
          ∧ t.maint.entries = s.maint.entries
              ++ [newEntry s.maint.nextHandle 10 0xFFFF code (c.p 1) (some (q.val, cid.toNat))]
          ∧ { t with host := s.host, maint := s.maint } = s))

/-- R452–R457: a panel attaches to a reference whose digest and sequence are its own, and its exports are suppressed; promotion waits
for readiness; shards are exported as one post of an open send context and imported through an open receive context. -/
def Sys2Proof.Claims.BasteAndShardCommands : Prop :=
  ∀ (s : State) (q : Fin 64) (cid : BitVec 16) (c : HostCmd) (digest : List Byte) (seq : Word) (k : Nat),
    (Begun s q cid 0x40 c →
      (∃ t, exec (.basteAttach q cid none) s = .next t ∧ Completes s t q c 0x0D 2 0 ∧ t.now = s.now + 21000000
        ∧ t.maint = s.maint)
      ∧ (digest ≠ s.active.digest → FailsWith (.basteAttach q cid (some (digest, seq))) s q c 0x0D 3)
      ∧ (digest = s.active.digest → seq ≠ s.gen.commitSeq →
        FailsWith (.basteAttach q cid (some (digest, seq))) s q c 0x0D 4)
      ∧ (digest = s.active.digest → seq = s.gen.commitSeq →
        ∃ t, exec (.basteAttach q cid (some (digest, seq))) s = .next t ∧ Completes s t q c 0 0 0
          ∧ t.maint.basteAttached = true ∧ t.maint.basteReady = false ∧ t.maint.suppressed = true
          ∧ t.reg unitMgmt rMNT_BASTE_STAT = 1 + 2 ^ 4 * field (c.p 0) 0 12
          ∧ t.reg unitMgmt rMNT_BASTE_REQ = (if field (c.p 1) 0 32 = 0 then 1000 else field (c.p 1) 0 32)
          ∧ (t.ctx 4095).st = 1 ∧ t.gen = s.gen ∧ t.active = s.active))
    ∧ (Begun s q cid 0x41 c →
      (s.maint.basteReady = true → ∃ t, exec (.bastePromote q cid) s = .next t ∧ t.maint.promoting = true
        ∧ Awaits s t q c (2 ^ 64) ∧ t.gen = s.gen)
      ∧ (s.maint.basteReady = false → FailsWith (.bastePromote q cid) s q c 0x0D 5))
    ∧ (Begun s q cid 0x42 c → k = field (c.p 3) 0 12 →
      (∀ x, s.shardRefusal c = some x → FailsWith (.shardExport q cid) s q c x.1 x.2)
      ∧ (s.shardRefusal c = none → s.ctxMode k = 1 → (s.ctx k).st = 1 → c.p 2 ≠ 0 →
        ∃ t, exec (.shardExport q cid) s = .next t ∧ Awaits s t q c k
          ∧ (t.ctx k).nextNumber = (s.ctx k).nextNumber + 1
          ∧ ∃ p, p ∈ (t.ctx k).posts ∧ p.number = (s.ctx k).nextNumber ∧ p.length = c.p 2
              ∧ p.src = c.p 0 * 2 ^ 36 + c.p 1 ∧ p.command = true))
    ∧ (Begun s q cid 0x43 c → k = field (c.p 3) 0 12 →
      (∀ x, s.shardRefusal c = some x → FailsWith (.shardImport q cid) s q c x.1 x.2)
      ∧ (s.shardRefusal c = none → s.ctxMode k = 2 → (s.ctx k).st = 1 → s.ctxDie k = c.p 0 → s.ctxBase k = c.p 1 →
          c.p 2 ≤ s.ctxSize k → s.ctxCommand k = none → 64 * (s.ctx k).seq < c.p 2 →
          ∃ t, exec (.shardImport q cid) s = .next t ∧ HostOnly s t
            ∧ t.cmd q.val c.cid = some { c with phase := .waiting, note := k, moved := c.p 2 }))

/-- The host commands of R368 for the queues, the event ring and configuration sets. -/
def Obligations.AdminCommands : Prop :=
  Claims.IdentifyAndFeatures ∧ Claims.Aborts ∧ Claims.EventRings ∧ Claims.ConfigurationSets

/-- The host commands of R368 for ticks and worlds. -/
def Obligations.TickAndWorldCommands : Prop := Claims.TickCommands ∧ Claims.WorldCommands

/-- The host commands of R368 for data, maintenance, basting and shards. -/
def Obligations.DataAndMaintenanceCommands : Prop :=
  Claims.DataCommands ∧ Claims.MaintenanceCommands ∧ Claims.BasteAndShardCommands

namespace Sys2Proof.Claims

open Sys2Proof.Machine

/-- The panel answers an SPDM request on a transport with a response that is signed or not, and its state there becomes `x`
otherwise (R471); nothing else changes. -/
def Answers (i : Instr) (s : State) (tr : Nat) (x : Spdm) (r : SpdmResponse) (signed : Bool) : Prop :=
  ∃ t, exec i s = .next t ∧ t.spdmOn tr = { x with response := r, signed := signed }
    ∧ (∀ u, u ≠ tr → t.spdmOn u = s.spdmOn u) ∧ { t with sec := { t.sec with spdm := s.sec.spdm } } = s

/-- The failed image of component `k` leaves its inactive bank empty, which is reported, and the command ends so (R466). -/
def StageFails (s : State) (q : Fin 64) (cid : BitVec 16) (data : List Byte) (c : HostCmd) (k code detail : Nat) : Prop :=
  ∃ t, exec (.fwStage q cid data) s = .next t ∧ Completes s t q c code detail 0 ∧ OneEvent s t
    ∧ t.bank k (!s.activeBank k) = FwBank.empty ∧ t.bank k (s.activeBank k) = s.bank k (s.activeBank k)

end Sys2Proof.Claims

/-- R418, R459, R464–R467: an image that verifies fills the inactive bank of its component; one that fails leaves the bank empty
and ends the command by why. Activation marks a verified bank for the next reset that loads it. A live update of a valid bank is
queued and, when it ends, has made that bank active, or has left the old one. -/
def Sys2Proof.Claims.FirmwareUpdates : Prop :=
  ∀ (s : State) (q : Fin 64) (cid : BitVec 16) (c : HostCmd) (data img : List Byte) (k n t0 : Nat) (e : MaintEntry)
      (cmd : Option (Nat × Nat)),
    (Begun s q cid 0x48 c → k = field (c.p 2) 0 4 → (3 < k → FailsWith (.fwStage q cid data) s q c 2 24)
      ∧ (k ≤ 3 → (∀ u, s.maint.update = some u → u.1 ≠ k) → n = c.p 1 → data.length = n → s.hostOk (c.p 0) n = true →
        (s.verifyImage data n k = 0 → ∃ t, exec (.fwStage q cid data) s = .next t ∧ Completes s t q c 0 0 0
          ∧ (t.bank k (!s.activeBank k)).valid = true ∧ (t.bank k (!s.activeBank k)).svn = leAt data 12 4
          ∧ (t.bank k (!s.activeBank k)).version = leAt data 8 4
          ∧ t.bank k (s.activeBank k) = s.bank k (s.activeBank k)
          ∧ { t with host := s.host, sec := { t.sec with banks := s.sec.banks } } = s)
        ∧ (s.verifyImage data n k = 1 → leAt data 4 1 = k → StageFails s q cid data c k 2 8)
        ∧ (s.verifyImage data n k = 1 → leAt data 4 1 ≠ k → StageFails s q cid data c k 2 24)
        ∧ (s.verifyImage data n k = 2 → StageFails s q cid data c k 0x0B 0)
        ∧ (s.verifyImage data n k = 3 → StageFails s q cid data c k 0x0C k)))
    ∧ (s.keysOk = true → k ≤ 3 → leAt img 0 4 ≠ 0x474D494B → s.verifyImage img n k = 1)
    ∧ ((sha384 s.sec.ecdsaKey ≠ s.rom.fuseHash 0 ∨ sha384 s.sec.lmsKey ≠ s.rom.fuseHash 1) →
        s.keysOk = false ∧ s.verifyImage img n k = 2 ∧ s.verifies k true [] = 2 ∧ s.verifies k false [] = 2)
    ∧ (s.verifyImage img n k = 0 →
        (k ≤ 3 → s.rollback k ≤ leAt img 12 4) ∧ sha384 ((img.drop 128).take (leAt img 16 8)) = (img.drop 24).take 48)
    ∧ (Begun s q cid 0x49 c → k = field (c.p 2) 0 4 → k ≤ 3 →
        (s.verifies k (!s.activeBank k) [] = 0 → ∃ t, exec (.fwActivate q cid) s = .next t ∧ Completes s t q c 0 0 0
          ∧ SMap.get false t.sec.staged k = true ∧ t.sec.activeB = s.sec.activeB
          ∧ { t with host := s.host, sec := { t.sec with staged := s.sec.staged } } = s)
        ∧ (s.verifies k (!s.activeBank k) [] = 3 → ∃ t, exec (.fwActivate q cid) s = .next t ∧ Completes s t q c 0x0C k 0
          ∧ t.sec = s.sec ∧ OneEvent s t)
        ∧ (s.verifies k (!s.activeBank k) [] = 2 → ∃ t, exec (.fwActivate q cid) s = .next t ∧ Completes s t q c 0x0B 0 0
          ∧ t.sec = s.sec ∧ OneEvent s t))
    ∧ (Begun s q cid 0x4A c → k = field (c.p 2) 0 4 → (1 < k → FailsWith (.fwLiveUpdate q cid) s q c 2 24)
        ∧ (k ≤ 1 → (s.bank k (!s.activeBank k)).valid = true → s.maint.entries.length < 16 → c.noWait = false →
          ∃ t, exec (.fwLiveUpdate q cid) s = .next t ∧ Awaits s t q c s.maint.nextHandle
            ∧ t.maint.entries = s.maint.entries
                ++ [newEntry s.maint.nextHandle 11 0xFFFF k 0 (some (q.val, cid.toNat))]
            ∧ { t with host := s.host, maint := s.maint } = s)
        ∧ (k ≤ 1 → (s.bank k (!s.activeBank k)).valid = false → ∃ t, exec (.fwLiveUpdate q cid) s = .next t
            ∧ Completes s t q c 0x0D 6 0 ∧ OneEvent s t ∧ t.maint = s.maint))
    ∧ (s.maint.update = some (k, t0, cmd) → s.maint.entries.find? (fun e => e.code == 11 && e.running) = some e →
        (s.now ≤ t0 + 420000000 → ∃ t, exec (.liveUpdateEnd true) s = .next t ∧ t.maint.update = none
          ∧ t.activeBank k = !s.activeBank k ∧ SMap.get false t.sec.staged k = false
          ∧ t.maint.entries = s.maint.entries.filter (fun x => x.handle != e.handle)
          ∧ (s.maint.restartUntil = none → t.paused = false)
          ∧ (∀ q c, cmd = some (q.val, c.cid) → s.cmd q.val c.cid = some c → (s.pair q.val).draining = false →
              Completes s t q c 0 0 ((s.now - t0) / 2100)))
        ∧ (∃ t, exec (.liveUpdateEnd false) s = .next t ∧ t.maint.update = none ∧ t.sec = s.sec
          ∧ t.now = Nat.max s.now (t0 + 420000000)
          ∧ t.maint.entries = s.maint.entries.filter (fun x => x.handle != e.handle)
          ∧ (s.maint.restartUntil = none → t.paused = false)
          ∧ (∀ q c, cmd = some (q.val, c.cid) → s.cmd q.val c.cid = some c → (s.pair q.val).draining = false →
              Completes s t q c 0x10 0 0)))

/-- R468–R472: the negotiation comes in order (log 60 takes that order from SPDM), digests, certificates, challenges and
measurements follow it, and a session is opened, finished and ended over DOE only. A request out of place is answered with an
error. A co-signature takes the next leaf index, while one is left. -/
def Sys2Proof.Claims.Attestation : Prop :=
  ∀ (s : State) (doe signed : Bool) (x : Spdm) (tr : Nat), tr = (if doe = true then 0 else 1) → x = s.spdmOn tr →
    Answers (.getVersion doe) s tr { Spdm.reset with version := true } .version false
    ∧ (x.version = true → Answers (.getCapabilities doe) s tr { x with caps := true } .capabilities false)
    ∧ (x.version = false → Answers (.getCapabilities doe) s tr x (.error true) false)
    ∧ (x.caps = true → Answers (.negotiateAlgorithms doe) s tr { x with algs := true } .algorithms false)
    ∧ (x.caps = false → Answers (.negotiateAlgorithms doe) s tr x (.error true) false)
    ∧ (x.algs = true →
        Answers (.getDigests doe) s tr x .digests false
        ∧ Answers (.getCertificate doe) s tr x (.certificate s.sec.certs) false
        ∧ Answers (.challenge doe) s tr x .challengeAuth true
        ∧ Answers (.getMeasurements doe signed) s tr x
            (.measurements ((List.range 8).map (fun i => s.measurement (i + 1))) signed) signed)
    ∧ (x.algs = false →
        Answers (.getDigests doe) s tr x (.error true) false
        ∧ Answers (.getCertificate doe) s tr x (.error true) false
        ∧ Answers (.challenge doe) s tr x (.error true) false
        ∧ Answers (.getMeasurements doe signed) s tr x (.error true) false)
    ∧ (doe = true →
        (x.algs = true → x.session = none → Answers (.keyExchange doe) s tr { x with session := some false } .keyExchange false)
        ∧ (x.session = some false → Answers (.finish doe) s tr { x with session := some true } .finished false)
        ∧ (x.session = some true → Answers (.endSession doe) s tr { x with session := none } .sessionEnded false)
        ∧ ((x.algs = false ∨ x.session ≠ none) → Answers (.keyExchange doe) s tr x (.error true) false)
        ∧ (x.session ≠ some false → Answers (.finish doe) s tr x (.error true) false)
        ∧ (x.session ≠ some true → Answers (.endSession doe) s tr x (.error true) false))
    ∧ (doe = false →
        Answers (.keyExchange doe) s tr x (.error false) false ∧ Answers (.finish doe) s tr x (.error false) false
        ∧ Answers (.endSession doe) s tr x (.error false) false)
    ∧ (x.signed = false → Answers (.lmsCosign doe) s tr x (.error true) false)
    ∧ (x.signed = true → s.sec.nextQ < 2 ^ 20 → ∃ t, exec (.lmsCosign doe) s = .next t
        ∧ (t.spdmOn tr).response = .cosign false s.sec.nextQ ∧ t.sec.nextQ = s.sec.nextQ + 1
        ∧ t.sec.reservedQ = (s.sec.nextQ / 256 + 1) * 256 ∧ (t.spdmOn tr).signed = false)
    ∧ (x.signed = true → 2 ^ 20 ≤ s.sec.nextQ → ∃ t, exec (.lmsCosign doe) s = .next t
        ∧ (t.spdmOn tr).response = .cosign true 0 ∧ t.sec.nextQ = s.sec.nextQ ∧ OneEvent s t ∧ t.events.severeCode = 0xD3)

/-- R471, R472: ATTEST takes one request of the host and writes at most the bytes the host's buffer holds. R473: a debug token that
is granted sets the debug level; granted or not, the nonce is replaced, and the outcome is reported. -/
def Sys2Proof.Claims.AttestAndDebug : Prop :=
  ∀ (s : State) (q : Fin 64) (cid : BitVec 16) (c : HostCmd) (req : SpdmReq) (img : List Byte),
    (Begun s q cid 0x50 c → s.hostOk (c.p 0) (c.p 1) = true → s.hostOk (c.p 2) (c.p 3) = true → req ≠ .lmsCosign →
        ∃ t bs, exec (.attest q cid req) s = .next t ∧ bs.length ≤ c.p 3 ∧ Completes s t q c 0 0 bs.length
          ∧ HostWritten s t (c.p 2) bs ∧ (req = .getVersion → (t.spdmOn 2).response = .version))
    ∧ (s.tokenRefusal img img.length = 0 → ∃ t, exec (.debugToken img) s = .next t
        ∧ t.sec.debugLevel = field (leAt img 144 1) 0 3 ∧ t.sec.nonce = (Config.freeWord s.freeCtr).toNat ∧ OneEvent s t)
    ∧ (s.tokenRefusal img img.length ≠ 0 → ∃ t, exec (.debugToken img) s = .next t
        ∧ t.sec = { s.sec with nonce := (Config.freeWord s.freeCtr).toNat } ∧ OneEvent s t)
    ∧ (s.rom.debugDisable = true → s.tokenRefusal img img.length ≠ 0)
    ∧ (leAt img 136 8 ≠ s.sec.nonce → s.tokenRefusal img img.length ≠ 0)

/-- R478, R485, R486: a snapshot is latched, and shown when every mapped die has written, or without the missing ones after 200 µs;
a die's report completes the slack of the patches that wait for it alone. -/
def Sys2Proof.Claims.Snapshots : Prop :=
  ∀ (s : State) (l : Latch) (d : Fin 192) (site g v : Nat) (left : List Nat) (x : TickRun),
    (s.fld unitMgmt rTEL_CTRL 0 1 = 1 → s.still = true →
      (s.tel.latched = none → ∃ t y, exec .snap s = .next t ∧ t.tel.latched = some y ∧ y.tick = s.gen.commitSeq.toNat
        ∧ y.since = s.now ∧ y.data = s.tel.acc ∧ t.tel.acc = s.freshAcc
        ∧ t.tel.acc.recs = [] ∧ (s.mesh.packets = [] → t.tel.acc = TelData.empty) ∧ t.fld unitMgmt rTEL_CTRL 1 1 = 1
        ∧ { t with tel := s.tel, regs := s.regs, hw := s.hw } = s)
      ∧ (s.tel.latched = some l → ∃ t, exec .snap s = .next t ∧ t.tel.latched = some l ∧ t.tel.acc = s.tel.acc
        ∧ Counted s t unitMgmt rTEL_COUNT))
    ∧ (s.tel.latched = some l →
      (∃ t, exec (.snapshotFlip []) s = .next t ∧ t.tel.latched = none ∧ t.tel.gen = s.tel.gen + 1
        ∧ t.tel.tick = l.tick ∧ t.tel.first = l.first ∧ t.tel.flags = l.flags ∧ t.tel.acc = s.tel.acc
        ∧ (∀ k, k / 8192 ≠ 194 → SMap.get 0 t.tel.shown k = SMap.get 0 l.words k)
        ∧ t.fld unitMgmt rTEL_CTRL 1 1 = 0 ∧ t.now = s.now)
      ∧ (s.active.site d.val = some site → ∃ t, exec (.snapshotFlip [d]) s = .next t ∧ t.tel.latched = none
        ∧ t.now = Nat.max s.now (l.since + 420000) ∧ t.tel.flags.testBit 4 = true
        ∧ (∀ k, k / 8192 = d.val → SMap.get 0 t.tel.shown k = 0)
        ∧ (∀ k, k / 8192 ≠ d.val → k / 8192 ≠ 194 → SMap.get 0 t.tel.shown k = SMap.get 0 l.words k)))
    ∧ (s.gen.last = some x → SMap.ascFrom 0 s.tel.votes = true → SMap.get ([], 0) s.tel.votes g = (left, v) → d.val ∈ left →
      ∃ t, exec (.slackReport d) s = .next t ∧ (SMap.get ([], 0) t.tel.votes g).1 = left.filter (· != d.val)
        ∧ (left.filter (· != d.val) = [] → (SMap.get TelRec.empty t.tel.acc.recs (telSlack g)).count =
            Nat.min (2 ^ 64 - 1) ((SMap.get TelRec.empty s.tel.acc.recs (telSlack g)).count + 1))
        ∧ (left.filter (· != d.val) ≠ [] → SMap.get TelRec.empty t.tel.acc.recs (telSlack g) =
            SMap.get TelRec.empty s.tel.acc.recs (telSlack g))
        ∧ { t with tel := s.tel } = s)

/-- R487–R490: over MCTP the panel answers reads of pages and of its status, and sends the events that wait one at a time, each up
to four times until it is acknowledged. -/
def Sys2Proof.Claims.Mctp : Prop :=
  ∀ (s : State) (page : BitVec 8) (off : BitVec 16) (n : Fin 49) (e : Event) (q : List Event) (t0 : Nat),
    (0 < n.val → ∃ t, exec (.telGet page off n) s = .next t ∧ { t with tel := s.tel } = s
        ∧ t.tel = { s.tel with mctpResponse := leBytes 8 s.tel.gen ++ s.pageBytes page.toNat off.toNat n.val })
    ∧ (∃ t, exec .mctpStatus s = .next t ∧ { t with tel := s.tel } = s
        ∧ t.tel = {
            s.tel with mctpResponse := leBytes 1 s.ready ++ leBytes 8 s.gen.commitSeq.toNat ++ leBytes 8 s.eventStat })
    ∧ (s.events.mctpQ = e :: q →
      (s.tel.mctpAt = none → (s.reg unitMgmt rTEL_MCTP).testBit 19 = true → ∃ t, exec .mctpEvent s = .next t
        ∧ { t with tel := s.tel } = s
        ∧ t.tel = { s.tel with mctpResponse := e.bytes false, mctpTries := 0, mctpAt := some (s.now + 21000000) })
      ∧ (s.tel.mctpAt = some t0 →
        (s.tel.mctpTries < 3 → ∃ t, exec .mctpEventRetry s = .next t ∧ t.now = Nat.max s.now t0 ∧ t.events = s.events
          ∧ t.tel = {
              s.tel with mctpResponse := e.bytes false, mctpTries := s.tel.mctpTries + 1, mctpAt := some (t.now + 21000000) })
        ∧ (3 ≤ s.tel.mctpTries → ∃ t, exec .mctpEventRetry s = .next t ∧ t.now = Nat.max s.now t0
          ∧ t.events = { s.events with mctpQ := q } ∧ t.tel = { s.tel with mctpTries := 0, mctpAt := none }
          ∧ t.fld unitMgmt rTEL_COUNT 32 32 = Nat.min (2 ^ 32 - 1) (s.fld unitMgmt rTEL_COUNT 32 32 + 1))
        ∧ (∃ t, exec .mctpEventAcknowledged s = .next t ∧ t.events = { s.events with mctpQ := q }
          ∧ t.tel = { s.tel with mctpTries := 0, mctpAt := none }
          ∧ { t with tel := s.tel, events := s.events } = s)))

/-- Firmware (R418, R459, R464–R467). -/
def Obligations.FirmwareCommands : Prop := Claims.FirmwareUpdates

/-- Attestation and debug unlock (R468–R473). The order of the SPDM requests is the model's choice (log 60). -/
def Obligations.AttestationCommands : Prop := Claims.Attestation ∧ Claims.AttestAndDebug

/-- Telemetry and the MCTP endpoint (R478–R490). -/
def Obligations.TelemetryCommands : Prop := Claims.Snapshots ∧ Claims.Mctp

namespace Sys2Proof.Claims

open Sys2Proof.Machine

/-- An entry of the alteration log is appended (R422). -/
def Logged (s t : State) (kind site unit detail : Nat) : Prop :=
  s.boot.log.length < 8192 →
    t.boot.log = s.boot.log ++ [{ kind := kind, site := site, unit := unit, detail := detail, hours := s.hours }]

/-- A compute die has been lost: the site is bad, the die has stopped, and every link at it is fenced (R387, R437, R442). -/
def DieIsLost (t : State) (site : Nat) : Prop :=
  site ∈ t.boot.badSites ∧ (t.die site).stopped = true ∧ ∀ e, e ∈ exitsOf site → e.2.2 ∈ t.mesh.fenced

/-- The module has been reset with a cause: ticking, the cores, device memory and the sets are at reset, fuses and the log stay, and
the reset is counted (R416, R420). -/
def ModuleIsReset (s t : State) (cause : Nat) : Prop :=
  t.gen = TickGen.reset ∧ t.cores = [] ∧ t.drams = [] ∧ t.active = ConfigSet.empty ∧ t.now = 0 ∧ t.boot.step = 0
    ∧ t.boot.level = 1 ∧ t.boot.cause = cause ∧ t.boot.log = s.boot.log ∧ t.rom = s.rom ∧ t.pending = s.pending
    ∧ t.fld unitMgmt rCFG_BOOT_COUNT 0 16 = Nat.min 65535 (s.fld unitMgmt rCFG_BOOT_COUNT 0 16 + 1)

/-- The phases of a converter group that work (R377). -/
def phasesLeft (s : State) (i : Nat) : Nat := (bitsOf (groupPhases i) (s.fld unitMgmt (groupOff i) 2 4)).length

/-- A converter group has latched off, and with it goes what it feeds: a site, the module, or an edge die (R387). -/
def GroupIsOff (s t : State) (i : Nat) : Prop :=
  (i < 204 → t.fld unitMgmt (groupOff i) 0 2 = 2 ∧ (i ∉ s.boot.badSites → DieIsLost t i))
  ∧ ((204 ≤ i ∧ i < 210) ∨ i = 219 → ModuleIsReset s t 2)
  ∧ (210 ≤ i → i < 219 → t.fld unitMgmt (groupOff i) 0 2 = 2 ∧ (i - 210) ∈ t.boot.badEdges)

/-- The site is a spare, in column 8 of its row of 17, that holds no logical die (R12, R13). -/
def Unplaced (s : State) (site : Nat) : Bool := decide (site % 17 = 8) && (s.active.dieAt site).isNone

/-- A region has gone dark (R385). -/
def RegionIsDark (t : State) (site r : Nat) : Prop :=
  t.regionState site r = 3 ∧ t.fld (unitDie site) rPWR_REGION_CTRL r 1 = 0

/-- Of the power managers only that of a die, and besides it registers and telemetry, differ. -/
def PowerFrame (s t : State) (site : Nat) : Prop :=
  (∀ v, v ≠ site → t.die v = s.die v) ∧ { t with power := s.power, regs := s.regs, hw := s.hw, tel := s.tel } = s

/-- A request bit of PWR_REGION_CTRL. -/
def Requested (t : State) (site k : Nat) : Prop := t.fld (unitDie site) rPWR_REGION_CTRL k 1 = 1

/-- The stage of a region's turn-on, and whether a neighbour draws over 85 % of its limit (R383). -/
def stageOf (s : State) (site r : Nat) : Nat := s.fld (unitDie site) (statOff r) 2 4
def Loud (s : State) (site r below above : Nat) : Prop :=
  (0 < r ∧ 85 * s.regionLimit site (r - 1) < 100 * below) ∨ (r < 9 ∧ 85 * s.regionLimit site (r + 1) < 100 * above)

end Sys2Proof.Claims

/-- R377–R379, R387, R507: a lost phase of a converter group is logged and reported; with the second one a die is derated and a
group of two latches off; a short or an over-temperature latches a group off. -/
def Sys2Proof.Claims.ConverterGroups : Prop :=
  ∀ (s : State) (i : Fin 220) (ph : Fin 4),
    (ph.val < groupPhases i.val → s.fld unitMgmt (groupOff i.val) (2 + ph.val) 1 = 1 →
      (Claims.phasesLeft s i.val = groupPhases i.val → ∃ t, exec (.converterPhaseFailure i ph) s = .next t
        ∧ t.fld unitMgmt (groupOff i.val) (2 + ph.val) 1 = 0
        ∧ t.fld unitMgmt (groupOff i.val) 0 2 = s.fld unitMgmt (groupOff i.val) 0 2
        ∧ Claims.Logged s t 6 (groupSite i.val) ph.val i.val ∧ Claims.OneEvent s t)
      ∧ (i.val < 204 → Claims.phasesLeft s i.val = 3 → s.fld (unitDie i.val) rPWR_DIE_STATUS 5 2 ≠ 2 →
        ∃ t, exec (.converterPhaseFailure i ph) s = .next t ∧ t.fld unitMgmt (groupOff i.val) (2 + ph.val) 1 = 0
          ∧ t.fld unitMgmt (groupOff i.val) 0 2 = 1 ∧ t.fld (unitDie i.val) rPWR_DIE_STATUS 5 2 = 2 ∧ Claims.OneEvent s t)
      ∧ (204 ≤ i.val → Claims.phasesLeft s i.val = 1 → s.fld unitMgmt (groupOff i.val) 0 2 ≠ 2 →
        ∃ t, exec (.converterPhaseFailure i ph) s = .next t ∧ (210 ≤ i.val → i.val < 219 → Claims.GroupIsOff s t i.val)
          ∧ (i.val < 210 ∨ i.val = 219 → t.gen = TickGen.reset ∧ t.cores = [] ∧ t.boot.cause = 2)))
    ∧ (s.fld unitMgmt (groupOff i.val) 0 2 ≠ 2 →
      (∃ t, exec (.groupOutputShort i) s = .next t ∧ Claims.GroupIsOff s t i.val ∧ t.fld unitMgmt (groupOff i.val) 0 2 = 2
        ∧ i.val ∈ t.supply.shorted)
      ∧ (∃ t, exec (.converterOvertemp i) s = .next t ∧ Claims.GroupIsOff s t i.val))

/-- R383–R385: with four phases left a region goes on, with three it turns to half rate, with fewer, without its controller or at
overcurrent it goes dark. Requests are taken for regions that can follow them, but not at a spare site that holds no die (R13); the stages of a turn-on close one after another in
the window, and after the eighth the region is on at its plan voltage; a region turns off when its slots are free. -/
def Sys2Proof.Claims.Regions : Prop :=
  ∀ (s : State) (site : Fin 204) (r : Fin 10) (k : Fin 5) (req : BitVec 10) (below above : BitVec 8) (n : Nat),
    (s.regionState site.val r.val ≠ 3 →
      (s.fld (unitDie site.val) (statOff r.val) (6 + k.val) 1 = 1 →
        n = (bitsOf 5 (s.fld (unitDie site.val) (statOff r.val) 6 5)).length →
        (n = 5 → ∃ t, exec (.regionPhaseFailure site r (some k)) s = .next t ∧ Claims.OneEvent s t
          ∧ t.fld (unitDie site.val) (statOff r.val) (6 + k.val) 1 = 0
          ∧ t.regionState site.val r.val = s.regionState site.val r.val)
        ∧ (n = 4 → ∃ t, exec (.regionPhaseFailure site r (some k)) s = .next t ∧ Claims.OneEvent s t
          ∧ t.fld (unitDie site.val) (statOff r.val) (6 + k.val) 1 = 0
          ∧ ((t.die site.val).region r.val).toHalf = true ∧ ((t.die site.val).region r.val).faultHalf = true)
        ∧ (n ≤ 3 → ∃ t, exec (.regionPhaseFailure site r (some k)) s = .next t
          ∧ Claims.RegionIsDark t site.val r.val))
      ∧ (∃ t, exec (.regionPhaseFailure site r none) s = .next t ∧ Claims.RegionIsDark t site.val r.val)
      ∧ (∃ t, exec (.regionOvercurrent site r) s = .next t ∧ Claims.RegionIsDark t site.val r.val))
    ∧ (∃ t, exec (.onReq site req) s = .next t ∧ Claims.RegsOnly s t
        ∧ ∀ j, j < 10 →
          ((req.getLsbD j = true ∧ s.regionState site.val j < 2 ∧ Claims.Unplaced s site.val = false) →
              Claims.Requested t site.val j)
          ∧ (¬ (req.getLsbD j = true ∧ s.regionState site.val j < 2 ∧ Claims.Unplaced s site.val = false) →
              (Claims.Requested t site.val j ↔ Claims.Requested s site.val j)))
    ∧ (∃ t, exec (.offReq site req) s = .next t ∧ Claims.RegsOnly s t
        ∧ ∀ j, j < 10 → ((req.getLsbD j = true ∧ (s.regionState site.val j = 1 ∨ s.regionState site.val j = 2)) →
              (Claims.Requested t site.val (16 + j) ↔ s.regionUsed site.val j = false))
          ∧ (¬ (req.getLsbD j = true ∧ (s.regionState site.val j = 1 ∨ s.regionState site.val j = 2)) →
              (Claims.Requested t site.val (16 + j) ↔ Claims.Requested s site.val (16 + j))))
    ∧ ((s.regionState site.val r.val = 1 ∨ s.regionState site.val r.val = 2) → Claims.Requested s site.val (16 + r.val) →
        (∀ p i, p ∈ regionCores site.val r.val → i < 8 → (s.slot p i).mode = .free) →
        ∃ t, exec (.regionTurnOff site r) s = .next t ∧ t.regionState site.val r.val = 0 ∧ t.regionMv site.val r.val = 0
          ∧ ¬ Claims.Requested t site.val (16 + r.val) ∧ ¬ Claims.Requested t site.val r.val ∧ Claims.RegsOnly s t)
    ∧ (s.turnOnWindow site.val = true → s.reef = false →
        (s.regionState site.val r.val = 1 ∨ (s.regionState site.val r.val = 0 ∧ Claims.Requested s site.val r.val
          ∧ (∀ j, j < 10 → s.regionState site.val j ≠ 1)
          ∧ (∀ j, j < r.val → ¬ (s.regionState site.val j = 0 ∧ Claims.Requested s site.val j)))) →
        (Claims.stageOf s site.val r.val < 7 → ∃ t, exec (.regionStage site r below above) s = .next t
          ∧ t.now = (if s.regionState site.val r.val = 1 then Nat.max s.now ((s.die site.val).region r.val).stageAt else s.now)
          ∧ t.regionState site.val r.val = 1 ∧ Claims.stageOf t site.val r.val = Claims.stageOf s site.val r.val + 1
          ∧ (Claims.Loud s site.val r.val below.toNat above.toNat →
              ((t.die site.val).region r.val).stageAt = t.now + 2100)
          ∧ (¬ Claims.Loud s site.val r.val below.toNat above.toNat →
              ((t.die site.val).region r.val).stageAt = t.now + 525))
        ∧ (Claims.stageOf s site.val r.val = 7 → ∃ t, exec (.regionStage site r below above) s = .next t
          ∧ t.regionState site.val r.val = 2 ∧ t.regionMv site.val r.val = (s.planOf site.val r.val).1 % 1024
          ∧ ¬ Claims.Requested t site.val r.val))

/-- R388–R393: a contact estimate shows in its register, and one far above the baseline marks the die or derates it; a die over its
budget lowers its matrix limit, or its vector limit, and one below raises them again after 10 µs; the backstop limits every die. -/
def Sys2Proof.Claims.ContactsAndBudgets : Prop :=
  ∀ (s : State) (site : Fin 204) (est mv cur avg : BitVec 16) (b since : Nat),
    ((100 ≤ cur.toNat → ∃ t, exec (.contactEstimate site est mv cur) s = .next t
        ∧ t.fld (unitDie site.val) rPWR_CONTACT 16 16 = est.toNat
        ∧ t.reg (unitDie site.val) rPWR_DIE_INPUT = mv.toNat + 2 ^ 16 * cur.toNat
        ∧ (b = s.fld (unitDie site.val) rPWR_CONTACT 0 16 → b ≠ 0 → 125 * b < 100 * est.toNat →
            (t.die site.val).riseRaised = true)
        ∧ (b = s.fld (unitDie site.val) rPWR_CONTACT 0 16 → b ≠ 0 → 160 * b < 100 * est.toNat →
            s.fld (unitDie site.val) rPWR_DIE_STATUS 5 2 = 0 → t.fld (unitDie site.val) rPWR_DIE_STATUS 5 2 = 1)
        ∧ (s.fld (unitDie site.val) rPWR_CONTACT 0 16 = 0 → t.events = s.events))
      ∧ (cur.toNat < 100 → ∃ t, exec (.contactEstimate site est mv cur) s = .next t
        ∧ t.reg (unitDie site.val) rPWR_DIE_INPUT = mv.toNat + 2 ^ 16 * cur.toNat
        ∧ Claims.PowerFrame s t site.val ∧ t.die site.val = s.die site.val))
    ∧ (b = s.fld (unitDie site.val) rPWR_DIE_BUDGET 0 16 →
      (b < avg.toNat → ∃ t, exec (.powerCompare site avg) s = .next t ∧ Claims.PowerFrame s t site.val
        ∧ t.die site.val = (if (s.die site.val).mxuCap = 1
            then { s.die site.val with belowSince := none, vecCap := Nat.max 1 ((s.die site.val).vecCap - 8) }
            else { s.die site.val with belowSince := none, mxuCap := Nat.max 1 ((s.die site.val).mxuCap - 8) }))
      ∧ (avg.toNat ≤ b → 10 * avg.toNat < 9 * b → since = (s.die site.val).belowSince.getD s.now → s.now < since + 21000 →
        ∃ t, exec (.powerCompare site avg) s = .next t ∧ Claims.PowerFrame s t site.val
          ∧ t.die site.val = { s.die site.val with belowSince := some since })
      ∧ (avg.toNat ≤ b → 10 * avg.toNat < 9 * b → (s.die site.val).belowSince = some since → since + 21000 ≤ s.now →
        ∃ t, exec (.powerCompare site avg) s = .next t ∧ Claims.PowerFrame s t site.val
          ∧ t.die site.val = (if (s.die site.val).vecCap < 64
              then { s.die site.val with vecCap := Nat.min 64 ((s.die site.val).vecCap + 8) }
              else { s.die site.val with mxuCap := Nat.min 64 ((s.die site.val).mxuCap + 8) }))
      ∧ (avg.toNat ≤ b → 9 * b ≤ 10 * avg.toNat → ∃ t, exec (.powerCompare site avg) s = .next t
        ∧ Claims.PowerFrame s t site.val ∧ t.die site.val = { s.die site.val with belowSince := none }))
    ∧ (∃ t, exec (.backstopCheck avg) s = .next t ∧ t.fld unitMgmt rPWR_INPUT 32 16 = avg.toNat
        ∧ ((105 * s.fld unitMgmt rPWR_CAP_STAT 0 16 < 100 * avg.toNat ∨ 1800 < avg.toNat) →
            (∀ v, v < 204 → (t.die v).backstop = true) ∧ t.fld unitMgmt rPWR_CAP_STAT 40 1 = 1)
        ∧ (¬ (105 * s.fld unitMgmt rPWR_CAP_STAT 0 16 < 100 * avg.toNat ∨ 1800 < avg.toNat) → t.power = s.power)
        ∧ t.gen = s.gen ∧ t.cores = s.cores)

/-- R394–R397: four samples below the warning begin reef mode, and 1 ms above 11.3 V ends it; a sample below 10.2 V or above 13.2 V
shuts the module down, twice within an hour for the second latching it off; 10 ms above 12.6 V is reported once. After a shutdown the
module is reset once the supply is good. -/
def Sys2Proof.Claims.Supplies : Prop :=
  ∀ (s : State) (mv : BitVec 16) (v t0 : Nat), v = mv.toNat →
    (s.supply.down = none →
      (10200 ≤ v → v ≤ 13200 → s.reef = false → v < s.fld unitMgmt rPWR_REEF_CFG 0 16 → 3 ≤ s.supply.low →
        ∃ t, exec (.supplySample mv) s = .next t ∧ t.reef = true ∧ t.supply.reefStart = s.now ∧ Claims.OneEvent s t
          ∧ t.fld unitMgmt rPWR_REEF_STAT 16 16 = v ∧ Claims.Counted s t unitMgmt rPWR_REEF_COUNT)
      ∧ (10200 ≤ v → v ≤ 13200 → s.reef = false → (s.fld unitMgmt rPWR_REEF_CFG 0 16 ≤ v ∨ s.supply.low < 3) →
        ∃ t, exec (.supplySample mv) s = .next t ∧ t.reef = false ∧ t.fld unitMgmt rPWR_INPUT 0 16 = v ∧ t.events = s.events
          ∧ t.supply.low = (if v < s.fld unitMgmt rPWR_REEF_CFG 0 16 then s.supply.low + 1 else 0))
      ∧ (11300 < v → v ≤ 13200 → s.reef = true → s.supply.since = some t0 → t0 + 2100000 ≤ s.now →
        ∃ t, exec (.supplySample mv) s = .next t ∧ t.reef = false ∧ Claims.OneEvent s t)
      ∧ (11300 < v → v ≤ 13200 → s.reef = true → (s.supply.since = none ∨ (s.supply.since = some t0 ∧ s.now < t0 + 2100000)) →
        ∃ t, exec (.supplySample mv) s = .next t ∧ t.reef = true ∧ t.events = s.events
          ∧ t.supply.since = some (s.supply.since.getD s.now))
      ∧ (10200 ≤ v → v ≤ 11300 → s.reef = true → ∃ t, exec (.supplySample mv) s = .next t ∧ t.reef = true
          ∧ t.supply.since = none)
      ∧ (v < 10200 → ∃ t, exec (.supplySample mv) s = .next t ∧ t.supply.down = some { cause := 1, extreme := v }
          ∧ t.boot.supplyRec = 1 + 2 ^ 16 * v + 2 ^ 63 ∧ t.gen = TickGen.reset ∧ t.cores = []
          ∧ t.supply.latchedOff = s.supply.latchedOff)
      ∧ (13200 < v → ∃ t, exec (.supplySample mv) s = .next t ∧ t.supply.down = some { cause := 2, extreme := v }
          ∧ t.boot.supplyRec = 2 + 2 ^ 16 * v + 2 ^ 63 ∧ t.gen = TickGen.reset ∧ t.cores = []
          ∧ (∀ at_, s.supply.protectAt = some at_ → s.opCycles < at_ + hourCycles → t.supply.latchedOff = true)
          ∧ (s.supply.protectAt = none → t.supply.latchedOff = s.supply.latchedOff)))
    ∧ (s.supply.highSince = some t0 → s.supply.highRaised = false → ∃ t, exec .inputHighTimer s = .next t
        ∧ t.now = Nat.max s.now (t0 + 21000000) ∧ t.supply.highRaised = true ∧ Claims.OneEvent s t)
    ∧ (s.supply.down ≠ none → s.supply.latchedOff = false → ∃ t, exec .supplyRecovery s = .next t
        ∧ Claims.ModuleIsReset s t 3 ∧ t.supply.down = none)

/-- R395: a sample between 12.6 V and 13.2 V begins an excursion or goes on with it, and one outside ends it; 10 ms after its begin,
once for each excursion, INPUT_HIGH is raised, and nothing else changes. -/
def Obligations.InputHigh : Prop :=
  ∀ (s : State) (mv : BitVec 16) (t0 : Nat),
    (s.supply.down = none → 10200 ≤ mv.toNat →
      (12600 ≤ mv.toNat → mv.toNat ≤ 13200 → ∃ t, exec (.supplySample mv) s = .next t
        ∧ t.supply.highSince = some (s.supply.highSince.getD s.now) ∧ t.supply.highRaised = s.supply.highRaised
        ∧ t.gen = s.gen ∧ t.cores = s.cores ∧ t.drams = s.drams)
      ∧ (mv.toNat < 12600 → ∃ t, exec (.supplySample mv) s = .next t ∧ t.supply.highSince = none
        ∧ t.supply.highRaised = false))
    ∧ (s.supply.highSince = some t0 → s.supply.highRaised = false → exec .inputHighTimer s = .next
        (({ s with now := Nat.max s.now (t0 + 21000000), supply := { s.supply with highRaised := true } } : State).raise
          .degraded 0x8B .none none 0 false))
    ∧ (s.supply.highRaised = true → exec .inputHighTimer s = .next s)
    ∧ (s.supply.highSince = none → exec .inputHighTimer s = .next s)

/-- Converter groups and power regions (R377–R379, R382–R385, R387, R507). -/
def Obligations.PowerGroupsAndRegions : Prop := Claims.ConverterGroups ∧ Claims.Regions

/-- Contacts, budgets and the supply (R388–R397). -/
def Obligations.BudgetsAndSupply : Prop := Claims.ContactsAndBudgets ∧ Claims.Supplies

namespace Sys2Proof.Claims

open Sys2Proof.Machine

/-- A region is on, no new plan waits for it, no rehearsed phase returns, and it is not swept. -/
def Steady (s : State) (site r : Nat) : Prop :=
  s.regionState site r = 2 ∧ ((s.die site).region r).newPlan = none ∧ ((s.die site).region r).phaseBack = none
    ∧ ((s.die site).region r).sweep = none

/-- The region runs at half rate or is about to. -/
def HalfRate (s : State) (site r : Nat) : Prop := s.regionHalf site r = true ∨ ((s.die site).region r).toHalf = true

/-- No link on the spar of a site, of rows 2k and 2k + 1, began a retraining before link `l` did that is still under way (R17). -/
def TrainsAlone (s : State) (site l : Nat) : Prop :=
  ∀ before after, s.mesh.training = before ++ l :: after → ∀ k ∈ after,
    ∀ v, v < 204 → (v = (linkEnds k).1 ∨ v = (linkEnds k).2) → siteRow v / 2 ≠ siteRow site / 2

/-- The arbiter holds an entry of a code and resource (R446, R447). -/
def HasEntry (t : State) (code resource : Nat) : Prop := ∃ e, e ∈ t.maint.entries ∧ e.code = code ∧ e.resource = resource

/-- The next step of a running sweep at a region: the entry, not stopped, and the voltage, rate and start of the sweep (R411). -/
def Sweeps (s : State) (site r : Nat) (e : MaintEntry) (w : Sweep) : Prop :=
  s.runningEntry 5 (fun e => e.site == site || e.site == 0xFF) = some e ∧ e.stopping = false
    ∧ ((s.die site).region r).replan = true ∧ ((s.die site).region r).sweep = some w ∧ s.slack site = true
    ∧ ∀ k, k < 10 → k ≠ r → ((s.die site).region k).sweep = none

end Sys2Proof.Claims

/-- R387, R402: losing the reference starts its holdover; within 1.0 ms it may return, and else the panel shuts down with cause 3. A
PLL that loses lock stops its die, an edge die, or with the management die the module. -/
def Sys2Proof.Claims.ReferenceAndPlls : Prop :=
  ∀ (s : State) (v : Fin 214) (t0 : Nat),
    (s.supply.refLostAt = none → s.supply.down = none → ∃ t, exec .referenceLoss s = .next t
        ∧ t.supply.refLostAt = some s.now ∧ t.fld unitMgmt rCLK_REF_STAT 0 2 = 2
        ∧ t.fld unitMgmt rCLK_REF_STAT 32 16 = Nat.min 65535 (s.fld unitMgmt rCLK_REF_STAT 32 16 + 1)
        ∧ { t with supply := s.supply, regs := s.regs, hw := s.hw } = s)
    ∧ (s.supply.refLostAt = some t0 →
      (s.now ≤ t0 + 2100000 → ∃ t, exec .referenceReturn s = .next t ∧ t.supply.refLostAt = none
        ∧ t.fld unitMgmt rCLK_REF_STAT 0 2 = 1 ∧ { t with supply := s.supply, regs := s.regs, hw := s.hw } = s)
      ∧ (∃ t, exec .holdoverExpiry s = .next t ∧ t.supply.down = some { cause := 3, extreme := 0 }
        ∧ t.boot.supplyRec = 3 + 2 ^ 63 ∧ t.gen = TickGen.reset ∧ t.cores = [] ∧ t.supply.refLostAt = none))
    ∧ (v.val < 204 → v.val ∉ s.boot.badSites → ∃ t, exec (.pllLockLoss v) s = .next t ∧ Claims.DieIsLost t v.val
        ∧ t.fld (unitDie v.val) rCLK_DIE_STATUS 0 1 = 0)
    ∧ (v.val = 213 → ∃ t, exec (.pllLockLoss v) s = .next t ∧ Claims.ModuleIsReset s t 2)
    ∧ (204 ≤ v.val → v.val < 213 → ∃ t, exec (.pllLockLoss v) s = .next t ∧ (v.val - 204) ∈ t.boot.badEdges)

/-- R16, R17, R206, R404, R405, R437: a link whose margin falls below 2 UI is retrained; the retraining realigns it and repairs the tracks it
found, or, without 4 UI or at the third failed track of a group, the link is fenced; so is a link that fails. A retraining that finds a
failed track goes on at once while no earlier one on its spar is still under way. -/
def Sys2Proof.Claims.SeamLinks : Prop :=
  ∀ (s : State) (site : Fin 204) (e : Fin 4) (sep : BitVec 9) (l w : Nat) (tr : Fin 8 × Fin 256 × Fin 64) (k : Nat),
    l = linkAt site.val e.val → beyond site.val e.val = some w →
    (l ∉ s.mesh.fenced → ∃ t, exec (.seamLinkFail site e) s = .next t ∧ l ∈ t.mesh.fenced ∧ l ∉ t.mesh.training)
    ∧ (s.seamUp site.val e.val = true → sepMargin sep.toNat < 128 → ∃ t, exec (.driftRetraining site e sep) s = .next t
        ∧ l ∈ t.mesh.training ∧ t.fld (unitDie site.val) (seamOff e.val) 8 9 = sep.toNat ∧ Claims.OneEvent s t
        ∧ t.fld (unitDie site.val) (rCLK_SEAM_COUNT + 4 * e.val) 0 16 =
            Nat.min 65535 (s.fld (unitDie site.val) (rCLK_SEAM_COUNT + 4 * e.val) 0 16 + 1))
    ∧ (l ∈ s.mesh.training →
      (∃ t, exec (.retrainingComplete site e true []) s = .next t ∧ l ∉ t.mesh.training
        ∧ t.fld (unitDie site.val) (seamOff e.val) 8 9 = 256 ∧ t.mesh.fenced = s.mesh.fenced)
      ∧ (l ∉ s.mesh.fenced → ∃ t, exec (.retrainingComplete site e false []) s = .next t ∧ l ∈ t.mesh.fenced ∧ l ∉ t.mesh.training
        ∧ t.fld (unitDie site.val) (rCLK_SEAM_COUNT + 4 * e.val) 16 16 =
            Nat.min 65535 (s.fld (unitDie site.val) (rCLK_SEAM_COUNT + 4 * e.val) 16 16 + 1))
      ∧ (Claims.TrainsAlone s site.val l → k = (siteRow site.val / 2 * 8 + tr.1.val) * 256 + tr.2.1.val →
        (SMap.get 0 s.maint.tracks k < 2 → ∃ t, exec (.retrainingComplete site e true [tr]) s = .next t
          ∧ SMap.get 0 t.maint.tracks k = SMap.get 0 s.maint.tracks k + 1 ∧ l ∉ t.mesh.training
          ∧ t.mesh.fenced = s.mesh.fenced
          ∧ Claims.Logged s t 7 (siteRow site.val / 2) tr.1.val (tr.2.2.val + 2 ^ 8 * tr.2.1.val))
        ∧ (SMap.get 0 s.maint.tracks k = 2 → ∃ t, exec (.retrainingComplete site e true [tr]) s = .next t
          ∧ l ∈ t.mesh.fenced)))

/-- R407–R409: at a code of 8 or below the controller raises the voltage by 5 mV up to 0.90 V, at 20 or above for 1 ms it lowers it down
to the plan, and at 3 or below, or when 0.90 V has not sufficed for 10 µs, the region turns to half rate. It does so at the next 64-cycle
boundary, and returns to full rate in slack. -/
def Sys2Proof.Claims.MarginControl : Prop :=
  ∀ (s : State) (site : Fin 204) (r : Fin 10) (code : BitVec 6) (cur : BitVec 8) (mv since : Nat),
    (Claims.Steady s site.val r.val → mv = s.regionMv site.val r.val →
      (code.toNat ≤ 3 → ¬ Claims.HalfRate s site.val r.val → ∃ t, exec (.marginControl site r code cur) s = .next t
        ∧ ((t.die site.val).region r.val).toHalf = true ∧ t.fld (unitDie site.val) (marginOff r.val) 25 1 = 1
        ∧ t.fld (unitDie site.val) (marginOff r.val) 0 6 = code.toNat ∧ Claims.OneEvent s t)
      ∧ (code.toNat ≤ 8 → (4 ≤ code.toNat ∨ Claims.HalfRate s site.val r.val) →
          ((s.die site.val).region r.val).evalAt ≤ s.now →
        (mv < 900 → ∃ t, exec (.marginControl site r code cur) s = .next t
          ∧ t.regionMv site.val r.val = Nat.min 900 (mv + 5) ∧ ((t.die site.val).region r.val).evalAt = s.now + 21000
          ∧ t.fld (unitDie site.val) (statOff r.val) 12 8 = cur.toNat)
        ∧ (900 ≤ mv → ((s.die site.val).region r.val).endSince = some since → since + 21000 ≤ s.now →
            ¬ Claims.HalfRate s site.val r.val → ∃ t, exec (.marginControl site r code cur) s = .next t
              ∧ ((t.die site.val).region r.val).toHalf = true ∧ t.regionMv site.val r.val = mv ∧ Claims.OneEvent s t))
      ∧ (20 ≤ code.toNat → ((s.die site.val).region r.val).evalAt ≤ s.now →
          ((s.die site.val).region r.val).highSince = some since → since + 2100000 ≤ s.now → s.planMv site.val r.val < mv →
        ∃ t, exec (.marginControl site r code cur) s = .next t
          ∧ t.regionMv site.val r.val = Nat.max (s.planMv site.val r.val) (mv - 5)
          ∧ ((t.die site.val).region r.val).highSince = some s.now ∧ t.events = s.events)
      ∧ (8 < code.toNat → code.toNat < 20 → ((s.die site.val).region r.val).evalAt ≤ s.now →
        ∃ t, exec (.marginControl site r code cur) s = .next t ∧ t.regionMv site.val r.val = mv
          ∧ ((t.die site.val).region r.val).highSince = none ∧ t.events = s.events))
    ∧ (((s.die site.val).region r.val).toHalf = true → ∃ t, exec (.halfRateSwitch site r) s = .next t
        ∧ t.now = (s.now + 63) / 64 * 64 ∧ t.regionHalf site.val r.val = true
        ∧ ((t.die site.val).region r.val).toHalf = false ∧ t.regionMv site.val r.val = s.planMv site.val r.val
        ∧ ∀ p, p ∈ regionCores site.val r.val → t.fld (unitCore p) rCORE_CLOCK 32 1 = 1)
    ∧ (((s.die site.val).region r.val).toFull = true → ((s.die site.val).region r.val).faultHalf = false →
        s.regionHalf site.val r.val = true → s.slack site.val = true → ∃ t, exec (.fullRateReturn site r) s = .next t
          ∧ t.regionHalf site.val r.val = false ∧ ((t.die site.val).region r.val).toFull = false
          ∧ t.regionMv site.val r.val = s.planMv site.val r.val
          ∧ ∀ p, p ∈ regionCores site.val r.val → t.fld (unitCore p) rCORE_CLOCK 32 1 = 0)

/-- R410, R411: a re-plan is queued with the arbiter on request or after its interval; a sweep lowers a region by 5 mV for each 10 µs
that stays at 12 or above, and ends with the plan: the least voltage that held and its guard band, at full rate up to 0.90 V. Ageing is
measured region by region in slack, and queued after 24 operating hours. -/
def Sys2Proof.Claims.PlansAndAgeing : Prop :=
  ∀ (s : State) (site : Fin 204) (r : Fin 10) (code : BitVec 6) (index : BitVec 20) (e : MaintEntry) (w : Sweep) (v : Nat),
    (s.maint.entries.length < 16 → ∃ t, exec .replan s = .next t ∧ Claims.HasEntry t 5 0xFFFF
        ∧ t.fld unitMgmt rCLK_PLAN_CTRL 0 1 = 1 ∧ { t with maint := s.maint, regs := s.regs, hw := s.hw } = s)
    ∧ (s.maint.entries.length < 16 → s.fld unitMgmt rCLK_PLAN_CTRL 0 2 = 2 → ∃ t, exec .replanInterval s = .next t
        ∧ Claims.HasEntry t 5 0xFFFF ∧ t.now = Nat.max s.now
            ((s.boot.planHours + s.fld unitMgmt rCLK_PLAN_CTRL 16 16) * hourCycles - s.boot.cyclesBase))
    ∧ (Claims.Sweeps s site.val r.val e w →
      (12 ≤ code.toNat → 550 < w.mv → w.mv ≤ 900 → ∃ t, exec (.marginSweep site r code) s = .next t ∧ t.now = s.now + 21000
        ∧ ((t.die site.val).region r.val).sweep = some { w with mv := w.mv - 5 } ∧ t.regionMv site.val r.val = w.mv - 5)
      ∧ (code.toNat < 12 → w.half = false → w.mv < 900 → roundUp5 ((w.mv : Int) + 5 + s.guardBand site.val r.val) ≤ 900 →
          v = (max 550 (roundUp5 ((w.mv : Int) + 5 + s.guardBand site.val r.val))).toNat →
          ∃ t, exec (.marginSweep site r code) s = .next t ∧ ((t.die site.val).region r.val).newPlan = some (v, false)
            ∧ ((t.die site.val).region r.val).replan = false ∧ ((t.die site.val).region r.val).sweep = none
            ∧ (t.planOf site.val r.val).1 % 1024 = v % 1024)
      ∧ (code.toNat < 12 → w.half = false → w.mv = 900 → ∃ t, exec (.marginSweep site r code) s = .next t
          ∧ ((t.die site.val).region r.val).sweep = some { w with mv := s.regionMv site.val r.val, half := true })
      ∧ (code.toNat < 12 → w.half = true → w.mv < 900 →
          v = (max 550 (roundUp5 ((w.mv : Int) + 5 + s.guardBand site.val r.val))).toNat →
          ∃ t, exec (.marginSweep site r code) s = .next t ∧ ((t.die site.val).region r.val).newPlan = some (v, true)
            ∧ ((t.die site.val).region r.val).replan = false))
    ∧ (s.maint.entries.length < 16 → ∃ t, exec (.ageingInterval site) s = .next t
        ∧ Claims.HasEntry t 6 (site.val + 0xFF00) ∧ t.now = Nat.max s.now
            ((SMap.get 0 s.boot.ageHours site.val + 24) * hourCycles - s.boot.cyclesBase)
        ∧ SMap.get 0 t.boot.ageHours site.val = t.hours)
    ∧ (s.runningEntry 6 (fun e => e.site == site.val) = some e → s.slack site.val = true → ∃ t,
        exec (.ageing site index) s = .next t ∧ t.now = s.now + 42000
          ∧ t.fld (unitDie site.val) (rCLK_AGEING + 4 * e.progress) 0 20 = index.toNat)

/-- The reference, PLLs and seam links (R16, R206, R387, R402–R405, R437). -/
def Obligations.ClocksAndLinks : Prop := Claims.ReferenceAndPlls ∧ Claims.SeamLinks

/-- Margins and ageing (R407–R411). -/
def Obligations.MarginsAndAgeing : Prop := Claims.MarginControl ∧ Claims.PlansAndAgeing

namespace Sys2Proof.Claims

open Sys2Proof.Machine

/-- A fabric reset has begun: the uncommitted ticks are gone, ticking is STOPPED, no packet is injected, the features and READY are
gone, and the committed sequence, the configuration sets and device memory stay (R427, R428). -/
def FabricResetBegun (s t : State) (cause : Nat) : Prop :=
  t.gen.gstate = .stopped ∧ t.gen.ticks = [] ∧ t.gen.commitSeq = s.gen.commitSeq ∧ t.ready = 0 ∧ t.host.locked = none
    ∧ t.mesh.closed = true ∧ t.boot.step = 1 ∧ t.boot.level = 2 ∧ t.boot.cause = cause ∧ t.active = s.active
    ∧ t.shadow = s.shadow ∧ t.drams = s.drams ∧ t.cores = s.cores ∧ t.fld unitBar rHOST_FEAT_CTRL 0 1 = 0

/-- Every task slot of a core is FREE, its engines are empty, and its windows are closed (R58, R105). -/
def CoreIsReset (s t : State) (p : Nat) : Prop :=
  (∀ i, i < 8 → (t.slot p i).mode = .free) ∧ (t.core p).mxu = Mxu.reset ∧ (t.core p).vec = Vec.reset
    ∧ (t.core p).resetAt = s.now ∧ (t.core p).issueAt = s.now ∧ (t.core p).launches = (s.core p).launches

/-- No finding of a step of bring-up. -/
def noFinding : BootFinding :=
  { badBanks := [], badRecord := none, badLinks := [], tracks := [], badLanes := [], badCores := [], badSites := [],
    badEdges := [], badPorts := [], badHem := [], yardTracks := [], sparTracks := [] }

end Sys2Proof.Claims

/-- R58, R105, R351, R416, R417, R427: a cold or module reset resets the panel but for fuses, flash and host memory; a fabric or CXL reset
is taken once the panel has been ready; a core or patch reset resets its cores while ticking is STOPPED or HALTED, and is refused
otherwise. -/
def Sys2Proof.Claims.Resets : Prop :=
  ∀ (s : State) (pin : Bool) (g : BitVec 8) (core : Fin 9216),
    (∃ t, exec .coldReset s = .next t ∧ t.gen = TickGen.reset ∧ t.cores = [] ∧ t.drams = [] ∧ t.mesh = Mesh.reset
        ∧ t.active = ConfigSet.empty ∧ t.ready = 0 ∧ t.boot.level = 0 ∧ t.boot.step = 0 ∧ t.supply.latchedOff = false
        ∧ t.supply.shorted = [] ∧ t.fld unitMgmt rCFG_BOOT_COUNT 0 16 = 0 ∧ t.boot.log = s.boot.log ∧ t.rom = s.rom
        ∧ t.sec.banks = s.sec.banks ∧ t.hostMem = s.hostMem ∧ t.pending = s.pending)
    ∧ (s.supply.down = none → ∃ t, exec (.moduleReset pin) s = .next t
        ∧ Claims.ModuleIsReset s t (if pin = true then 1 else 2))
    ∧ (s.fabricAllowed = true →
      (∃ t, exec (.fabricReset true) s = .next t ∧ Claims.FabricResetBegun s t 5)
      ∧ (∃ t, exec (.fabricReset false) s = .next t ∧ Claims.FabricResetBegun s t 2)
      ∧ (∃ t, exec .cxlReset s = .next t ∧ Claims.FabricResetBegun s t 4))
    ∧ (s.fabricAllowed = false → exec (.fabricReset false) s = .next s ∧ exec .cxlReset s = .next s
        ∧ exec (.fabricReset true) s = .next (s.setFld unitMgmt rCFG_RESET_CTRL 3 1 0))
    ∧ (s.still = true →
      (∃ t, exec (.patchReset g) s = .next t ∧ t.fld unitMgmt rCFG_RESET_CTRL 3 1 = 0
        ∧ t.fld unitMgmt rCFG_RESET_CTRL 8 8 = g.toNat ∧ (∀ p, p ∈ s.patchCores g.toNat → Claims.CoreIsReset s t p)
        ∧ t.gen = s.gen ∧ t.drams = s.drams)
      ∧ (∃ t, exec (.coreReset core) s = .next t ∧ t.fld unitMgmt rCFG_RESET_CTRL 3 1 = 0
        ∧ t.fld unitMgmt rCFG_RESET_CTRL 16 14 = core.val
        ∧ (∀ p, s.active.coreOf core.val = some p → Claims.CoreIsReset s t p ∧ ∀ j, j ≠ p → t.core j = s.core j)
        ∧ t.gen = s.gen ∧ t.drams = s.drams))
    ∧ (s.still = false →
      (∃ t, exec (.patchReset g) s = .next t ∧ t.fld unitMgmt rCFG_RESET_CTRL 3 1 = 1 ∧ Claims.RegsOnly s t)
      ∧ (∃ t, exec (.coreReset core) s = .next t ∧ t.fld unitMgmt rCFG_RESET_CTRL 3 1 = 1 ∧ Claims.RegsOnly s t))

/-- R193, R420, R421, R425, R427, R430, R433, R469: bring-up begins at step 1 and goes from step to step; in the first the ROM derives the
device's two keys into its key store, behind the sixth of a fabric reset the DRAM ports begin to train, and the last step sets READY by what has been found. A
step that takes longer than its worst case fails bring-up, but the time of step 3 stops in reef mode. Records are taken in their step, and the broadcast of the core firmware
repeats what a target lacks until every target has it. -/
def Sys2Proof.Claims.BringUp : Prop :=
  ∀ (s : State) (f : BootFinding) (v : Fin 213) (id : BitVec 64) (bc : BitVec 50) (be : BitVec 4) (c : CoreIx) (n : Fin 16385),
    (s.ready = 0 → s.supply.down = none → s.broadcasting = false →
      (s.boot.step = 0 → ∃ t, exec (.bringUp f) s = .next t
        ∧ t.boot = { s.boot with step := 1, startedAt := s.now, stepAt := s.now } ∧ { t with boot := s.boot } = s)
      ∧ (s.boot.step = 1 → s.boot.level < 2 → ∃ t, exec (.bringUp f) s = .next t
        ∧ t.boot = { s.boot with step := 2, stepAt := s.now }
        ∧ t.sec = { s.sec with keyStore := some ⟨hkdf384 (leBytes 32 s.rom.deviceSecret) "KCP-192 identity",
            hkdf384 (leBytes 32 s.rom.deviceSecret) "KCP-192 lms"⟩ }
        ∧ { t with boot := s.boot, sec := s.sec } = s)
      ∧ (s.boot.step = 8 → s.boot.level < 2 → ∃ t, exec (.bringUp f) s = .next t
        ∧ t.boot = { s.boot with step := 9 } ∧ { t with boot := s.boot } = s)
      ∧ (s.boot.step = 12 → s.boot.level < 2 → ∃ t, exec (.bringUp f) s = .next t ∧ t.ready = s.readiness
        ∧ t.mesh.closed = false ∧ t.gen.nodeSeq = s.gen.commitSeq ∧ (s.readiness ≤ 3 → t.boot.wasReady = true)
        ∧ ((s.readiness = 1 ∨ s.readiness = 2) → t.fld unitBar rHOST_MEM_CTRL 1 1 = 1
            ∧ ∀ p, p ∈ s.mappedCores → t.fld (unitCore p) rCORE_CTRL 1 1 = 1))
      ∧ (s.boot.step = 6 → s.boot.level = 2 → ∃ t, exec (.bringUp Claims.noFinding) s = .next t ∧ t.boot.step = 7
        ∧ (∀ p i, t.slot p i = Slot.reset) ∧ t.gen = s.gen
        ∧ (∀ v p, v < 204 → p < 8 → (Claims.portAt s v p).retired = false → (Claims.portAt t v p).training = true)
        ∧ ∀ v x, Claims.dbyte t v x = Claims.dbyte s v x))
    ∧ (s.boot.step = 3 → s.boot.level < 2 → s.ready = 0 → s.reef = true →
        exec .bootStepTimeout s = .next s ∧ exec (.bringUp f) s = .next s)
    ∧ (s.boot.step ≠ 0 → s.boot.level < 2 → s.ready = 0 → (s.boot.step = 3 → s.reef = false) → ∃ t, exec .bootStepTimeout s = .next t
        ∧ t.now = Nat.max s.now (s.boot.stepAt + stepMs s.boot.step * 2100000) ∧ t.ready = 5)
    ∧ (s.boot.step = (if s.boot.level = 2 then 4 else 5) → s.ready = 0 → s.runs v.val = true → ∃ t, exec (.identityRecord v id bc be) s = .next t
        ∧ SMap.get none t.boot.records v.val = some { dieId := id.toNat, badCores := bc, badExits := be }
        ∧ (∀ w, w ≠ v.val → SMap.get none t.boot.records w = SMap.get none s.boot.records w)
        ∧ { t with boot := { t.boot with records := s.boot.records } } = s)
    ∧ (s.broadcasting = true → s.ready = 0 →
      (∃ t, exec (.broadcastCollection []) s = .next t ∧ t = { s with boot := { s.boot with collected := true } })
      ∧ (s.isTarget c.val = true → n.val ≠ 0 → SMap.get 0 s.boot.fails c.val ≠ 2 →
        ∃ t, exec (.broadcastCollection [(c, n, true)]) s = .next t ∧ t.boot.collected = s.boot.collected
          ∧ SMap.get 0 t.boot.fails c.val = SMap.get 0 s.boot.fails c.val + 1 ∧ t.boot.resent = s.boot.resent + n.val
          ∧ t.boot.rounds = s.boot.rounds + 1 ∧ t.fld unitMgmt rCFG_FW_STAT 16 8 = Nat.min 2 (s.boot.rounds + 1))
      ∧ (s.isTarget c.val = true → n.val ≠ 0 → SMap.get 0 s.boot.fails c.val = 2 → (s.failedAt (c.val / 50)).length < 2 →
        ∃ t, exec (.broadcastCollection [(c, n, true)]) s = .next t ∧ c.val ∈ t.boot.badCores
          ∧ t.boot.fwRetired = s.boot.fwRetired + 1))

/-- Resets and bring-up (R58, R105, R351, R416, R417, R420–R430). -/
def Obligations.ResetsAndBringUp : Prop := Claims.Resets ∧ Claims.BringUp

namespace Sys2Proof.Claims

open Sys2Proof.Machine

/-- The next step of a running entry of the arbiter at a site may begin (R446, R447). -/
def MayStep (s : State) (code site : Nat) (e : MaintEntry) : Prop :=
  s.runningEntry code (fun e => e.site == site && !e.inStep) = some e

/-- An entry of the arbiter has ended and says so (R447). -/
def EntryEnded (s t : State) (e : MaintEntry) : Prop :=
  t.maint.entries = s.maint.entries.filter (fun x => x.handle != e.handle)

/-- Every entry with the handle of `e` has a property in `t`. -/
def EntryIs (t : State) (e : MaintEntry) (f : MaintEntry → Prop) : Prop :=
  ∀ x, x ∈ t.maint.entries → x.handle = e.handle → f x

/-- Core `p` alone is named lost by the notice that hub `h` has next for the root (R226, R438). -/
def LossReported (s : State) (h p : Nat) : Prop :=
  s.halParent h = some halRoot ∧ (s.hub h).up.next true = some (.lost [p]) ∧ p ∉ s.boot.badCores ∧ s.coreDown p = false
    ∧ s.maint.injection = none

/-- The range that entry `r` of RELOAD copies: its bytes in the slot of the committed sequence, its place and its lines (R441). -/
def reloadFrom (s : State) (r : Reload) : Nat :=
  leAt (s.active.item 11 r.entry) 16 8 % 2 ^ 34
    + s.gen.commitSeq.toNat % max 1 (field (leAt (s.active.item 11 r.entry) 2 1) 0 2) * leAt (s.active.item 11 r.entry) 12 4
def reloadPlace (s : State) (r : Reload) : Nat := leAt (s.active.item 11 r.entry) 4 4
def reloadLength (s : State) (r : Reload) : Nat := leAt (s.active.item 11 r.entry) 8 4 / 64 * 64

/-- Pliwick restarts from a cycle: commands pause and events wait (R458). -/
def Restarting (s t : State) (from_ : Nat) : Prop :=
  t.maint.restartUntil = some (from_ + 420000000) ∧ t.paused = true
    ∧ ∃ e, t.events.stopped = s.events.stopped ++ [e] ∧ e.code = 0xBD

/-- The oldest tick meets conditions 1 to 4 of R247 and waits for the digest of the reference (R455). -/
def AwaitsDigest (s : State) (x : TickRun) : Prop :=
  s.oldest = some x ∧ s.maint.basteAttached = true ∧ s.tickMet x = true ∧ x.digest = false

end Sys2Proof.Claims

/-- R233, R438, R439, R442: a die whose heartbeat is late is lost; a core that is lost is reset at its first loss within the hour and
retires at the second, or when its heartbeat does not resume 100 µs after the reset. -/
def Sys2Proof.Claims.Losses : Prop :=
  ∀ (s : State) (h : Fin 214) (c : CoreIx) (d : Nat),
    (h.val < 204 → h.val ∉ s.boot.badSites → ∃ t, exec (.dieHbTimeout h) s = .next t ∧ Claims.DieIsLost t h.val
        ∧ t.now = Nat.max s.now (SMap.get 0 s.gen.hbSeen h.val + 5250))
    ∧ (204 ≤ h.val → h.val < 213 → (h.val - 204) ∉ s.boot.badEdges → ∃ t, exec (.dieHbTimeout h) s = .next t
        ∧ (h.val - 204) ∈ t.boot.badEdges ∧ t.now = Nat.max s.now (SMap.get 0 s.gen.hbSeen h.val + 5250))
    ∧ (Claims.LossReported s h.val c.val →
      (s.recentLosses ((s.gid c.val).getD 0x3FFF) = 0 → ∃ t, exec (.lostNotice h) s = .next t
        ∧ (c.val, s.now + 210000) ∈ t.maint.resuming ∧ t.boot.badCores = s.boot.badCores
        ∧ (t.core c.val).resetAt = s.now ∧ (∀ i, i < 8 → (t.slot c.val i).mode = .free)
        ∧ t.fld unitMgmt rMNT_FAULT_COUNT 0 16 = Nat.min 65535 (s.fld unitMgmt rMNT_FAULT_COUNT 0 16 + 1))
      ∧ (1 ≤ s.recentLosses ((s.gid c.val).getD 0x3FFF) → ∃ t, exec (.lostNotice h) s = .next t
        ∧ c.val ∈ t.boot.badCores))
    ∧ (s.maint.resuming.find? (fun e => e.1 == c.val) = some (c.val, d) →
      (d < (s.core c.val).node.hbAt + 210000 → ∃ t, exec (.heartbeatResumeTimeout c) s = .next t
        ∧ t.now = Nat.max s.now d ∧ t.maint = { s.maint with resuming := s.maint.resuming.filter (fun x => x.1 != c.val) }
        ∧ { t with maint := s.maint, now := s.now } = s)
      ∧ ((s.core c.val).node.hbAt + 210000 ≤ d → ∃ t, exec (.heartbeatResumeTimeout c) s = .next t
        ∧ t.now = Nat.max s.now d ∧ c.val ∈ t.boot.badCores ∧ ∀ x, x ∈ t.maint.resuming → x.1 ≠ c.val))

/-- R441: the ranges of a core are copied from the slot of the committed sequence into its scratchpad, once no tack is pending and its
cancelled tasks have ended; when all have been copied the core launches again, and after a bad line ticking halts. -/
def Sys2Proof.Claims.Reloads : Prop :=
  ∀ (s : State) (core : Fin 9216) (r : Reload) (p site : Nat),
    (s.maint.reloads.find? (fun r => r.core == core.val && !r.copied) = some r → s.physOf core.val = some p →
      s.active.site (core.val / 48) = some site → s.cfg.pending = false → (∀ i, i < 8 → (s.slot p i).mode ≠ .ending) →
      Claims.PortsFree s site → Claims.reloadFrom s r % 64 = 0 →
      (∀ k, k < Claims.reloadLength s r → (s.dram site).isRetired ((Claims.reloadFrom s r + k) / 64 * 64) = false
        ∧ (s.dram site).isPoisoned ((Claims.reloadFrom s r + k) / 64 * 64) = false) →
      ∃ t, exec (.reload core []) s = .next t
        ∧ Claims.BytesWritten s t p (Claims.reloadPlace s r)
            ((List.range (Claims.reloadLength s r)).map (fun k => Claims.dbyte s site (Claims.reloadFrom s r + k)))
        ∧ (∀ x, x ∈ t.maint.reloads → x.core = core.val → x.entry = r.entry → x.copied = true ∧ x.bad = false)
        ∧ Claims.DramWritten s t site 0 [])
    ∧ ((∃ r, r ∈ s.maint.reloads ∧ r.core = core.val) → (∀ r, r ∈ s.maint.reloads → r.core = core.val → r.copied = true) →
      ((∀ r, r ∈ s.maint.reloads → r.core = core.val → r.bad = false) → ∃ t, exec (.reloadComplete core) s = .next t
        ∧ t.maint = { s.maint with reloads := s.maint.reloads.filter (fun r => r.core != core.val) }
        ∧ { t with maint := s.maint } = s)
      ∧ ((∃ r, r ∈ s.maint.reloads ∧ r.core = core.val ∧ r.bad = true) → ∃ t, exec (.reloadComplete core) s = .next t
        ∧ t.gen.gstate = .halted ∧ t.gen.run = false ∧ Claims.OneEvent s t ∧ t.events.severeCode = 0x32
        ∧ t.maint.reloads = s.maint.reloads.filter (fun r => r.core != core.val)))

/-- R446–R451: an entry whose resource has left service ends, and else the first one that may start runs; a live update pauses the
commands, and a rehearsal is counted and in flight. A seam link, a DRAM port, a phase, a contact and a spare are worked on one step at a
time; what fails retires. -/
def Sys2Proof.Claims.Activities : Prop :=
  ∀ (s : State) (site : Fin 204) (e : MaintEntry) (x p : Nat) (est mv cur : BitVec 16) (handle : BitVec 16) (port : Fin 8),
    (s.maint.entries.find? s.entryLost = some e → e.code ≠ 10 → ∃ t, exec .arbiterAdmission s = .next t
        ∧ Claims.EntryEnded s t e ∧ Claims.OneEvent s t)
    ∧ (s.maint.entries.find? s.entryLost = none → s.maint.entries.find? s.admissible = some e →
      ∃ t, exec .arbiterAdmission s = .next t ∧ Claims.EntryIs t e (fun y => y.running = true)
        ∧ (e.code = 11 → t.paused = true ∧ t.maint.update = some (e.arg, s.now, e.command))
        ∧ (e.code = 10 → t.maint.injections = s.maint.injections + 1
            ∧ t.maint.injection = some { kind := e.arg, target := e.target, number := s.maint.injections + 1 }))
    ∧ (Claims.MayStep s 1 site.val e → e.seam = some x →
        (linkAt site.val x ∉ s.mesh.fenced → linkAt site.val x ∉ s.mesh.training → s.slack site.val = true →
          (∀ w, beyond site.val x = some w → w < 204 → s.slack w = true) → ∃ t, exec (.seamRetrainActivity site) s = .next t
            ∧ linkAt site.val x ∈ t.mesh.training ∧ Claims.EntryIs t e (fun y => y.inStep = true))
        ∧ (linkAt site.val x ∈ s.mesh.fenced → e.stopping = false → e.progress + 1 < e.seams.length →
          ∃ t, exec (.seamRetrainActivity site) s = .next t ∧ t.mesh = s.mesh
            ∧ Claims.EntryIs t e (fun y => y.inStep = false)))
    ∧ (Claims.MayStep s 3 site.val e → p = e.dramPort → ((s.dram site.val).port p).retired = false → s.slack site.val = true →
        ∃ t, exec (.dramRetrain site) s = .next t ∧ ((t.dram site.val).port p).training = true
          ∧ ((t.dram site.val).port p).trainBy = some (s.now + 10500) ∧ Claims.EntryIs t e (fun y => y.inStep = true))
    ∧ (((s.dram site.val).port port.val).training = true →
        (∃ t, exec (.dramRetrainingComplete site port true) s = .next t
          ∧ ((t.dram site.val).port port.val).training = false ∧ ((t.dram site.val).port port.val).trainBy = none
          ∧ t.maint.dramFails = s.maint.dramFails)
        ∧ ((∀ y, y ∈ s.maint.dramFails → y.1 = (site.val, port.val) → y.2 + 24 * hourCycles < s.now) →
          ∃ t, exec (.dramRetrainingComplete site port false) s = .next t
            ∧ ((t.dram site.val).port port.val).training = false
            ∧ ((t.dram site.val).port port.val).retired = ((s.dram site.val).port port.val).retired
            ∧ t.maint.dramFails = s.maint.dramFails ++ [((site.val, port.val), s.now)])
        ∧ ((∃ y, y ∈ s.maint.dramFails ∧ y.1 = (site.val, port.val) ∧ s.now ≤ y.2 + 24 * hourCycles) →
          ∃ t, exec (.dramRetrainingComplete site port false) s = .next t
            ∧ ((t.dram site.val).port port.val).retired = true))
    ∧ (s.runningEntry 4 (fun e => e.handle == handle.toNat) = some e → ∃ t, exec (.scrub handle) s = .next t
        ∧ Claims.EntryEnded s t e ∧ Claims.OneEvent s t)
    ∧ (s.runningEntry 7 (fun e => e.site == site.val) = some e → e.stopping = false →
        e.progress < (if e.unit = 0xFF then 49 else 4) → s.slack site.val = true →
        ∃ t, exec (.phaseTest site true) s = .next t ∧ t.now = s.now + 21000
          ∧ Claims.EntryIs t e (fun y => ∃ z, z ∈ s.maint.entries ∧ y.progress = z.progress + 1)
          ∧ { t with maint := s.maint, now := s.now } = s)
    ∧ (s.runningEntry 8 (fun e => e.site == site.val) = some e → s.slack site.val = true →
        ∃ t, exec (.contactCheck site est mv cur) s = .next t ∧ Claims.EntryEnded s t e
          ∧ t.fld (unitDie site.val) rPWR_CONTACT 16 16 = est.toNat)
    ∧ (s.runningEntry 9 (fun e => e.site == site.val) = some e →
        (e.unit < 50 → s.slack site.val = true →
          (e.stopping = false → e.progress < 18 → ∃ t, exec (.spareBist site true) s = .next t
            ∧ Claims.EntryIs t e (fun y => ∃ z, z ∈ s.maint.entries ∧ y.progress = z.progress + 1)
            ∧ { t with maint := s.maint } = s)
          ∧ (∃ t, exec (.spareBist site false) s = .next t ∧ (50 * site.val + e.unit) ∈ t.boot.badCores
            ∧ Claims.EntryEnded s t e))
        ∧ (e.unit = 0xFF → site.val ∉ s.boot.badSites → ∃ t, exec (.spareBist site false) s = .next t
            ∧ Claims.DieIsLost t site.val ∧ Claims.EntryEnded s t e))

/-- R458: without service for 500 ms, or after an uncorrectable error of its memory, Pliwick restarts: commands pause and events wait,
for 200 ms at most; then they resume. -/
def Sys2Proof.Claims.Restarts : Prop :=
  ∀ (s : State),
    (s.maint.restartUntil = none →
      (∃ t, exec .watchdogExpiry s = .next t ∧ t.now = Nat.max s.now 1050000000 ∧ Claims.Restarting s t t.now)
      ∧ (∃ t, exec .managementMemoryUncorrectable s = .next t ∧ t.now = s.now ∧ Claims.Restarting s t s.now))
    ∧ (s.maint.restartUntil ≠ none → ∃ t, exec .pliwickRestartComplete s = .next t ∧ t.maint.restartUntil = none
        ∧ t.events.stopped = [] ∧ (s.maint.update = none → t.paused = false))

/-- R455–R457: a digest of the reference that agrees counts, and one that does not, or that has not come after 50 µs, ends basting.
The reference's digest goes into the digest region and is posted on context 4,095. -/
def Sys2Proof.Claims.Digests : Prop :=
  (∀ (s : State) (digest : BitVec 64) (x : TickRun), Claims.AwaitsDigest s x →
    (digest.toNat = SMap.get 0 s.maint.digest (x.tick % 2) → ∃ t, exec (.basteDigest digest) s = .next t
      ∧ t.maint.basteAttached = true ∧ (∀ y, y ∈ t.gen.ticks → y.tick = x.tick → y.digest = true)
      ∧ t.fld unitMgmt rMNT_BASTE_STAT 32 32 = Nat.min (2 ^ 32 - 1) (s.fld unitMgmt rMNT_BASTE_STAT 32 32 + 1)
      ∧ (s.reg unitMgmt rMNT_BASTE_REQ ≤ s.fld unitMgmt rMNT_BASTE_STAT 32 32 → t.maint.basteReady = true))
    ∧ (digest.toNat ≠ SMap.get 0 s.maint.digest (x.tick % 2) → ∃ t, exec (.basteDigest digest) s = .next t
      ∧ t.maint.basteAttached = false ∧ t.maint.basteReady = false ∧ t.fld unitMgmt rMNT_BASTE_STAT 0 4 = 4
      ∧ t.maint.suppressed = s.maint.suppressed)
    ∧ (∃ t, exec .basteDigestTimeout s = .next t ∧ t.now = Nat.max s.now (x.metAt.getD s.now + 105000)
      ∧ t.maint.basteAttached = false ∧ t.fld unitMgmt rMNT_BASTE_STAT 0 4 = 8
      ∧ t.maint.suppressed = s.maint.suppressed))
  ∧ (∀ (s : State) (tick site off : Nat), s.active.site 0 = some site → (s.reg unitMgmt rMNT_BASTE_CFG).testBit 0 = true →
      s.ctxMode 4095 = 1 → (s.ctx 4095).st = 1 → off = digestBase + 64 * (tick % 64) → (s.dram site).isRetired off = false →
      (∀ k, k < 8 → Claims.dbyte (s.postDigest tick) site (off + k) =
          (leBytes 8 (SMap.get 0 s.maint.digest (tick % 2))).getD k 0)
      ∧ ∃ p, p ∈ ((s.postDigest tick).ctx 4095).posts ∧ p.number = (s.ctx 4095).nextNumber ∧ p.length = 64 ∧ p.src = off)

/-- Losses and reloads (R233, R438–R442). -/
def Obligations.LossesAndReloads : Prop := Claims.Losses ∧ Claims.Reloads

/-- The maintenance activities, restarts and basting (R446–R458). -/
def Obligations.MaintenanceAndBasting : Prop := Claims.Activities ∧ Claims.Restarts ∧ Claims.Digests

namespace Sys2Proof.Claims

open Sys2Proof.Machine

/-- The registers of holder `u` that hold the values of `l` after a reset. -/
def HoldsAtReset (u : Nat) (l : List (Nat × Nat)) : Prop := ∀ e, e ∈ l → State.reset.reg u e.1 = e.2

/-- The element registers from `off` on, `step` apart, that hold `v` after a reset. -/
def FileAtReset (u off step n v : Nat) : Prop := ∀ i, i < n → State.reset.reg u (off + step * i) = v

/-- The first word of an instruction of format R: OP, RD, RA, RB and FN (R60). -/
def wordR (op fn : Nat) (rd ra rb : Reg) : Nat := op + 64 * rd.val + 2048 * ra.val + 65536 * rb.val + 2097152 * fn

/-- The first word of format I, S or B: OP, two registers and 16 bits (R60). -/
def wordI (op : Nat) (r1 r2 : Reg) (imm : BitVec 16) : Nat := op + 64 * r1.val + 2048 * r2.val + 65536 * imm.toNat

/-- The OP and FN of every instruction of format R whose FN selects it (R64, R72). -/
def wordsR (a : At) (x y z : Reg) : List (Nat × Nat × Instr) :=
  [(1, 0, .add a x y z), (1, 1, .sub a x y z), (1, 2, .and a x y z), (1, 3, .or a x y z), (1, 4, .xor a x y z), (1, 5, .andn a x y z),
   (1, 6, .sll a x y z), (1, 7, .srl a x y z), (1, 8, .sra a x y z), (1, 9, .ror a x y z), (1, 10, .slt a x y z), (1, 11, .sltu a x y z),
   (1, 12, .min a x y z), (1, 13, .max a x y z), (1, 14, .minu a x y z), (1, 15, .maxu a x y z), (1, 16, .mul a x y z),
   (1, 17, .mulhs a x y z), (1, 18, .mulhu a x y z), (1, 19, .adds a x y z), (1, 20, .subs a x y z), (1, 21, .divu a x y z),
   (1, 22, .divs a x y z), (1, 23, .remu a x y z), (1, 24, .rems a x y z), (1, 32, .clz a x y z), (1, 33, .ctz a x y z),
   (1, 34, .popc a x y z), (1, 35, .sextb a x y z), (1, 36, .sexth a x y z), (1, 37, .sextw a x y z), (1, 38, .zextw a x y z),
   (0x24, 0, .amoadd a x y z), (0x24, 1, .amoswap a x y z), (0x24, 2, .amocas a x y z), (0x24, 3, .amoor a x y z),
   (0x24, 4, .amoand a x y z)]

/-- The OP of every instruction with 16 bits of immediate or offset (R63). -/
def wordsI (a : At) (x y : Reg) (m : BitVec 16) : List (Nat × Instr) :=
  [(0x02, .addi a x y m), (0x03, .andi a x y m), (0x04, .ori a x y m), (0x05, .xori a x y m), (0x06, .slti a x y m), (0x07, .sltiu a x y m),
   (0x08, .shi a x y m), (0x09, .lui a x y m), (0x0A, .lhi a x y m), (0x10, .beq a x y m), (0x11, .bne a x y m), (0x12, .blt a x y m),
   (0x13, .bge a x y m), (0x14, .bltu a x y m), (0x15, .bgeu a x y m), (0x17, .jalr a x y m), (0x18, .lb a x y m), (0x19, .lbu a x y m),
   (0x1A, .lh a x y m), (0x1B, .lhu a x y m), (0x1C, .lw a x y m), (0x1D, .lwu a x y m), (0x1E, .ld a x y m), (0x20, .sb a x y m),
   (0x21, .sh a x y m), (0x22, .sw a x y m), (0x23, .sd a x y m), (0x26, .take a x y m), (0x27, .put a x y m), (0x28, .mxi a x y m),
   (0x29, .vxi a x y m), (0x2A, .dxi a x y m), (0x2C, .wopen a x y m), (0x30, .waitt a x y m), (0x31, .waitm a x y m),
   (0x32, .waitp a x y m), (0x33, .waitc a x y m), (0x34, .bar a x y m), (0x36, .hrecv a x y m), (0x38, .tend a x y m),
   (0x39, .yield a x y m), (0x3A, .raise a x y m), (0x3B, .rdpar a x y m), (0x3C, .rdsys a x y m), (0x3D, .clrflg a x y m)]

/-- The OP of every instruction of format R that keeps FN reserved (R63, R79, R80). -/
def wordsF (a : At) (x y z : Reg) (fn : BitVec 11) : List (Nat × Instr) :=
  [(0x2D, .wclose a x y z fn), (0x2E, .wstat a x y z fn), (0x35, .hsend a x y z fn)]

/-- The reserved values of OP (R63). -/
def reservedOps : List Nat := [0x00, 0x0B, 0x0C, 0x0D, 0x0E, 0x0F, 0x1F, 0x25, 0x2B, 0x2F, 0x37, 0x3F]

/-- R60, R63, R64, R72: what every word spells, at every value of its fields; a word with a reserved OP, or with a reserved FN of the
integer or the atomic class, spells nothing. -/
def WordsSpell : Prop :=
  ∀ (a : At) (x y z : Reg) (m : BitVec 16) (f : BitVec 11) (o : BitVec 21) (l : BitVec 48) (w w1 : Nat),
    (∀ e ∈ wordsR a x y z, decodeWord a (wordR e.1 e.2.1 x y z) w1 = some e.2.2)
    ∧ (∀ e ∈ wordsI a x y m, decodeWord a (wordI e.1 x y m) w1 = some e.2)
    ∧ (∀ e ∈ wordsF a x y z f, decodeWord a (wordR e.1 f.toNat x y z) w1 = some e.2)
    ∧ decodeWord a (0x16 + 64 * x.val + 2048 * o.toNat) w1 = some (.jal a x o)
    ∧ decodeWord a (0x3E + 64 * x.val + 2048 * y.val + 65536 * (l.toNat / 2 ^ 32)) (l.toNat % 2 ^ 32) = some (.addix a x y l)
    ∧ (w % 64 ∈ reservedOps → decodeWord a w w1 = none)
    ∧ (∀ op fn, (op = 1 ∨ op = 0x24) → (∀ e ∈ wordsR a x y z, ¬ (e.1 = op ∧ e.2.1 = fn)) → decodeWord a (wordR op fn x y z) w1 = none)

end Sys2Proof.Claims

open Sys2Proof.Machine

/-- The command at the front of the queue acts, on the panel with the rest of the queue; on an empty queue a fabric cycle passes,
which is the model's choice (log 2): a core issues what the word at its program counter spells, or faults with
ILLEGAL_INSTRUCTION where the word spells nothing, and the time goes on by one. The table gives its rows no bits, so a word of it
spells no command, and putting one there changes nothing (log 10). What the words of the task processor spell is R60, R63, R64 and
R72. -/
def Obligations.StepRunsTheFrontCommand : Prop :=
  (∀ (c : Instr) (cs : List Instr) (s : State), s.pending = c :: cs → step s = exec c { s with pending := cs })
    ∧ (∀ s : State, s.pending = [] → s.vorrad.held = [] → (∀ p, s.issuer p = none) → step s = .next { s with now := s.now + 1 })
    ∧ (∀ (s t : State) (p : CoreIx) (i : Fin 8), s.pending = [] → s.cores.map (·.1) = [p.val] → s.issuer p.val = some i →
        (∀ c, decodeWord ⟨p, i⟩ ((s.core p.val).wordOf (s.slot p.val i.val)) ((s.core p.val).secondWord (s.slot p.val i.val)) = some c →
          exec c s = .next t → t.vorrad.held = [] → step s = .next { t with now := t.now + 1 })
        ∧ (decodeWord ⟨p, i⟩ ((s.core p.val).wordOf (s.slot p.val i.val)) ((s.core p.val).secondWord (s.slot p.val i.val)) = none →
          s.vorrad.held = [] → Claims.Fires s ⟨p, i⟩ 4 →
          ∃ u, step s = .next { u with now := u.now + 1 } ∧ Claims.Faulted s u ⟨p, i⟩ 1 (Claims.own s ⟨p, i⟩).pc
            ((s.core p.val).wordOf (s.slot p.val i.val))))
    ∧ (∀ (s : State) (n w : Nat), decodeTableWord n w = none ∧ s.withFetchWord n w = s)
    ∧ Claims.WordsSpell

/-- Every well-formed command goes on in every state; only a flit, a submission entry or a line of the wrong length stops (log 3). -/
def Obligations.WellFormedCommandsGoOn : Prop :=
  ∀ (c : Instr) (s : State),
    (c.wf = true → ∃ t, exec c s = .next t) ∧ (c.wf = false → ∃ w, exec c s = .fault (.illFormed w))

/-- What is kept outside the commands' reach: a step takes the command it runs from the queue and no other, and leaves the fuses as
they are. -/
def Obligations.QueueAndFusesAreKept : Prop :=
  ∀ s t : State, step s = .next t → t.pending = s.pending.tail ∧ t.rom = s.rom

/-- Every step keeps the canonical form of host memory, of every scratchpad and of every DRAM stack. -/
def Obligations.MemoriesStayCanonical : Prop :=
  ∀ s t : State, s.memoriesCanonical = true → step s = .next t → t.memoriesCanonical = true

/-- After a reset the memories are in canonical form, and every byte of them reads zero (log 4). -/
def Obligations.ResetMemories : Prop :=
  State.reset.memoriesCanonical = true
    ∧ (∀ a, SMap.get 0 State.reset.hostMem a = 0)
    ∧ (∀ p o, SMap.get 0 (State.reset.core p).spad.bytes o = 0)
    ∧ ∀ site o, SMap.get 0 (State.reset.dram site).bytes o = 0

/-- The machine after a reset: nothing waits, no tick runs, every slot of every core is FREE, and the registers of each space hold the
values that their tables give (R57, R116, R160, R180, R196, R220, R221, R236, R265, R330, R332, R355, R376, R399, R400, R414, R415,
R461, R492). -/
def Obligations.ResetState : Prop :=
  State.reset.pending = [] ∧ State.reset.gen.gstate = .stopped ∧ State.reset.gen.commitSeq = 0 ∧ State.reset.ready = 0
    ∧ (∀ p i, (State.reset.slot p i).mode = .free)
    ∧ (∀ p, p < 10200 → Claims.HoldsAtReset (unitCore p)
        [(rCORE_CTRL, 0xFF00), (rCORE_FAMILY, 0x1024B), (rCORE_SLOTS, 0x10201008), (rCORE_SPAD_SIZE, 0x100000),
         (rCORE_SPAD_GEOM, 0x90806401010), (rCORE_MXU_PARAM, 0xFF0A200820), (rCORE_VEC_PARAM, 0xFF080E041008),
         (rCORE_ICACHE, 0x40040F), (rCORE_PANEL, 0x1000003000C0), (rCORE_CLOCK, 0x41A0834), (rSPAD_CTRL, 0xFFFF0001),
         (rSPAD_BANK_STATUS, 0xFFFF), (rSPAD_CREDIT_TTL, 20), (rMXU_THROTTLE, 64), (rVEC_THROTTLE, 64),
         (rMESH_THROTTLE_CFG, 0x803C2818), (rCORE_STATUS, 0), (rCORE_FAULT_COUNT, 0)])
    ∧ (∀ v, v < 204 → Claims.HoldsAtReset (unitDie v)
        [(rCFG_SPARE_CORE, 0x3F1B3F16), (rDRAM_CTRL, 3), (rDRAM_ARB_WEIGHT, 0x12412), (rMESH_DIE_CFG, 0x428080), (rMESH_TREE, 0x70000),
         (rMESH_SEAM_STATUS, 0x3333), (rHAL_TREE, 7), (rHAL_CLASS0, 0xA0), (rPWR_REGION_CTRL, 0x80000000)]
      ∧ Claims.FileAtReset (unitDie v) rMESH_ROUTE 4 202 0x777 ∧ Claims.FileAtReset (unitDie v) rCLK_SEAM 4 4 3)
    ∧ (∀ e, e < 8 → Claims.HoldsAtReset (unitEdge e) [(rVLNK_CTRL, 1)])
    ∧ Claims.HoldsAtReset unitMgmt
        [(rTICK_SCHED_LEN, 1), (rTICK_TIMING, 0x190014), (rVLNK_SYS_TIMING, 0x3E80050), (rPWR_CAP, 0x708), (rPWR_HOST_CAP, 0x708),
         (rPWR_REEF_CFG, 0x2AF8), (rCLK_PLAN_CTRL, 0x2D00002), (rMNT_REHEARSE_CFG, 10), (rTEL_CTRL, 0x640001), (rTEL_MCTP, 0xB0032)]
    ∧ Claims.FileAtReset unitMgmt rTICK_SCHED 8 64 1000 ∧ Claims.FileAtReset unitMgmt rPWR_GROUP 8 220 60
    ∧ Claims.HoldsAtReset unitBar
        [(rHOST_COMMIT_NOTIFY, 0x100000000), (rHOST_EXPORT_CFG, 0x10), (rHOST_PWIN_BASE, 0x300000000000), (rHOST_DEVICE_FEATURES, 0x3FFF)]
    ∧ Claims.FileAtReset unitBar rHOST_Q_CFG 32 64 0x10000000
end

