-- ==== Sys2Proof/Laws/Decode.lean ====
section
/-!
SUPPORT. The fields that a word is made of are the fields that decoding reads.
-/
namespace Sys2Proof

/-- A word laid out as OP, three registers and FN decodes from just these fields, in every format (R60). -/
theorem decodeWord_fields (a : At) (op fn : Nat) (x y z : Reg) (w1 : Nat) (ho : op < 64) :
    decodeWord a (op + 64 * x.val + 2048 * y.val + 65536 * z.val + 2097152 * fn) w1
      = decodeFields a op fn x y z (BitVec.ofNat 16 (z.val + 32 * fn)) (BitVec.ofNat 11 fn) (BitVec.ofNat 21 (y.val + 32 * z.val + 1024 * fn))
          (BitVec.ofNat 48 ((z.val + 32 * fn) * 4294967296 + w1)) := by
  have hx := x.isLt
  have hy := y.isLt
  have hz := z.isLt
  have h1 : (op + 64 * x.val + 2048 * y.val + 65536 * z.val + 2097152 * fn) % 64 = op := by omega
  have h2 : (op + 64 * x.val + 2048 * y.val + 65536 * z.val + 2097152 * fn) / 64 % 32 = x.val := by omega
  have h3 : (op + 64 * x.val + 2048 * y.val + 65536 * z.val + 2097152 * fn) / 2048 % 32 = y.val := by omega
  have h4 : (op + 64 * x.val + 2048 * y.val + 65536 * z.val + 2097152 * fn) / 65536 % 32 = z.val := by omega
  have h5 : (op + 64 * x.val + 2048 * y.val + 65536 * z.val + 2097152 * fn) / 2097152 = fn := by omega
  have h6 : (op + 64 * x.val + 2048 * y.val + 65536 * z.val + 2097152 * fn) / 65536 = z.val + 32 * fn := by omega
  have h7 : (op + 64 * x.val + 2048 * y.val + 65536 * z.val + 2097152 * fn) / 2048 = y.val + 32 * z.val + 1024 * fn := by omega
  unfold decodeWord
  rw [show (⟨_, Nat.mod_lt _ (by decide)⟩ : Reg) = x from Fin.ext h2, show (⟨_, Nat.mod_lt _ (by decide)⟩ : Reg) = y from Fin.ext h3,
    show (⟨_, Nat.mod_lt _ (by decide)⟩ : Reg) = z from Fin.ext h4, h1, h5, h6, h7]

end Sys2Proof
end

