-- ==== Sys2Proof/Laws/Dispatch.lean ====
section
/-!
SUPPORT. The dispatch arm by arm: the meaning that each command runs.
-/
namespace Sys2Proof.Machine

variable (s : State)

@[simp] theorem exec_add (a : At) (rd ra rb : Reg) : exec (.add a rd ra rb) s = execAdd a rd ra rb s := rfl
@[simp] theorem exec_sub (a : At) (rd ra rb : Reg) : exec (.sub a rd ra rb) s = execSub a rd ra rb s := rfl
@[simp] theorem exec_and (a : At) (rd ra rb : Reg) : exec (.and a rd ra rb) s = execAnd a rd ra rb s := rfl
@[simp] theorem exec_or (a : At) (rd ra rb : Reg) : exec (.or a rd ra rb) s = execOr a rd ra rb s := rfl
@[simp] theorem exec_xor (a : At) (rd ra rb : Reg) : exec (.xor a rd ra rb) s = execXor a rd ra rb s := rfl
@[simp] theorem exec_andn (a : At) (rd ra rb : Reg) : exec (.andn a rd ra rb) s = execAndn a rd ra rb s := rfl
@[simp] theorem exec_sll (a : At) (rd ra rb : Reg) : exec (.sll a rd ra rb) s = execSll a rd ra rb s := rfl
@[simp] theorem exec_srl (a : At) (rd ra rb : Reg) : exec (.srl a rd ra rb) s = execSrl a rd ra rb s := rfl
@[simp] theorem exec_sra (a : At) (rd ra rb : Reg) : exec (.sra a rd ra rb) s = execSra a rd ra rb s := rfl
@[simp] theorem exec_ror (a : At) (rd ra rb : Reg) : exec (.ror a rd ra rb) s = execRor a rd ra rb s := rfl
@[simp] theorem exec_slt (a : At) (rd ra rb : Reg) : exec (.slt a rd ra rb) s = execSlt a rd ra rb s := rfl
@[simp] theorem exec_sltu (a : At) (rd ra rb : Reg) : exec (.sltu a rd ra rb) s = execSltu a rd ra rb s := rfl
@[simp] theorem exec_min (a : At) (rd ra rb : Reg) : exec (.min a rd ra rb) s = execMin a rd ra rb s := rfl
@[simp] theorem exec_max (a : At) (rd ra rb : Reg) : exec (.max a rd ra rb) s = execMax a rd ra rb s := rfl
@[simp] theorem exec_minu (a : At) (rd ra rb : Reg) : exec (.minu a rd ra rb) s = execMinu a rd ra rb s := rfl
@[simp] theorem exec_maxu (a : At) (rd ra rb : Reg) : exec (.maxu a rd ra rb) s = execMaxu a rd ra rb s := rfl
@[simp] theorem exec_mul (a : At) (rd ra rb : Reg) : exec (.mul a rd ra rb) s = execMul a rd ra rb s := rfl
@[simp] theorem exec_mulhs (a : At) (rd ra rb : Reg) : exec (.mulhs a rd ra rb) s = execMulhs a rd ra rb s := rfl
@[simp] theorem exec_mulhu (a : At) (rd ra rb : Reg) : exec (.mulhu a rd ra rb) s = execMulhu a rd ra rb s := rfl
@[simp] theorem exec_adds (a : At) (rd ra rb : Reg) : exec (.adds a rd ra rb) s = execAdds a rd ra rb s := rfl
@[simp] theorem exec_subs (a : At) (rd ra rb : Reg) : exec (.subs a rd ra rb) s = execSubs a rd ra rb s := rfl
@[simp] theorem exec_divu (a : At) (rd ra rb : Reg) : exec (.divu a rd ra rb) s = execDivu a rd ra rb s := rfl
@[simp] theorem exec_divs (a : At) (rd ra rb : Reg) : exec (.divs a rd ra rb) s = execDivs a rd ra rb s := rfl
@[simp] theorem exec_remu (a : At) (rd ra rb : Reg) : exec (.remu a rd ra rb) s = execRemu a rd ra rb s := rfl
@[simp] theorem exec_rems (a : At) (rd ra rb : Reg) : exec (.rems a rd ra rb) s = execRems a rd ra rb s := rfl
@[simp] theorem exec_clz (a : At) (rd ra rb : Reg) : exec (.clz a rd ra rb) s = execClz a rd ra rb s := rfl
@[simp] theorem exec_ctz (a : At) (rd ra rb : Reg) : exec (.ctz a rd ra rb) s = execCtz a rd ra rb s := rfl
@[simp] theorem exec_popc (a : At) (rd ra rb : Reg) : exec (.popc a rd ra rb) s = execPopc a rd ra rb s := rfl
@[simp] theorem exec_sextb (a : At) (rd ra rb : Reg) : exec (.sextb a rd ra rb) s = execSextb a rd ra rb s := rfl
@[simp] theorem exec_sexth (a : At) (rd ra rb : Reg) : exec (.sexth a rd ra rb) s = execSexth a rd ra rb s := rfl
@[simp] theorem exec_sextw (a : At) (rd ra rb : Reg) : exec (.sextw a rd ra rb) s = execSextw a rd ra rb s := rfl
@[simp] theorem exec_zextw (a : At) (rd ra rb : Reg) : exec (.zextw a rd ra rb) s = execZextw a rd ra rb s := rfl
@[simp] theorem exec_addi (a : At) (rd ra : Reg) (imm : BitVec 16) : exec (.addi a rd ra imm) s = execAddi a rd ra imm s := rfl
@[simp] theorem exec_andi (a : At) (rd ra : Reg) (imm : BitVec 16) : exec (.andi a rd ra imm) s = execAndi a rd ra imm s := rfl
@[simp] theorem exec_ori (a : At) (rd ra : Reg) (imm : BitVec 16) : exec (.ori a rd ra imm) s = execOri a rd ra imm s := rfl
@[simp] theorem exec_xori (a : At) (rd ra : Reg) (imm : BitVec 16) : exec (.xori a rd ra imm) s = execXori a rd ra imm s := rfl
@[simp] theorem exec_slti (a : At) (rd ra : Reg) (imm : BitVec 16) : exec (.slti a rd ra imm) s = execSlti a rd ra imm s := rfl
@[simp] theorem exec_sltiu (a : At) (rd ra : Reg) (imm : BitVec 16) : exec (.sltiu a rd ra imm) s = execSltiu a rd ra imm s := rfl
@[simp] theorem exec_shi (a : At) (rd ra : Reg) (imm : BitVec 16) : exec (.shi a rd ra imm) s = execShi a rd ra imm s := rfl
@[simp] theorem exec_lui (a : At) (rd ra : Reg) (imm : BitVec 16) : exec (.lui a rd ra imm) s = execLui a rd ra imm s := rfl
@[simp] theorem exec_lhi (a : At) (rd ra : Reg) (imm : BitVec 16) : exec (.lhi a rd ra imm) s = execLhi a rd ra imm s := rfl
@[simp] theorem exec_addix (a : At) (rd ra : Reg) (imm : BitVec 48) : exec (.addix a rd ra imm) s = execAddix a rd ra imm s := rfl
@[simp] theorem exec_beq (a : At) (ra rb : Reg) (off : BitVec 16) : exec (.beq a ra rb off) s = execBeq a ra rb off s := rfl
@[simp] theorem exec_bne (a : At) (ra rb : Reg) (off : BitVec 16) : exec (.bne a ra rb off) s = execBne a ra rb off s := rfl
@[simp] theorem exec_blt (a : At) (ra rb : Reg) (off : BitVec 16) : exec (.blt a ra rb off) s = execBlt a ra rb off s := rfl
@[simp] theorem exec_bge (a : At) (ra rb : Reg) (off : BitVec 16) : exec (.bge a ra rb off) s = execBge a ra rb off s := rfl
@[simp] theorem exec_bltu (a : At) (ra rb : Reg) (off : BitVec 16) : exec (.bltu a ra rb off) s = execBltu a ra rb off s := rfl
@[simp] theorem exec_bgeu (a : At) (ra rb : Reg) (off : BitVec 16) : exec (.bgeu a ra rb off) s = execBgeu a ra rb off s := rfl
@[simp] theorem exec_jal (a : At) (rd : Reg) (off : BitVec 21) : exec (.jal a rd off) s = execJal a rd off s := rfl
@[simp] theorem exec_jalr (a : At) (rd ra : Reg) (imm : BitVec 16) : exec (.jalr a rd ra imm) s = execJalr a rd ra imm s := rfl
@[simp] theorem exec_lb (a : At) (rd ra : Reg) (imm : BitVec 16) : exec (.lb a rd ra imm) s = execLb a rd ra imm s := rfl
@[simp] theorem exec_lbu (a : At) (rd ra : Reg) (imm : BitVec 16) : exec (.lbu a rd ra imm) s = execLbu a rd ra imm s := rfl
@[simp] theorem exec_lh (a : At) (rd ra : Reg) (imm : BitVec 16) : exec (.lh a rd ra imm) s = execLh a rd ra imm s := rfl
@[simp] theorem exec_lhu (a : At) (rd ra : Reg) (imm : BitVec 16) : exec (.lhu a rd ra imm) s = execLhu a rd ra imm s := rfl
@[simp] theorem exec_lw (a : At) (rd ra : Reg) (imm : BitVec 16) : exec (.lw a rd ra imm) s = execLw a rd ra imm s := rfl
@[simp] theorem exec_lwu (a : At) (rd ra : Reg) (imm : BitVec 16) : exec (.lwu a rd ra imm) s = execLwu a rd ra imm s := rfl
@[simp] theorem exec_ld (a : At) (rd ra : Reg) (imm : BitVec 16) : exec (.ld a rd ra imm) s = execLd a rd ra imm s := rfl
@[simp] theorem exec_sb (a : At) (rs ra : Reg) (imm : BitVec 16) : exec (.sb a rs ra imm) s = execSb a rs ra imm s := rfl
@[simp] theorem exec_sh (a : At) (rs ra : Reg) (imm : BitVec 16) : exec (.sh a rs ra imm) s = execSh a rs ra imm s := rfl
@[simp] theorem exec_sw (a : At) (rs ra : Reg) (imm : BitVec 16) : exec (.sw a rs ra imm) s = execSw a rs ra imm s := rfl
@[simp] theorem exec_sd (a : At) (rs ra : Reg) (imm : BitVec 16) : exec (.sd a rs ra imm) s = execSd a rs ra imm s := rfl
@[simp] theorem exec_amoadd (a : At) (rd ra rb : Reg) : exec (.amoadd a rd ra rb) s = execAmoadd a rd ra rb s := rfl
@[simp] theorem exec_amoswap (a : At) (rd ra rb : Reg) : exec (.amoswap a rd ra rb) s = execAmoswap a rd ra rb s := rfl
@[simp] theorem exec_amocas (a : At) (rd ra rb : Reg) : exec (.amocas a rd ra rb) s = execAmocas a rd ra rb s := rfl
@[simp] theorem exec_amoor (a : At) (rd ra rb : Reg) : exec (.amoor a rd ra rb) s = execAmoor a rd ra rb s := rfl
@[simp] theorem exec_amoand (a : At) (rd ra rb : Reg) : exec (.amoand a rd ra rb) s = execAmoand a rd ra rb s := rfl
@[simp] theorem exec_take (a : At) (rd ra : Reg) (imm : BitVec 16) : exec (.take a rd ra imm) s = execTake a rd ra imm s := rfl
@[simp] theorem exec_put (a : At) (rs ra : Reg) (imm : BitVec 16) : exec (.put a rs ra imm) s = execPut a rs ra imm s := rfl
@[simp] theorem exec_waitc (a : At) (rd ra : Reg) (imm : BitVec 16) : exec (.waitc a rd ra imm) s = execWaitc a rd ra imm s := rfl
@[simp] theorem exec_mxi (a : At) (rd ra : Reg) (imm : BitVec 16) : exec (.mxi a rd ra imm) s = execMxi a rd ra imm s := rfl
@[simp] theorem exec_vxi (a : At) (rd ra : Reg) (imm : BitVec 16) : exec (.vxi a rd ra imm) s = execVxi a rd ra imm s := rfl
@[simp] theorem exec_dxi (a : At) (rd ra : Reg) (imm : BitVec 16) : exec (.dxi a rd ra imm) s = execDxi a rd ra imm s := rfl
@[simp] theorem exec_wopen (a : At) (rd ra : Reg) (imm : BitVec 16) : exec (.wopen a rd ra imm) s = execWopen a rd ra imm s := rfl
@[simp] theorem exec_wclose (a : At) (rd ra rb : Reg) (fn : BitVec 11) : exec (.wclose a rd ra rb fn) s = execWclose a rd ra rb fn s := rfl
@[simp] theorem exec_wstat (a : At) (rd ra rb : Reg) (fn : BitVec 11) : exec (.wstat a rd ra rb fn) s = execWstat a rd ra rb fn s := rfl
@[simp] theorem exec_waitt (a : At) (rd ra : Reg) (imm : BitVec 16) : exec (.waitt a rd ra imm) s = execWaitt a rd ra imm s := rfl
@[simp] theorem exec_waitm (a : At) (rd ra : Reg) (imm : BitVec 16) : exec (.waitm a rd ra imm) s = execWaitm a rd ra imm s := rfl
@[simp] theorem exec_waitp (a : At) (rd ra : Reg) (imm : BitVec 16) : exec (.waitp a rd ra imm) s = execWaitp a rd ra imm s := rfl
@[simp] theorem exec_bar (a : At) (rd ra : Reg) (imm : BitVec 16) : exec (.bar a rd ra imm) s = execBar a rd ra imm s := rfl
@[simp] theorem exec_hsend (a : At) (rd ra rb : Reg) (fn : BitVec 11) : exec (.hsend a rd ra rb fn) s = execHsend a rd ra rb fn s := rfl
@[simp] theorem exec_hrecv (a : At) (rd ra : Reg) (imm : BitVec 16) : exec (.hrecv a rd ra imm) s = execHrecv a rd ra imm s := rfl
@[simp] theorem exec_tend (a : At) (rd ra : Reg) (imm : BitVec 16) : exec (.tend a rd ra imm) s = execTend a rd ra imm s := rfl
@[simp] theorem exec_yield (a : At) (rd ra : Reg) (imm : BitVec 16) : exec (.yield a rd ra imm) s = execYield a rd ra imm s := rfl
@[simp] theorem exec_raise (a : At) (rd ra : Reg) (imm : BitVec 16) : exec (.raise a rd ra imm) s = execRaise a rd ra imm s := rfl
@[simp] theorem exec_rdpar (a : At) (rd ra : Reg) (imm : BitVec 16) : exec (.rdpar a rd ra imm) s = execRdpar a rd ra imm s := rfl
@[simp] theorem exec_rdsys (a : At) (rd ra : Reg) (imm : BitVec 16) : exec (.rdsys a rd ra imm) s = execRdsys a rd ra imm s := rfl
@[simp] theorem exec_clrflg (a : At) (rd ra : Reg) (imm : BitVec 16) : exec (.clrflg a rd ra imm) s = execClrflg a rd ra imm s := rfl
@[simp] theorem exec_loadDataReturn (a : At) : exec (.loadDataReturn a) s = execLoadDataReturn a s := rfl
@[simp] theorem exec_bankGrant (c : CoreIx) (bank : Fin 16) (err : EccErr) : exec (.bankGrant c bank err) s = execBankGrant c bank err s := rfl
@[simp] theorem exec_scrubRead (c : CoreIx) (bank : Fin 16) (err : EccErr) : exec (.scrubRead c bank err) s = execScrubRead c bank err s := rfl
@[simp] theorem exec_taskLaunch (c : CoreIx) : exec (.taskLaunch c) s = execTaskLaunch c s := rfl
@[simp] theorem exec_taskEnded (a : At) : exec (.taskEnded a) s = execTaskEnded a s := rfl
@[simp] theorem exec_descriptorCompletion (c : CoreIx) (eng : Engine) : exec (.descriptorCompletion c eng) s = execDescriptorCompletion c eng s := rfl
@[simp] theorem exec_copy (c : CoreIx) (desc : Nat) : exec (.copy c desc) s = execCopy c desc s := rfl
@[simp] theorem exec_copy2d (c : CoreIx) (desc : Nat) : exec (.copy2d c desc) s = execCopy2d c desc s := rfl
@[simp] theorem exec_fill (c : CoreIx) (desc : Nat) : exec (.fill c desc) s = execFill c desc s := rfl
@[simp] theorem exec_mcast (c : CoreIx) (desc : Nat) : exec (.mcast c desc) s = execMcast c desc s := rfl
@[simp] theorem exec_replyArrival (acc : Nat) : exec (.replyArrival acc) s = execReplyArrival acc s := rfl
@[simp] theorem exec_mma (c : CoreIx) (err : StreamErr) : exec (.mma c err) s = execMma c err s := rfl
@[simp] theorem exec_zacc (c : CoreIx) : exec (.zacc c) s = execZacc c s := rfl
@[simp] theorem exec_ldacc (c : CoreIx) (err : StreamErr) : exec (.ldacc c err) s = execLdacc c err s := rfl
@[simp] theorem exec_addacc (c : CoreIx) (err : StreamErr) : exec (.addacc c err) s = execAddacc c err s := rfl
@[simp] theorem exec_stacc (c : CoreIx) (err : StreamErr) : exec (.stacc c err) s = execStacc c err s := rfl
@[simp] theorem exec_chain (c : CoreIx) (err : StreamErr) : exec (.chain c err) s = execChain c err s := rfl
@[simp] theorem exec_ldparam (c : CoreIx) (err : StreamErr) : exec (.ldparam c err) s = execLdparam c err s := rfl
@[simp] theorem exec_ldtile (c : CoreIx) (err : StreamErr) : exec (.ldtile c err) s = execLdtile c err s := rfl
@[simp] theorem exec_remoteWrite (acc : Nat) : exec (.remoteWrite acc) s = execRemoteWrite acc s := rfl
@[simp] theorem exec_remoteRead (acc : Nat) : exec (.remoteRead acc) s = execRemoteRead acc s := rfl
@[simp] theorem exec_multicastWrite (arr : Nat) : exec (.multicastWrite arr) s = execMulticastWrite arr s := rfl
@[simp] theorem exec_creditRequest (acc : Nat) : exec (.creditRequest acc) s = execCreditRequest acc s := rfl
@[simp] theorem exec_heldRequestGrant (c : CoreIx) : exec (.heldRequestGrant c) s = execHeldRequestGrant c s := rfl
@[simp] theorem exec_creditReply (acc : Nat) : exec (.creditReply acc) s = execCreditReply acc s := rfl
@[simp] theorem exec_creditRetry (c : CoreIx) (desc : Nat) : exec (.creditRetry c desc) s = execCreditRetry c desc s := rfl
@[simp] theorem exec_creditReturn (c : CoreIx) (desc : Nat) : exec (.creditReturn c desc) s = execCreditReturn c desc s := rfl
@[simp] theorem exec_grantExpiry (c : CoreIx) (grant : Fin 64) : exec (.grantExpiry c grant) s = execGrantExpiry c grant s := rfl
@[simp] theorem exec_closeComplete (c : CoreIx) (win : Fin 32) : exec (.closeComplete c win) s = execCloseComplete c win s := rfl
@[simp] theorem exec_pdReq (c : CoreIx) (banks : BitVec 16) : exec (.pdReq c banks) s = execPdReq c banks s := rfl
@[simp] theorem exec_puReq (c : CoreIx) (banks : BitVec 16) : exec (.puReq c banks) s = execPuReq c banks s := rfl
@[simp] theorem exec_autoPowerDown (c : CoreIx) (bank : Fin 16) : exec (.autoPowerDown c bank) s = execAutoPowerDown c bank s := rfl
@[simp] theorem exec_bankPowerDown (c : CoreIx) (bank : Fin 16) : exec (.bankPowerDown c bank) s = execBankPowerDown c bank s := rfl
@[simp] theorem exec_powerDownTimeout (c : CoreIx) (bank : Fin 16) : exec (.powerDownTimeout c bank) s = execPowerDownTimeout c bank s := rfl
@[simp] theorem exec_bankPowerUpDone (c : CoreIx) (bank : Fin 16) : exec (.bankPowerUpDone c bank) s = execBankPowerUpDone c bank s := rfl
@[simp] theorem exec_icinv (c : CoreIx) : exec (.icinv c) s = execIcinv c s := rfl
@[simp] theorem exec_icacheInvalidationDone (c : CoreIx) : exec (.icacheInvalidationDone c) s = execIcacheInvalidationDone c s := rfl
@[simp] theorem exec_launchEn (c : CoreIx) (en : Bool) : exec (.launchEn c en) s = execLaunchEn c en s := rfl
@[simp] theorem exec_taskFaultValidClear (a : At) : exec (.taskFaultValidClear a) s = execTaskFaultValidClear a s := rfl
@[simp] theorem exec_rocRead (p : RegPlace) (wide : Bool) : exec (.rocRead p wide) s = execRocRead p wide s := rfl
@[simp] theorem exec_registerWrite (p : RegPlace) (wide : Bool) (v : BitVec 64) : exec (.registerWrite p wide v) s = execRegisterWrite p wide v s := rfl
@[simp] theorem exec_rwtWrite (p : RegPlace) (wide : Bool) (v : BitVec 64) : exec (.rwtWrite p wide v) s = execRwtWrite p wide v s := rfl
@[simp] theorem exec_dramRead (acc : Nat) : exec (.dramRead acc) s = execDramRead acc s := rfl
@[simp] theorem exec_dramWrite (acc : Nat) (err : Symbols) : exec (.dramWrite acc err) s = execDramWrite acc err s := rfl
@[simp] theorem exec_dramReadData (site : Fin 204) (port : Fin 8) (k : Nat) (err : Symbols) : exec (.dramReadData site port k err) s = execDramReadData site port k err s := rfl
@[simp] theorem exec_refresh (site : Fin 204) (port : Fin 8) (bank : Fin 32) : exec (.refresh site port bank) s = execRefresh site port bank s := rfl
@[simp] theorem exec_patrolRead (site : Fin 204) (port : Fin 8) (err : Symbols) : exec (.patrolRead site port err) s = execPatrolRead site port err s := rfl
@[simp] theorem exec_dramLimitInterval (site : Fin 204) (port : Fin 8) : exec (.dramLimitInterval site port) s = execDramLimitInterval site port s := rfl
@[simp] theorem exec_thermalSample (site : Fin 204) (temp : Fin 256) : exec (.thermalSample site temp) s = execThermalSample site temp s := rfl
@[simp] theorem exec_dramRetire (site : Fin 204) (cmd : BitVec 32) : exec (.dramRetire site cmd) s = execDramRetire site cmd s := rfl
@[simp] theorem exec_packetDieEntry (pkt : Nat) : exec (.packetDieEntry pkt) s = execPacketDieEntry pkt s := rfl
@[simp] theorem exec_routerForward (h : Hop) : exec (.routerForward h) s = execRouterForward h s := rfl
@[simp] theorem exec_escapeEntry (pkt : Nat) : exec (.escapeEntry pkt) s = execEscapeEntry pkt s := rfl
@[simp] theorem exec_mcastBranchDrop (pkt : Nat) : exec (.mcastBranchDrop pkt) s = execMcastBranchDrop pkt s := rfl
@[simp] theorem exec_missNotice (k : Nat) : exec (.missNotice k) s = execMissNotice k s := rfl
@[simp] theorem exec_mcastAck (k : Nat) : exec (.mcastAck k) s = execMcastAck k s := rfl
@[simp] theorem exec_mcastResend (c : CoreIx) (desc : Nat) : exec (.mcastResend c desc) s = execMcastResend c desc s := rfl
@[simp] theorem exec_seamLinkFail (site : Fin 204) (exit : Fin 4) : exec (.seamLinkFail site exit) s = execSeamLinkFail site exit s := rfl
@[simp] theorem exec_throttleLevelFall (c : CoreIx) : exec (.throttleLevelFall c) s = execThrottleLevelFall c s := rfl
@[simp] theorem exec_halyardForward (h : Fin 214) (out : HubPort) (cls0 : Bool) : exec (.halyardForward h out cls0) s = execHalyardForward h out cls0 s := rfl
@[simp] theorem exec_phaseSend (tick : Nat) : exec (.phaseSend tick) s = execPhaseSend tick s := rfl
@[simp] theorem exec_phase : exec (.phase) s = execPhase s := rfl
@[simp] theorem exec_abandon : exec (.abandon) s = execAbandon s := rfl
@[simp] theorem exec_commit : exec (.commit) s = execCommit s := rfl
@[simp] theorem exec_tack : exec (.tack) s = execTack s := rfl
@[simp] theorem exec_control (cmd : BitVec 9) (operand : BitVec 32) (node : Option CoreIx) : exec (.control cmd operand node) s = execControl cmd operand node s := rfl
@[simp] theorem exec_barUp (h : Fin 214) (k : Fin 2) : exec (.barUp h k) s = execBarUp h k s := rfl
@[simp] theorem exec_barRel (h : Fin 214) : exec (.barRel h) s = execBarRel h s := rfl
@[simp] theorem exec_vote (h : Fin 214) (k : Fin 3) : exec (.vote h k) s = execVote h k s := rfl
@[simp] theorem exec_notice (hop : NoticeHop) : exec (.notice hop) s = execNotice hop s := rfl
@[simp] theorem exec_dieHb (h : Fin 214) : exec (.dieHb h) s = execDieHb h s := rfl
@[simp] theorem exec_hist (h : Fin 214) (k : Fin 2) (slot : Fin 16) : exec (.hist h k slot) s = execHist h k slot s := rfl
@[simp] theorem exec_user (h : Fin 214) : exec (.user h) s = execUser h s := rfl
@[simp] theorem exec_userAck (h : Fin 214) : exec (.userAck h) s = execUserAck h s := rfl
@[simp] theorem exec_halDebug (h : Fin 214) : exec (.halDebug h) s = execHalDebug h s := rfl
@[simp] theorem exec_userResend (c : CoreIx) : exec (.userResend c) s = execUserResend c s := rfl
@[simp] theorem exec_heartbeat (h : Fin 214) : exec (.heartbeat h) s = execHeartbeat h s := rfl
@[simp] theorem exec_heartbeatTimeout (c : CoreIx) : exec (.heartbeatTimeout c) s = execHeartbeatTimeout c s := rfl
@[simp] theorem exec_dieHbTimeout (h : Fin 214) : exec (.dieHbTimeout h) s = execDieHbTimeout h s := rfl
@[simp] theorem exec_startTick (fixed eta : BitVec 16) : exec (.startTick fixed eta) s = execStartTick fixed eta s := rfl
@[simp] theorem exec_tickInEdge : exec (.tickInEdge) s = execTickInEdge s := rfl
@[simp] theorem exec_rootVote (k : Fin 2) : exec (.rootVote k) s = execRootVote k s := rfl
@[simp] theorem exec_tickEnd (tick : Nat) : exec (.tickEnd tick) s = execTickEnd tick s := rfl
@[simp] theorem exec_overrun (tick : Nat) : exec (.overrun tick) s = execOverrun tick s := rfl
@[simp] theorem exec_commitTimeout (tick : Nat) : exec (.commitTimeout tick) s = execCommitTimeout tick s := rfl
@[simp] theorem exec_resetCopy (w : Fin 4096) (bad : List Nat) : exec (.resetCopy w bad) s = execResetCopy w bad s := rfl
@[simp] theorem exec_resetCopyComplete (tick : Nat) : exec (.resetCopyComplete tick) s = execResetCopyComplete tick s := rfl
@[simp] theorem exec_wctxDoneSet (acc : Nat) : exec (.wctxDoneSet acc) s = execWctxDoneSet acc s := rfl
@[simp] theorem exec_resetReq (w : Fin 4096) : exec (.resetReq w) s = execResetReq w s := rfl
@[simp] theorem exec_wctxStatusWrite (w : Fin 4096) (v : Word) : exec (.wctxStatusWrite w v) s = execWctxStatusWrite w v s := rfl
@[simp] theorem exec_heldDxiEnqueue (c : CoreIx) : exec (.heldDxiEnqueue c) s = execHeldDxiEnqueue c s := rfl
@[simp] theorem exec_run (run : Bool) : exec (.run run) s = execRun run s := rfl
@[simp] theorem exec_stepLeft (n : BitVec 32) : exec (.stepLeft n) s = execStepLeft n s := rfl
@[simp] theorem exec_tickCommitSeqWrite (v : Word) : exec (.tickCommitSeqWrite v) s = execTickCommitSeqWrite v s := rfl
@[simp] theorem exec_tackBoundary : exec (.tackBoundary) s = execTackBoundary s := rfl
@[simp] theorem exec_tackComplete : exec (.tackComplete) s = execTackComplete s := rfl
@[simp] theorem exec_tackVoteTimeout : exec (.tackVoteTimeout) s = execTackVoteTimeout s := rfl
@[simp] theorem exec_collPost (acc : Nat) : exec (.collPost acc) s = execCollPost acc s := rfl
@[simp] theorem exec_scaleFix (d : Fin 192) : exec (.scaleFix d) s = execScaleFix d s := rfl
@[simp] theorem exec_bucketStart (d : Fin 192) (tag : Fin 1024) : exec (.bucketStart d tag) s = execBucketStart d tag s := rfl
@[simp] theorem exec_unitLineStep (w : CollAt) (flip : Option (Fin 8 × Fin 64)) (bad : List Nat) : exec (.unitLineStep w flip bad) s = execUnitLineStep w flip bad s := rfl
@[simp] theorem exec_collectivePacket (n : Nat) (flip : Option (Fin 8 × Fin 64)) : exec (.collectivePacket n flip) s = execCollectivePacket n flip s := rfl
@[simp] theorem exec_pairingDeadline (d : Fin 192) (tag : Fin 1024) : exec (.pairingDeadline d tag) s = execPairingDeadline d tag s := rfl
@[simp] theorem exec_bucketCompletionReport (n : Nat) : exec (.bucketCompletionReport n) s = execBucketCompletionReport n s := rfl
@[simp] theorem exec_failureRecord (n : Nat) : exec (.failureRecord n) s = execFailureRecord n s := rfl
@[simp] theorem exec_engineStageSignal (n : Nat) : exec (.engineStageSignal n) s = execEngineStageSignal n s := rfl
@[simp] theorem exec_flitReceive (i : Fin 8) (flit : List Byte) (corrected : Nat) (bad : List (Fin 16)) : exec (.flitReceive i flit corrected bad) s = execFlitReceive i flit corrected bad s := rfl
@[simp] theorem exec_replayTimeout (i : Fin 8) : exec (.replayTimeout i) s = execReplayTimeout i s := rfl
@[simp] theorem exec_portTraining (i : Fin 8) (trained : Bool) (peer : Fin 4096) (port : Fin 8) (dim : Fin 4) (delay : BitVec 16) : exec (.portTraining i trained peer port dim delay) s = execPortTraining i trained peer port dim delay s := rfl
@[simp] theorem exec_vlnkCtrlRetrain (i : Fin 8) : exec (.vlnkCtrlRetrain i) s = execVlnkCtrlRetrain i s := rfl
@[simp] theorem exec_linkDown (i : Fin 8) (los : Bool) : exec (.linkDown i los) s = execLinkDown i los s := rfl
@[simp] theorem exec_endRecord (n : Nat) : exec (.endRecord n) s = execEndRecord n s := rfl
@[simp] theorem exec_offer (n : Nat) : exec (.offer n) s = execOffer n s := rfl
@[simp] theorem exec_histUp (n : Nat) : exec (.histUp n) s = execHistUp n s := rfl
@[simp] theorem exec_abortRecord (n : Nat) : exec (.abortRecord n) s = execAbortRecord n s := rfl
@[simp] theorem exec_mark (n : Nat) : exec (.mark n) s = execMark n s := rfl
@[simp] theorem exec_token (n : Nat) : exec (.token n) s = execToken n s := rfl
@[simp] theorem exec_sysAbandon (n : Nat) : exec (.sysAbandon n) s = execSysAbandon n s := rfl
@[simp] theorem exec_histDown (n : Nat) : exec (.histDown n) s = execHistDown n s := rfl
@[simp] theorem exec_vlnkXpost (acc : Nat) : exec (.vlnkXpost acc) s = execVlnkXpost acc s := rfl
@[simp] theorem exec_transferLine (n : Nat) : exec (.transferLine n) s = execTransferLine n s := rfl
@[simp] theorem exec_transferAck (n : Nat) : exec (.transferAck n) s = execTransferAck n s := rfl
@[simp] theorem exec_receiveAckTimer (c : Fin 4096) : exec (.receiveAckTimer c) s = execReceiveAckTimer c s := rfl
@[simp] theorem exec_retransmitTimeout (c : Fin 4096) : exec (.retransmitTimeout c) s = execRetransmitTimeout c s := rfl
@[simp] theorem exec_pathTimeout (c : Fin 4096) : exec (.pathTimeout c) s = execPathTimeout c s := rfl
@[simp] theorem exec_transitSlot (n : Nat) : exec (.transitSlot n) s = execTransitSlot n s := rfl
@[simp] theorem exec_hostLinkTraining (rate : Fin 5) (width : Fin 17) (protocols : Bool) : exec (.hostLinkTraining rate width protocols) s = execHostLinkTraining rate width protocols s := rfl
@[simp] theorem exec_hostLinkTimeout (rate : Fin 5) (width : Fin 17) : exec (.hostLinkTimeout rate width) s = execHostLinkTimeout rate width s := rfl
@[simp] theorem exec_hostMemoryAccess (acc : Nat) (data : List Byte) : exec (.hostMemoryAccess acc data) s = execHostMemoryAccess acc data s := rfl
@[simp] theorem exec_cxlMemRead (line : Nat) (err : Symbols) : exec (.cxlMemRead line err) s = execCxlMemRead line err s := rfl
@[simp] theorem exec_cxlMemWrite (line : Nat) (data : List Byte) (mask : BitVec 64) : exec (.cxlMemWrite line data mask) s = execCxlMemWrite line data mask s := rfl
@[simp] theorem exec_hostMemEn (on : Bool) : exec (.hostMemEn on) s = execHostMemEn on s := rfl
@[simp] theorem exec_commitNotification : exec (.commitNotification) s = execCommitNotification s := rfl
@[simp] theorem exec_ideIntegrityFailure : exec (.ideIntegrityFailure) s = execIdeIntegrityFailure s := rfl
@[simp] theorem exec_msixUnmask (v : Fin 64) (enable : Bool) : exec (.msixUnmask v enable) s = execMsixUnmask v enable s := rfl
@[simp] theorem exec_functionLevelReset : exec (.functionLevelReset) s = execFunctionLevelReset s := rfl
@[simp] theorem exec_cxlReset : exec (.cxlReset) s = execCxlReset s := rfl
@[simp] theorem exec_conventionalReset : exec (.conventionalReset) s = execConventionalReset s := rfl
@[simp] theorem exec_hostLinkLoss : exec (.hostLinkLoss) s = execHostLinkLoss s := rfl
@[simp] theorem exec_panelRegisterWindow (off : BitVec 25) (n : Fin 65) (write : Option (BitVec 64)) : exec (.panelRegisterWindow off n write) s = execPanelRegisterWindow off n write s := rfl
@[simp] theorem exec_featuresOk : exec (.featuresOk) s = execFeaturesOk s := rfl
@[simp] theorem exec_hostDriverFeaturesWrite (w : Fin 4) (v : BitVec 64) : exec (.hostDriverFeaturesWrite w v) s = execHostDriverFeaturesWrite w v s := rfl
@[simp] theorem exec_queueEnable (q : Fin 64) (v : BitVec 64) : exec (.queueEnable q v) s = execQueueEnable q v s := rfl
@[simp] theorem exec_sqTailDoorbell (q : Fin 64) (v : BitVec 12) : exec (.sqTailDoorbell q v) s = execSqTailDoorbell q v s := rfl
@[simp] theorem exec_cqHeadDoorbell (q : Fin 64) (v : BitVec 12) : exec (.cqHeadDoorbell q v) s = execCqHeadDoorbell q v s := rfl
@[simp] theorem exec_eventHeadDoorbell (v : BitVec 16) : exec (.eventHeadDoorbell v) s = execEventHeadDoorbell v s := rfl
@[simp] theorem exec_commandFetch (q : Fin 64) (bytes : List Byte) : exec (.commandFetch q bytes) s = execCommandFetch q bytes s := rfl
@[simp] theorem exec_completionWrite (q : Fin 64) : exec (.completionWrite q) s = execCompletionWrite q s := rfl
@[simp] theorem exec_identify (q : Fin 64) (cid : BitVec 16) : exec (.identify q cid) s = execIdentify q cid s := rfl
@[simp] theorem exec_featuresGet (q : Fin 64) (cid : BitVec 16) : exec (.featuresGet q cid) s = execFeaturesGet q cid s := rfl
@[simp] theorem exec_abort (q : Fin 64) (cid : BitVec 16) (waiting : List (BitVec 16)) : exec (.abort q cid waiting) s = execAbort q cid waiting s := rfl
@[simp] theorem exec_eventRing (q : Fin 64) (cid : BitVec 16) : exec (.eventRing q cid) s = execEventRing q cid s := rfl
@[simp] theorem exec_cfgLoad (q : Fin 64) (cid : BitVec 16) (data : List Byte) : exec (.cfgLoad q cid data) s = execCfgLoad q cid data s := rfl
@[simp] theorem exec_cfgSeal (q : Fin 64) (cid : BitVec 16) : exec (.cfgSeal q cid) s = execCfgSeal q cid s := rfl
@[simp] theorem exec_cfgTack (q : Fin 64) (cid : BitVec 16) : exec (.cfgTack q cid) s = execCfgTack q cid s := rfl
@[simp] theorem exec_tickStart (q : Fin 64) (cid : BitVec 16) : exec (.tickStart q cid) s = execTickStart q cid s := rfl
@[simp] theorem exec_tickStop (q : Fin 64) (cid : BitVec 16) : exec (.tickStop q cid) s = execTickStop q cid s := rfl
@[simp] theorem exec_tickStep (q : Fin 64) (cid : BitVec 16) : exec (.tickStep q cid) s = execTickStep q cid s := rfl
@[simp] theorem exec_tickSetSeq (q : Fin 64) (cid : BitVec 16) : exec (.tickSetSeq q cid) s = execTickSetSeq q cid s := rfl
@[simp] theorem exec_worldRead (q : Fin 64) (cid : BitVec 16) : exec (.worldRead q cid) s = execWorldRead q cid s := rfl
@[simp] theorem exec_worldWrite (q : Fin 64) (cid : BitVec 16) (data : List Byte) : exec (.worldWrite q cid data) s = execWorldWrite q cid data s := rfl
@[simp] theorem exec_worldReset (q : Fin 64) (cid : BitVec 16) : exec (.worldReset q cid) s = execWorldReset q cid s := rfl
@[simp] theorem exec_worldState (q : Fin 64) (cid : BitVec 16) : exec (.worldState q cid) s = execWorldState q cid s := rfl
@[simp] theorem exec_dmaWrite (q : Fin 64) (cid : BitVec 16) (data : List Byte) : exec (.dmaWrite q cid data) s = execDmaWrite q cid data s := rfl
@[simp] theorem exec_dmaRead (q : Fin 64) (cid : BitVec 16) (bad : List Nat) : exec (.dmaRead q cid bad) s = execDmaRead q cid bad s := rfl
@[simp] theorem exec_histRead (q : Fin 64) (cid : BitVec 16) : exec (.histRead q cid) s = execHistRead q cid s := rfl
@[simp] theorem exec_telRead (q : Fin 64) (cid : BitVec 16) : exec (.telRead q cid) s = execTelRead q cid s := rfl
@[simp] theorem exec_powerCap (q : Fin 64) (cid : BitVec 16) : exec (.powerCap q cid) s = execPowerCap q cid s := rfl
@[simp] theorem exec_maintStart (q : Fin 64) (cid : BitVec 16) : exec (.maintStart q cid) s = execMaintStart q cid s := rfl
@[simp] theorem exec_maintStop (q : Fin 64) (cid : BitVec 16) : exec (.maintStop q cid) s = execMaintStop q cid s := rfl
@[simp] theorem exec_faultRehearse (q : Fin 64) (cid : BitVec 16) : exec (.faultRehearse q cid) s = execFaultRehearse q cid s := rfl
@[simp] theorem exec_basteAttach (q : Fin 64) (cid : BitVec 16) (answer : Option (List Byte × Word)) : exec (.basteAttach q cid answer) s = execBasteAttach q cid answer s := rfl
@[simp] theorem exec_bastePromote (q : Fin 64) (cid : BitVec 16) : exec (.bastePromote q cid) s = execBastePromote q cid s := rfl
@[simp] theorem exec_shardExport (q : Fin 64) (cid : BitVec 16) : exec (.shardExport q cid) s = execShardExport q cid s := rfl
@[simp] theorem exec_shardImport (q : Fin 64) (cid : BitVec 16) : exec (.shardImport q cid) s = execShardImport q cid s := rfl
@[simp] theorem exec_fwStage (q : Fin 64) (cid : BitVec 16) (data : List Byte) : exec (.fwStage q cid data) s = execFwStage q cid data s := rfl
@[simp] theorem exec_fwActivate (q : Fin 64) (cid : BitVec 16) : exec (.fwActivate q cid) s = execFwActivate q cid s := rfl
@[simp] theorem exec_fwLiveUpdate (q : Fin 64) (cid : BitVec 16) : exec (.fwLiveUpdate q cid) s = execFwLiveUpdate q cid s := rfl
@[simp] theorem exec_attest (q : Fin 64) (cid : BitVec 16) (req : SpdmReq) : exec (.attest q cid req) s = execAttest q cid req s := rfl
@[simp] theorem exec_converterPhaseFailure (i : Fin 220) (phase : Fin 4) : exec (.converterPhaseFailure i phase) s = execConverterPhaseFailure i phase s := rfl
@[simp] theorem exec_groupOutputShort (i : Fin 220) : exec (.groupOutputShort i) s = execGroupOutputShort i s := rfl
@[simp] theorem exec_converterOvertemp (i : Fin 220) : exec (.converterOvertemp i) s = execConverterOvertemp i s := rfl
@[simp] theorem exec_regionPhaseFailure (site : Fin 204) (r : Fin 10) (phase : Option (Fin 5)) : exec (.regionPhaseFailure site r phase) s = execRegionPhaseFailure site r phase s := rfl
@[simp] theorem exec_regionOvercurrent (site : Fin 204) (r : Fin 10) : exec (.regionOvercurrent site r) s = execRegionOvercurrent site r s := rfl
@[simp] theorem exec_onReq (site : Fin 204) (req : BitVec 10) : exec (.onReq site req) s = execOnReq site req s := rfl
@[simp] theorem exec_offReq (site : Fin 204) (req : BitVec 10) : exec (.offReq site req) s = execOffReq site req s := rfl
@[simp] theorem exec_regionStage (site : Fin 204) (r : Fin 10) (below above : BitVec 8) : exec (.regionStage site r below above) s = execRegionStage site r below above s := rfl
@[simp] theorem exec_regionTurnOff (site : Fin 204) (r : Fin 10) : exec (.regionTurnOff site r) s = execRegionTurnOff site r s := rfl
@[simp] theorem exec_contactEstimate (site : Fin 204) (est mv current : BitVec 16) : exec (.contactEstimate site est mv current) s = execContactEstimate site est mv current s := rfl
@[simp] theorem exec_powerCompare (site : Fin 204) (avg : BitVec 16) : exec (.powerCompare site avg) s = execPowerCompare site avg s := rfl
@[simp] theorem exec_backstopCheck (avg : BitVec 16) : exec (.backstopCheck avg) s = execBackstopCheck avg s := rfl
@[simp] theorem exec_supplySample (mv : BitVec 16) : exec (.supplySample mv) s = execSupplySample mv s := rfl
@[simp] theorem exec_inputHighTimer : exec (.inputHighTimer) s = execInputHighTimer s := rfl
@[simp] theorem exec_referenceLoss : exec (.referenceLoss) s = execReferenceLoss s := rfl
@[simp] theorem exec_holdoverExpiry : exec (.holdoverExpiry) s = execHoldoverExpiry s := rfl
@[simp] theorem exec_pllLockLoss (v : Fin 214) : exec (.pllLockLoss v) s = execPllLockLoss v s := rfl
@[simp] theorem exec_driftRetraining (site : Fin 204) (e : Fin 4) (sep : BitVec 9) : exec (.driftRetraining site e sep) s = execDriftRetraining site e sep s := rfl
@[simp] theorem exec_retrainingComplete (site : Fin 204) (e : Fin 4) (ok : Bool) (tracks : List (Fin 8 × Fin 256 × Fin 64)) : exec (.retrainingComplete site e ok tracks) s = execRetrainingComplete site e ok tracks s := rfl
@[simp] theorem exec_marginControl (site : Fin 204) (r : Fin 10) (code : BitVec 6) (cur : BitVec 8) : exec (.marginControl site r code cur) s = execMarginControl site r code cur s := rfl
@[simp] theorem exec_halfRateSwitch (site : Fin 204) (r : Fin 10) : exec (.halfRateSwitch site r) s = execHalfRateSwitch site r s := rfl
@[simp] theorem exec_fullRateReturn (site : Fin 204) (r : Fin 10) : exec (.fullRateReturn site r) s = execFullRateReturn site r s := rfl
@[simp] theorem exec_replan : exec (.replan) s = execReplan s := rfl
@[simp] theorem exec_replanInterval : exec (.replanInterval) s = execReplanInterval s := rfl
@[simp] theorem exec_coldReset : exec (.coldReset) s = execColdReset s := rfl
@[simp] theorem exec_moduleReset (pin : Bool) : exec (.moduleReset pin) s = execModuleReset pin s := rfl
@[simp] theorem exec_fabricReset (byWrite : Bool) : exec (.fabricReset byWrite) s = execFabricReset byWrite s := rfl
@[simp] theorem exec_patchReset (g : BitVec 8) : exec (.patchReset g) s = execPatchReset g s := rfl
@[simp] theorem exec_coreReset (core : Fin 9216) : exec (.coreReset core) s = execCoreReset core s := rfl
@[simp] theorem exec_bringUp (f : BootFinding) : exec (.bringUp f) s = execBringUp f s := rfl
@[simp] theorem exec_bootStepTimeout : exec (.bootStepTimeout) s = execBootStepTimeout s := rfl
@[simp] theorem exec_identityRecord (v : Fin 213) (dieId : BitVec 64) (badCores : BitVec 50) (badExits : BitVec 4) : exec (.identityRecord v dieId badCores badExits) s = execIdentityRecord v dieId badCores badExits s := rfl
@[simp] theorem exec_broadcastCollection (found : List (CoreIx × Fin 16385 × Bool)) : exec (.broadcastCollection found) s = execBroadcastCollection found s := rfl
@[simp] theorem exec_lostNotice (h : Fin 214) : exec (.lostNotice h) s = execLostNotice h s := rfl
@[simp] theorem exec_heartbeatResumeTimeout (c : CoreIx) : exec (.heartbeatResumeTimeout c) s = execHeartbeatResumeTimeout c s := rfl
@[simp] theorem exec_reload (core : Fin 9216) (bad : List Nat) : exec (.reload core bad) s = execReload core bad s := rfl
@[simp] theorem exec_reloadComplete (core : Fin 9216) : exec (.reloadComplete core) s = execReloadComplete core s := rfl
@[simp] theorem exec_arbiterAdmission : exec (.arbiterAdmission) s = execArbiterAdmission s := rfl
@[simp] theorem exec_seamRetrainActivity (site : Fin 204) : exec (.seamRetrainActivity site) s = execSeamRetrainActivity site s := rfl
@[simp] theorem exec_vlnkRetrain (i : Fin 8) : exec (.vlnkRetrain i) s = execVlnkRetrain i s := rfl
@[simp] theorem exec_dramRetrain (site : Fin 204) : exec (.dramRetrain site) s = execDramRetrain site s := rfl
@[simp] theorem exec_scrub (handle : BitVec 16) : exec (.scrub handle) s = execScrub handle s := rfl
@[simp] theorem exec_marginSweep (site : Fin 204) (r : Fin 10) (code : BitVec 6) : exec (.marginSweep site r code) s = execMarginSweep site r code s := rfl
@[simp] theorem exec_ageing (site : Fin 204) (index : BitVec 20) : exec (.ageing site index) s = execAgeing site index s := rfl
@[simp] theorem exec_phaseTest (site : Fin 204) (ok : Bool) : exec (.phaseTest site ok) s = execPhaseTest site ok s := rfl
@[simp] theorem exec_contactCheck (site : Fin 204) (est mv current : BitVec 16) : exec (.contactCheck site est mv current) s = execContactCheck site est mv current s := rfl
@[simp] theorem exec_spareBist (site : Fin 204) (ok : Bool) : exec (.spareBist site ok) s = execSpareBist site ok s := rfl
@[simp] theorem exec_basteDigest (digest : BitVec 64) : exec (.basteDigest digest) s = execBasteDigest digest s := rfl
@[simp] theorem exec_basteDigestTimeout : exec (.basteDigestTimeout) s = execBasteDigestTimeout s := rfl
@[simp] theorem exec_watchdogExpiry : exec (.watchdogExpiry) s = execWatchdogExpiry s := rfl
@[simp] theorem exec_getVersion (doe : Bool) : exec (.getVersion doe) s = execGetVersion doe s := rfl
@[simp] theorem exec_getCapabilities (doe : Bool) : exec (.getCapabilities doe) s = execGetCapabilities doe s := rfl
@[simp] theorem exec_negotiateAlgorithms (doe : Bool) : exec (.negotiateAlgorithms doe) s = execNegotiateAlgorithms doe s := rfl
@[simp] theorem exec_getDigests (doe : Bool) : exec (.getDigests doe) s = execGetDigests doe s := rfl
@[simp] theorem exec_getCertificate (doe : Bool) : exec (.getCertificate doe) s = execGetCertificate doe s := rfl
@[simp] theorem exec_challenge (doe : Bool) : exec (.challenge doe) s = execChallenge doe s := rfl
@[simp] theorem exec_getMeasurements (doe signed : Bool) : exec (.getMeasurements doe signed) s = execGetMeasurements doe signed s := rfl
@[simp] theorem exec_keyExchange (doe : Bool) : exec (.keyExchange doe) s = execKeyExchange doe s := rfl
@[simp] theorem exec_finish (doe : Bool) : exec (.finish doe) s = execFinish doe s := rfl
@[simp] theorem exec_endSession (doe : Bool) : exec (.endSession doe) s = execEndSession doe s := rfl
@[simp] theorem exec_lmsCosign (doe : Bool) : exec (.lmsCosign doe) s = execLmsCosign doe s := rfl
@[simp] theorem exec_debugToken (img : List Byte) : exec (.debugToken img) s = execDebugToken img s := rfl
@[simp] theorem exec_snap : exec (.snap) s = execSnap s := rfl
@[simp] theorem exec_snapshotFlip (missing : List (Fin 192)) : exec (.snapshotFlip missing) s = execSnapshotFlip missing s := rfl
@[simp] theorem exec_slackReport (d : Fin 192) : exec (.slackReport d) s = execSlackReport d s := rfl
@[simp] theorem exec_telGet (page : BitVec 8) (off : BitVec 16) (n : Fin 49) : exec (.telGet page off n) s = execTelGet page off n s := rfl
@[simp] theorem exec_mctpStatus : exec (.mctpStatus) s = execMctpStatus s := rfl
@[simp] theorem exec_mctpEvent : exec (.mctpEvent) s = execMctpEvent s := rfl
@[simp] theorem exec_mctpEventRetry : exec (.mctpEventRetry) s = execMctpEventRetry s := rfl
@[simp] theorem exec_referenceReturn : exec (.referenceReturn) s = execReferenceReturn s := rfl
@[simp] theorem exec_supplyRecovery : exec (.supplyRecovery) s = execSupplyRecovery s := rfl
@[simp] theorem exec_vlnkRetrainingComplete (i : Fin 8) (ok : Bool) (failed : List (Fin 16)) : exec (.vlnkRetrainingComplete i ok failed) s = execVlnkRetrainingComplete i ok failed s := rfl
@[simp] theorem exec_dramRetrainingComplete (site : Fin 204) (port : Fin 8) (ok : Bool) : exec (.dramRetrainingComplete site port ok) s = execDramRetrainingComplete site port ok s := rfl
@[simp] theorem exec_liveUpdateEnd (started : Bool) : exec (.liveUpdateEnd started) s = execLiveUpdateEnd started s := rfl
@[simp] theorem exec_pliwickRestartComplete : exec (.pliwickRestartComplete) s = execPliwickRestartComplete s := rfl
@[simp] theorem exec_managementMemoryUncorrectable : exec (.managementMemoryUncorrectable) s = execManagementMemoryUncorrectable s := rfl
@[simp] theorem exec_ageingInterval (site : Fin 204) : exec (.ageingInterval site) s = execAgeingInterval site s := rfl
@[simp] theorem exec_nextAttemptMark : exec (.nextAttemptMark) s = execNextAttemptMark s := rfl
@[simp] theorem exec_lineCreditReturn (n : Nat) : exec (.lineCreditReturn n) s = execLineCreditReturn n s := rfl
@[simp] theorem exec_instructionCacheFill (a : At) (err : Symbols) : exec (.instructionCacheFill a err) s = execInstructionCacheFill a err s := rfl
@[simp] theorem exec_contextDramReply (c : Fin 4096) (err : Symbols) : exec (.contextDramReply c err) s = execContextDramReply c err s := rfl
@[simp] theorem exec_ideKeyManagement (cachemem : Bool) (activate : Bool) : exec (.ideKeyManagement cachemem activate) s = execIdeKeyManagement cachemem activate s := rfl
@[simp] theorem exec_mctpEventAcknowledged : exec (.mctpEventAcknowledged) s = execMctpEventAcknowledged s := rfl

end Sys2Proof.Machine
end

