-- ==== Sys2Proof/Laws/SMap.lean ====
section
/-!
SUPPORT. The laws of the sparse map: a read after a write to the same key gives the value written, every other key
reads as before, and every write keeps the canonical form.
-/
namespace Sys2Proof

@[simp] theorem SMap.get_nil {α : Type} (d : α) (k : Nat) : SMap.get d ([] : SMap α) k = d := rfl

@[simp] theorem SMap.get_put_same {α : Type} (d : α) (m : SMap α) (k : Nat) (v : α) :
    SMap.get d (SMap.put m k v) k = v := by
  induction m with
  | nil => simp [SMap.put, SMap.get]
  | cons e m ih =>
    obtain ⟨j, w⟩ := e
    simp only [SMap.put]
    split
    · simp [SMap.get]
    · split
      · simp [SMap.get]
      · rename_i h1 h2; simp [SMap.get, h2, ih]

theorem SMap.get_put_other {α : Type} (d : α) (m : SMap α) {k j : Nat} (v : α) (h : j ≠ k) :
    SMap.get d (SMap.put m k v) j = SMap.get d m j := by
  induction m with
  | nil => simp [SMap.put, SMap.get, h]
  | cons e m ih =>
    obtain ⟨i, w⟩ := e
    simp only [SMap.put]
    split
    · simp [SMap.get, h]
    · split
      · rename_i h1 h2; subst h2; simp [SMap.get, h]
      · simp only [SMap.get]; split
        · rfl
        · exact ih

@[simp] theorem SMap.get_del_same {α : Type} (d : α) (m : SMap α) (k : Nat) :
    SMap.get d (SMap.del m k) k = d := by
  induction m with
  | nil => rfl
  | cons e m ih =>
    obtain ⟨i, w⟩ := e
    simp only [SMap.del]
    split
    · exact ih
    · rename_i h; simp [SMap.get, h, ih]

theorem SMap.get_del_other {α : Type} (d : α) (m : SMap α) {k j : Nat} (h : j ≠ k) :
    SMap.get d (SMap.del m k) j = SMap.get d m j := by
  induction m with
  | nil => rfl
  | cons e m ih =>
    obtain ⟨i, w⟩ := e
    simp only [SMap.del]
    split
    · rename_i h2; subst h2; simp [SMap.get, h, ih]
    · simp only [SMap.get]; split
      · rfl
      · exact ih

@[simp] theorem SMap.get_set_same {α : Type} [DecidableEq α] (d : α) (m : SMap α) (k : Nat) (v : α) :
    SMap.get d (SMap.set d m k v) k = v := by
  unfold SMap.set; split
  · rename_i h; simp [h]
  · simp

theorem SMap.get_set_other {α : Type} [DecidableEq α] (d d' : α) (m : SMap α) {k j : Nat} (v : α)
    (h : j ≠ k) : SMap.get d (SMap.set d' m k v) j = SMap.get d m j := by
  unfold SMap.set; split
  · exact SMap.get_del_other d m h
  · exact SMap.get_put_other d m v h

theorem SMap.get_set {α : Type} [DecidableEq α] (d : α) (m : SMap α) (k j : Nat) (v : α) :
    SMap.get d (SMap.set d m k v) j = if j = k then v else SMap.get d m j := by
  split
  · rename_i h; subst h; simp
  · rename_i h; exact SMap.get_set_other d d m v h

/-! The canonical form is kept. -/

theorem SMap.ascFrom_mono {α : Type} {lo lo' : Nat} {m : SMap α} (h : lo' ≤ lo)
    (hm : SMap.ascFrom lo m = true) : SMap.ascFrom lo' m = true := by
  cases m with
  | nil => rfl
  | cons e m =>
    simp only [SMap.ascFrom, Bool.and_eq_true, decide_eq_true_eq] at hm ⊢
    exact ⟨Nat.le_trans h hm.1, hm.2⟩

theorem SMap.ascFrom_put {α : Type} (m : SMap α) (k : Nat) (v : α) (lo : Nat) (hk : lo ≤ k)
    (hm : SMap.ascFrom lo m = true) : SMap.ascFrom lo (SMap.put m k v) = true := by
  induction m generalizing lo with
  | nil => simp [SMap.put, SMap.ascFrom, hk]
  | cons e m ih =>
    obtain ⟨j, w⟩ := e
    simp only [SMap.ascFrom, Bool.and_eq_true, decide_eq_true_eq] at hm
    simp only [SMap.put]
    split
    · simp only [SMap.ascFrom, Bool.and_eq_true, decide_eq_true_eq]; exact ⟨hk, by omega, hm.2⟩
    · split
      · rename_i h1 h2; subst h2
        simp only [SMap.ascFrom, Bool.and_eq_true, decide_eq_true_eq]; exact hm
      · simp only [SMap.ascFrom, Bool.and_eq_true, decide_eq_true_eq]
        exact ⟨hm.1, ih (j + 1) (by omega) hm.2⟩

theorem SMap.ascFrom_del {α : Type} (m : SMap α) (k : Nat) (lo : Nat)
    (hm : SMap.ascFrom lo m = true) : SMap.ascFrom lo (SMap.del m k) = true := by
  induction m generalizing lo with
  | nil => rfl
  | cons e m ih =>
    obtain ⟨j, w⟩ := e
    simp only [SMap.ascFrom, Bool.and_eq_true, decide_eq_true_eq] at hm
    simp only [SMap.del]
    split
    · exact ih lo (SMap.ascFrom_mono (by omega) hm.2)
    · simp only [SMap.ascFrom, Bool.and_eq_true, decide_eq_true_eq]; exact ⟨hm.1, ih _ hm.2⟩

theorem SMap.noDefault_put {α : Type} [DecidableEq α] (d : Nat → α) (m : SMap α) (k : Nat) (v : α)
    (hv : v ≠ d k) (hm : SMap.noDefault d m = true) : SMap.noDefault d (SMap.put m k v) = true := by
  induction m with
  | nil => simp [SMap.put, SMap.noDefault, hv]
  | cons e m ih =>
    obtain ⟨j, w⟩ := e
    simp only [SMap.noDefault, Bool.and_eq_true, decide_eq_true_eq] at hm
    simp only [SMap.put]
    split
    · simp only [SMap.noDefault, Bool.and_eq_true, decide_eq_true_eq]; exact ⟨hv, hm⟩
    · split
      · simp only [SMap.noDefault, Bool.and_eq_true, decide_eq_true_eq]; exact ⟨hv, hm.2⟩
      · simp only [SMap.noDefault, Bool.and_eq_true, decide_eq_true_eq]; exact ⟨hm.1, ih hm.2⟩

theorem SMap.noDefault_del {α : Type} [DecidableEq α] (d : Nat → α) (m : SMap α) (k : Nat)
    (hm : SMap.noDefault d m = true) : SMap.noDefault d (SMap.del m k) = true := by
  induction m with
  | nil => rfl
  | cons e m ih =>
    obtain ⟨j, w⟩ := e
    simp only [SMap.noDefault, Bool.and_eq_true, decide_eq_true_eq] at hm
    simp only [SMap.del]
    split
    · exact ih hm.2
    · simp only [SMap.noDefault, Bool.and_eq_true, decide_eq_true_eq]; exact ⟨hm.1, ih hm.2⟩

/-- A write keeps the canonical form. -/
theorem SMap.wf_set {α : Type} [DecidableEq α] (d : Nat → α) (m : SMap α) (k : Nat) (v : α)
    (hm : SMap.wf d m = true) : SMap.wf d (SMap.set (d k) m k v) = true := by
  simp only [SMap.wf, Bool.and_eq_true] at hm ⊢
  unfold SMap.set
  split
  · exact ⟨SMap.ascFrom_del m k 0 hm.1, SMap.noDefault_del d m k hm.2⟩
  · rename_i h
    exact ⟨SMap.ascFrom_put m k v 0 (Nat.zero_le k) hm.1, SMap.noDefault_put d m k v h hm.2⟩

/-- A write of a range keeps the canonical form. -/
theorem SMap.wf_setRange {α : Type} [DecidableEq α] (d : α) (m : SMap α) (k : Nat) (vs : List α)
    (hm : SMap.wf (fun _ => d) m = true) :
    SMap.wf (fun _ => d) (SMap.setRange d m k vs) = true := by
  induction vs generalizing m k with
  | nil => exact hm
  | cons v vs ih => exact ih _ _ (SMap.wf_set (fun _ => d) m k v hm)

/-- A write of a range leaves every key outside it. -/
theorem SMap.get_setRange_other {α : Type} [DecidableEq α] (d : α) (m : SMap α) (k j : Nat)
    (vs : List α) (h : j < k ∨ k + vs.length ≤ j) :
    SMap.get d (SMap.setRange d m k vs) j = SMap.get d m j := by
  induction vs generalizing m k with
  | nil => rfl
  | cons v vs ih =>
    simp only [SMap.setRange]
    simp only [List.length_cons] at h
    rw [ih _ _ (by omega), SMap.get_set_other d d m v (by omega)]

theorem SMap.get_absent {α : Type} (d : α) (m : SMap α) (k : Nat) (h : m.all (fun e => e.1 != k) = true) :
    SMap.get d m k = d := by
  induction m with
  | nil => rfl
  | cons x m ih =>
    obtain ⟨j, w⟩ := x
    simp only [List.all_cons, Bool.and_eq_true, bne_iff_ne, ne_eq] at h
    simp only [SMap.get]
    rw [if_neg (fun e => h.1 e.symm)]
    exact ih h.2

/-- Every key of a mapped array reads as `f` of what it read before. -/
theorem SMap.get_mapAll {α : Type} [DecidableEq α] (d : α) (f : Nat → α → α) (m : SMap α) (k : Nat) (hf : f k d = d) :
    SMap.get d (SMap.mapAll d f m) k = f k (SMap.get d m k) := by
  induction m with
  | nil => exact hf.symm
  | cons x m ih =>
    obtain ⟨j, w⟩ := x
    simp only [SMap.mapAll]
    split
    · rename_i h
      rw [ih]
      simp only [SMap.get]
      split
      · rename_i e
        subst e
        rw [SMap.get_absent d m k h.2, hf, h.1]
      · rfl
    · simp only [SMap.get]
      split
      · rename_i e
        rw [e]
      · exact ih

theorem SMap.wf_nil {α : Type} [DecidableEq α] (d : Nat → α) : SMap.wf d ([] : SMap α) = true := rfl

theorem SMap.ascFrom_filter {α : Type} (p : Nat × α → Bool) (m : SMap α) (lo : Nat)
    (hm : SMap.ascFrom lo m = true) : SMap.ascFrom lo (m.filter p) = true := by
  induction m generalizing lo with
  | nil => rfl
  | cons e m ih =>
    obtain ⟨j, w⟩ := e
    simp only [SMap.ascFrom, Bool.and_eq_true, decide_eq_true_eq] at hm
    simp only [List.filter_cons]
    split
    · simp only [SMap.ascFrom, Bool.and_eq_true, decide_eq_true_eq]; exact ⟨hm.1, ih _ hm.2⟩
    · exact ih lo (SMap.ascFrom_mono (by omega) hm.2)

theorem SMap.noDefault_filter {α : Type} [DecidableEq α] (d : Nat → α) (p : Nat × α → Bool)
    (m : SMap α) (hm : SMap.noDefault d m = true) : SMap.noDefault d (m.filter p) = true := by
  induction m with
  | nil => rfl
  | cons e m ih =>
    obtain ⟨j, w⟩ := e
    simp only [SMap.noDefault, Bool.and_eq_true, decide_eq_true_eq] at hm
    simp only [List.filter_cons]
    split
    · simp only [SMap.noDefault, Bool.and_eq_true, decide_eq_true_eq]; exact ⟨hm.1, ih hm.2⟩
    · exact ih hm.2

theorem SMap.wf_drop {α : Type} [DecidableEq α] (d : Nat → α) (p : Nat → Bool) (m : SMap α)
    (hm : SMap.wf d m = true) : SMap.wf d (SMap.drop p m) = true := by
  simp only [SMap.wf, Bool.and_eq_true] at hm ⊢
  exact ⟨SMap.ascFrom_filter _ m 0 hm.1, SMap.noDefault_filter d _ m hm.2⟩

end Sys2Proof
end

