-- ==== Sys2Proof/Laws/State.lean ====
section
/-!
SUPPORT. What each update of the state leaves alone: one lemma for each field and update, so that no proof unfolds a record
update.
-/
namespace Sys2Proof.Machine

variable (s : State)

@[simp] theorem State.setCore_pending (p : Nat) (c : Core) : (s.setCore p c).pending = s.pending := rfl
@[simp] theorem State.setCore_now (p : Nat) (c : Core) : (s.setCore p c).now = s.now := rfl
@[simp] theorem State.setCore_freeCtr (p : Nat) (c : Core) : (s.setCore p c).freeCtr = s.freeCtr := rfl
@[simp] theorem State.setCore_regs (p : Nat) (c : Core) : (s.setCore p c).regs = s.regs := rfl
@[simp] theorem State.setCore_readData (p : Nat) (c : Core) : (s.setCore p c).readData = s.readData := rfl
@[simp] theorem State.setCore_drams (p : Nat) (c : Core) : (s.setCore p c).drams = s.drams := rfl
@[simp] theorem State.setCore_mesh (p : Nat) (c : Core) : (s.setCore p c).mesh = s.mesh := rfl
@[simp] theorem State.setCore_hubs (p : Nat) (c : Core) : (s.setCore p c).hubs = s.hubs := rfl
@[simp] theorem State.setCore_gen (p : Nat) (c : Core) : (s.setCore p c).gen = s.gen := rfl
@[simp] theorem State.setCore_worlds (p : Nat) (c : Core) : (s.setCore p c).worlds = s.worlds := rfl
@[simp] theorem State.setCore_active (p : Nat) (c : Core) : (s.setCore p c).active = s.active := rfl
@[simp] theorem State.setCore_shadow (p : Nat) (c : Core) : (s.setCore p c).shadow = s.shadow := rfl
@[simp] theorem State.setCore_cfg (p : Nat) (c : Core) : (s.setCore p c).cfg = s.cfg := rfl
@[simp] theorem State.setCore_coll (p : Nat) (c : Core) : (s.setCore p c).coll = s.coll := rfl
@[simp] theorem State.setCore_vorrad (p : Nat) (c : Core) : (s.setCore p c).vorrad = s.vorrad := rfl
@[simp] theorem State.setCore_power (p : Nat) (c : Core) : (s.setCore p c).power = s.power := rfl
@[simp] theorem State.setCore_supply (p : Nat) (c : Core) : (s.setCore p c).supply = s.supply := rfl
@[simp] theorem State.setCore_boot (p : Nat) (c : Core) : (s.setCore p c).boot = s.boot := rfl
@[simp] theorem State.setCore_maint (p : Nat) (c : Core) : (s.setCore p c).maint = s.maint := rfl
@[simp] theorem State.setCore_sec (p : Nat) (c : Core) : (s.setCore p c).sec = s.sec := rfl
@[simp] theorem State.setCore_rom (p : Nat) (c : Core) : (s.setCore p c).rom = s.rom := rfl
@[simp] theorem State.setCore_tel (p : Nat) (c : Core) : (s.setCore p c).tel = s.tel := rfl
@[simp] theorem State.setCore_host (p : Nat) (c : Core) : (s.setCore p c).host = s.host := rfl
@[simp] theorem State.setCore_events (p : Nat) (c : Core) : (s.setCore p c).events = s.events := rfl
@[simp] theorem State.setCore_msix (p : Nat) (c : Core) : (s.setCore p c).msix = s.msix := rfl
@[simp] theorem State.setCore_hostMem (p : Nat) (c : Core) : (s.setCore p c).hostMem = s.hostMem := rfl

@[simp] theorem State.modCore_pending (p : Nat) (f : Core → Core) : (s.modCore p f).pending = s.pending := rfl
@[simp] theorem State.modCore_now (p : Nat) (f : Core → Core) : (s.modCore p f).now = s.now := rfl
@[simp] theorem State.modCore_freeCtr (p : Nat) (f : Core → Core) : (s.modCore p f).freeCtr = s.freeCtr := rfl
@[simp] theorem State.modCore_regs (p : Nat) (f : Core → Core) : (s.modCore p f).regs = s.regs := rfl
@[simp] theorem State.modCore_readData (p : Nat) (f : Core → Core) : (s.modCore p f).readData = s.readData := rfl
@[simp] theorem State.modCore_drams (p : Nat) (f : Core → Core) : (s.modCore p f).drams = s.drams := rfl
@[simp] theorem State.modCore_mesh (p : Nat) (f : Core → Core) : (s.modCore p f).mesh = s.mesh := rfl
@[simp] theorem State.modCore_hubs (p : Nat) (f : Core → Core) : (s.modCore p f).hubs = s.hubs := rfl
@[simp] theorem State.modCore_gen (p : Nat) (f : Core → Core) : (s.modCore p f).gen = s.gen := rfl
@[simp] theorem State.modCore_worlds (p : Nat) (f : Core → Core) : (s.modCore p f).worlds = s.worlds := rfl
@[simp] theorem State.modCore_active (p : Nat) (f : Core → Core) : (s.modCore p f).active = s.active := rfl
@[simp] theorem State.modCore_shadow (p : Nat) (f : Core → Core) : (s.modCore p f).shadow = s.shadow := rfl
@[simp] theorem State.modCore_cfg (p : Nat) (f : Core → Core) : (s.modCore p f).cfg = s.cfg := rfl
@[simp] theorem State.modCore_coll (p : Nat) (f : Core → Core) : (s.modCore p f).coll = s.coll := rfl
@[simp] theorem State.modCore_vorrad (p : Nat) (f : Core → Core) : (s.modCore p f).vorrad = s.vorrad := rfl
@[simp] theorem State.modCore_power (p : Nat) (f : Core → Core) : (s.modCore p f).power = s.power := rfl
@[simp] theorem State.modCore_supply (p : Nat) (f : Core → Core) : (s.modCore p f).supply = s.supply := rfl
@[simp] theorem State.modCore_boot (p : Nat) (f : Core → Core) : (s.modCore p f).boot = s.boot := rfl
@[simp] theorem State.modCore_maint (p : Nat) (f : Core → Core) : (s.modCore p f).maint = s.maint := rfl
@[simp] theorem State.modCore_sec (p : Nat) (f : Core → Core) : (s.modCore p f).sec = s.sec := rfl
@[simp] theorem State.modCore_rom (p : Nat) (f : Core → Core) : (s.modCore p f).rom = s.rom := rfl
@[simp] theorem State.modCore_tel (p : Nat) (f : Core → Core) : (s.modCore p f).tel = s.tel := rfl
@[simp] theorem State.modCore_host (p : Nat) (f : Core → Core) : (s.modCore p f).host = s.host := rfl
@[simp] theorem State.modCore_events (p : Nat) (f : Core → Core) : (s.modCore p f).events = s.events := rfl
@[simp] theorem State.modCore_msix (p : Nat) (f : Core → Core) : (s.modCore p f).msix = s.msix := rfl
@[simp] theorem State.modCore_hostMem (p : Nat) (f : Core → Core) : (s.modCore p f).hostMem = s.hostMem := rfl

@[simp] theorem State.modSlot_pending (p i : Nat) (f : Slot → Slot) : (s.modSlot p i f).pending = s.pending := rfl
@[simp] theorem State.modSlot_now (p i : Nat) (f : Slot → Slot) : (s.modSlot p i f).now = s.now := rfl
@[simp] theorem State.modSlot_freeCtr (p i : Nat) (f : Slot → Slot) : (s.modSlot p i f).freeCtr = s.freeCtr := rfl
@[simp] theorem State.modSlot_regs (p i : Nat) (f : Slot → Slot) : (s.modSlot p i f).regs = s.regs := rfl
@[simp] theorem State.modSlot_readData (p i : Nat) (f : Slot → Slot) : (s.modSlot p i f).readData = s.readData := rfl
@[simp] theorem State.modSlot_drams (p i : Nat) (f : Slot → Slot) : (s.modSlot p i f).drams = s.drams := rfl
@[simp] theorem State.modSlot_mesh (p i : Nat) (f : Slot → Slot) : (s.modSlot p i f).mesh = s.mesh := rfl
@[simp] theorem State.modSlot_hubs (p i : Nat) (f : Slot → Slot) : (s.modSlot p i f).hubs = s.hubs := rfl
@[simp] theorem State.modSlot_gen (p i : Nat) (f : Slot → Slot) : (s.modSlot p i f).gen = s.gen := rfl
@[simp] theorem State.modSlot_worlds (p i : Nat) (f : Slot → Slot) : (s.modSlot p i f).worlds = s.worlds := rfl
@[simp] theorem State.modSlot_active (p i : Nat) (f : Slot → Slot) : (s.modSlot p i f).active = s.active := rfl
@[simp] theorem State.modSlot_shadow (p i : Nat) (f : Slot → Slot) : (s.modSlot p i f).shadow = s.shadow := rfl
@[simp] theorem State.modSlot_cfg (p i : Nat) (f : Slot → Slot) : (s.modSlot p i f).cfg = s.cfg := rfl
@[simp] theorem State.modSlot_coll (p i : Nat) (f : Slot → Slot) : (s.modSlot p i f).coll = s.coll := rfl
@[simp] theorem State.modSlot_vorrad (p i : Nat) (f : Slot → Slot) : (s.modSlot p i f).vorrad = s.vorrad := rfl
@[simp] theorem State.modSlot_power (p i : Nat) (f : Slot → Slot) : (s.modSlot p i f).power = s.power := rfl
@[simp] theorem State.modSlot_supply (p i : Nat) (f : Slot → Slot) : (s.modSlot p i f).supply = s.supply := rfl
@[simp] theorem State.modSlot_boot (p i : Nat) (f : Slot → Slot) : (s.modSlot p i f).boot = s.boot := rfl
@[simp] theorem State.modSlot_maint (p i : Nat) (f : Slot → Slot) : (s.modSlot p i f).maint = s.maint := rfl
@[simp] theorem State.modSlot_sec (p i : Nat) (f : Slot → Slot) : (s.modSlot p i f).sec = s.sec := rfl
@[simp] theorem State.modSlot_rom (p i : Nat) (f : Slot → Slot) : (s.modSlot p i f).rom = s.rom := rfl
@[simp] theorem State.modSlot_tel (p i : Nat) (f : Slot → Slot) : (s.modSlot p i f).tel = s.tel := rfl
@[simp] theorem State.modSlot_host (p i : Nat) (f : Slot → Slot) : (s.modSlot p i f).host = s.host := rfl
@[simp] theorem State.modSlot_events (p i : Nat) (f : Slot → Slot) : (s.modSlot p i f).events = s.events := rfl
@[simp] theorem State.modSlot_msix (p i : Nat) (f : Slot → Slot) : (s.modSlot p i f).msix = s.msix := rfl
@[simp] theorem State.modSlot_hostMem (p i : Nat) (f : Slot → Slot) : (s.modSlot p i f).hostMem = s.hostMem := rfl

@[simp] theorem State.advanceTo_pending (t : Nat) : (s.advanceTo t).pending = s.pending := rfl
@[simp] theorem State.advanceTo_freeCtr (t : Nat) : (s.advanceTo t).freeCtr = s.freeCtr := rfl
@[simp] theorem State.advanceTo_regs (t : Nat) : (s.advanceTo t).regs = s.regs := rfl
@[simp] theorem State.advanceTo_readData (t : Nat) : (s.advanceTo t).readData = s.readData := rfl
@[simp] theorem State.advanceTo_cores (t : Nat) : (s.advanceTo t).cores = s.cores := rfl
@[simp] theorem State.advanceTo_drams (t : Nat) : (s.advanceTo t).drams = s.drams := rfl
@[simp] theorem State.advanceTo_mesh (t : Nat) : (s.advanceTo t).mesh = s.mesh := rfl
@[simp] theorem State.advanceTo_hubs (t : Nat) : (s.advanceTo t).hubs = s.hubs := rfl
@[simp] theorem State.advanceTo_gen (t : Nat) : (s.advanceTo t).gen = s.gen := rfl
@[simp] theorem State.advanceTo_worlds (t : Nat) : (s.advanceTo t).worlds = s.worlds := rfl
@[simp] theorem State.advanceTo_active (t : Nat) : (s.advanceTo t).active = s.active := rfl
@[simp] theorem State.advanceTo_shadow (t : Nat) : (s.advanceTo t).shadow = s.shadow := rfl
@[simp] theorem State.advanceTo_cfg (t : Nat) : (s.advanceTo t).cfg = s.cfg := rfl
@[simp] theorem State.advanceTo_coll (t : Nat) : (s.advanceTo t).coll = s.coll := rfl
@[simp] theorem State.advanceTo_vorrad (t : Nat) : (s.advanceTo t).vorrad = s.vorrad := rfl
@[simp] theorem State.advanceTo_power (t : Nat) : (s.advanceTo t).power = s.power := rfl
@[simp] theorem State.advanceTo_supply (t : Nat) : (s.advanceTo t).supply = s.supply := rfl
@[simp] theorem State.advanceTo_boot (t : Nat) : (s.advanceTo t).boot = s.boot := rfl
@[simp] theorem State.advanceTo_maint (t : Nat) : (s.advanceTo t).maint = s.maint := rfl
@[simp] theorem State.advanceTo_sec (t : Nat) : (s.advanceTo t).sec = s.sec := rfl
@[simp] theorem State.advanceTo_rom (t : Nat) : (s.advanceTo t).rom = s.rom := rfl
@[simp] theorem State.advanceTo_tel (t : Nat) : (s.advanceTo t).tel = s.tel := rfl
@[simp] theorem State.advanceTo_host (t : Nat) : (s.advanceTo t).host = s.host := rfl
@[simp] theorem State.advanceTo_events (t : Nat) : (s.advanceTo t).events = s.events := rfl
@[simp] theorem State.advanceTo_msix (t : Nat) : (s.advanceTo t).msix = s.msix := rfl
@[simp] theorem State.advanceTo_hostMem (t : Nat) : (s.advanceTo t).hostMem = s.hostMem := rfl

@[simp] theorem State.modSpad_pending (p : Nat) (f : Spad → Spad) : (s.modSpad p f).pending = s.pending := rfl
@[simp] theorem State.modSpad_now (p : Nat) (f : Spad → Spad) : (s.modSpad p f).now = s.now := rfl
@[simp] theorem State.modSpad_freeCtr (p : Nat) (f : Spad → Spad) : (s.modSpad p f).freeCtr = s.freeCtr := rfl
@[simp] theorem State.modSpad_regs (p : Nat) (f : Spad → Spad) : (s.modSpad p f).regs = s.regs := rfl
@[simp] theorem State.modSpad_readData (p : Nat) (f : Spad → Spad) : (s.modSpad p f).readData = s.readData := rfl
@[simp] theorem State.modSpad_drams (p : Nat) (f : Spad → Spad) : (s.modSpad p f).drams = s.drams := rfl
@[simp] theorem State.modSpad_mesh (p : Nat) (f : Spad → Spad) : (s.modSpad p f).mesh = s.mesh := rfl
@[simp] theorem State.modSpad_hubs (p : Nat) (f : Spad → Spad) : (s.modSpad p f).hubs = s.hubs := rfl
@[simp] theorem State.modSpad_gen (p : Nat) (f : Spad → Spad) : (s.modSpad p f).gen = s.gen := rfl
@[simp] theorem State.modSpad_worlds (p : Nat) (f : Spad → Spad) : (s.modSpad p f).worlds = s.worlds := rfl
@[simp] theorem State.modSpad_active (p : Nat) (f : Spad → Spad) : (s.modSpad p f).active = s.active := rfl
@[simp] theorem State.modSpad_shadow (p : Nat) (f : Spad → Spad) : (s.modSpad p f).shadow = s.shadow := rfl
@[simp] theorem State.modSpad_cfg (p : Nat) (f : Spad → Spad) : (s.modSpad p f).cfg = s.cfg := rfl
@[simp] theorem State.modSpad_coll (p : Nat) (f : Spad → Spad) : (s.modSpad p f).coll = s.coll := rfl
@[simp] theorem State.modSpad_vorrad (p : Nat) (f : Spad → Spad) : (s.modSpad p f).vorrad = s.vorrad := rfl
@[simp] theorem State.modSpad_power (p : Nat) (f : Spad → Spad) : (s.modSpad p f).power = s.power := rfl
@[simp] theorem State.modSpad_supply (p : Nat) (f : Spad → Spad) : (s.modSpad p f).supply = s.supply := rfl
@[simp] theorem State.modSpad_boot (p : Nat) (f : Spad → Spad) : (s.modSpad p f).boot = s.boot := rfl
@[simp] theorem State.modSpad_maint (p : Nat) (f : Spad → Spad) : (s.modSpad p f).maint = s.maint := rfl
@[simp] theorem State.modSpad_sec (p : Nat) (f : Spad → Spad) : (s.modSpad p f).sec = s.sec := rfl
@[simp] theorem State.modSpad_rom (p : Nat) (f : Spad → Spad) : (s.modSpad p f).rom = s.rom := rfl
@[simp] theorem State.modSpad_tel (p : Nat) (f : Spad → Spad) : (s.modSpad p f).tel = s.tel := rfl
@[simp] theorem State.modSpad_host (p : Nat) (f : Spad → Spad) : (s.modSpad p f).host = s.host := rfl
@[simp] theorem State.modSpad_events (p : Nat) (f : Spad → Spad) : (s.modSpad p f).events = s.events := rfl
@[simp] theorem State.modSpad_msix (p : Nat) (f : Spad → Spad) : (s.modSpad p f).msix = s.msix := rfl
@[simp] theorem State.modSpad_hostMem (p : Nat) (f : Spad → Spad) : (s.modSpad p f).hostMem = s.hostMem := rfl

@[simp] theorem State.modBank_pending (p b : Nat) (f : Bank → Bank) : (s.modBank p b f).pending = s.pending := rfl
@[simp] theorem State.modBank_now (p b : Nat) (f : Bank → Bank) : (s.modBank p b f).now = s.now := rfl
@[simp] theorem State.modBank_freeCtr (p b : Nat) (f : Bank → Bank) : (s.modBank p b f).freeCtr = s.freeCtr := rfl
@[simp] theorem State.modBank_regs (p b : Nat) (f : Bank → Bank) : (s.modBank p b f).regs = s.regs := rfl
@[simp] theorem State.modBank_readData (p b : Nat) (f : Bank → Bank) : (s.modBank p b f).readData = s.readData := rfl
@[simp] theorem State.modBank_drams (p b : Nat) (f : Bank → Bank) : (s.modBank p b f).drams = s.drams := rfl
@[simp] theorem State.modBank_mesh (p b : Nat) (f : Bank → Bank) : (s.modBank p b f).mesh = s.mesh := rfl
@[simp] theorem State.modBank_hubs (p b : Nat) (f : Bank → Bank) : (s.modBank p b f).hubs = s.hubs := rfl
@[simp] theorem State.modBank_gen (p b : Nat) (f : Bank → Bank) : (s.modBank p b f).gen = s.gen := rfl
@[simp] theorem State.modBank_worlds (p b : Nat) (f : Bank → Bank) : (s.modBank p b f).worlds = s.worlds := rfl
@[simp] theorem State.modBank_active (p b : Nat) (f : Bank → Bank) : (s.modBank p b f).active = s.active := rfl
@[simp] theorem State.modBank_shadow (p b : Nat) (f : Bank → Bank) : (s.modBank p b f).shadow = s.shadow := rfl
@[simp] theorem State.modBank_cfg (p b : Nat) (f : Bank → Bank) : (s.modBank p b f).cfg = s.cfg := rfl
@[simp] theorem State.modBank_coll (p b : Nat) (f : Bank → Bank) : (s.modBank p b f).coll = s.coll := rfl
@[simp] theorem State.modBank_vorrad (p b : Nat) (f : Bank → Bank) : (s.modBank p b f).vorrad = s.vorrad := rfl
@[simp] theorem State.modBank_power (p b : Nat) (f : Bank → Bank) : (s.modBank p b f).power = s.power := rfl
@[simp] theorem State.modBank_supply (p b : Nat) (f : Bank → Bank) : (s.modBank p b f).supply = s.supply := rfl
@[simp] theorem State.modBank_boot (p b : Nat) (f : Bank → Bank) : (s.modBank p b f).boot = s.boot := rfl
@[simp] theorem State.modBank_maint (p b : Nat) (f : Bank → Bank) : (s.modBank p b f).maint = s.maint := rfl
@[simp] theorem State.modBank_sec (p b : Nat) (f : Bank → Bank) : (s.modBank p b f).sec = s.sec := rfl
@[simp] theorem State.modBank_rom (p b : Nat) (f : Bank → Bank) : (s.modBank p b f).rom = s.rom := rfl
@[simp] theorem State.modBank_tel (p b : Nat) (f : Bank → Bank) : (s.modBank p b f).tel = s.tel := rfl
@[simp] theorem State.modBank_host (p b : Nat) (f : Bank → Bank) : (s.modBank p b f).host = s.host := rfl
@[simp] theorem State.modBank_events (p b : Nat) (f : Bank → Bank) : (s.modBank p b f).events = s.events := rfl
@[simp] theorem State.modBank_msix (p b : Nat) (f : Bank → Bank) : (s.modBank p b f).msix = s.msix := rfl
@[simp] theorem State.modBank_hostMem (p b : Nat) (f : Bank → Bank) : (s.modBank p b f).hostMem = s.hostMem := rfl

@[simp] theorem State.setHub_pending (h : Nat) (x : Hub) : (s.setHub h x).pending = s.pending := rfl
@[simp] theorem State.setHub_now (h : Nat) (x : Hub) : (s.setHub h x).now = s.now := rfl
@[simp] theorem State.setHub_freeCtr (h : Nat) (x : Hub) : (s.setHub h x).freeCtr = s.freeCtr := rfl
@[simp] theorem State.setHub_regs (h : Nat) (x : Hub) : (s.setHub h x).regs = s.regs := rfl
@[simp] theorem State.setHub_readData (h : Nat) (x : Hub) : (s.setHub h x).readData = s.readData := rfl
@[simp] theorem State.setHub_cores (h : Nat) (x : Hub) : (s.setHub h x).cores = s.cores := rfl
@[simp] theorem State.setHub_drams (h : Nat) (x : Hub) : (s.setHub h x).drams = s.drams := rfl
@[simp] theorem State.setHub_mesh (h : Nat) (x : Hub) : (s.setHub h x).mesh = s.mesh := rfl
@[simp] theorem State.setHub_gen (h : Nat) (x : Hub) : (s.setHub h x).gen = s.gen := rfl
@[simp] theorem State.setHub_worlds (h : Nat) (x : Hub) : (s.setHub h x).worlds = s.worlds := rfl
@[simp] theorem State.setHub_active (h : Nat) (x : Hub) : (s.setHub h x).active = s.active := rfl
@[simp] theorem State.setHub_shadow (h : Nat) (x : Hub) : (s.setHub h x).shadow = s.shadow := rfl
@[simp] theorem State.setHub_cfg (h : Nat) (x : Hub) : (s.setHub h x).cfg = s.cfg := rfl
@[simp] theorem State.setHub_coll (h : Nat) (x : Hub) : (s.setHub h x).coll = s.coll := rfl
@[simp] theorem State.setHub_vorrad (h : Nat) (x : Hub) : (s.setHub h x).vorrad = s.vorrad := rfl
@[simp] theorem State.setHub_power (h : Nat) (x : Hub) : (s.setHub h x).power = s.power := rfl
@[simp] theorem State.setHub_supply (h : Nat) (x : Hub) : (s.setHub h x).supply = s.supply := rfl
@[simp] theorem State.setHub_boot (h : Nat) (x : Hub) : (s.setHub h x).boot = s.boot := rfl
@[simp] theorem State.setHub_maint (h : Nat) (x : Hub) : (s.setHub h x).maint = s.maint := rfl
@[simp] theorem State.setHub_sec (h : Nat) (x : Hub) : (s.setHub h x).sec = s.sec := rfl
@[simp] theorem State.setHub_rom (h : Nat) (x : Hub) : (s.setHub h x).rom = s.rom := rfl
@[simp] theorem State.setHub_tel (h : Nat) (x : Hub) : (s.setHub h x).tel = s.tel := rfl
@[simp] theorem State.setHub_host (h : Nat) (x : Hub) : (s.setHub h x).host = s.host := rfl
@[simp] theorem State.setHub_events (h : Nat) (x : Hub) : (s.setHub h x).events = s.events := rfl
@[simp] theorem State.setHub_msix (h : Nat) (x : Hub) : (s.setHub h x).msix = s.msix := rfl
@[simp] theorem State.setHub_hostMem (h : Nat) (x : Hub) : (s.setHub h x).hostMem = s.hostMem := rfl

@[simp] theorem State.modHub_pending (h : Nat) (f : Hub → Hub) : (s.modHub h f).pending = s.pending := rfl
@[simp] theorem State.modHub_now (h : Nat) (f : Hub → Hub) : (s.modHub h f).now = s.now := rfl
@[simp] theorem State.modHub_freeCtr (h : Nat) (f : Hub → Hub) : (s.modHub h f).freeCtr = s.freeCtr := rfl
@[simp] theorem State.modHub_regs (h : Nat) (f : Hub → Hub) : (s.modHub h f).regs = s.regs := rfl
@[simp] theorem State.modHub_readData (h : Nat) (f : Hub → Hub) : (s.modHub h f).readData = s.readData := rfl
@[simp] theorem State.modHub_cores (h : Nat) (f : Hub → Hub) : (s.modHub h f).cores = s.cores := rfl
@[simp] theorem State.modHub_drams (h : Nat) (f : Hub → Hub) : (s.modHub h f).drams = s.drams := rfl
@[simp] theorem State.modHub_mesh (h : Nat) (f : Hub → Hub) : (s.modHub h f).mesh = s.mesh := rfl
@[simp] theorem State.modHub_gen (h : Nat) (f : Hub → Hub) : (s.modHub h f).gen = s.gen := rfl
@[simp] theorem State.modHub_worlds (h : Nat) (f : Hub → Hub) : (s.modHub h f).worlds = s.worlds := rfl
@[simp] theorem State.modHub_active (h : Nat) (f : Hub → Hub) : (s.modHub h f).active = s.active := rfl
@[simp] theorem State.modHub_shadow (h : Nat) (f : Hub → Hub) : (s.modHub h f).shadow = s.shadow := rfl
@[simp] theorem State.modHub_cfg (h : Nat) (f : Hub → Hub) : (s.modHub h f).cfg = s.cfg := rfl
@[simp] theorem State.modHub_coll (h : Nat) (f : Hub → Hub) : (s.modHub h f).coll = s.coll := rfl
@[simp] theorem State.modHub_vorrad (h : Nat) (f : Hub → Hub) : (s.modHub h f).vorrad = s.vorrad := rfl
@[simp] theorem State.modHub_power (h : Nat) (f : Hub → Hub) : (s.modHub h f).power = s.power := rfl
@[simp] theorem State.modHub_supply (h : Nat) (f : Hub → Hub) : (s.modHub h f).supply = s.supply := rfl
@[simp] theorem State.modHub_boot (h : Nat) (f : Hub → Hub) : (s.modHub h f).boot = s.boot := rfl
@[simp] theorem State.modHub_maint (h : Nat) (f : Hub → Hub) : (s.modHub h f).maint = s.maint := rfl
@[simp] theorem State.modHub_sec (h : Nat) (f : Hub → Hub) : (s.modHub h f).sec = s.sec := rfl
@[simp] theorem State.modHub_rom (h : Nat) (f : Hub → Hub) : (s.modHub h f).rom = s.rom := rfl
@[simp] theorem State.modHub_tel (h : Nat) (f : Hub → Hub) : (s.modHub h f).tel = s.tel := rfl
@[simp] theorem State.modHub_host (h : Nat) (f : Hub → Hub) : (s.modHub h f).host = s.host := rfl
@[simp] theorem State.modHub_events (h : Nat) (f : Hub → Hub) : (s.modHub h f).events = s.events := rfl
@[simp] theorem State.modHub_msix (h : Nat) (f : Hub → Hub) : (s.modHub h f).msix = s.msix := rfl
@[simp] theorem State.modHub_hostMem (h : Nat) (f : Hub → Hub) : (s.modHub h f).hostMem = s.hostMem := rfl

@[simp] theorem State.setReg_pending (u o v : Nat) : (s.setReg u o v).pending = s.pending := rfl
@[simp] theorem State.setReg_now (u o v : Nat) : (s.setReg u o v).now = s.now := rfl
@[simp] theorem State.setReg_freeCtr (u o v : Nat) : (s.setReg u o v).freeCtr = s.freeCtr := rfl
@[simp] theorem State.setReg_readData (u o v : Nat) : (s.setReg u o v).readData = s.readData := rfl
@[simp] theorem State.setReg_cores (u o v : Nat) : (s.setReg u o v).cores = s.cores := rfl
@[simp] theorem State.setReg_drams (u o v : Nat) : (s.setReg u o v).drams = s.drams := rfl
@[simp] theorem State.setReg_mesh (u o v : Nat) : (s.setReg u o v).mesh = s.mesh := rfl
@[simp] theorem State.setReg_hubs (u o v : Nat) : (s.setReg u o v).hubs = s.hubs := rfl
@[simp] theorem State.setReg_gen (u o v : Nat) : (s.setReg u o v).gen = s.gen := rfl
@[simp] theorem State.setReg_worlds (u o v : Nat) : (s.setReg u o v).worlds = s.worlds := rfl
@[simp] theorem State.setReg_active (u o v : Nat) : (s.setReg u o v).active = s.active := rfl
@[simp] theorem State.setReg_shadow (u o v : Nat) : (s.setReg u o v).shadow = s.shadow := rfl
@[simp] theorem State.setReg_cfg (u o v : Nat) : (s.setReg u o v).cfg = s.cfg := rfl
@[simp] theorem State.setReg_coll (u o v : Nat) : (s.setReg u o v).coll = s.coll := rfl
@[simp] theorem State.setReg_vorrad (u o v : Nat) : (s.setReg u o v).vorrad = s.vorrad := rfl
@[simp] theorem State.setReg_power (u o v : Nat) : (s.setReg u o v).power = s.power := rfl
@[simp] theorem State.setReg_supply (u o v : Nat) : (s.setReg u o v).supply = s.supply := rfl
@[simp] theorem State.setReg_boot (u o v : Nat) : (s.setReg u o v).boot = s.boot := rfl
@[simp] theorem State.setReg_maint (u o v : Nat) : (s.setReg u o v).maint = s.maint := rfl
@[simp] theorem State.setReg_sec (u o v : Nat) : (s.setReg u o v).sec = s.sec := rfl
@[simp] theorem State.setReg_rom (u o v : Nat) : (s.setReg u o v).rom = s.rom := rfl
@[simp] theorem State.setReg_tel (u o v : Nat) : (s.setReg u o v).tel = s.tel := rfl
@[simp] theorem State.setReg_host (u o v : Nat) : (s.setReg u o v).host = s.host := rfl
@[simp] theorem State.setReg_events (u o v : Nat) : (s.setReg u o v).events = s.events := rfl
@[simp] theorem State.setReg_msix (u o v : Nat) : (s.setReg u o v).msix = s.msix := rfl
@[simp] theorem State.setReg_hostMem (u o v : Nat) : (s.setReg u o v).hostMem = s.hostMem := rfl

@[simp] theorem State.setAccess_pending (id : Nat) (a : Option Access) : (s.setAccess id a).pending = s.pending := rfl
@[simp] theorem State.setAccess_now (id : Nat) (a : Option Access) : (s.setAccess id a).now = s.now := rfl
@[simp] theorem State.setAccess_freeCtr (id : Nat) (a : Option Access) : (s.setAccess id a).freeCtr = s.freeCtr := rfl
@[simp] theorem State.setAccess_regs (id : Nat) (a : Option Access) : (s.setAccess id a).regs = s.regs := rfl
@[simp] theorem State.setAccess_readData (id : Nat) (a : Option Access) : (s.setAccess id a).readData = s.readData := rfl
@[simp] theorem State.setAccess_cores (id : Nat) (a : Option Access) : (s.setAccess id a).cores = s.cores := rfl
@[simp] theorem State.setAccess_drams (id : Nat) (a : Option Access) : (s.setAccess id a).drams = s.drams := rfl
@[simp] theorem State.setAccess_hubs (id : Nat) (a : Option Access) : (s.setAccess id a).hubs = s.hubs := rfl
@[simp] theorem State.setAccess_gen (id : Nat) (a : Option Access) : (s.setAccess id a).gen = s.gen := rfl
@[simp] theorem State.setAccess_worlds (id : Nat) (a : Option Access) : (s.setAccess id a).worlds = s.worlds := rfl
@[simp] theorem State.setAccess_active (id : Nat) (a : Option Access) : (s.setAccess id a).active = s.active := rfl
@[simp] theorem State.setAccess_shadow (id : Nat) (a : Option Access) : (s.setAccess id a).shadow = s.shadow := rfl
@[simp] theorem State.setAccess_cfg (id : Nat) (a : Option Access) : (s.setAccess id a).cfg = s.cfg := rfl
@[simp] theorem State.setAccess_coll (id : Nat) (a : Option Access) : (s.setAccess id a).coll = s.coll := rfl
@[simp] theorem State.setAccess_vorrad (id : Nat) (a : Option Access) : (s.setAccess id a).vorrad = s.vorrad := rfl
@[simp] theorem State.setAccess_power (id : Nat) (a : Option Access) : (s.setAccess id a).power = s.power := rfl
@[simp] theorem State.setAccess_supply (id : Nat) (a : Option Access) : (s.setAccess id a).supply = s.supply := rfl
@[simp] theorem State.setAccess_boot (id : Nat) (a : Option Access) : (s.setAccess id a).boot = s.boot := rfl
@[simp] theorem State.setAccess_maint (id : Nat) (a : Option Access) : (s.setAccess id a).maint = s.maint := rfl
@[simp] theorem State.setAccess_sec (id : Nat) (a : Option Access) : (s.setAccess id a).sec = s.sec := rfl
@[simp] theorem State.setAccess_rom (id : Nat) (a : Option Access) : (s.setAccess id a).rom = s.rom := rfl
@[simp] theorem State.setAccess_tel (id : Nat) (a : Option Access) : (s.setAccess id a).tel = s.tel := rfl
@[simp] theorem State.setAccess_host (id : Nat) (a : Option Access) : (s.setAccess id a).host = s.host := rfl
@[simp] theorem State.setAccess_events (id : Nat) (a : Option Access) : (s.setAccess id a).events = s.events := rfl
@[simp] theorem State.setAccess_msix (id : Nat) (a : Option Access) : (s.setAccess id a).msix = s.msix := rfl
@[simp] theorem State.setAccess_hostMem (id : Nat) (a : Option Access) : (s.setAccess id a).hostMem = s.hostMem := rfl

@[simp] theorem State.setPacket_pending (k : Nat) (x : Option Packet) : (s.setPacket k x).pending = s.pending := rfl
@[simp] theorem State.setPacket_now (k : Nat) (x : Option Packet) : (s.setPacket k x).now = s.now := rfl
@[simp] theorem State.setPacket_freeCtr (k : Nat) (x : Option Packet) : (s.setPacket k x).freeCtr = s.freeCtr := rfl
@[simp] theorem State.setPacket_regs (k : Nat) (x : Option Packet) : (s.setPacket k x).regs = s.regs := rfl
@[simp] theorem State.setPacket_readData (k : Nat) (x : Option Packet) : (s.setPacket k x).readData = s.readData := rfl
@[simp] theorem State.setPacket_cores (k : Nat) (x : Option Packet) : (s.setPacket k x).cores = s.cores := rfl
@[simp] theorem State.setPacket_drams (k : Nat) (x : Option Packet) : (s.setPacket k x).drams = s.drams := rfl
@[simp] theorem State.setPacket_hubs (k : Nat) (x : Option Packet) : (s.setPacket k x).hubs = s.hubs := rfl
@[simp] theorem State.setPacket_gen (k : Nat) (x : Option Packet) : (s.setPacket k x).gen = s.gen := rfl
@[simp] theorem State.setPacket_worlds (k : Nat) (x : Option Packet) : (s.setPacket k x).worlds = s.worlds := rfl
@[simp] theorem State.setPacket_active (k : Nat) (x : Option Packet) : (s.setPacket k x).active = s.active := rfl
@[simp] theorem State.setPacket_shadow (k : Nat) (x : Option Packet) : (s.setPacket k x).shadow = s.shadow := rfl
@[simp] theorem State.setPacket_cfg (k : Nat) (x : Option Packet) : (s.setPacket k x).cfg = s.cfg := rfl
@[simp] theorem State.setPacket_coll (k : Nat) (x : Option Packet) : (s.setPacket k x).coll = s.coll := rfl
@[simp] theorem State.setPacket_vorrad (k : Nat) (x : Option Packet) : (s.setPacket k x).vorrad = s.vorrad := rfl
@[simp] theorem State.setPacket_power (k : Nat) (x : Option Packet) : (s.setPacket k x).power = s.power := rfl
@[simp] theorem State.setPacket_supply (k : Nat) (x : Option Packet) : (s.setPacket k x).supply = s.supply := rfl
@[simp] theorem State.setPacket_boot (k : Nat) (x : Option Packet) : (s.setPacket k x).boot = s.boot := rfl
@[simp] theorem State.setPacket_maint (k : Nat) (x : Option Packet) : (s.setPacket k x).maint = s.maint := rfl
@[simp] theorem State.setPacket_sec (k : Nat) (x : Option Packet) : (s.setPacket k x).sec = s.sec := rfl
@[simp] theorem State.setPacket_rom (k : Nat) (x : Option Packet) : (s.setPacket k x).rom = s.rom := rfl
@[simp] theorem State.setPacket_tel (k : Nat) (x : Option Packet) : (s.setPacket k x).tel = s.tel := rfl
@[simp] theorem State.setPacket_host (k : Nat) (x : Option Packet) : (s.setPacket k x).host = s.host := rfl
@[simp] theorem State.setPacket_events (k : Nat) (x : Option Packet) : (s.setPacket k x).events = s.events := rfl
@[simp] theorem State.setPacket_msix (k : Nat) (x : Option Packet) : (s.setPacket k x).msix = s.msix := rfl
@[simp] theorem State.setPacket_hostMem (k : Nat) (x : Option Packet) : (s.setPacket k x).hostMem = s.hostMem := rfl

@[simp] theorem State.writeHost_pending (a : Nat) (bs : List Byte) : (s.writeHost a bs).pending = s.pending := rfl
@[simp] theorem State.writeHost_now (a : Nat) (bs : List Byte) : (s.writeHost a bs).now = s.now := rfl
@[simp] theorem State.writeHost_freeCtr (a : Nat) (bs : List Byte) : (s.writeHost a bs).freeCtr = s.freeCtr := rfl
@[simp] theorem State.writeHost_regs (a : Nat) (bs : List Byte) : (s.writeHost a bs).regs = s.regs := rfl
@[simp] theorem State.writeHost_readData (a : Nat) (bs : List Byte) : (s.writeHost a bs).readData = s.readData := rfl
@[simp] theorem State.writeHost_cores (a : Nat) (bs : List Byte) : (s.writeHost a bs).cores = s.cores := rfl
@[simp] theorem State.writeHost_drams (a : Nat) (bs : List Byte) : (s.writeHost a bs).drams = s.drams := rfl
@[simp] theorem State.writeHost_mesh (a : Nat) (bs : List Byte) : (s.writeHost a bs).mesh = s.mesh := rfl
@[simp] theorem State.writeHost_hubs (a : Nat) (bs : List Byte) : (s.writeHost a bs).hubs = s.hubs := rfl
@[simp] theorem State.writeHost_gen (a : Nat) (bs : List Byte) : (s.writeHost a bs).gen = s.gen := rfl
@[simp] theorem State.writeHost_worlds (a : Nat) (bs : List Byte) : (s.writeHost a bs).worlds = s.worlds := rfl
@[simp] theorem State.writeHost_active (a : Nat) (bs : List Byte) : (s.writeHost a bs).active = s.active := rfl
@[simp] theorem State.writeHost_shadow (a : Nat) (bs : List Byte) : (s.writeHost a bs).shadow = s.shadow := rfl
@[simp] theorem State.writeHost_cfg (a : Nat) (bs : List Byte) : (s.writeHost a bs).cfg = s.cfg := rfl
@[simp] theorem State.writeHost_coll (a : Nat) (bs : List Byte) : (s.writeHost a bs).coll = s.coll := rfl
@[simp] theorem State.writeHost_vorrad (a : Nat) (bs : List Byte) : (s.writeHost a bs).vorrad = s.vorrad := rfl
@[simp] theorem State.writeHost_power (a : Nat) (bs : List Byte) : (s.writeHost a bs).power = s.power := rfl
@[simp] theorem State.writeHost_supply (a : Nat) (bs : List Byte) : (s.writeHost a bs).supply = s.supply := rfl
@[simp] theorem State.writeHost_boot (a : Nat) (bs : List Byte) : (s.writeHost a bs).boot = s.boot := rfl
@[simp] theorem State.writeHost_maint (a : Nat) (bs : List Byte) : (s.writeHost a bs).maint = s.maint := rfl
@[simp] theorem State.writeHost_sec (a : Nat) (bs : List Byte) : (s.writeHost a bs).sec = s.sec := rfl
@[simp] theorem State.writeHost_rom (a : Nat) (bs : List Byte) : (s.writeHost a bs).rom = s.rom := rfl
@[simp] theorem State.writeHost_tel (a : Nat) (bs : List Byte) : (s.writeHost a bs).tel = s.tel := rfl
@[simp] theorem State.writeHost_host (a : Nat) (bs : List Byte) : (s.writeHost a bs).host = s.host := rfl
@[simp] theorem State.writeHost_events (a : Nat) (bs : List Byte) : (s.writeHost a bs).events = s.events := rfl
@[simp] theorem State.writeHost_msix (a : Nat) (bs : List Byte) : (s.writeHost a bs).msix = s.msix := rfl

@[simp] theorem State.advanceTo_now (t : Nat) : (s.advanceTo t).now = Nat.max s.now t := rfl

end Sys2Proof.Machine
end

