-- ==== Sys2Proof/Laws/Issue.lean ====
section
/-!
SUPPORT. The laws of cores and slots, and what the issue of an instruction does (`tpIssue`): every case of it once.
-/
namespace Sys2Proof.Machine

/-! Cores and slots. -/

@[simp] theorem State.core_setCore_same (s : State) (p : Nat) (c : Core) : (s.setCore p c).core p = c := by
  simp [State.core, State.setCore]

@[simp] theorem State.core_modCore_same (s : State) (p : Nat) (f : Core → Core) :
    (s.modCore p f).core p = f (s.core p) := by
  simp [State.modCore]

theorem State.core_setCore_other (s : State) {p q : Nat} (c : Core) (h : q ≠ p) :
    (s.setCore p c).core q = s.core q := by
  simp [State.core, State.setCore, SMap.get_set_other _ _ _ _ h]

theorem State.core_modCore_other (s : State) {p q : Nat} (f : Core → Core) (h : q ≠ p) :
    (s.modCore p f).core q = s.core q := State.core_setCore_other s _ h

@[simp] theorem State.core_advanceTo (s : State) (t p : Nat) : (s.advanceTo t).core p = s.core p := rfl

@[simp] theorem State.slot_advanceTo (s : State) (t p i : Nat) : (s.advanceTo t).slot p i = s.slot p i := rfl

@[simp] theorem Core.slot_setSlot_same (c : Core) (i : Nat) (sl : Slot) : (c.setSlot i sl).slot i = sl := by
  simp [Core.slot, Core.setSlot]

theorem Core.slot_setSlot_other (c : Core) {i j : Nat} (sl : Slot) (h : j ≠ i) :
    (c.setSlot i sl).slot j = c.slot j := by
  simp [Core.slot, Core.setSlot, SMap.get_set_other _ _ _ _ h]

@[simp] theorem Core.slot_modSlot_same (c : Core) (i : Nat) (f : Slot → Slot) : (c.modSlot i f).slot i = f (c.slot i) := by
  simp [Core.modSlot]

theorem Core.slot_modSlot_other (c : Core) {i j : Nat} (f : Slot → Slot) (h : j ≠ i) :
    (c.modSlot i f).slot j = c.slot j := Core.slot_setSlot_other c _ h

@[simp] theorem State.slot_modSlot_same (s : State) (p i : Nat) (f : Slot → Slot) :
    (s.modSlot p i f).slot p i = f (s.slot p i) := by
  simp [State.slot, State.modSlot]

/-- A core is the same but for its slots. -/
theorem Core.setSlot_rest (c : Core) (i : Nat) (sl : Slot) (m : SMap Slot) :
    ({ c.setSlot i sl with slots := m } : Core) = { c with slots := m } := rfl

/-- A register write reads back; g0 stays zero (R62). -/
theorem Slot.reg_setReg (sl : Slot) (r q : Nat) (v : Word) :
    (sl.setReg r v).reg q = if q = 0 then 0 else if q = r then v else sl.reg q := by
  unfold Slot.setReg Slot.reg
  by_cases hq : q = 0
  · simp [hq]
  · by_cases hr : r = 0
    · subst hr; simp [hq]
    · simp [hq, hr, SMap.get_set]

/-! The issue of an instruction. -/

/-- The end of the YIELD of the other slots of a core. -/
def Core.endYields (c : Core) (i t : Nat) (js : List Nat) : Core :=
  js.foldl (fun c j =>
    let sl := c.slot j
    if j != i && sl.yielding then c.setSlot j { sl with yielding := false, readyAt := min sl.readyAt (t + 1) } else c) c

theorem Core.endYields_frame (i t : Nat) (js : List Nat) : ∀ c : Core,
    (c.endYields i t js).slot i = c.slot i
      ∧ ({ c.endYields i t js with slots := c.slots } : Core) = c
      ∧ ∀ j, ({ (c.endYields i t js).slot j with
          yielding := (c.slot j).yielding, readyAt := (c.slot j).readyAt } : Slot) = c.slot j := by
  induction js with
  | nil => intro c; exact ⟨rfl, rfl, fun _ => rfl⟩
  | cons k js ih =>
    intro c
    simp only [Core.endYields, List.foldl_cons]
    split
    · rename_i h
      simp only [Bool.and_eq_true, bne_iff_ne, ne_eq] at h
      obtain ⟨h1, h2, h3⟩ := ih (c.setSlot k { c.slot k with
        yielding := false, readyAt := min (c.slot k).readyAt (t + 1) })
      simp only [Core.endYields] at h1 h2 h3
      refine ⟨h1.trans (Core.slot_setSlot_other c _ (fun e => h.1 e.symm)), ?_, fun j => ?_⟩
      · have := congrArg (fun c' : Core => ({ c' with slots := c.slots } : Core)) h2
        exact this
      · by_cases hj : j = k
        · subst hj
          have h := h3 j
          rw [Core.slot_setSlot_same] at h
          have e := congrArg (fun x : Slot => ({ x with
            yielding := (c.slot j).yielding, readyAt := (c.slot j).readyAt } : Slot)) h
          exact e
        · have := h3 j
          rw [Core.slot_setSlot_other c _ hj] at this
          exact this
    · exact ih c

theorem Core.beginIssue_eq (c : Core) (i t : Nat) :
    c.beginIssue i t = { ((c.endYields i t (List.range 8)).modSlot i (fun sl => sl.flush.ripen t)) with lastSlot := i, issueAt := t + 1 } := rfl

/-- What `beginIssue` does: the issuing slot's pending write lands, and the rest of the core is as it was but for the issue
bookkeeping and the ends of YIELD. -/
theorem Core.beginIssue_spec (c : Core) (i t : Nat) :
    (c.beginIssue i t).slot i = (c.slot i).flush.ripen t
      ∧ (c.beginIssue i t).lastSlot = i ∧ (c.beginIssue i t).issueAt = t + 1
      ∧ ({ c.beginIssue i t with slots := c.slots, lastSlot := c.lastSlot, issueAt := c.issueAt } : Core) = c
      ∧ ∀ j, j ≠ i → ({ (c.beginIssue i t).slot j with
          yielding := (c.slot j).yielding, readyAt := (c.slot j).readyAt } : Slot) = c.slot j := by
  obtain ⟨h1, h2, h3⟩ := Core.endYields_frame i t (List.range 8) c
  rw [Core.beginIssue_eq]
  refine ⟨?_, rfl, rfl, ?_, fun j hj => ?_⟩
  · have : ((c.endYields i t (List.range 8)).modSlot i (fun sl => sl.flush.ripen t)).slot i = (c.slot i).flush.ripen t := by
      rw [Core.slot_modSlot_same, h1]
    exact this
  · have := congrArg (fun c' : Core => ({ c' with lastSlot := c.lastSlot, issueAt := c.issueAt } : Core)) h2
    exact this
  · have := h3 j
    have e : ((c.endYields i t (List.range 8)).modSlot i (fun sl => sl.flush.ripen t)).slot j = (c.endYields i t (List.range 8)).slot j :=
      Core.slot_modSlot_other _ _ hj
    rw [← e] at this
    exact this

/-- The state in the issue cycle of slot `a`. -/
def State.issued (s : State) (a : At) : State :=
  let t := Nat.max s.now ((s.core a.core.val).issueTime a.slot.val)
  (s.advanceTo ((s.core a.core.val).issueTime a.slot.val)).modCore a.core.val (fun c => c.beginIssue a.slot.val t)

/-- The outcomes of an issue: nothing while the slot cannot issue or its bytes are not in the cache, or another slot goes first; a fault of the fetch;
an illegal instruction; its effect. -/
theorem tpIssue_cases (a : At) (len word : Nat) (legal : Bool) (body : State → State) (s : State) :
    tpIssue a len word legal body s =
      if !(s.slot a.core.val a.slot.val).canIssue || s.coreDown a.core.val || !(s.core a.core.val).itsTurn s.now a.slot.val then .next s
      else if !(s.slot a.core.val a.slot.val).fetchInside len then
        .next ((s.issued a).takeFault a.core.val a.slot.val fCodeBound
          ((s.slot a.core.val a.slot.val).branchFrom.getD (s.slot a.core.val a.slot.val).pc) (s.slot a.core.val a.slot.val).pc)
      else if !(s.core a.core.val).fetchPresent (s.slot a.core.val a.slot.val) len then .next s
      else if !legal then
        .next ((s.issued a).takeFault a.core.val a.slot.val fIllegal (s.slot a.core.val a.slot.val).pc (BitVec.ofNat 64 word))
      else .next (body (s.issued a)) := rfl

@[simp] theorem State.slot_issued (s : State) (a : At) :
    (s.issued a).slot a.core.val a.slot.val = (s.slot a.core.val a.slot.val).flush.ripen (s.issued a).now := by
  simp only [State.issued, State.slot, State.core_modCore_same, State.core_advanceTo]
  exact (Core.beginIssue_spec _ _ _).1

@[simp] theorem State.issued_now (s : State) (a : At) :
    (s.issued a).now = Nat.max s.now ((s.core a.core.val).issueTime a.slot.val) := rfl

/-- An instruction whose only effect is on its own slot, when it issues. -/
theorem tpSimple_next (a : At) (len word : Nat) (f : Slot → Slot) (s : State)
    (hi : (s.slot a.core.val a.slot.val).canIssue = true) (hd : s.coreDown a.core.val = false)
    (ht : (s.core a.core.val).itsTurn s.now a.slot.val = true) (hf : (s.slot a.core.val a.slot.val).fetchInside len = true)
    (hp : (s.core a.core.val).fetchPresent (s.slot a.core.val a.slot.val) len = true) :
    tpSimple a len word true f s =
      .next ((s.issued a).modSlot a.core.val a.slot.val (fun sl => f (sl.advance len (s.issued a).now))) := by
  simp [tpSimple, tpIssue_cases, hi, hd, ht, hf, hp]

end Sys2Proof.Machine
end

