-- ==== Sys2Proof/Laws/Memory.lean ====
section
/-!
SUPPORT. The laws of the addressed memories: every operation on host memory, a scratchpad or a DRAM stack keeps its canonical
form, and the operations that every family shares keep the queue, the fuses and the memories' form (`State.Keeps`).
-/
namespace Sys2Proof

/-! Every value of a sparse map. -/

theorem SMap.forall_put {α : Type} {P : α → Prop} {m : SMap α} {k : Nat} {v : α} (h : ∀ e ∈ m, P e.2) (hv : P v) :
    ∀ e ∈ SMap.put m k v, P e.2 := by
  induction m with
  | nil => simpa [SMap.put] using hv
  | cons x m ih =>
    obtain ⟨j, w⟩ := x
    have h1 : P w := h (j, w) (List.mem_cons_self ..)
    have h2 : ∀ e ∈ m, P e.2 := fun e he => h e (List.mem_cons_of_mem _ he)
    simp only [SMap.put]
    split
    · simpa [hv, h1] using h2
    · split
      · simpa [hv] using h2
      · simpa [h1] using ih h2

theorem SMap.forall_del {α : Type} {P : α → Prop} {m : SMap α} {k : Nat} (h : ∀ e ∈ m, P e.2) :
    ∀ e ∈ SMap.del m k, P e.2 := by
  induction m with
  | nil => simp [SMap.del]
  | cons x m ih =>
    obtain ⟨j, w⟩ := x
    have h2 : ∀ e ∈ m, P e.2 := fun e he => h e (List.mem_cons_of_mem _ he)
    simp only [SMap.del]
    split
    · exact ih h2
    · simpa [h (j, w) (List.mem_cons_self ..)] using ih h2

theorem SMap.forall_set {α : Type} [DecidableEq α] {P : α → Prop} {d : α} {m : SMap α} {k : Nat} {v : α}
    (h : ∀ e ∈ m, P e.2) (hv : P v) : ∀ e ∈ SMap.set d m k v, P e.2 := by
  unfold SMap.set
  split
  · exact SMap.forall_del h
  · exact SMap.forall_put h hv

theorem SMap.forall_get {α : Type} {P : α → Prop} {d : α} {m : SMap α} (h : ∀ e ∈ m, P e.2) (hd : P d) (k : Nat) :
    P (SMap.get d m k) := by
  induction m with
  | nil => exact hd
  | cons x m ih =>
    obtain ⟨j, w⟩ := x
    simp only [SMap.get]
    split
    · exact h (j, w) (List.mem_cons_self ..)
    · exact ih fun e he => h e (List.mem_cons_of_mem _ he)

theorem SMap.forall_mapAll {α : Type} [DecidableEq α] {P : α → Prop} {d : α} {f : Nat → α → α} {m : SMap α}
    (h : ∀ e ∈ m, P e.2) (hf : ∀ j v, P v → P (f j v)) : ∀ e ∈ SMap.mapAll d f m, P e.2 := by
  induction m with
  | nil => simp [SMap.mapAll]
  | cons x m ih =>
    obtain ⟨j, w⟩ := x
    have h1 : P (f j w) := hf j w (h (j, w) (List.mem_cons_self ..))
    have h2 := ih fun e he => h e (List.mem_cons_of_mem _ he)
    simp only [SMap.mapAll]
    split
    · exact h2
    · simpa [h1] using h2

namespace Machine

/-! Canonical memories. -/

theorem Memory.wf_nil : Memory.wf [] = true := rfl

theorem Memory.wf_set {m : SMap Byte} (k : Nat) (v : Byte) (h : Memory.wf m = true) : Memory.wf (SMap.set 0 m k v) = true :=
  SMap.wf_set (fun _ => 0) m k v h

theorem Memory.wf_setRange {m : SMap Byte} (k : Nat) (vs : List Byte) (h : Memory.wf m = true) :
    Memory.wf (SMap.setRange 0 m k vs) = true :=
  SMap.wf_setRange 0 m k vs h

theorem Memory.wf_drop {m : SMap Byte} (p : Nat → Bool) (h : Memory.wf m = true) : Memory.wf (SMap.drop p m) = true :=
  SMap.wf_drop (fun _ => 0) p m h

/-- A write of the bytes that a mask names. -/
theorem Memory.wf_masked {m : SMap Byte} (l : List Nat) (c : Nat → Bool) (o : Nat) (v : Nat → Byte) (h : Memory.wf m = true) :
    Memory.wf (l.foldl (fun m i => if c i then SMap.set 0 m (o + i) (v i) else m) m) = true := by
  induction l generalizing m with
  | nil => exact h
  | cons i l ih =>
    rw [List.foldl_cons]
    apply ih
    split
    · exact Memory.wf_set _ _ h
    · exact h

theorem Spad.write_wf {sp : Spad} (o : Nat) (bs : List Byte) (h : Memory.wf sp.bytes = true) :
    Memory.wf (sp.write o bs).bytes = true := Memory.wf_setRange o bs h

/-- The memories of a state, one by one. -/
theorem State.memoriesCanonical_iff (s : State) :
    s.memoriesCanonical = true ↔ Memory.wf s.hostMem = true ∧ (∀ e ∈ s.cores, Memory.wf e.2.spad.bytes = true)
      ∧ ∀ e ∈ s.drams, Memory.wf e.2.bytes = true := by
  simp [State.memoriesCanonical, and_assoc]

theorem State.memoriesCanonical_reset : State.reset.memoriesCanonical = true := rfl

theorem State.spad_wf {s : State} (h : s.memoriesCanonical = true) (p : Nat) : Memory.wf (s.core p).spad.bytes = true :=
  SMap.forall_get (P := fun c : Core => Memory.wf c.spad.bytes = true) ((State.memoriesCanonical_iff s).1 h).2.1 rfl p

theorem State.dram_wf {s : State} (h : s.memoriesCanonical = true) (site : Nat) : Memory.wf (s.dram site).bytes = true :=
  SMap.forall_get (P := fun d : Dram => Memory.wf d.bytes = true) ((State.memoriesCanonical_iff s).1 h).2.2 rfl site

/-! What every shared operation keeps. -/

/-- The queue and the fuses are the same, and canonical memories stay canonical. -/
structure State.Keeps (s t : State) : Prop where
  pending : t.pending = s.pending
  rom : t.rom = s.rom
  memories : s.memoriesCanonical = true → t.memoriesCanonical = true

theorem State.Keeps.refl (s : State) : s.Keeps s := ⟨rfl, rfl, id⟩

theorem State.Keeps.trans {s t u : State} (h : s.Keeps t) (k : t.Keeps u) : s.Keeps u :=
  ⟨k.pending.trans h.pending, k.rom.trans h.rom, k.memories ∘ h.memories⟩

/-- A step that writes neither of them, nor a memory. -/
theorem State.Keeps.of_eq {s t : State} (h1 : t.pending = s.pending) (h2 : t.rom = s.rom) (h3 : t.hostMem = s.hostMem)
    (h4 : t.cores = s.cores) (h5 : t.drams = s.drams) : s.Keeps t :=
  ⟨h1, h2, fun h => by simpa [State.memoriesCanonical, h3, h4, h5] using h⟩

theorem State.Keeps.foldl {α : Type} {f : State → α → State} (h : ∀ (s : State) (a : α), s.Keeps (f s a)) (l : List α) (s : State) :
    s.Keeps (l.foldl f s) := by
  induction l generalizing s with
  | nil => exact .refl s
  | cons a l ih => exact (h s a).trans (ih (f s a))

theorem State.Keeps.ite {c : Prop} [Decidable c] {s t u : State} (h : s.Keeps t) (k : s.Keeps u) :
    s.Keeps (if c then t else u) := by
  split
  · exact h
  · exact k

theorem State.setReg_keeps (s : State) (u off v : Nat) : s.Keeps (s.setReg u off v) := .of_eq rfl rfl rfl rfl rfl
theorem State.setFld_keeps (s : State) (u off lo w v : Nat) : s.Keeps (s.setFld u off lo w v) := .of_eq rfl rfl rfl rfl rfl
theorem State.bump_keeps (s : State) (u off lo w n : Nat) : s.Keeps (s.bump u off lo w n) := .of_eq rfl rfl rfl rfl rfl
theorem State.advanceTo_keeps (s : State) (t : Nat) : s.Keeps (s.advanceTo t) := .of_eq rfl rfl rfl rfl rfl
theorem State.freeNat_keeps (s : State) : s.Keeps s.freeNat.2 := .of_eq rfl rfl rfl rfl rfl
theorem State.freeBit_keeps (s : State) : s.Keeps s.freeBit.2 := .of_eq rfl rfl rfl rfl rfl
theorem State.hostRefused_keeps (s : State) : s.Keeps s.hostRefused := s.bump_keeps _ _ _ _ _

/-- A core changes, and its scratchpad stays canonical. -/
theorem State.modCore_keeps (s : State) (p : Nat) (f : Core → Core)
    (h : Memory.wf (s.core p).spad.bytes = true → Memory.wf (f (s.core p)).spad.bytes = true) : s.Keeps (s.modCore p f) :=
  ⟨rfl, rfl, fun c => (State.memoriesCanonical_iff _).2
    ⟨((State.memoriesCanonical_iff s).1 c).1,
      SMap.forall_set (P := fun x : Core => Memory.wf x.spad.bytes = true) ((State.memoriesCanonical_iff s).1 c).2.1
        (h (State.spad_wf c p)),
      ((State.memoriesCanonical_iff s).1 c).2.2⟩⟩

theorem State.modSlot_keeps (s : State) (p i : Nat) (f : Slot → Slot) : s.Keeps (s.modSlot p i f) := s.modCore_keeps p _ id

theorem State.modSpad_keeps (s : State) (p : Nat) (f : Spad → Spad)
    (h : Memory.wf (s.spad p).bytes = true → Memory.wf (f (s.spad p)).bytes = true) : s.Keeps (s.modSpad p f) :=
  s.modCore_keeps p _ h

theorem State.modBank_keeps (s : State) (p b : Nat) (f : Bank → Bank) : s.Keeps (s.modBank p b f) := s.modSpad_keeps p _ id

theorem State.modDram_keeps (s : State) (site : Nat) (f : Dram → Dram)
    (h : Memory.wf (s.dram site).bytes = true → Memory.wf (f (s.dram site)).bytes = true) : s.Keeps (s.modDram site f) :=
  ⟨rfl, rfl, fun c => (State.memoriesCanonical_iff _).2
    ⟨((State.memoriesCanonical_iff s).1 c).1, ((State.memoriesCanonical_iff s).1 c).2.1,
      SMap.forall_set (P := fun x : Dram => Memory.wf x.bytes = true) ((State.memoriesCanonical_iff s).1 c).2.2
        (h (State.dram_wf c site))⟩⟩

theorem State.writeHost_keeps (s : State) (a : Nat) (bs : List Byte) : s.Keeps (s.writeHost a bs) :=
  ⟨rfl, rfl, fun c => (State.memoriesCanonical_iff _).2
    ⟨Memory.wf_setRange a bs ((State.memoriesCanonical_iff s).1 c).1, ((State.memoriesCanonical_iff s).1 c).2⟩⟩

/-! Interrupts and events. -/

theorem State.signal_keeps (s : State) (v : Nat) : s.Keeps (s.signal v) := by
  unfold State.signal
  exact .ite (.refl s) (.ite (.of_eq rfl rfl rfl rfl rfl) (.of_eq rfl rfl rfl rfl rfl))

theorem State.ringWrite_keeps (s : State) (r : Ring) (e : Event) : s.Keeps (s.ringWrite r e) := by
  have h (x : Events) : s.Keeps { s.writeHost (r.base + 32 * s.events.tail) (e.bytes s.events.phase) with events := x } :=
    (s.writeHost_keeps _ _).trans (.of_eq rfl rfl rfl rfl rfl)
  unfold State.ringWrite
  exact .ite ((h _).trans (State.signal_keeps _ _)) (h _)

theorem State.loseEvent_keeps (s : State) (e : Event) : s.Keeps (s.loseEvent e) := .of_eq rfl rfl rfl rfl rfl

theorem State.publish_keeps (s : State) (e : Event) : s.Keeps (s.publish e) := by
  unfold State.publish
  split
  · exact .ite (s.loseEvent_keeps e) (.ite (s.hostRefused_keeps.trans (State.loseEvent_keeps _ e)) (s.ringWrite_keeps _ e))
  · exact .ite (.ite (.of_eq rfl rfl rfl rfl rfl) (s.loseEvent_keeps e)) (.refl s)

theorem State.pushMctp_keeps (s : State) (e : Event) : s.Keeps (s.pushMctp e) := by
  unfold State.pushMctp
  exact .ite (.of_eq rfl rfl rfl rfl rfl) (.refl s)

theorem State.emit_keeps (s : State) (e : Event) : s.Keeps (s.emit e) := by
  unfold State.emit
  exact .ite (.of_eq rfl rfl rfl rfl rfl) ((s.publish_keeps e).trans (State.pushMctp_keeps _ e))

theorem State.raise_keeps (s : State) (sev : Severity) (code : Nat) (src : EventSrc) (tick : Option Nat) (data : Nat)
    (injected : Bool) : s.Keeps (s.raise sev code src tick data injected) :=
  State.Keeps.trans (t := (s.makeEvent sev code src tick data injected).2) (.of_eq rfl rfl rfl rfl rfl) (State.emit_keeps _ _)

theorem State.raiseHeld_keeps (s : State) (sev : Severity) (code : Nat) (src : EventSrc) (tick : Option Nat) (data : Nat) :
    s.Keeps (s.raiseHeld sev code src tick data) := .of_eq rfl rfl rfl rfl rfl

theorem State.notice_keeps (s : State) (p kind tick att : Nat) : s.Keeps (s.notice p kind tick att) := s.modCore_keeps p _ id

theorem State.raiseCore_keeps (s : State) (p slot : Nat) (sev : Severity) (code : Nat) (run : Option (Nat × Nat)) (data : Nat)
    (ahead : Bool) : s.Keeps (s.raiseCore p slot sev code run data ahead) := s.modCore_keeps p _ id

theorem State.noteHw_keeps (s : State) (u a m k : Nat) : s.Keeps (s.noteHw u a m k) := .of_eq rfl rfl rfl rfl rfl

theorem State.takeFault_keeps (s : State) (p i code : Nat) (pc addr : Word) : s.Keeps (s.takeFault p i code pc addr) := by
  unfold State.takeFault
  dsimp only
  refine .trans ?_ (State.raiseCore_keeps _ _ _ _ _ _ _ _)
  refine .trans ?_ (State.notice_keeps _ _ _ _ _)
  exact .trans (.trans (s.modSlot_keeps p i _) (State.noteHw_keeps _ _ _ _ _)) (State.bump_keeps _ _ _ _ _ _)

/-! Writes to a scratchpad or to DRAM. -/

theorem State.modUe_keeps (s : State) (p : Nat) (g : Spad → SMap Bool) :
    s.Keeps (s.modSpad p (fun sp => { sp with ue := g sp })) := s.modSpad_keeps p _ id

theorem State.spadWrite_keeps (s : State) (p o : Nat) (bs : List Byte) (dbl : Nat → Bool) :
    s.Keeps (s.spadWrite p o bs dbl) := by
  unfold State.spadWrite
  dsimp only
  refine .trans ?_ (.foldl (fun s w => s.raiseCore_keeps _ _ _ _ _ _ _) _ _)
  refine .trans ?_ (State.modSpad_keeps _ p (fun sp => sp.write o bs) fun h => Spad.write_wf o bs h)
  exact s.modUe_keeps p _

theorem Dram.setPoison_bytes (d : Dram) (o : Nat) (b : Bool) : (d.setPoison o b).bytes = d.bytes := rfl
theorem Dram.modPort_bytes (d : Dram) (p : Nat) (f : DramPort → DramPort) : (d.modPort p f).bytes = d.bytes := rfl

theorem State.modPort_keeps (s : State) (site p : Nat) (f : DramPort → DramPort) : s.Keeps (s.modPort site p f) :=
  s.modDram_keeps site _ id

theorem State.appendLog_keeps (s : State) (k a b c : Nat) : s.Keeps (s.appendLog k a b c) := .of_eq rfl rfl rfl rfl rfl

theorem State.maint_keeps (s : State) (m : Maint) : s.Keeps { s with maint := m } := ⟨rfl, rfl, id⟩

theorem State.dramErr_keeps (s : State) (site o : Nat) (ue patrol : Bool) : s.Keeps (s.dramErr site o ue patrol) :=
  s.setReg_keeps _ _ _

theorem State.showPort_keeps (s : State) (site p : Nat) : s.Keeps (s.showPort site p) := by
  unfold State.showPort
  dsimp only
  exact .trans (.trans (State.setReg_keeps _ _ _ _) (State.setReg_keeps _ _ _ _))
    (.foldl (fun s _ => s.setReg_keeps _ _ _) _ _)

theorem State.retireDram_keeps (s : State) (site p kind bank row : Nat) : s.Keeps (s.retireDram site p kind bank row) := by
  unfold State.retireDram
  dsimp only
  refine .ite (.refl s) (.trans ?_ (State.raise_keeps _ _ _ _ _ _ _))
  exact .trans (.trans (s.modPort_keeps site p _) (State.showPort_keeps _ _ _)) (State.appendLog_keeps _ _ _ _ _)

theorem State.countRowError_keeps (s : State) (site o : Nat) (ue injected : Bool) : s.Keeps (s.countRowError site o ue injected) := by
  unfold State.countRowError
  dsimp only
  refine .ite (.refl s) (.ite ((s.maint_keeps _).trans (State.retireDram_keeps _ _ _ _ _ _)) (s.maint_keeps _))

/-- Whatever a port finds in a line, the bytes of every memory stay. -/
theorem State.lineError_keeps (s : State) (site o : Nat) (err : Symbols) (patrol injected : Bool) :
    s.Keeps (s.lineError site o err patrol injected) := by
  unfold State.lineError
  cases err with
  | none => exact .refl s
  | one => exact .trans (.trans (s.bump_keeps _ _ _ _ _) (State.dramErr_keeps _ _ _ _ _)) (State.countRowError_keeps _ _ _ _ _)
  | many =>
    exact .trans (.trans (.trans (s.bump_keeps _ _ _ _ _) (State.dramErr_keeps _ _ _ _ _)) (State.modDram_keeps _ _ _ id))
      (State.countRowError_keeps _ _ _ _ _)

/-- A write that a port accepts keeps the canonical form, whatever places its bytes. -/
theorem State.dramPut_keeps (s : State) (site o : Nat) (put : SMap Byte → SMap Byte) (whole : Bool) (err : Symbols)
    (hp : ∀ m, Memory.wf m = true → Memory.wf (put m) = true) : s.Keeps (s.dramPut site o put whole err) := by
  unfold State.dramPut
  dsimp only
  have hb : s.Keeps (s.modDram site (fun d =>
      (if whole then ({ d with bytes := put d.bytes } : Dram).setPoison o false else { d with bytes := put d.bytes }).modPort
        (dramPort o) (fun x => x.endEntries o whole))) := by
    refine s.modDram_keeps site _ fun h => ?_
    rw [Dram.modPort_bytes]
    split
    · exact hp _ h
    · exact hp _ h
  refine .ite (hb.trans (State.bump_keeps _ _ _ _ _ _)) ?_
  have hr := hb.trans (State.bump_keeps _ (unitDie site) (rDRAM_WRITE_COUNT + 0x200 * dramPort o) 0 32 1)
  refine .ite (hr.trans (.ite (State.raise_keeps _ _ _ _ _ _ _) (.refl _))) ?_
  exact (hr.trans (.ite (State.raise_keeps _ _ _ _ _ _ _) (.refl _))).trans (State.lineError_keeps _ _ _ _ _ _)

theorem State.dramWrite_keeps (s : State) (site o : Nat) (bs : List Byte) (err : Symbols) : s.Keeps (s.dramWrite site o bs err).1 := by
  unfold State.dramWrite
  split
  · exact .refl s
  · exact s.dramPut_keeps site o (fun m => SMap.setRange 0 m o bs) (wholeLine o bs.length) err
      (fun _ h => Memory.wf_setRange o bs h)

theorem State.freeFinding_keeps (s : State) : s.Keeps s.freeFinding.2 :=
  (s.freeNat_keeps).trans (.refl s.freeNat.2)

theorem State.dramWriteFree_keeps (s : State) (site o : Nat) (bs : List Byte) : s.Keeps (s.dramWriteFree site o bs).1 := by
  unfold State.dramWriteFree
  by_cases hw : wholeLine o bs.length = true
  · rw [if_pos hw]
    exact s.dramWrite_keeps site o bs .none
  · rw [if_neg hw]
    exact (s.freeFinding_keeps).trans (s.freeFinding.2.dramWrite_keeps site o bs s.freeFinding.1)

end Machine
end Sys2Proof
end

