-- ==== Sys2Proof/Tests/Slice0.lean ====
section
/-!
SUPPORT. The model's own tests, and for every statement that has hypotheses a state and operands that meet them.
-/
namespace Sys2Proof.Tests

open Sys2Proof Sys2Proof.Machine Sys2Proof.Claims

set_option Elab.async false

/-! A slot that may issue, and commands that are not well-formed. -/

/-- Slot 0 of core 0. -/
def a0 : At := ⟨0, 0⟩

/-- Slot 0 of core 0 runs a task: READY, with bytes of code in the cache and a segment of scratchpad. -/
def ready : State :=
  (State.reset.modSlot 0 0 (fun sl => { sl with
    mode := .ready, seg := { Segments.zero with codeBound := 4096, spadBound := 4096 } })).modCore 0 (fun c => { c with icache := [(0, zeros 64)] })

/-- The same slot with registers, tokens and flags of its own. -/
def withSlot (f : Slot → Slot) : State := ready.modSlot 0 0 f

/-- The same core with parts of its own. -/
def withCore (f : Core → Core) : State := ready.modCore 0 f

theorem test_flit_of_no_bytes_is_ill_formed : (Instr.flitReceive 0 [] 0 []).wf = false := by decide
theorem test_entry_of_no_bytes_is_ill_formed : (Instr.commandFetch 0 []).wf = false := by decide
theorem test_line_of_no_bytes_is_ill_formed : (Instr.cxlMemWrite 0 [] 0).wf = false := by decide
theorem test_add_is_well_formed : (Instr.add a0 1 2 3).wf = true := by decide

/-- The state a command leaves. -/
def after (c : Instr) (s : State) : State :=
  match exec c s with
  | .next t => t
  | _ => s

/-- A set whose die 0 lies at site 0 with the default cores; its core registers hold a barrier count of 1 for barrier 0. -/
def oneDie : ConfigSet :=
  { ConfigSet.empty with
    sections := [(1, [(0, List.replicate 8 0 ++ (List.range 48).map (fun l => BitVec.ofNat 8 (defaultPhys l)) ++ List.replicate 8 0)])]
    counts := [(1, 1)], regs := [(regKey (unitCore 0) rHAL_BAR_EXPECT, 1), (regKey unitMgmt rTICK_PHASE, 0x1000000)] }

/-- The ready slot on a panel with that set. -/
def mapped : State := { ready with active := oneDie }

/-- Tick 0, started in cycle 0. -/
def tick0 : TickRun :=
  { tick := 0, att := 0, t0 := 0, tEff := none, d := none, ended := false, edgesSent := 0, edges := 0, runahead := false,
    entry := 0, rep := 0, token := false, digest := false, bucketsOpen := [], latched := [], commitAt := none, endAt := 0,
    period := 2100000, allow := 1000, prog := 0, offered := false, metAt := none }

/-- The same while tick 0 runs. -/
def ticking : State := { mapped with gen := { TickGen.reset with gstate := .running, run := true, ticks := [tick0] } }


/-! The task processor. -/

theorem witness_fires : Fires ready a0 4 ∧ Fires ready a0 8 := by unfold Fires; decide +kernel

theorem witness_integer_results :
    (integerResult ready (.add a0 1 2 3)).isSome ∧ (saturatingExact ready (.adds a0 1 2 3)).isSome
      ∧ (divisionResult ready (.divs a0 1 2 3)).isSome ∧ unaryForm (.clz a0 1 2 0) = some (a0, 1)
      ∧ (immediateResult ready (.addix a0 1 2 3)).isSome ∧ (immediateResult ready (.shi a0 1 2 255)).isSome := by
  decide +kernel

theorem witness_general_registers : (1 : Nat) ≠ 0 ∧ (2 : Nat) ≠ 1 := by decide

theorem witness_branch_results : flowResult ready (.beq a0 1 2 3) = some (a0, some 12, 0)
    ∧ flowResult ready (.bne a0 1 2 3) = some (a0, none, 0) := by decide +kernel

/-- 7 + 5 in g1. -/
theorem test_addi_adds : ((after (.addi a0 1 0 5) ready).slot 0 0).reg 1 = 5 := by decide +kernel


/-- A slot that cannot issue, a fetch beyond the code, a fetch not in the cache; a reserved field that is not zero. -/
theorem witness_traps :
    tpForm (.add a0 1 2 3) = some (a0, 4, 0x1 + 2 ^ 6 + 2 ^ 12 + 3 * 2 ^ 16, true) ∧ (at_ State.reset a0).mode ≠ .ready
      ∧ (at_ (withSlot (fun sl => { sl with mem := some ⟨.store 1, 0, 0, 0, 0, 0, 0, none, 0⟩ })) a0).mem ≠ none
      ∧ (withSlot (fun sl => { sl with pc := 4093 }) |> fun s => (at_ s a0).seg.codeBound < (at_ s a0).pc.toNat + 4)
      ∧ (withSlot (fun sl => { sl with pc := 4092 }) |> fun s => (at_ s a0).pc.toNat + 4 ≤ (at_ s a0).seg.codeBound
          ∧ (s.core 0).fetchPresent (at_ s a0) 4 = false)
      ∧ tpForm (.clz a0 1 2 3) = some (a0, 4, 0x1 + 2 ^ 6 + 2 ^ 12 + 3 * 2 ^ 16 + 2 ^ 26, false) := by
  decide +kernel

/-- Slot 1 may issue as well, and comes before slot 0, which is not ready until cycle 5 (R36). -/
def twoSlots : State :=
  (withSlot (fun sl => { sl with readyAt := 5 })).modSlot 0 1 (fun sl => { sl with
    mode := .ready, seg := { Segments.zero with codeBound := 4096, spadBound := 4096 } })

theorem witness_another_slot_comes_first : ComesBefore twoSlots 0 0 1 := by
  refine ⟨by decide, by decide, by decide +kernel, fun ti tj hi hj => Or.inl ?_⟩
  subst hi hj; decide +kernel

theorem witness_no_slot_comes_first (j : Nat) :
    ¬ ComesBefore (withSlot (fun sl => { sl with pc := 4093 })) 0 0 j ∧ ¬ ComesBefore (withSlot (fun sl => { sl with pc := 4092 })) 0 0 j := by
  have h1 : ∀ j, j < 8 → j ≠ 0 → (withSlot (fun sl => { sl with pc := 4093 }) |> fun s => (s.core 0).mayIssue (s.slot 0 j)) = false := by
    decide +kernel
  have h2 : ∀ j, j < 8 → j ≠ 0 → (withSlot (fun sl => { sl with pc := 4092 }) |> fun s => (s.core 0).mayIssue (s.slot 0 j)) = false := by
    decide +kernel
  exact ⟨fun h => Bool.noConfusion ((h1 j h.1 h.2.1).symm.trans h.2.2.1), fun h => Bool.noConfusion ((h2 j h.1 h.2.1).symm.trans h.2.2.1)⟩

/-- The core of a stopped die stands still. -/
theorem witness_core_down :
    ({ ready with power := [(0, { DiePower.reset with stopped := true })] } : State).coreDown (corep a0) = true := by decide +kernel

/-- The last word of the segment, one byte beyond it, and a misaligned address; an atomic and a PUT. -/
theorem witness_access_issue :
    accessForm ready (.ld a0 1 0 4088) = some (a0, .load 8 false, 1, 4088, 0)
      ∧ accessForm ready (.ld a0 1 0 4089) = some (a0, .load 8 false, 1, 4089, 0)
      ∧ accessForm ready (.put a0 1 0 4087) = some (a0, .put false, 0, 4087, 0)
      ∧ accessForm ready (.amoadd a0 1 2 3) = some (a0, .amoAdd, 1, 0, 0)
      ∧ accessForm ready (.wopen a0 1 0 4064) = some (a0, .wopen, 1, 4064, 0) ∧ Claims.accessBytes .wopen = 32
      ∧ (own ready a0).seg.spadBound = 4096 ∧ Claims.accessBytes (.load 8 false) = 8 ∧ ¬ 8 ∣ 4087 := by
  refine ⟨rfl, rfl, rfl, rfl, rfl, rfl, ?_, rfl, ?_⟩ <;> decide +kernel

/-- The value of a negative byte, and of its zero extension. -/
theorem test_load_values : loadValue 1 true [0x80] = 0xFFFFFFFFFFFFFF80 ∧ loadValue 1 false [0x80] = 0x80 := by decide +kernel


/-- Words without an error are clean. -/
theorem clean_of_none {sp : Spad} (o n : Nat) (h : sp.ue = []) : Clean sp o n := by
  intro w _ _ _; rw [Spad.isUe, h]; rfl

/-- Tokens 3 BUSY and 5 completed. -/
def tokens : State := withSlot (fun sl => { sl with tokens := [(3, .busy), (5, .completed 2)] })

theorem tokens_fires : Fires tokens a0 4 := by unfold Fires; decide +kernel

/-- WAITT on a BUSY, a completed and a FREE token; WAITM with and without a completed token, and with FREE ones alone. -/
theorem witness_token_waits :
    LowestDone (own tokens a0) (waitMask tokens a0 0 0x28) 5 2
      ∧ (∀ k, k < 16 → (waitMask tokens a0 0 8).getLsbD k = true →
          (∀ st, (own tokens a0).token k ≠ .completed st) ∧ NotDue (own tokens a0) k)
      ∧ ((waitMask tokens a0 0 8).getLsbD 3 = true ∧ (own tokens a0).token 3 = .busy)
      ∧ (∀ k, k < 16 → (waitMask tokens a0 0 1).getLsbD k = true → (own tokens a0).token k = .free) := by
  have h : ∀ k, k < 16 → (waitMask tokens a0 0 8).getLsbD k = true → k = 3 := by decide +kernel
  have h3 : (own tokens a0).token 3 = .busy := by decide +kernel
  have h5 : ∀ u, u < 5 → (waitMask tokens a0 0 0x28).getLsbD u = true → u = 3 := by decide +kernel
  refine ⟨⟨by decide, by decide +kernel, by decide +kernel, fun u hu hm x => ?_⟩, fun k hk hm => ⟨fun st => ?_, ?_⟩, by decide +kernel,
    by decide +kernel⟩
  · rw [h5 u hu hm, h3]; exact Token.noConfusion
  · rw [h k hk hm, h3]; exact Token.noConfusion
  · have hd : (own tokens a0).due = [] := by decide +kernel
    intro e he; rw [hd] at he; cases he

/-- Token 3 will complete in cycle 9. -/
def dueToken : State := withSlot (fun sl => { sl with tokens := [(3, .busy)], due := [(9, 3, 2)] })

theorem witness_due_token :
    Fires dueToken a0 4 ∧ (own dueToken a0).token 3 = .busy ∧ (own dueToken a0).due = [] ++ (9, 3, 2) :: []
      ∧ (waitMask dueToken a0 0 8).getLsbD 3 = true ∧ (∀ u, u < 3 → (waitMask dueToken a0 0 8).getLsbD u = false) := by
  unfold Fires; decide +kernel

theorem witness_waitt : (withSlot (fun sl => { sl with regs := [(2, 3)] }) |> fun s => un s a0 2 % 16) = 3
    ∧ (own tokens a0).token (un tokens a0 0 % 16) = .free := by decide +kernel

/-- Phase 0 has passed in tick 0 when its edge is counted; phase 1 is none of the program's; else WAITP waits. -/
theorem witness_phase_waits :
    Fires ready a0 4 ∧ ready.edges (own ready a0).tick ≤ 0 ∧ ready.tickPhases (own ready a0).tick ≤ 15 := by
  unfold Fires; decide +kernel

/-- A channel slot of window 0 at offset 0. -/
def channel : State := ready.modCore 0 (fun c => { c with spad := { c.spad with
  wins := [(0, { Window.reset with isOpen := true, channel := true, bound := 64, slotBytes := 8, credits := 8, gen := 1 })] } })

theorem witness_channel_waits : (channel.spad 0).chanAt 0 = some (0, 0) ∧ (ready.spad 0).chanAt 0 = none
    ∧ (0 : Word).toNat + 8 ≤ (own channel a0).seg.spadBound := by decide +kernel

theorem witness_phases :
    ({ ready with gen := { TickGen.reset with lastEdge := [(0, 1)] } } : State).edges 0 = 1
      ∧ ticking.edges 0 = 0 ∧ ticking.tickPhases 0 = 1 ∧ (own ticking a0).tick = 0 := by decide +kernel

theorem ticking_fires : Fires ticking a0 4 := by unfold Fires; decide +kernel

/-- A barrier no slot of the core takes part in, one with a count of 1, and one at which the core has arrived. -/
theorem witness_barrier :
    Nat.min 8 (ready.rwt (unitCore 0) rHAL_BAR_EXPECT 0 4) = 0 ∧ Nat.min 8 (ticking.rwt (unitCore 0) rHAL_BAR_EXPECT 0 4) = 1
      ∧ SMap.get none (ticking.core 0).node.barArrived 0 = none
      ∧ SMap.get none ((ticking.modCore 0 (fun c => { c with node := { c.node with barArrived := [(0, some 0)] } })).core 0).node.barArrived 0
          = some 0 := by decide +kernel

/-- The highest core of a mapped die, and the first of an unmapped one; a message that waits. -/
theorem witness_user_messages :
    (own ticking a0).runahead = false ∧ (ticking.core 0).node.sendQ.length < 8 ∧ ticking.active.site (47 / 48) = some 0
      ∧ ticking.active.site (48 / 48) = none ∧ un (ticking.modSlot 0 0 (fun sl => { sl with regs := [(2, 9216)] })) a0 2 = 9216
      ∧ (own (ticking.modSlot 0 0 (fun sl => { sl with runahead := true })) a0).runahead = true
      ∧ ((ticking.modCore 0 (fun c => { c with node := { c.node with recvQ := [⟨3, 0, 1, 0, 0, 7⟩] } })).core 0).node.recvQ
          = [] ++ [⟨3, 0, 1, 0, 0, 7⟩] ++ []
      ∧ (ticking.core 0).node.recvQ = [] := by decide +kernel

theorem witness_message_for_slot : ForSlot ticking a0 3 ⟨3, 0, 1, 0, 0, 7⟩ ∧ ¬ ForSlot ticking a0 3 ⟨3, 0, 1, 1, 0, 7⟩ := by
  unfold ForSlot; decide +kernel

theorem witness_system_instructions :
    (readForm ready (.rdpar a0 1 0 15)).isSome ∧ (readForm ready (.rdsys a0 1 0 0)).isSome ∧ (63 : BitVec 16).toNat ≤ 63
      ∧ (own ready a0).anyBusy = false ∧ (own tokens a0).anyBusy = true := by decide +kernel

/-- A window the task has opened. -/
def opened : State := channel.modSlot 0 0 (fun sl => { sl with opened := [(0, 1)] })

theorem witness_task_end :
    (0, 1) ∈ (own opened a0).opened ∧ ((opened.spad 0).win 0).isOpen = true ∧ ((opened.spad 0).win 0).gen = 1 := by decide +kernel

/-- A COPY descriptor of 64 bytes from offset 0 to offset 64. -/
def copyDesc : List Byte :=
  [0, 0] ++ zeros 2 ++ leBytes 4 64 ++ zeros 8 ++ leBytes 8 64 ++ zeros 40

/-- The same in the scratchpad at offset 128. -/
def withDesc (d : List Byte) : State :=
  ready.modCore 0 (fun c => { c with spad := { c.spad with bytes := SMap.setRange 0 [] 128 d } })

/-- An aligned descriptor in bounds; no FREE token; a queue that is full, by its descriptors or by reads on their way to it. -/
theorem witness_engine_issue :
    Fires (withDesc copyDesc) a0 4 ∧ engineForm (withDesc copyDesc) (.dxi a0 1 0 128) = some (a0, 1, 128, .dxi, false)
      ∧ (∀ k, k < 16 → (own (withSlot (fun sl => { sl with tokens := (List.range 16).map (fun k => (k, .busy)) })) a0).token k ≠ .free)
      ∧ (own ready a0).token 0 = .free ∧ 64 ∣ (128 : Word).toNat ∧ (128 : Word).toNat + 64 ≤ (own ready a0).seg.spadBound := by
  unfold Fires; refine ⟨?_, ?_, ?_, ?_, ?_, ?_⟩ <;> decide +kernel

theorem witness_full_queues :
    (engineForm ({ ready with cores := SMap.set Core.reset ready.cores 0 { (ready.core 0) with mxu := { Mxu.reset with
        queue := List.replicate 4 ⟨0, 0, 0, 0, [], 0, 0, 0, 0, [], 0, none, 0, false⟩ } } } : State) (.mxi a0 1 0 128)).map (fun f => f.2.2.2.2) = some true
      ∧ (engineForm ready (.vxi a0 1 0 128)).map (fun f => f.2.2.2.2) = some false := by decide +kernel


/-! The scratchpad. -/

/-- Slot 0 waits at bank 0 with an access of eight bytes at offset 64. -/
def granting (k : MemKind) : State := ready.modSlot 0 0 (fun sl => { sl with mem := some ⟨k, 1, 64, 64, 5, 0, 0, none, 0⟩ })

theorem witness_turn (k : MemKind) : TpTurn (granting k) 0 0 0 ⟨k, 1, 64, 64, 5, 0, 0, none, 0⟩ := by
  have h : ∀ j, j < 8 → j ≠ 0 → ((granting k).slot 0 j).mem = none := by
    intro j h8 h0; interval_cases j <;> first | contradiction | rfl
  exact ⟨⟨rfl, rfl⟩, by decide, .inr (by decide : (0 : Nat) < 7), rfl, rfl, (by decide : (64 : Nat) / 0x10000 = 0),
    .inl (fun h => WaitOn.noConfusion (show WaitOn.none = WaitOn.checked from h)),
    fun j h8 h0 x hx => by rw [h j h8 h0] at hx; cases hx⟩

/-- A slot that waits for its channel slot repeats its request when its time has come. -/
theorem witness_repeated_request :
    (({ (granting (.take true)).modSlot 0 0 (fun sl => { sl with
          wait := .checked, mem := some ⟨.take true, 1, 64, 64, 5, 0, 0, none, 3⟩ }) with now := 4 } : State) |> fun s =>
      (s.slot 0 0).wait = .checked ∧ 3 ≤ grantCycle s 0 0) := by decide +kernel

/-- A store, a load and an atomic are granted; none of their words has an error. -/
theorem witness_bank_grant :
    NoError ⟨0, 0⟩ ∧ Clean ((granting (.store 8)).spad 0) 64 8 ∧ Clean ((granting (.load 8 true)).spad 0) 64 8
      ∧ (atomicResult .amoCas 0 5 0) = some 5 :=
  ⟨⟨rfl, rfl⟩, clean_of_none _ _ rfl, clean_of_none _ _ rfl, rfl⟩

/-- The low two bytes of 5 are stored, little-endian. -/
theorem test_store_half : SMap.getRange 0 ((after (.bankGrant 0 0 ⟨0, 0⟩) (granting (.store 2))).spad 0).bytes 63 4 = [0, 5, 0, 0] := by
  decide +kernel

/-- A channel window of slots of 8 bytes lies at offset 0; slot 8 is full or empty. -/
def checked (full : Bool) (k : MemKind) : State :=
  (granting k).modCore 0 (fun c => { c with spad := { c.spad with
    wins := [(0, { Window.reset with isOpen := true, channel := true, bound := 128, slotBytes := 8, full := [(8, full)] })] } })

theorem witness_checked (full l : Bool) :
    ((checked full (.take l)).spad 0).chanAt 64 = some (0, 8) ∧ (((checked full (.take l)).spad 0).win 0).isFull 8 = full
      ∧ (((checked full (.put l)).spad 0).win 0).isReserved 8 = false ∧ (64 : Nat) % 8 = 0 := by
  cases full <;> cases l <;> decide +kernel

/-- Data, an uncorrectable error, and no data on the way. -/
theorem witness_load_return (r : Option (Option Word)) :
    (at_ (ready.modSlot 0 0 (fun sl => { sl with mem := some ⟨.load 8 true, 1, 64, 64, 0, 0, 0, r, 6⟩ })) a0).mem
      = some ⟨.load 8 true, 1, 64, 64, 0, 0, 0, r, 6⟩ := rfl

/-- A window of 64 bytes with one credit, at offset 256, for every core. -/
def winBytes : List Byte := leBytes 4 256 ++ leBytes 4 64 ++ [0, 3, 0, 0] ++ zeros 4 ++ leBytes 2 1 ++ zeros 14

def reading (k : MemKind) (d : List Byte) : State :=
  (granting k).modCore 0 (fun c => { c with spad := { c.spad with bytes := SMap.setRange 0 [] 64 d } })

theorem witness_window_opening :
    ((reading .wopen winBytes).spad 0).read 64 32 = winBytes ∧ winDescOk winBytes = true
      ∧ (winDesc winBytes).base + (winDesc winBytes).bound ≤ ((reading .wopen winBytes).slot 0 0).seg.spadBound
      ∧ (∀ w, w < 32 → (((reading .wopen winBytes).spad 0).win w).isOpen = false) ∧ (winDesc winBytes).channel = false
      ∧ winDescOk (zeros 32) = false ∧ (winDesc (leBytes 4 4096 ++ winBytes.drop 4)).base = 4096 := by decide +kernel

/-- A valid descriptor, one with a bad field, and one whose source lies outside the task's segment. -/
theorem witness_descriptor_grant :
    ((reading .dxi copyDesc).spad 0).read 64 64 = copyDesc ∧ descFields (reading .dxi copyDesc) .dxi copyDesc = true
      ∧ descOperands (reading .dxi copyDesc) .dxi ((reading .dxi copyDesc).slot 0 0) copyDesc = none
      ∧ descFields (reading .dxi (zeros 64)) .dxi (zeros 64) = false
      ∧ (descOperands (reading .dxi copyDesc) .dxi ((reading .dxi copyDesc).slot 0 0)
          (copyDesc.take 8 ++ leBytes 8 4096 ++ copyDesc.drop 16)).isSome = true
      ∧ ((reading .dxi copyDesc).slot 0 0).runahead = false := by decide +kernel

theorem witness_lowest_token : LowestFreeToken ((reading .dxi copyDesc).slot 0 0) 0 ∧ LowestFreeToken (own ready a0) 0
    ∧ Clean ((reading .dxi copyDesc).spad 0) 64 64 :=
  ⟨⟨by decide, by decide +kernel, fun _ h => absurd h (Nat.not_lt_zero _)⟩,
   ⟨by decide, by decide +kernel, fun _ h => absurd h (Nat.not_lt_zero _)⟩, clean_of_none _ _ rfl⟩

/-- All windows open; a handle that names window 0, and one that names none. -/
theorem witness_window_handles :
    (∀ w, w < 32 → (((ready.modCore 0 (fun c => { c with spad := { c.spad with
        wins := (List.range 32).map (fun w => (w, { Window.reset with isOpen := true, base := 65536 * w, bound := 64 })) } })).spad 0).win w).isOpen
          = true)
      ∧ Names channel a0 0x10000 0 ∧ NamesNone ready a0 0x10000 := by
  refine ⟨by decide +kernel, by unfold Names; decide +kernel, fun w h => ?_⟩
  have h0 : (ready.spad (corep a0)).wins = [] := rfl
  have := h.2.1
  rw [Spad.win, h0] at this
  exact Bool.false_ne_true this

theorem witness_load_run :
    loadForm ready (.lh a0 1 0 4094) = some (a0, 2, true, 1, 4094) ∧ (own ready a0).wait = .none
      ∧ (4094 : Word).toNat + 2 ≤ (own ready a0).seg.spadBound ∧ 2 ∣ (4094 : Word).toNat ∧ AloneAtBank ready a0 0 := by
  refine ⟨rfl, rfl, by decide +kernel, by decide, ⟨rfl, rfl⟩, rfl, (by decide : (0 : Nat) < 7), fun j h8 h0 => ?_⟩
  interval_cases j <;> first | exact absurd rfl h0 | rfl


/-! Cores, launches and banks. -/

/-- A task that runs 64 bytes of code from DRAM offset 0, with a kilobyte of scratchpad, in slot 1. -/
def taskBytes : List Byte :=
  leBytes 2 7 ++ [1, 0, 0] ++ zeros 3 ++ leBytes 8 0 ++ leBytes 4 64 ++ leBytes 4 4 ++ leBytes 4 1024 ++ leBytes 4 1024
    ++ leBytes 8 0 ++ leBytes 8 0 ++ leBytes 8 1 ++ leBytes 8 2

/-- The launch of a task waits at core 0, its descriptor at offset 128. -/
def launching (d : List Byte) : State :=
  (((mapped.modCore 0 (fun c => { c with
    launches := [⟨128, 0, 0, 0, false⟩], spad := { c.spad with bytes := SMap.setRange 0 [] 128 d } })).setReg (unitCore 0) rCORE_CTRL 0xFF02))

theorem witness_launches : Launches (launching taskBytes) 0 0 ⟨128, 0, 0, 0, false⟩ [] taskBytes := by
  refine ⟨rfl, by decide +kernel, by decide +kernel, by decide +kernel, by decide +kernel, by decide +kernel, clean_of_none _ _ rfl,
    by decide +kernel⟩

/-- A valid and an invalid descriptor; the slot it names, and the lowest FREE one. -/
theorem witness_task_launches :
    taskOk (launching taskBytes).active 0 0 taskBytes = true ∧ SlotSelected (launching taskBytes) 0 taskBytes 1
      ∧ taskOk (launching taskBytes).active 0 0 (zeros 64) = false
      ∧ (∀ b, b < 16 → (bankAt (launching taskBytes) 0 b).on = true ∧ (bankAt (launching taskBytes) 0 b).pdOffAt = none)
      ∧ (leAt taskBytes 3 1).testBit 0 = false := by unfold SlotSelected; decide +kernel

theorem witness_cache_fill :
    (mapped.modSlot 0 0 (fun sl => { sl with pc := 128 }) |> fun s =>
      (at_ s a0).mode = .ready ∧ (s.core 0).missingLine (at_ s a0) = some 128 ∧ s.active.target 128 = some (.dram 0 128)
        ∧ s.active.site 0 = some 0 ∧ ((s.readLine 0 128 64 (s.dramClass 0 0) .none).map (·.1)) = some 0
        ∧ ((s.readLine 0 128 64 (s.dramClass 0 0) .many).map (·.1)) = some 4
        ∧ (s.core 0).needsLine (at_ s a0) 128 = true) := by decide +kernel

/-- A second line that the word at the end of the first does not need. -/
theorem witness_line_not_needed :
    (mapped.modSlot 0 0 (fun sl => { sl with pc := 60 }) |> fun s =>
      (s.core 0).missingLine (at_ s a0) = some 64 ∧ (s.core 0).needsLine (at_ s a0) 64 = false) := by decide +kernel

theorem witness_task_ends :
    (at_ (withSlot (fun sl => { sl with mode := .ending })) a0).mode = .ending
      ∧ (at_ (withSlot (fun sl => { sl with mode := .ending })) a0).anyBusy = false
      ∧ (at_ (withSlot (fun sl => { sl with mode := .ending })) a0).opened = []
      ∧ (at_ (tokens.modSlot 0 0 (fun sl => { sl with mode := .ending })) a0).token 3 = .busy
      ∧ (at_ (dueToken.modSlot 0 0 (fun sl => { sl with mode := .ending })) a0).due = [(9, 3, 2)] := by decide +kernel

theorem witness_last_fault : (at_ ready a0).lastFault = none
    ∧ (at_ (withSlot (fun sl => { sl with lastFault := some (0, 4, 8, 16) })) a0).lastFault = some (ready.now, 4, 8, 16) := by
  decide +kernel

theorem witness_invalidation : ((withCore (fun c => { c with icinvBusy := true })).core 0).icinvBusy = true
    ∧ (ready.core 0).icinvBusy = false := by decide +kernel

/-- Core 1, whose banks nothing covers, with bank 0 as asked. -/
def bank (f : Bank → Bank) : State := ready.modBank 1 0 f

/-- Every way a bank stands in: uncovered under AUTO_PD, with a request, covered, about to go off, coming on. -/
theorem witness_bank_power :
    ((ready.setReg (unitCore 1) rSPAD_CTRL 2 |> fun s => (s.reg (unitCore 1) rSPAD_CTRL).testBit 1 = true
        ∧ (s.reg (unitCore 1) rSPAD_CTRL).testBit 16 = false ∧ (s.core 1).covered 0 = false))
      ∧ (bankAt (bank (fun b => { b with pdSince := some 3 })) 1 0).pdSince = some 3 ∧ (ready.core 0).covered 0 = true
      ∧ (bankAt (bank (fun b => { b with pdOffAt := some 3 })) 1 0).pdOffAt = some 3
      ∧ (bankAt (bank (fun b => { b with on := false, puDoneBy := some 3 })) 1 0).puDoneBy = some 3
      ∧ (bankAt (bank (fun b => { b with on := false })) 1 0).on = false
      ∧ ((bank (fun b => { b with on := false })).core 1).poweringUp = 0 := by decide +kernel

theorem witness_scrub_turn : ((ready.advanceTo (Nat.max (bankAt ready 0 0).scrubDue (bankAt ready 0 0).freeAt)).grantAt 0 0 ⟨0, 0⟩).isNone = true
    ∧ (((granting (.store 8)).advanceTo (Nat.max (bankAt (granting (.store 8)) 0 0).scrubDue
        (bankAt (granting (.store 8)) 0 0).freeAt)).grantAt 0 0 ⟨0, 0⟩).isSome = true := by decide +kernel

theorem witness_scrub : (ready.reg (unitCore 0) rSPAD_CTRL).testBit 0 = true ∧ (bankAt ready 0 0).on = true := by decide +kernel


/-! The DMA engine, remote accesses and credits. -/

/-- An access of descriptor 0 of core 1 at the scratchpad of core 0, offset 64. -/
def access (k : AccessKind) (st : Stage) (grant : Option GrantRef) (ans : Option CreditAnswer) : Access :=
  { core := 1, desc := 0, row := 0, col := 0, kind := k, addr := spadAddr 0 0 64, patch := 0, tick := 0, att := 0, grant := grant,
    stage := st, injectedAt := 0, status := 0, data := [], answer := ans, valiant := false }

/-- A plain window of four credits over offsets 64 to 127 of core 0, which admits every core; access 0 is under way. -/
def remote (a : Access) (f : Spad → Spad) : State :=
  { mapped.modCore 0 (fun c => { c with spad := f { c.spad with
      wins := [(0, { Window.reset with isOpen := true, base := 64, bound := 64, credits := 4, coreMode := 3, gen := 1 })] } }) with
    mesh := { Mesh.reset with accesses := [(0, some a)], nextAccess := 1 } }

/-- A grant of two of its credits to core 1. -/
def grant0 : Grant := { win := 0, gen := 1, no := 0, out := 2, slots := [], who := .core 1 0, lo := 64, hi := 128, expireAt := 42000 }

/-- The name of that grant. -/
def ref0 : GrantRef := ⟨0, 0, 1, 0⟩

theorem witness_at_spad (k : AccessKind) (g : Option GrantRef) (ans : Option CreditAnswer) (f : Spad → Spad) :
    AtSpad (remote (access k .atTarget g ans) f) 0 (access k .atTarget g ans) 0 64 := by
  refine ⟨rfl, rfl, 0, 0, ?_, ?_⟩
  · show oneDie.target (spadAddr 0 0 64) = _; decide +kernel
  · show oneDie.coreIx 0 0 = _; decide +kernel

/-- A write under a live grant, and one that names none. -/
theorem witness_remote_writes :
    Covered (remote (access (.write [1, 2]) .atTarget (some ref0) none) (fun sp => { sp with grants := [(0, some grant0)] })) 0 64 2
        (access (.write [1, 2]) .atTarget (some ref0) none) ref0
      ∧ ∀ r, ¬ Covered (remote (access (.write [1, 2]) .atTarget none none) id) 0 64 2 (access (.write [1, 2]) .atTarget none none) r :=
  ⟨⟨rfl, ⟨grant0, by decide +kernel, rfl, by decide +kernel⟩, by decide +kernel, by decide +kernel, by decide +kernel, by decide +kernel⟩,
   fun _ h => by cases h.1⟩

/-- A bank at which eight writes wait takes none; one at which none waits does. -/
theorem witness_bank_is_full :
    8 ≤ ((remote (access (.write [1, 2]) .atTarget (some ref0) none) (fun sp => { sp with
        banks := [(0, { Bank.reset with p6 := List.replicate 8 (.remoteWrite 1 64 [0] (some ref0) none) })] })).core 0).inflight 0
      ∧ ((remote (access (.write [1, 2]) .atTarget (some ref0) none) id).core 0).inflight 0 < 8 := by decide +kernel

theorem witness_remote_reads :
    (bankAt (remote (access (.read 8) .atTarget none none) id) 0 0).on = true
      ∧ (bankAt (remote (access (.read 8) .atTarget none none) (fun sp => sp.setBank 0 { Bank.reset with on := false })) 0 0).on = false := by
  decide +kernel

/-- All four credits are free, or none; every grant entry is in use. -/
theorem witness_credit_requests :
    PlainRequest (remote (access (.creditReq 64 8) .atTarget none none) id) 0 0 64 64 8 4
      ∧ PlainRequest (remote (access (.creditReq 64 8) .atTarget none none) (fun sp => sp.modWin 0 (fun w => { w with creditsOut := 4 })))
          0 0 64 64 8 0
      ∧ ((remote (access (.creditReq 64 8) .atTarget none none) id).spad 0 |> fun sp => (sp.win 0).admits (.core 1 0) = true
          ∧ sp.grant 0 = none ∧ sp.hold.length < 64)
      ∧ (∀ k, k < 64 → ((remote (access (.creditReq 64 8) .atTarget none none)
          (fun sp => { sp with grants := (List.range 64).map (fun k => (k, some grant0)) })).spad 0).grant k ≠ none) := by
  unfold PlainRequest; decide +kernel

theorem witness_held_request :
    ((remote (access (.creditReq 64 8) .atTarget none none) (fun sp => { sp with hold := [⟨0, .core 1 0, 64, 64, 8, 0⟩] })).spad 0).hold
      = ⟨0, .core 1 0, 64, 64, 8, 0⟩ :: [] := rfl

/-- A grant that expires, a close whose last condition holds, and the answers that reach the sender. -/
theorem witness_credit_ends :
    (((remote (access (.read 8) .atTarget none none) (fun sp => { sp with grants := [(0, some grant0)] })).spad 0).grant 0 = some grant0)
      ∧ ((remote (access (.read 8) .atTarget none none) (fun sp => sp.modWin 0 (fun w => { w with closing := true }))).spad 0 |> fun sp =>
          (sp.win 0).isOpen = true ∧ (sp.win 0).closing = true ∧ (sp.win 0).creditsOut = 0 ∧ sp.writesWaiting (sp.win 0) = false) := by
  decide +kernel

/-- A COPY of 64 bytes of the core's own scratchpad. -/
def desc : DmaDesc :=
  { id := 0, slot := 0, token := 3, tick := 0, att := 0, patch := 0, op := .copy, fence := false, src := spadAddr 0 1 0,
    dst := spadAddr 0 1 64, length := 64, rows := 1, srcStride := 0, dstStride := 0, pattern := 0, group := [], missOff := 0, off := 128,
    held := false, started := false, stopped := false, row := 0, col := 0, outstanding := 0, failed := none, credit := .none,
    targets := [], sentLines := 0, resendAt := 0, resending := false, valiant := false, finished := none, gather := [], writeCol := 0,
    owed := [], hash := 0 }

/-- The queue of core 1 holds a descriptor; access 0 is its own. -/
def sending (a : Access) (d : DmaDesc) : State :=
  (remote a id).modCore 1 (fun c => { c with dma := { c.dma with queue := [d] } })

theorem witness_credit_answers :
    (sending (access (.creditReq 64 4) .replied none (some (.grant ref0 4))) { desc with credit := .asked 0 64 4 } |> fun s =>
      s.replyOnWay 0 = false ∧ s.needsCredit 1 (spadAddr 0 0 64) = some 0 ∧ ((s.spad 0).win 0).channel = false
        ∧ (s.dmaFind 1 0).isSome ∧ s.active.target (spadAddr 0 0 64) ≠ none)
      ∧ ((sending (access (.read 8) .replied none none) { desc with credit := .retryAt (spadAddr 0 0 64) 64 4 2100 }).dmaFind 1 0)
          = some { desc with credit := .retryAt (spadAddr 0 0 64) 64 4 2100 } := by decide +kernel

theorem witness_credit_return :
    (((remote (access (.read 8) .replied none none) (fun sp => { sp with grants := [(0, some grant0)] })).modCore 1 (fun c =>
      { c with dma := { c.dma with returns := [⟨0, 0, 0, ref0⟩] } })) |> fun s =>
      (s.core 1).dma.returns = ⟨0, 0, 0, ref0⟩ :: [] ∧ (s.spad 0).grant 0 = some grant0 ∧ grant0.no = ref0.no) := by decide +kernel

theorem witness_dma_accesses :
    dmaCommand 1 desc.id (.copy 1 0) = some .copy ∧ DmaGoes (sending (access (.read 8) .replied none none) desc) 1 desc
      ∧ (sending (access (.read 8) .replied none none) desc).needsCredit 1 (dstPlace desc) = none := by
  unfold DmaGoes; decide +kernel

/-- A COPY from a register of core 0 to the core's own scratchpad: before its read, and with the bytes of its write. -/
def byRegister (g : List Byte) : DmaDesc :=
  { desc with src := 2 * 2 ^ 44, length := 8, gather := SMap.setRange none [] 0 (g.map some) }

theorem witness_register_copies :
    (byRegister []).byRegister = true ∧ isRegAddr (srcPlace (byRegister [])) = true
      ∧ DmaGoes (sending (access (.read 8) .replied none none) (byRegister [])) 1 (byRegister [])
      ∧ (byRegister []).gathered 0 0 ((byRegister []).writeSize 0 0) = none
      ∧ (byRegister (zeros 8)).gathered 0 0 ((byRegister (zeros 8)).writeSize 0 0) = some (zeros 8) := by
  unfold DmaGoes; decide +kernel

theorem witness_dma_replies :
    Answered (sending (access (.write [1]) .replied none none) { desc with started := true, outstanding := 1, row := 1 }) 0
        (access (.write [1]) .replied none none) { desc with started := true, outstanding := 1, row := 1 }
      ∧ Answered (sending (access (.read 8) .replied none none) { desc with started := true, outstanding := 1, row := 1 }) 0
        (access (.read 8) .replied none none) { desc with started := true, outstanding := 1, row := 1 }
      ∧ DmaDesc.byRegister { desc with started := true, outstanding := 1, row := 1 } = false ∧ 0 ≠ (sending (access (.read 8) .replied none none) desc).mesh.nextAccess := by
  unfold Answered; decide +kernel

/-- A multicast to two cores of die 0 whose targets stand as asked; the acknowledgement and the miss notice of the first. -/
def casting (l : SMap TargetState) : State :=
  { sending (access (.read 8) .replied none none) { desc with
      op := .mcast, group := [1] ++ zeros 23 ++ [3] ++ zeros 5 ++ [2, 0], targets := l, length := 64, sentLines := 1, started := true, row := 1 } with
    mesh := { Mesh.reset with acks := [(1, 0, 0, 0)], notices := [(1, 0, [0])] } }

theorem witness_multicast :
    groupTargets ([1] ++ zeros 23 ++ [3] ++ zeros 5 ++ [2, 0]) = [0, 1]
      ∧ (casting []).mesh.acks[0]? = some (1, 0, 0, 0) ∧ (casting []).mesh.notices[0]? = some (1, 0, [0])
      ∧ (((casting [(0, .missed), (1, .acked)]).dmaFind 1 0).map (fun d => decide (d.target 0 = .missed ∧ d.target 1 = .acked
          ∧ d.finished = none ∧ d.length = 64 * d.sentLines))) = some true
      ∧ (((casting [(0, .acked), (1, .acked)]).dmaFind 1 0).map (fun d => (List.range 2).all (fun j => d.target j == .acked)))
          = some true := by decide +kernel

/-- A line whose bytes are complete with the answer, and one whose are not. -/
theorem witness_gathered :
    (desc.put 0 0 (zeros 64)).gathered 0 (desc.unitStart 0 0) (desc.writeSize 0 0) = some (zeros 64)
      ∧ (desc.put 0 0 (zeros 32)).gathered 0 (desc.unitStart 0 0) (desc.writeSize 0 0) = none := by decide +kernel

theorem witness_held_start :
    (((mapped.modCore 0 (fun c => { c with dma := { c.dma with waiting := [desc] } })).modSlot 0 0 (fun sl =>
        { sl with mode := .waiting, wait := .held (.dxi 1 3) })) |> fun s =>
      (s.core 0).dma.waiting.find? (fun e => !e.held) = some desc ∧ (s.core 0).dma.queue.length < 16
        ∧ (s.slot 0 desc.slot).wait = .held (.dxi 1 3)) := by decide +kernel

theorem witness_completion :
    FinishedIn (sending (access (.read 8) .replied none none) { desc with finished := some 4 }) 1 (.dma 0) 0 3 128 4 4 :=
  ⟨{ desc with finished := some 4 }, by decide +kernel, rfl, rfl, rfl, rfl, rfl⟩


/-! The engines. -/

/-- A descriptor of the matrix unit or the vector engine. -/
def eng (raw : List Byte) : EngDesc :=
  { slot := 0, token := 3, tick := 0, att := 0, raw := raw, off := 128, spadBase := 0, spadBound := 65536, pos := 0, got := [], group := 0,
    finished := none, flags := 0, qovf := false }

/-- The queue of core 0 holds it. -/
def matrix (raw : List Byte) : State := mapped.modCore 0 (fun c => { c with mxu := { c.mxu with queue := [eng raw] } })
def vector (raw : List Byte) : State := mapped.modCore 0 (fun c => { c with vec := { c.vec with queue := [eng raw] } })

/-- Operation `op` on one tile, C in rows of 128 bytes at offset 4096; INT16 operands of K = 2 with WRAP; RAW. -/
def tile (op : Byte) : List Byte :=
  [op, 0x85, 0, 0x11, 4, 0, 0, 0] ++ leBytes 4 2 ++ zeros 4 ++ leBytes 4 0 ++ leBytes 4 64 ++ leBytes 4 512 ++ leBytes 4 64
    ++ leBytes 4 4096 ++ leBytes 4 128 ++ zeros 24

theorem witness_matrix (op : Fin 5) :
    MatrixHead (matrix (tile (BitVec.ofFin (op.castLE (by decide))))) 0 (eng (tile (BitVec.ofFin (op.castLE (by decide))))) [] op.val
      ∧ 1 ≤ leAt (tile (BitVec.ofFin (op.castLE (by decide)))) 3 1 / 16 ∧ 1 ≤ leAt (tile (BitVec.ofFin (op.castLE (by decide)))) 3 1 % 16 := by
  unfold MatrixHead; revert op; decide +kernel

/-- LDPARAM and LDTILE of 64 bytes at offset 4096. -/
def loadRaw (op dest : Byte) : List Byte := [op, 8 * dest, 0, 0] ++ leBytes 3 64 ++ [0] ++ leBytes 4 4096 ++ zeros 52

/-- Banks that serve an engine at once, with the scrub off. -/
def quiet (s : State) : State := s.setReg (unitCore 0) rSPAD_CTRL 0xFFFF0000

theorem witness_banks_free : MatrixFree (quiet (matrix (tile 2))) 0 (mxAccesses (eng (tile 2))).length ∧ BanksFree (quiet (vector (loadRaw 1 0))) 0 1
    ∧ 64 ∣ (eng (loadRaw 1 0)).spadBase + leAt (loadRaw 1 0) 8 4 :=
  ⟨⟨⟨by unfold BankServes; decide +kernel, by decide +kernel, .inl (by decide +kernel)⟩, by decide +kernel⟩,
   ⟨by unfold BankServes; decide +kernel, by decide +kernel, .inl (by decide +kernel)⟩, by decide +kernel⟩

/-- The bank of the first read of an LDACC, and of an LDPARAM, whose turn it is. -/
theorem witness_engine_reads :
    BankServes (matrix (tile 2)) 0 0 ∧ NoP6First (matrix (tile 2)) 0 0 ∧ (matrix (tile 2)).mxuNext 0 = some (4096, 64)
      ∧ (matrix (tile 2)).vecNext 0 = none ∧ (vector (loadRaw 1 0)).vecNext 0 = some (4096, 64)
      ∧ (eng (loadRaw 1 0)).pos < (eng (loadRaw 1 0)).reads.length :=
  ⟨⟨rfl, rfl⟩, .inr (by decide : (0 : Nat) < 7), by decide +kernel, by decide +kernel, by decide +kernel, by decide +kernel⟩

theorem witness_stream : StreamClean (matrix (tile 2)) 0 ⟨[], []⟩ (mxRowsC (eng (tile 2)))
    ∧ (leAt (tile 4) 4 1).testBit 2 = true ∧ 128 * (leAt (tile 4) 3 1 / 16) ≤ leAt (tile 4) 36 4
    ∧ ((matrix (tile 4)).core 0).mxu.isPoisoned 0 = false := by
  refine ⟨⟨rfl, rfl, fun e _ => clean_of_none _ _ rfl⟩, ?_⟩; decide +kernel

/-- A poisoned tile, and an uncorrectable word of operand A. -/
theorem witness_matrix_poison :
    ((matrix (tile 4)).modCore 0 (fun c => { c with mxu := { c.mxu with poison := [(0, true)] } }) |> fun s =>
        (s.core 0).mxu.isPoisoned 0 = true)
      ∧ (((matrix (tile 0)).modCore 0 (fun c => { c with spad := { c.spad with ue := [(0, true)] } })).spad 0).isUe 0 = true
      ∧ (mxRows (eng (tile 0))).any (fun e => decide (e.1 / 8 * 8 ≤ 0 ∧ 0 < e.1 + e.2)) = true ∧ blockTile (eng (tile 4)) 0 := by
  unfold blockTile; decide +kernel

/-- A CHAIN of one stage, an addition of 16-bit integers of IN0 at 4096 and IN1 at 8192 to 12288. -/
def chainRaw : List Byte :=
  [0, 0, 0, 0] ++ leBytes 3 32 ++ [0] ++ leBytes 4 4096 ++ leBytes 4 8192 ++ leBytes 4 12288 ++ leBytes 3 (5 + 8 * 5) ++ [0]
    ++ leBytes 4 (1 + 2 ^ 5 * 5 + 2 ^ 11 + 2 ^ 12 + 2 ^ 17) ++ zeros 36

theorem witness_vector_loads :
    VectorHead (vector (loadRaw 1 0)) 0 (eng (loadRaw 1 0)) [] 1 ∧ VectorHead (vector (loadRaw 2 1)) 0 (eng (loadRaw 2 1)) [] 2
      ∧ leAt (loadRaw 2 1) 4 3 = 64 ∧ (((vector (loadRaw 2 1)).modCore 0 (fun c => { c with spad := { c.spad with ue := [(4096, true)] } })).spad 0).isUe 4096
          = true := by
  unfold VectorHead; decide +kernel

theorem witness_vector_stream : StreamClean (vector (loadRaw 1 0)) 0 ⟨[], []⟩ [(4096, 64)] :=
  ⟨rfl, rfl, fun e _ => clean_of_none _ _ rfl⟩

theorem witness_chain :
    VectorHead (vector chainRaw) 0 (eng chainRaw) [] 0 ∧ vxLast chainRaw = 0 ∧ vxOutStage chainRaw = 0 ∧ vxDest chainRaw = 0
      ∧ vxOutMask chainRaw = 0 ∧ vxHsel chainRaw = 0 ∧ vxInFmt chainRaw 0 = 5 ∧ vxInFmt chainRaw 1 = 5
      ∧ vxStage chainRaw 0 = 1 + 2 ^ 5 * 5 + 2 ^ 11 + 2 ^ 12 * 1 + 2 ^ 16 * 2 ∧ vxCount chainRaw = 32 ∧ vxOut chainRaw = 12288
      ∧ (List.range 4).all (fun k => !vxReadsTb chainRaw k) = true := by
  unfold VectorHead; decide +kernel

theorem witness_chain_poison :
    ∃ raw k, k < 4 ∧ vxReadsTb raw k = true ∧ (((vector raw).modCore 0 (fun c => { c with vec := { c.vec with poison := [(k, true)] } })).core 0).vec.isPoisoned k
      = true :=
  ⟨[0, 0, 0, 0] ++ leBytes 3 32 ++ [0] ++ zeros 16 ++ leBytes 4 (1 + 2 ^ 5 * 5 + 2 ^ 11 + 2 ^ 12 * 3 + 2 ^ 16 * 3) ++ zeros 36, 0,
    by decide +kernel⟩

/-- A buffer a lookup key of which is poisoned need not be read. -/
theorem witness_chain_reads_no_key : vxKeys chainRaw = [] := by decide +kernel

/-- 7 + 5 in every element that holds them: the chain adds. -/
theorem test_chain_adds :
    ((after (.chain 0 ⟨[], []⟩) ((vector chainRaw).modCore 0 (fun c => { c with spad := { c.spad with
      bytes := [(4096, 7), (8192, 5)] } }))).spad 0).read 12288 4 = [12, 0, 0, 0] := by decide +kernel


/-! DRAM. -/

/-- Access 0 waits at DRAM offset 64 of die 0, whose stack is as asked. -/
def dramAt (k : AccessKind) (f : Dram → Dram) : State :=
  { mapped with
    mesh := { Mesh.reset with accesses := [(0, some { access k .atTarget none none with addr := 64 })], nextAccess := 1 }
    drams := [(0, f Dram.reset)] }

/-- A pending read of the line at offset 64. -/
def pendingRead : DramRead :=
  { accs := [0], acceptedAt := 0, line := 64, half := readHalf 64 8, data := zeros 64, poisoned := false, live := true, overwritten := false, back := none }

theorem witness_at_dram (k : AccessKind) (f : Dram → Dram) :
    AtDram (dramAt k f) 0 { access k .atTarget none none with addr := 64 } 0 0 64 := by
  refine ⟨rfl, rfl, ?_, ?_⟩
  · show oneDie.target 64 = _; decide +kernel
  · show oneDie.site 0 = _; decide +kernel

/-- The port serves the read, alone, merged, or not at all because it is retired. -/
theorem witness_dram_reads :
    PortTurn (dramAt (.read 8) id) ((dramAt (.read 8) id).dramClass 0 1) 0 0 1 1 ∧ NoMerge (dramAt (.read 8) id) 0 1 64 (readHalf 64 8)
      ∧ ((dramAt (.read 8) id).dram 0).isRetired 64 = false ∧ (portAt (dramAt (.read 8) id) 0 1).reads = []
      ∧ ((dramAt (.read 8) (fun d => d.modPort 1 (fun x => { x with retired := true }))).dram 0).isRetired 64 = true
      ∧ (portAt (dramAt (.read 8) (fun d => d.modPort 1 (fun x => { x with reads := [pendingRead] }))) 0 1).reads = [pendingRead]
      ∧ ((dramAt (.read 8) id).reg (unitDie 0) rDRAM_CTRL).testBit 0 = true ∧ dramPort 64 = 1 := by
  refine ⟨?_, .inr (.inr fun r h => ?_), ?_⟩
  · unfold PortTurn; decide +kernel
  · have h0 : (portAt (dramAt (.read 8) id) 0 1).reads = [] := by decide +kernel
    rw [h0] at h; cases h
  · decide +kernel

/-- A read that has returned with OK may be joined for 32 cycles. -/
theorem witness_read_is_joined :
    ({ pendingRead with back := some (0, 0) } : DramRead).live = true ∧ ({ pendingRead with back := some (0, 0) } : DramRead).half = readHalf 64 8
      ∧ (dramAt (.read 8) id).now ≤ 0 + 32 := by decide +kernel

/-- A whole line, which waits for no read, and a part of one that no pending read names. -/
theorem witness_dram_parts : wholeLine 64 (zeros 64).length = true ∧ wholeLine 64 (zeros 8).length = false
    ∧ (portAt (dramAt (.write (zeros 8)) id) 0 1).reads = [] := by decide +kernel

theorem witness_dram_returns (p : Bool) :
    (portAt (dramAt (.read 8) (fun d => d.modPort 1 (fun x => { x with reads := [{ pendingRead with poisoned := p }] }))) 0 1).reads
      = [{ pendingRead with poisoned := p }] := by cases p <;> decide +kernel

theorem witness_dram_writes : PortTurn (dramAt (.write (zeros 64)) id) ((dramAt (.write (zeros 64)) id).dramClass 0 1) 0 0 1 1
    ∧ 64 % 64 + (zeros 64).length ≤ 64 := by unfold PortTurn; decide +kernel

/-- KIND 3, a row not yet retired, and one of a retired bank. -/
theorem witness_dram_upkeep :
    (0x81800000 : BitVec 32).toNat / 2 ^ 31 = 1 ∧ field (0x81800000 : BitVec 32).toNat 23 2 = 3
      ∧ field (0x80000001 : BitVec 32).toNat 23 2 = 0 ∧ (State.reset.dram 0).retiring = false
      ∧ (portAt State.reset 0 0).covers 0 0 1 = false
      ∧ (portAt (dramAt (.read 8) (fun d => d.modPort 0 (fun x => { x with banks := 1 }))) 0 0).covers 0 0 1 = true
      ∧ (State.reset.reg (unitDie 0) rDRAM_CTRL).testBit 1 = true ∧ (portAt State.reset 0 0).retired = false
      ∧ (State.reset.dram 0).isRetired (dramOffset 0 0) = false ∧ (State.reset.dram 0).thermal ≤ 3 := by decide +kernel

/-- The entry thresholds of the thermal states. -/
theorem test_thermal_states :
    [84, 85, 98, 103].map (fun t => ((after (.thermalSample 0 t) State.reset).dram 0).thermal) = [0, 1, 2, 3] := by decide +kernel


/-! The bulk mesh. -/

/-- A packet of two flits for router 5 of die 0. -/
def packet : Packet :=
  { cargo := .request 0, from_ := .router 1 3, dest := 0, destRouter := 5, vc := 2, mid := none, esc := false, poolQ := false, exit := none,
    seamHops := 0, flits := 2, since := 0, place := .inject, inPort := 4, patch := 0, held := none, targets := [] }

/-- Packets of the mesh, from key 0 up. -/
def meshed (l : List Packet) : State :=
  { mapped with
    mesh := { Mesh.reset with
      packets := (List.range l.length).zip (l.map some), nextPacket := l.length
      accesses := [(0, some (access (.read 8) .requesting none none))] } }

/-- A route, none, and a throttled injection. -/
theorem witness_die_entry :
    Injects (meshed [{ packet with from_ := .router 0 3 }]) 0 { packet with from_ := .router 0 3 } 0 3
      ∧ (meshed [packet]).active.route 0 0 = (4, 7) ∧ (meshed [packet]).active.route 0 1 = (7, 7)
      ∧ packet.seamHops ≤ (meshed [packet]).rwt (unitDie 0) rMESH_DIE_CFG 12 6
      ∧ ({ meshed [{ packet with vc := 0 }] with mesh := { (meshed [{ packet with vc := 0 }]).mesh with
          injected := [(53, (0, 65))] } } : State).mayInject 53 = false := by unfold Injects; decide +kernel

/-- A packet that is injected; one that has come over a seam link, before and at its intermediate die. -/
theorem witness_enters :
    Enters (meshed [{ packet with from_ := .router 0 3 }]) 0 { packet with from_ := .router 0 3 }
        { packet with from_ := .router 0 3, place := .router 0 3 } 0 3 0
      ∧ Enters (meshed [{ packet with place := .router 0 3, vc := 0, mid := some 0 }]) 0 { packet with place := .router 0 3, vc := 0, mid := some 0 }
        { packet with place := .router 0 3, vc := 1 } 0 3 0 := by
  refine ⟨⟨_, .inl ⟨by unfold Injects; decide +kernel, rfl, rfl⟩, .inr ⟨fun m h => ?_, rfl⟩⟩,
    ⟨_, .inr ⟨by decide +kernel, rfl, rfl, rfl, rfl⟩, .inl ⟨⟨0, rfl, ?_⟩, rfl⟩⟩⟩
  · cases h
  · show oneDie.site 0 = _; decide +kernel

theorem witness_exit_up : ExitUp (meshed [packet]) 0 4 ∧ ExitUp (meshed [packet]) 0 7 :=
  ⟨fun _ _ _ => ⟨rfl, rfl⟩, fun _ _ _ => ⟨rfl, rfl⟩⟩

/-- With room beyond and without; at its target's router; and in a station of an open and of a fenced link. -/
theorem witness_forwarding :
    (WantsPort (meshed [{ packet with place := .router 0 3, exit := some 4 }]) 0 { packet with place := .router 0 3, exit := some 4 } 0 3 3
        ∧ (meshed [{ packet with place := .router 0 3, exit := some 4 }]).roomBeyond 0 3 3 { packet with place := .router 0 3, exit := some 4 } = true)
      ∧ (WantsPort (meshed [{ packet with place := .router 0 3, exit := some 4 }, { packet with place := .router 0 2, exit := some 4, inPort := 2, flits := 999 }]) 0
            { packet with place := .router 0 3, exit := some 4 } 0 3 3
          ∧ (meshed [{ packet with place := .router 0 3, exit := some 4 }, { packet with place := .router 0 2, exit := some 4, inPort := 2, flits := 999 }]).roomBeyond
              0 3 3 { packet with place := .router 0 3, exit := some 4 } = false)
      ∧ WantsPort (meshed [{ packet with place := .router 0 5, exit := some 4 }]) 0 { packet with place := .router 0 5, exit := some 4 } 0 5 4
      ∧ InStation (meshed [{ packet with place := .station 1 3 5 }]) 0 { packet with place := .station 1 3 5 } 1 3 5
      ∧ farEnd 1 3 5 = some (0, 9, 2) ∧ (meshed [packet]).linkOpen (linkAt 1 3) = true := by
  unfold WantsPort InStation; refine ⟨?_, ?_, ?_, ?_, ?_, ?_⟩ <;> decide +kernel

theorem witness_escape :
    ((meshed [{ packet with place := .router 0 3, exit := some 4 }, { packet with place := .router 0 2, exit := some 4, inPort := 2, flits := 999 }]) |> fun s =>
      s.isHead 0 { packet with place := .router 0 3, exit := some 4 } = true
        ∧ s.roomBeyond 0 3 (nextPort 3 4 5) { packet with place := .router 0 3, exit := some 4 } = false
        ∧ s.roomRouter 0 3 4 { packet with place := .router 0 3, exit := some 4, vc := 6 } = true
        ∧ s.active.routeNode 0 = some 0 ∧ s.active.graph.esc 0 0 = some 4) := by decide +kernel

/-- The throttle of a router is on. -/
theorem witness_throttle_on : (ready.reg (unitCore 53) rMESH_THROTTLE_CFG).testBit 31 = true := by decide +kernel

/-- A held branch of a multicast that has arrived, and a throttle level whose depth is low. -/
theorem witness_drop_and_throttle :
    (meshed [{ packet with
        cargo := .mcast 0 0 0 (zeros 64) true, vc := 7, place := .router 0 0, exit := some 4, destRouter := 0, held := some 0, dest := 0,
        targets := [0] }]
      |> fun s => (s.packet 0).bind (fun x => s.wantPort x 0) = some 4)
      ∧ SMap.get 0 ({ meshed [] with mesh := { Mesh.reset with level := [(53, 2)], lowSince := [(53, 1)] } } : State).mesh.level 53 = 2 := by
  decide +kernel

/-- A multicast line at core 0, for its window of one credit, or of none. -/
def lineState (credits : Nat) : State :=
  { remote (access (.read 8) .replied none none) (fun sp => sp.modWin 0 (fun w => { w with credits := credits })) with
    mesh := { Mesh.reset with packets := [(0, some { packet with
      cargo := .mcast 1 0 0 (zeros 64) true, vc := 7, place := .router 0 0, exit := some 4, destRouter := 0, dest := 64, targets := [0] })], nextPacket := 1 } }

theorem witness_line_at : LineAt (lineState 1) 0 { packet with
    cargo := .mcast 1 0 0 (zeros 64) true, vc := 7, place := .router 0 0, exit := some 4, destRouter := 0, dest := 64, targets := [0] }
    0 1 0 0 0 (zeros 64) true := by
  refine ⟨rfl, ?_, rfl, rfl, rfl, rfl, rfl, rfl, ?_, by decide, ?_, ?_, (fun t0 h => by cases h), (fun e h => by cases h)⟩
  · show (0 : Nat) ≠ 1; decide
  all_goals decide +kernel

theorem witness_multicast_lines :
    ((lineState 1).core 0).takesWrite (bankOf 64) = true ∧ (((lineState 1).spad 0).win 0).closing = false
      ∧ (((lineState 1).spad 0).win 0).admits (.core (((lineState 1).gid 1).getD 0x3FFF) 0) = true
      ∧ ((lineState 1).spad 0).winAt 64 64 = some 0
      ∧ (((lineState 1).spad 0).win 0).creditsOut < (((lineState 1).spad 0).win 0).credits
      ∧ (((lineState 0).spad 0).win 0).credits ≤ (((lineState 0).spad 0).win 0).creditsOut
      ∧ ((mapped.spad 0).winAt 64 64 = none) := by decide +kernel


/-! Registers. -/

/-- The register of core 0 at an offset. -/
theorem witness_core_register : ∃ r, CoreRegister ready 0 (BitVec.ofNat 16 rCORE_FAULT_COUNT) r ∧ rCORE_FAULT_COUNT ∉ coreSpecial
    ∧ r.off ≠ rTASK_FAULT ∧ r.roc &&& r.wo = 0 ∧ r.roc ≠ 0 ∧ r.roc < 2 ^ 64 ∧ r.rw &&& r.w1c = 0 := by
  refine ⟨(regRow? (unitCore 0) rCORE_FAULT_COUNT).get (by decide +kernel), ?_⟩
  unfold CoreRegister; decide +kernel

theorem witness_throttle_register : ∃ r, CoreRegister ready 0 (BitVec.ofNat 16 rMESH_THROTTLE_CFG) r := by
  refine ⟨(regRow? (unitCore 0) rMESH_THROTTLE_CFG).get (by decide +kernel), ?_⟩
  unfold CoreRegister; decide +kernel

/-- Nothing has counted in the register in this cycle, or one event has, and hardware has set a bit of it. -/
theorem witness_hw : ready.hwOf (unitCore 0) rMESH_THROTTLE_CFG = none
    ∧ (ready.bump (unitCore 0) rCORE_FAULT_COUNT 0 32 1).hwOf (unitCore 0) rCORE_FAULT_COUNT = some (0, 0, 1)
    ∧ (ready.setFld (unitCore 0) rCORE_STATUS 0 1 1).hwBits (unitCore 0) rCORE_STATUS = 1 := by decide +kernel

theorem witness_spad_ctrl : ∃ r, CoreRegister ready 0 (BitVec.ofNat 16 rSPAD_CTRL) r
    ∧ (ready.reg (unitCore 0) rSPAD_CTRL).testBit 16 = true := by
  refine ⟨(regRow? (unitCore 0) rSPAD_CTRL).get (by decide +kernel), ?_⟩
  unfold CoreRegister; decide +kernel

/-- Thresholds in order, and out of order. -/
theorem witness_thresholds :
    (1 ≤ field (0x803C2818 : BitVec 64).toNat 0 7 ∧ field (0x803C2818 : BitVec 64).toNat 0 7 < field (0x803C2818 : BitVec 64).toNat 8 7
      ∧ field (0x803C2818 : BitVec 64).toNat 8 7 < field (0x803C2818 : BitVec 64).toNat 16 7 ∧ field (0x803C2818 : BitVec 64).toNat 16 7 ≤ 100)
      ∧ field (0x80002818 : BitVec 64).toNat 16 7 < field (0x80002818 : BitVec 64).toNat 8 7 := by decide

/-- The panel in D0, and in D3hot. -/
theorem witness_power_states : ready.host.d3hot = false ∧ ({ ready with host := { ready.host with d3hot := true } } : State).host.d3hot = true
    ∧ (ConfigField.vendorId, 0x1E6B) ∈ configIdentity := by decide +kernel

/-- A reserved offset; a size of the decoder at its limit. -/
theorem witness_reserved : regRow? (unitCore 0) 0x1F00 = none ∧ regRow? (unitCore 0) 0x1F04 = none ∧ 0x1F00 % 8 = 0
    ∧ (2 ^ 40 : BitVec 64).toNat % 2 ^ 28 = 0 ∧ (2 ^ 40 : BitVec 64).toNat ≤ 2 ^ 40 := by decide +kernel

theorem witness_rwt_register : ∃ r, RwtRegister ready (unitEdge 9) rTICK_SCHED r ∧ ready.cfg.pending = false ∧ ready.tackDue = false
    ∧ ready.shadow.accepts (unitEdge 9) rTICK_SCHED 1000 = true := by
  refine ⟨(regRow? (unitEdge 9) rTICK_SCHED).get (by decide +kernel), ?_⟩
  unfold RwtRegister; decide +kernel

/-- A core register of core 0 through the window and a place that is none. -/
theorem witness_window_access :
    (mapped.setReg unitBar rHOST_PWIN_BASE (2 * 2 ^ 44) |> fun s => s.reg unitBar rHOST_PWIN_BASE + 8 = 2 * 2 ^ 44 + 8
        ∧ s.active.target (2 * 2 ^ 44 + 8) = some (.coreReg 0 0 8) ∧ s.active.coreIx 0 0 = some 0)
      ∧ (mapped.setReg unitBar rHOST_PWIN_BASE (5 * 2 ^ 44) |> fun s => s.active.target (s.reg unitBar rHOST_PWIN_BASE + 0) = none) := by decide +kernel


/-! The halyard network: hubs 193 below 194 below the root, with die 0 at site 193, core 0 of it 9650, while tick 0 runs. -/

def small : State :=
  { State.reset with
    active := { oneDie with
      sections := [(1, [(0, [193] ++ List.replicate 7 0 ++ (List.range 48).map (fun l => BitVec.ofNat 8 (defaultPhys l)) ++ List.replicate 8 0)])]
      graph := ⟨(List.range 213).filter (fun v => v != 193 && v != 194), []⟩, regs := [(regKey (unitCore 9650) rHAL_BAR_EXPECT, 1)] }
    gen := { TickGen.reset with gstate := .running, run := true, ticks := [tick0], class0 := some (.commit 0, 0) } }

theorem small_parents : small.halParent 193 = some 194 ∧ small.halParent 194 = some halRoot := by decide +kernel

/-- The next upward message of hub 193, and of hub 194. -/
def upward (h : Nat) (f : HubOut → HubOut) : State := small.modHub h (fun x => { x with up := f x.up })

theorem upward_parents (h : Nat) (f : HubOut → HubOut) :
    (upward h f).halParent 193 = some 194 ∧ (upward h f).halParent 194 = some halRoot := small_parents

/-- A current vote, a stale one, barriers and a notice go up. -/
theorem witness_hub_sends :
    SendsUp (upward 193 (fun o => { o with vote := [(0, (0, 0, true))] })) 193 194 (.vote 0 0 0 true)
      ∧ SendsUp (upward 193 (fun o => { o with vote := [(0, (0, 1, true))] })) 193 194 (.vote 0 0 1 true)
      ∧ SendsUp (upward 193 (fun o => { o with bar := [(0, 0, 3)] })) 193 194 (.bar 0 0 3)
      ∧ SendsUp (upward 193 (fun o => { o with notices := [⟨0, 9650, 0, 0, 1, none, none⟩] })) 193 194 (.notice ⟨0, 9650, 0, 0, 1, none, none⟩) := by
  refine ⟨⟨(upward_parents ..).1, by decide, fun h => absurd h (by decide), ?_⟩, ⟨(upward_parents ..).1, by decide, fun h => absurd h (by decide), ?_⟩,
    ⟨(upward_parents ..).1, by decide, fun h => absurd h (by decide), ?_⟩, ⟨(upward_parents ..).1, by decide, fun h => absurd h (by decide), ?_⟩⟩ <;>
    decide +kernel

theorem witness_hub_messages :
    small.currentMsg 0 0 = true ∧ small.currentMsg 0 1 = false ∧ small.attOf 0 = some 0 ∧ small.gen.class0 ≠ none
      ∧ (small.hub 193).up.bar = [] ∧ (193 : Nat) ≠ halRoot ∧ small.currentBar 0 0 = true
      ∧ small.currentMsg 0 0 16 = true ∧ small.currentMsg 0 1 16 = false := by decide +kernel

/-- Slot 0 of core 9650 waits at barrier 0, at which the core has arrived; the release comes down. -/
def released : State :=
  ((small.modHub 193 (fun x => { x with down := [(outNodes, { HubOut.empty with bar := [(0, 0, 1)] })] })).modCore 9650 (fun c =>
    { c with node := { c.node with barArrived := [(0, some 0)], barCount := [(0, 1)] } })).modSlot 9650 0 (fun sl =>
      { sl with mode := .waiting, wait := .barrier 0 false })

theorem witness_release :
    HandsDown released 193 (.bar 0 0 (BitVec.ofNat 64 (2 ^ 0))) ∧ released.attOf 0 = some 0 ∧ 9650 ∈ released.halMembers 193
      ∧ SMap.get none (released.core 9650).node.barArrived 0 ≠ none ∧ SMap.get 0 (released.core 9650).node.barNext 0 = 0
      ∧ 0 < released.barExpect 9650 0 ∧ (released.slot 9650 0).mode = .waiting ∧ (released.slot 9650 0).wait = .barrier 0 false := by
  unfold HandsDown; decide +kernel

/-- Every vote below hub 193 has come; of hub 194 the child has voted for a tack. -/
def voted : State :=
  small.modHub 193 (fun x => { x with votes := [(0, ⟨0, 0, true, small.halMembers 193, [], false⟩)] })

theorem witness_votes :
    (votesAt voted 193 0).sent = false ∧ (votesAt voted 193 0).members ≠ [] ∧ voted.voteComplete 193 (votesAt voted 193 0) = true
      ∧ voted.currentMsg 0 0 = true := by decide +kernel

theorem witness_tack_votes :
    ({ small with
        cfg := { small.cfg with swappedAt := some 0 }, hubs := [(194, { Hub.reset with votes := [(2, ⟨1, 0, true, [], [193], false⟩)] })] } : State) |> fun s =>
      s.cfg.swappedAt ≠ none ∧ (votesAt s 194 2).tick = s.cfg.activeGen + 1 ∧ (votesAt s 194 2).sent = false ∧ s.hasBelow 194 (fun _ => true) = true
        ∧ s.halChildren 194 = [193] := by decide +kernel

theorem witness_histogram_merge :
    ({ small with gen := { small.gen with last := some tick0 } } : State) |> fun s =>
      (s.gen.merging 0).isSome = true ∧ SMap.get [] (s.hub 193).histEnds 0 = [] ∧ s.halChildren 193 = [] := by decide +kernel

theorem witness_node_notice :
    (small.modCore 9650 (fun c => { c with node := { c.node with notices := [⟨0, 9650, 0, 0, 1, none, none⟩] } })) |> fun s =>
      (s.core 9650).node.notices.find? (fun x => x.kind == 0) = some ⟨0, 9650, 0, 0, 1, none, none⟩ ∧ s.noticeRoom 193 = true := by decide +kernel

/-- A notice of tick 0 comes into the root, and one of an attempt that is gone; a heartbeat. -/
theorem witness_root_notices :
    SendsIn (upward 194 (fun o => { o with notices := [⟨0, 9650, 0, 0, 1, none, none⟩] })) 194 (.notice ⟨0, 9650, 0, 0, 1, none, none⟩)
      ∧ SendsIn (upward 194 (fun o => { o with notices := [⟨0, 9650, 0, 9, 1, none, none⟩] })) 194 (.notice ⟨0, 9650, 0, 9, 1, none, none⟩)
      ∧ SendsIn (upward 194 (fun o => { o with dieHb := [(193, 3)] })) 194 (.dieHb 193 3)
      ∧ tick0 ∈ small.gen.ticks ∧ tick0.commitAt = none ∧ tick0.att = 0 := by
  refine ⟨⟨(upward_parents ..).2, by decide, ?_⟩, ⟨(upward_parents ..).2, by decide, ?_⟩, ⟨(upward_parents ..).2, by decide, ?_⟩, ?_⟩ <;> decide +kernel

/-- A core event that reaches the root. -/
def coreEvent : CoreEvent :=
  { sev := .info, code := 0x10, tick := some 0, src := ⟨193, 0, false, 0⟩, data := 0, ahead := false }

theorem witness_event_notice :
    SendsIn (upward 194 (fun o => { o with notices := [⟨3, 9650, 0, 0, 2, none, some coreEvent⟩] })) 194 (.notice ⟨3, 9650, 0, 0, 2, none, some coreEvent⟩)
      ∧ coreEvent.ahead = false ∧ small.maint.restartUntil = none ∧ small.events.ring = none ∧ isBootEvent coreEvent.code = false
      ∧ ((small.setReg unitMgmt rTEL_MCTP 0x30032).reg unitMgmt rTEL_MCTP).testBit 19 = false := by
  refine ⟨⟨(upward_parents ..).2, by decide, ?_⟩, ?_⟩ <;> decide +kernel

theorem witness_heartbeats :
    small.hubAlive 193 = true ∧ small.fld (unitDie 193) rHAL_HB_LOST_LO 0 1 = 0
      ∧ (small.setReg (unitDie 193) rPWR_REGION_STAT 2).regionState 193 (regionOf 9650) = 2 := by decide +kernel

/-- A current and a stale user message, acknowledgements and a debug message come down to the nodes. -/
def down (m : Class2) : State := small.modHub 193 (fun x => { x with down := [(outNodes, { HubOut.empty with class2 := [m] })] })

theorem witness_user_traffic :
    HandsDown (down (.user ⟨0, 0, 1, 0, 0, 7⟩)) 193 (.class2 (.user ⟨0, 0, 1, 0, 0, 7⟩))
      ∧ HandsDown (down (.userAck 0 1 true)) 193 (.class2 (.userAck 0 1 true))
      ∧ HandsDown (down (.debug 0 0)) 193 (.class2 (.debug 0 0)) ∧ small.physOf 0 = some 9650 ∧ small.siteOf 1 = 193
      ∧ NoneWaits small 9650 ∧ (small.core 9650).node.recvQ.length < 32
      ∧ 32 ≤ ((small.modCore 9650 (fun c => { c with node := { c.node with recvQ := List.replicate 32 ⟨0, 0, 1, 0, 0, 7⟩ } })).core 9650).node.recvQ.length := by
  unfold HandsDown NoneWaits; refine ⟨?_, ?_, ?_, ?_, ?_, ?_, ?_, ?_⟩ <;> decide +kernel

theorem witness_user_queues :
    (small.modCore 9650 (fun c => { c with node := { c.node with sendQ := [⟨⟨0, 1, 0, 0, 0, 7⟩, true, none⟩] } })) |> fun s =>
      (s.core 9650).node.sendQ = [⟨⟨0, 1, 0, 0, 0, 7⟩, true, none⟩] := by decide +kernel


/-! Ticks, worlds and tacks. -/

/-- The tick after COMMIT_SEQ 0. -/
def tick1 : TickRun := { tick0 with tick := 1, tEff := some 0 }

/-- A panel with die 0 mapped and the generator as asked. -/
def gen (f : TickGen → TickGen) : State :=
  { mapped with gen := f { TickGen.reset with gstate := .running, run := true, ticks := [tick1] } }

theorem witness_tick_control :
    mapped.gen.gstate = .stopped ∧ mapped.gen.ticks = [] ∧ mapped.isRoot = false ∧ (gen id).gen.gstate = .running := by decide +kernel

/-- A ready tick without alignment, with the external pin, and with neither. -/
theorem witness_tick_starts :
    ((gen (fun g => { g with ready := some 7, ticks := [] })) |> fun s => s.gen.ready = some 7 ∧ s.rwt unitMgmt rTICK_SRC 0 2 = 0
        ∧ s.cfg.pending = false ∧ s.gen.ticks.length < 2)
      ∧ (({ gen (fun g => { g with ready := some 0 }) with active := oneDie.setReg unitMgmt rTICK_SRC 1 } : State) |> fun s =>
          s.rwt unitMgmt rTICK_SRC 0 2 = 1 ∧ s.gen.aligned = none) := by decide +kernel

/-- Edge 0 may go; it takes effect; nothing is on the network. -/
theorem witness_tick_phases :
    (gen id).tickRun 1 = some tick1 ∧ tick1.edgesSent < (gen id).phaseCount tick1.prog ∧ (gen id).edgeMayGo tick1 = true
      ∧ (gen id).gen.class0 = none ∧ (gen (fun g => { g with class0 := some (.phase 0 1 0, 9) })).gen.class0 = some (.phase 0 1 0, 9) := by
  decide +kernel

/-- The root holds a vote of one child below it: OK or not. -/
def rootVoted (ok : Bool) : State :=
  { small with
    gen := { small.gen with ticks := [tick1], commitSeq := 0 }, hubs := [(213, { Hub.reset with votes := [(1, ⟨1, 0, ok, [], [194], false⟩)] })] }

theorem witness_root_vote (ok : Bool) :
    (rootVoted ok).tickRun 1 = some tick1 ∧ (votesAt (rootVoted ok) halRoot 1).tick = 1 ∧ (votesAt (rootVoted ok) halRoot 1).children ≠ []
      ∧ (rootVoted ok).voteComplete halRoot (votesAt (rootVoted ok) halRoot 1) = true ∧ (votesAt (rootVoted ok) halRoot 1).ok = ok := by
  cases ok <;> decide +kernel

theorem witness_tick_ends :
    (gen (fun g => { g with ticks := [{ tick1 with d := some 5 }] })).tickRun 1 = some { tick1 with d := some 5 } ∧ tick1.tEff = some 0
      ∧ tick1.commitAt = none ∧ tick1.d = none := by decide +kernel

theorem witness_in_time : InTime tick1 100 ∧ ¬ InTime tick1 2101001 ∧ MayCommit (gen id) 2100000 := by
  refine ⟨fun e h => ?_, fun h => absurd (h 0 rfl) (by decide), fun y e hy he => ?_⟩
  · cases h; decide
  · have hy : some tick1 = some y := hy
    cases hy; cases he
    exact Nat.le_trans (by decide : 2100000 ≤ 0 + tick1.period + tick1.allow) (Nat.le_add_right _ _)

theorem witness_tick_effects :
    (gen (fun g => { g with class0 := some (.abandon 1 0, 9) })).gen.class0 = some (.abandon 1 0, 9)
      ∧ (1 : Nat) = (gen id).gen.commitSeq.toNat + 1
      ∧ (gen (fun g => { g with class0 := some (.commit 1, 9) })).gen.ticks = tick1 :: [] := by decide +kernel

/-- A status word of two slots; three slots without their feature; a reserved state. A write of a done-mark word. -/
theorem witness_world_marks :
    field (0x20001 : Word).toNat 16 2 = 2 ∧ field (0x20001 : Word).toNat 0 2 ≠ 3 ∧ field (0x30001 : Word).toNat 16 2 = 3
      ∧ State.reset.feature 1 = false ∧ field (0x20003 : Word).toNat 0 2 = 3 := by decide +kernel

theorem witness_done_word : doneWord (4 * 2 ^ 44 + 8 * 2 ^ 40 + 0x1040000) = some 0 ∧ tick1 ∈ (gen id).gen.ticks := by decide +kernel

/-- World 0 copies one line from offset 0 of die 0 to offset 4096 and beyond. -/
def worldly : State :=
  { mapped with worlds := { Worlds.reset with
      table := [(0, { World.reset with state := 1, slots := 2, stateBase := 4096, slotStride := 64, slotBytes := 64 })]
      copies := [⟨1, [0], false⟩] } }

theorem witness_world_copies :
    worldly.worlds.copies.find? (fun c => c.todo.contains 0) = some ⟨1, [0], false⟩ ∧ (worldly.world 0).slotBytes = 64 * 1
      ∧ CopyPlaces worldly 0 4160 0 0 0 4160 1 := by
  unfold CopyPlaces; decide +kernel

/-- Nothing holds an access back at the ports of site 0. -/
theorem witness_ports_free : PortsFree worldly 0 := by
  refine ⟨fun p => ⟨rfl, rfl⟩, fun d p => rfl, ?_⟩; decide +kernel

theorem witness_copies_reported : ([⟨1, [], false⟩] : List ResetCopies).find? (fun c => c.tick == 1) = some ⟨1, [], false⟩ := by decide

/-- A tack at its boundary, in effect, and voted for. -/
def tacking (f : ConfigCtl → ConfigCtl) : State := { mapped with cfg := f { ConfigCtl.reset with pending := true } }

theorem witness_tack_boundary :
    (tacking id).atBoundary = true ∧ (tacking id).cfg.boundaryAt = none ∧ (tacking id).cfg.tackSent = none ∧ (tacking id).cfg.pending = true
      ∧ (tacking id).shadow.count 5 = 0 ∧ (tacking (fun c => { c with swappedAt := some 1, tackSent := some 1 })).cfg.swappedAt = some 1
      ∧ (tacking id).cfg.autoQ = false ∧ (tacking id).cfg.met = [] ∧ (tacking id).active.vacantLaunch = false := by decide +kernel

/-- The shadow set moves a die away and something is on the mesh; or it moves nothing. -/
theorem witness_tack_drains :
    ({ tacking id with mesh := (meshed [{ packet with place := .router 0 3 }]).mesh } : State).drained = false ∧ (tacking id).tackDrains = true
      ∧ ({ tacking id with shadow := oneDie } : State).tackDrains = false := by decide +kernel


/-! Collectives. -/

/-- A bucket of 16 reduction words over dies 0 and 1, one contributor a die, root 0, one panel. -/
def bucket (flags : Byte) : List Byte :=
  [flags, 8, 0, 1, 1, 0, 0, 0] ++ leBytes 4 16 ++ [4, 0, 0, 0] ++ leBytes 8 0x10000 ++ zeros 8 ++ [3] ++ zeros 23 ++ [1, 0] ++ leBytes 4 100 ++ zeros 2

/-- Dies 0 and 1 at sites 0 and 1, with that bucket under tag 0, while tick 1 runs; the unit of each die as asked. -/
def collective (flags : Byte) (u : UnitBucket → UnitBucket) (f : Coll → Coll) : State :=
  { gen id with
    active := { oneDie with
      sections := [(1, [(0, List.replicate 8 0 ++ (List.range 48).map (fun l => BitVec.ofNat 8 (defaultPhys l)) ++ List.replicate 8 0),
          (1, [1] ++ List.replicate 7 0 ++ (List.range 48).map (fun l => BitVec.ofNat 8 (defaultPhys l)) ++ List.replicate 8 0)]), (8, [(0, bucket flags)])]
      counts := [(1, 2), (8, 1)] }
    coll := f { Coll.reset with
      fixedTick := [(1, some 1)], units := [(1, { CollUnit.reset with buckets := [(0, u { UnitBucket.empty with tick := 1 })] })] } }

/-- A post of die 1: its source is the DRAM of die 1, its scale code 5. -/
def post : Post := { die := 1, contrib := 0, copy := 0, qs := 5, src := 2 ^ 36, core := 60, seq := 0 }
def postBytes : List Byte := leBytes 2 0 ++ [0, 0] ++ leBytes 2 5 ++ zeros 2 ++ leBytes 8 (2 ^ 36) ++ zeros 48

theorem witness_post :
    (collective 5 id id).collRun = some tick1 ∧ (collective 5 id id).unitWorks 1 = true ∧ postBytes.length = 64
      ∧ (collective 5 id id).active.target (3 * 2 ^ 44 + 2 ^ 36 + rCOLL_POST) = some (.dieReg 1 rCOLL_POST)
      ∧ (collective 5 id id).postOk ((collective 5 id id).active.bucket 0) 1 postBytes tick1 = true
      ∧ ((collective 5 id id).bucketFor 1 0 tick1).posts = []
      ∧ ((collective 5 (fun b => { b with posts := [post] }) id).bucketFor 1 0 tick1).posts = [post] := by decide +kernel

theorem witness_scale_fix : (collective 5 id id).scaleFixed 0 tick1 = false ∧ (collective 5 id id).offersIn = true := by decide +kernel

/-- A bucket with its copy may start, plain or paired; its scale code is the unit's, or not. -/
theorem witness_may_start :
    (MayStart (collective 5 (fun b => { b with posts := [post] }) id) 1 0 tick1
        ∧ bkPaired ((collective 5 (fun b => { b with posts := [post] }) id).active.bucket 0) = false)
      ∧ (MayStart (collective 21 (fun b => { b with posts := [post] }) id) 1 0 tick1
        ∧ bkPaired ((collective 21 (fun b => { b with posts := [post] }) id).active.bucket 0) = true) := by
  refine ⟨⟨⟨⟨?_, ?_⟩, ?_, ?_, ?_, ?_, ?_, ?_⟩, ?_⟩, ⟨⟨?_, ?_⟩, ?_, ?_, ?_, ?_, ?_, ?_⟩, ?_⟩ <;> decide +kernel

theorem witness_scales (k : Bool) :
    ((collective 5 (fun b => { b with posts := [post], sEff := if k then 5 else 6 }) id).bucketFor 1 0 tick1 |> fun u =>
      u.posts.all (fun p => toSigned 16 p.qs == u.sEff)) = k ∧ bkWordsIn (bucket 5) = true := by cases k <;> decide +kernel

theorem witness_leaf_step :
    LeafStep (collective 5 (fun b => { b with posts := [post], used := [post], started := true }) id) 1 0 0 tick1 := by
  refine ⟨?_, ?_, ?_, ?_, ?_, ?_, ?_, ?_, ?_, ?_⟩ <;> decide +kernel

theorem witness_sums : exactSum (collective 5 (fun b => { b with posts := [post], used := [post], started := true }) id)
    ((collective 5 (fun b => { b with posts := [post], used := [post], started := true }) id).bucketFor 1 0 tick1) 7 = 0 := by decide +kernel

/-- A line of die 1 on its way to die 0. -/
def linePacket : CollPacket :=
  { pkt := none, src := .unit 1, dst := .unit 0, tag := 0, gen := 0, tick := 1, att := 0, line := 0, dir := 0, dim := 0, phase := 0, data := ⟨List.replicate 8 0, 0⟩ }

theorem witness_lines :
    ((collective 5 id (fun c => { c with
        packets := [linePacket, { linePacket with dst := .engine 4, dir := 2 }, { linePacket with tag := 1 }, { linePacket with dst := .engine 5, dir := 2 }], returns := [(.unit 1, 0, 0, 1, 0)] }))
      |> fun s => s.coll.packets[0]? = some linePacket ∧ s.inMesh linePacket = false ∧ s.takesPart 0 tick1 = true ∧ s.genOf 0 = 0 ∧ s.takesPart 1 tick1 = false ∧ s.engineLink 0 = 4
        ∧ s.coll.returns[0]? = some (.unit 1, 0, 0, 1, 0) ∧ SMap.get none (s.bucketFor 1 0 tick1).fromAbove 0 = none) := by decide +kernel

/-- Signals of a bucket over a ring of two panels. -/
theorem witness_signals :
    (({ collective 5 id (fun c => { c with signals := [(0, 1, 0, 0, 2), (0, 1, 0, 0, 0)] }) with
        active := (collective 5 id id).active.setReg unitMgmt rVLNK_SYS_SHAPE (1 + 2 * 256) } : State) |> fun s =>
      s.coll.signals[0]? = some (0, 1, 0, 0, 2) ∧ s.coll.signals[1]? = some (0, 1, 0, 0, 0) ∧ 0 < s.ringSize 0
        ∧ 0 < (shard (s.collRange (bkLines (s.active.bucket 0)) 0).1 (s.collRange (bkLines (s.active.bucket 0)) 0).2 (s.ringSize 0)
            (s.ringPos 0 % s.ringSize 0)).2) := by decide +kernel

/-- The last report of a bucket and its first; a failure record, with COLL_FAIL clear and set. -/
theorem witness_bucket_ends :
    ((collective 5 id (fun c => { c with reports := [(1, 0, 1, 0)], reported := [(0, [0])] })) |> fun s =>
        s.coll.reports[0]? = some (1, 0, 1, 0) ∧ ∀ d, d < 192 → bkMember (s.active.bucket 0) d = true → d = 1 ∨ d ∈ SMap.get [] s.coll.reported 0)
      ∧ ((collective 5 id (fun c => { c with reports := [(1, 0, 1, 0)] })) |> fun s =>
        bkMember (s.active.bucket 0) 0 = true ∧ ¬ (0 ∈ SMap.get [] s.coll.reported 0))
      ∧ ((collective 5 id (fun c => { c with failures := [⟨.unit 1, 0, 0, 2, 1, 0, false⟩] })) |> fun s =>
        s.coll.failures[0]? = some ⟨.unit 1, 0, 0, 2, 1, 0, false⟩ ∧ s.tickRun 1 = some tick1 ∧ s.multiPanel = false
          ∧ (s.reg unitMgmt rCOLL_FAIL).testBit 63 = false ∧ ((s.setReg unitMgmt rCOLL_FAIL (2 ^ 63)).reg unitMgmt rCOLL_FAIL).testBit 63 = true) := by
  decide +kernel


/-! Vorrad: panel `pos` of a ring of two, its ports in state `st`. -/

def ring (pos st : Nat) : State :=
  ((List.range 8).foldl (fun (s : State) i => s.setReg (unitEdge i) rVLNK_STATUS st)
    { gen id with active := (oneDie.setReg unitMgmt rVLNK_SYS_SHAPE (1 + 2 * 256)).setReg unitMgmt rVLNK_SYS_POS pos })

/-- A flit of a kind with a sequence number and a good CRC. -/
def flitBytes (kind : Byte) (seq : Nat) : List Byte :=
  let f : List Byte := [kind] ++ leBytes 2 seq ++ zeros 57
  f ++ leBytes 4 (crc32 (f ++ zeros 192)) ++ zeros 192

/-- In order and out of order; one byte changed. -/
theorem witness_flits :
    (ring 1 2).portState 0 = 2 ∧ (flitBytes 1 1).length = 256 ∧ flitCrcOk (flitBytes 1 1) = true ∧ flitCrcOk (3 :: (flitBytes 1 1).drop 1) = false
      ∧ field (leAt (flitBytes 1 1) 1 2) 0 12 = ((ring 1 2).port 0).expected ∧ flitCrcOk (flitBytes 2 4095) = true
      ∧ field (leAt (flitBytes 2 4095) 1 2) 0 12 ≠ ((ring 1 2).port 0).expected ∧ ((ring 1 2).port 0).rehearse = none ∧ (ring 1 2).recordsHeld 0 < 96 := by
  decide +kernel

/-- A flit of two slots as it is sent: a transfer line and an acknowledgement, laid out as R310 and R311 say. -/
def sentFlit : List Byte :=
  VPort.flit { VPort.reset with expected := 8, returned := [(2, 3)] } 5
    (.data [.xfer 2 false 1 300 7 9 0 2 0 1 (List.replicate 64 0xAB), .xfer 3 true 4 5 6 0 7 8 9 0 []])

theorem test_flit_layout :
    sentFlit.length = 256 ∧ flitCrcOk sentFlit = true ∧ sentFlit.take 12 = [1, 5, 0, 7, 0, 0, 3, 0, 0, 0, 0, 0]
      ∧ decodeSlot sentFlit 0 = some (.xfer 2 false 1 300 7 9 0 2 0 1 (List.replicate 64 0xAB))
      ∧ decodeSlot sentFlit 1 = some (.xfer 3 true 4 5 6 0 7 8 9 0 []) ∧ decodeSlot sentFlit 2 = none := by decide +kernel

/-- A port with a flit that is not acknowledged, or a retraining under way. -/
def withPort (f : VPort → VPort) (st : Nat) : State := { ring 1 st with vorrad := { Vorrad.reset with ports := [(0, f VPort.reset)] } }

theorem witness_port_timers :
    ((withPort (fun p => { p with unacked := [(1, .control false)] }) 2).port 0).unacked ≠ []
      ∧ ((withPort (fun p => { p with trainBy := some 84000 }) 1).port 0).trainBy ≠ none
      ∧ (withPort (fun p => { p with trainBy := some 84000 }) 1).portState 0 = 1
      ∧ (withPort (fun p => { p with trainBy := some 84000 }) 1).fld (unitEdge 0) rVLNK_STATUS 16 16 = 0 := by decide +kernel

theorem witness_port_training :
    (ring 1 0).portState 0 = 0 ∧ ((ring 1 0).reg (unitEdge 0) rVLNK_CTRL).testBit 0 = true ∧ (ring 1 0).multiPanel = true
      ∧ (ring 1 0).neighbour ((ring 1 0).dimOf 0) (isSucc 0) = 0 ∧ (ring 1 0).dimOf 0 = 0 := by decide +kernel

/-- A running retraining of port 0 in slack. -/
def retrainEntry : MaintEntry :=
  { handle := 1, code := 2, pliwick := false, resource := linkResource 0, running := true, paused := false, stopping := false, progress := 0,
    inStep := false, arg := 0, target := 0, command := none }

theorem witness_port_retraining :
    ({ ring 1 2 with
        gen := TickGen.reset, maint := { (ring 1 2).maint with entries := [retrainEntry] } } : State) |> fun s =>
      s.runningEntry 2 (fun e => e.site == 204 && !e.inStep) = some retrainEntry ∧ s.panelSlack = true ∧ s.maint.entries.length < 16 := by decide +kernel

/-- A record of a type at the management die of panel `pos`. -/
def record (ty : Nat) : SysRecord :=
  { type := ty, att := 0, cause := 0, tag := 0, raise := true, nora := false, tick := 1, remain := 5, ks := [] }
def inbox (pos ty p : Nat) : State := { ring pos 2 with vorrad := { Vorrad.reset with inbox := [(p, 0, record ty)] } }

theorem witness_upward_records :
    InInbox (inbox 1 1 ownPort) 0 1 ownPort 0 (record 1) ∧ (inbox 1 1 ownPort).sysChildren = [] ∧ (inbox 1 1 ownPort).isRoot = false
      ∧ (∃ d u i, (inbox 1 1 ownPort).sysParent = some (d, u) ∧ (inbox 1 1 ownPort).workingPort d u = some i) ∧ upwardCommand 0 1 = some (.endRecord 0)
      ∧ upwardCommand 0 2 = some (.offer 0) ∧ upwardCommand 0 4 = some (.histUp 0) := by
  refine ⟨?_, ?_, ?_, ⟨0, false, 0, ?_, ?_⟩, rfl, rfl, rfl⟩ <;> first | (unfold InInbox; decide +kernel) | decide +kernel

theorem witness_downward_records :
    (∀ k : Fin 4, InInbox (inbox 1 (5 + k.val) 0) 0 (5 + k.val) 0 0 (record (5 + k.val)) ∧ (inbox 1 (5 + k.val) 0).fromParent 0 = true)
      ∧ (inbox 1 5 0).tickRun 1 = some tick1 ∧ tick1.att % 256 = (record 5).att := by
  unfold InInbox; decide +kernel

theorem witness_token_in_time : MayCommit (inbox 1 6 0) (inbox 1 6 0).now := by
  intro y e hy he
  have hy : some tick1 = some y := hy
  cases hy; cases he
  exact Nat.zero_le _

theorem witness_aborts :
    InInbox (inbox 1 3 ownPort) 0 3 ownPort 0 (record 3) ∧ (inbox 0 3 ownPort).isRoot = true ∧ (inbox 0 3 ownPort).vorrad.abandons = []
      ∧ InInbox (inbox 0 3 ownPort) 0 3 ownPort 0 (record 3) := by unfold InInbox; decide +kernel

/-- Context 0 of port 0's die: a send (mode 1) or receive (mode 2) context of 4096 bytes at die 0, in a state. -/
def context (mode : Nat) (f : XCtx → XCtx) (hem : List HemSlot) : State :=
  { ((ring 1 2).setReg (unitEdge 0) rVLNK_XCTX_CFG mode).setReg (unitEdge 0) rVLNK_XCTX_BYTES 4096 with
    vorrad := { Vorrad.reset with ctxs := [(0, f { XCtx.reset with st := 1 })], hem := hem } }

theorem witness_contexts :
    Receives (context 2 id []) 0 0 63 ∧ Sends (context 1 id []) 0 ∧ (context 1 id []).xpostOk 0 (leBytes 2 0 ++ zeros 2 ++ leBytes 4 64 ++ zeros 56) = true
      ∧ (context 1 id []).xpostOk 0 (zeros 64) = false ∧ (context 2 id []).panelNo = 1 := by
  unfold Receives Sends; decide +kernel

/-- The slot of a line for context 0 of panel 1, at link die 0. -/
def arrived (x : VSlot) : HemSlot := { place := 0, port := 8, via := 8, down := false, rev := [], slot := x }

theorem witness_slots :
    ArrivedHere (context 2 id [arrived (.xfer 2 false 1 0 0 0 0 0 0 0 (zeros 64))]) 0 0 (.xfer 2 false 1 0 0 0 0 0 0 0 (zeros 64))
      ∧ ArrivedHere (context 1 id [arrived (.xfer 3 true 1 0 0 0 0 0 0 0 [])]) 0 0 (.xfer 3 true 1 0 0 0 0 0 0 0 [])
      ∧ ArrivedHere (context 1 id [arrived (.xfer 3 true 1 0 0 0 0 0 1 0 [])]) 0 0 (.xfer 3 true 1 0 0 0 0 0 1 0 []) :=
  ⟨⟨_, rfl, rfl, rfl⟩, ⟨_, rfl, rfl, rfl⟩, ⟨_, rfl, rfl, rfl⟩⟩

/-- A slot for panel 0 at link die `v`; its port is working, or down. -/
def passing (v st : Nat) : State :=
  { ring 1 st with vorrad := { Vorrad.reset with hem := [{ arrived (.xfer 2 false 0 0 0 0 0 0 0 0 (zeros 64)) with place := v }] } }

theorem witness_transit :
    ((passing 4 2) |> fun s => s.routeDim 0 = some 0 ∧ s.portState (portOf ((railsOf s.sysK 0).getD (0 % (railsOf s.sysK 0).length) 0)
        (s.routeSucc 0 0 8 false)) = 2 ∧ portOf ((railsOf s.sysK 0).getD (0 % (railsOf s.sysK 0).length) 0) (s.routeSucc 0 0 8 false) = 4)
      ∧ ((passing 5 2).hemNext 5 4 false).isSome = true ∧ (passing 0 0).portState 4 = 0 := by
  decide +kernel

theorem witness_hem : (ring 1 2).vorrad.hemDown = [] := rfl

/-- A context with a line that waits, unacknowledged lines, a search for a path, and a DRAM access under way. -/
def xline : XLine := { lseq := none, line := 0, addr := 64, post := 1, data := zeros 64, pkt := none }

theorem witness_context_timers :
    ((context 2 (fun c => { c with lineAt := some 5 }) []).ctx 0).lineAt = some 5
      ∧ ((context 2 (fun c => { c with lineAt := some 5, dram := [xline] }) []).ctx 0).dram ≠ []
      ∧ ((context 1 (fun c => { c with unacked := [xline] }) []).ctx 0).unacked ≠ []
      ∧ ((context 1 (fun c => { c with st := 3, pathAt := some 5 }) []).ctx 0).pathAt = some 5
      ∧ ((context 1 (fun c => { c with dram := [xline], posts := [⟨1, 64, 0, 0, 0, none, false, 0, 0⟩] }) []) |> fun s =>
          (s.ctx 0).dram = xline :: [] ∧ s.active.target xline.addr = some (.dram 0 64) ∧ s.active.site 0 = some 0 ∧ (s.dram 0).isRetired 64 = false
            ∧ (s.dram 0).isPoisoned 64 = false ∧ (s.ctx 0).posts.any (fun p => p.number == 1) = true ∧ s.ctxBack xline = true
            ∧ s.ctxBack { xline with pkt := some 7 } = false)
      ∧ (context 2 (fun c => { c with dram := [xline] }) []).ctxMode 0 = 2
      ∧ ((context 2 (fun c => { c with dram := [xline] }) []).ctx 0).ackDue = false := by decide +kernel

theorem witness_ports_free_below_context : PortsFree (context 2 id []) 0 := by
  refine ⟨fun p => ⟨rfl, rfl⟩, fun d p => rfl, ?_⟩; decide +kernel


/-! The host bridge die. -/

/-- A panel with registers of the host bridge die set and its data changed. -/
def hosted (rs : List (Nat × Nat)) (f : HostIf → HostIf) : State :=
  let s := rs.foldl (fun s r => s.setReg unitBar r.1 r.2) mapped
  { s with host := f s.host }

/-- A session over the first context. -/
def session : State := { hosted [(rHOST_LINK, 0x204)] id with sec := { (hosted [] id).sec with spdm := [(0, { Spdm.reset with session := some true })] } }

theorem witness_host_link :
    (hosted [] id).linkUp = false ∧ (hosted [] (fun h => { h with trainSince := some 5 })).host.trainSince = some 5
      ∧ (hosted [(rHOST_LINK, 0x204)] id).linkUp = true ∧ (hosted [(rHOST_LINK, 0x204)] id).fld unitBar rHOST_LINK 9 2 ≠ 0
      ∧ (SMap.get Spdm.reset session.sec.spdm 0).session = some true ∧ session.linkUp = true
      ∧ (({ session with host := { session.host with ideKeys := 3 } } : State).host.ideKeys.getLsbD 1) = true
      ∧ (SMap.get Spdm.reset (hosted [] id).sec.spdm 0).session ≠ some true := by decide +kernel

/-- Access 0 is at the host bridge die, for host address 4096; the link is up or down. -/
def atHost (k : AccessKind) (rate : Nat) : State :=
  { hosted [(rHOST_LINK, rate)] id with
    mesh := { Mesh.reset with accesses := [(0, some { access k .atTarget none none with addr := 8 * 2 ^ 44 + 4096 })], nextAccess := 1 } }

theorem witness_host_memory :
    ((atHost (.read 8) 4).active.target (8 * 2 ^ 44 + 4096) = some (.host 4096)) ∧ (atHost (.read 8) 4).hostOk 4096 8 = true
      ∧ (atHost (.write [1, 2]) 4).hostOk 4096 2 = true ∧ (atHost (.read 8) 0).hostOk 4096 8 = false
      ∧ (atHost (.creditReq 64 8) 4).access 0 = some { access (.creditReq 64 8) .atTarget none none with addr := 8 * 2 ^ 44 + 4096 } := by
  decide +kernel

/-- A window of 256 MiB that segment 0 covers, for die 0 (kind 1) or the export view (kind 2). -/
def windowed (v : Nat) : State := hosted [(rHOST_LINK, 4), (rHOST_MEM_CTRL, 3), (rHOST_SEG, v)] (fun h => { h with hdmSize := 2 ^ 28 })

theorem witness_memory_window :
    (windowed (1 + 2 ^ 36)).segError = 0 ∧ (windowed (1 + 2 ^ 37)).segError ≠ 0 ∧ WindowLineServed (windowed 0) 0
      ∧ (windowed 0).segAt 0 = none ∧ (hosted [(rHOST_LINK, 4)] (fun h => { h with hdmSize := 2 ^ 28 })).fld unitBar rHOST_MEM_CTRL 1 1 = 0
      ∧ (windowed (1 + 2 ^ 36)).segAt 0 = some (1 + 2 ^ 36) ∧ segKind (1 + 2 ^ 36) = 1 ∧ (windowed (1 + 2 ^ 36)).active.site (segDie (1 + 2 ^ 36)) = some 0
      ∧ ((windowed (1 + 2 ^ 36)).dram 0).isRetired 0 = false ∧ (((windowed (1 + 2 ^ 36)).dram 0).read 0 64).1 = stOk
      ∧ (windowed (2 + 2 ^ 36)).segAt 0 = some (2 + 2 ^ 36) ∧ segKind (2 + 2 ^ 36) = 2 ∧ (windowed (2 + 2 ^ 36)).exportLine 0 = .zeros := by
  unfold WindowLineServed; decide +kernel

theorem witness_window_free : PortsFree (windowed (1 + 2 ^ 36)) 0 ∧ (segOff (1 + 2 ^ 36) + (64 * 0 - segLo (1 + 2 ^ 36))) % 64 = 0 := by
  refine ⟨⟨fun p => ⟨rfl, rfl⟩, fun d p => rfl, ?_⟩, ?_⟩ <;> decide +kernel

/-- In D3hot and out of it. -/
theorem witness_d3hot : (hosted [] (fun h => { h with d3hot := true })).host.d3hot = true ∧ (hosted [] id).host.d3hot = false
    ∧ (windowed 0).host.d3hot = false := by decide +kernel

/-- A ring of 16 entries at host address 65536. -/
def ringed (s : State) : State := { s with events := { s.events with ring := some ⟨65536, 16, 0, false⟩ } }

theorem witness_export_write :
    Segment (windowed (2 + 2 ^ 36)) 2 (64 * 0) (2 + 2 ^ 36) ∧ RingTakes (ringed (windowed (2 + 2 ^ 36))) ⟨65536, 16, 0, false⟩
      ∧ (windowed (2 + 2 ^ 36)).host.exportRaised = false := by unfold Segment RingTakes; decide +kernel

theorem witness_notifications :
    (hosted [(rHOST_LINK, 4), (rHOST_COMMIT_NOTIFY, 3), (rHOST_COMMIT_ADDR, 4096)] (fun h => { h with notify := some 5 }) |> fun s =>
      s.host.notify = some 5 ∧ (s.reg unitBar rHOST_COMMIT_NOTIFY).testBit 0 = true ∧ (s.reg unitBar rHOST_COMMIT_NOTIFY).testBit 1 = true
        ∧ (s.reg unitBar rHOST_COMMIT_NOTIFY).testBit 2 = false ∧ s.hostOk (s.reg unitBar rHOST_COMMIT_ADDR) 8 = true)
      ∧ (({ hosted [(rHOST_COMMIT_NOTIFY, 5)] (fun h => { h with notify := some 5 }) with msix := { Msix.reset with enabled := true, unmasked := 1 } } : State)
        |> fun s => (s.reg unitBar rHOST_COMMIT_NOTIFY).testBit 2 = true ∧ s.msix.enabled = true
          ∧ s.msix.unmasked.getLsbD (s.fld unitBar rHOST_COMMIT_NOTIFY 8 6) = true) := by decide +kernel

/-- A masked vector keeps its interrupt and sends it when unmasked. -/
theorem test_masked_interrupt_waits :
    (({ mapped with msix := { Msix.reset with enabled := true } } : State).signal 3).msix.pending = 8
      ∧ SMap.get 0 ((after (.msixUnmask 3 true) (({ mapped with msix := { Msix.reset with enabled := true } } : State).signal 3)).msix.sent) 3 = 1 := by
  decide +kernel


/-! Queue pairs. -/

theorem witness_negotiation :
    (hosted [(rHOST_DEVICE_STATUS, 3), (rHOST_DEVICE_FEATURES, 9), (rHOST_DRIVER_FEATURES, 8)] id |> fun s =>
      s.fld unitBar rHOST_FEAT_CTRL 0 1 = 0 ∧ s.ready = 3 ∧ (∀ k, k < 64 → s.requested.testBit k = true → s.offered.testBit k = true)
        ∧ s.host.locked = none ∧ s.requested = 8)
      ∧ (hosted [(rHOST_DEVICE_STATUS, 1), (rHOST_DEVICE_FEATURES, 8), (rHOST_DRIVER_FEATURES, 1)] id |> fun s =>
        s.ready = 1 ∧ s.requested.testBit 0 = true ∧ s.offered.testBit 0 = false)
      ∧ (hosted [(rHOST_FEAT_CTRL, 1)] id).fld unitBar rHOST_FEAT_CTRL 0 1 = 1 := by decide +kernel

/-- Pair `q` enabled with four entries in each queue, its queues at host addresses 4096 and 8192; the link is up or down. -/
def paired (q rate : Nat) (p : QPair) (f : State → State) : State :=
  f (hosted [(rHOST_LINK, rate), (rHOST_FEAT_CTRL, 1), (rHOST_DEVICE_STATUS, 1), (qOff rHOST_Q_CFG 0, 2 ^ 40 + 0x30003), (qOff rHOST_Q_CFG q, 2 ^ 40 + 0x30003),
    (qOff rHOST_SQ_BASE q, 4096), (qOff rHOST_CQ_BASE q, 8192), (qOff rHOST_Q_STATUS q, 2 ^ 32)] (fun h => { h with pairs := [(q, p)] }))

theorem witness_pairs_and_doorbells :
    (hosted [(rHOST_FEAT_CTRL, 1)] id |> fun s => s.qEnabled 0 = false ∧ (2 ^ 40 + 0x30003 : BitVec 64).getLsbD 40 = true
        ∧ field (2 ^ 40 + 0x30003) 0 12 ≠ 0 ∧ field (2 ^ 40 + 0x30003) 16 12 ≠ 0 ∧ (s.pair 0).busy = false ∧ s.fld unitBar rHOST_FEAT_CTRL 0 1 = 1)
      ∧ (paired 1 4 QPair.reset id |> fun s => s.qEnabled 1 = true ∧ s.qEnabled 0 = true ∧ s.qEnabled 2 = false ∧ s.paused = false ∧ s.sqSize 1 = 4
        ∧ 3 < s.sqSize 1 ∧ s.sqSize 1 ≤ 4 ∧ s.cqSize 1 ≤ 4
        ∧ (0 + s.cqSize 1 - (s.pair 1).cqHead) % s.cqSize 1 ≤ (s.cqTail 1 + s.cqSize 1 - (s.pair 1).cqHead) % s.cqSize 1)
      ∧ (paired 1 4 QPair.reset (fun s => s.setReg unitBar rHOST_CMD_STAT 1)).paused = true := by decide +kernel

theorem witness_event_head :
    (ringed (paired 1 4 QPair.reset id)).events.lost = 0
      ∧ (({ ringed (paired 1 4 QPair.reset id) with
            events := { (ringed (paired 1 4 QPair.reset id)).events with lost := 2, worst := some (4, .info), tail := 3, head := 4 } } : State) |> fun s =>
          s.events.ring = some ⟨65536, 16, 0, false⟩ ∧ ({ s.events with head := 5 } : Events).full ⟨65536, 16, 0, false⟩ = false
            ∧ s.hostOk (65536 + 32 * s.events.tail) 32 = true) := by decide +kernel

/-- A COMMIT_QUERY-like entry of 64 bytes with an opcode and a CID of 7. -/
def entry (op : Nat) : List Byte := leBytes 1 op ++ [0] ++ leBytes 2 7 ++ zeros 60

theorem witness_fetches :
    (paired 0 4 { QPair.reset with sqTail := 1 } id |> fun s => s.nextPair = some 0 ∧ s.hostOk (submissionAt s 0) 64 = true
        ∧ s.refusal 0 (entry 1) false = none ∧ s.refusal 0 (entry 0xFF) false = some (1, 0) ∧ (entry 1).length = 64)
      ∧ (paired 0 0 { QPair.reset with sqTail := 1 } id |> fun s => s.nextPair = some 0 ∧ s.hostOk (submissionAt s 0) 64 = false) := by
  decide +kernel

theorem test_fetch_starts_command :
    ((after (.commandFetch 0 (entry 1)) (paired 0 4 { QPair.reset with sqTail := 1 } id)).pair 0).cmds.map (fun c => (c.cid, c.opcode)) = [(7, 1)] := by
  decide +kernel

/-- A completion that waits. -/
def completion : Completion := { result := 9, sqHead := 1, cid := 7, code := 0, detail := 0 }

theorem witness_completions :
    (paired 0 4 { QPair.reset with done := [completion] } id |> fun s => (s.pair 0).done = completion :: [] ∧ s.qEnabled 0 = true ∧ s.paused = false
        ∧ (s.cqTail 0 + 1) % s.cqSize 0 ≠ (s.pair 0).cqHead ∧ s.hostOk (completionAt s 0) 16 = true ∧ s.qCfg 0 38 1 = 0)
      ∧ (paired 0 0 { QPair.reset with done := [completion] } id |> fun s => s.hostOk (completionAt s 0) 16 = false ∧ s.qError 0 = false)
      ∧ ({ paired 0 4 { QPair.reset with done := [completion] } (fun s => s.setReg unitBar (qOff rHOST_Q_CFG 0) (2 ^ 40 + 2 ^ 38 + 0x30003)) with
            msix := { Msix.reset with enabled := true, unmasked := 1 } } : State).qCfg 0 38 1 = 1 := by
  decide +kernel


/-! Host commands. -/

/-- The started command 7 with an opcode and parameters. -/
def started (op : Nat) (ps : List Nat) : HostCmd :=
  { cid := 7, opcode := op, fence := false, noWait := false, params := ps, sqHead := 1, phase := .started, moved := 0, note := 0 }

/-- Pair 0 runs that command, on a panel with other parts changed. -/
def beginning (op : Nat) (ps : List Nat) (f : State → State) : State := paired 0 4 { QPair.reset with cmds := [started op ps] } f

theorem witness_begun (s : State) (op : Nat) (ps : List Nat) (h : s.host.pairs = [(0, { QPair.reset with cmds := [started op ps] })]) :
    Begun s 0 7 op (started op ps) := by
  simp [Begun, State.started, State.cmd, State.pair, h, SMap.get, startedAmong, started, QPair.reset]

theorem witness_identify :
    (beginning 1 [4096] id).host.pairs = [(0, { QPair.reset with cmds := [started 1 [4096]] })] ∧ (started 1 [4096]).p 1 = 0
      ∧ (started 1 [4096, 1]).p 1 ≠ 0 ∧ (beginning 2 [4096] id).host.locked = none
      ∧ (beginning 1 [4096] id).hostOk 4096 4096 = true
      ∧ (beginning 1 [2 ^ 44] id).hostOk (2 ^ 44) 4096 = false := by decide +kernel

/-- Pair 0 aborts command 9 of pair 1, which pair 1 has started or not, or which is an entry that it has not fetched. -/
def aborting (p : QPair) : State :=
  { beginning 3 [1 + 9 * 65536] (fun s => s.setReg unitBar (qOff rHOST_Q_CFG 1) (2 ^ 40 + 0x30003)) with
    host := { (beginning 3 [1 + 9 * 65536] id).host with pairs := [(0, { QPair.reset with cmds := [started 3 [1 + 9 * 65536]] }), (1, p)] } }
/-- Command 9, fenced behind command 8. -/
def behind (ph : CmdPhase) : QPair :=
  { QPair.reset with cmds := [{ started 0x18 [] with cid := 8 }, { started 0x18 [] with cid := 9, fence := true, phase := ph }] }

theorem witness_aborts_of_commands :
    Begun (aborting (behind .started)) 0 7 3 (started 3 [1 + 9 * 65536]) ∧ field ((started 3 [1 + 9 * 65536]).p 0) 0 6 = 1
      ∧ field ((started 3 [1 + 9 * 65536]).p 0) 16 16 = 9
      ∧ (aborting (behind .started)).cmd 1 9 = some { started 0x18 [] with cid := 9, fence := true }
      ∧ startedAmong 9 ((aborting (behind .started)).pair 1).cmds true = false
      ∧ ((aborting (behind .waiting)).cmd 1 9).map (·.phase) = some .waiting ∧ (aborting QPair.reset).cmd 1 9 = none
      ∧ ([9#16] : List (BitVec 16)).findIdx? (fun x => x.toNat == 9) = some 0
      ∧ (aborting { QPair.reset with sqTail := 1 } |> fun s => 0 < ((s.pair 1).sqTail + s.sqSize 1 - s.sqHead 1) % s.sqSize 1
          ∧ (s.pair 1).skip.contains ((s.sqHead 1 + 0) % s.sqSize 1) = false) := by unfold Begun; decide +kernel

theorem witness_event_rings :
    (started 4 [0, 64]).p 0 = 0 ∧ (started 4 [65537, 64]).p 0 % 4096 ≠ 0 ∧ field ((started 4 [65536, 65]).p 1) 0 17 ≠ 2 ^ Nat.log2 65
      ∧ field ((started 4 [65536, 64]).p 1) 0 17 = 2 ^ Nat.log2 64 ∧ (beginning 4 [65536, 64] id).hostOk 65536 (32 * 64) = true
      ∧ (beginning 4 [65536, 64] id).events.hadRing = false ∧ (beginning 4 [65536, 64] id).events.boot.length < 64 := by decide +kernel


/-- A panel on which only the management die and the sites below the middle of column 8 work, and whose shadow set has these sections and counts. -/
def lonely (secs : List (Nat × List (Nat × List Byte))) (counts : List (Nat × Nat)) : State :=
  let s := { hosted [(rHOST_FEAT_CTRL, 1)] (fun h => { h with locked := some 8 }) with
    boot := { mapped.boot with badSites := (List.range 204).filter (fun v => v % 17 != 8 || decide (v < 110)), badEdges := List.range 9 }
    shadow := { ConfigSet.empty with
      sections := secs, counts := counts } }
  { s with shadow := [(rTICK_SCHED_LEN, 1), (rTICK_SCHED, 1000), (rTICK_PHASE, 0x1000000)].foldl (fun (c : ConfigSet) r => c.setReg unitMgmt r.1 r.2) s.shadow }
def secs0 : List (Nat × List (Nat × List Byte)) := [(6, [(0, [1, 0, 0, 0, 0, 0, 0, 0])])]
def secs1 : List (Nat × List (Nat × List Byte)) :=
  [(1, [(0, [195] ++ zeros 7 ++ (List.range 48).map (fun l => BitVec.ofNat 8 (defaultPhys l)) ++ zeros 8)]),
   (2, [(0, [1, 0, 1] ++ zeros 29)]), (3, [(0, zeros 16 ++ sha384 [])]), (4, [])]

/-- The six words of a digest. -/
def digestWords (d : List Byte) : List Nat := (List.range 6).map (fun k => leAt d (8 * k) 8)

theorem witness_configuration_sets :
    (beginning 8 [4096, 10, 1] id |> fun s => s.cfg.pending = false ∧ field ((started 8 [4096, 10, 1]).p 1) 0 4 = 10 ∧ 0 + 1 ≤ secMax 10
        ∧ s.hostOk 4096 (1 * secBytes 10) = true ∧ secMax 10 < 64 + 1)
      ∧ ({ beginning 10 [] id with cfg := { (beginning 10 [] id).cfg with isSealed := true } } : State).cfg.isSealed = true
      ∧ ({ beginning 9 [] id with cfg := { (beginning 9 [] id).cfg with pending := true } } : State).cfg.pending = true
      ∧ (generated (beginning 9 [] id)).sealFail (generated (beginning 9 [] id)).shadow (some (started 9 []).digest) = some (1, 0, 0) := by
  decide +kernel

/-- The seal of a set by command 7 with its own digest. -/
def sealing (secs : List (Nat × List (Nat × List Byte))) (counts : List (Nat × Nat)) : State × HostCmd :=
  let s := lonely secs counts
  let c := started 9 (digestWords (sha384 (generated s).shadow.image))
  ({ s with host := { s.host with pairs := [(0, { QPair.reset with cmds := [c] })] } }, c)

/-- A seal that uses no region. -/
theorem witness_seal :
    (sealing secs0 [(6, 1)] |> fun x => (generated x.1).sealFail (generated x.1).shadow (some x.2.digest) = none
        ∧ (generated x.1).wantedRegions (generated x.1).shadow = []) := by decide +kernel

/-- A seal with a launch entry for a core whose region is off. -/
theorem witness_seal_with_regions :
    (sealing secs1 [(1, 1), (2, 1), (3, 1), (4, 1)] |> fun x => (generated x.1).sealFail (generated x.1).shadow (some x.2.digest) = none
        ∧ (generated x.1).wantedRegions (generated x.1).shadow ≠ []) := by decide +kernel

theorem witness_tick_commands :
    (beginning 0x10 [1] id).still = true ∧ (beginning 0x10 [1] id).gen.ticks = [] ∧ (beginning 0x10 [1] id).isRoot = false
      ∧ (beginning 0x10 [1] (fun s => { s with gen := (gen id).gen })).still = false ∧ field ((started 0x12 [5]).p 0) 0 32 ≠ 0
      ∧ (beginning 0x11 [] (fun s => { s with gen := (gen id).gen })).gen.gstate = .running
      ∧ (beginning 0x11 [] (fun s => { s with gen := (gen id).gen })).gen.ticks ≠ [] := by decide +kernel

theorem witness_world_commands :
    (beginning 0x19 [5 + 2 ^ 16, 4096] id |> fun s => s.hostOk 4096 64 = true ∧ (s.world 5).state = 0 ∧ field ((started 0x19 [5 + 2 ^ 16, 4096]).p 0) 0 12 = 5
        ∧ statusRefused (s.feature 1) (leAt (leBytes 8 0x20001 ++ zeros 56) 0 8) = 0
        ∧ ∀ j, j < 8 → 1 ≤ j → ((5 + 2 ^ 16 : Nat)).testBit (16 + j) = true → worldWordOk j (leAt (leBytes 8 0x20001 ++ zeros 56) (8 * j) 8) = true)
      ∧ field ((started 0x1A [4095 + 2 ^ 16]).p 0) 16 13 = 1 ∧ 4095 + 1 ≤ 4096
      ∧ 2 ≤ ((beginning 0x1B [2 ^ 16, 1] (fun s => { s with worlds := worldly.worlds })).world 0).slots := by decide +kernel

theorem witness_data_commands :
    (started 0x20 [4096, 64, 64]).dmaBad = none ∧ (started 0x20 [4096, 64, 65]).dmaBad = some 24
      ∧ (beginning 0x20 [4096, 64, 64] id).hostOk 4096 64 = true ∧ (beginning 0x28 [] id).mergedTick 0 = none
      ∧ field ((started 0x29 [1, 4096, 64]).p 0) 0 8 = 1 ∧ field ((started 0x29 [1, 4096, 64]).p 0) 8 8 = 0
      ∧ (started 0x30 [399]).p 0 < 400 ∧ (started 0x30 [1800]).p 0 ≤ 1800 := by decide +kernel

theorem witness_dma_ports : PortsFree (beginning 0x20 [4096, 64, 64] id) 0 ∧ (beginning 0x20 [4096, 64, 64] id).maint.rowErrors = [] := by
  refine ⟨⟨fun p => ⟨rfl, rfl⟩, fun d p => rfl, ?_⟩, rfl⟩; decide +kernel

/-- A span that fills a line, and one that lies across two. -/
theorem witness_dram_span (o : Fin 65) : DramSpan (beginning 0x20 [4096, 64, 64] id) o.val 64 0 0 o.val := by
  refine ⟨by decide +kernel, ?_, rfl, ?_⟩
  · have h : ∀ (o : Fin 65) (k : Fin 64), (beginning 0x20 [4096, 64, 64] id).active.target (o.val + k.val) = some (.dram 0 (o.val + k.val)) := by decide +kernel
    exact fun k hk => h o ⟨k, hk⟩
  have h : ∀ x : Fin 128, ((beginning 0x20 [4096, 64, 64] id).dram 0).isRetired (x.val / 64 * 64) = false
      ∧ ((beginning 0x20 [4096, 64, 64] id).dram 0).isRetired x.val = false
      ∧ ((beginning 0x20 [4096, 64, 64] id).dram 0).isPoisoned (x.val / 64 * 64) = false
      ∧ ((beginning 0x20 [4096, 64, 64] id).dram 0).isPoisoned x.val = false := by decide +kernel
  have := o.isLt
  exact fun x _ h2 => h ⟨x, by omega⟩

/-- Slot 0's histogram of tick 1 has been merged. -/
theorem witness_merged_histogram :
    ({ beginning 0x28 [] id with
        gen := { (gen id).gen with commitSeq := 1, last := some tick1 }, hubs := [(213, { Hub.reset with histEnds := [(16, [9999])] })] } : State).mergedTick 0
      = some 1 := by decide +kernel

/-- An entry of the arbiter: a retraining of port 0, running or not, within a step or not. -/
def maintaining (op : Nat) (run inStep : Bool) : State :=
  beginning op [1] (fun s => { s with maint := { s.maint with entries := [{ retrainEntry with running := run, inStep := inStep }] } })

theorem witness_maintenance :
    (beginning 0x38 [3, 0] id).resourceOk (newEntry 0 3 0 0 0 none) = true ∧ (beginning 0x38 [3, 0x100FF] id).resourceOk (newEntry 0 3 0xFF 0 0 none) = false
      ∧ (beginning 0x38 [3, 0] id).maint.entries.length < 16 ∧ (started 0x38 [3, 0]).noWait = false
      ∧ ((maintaining 0x39 true true).maint.entries.find? (fun x => x.handle == 1)).isSome
      ∧ ((maintaining 0x39 false false).maint.entries.find? (fun x => x.handle == 1)).map (·.command) = some none
      ∧ (beginning 0x3A [4, 0] id).rehearsalOk 4 0 = true ∧ (beginning 0x3A [2, 203] id).rehearsalOk 2 203 = false := by decide +kernel

theorem witness_basting :
    ([] : List Byte) ≠ (1 :: mapped.active.digest) ∧ (beginning 0x40 [] id).gen.commitSeq ≠ 1 ∧ (beginning 0x40 [] id).gen.commitSeq = 0
      ∧ (beginning 0x41 [] (fun s => { s with maint := { s.maint with basteReady := true } })).maint.basteReady = true
      ∧ (beginning 0x41 [] id).maint.basteReady = false := by decide +kernel

/-- Context 0 sends, or receives its first 64 bytes at die 0. -/
def shard (op mode : Nat) : State :=
  { context mode id [] with
    gen := TickGen.reset, host := (beginning op [0, 0, 128, 0] id).host }

theorem witness_shards :
    (shard 0x42 1).shardRefusal (started 0x42 [0, 0, 128, 0]) = none ∧ (shard 0x42 1).ctxMode 0 = 1 ∧ ((shard 0x42 1).ctx 0).st = 1
      ∧ (shard 0x43 2).ctxMode 0 = 2 ∧ (shard 0x43 2).ctxDie 0 = 0 ∧ (shard 0x43 2).ctxBase 0 = 0 ∧ 128 ≤ (shard 0x43 2).ctxSize 0
      ∧ (shard 0x43 2).ctxCommand 0 = none ∧ 64 * ((shard 0x43 2).ctx 0).seq < 128
      ∧ (shard 0x42 1).shardRefusal (started 0x42 [0, 1, 128, 0]) = some (2, 16) := by decide +kernel


/-! Firmware, attestation, telemetry. -/

/-- An image for a component with a security version and a payload of 32 bytes; its signatures are zeros. -/
def imageOf (comp svn : Nat) (pay : List Byte) : List Byte :=
  leBytes 4 0x474D494B ++ leBytes 1 comp ++ zeros 3 ++ leBytes 4 7 ++ leBytes 4 svn ++ leBytes 8 32 ++ sha384 pay ++ zeros 56
    ++ pay ++ zeros 32 ++ zeros 1920

/-- The signatures of an image pass: what ECDSA and LMS answer is not fixed by the model. -/
def SignaturesPass (img : List Byte) : Prop :=
  Config.ecdsaVerifies (zeros 97) (img.take 128) ((img.drop 192).take 96) = true
    ∧ Config.lmsVerifies (zeros 56) (img.take 128) ((img.drop 288).take 1772) = true

/-- The fuse hashes at reset are those of the key block of zeros. -/
theorem test_keys : sha384 (zeros 97) = State.reset.rom.fuseHash 0 ∧ sha384 (zeros 56) = State.reset.rom.fuseHash 1 := by decide +kernel

/-- States with the fuses and the key block of reset pass it. -/
theorem keys_pass (s : State) (hr : s.rom.keyHash = State.reset.rom.keyHash) (he : s.sec.ecdsaKey = zeros 97) (hl : s.sec.lmsKey = zeros 56) :
    s.keysOk = true := by
  have f : ∀ k, s.rom.fuseHash k = State.reset.rom.fuseHash k := fun k => by simp only [Rom.fuseHash, hr]
  simp [State.keysOk, f, he, hl, test_keys.1, test_keys.2]

/-- Pair 0 stages an image of 2112 bytes for component 0, whose rollback counter stands at `least`. -/
def stagingAt (least : Nat) : State :=
  beginning 0x48 [4096, 2112, 0] (fun s => { s with sec := { s.sec with rollback := [(0, least)] } })

/-- The parts of an image for component 0 or 9 that verification reads. -/
theorem image_parts (comp svn : Nat) (pay img : List Byte) (hi : img = imageOf comp svn pay)
    (h : (comp = 0 ∧ svn = 3 ∧ pay = zeros 32) ∨ (comp = 9 ∧ svn = 0 ∧ pay = leBytes 8 213 ++ zeros 8 ++ [1] ++ zeros 15)) :
    headerOk img 2112 = true ∧ leAt img 4 1 = comp ∧ leAt img 12 4 = svn ∧ leAt img 16 8 = 32
      ∧ sha384 ((img.drop 128).take 32) = (img.drop 24).take 48 := by
  rcases h with ⟨rfl, rfl, rfl⟩ | ⟨rfl, rfl, rfl⟩ <;> subst hi <;> decide +kernel

/-- Signatures that pass: the image is accepted, or refused for its security version. -/
theorem witness_image (h : SignaturesPass (imageOf 0 3 (zeros 32))) :
    (stagingAt 0).verifyImage (imageOf 0 3 (zeros 32)) 2112 0 = 0 ∧ (stagingAt 4).verifyImage (imageOf 0 3 (zeros 32)) 2112 0 = 3 := by
  obtain ⟨a, b, c, d, e⟩ := image_parts 0 3 (zeros 32) _ rfl (.inl ⟨rfl, rfl, rfl⟩)
  have k : ∀ n, (stagingAt n).keysOk = true := fun _ => keys_pass _ rfl rfl rfl
  have z : ∀ n, (stagingAt n).sec.ecdsaKey = zeros 97 ∧ (stagingAt n).sec.lmsKey = zeros 56 := fun _ => ⟨rfl, rfl⟩
  have r : (stagingAt 0).rollback 0 = 0 ∧ (stagingAt 4).rollback 0 = 4 := ⟨rfl, rfl⟩
  have u : up64 (128 + 32) = 192 := rfl
  constructor <;> unfold State.verifyImage <;> simp [a, b, c, d, e, h.1, h.2, k, (z _).1, (z _).2, r.1, r.2, u]

/-- Images refused for their format and without keys; signatures that fail. -/
theorem witness_refused_images :
    (stagingAt 0).verifyImage (zeros 2112) 2112 0 = 1 ∧ leAt (zeros 2112) 4 1 = 0 ∧ (stagingAt 0).verifyImage (imageOf 1 3 (zeros 32)) 2112 0 = 1
      ∧ leAt (imageOf 1 3 (zeros 32)) 4 1 ≠ 0
      ∧ ({ stagingAt 0 with sec := { (stagingAt 0).sec with ecdsaKey := [] } } : State).verifyImage (zeros 2112) 2112 0 = 2
      ∧ (stagingAt 0).hostOk 4096 2112 = true ∧ (stagingAt 0).maint.update = none ∧ (zeros 2112).length = 2112 := by decide +kernel

/-- A live update of component 0, begun in cycle 0, runs. -/
def updating : State :=
  { maintaining 0x38 true false with
    maint := { (maintaining 0x38 true false).maint with
      entries := [{ retrainEntry with code := 11 }], update := some (0, 0, none) } }

theorem witness_activation_and_live_update :
    (beginning 0x49 [0, 0, 0] (fun s => { s with sec := { s.sec with banks := [(1, FwBank.built)] } })).verifies 0 true [] = 0
      ∧ (beginning 0x49 [0, 0, 0] (fun s => { s with sec := { s.sec with banks := [(1, FwBank.built)], rollback := [(0, 4)] } })).verifies 0 true [] = 3
      ∧ (beginning 0x49 [0, 0, 0] id).verifies 0 true [] = 2 ∧ (beginning 0x49 [0, 0, 0] id).activeBank 0 = false
      ∧ ((beginning 0x4A [0, 0, 0] (fun s => { s with sec := { s.sec with banks := [(1, FwBank.built)] } })).bank 0 true).valid = true
      ∧ updating.maint.update = some (0, 0, none) ∧ (updating.maint.entries.find? (fun e => e.code == 11 && e.running)).isSome
      ∧ updating.now ≤ 0 + 420000000 ∧ updating.maint.restartUntil = none := by decide +kernel

/-- An SPDM state with these parts on DOE. -/
def spdm (x : Spdm) : State := { State.reset with sec := { Security.reset with spdm := [(0, x)] } }

theorem witness_attestation :
    ((spdm { Spdm.reset with version := true, caps := true, algs := true }).spdmOn 0).algs = true
      ∧ (State.reset.spdmOn 0).version = false ∧ (State.reset.spdmOn 0).signed = false
      ∧ ((spdm { Spdm.reset with session := some false }).spdmOn 0).session = some false
      ∧ ((spdm { Spdm.reset with signed := true }).spdmOn 0).signed = true
      ∧ (spdm Spdm.reset).sec.nextQ < 2 ^ 20
      ∧ 2 ^ 20 ≤ ({ State.reset with sec := { Security.reset with nextQ := 2 ^ 20 } } : State).sec.nextQ
      ∧ (beginning 0x50 [4096, 64, 8192, 64] id).hostOk 4096 64 = true ∧ (beginning 0x50 [4096, 64, 8192, 64] id).hostOk 8192 64 = true := by
  decide +kernel

/-- A debug token for the die with ID 213, nonce 0 and level 1. -/
def token : List Byte := imageOf 9 0 (leBytes 8 213 ++ zeros 8 ++ [1] ++ zeros 15)

/-- A token for this die and nonce, when its signatures pass. -/
theorem witness_debug_token (h : SignaturesPass token) :
    State.reset.tokenRefusal token 2112 = 0 := by
  obtain ⟨a, b, c, d, e⟩ := image_parts 9 0 (leBytes 8 213 ++ zeros 8 ++ [1] ++ zeros 15) token rfl (.inr ⟨rfl, rfl, rfl⟩)
  have f : leAt token 128 8 = State.reset.rom.dieId
      ∧ leAt token 136 8 = State.reset.sec.nonce := by decide +kernel
  have k : State.reset.keysOk = true ∧ State.reset.rom.debugDisable = false := ⟨keys_pass _ rfl rfl rfl, rfl⟩
  have z : State.reset.sec.ecdsaKey = zeros 97 ∧ State.reset.sec.lmsKey = zeros 56 := ⟨rfl, rfl⟩
  have u : up64 (128 + 32) = 192 := rfl
  unfold State.tokenRefusal State.verifyImage
  simp [a, b, c, d, e, h.1, h.2, f.1, f.2, k.1, k.2, z.1, z.2, u]

theorem witness_refused_token :
    State.reset.tokenRefusal [] 0 ≠ 0 ∧ ({ State.reset with rom := { State.reset.rom with debugDisable := true } } : State).rom.debugDisable = true
      ∧ leAt (leBytes 200 (2 ^ 1088)) 136 8 ≠ State.reset.sec.nonce := by decide +kernel

/-- A latched snapshot; slack reports of the tick committed last for patch 3, from dies 0 and 1 or from die 0. -/
def telemetry (l : Option Latch) (left : List Nat) : State :=
  { mapped with tel := { Tel.reset with latched := l, votes := [(3, (left, 5))] }, gen := { TickGen.reset with last := some tick1 } }

theorem witness_snapshots :
    (telemetry none []).fld unitMgmt rTEL_CTRL 0 1 = 1 ∧ (telemetry none []).still = true
      ∧ (telemetry (some ⟨TelData.empty, [], 5, 1, 0, 0⟩) []).tel.latched = some ⟨TelData.empty, [], 5, 1, 0, 0⟩
      ∧ (telemetry none []).active.site 0 = some 0 ∧ SMap.ascFrom 0 (telemetry none [0]).tel.votes = true
      ∧ SMap.get ([], 0) (telemetry none [0]).tel.votes 3 = ([0], 5) ∧ SMap.get ([], 0) (telemetry none [0, 1]).tel.votes 3 = ([0, 1], 5)
      ∧ ([0, 1] : List Nat).filter (· != 0) ≠ [] := by decide +kernel

/-- An event waits for MCTP; it has been sent, some times. -/
def anEvent : Event := { sev := .info, code := 0x70, injected := false, seq := 0, tick := 0, src := .none, data := 0 }
def mctpWaits (at_ : Option Nat) (tries : Nat) : State :=
  { State.reset with events := { Events.reset with mctpQ := [anEvent] }, tel := { Tel.reset with mctpAt := at_, mctpTries := tries } }

theorem witness_mctp :
    (mctpWaits none 0).events.mctpQ = anEvent :: [] ∧ (mctpWaits none 0).tel.mctpAt = none ∧ ((mctpWaits none 0).reg unitMgmt rTEL_MCTP).testBit 19 = true
      ∧ (mctpWaits (some 7) 2).tel.mctpTries < 3 ∧ 3 ≤ (mctpWaits (some 7) 3).tel.mctpTries := by decide +kernel


/-! Power, clocks, margins. -/

/-- A panel with registers of the management die and of compute die 0 set. -/
def powered (ms ds : List (Nat × Nat)) (f : State → State) : State :=
  f (ds.foldl (fun s r => s.setReg (unitDie 0) r.1 r.2) (ms.foldl (fun s r => s.setReg unitMgmt r.1 r.2) State.reset))

/-- Every phase works; three of four work; one of two works. -/
theorem witness_groups :
    (powered [] [] id |> fun s => s.fld unitMgmt (groupOff 0) 2 1 = 1 ∧ phasesLeft s 0 = groupPhases 0 ∧ s.fld unitMgmt (groupOff 0) 0 2 ≠ 2)
      ∧ (powered [(groupOff 0, 56)] [] id |> fun s => phasesLeft s 0 = 3 ∧ s.fld unitMgmt (groupOff 0) (2 + 1) 1 = 1 ∧ s.fld (unitDie 0) rPWR_DIE_STATUS 5 2 ≠ 2)
      ∧ (powered [(groupOff 210, 8), (groupOff 204, 8)] [] id |> fun s => phasesLeft s 210 = 1 ∧ s.fld unitMgmt (groupOff 210) (2 + 1) 1 = 1
        ∧ s.fld unitMgmt (groupOff 210) 0 2 ≠ 2 ∧ phasesLeft s 204 = 1 ∧ s.fld unitMgmt (groupOff 204) (2 + 1) 1 = 1) := by decide +kernel

/-- A power region of die 0 in a state, at a stage, with phases. -/
def regionAt (st stage phases : Nat) : Nat := st + 4 * stage + 64 * phases

theorem witness_regions :
    (∀ n ∈ ([31, 15, 7] : List Nat), (powered [] [(statOff 0, regionAt 2 0 n)] id).regionState 0 0 ≠ 3
        ∧ (powered [] [(statOff 0, regionAt 2 0 n)] id).fld (unitDie 0) (statOff 0) (6 + 0) 1 = 1)
      ∧ (bitsOf 5 ((powered [] [(statOff 0, regionAt 2 0 31)] id).fld (unitDie 0) (statOff 0) 6 5)).length = 5
      ∧ (bitsOf 5 ((powered [] [(statOff 0, regionAt 2 0 15)] id).fld (unitDie 0) (statOff 0) 6 5)).length = 4
      ∧ (bitsOf 5 ((powered [] [(statOff 0, regionAt 2 0 7)] id).fld (unitDie 0) (statOff 0) 6 5)).length = 3
      ∧ (powered [] [(statOff 0, regionAt 2 0 31), (rPWR_REGION_CTRL, 2 ^ 16)] id |> fun s => s.regionState 0 0 = 2 ∧ Requested s 0 16
        ∧ (∀ p ∈ regionCores 0 0, ∀ i, i < 8 → (s.slot p i).mode = .free) ∧ s.regionUsed 0 0 = false)
      ∧ (powered [] [(statOff 1, regionAt 1 3 31)] id |> fun s => s.turnOnWindow 0 = true ∧ s.reef = false ∧ s.regionState 0 1 = 1
        ∧ stageOf s 0 1 < 7 ∧ Loud s 0 1 255 0 ∧ ¬ Loud s 0 1 0 0)
      ∧ (powered [] [(statOff 1, regionAt 1 7 31)] id |> fun s => s.regionState 0 1 = 1 ∧ stageOf s 0 1 = 7)
      ∧ (powered [] [(rPWR_REGION_CTRL, 1)] id |> fun s => s.regionState 0 0 = 0 ∧ Requested s 0 0 ∧ ∀ j, j < 10 → s.regionState 0 j ≠ 1) := by
  unfold Requested Loud; decide +kernel

/-- Power manager 0 with parts of its own. -/
def manager (f : DiePower → DiePower) : State := powered [] [(rPWR_DIE_BUDGET, 1000)] (fun s => s.modDie 0 f)

theorem witness_contacts_and_budgets :
    (powered [] [(rPWR_CONTACT, 100)] id |> fun s => s.fld (unitDie 0) rPWR_CONTACT 0 16 = 100 ∧ (100 : Nat) ≠ 0 ∧ 125 * 100 < 100 * 200 ∧ 160 * 100 < 100 * 200
        ∧ s.fld (unitDie 0) rPWR_DIE_STATUS 5 2 = 0)
      ∧ (powered [] [] id).fld (unitDie 0) rPWR_CONTACT 0 16 = 0
      ∧ (manager id |> fun s => s.fld (unitDie 0) rPWR_DIE_BUDGET 0 16 = 1000 ∧ 1000 < 1001 ∧ 10 * 800 < 9 * 1000 ∧ 9 * 1000 ≤ 10 * 950
        ∧ (s.die 0).belowSince = none ∧ s.now < s.now + 21000)
      ∧ (({ manager (fun d => { d with belowSince := some 0, vecCap := 32 }) with now := 21000 } : State) |> fun s =>
          (s.die 0).belowSince = some 0 ∧ 0 + 21000 ≤ s.now)
      ∧ 105 * (powered [] [] id).fld unitMgmt rPWR_CAP_STAT 0 16 < 100 * 65535
      ∧ ¬ (105 * (powered [(rPWR_CAP_STAT, 1800)] [] id).fld unitMgmt rPWR_CAP_STAT 0 16 < 100 * 1000 ∨ 1800 < 1000) := by decide +kernel

/-- A supply monitor with parts of its own, in reef mode or not. -/
def monitored (reef : Nat) (now : Nat) (f : Supply → Supply) : State :=
  powered [(rPWR_REEF_STAT, reef)] [] (fun s => { s with now := now, supply := f s.supply })

theorem witness_supplies :
    (monitored 0 0 (fun x => { x with low := 3 }) |> fun s => s.supply.down = none ∧ s.reef = false ∧ 10500 < s.fld unitMgmt rPWR_REEF_CFG 0 16
        ∧ 3 ≤ s.supply.low)
      ∧ (monitored 0 0 id |> fun s => s.fld unitMgmt rPWR_REEF_CFG 0 16 ≤ 12000 ∧ s.supply.low < 3)
      ∧ (monitored 1 2100000 (fun x => { x with since := some 0 }) |> fun s => s.reef = true ∧ s.supply.since = some 0 ∧ 0 + 2100000 ≤ s.now)
      ∧ (monitored 1 0 id).supply.since = none
      ∧ (monitored 0 0 (fun x => { x with protectAt := some 0 }) |> fun s => s.supply.protectAt = some 0 ∧ s.opCycles < 0 + hourCycles)
      ∧ (monitored 0 0 id).supply.protectAt = none
      ∧ (monitored 0 0 (fun x => { x with highSince := some 0 }) |> fun s => s.supply.highSince = some 0 ∧ s.supply.highRaised = false)
      ∧ (monitored 0 0 (fun x => { x with down := some ⟨1, 9000⟩ }) |> fun s => s.supply.down ≠ none ∧ s.supply.latchedOff = false) := by
  decide +kernel

theorem witness_input_high :
    (monitored 0 0 (fun x => { x with highSince := some 0, highRaised := true })).supply.highRaised = true ∧ (monitored 0 0 id).supply.highSince = none
      ∧ (monitored 0 0 id).supply.down = none := by decide +kernel

/-- A spare site without a die; a site with one, and one that is no spare. -/
theorem witness_spares :
    Unplaced { State.reset with active := oneDie } 8 = true ∧ Unplaced { State.reset with active := oneDie } 0 = false
      ∧ Unplaced { State.reset with active := oneDie } 1 = false := by decide +kernel


theorem witness_reference :
    (monitored 0 0 id).supply.refLostAt = none ∧ (monitored 0 0 id).supply.down = none
      ∧ (monitored 0 5 (fun x => { x with refLostAt := some 0 }) |> fun s => s.supply.refLostAt = some 0 ∧ s.now ≤ 0 + 2100000)
      ∧ 0 ∉ (monitored 0 0 id).boot.badSites := by decide +kernel

/-- The link at the eastern exit of site 0 trains; tracks of its first group have been repaired. -/
def seam (tracks : Nat) : State :=
  powered [] [] (fun s => { s with mesh := { s.mesh with training := [linkAt 0 2] }, maint := { s.maint with tracks := [(0, tracks)] } })

theorem witness_seams :
    beyond 0 2 = some 1 ∧ linkAt 0 2 ∉ (seam 0).mesh.fenced ∧ linkAt 0 2 ∈ (seam 0).mesh.training
      ∧ ({ seam 0 with mesh := { Mesh.reset with trained := true }, active := { oneDie with graph := ⟨[92, 93, 94, 110], []⟩ } } : State).seamUp 0 2 = true ∧ sepMargin 0 < 128
      ∧ SMap.get 0 (seam 1).maint.tracks 0 < 2 ∧ SMap.get 0 (seam 2).maint.tracks 0 = 2 ∧ (0 : Nat) = (siteRow 0 / 2 * 8 + 0) * 256 + 0 := by
  decide +kernel

/-- Region 0 of die 0 is on at a voltage, with a plan of 750 mV and parts of its own. -/
def steady (mv now : Nat) (f : Region → Region) : State :=
  powered [] [(statOff 0, regionAt 2 0 31 + 2 ^ 20 * mv), (planOff 0, 750)] (fun s =>
    { s.modDie 0 (fun d => { d with regions := [(0, f Region.reset)] }) with now := now })

theorem witness_margins :
    Steady (steady 800 0 id) 0 0 ∧ ¬ HalfRate (steady 800 0 id) 0 0 ∧ ((steady 800 0 id).die 0 |>.region 0).evalAt ≤ 0 ∧ (steady 800 0 id).regionMv 0 0 = 800
      ∧ (steady 900 21000 (fun r => { r with endSince := some 0 }) |> fun s => Steady s 0 0 ∧ ((s.die 0).region 0).endSince = some 0 ∧ 0 + 21000 ≤ s.now
        ∧ 900 ≤ s.regionMv 0 0 ∧ ¬ HalfRate s 0 0)
      ∧ (steady 800 2100000 (fun r => { r with highSince := some 0 }) |> fun s => Steady s 0 0 ∧ ((s.die 0).region 0).highSince = some 0
        ∧ 0 + 2100000 ≤ s.now ∧ s.planMv 0 0 < s.regionMv 0 0) := by
  unfold Steady HalfRate; decide +kernel

theorem witness_rates :
    ((steady 800 0 (fun r => { r with toHalf := true })).die 0 |>.region 0).toHalf = true
      ∧ (powered [] [(statOff 0, regionAt 2 0 31 + 2 ^ 11)] (fun s => s.modDie 0 (fun d => { d with regions := [(0, { Region.reset with toFull := true })] }))
          |> fun s => ((s.die 0).region 0).toFull = true ∧ ((s.die 0).region 0).faultHalf = false ∧ s.regionHalf 0 0 = true ∧ s.slack 0 = true) := by
  decide +kernel

/-- A running entry of the arbiter of a code for a resource. -/
def running (code resource : Nat) : MaintEntry := { retrainEntry with code := code, resource := resource }
/-- A panel with that entry, and region 0 of die 0 in a sweep. -/
def sweeping (mv : Nat) (half : Bool) : State :=
  { steady 800 0 (fun r => { r with replan := true, sweep := some ⟨mv, half, 750⟩ }) with
    maint := { State.reset.maint with entries := [running 5 0xFFFF, running 6 0xFF00] } }

theorem witness_sweeps :
    Sweeps (sweeping 700 false) 0 0 (running 5 0xFFFF) ⟨700, false, 750⟩ ∧ Sweeps (sweeping 900 false) 0 0 (running 5 0xFFFF) ⟨900, false, 750⟩
      ∧ Sweeps (sweeping 700 true) 0 0 (running 5 0xFFFF) ⟨700, true, 750⟩
      ∧ roundUp5 (((700 : Nat) : Int) + 5 + (sweeping 700 false).guardBand 0 0) ≤ 900 := by
  unfold Sweeps; decide +kernel

theorem witness_plans_and_ageing :
    State.reset.maint.entries.length < 16 ∧ (powered [] [] id).fld unitMgmt rCLK_PLAN_CTRL 0 2 = 2
      ∧ (sweeping 700 false).runningEntry 6 (fun e => e.site == 0) = some (running 6 0xFF00) ∧ (sweeping 700 false).slack 0 = true := by decide +kernel

/-- The link at the eastern exit of site 0 is the only one in training. -/
theorem witness_trains_alone : TrainsAlone (seam 1) 0 (linkAt 0 2) := by
  intro before after h k hk
  have h : [linkAt 0 2] = before ++ linkAt 0 2 :: after := h
  have := congrArg List.length h
  have e : after = [] := List.length_eq_zero_iff.mp (by simp at this; omega)
  simp [e] at hk


/-! Resets and bring-up. -/

/-- A panel that has been ready; ticking stopped or running. -/
theorem witness_resets :
    State.reset.supply.down = none ∧ (hosted [(rHOST_DEVICE_STATUS, 1)] id |> fun s => ({ s with boot := { s.boot with wasReady := true } } : State).fabricAllowed = true)
      ∧ State.reset.fabricAllowed = false ∧ State.reset.still = true ∧ (gen id).still = false := by decide +kernel

/-- A panel in a step of bring-up at a level. -/
def booting (step level : Nat) : State := { State.reset with boot := { Boot.reset with step := step, level := level } }

theorem witness_bring_up :
    (∀ n ∈ ([0, 1, 12] : List Nat), (booting n 0).ready = 0 ∧ (booting n 0).supply.down = none ∧ (booting n 0).broadcasting = false)
      ∧ (booting 6 2).boot.level = 2 ∧ (portAt (booting 6 2) 0 0).retired = false ∧ ({ booting 6 2 with boot := { (booting 6 2).boot with collected := true } } : State).broadcasting = false
      ∧ ({ booting 8 0 with boot := { (booting 8 0).boot with collected := true } } : State).broadcasting = false ∧ (booting 8 0).ready = 0
      ∧ (booting 4 2).boot.level = 2 ∧ (booting 5 0).boot.step = 5 ∧ (booting 8 0).broadcasting = true ∧ (booting 8 0).isTarget 0 = true
      ∧ SMap.get 0 (booting 8 0).boot.fails 0 ≠ 2 ∧ (booting 5 0).runs 212 = true ∧ (booting 4 2).runs 0 = true
      ∧ (booting 3 0).reef = false ∧ ((booting 3 0).setReg unitMgmt rPWR_REEF_STAT 1).reef = true
      ∧ ((booting 3 0).setReg unitMgmt rPWR_REEF_STAT 1).turningOn = true
      ∧ (({ booting 8 0 with boot := { (booting 8 0).boot with fails := [(0, 2)] } } : State) |> fun s =>
          SMap.get 0 s.boot.fails 0 = 2 ∧ (s.failedAt 0).length < 2) := by decide +kernel

/-- Every die is mapped, along one path of sites (placement is checked when a set is sealed, not here). -/
theorem witness_readiness :
    ({ booting 12 0 with
        active := { ConfigSet.empty with
          sections := [(1, (List.range 192).map (fun d => (d, [195])))], counts := [(1, 192)]
          graph := ⟨(List.range 213).filter (fun v => !(v % 17 == 8 && decide (110 ≤ v) && decide (v < 204))), []⟩ } } : State).readiness = 1 := by
  decide +kernel


/-! Losses and maintenance. -/

/-- Hub 194 has a notice of the loss of core 9650 for the management die; it has been lost before or not. -/
def lossAt (before : List (Nat × Nat)) : State :=
  { small with hubs := [(194, { Hub.reset with up := { HubOut.empty with lost := [9650] } })], maint := { small.maint with coreLosses := before } }

theorem witness_losses :
    0 ∉ State.reset.boot.badSites ∧ (0 : Nat) ∉ State.reset.boot.badEdges
      ∧ ({ mapped with maint := { mapped.maint with resuming := [(0, 210000)] } } : State).maint.resuming.find? (fun e => e.1 == 0) = some (0, 210000)
      ∧ (mapped.core 0).node.hbAt + 210000 ≤ 210000 ∧ (mapped.core 0).node.hbAt + 210000 ≤ 210001 ∧ 209999 < (mapped.core 0).node.hbAt + 210000 := by
  decide +kernel


theorem witness_loss_notice :
    LossReported (lossAt []) 194 9650 ∧ (lossAt []).recentLosses (((lossAt []).gid 9650).getD 0x3FFF) = 0
      ∧ 1 ≤ (lossAt [(((lossAt []).gid 9650).getD 0x3FFF, 0)]).recentLosses (((lossAt []).gid 9650).getD 0x3FFF) := by
  unfold LossReported; decide +kernel

/-- A range of 64 bytes of core 0 at its offset 128 waits to be copied, or has been, with or without a bad line. -/
def reloading (copied bad : Bool) : State :=
  { mapped with
    active := { oneDie with
      sections := oneDie.sections ++ [(11, [(0, [0, 0, 2, 0] ++ leBytes 4 128 ++ leBytes 4 64 ++ leBytes 4 4096 ++ leBytes 8 8192 ++ zeros 8)])]
      counts := [(1, 1), (11, 1)] }
    maint := { mapped.maint with reloads := [⟨0, 0, copied, bad⟩] } }

theorem witness_reloads :
    (reloading false false |> fun s => s.maint.reloads.find? (fun r => r.core == 0 && !r.copied) = some ⟨0, 0, false, false⟩ ∧ s.physOf 0 = some 0
        ∧ s.active.site 0 = some 0 ∧ s.cfg.pending = false ∧ (∀ i, i < 8 → (s.slot 0 i).mode ≠ .ending) ∧ reloadLength s ⟨0, 0, false, false⟩ = 64
        ∧ reloadFrom s ⟨0, 0, false, false⟩ = 8192 ∧ reloadPlace s ⟨0, 0, false, false⟩ = 128
        ∧ ∀ k, k < 64 → (s.dram 0).isRetired ((8192 + k) / 64 * 64) = false ∧ (s.dram 0).isPoisoned ((8192 + k) / 64 * 64) = false)
      ∧ (∃ r ∈ (reloading true false).maint.reloads, r.core = 0) ∧ (∀ r ∈ (reloading true false).maint.reloads, r.core = 0 → r.copied = true)
      ∧ (∀ r ∈ (reloading true false).maint.reloads, r.core = 0 → r.bad = false)
      ∧ ∃ r ∈ (reloading true true).maint.reloads, r.core = 0 ∧ r.bad = true := by decide +kernel

/-- The arbiter holds an entry. -/
def arbiter (e : MaintEntry) : State := { mapped with maint := { mapped.maint with entries := [e] } }

theorem witness_admission :
    (arbiter { running 3 0x900 with running := false }).maint.entries.find? (arbiter { running 3 0x900 with running := false }).entryLost
        = some { running 3 0x900 with running := false }
      ∧ (∀ code ∈ ([3, 11] : List Nat), (arbiter { running code 0 with running := false } |> fun s => s.maint.entries.find? s.entryLost = none
          ∧ s.maint.entries.find? s.admissible = some { running code 0 with running := false }))
      ∧ (({ hosted [(rHOST_FEAT_CTRL, 1)] (fun h => { h with locked := some 16 }) with
          maint := (arbiter { running 10 0xFFFF with running := false, arg := 4 }).maint } : State) |> fun s => s.maint.entries.find? s.entryLost = none
          ∧ s.maint.entries.find? s.admissible = some { running 10 0xFFFF with running := false, arg := 4 }) := by decide +kernel

theorem witness_activities :
    (arbiter (running 1 0x200) |> fun s => MayStep s 1 0 (running 1 0x200) ∧ (running 1 0x200).seam = some 2 ∧ linkAt 0 2 ∉ s.mesh.fenced
        ∧ linkAt 0 2 ∉ s.mesh.training ∧ s.slack 0 = true ∧ s.slack 1 = true)
      ∧ (({ arbiter (running 1 0xFF00) with mesh := { Mesh.reset with fenced := [linkAt 0 1] } } : State) |> fun s => MayStep s 1 0 (running 1 0xFF00)
        ∧ (running 1 0xFF00).seam = some 1 ∧ (running 1 0xFF00).stopping = false ∧ (running 1 0xFF00).progress + 1 < (running 1 0xFF00).seams.length)
      ∧ (arbiter (running 3 0) |> fun s => MayStep s 3 0 (running 3 0) ∧ ((s.dram 0).port (running 3 0).dramPort).retired = false)
      ∧ (arbiter (running 4 0xFFFF)).runningEntry 4 (fun e => e.handle == 1) = some (running 4 0xFFFF)
      ∧ (arbiter (running 7 0)).runningEntry 7 (fun e => e.site == 0) = some (running 7 0) ∧ (running 7 0).progress < 4 ∧ (running 7 0).unit ≠ 0xFF
      ∧ (arbiter (running 8 0xFF00)).runningEntry 8 (fun e => e.site == 0) = some (running 8 0xFF00)
      ∧ (arbiter (running 9 0x1600)).runningEntry 9 (fun e => e.site == 0) = some (running 9 0x1600) ∧ (running 9 0x1600).unit < 50
      ∧ (arbiter (running 9 0xFF08)).runningEntry 9 (fun e => e.site == 8) = some (running 9 0xFF08) ∧ (running 9 0xFF08).unit = 0xFF
      ∧ 8 ∉ (arbiter (running 9 0xFF08)).boot.badSites := by unfold MayStep; decide +kernel

/-- Port 0 of die 0's DRAM trains; it has failed before or not. -/
def dramTraining (fails : List ((Nat × Nat) × Nat)) : State :=
  { mapped with
    drams := [(0, Dram.reset.modPort 0 (fun p => { p with training := true, trainBy := some 10500 }))], maint := { mapped.maint with dramFails := fails } }

theorem witness_dram_training :
    (((dramTraining []).dram 0).port 0).training = true ∧ (∀ y ∈ (dramTraining []).maint.dramFails, y.1 = (0, 0) → y.2 + 24 * hourCycles < 0)
      ∧ ∃ y ∈ (dramTraining [((0, 0), 0)]).maint.dramFails, y.1 = (0, 0) ∧ (dramTraining [((0, 0), 0)]).now ≤ y.2 + 24 * hourCycles := by decide +kernel

theorem witness_restarts :
    State.reset.maint.restartUntil = none
      ∧ ({ State.reset with maint := { State.reset.maint with restartUntil := some 5 } } : State).maint.restartUntil ≠ none := by decide +kernel

/-- Tick 1 has ended, and the panel bastes. -/
def basting : State :=
  { gen (fun g => { g with ticks := [{ tick1 with ended := true }] }) with maint := { mapped.maint with basteAttached := true, digest := [(1, 77)] } }

theorem witness_digests :
    AwaitsDigest basting { tick1 with ended := true } ∧ (77 : BitVec 64).toNat = SMap.get 0 basting.maint.digest (({ tick1 with ended := true } : TickRun).tick % 2)
      ∧ (78 : BitVec 64).toNat ≠ SMap.get 0 basting.maint.digest (({ tick1 with ended := true } : TickRun).tick % 2) := by
  unfold AwaitsDigest; decide +kernel

/-- A reference with its digest context open. -/
def reference : State :=
  { ((mapped.setReg unitMgmt rMNT_BASTE_CFG 1).setReg (unitEdge 7) (rVLNK_XCTX_CFG + 0x20 * 511) 1) with
    vorrad := { Vorrad.reset with ctxs := [(4095, { XCtx.reset with st := 1 })] }, maint := { mapped.maint with digest := [(1, 77)] } }

theorem test_reference_posts :
    reference.active.site 0 = some 0 ∧ (reference.reg unitMgmt rMNT_BASTE_CFG).testBit 0 = true ∧ reference.ctxMode 4095 = 1
      ∧ (reference.ctx 4095).st = 1 ∧ (reference.dram 0).isRetired (digestBase + 64) = false
      ∧ ((reference.postDigest 1).ctx 4095).posts.map (fun p => (p.src, p.dstOff, p.length, p.sent)) = [(digestBase + 64, 64, 64, 1)]
      ∧ dbyte (reference.postDigest 1) 0 (digestBase + 64) = 77 := by decide +kernel

theorem witness_reload_ports : PortsFree (reloading false false) 0 ∧ reloadFrom (reloading false false) ⟨0, 0, false, false⟩ % 64 = 0 := by
  refine ⟨⟨fun p => ⟨rfl, rfl⟩, fun d p => rfl, ?_⟩, ?_⟩ <;> decide +kernel


/-! Steps. -/

/-- A command waits. -/
def waiting (c : Instr) : State := { State.reset with pending := [c, .coldReset] }

theorem witness_queue : (waiting .snap).pending = Instr.snap :: [.coldReset] ∧ State.reset.pending = [] := ⟨rfl, rfl⟩

theorem witness_step : (match step (waiting .snap) with | .next t => t.pending == [.coldReset] | _ => false) = true := by decide +kernel

/-- A state with bytes in every kind of memory. -/
def remembering : State :=
  { (withSlot id).modCore 0 (fun c => { c with spad := { c.spad with bytes := [(3, 7)] } }) with hostMem := [(5, 1), (9, 2)], drams := [(0, { Dram.reset with bytes := [(64, 8)] })] }

theorem witness_memories : remembering.memoriesCanonical = true := by decide +kernel

theorem test_empty_step_idles : (match step State.reset with | .next t => t.now == 1 | _ => false) = true := by decide +kernel

/-- No core has a slot that may issue, or core 0 has one. -/
theorem witness_issuers (p : Nat) : State.reset.issuer p = none ∧ State.reset.vorrad.held = [] := by
  have h : ∀ i : Fin 8, Core.reset.mayIssue (Core.reset.slot i.val) = false := by decide +kernel
  have hc : State.reset.core p = Core.reset := rfl
  refine ⟨?_, rfl⟩
  simp [State.issuer, hc, h]

/-- Core 0 with a word at its program counter: ADDI, or one that spells nothing. -/
def spelling (w : Nat) : State := { withCore (fun c => { c with icache := [(0, leBytes 4 w ++ zeros 60)] }) with active := oneDie }

theorem witness_words :
    (spelling 0x02 |> fun s => s.pending = [] ∧ s.cores.map (·.1) = [0] ∧ s.issuer 0 = some 0 ∧ s.vorrad.held = []
        ∧ (decodeWord a0 ((s.core 0).wordOf (s.slot 0 0)) ((s.core 0).secondWord (s.slot 0 0))).isSome = true
        ∧ Fires s a0 4)
      ∧ (spelling 0 |> fun s => s.issuer 0 = some 0
        ∧ decodeWord a0 ((s.core 0).wordOf (s.slot 0 0)) ((s.core 0).secondWord (s.slot 0 0)) = none ∧ Fires s a0 4) := by
  unfold Fires; decide +kernel

theorem test_empty_word_faults : (match step (spelling 0) with | .next t => (t.slot 0 0).mode == .faulted | _ => false) = true := by
  decide +kernel

/-- Words written out field by field: ADD g1, g2, g3; NOP; SD g4, 8(g5); BEQ g1, g2, -1; JAL g1, 3; ADDIX g1, g0, 2^32 + 5; AMOCAS g1, g2, g3. -/
theorem test_words :
    decodeWord a0 0b00000000000_00011_00010_00001_000001 0 = some (.add a0 1 2 3)
      ∧ decodeWord a0 0x00000002 0 = some (.addi a0 0 0 0)
      ∧ decodeWord a0 0b0000000000001000_00101_00100_100011 0 = some (.sd a0 4 5 8)
      ∧ decodeWord a0 0b1111111111111111_00010_00001_010000 0 = some (.beq a0 1 2 0xFFFF)
      ∧ decodeWord a0 0b000000000000000000011_00001_010110 0 = some (.jal a0 1 3)
      ∧ decodeWord a0 0b0000000000000001_00000_00001_111110 5 = some (.addix a0 1 0 0x100000005)
      ∧ decodeWord a0 0b00000000010_00011_00010_00001_100100 0 = some (.amocas a0 1 2 3)
      ∧ decodeWord a0 0 0 = none ∧ decodeWord a0 0b00000000101_00011_00010_00001_100100 0 = none := by decide

end Sys2Proof.Tests
end

/-!
SUPPORT. Sums and differences of numbers with no bit in common, as the access codes of registers form them (R6).
-/
namespace Sys2Proof.Machine

theorem add_eq_or_of_and_eq_zero {x y : Nat} (h : x &&& y = 0) : x + y = x ||| y := by
  have hx : x < 2 ^ (x + y) := Nat.lt_of_le_of_lt (Nat.le_add_right x y) Nat.lt_two_pow_self
  have hy : y < 2 ^ (x + y) := Nat.lt_of_le_of_lt (Nat.le_add_left y x) Nat.lt_two_pow_self
  have hd : BitVec.ofNat (x + y) x &&& BitVec.ofNat (x + y) y = 0#(x + y) := by
    rw [← BitVec.ofNat_and, h]
  have e := BitVec.toNat_add_of_and_eq_zero hd
  rw [BitVec.add_eq_or_of_and_eq_zero _ _ hd, BitVec.toNat_or, BitVec.toNat_ofNat, BitVec.toNat_ofNat, Nat.mod_eq_of_lt hx,
    Nat.mod_eq_of_lt hy] at e
  exact e.symm

theorem testBit_add_of_disjoint {x y : Nat} (h : ∀ i, (x.testBit i && y.testBit i) = false) (i : Nat) :
    (x + y).testBit i = (x.testBit i || y.testBit i) := by
  have hd : x &&& y = 0 := Nat.eq_of_testBit_eq fun j => by rw [Nat.testBit_and, h j, Nat.zero_testBit]
  rw [add_eq_or_of_and_eq_zero hd, Nat.testBit_or]

theorem testBit_of_and_eq_zero {x y i : Nat} (h : x &&& y = 0) (hx : x.testBit i = true) : y.testBit i = false := by
  have e := congrArg (fun z => z.testBit i) h
  simpa [Nat.testBit_and, hx] using e

theorem sub_and_eq_ldiff (x m : Nat) : x - (x &&& m) = Nat.ldiff x m := by
  have hd : (x &&& m) &&& Nat.ldiff x m = 0 := Nat.eq_of_testBit_eq fun i => by
    simp only [Nat.testBit_and, Nat.testBit_ldiff, Nat.zero_testBit]; cases m.testBit i <;> simp
  have hs : (x &&& m) + Nat.ldiff x m = x := by
    rw [add_eq_or_of_and_eq_zero hd]
    refine Nat.eq_of_testBit_eq fun i => ?_
    simp only [Nat.testBit_or, Nat.testBit_and, Nat.testBit_ldiff]; cases m.testBit i <;> simp
  omega

@[simp] theorem testBit_sub_and (x m i : Nat) : (x - (x &&& m)).testBit i = (x.testBit i && !m.testBit i) := by
  rw [sub_and_eq_ldiff, Nat.testBit_ldiff]

/-- The bits of `m` taken from `y`, the others from `x`. -/
theorem testBit_sub_and_add (x y m i : Nat) :
    (x - (x &&& m) + (y &&& m)).testBit i = if m.testBit i = true then y.testBit i else x.testBit i := by
  rw [testBit_add_of_disjoint fun j => by rw [testBit_sub_and, Nat.testBit_and]; cases m.testBit j <;> simp,
    testBit_sub_and, Nat.testBit_and]
  cases m.testBit i <;> simp

/-- A field depends on its own bits only. -/
theorem field_congr {x y lo w : Nat} (h : ∀ i, lo ≤ i → i < lo + w → x.testBit i = y.testBit i) :
    field x lo w = field y lo w := by
  refine Nat.eq_of_testBit_eq fun i => ?_
  simp only [field, Nat.testBit_mod_two_pow, Nat.testBit_shiftRight]
  by_cases hi : i < w
  · rw [h (lo + i) (by omega) (by omega)]
  · simp [hi]

/-- A write by access codes, bit by bit (R6). -/
theorem RegRow.testBit_written (r : RegRow) (old v m i : Nat) :
    (r.written old v m).testBit i =
      if (r.rw &&& m).testBit i = true then v.testBit i
      else old.testBit i && !(r.w1c &&& m &&& v).testBit i := by
  unfold RegRow.written
  rw [testBit_add_of_disjoint fun j => by
    simp only [testBit_sub_and, Nat.testBit_and v]; cases (r.rw &&& m).testBit j <;> simp]
  simp only [testBit_sub_and, Nat.testBit_and v]
  cases (r.rw &&& m).testBit i <;> simp

/-- The bits of a write that count: all but those of W1C bits that hardware sets in the same cycle (R7). -/
theorem State.testBit_heldBits (s : State) (u : Nat) (r : RegRow) (off v i : Nat) :
    (s.heldBits u r off v).testBit i = (v.testBit i && !(r.w1c.testBit i && (s.hwBits u off).testBit i)) := by
  rw [State.heldBits, Nat.land_assoc, testBit_sub_and, Nat.testBit_and]

theorem testBit_and_wordMask (x : Nat) {i : Nat} (hi : i < 64) : (x &&& (2 ^ 64 - 1)).testBit i = x.testBit i := by
  rw [Nat.testBit_and, Nat.testBit_two_pow_sub_one, decide_eq_true hi, Bool.and_true]

end Sys2Proof.Machine

/-!
SUPPORT. The register store, and the rows that describe its registers.
-/
namespace Sys2Proof.Machine

/-! One register. -/

@[simp] theorem State.reg_putReg_same (s : State) (u off v : Nat) : (s.putReg u off v).reg u off = v :=
  SMap.get_set_same _ _ _ _

theorem State.get_regs_putReg_other (s : State) {u off k : Nat} (v d : Nat) (h : k ≠ regKey u off) :
    SMap.get d (s.putReg u off v).regs k = SMap.get d s.regs k :=
  SMap.get_set_other _ _ _ _ h

@[simp] theorem ConfigSet.reg_setReg_same (c : ConfigSet) (u off v : Nat) : (c.setReg u off v).reg u off = v :=
  SMap.get_set_same _ _ _ _

/-! Rows. -/

theorem unitCore_lt (c : CoreIx) : unitCore c.val < 0x4000 := Nat.lt_trans c.isLt (by decide)

theorem regRow?_of_lt {u : Nat} (off : Nat) (h : u < 0x4000) : regRow? u off = regRow? 0 off := by
  have h5 : u < 0x5000 := Nat.lt_trans h (by decide)
  simp [regRow?, unitSpaces, h, h5]

theorem mem_regRows_of_regRow? {u off : Nat} {r : RegRow} (h : regRow? u off = some r) : r ∈ regRows :=
  List.mem_of_find?_eq_some h

theorem regRows_rwt_lt : ∀ r ∈ regRows, r.rwt < 2 ^ 64 := by decide +kernel

end Sys2Proof.Machine

/-!
SUPPORT. The accesses of a whole 64-bit register, from the command to the register store (R6, R8, R354).
-/
namespace Sys2Proof.Machine

/-! From the command to the holder. -/

theorem accessOk_eight {off : Nat} (h : off % 8 = 0) : accessOk off 8 = true := by simp [accessOk, h]

theorem State.readAt_unitCore (s : State) (c : CoreIx) (off n : Nat) :
    s.readAt (unitCore c.val) off n = s.regRead (unitCore c.val) off n := by
  have hc := unitCore_lt c
  have hb : unitCore c.val ≠ unitBar := Nat.ne_of_lt (Nat.lt_trans hc (by decide))
  simp [State.readAt, refusedReg, hb, Nat.not_le.2 hc]

theorem execRocRead_core (s : State) (c : CoreIx) (off : BitVec 16) (h : off.toNat % 8 = 0) :
    execRocRead (.core c off) true s =
      .next { (s.regRead (unitCore c.val) off.toNat 8).2 with readData := (s.regRead (unitCore c.val) off.toNat 8).1 } := by
  have hb : unitCore c.val ≠ unitBar := Nat.ne_of_lt (Nat.lt_trans (unitCore_lt c) (by decide))
  simp [execRocRead, regPlace, accessBytes, accessOk_eight h, State.serves, throughBar, hb, State.readAt_unitCore]

theorem execRegisterWrite_core (s : State) (c : CoreIx) (off : BitVec 16) (v : BitVec 64) (h : off.toNat % 8 = 0) :
    execRegisterWrite (.core c off) true v s = .next (s.regWrite (unitCore c.val) off.toNat 8 v.toNat) := by
  have hb : unitCore c.val ≠ unitBar := Nat.ne_of_lt (Nat.lt_trans (unitCore_lt c) (by decide))
  simp [execRegisterWrite, regPlace, accessBytes, accessOk_eight h, State.serves, throughBar, hb]

theorem execRwtWrite_edge (s : State) (e : Fin 10) (off : BitVec 40) (v : BitVec 64) (h : off.toNat % 8 = 0) :
    execRwtWrite (.edge e off) true v s = .next (s.regWrite (unitEdge e.val) off.toNat 8 v.toNat) := by
  simp [execRwtWrite, regPlace, accessBytes, accessOk_eight h, State.serves, throughBar, when]

/-! From the holder to the register. -/

theorem div_mul_eight {off : Nat} (h : off % 8 = 0) : off / 8 * 8 = off := Nat.div_mul_cancel (Nat.dvd_of_mod_eq_zero h)

theorem unitCore_ne_unitHost (c : CoreIx) : unitCore c.val ≠ unitHost := Nat.ne_of_lt (Nat.lt_trans (unitCore_lt c) (by decide))

section
variable {s : State} {u off : Nat} (hu : u ≠ unitHost) (ho : off % 8 = 0)
include hu ho

theorem State.regRead_of_row {r : RegRow} (hr : regRow? u off = some r) (h8 : r.bytes = 8) :
    s.regRead u off 8 = s.readFull u r off (2 ^ 64 - 1) := by
  simp [State.regRead, hu, div_mul_eight ho, hr, h8, ho]

theorem State.regWrite_of_row {r : RegRow} (v : Nat) (hr : regRow? u off = some r) (h8 : r.bytes = 8) :
    s.regWrite u off 8 v = s.writeFull u r off v (2 ^ 64 - 1) := by
  simp [State.regWrite, hu, div_mul_eight ho, hr, h8]

theorem State.regRead_reserved (hr : regRow? u off = none) (hr4 : regRow? u (off + 4) = none) :
    s.regRead u off 8 = (0, s) := by
  simp [State.regRead, hu, div_mul_eight ho, hr, hr4]

theorem State.regWrite_reserved (v : Nat) (hr : regRow? u off = none) (hr4 : regRow? u (off + 4) = none) :
    s.regWrite u off 8 v = s := by
  simp [State.regWrite, hu, div_mul_eight ho, hr, hr4]

end

end Sys2Proof.Machine

/-!
SUPPORT. What a read of a core register finds and clears, and which writes go by the access codes alone (R6, R7).
-/
namespace Sys2Proof.Machine

/-! The ROC bits. -/

theorem State.clearRoc_of_uncounted (s : State) (u off clr : Nat) (h : ∀ x, s.hwOf u off = some x → x.2.2 &&& clr = 0) :
    s.clearRoc u off clr =
      (s.reg u off &&& clr, if s.reg u off &&& clr = 0 then s else s.putReg u off (s.reg u off - (s.reg u off &&& clr))) := by
  unfold State.clearRoc
  cases hw : s.hwOf u off with
  | none => rfl
  | some x => simp [h x hw]

theorem State.clearRoc_of_counted (s : State) (u off clr : Nat) {old b n : Nat} (hw : s.hwOf u off = some (old, b, n))
    (hn : n &&& clr ≠ 0) :
    s.clearRoc u off clr =
      (old &&& clr, ({ s with hw := (s.now, SMap.put s.hw.2 (regKey u off) (old - (old &&& clr), b, n)) } : State).putReg u off
        (s.reg u off - (s.reg u off &&& clr) + (n &&& clr))) := by
  simp [State.clearRoc, hw, hn]

theorem State.readFull_core_snd (s : State) (c : CoreIx) (r : RegRow) (off m : Nat) :
    (s.readFull (unitCore c.val) r off m).2 = (s.clearRoc (unitCore c.val) off (r.roc &&& m)).2 := by
  simp [State.readFull, State.afterRead, unitCore_lt c]

/-! The writes of a core. -/

/-- A register whose writes do no more than their access codes say. -/
theorem State.coreWrite_of_not_special (s : State) (p : Nat) (r : RegRow) (off v m : Nat) (ho : off ∉ Claims.coreSpecial)
    (hf : r.off ≠ rTASK_FAULT) : s.coreWrite p r off v m = s.plainWrite (unitCore p) r off v m := by
  simp only [Claims.coreSpecial, List.mem_cons, List.not_mem_nil, or_false, not_or] at ho
  simp [State.coreWrite, ho, hf]

theorem State.heldBits_of_no_w1c (s : State) (u : Nat) {r : RegRow} (off v : Nat) (h : r.w1c = 0) : s.heldBits u r off v = v := by
  simp [State.heldBits, h]

end Sys2Proof.Machine

/-!
SUPPORT. The accesses of core registers that show their own stored value.
-/
namespace Sys2Proof.Claims

open Sys2Proof.Machine

section
variable {s : State} {c : CoreIx} {off : BitVec 16} {r : RegRow} (h : CoreRegister s c off r)
include h

theorem CoreRegister.execRocRead_eq :
    execRocRead (.core c off) true s =
      .next { (s.readFull (unitCore c.val) r off.toNat (2 ^ 64 - 1)).2 with
        readData := (s.readFull (unitCore c.val) r off.toNat (2 ^ 64 - 1)).1 } := by
  obtain ⟨hr, h8, ho, -⟩ := h
  rw [execRocRead_core s c off ho, State.regRead_of_row (unitCore_ne_unitHost c) ho hr h8]

/-- It is written by its core alone. -/
theorem CoreRegister.execRegisterWrite_eq (v : BitVec 64) :
    execRegisterWrite (.core c off) true v s = .next (s.coreWrite c.val r off.toNat v.toNat (2 ^ 64 - 1)) := by
  obtain ⟨hr, h8, ho, -, hrwt, -⟩ := h
  rw [execRegisterWrite_core s c off v ho, State.regWrite_of_row (unitCore_ne_unitHost c) ho _ hr h8]
  simp only [State.writeFull, hrwt, Nat.zero_and, if_true, ne_eq, not_true_eq_false, false_and, if_false, if_pos (unitCore_lt c)]
  rfl

/-- The row is the one that every core has at the offset. -/
theorem CoreRegister.row : regRow? 0 off.toNat = some r := by
  rw [← regRow?_of_lt off.toNat (unitCore_lt c)]
  exact h.1

/-- A read finds the ROC bits as they were before the events of this cycle (`x`), and the write-only bits as zero. -/
theorem CoreRegister.testBit_readFull {x i : Nat} (hi : i < 64)
    (hx : (s.clearRoc (unitCore c.val) off.toNat (r.roc &&& (2 ^ 64 - 1))).1 = x &&& (r.roc &&& (2 ^ 64 - 1))) :
    (s.readFull (unitCore c.val) r off.toNat (2 ^ 64 - 1)).1.testBit i =
      if r.roc.testBit i = true then x.testBit i
      else (s.reg (unitCore c.val) off.toNat).testBit i && !r.wo.testBit i := by
  obtain ⟨-, -, -, hview, hrwt, -⟩ := h
  by_cases h0 : r.roc = 0
  · simp [State.readFull, State.regFull, hview, hrwt, h0]
  · simp only [State.readFull, State.regFull, hview, hrwt, if_true, if_neg h0, hx]
    rw [testBit_sub_and_add, testBit_and_wordMask _ hi, testBit_sub_and]

/-- R6, R8: a read clears the ROC bits that have not counted in this cycle. -/
theorem CoreRegister.read_clears_roc (hwo : r.roc &&& r.wo = 0)
    (hn : ∀ x, s.hwOf (unitCore c.val) off.toNat = some x → x.2.2 &&& r.roc = 0) :
    ∃ t, exec (.rocRead (.core c off) true) s = .next t
      ∧ (∀ i, i < 64 → t.readData.testBit i = ((s.reg (unitCore c.val) off.toNat).testBit i && !r.wo.testBit i))
      ∧ (∀ i, i < 64 → (t.reg (unitCore c.val) off.toNat).testBit i
          = ((s.reg (unitCore c.val) off.toNat).testBit i && !r.roc.testBit i))
      ∧ (∀ k, k ≠ regKey (unitCore c.val) off.toNat → ∀ d, SMap.get d t.regs k = SMap.get d s.regs k)
      ∧ { t with regs := s.regs, readData := s.readData } = s := by
  have hclr := s.clearRoc_of_uncounted (unitCore c.val) off.toNat (r.roc &&& (2 ^ 64 - 1))
    fun x hx => by rw [← Nat.land_assoc, hn x hx, Nat.zero_and]
  refine ⟨_, h.execRocRead_eq, fun i hi => ?_, fun i hi => ?_, fun k hk d => ?_, ?_⟩
  · refine (h.testBit_readFull hi (congrArg Prod.fst hclr)).trans ?_
    split
    · next hroc => rw [testBit_of_and_eq_zero hwo hroc, Bool.not_false, Bool.and_true]
    · rfl
  all_goals rw [State.readFull_core_snd, hclr]
  · show (State.reg (if _ then _ else _) _ _).testBit i = _
    rw [← testBit_and_wordMask r.roc hi, ← testBit_sub_and]
    split
    · next hz => rw [hz, Nat.sub_zero]
    · rw [State.reg_putReg_same]
  · show SMap.get d (State.regs (if _ then _ else _)) k = _
    split
    · rfl
    · exact s.get_regs_putReg_other _ d hk
  · dsimp only
    split <;> rfl

/-- R7: of counters that have counted in this cycle a read finds the value before, and leaves the events. -/
theorem CoreRegister.read_keeps_events {old b n : Nat} (hroc : r.roc < 2 ^ 64)
    (hw : s.hwOf (unitCore c.val) off.toNat = some (old, b, n)) (hn : n &&& r.roc ≠ 0) :
    ∃ t, exec (.rocRead (.core c off) true) s = .next t
      ∧ (∀ i, i < 64 → t.readData.testBit i = if r.roc.testBit i = true then old.testBit i
          else (s.reg (unitCore c.val) off.toNat).testBit i && !r.wo.testBit i)
      ∧ (∀ i, i < 64 → (t.reg (unitCore c.val) off.toNat).testBit i = if r.roc.testBit i = true then n.testBit i
          else (s.reg (unitCore c.val) off.toNat).testBit i)
      ∧ { t with regs := s.regs, hw := s.hw, readData := s.readData } = s := by
  have hmask : r.roc &&& (2 ^ 64 - 1) = r.roc := Nat.and_two_pow_sub_one_of_lt_two_pow hroc
  have hclr := s.clearRoc_of_counted (unitCore c.val) off.toNat (r.roc &&& (2 ^ 64 - 1)) hw (by rwa [hmask])
  refine ⟨_, h.execRocRead_eq, fun i hi => h.testBit_readFull hi (congrArg Prod.fst hclr), fun i hi => ?_, ?_⟩
  all_goals rw [State.readFull_core_snd, hclr, hmask]
  · refine (congrArg (fun x => x.testBit i) (State.reg_putReg_same _ _ _ _)).trans ?_
    exact testBit_sub_and_add _ _ _ _
  · rfl

/-- R6, R7: a write goes by the access codes. -/
theorem CoreRegister.write_by_codes (v : BitVec 64) (ho : off.toNat ∉ coreSpecial) (hf : r.off ≠ rTASK_FAULT)
    (hd : r.rw &&& r.w1c = 0) :
    ∃ t, exec (.registerWrite (.core c off) true v) s = .next t
      ∧ (∀ i, i < 64 → (t.reg (unitCore c.val) off.toNat).testBit i =
          if r.rw.testBit i = true then v.getLsbD i
          else if r.w1c.testBit i = true ∧ v.getLsbD i = true ∧ (s.hwBits (unitCore c.val) off.toNat).testBit i = false then false
          else (s.reg (unitCore c.val) off.toNat).testBit i)
      ∧ RegOnly s t (unitCore c.val) off.toNat := by
  refine ⟨s.plainWrite (unitCore c.val) r off.toNat v.toNat (2 ^ 64 - 1), ?_, fun i hi => ?_,
    fun k hk d => s.get_regs_putReg_other _ d hk, rfl⟩
  · rw [exec_registerWrite, h.execRegisterWrite_eq, State.coreWrite_of_not_special _ _ _ _ _ _ ho hf]
  · rw [State.plainWrite, State.reg_putReg_same, RegRow.testBit_written, testBit_and_wordMask _ hi, Nat.testBit_and,
      testBit_and_wordMask _ hi, State.testBit_heldBits, ← BitVec.testBit_toNat]
    by_cases hrw : r.rw.testBit i = true
    · simp [hrw, testBit_of_and_eq_zero hd hrw]
    · cases r.w1c.testBit i <;> cases v.toNat.testBit i <;> cases (s.hwBits (unitCore c.val) off.toNat).testBit i <;> simp [hrw]

end

end Sys2Proof.Claims

/-!
SUPPORT. The core registers whose writes do more: the banks that a write of SPAD_CTRL uncovers, and the thresholds of
MESH_THROTTLE_CFG (R116, R219, R221).
-/
namespace Sys2Proof.Machine

/-! Banks. -/

@[simp] theorem Spad.bank_setBank_same (sp : Spad) (b : Nat) (x : Bank) : (sp.setBank b x).bank b = x :=
  SMap.get_set_same _ _ _ _

theorem Spad.bank_setBank_other (sp : Spad) {b j : Nat} (x : Bank) (h : j ≠ b) : (sp.setBank b x).bank j = sp.bank j :=
  SMap.get_set_other _ _ _ _ h

/-- Bank `b`, kept in the value `old` of the register at `off` of holder `u` and no longer in its value now, is uncovered from
now on. -/
def State.uncoverUnkept (p u off old : Nat) (s : State) (b : Nat) : State :=
  if bit old (16 + b) && !bit (s.reg u off) (16 + b) then s.modBank p b (fun x => { x with uncoveredAt := s.now }) else s

section
variable (p u off old : Nat) (s : State)

/-- Only banks of core `p` change. -/
theorem State.uncoverUnkept_frame (b : Nat) :
    Claims.CoreOnly s (s.uncoverUnkept p u off old b) p ∧ Claims.BanksOnly s (s.uncoverUnkept p u off old b) p := by
  unfold State.uncoverUnkept
  split
  · refine ⟨⟨fun q hq => State.core_modCore_other s _ hq, rfl⟩, ?_⟩
    simp only [Claims.BanksOnly, State.modBank, State.modSpad, State.core_modCore_same]
    rfl
  · exact ⟨⟨fun _ _ => rfl, rfl⟩, rfl⟩

theorem State.foldl_uncoverUnkept_frame (l : List Nat) :
    Claims.CoreOnly s (l.foldl (State.uncoverUnkept p u off old) s) p ∧ Claims.BanksOnly s (l.foldl (State.uncoverUnkept p u off old) s) p := by
  induction l generalizing s with
  | nil => exact ⟨⟨fun _ _ => rfl, rfl⟩, rfl⟩
  | cons b l ih =>
    obtain ⟨⟨hq, hs⟩, hb⟩ := s.uncoverUnkept_frame p u off old b
    obtain ⟨⟨hq', hs'⟩, hb'⟩ := ih (s.uncoverUnkept p u off old b)
    refine ⟨⟨fun q h => (hq' q h).trans (hq q h), ?_⟩, ?_⟩
    · have e := congrArg (fun x : State => { x with cores := s.cores }) hs'
      exact e.trans hs
    · have e := congrArg (fun x : Core => { x with spad := { x.spad with banks := (s.core p).spad.banks } }) hb'
      exact e.trans hb

theorem State.uncoverUnkept_now (b : Nat) : (s.uncoverUnkept p u off old b).now = s.now := by
  unfold State.uncoverUnkept; split <;> rfl

theorem State.uncoverUnkept_reg (b u' off' : Nat) : (s.uncoverUnkept p u off old b).reg u' off' = s.reg u' off' := by
  unfold State.uncoverUnkept; split <;> rfl

theorem State.uncoverUnkept_bank {b j : Nat}
    (h : (j = b ∧ bit old (16 + b) = true ∧ bit (s.reg u off) (16 + b) = false) ∨ ((s.spad p).bank j).uncoveredAt = s.now) :
    (((s.uncoverUnkept p u off old b).spad p).bank j).uncoveredAt = s.now := by
  unfold State.uncoverUnkept
  split
  · by_cases hj : j = b
    · subst hj; simp [State.spad, State.modBank, State.modSpad, Core.modSpad]
    · simpa [State.spad, State.modBank, State.modSpad, Core.modSpad, hj, Spad.bank_setBank_other] using h
  · next hc =>
    rcases h with ⟨-, h1, h2⟩ | h
    · simp [h1, h2] at hc
    · exact h

theorem State.foldl_uncoverUnkept_bank (l : List Nat) {j : Nat}
    (h : (j ∈ l ∧ bit old (16 + j) = true ∧ bit (s.reg u off) (16 + j) = false) ∨ ((s.spad p).bank j).uncoveredAt = s.now) :
    (((l.foldl (State.uncoverUnkept p u off old) s).spad p).bank j).uncoveredAt = s.now := by
  induction l generalizing s with
  | nil => simpa using h
  | cons b l ih =>
    have hnow := s.uncoverUnkept_now p u off old b
    rw [List.foldl_cons, ← hnow]
    apply ih
    rw [hnow, State.uncoverUnkept_reg]
    rcases h with ⟨hm, h1, h2⟩ | h
    · rcases List.mem_cons.1 hm with rfl | hm
      · exact .inr (s.uncoverUnkept_bank p u off old (.inl ⟨rfl, h1, h2⟩))
      · exact .inl ⟨hm, h1, h2⟩
    · exact .inr (s.uncoverUnkept_bank p u off old (.inr h))

end

/-- A write of SPAD_CTRL (R116). -/
theorem State.coreWrite_spadCtrl (s : State) (p v m : Nat) (r : RegRow) (hf : r.off ≠ rTASK_FAULT) :
    s.coreWrite p r rSPAD_CTRL v m =
      (List.range 16).foldl (State.uncoverUnkept p (unitCore p) rSPAD_CTRL (s.reg (unitCore p) rSPAD_CTRL))
        (s.plainWrite (unitCore p) r rSPAD_CTRL v m) := by
  have h0 : rSPAD_CTRL ≠ rCORE_CTRL := by decide
  simp only [State.coreWrite, if_neg h0, if_neg hf, if_true]
  rfl

/-! Thresholds. -/

/-- The thresholds of MESH_THROTTLE_CFG are in order (R219, R221). -/
def thresholdsOk (x : Nat) : Bool :=
  decide (1 ≤ field x 0 7) && decide (field x 0 7 < field x 8 7) && decide (field x 8 7 < field x 16 7) && decide (field x 16 7 ≤ 100)

theorem thresholdsOk_iff (x : Nat) :
    thresholdsOk x = true ↔ 1 ≤ field x 0 7 ∧ field x 0 7 < field x 8 7 ∧ field x 8 7 < field x 16 7 ∧ field x 16 7 ≤ 100 := by
  simp [thresholdsOk, and_assoc]

/-- A write of MESH_THROTTLE_CFG (R219, R221). -/
theorem State.coreWrite_throttleCfg (s : State) (p v m : Nat) (r : RegRow) (hf : r.off ≠ rTASK_FAULT) :
    s.coreWrite p r rMESH_THROTTLE_CFG v m =
      (s.checkedWrite (unitCore p) r rMESH_THROTTLE_CFG v m thresholdsOk).noteDepth (p / 50) (p % 50) := by
  have h : rMESH_THROTTLE_CFG ≠ rCORE_CTRL ∧ rMESH_THROTTLE_CFG ≠ rSPAD_CTRL ∧ rMESH_THROTTLE_CFG ≠ rSPAD_BANK_PWR
      ∧ rMESH_THROTTLE_CFG ≠ rSPAD_BANK_STATUS ∧ rMESH_THROTTLE_CFG ≠ rSPAD_ECC_LAST ∧ rMESH_THROTTLE_CFG ≠ rSPAD_NACK_LAST
      ∧ rMESH_THROTTLE_CFG ≠ rMXU_LAST_ERROR ∧ rMESH_THROTTLE_CFG ≠ rVEC_LAST_ERROR ∧ rMESH_THROTTLE_CFG ≠ rVEC_QOVF
      ∧ rMESH_THROTTLE_CFG ≠ rSPAD_CREDIT_TTL := by decide
  obtain ⟨h1, h2, h3, h4, h5, h6, h7, h8, h9, h10⟩ := h
  simp only [State.coreWrite, h1, h2, h3, h4, h5, h6, h7, h8, h9, h10, hf, or_self, if_false, if_true]
  rfl

@[simp] theorem State.reg_noteDepth (s : State) (site r u off : Nat) : (s.noteDepth site r).reg u off = s.reg u off := rfl

/-- A router whose throttle is off is at level 0. -/
theorem State.level_noteDepth_of_off (s : State) (p : Nat) (h : (s.reg (unitCore p) rMESH_THROTTLE_CFG).testBit 31 = false) :
    SMap.get 0 (s.noteDepth (p / 50) (p % 50)).mesh.level p = 0 := by
  have hp : p / 50 * 50 + p % 50 = p := Nat.div_add_mod' p 50
  simp [State.noteDepth, hp, bit, h]

/-! The rows. -/

theorem regRow?_spadCtrl :
    (regRow? 0 rSPAD_CTRL).map (fun r => (r.off, r.rw, r.w1c)) = some (rSPAD_CTRL, 0xFFFF0003, 0) := by decide +kernel

theorem regRow?_throttleCfg :
    (regRow? 0 rMESH_THROTTLE_CFG).map (fun r => (r.off, r.rw, r.w1c)) = some (rMESH_THROTTLE_CFG, 0x807F7F7F, 0) := by decide +kernel

/-- Without W1C bits a write changes the RW bits alone. -/
theorem RegRow.testBit_written_of_no_w1c {r : RegRow} (old v : Nat) {i : Nat} (hi : i < 64) (h : r.w1c = 0) :
    (r.written old v (2 ^ 64 - 1)).testBit i = if r.rw.testBit i = true then v.testBit i else old.testBit i := by
  rw [RegRow.testBit_written, testBit_and_wordMask _ hi, h]
  simp

/-- The fields of SPAD_CTRL that a write sets. -/
theorem State.testBit_plainWrite_spadCtrl (s : State) (u v : Nat) {r : RegRow} (hrw : r.rw = 0xFFFF0003) (hw1c : r.w1c = 0) {i : Nat}
    (hi : i < 64) :
    ((s.plainWrite u r rSPAD_CTRL v (2 ^ 64 - 1)).reg u rSPAD_CTRL).testBit i =
      if i < 2 ∨ 16 ≤ i ∧ i < 32 then v.testBit i else (s.reg u rSPAD_CTRL).testBit i := by
  have hmask : ∀ j : Fin 64, (0xFFFF0003 : Nat).testBit j.val = true ↔ j.val < 2 ∨ 16 ≤ j.val ∧ j.val < 32 := by decide
  rw [State.plainWrite, State.reg_putReg_same, State.heldBits_of_no_w1c _ _ _ _ hw1c, RegRow.testBit_written_of_no_w1c _ _ hi hw1c, hrw]
  simp only [hmask ⟨i, hi⟩]

/-- The fields of MESH_THROTTLE_CFG that a write sets: the thresholds and the enable. -/
theorem RegRow.written_throttleCfg {r : RegRow} (hrw : r.rw = 0x807F7F7F) (hw1c : r.w1c = 0) (old v : Nat) :
    field (r.written old v (2 ^ 64 - 1)) 0 7 = field v 0 7 ∧ field (r.written old v (2 ^ 64 - 1)) 8 7 = field v 8 7
      ∧ field (r.written old v (2 ^ 64 - 1)) 16 7 = field v 16 7 ∧ (r.written old v (2 ^ 64 - 1)).testBit 31 = v.testBit 31 := by
  have hbit : ∀ i, i < 64 → (0x807F7F7F : Nat).testBit i = true → (r.written old v (2 ^ 64 - 1)).testBit i = v.testBit i := by
    intro i hi hm
    rw [RegRow.testBit_written_of_no_w1c _ _ hi hw1c, hrw, if_pos hm]
  have hmask : ∀ i : Fin 23, i.val % 8 ≠ 7 → (0x807F7F7F : Nat).testBit i.val = true := by decide
  refine ⟨?_, ?_, ?_, hbit 31 (by decide) (by decide)⟩
  all_goals exact field_congr fun i _ _ => hbit i (by omega) (hmask ⟨i, by omega⟩ (by simp only; omega))

end Sys2Proof.Machine

namespace Sys2Proof.Claims

open Sys2Proof.Machine

theorem BanksOnly.bytes_wins {s t : State} {p : Nat} (h : BanksOnly s t p) :
    (t.spad p).bytes = (s.spad p).bytes ∧ (t.spad p).wins = (s.spad p).wins := by
  have hbytes := congrArg (fun x : Core => x.spad.bytes) h
  have hwins := congrArg (fun x : Core => x.spad.wins) h
  exact ⟨hbytes, hwins⟩

section
variable {s : State} {c : CoreIx} {off : BitVec 16} {r : RegRow} (h : CoreRegister s c off r)
include h

theorem CoreRegister.row_of_map {o : Nat} {x : Nat × Nat × Nat} (ho : off.toNat = o)
    (hx : (regRow? 0 o).map (fun r => (r.off, r.rw, r.w1c)) = some x) : r.off = x.1 ∧ r.rw = x.2.1 ∧ r.w1c = x.2.2 := by
  rw [← ho, h.row] at hx
  cases hx
  exact ⟨rfl, rfl, rfl⟩

/-- R116: a write of SPAD_CTRL, and the banks that it keeps no longer. -/
theorem CoreRegister.write_spadCtrl (v : BitVec 64) (ho : off.toNat = rSPAD_CTRL) :
    ∃ t, exec (.registerWrite (.core c off) true v) s = .next t
      ∧ (∀ i, i < 64 → (t.reg (unitCore c.val) rSPAD_CTRL).testBit i =
          if i < 2 ∨ 16 ≤ i ∧ i < 32 then v.getLsbD i else (s.reg (unitCore c.val) rSPAD_CTRL).testBit i)
      ∧ (∀ b, b < 16 → (s.reg (unitCore c.val) rSPAD_CTRL).testBit (16 + b) = true → v.getLsbD (16 + b) = false →
          ((t.spad c.val).bank b).uncoveredAt = s.now)
      ∧ (t.spad c.val).bytes = (s.spad c.val).bytes ∧ (t.spad c.val).wins = (s.spad c.val).wins
      ∧ (∀ q, q ≠ c.val → t.core q = s.core q) ∧ { t with regs := s.regs, cores := s.cores } = s := by
  obtain ⟨hoff, hrw, hw1c⟩ := h.row_of_map ho regRow?_spadCtrl
  have hbits := fun i hi => s.testBit_plainWrite_spadCtrl (unitCore c.val) v.toNat hrw hw1c (i := i) hi
  have hexec := h.execRegisterWrite_eq v
  rw [ho, State.coreWrite_spadCtrl _ _ _ _ _ (by rw [hoff]; decide)] at hexec
  obtain ⟨⟨hcores, hrest⟩, hbanks⟩ := (s.plainWrite (unitCore c.val) r rSPAD_CTRL v.toNat (2 ^ 64 - 1)).foldl_uncoverUnkept_frame c.val
    (unitCore c.val) rSPAD_CTRL (s.reg (unitCore c.val) rSPAD_CTRL) (List.range 16)
  have hreg := congrArg (fun x : State => x.reg (unitCore c.val) rSPAD_CTRL) hrest
  refine ⟨_, hexec, fun i hi => (congrArg (fun x => x.testBit i) hreg).trans ((hbits i hi).trans (by rw [BitVec.testBit_toNat])), fun b hb h1 h2 => ?_,
    hbanks.bytes_wins.1, hbanks.bytes_wins.2, hcores,
    congrArg (fun x : State => { x with regs := s.regs }) hrest⟩
  refine State.foldl_uncoverUnkept_bank _ _ _ _ _ _ (.inl ⟨List.mem_range.2 hb, h1, ?_⟩)
  rw [bit, hbits _ (by omega), if_pos (by omega), BitVec.testBit_toNat, h2]

/-- R219, R221: a write of MESH_THROTTLE_CFG. -/
theorem CoreRegister.write_throttleCfg (v : BitVec 64) (t1 t2 t3 : Nat) (ho : off.toNat = rMESH_THROTTLE_CFG)
    (h1 : t1 = field v.toNat 0 7) (h2 : t2 = field v.toNat 8 7) (h3 : t3 = field v.toNat 16 7) :
    (1 ≤ t1 → t1 < t2 → t2 < t3 → t3 ≤ 100 → ∃ t, exec (.registerWrite (.core c off) true v) s = .next t
      ∧ t.fld (unitCore c.val) rMESH_THROTTLE_CFG 0 7 = t1 ∧ t.fld (unitCore c.val) rMESH_THROTTLE_CFG 8 7 = t2
      ∧ t.fld (unitCore c.val) rMESH_THROTTLE_CFG 16 7 = t3
      ∧ (t.reg (unitCore c.val) rMESH_THROTTLE_CFG).testBit 31 = v.getLsbD 31
      ∧ (v.getLsbD 31 = false → SMap.get 0 t.mesh.level c.val = 0)
      ∧ { t with regs := s.regs, mesh := s.mesh } = s)
    ∧ (¬ (1 ≤ t1 ∧ t1 < t2 ∧ t2 < t3 ∧ t3 ≤ 100) → ∃ t, exec (.registerWrite (.core c off) true v) s = .next t
      ∧ { t with mesh := s.mesh } = s) := by
  obtain ⟨hoff, hrw, hw1c⟩ := h.row_of_map ho regRow?_throttleCfg
  subst h1 h2 h3
  have hexec := h.execRegisterWrite_eq v
  rw [ho, State.coreWrite_throttleCfg _ _ _ _ _ (by rw [hoff]; decide), State.checkedWrite, State.plainWrite,
    State.heldBits_of_no_w1c _ _ _ _ hw1c] at hexec
  obtain ⟨f1, f2, f3, f31⟩ := RegRow.written_throttleCfg hrw hw1c (s.reg (unitCore c.val) rMESH_THROTTLE_CFG) v.toNat
  have hok := thresholdsOk_iff (r.written (s.reg (unitCore c.val) rMESH_THROTTLE_CFG) v.toNat (2 ^ 64 - 1))
  rw [f1, f2, f3] at hok
  generalize r.written (s.reg (unitCore c.val) rMESH_THROTTLE_CFG) v.toNat (2 ^ 64 - 1) = w at hexec f1 f2 f3 f31 hok
  constructor
  · intro k1 k2 k3 k4
    rw [if_pos (hok.2 ⟨k1, k2, k3, k4⟩)] at hexec
    refine ⟨_, hexec, ?_, ?_, ?_, ?_, fun hv => ?_, rfl⟩
    · simpa [State.fld] using f1
    · simpa [State.fld] using f2
    · simpa [State.fld] using f3
    · rw [State.reg_noteDepth, State.reg_putReg_same, f31, BitVec.testBit_toNat]
    · exact State.level_noteDepth_of_off _ _ (by rw [State.reg_putReg_same, f31, BitVec.testBit_toNat, hv])
  · intro hno
    rw [if_neg (mt hok.1 hno)] at hexec
    exact ⟨_, hexec, rfl⟩

end

end Sys2Proof.Claims

/-!
SUPPORT. Writes of RWT registers into the shadow set (R6, R276).
-/
namespace Sys2Proof.Machine

theorem ConfigSet.foldl_regs {f : ConfigSet → Nat → ConfigSet} (h : ∀ c i, (f c i).regs = c.regs) (l : List Nat) (c : ConfigSet) :
    (l.foldl f c).regs = c.regs := by
  induction l generalizing c with
  | nil => rfl
  | cons i l ih => exact (ih (f c i)).trans (h c i)

theorem ConfigSet.setItem_regs (c : ConfigSet) (ty i : Nat) (e : List Byte) : (c.setItem ty i e).regs = c.regs := rfl

/-- A direct write shows in the entries of a set, and touches no register. -/
theorem ConfigSet.noteRwt_regs (c : ConfigSet) (u off : Nat) : (c.noteRwt u off).regs = c.regs := by
  unfold ConfigSet.noteRwt
  rw [ConfigSet.foldl_regs fun c i => by split <;> rfl, apply_ite ConfigSet.regs, ConfigSet.setItem_regs, ite_self]
  split
  · exact ConfigSet.foldl_regs (fun c i => by split <;> rfl) _ c
  · rfl

theorem ConfigSet.reg_noteRwt (c : ConfigSet) (u off : Nat) : (c.noteRwt u off).reg u off = c.reg u off := by
  rw [ConfigSet.reg, ConfigSet.noteRwt_regs, ConfigSet.reg]

theorem ConfigSet.putRwt_of_accepts (c : ConfigSet) (u off v : Nat) (h : c.accepts u off v = true) :
    c.putRwt u off v = c.setReg u off (c.reg u off - (c.reg u off &&& rwtMask u off) + (v &&& rwtMask u off)) := by
  simp [ConfigSet.putRwt, h]

/-- While a tack is pending a write changes nothing but the count of such writes (R276). -/
theorem State.writeRwt_locked (s : State) (u off v : Nat) (hd : s.tackDue = false) (hp : s.cfg.pending = true)
    (hs : s.cfg.swappedAt ≠ some s.now) :
    s.writeRwt u off v = { s with cfg := { s.cfg with lockedWrites := satAdd 16 s.cfg.lockedWrites 1 } } := by
  simp [State.writeRwt, hd, hp, hs]

theorem State.writeRwt_open (s : State) (u off v : Nat) (hd : s.tackDue = false)
    (hp : s.cfg.pending = false ∨ s.cfg.swappedAt = some s.now) (hg : isGenerated u off = false)
    (ha : s.shadow.accepts u off v = true) :
    s.writeRwt u off v =
      { s with shadow := (s.shadow.putRwt u off v).noteRwt u off, cfg := { s.cfg with isSealed := false } } := by
  have hlock : (s.cfg.pending && s.cfg.swappedAt != some s.now) = false := by
    rcases hp with h | h <;> simp [h]
  simp [State.writeRwt, hd, hlock, hg, ha]

end Sys2Proof.Machine

namespace Sys2Proof.Claims

open Sys2Proof.Machine

section
variable {s : State} {e : Fin 10} {off : BitVec 40} {r : RegRow} (h : RwtRegister s (unitEdge e.val) off.toNat r) (he : e.val ≠ 8)
include h he

/-- Its write is a write of RWT bits and nothing else. -/
theorem RwtRegister.execRwtWrite_eq (v : BitVec 64) :
    execRwtWrite (.edge e off) true v s = .next (s.writeRwt (unitEdge e.val) off.toNat v.toNat) := by
  obtain ⟨hr, h8, ho, hrwt, hrw, hw1c, hw1s, hwo, -, hlt⟩ := h
  have hu : unitEdge e.val ≠ unitHost := fun k => he (Nat.add_left_cancel k)
  have hmask : r.rwt &&& (2 ^ 64 - 1) = r.rwt := Nat.and_two_pow_sub_one_of_lt_two_pow (regRows_rwt_lt r (mem_regRows_of_regRow? hr))
  have hall : s.shadow.reg (unitEdge e.val) off.toNat &&& (2 ^ 64 - 1) = s.shadow.reg (unitEdge e.val) off.toNat :=
    Nat.and_two_pow_sub_one_of_lt_two_pow hlt
  have hv : v.toNat &&& (2 ^ 64 - 1) = v.toNat := Nat.and_two_pow_sub_one_of_lt_two_pow v.isLt
  rw [execRwtWrite_edge s e off v ho, State.regWrite_of_row hu ho _ hr h8]
  simp only [State.writeFull, hmask, hall, hv, Nat.sub_self, Nat.zero_add, hrw, hw1c, hw1s, hwo, Nat.or_self, and_true,
    ne_eq, hrwt, not_false_eq_true, if_true, if_false]

/-- R6, R276: the write lands in the shadow set. -/
theorem RwtRegister.write_shadow (v : BitVec 64) (hd : s.tackDue = false) (hp : s.cfg.pending = false ∨ s.cfg.swappedAt = some s.now)
    (ha : s.shadow.accepts (unitEdge e.val) off.toNat v.toNat = true) :
    ∃ t, exec (.rwtWrite (.edge e off) true v) s = .next t
      ∧ (∀ i, i < 64 → (t.shadow.reg (unitEdge e.val) off.toNat).testBit i =
          if r.rwt.testBit i = true then v.getLsbD i else (s.shadow.reg (unitEdge e.val) off.toNat).testBit i)
      ∧ t.cfg.isSealed = false ∧ t.active = s.active
      ∧ { t with shadow := s.shadow, cfg := { t.cfg with isSealed := s.cfg.isSealed } } = s := by
  have hexec := h.execRwtWrite_eq he v
  obtain ⟨hr, -, -, -, -, -, -, -, hgen, -⟩ := h
  rw [State.writeRwt_open s _ _ _ hd hp hgen ha] at hexec
  refine ⟨_, hexec, fun i _ => ?_, rfl, rfl, rfl⟩
  have hmask : rwtMask (unitEdge e.val) off.toNat = r.rwt := by rw [rwtMask, hr]; rfl
  show (ConfigSet.reg (ConfigSet.noteRwt _ _ _) _ _).testBit i = _
  rw [ConfigSet.reg_noteRwt, ConfigSet.putRwt_of_accepts _ _ _ _ ha, ConfigSet.reg_setReg_same, testBit_sub_and_add, hmask,
    BitVec.testBit_toNat]

end

end Sys2Proof.Claims

/-!
PROOFS. The claims about register accesses (O26).
-/
namespace Sys2Proof.Claims

open Sys2Proof.Machine

theorem registerReads : RegisterReads := by
  intro s c off r size wide
  refine ⟨fun h => h.read_clears_roc, fun old b n h _ hroc hw hn => h.read_keeps_events hroc hw hn, fun hr hr4 ho => ?_, fun hd => ?_⟩
  · rw [exec_rocRead, execRocRead_core s c off ho, State.regRead_reserved (unitCore_ne_unitHost c) ho hr hr4]
  · simp [execRocRead, State.serves, hd]

theorem registerWrites : RegisterWrites := by
  intro s c off r v size wide
  refine ⟨fun h => h.write_by_codes v, fun h => h.write_spadCtrl v, fun t1 t2 t3 h => h.write_throttleCfg v t1 t2 t3,
    fun hr hr4 ho => ?_, fun hd hm hs => ?_⟩
  · rw [exec_registerWrite, execRegisterWrite_core s c off v ho, State.regWrite_reserved (unitCore_ne_unitHost c) ho _ hr hr4]
  · have hseg : v.toNat % segSize = 0 := hm
    cases size with
    | false => simp [execRegisterWrite, when, State.serves, hd, hseg]
    | true =>
      have hle : v.toNat ≤ 1099511627776 := hs rfl
      simp [execRegisterWrite, when, State.serves, hd, hseg, hle]

theorem shadowWrites : ShadowWrites := by
  intro s e off r v h he hd
  refine ⟨h.write_shadow he v hd, fun hp hs => ?_⟩
  rw [exec_rwtWrite, h.execRwtWrite_eq he, State.writeRwt_locked s _ _ _ hd hp hs, satAdd]

theorem windowAccesses : WindowAccesses := by
  intro s x c off d l a v hx ha hd
  have hread : execPanelRegisterWindow x 8 none s = .next (s.windowRead x.toNat 8) := by
    simp [execPanelRegisterWindow, accessOk, hx, hd]
  have hwrite : execPanelRegisterWindow x 8 (some v) s = .next (s.windowWrite x.toNat 8 v.toNat) := by
    simp [execPanelRegisterWindow, when, accessOk, hx, hd]
  subst ha
  refine ⟨fun ht hc ho => ?_, fun ht => ⟨?_, ?_⟩⟩
  · have hreg : s.regTarget (.coreReg d l off.toNat) = some (unitCore c.val, off.toNat) := by simp [State.regTarget, hc]
    refine ⟨⟨_, hread, ?_⟩, ⟨_, hwrite, ?_⟩⟩
    · rw [exec_rocRead, execRocRead_core s c off ho]
      simp only [State.windowRead, ht, Option.bind_some, hreg, State.readAt_unitCore]
    · rw [exec_registerWrite, execRegisterWrite_core s c off v ho]
      simp only [State.windowWrite, ht, Option.bind_some, hreg]
  · rw [exec_panelRegisterWindow, hread]
    simp [State.windowRead, ht, allOnes]
  · rw [exec_panelRegisterWindow, hwrite]
    simp [State.windowWrite, ht]

/-- The identity reads the same in every state. -/
theorem configValue_of_mem_configIdentity (s : State) : ∀ p ∈ configIdentity, s.configValue p.1 = p.2 := by
  simp [configIdentity, State.configValue, cxlDvsecs, b2n]

theorem powerState_notMem_configIdentity : ∀ p ∈ configIdentity, p.1 ≠ .powerState := by decide

theorem configWrite_of_ne_powerState (s : State) (f : ConfigField) (v : Nat) (h : f ≠ .powerState) : s.configWrite f v = s := by
  unfold State.configWrite
  split
  · exact absurd rfl h
  · rfl

theorem configurationSpace : ConfigurationSpace := by
  intro s wide v off size
  refine ⟨fun f x hf => ?_, rfl, rfl, rfl, fun hd => ⟨?_, ?_, ?_⟩⟩
  · have hvalue : s.configValue f = x := configValue_of_mem_configIdentity s _ hf
    subst hvalue
    exact ⟨rfl, congrArg Host.Outcome.next (configWrite_of_ne_powerState s f v.toNat (powerState_notMem_configIdentity _ hf))⟩
  · simp [execRegisterWrite, State.serves, throughBar, hd]
  · simp [execRegisterWrite, State.serves, throughBar, when, hd]
  · exact ⟨allOnes (Machine.accessBytes wide), by simp [execRocRead, State.serves, throughBar, hd]⟩

/-- Settles O26: each claim goes from the command to the register store once, and then by the bits of the access codes. -/
theorem registerAccess : Obligations.RegisterAccess :=
  ⟨registerReads, registerWrites, shadowWrites, windowAccesses, configurationSpace⟩

/-- Settles O59: the reset state lists no byte of any memory. -/
theorem resetMemories : Obligations.ResetMemories :=
  ⟨State.memoriesCanonical_reset, fun _ => rfl, fun _ _ => rfl, fun _ _ => rfl⟩

end Sys2Proof.Claims

/-!
SUPPORT. Fields of registers: what a write of some bits leaves of the others (R5), and the bits that a number has.
-/
namespace Sys2Proof.Machine

/-! Fields. -/

/-- A write of a field, bit by bit. -/
theorem testBit_setField (x lo w v i : Nat) :
    (setField x lo w v).testBit i = if lo ≤ i ∧ i < lo + w then v.testBit (i - lo) else x.testBit i := by
  have hmask (j : Nat) : ((2 ^ w - 1) * 2 ^ lo).testBit j = decide (lo ≤ j ∧ j < lo + w) := by
    rw [Nat.testBit_mul_two_pow, Nat.testBit_two_pow_sub_one]
    by_cases h : lo ≤ j <;> simp [h]; omega
  have hold : field x lo w * 2 ^ lo = x &&& ((2 ^ w - 1) * 2 ^ lo) := Nat.eq_of_testBit_eq fun j => by
    rw [Nat.testBit_mul_two_pow, Nat.testBit_and, hmask, field, Nat.testBit_mod_two_pow, Nat.testBit_shiftRight]
    by_cases h : lo ≤ j
    · rw [Nat.add_sub_cancel' h]
      by_cases hw : j < lo + w <;> simp [h, hw] <;> omega
    · simp [h]
  have hnew : v % 2 ^ w * 2 ^ lo = (v * 2 ^ lo) &&& ((2 ^ w - 1) * 2 ^ lo) := Nat.eq_of_testBit_eq fun j => by
    rw [Nat.testBit_mul_two_pow, Nat.testBit_and, hmask, Nat.testBit_mod_two_pow, Nat.testBit_mul_two_pow]
    by_cases h : lo ≤ j
    · by_cases hw : j < lo + w <;> simp [h, hw] <;> omega
    · simp [h]
  rw [setField, hold, hnew, testBit_sub_and_add, hmask]
  by_cases h : lo ≤ i ∧ i < lo + w
  · simp [h, Nat.testBit_mul_two_pow]
  · simp [h]

theorem testBit_field (x lo w i : Nat) : (field x lo w).testBit i = (decide (i < w) && x.testBit (lo + i)) := by
  rw [field, Nat.testBit_mod_two_pow, Nat.testBit_shiftRight]

@[simp] theorem field_setField_same (x lo w v : Nat) : field (setField x lo w v) lo w = v % 2 ^ w :=
  Nat.eq_of_testBit_eq fun i => by
    rw [testBit_field, testBit_setField, Nat.testBit_mod_two_pow]
    by_cases h : i < w <;> simp [h]

/-- A write of other bits leaves a field. -/
theorem field_setField_apart (x v : Nat) {lo w lo' w' : Nat} (h : lo' + w' ≤ lo ∨ lo + w ≤ lo') :
    field (setField x lo w v) lo' w' = field x lo' w' :=
  field_congr fun i h1 h2 => by rw [testBit_setField, if_neg (by omega)]

theorem field_bit (x i : Nat) : field x i 1 = b2n (x.testBit i) := by
  rw [field, Nat.pow_one, Nat.shiftRight_eq_div_pow, Nat.testBit_eq_decide_div_mod_eq, b2n]
  have := Nat.mod_lt (x / 2 ^ i) (by decide : 2 > 0)
  split
  next h => simpa using h
  next h => have : x / 2 ^ i % 2 ≠ 1 := by simpa using h
            omega

theorem field_bit_eq_one {x i : Nat} : field x i 1 = 1 ↔ x.testBit i = true := by
  rw [field_bit]; cases x.testBit i <;> simp [b2n]

/-- A saturating count by one (R6). -/
theorem satAdd_one (w x : Nat) : satAdd w x 1 = Nat.min (2 ^ w - 1) (x + 1) := by
  have := Nat.two_pow_pos w
  show _ = min _ _
  unfold satAdd; split <;> omega

/-! The bits of a number. -/

theorem mem_bitsOf {n x k : Nat} : k ∈ bitsOf n x ↔ k < n ∧ x.testBit k = true := by
  simp [bitsOf]

/-- One bit less. -/
theorem length_bitsOf_clear {n x y k : Nat} (hk : k < n) (hx : x.testBit k = true)
    (hy : ∀ j, j < n → y.testBit j = (x.testBit j && j != k)) : (bitsOf n y).length + 1 = (bitsOf n x).length := by
  have hmem : k ∈ bitsOf n x := mem_bitsOf.2 ⟨hk, hx⟩
  have hnodup : (bitsOf n x).Nodup := List.nodup_range.filter _
  have herase : bitsOf n y = (bitsOf n x).erase k := by
    rw [hnodup.erase_eq_filter, bitsOf, bitsOf, List.filter_filter]
    exact List.filter_congr fun j hj => by rw [hy j (List.mem_range.1 hj), Bool.and_comm]
  rw [herase, List.length_erase_of_mem hmem]
  have := List.length_pos_of_mem hmem
  omega

/-- With one bit of a field cleared, the field has one bit less. -/
theorem length_bitsOf_field_clear {x lo w n k : Nat} (hk : k < n) (hn : n ≤ w) (hx : field x (lo + k) 1 = 1) :
    (bitsOf n (field (setField x (lo + k) 1 0) lo w)).length + 1 = (bitsOf n (field x lo w)).length := by
  refine length_bitsOf_clear hk ?_ fun j hj => ?_
  · rw [testBit_field, decide_eq_true (Nat.lt_of_lt_of_le hk hn), field_bit_eq_one.1 hx]; rfl
  · rw [testBit_field, testBit_field, testBit_setField]
    by_cases h : j = k
    · subst h; simp
    · have hne : ¬(lo + k ≤ lo + j ∧ lo + j < lo + k + 1) := by omega
      rw [if_neg hne, bne_iff_ne.2 h, Bool.and_true]

theorem mem_insertAsc {x y : Nat} {l : List Nat} : y ∈ insertAsc x l ↔ y = x ∨ y ∈ l := by
  induction l with
  | nil => simp [insertAsc]
  | cons z l ih =>
    simp only [insertAsc]
    split
    · simp
    · split
      next h => subst h; simp
      next => simp [ih, or_left_comm]

end Sys2Proof.Machine

/-!
SUPPORT. Hardware's writes of registers and of their fields: the register written, its other fields, and every other register.
-/
namespace Sys2Proof.Machine

/-! Keys. -/

theorem regKey_ne_of_off {u u' off off' : Nat} (ho : off < 2 ^ 32) (ho' : off' < 2 ^ 32) (h : off ≠ off') :
    regKey u off ≠ regKey u' off' := by simp only [regKey]; omega

theorem regKey_ne_of_unit {u u' off off' : Nat} (ho : off < 2 ^ 32) (ho' : off' < 2 ^ 32) (h : u ≠ u') :
    regKey u off ≠ regKey u' off' := by simp only [regKey]; omega

/-! Registers. -/

variable (s : State)

@[simp] theorem State.reg_setReg_same (u off v : Nat) : (s.setReg u off v).reg u off = v := State.reg_putReg_same _ _ _ _

theorem State.reg_setReg_other {u off u' off' : Nat} (v : Nat) (h : regKey u off ≠ regKey u' off') :
    (s.setReg u' off' v).reg u off = s.reg u off := State.get_regs_putReg_other _ _ _ h

@[simp] theorem State.reg_setFld_same (u off lo w v : Nat) :
    (s.setFld u off lo w v).reg u off = setField (s.reg u off) lo w v := State.reg_putReg_same _ _ _ _

theorem State.reg_setFld_other {u off u' off' : Nat} (lo w v : Nat) (h : regKey u off ≠ regKey u' off') :
    (s.setFld u' off' lo w v).reg u off = s.reg u off := State.get_regs_putReg_other _ _ _ h

@[simp] theorem State.reg_bump_same (u off lo w n : Nat) :
    (s.bump u off lo w n).reg u off = setField (s.reg u off) lo w (satAdd w (s.fld u off lo w) n) :=
  State.reg_putReg_same _ _ _ _

theorem State.reg_bump_other {u off u' off' : Nat} (lo w n : Nat) (h : regKey u off ≠ regKey u' off') :
    (s.bump u' off' lo w n).reg u off = s.reg u off := State.get_regs_putReg_other _ _ _ h

/-! Fields. -/

theorem State.fld_congr {s t : State} {u off : Nat} (h : t.reg u off = s.reg u off) (lo w : Nat) :
    t.fld u off lo w = s.fld u off lo w := congrArg (field · lo w) h

@[simp] theorem State.fld_setReg_same (u off v lo w : Nat) : (s.setReg u off v).fld u off lo w = field v lo w :=
  congrArg (field · lo w) (s.reg_setReg_same u off v)

@[simp] theorem State.fld_setFld_same (u off lo w v : Nat) : (s.setFld u off lo w v).fld u off lo w = v % 2 ^ w := by
  simp [State.fld]

theorem State.fld_setFld_apart (u off v : Nat) {lo w lo' w' : Nat} (h : lo' + w' ≤ lo ∨ lo + w ≤ lo') :
    (s.setFld u off lo w v).fld u off lo' w' = s.fld u off lo' w' := by
  simp [State.fld, field_setField_apart _ _ h]

theorem State.fld_setFld_other {u off u' off' : Nat} (lo w v lo' w' : Nat) (h : regKey u off ≠ regKey u' off') :
    (s.setFld u' off' lo w v).fld u off lo' w' = s.fld u off lo' w' := State.fld_congr (s.reg_setFld_other lo w v h) _ _

theorem State.fld_bump_same (u off lo w : Nat) :
    (s.bump u off lo w 1).fld u off lo w = Nat.min (2 ^ w - 1) (s.fld u off lo w + 1) := by
  have := Nat.two_pow_pos w
  rw [State.fld, State.reg_bump_same, field_setField_same, satAdd_one, Nat.mod_eq_of_lt]
  show min _ _ < _
  omega

/-- A count of 16 bits. -/
theorem State.fld_bump_same16 (u off lo : Nat) :
    (s.bump u off lo 16 1).fld u off lo 16 = Nat.min 65535 (s.fld u off lo 16 + 1) := s.fld_bump_same u off lo 16

theorem State.fld_bump_other {u off u' off' : Nat} (lo w n lo' w' : Nat) (h : regKey u off ≠ regKey u' off') :
    (s.bump u' off' lo w n).fld u off lo' w' = s.fld u off lo' w' := State.fld_congr (s.reg_bump_other lo w n h) _ _

/-- The phases or other parts that a field shows, one of them gone. -/
theorem State.length_bitsOf_setFld_clear (u off : Nat) {lo w n k : Nat} (hk : k < n) (hn : n ≤ w) (h : s.fld u off (lo + k) 1 = 1) :
    (bitsOf n ((s.setFld u off (lo + k) 1 0).fld u off lo w)).length + 1 = (bitsOf n (s.fld u off lo w)).length := by
  simpa only [State.fld, State.reg_setFld_same] using length_bitsOf_field_clear hk hn h

end Sys2Proof.Machine

/-!
SUPPORT. What the raising of an event leaves (R371), and what a running shutdown or reset of the module does to the registers.
-/
namespace Sys2Proof.Machine

/-- The registers other than `HOST_LINK`, and all but events, interrupts and host memory, are the same. -/
structure State.EventsOnly (s t : State) : Prop where
  rest : ({ t with regs := s.regs, hw := s.hw, events := s.events, msix := s.msix, hostMem := s.hostMem } : State) = s
  reg : ∀ u off, regKey u off ≠ regKey unitBar rHOST_LINK → t.reg u off = s.reg u off

namespace State.EventsOnly

variable {s t u : State}

theorem refl (s : State) : s.EventsOnly s := ⟨rfl, fun _ _ _ => rfl⟩

theorem trans (h : s.EventsOnly t) (k : t.EventsOnly u) : s.EventsOnly u :=
  ⟨(congrArg (fun x : State => { x with regs := s.regs, hw := s.hw, events := s.events, msix := s.msix, hostMem := s.hostMem })
      k.rest).trans h.rest, fun v off hk => (k.reg v off hk).trans (h.reg v off hk)⟩

theorem ite {c : Prop} [Decidable c] (h : s.EventsOnly t) (k : s.EventsOnly u) : s.EventsOnly (if c then t else u) := by
  split
  · exact h
  · exact k

theorem of_regs (hr : t.regs = s.regs) (h : ({ t with events := s.events, msix := s.msix, hostMem := s.hostMem } : State) = s) :
    s.EventsOnly t :=
  ⟨congrArg (fun x : State => { x with regs := s.regs, hw := s.hw }) h, fun _ _ _ => by rw [State.reg, State.reg, hr]⟩

theorem field_eq {β : Type} (h : s.EventsOnly t) (f : State → β)
    (hf : f { t with regs := s.regs, hw := s.hw, events := s.events, msix := s.msix, hostMem := s.hostMem } = f t) : f t = f s :=
  hf.symm.trans (congrArg f h.rest)

end State.EventsOnly

variable (s : State)

theorem State.signal_eventsOnly (v : Nat) : s.EventsOnly (s.signal v) := by
  unfold State.signal
  exact .ite (.refl s) (.ite (.of_regs rfl rfl) (.of_regs rfl rfl))

/-- A count of hardware in one register. -/
theorem State.bump_rest (u off lo w n : Nat) : ({ s.bump u off lo w n with
    regs := s.regs, hw := s.hw, events := s.events, msix := s.msix, hostMem := s.hostMem } : State) = s := rfl
@[simp] theorem State.bump_events (u off lo w n : Nat) : (s.bump u off lo w n).events = s.events := rfl

theorem State.hostRefused_eventsOnly : s.EventsOnly s.hostRefused :=
  ⟨s.bump_rest unitBar rHOST_LINK 32 32 1, fun _ _ hk => s.reg_bump_other _ _ _ hk⟩

theorem State.loseEvent_eventsOnly (e : Event) : s.EventsOnly (s.loseEvent e) := .of_regs rfl rfl

theorem State.ringWrite_eventsOnly (r : Ring) (e : Event) : s.EventsOnly (s.ringWrite r e) := by
  unfold State.ringWrite
  have h (x : Events) : s.EventsOnly { s.writeHost (r.base + 32 * s.events.tail) (e.bytes s.events.phase) with events := x } :=
    .of_regs rfl rfl
  exact .ite ((h _).trans (State.signal_eventsOnly _ _)) (h _)

theorem State.publish_eventsOnly (e : Event) : s.EventsOnly (s.publish e) := by
  unfold State.publish
  split
  · exact .ite (s.loseEvent_eventsOnly e) (.ite (s.hostRefused_eventsOnly.trans (State.loseEvent_eventsOnly _ e))
      (s.ringWrite_eventsOnly _ e))
  · exact .ite (.ite (.of_regs rfl rfl) (s.loseEvent_eventsOnly e)) (.refl s)

theorem State.emit_eventsOnly (e : Event) : s.EventsOnly (s.emit e) := by
  unfold State.emit State.pushMctp
  exact .ite (.of_regs rfl rfl) ((s.publish_eventsOnly e).trans (.ite (.of_regs rfl rfl) (.refl _)))

section
variable (sev : Severity) (code : Nat) (src : EventSrc) (tick : Option Nat) (data : Nat) (inj : Bool)

theorem State.raise_eventsOnly : s.EventsOnly (s.raise sev code src tick data inj) :=
  .trans (t := (s.makeEvent sev code src tick data inj).2) (.of_regs rfl rfl) (State.emit_eventsOnly _ _)

@[simp] theorem State.raise_pending : (s.raise sev code src tick data inj).pending = s.pending :=
  (s.raise_eventsOnly sev code src tick data inj).field_eq State.pending rfl
@[simp] theorem State.raise_rom : (s.raise sev code src tick data inj).rom = s.rom :=
  (s.raise_eventsOnly sev code src tick data inj).field_eq State.rom rfl
@[simp] theorem State.raise_boot : (s.raise sev code src tick data inj).boot = s.boot :=
  (s.raise_eventsOnly sev code src tick data inj).field_eq State.boot rfl
@[simp] theorem State.raise_power : (s.raise sev code src tick data inj).power = s.power :=
  (s.raise_eventsOnly sev code src tick data inj).field_eq State.power rfl
@[simp] theorem State.raise_supply : (s.raise sev code src tick data inj).supply = s.supply :=
  (s.raise_eventsOnly sev code src tick data inj).field_eq State.supply rfl
@[simp] theorem State.raise_mesh : (s.raise sev code src tick data inj).mesh = s.mesh :=
  (s.raise_eventsOnly sev code src tick data inj).field_eq State.mesh rfl
@[simp] theorem State.raise_maint : (s.raise sev code src tick data inj).maint = s.maint :=
  (s.raise_eventsOnly sev code src tick data inj).field_eq State.maint rfl

theorem State.reg_raise {u off : Nat} (h : regKey u off ≠ regKey unitBar rHOST_LINK) :
    (s.raise sev code src tick data inj).reg u off = s.reg u off := (s.raise_eventsOnly sev code src tick data inj).reg u off h

end

/-! The number of the next event. -/

theorem State.signal_events (v : Nat) : (s.signal v).events = s.events := by
  unfold State.signal; split
  · rfl
  · split <;> rfl

theorem State.loseEvent_seq (e : Event) : (s.loseEvent e).events.seq = s.events.seq := rfl

theorem State.publish_seq (e : Event) : (s.publish e).events.seq = s.events.seq := by
  unfold State.publish
  split
  · split
    · rfl
    · split
      · rw [State.loseEvent_seq, State.hostRefused, State.bump_events]
      · unfold State.ringWrite
        simp only []
        split
        · rw [State.signal_events]
        · rfl
  · split
    · split <;> rfl
    · rfl

theorem State.pushMctp_seq (e : Event) : (s.pushMctp e).events.seq = s.events.seq := by
  unfold State.pushMctp; simp only []; split <;> rfl

/-- Each event raised takes the next number (R371). -/
theorem State.raise_oneEvent (sev : Severity) (code : Nat) (src : EventSrc) (tick : Option Nat) (data : Nat) (inj : Bool) :
    Claims.OneEvent s (s.raise sev code src tick data inj) := by
  have hmake : (s.makeEvent sev code src tick data inj).2.events.seq = (s.events.seq + 1) % 2 ^ 32 := by
    simp only [State.makeEvent]; split <;> rfl
  have hemit (x : State) (e : Event) : (x.emit e).events.seq = x.events.seq := by
    unfold State.emit
    split
    · rfl
    · rw [State.pushMctp_seq, State.publish_seq]
  exact (hemit _ _).trans hmake

theorem State.raise_oneEvent_of {s x : State} (h : x.events.seq = s.events.seq) (sev : Severity) (code : Nat) (src : EventSrc)
    (tick : Option Nat) (data : Nat) (inj : Bool) : Claims.OneEvent s (x.raise sev code src tick data inj) :=
  (x.raise_oneEvent sev code src tick data inj).trans (by rw [h])

end Sys2Proof.Machine

/-!
SUPPORT. What has been lost stays lost, whatever follows a loss: a relation that the commands of losses, tacks and abandons keep.
-/
namespace Sys2Proof.Machine

/-- The registers of power and clocks of compute dies (R376, R399), and the converter groups (R377). -/
def PowerReg (u off : Nat) : Prop :=
  (0x4000 ≤ u ∧ u < 0x5000 ∧ 0x70000 ≤ off ∧ off < 0x90000) ∨ (u = unitMgmt ∧ 0x500100 ≤ off ∧ off < 0x600000)

/-- A register that is none of them. -/
def NoPowerReg (u off : Nat) : Prop := ∀ v o, PowerReg v o → regKey v o ≠ regKey u off

theorem noPowerReg_of_off (u : Nat) {off : Nat}
    (h : off < 0x70000 ∨ (0x90000 ≤ off ∧ off < 0x500100) ∨ (0x600000 ≤ off ∧ off < 2 ^ 32)) : NoPowerReg u off := by
  intro v o hp
  simp only [PowerReg] at hp
  exact regKey_ne_of_off (by omega) (by omega) (by omega)

theorem noPowerReg_unitEdge (i : Nat) {off : Nat} (h : off < 0x500100) : NoPowerReg (unitEdge i) off := by
  rintro v o (⟨_, hv, _, ho⟩ | ⟨_, ho, ho'⟩)
  · exact regKey_ne_of_unit (by omega) (by omega) (by unfold unitEdge; omega)
  · exact regKey_ne_of_off (by omega) (by omega) (by omega)

/-- What a loss leaves behind: the registers of power and clocks, dies that have stopped, latched groups, fenced links, and sites and
edge dies that have failed. -/
structure State.KeepsLosses (s t : State) : Prop where
  reg : ∀ u off, PowerReg u off → t.reg u off = s.reg u off
  stopped : ∀ v, (s.die v).stopped = true → (t.die v).stopped = true
  shorted : t.supply.shorted = s.supply.shorted
  fenced : ∀ l ∈ s.mesh.fenced, l ∈ t.mesh.fenced
  training : ∀ l ∈ t.mesh.training, l ∈ s.mesh.training
  badSites : ∀ v ∈ s.boot.badSites, v ∈ t.boot.badSites
  badEdges : ∀ e ∈ s.boot.badEdges, e ∈ t.boot.badEdges

/-- The parts of the state that `KeepsLosses` speaks of, but for the registers. -/
def State.losses (s : State) : SMap DiePower × List Nat × (List Nat × List Nat) × List Nat × List Nat :=
  (s.power, s.supply.shorted, (s.mesh.fenced, s.mesh.training), s.boot.badSites, s.boot.badEdges)

namespace State.KeepsLosses

variable {s t u : State}

theorem refl (s : State) : s.KeepsLosses s :=
  ⟨fun _ _ _ => rfl, fun _ => id, rfl, fun _ => id, fun _ => id, fun _ => id, fun _ => id⟩

theorem trans (h : s.KeepsLosses t) (k : t.KeepsLosses u) : s.KeepsLosses u where
  reg v off hp := (k.reg v off hp).trans (h.reg v off hp)
  stopped v := k.stopped v ∘ h.stopped v
  shorted := k.shorted.trans h.shorted
  fenced l := k.fenced l ∘ h.fenced l
  training l := h.training l ∘ k.training l
  badSites v := k.badSites v ∘ h.badSites v
  badEdges e := k.badEdges e ∘ h.badEdges e

/-- A step that writes registers at most. -/
theorem of_reg (hr : ∀ v off, PowerReg v off → t.reg v off = s.reg v off) (h : t.losses = s.losses) : s.KeepsLosses t := by
  simp only [State.losses, Prod.mk.injEq] at h
  obtain ⟨hpower, hshorted, ⟨hfenced, htraining⟩, hsites, hedges⟩ := h
  exact ⟨hr, fun v => by rw [State.die, State.die, hpower]; exact id, hshorted, fun l => by rw [hfenced]; exact id,
    fun l => by rw [htraining]; exact id, fun v => by rw [hsites]; exact id, fun e => by rw [hedges]; exact id⟩

/-- A step that writes no part of it. -/
theorem of_eq (hr : t.regs = s.regs) (h : t.losses = s.losses) : s.KeepsLosses t :=
  of_reg (fun _ _ _ => by rw [State.reg, State.reg, hr]) h

theorem ite {c : Prop} [Decidable c] (h : s.KeepsLosses t) (k : s.KeepsLosses u) : s.KeepsLosses (if c then t else u) := by
  split
  · exact h
  · exact k

/-- A step that may be left out. -/
theorem ite_self {c : Prop} [Decidable c] (h : s.KeepsLosses t) : s.KeepsLosses (if c then t else s) := h.ite (.refl s)

theorem foldl_mem {α : Type} {f : State → α → State} {l : List α} (h : ∀ a ∈ l, ∀ s : State, s.KeepsLosses (f s a)) (s : State) :
    s.KeepsLosses (l.foldl f s) := by
  induction l generalizing s with
  | nil => exact .refl s
  | cons a l ih => exact (h a (List.mem_cons_self ..) s).trans (ih (fun b hb => h b (List.mem_cons_of_mem _ hb)) (f s a))

theorem foldl {α : Type} {f : State → α → State} (h : ∀ (s : State) (a : α), s.KeepsLosses (f s a)) (l : List α) (s : State) :
    s.KeepsLosses (l.foldl f s) := foldl_mem (fun a _ s => h s a) s

end State.KeepsLosses

variable (s : State)

/-! Registers, events and the log. -/

theorem State.setReg_keepsLosses {u off : Nat} (v : Nat) (h : NoPowerReg u off) : s.KeepsLosses (s.setReg u off v) :=
  .of_reg (fun _ _ hp => s.reg_setReg_other v (h _ _ hp)) rfl

theorem State.setFld_keepsLosses {u off : Nat} (lo w v : Nat) (h : NoPowerReg u off) : s.KeepsLosses (s.setFld u off lo w v) :=
  .of_reg (fun _ _ hp => s.reg_setFld_other lo w v (h _ _ hp)) rfl

theorem State.bump_keepsLosses {u off : Nat} (lo w n : Nat) (h : NoPowerReg u off) : s.KeepsLosses (s.bump u off lo w n) :=
  .of_reg (fun _ _ hp => s.reg_bump_other lo w n (h _ _ hp)) rfl

theorem State.EventsOnly.keepsLosses {s t : State} (h : s.EventsOnly t) : s.KeepsLosses t :=
  .of_reg (fun _ _ hp => h.reg _ _ (noPowerReg_of_off unitBar (by decide) _ _ hp)) (h.field_eq State.losses rfl)

theorem State.raise_keepsLosses (sev : Severity) (code : Nat) (src : EventSrc) (tick : Option Nat) (data : Nat) (inj : Bool) :
    s.KeepsLosses (s.raise sev code src tick data inj) := (s.raise_eventsOnly sev code src tick data inj).keepsLosses

theorem State.appendLog_keepsLosses (k a b c : Nat) : s.KeepsLosses (s.appendLog k a b c) := .of_eq rfl rfl

/-! Ticks (R245). -/

theorem State.finish_keepsLosses (q cid code detail result : Nat) : s.KeepsLosses (s.finish q cid code detail result) := by
  unfold State.finish
  split
  · exact .refl s
  · exact .of_eq rfl rfl

theorem State.tickWaiters_keepsLosses : s.KeepsLosses s.tickWaiters := by
  unfold State.tickWaiters
  refine .foldl (fun s e => .foldl (fun s c => ?_) _ _) _ _
  exact .ite (.refl s) (.ite
    (.ite (s.finish_keepsLosses _ _ _ _ _) (.ite (s.finish_keepsLosses _ _ _ _ _) (.ite (s.finish_keepsLosses _ _ _ _ _) (.refl s))))
    (.ite (.ite (s.finish_keepsLosses _ _ _ _ _) (.ite (s.finish_keepsLosses _ _ _ _ _) (.refl s))) (.refl s)))

theorem State.clearReady_keepsLosses : s.KeepsLosses s.clearReady := .of_eq rfl rfl

theorem State.modGen_keepsLosses (f : TickGen → TickGen) : s.KeepsLosses (s.modGen f) := .of_eq rfl rfl

theorem State.haltTicking_keepsLosses : s.KeepsLosses s.haltTicking :=
  ((s.modGen_keepsLosses _).trans (State.clearReady_keepsLosses _)).trans (State.tickWaiters_keepsLosses _)

theorem State.dropMarks_keepsLosses (tick : Nat) : s.KeepsLosses (s.dropMarks tick) := .of_eq rfl rfl

theorem State.sendClass0_keepsLosses (m : Class0) : s.KeepsLosses (s.sendClass0 m) := by
  unfold State.sendClass0
  split
  · exact .of_eq rfl rfl
  · exact .of_eq rfl rfl

theorem State.ownAbort_keepsLosses (tick att cause : Nat) (raise : Option Nat) : s.KeepsLosses (s.ownAbort tick att cause raise) := by
  unfold State.ownAbort
  exact .ite (.of_eq rfl rfl) (.refl s)

theorem State.recordAbandon_keepsLosses (t : TickRun) (c : Cause) (discard : Bool) : s.KeepsLosses (s.recordAbandon t c discard) := by
  have hreg (x : State) : x.KeepsLosses ((x.setReg unitMgmt rTICK_LAST_ABANDON
      (t.tick % 2 ^ 48 + 2 ^ 48 * c.code + 2 ^ 52 * (t.att % 4) + 2 ^ 63)).bump unitMgmt rTICK_ABANDON_COUNT 0 32 1) :=
    (x.setReg_keepsLosses _ (noPowerReg_of_off _ (by decide))).trans
      (State.bump_keepsLosses _ _ _ _ (noPowerReg_of_off _ (by decide)))
  have htel (x : State) : x.KeepsLosses
      { x.telBump (telPanel 0x58) 0 64 (1 + b2n discard) with
        tel := { (x.telBump (telPanel 0x58) 0 64 (1 + b2n discard)).tel with
          nowFlags := (x.telBump (telPanel 0x58) 0 64 (1 + b2n discard)).tel.nowFlags ||| 2 } } := .of_eq rfl rfl
  unfold State.recordAbandon
  exact ((hreg s).trans (.ite (State.bump_keepsLosses _ _ _ _ (noPowerReg_of_off _ (by decide))) (.refl _))).trans (htel _)

theorem State.abandon_keepsLosses (tick : Nat) (c : Cause) (raise : Option Nat) (inj : Bool) :
    s.KeepsLosses (s.abandon tick c raise inj) := by
  unfold State.abandon
  split
  · exact .refl s
  next t _ =>
  refine .ite (.refl s) ?_
  dsimp only
  have hgen (f : TickGen → TickGen) (d : Bool) (n : Nat) :
      s.KeepsLosses (((s.modGen f).clearReady.recordAbandon t c d).dropMarks n) :=
    (((s.modGen_keepsLosses f).trans (State.clearReady_keepsLosses _)).trans (State.recordAbandon_keepsLosses _ t c d)).trans
      (State.dropMarks_keepsLosses _ n)
  have hheld (x : State) (l : List Event) : x.KeepsLosses { x with events := { x.events with held := l } } := .of_eq rfl rfl
  have hrecovery (x : State) : x.KeepsLosses { x with maint := { x.maint with recovery := true } } := .of_eq rfl rfl
  have hscale (x : State) : x.KeepsLosses (match raise with
      | some g => { x with coll := { x.coll with raises := SMap.set 0 x.coll.raises g (SMap.get 0 x.coll.raises g + 1) } }
      | none => x) := by
    cases raise
    · exact .refl x
    · exact .of_eq rfl rfl
  refine .trans ?_ (State.sendClass0_keepsLosses _ _)
  refine .trans ?_ (.ite_self ?_)
  · refine .trans ?_ (.ite (.ite (.refl _) (State.ownAbort_keepsLosses _ _ _ _ _)) (hscale _))
    refine .trans ?_ (State.raise_keepsLosses _ _ _ _ _ _ _)
    exact .trans (.trans (hgen _ _ _) (hheld _ _)) (.ite_self (hrecovery _))
  · refine .trans ?_ (State.tickWaiters_keepsLosses _)
    exact .trans (State.modGen_keepsLosses _ _) (State.raise_keepsLosses _ _ _ _ _ _ _)

theorem State.abandonOldest_keepsLosses (c : Cause) (inj : Bool) : s.KeepsLosses (s.abandonOldest c inj) := by
  unfold State.abandonOldest
  split
  · exact .refl s
  · exact s.abandon_keepsLosses _ c none inj

/-! Automatic tacks (R281). -/

theorem State.recordSeal_keepsLosses (f : SealFail) : s.KeepsLosses (s.recordSeal f) :=
  s.setReg_keepsLosses _ (noPowerReg_of_off _ (by decide))

theorem State.sealed_keepsLosses (c : ConfigSet) (digest : List Byte) (amended : Bool) : s.KeepsLosses (s.sealed c digest amended) :=
  .of_eq rfl rfl

theorem State.noteRemap_keepsLosses (old new : ConfigSet) : s.KeepsLosses (s.noteRemap old new) :=
  .trans (.foldl (fun s _ => s.appendLog_keepsLosses _ _ _ _) _ s)
    (.foldl (fun s _ => (s.appendLog_keepsLosses _ _ _ _).trans (State.raise_keepsLosses _ _ _ _ _ _ _)) _ _)

theorem State.autoTack_keepsLosses (halt : Bool) : s.KeepsLosses (s.autoTack halt) := by
  unfold State.autoTack
  split
  · have hagain (x : State) : x.KeepsLosses { x with cfg := { x.cfg with autoQ := true } } := .of_eq rfl rfl
    exact .ite ((hagain s).trans (State.haltTicking_keepsLosses _)) (hagain s)
  · dsimp only
    split
    · have hseal (x : State) (f : SealFail) (c : ConfigSet) (host : Bool) : x.KeepsLosses (if host then x.recordSeal f else
          { x.recordSeal f with shadow := c, cfg := { (x.recordSeal f).cfg with isSealed := false } }) :=
        .ite (x.recordSeal_keepsLosses f) ((x.recordSeal_keepsLosses f).trans (.of_eq rfl rfl))
      exact .ite ((hseal _ _ _ _).trans (State.haltTicking_keepsLosses _)) (hseal _ _ _ _)
    · have hseal (x : State) (base c : ConfigSet) (host : Bool) : x.KeepsLosses
          (((x.sealed c (sha384 c.image) host).noteRemap base c).raise .degraded 0x41 .none none 0) :=
        .trans (.trans (x.sealed_keepsLosses _ _ _) (State.noteRemap_keepsLosses _ _ _)) (State.raise_keepsLosses _ _ _ _ _ _ _)
      have haccept (x : State) : x.KeepsLosses (x.acceptTack true none halt) := .of_eq rfl rfl
      have hhalt (x : State) : x.KeepsLosses { x with cfg := { x.cfg with halt := x.cfg.halt || halt } } := .of_eq rfl rfl
      exact .trans (hseal _ _ _ _) (.ite (hhalt _) (haccept _))

end Sys2Proof.Machine

/-!
SUPPORT. The losses of links, dies, edge dies and regions (R385, R387, R437, R442): what each leaves behind.
-/
namespace Sys2Proof.Machine

variable (s : State)

/-! Links (R206, R437). -/

theorem State.discard_keepsLosses (k : Nat) (x : Packet) : s.KeepsLosses (s.discard k x) := by
  have hpacket (y : State) : y.KeepsLosses (y.setPacket k none) := .of_eq rfl rfl
  have hreduction (id : Nat) : s.KeepsLosses
      { s with coll := { s.coll with packets := s.coll.packets.filter (fun y => y.pkt != some id) } } := .of_eq rfl rfl
  unfold State.discard
  refine .trans ?_ (State.bump_keepsLosses _ 0 32 1 (noPowerReg_of_off _ (by decide)))
  refine .trans ?_ (hpacket _)
  split
  · exact hreduction _
  · exact .refl s

theorem State.purgeLink_keepsLosses (l : Nat) : s.KeepsLosses (s.purgeLink l) := by
  unfold State.purgeLink
  exact .foldl (fun s (e : Nat × Packet) => .ite_self (s.discard_keepsLosses e.1 e.2)) _ s

theorem State.fenceLink_keepsLosses (l : Nat) : s.KeepsLosses (s.fenceLink l) := by
  unfold State.fenceLink
  split
  · exact .refl s
  · exact ⟨fun _ _ _ => rfl, fun _ => id, rfl, fun _ h => List.mem_cons_of_mem _ h, fun _ h => (List.mem_filter.1 h).1,
      fun _ => id, fun _ => id⟩

theorem State.mem_fenced_fenceLink (l : Nat) : l ∈ (s.fenceLink l).mesh.fenced := by
  unfold State.fenceLink
  split
  next h => simpa using h
  next => exact List.mem_cons_self ..

/-- A link fenced only now is not in training any more. -/
theorem State.notMem_training_fenceLink {l : Nat} (h : l ∉ s.mesh.fenced) : l ∉ (s.fenceLink l).mesh.training := by
  simp [State.fenceLink, h]

theorem State.fenceNode_keepsLosses (v : Nat) : s.KeepsLosses (s.fenceNode v) := by
  unfold State.fenceNode
  exact .foldl (fun s _ => (s.fenceLink_keepsLosses _).trans (State.purgeLink_keepsLosses _ _)) _ s

theorem State.mem_fenced_fenceNode {v : Nat} {e : Nat × Nat × Nat} (h : e ∈ exitsOf v) : e.2.2 ∈ (s.fenceNode v).mesh.fenced := by
  unfold State.fenceNode
  generalize exitsOf v = l at h
  induction l generalizing s with
  | nil => simp at h
  | cons a l ih =>
    rw [List.foldl_cons]
    rcases List.mem_cons.1 h with rfl | h
    · exact (State.KeepsLosses.foldl (fun s _ => (s.fenceLink_keepsLosses _).trans (State.purgeLink_keepsLosses _ _)) l _).fenced _
        ((State.purgeLink_keepsLosses _ _).fenced _ (s.mem_fenced_fenceLink _))
    · exact ih _ h

/-! Dies (R387, R442). -/

theorem State.die_modDie (site v : Nat) (f : DiePower → DiePower) :
    (s.modDie site f).die v = if v = site then f (s.die site) else s.die v := SMap.get_set _ _ _ _ _

theorem State.modCore_keepsLosses (p : Nat) (f : Core → Core) : s.KeepsLosses (s.modCore p f) := .of_eq rfl rfl

/-- The stop of a die: its power manager shows it, and nothing but that and its cores changes. -/
theorem State.stopDie_spec (site : Nat) : s.KeepsLosses (s.stopDie site) ∧ ((s.stopDie site).die site).stopped = true := by
  have hcores (x : State) (ps : List Nat) : x.KeepsLosses (ps.foldl (fun s p => s.modCore (site * 50 + p) (fun c =>
      { c with node := { c.node with hbStopped := true } })) x) := .foldl (fun s p => s.modCore_keepsLosses (site * 50 + p) _) ps x
  have hmod : s.KeepsLosses (s.modDie site (fun d => { d with stopped := true })) := by
    refine ⟨fun _ _ _ => rfl, fun v hv => ?_, rfl, fun _ => id, fun _ => id, fun _ => id, fun _ => id⟩
    rw [State.die_modDie]
    split
    · rfl
    · exact hv
  exact ⟨hmod.trans (hcores _ _), (hcores _ _).stopped site (by rw [State.die_modDie, if_pos rfl])⟩

/-- The first steps of the loss of a die: it has failed, stops, and is fenced. -/
def State.dieFenced (s : State) (site : Nat) : State :=
  (({ s with boot := { s.boot with badSites := insertAsc site s.boot.badSites } } : State).stopDie site).fenceNode site

theorem State.dieFenced_isLost (site : Nat) : Claims.DieIsLost (s.dieFenced site) site := by
  have hstop := State.stopDie_spec { s with boot := { s.boot with badSites := insertAsc site s.boot.badSites } } site
  have hfence := State.fenceNode_keepsLosses
    (({ s with boot := { s.boot with badSites := insertAsc site s.boot.badSites } } : State).stopDie site) site
  exact ⟨hfence.badSites _ (hstop.1.badSites _ (mem_insertAsc.2 (.inl rfl))), hfence.stopped _ hstop.2,
    fun e he => State.mem_fenced_fenceNode _ he⟩

theorem State.dieFenced_keepsLosses (site : Nat) : s.KeepsLosses (s.dieFenced site) := by
  have hbad : s.KeepsLosses { s with boot := { s.boot with badSites := insertAsc site s.boot.badSites } } :=
    ⟨fun _ _ _ => rfl, fun _ => id, rfl, fun _ => id, fun _ => id, fun _ h => mem_insertAsc.2 (.inr h), fun _ => id⟩
  exact (hbad.trans (State.stopDie_spec _ site).1).trans (State.fenceNode_keepsLosses _ site)

/-- After its first steps the loss of a die is logged, counted and reported, and a tack and an abandon follow. -/
theorem State.dieFenced_keepsLosses_dieLost {site : Nat} (h : site ∉ s.boot.badSites) :
    (s.dieFenced site).KeepsLosses (s.dieLost site) := by
  unfold State.dieLost
  rw [if_neg (by simpa using h)]
  have hlog : (s.dieFenced site).KeepsLosses ((s.dieFenced site).appendLog 1 site 0 0) := State.appendLog_keepsLosses _ _ _ _ _
  refine hlog.trans ?_
  dsimp only
  split
  · exact State.autoTack_keepsLosses _ false
  · refine .trans ?_ (State.abandonOldest_keepsLosses _ _ _)
    refine .trans ?_ (State.raise_keepsLosses _ _ _ _ _ _ _)
    exact .trans (State.bump_keepsLosses _ _ _ _ (noPowerReg_of_off _ (by decide))) (State.autoTack_keepsLosses _ true)

theorem State.dieLost_keepsLosses (site : Nat) : s.KeepsLosses (s.dieLost site) := by
  by_cases h : site ∈ s.boot.badSites
  · rw [State.dieLost, if_pos (by simpa using h)]
    exact .refl s
  · exact (s.dieFenced_keepsLosses site).trans (s.dieFenced_keepsLosses_dieLost h)

theorem State.KeepsLosses.dieIsLost {s t : State} (k : s.KeepsLosses t) {site : Nat} (h : Claims.DieIsLost s site) :
    Claims.DieIsLost t site := by
  obtain ⟨hbad, hstopped, hfenced⟩ := h
  exact ⟨k.badSites _ hbad, k.stopped _ hstopped, fun e he => k.fenced _ (hfenced e he)⟩

theorem State.dieLost_isLost {site : Nat} (h : site ∉ s.boot.badSites) : Claims.DieIsLost (s.dieLost site) site :=
  (s.dieFenced_keepsLosses_dieLost h).dieIsLost (s.dieFenced_isLost site)

/-- A seam link that fails is fenced, whatever else is lost with it (R437). -/
theorem State.fenceLink_keepsLosses_seamLost (site exit : Nat) :
    (s.fenceLink (linkAt site exit)).KeepsLosses (s.seamLost site exit) := by
  unfold State.seamLost
  have hreport (x : State) (l : Nat) : x.KeepsLosses
      (((x.purgeLink l).appendLog 8 site exit 0).raise .degraded 0xB3 ⟨site, 0x3F, false, 0⟩ none exit) :=
    ((x.purgeLink_keepsLosses l).trans (State.appendLog_keepsLosses _ _ _ _ _)).trans (State.raise_keepsLosses _ _ _ _ _ _ _)
  refine (hreport _ (linkAt site exit)).trans ?_
  dsimp only
  split
  · exact State.autoTack_keepsLosses _ false
  · exact .foldl (fun s v => s.dieLost_keepsLosses v) _ _

theorem State.seamLost_keepsLosses (site exit : Nat) : s.KeepsLosses (s.seamLost site exit) :=
  (s.fenceLink_keepsLosses _).trans (s.fenceLink_keepsLosses_seamLost site exit)

/-! Edge dies (R387, R423). -/

theorem State.endEntry_keepsLosses (e : MaintEntry) (outcome : Nat) : s.KeepsLosses (s.endEntry e outcome) := by
  have hend : s.KeepsLosses { s with maint := { s.maint with entries := s.maint.entries.filter (fun x => x.handle != e.handle) } } :=
    .of_eq rfl rfl
  exact hend.trans (State.raise_keepsLosses _ _ _ _ _ _ _)

theorem State.endInjection_keepsLosses : s.KeepsLosses s.endInjection := by
  have hend : s.KeepsLosses { s with maint := { s.maint with
      injection := none, lastInjectionEnd := some s.now, armedBucket := none, armedPatrol := none } } := .of_eq rfl rfl
  unfold State.endInjection
  split
  · exact .refl s
  next i _ =>
    refine (hend.trans (State.raise_keepsLosses _ .info 0xB9 (edgeSrc 9 0x3F) none i.number true)).trans ?_
    dsimp only
    split
    · exact .refl _
    · exact State.endEntry_keepsLosses _ _ 0

theorem State.setPortState_keepsLosses (i v : Nat) : s.KeepsLosses (s.setPortState i v) :=
  s.setFld_keepsLosses _ _ _ (noPowerReg_unitEdge i (by decide))

theorem State.modVPort_keepsLosses (i : Nat) (f : VPort → VPort) : s.KeepsLosses (s.modVPort i f) := .of_eq rfl rfl

theorem State.pumpPort_keepsLosses (i fuel : Nat) : s.KeepsLosses (s.pumpPort i fuel) := by
  induction fuel generalizing s with
  | zero => exact .refl s
  | succ fuel ih =>
    unfold State.pumpPort
    split
    · exact .refl s
    · split
      · exact .refl s
      · exact ((s.modVPort_keepsLosses i _).trans (State.bump_keepsLosses _ _ _ _ (noPowerReg_unitEdge i (by decide)))).trans (ih _)

theorem State.queueRecord_keepsLosses (i : Nat) (r : SysRecord) : s.KeepsLosses (s.queueRecord i r) :=
  (s.modVPort_keepsLosses i _).trans (State.pumpPort_keepsLosses _ _ _)

theorem State.sendSlot_keepsLosses (place : Nat) (x : VSlot) (rev : List Nat) : s.KeepsLosses (s.sendSlot place x rev) :=
  .of_eq rfl rfl

theorem State.noteMissing_keepsLosses (i : Nat) : s.KeepsLosses (s.noteMissing i) :=
  .ite_self (s.raise_keepsLosses _ _ _ _ _ _)

theorem State.linkDown_keepsLosses (i : Nat) : s.KeepsLosses (s.linkDown i) := by
  unfold State.linkDown
  dsimp only
  refine .trans ?_ (State.noteMissing_keepsLosses _ i)
  have hport : s.KeepsLosses (((if (s.port i).rehearse.isSome then (s.setPortState i 0).endInjection else s.setPortState i 0).modVPort i
      (fun p => { VPort.reset with retireLanes := p.retireLanes })).raise .degraded 0x61 (edgeSrc i 0x3F) none 0) :=
    (((s.setPortState_keepsLosses i 0).trans (.ite_self (State.endInjection_keepsLosses _))).trans
      (State.modVPort_keepsLosses _ i _)).trans (State.raise_keepsLosses _ _ _ _ _ _ _)
  have hanswer (x : State) : x.KeepsLosses ((s.port i).waiting.foldl (fun (x : State) y =>
      match pathDownSlot x.panelNo (s.dimOf i) y with
      | none => x
      | some z => x.sendSlot i z []) x) := by
    refine .foldl (fun x y => ?_) _ x
    split
    · exact .refl x
    · exact x.sendSlot_keepsLosses _ _ _
  split
  · exact hport.trans (hanswer _)
  · exact (hport.trans (hanswer _)).trans (.foldl (fun x r => x.queueRecord_keepsLosses _ r) _ _)

theorem State.linkLost_keepsLosses : s.KeepsLosses s.linkLost :=
  .ite_self ((s.setFld_keepsLosses _ _ _ (noPowerReg_of_off _ (by decide))).trans
    (State.bump_keepsLosses _ _ _ _ (noPowerReg_of_off _ (by decide))))

/-- The loss of an edge die keeps what was lost before, and adds the edge die. -/
theorem State.edgeLost_spec (e step : Nat) : s.KeepsLosses (s.edgeLost e step) ∧ e ∈ (s.edgeLost e step).boot.badEdges := by
  unfold State.edgeLost
  split
  next h => exact ⟨.refl s, by simpa using h⟩
  have hbad : s.KeepsLosses { s with boot := { s.boot with badEdges := insertAsc e s.boot.badEdges } } :=
    ⟨fun _ _ _ => rfl, fun _ => id, rfl, fun _ => id, fun _ => id, fun _ => id, fun _ h => mem_insertAsc.2 (.inr h)⟩
  have hmem : e ∈ ({ s with boot := { s.boot with badEdges := insertAsc e s.boot.badEdges } } : State).boot.badEdges :=
    mem_insertAsc.2 (.inl rfl)
  generalize ({ s with boot := { s.boot with badEdges := insertAsc e s.boot.badEdges } } : State) = x at hbad hmem
  have hfence : x.KeepsLosses ((x.fenceNode (204 + e)).appendLog 13 (204 + e) 0 step) :=
    (x.fenceNode_keepsLosses _).trans (State.appendLog_keepsLosses _ _ _ _ _)
  dsimp only
  generalize (x.fenceNode (204 + e)).appendLog 13 (204 + e) 0 step = y at hfence
  have hport : y.KeepsLosses ((if y.portState e = 2 then y.linkDown e else y).setPortState e 3) :=
    (State.KeepsLosses.ite_self (y.linkDown_keepsLosses e)).trans (State.setPortState_keepsLosses _ e 3)
  generalize (if y.portState e = 2 then y.linkDown e else y).setPortState e 3 = z at hport
  have hretire : z.KeepsLosses { z with coll := { z.coll with retiring := insertAsc (204 + e) z.coll.retiring } } := .of_eq rfl rfl
  have hrest := (hfence.trans (.ite (c := e < 8) (hport.trans hretire) y.linkLost_keepsLosses)).trans
    (State.autoTack_keepsLosses _ false)
  exact ⟨hbad.trans hrest, hrest.badEdges _ hmem⟩

end Sys2Proof.Machine

/-!
SUPPORT. Steps that write registers only, and the registers of power and clocks among others.
-/
namespace Sys2Proof.Machine

/-! Registers only. -/

theorem State.regsOnly_trans {s t u : State} (h : Claims.RegsOnly s t) (k : Claims.RegsOnly t u) : Claims.RegsOnly s u := by
  have hu : ({ u with regs := t.regs, hw := t.hw } : State) = t := k
  exact (congrArg (fun x : State => ({ x with regs := s.regs, hw := s.hw } : State)) hu).trans h

theorem State.regsOnly_foldl {α : Type} {f : State → α → State} (h : ∀ (s : State) (a : α), Claims.RegsOnly s (f s a)) (l : List α)
    (s : State) : Claims.RegsOnly s (l.foldl f s) := by
  induction l generalizing s with
  | nil => rfl
  | cons a l ih => exact State.regsOnly_trans (h s a) (ih (f s a))

/-- A part of the state that is no register. -/
theorem State.regsOnly_eq {β : Type} {s t : State} (h : Claims.RegsOnly s t) (f : State → β)
    (hf : f { t with regs := s.regs, hw := s.hw } = f t) : f t = f s := hf.symm.trans (congrArg f h)

/-- What registers leave: ticking, cores, memory, the sets, the time, the supply and what outlives resets. -/
theorem State.regsOnly_frame {s t : State} (h : Claims.RegsOnly s t) : t.gen = s.gen ∧ t.cores = s.cores ∧ t.drams = s.drams
    ∧ t.active = s.active ∧ t.now = s.now ∧ t.supply = s.supply ∧ t.boot = s.boot ∧ t.rom = s.rom ∧ t.pending = s.pending :=
  ⟨State.regsOnly_eq h State.gen rfl, State.regsOnly_eq h State.cores rfl, State.regsOnly_eq h State.drams rfl,
    State.regsOnly_eq h State.active rfl, State.regsOnly_eq h State.now rfl, State.regsOnly_eq h State.supply rfl,
    State.regsOnly_eq h State.boot rfl, State.regsOnly_eq h State.rom rfl, State.regsOnly_eq h State.pending rfl⟩

variable (s : State)

theorem State.setReg_regsOnly (u off v : Nat) : Claims.RegsOnly s (s.setReg u off v) := rfl
theorem State.setFld_regsOnly (u off lo w v : Nat) : Claims.RegsOnly s (s.setFld u off lo w v) := rfl
theorem State.bump_regsOnly (u off lo w n : Nat) : Claims.RegsOnly s (s.bump u off lo w n) := rfl

/-! The registers of power and clocks. -/

theorem powerReg_group {i : Nat} (hi : i < 220) : PowerReg unitMgmt (groupOff i) :=
  .inr ⟨rfl, by simp only [groupOff, rPWR_GROUP]; omega, by simp only [groupOff, rPWR_GROUP]; omega⟩

theorem powerReg_unitDie {site off : Nat} (hs : site < 204) (h : 0x70000 ≤ off ∧ off < 0x90000) : PowerReg (unitDie site) off :=
  .inl ⟨by simp only [unitDie]; omega, by simp only [unitDie]; omega, h⟩

theorem powerReg_statOff {site r : Nat} (hs : site < 204) (hr : r < 10) : PowerReg (unitDie site) (statOff r) :=
  powerReg_unitDie hs (by simp only [statOff, rPWR_REGION_STAT]; omega)

theorem powerReg_regionCtrl {site : Nat} (hs : site < 204) : PowerReg (unitDie site) rPWR_REGION_CTRL :=
  powerReg_unitDie hs (by decide)

theorem State.KeepsLosses.fld {s t : State} (h : s.KeepsLosses t) {u off : Nat} (hp : PowerReg u off) (lo w : Nat) :
    t.fld u off lo w = s.fld u off lo w := State.fld_congr (h.reg u off hp) lo w

theorem regKey_group_ne_unitDie (i site : Nat) {off : Nat} (hi : i < 220) (hs : site < 204) (ho : off < 2 ^ 32) :
    regKey unitMgmt (groupOff i) ≠ regKey (unitDie site) off :=
  regKey_ne_of_unit (by simp only [groupOff, rPWR_GROUP]; omega) ho (by simp only [unitMgmt, unitEdge, unitDie]; omega)

/-! The alteration log (R422). -/

theorem State.appendLog_log (kind site unit detail : Nat) (h : s.boot.log.length < 8192) :
    (s.appendLog kind site unit detail).boot.log
      = s.boot.log ++ [{ kind := kind, site := site, unit := unit, detail := detail, hours := s.hours }] := by
  have hlen : (s.boot.log ++ [({ kind := kind, site := site, unit := unit, detail := detail, hours := s.hours } : LogEntry)]).length
      ≤ 8192 := by simp; omega
  simp only [State.appendLog, if_pos hlen]

end Sys2Proof.Machine

/-!
SUPPORT. The reset of the module (R416, R420), and converter groups that latch off (R387).
-/
namespace Sys2Proof.Machine

variable (s : State)

/-! The module. -/

/-- The state that a reset of the module begins with, but for its registers. -/
def State.blank (s : State) (level cause : Nat) : State :=
  ({ State.reset with
    pending := s.pending, rom := s.rom, freeCtr := s.freeCtr, hostMem := s.hostMem, boot := s.bootKept level cause
    supply := { Supply.reset with
      protectAt := s.supply.protectAt, report := s.supply.report, shorted := if level = 0 then [] else s.supply.shorted
      latchedOff := s.supply.latchedOff && level != 0 }
    sec := s.sec.afterReset } : State).newNonce

theorem State.latchGroups_regsOnly (l : List Nat) : Claims.RegsOnly s (l.foldl (fun (s : State) i => s.latchGroup i) s) :=
  State.regsOnly_foldl (fun s _ => s.setFld_regsOnly _ _ _ _ _) l s

/-- Latches show in their groups; no other register of the management die changes below them. -/
theorem State.reg_latchGroups (l : List Nat) {off : Nat} (h : off < rPWR_GROUP) :
    (l.foldl (fun (s : State) i => s.latchGroup i) s).reg unitMgmt off = s.reg unitMgmt off := by
  induction l generalizing s with
  | nil => rfl
  | cons i l ih =>
    rw [List.foldl_cons, ih, State.latchGroup]
    exact s.reg_setFld_other _ _ _ (by simp only [regKey, groupOff]; omega)

theorem State.fld_latchGroups {l : List Nat} {i : Nat} (h : i ∈ l) :
    (l.foldl (fun (s : State) i => s.latchGroup i) s).fld unitMgmt (groupOff i) 0 2 = 2 := by
  have hkeep (l : List Nat) (x : State) (hx : x.fld unitMgmt (groupOff i) 0 2 = 2) :
      (l.foldl (fun (s : State) i => s.latchGroup i) x).fld unitMgmt (groupOff i) 0 2 = 2 := by
    induction l generalizing x with
    | nil => exact hx
    | cons j l ih =>
      refine ih _ ?_
      by_cases hj : j = i
      · subst hj; exact x.fld_setFld_same _ _ _ _ _
      · exact (x.fld_setFld_other _ _ _ _ _ (by simp only [regKey, groupOff]; omega)).trans hx
  induction l generalizing s with
  | nil => simp at h
  | cons j l ih =>
    rcases List.mem_cons.1 h with rfl | h
    · exact hkeep l _ (s.fld_setFld_same _ _ _ _ _)
    · exact ih _ h

/-- The registers that a reset of the module sets before the latches (R396, R416). -/
def State.blankRegs (s : State) (level cause : Nat) : State :=
  let t := (s.blank level cause).setReg unitMgmt rPWR_SUPPLY_REC s.boot.supplyRec
  if level = 0 then t else t.setReg unitMgmt rCFG_BOOT_COUNT (s.reg unitMgmt rCFG_BOOT_COUNT)

theorem State.powerOn_eq (level cause : Nat) : s.powerOn level cause =
    (s.blankRegs level cause).supply.shorted.foldl (fun (s : State) i => s.latchGroup i) (s.blankRegs level cause) := rfl

theorem State.blankRegs_regsOnly (level cause : Nat) : Claims.RegsOnly (s.blank level cause) (s.blankRegs level cause) := by
  unfold State.blankRegs
  dsimp only
  split
  · exact State.setReg_regsOnly _ _ _ _
  · exact State.regsOnly_trans (State.setReg_regsOnly _ _ _ _) (State.setReg_regsOnly _ _ _ _)

theorem State.powerOn_regsOnly (level cause : Nat) : Claims.RegsOnly (s.blank level cause) (s.powerOn level cause) := by
  rw [State.powerOn_eq]
  exact State.regsOnly_trans (s.blankRegs_regsOnly level cause) (State.latchGroups_regsOnly _ _)

theorem State.powerOn_bootCount (cause : Nat) :
    (s.powerOn 1 cause).reg unitMgmt rCFG_BOOT_COUNT = s.reg unitMgmt rCFG_BOOT_COUNT := by
  rw [State.powerOn_eq, State.reg_latchGroups _ _ (by decide), State.blankRegs, if_neg (by decide), State.reg_setReg_same]

theorem State.moduleReset_regsOnly (cause : Nat) : Claims.RegsOnly (s.blank 1 cause) (s.moduleReset cause) :=
  State.regsOnly_trans (s.powerOn_regsOnly 1 cause) (State.bump_regsOnly _ _ _ _ _ _)

theorem State.moduleReset_isReset (cause : Nat) : Claims.ModuleIsReset s (s.moduleReset cause) cause := by
  obtain ⟨hgen, hcores, hdrams, hactive, hnow, _, hboot, hrom, hpending⟩ := State.regsOnly_frame (s.moduleReset_regsOnly cause)
  refine ⟨hgen, hcores, hdrams, hactive, hnow, ?_, ?_, ?_, ?_, hrom, hpending, ?_⟩
  · rw [hboot]; rfl
  · rw [hboot]; rfl
  · rw [hboot]; rfl
  · rw [hboot]; rfl
  · rw [State.moduleReset, State.fld_bump_same, State.fld_congr (s.powerOn_bootCount cause)]
    rfl

theorem State.moduleReset_shorted (cause : Nat) : (s.moduleReset cause).supply.shorted = s.supply.shorted :=
  State.regsOnly_eq (s.moduleReset_regsOnly cause) (fun x : State => x.supply.shorted) rfl

/-- A latch after a short outlives a reset of the module (R387). -/
theorem State.fld_moduleReset_shorted (cause : Nat) {i : Nat} (h : i ∈ s.supply.shorted) :
    (s.moduleReset cause).fld unitMgmt (groupOff i) 0 2 = 2 := by
  have hmem : i ∈ (s.blankRegs 1 cause).supply.shorted := by
    rw [State.regsOnly_eq (s.blankRegs_regsOnly 1 cause) State.supply rfl]; exact h
  have hkey : regKey unitMgmt (groupOff i) ≠ regKey unitMgmt rCFG_BOOT_COUNT := by
    simp only [regKey, groupOff, rPWR_GROUP, rCFG_BOOT_COUNT]; omega
  rw [State.moduleReset, State.fld_bump_other _ _ _ _ _ _ hkey, State.powerOn_eq]
  exact State.fld_latchGroups _ hmem

/-- A reset goes by the log, the fuses, the queue and the count of resets alone. -/
theorem State.moduleIsReset_congr {s t u : State} {cause : Nat} (h : Claims.ModuleIsReset t u cause) (hlog : t.boot.log = s.boot.log)
    (hrom : t.rom = s.rom) (hpending : t.pending = s.pending)
    (hcount : t.reg unitMgmt rCFG_BOOT_COUNT = s.reg unitMgmt rCFG_BOOT_COUNT) : Claims.ModuleIsReset s u cause := by
  unfold Claims.ModuleIsReset at h ⊢
  rwa [hlog, hrom, hpending, State.fld_congr hcount] at h

/-! Converter groups. -/

/-- A group has latched off, after a short for good. -/
def State.groupLatched (s : State) (i cause : Nat) : State :=
  if cause = 1 then { s.latchGroup i with supply := { (s.latchGroup i).supply with shorted := insertAsc i (s.latchGroup i).supply.shorted } }
  else s.latchGroup i

/-- The latch is reported: to the owner of a die or edge die, or as fatal to the module. -/
def State.groupReported (s : State) (i cause : Nat) (sev : Severity) (src : EventSrc) : State :=
  (s.groupLatched i cause).raise sev 0x85 src none (i + 2 ^ 8 * cause)

theorem State.groupLost_eq {i : Nat} (cause : Nat) (h : s.fld unitMgmt (groupOff i) 0 2 ≠ 2) : s.groupLost i cause =
    if i < 204 then (s.groupReported i cause .jobAffecting ⟨i, 0x3F, false, 0⟩).dieLost i
    else if i < 210 ∨ i = 219 then (s.groupReported i cause .moduleFatal .none).moduleReset 2
    else (s.groupReported i cause .jobAffecting (edgeSrc (i - 210) 0x3F)).edgeLost (i - 210) 0 := by
  rw [State.groupLost, if_neg h]
  rfl

theorem State.groupLatched_spec (i cause : Nat) :
    (s.groupLatched i cause).fld unitMgmt (groupOff i) 0 2 = 2
      ∧ (s.groupLatched i cause).reg unitMgmt rCFG_BOOT_COUNT = s.reg unitMgmt rCFG_BOOT_COUNT
      ∧ ({ s.groupLatched i cause with regs := s.regs, hw := s.hw, supply := s.supply } : State) = s
      ∧ (cause = 1 → i ∈ (s.groupLatched i cause).supply.shorted) := by
  have hcount : (s.latchGroup i).reg unitMgmt rCFG_BOOT_COUNT = s.reg unitMgmt rCFG_BOOT_COUNT :=
    s.reg_setFld_other _ _ _ (by simp only [regKey, groupOff, rPWR_GROUP, rCFG_BOOT_COUNT]; omega)
  unfold State.groupLatched
  split
  next h => exact ⟨s.fld_setFld_same _ _ _ _ _, hcount, rfl, fun _ => mem_insertAsc.2 (.inl rfl)⟩
  next h => exact ⟨s.fld_setFld_same _ _ _ _ _, hcount, rfl, fun h' => absurd h' h⟩

section
variable (i cause : Nat) (sev : Severity) (src : EventSrc)

theorem State.fld_groupReported (hi : i < 220) : (s.groupReported i cause sev src).fld unitMgmt (groupOff i) 0 2 = 2 :=
  ((State.raise_keepsLosses _ _ _ _ _ _ _).fld (powerReg_group hi) 0 2).trans (s.groupLatched_spec i cause).1

theorem State.groupReported_bootCount :
    (s.groupReported i cause sev src).reg unitMgmt rCFG_BOOT_COUNT = s.reg unitMgmt rCFG_BOOT_COUNT :=
  (State.reg_raise _ _ _ _ _ _ _ (by decide)).trans (s.groupLatched_spec i cause).2.1

/-- A part of the state that the latch of a group leaves. -/
theorem State.groupLatched_eq {β : Type} (f : State → β)
    (hf : f { s.groupLatched i cause with regs := s.regs, hw := s.hw, supply := s.supply } = f (s.groupLatched i cause)) :
    f (s.groupLatched i cause) = f s := by
  obtain ⟨_, _, hrest, _⟩ := s.groupLatched_spec i cause
  exact hf.symm.trans (congrArg f hrest)

theorem State.groupReported_boot : (s.groupReported i cause sev src).boot = s.boot :=
  (State.raise_boot ..).trans (s.groupLatched_eq i cause State.boot rfl)

theorem State.groupReported_rom : (s.groupReported i cause sev src).rom = s.rom :=
  (State.raise_rom ..).trans (s.groupLatched_eq i cause State.rom rfl)

theorem State.groupReported_pending : (s.groupReported i cause sev src).pending = s.pending :=
  (State.raise_pending ..).trans (s.groupLatched_eq i cause State.pending rfl)

theorem State.mem_shorted_groupReported : i ∈ (s.groupReported i 1 sev src).supply.shorted := by
  rw [State.groupReported, State.raise_supply]
  exact (s.groupLatched_spec i 1).2.2.2 rfl

end

section
variable {i : Nat} (cause : Nat) (h : s.fld unitMgmt (groupOff i) 0 2 ≠ 2)
include h

theorem State.groupLost_die (hi : i < 204) : Claims.GroupIsOff s (s.groupLost i cause) i
    ∧ (s.groupLost i cause).fld unitMgmt (groupOff i) 0 2 = 2
    ∧ (cause = 1 → i ∈ (s.groupLost i cause).supply.shorted) := by
  rw [s.groupLost_eq cause h, if_pos hi]
  have hlost := State.dieLost_keepsLosses (s.groupReported i cause .jobAffecting ⟨i, 0x3F, false, 0⟩) i
  have hoff := (hlost.fld (powerReg_group (by omega)) 0 2).trans (s.fld_groupReported i cause _ _ (by omega))
  refine ⟨⟨fun _ => ⟨hoff, fun hbad => State.dieLost_isLost _ ?_⟩, by omega, by omega⟩, hoff, ?_⟩
  · rwa [State.groupReported_boot]
  · rintro rfl
    rw [hlost.shorted]
    exact s.mem_shorted_groupReported i _ _

theorem State.groupLost_module (hi : ¬ i < 204) (hm : i < 210 ∨ i = 219) : Claims.ModuleIsReset s (s.groupLost i cause) 2
    ∧ (cause = 1 → (s.groupLost i cause).fld unitMgmt (groupOff i) 0 2 = 2 ∧ i ∈ (s.groupLost i cause).supply.shorted) := by
  rw [s.groupLost_eq cause h, if_neg hi, if_pos hm]
  refine ⟨State.moduleIsReset_congr (State.moduleReset_isReset _ 2) (congrArg Boot.log (s.groupReported_boot ..))
    (s.groupReported_rom ..) (s.groupReported_pending ..) (s.groupReported_bootCount ..), ?_⟩
  rintro rfl
  have hmem := s.mem_shorted_groupReported i .moduleFatal .none
  exact ⟨State.fld_moduleReset_shorted _ 2 hmem, by rwa [State.moduleReset_shorted]⟩

theorem State.groupLost_edge (hi : 210 ≤ i) (he : i < 219) : (s.groupLost i cause).fld unitMgmt (groupOff i) 0 2 = 2
    ∧ (i - 210) ∈ (s.groupLost i cause).boot.badEdges ∧ (cause = 1 → i ∈ (s.groupLost i cause).supply.shorted) := by
  rw [s.groupLost_eq cause h, if_neg (by omega), if_neg (by omega)]
  obtain ⟨hlost, hbad⟩ := State.edgeLost_spec (s.groupReported i cause .jobAffecting (edgeSrc (i - 210) 0x3F)) (i - 210) 0
  refine ⟨(hlost.fld (powerReg_group (by omega)) 0 2).trans (s.fld_groupReported i cause _ _ (by omega)), hbad, ?_⟩
  rintro rfl
  rw [hlost.shorted]
  exact s.mem_shorted_groupReported i _ _

/-- A group that latches off takes with it what it feeds; after a short it stays latched (R387). -/
theorem State.groupLost_spec (hi : i < 220) : Claims.GroupIsOff s (s.groupLost i cause) i
    ∧ (cause = 1 → (s.groupLost i cause).fld unitMgmt (groupOff i) 0 2 = 2 ∧ i ∈ (s.groupLost i cause).supply.shorted) := by
  by_cases hdie : i < 204
  · obtain ⟨hisOff, hoff, hshort⟩ := s.groupLost_die cause h hdie
    exact ⟨hisOff, fun hc => ⟨hoff, hshort hc⟩⟩
  by_cases hmod : i < 210 ∨ i = 219
  · obtain ⟨hreset, hshort⟩ := s.groupLost_module cause h hdie hmod
    exact ⟨⟨fun hd => absurd hd hdie, fun _ => hreset, by omega⟩, hshort⟩
  · obtain ⟨hoff, hbad, hshort⟩ := s.groupLost_edge cause h (by omega) (by omega)
    exact ⟨⟨fun hd => absurd hd hdie, by omega, fun _ _ => ⟨hoff, hbad⟩⟩, fun hc => ⟨hoff, hshort hc⟩⟩

end

end Sys2Proof.Machine

/-!
The failures of converter groups (R377–R379, R387, R507).
-/
namespace Sys2Proof.Machine

variable (s : State)

/-- A phase of a group is gone: the group shows it, and a die's own register; it is logged and reported (R378). -/
def State.phaseGone (s : State) (i ph : Nat) : State :=
  let t := s.setFld unitMgmt (groupOff i) (2 + ph) 1 0
  let t := if i < 204 then t.setFld (unitDie i) rPWR_DIE_STATUS (9 + ph) 1 0 else t
  (t.appendLog 6 (groupSite i) ph i).raise .degraded 0x80 (groupSrc i) none 0

theorem State.reg_group_phaseGone {i : Nat} (ph : Nat) (hi : i < 220) :
    (s.phaseGone i ph).reg unitMgmt (groupOff i) = (s.setFld unitMgmt (groupOff i) (2 + ph) 1 0).reg unitMgmt (groupOff i) := by
  unfold State.phaseGone
  refine ((State.raise_keepsLosses _ _ _ _ _ _ _).reg _ _ (powerReg_group hi)).trans ?_
  refine ((State.appendLog_keepsLosses _ _ _ _ _).reg _ _ (powerReg_group hi)).trans ?_
  split
  next hd => exact State.reg_setFld_other _ _ _ _ (regKey_group_ne_unitDie i i hi hd (by decide))
  next => rfl

theorem State.phaseGone_oneEvent (i ph : Nat) : Claims.OneEvent s (s.phaseGone i ph) := by
  have h := State.raise_oneEvent
    ((if i < 204 then (s.setFld unitMgmt (groupOff i) (2 + ph) 1 0).setFld (unitDie i) rPWR_DIE_STATUS (9 + ph) 1 0
      else s.setFld unitMgmt (groupOff i) (2 + ph) 1 0).appendLog 6 (groupSite i) ph i) .degraded 0x80 (groupSrc i) none 0 false
  refine h.trans ?_
  split <;> rfl

theorem State.phaseGone_logged (i ph : Nat) : Claims.Logged s (s.phaseGone i ph) 6 (groupSite i) ph i := by
  intro hlen
  unfold State.phaseGone
  rw [State.raise_boot]
  split
  · exact State.appendLog_log ((s.setFld unitMgmt (groupOff i) (2 + ph) 1 0).setFld (unitDie i) rPWR_DIE_STATUS (9 + ph) 1 0) _ _ _ _ hlen
  · exact State.appendLog_log (s.setFld unitMgmt (groupOff i) (2 + ph) 1 0) _ _ _ _ hlen

section
variable {i : Fin 220} {ph : Fin 4} (hph : ph.val < groupPhases i.val) (hworks : s.fld unitMgmt (groupOff i.val) (2 + ph.val) 1 = 1)
include hph hworks

theorem State.phasesLeft_phaseGone : Claims.phasesLeft (s.phaseGone i.val ph.val) i.val + 1 = Claims.phasesLeft s i.val := by
  have hn : groupPhases i.val ≤ 4 := by unfold groupPhases; split <;> decide
  unfold Claims.phasesLeft
  rw [State.fld_congr (s.reg_group_phaseGone ph.val i.isLt)]
  exact s.length_bitsOf_setFld_clear unitMgmt (groupOff i.val) hph hn hworks

/-- What the loss of a working phase does, by the phases that are left (R378, R379, R507). -/
theorem execConverterPhaseFailure_eq : execConverterPhaseFailure i ph s =
    if groupPhases i.val - Claims.phasesLeft (s.phaseGone i.val ph.val) i.val < 2 then .next (s.phaseGone i.val ph.val)
    else if i.val < 204 then
      if s.fld (unitDie i.val) rPWR_DIE_STATUS 5 2 = 2 then .next (s.phaseGone i.val ph.val)
      else .next (((s.phaseGone i.val ph.val).setFld unitMgmt (groupOff i.val) 0 2 1).derate i.val 2)
    else .next ((s.phaseGone i.val ph.val).groupLost i.val 1) := by
  rw [execConverterPhaseFailure]
  rw [if_neg (by omega)]
  rfl

end

/-- A derated die shows the cause (R389). -/
theorem State.fld_derate (site cause : Nat) :
    (s.derate site cause).fld (unitDie site) rPWR_DIE_STATUS 5 2 = cause % 2 ^ 2 := s.fld_setFld_same _ _ _ _ _

theorem State.fld_derate_other {u off site : Nat} (cause lo w : Nat) (h : regKey u off ≠ regKey (unitDie site) rPWR_DIE_STATUS) :
    (s.derate site cause).fld u off lo w = s.fld u off lo w := s.fld_setFld_other _ _ _ _ _ h

theorem State.setFld_derate_events (u off lo w v site cause : Nat) :
    ((s.setFld u off lo w v).derate site cause).events = s.events := rfl

theorem State.fld_phase_phaseGone {i ph : Nat} (hi : i < 220) :
    (s.phaseGone i ph).fld unitMgmt (groupOff i) (2 + ph) 1 = 0 := by
  rw [State.fld_congr (s.reg_group_phaseGone ph hi), State.fld_setFld_same, Nat.zero_mod]

theorem State.fld_state_phaseGone {i ph : Nat} (hi : i < 220) :
    (s.phaseGone i ph).fld unitMgmt (groupOff i) 0 2 = s.fld unitMgmt (groupOff i) 0 2 := by
  rw [State.fld_congr (s.reg_group_phaseGone ph hi), State.fld_setFld_apart _ _ _ _ (.inl (by omega))]

end Sys2Proof.Machine

namespace Sys2Proof.Claims

open Sys2Proof.Machine

section
variable {s : State} {i : Fin 220} {ph : Fin 4} (hph : ph.val < groupPhases i.val)
  (hworks : s.fld unitMgmt (groupOff i.val) (2 + ph.val) 1 = 1)
include hph hworks

/-- The first phase of a group is lost. -/
theorem firstPhaseLost (hall : phasesLeft s i.val = groupPhases i.val) : ∃ t, exec (.converterPhaseFailure i ph) s = .next t
    ∧ t.fld unitMgmt (groupOff i.val) (2 + ph.val) 1 = 0
    ∧ t.fld unitMgmt (groupOff i.val) 0 2 = s.fld unitMgmt (groupOff i.val) 0 2
    ∧ Logged s t 6 (groupSite i.val) ph.val i.val ∧ OneEvent s t := by
  have hleft := s.phasesLeft_phaseGone hph hworks
  refine ⟨s.phaseGone i.val ph.val, ?_, s.fld_phase_phaseGone i.isLt, s.fld_state_phaseGone i.isLt,
    s.phaseGone_logged _ _, s.phaseGone_oneEvent _ _⟩
  rw [exec_converterPhaseFailure, execConverterPhaseFailure_eq s hph hworks, if_pos (by omega)]

/-- The second phase of a die's group is lost: the die is derated. -/
theorem secondPhaseLost_die (hi : i.val < 204) (hthree : phasesLeft s i.val = 3)
    (hcause : s.fld (unitDie i.val) rPWR_DIE_STATUS 5 2 ≠ 2) : ∃ t, exec (.converterPhaseFailure i ph) s = .next t
    ∧ t.fld unitMgmt (groupOff i.val) (2 + ph.val) 1 = 0 ∧ t.fld unitMgmt (groupOff i.val) 0 2 = 1
    ∧ t.fld (unitDie i.val) rPWR_DIE_STATUS 5 2 = 2 ∧ OneEvent s t := by
  have hleft := s.phasesLeft_phaseGone hph hworks
  have hphases : groupPhases i.val = 4 := if_pos hi
  have hkey := regKey_group_ne_unitDie i.val i.val i.isLt hi (off := rPWR_DIE_STATUS) (by decide)
  refine ⟨((s.phaseGone i.val ph.val).setFld unitMgmt (groupOff i.val) 0 2 1).derate i.val 2, ?_, ?_, ?_, ?_,
    (congrArg Events.seq (State.setFld_derate_events ..)).trans (s.phaseGone_oneEvent i.val ph.val)⟩
  · rw [exec_converterPhaseFailure, execConverterPhaseFailure_eq s hph hworks, if_neg (by omega), if_pos hi, if_neg hcause]
  · rw [State.fld_derate_other _ _ _ _ hkey, State.fld_setFld_apart _ _ _ _ (.inr (by omega)), s.fld_phase_phaseGone i.isLt]
  · exact (State.fld_derate_other _ _ _ _ hkey).trans (State.fld_setFld_same _ _ _ _ _ _)
  · exact State.fld_derate _ i.val 2

/-- The second phase of a group of two is lost: the group latches off. -/
theorem secondPhaseLost_pair (hi : 204 ≤ i.val) (hone : phasesLeft s i.val = 1) (hon : s.fld unitMgmt (groupOff i.val) 0 2 ≠ 2) :
    ∃ t, exec (.converterPhaseFailure i ph) s = .next t ∧ (210 ≤ i.val → i.val < 219 → GroupIsOff s t i.val)
      ∧ (i.val < 210 ∨ i.val = 219 → t.gen = TickGen.reset ∧ t.cores = [] ∧ t.boot.cause = 2) := by
  have hleft := s.phasesLeft_phaseGone hph hworks
  have hphases : groupPhases i.val = 2 := if_neg (by omega)
  have hon' : (s.phaseGone i.val ph.val).fld unitMgmt (groupOff i.val) 0 2 ≠ 2 := by rwa [s.fld_state_phaseGone i.isLt]
  refine ⟨(s.phaseGone i.val ph.val).groupLost i.val 1, ?_, fun h210 h219 => ?_, fun hm => ?_⟩
  · rw [exec_converterPhaseFailure, execConverterPhaseFailure_eq s hph hworks, if_neg (by omega), if_neg (by omega)]
  · obtain ⟨hoff, hbad, _⟩ := State.groupLost_edge _ 1 hon' h210 h219
    exact ⟨by omega, by omega, fun _ _ => ⟨hoff, hbad⟩⟩
  · obtain ⟨hreset, _⟩ := State.groupLost_module _ 1 hon' (by omega) hm
    obtain ⟨hgen, hcores, _, _, _, _, _, hcause, _⟩ := hreset
    exact ⟨hgen, hcores, hcause⟩

end

theorem converterGroups : ConverterGroups := by
  intro s i ph
  refine ⟨fun hph hworks => ⟨firstPhaseLost hph hworks, secondPhaseLost_die hph hworks, secondPhaseLost_pair hph hworks⟩,
    fun hon => ⟨?_, ?_⟩⟩
  · obtain ⟨hisOff, hshort⟩ := s.groupLost_spec 1 hon i.isLt
    exact ⟨_, rfl, hisOff, hshort rfl⟩
  · exact ⟨_, rfl, (s.groupLost_spec 2 hon i.isLt).1⟩

end Sys2Proof.Claims

/-!
SUPPORT. Power regions: what a dark region shows (R385), and what the turn-on of a region leaves (R383).
-/
namespace Sys2Proof.Machine

/-- A part of a field written. -/
theorem field_setField_inside (x v : Nat) {lo w lo' w' : Nat} (hlo : lo ≤ lo') (hw : lo' + w' ≤ lo + w) :
    field (setField x lo w v) lo' w' = field v (lo' - lo) w' := Nat.eq_of_testBit_eq fun i => by
  rw [testBit_field, testBit_field, testBit_setField]
  by_cases h : i < w'
  · rw [if_pos (by omega), show lo' + i - lo = lo' - lo + i by omega]
  · simp [h]

variable (s : State)

/-! Regions in their power manager. -/

theorem State.die_congr {s t : State} (h : t.power = s.power) (v : Nat) : t.die v = s.die v :=
  congrArg (fun m => SMap.get DiePower.reset m v) h

theorem State.appendLog_power (kind site unit detail : Nat) : (s.appendLog kind site unit detail).power = s.power := rfl

theorem State.region_modRegion (site r : Nat) (f : Region → Region) :
    ((s.modRegion site r f).die site).region r = f ((s.die site).region r) := by
  rw [State.modRegion, State.die_modDie, if_pos rfl, DiePower.region, SMap.get_set_same]

/-! Dark regions (R385). -/

theorem State.noteLoss_keepsLosses (p : Nat) (inj : Bool) : s.KeepsLosses (s.noteLoss p inj) := by
  have hloss (x : State) (e : Nat × Nat) : x.KeepsLosses
      (({ x with maint := { x.maint with coreLosses := x.maint.coreLosses ++ [e] } } : State).bump unitMgmt rMNT_FAULT_COUNT 0 16 1) := by
    have hlist : x.KeepsLosses { x with maint := { x.maint with coreLosses := x.maint.coreLosses ++ [e] } } := .of_eq rfl rfl
    exact hlist.trans (State.bump_keepsLosses _ _ _ _ (noPowerReg_of_off _ (by decide)))
  unfold State.noteLoss
  refine .trans ?_ (State.raise_keepsLosses _ _ _ _ _ _ _)
  exact .ite (.refl s) (hloss _ _)

/-- The registers of a region that goes dark: off, its phases as they were, and not requested. -/
def State.darkened (s : State) (site r : Nat) : State :=
  (s.setReg (unitDie site) (statOff r) (3 + 2 ^ 6 * s.fld (unitDie site) (statOff r) 6 5)).setFld (unitDie site) rPWR_REGION_CTRL r 1 0

theorem State.darkened_keepsLosses_darkRegion (site r code : Nat) : (s.darkened site r).KeepsLosses (s.darkRegion site r code) := by
  have hreport (x : State) (ph : Nat) : x.KeepsLosses ((x.appendLog 5 site r (2 + 2 ^ 4 * ph)).raise .degraded code ⟨site, r, false, 0⟩ none 0) :=
    (x.appendLog_keepsLosses _ _ _ _).trans (State.raise_keepsLosses _ _ _ _ _ _ _)
  unfold State.darkRegion
  refine (hreport _ (s.fld (unitDie site) (statOff r) 6 5)).trans (.ite (.refl _) ?_)
  refine .trans ?_ (State.abandonOldest_keepsLosses _ _ _)
  refine .trans ?_ (State.autoTack_keepsLosses _ _)
  exact .foldl (fun s p => s.noteLoss_keepsLosses p false) _ _

theorem regKey_statOff_ne_regionCtrl (u u' r : Nat) (hr : r < 10) : regKey u (statOff r) ≠ regKey u' rPWR_REGION_CTRL :=
  regKey_ne_of_off (by simp only [statOff, rPWR_REGION_STAT]; omega) (by decide)
    (by simp only [statOff, rPWR_REGION_STAT, rPWR_REGION_CTRL]; omega)

theorem State.darkRegion_isDark {site r : Nat} (code : Nat) (hs : site < 204) (hr : r < 10) :
    Claims.RegionIsDark (s.darkRegion site r code) site r := by
  have h := s.darkened_keepsLosses_darkRegion site r code
  constructor
  · rw [State.regionState, h.fld (powerReg_statOff hs hr), State.darkened,
      State.fld_setFld_other _ _ _ _ _ _ (regKey_statOff_ne_regionCtrl _ _ r hr), State.fld_setReg_same]
    simp only [field]; omega
  · rw [h.fld (powerReg_regionCtrl hs), State.darkened, State.fld_setFld_same, Nat.zero_mod]

/-! The reset of a core (R58). -/

theorem State.newPacket_keepsLosses (x : Packet) : s.KeepsLosses (s.newPacket x) := .of_eq rfl rfl

theorem State.drawMid_keepsLosses (key a b : Nat) : s.KeepsLosses (s.drawMid key a b).2 := by
  unfold State.drawMid
  dsimp only
  split
  · exact .of_eq rfl rfl
  · exact .of_eq rfl rfl

theorem State.reply_keepsLosses (id : Nat) (st : Status) (data : List Byte) : s.KeepsLosses (s.reply id st data) := by
  have hmid (x : State) (valiant : Bool) (key a b : Nat) :
      x.KeepsLosses (if valiant then x.drawMid key a b else (none, x)).2 := by
    split
    · exact x.drawMid_keepsLosses key a b
    · exact .refl x
  have haccess (x : State) (a : Option Access) : x.KeepsLosses (x.setAccess id a) := .of_eq rfl rfl
  unfold State.reply
  split
  · exact .refl s
  · dsimp only
    split
    · exact haccess _ _
    · refine .trans ?_ (State.newPacket_keepsLosses _ _)
      refine .trans ?_ (hmid _ _ _ _ _)
      exact haccess s _

theorem State.answerCredit_keepsLosses (id : Nat) (ans : CreditAnswer) : s.KeepsLosses (s.answerCredit id ans) := by
  unfold State.answerCredit
  split
  · exact .refl s
  · exact .of_eq rfl rfl

theorem get_filter_of_keeps {α : Type} (d : α) (p : Nat × α → Bool) (m : SMap α) {k : Nat} (h : ∀ v, p (k, v) = true) :
    SMap.get d (m.filter p) k = SMap.get d m k := by
  induction m with
  | nil => rfl
  | cons e m ih =>
    obtain ⟨j, w⟩ := e
    by_cases hj : k = j
    · subst hj
      rw [List.filter_cons_of_pos (h w)]
      simp [SMap.get]
    · rw [List.filter_cons]
      split
      · simp only [SMap.get, if_neg hj, ih]
      · rw [ih]; simp only [SMap.get, if_neg hj]

/-- A reset of registers leaves those of other holders. -/
theorem State.reg_resetRegs_other (us : Nat → Bool) (lvl : Nat) (keep : Nat → Nat → Bool) {u off : Nat} (ho : off < 2 ^ 32)
    (h : us u = false) : (s.resetRegs us lvl keep).reg u off = s.reg u off := by
  refine get_filter_of_keeps _ _ _ fun v => ?_
  have hu : regKey u off / 0x100000000 = u := by simp only [regKey]; omega
  simp [hu, h]

theorem PowerReg.off_lt {u off : Nat} (h : PowerReg u off) : off < 2 ^ 32 := by
  rcases h with ⟨_, _, _, h⟩ | ⟨_, _, h⟩ <;> omega

theorem PowerReg.not_core {u off : Nat} (h : PowerReg u off) : 0x4000 ≤ u := by
  rcases h with ⟨h, _⟩ | ⟨rfl, _⟩
  · exact h
  · decide

theorem State.coreReset_keepsLosses {p : Nat} (hp : p < 0x4000) : s.KeepsLosses (s.coreReset p) := by
  have hregs (x : State) : x.KeepsLosses (x.resetRegs (· == unitCore p) 2 (fun _ off => off == rCORE_CLOCK)) :=
    .of_reg (fun u off h => x.reg_resetRegs_other _ _ _ h.off_lt
      (by have := h.not_core; simp only [unitCore, beq_eq_false_iff_ne]; omega)) rfl
  have hrouter (x : State) : x.KeepsLosses (x.resetRouter p) := .of_eq rfl rfl
  unfold State.coreReset
  refine .trans ?_ (State.modCore_keepsLosses _ p _)
  refine .trans (.trans ?_ (hregs _)) (hrouter _)
  exact .trans (.foldl (fun s id => s.reply_keepsLosses id _ _) _ s) (.foldl (fun s r => s.answerCredit_keepsLosses _ _) _ _)

theorem State.reinit_keepsLosses (p : Nat) : s.KeepsLosses (s.reinit p) :=
  .ite_self (s.setFld_keepsLosses _ _ _ (noPowerReg_of_off _ (by decide)))

/-! A region that is on (R383). -/

theorem regionCores_lt {site r p : Nat} (hs : site < 204) (hr : r < 10) (hp : p ∈ regionCores site r) : p < 0x4000 := by
  simp only [regionCores, List.mem_map, List.mem_range] at hp
  omega

theorem State.sealAfterRegions_keepsLosses : s.KeepsLosses s.sealAfterRegions := by
  unfold State.sealAfterRegions
  refine .ite (.refl s) (.foldl (fun s e => .foldl (fun s c => .ite (.refl s) ?_) _ _) _ _)
  split
  · exact .trans (s.recordSeal_keepsLosses _) (State.finish_keepsLosses _ _ _ _ _ _)
  · exact .trans (s.sealed_keepsLosses _ _ _) (State.finish_keepsLosses _ _ _ _ _ _)

/-- A change of rate shows in a bit of the region's register, and in registers of the clocks. -/
theorem State.reg_setHalf {site r off : Nat} (on : Bool) (hs : site < 204) (ho : 0x70000 ≤ off ∧ off < 0x80000) :
    (s.setHalf site r on).reg (unitDie site) off = (s.setFld (unitDie site) (statOff r) 11 1 (b2n on)).reg (unitDie site) off := by
  have hcores (x : State) : x.KeepsLosses ((regionCores site r).foldl (fun s p => s.setFld (unitCore p) rCORE_CLOCK 32 1 (b2n on)) x) :=
    .foldl (fun s p => s.setFld_keepsLosses _ _ _ (noPowerReg_of_off _ (by decide))) _ x
  unfold State.setHalf
  refine ((hcores _).reg _ _ (powerReg_unitDie hs (by omega))).trans ?_
  rw [State.reg_setFld_other _ _ _ _ (by simp only [regKey, rCLK_MARGIN]; omega),
    State.reg_setFld_other _ _ _ _ (by simp only [regKey, rCLK_DIE_STATUS]; omega)]

/-- The registers of a region that turns on. -/
def State.turnedOn (s : State) (site r : Nat) : State :=
  ((s.setFld (unitDie site) (statOff r) 0 2 2).setFld (unitDie site) (statOff r) 20 12 ((s.planOf site r).1 % 1024)).setFld
    (unitDie site) rPWR_REGION_CTRL r 1 0

/-- The working cores of a region that turns on start anew. -/
def State.coresStarted (s : State) (site r : Nat) : State :=
  (regionCores site r).foldl (fun (s : State) p => if s.boot.badCores.contains p then s else (s.coreReset p).reinit p) s

theorem State.coresStarted_keepsLosses {site r : Nat} (hs : site < 204) (hr : r < 10) : s.KeepsLosses (s.coresStarted site r) :=
  .foldl_mem (fun p hp s =>
    .ite (.refl s) ((s.coreReset_keepsLosses (regionCores_lt hs hr hp)).trans (State.reinit_keepsLosses _ p))) s

theorem State.regionOn_eq (site r : Nat) : ∃ on, s.regionOn site r = ((s.turnedOn site r).coresStarted site r).setHalf site r on := by
  unfold State.regionOn State.turnedOn State.coresStarted
  exact ⟨_, rfl⟩

/-- The region is on at its plan voltage, and its request is served. -/
theorem State.regionOn_spec {site r : Nat} (hs : site < 204) (hr : r < 10) :
    (s.regionOn site r).regionState site r = 2 ∧ (s.regionOn site r).regionMv site r = (s.planOf site r).1 % 1024
      ∧ (s.regionOn site r).fld (unitDie site) rPWR_REGION_CTRL r 1 = 0 := by
  obtain ⟨on, heq⟩ := s.regionOn_eq site r
  have hcores := (s.turnedOn site r).coresStarted_keepsLosses hs hr
  have hkey := regKey_statOff_ne_regionCtrl (unitDie site) (unitDie site) r hr
  have hmv : (s.planOf site r).1 % 1024 % 2 ^ 12 = (s.planOf site r).1 % 1024 := by omega
  have hstat (lo w : Nat) (h : lo + w ≤ 11 ∨ 12 ≤ lo) :
      (s.regionOn site r).fld (unitDie site) (statOff r) lo w = (s.turnedOn site r).fld (unitDie site) (statOff r) lo w := by
    rw [heq, State.fld_congr (State.reg_setHalf _ _ hs (by simp only [statOff, rPWR_REGION_STAT]; omega)),
      State.fld_setFld_apart _ _ _ _ h, hcores.fld (powerReg_statOff hs hr)]
  refine ⟨?_, ?_, ?_⟩
  · rw [State.regionState, hstat 0 2 (.inl (by omega)), State.turnedOn, State.fld_setFld_other _ _ _ _ _ _ hkey,
      State.fld_setFld_apart _ _ _ _ (.inl (by omega)), State.fld_setFld_same]
    rfl
  · rw [State.regionMv, hstat 20 12 (.inr (by omega)), State.turnedOn, State.fld_setFld_other _ _ _ _ _ _ hkey,
      State.fld_setFld_same, hmv]
  · rw [heq, State.fld_congr (State.reg_setHalf _ _ hs (by decide)), State.fld_setFld_other _ _ _ _ _ _ hkey.symm,
      hcores.fld (powerReg_regionCtrl hs), State.turnedOn, State.fld_setFld_same, Nat.zero_mod]

end Sys2Proof.Machine

/-!
The failures of region regulators, and the requests, turn-ons and turn-offs of regions (R383–R385).
-/
namespace Sys2Proof.Machine

variable (s : State)

/-! Failures (R385). -/

/-- A phase of a region is gone. -/
def State.regionPhaseGone (s : State) (site r k : Nat) : State := s.setFld (unitDie site) (statOff r) (6 + k) 1 0

/-- The phases of a region that work. -/
def State.regionPhases (s : State) (site r : Nat) : Nat := (bitsOf 5 (s.fld (unitDie site) (statOff r) 6 5)).length

theorem State.losePhase_eq (site r k : Nat) : s.losePhase site r (some k) false =
    if 4 ≤ (s.regionPhaseGone site r k).regionPhases site r then
      ((s.regionPhaseGone site r k).appendLog 5 site r
        (2 ^ 4 * (s.regionPhaseGone site r k).fld (unitDie site) (statOff r) 6 5)).raise .degraded 0x81 ⟨site, r, false, 0⟩ none 0
    else if (s.regionPhaseGone site r k).regionPhases site r = 3 then
      (((s.regionPhaseGone site r k).modRegion site r (fun x => { x with faultHalf := true, toHalf := true })).appendLog 5 site r
        (1 + 2 ^ 4 * (s.regionPhaseGone site r k).fld (unitDie site) (statOff r) 6 5)).raise .degraded 0x82 ⟨site, r, false, 0⟩ none 0
    else (s.regionPhaseGone site r k).darkRegion site r 0x83 := rfl

theorem State.regionPhases_regionPhaseGone {site r k : Nat} (hk : k < 5) (h : s.fld (unitDie site) (statOff r) (6 + k) 1 = 1) :
    (s.regionPhaseGone site r k).regionPhases site r + 1 = s.regionPhases site r :=
  s.length_bitsOf_setFld_clear _ _ hk (Nat.le_refl 5) h

theorem State.fld_regionPhaseGone (site r k : Nat) :
    (s.regionPhaseGone site r k).fld (unitDie site) (statOff r) (6 + k) 1 = 0 := by
  rw [State.regionPhaseGone, State.fld_setFld_same, Nat.zero_mod]

theorem State.appendLog_events (kind site item detail : Nat) : (s.appendLog kind site item detail).events = s.events := rfl

/-- A failure that is logged and reported is one event. -/
theorem State.appendLog_raise_oneEvent {s x : State} (h : x.events = s.events) (kind site item detail : Nat) (sev : Severity) (code : Nat)
    (src : EventSrc) (tick : Option Nat) (data : Nat) :
    Claims.OneEvent s ((x.appendLog kind site item detail).raise sev code src tick data) :=
  State.raise_oneEvent_of (by rw [State.appendLog_events, h]) _ _ _ _ _ _

theorem State.regionPhaseGone_events (site r k : Nat) : (s.regionPhaseGone site r k).events = s.events := rfl

theorem State.modRegion_events (site r : Nat) (f : Region → Region) : (s.modRegion site r f).events = s.events := rfl

theorem State.fld_modRegion (site r : Nat) (f : Region → Region) : (s.modRegion site r f).fld = s.fld := rfl

theorem State.regionState_regionPhaseGone (site r k : Nat) :
    (s.regionPhaseGone site r k).regionState site r = s.regionState site r :=
  s.fld_setFld_apart _ _ _ (.inl (by omega))

/-! Requests (R383). -/

theorem requested_setFld (site k j v : Nat) :
    Claims.Requested (s.setFld (unitDie site) rPWR_REGION_CTRL k 1 v) site j
      ↔ if j = k then v % 2 = 1 else Claims.Requested s site j := by
  unfold Claims.Requested
  by_cases h : j = k
  · subst h; rw [State.fld_setFld_same, if_pos rfl, Nat.pow_one]
  · rw [State.fld_setFld_apart _ _ _ _ (by omega), if_neg h]

theorem State.regionState_setCtrl (site k v : Nat) {j : Nat} (hj : j < 10) :
    (s.setFld (unitDie site) rPWR_REGION_CTRL k 1 v).regionState site j = s.regionState site j :=
  s.fld_setFld_other _ _ _ _ _ (regKey_statOff_ne_regionCtrl _ _ j hj)

theorem unplaced_eq_siteDark (site : Nat) : Claims.Unplaced s site = s.siteDark site := by
  simp [Claims.Unplaced, State.siteDark, isSpareSite, BEq.beq]

/-- One bit of a request to turn on. -/
def State.onBit (s : State) (site r : Nat) : State :=
  if s.regionState site r < 2 && !s.siteDark site then s.requestOn (site, r) else s

/-- One bit of a request to turn off. -/
def State.offBit (s : State) (site r : Nat) : State :=
  if s.regionState site r = 1 ∨ s.regionState site r = 2 then
    s.setFld (unitDie site) rPWR_REGION_CTRL (16 + r) 1 (b2n (!s.regionUsed site r))
  else s

theorem State.onBit_regsOnly (site r : Nat) : Claims.RegsOnly s (s.onBit site r) := by
  unfold State.onBit; split
  · exact s.setFld_regsOnly _ _ _ _ _
  · rfl

theorem State.offBit_regsOnly (site r : Nat) : Claims.RegsOnly s (s.offBit site r) := by
  unfold State.offBit; split
  · exact s.setFld_regsOnly _ _ _ _ _
  · rfl

theorem State.regionState_onBit (site r : Nat) {j : Nat} (hj : j < 10) : (s.onBit site r).regionState site j = s.regionState site j := by
  unfold State.onBit; split
  · exact s.regionState_setCtrl site r 1 hj
  · rfl

theorem State.regionState_offBit (site r : Nat) {j : Nat} (hj : j < 10) : (s.offBit site r).regionState site j = s.regionState site j := by
  unfold State.offBit; split
  · exact s.regionState_setCtrl site _ _ hj
  · rfl

/-- The requests to turn on that a write makes. -/
theorem requested_onBits (site : Nat) {l : List Nat} {j : Nat} (hj : j < 10) :
    Claims.Requested (l.foldl (fun (s : State) r => s.onBit site r) s) site j
      ↔ (j ∈ l ∧ s.regionState site j < 2 ∧ s.siteDark site = false) ∨ Claims.Requested s site j := by
  induction l generalizing s with
  | nil => simp
  | cons r l ih =>
    have hdark : (s.onBit site r).siteDark site = s.siteDark site :=
      State.regsOnly_eq (s.onBit_regsOnly site r) (fun x => x.siteDark site) rfl
    have hbit : Claims.Requested (s.onBit site r) site j
        ↔ (j = r ∧ s.regionState site j < 2 ∧ s.siteDark site = false) ∨ Claims.Requested s site j := by
      unfold State.onBit
      split
      next h =>
        simp only [Bool.and_eq_true, decide_eq_true_eq, Bool.not_eq_true'] at h
        rw [State.requestOn, requested_setFld]
        by_cases hjr : j = r
        · subst hjr; simp [h]
        · simp [hjr]
      next h =>
        simp only [Bool.and_eq_true, decide_eq_true_eq, Bool.not_eq_true'] at h
        constructor
        · exact .inr
        · rintro (⟨rfl, hoff⟩ | hreq)
          · exact absurd hoff h
          · exact hreq
    rw [List.foldl_cons, ih, hbit, s.regionState_onBit site r hj, hdark, List.mem_cons]
    tauto

/-- The requests to turn off that a write makes: a region that is used takes none (R383). -/
theorem requested_offBits (site : Nat) {l : List Nat} {j : Nat} (hj : j < 10) :
    Claims.Requested (l.foldl (fun (s : State) r => s.offBit site r) s) site (16 + j)
      ↔ if j ∈ l ∧ (s.regionState site j = 1 ∨ s.regionState site j = 2) then s.regionUsed site j = false
        else Claims.Requested s site (16 + j) := by
  induction l generalizing s with
  | nil => simp
  | cons r l ih =>
    have hused : (s.offBit site r).regionUsed site j = s.regionUsed site j :=
      State.regsOnly_eq (s.offBit_regsOnly site r) (fun x => x.regionUsed site j) rfl
    have hbit : Claims.Requested (s.offBit site r) site (16 + j)
        ↔ if j = r ∧ (s.regionState site j = 1 ∨ s.regionState site j = 2) then s.regionUsed site j = false
          else Claims.Requested s site (16 + j) := by
      unfold State.offBit
      split
      next h =>
        rw [requested_setFld]
        by_cases hjr : j = r
        · subst hjr; rw [if_pos rfl, if_pos ⟨rfl, h⟩]; cases s.regionUsed site j <;> simp [b2n]
        · rw [if_neg (by omega), if_neg (fun h => hjr h.1)]
      next h => rw [if_neg (fun ⟨hjr, hon⟩ => h (hjr ▸ hon))]
    rw [List.foldl_cons, ih, hbit, s.regionState_offBit site r hj, hused]
    by_cases hon : s.regionState site j = 1 ∨ s.regionState site j = 2
    · by_cases hl : j ∈ l <;> simp [hon, hl]
    · simp [hon]

/-! Turn-ons (R383). -/

/-- The time at which the next stage closes: after the interval of the one before. -/
def State.stageStart (s : State) (site r : Nat) : State :=
  if s.regionState site r = 1 then s.advanceTo ((s.die site).region r).stageAt else s

/-- A neighbour draws over 85 % of its limit. -/
def State.loud (s : State) (site r : Nat) (below above : BitVec 8) : Bool :=
  (decide (0 < r) && decide (85 * s.regionLimit site (r - 1) < 100 * below.toNat))
    || (decide (r < 9) && decide (85 * s.regionLimit site (r + 1) < 100 * above.toNat))

/-- The end of the interval of a stage that closes now. -/
def State.stageDue (s : State) (site r : Nat) (below above : BitVec 8) : Nat :=
  s.now + (if s.loud site r below above then Config.cycUs else Config.cycUs / 4)

/-- The state and the stages that the region shows after one more. -/
def State.stageCounted (s : State) (site r : Nat) : State :=
  (s.setFld (unitDie site) (statOff r) 0 2 1).setFld (unitDie site) (statOff r) 2 4 (s.fld (unitDie site) (statOff r) 2 4 + 1)

theorem State.stageCounted_regsOnly (site r : Nat) : Claims.RegsOnly s (s.stageCounted site r) :=
  State.regsOnly_trans (State.setFld_regsOnly ..) (State.setFld_regsOnly ..)

/-- A stage closes. -/
def State.stageClosed (s : State) (site r : Nat) (below above : BitVec 8) : State :=
  (s.stageCounted site r).modRegion site r (fun x => { x with stageAt := s.stageDue site r below above })

theorem State.stageStart_spec (site r : Nat) (below above : BitVec 8) :
    Claims.stageOf (s.stageStart site r) site r = Claims.stageOf s site r
      ∧ (s.stageStart site r).loud site r below above = s.loud site r below above
      ∧ (s.stageStart site r).planOf site r = s.planOf site r
      ∧ (s.stageStart site r).now = if s.regionState site r = 1 then Nat.max s.now ((s.die site).region r).stageAt else s.now := by
  unfold State.stageStart; split <;> exact ⟨rfl, rfl, rfl, rfl⟩

theorem State.planOf_stageClosed (site r : Nat) (below above : BitVec 8) (t : Nat) :
    ((s.stageClosed site r below above).advanceTo t).planOf site r = s.planOf site r := by
  obtain ⟨_, _, _, _, _, _, hboot, _, _⟩ := State.regsOnly_frame (s.stageCounted_regsOnly site r)
  exact congrArg (fun b : Boot => SMap.get (750, 0) b.plan (10 * site + r)) hboot

theorem loud_iff (site r : Nat) (below above : BitVec 8) :
    Claims.Loud s site r below.toNat above.toNat ↔ s.loud site r below above = true := by
  simp [Claims.Loud, State.loud]

theorem State.stageDue_eq (site r : Nat) (below above : BitVec 8) :
    s.stageDue site r below above = s.now + (if s.loud site r below above then 2100 else 525) := rfl

theorem State.now_stageClosed (site r : Nat) (below above : BitVec 8) : (s.stageClosed site r below above).now = s.now := by
  obtain ⟨_, _, _, _, hnow, _, _, _, _⟩ := State.regsOnly_frame (s.stageCounted_regsOnly site r)
  exact hnow

theorem State.stageClosed_spec (site r : Nat) (below above : BitVec 8) :
    (s.stageClosed site r below above).regionState site r = 1
      ∧ Claims.stageOf (s.stageClosed site r below above) site r = (Claims.stageOf s site r + 1) % 16
      ∧ (((s.stageClosed site r below above).die site).region r).stageAt = s.stageDue site r below above := by
  refine ⟨?_, State.fld_setFld_same _ _ _ _ _ _, congrArg Region.stageAt (State.region_modRegion _ _ _ _)⟩
  exact (State.fld_setFld_apart _ _ _ _ (.inl (by omega))).trans (s.fld_setFld_same _ _ _ _ _)

/-- A region stays on through the seals that waited for it. -/
theorem State.sealAfterRegions_regionOn {site r : Nat} (hs : site < 204) (hr : r < 10) :
    (s.regionOn site r).sealAfterRegions.regionState site r = 2
      ∧ (s.regionOn site r).sealAfterRegions.regionMv site r = (s.planOf site r).1 % 1024
      ∧ ¬ Claims.Requested (s.regionOn site r).sealAfterRegions site r := by
  obtain ⟨hstate, hmv, hreq⟩ := s.regionOn_spec hs hr
  have hseal := (s.regionOn site r).sealAfterRegions_keepsLosses
  have hstat := powerReg_statOff hs hr
  refine ⟨(hseal.fld hstat 0 2).trans hstate, (hseal.fld hstat 20 12).trans hmv, ?_⟩
  unfold Claims.Requested
  rw [hseal.fld (powerReg_regionCtrl hs), hreq]
  exact Nat.zero_ne_one

/-- The region begins its turn-on now: it is the first one requested, and no other turns on. -/
def State.begins (s : State) (site r : Nat) : Bool :=
  s.regionState site r == 0
    && (List.range 10).find? (fun k => s.regionState site k == 0 && bit (s.reg (unitDie site) rPWR_REGION_CTRL) k) == some r
    && (List.range 10).all (fun k => s.regionState site k != 1)

theorem execRegionStage_eq {site : Fin 204} {r : Fin 10} (below above : BitVec 8)
    (hturn : s.regionState site.val r.val = 1 ∨ s.begins site.val r.val = true) (hwindow : s.turnOnWindow site.val = true)
    (hreef : s.reef = false) : execRegionStage site r below above s =
      if Claims.stageOf (s.stageStart site.val r.val) site.val r.val + 1 < 8 then
        .next ((s.stageStart site.val r.val).stageClosed site.val r.val below above)
      else .next (((((s.stageStart site.val r.val).stageClosed site.val r.val below above).advanceTo
        ((s.stageStart site.val r.val).stageDue site.val r.val below above)).regionOn site.val r.val).sealAfterRegions) := by
  have hgo : ¬ (!(s.regionState site.val r.val == 1 || s.begins site.val r.val) || !s.turnOnWindow site.val || s.reef) = true := by
    rcases hturn with h | h <;> simp [h, hwindow, hreef]
  unfold execRegionStage
  exact if_neg hgo

theorem begins_of_first {site r : Nat} (hr : r < 10) (hoff : s.regionState site r = 0) (hreq : Claims.Requested s site r)
    (hnone : ∀ j, j < 10 → s.regionState site j ≠ 1)
    (hfirst : ∀ j, j < r → ¬ (s.regionState site j = 0 ∧ Claims.Requested s site j)) : s.begins site r = true := by
  have hbit (j : Nat) : Claims.Requested s site j ↔ bit (s.reg (unitDie site) rPWR_REGION_CTRL) j = true := field_bit_eq_one
  have hfind : (List.range 10).find? (fun k => s.regionState site k == 0 && bit (s.reg (unitDie site) rPWR_REGION_CTRL) k) = some r := by
    rw [List.find?_range_eq_some]
    refine ⟨by simp [hoff, (hbit r).1 hreq], List.mem_range.2 hr, fun j hj => ?_⟩
    have := hfirst j hj
    rw [hbit] at this
    simpa [imp_iff_not_or] using this
  unfold State.begins
  rw [hfind]
  simpa [hoff] using hnone

end Sys2Proof.Machine

namespace Sys2Proof.Claims

open Sys2Proof.Machine

section
variable {s : State} {site : Fin 204} {r : Fin 10}

/-! Failures. -/

section
variable (hdark : s.regionState site.val r.val ≠ 3)
include hdark

theorem regionPhaseFailure_next {k : Fin 5} (hk : s.fld (unitDie site.val) (statOff r.val) (6 + k.val) 1 = 1) :
    exec (.regionPhaseFailure site r (some k)) s = .next (s.losePhase site.val r.val (some k.val) false) := by
  simp [execRegionPhaseFailure, when, hdark, hk]

theorem controllerLost : ∃ t, exec (.regionPhaseFailure site r none) s = .next t ∧ RegionIsDark t site.val r.val := by
  refine ⟨s.darkRegion site.val r.val 0x83, ?_, s.darkRegion_isDark _ site.isLt r.isLt⟩
  simp [execRegionPhaseFailure, when, hdark, State.losePhase]

theorem regionOvercurrent : ∃ t, exec (.regionOvercurrent site r) s = .next t ∧ RegionIsDark t site.val r.val := by
  refine ⟨s.darkRegion site.val r.val 0x84, ?_, s.darkRegion_isDark _ site.isLt r.isLt⟩
  simp [execRegionOvercurrent, when, hdark]

variable {k : Fin 5} (hk : s.fld (unitDie site.val) (statOff r.val) (6 + k.val) 1 = 1)
include hk

/-- With four phases left a region goes on. -/
theorem fourPhasesLeft (hn : s.regionPhases site.val r.val = 5) : ∃ t, exec (.regionPhaseFailure site r (some k)) s = .next t
    ∧ OneEvent s t ∧ t.fld (unitDie site.val) (statOff r.val) (6 + k.val) 1 = 0
    ∧ t.regionState site.val r.val = s.regionState site.val r.val := by
  have hleft := s.regionPhases_regionPhaseGone k.isLt hk
  have hstat := powerReg_statOff site.isLt r.isLt
  refine ⟨_, regionPhaseFailure_next hdark hk, ?_⟩
  rw [State.losePhase_eq, if_pos (by omega)]
  refine ⟨State.appendLog_raise_oneEvent (s.regionPhaseGone_events ..) _ _ _ _ _ _ _ _ _, ?_, ?_⟩
  · rw [(State.raise_keepsLosses _ _ _ _ _ _ _).fld hstat, (State.appendLog_keepsLosses _ _ _ _ _).fld hstat, State.fld_regionPhaseGone]
  · rw [State.regionState, (State.raise_keepsLosses _ _ _ _ _ _ _).fld hstat, (State.appendLog_keepsLosses _ _ _ _ _).fld hstat]
    exact s.regionState_regionPhaseGone _ _ _

/-- With three it is to turn to half rate. -/
theorem threePhasesLeft (hn : s.regionPhases site.val r.val = 4) : ∃ t, exec (.regionPhaseFailure site r (some k)) s = .next t
    ∧ OneEvent s t ∧ t.fld (unitDie site.val) (statOff r.val) (6 + k.val) 1 = 0
    ∧ ((t.die site.val).region r.val).toHalf = true ∧ ((t.die site.val).region r.val).faultHalf = true := by
  have hleft := s.regionPhases_regionPhaseGone k.isLt hk
  have hstat := powerReg_statOff site.isLt r.isLt
  refine ⟨_, regionPhaseFailure_next hdark hk, ?_⟩
  rw [State.losePhase_eq, if_neg (by omega), if_pos (by omega)]
  have hregion (x : State) (d : Nat) : ((((x.modRegion site.val r.val (fun y => { y with faultHalf := true, toHalf := true })).appendLog
      5 site.val r.val d).raise .degraded 0x82 ⟨site.val, r.val, false, 0⟩ none 0).die site.val).region r.val
      = { (x.die site.val).region r.val with faultHalf := true, toHalf := true } := by
    rw [State.die_congr (State.raise_power ..), State.die_congr (State.appendLog_power ..), State.region_modRegion]
  refine ⟨State.appendLog_raise_oneEvent ((State.modRegion_events ..).trans (s.regionPhaseGone_events ..)) _ _ _ _ _ _ _ _ _, ?_, ?_, ?_⟩
  · rw [(State.raise_keepsLosses _ _ _ _ _ _ _).fld hstat, (State.appendLog_keepsLosses _ _ _ _ _).fld hstat,
      State.fld_modRegion, State.fld_regionPhaseGone]
  · rw [hregion]
  · rw [hregion]

/-- With fewer it goes dark. -/
theorem twoPhasesLeft (hn : s.regionPhases site.val r.val ≤ 3) : ∃ t, exec (.regionPhaseFailure site r (some k)) s = .next t
    ∧ RegionIsDark t site.val r.val := by
  have hleft := s.regionPhases_regionPhaseGone k.isLt hk
  refine ⟨_, regionPhaseFailure_next hdark hk, ?_⟩
  rw [State.losePhase_eq, if_neg (by omega), if_neg (by omega)]
  exact State.darkRegion_isDark _ _ site.isLt r.isLt

end

/-! Requests. -/

theorem mem_bitsOf_toNat {req : BitVec 10} {j : Nat} (hj : j < 10) : j ∈ bitsOf 10 req.toNat ↔ req.getLsbD j = true := by
  rw [mem_bitsOf, BitVec.testBit_toNat]; simp [hj]

theorem onRequest (req : BitVec 10) : ∃ t, exec (.onReq site req) s = .next t ∧ RegsOnly s t
    ∧ ∀ j, j < 10 →
      ((req.getLsbD j = true ∧ s.regionState site.val j < 2 ∧ Unplaced s site.val = false) → Requested t site.val j)
      ∧ (¬ (req.getLsbD j = true ∧ s.regionState site.val j < 2 ∧ Unplaced s site.val = false) →
          (Requested t site.val j ↔ Requested s site.val j)) := by
  refine ⟨(bitsOf 10 req.toNat).foldl (fun (s : State) r => s.onBit site.val r) s, rfl,
    State.regsOnly_foldl (fun s r => s.onBit_regsOnly site.val r) _ s, fun j hj => ?_⟩
  rw [requested_onBits s site.val hj, mem_bitsOf_toNat hj, unplaced_eq_siteDark]
  exact ⟨.inl, fun h => ⟨fun h' => h'.resolve_left h, .inr⟩⟩

theorem offRequest (req : BitVec 10) : ∃ t, exec (.offReq site req) s = .next t ∧ RegsOnly s t
    ∧ ∀ j, j < 10 → ((req.getLsbD j = true ∧ (s.regionState site.val j = 1 ∨ s.regionState site.val j = 2)) →
          (Requested t site.val (16 + j) ↔ s.regionUsed site.val j = false))
      ∧ (¬ (req.getLsbD j = true ∧ (s.regionState site.val j = 1 ∨ s.regionState site.val j = 2)) →
          (Requested t site.val (16 + j) ↔ Requested s site.val (16 + j))) := by
  refine ⟨(bitsOf 10 req.toNat).foldl (fun (s : State) r => s.offBit site.val r) s, rfl,
    State.regsOnly_foldl (fun s r => s.offBit_regsOnly site.val r) _ s, fun j hj => ?_⟩
  simp only [requested_offBits s site.val hj, mem_bitsOf_toNat hj]
  exact ⟨fun h => by rw [if_pos h], fun h => by rw [if_neg h]⟩

/-! Turn-offs. -/

theorem turnOff (hon : s.regionState site.val r.val = 1 ∨ s.regionState site.val r.val = 2) (hreq : Requested s site.val (16 + r.val))
    (hfree : ∀ p i, p ∈ regionCores site.val r.val → i < 8 → (s.slot p i).mode = .free) :
    ∃ t, exec (.regionTurnOff site r) s = .next t ∧ t.regionState site.val r.val = 0 ∧ t.regionMv site.val r.val = 0
      ∧ ¬ Requested t site.val (16 + r.val) ∧ ¬ Requested t site.val r.val ∧ RegsOnly s t := by
  have hasked : bit (s.reg (unitDie site.val) rPWR_REGION_CTRL) (16 + r.val) = true := field_bit_eq_one.1 hreq
  have hall : (regionCores site.val r.val).all (fun p => (List.range 8).all (fun i => (s.slot p i).mode == .free)) = true := by
    simpa using fun p hp i hi => hfree p i hp hi
  have hstate : (s.regionState site.val r.val == 1 || s.regionState site.val r.val == 2) = true := by simpa using hon
  have hkey := regKey_statOff_ne_regionCtrl (unitDie site.val) (unitDie site.val) r.val r.isLt
  refine ⟨(((s.setFld (unitDie site.val) (statOff r.val) 0 6 0).setFld (unitDie site.val) (statOff r.val) 20 12 0).setFld
    (unitDie site.val) rPWR_REGION_CTRL (16 + r.val) 1 0).setFld (unitDie site.val) rPWR_REGION_CTRL r.val 1 0, ?_, ?_, ?_, ?_, ?_, ?_⟩
  · simp only [exec_regionTurnOff, execRegionTurnOff, when, hasked, hall, hstate, Bool.true_or, Bool.and_self, if_true]
  · rw [State.regionState, State.fld_setFld_other _ _ _ _ _ _ hkey, State.fld_setFld_other _ _ _ _ _ _ hkey,
      State.fld_setFld_apart _ _ _ _ (.inl (by omega)), State.fld, State.reg_setFld_same,
      field_setField_inside _ _ (Nat.le_refl 0) (by omega)]
    rfl
  · rw [State.regionMv, State.fld_setFld_other _ _ _ _ _ _ hkey, State.fld_setFld_other _ _ _ _ _ _ hkey, State.fld_setFld_same,
      Nat.zero_mod]
  · rw [requested_setFld, if_neg (by omega), requested_setFld, if_pos rfl]; simp
  · rw [requested_setFld, if_pos rfl]; simp
  · exact State.regsOnly_trans (State.regsOnly_trans (State.regsOnly_trans (State.setFld_regsOnly ..) (State.setFld_regsOnly ..))
      (State.setFld_regsOnly ..)) (State.setFld_regsOnly ..)

/-! Turn-ons. -/

theorem turnOnStage {below above : BitVec 8} (hwindow : s.turnOnWindow site.val = true) (hreef : s.reef = false)
    (hturn : s.regionState site.val r.val = 1 ∨ s.begins site.val r.val = true) (hstage : stageOf s site.val r.val < 7) :
    ∃ t, exec (.regionStage site r below above) s = .next t
      ∧ t.now = (if s.regionState site.val r.val = 1 then Nat.max s.now ((s.die site.val).region r.val).stageAt else s.now)
      ∧ t.regionState site.val r.val = 1 ∧ stageOf t site.val r.val = stageOf s site.val r.val + 1
      ∧ (Loud s site.val r.val below.toNat above.toNat → ((t.die site.val).region r.val).stageAt = t.now + 2100)
      ∧ (¬ Loud s site.val r.val below.toNat above.toNat → ((t.die site.val).region r.val).stageAt = t.now + 525) := by
  obtain ⟨hstage', hloud, _, hnow⟩ := s.stageStart_spec site.val r.val below above
  obtain ⟨hstate, hnext, hat⟩ := (s.stageStart site.val r.val).stageClosed_spec site.val r.val below above
  have hmore : stageOf (s.stageStart site.val r.val) site.val r.val + 1 < 8 := by rw [hstage']; omega
  refine ⟨(s.stageStart site.val r.val).stageClosed site.val r.val below above, ?_, ?_, hstate, ?_, ?_, ?_⟩
  · rw [exec_regionStage, execRegionStage_eq s below above hturn hwindow hreef, if_pos hmore]
  · rw [State.now_stageClosed, hnow]
  · rw [hnext, hstage']; omega
  · intro h
    rw [hat, State.stageDue_eq, State.now_stageClosed, hloud, if_pos ((loud_iff s ..).1 h)]
  · intro h
    rw [hat, State.stageDue_eq, State.now_stageClosed, hloud, if_neg (fun h' => h ((loud_iff s ..).2 h'))]

theorem lastStage {below above : BitVec 8} (hwindow : s.turnOnWindow site.val = true) (hreef : s.reef = false)
    (hturn : s.regionState site.val r.val = 1 ∨ s.begins site.val r.val = true) (hstage : stageOf s site.val r.val = 7) :
    ∃ t, exec (.regionStage site r below above) s = .next t
      ∧ t.regionState site.val r.val = 2 ∧ t.regionMv site.val r.val = (s.planOf site.val r.val).1 % 1024
      ∧ ¬ Requested t site.val r.val := by
  obtain ⟨hstage', _, hplan, _⟩ := s.stageStart_spec site.val r.val below above
  have hlast : ¬ stageOf (s.stageStart site.val r.val) site.val r.val + 1 < 8 := by rw [hstage', hstage]; decide
  have hexec := execRegionStage_eq s below above hturn hwindow hreef
  rw [if_neg hlast] at hexec
  refine ⟨_, hexec, ?_⟩
  obtain ⟨hstate, hmv, hreq⟩ := State.sealAfterRegions_regionOn (((s.stageStart site.val r.val).stageClosed site.val r.val below
    above).advanceTo ((s.stageStart site.val r.val).stageDue site.val r.val below above)) site.isLt r.isLt
  rw [State.planOf_stageClosed, hplan] at hmv
  exact ⟨hstate, hmv, hreq⟩

end

theorem regions : Regions := by
  intro s site r k req below above n
  refine ⟨fun hdark => ⟨fun hk hn => ⟨fun h => ?_, fun h => ?_, fun h => ?_⟩, controllerLost hdark, regionOvercurrent hdark⟩,
    onRequest req, offRequest req, turnOff, fun hwindow hreef hturn => ?_⟩
  · exact fourPhasesLeft hdark hk (hn.symm.trans h)
  · exact threePhasesLeft hdark hk (hn.symm.trans h)
  · exact twoPhasesLeft hdark hk (hn.symm.trans_le h)
  have hturn : s.regionState site.val r.val = 1 ∨ s.begins site.val r.val = true := hturn.imp_right
    fun ⟨hoff, hreq, hnone, hfirst⟩ => begins_of_first s r.isLt hoff hreq hnone hfirst
  exact ⟨turnOnStage hwindow hreef hturn, lastStage hwindow hreef hturn⟩

/-- Settles O48: what each failure latches, derates or darkens is kept by all that follows it, and requests and stages are bits of
their registers. -/
theorem powerGroupsAndRegions : Obligations.PowerGroupsAndRegions := ⟨converterGroups, regions⟩

end Sys2Proof.Claims

/-!
The reference and the PLLs (R387, R402).
-/
namespace Sys2Proof.Machine

variable (s : State)

/-- One field written and another counted: both, and nothing but registers. -/
theorem State.setFld_bump_spec (u off v : Nat) {lo w lo' w' : Nat} (h : lo + w ≤ lo') :
    ((s.setFld u off lo w v).bump u off lo' w' 1).fld u off lo w = v % 2 ^ w
      ∧ ((s.setFld u off lo w v).bump u off lo' w' 1).fld u off lo' w' = Nat.min (2 ^ w' - 1) (s.fld u off lo' w' + 1)
      ∧ Claims.RegsOnly s ((s.setFld u off lo w v).bump u off lo' w' 1) := by
  refine ⟨?_, ?_, State.regsOnly_trans (State.setFld_regsOnly ..) (State.bump_regsOnly ..)⟩
  · rw [State.fld, State.reg_bump_same, field_setField_apart _ _ (.inl h)]
    exact s.fld_setFld_same u off lo w v
  · rw [State.fld_bump_same, s.fld_setFld_apart _ _ _ (.inr h)]

/-- The reference is lost, or back. -/
def State.setReference (s : State) (since : Option Nat) : State := { s with supply := { s.supply with refLostAt := since } }

theorem State.regsOnly_setReference {t : State} {since : Option Nat} (h : Claims.RegsOnly (s.setReference since) t) :
    t.supply.refLostAt = since ∧ ({ t with supply := s.supply, regs := s.regs, hw := s.hw } : State) = s := by
  obtain ⟨_, _, _, _, _, hsupply, _, _, _⟩ := State.regsOnly_frame h
  exact ⟨congrArg Supply.refLostAt hsupply, congrArg (fun x : State => ({ x with supply := s.supply } : State)) h⟩

/-- A shutdown resets the module and holds it off (R395, R416). -/
theorem State.shutdown_spec (cause extreme : Nat) : (s.shutdown cause extreme).supply.down = some ⟨cause, extreme⟩
    ∧ (s.shutdown cause extreme).supply.refLostAt = none
    ∧ (s.shutdown cause extreme).boot.supplyRec = cause + 2 ^ 16 * extreme + 2 ^ 63
    ∧ (s.shutdown cause extreme).gen = TickGen.reset ∧ (s.shutdown cause extreme).cores = [] := by
  have h := State.powerOn_regsOnly { s with boot := { s.boot with supplyRec := cause + 2 ^ 16 * extreme + 2 ^ 63 } } 1 3
  obtain ⟨hgen, hcores, _, _, _, hsupply, hboot, _, _⟩ := State.regsOnly_frame h
  unfold State.shutdown
  exact ⟨rfl, congrArg Supply.refLostAt hsupply, congrArg Boot.supplyRec hboot, hgen, hcores⟩

theorem State.setFld_boot (u off lo w v : Nat) : (s.setFld u off lo w v).boot = s.boot := rfl

end Sys2Proof.Machine

namespace Sys2Proof.Claims

open Sys2Proof.Machine

section
variable {s : State}

theorem referenceLoss (hup : s.supply.refLostAt = none) (hon : s.supply.down = none) :
    ∃ t, exec .referenceLoss s = .next t ∧ t.supply.refLostAt = some s.now ∧ t.fld unitMgmt rCLK_REF_STAT 0 2 = 2
      ∧ t.fld unitMgmt rCLK_REF_STAT 32 16 = Nat.min 65535 (s.fld unitMgmt rCLK_REF_STAT 32 16 + 1)
      ∧ ({ t with supply := s.supply, regs := s.regs, hw := s.hw } : State) = s := by
  obtain ⟨hstate, hcount, hregs⟩ := (s.setReference (some s.now)).setFld_bump_spec unitMgmt rCLK_REF_STAT 2 (lo := 0) (w := 2)
    (lo' := 32) (w' := 16) (by decide)
  obtain ⟨hlost, hrest⟩ := s.regsOnly_setReference hregs
  refine ⟨_, ?_, hlost, hstate, hcount, hrest⟩
  rw [exec_referenceLoss, execReferenceLoss, when, hup, hon]
  rfl

theorem referenceReturn {t0 : Nat} (hlost : s.supply.refLostAt = some t0) (hin : s.now ≤ t0 + 2100000) :
    ∃ t, exec .referenceReturn s = .next t ∧ t.supply.refLostAt = none ∧ t.fld unitMgmt rCLK_REF_STAT 0 2 = 1
      ∧ ({ t with supply := s.supply, regs := s.regs, hw := s.hw } : State) = s := by
  have hback := s.regsOnly_setReference (State.setFld_regsOnly (s.setReference none) unitMgmt rCLK_REF_STAT 0 2 1)
  refine ⟨_, ?_, hback.1, State.fld_setFld_same _ _ _ _ _ _, hback.2⟩
  rw [exec_referenceReturn, execReferenceReturn, hlost]
  exact congrArg Host.Outcome.next (if_pos (decide_eq_true hin))

theorem holdoverExpiry {t0 : Nat} (hlost : s.supply.refLostAt = some t0) :
    ∃ t, exec .holdoverExpiry s = .next t ∧ t.supply.down = some { cause := 3, extreme := 0 }
      ∧ t.boot.supplyRec = 3 + 2 ^ 63 ∧ t.gen = TickGen.reset ∧ t.cores = [] ∧ t.supply.refLostAt = none := by
  obtain ⟨hdown, href, hrec, hgen, hcores⟩ :=
    State.shutdown_spec ((s.advanceTo (t0 + Config.cycMs)).raise .moduleFatal 0x96 .none none 0) 3 0
  refine ⟨_, ?_, hdown, hrec, hgen, hcores, href⟩
  rw [exec_holdoverExpiry, execHoldoverExpiry, hlost]

theorem pllLossDie {v : Fin 214} (hv : v.val < 204) (hgood : v.val ∉ s.boot.badSites) :
    ∃ t, exec (.pllLockLoss v) s = .next t ∧ DieIsLost t v.val ∧ t.fld (unitDie v.val) rCLK_DIE_STATUS 0 1 = 0 := by
  have hlost := State.dieLost_keepsLosses (s.setFld (unitDie v.val) rCLK_DIE_STATUS 0 1 0) v.val
  refine ⟨(s.setFld (unitDie v.val) rCLK_DIE_STATUS 0 1 0).dieLost v.val, ?_, State.dieLost_isLost _ ?_, ?_⟩
  · rw [exec_pllLockLoss, execPllLockLoss, if_pos hv]
  · rwa [State.setFld_boot]
  · rw [hlost.fld (powerReg_unitDie hv (by decide)), State.fld_setFld_same, Nat.zero_mod]

theorem pllLossModule {v : Fin 214} (hv : v.val = 213) : ∃ t, exec (.pllLockLoss v) s = .next t ∧ ModuleIsReset s t 2 := by
  refine ⟨s.moduleReset 2, ?_, s.moduleReset_isReset 2⟩
  rw [exec_pllLockLoss, execPllLockLoss, if_neg (by omega), if_pos (show v.val = halRoot from hv)]

theorem pllLossEdge {v : Fin 214} (hv : 204 ≤ v.val) (hv' : v.val < 213) :
    ∃ t, exec (.pllLockLoss v) s = .next t ∧ (v.val - 204) ∈ t.boot.badEdges := by
  refine ⟨s.edgeLost (v.val - 204) 0, ?_, (s.edgeLost_spec _ 0).2⟩
  rw [exec_pllLockLoss, execPllLockLoss, if_neg (by omega), if_neg (by simp only [halRoot]; omega)]

end

theorem referenceAndPlls : ReferenceAndPlls := fun _ _ _ =>
  ⟨referenceLoss, fun hlost => ⟨referenceReturn hlost, holdoverExpiry hlost⟩, pllLossDie, pllLossModule, pllLossEdge⟩

end Sys2Proof.Claims

/-!
The retraining and the failure of seam links (R16, R17, R206, R404, R405, R437).
-/
namespace Sys2Proof.Machine

variable (s : State)

/-! The ends of entries and injections leave the links, the log and the repaired tracks. -/

/-- The links, the boot record and the repaired tracks. -/
def State.seams (s : State) : Mesh × Boot × SMap Nat := (s.mesh, s.boot, s.maint.tracks)

theorem State.seams_eq_iff (s t : State) :
    t.seams = s.seams ↔ t.mesh = s.mesh ∧ t.boot = s.boot ∧ t.maint.tracks = s.maint.tracks := by
  simp only [State.seams, Prod.mk.injEq]

theorem State.raise_seams (sev : Severity) (code : Nat) (src : EventSrc) (tick : Option Nat) (data : Nat) (inj : Bool) :
    (s.raise sev code src tick data inj).seams = s.seams := by
  simp only [State.seams, State.raise_mesh, State.raise_boot, State.raise_maint]

theorem State.endEntry_seams (e : MaintEntry) (outcome : Nat) : (s.endEntry e outcome).seams = s.seams :=
  State.raise_seams _ _ _ _ _ _ _

theorem State.endInjection_seams : s.endInjection.seams = s.seams := by
  unfold State.endInjection
  split
  · rfl
  next i _ =>
    dsimp only
    split
    · exact State.raise_seams _ _ _ _ _ _ _
    · exact (State.endEntry_seams _ _ _).trans (State.raise_seams _ _ _ _ _ _ _)

theorem State.stepOver_seams (e : MaintEntry) (finished ok : Bool) : (s.stepOver e finished ok).seams = s.seams := by
  unfold State.stepOver
  split
  · exact s.endEntry_seams e 1
  · split
    · exact s.endEntry_seams e _
    · rfl

theorem State.stepOver_keepsLosses (e : MaintEntry) (finished ok : Bool) : s.KeepsLosses (s.stepOver e finished ok) :=
  .ite (s.endEntry_keepsLosses e 1) (.ite (s.endEntry_keepsLosses e _) (.of_eq rfl rfl))

/-! The parts of the end of a retraining. -/

/-- The link is in training no more. -/
def State.released (s : State) (site e : Nat) : State :=
  { s with mesh := { s.mesh with training := s.mesh.training.filter (· != linkAt site e) } }

/-- The link is as good as new, or it is lost. -/
def State.retrained (s : State) (site e : Nat) (good inj : Bool) : State :=
  if good then s.setFld (unitDie site) (seamOff e) 8 9 256
  else ((s.bump (unitDie site) (rCLK_SEAM_COUNT + 4 * e) 16 16 1).raise .degraded 0x91 ⟨site, 0x3F, false, 0⟩ none e inj).seamLost site e

/-- The step of the entry that retrains the seams is over, and so is a rehearsed drift. -/
def State.retrainingOver (s : State) (site e : Nat) (good inj : Bool) : State :=
  let t := match s.runningEntry 1 (fun x => x.inStep && x.site == site && x.seam == some e) with
    | none => s
    | some x => s.stepOver x (decide (x.seams.length ≤ x.progress + 1)) good
  if inj then t.endInjection else t

theorem State.retrainingOver_keepsLosses (site e : Nat) (good inj : Bool) : s.KeepsLosses (s.retrainingOver site e good inj) := by
  have hstep : s.KeepsLosses (match s.runningEntry 1 (fun x => x.inStep && x.site == site && x.seam == some e) with
      | none => s
      | some x => s.stepOver x (decide (x.seams.length ≤ x.progress + 1)) good) := by
    split
    · exact .refl s
    · exact s.stepOver_keepsLosses _ _ _
  exact .ite (hstep.trans (State.endInjection_keepsLosses _)) hstep

theorem State.retrainingOver_seams (site e : Nat) (good inj : Bool) : (s.retrainingOver site e good inj).seams = s.seams := by
  unfold State.retrainingOver
  dsimp only
  cases inj with
  | false =>
    rw [if_neg Bool.false_ne_true]
    split
    · rfl
    · exact s.stepOver_seams _ _ _
  | true =>
    rw [if_pos rfl, State.endInjection_seams]
    split
    · rfl
    · exact s.stepOver_seams _ _ _

theorem State.bump_mesh (u off lo w n : Nat) : (s.bump u off lo w n).mesh = s.mesh := rfl

theorem State.setFld_seams (u off lo w v : Nat) : (s.setFld u off lo w v).seams = s.seams := rfl

theorem State.setFld_events (u off lo w v : Nat) : (s.setFld u off lo w v).events = s.events := rfl

theorem State.notMem_training_released (site e : Nat) : linkAt site e ∉ (s.released site e).mesh.training := by
  simp [State.released]

/-- A link that cannot be retrained is counted and fenced. -/
theorem State.retrained_lost {site : Nat} (hs : site < 204) {e : Nat} (he : e < 4) (inj : Bool) :
    linkAt site e ∈ (s.retrained site e false inj).mesh.fenced
      ∧ (∀ l ∈ (s.retrained site e false inj).mesh.training, l ∈ s.mesh.training)
      ∧ (s.retrained site e false inj).fld (unitDie site) (rCLK_SEAM_COUNT + 4 * e) 16 16
          = Nat.min 65535 (s.fld (unitDie site) (rCLK_SEAM_COUNT + 4 * e) 16 16 + 1) := by
  have hcount : (s.bump (unitDie site) (rCLK_SEAM_COUNT + 4 * e) 16 16 1).fld (unitDie site) (rCLK_SEAM_COUNT + 4 * e) 16 16
      = Nat.min 65535 (s.fld (unitDie site) (rCLK_SEAM_COUNT + 4 * e) 16 16 + 1) := State.fld_bump_same16 ..
  have htraining : (s.bump (unitDie site) (rCLK_SEAM_COUNT + 4 * e) 16 16 1).mesh.training = s.mesh.training :=
    congrArg Mesh.training (State.bump_mesh ..)
  unfold State.retrained
  rw [if_neg Bool.false_ne_true]
  generalize s.bump (unitDie site) (rCLK_SEAM_COUNT + 4 * e) 16 16 1 = x at hcount htraining
  have hraise := x.raise_keepsLosses .degraded 0x91 ⟨site, 0x3F, false, 0⟩ none e inj
  generalize x.raise .degraded 0x91 ⟨site, 0x3F, false, 0⟩ none e inj = y at hraise
  have hlost := hraise.trans (y.seamLost_keepsLosses site e)
  refine ⟨(y.fenceLink_keepsLosses_seamLost site e).fenced _ (y.mem_fenced_fenceLink _), fun l hl => htraining ▸ hlost.training l hl, ?_⟩
  rw [hlost.fld (powerReg_unitDie hs (by simp only [rCLK_SEAM_COUNT]; omega)), hcount]

theorem State.retrained_good (site e : Nat) (inj : Bool) : (s.retrained site e true inj).seams = s.seams
    ∧ (s.retrained site e true inj).fld (unitDie site) (seamOff e) 8 9 = 256 :=
  ⟨State.setFld_seams .., State.fld_setFld_same ..⟩

/-- The end of a retraining, with all that follows it. -/
def State.retrainingEnds (s : State) (site e : Nat) (good inj : Bool) : State :=
  ((s.released site e).retrained site e good inj).retrainingOver site e good inj

/-- A link that has been retrained is in service again, its FIFOs realigned (R405). -/
theorem State.retrainingEnds_good {site : Nat} (hs : site < 204) {e : Nat} (he : e < 4) (inj : Bool) :
    linkAt site e ∉ (s.retrainingEnds site e true inj).mesh.training
      ∧ (s.retrainingEnds site e true inj).fld (unitDie site) (seamOff e) 8 9 = 256
      ∧ (s.retrainingEnds site e true inj).mesh.fenced = s.mesh.fenced
      ∧ (s.retrainingEnds site e true inj).boot = s.boot
      ∧ (s.retrainingEnds site e true inj).maint.tracks = s.maint.tracks := by
  obtain ⟨hgood, hsep⟩ := (s.released site e).retrained_good site e inj
  have hseams := (State.retrainingOver_seams ((s.released site e).retrained site e true inj) site e true inj).trans hgood
  have hkeep := State.retrainingOver_keepsLosses ((s.released site e).retrained site e true inj) site e true inj
  obtain ⟨hmesh, hboot, htracks⟩ := (State.seams_eq_iff ..).1 hseams
  refine ⟨fun h => s.notMem_training_released site e (hmesh ▸ h), ?_, (congrArg Mesh.fenced hmesh).trans rfl, hboot, htracks⟩
  exact (hkeep.fld (powerReg_unitDie hs (by simp only [seamOff, rCLK_SEAM]; omega)) 8 9).trans hsep

/-- A link that has not been retrained is out of service (R206). -/
theorem State.retrainingEnds_lost {site : Nat} (hs : site < 204) {e : Nat} (he : e < 4) (inj : Bool) :
    linkAt site e ∈ (s.retrainingEnds site e false inj).mesh.fenced
      ∧ linkAt site e ∉ (s.retrainingEnds site e false inj).mesh.training
      ∧ (s.retrainingEnds site e false inj).fld (unitDie site) (rCLK_SEAM_COUNT + 4 * e) 16 16
          = Nat.min 65535 (s.fld (unitDie site) (rCLK_SEAM_COUNT + 4 * e) 16 16 + 1) := by
  obtain ⟨hfenced, htraining, hcount⟩ := (s.released site e).retrained_lost hs he inj
  have hkeep := State.retrainingOver_keepsLosses ((s.released site e).retrained site e false inj) site e false inj
  refine ⟨hkeep.fenced _ hfenced, fun h => s.notMem_training_released site e (htraining _ (hkeep.training _ h)), ?_⟩
  exact (hkeep.fld (powerReg_unitDie hs (by simp only [rCLK_SEAM_COUNT]; omega)) 16 16).trans hcount

/-! Tracks (R16, R17). -/

/-- No retraining of the spar began before this one and is still under way. -/
theorem earlierTraining_eq_false {site l : Nat} (h : Claims.TrainsAlone s site l) (hl : l ∈ s.mesh.training) :
    s.earlierTraining site l = false := by
  obtain ⟨before, after, heq, hfirst⟩ := List.eq_append_cons_of_mem hl
  have hdrop : s.mesh.training.dropWhile (· != l) = l :: after := by
    rw [heq, List.dropWhile_append_of_pos fun a ha => bne_iff_ne.2 fun hal => hfirst (by rwa [← hal])]
    simp
  have halone := h before after heq
  simp only [State.earlierTraining, hdrop, List.drop_succ_cons, List.drop_zero, List.any_eq_false]
  intro k hk
  have h1 := halone k hk (linkEnds k).1
  have h2 := halone k hk (linkEnds k).2
  simp only [Bool.or_eq_true, Bool.and_eq_true, decide_eq_true_eq, beq_iff_eq, sparOf]
  rintro (⟨hv, heq⟩ | ⟨hv, heq⟩)
  · exact h1 hv (.inl rfl) heq
  · exact h2 hv (.inr rfl) heq

/-- One track more of a group is recorded as failed. -/
def State.countTrack (s : State) (k : Nat) : State :=
  { s with maint := { s.maint with tracks := SMap.set 0 s.maint.tracks k (SMap.get 0 s.maint.tracks k + 1) } }

theorem State.repairTracks_single (spar seam group track : Nat) : s.repairTracks spar [(seam, group, track)] =
    if 3 ≤ SMap.get 0 s.maint.tracks ((spar * 8 + seam) * 256 + group) + 1 then
      (s.countTrack ((spar * 8 + seam) * 256 + group), false)
    else ((s.countTrack ((spar * 8 + seam) * 256 + group)).appendLog 7 spar seam (track + 2 ^ 8 * group), true) := rfl

theorem State.tracks_countTrack (k : Nat) :
    SMap.get 0 (s.countTrack k).maint.tracks k = SMap.get 0 s.maint.tracks k + 1 := by
  rw [State.countTrack, SMap.get_set_same]

theorem State.appendLog_maint (kind site item detail : Nat) : (s.appendLog kind site item detail).maint = s.maint := rfl

theorem execRetrainingComplete_eq {site : Fin 204} {e : Fin 4} {w : Nat} (ok : Bool) (tracks : List (Fin 8 × Fin 256 × Fin 64))
    (hbeyond : beyond site.val e.val = some w) (hl : linkAt site.val e.val ∈ s.mesh.training)
    (hgo : tracks = [] ∨ s.earlierTraining site.val (linkAt site.val e.val) = false) :
    ∃ x fits inj, s.repairTracks (sparOf site.val) (tracks.map (fun t => (t.1.val, t.2.1.val, t.2.2.val))) = (x, fits)
      ∧ execRetrainingComplete site e ok tracks s = .next
        (x.retrainingEnds site.val e.val (ok && fits) inj) := by
  have hin : ¬ ((beyond site.val e.val).isNone || !s.mesh.training.contains (linkAt site.val e.val)) = true := by
    simp [hbeyond, hl]
  have hnow : (tracks.isEmpty || !s.earlierTraining site.val (linkAt site.val e.val)) = true := by
    rcases hgo with rfl | h
    · rfl
    · simp [h]
  refine ⟨_, _, s.isInjected 2 (site.val + 2 ^ 8 * e.val), rfl, ?_⟩
  unfold execRetrainingComplete
  dsimp only
  rw [if_neg hin, if_pos hnow]
  rfl

/-! Drift (R404, R405). -/

theorem State.setSep_spec (site e : Nat) {sep : Nat} (h : sep < 512) : (s.setSep site e sep).fld (unitDie site) (seamOff e) 8 9 = sep
    ∧ (∀ off, regKey (unitDie site) off ≠ regKey (unitDie site) (seamOff e) →
        (s.setSep site e sep).reg (unitDie site) off = s.reg (unitDie site) off)
    ∧ (s.setSep site e sep).events = s.events := by
  have hsame : (s.setFld (unitDie site) (seamOff e) 8 9 sep).fld (unitDie site) (seamOff e) 8 9 = sep :=
    (State.fld_setFld_same _ _ _ _ _ _).trans (Nat.mod_eq_of_lt h)
  unfold State.setSep
  dsimp only
  split
  · refine ⟨(State.fld_setFld_apart _ _ _ _ (.inl (by decide))).trans hsame, fun off hoff => ?_,
      (State.setFld_events ..).trans (State.setFld_events ..)⟩
    rw [State.reg_setFld_other _ _ _ _ hoff, State.reg_setFld_other _ _ _ _ hoff]
  · exact ⟨hsame, fun off hoff => State.reg_setFld_other _ _ _ _ hoff, State.setFld_events ..⟩

theorem State.holdLink_spec (l : Nat) : l ∈ (s.holdLink l).mesh.training ∧ (s.holdLink l).fld = s.fld ∧ (s.holdLink l).events = s.events :=
  ⟨List.mem_cons_self .., rfl, rfl⟩

theorem regKey_seamOff_ne_count (u : Nat) {e : Nat} (he : e < 4) :
    regKey u (seamOff e) ≠ regKey u (rCLK_SEAM_COUNT + 4 * e) :=
  regKey_ne_of_off (by simp only [seamOff, rCLK_SEAM]; omega) (by simp only [rCLK_SEAM_COUNT]; omega)
    (by simp only [seamOff, rCLK_SEAM, rCLK_SEAM_COUNT]; omega)

end Sys2Proof.Machine

namespace Sys2Proof.Claims

open Sys2Proof.Machine

section
variable {s : State} {site : Fin 204} {e : Fin 4} {w : Nat}

theorem seamFails (hbeyond : beyond site.val e.val = some w) (hup : linkAt site.val e.val ∉ s.mesh.fenced) :
    ∃ t, exec (.seamLinkFail site e) s = .next t ∧ linkAt site.val e.val ∈ t.mesh.fenced
      ∧ linkAt site.val e.val ∉ t.mesh.training := by
  have hlost := s.fenceLink_keepsLosses_seamLost site.val e.val
  refine ⟨s.seamLost site.val e.val, ?_, hlost.fenced _ (s.mem_fenced_fenceLink _),
    fun h => s.notMem_training_fenceLink hup (hlost.training _ h)⟩
  simp [execSeamLinkFail, when, hbeyond, hup]

theorem seamDrifts {sep : BitVec 9} (hup : s.seamUp site.val e.val = true) (hmargin : sepMargin sep.toNat < 128) :
    ∃ t, exec (.driftRetraining site e sep) s = .next t
      ∧ linkAt site.val e.val ∈ t.mesh.training ∧ t.fld (unitDie site.val) (seamOff e.val) 8 9 = sep.toNat ∧ OneEvent s t
      ∧ t.fld (unitDie site.val) (rCLK_SEAM_COUNT + 4 * e.val) 0 16 =
          Nat.min 65535 (s.fld (unitDie site.val) (rCLK_SEAM_COUNT + 4 * e.val) 0 16 + 1) := by
  obtain ⟨hsep, hother, hevents⟩ := s.setSep_spec site.val e.val (sep := sep.toNat) sep.isLt
  have hkey := regKey_seamOff_ne_count (unitDie site.val) e.isLt
  have hcount : ((s.setSep site.val e.val sep.toNat).bump (unitDie site.val) (rCLK_SEAM_COUNT + 4 * e.val) 0 16 1).fld
      (unitDie site.val) (rCLK_SEAM_COUNT + 4 * e.val) 0 16
      = Nat.min 65535 ((s.setSep site.val e.val sep.toNat).fld (unitDie site.val) (rCLK_SEAM_COUNT + 4 * e.val) 0 16 + 1) :=
    State.fld_bump_same16 ..
  have hstay := State.fld_bump_other (s.setSep site.val e.val sep.toNat) 0 16 1 8 9 hkey
  have hbump := State.bump_events (s.setSep site.val e.val sep.toNat) (unitDie site.val) (rCLK_SEAM_COUNT + 4 * e.val) 0 16 1
  rw [State.fld_congr (hother _ hkey.symm)] at hcount
  rw [hsep] at hstay
  rw [hevents] at hbump
  have hexec : exec (.driftRetraining site e sep) s = .next ((((s.setSep site.val e.val sep.toNat).bump (unitDie site.val)
      (rCLK_SEAM_COUNT + 4 * e.val) 0 16 1).raise .info 0x90 ⟨site.val, 0x3F, false, 0⟩ none (e.val + 2 ^ 8 * sep.toNat)
      (s.isInjected 2 (site.val + 2 ^ 8 * e.val))).holdLink (linkAt site.val e.val)) := by
    simp [execDriftRetraining, when, hup, hmargin]
  refine ⟨_, hexec, ?_⟩
  generalize (s.setSep site.val e.val sep.toNat).bump (unitDie site.val) (rCLK_SEAM_COUNT + 4 * e.val) 0 16 1 = x at hcount hstay hbump
  have hraise := x.raise_keepsLosses .info 0x90 ⟨site.val, 0x3F, false, 0⟩ none (e.val + 2 ^ 8 * sep.toNat)
    (s.isInjected 2 (site.val + 2 ^ 8 * e.val))
  have hevent := State.raise_oneEvent_of (congrArg Events.seq hbump) .info 0x90 ⟨site.val, 0x3F, false, 0⟩ none
    (e.val + 2 ^ 8 * sep.toNat) (s.isInjected 2 (site.val + 2 ^ 8 * e.val))
  generalize x.raise .info 0x90 _ none _ _ = y at hraise hevent
  obtain ⟨hmem, hfld, hseq⟩ := y.holdLink_spec (linkAt site.val e.val)
  refine ⟨hmem, ?_, (congrArg Events.seq hseq).trans hevent, ?_⟩
  · rw [hfld, hraise.fld (powerReg_unitDie site.isLt (by simp only [seamOff, rCLK_SEAM]; omega)), hstay]
  · rw [hfld, hraise.fld (powerReg_unitDie site.isLt (by simp only [rCLK_SEAM_COUNT]; omega)), hcount]

section
variable (hbeyond : beyond site.val e.val = some w) (hl : linkAt site.val e.val ∈ s.mesh.training)
include hbeyond hl

theorem seamRealigned : ∃ t, exec (.retrainingComplete site e true []) s = .next t ∧ linkAt site.val e.val ∉ t.mesh.training
    ∧ t.fld (unitDie site.val) (seamOff e.val) 8 9 = 256 ∧ t.mesh.fenced = s.mesh.fenced := by
  obtain ⟨x, fits, inj, hrepair, hexec⟩ := execRetrainingComplete_eq s true [] hbeyond hl (.inl rfl)
  obtain ⟨rfl, rfl⟩ := Prod.mk.inj hrepair
  obtain ⟨htraining, hsep, hfenced, _, _⟩ := s.retrainingEnds_good site.isLt e.isLt inj
  exact ⟨_, hexec, htraining, hsep, hfenced⟩

theorem seamNotRealigned : ∃ t, exec (.retrainingComplete site e false []) s = .next t
    ∧ linkAt site.val e.val ∈ t.mesh.fenced ∧ linkAt site.val e.val ∉ t.mesh.training
    ∧ t.fld (unitDie site.val) (rCLK_SEAM_COUNT + 4 * e.val) 16 16 =
        Nat.min 65535 (s.fld (unitDie site.val) (rCLK_SEAM_COUNT + 4 * e.val) 16 16 + 1) := by
  obtain ⟨x, fits, inj, hrepair, hexec⟩ := execRetrainingComplete_eq s false [] hbeyond hl (.inl rfl)
  obtain ⟨rfl, rfl⟩ := Prod.mk.inj hrepair
  exact ⟨_, hexec, s.retrainingEnds_lost site.isLt e.isLt inj⟩

variable {tr : Fin 8 × Fin 256 × Fin 64} {k : Nat} (halone : TrainsAlone s site.val (linkAt site.val e.val))
  (hk : k = (siteRow site.val / 2 * 8 + tr.1.val) * 256 + tr.2.1.val)
include halone hk

/-- The first two failed tracks of a group are repaired. -/
theorem trackRepaired (hcount : SMap.get 0 s.maint.tracks k < 2) : ∃ t, exec (.retrainingComplete site e true [tr]) s = .next t
    ∧ SMap.get 0 t.maint.tracks k = SMap.get 0 s.maint.tracks k + 1 ∧ linkAt site.val e.val ∉ t.mesh.training
    ∧ t.mesh.fenced = s.mesh.fenced
    ∧ Logged s t 7 (siteRow site.val / 2) tr.1.val (tr.2.2.val + 2 ^ 8 * tr.2.1.val) := by
  obtain ⟨x, fits, inj, hrepair, hexec⟩ := execRetrainingComplete_eq s true [tr] hbeyond hl
    (.inr (earlierTraining_eq_false s halone hl))
  rw [List.map_cons, List.map_nil, State.repairTracks_single, if_neg (by rw [sparOf, ← hk]; omega), sparOf, ← hk] at hrepair
  obtain ⟨rfl, rfl⟩ := Prod.mk.inj hrepair
  obtain ⟨htraining, _, hfenced, hboot, htracks⟩ := State.retrainingEnds_good ((s.countTrack k).appendLog 7 (siteRow site.val / 2)
    tr.1.val (tr.2.2.val + 2 ^ 8 * tr.2.1.val)) site.isLt e.isLt inj
  refine ⟨_, hexec, ?_, htraining, hfenced, fun hlen => ?_⟩
  · rw [Bool.and_true, htracks, State.appendLog_maint, State.tracks_countTrack]
  · rw [Bool.and_true, hboot]
    exact State.appendLog_log (s.countTrack k) _ _ _ _ hlen

/-- The third one loses the link. -/
theorem trackNotRepaired (hcount : SMap.get 0 s.maint.tracks k = 2) : ∃ t, exec (.retrainingComplete site e true [tr]) s = .next t
    ∧ linkAt site.val e.val ∈ t.mesh.fenced := by
  obtain ⟨x, fits, inj, hrepair, hexec⟩ := execRetrainingComplete_eq s true [tr] hbeyond hl
    (.inr (earlierTraining_eq_false s halone hl))
  rw [List.map_cons, List.map_nil, State.repairTracks_single, if_pos (by rw [sparOf, ← hk, hcount])] at hrepair
  obtain ⟨rfl, rfl⟩ := Prod.mk.inj hrepair
  exact ⟨_, hexec, (State.retrainingEnds_lost _ site.isLt e.isLt inj).1⟩

end

end

theorem seamLinks : SeamLinks := by
  rintro s site e sep l w tr k rfl hbeyond
  exact ⟨seamFails hbeyond, seamDrifts, fun hl => ⟨seamRealigned hbeyond hl, fun _ => seamNotRealigned hbeyond hl,
    fun halone hk => ⟨trackRepaired hbeyond hl halone hk, trackNotRepaired hbeyond hl halone hk⟩⟩⟩

/-- Settles O50: what follows the loss of a reference, a PLL or a link keeps what the loss has done, and a retraining that ends well
changes no link but its own. -/
theorem clocksAndLinks : Obligations.ClocksAndLinks := ⟨referenceAndPlls, seamLinks⟩

end Sys2Proof.Claims

/-!
SUPPORT. States that single clauses of the statements about the core and its tasks do not hold in.
-/
namespace Sys2Proof.Claims

open Sys2Proof.Machine

/-- Slot 0 of core 0 runs a task: READY, with its code in the cache. -/
def runningTask : State :=
  (State.reset.modSlot 0 0 (fun sl => { sl with mode := .ready, seg := { Segments.zero with codeBound := 64 } })).modCore 0
    (fun c => { c with icache := [(0, [])] })

/-- What command `c` leaves of `s`, if it goes on, is as `P` says. -/
def leaves (c : Instr) (s : State) (P : State → Bool) : Bool :=
  match exec c s with
  | .next t => P t
  | _ => true

theorem of_leaves {c : Instr} {s t : State} {P : State → Bool} (hrun : leaves c s P = true) (h : exec c s = .next t) : P t = true := by
  simpa only [leaves, h] using hrun

/-! A wait that is over at once (O10). -/

/-- The same, while a token of the ENDING slot 1 is due in the present cycle. -/
def tokenDueElsewhere : State :=
  runningTask.modSlot 0 1 (fun sl => { sl with mode := .ending, tokens := [(0, .busy)], due := [(0, 0, 0)] })

theorem tokenDueElsewhere_fires : Fires tokenDueElsewhere ⟨0, 0⟩ 4 := by unfold Fires; decide +kernel

/-- A WAITP for a phase that the tick's program does not have leaves slot 1 as it was. -/
theorem waitp_leaves_due {t : State} (h : exec (.waitp ⟨0, 0⟩ 0 0 0) tokenDueElsewhere = .next t) :
    (t.slot 0 1).due = [(0, 0, 0)] :=
  of_decide_eq_true (of_leaves (P := fun t => (t.slot 0 1).due = [(0, 0, 0)]) (by decide +kernel) h)

/-- Refutes O10: a WAITP that returns 1 at once examines no waits (R76), so a token of another slot that is due by then does not
complete in its issue, while the frame of the waiting instructions says it has. -/
theorem not_tokenAndPhaseWaits : ¬ Obligations.TokenAndPhaseWaits := by
  rintro ⟨-, hphase, -⟩
  obtain ⟨-, hnone, -⟩ := (hphase tokenDueElsewhere ⟨0, 0⟩ 0 0 0 tokenDueElsewhere_fires).1 rfl (by decide)
  obtain ⟨t, ht, -, hframe⟩ := hnone (by decide +kernel) (by decide +kernel)
  obtain ⟨-, -, -, -, -, -, -, -, -, hothers, -⟩ := hframe
  have hdue := congrArg Slot.due (hothers 1 (by decide) (by decide) (by decide +kernel))
  have hgone : ((tokenDueElsewhere.slot 0 1).ripen (issueCycle tokenDueElsewhere ⟨0, 0⟩)).due = [] := by decide +kernel
  exact absurd ((waitp_leaves_due ht).symm.trans (hdue.trans hgone)) (by decide)

/-! A window whose close a TEND completes (O11). -/

/-- The task has opened window 0, and the close of the window is to complete the task's token 16, which is BUSY. -/
def tokenBeyondTheSixteen : State :=
  (runningTask.modSlot 0 0 (fun sl => { sl with tokens := [(16, .busy)], opened := [(0, 0)] })).modSpad 0 (fun sp =>
    sp.modWin 0 (fun w => { w with isOpen := true, closers := [(0, 16)] }))

theorem tokenBeyondTheSixteen_fires : Fires tokenBeyondTheSixteen ⟨0, 0⟩ 4 := by unfold Fires; decide +kernel

/-- TEND closes the window, and the token is due in the next cycle. -/
theorem tend_makes_due {t : State} (h : exec (.tend ⟨0, 0⟩ 0 0 0) tokenBeyondTheSixteen = .next t) :
    (t.slot 0 0).due = [(1, 16, 0)] :=
  of_decide_eq_true (of_leaves (P := fun t => (t.slot 0 0).due = [(1, 16, 0)]) (by decide +kernel) h)

/-- Refutes O11: TEND closes the task's windows once none of its sixteen tokens is BUSY (R51). In a state where a window's close
is to complete a token of that slot beyond the sixteen that is BUSY, the close makes that token due, so the slot is not as it was
but for ENDING. -/
theorem not_systemInstructions : ¬ Obligations.SystemInstructions := by
  rintro ⟨-, hend⟩
  obtain ⟨⟨t, ht, hslot, -⟩, -⟩ := hend tokenBeyondTheSixteen ⟨0, 0⟩ 0 tokenBeyondTheSixteen_fires
  have hkept : (stepped tokenBeyondTheSixteen ⟨0, 0⟩ 4 (own tokenBeyondTheSixteen ⟨0, 0⟩)).due = [] := by decide +kernel
  exact absurd ((tend_makes_due ht).symm.trans ((congrArg Slot.due hslot).trans hkept)) (by decide)

/-! A destination that runs into a register space (O19). -/

/-- A FILL of two lines whose destination begins in the last line of space 1; the first line is done, and the second lies in
space 2, of the core registers. -/
def fillIntoRegisters : DmaDesc :=
  { id := 0, slot := 0, token := 0, tick := 0, att := 0, patch := 0, op := .fill, fence := false, src := 0, dst := 2 ^ 45 - 64,
    length := 128, rows := 1, srcStride := 0, dstStride := 0, pattern := 0, group := [], missOff := 0, off := 0, held := false,
    started := true, stopped := false, row := 0, col := 64, outstanding := 0, failed := none, credit := .none, targets := [],
    sentLines := 0, resendAt := 0, resending := false, valiant := false, finished := none, gather := [], writeCol := 0, owed := [],
    hash := 0 }

/-- The DMA engine of core 0 has that descriptor alone. -/
def fillingIntoRegisters : State :=
  State.reset.modCore 0 (fun c => { c with dma := { c.dma with queue := [fillIntoRegisters] } })

theorem fillingIntoRegisters_goes : DmaGoes fillingIntoRegisters 0 fillIntoRegisters := by unfold DmaGoes; decide +kernel

/-- The bytes that an access writes. -/
def bytesToWrite (x : Access) : Nat :=
  match x.kind with
  | .write bs => bs.length
  | _ => 0

/-- Its write in space 2 is one of 8 bytes (R510). -/
theorem fill_writes_eight {t : State} (h : exec (.fill 0 0) fillingIntoRegisters = .next t) :
    (t.access 0).map bytesToWrite = some 8 :=
  of_decide_eq_true (of_leaves (P := fun t => (t.access 0).map bytesToWrite = some 8) (by decide +kernel) h)

/-- Refutes O19: the accesses of a FILL go by the space of each address (R510), and the statement asks only of the descriptor's
first address that it lies in no register space. A destination that begins in the last line of space 1 and goes on in space 2
is written there by 8 bytes, where the statement says 64. -/
theorem not_dmaTransfers : ¬ Obligations.DmaTransfers := by
  rintro ⟨haccess, -, -⟩
  obtain ⟨t, x, -, ht, hx, -, -, -, -, -, -, -, -, hfill, -⟩ :=
    haccess fillingIntoRegisters 0 (.fill 0 0) fillIntoRegisters .fill 64 64 1 rfl fillingIntoRegisters_goes rfl (by decide +kernel)
      (by decide +kernel) rfl rfl (by decide) (by decide +kernel)
  obtain ⟨-, bs, hkind, hlen, -⟩ := hfill rfl
  have h8 : some (bytesToWrite x) = some 8 := (congrArg (Option.map bytesToWrite) hx).symm.trans (fill_writes_eight ht)
  simp only [bytesToWrite, hkind, hlen] at h8
  exact absurd h8 (by decide)

end Sys2Proof.Claims

/-!
SUPPORT. What an issue and a task fault leave alone: the issue's frame, and every part of the record, the count and the notices of a
fault (R36, R52, R55, R86).
-/
namespace Sys2Proof.Machine

/-! Tokens that complete. -/

/-- What the completion of tokens may change of a slot. -/
def Slot.sameButTokens (x y : Slot) : Prop := ({ y with tokens := x.tokens, due := x.due } : Slot) = x

theorem Slot.sameButTokens_refl (x : Slot) : x.sameButTokens x := rfl

theorem Slot.sameButTokens_trans {x y z : Slot} (h : x.sameButTokens y) (k : y.sameButTokens z) : x.sameButTokens z :=
  (congrArg (fun w : Slot => ({ w with tokens := x.tokens, due := x.due } : Slot)) k).trans h

/-- A field other than the tokens is the same. -/
theorem Slot.sameButTokens_field {β : Type} {x y : Slot} (h : x.sameButTokens y) (f : Slot → β)
    (hf : ∀ (z : Slot) (m : SMap Token) (l : List (Nat × Nat × Status)), f { z with tokens := m, due := l } = f z) : f y = f x :=
  (hf y x.tokens x.due).symm.trans (congrArg f h)

theorem Slot.complete_sameButTokens (x : Slot) (t : Nat) (st : Status) : x.sameButTokens (x.complete t st) := by
  unfold Slot.complete
  split
  · rfl
  · rfl

theorem Slot.foldl_complete_sameButTokens (l : List (Nat × Nat × Status)) (x : Slot) :
    x.sameButTokens (l.foldl (fun sl e => sl.complete e.2.1 e.2.2) x) := by
  induction l generalizing x with
  | nil => rfl
  | cons e l ih => exact Slot.sameButTokens_trans (x.complete_sameButTokens _ _) (ih _)

theorem Slot.ripen_sameButTokens (now : Nat) (x : Slot) : x.sameButTokens (x.ripen now) := by
  unfold Slot.ripen
  split
  · rfl
  · exact x.foldl_complete_sameButTokens _

@[simp] theorem Slot.ripen_pc (now : Nat) (x : Slot) : (x.ripen now).pc = x.pc :=
  Slot.sameButTokens_field (x.ripen_sameButTokens now) Slot.pc fun _ _ _ => rfl
@[simp] theorem Slot.ripen_mode (now : Nat) (x : Slot) : (x.ripen now).mode = x.mode :=
  Slot.sameButTokens_field (x.ripen_sameButTokens now) Slot.mode fun _ _ _ => rfl
@[simp] theorem Slot.ripen_wait (now : Nat) (x : Slot) : (x.ripen now).wait = x.wait :=
  Slot.sameButTokens_field (x.ripen_sameButTokens now) Slot.wait fun _ _ _ => rfl
@[simp] theorem Slot.ripen_seg (now : Nat) (x : Slot) : (x.ripen now).seg = x.seg :=
  Slot.sameButTokens_field (x.ripen_sameButTokens now) Slot.seg fun _ _ _ => rfl
@[simp] theorem Slot.ripen_regs (now : Nat) (x : Slot) : (x.ripen now).regs = x.regs :=
  Slot.sameButTokens_field (x.ripen_sameButTokens now) Slot.regs fun _ _ _ => rfl
@[simp] theorem Slot.ripen_opened (now : Nat) (x : Slot) : (x.ripen now).opened = x.opened :=
  Slot.sameButTokens_field (x.ripen_sameButTokens now) Slot.opened fun _ _ _ => rfl
@[simp] theorem Slot.ripen_faultValid (now : Nat) (x : Slot) : (x.ripen now).faultValid = x.faultValid :=
  Slot.sameButTokens_field (x.ripen_sameButTokens now) Slot.faultValid fun _ _ _ => rfl
@[simp] theorem Slot.ripen_reg (now : Nat) (x : Slot) (r : Nat) : (x.ripen now).reg r = x.reg r := by
  simp only [Slot.reg, Slot.ripen_regs]

/-! A division's register write. -/

@[simp] theorem Slot.flush_pc (x : Slot) : x.flush.pc = x.pc := by
  unfold Slot.flush Slot.setReg
  split
  · rfl
  · split <;> rfl
@[simp] theorem Slot.flush_seg (x : Slot) : x.flush.seg = x.seg := by
  unfold Slot.flush Slot.setReg
  split
  · rfl
  · split <;> rfl

end Sys2Proof.Machine

namespace Sys2Proof.Machine

variable (s : State)

/-! A task fault. -/

/-- The slot that has taken a fault in cycle `now` (R52, R55). -/
def Slot.faulted (sl : Slot) (now code : Nat) (pc addr : Word) : Slot :=
  { (sl.record code pc addr) with
    lastFault := some (now, code, pc, addr), mode := .faulted, wait := .none, mem := none, branchFrom := none }

/-- The record of a slot's fault: the first one stays, a later one sets OVF (R52). -/
theorem Slot.record_spec (x : Slot) (code : Nat) (pc addr : Word) :
    (x.record code pc addr).regs = x.regs ∧ (x.record code pc addr).tokens = x.tokens ∧ (x.record code pc addr).pc = x.pc
      ∧ (x.record code pc addr).faultValid = true
      ∧ (x.faultValid = false →
          (x.record code pc addr).faultCode = BitVec.ofNat 8 code ∧ (x.record code pc addr).faultPc = pc.truncate 32
            ∧ (x.record code pc addr).faultAddr = addr ∧ (x.record code pc addr).faultOvf = x.faultOvf)
      ∧ (x.faultValid = true →
          (x.record code pc addr).faultCode = x.faultCode ∧ (x.record code pc addr).faultPc = x.faultPc
            ∧ (x.record code pc addr).faultAddr = x.faultAddr ∧ (x.record code pc addr).faultOvf = true) := by
  unfold Slot.record
  split
  · rename_i h
    exact ⟨rfl, rfl, rfl, h, fun h' => absurd h (by simp [h']), fun _ => ⟨rfl, rfl, rfl, rfl⟩⟩
  · rename_i h
    exact ⟨rfl, rfl, rfl, rfl, fun _ => ⟨rfl, rfl, rfl, rfl⟩, fun h' => absurd h' h⟩

/-- The notice of a task fault. -/
def State.faultNotice (p i : Nat) : Notice :=
  { kind := 0, core := (s.gid p).getD 0x3FFF, tick := (s.slot p i).tick, att := (s.slot p i).att, count := 0 }

/-- The notice that carries the event of a task fault. -/
def State.faultEvent (p i code : Nat) (pc : Word) : Notice :=
  { kind := 3, core := (s.gid p).getD 0x3FFF, tick := (s.slot p i).tick, att := (s.slot p i).att, count := 0
    event := some { sev := .info, code := 0x10, src := coreSrc p i, tick := some (s.slot p i).tick
                    data := faultData s p (s.slot p i) code pc, ahead := (s.slot p i).runahead } }

/-- The notices that wait at a node behind a fault of a task of core `p`. -/
def State.faultNotices (p i code : Nat) (pc : Word) : List Notice :=
  addNotice (addNotice (s.core p).node.notices (s.faultNotice p i)) (s.faultEvent p i code pc)

@[simp] theorem State.noteHw_core (u off bits events p : Nat) : (s.noteHw u off bits events).core p = s.core p := rfl
@[simp] theorem State.noteHw_regs (u off bits events : Nat) : (s.noteHw u off bits events).regs = s.regs := rfl
@[simp] theorem State.noteHw_now (u off bits events : Nat) : (s.noteHw u off bits events).now = s.now := rfl
@[simp] theorem State.noteHw_events (u off bits events : Nat) : (s.noteHw u off bits events).events = s.events := rfl
@[simp] theorem State.bump_core (u off lo w n p : Nat) : (s.bump u off lo w n).core p = s.core p := rfl
@[simp] theorem State.bump_now (u off lo w n : Nat) : (s.bump u off lo w n).now = s.now := rfl

theorem State.fld_modCore (p : Nat) (f : Core → Core) (u off lo w : Nat) : (s.modCore p f).fld u off lo w = s.fld u off lo w := rfl
theorem State.fld_noteHw (u off bits events v o lo w : Nat) : (s.noteHw u off bits events).fld v o lo w = s.fld v o lo w := rfl

/-- What a task fault does to the slot's state, its record and the count, before the notices (R52, R55). -/
def State.faulting (p i code : Nat) (pc addr : Word) : State :=
  ((s.modSlot p i (fun sl => sl.faulted s.now code pc addr)).noteHw (unitCore p) (rTASK_FAULT + 0x100 * i)
    (2 ^ (if (s.slot p i).faultValid then 9 else 8)) 0).bump (unitCore p) rCORE_FAULT_COUNT 0 32 1

theorem State.takeFault_eq (p i code : Nat) (pc addr : Word) :
    s.takeFault p i code pc addr = ((s.faulting p i code pc addr).notice p 0 (s.slot p i).tick (s.slot p i).att).raiseCore p i
      .info 0x10 (some ((s.slot p i).tick, (s.slot p i).att)) (faultData s p (s.slot p i) code pc) (s.slot p i).runahead := rfl

theorem State.core_faulting (p i code : Nat) (pc addr : Word) :
    (s.faulting p i code pc addr).core p = (s.core p).setSlot i ((s.slot p i).faulted s.now code pc addr) := by
  simp only [State.faulting, State.bump_core, State.noteHw_core, State.modSlot, State.core_modCore_same, Core.modSlot]
  rfl

theorem State.core_faulting_other {p q : Nat} (i code : Nat) (pc addr : Word) (h : q ≠ p) :
    (s.faulting p i code pc addr).core q = s.core q := by
  simp only [State.faulting, State.bump_core, State.noteHw_core, State.modSlot, State.core_modCore_other _ _ h]

theorem State.core_notice (p kind tick att : Nat) :
    (s.notice p kind tick att).core p = { s.core p with node := { (s.core p).node with
      notices := addNotice (s.core p).node.notices
        { kind := kind, core := (s.gid p).getD 0x3FFF, tick := tick, att := att, count := 0 } } } := by
  simp only [State.notice, State.core_modCore_same]

theorem State.core_raiseCore (p slot : Nat) (sev : Severity) (code : Nat) (run : Option (Nat × Nat)) (data : Nat) (ahead : Bool) :
    (s.raiseCore p slot sev code run data ahead).core p = { s.core p with node := { (s.core p).node with
      notices := addNotice (s.core p).node.notices
        { kind := 3, core := (s.gid p).getD 0x3FFF, tick := (run.map (·.1)).getD 0, att := (run.map (·.2)).getD 0, count := 0
          event := some { sev := sev, code := code, src := coreSrc p slot, tick := run.map (·.1), data := data, ahead := ahead } } } } := by
  simp only [State.raiseCore, State.core_modCore_same]

/-- The core behind a task fault: the slot has taken it, and its notices wait. -/
theorem State.core_takeFault (p i code : Nat) (pc addr : Word) :
    (s.takeFault p i code pc addr).core p =
      { (s.core p).setSlot i ((s.slot p i).faulted s.now code pc addr) with
        node := { (s.core p).node with notices := s.faultNotices p i code pc } } := by
  rw [State.takeFault_eq, State.core_raiseCore, State.core_notice, State.core_faulting]
  rfl

theorem State.core_takeFault_other {p q : Nat} (i code : Nat) (pc addr : Word) (h : q ≠ p) :
    (s.takeFault p i code pc addr).core q = s.core q := by
  rw [State.takeFault_eq]
  simp only [State.raiseCore, State.notice, State.core_modCore_other _ _ h, State.core_faulting_other _ _ _ _ _ h]

/-- A change of a core's node leaves its slots. -/
@[simp] theorem Core.slot_node (c : Core) (n : Node) (i : Nat) : ({ c with node := n } : Core).slot i = c.slot i := rfl

@[simp] theorem State.slot_takeFault (p i code : Nat) (pc addr : Word) :
    (s.takeFault p i code pc addr).slot p i = (s.slot p i).faulted s.now code pc addr := by
  rw [State.slot, State.core_takeFault, Core.slot_node, Core.slot_setSlot_same]

@[simp] theorem State.takeFault_now (p i code : Nat) (pc addr : Word) : (s.takeFault p i code pc addr).now = s.now := by
  rw [State.takeFault_eq]
  simp only [State.raiseCore, State.notice, State.modCore_now, State.faulting, State.bump_now, State.noteHw_now, State.modSlot_now]
@[simp] theorem State.takeFault_events (p i code : Nat) (pc addr : Word) : (s.takeFault p i code pc addr).events = s.events := by
  rw [State.takeFault_eq]
  simp only [State.raiseCore, State.notice, State.modCore_events, State.faulting, State.bump_events, State.noteHw_events, State.modSlot_events]

theorem State.fld_takeFault (p i code : Nat) (pc addr : Word) :
    (s.takeFault p i code pc addr).fld (unitCore p) rCORE_FAULT_COUNT 0 32
      = Nat.min (2 ^ 32 - 1) (s.fld (unitCore p) rCORE_FAULT_COUNT 0 32 + 1) := by
  rw [State.takeFault_eq]
  simp only [State.raiseCore, State.notice, State.fld_modCore, State.faulting, State.fld_bump_same, State.fld_noteHw, State.modSlot]

/-! Notices. -/

/-- A notice of this kind waits behind the arrival of one. -/
theorem exists_mem_addNotice (l : List Notice) (n : Notice) : ∃ m ∈ addNotice l n, m.kind = n.kind := by
  unfold addNotice
  split
  · rename_i h
    obtain ⟨m, hm, hk⟩ := List.any_eq_true.1 h
    refine ⟨_, List.mem_map_of_mem hm, ?_⟩
    rw [if_pos hk]
    exact beq_iff_eq.1 hk
  · exact ⟨n, by simp, rfl⟩

theorem mem_addNotice_of_absent {l : List Notice} {n : Notice} (h : ∀ m ∈ l, m.kind ≠ n.kind) : n ∈ addNotice l n := by
  have hany : l.any (fun m => m.kind == n.kind) = false := by
    simpa using h
  rw [addNotice, if_neg (by simp [hany])]
  simp

/-- A notice of another kind that waits goes on waiting. -/
theorem exists_mem_addNotice_of_kind {l : List Notice} (n : Notice) {k : Nat} (h : ∃ m ∈ l, m.kind = k) : ∃ m ∈ addNotice l n, m.kind = k := by
  obtain ⟨m, hm, hk⟩ := h
  unfold addNotice
  split
  · refine ⟨_, List.mem_map_of_mem hm, ?_⟩
    split
    · exact hk
    · exact hk
  · exact ⟨m, List.mem_append_left _ hm, hk⟩

/-- The arrival of a notice of one kind brings none of another. -/
theorem kind_ne_of_mem_addNotice {l : List Notice} {n : Notice} {k : Nat} (h : ∀ m ∈ l, m.kind ≠ k) (hn : n.kind ≠ k) :
    ∀ m ∈ addNotice l n, m.kind ≠ k := by
  unfold addNotice
  split
  · intro m hm
    obtain ⟨m', hm', rfl⟩ := List.mem_map.1 hm
    split
    · exact h m' hm'
    · exact h m' hm'
  · intro m hm
    rcases List.mem_append.1 hm with hm | hm
    · exact h m hm
    · rw [List.mem_singleton.1 hm]
      exact hn

end Sys2Proof.Machine

namespace Sys2Proof.Claims

open Sys2Proof.Machine

/-- A task fault that slot `i` takes in `u` is one from `s`, where the two differ in nothing that the fault speaks of. -/
theorem faultFrom_takeFault {s u : State} {p i : Nat} (code : Nat) (pc addr : Word)
    (hnode : (u.core p).node = (s.core p).node)
    (hcount : u.fld (unitCore p) rCORE_FAULT_COUNT 0 32 = s.fld (unitCore p) rCORE_FAULT_COUNT 0 32) (hevents : u.events = s.events)
    (hother : ∀ q, q ≠ p → u.core q = s.core q) (hbytes : (u.core p).spad.bytes = (s.core p).spad.bytes) :
    FaultFrom (u.slot p i) s (u.takeFault p i code pc addr) p i code pc addr := by
  have hcore := u.core_takeFault p i code pc addr
  have hslot := u.slot_takeFault p i code pc addr
  have hfld := u.fld_takeFault p i code pc addr
  have hev := u.takeFault_events p i code pc addr
  have hq : ∀ q, q ≠ p → (u.takeFault p i code pc addr).core q = s.core q := fun q h =>
    (u.core_takeFault_other i code pc addr h).trans (hother q h)
  generalize u.takeFault p i code pc addr = t at hcore hslot hfld hev hq
  generalize hx : u.slot p i = x at hslot
  have hnotices := congrArg (fun c : Core => c.node.notices) hcore
  have hspad := congrArg (fun c : Core => c.spad.bytes) hcore
  obtain ⟨hregs, htokens, hpc, hvalid, hfirst, hlater⟩ := Slot.record_spec x code pc addr
  unfold FaultFrom
  rw [hslot, hnotices]
  refine ⟨rfl, rfl, rfl, hregs, htokens, hpc, hvalid, hfirst, hlater, by rw [hfld, hcount], hev.trans hevents, ?_, ?_, hq, hspad.trans hbytes⟩
  · obtain ⟨m, hm, hk⟩ := exists_mem_addNotice_of_kind (u.faultEvent p i code pc) (exists_mem_addNotice (u.core p).node.notices
      (u.faultNotice p i))
    exact List.any_eq_true.2 ⟨m, hm, beq_iff_eq.2 hk⟩
  · by_cases h : ∀ m ∈ (s.core p).node.notices, m.kind ≠ 3
    · rw [← hnode] at h
      exact ⟨_, mem_addNotice_of_absent (kind_ne_of_mem_addNotice h (show (0 : Nat) ≠ 3 by decide)), rfl, fun _ => ⟨_, rfl, rfl, rfl, rfl, hx.symm ▸ rfl, hx.symm ▸ rfl⟩⟩
    · obtain ⟨m, hm, hk⟩ := exists_mem_addNotice (addNotice (u.core p).node.notices (u.faultNotice p i)) (u.faultEvent p i code pc)
      exact ⟨m, hm, hk, fun h' => absurd h' h⟩

end Sys2Proof.Claims

/-!
SUPPORT. Every task processor instruction issues as its form says, and what an issue answers (R36, R40, R61, R63).
-/
namespace Sys2Proof.Claims

open Sys2Proof.Machine

/-- The outcome of a task processor instruction is that of an issue, but that one may wait for a place with its reserved fields
zero. -/
def Issues (s : State) (i : Instr) (a : At) (len word : Nat) (ok : Bool) : Prop :=
  ∃ body legal waits, exec i s = (if (at_ s a).fetchInside len && waits then .next s else tpIssue a len word legal body s)
    ∧ legal = ok ∧ (waits = true → ok = true)

theorem Issues.of_tpIssue {s : State} {i : Instr} {a : At} {len word : Nat} {legal ok : Bool} {body : State → State}
    (h : exec i s = tpIssue a len word legal body s) (hok : legal = ok) : Issues s i a len word ok :=
  ⟨body, legal, false, by rw [h, Bool.and_false]; rfl, hok, fun h => absurd h (by decide)⟩

theorem Issues.of_engineIssue {s : State} {i : Instr} {a : At} {op : Nat} {k : MemKind} {rd ra : Reg} {imm : BitVec 16}
    (h : exec i s = engineIssue a op k rd ra imm s) : Issues s i a 4 (encI op rd ra imm) true :=
  ⟨_, _, _, h, rfl, fun _ => rfl⟩

/-- HSEND waits for a place only with its reserved fields zero (log 107). -/
theorem Issues.of_hsend (s : State) (a : At) (d x y : Reg) (f : BitVec 11) :
    Issues s (.hsend a d x y f) a 4 (encR 0x35 d x y f.toNat) (decide (d = 0 ∧ f.toNat ≤ 15)) := by
  have hok : (d == 0 && decide (f.toNat < 16)) = decide (d = 0 ∧ f.toNat ≤ 15) := by
    simp only [beq_eq_decide, ← Bool.decide_and, Nat.lt_succ_iff]
  refine ⟨_, _, _, rfl, hok, fun hw => ?_⟩
  simp only [Core.sendWaits, Bool.and_eq_true] at hw
  rw [← hok, Bool.and_eq_true]
  exact hw.2

/-- Every task processor instruction issues as its form says (R36, R59–R63). -/
theorem issues_of_tpForm (s : State) {i : Instr} {a : At} {len word : Nat} {ok : Bool} (h : tpForm i = some (a, len, word, ok)) :
    Issues s i a len word ok := by
  unfold tpForm at h
  split at h
  case h_88 => exact absurd h (by simp)
  all_goals
    simp only [tpForm.r, tpForm.u, tpForm.i, tpForm.b, tpForm.f11, Option.some.injEq, Prod.mk.injEq] at h
    obtain ⟨rfl, rfl, rfl, rfl⟩ := h
  case h_69 | h_70 | h_71 => exact Issues.of_engineIssue rfl
  case h_80 => exact Issues.of_hsend _ _ _ _ _ _
  all_goals
    refine Issues.of_tpIssue (body := ?_) (legal := ?_) ?_ ?_
    case refine_3 =>
      simp only [exec_add, exec_sub, exec_and, exec_or, exec_xor, exec_andn, exec_sll, exec_srl, exec_sra, exec_ror, exec_slt, exec_sltu,
      exec_min, exec_max, exec_minu, exec_maxu, exec_mul, exec_mulhs, exec_mulhu, exec_adds, exec_subs, exec_divu, exec_divs,
      exec_remu, exec_rems, exec_clz, exec_ctz, exec_popc, exec_sextb, exec_sexth, exec_sextw, exec_zextw, exec_addi,
      exec_andi, exec_ori, exec_xori, exec_slti, exec_sltiu, exec_shi, exec_lui, exec_lhi, exec_addix, exec_beq, exec_bne,
      exec_blt, exec_bge, exec_bltu, exec_bgeu, exec_jal, exec_jalr, exec_lb, exec_lbu, exec_lh, exec_lhu, exec_lw, exec_lwu,
      exec_ld, exec_sb, exec_sh, exec_sw, exec_sd, exec_amoadd, exec_amoswap, exec_amocas, exec_amoor, exec_amoand, exec_take,
      exec_put, exec_wopen, exec_wclose, exec_wstat, exec_waitt, exec_waitm, exec_waitp, exec_waitc, exec_bar, exec_hrecv,
      exec_tend, exec_yield, exec_raise, exec_rdpar, exec_rdsys, exec_clrflg]
      simp only [execAdd, execSub, execAnd, execOr, execXor, execAndn, execSll, execSrl, execSra, execRor, execSlt, execSltu, execMin,
      execMax, execMinu, execMaxu, execMul, execMulhs, execMulhu, execAdds, execSubs, execDivu, execDivs, execRemu, execRems,
      execClz, execCtz, execPopc, execSextb, execSexth, execSextw, execZextw, execAddi, execAndi, execOri, execXori, execSlti,
      execSltiu, execShi, execLui, execLhi, execAddix, execBeq, execBne, execBlt, execBge, execBltu, execBgeu, execJal,
      execJalr, execLb, execLbu, execLh, execLhu, execLw, execLwu, execLd, execSb, execSh, execSw, execSd, execAmoadd,
      execAmoswap, execAmocas, execAmoor, execAmoand, execTake, execPut, execWopen, execWclose, execWstat, execWaitt,
      execWaitm, execWaitp, execWaitc, execBar, execHrecv, execTend, execYield, execRaise, execRdpar, execRdsys, execClrflg,
      aluR, aluU, aluDiv, aluI, branch, load, store, atomic, tpAccess, tpSimple]
      rfl
  all_goals simp only [beq_eq_decide, ← Bool.decide_and, and_assoc, Nat.lt_succ_iff, field, Nat.shiftRight_eq_div_pow, Nat.reducePow,
    Nat.div_eq_zero_iff, OfNat.ofNat_ne_zero, false_or]

/-! The turn of a slot, and an issue's frame. -/

theorem issuesBefore_iff (s : State) (p i j : Nat) :
    (j < 8 ∧ (s.core p).issuesBefore s.now i j = true) ↔ ComesBefore s p i j := by
  simp only [ComesBefore, Core.issuesBefore, Bool.and_eq_true, Bool.or_eq_true, bne_iff_ne, decide_eq_true_eq, beq_iff_eq, and_assoc]
  refine and_congr_right fun _ => and_congr_right fun _ => and_congr_right fun _ => ⟨fun h ti tj hi hj => ?_, fun h => h _ _ rfl rfl⟩
  rw [hi, hj]
  exact h

theorem itsTurn_iff (s : State) (p i : Nat) : (s.core p).itsTurn s.now i = true ↔ ∀ j, ¬ ComesBefore s p i j := by
  simp only [← issuesBefore_iff, Core.itsTurn, List.all_eq_true, List.mem_range, Bool.not_eq_true', not_and, Bool.not_eq_true]

theorem canIssue_iff (sl : Slot) : sl.canIssue = true ↔ sl.mode = .ready ∧ sl.mem = none := by
  simp only [Slot.canIssue, Bool.and_eq_true, beq_iff_eq, Option.isNone_iff_eq_none]

theorem issued_now_eq (s : State) (a : At) : (s.issued a).now = issueCycle s a := rfl

theorem slot_issued_eq (s : State) (a : At) : at_ (s.issued a) a = own s a := s.slot_issued a

/-- What the issue itself changes of its core: the bookkeeping of the search and its slots. -/
theorem core_issued (s : State) (a : At) :
    ({ (s.issued a).core (corep a) with
        slots := (s.core (corep a)).slots, lastSlot := (s.core (corep a)).lastSlot, issueAt := (s.core (corep a)).issueAt } : Core)
      = s.core (corep a) := by
  have h := (Core.beginIssue_spec (s.core (corep a)) a.slot.val (issueCycle s a)).2.2.2.1
  rw [State.issued, State.core_modCore_same]
  exact h

theorem core_issued_other (s : State) (a : At) {q : Nat} (h : q ≠ corep a) : (s.issued a).core q = s.core q :=
  (State.core_modCore_other _ _ h).trans (s.core_advanceTo _ q)

/-- A field of the issuing core other than its slots and the bookkeeping of the search. -/
theorem core_issued_field {β : Type} (s : State) (a : At) (f : Core → β)
    (hf : ∀ (c : Core) (m : SMap Slot) (l t : Nat), f { c with slots := m, lastSlot := l, issueAt := t } = f c) :
    f ((s.issued a).core (corep a)) = f (s.core (corep a)) :=
  (hf _ _ _ _).symm.trans (congrArg f (core_issued s a))

/-- A fault that the issue of slot `a` takes. -/
theorem faulted_issued (s : State) (a : At) (code : Nat) (pc addr : Word) :
    Faulted s ((s.issued a).takeFault (corep a) a.slot.val code pc addr) a code pc addr := by
  have h := faultFrom_takeFault (s := s) (u := s.issued a) (p := corep a) (i := a.slot.val) code pc addr
    (core_issued_field s a Core.node fun _ _ _ _ => rfl) rfl rfl (fun q hq => core_issued_other s a hq)
    (core_issued_field s a (fun c => c.spad.bytes) fun _ _ _ _ => rfl)
  rwa [show (s.issued a).slot (corep a) a.slot.val = own s a from slot_issued_eq s a] at h

/-! The outcomes of an issue. -/

/-- Slot `a` is the one that issues (R36). -/
def IsNext (s : State) (a : At) : Prop :=
  (at_ s a).mode = .ready ∧ (at_ s a).mem = none ∧ s.coreDown (corep a) = false ∧ ∀ j, ¬ ComesBefore s (corep a) a.slot.val j

theorem isNext_iff (s : State) (a : At) :
    IsNext s a ↔ (!(s.slot a.core.val a.slot.val).canIssue || s.coreDown a.core.val || !(s.core a.core.val).itsTurn s.now a.slot.val) = false := by
  rw [IsNext, ← itsTurn_iff]
  simp only [Bool.or_eq_false_iff, Bool.not_eq_false', canIssue_iff, and_assoc]

theorem Fires.isNext {s : State} {a : At} {len : Nat} (h : Fires s a len) : IsNext s a := by
  obtain ⟨hm, hmem, hd, ht, _⟩ := h
  exact ⟨hm, hmem, hd, (itsTurn_iff s _ _).1 ht⟩

theorem Fires.fetchInside {s : State} {a : At} {len : Nat} (h : Fires s a len) : (at_ s a).fetchInside len = true :=
  decide_eq_true h.2.2.2.2.1

theorem Fires.fetchPresent {s : State} {a : At} {len : Nat} (h : Fires s a len) : (s.core (corep a)).fetchPresent (at_ s a) len = true :=
  h.2.2.2.2.2

theorem tpIssue_not_next {s : State} {a : At} (len word : Nat) (legal : Bool) (body : State → State) (h : ¬ IsNext s a) :
    tpIssue a len word legal body s = .next s := by
  rw [isNext_iff, Bool.not_eq_false] at h
  rw [tpIssue_cases, if_pos h]

theorem tpIssue_outside {s : State} {a : At} {len : Nat} (word : Nat) (legal : Bool) (body : State → State) (h : IsNext s a)
    (hf : (at_ s a).fetchInside len = false) :
    tpIssue a len word legal body s = .next ((s.issued a).takeFault (corep a) a.slot.val fCodeBound
      ((at_ s a).branchFrom.getD (at_ s a).pc) (at_ s a).pc) := by
  rw [isNext_iff] at h
  rw [tpIssue_cases, if_neg (by rw [h]; decide), if_pos (by rw [hf]; rfl)]

theorem tpIssue_absent {s : State} {a : At} {len : Nat} (word : Nat) (legal : Bool) (body : State → State) (h : IsNext s a)
    (hf : (at_ s a).fetchInside len = true) (hp : (s.core (corep a)).fetchPresent (at_ s a) len = false) :
    tpIssue a len word legal body s = .next s := by
  rw [isNext_iff] at h
  rw [tpIssue_cases, if_neg (by rw [h]; decide), if_neg (by rw [hf]; decide), if_pos (by rw [hp]; rfl)]

theorem tpIssue_fires {s : State} {a : At} {len : Nat} (word : Nat) (legal : Bool) (body : State → State) (h : Fires s a len) :
    tpIssue a len word legal body s = .next (if legal then body (s.issued a)
      else (s.issued a).takeFault (corep a) a.slot.val fIllegal (at_ s a).pc (BitVec.ofNat 64 word)) := by
  rw [tpIssue_cases, if_neg (by rw [(isNext_iff s a).1 h.isNext]; decide), if_neg (by rw [h.fetchInside]; decide),
    if_neg (by rw [h.fetchPresent]; decide)]
  cases legal
  · rw [if_pos (by decide), if_neg (by decide)]
  · rw [if_neg (by decide), if_pos rfl]

theorem own_pc (s : State) (a : At) : (own s a).pc = (at_ s a).pc := by simp only [own, Slot.ripen_pc, Slot.flush_pc]
theorem own_seg (s : State) (a : At) : (own s a).seg = (at_ s a).seg := by simp only [own, Slot.ripen_seg, Slot.flush_seg]

theorem fetchTraps : FetchTraps := by
  intro s i a len word ok hform
  obtain ⟨body, legal, waits, hexec, -, -⟩ := issues_of_tpForm s hform
  rw [hexec]
  refine ⟨fun h => ?_, fun hmode hmem hdown hturn => ?_⟩
  · have hnot : ¬ IsNext s a := by
      rintro ⟨hmode, hmem, hdown, hturn⟩
      rcases h with h | h | h | ⟨j, h⟩
      · exact h hmode
      · exact h hmem
      · exact absurd h (by rw [hdown]; decide)
      · exact hturn j h
    rw [tpIssue_not_next _ _ _ _ hnot, ite_self]
  · have hnext : IsNext s a := ⟨hmode, hmem, hdown, hturn⟩
    refine ⟨fun hbound => ?_, fun hbound hpresent => ?_⟩
    · have hout : (at_ s a).fetchInside len = false := decide_eq_false (Nat.not_le.2 hbound)
      rw [hout, Bool.false_and, if_neg (by decide), tpIssue_outside _ _ _ hnext hout]
      exact ⟨_, rfl, faulted_issued s a _ _ _⟩
    · rw [tpIssue_absent _ _ _ hnext (decide_eq_true hbound) hpresent, ite_self]

theorem reservedFieldTraps : ReservedFieldTraps := by
  intro s i a len word hform hfires
  obtain ⟨body, legal, waits, hexec, rfl, hwaits⟩ := issues_of_tpForm s hform
  have hgoes : waits = false := Bool.eq_false_iff.2 fun h => absurd (hwaits h) (by decide)
  rw [hexec, hgoes, Bool.and_false, if_neg (by decide), tpIssue_fires _ _ _ hfires, own_pc]
  exact ⟨_, rfl, faulted_issued s a _ _ _⟩

/-- Settles O7: every task processor instruction goes through the one issue, which looks at the turn, the fetch and the reserved fields
before it runs the instruction. -/
theorem traps : Obligations.Traps := ⟨fetchTraps, reservedFieldTraps⟩

end Sys2Proof.Claims

/-!
SUPPORT. The check of a task-relative address, the request of an access and its frame (R70, R74).
-/
namespace Sys2Proof.Claims

open Sys2Proof.Machine

/-! The check of an address (R70). -/

theorem addrFault_eq_none (x : Slot) (a : Word) (n : Nat) : x.addrFault a n = none ↔ a.toNat + n ≤ x.seg.spadBound ∧ n ∣ a.toNat := by
  unfold Slot.addrFault
  split
  · simp only [reduceCtorEq, false_iff, not_and]
    omega
  · split
    · simp only [reduceCtorEq, false_iff, not_and, Nat.dvd_iff_mod_eq_zero]
      exact fun _ => ‹_›
    · simp only [true_iff, Nat.dvd_iff_mod_eq_zero]
      omega

theorem addrFault_beyond {x : Slot} {a : Word} {n : Nat} (h : x.seg.spadBound < a.toNat + n) : x.addrFault a n = some fSpadBound := by
  rw [Slot.addrFault, if_pos (Nat.not_le.2 h)]

theorem addrFault_misaligned {x : Slot} {a : Word} {n : Nat} (h : a.toNat + n ≤ x.seg.spadBound) (hn : ¬ n ∣ a.toNat) :
    x.addrFault a n = some fSpadMisaligned := by
  rw [Slot.addrFault, if_neg (not_not.2 h), if_pos (by rwa [Nat.dvd_iff_mod_eq_zero] at hn)]

theorem addrFault_congr {x y : Slot} (h : x.seg = y.seg) (a : Word) (n : Nat) : x.addrFault a n = y.addrFault a n := by
  simp only [Slot.addrFault, h]

theorem ofInt_add_signExtend (x : Word) (imm : BitVec 16) : BitVec.ofInt 64 (x.toInt + imm.toInt) = x + sext16 imm := by
  rw [BitVec.ofInt_add, BitVec.ofInt_toInt]
  rfl

/-! A state behind an issue. -/

/-- The frame of an issue whose instruction goes on in state `t`, with its core `c`. -/
theorem issueFrame_of {s t : State} {a : At} {f : Core → Core} {g : State → State} (hnow : t.now = issueCycle s a)
    (hother : ∀ q, q ≠ corep a → t.core q = (s.issued a).core q)
    (hlast : (t.core (corep a)).lastSlot = ((s.issued a).core (corep a)).lastSlot)
    (hat : (t.core (corep a)).issueAt = ((s.issued a).core (corep a)).issueAt)
    (hcore : f ({ t.core (corep a) with
        slots := (s.core (corep a)).slots, lastSlot := (s.core (corep a)).lastSlot, issueAt := (s.core (corep a)).issueAt } : Core)
      = s.core (corep a))
    (hslots : ∀ j, j ≠ a.slot.val → t.slot (corep a) j = (s.issued a).slot (corep a) j)
    (hrest : g { t with now := s.now, cores := s.cores } = s) : IssueFrame s t a f g := by
  obtain ⟨-, hl, hi, -, hj⟩ := Core.beginIssue_spec (s.core (corep a)) a.slot.val (issueCycle s a)
  have hissued : (s.issued a).core (corep a) = (s.core (corep a)).beginIssue a.slot.val (issueCycle s a) := by
    rw [State.issued, State.core_modCore_same]
    rfl
  refine ⟨hnow, by rw [hlast, hissued, hl], by rw [hat, hissued, hi], fun q hq => (hother q hq).trans (core_issued_other s a hq),
    hcore, fun j hne => ?_, hrest⟩
  rw [hslots j hne, State.slot, hissued]
  exact hj j hne

/-- The access that a request leaves with its slot (R70). -/
def requested (s : State) (p i : Nat) (k : MemKind) (rd rv : Reg) (ta : Word) : MemOp :=
  { kind := k, rd := rd.val, off := (s.slot p i).seg.spadBase + ta.toNat, taskAddr := ta, val := (s.slot p i).reg rv
    oldRd := (s.slot p i).reg rd, seq := (s.core p).memSeq, reply := none, dueAt := 0 }

theorem core_request (s : State) (p i : Nat) (k : MemKind) (rd rv : Reg) (ta : Word) :
    (s.request p i k rd rv ta).core p = ({ s.core p with memSeq := (s.core p).memSeq + 1 } : Core).modSlot i (fun sl =>
      { (sl.advance 4 s.now) with mem := some (requested s p i k rd rv ta) }) := by
  rw [State.request, State.modSlot, State.core_modCore_same, State.core_modCore_same]
  rfl

theorem slot_request (s : State) (p i : Nat) (k : MemKind) (rd rv : Reg) (ta : Word) :
    (s.request p i k rd rv ta).slot p i =
      { ((s.slot p i).advance 4 s.now) with mem := some (requested s p i k rd rv ta) } := by
  rw [State.slot, core_request, Core.slot_modSlot_same]
  rfl

theorem issueFrame_request (s : State) (a : At) (k : MemKind) (rd rv : Reg) (ta : Word) :
    IssueFrame s ((s.issued a).request (corep a) a.slot.val k rd rv ta) a (fun c => { c with memSeq := (s.core (corep a)).memSeq }) id := by
  have hcore := core_request (s.issued a) (corep a) a.slot.val k rd rv ta
  have hrest := congrArg (fun c : Core => ({ c with memSeq := (s.core (corep a)).memSeq } : Core)) (core_issued s a)
  have hslots : ∀ j, j ≠ a.slot.val → ((s.issued a).request (corep a) a.slot.val k rd rv ta).slot (corep a) j
      = (s.issued a).slot (corep a) j := fun j hj => by
    rw [State.slot, hcore]
    exact Core.slot_modSlot_other _ _ hj
  refine issueFrame_of (issued_now_eq s a) (fun q hq => ?_) ?_ ?_ ?_ hslots rfl
  · rw [State.request, State.modSlot, State.core_modCore_other _ _ hq, State.core_modCore_other _ _ hq]
  all_goals
    rw [hcore]
    generalize (s.issued a).core (corep a) = c at hrest ⊢
  · rfl
  · rfl
  · exact hrest

/-- An access whose address passes its checks: the state behind its request. -/
theorem request_issued (s : State) (a : At) (k : MemKind) (rd rv : Reg) (ta : Word) :
    at_ ((s.issued a).request (corep a) a.slot.val k rd rv ta) a
        = { stepped s a 4 (own s a) with mem := some (requested (s.issued a) (corep a) a.slot.val k rd rv ta) }
      ∧ (((s.issued a).request (corep a) a.slot.val k rd rv ta).core (corep a)).memSeq = (s.core (corep a)).memSeq + 1 := by
  constructor
  · rw [at_, slot_request, show (s.issued a).slot a.core.val a.slot.val = own s a from slot_issued_eq s a]
    rfl
  · rw [core_request]
    exact congrArg (· + 1) (core_issued_field s a Core.memSeq fun _ _ _ _ => rfl)

/-! Engine issue (R43, R44, R74). -/

theorem engineForm_eq {s : State} {i : Instr} {a : At} {rd : Reg} {ta : Word} {k : MemKind} {full : Bool}
    (h : engineForm s i = some (a, rd, ta, k, full)) :
    ∃ op ra imm, exec i s = engineIssue a op k rd ra imm s ∧ ta = (own s a).reg ra + sext16 imm
      ∧ full = (s.core (corep a)).queueFull k := by
  unfold engineForm at h
  split at h
  case h_4 => exact absurd h (by simp)
  all_goals
    simp only [Option.some.injEq, Prod.mk.injEq] at h
    obtain ⟨rfl, rfl, rfl, rfl, rfl⟩ := h
    exact ⟨_, _, _, rfl, ofInt_add_signExtend _ _, rfl⟩

theorem engineWaits_eq (s : State) (a : At) (k : MemKind) (ra : Reg) (imm : BitVec 16) :
    (s.core (corep a)).engineWaits (at_ s a) k ra imm
      = (((own s a).addrFault ((own s a).reg ra + sext16 imm) 64).isNone && (s.core (corep a)).queueFull k) := by
  rw [Core.engineWaits, addrFault_congr (own_seg s a).symm, show (own s a).reg ra = (at_ s a).flush.reg ra from Slot.ripen_reg _ _ _]
  rfl

theorem freeToken_eq_none (x : Slot) : x.freeToken = none ↔ ∀ u, u < 16 → x.token u ≠ .free := by
  simp only [Slot.freeToken, List.find?_eq_none, List.mem_range, beq_iff_eq]

/-- An engine issue that has its place, or whose address faults, goes through its checks (R74). -/
theorem engineIssue_fires {s : State} {a : At} (op : Nat) (k : MemKind) (rd ra : Reg) (imm : BitVec 16) (h : Fires s a 4)
    (hgoes : ((own s a).addrFault ((own s a).reg ra + sext16 imm) 64).isNone = true → (s.core (corep a)).queueFull k = false) :
    (∀ code, (own s a).addrFault ((own s a).reg ra + sext16 imm) 64 = some code →
        engineIssue a op k rd ra imm s
          = .next ((s.issued a).takeFault (corep a) a.slot.val code (own s a).pc ((own s a).reg ra + sext16 imm)))
      ∧ ((own s a).addrFault ((own s a).reg ra + sext16 imm) 64 = none → (own s a).freeToken = none →
        engineIssue a op k rd ra imm s
          = .next ((s.issued a).takeFault (corep a) a.slot.val fTokenExhausted (own s a).pc ((own s a).reg ra + sext16 imm)))
      ∧ ∀ u, (own s a).addrFault ((own s a).reg ra + sext16 imm) 64 = none → (own s a).freeToken = some u →
        engineIssue a op k rd ra imm s
          = .next ((s.issued a).request (corep a) a.slot.val k rd 0 ((own s a).reg ra + sext16 imm)) := by
  have hwaits : (s.core (corep a)).engineWaits (at_ s a) k ra imm = false := by
    rw [engineWaits_eq, Bool.and_eq_false_imp]
    exact hgoes
  dsimp only [Machine.engineIssue]
  rw [show (s.core a.core.val).engineWaits (s.slot a.core.val a.slot.val) k ra imm = false from hwaits, Bool.and_false,
    if_neg (by decide), tpIssue_fires _ _ _ h, if_pos rfl]
  simp only [State.faultAt, show (s.issued a).slot a.core.val a.slot.val = own s a from slot_issued_eq s a]
  refine ⟨fun code haddr => ?_, fun haddr htoken => ?_, fun u haddr htoken => ?_⟩
  · simp only [haddr]
  · simp only [haddr, htoken]
  · simp only [haddr, htoken]

/-- The outcome of an engine issue whose queue is full. -/
theorem engineIssue_full {s : State} {a : At} (op : Nat) (k : MemKind) (rd ra : Reg) (imm : BitVec 16) (h : Fires s a 4)
    (haddr : (own s a).addrFault ((own s a).reg ra + sext16 imm) 64 = none) (hfull : (s.core (corep a)).queueFull k = true) :
    engineIssue a op k rd ra imm s = .next s := by
  have hwaits : (s.core (corep a)).engineWaits (at_ s a) k ra imm = true := by
    rw [engineWaits_eq, haddr, hfull]
    rfl
  dsimp only [Machine.engineIssue]
  rw [show (s.core a.core.val).engineWaits (s.slot a.core.val a.slot.val) k ra imm = true from hwaits,
    show (s.slot a.core.val a.slot.val).fetchInside 4 = true from h.fetchInside, if_pos (by decide)]

/-- Settles O9: the check of the descriptor's address, the place in the queue and the FREE token, in that order. -/
theorem engineIssue : Obligations.EngineIssue := by
  intro s i a rd ta k full hform hfires
  obtain ⟨op, ra, imm, hexec, rfl, rfl⟩ := engineForm_eq hform
  rw [hexec]
  refine ⟨fun hbound halign => ?_, fun hbound => ?_, fun hbound halign => ?_⟩
  · have haddr := (addrFault_eq_none (own s a) _ 64).2 ⟨hbound, halign⟩
    refine ⟨engineIssue_full op k rd ra imm hfires haddr, fun hplace hnone => ?_, fun hplace hsome => ?_⟩
    · rw [(engineIssue_fires op k rd ra imm hfires fun _ => hplace).2.1 haddr ((freeToken_eq_none _).2 hnone)]
      exact ⟨_, rfl, faulted_issued s a _ _ _⟩
    · obtain ⟨u, hu⟩ : ∃ u, (own s a).freeToken = some u := by
        rw [← Option.ne_none_iff_exists', Ne, freeToken_eq_none]
        obtain ⟨u, hlt, hfree⟩ := hsome
        exact fun h => h u hlt hfree
      rw [(engineIssue_fires op k rd ra imm hfires fun _ => hplace).2.2 u haddr hu]
      obtain ⟨hslot, hseq⟩ := request_issued s a k rd 0 ((own s a).reg ra + sext16 imm)
      refine ⟨_, _, rfl, hslot, rfl, rfl, ?_, rfl, core_issued_field s a Core.memSeq fun _ _ _ _ => rfl, rfl, hseq, issueFrame_request s a k rd 0 _⟩
      rw [requested, show (s.issued a).slot (corep a) a.slot.val = own s a from slot_issued_eq s a]
  · have haddr := addrFault_beyond hbound
    rw [(engineIssue_fires op k rd ra imm hfires fun h => absurd h (by rw [haddr]; decide)).1 _ haddr]
    exact ⟨_, rfl, faulted_issued s a _ _ _⟩
  · have haddr := addrFault_misaligned hbound halign
    rw [(engineIssue_fires op k rd ra imm hfires fun h => absurd h (by rw [haddr]; decide)).1 _ haddr]
    exact ⟨_, rfl, faulted_issued s a _ _ _⟩

end Sys2Proof.Claims

/-!
SUPPORT. What the register store holds behind a reset: the reset value of the row, which is the same for every holder of a kind.
-/
namespace Sys2Proof.Machine

theorem regReset_congr {u v off : Nat} (h : regRow? u off = regRow? v off) : regReset u off = regReset v off := by
  simp only [regReset, h]

/-- The dies share their rows. -/
theorem regRow?_unitDie {v : Nat} (off : Nat) (h : v < 204) : regRow? (unitDie v) off = regRow? (unitDie 0) off := by
  have hcore : ¬ unitDie v < 0x4000 := by unfold unitDie; omega
  have hdie : unitDie v < 0x5000 := by unfold unitDie; omega
  simp [regRow?, unitSpaces, hcore, hdie, show ¬ unitDie 0 < 0x4000 by decide, show unitDie 0 < 0x5000 by decide]

/-- The link dies share their rows. -/
theorem regRow?_unitEdge {e : Nat} (off : Nat) (h : e < 8) : regRow? (unitEdge e) off = regRow? (unitEdge 0) off := by
  have hcore : ¬ unitEdge e < 0x4000 := by unfold unitEdge; omega
  have hdie : ¬ unitEdge e < 0x5000 := by unfold unitEdge; omega
  have hlink : unitEdge e < 0x5008 := by unfold unitEdge; omega
  simp [regRow?, unitSpaces, hcore, hdie, hlink, show ¬ unitEdge 0 < 0x4000 by decide, show ¬ unitEdge 0 < 0x5000 by decide,
    show unitEdge 0 < 0x5008 by decide]

end Sys2Proof.Machine

namespace Sys2Proof.Claims

open Sys2Proof.Machine

/-- The holders of a kind hold the same at reset as the first of them. -/
theorem holdsAtReset_congr {u v : Nat} {l : List (Nat × Nat)} (h : ∀ off, regRow? u off = regRow? v off) (hv : HoldsAtReset v l) :
    HoldsAtReset u l := fun e he => (regReset_congr (h e.1)).trans (hv e he)

theorem fileAtReset_congr {u v off step n x : Nat} (h : ∀ off, regRow? u off = regRow? v off) (hv : FileAtReset v off step n x) :
    FileAtReset u off step n x := fun i hi => (regReset_congr (h _)).trans (hv i hi)

/-- Settles O60: the reset state holds no register of its own, so each one reads the reset value of its row. -/
theorem resetState : Obligations.ResetState := by
  refine ⟨rfl, rfl, rfl, rfl, fun _ _ => rfl, fun p hp => ?_, fun v hv => ⟨?_, ?_, ?_⟩, fun e he => ?_, ?_, ?_, ?_, ?_, ?_⟩
  · exact holdsAtReset_congr (v := 0) (fun off => regRow?_of_lt off (Nat.lt_trans hp (by decide))) (by unfold HoldsAtReset; decide +kernel)
  · exact holdsAtReset_congr (fun off => regRow?_unitDie off hv) (by unfold HoldsAtReset; decide +kernel)
  · exact fileAtReset_congr (fun off => regRow?_unitDie off hv) (by unfold FileAtReset; decide +kernel)
  · exact fileAtReset_congr (fun off => regRow?_unitDie off hv) (by unfold FileAtReset; decide +kernel)
  · exact holdsAtReset_congr (fun off => regRow?_unitEdge off he) (by unfold HoldsAtReset; decide +kernel)
  · unfold HoldsAtReset; decide +kernel
  · unfold FileAtReset; decide +kernel
  · unfold FileAtReset; decide +kernel
  · unfold HoldsAtReset; decide +kernel
  · unfold FileAtReset; decide +kernel

end Sys2Proof.Claims

/-!
SUPPORT. What a fabric cycle does where at most one core issues, and what the words of the task processor spell (R60–R64, R72).
-/
namespace Sys2Proof.Machine

theorem State.retryEdge_of_none {s : State} (h : s.vorrad.held = []) : s.retryEdge = s := by
  have hkeep : ({ s with vorrad := { s.vorrad with held := [] } } : State) = s := by rw [← h]
  rw [State.retryEdge, h]
  exact hkeep

theorem State.issueCores_of_none {s : State} (h : ∀ p, s.issuer p = none) (ps : List Nat) : s.issueCores ps = .next s := by
  induction ps with
  | nil => rfl
  | cons p ps ih => simp only [State.issueCores, State.issueCore, h p, ih]

theorem step_of_pending_nil {s : State} (h : s.pending = []) : step s = s.cycle := by
  rw [step, h]

/-- A fabric cycle behind the issue of the cores. -/
theorem State.cycle_of_issueCores {s t : State} (h : s.issueCores (s.cores.map (·.1)) = .next t) (hheld : t.vorrad.held = []) :
    s.cycle = .next { t with now := t.now + 1 } := by
  rw [State.cycle, h]
  simp only [State.retryEdge_of_none hheld]

theorem State.issueCores_singleton {s t : State} {p : CoreIx} {i : Fin 8} (hi : s.issuer p.val = some i)
    (h : s.issueWord ⟨p, i⟩ = .next t) : s.issueCores [p.val] = .next t := by
  simp only [State.issueCores, State.issueCore, hi, dif_pos p.isLt, Fin.eta, h]

end Sys2Proof.Machine

namespace Sys2Proof.Claims

open Sys2Proof.Machine

/-! What a word spells. -/

theorem decodeWord_wordR (a : At) {op : Nat} (fn : Nat) (x y z : Reg) (w1 : Nat) (ho : op < 64) :
    decodeWord a (wordR op fn x y z) w1 = decodeFields a op fn x y z (BitVec.ofNat 16 (z.val + 32 * fn)) (BitVec.ofNat 11 fn)
      (BitVec.ofNat 21 (y.val + 32 * z.val + 1024 * fn)) (BitVec.ofNat 48 ((z.val + 32 * fn) * 4294967296 + w1)) :=
  decodeWord_fields a op fn x y z w1 ho

/-- The low five bits of a field, as a register, and the rest of it. -/
theorem exists_reg (n : Nat) : ∃ (z : Reg) (q : Nat), n = z.val + 32 * q :=
  ⟨⟨n % 32, Nat.mod_lt _ (by decide)⟩, n / 32, (Nat.mod_add_div n 32).symm⟩

/-- A word of format I, S or B decodes from its OP, registers and immediate, where these decide what it spells. -/
theorem decodeWord_wordI (a : At) {op : Nat} (x y : Reg) (m : BitVec 16) (w1 : Nat) {i : Instr} (ho : op < 64)
    (h : ∀ fn z imm11 off immx, decodeFields a op fn x y z m imm11 off immx = some i) :
    decodeWord a (wordI op x y m) w1 = some i := by
  obtain ⟨z, q, hm⟩ := exists_reg m.toNat
  have hw : wordI op x y m = op + 64 * x.val + 2048 * y.val + 65536 * z.val + 2097152 * q := by
    rw [wordI, hm]
    omega
  rw [hw, decodeWord_fields a op q x y z w1 ho, ← hm, BitVec.ofNat_toNat, BitVec.setWidth_eq]
  exact h _ _ _ _ _

theorem wordsR_lt (a : At) (x y z : Reg) : ∀ e ∈ wordsR a x y z, e.1 < 64 := by
  simp only [wordsR, List.forall_mem_cons, List.not_mem_nil, false_implies, implies_true, and_true]
  and_intros
  all_goals decide

theorem decodeFields_wordsR (a : At) (x y z : Reg) (imm : BitVec 16) (imm11 : BitVec 11) (off : BitVec 21) (immx : BitVec 48) :
    ∀ e ∈ wordsR a x y z, decodeFields a e.1 e.2.1 x y z imm imm11 off immx = some e.2.2 := by
  simp only [wordsR, List.forall_mem_cons, List.not_mem_nil, false_implies, implies_true, and_true]
  and_intros
  all_goals rfl

theorem wordsI_lt (a : At) (x y : Reg) (m : BitVec 16) : ∀ e ∈ wordsI a x y m, e.1 < 64 := by
  simp only [wordsI, List.forall_mem_cons, List.not_mem_nil, false_implies, implies_true, and_true]
  and_intros
  all_goals decide

theorem decodeFields_wordsI (a : At) (x y : Reg) (m : BitVec 16) :
    ∀ e ∈ wordsI a x y m, ∀ fn z imm11 off immx, decodeFields a e.1 fn x y z m imm11 off immx = some e.2 := by
  simp only [wordsI, List.forall_mem_cons, List.not_mem_nil, false_implies, implies_true, and_true]
  and_intros
  all_goals exact fun _ _ _ _ _ => rfl

theorem decodeFields_wordsF (a : At) (x y z : Reg) (f : BitVec 11) (imm : BitVec 16) (off : BitVec 21) (immx : BitVec 48) :
    ∀ e ∈ wordsF a x y z f, e.1 < 64 ∧ decodeFields a e.1 f.toNat x y z imm f off immx = some e.2 := by
  simp only [wordsF, List.forall_mem_cons, List.not_mem_nil, false_implies, implies_true, and_true]
  exact ⟨⟨by decide, rfl⟩, ⟨by decide, rfl⟩, by decide, rfl⟩

theorem decodeFields_reserved (a : At) (fn : Nat) (x y z : Reg) (imm : BitVec 16) (imm11 : BitVec 11)
    (off : BitVec 21) (immx : BitVec 48) : ∀ op ∈ reservedOps, decodeFields a op fn x y z imm imm11 off immx = none := by
  simp only [reservedOps, List.forall_mem_cons, List.not_mem_nil, false_implies, implies_true, and_true]
  and_intros
  all_goals rfl

/-- A reserved FN of the integer or the atomic class spells nothing. -/
theorem decodeFields_unlisted (a : At) {op fn : Nat} (x y z : Reg) (imm : BitVec 16) (imm11 : BitVec 11) (off : BitVec 21) (immx : BitVec 48)
    (hop : op = 1 ∨ op = 0x24) (h : ∀ e ∈ wordsR a x y z, ¬ (e.1 = op ∧ e.2.1 = fn)) :
    decodeFields a op fn x y z imm imm11 off immx = none := by
  rcases hop with rfl | rfl
  · simp only [wordsR, List.forall_mem_cons, List.not_mem_nil, false_implies, implies_true, and_true, true_and] at h
    simp only [decodeFields]
    split
    case h_33 => rfl
    all_goals exact absurd h (by decide)
  · simp only [wordsR, List.forall_mem_cons, List.not_mem_nil, false_implies, implies_true, and_true, true_and, OfNat.one_ne_ofNat,
      false_and, not_false_eq_true] at h
    simp only [decodeFields]
    split
    case h_6 => rfl
    all_goals exact absurd h (by decide)

theorem wordsSpell : WordsSpell := by
  intro a x y z m f o l w w1
  refine ⟨fun e he => ?_, fun e he => ?_, fun e he => ?_, ?_, ?_, fun h => ?_, fun op fn hop h => ?_⟩
  · rw [decodeWord_wordR a _ x y z w1 (wordsR_lt a x y z e he)]
    exact decodeFields_wordsR a x y z _ _ _ _ e he
  · exact decodeWord_wordI a x y m w1 (wordsI_lt a x y m e he) (decodeFields_wordsI a x y m e he)
  · obtain ⟨hlt, hdecode⟩ := decodeFields_wordsF a x y z f (BitVec.ofNat 16 (z.val + 32 * f.toNat))
      (BitVec.ofNat 21 (y.val + 32 * z.val + 1024 * f.toNat)) (BitVec.ofNat 48 ((z.val + 32 * f.toNat) * 4294967296 + w1)) e he
    rw [decodeWord_wordR a _ x y z w1 hlt, BitVec.ofNat_toNat, BitVec.setWidth_eq]
    exact hdecode
  · obtain ⟨y', q, ho⟩ := exists_reg o.toNat
    obtain ⟨z', q', hq⟩ := exists_reg q
    have hw : 0x16 + 64 * x.val + 2048 * o.toNat = 0x16 + 64 * x.val + 2048 * y'.val + 65536 * z'.val + 2097152 * q' := by
      rw [ho, hq]
      omega
    have hoff : y'.val + 32 * z'.val + 1024 * q' = o.toNat := by
      rw [ho, hq]
      omega
    rw [hw, decodeWord_fields a _ q' x y' z' w1 (by decide), hoff, BitVec.ofNat_toNat, BitVec.setWidth_eq]
    rfl
  · obtain ⟨z', q, hl⟩ := exists_reg (l.toNat / 2 ^ 32)
    have hw : 0x3E + 64 * x.val + 2048 * y.val + 65536 * (l.toNat / 2 ^ 32)
        = 0x3E + 64 * x.val + 2048 * y.val + 65536 * z'.val + 2097152 * q := by
      rw [hl]
      omega
    have himm : (z'.val + 32 * q) * 4294967296 + l.toNat % 2 ^ 32 = l.toNat := by
      rw [← hl]
      omega
    rw [hw, decodeWord_fields a _ q x y z' _ (by decide), himm, BitVec.ofNat_toNat, BitVec.setWidth_eq]
    rfl
  · exact decodeFields_reserved a _ _ _ _ _ _ _ _ _ h
  · have hlt : op < 64 := by omega
    rw [decodeWord_wordR a _ x y z w1 hlt]
    exact decodeFields_unlisted a x y z _ _ _ _ hop h

@[simp] theorem takeFault_vorrad (s : State) (p i code : Nat) (pc addr : Word) : (s.takeFault p i code pc addr).vorrad = s.vorrad := by
  rw [State.takeFault_eq]
  simp only [State.raiseCore, State.notice, State.modCore_vorrad]
  rfl

/-- A word that spells nothing faults where it would issue (R61). -/
theorem issueWord_illegal {s : State} {a : At} (hfires : Fires s a 4)
    (hword : decodeWord a ((s.core (corep a)).wordOf (at_ s a)) ((s.core (corep a)).secondWord (at_ s a)) = none) :
    s.issueWord a = .next ((s.issued a).takeFault (corep a) a.slot.val fIllegal (own s a).pc
      (BitVec.ofNat 64 ((s.core (corep a)).wordOf (at_ s a)))) := by
  have hissue := tpIssue_fires ((s.core (corep a)).wordOf (at_ s a)) false id hfires
  rw [if_neg (by decide), ← own_pc] at hissue
  unfold State.issueWord
  simp only [show decodeWord a ((s.core a.core.val).wordOf ((s.core a.core.val).slot a.slot.val))
    ((s.core a.core.val).secondWord ((s.core a.core.val).slot a.slot.val)) = none from hword]
  exact hissue

theorem issueWord_spelt {s : State} {a : At} {c : Instr}
    (hword : decodeWord a ((s.core (corep a)).wordOf (at_ s a)) ((s.core (corep a)).secondWord (at_ s a)) = some c) :
    s.issueWord a = exec c s := by
  unfold State.issueWord
  simp only [show decodeWord a ((s.core a.core.val).wordOf ((s.core a.core.val).slot a.slot.val))
    ((s.core a.core.val).secondWord ((s.core a.core.val).slot a.slot.val)) = some c from hword]

/-- The cycle in which the one core that the panel keeps issues. -/
theorem step_oneCore {s t : State} {p : CoreIx} {i : Fin 8} (hpend : s.pending = []) (hcores : s.cores.map (·.1) = [p.val])
    (hissuer : s.issuer p.val = some i) (hissue : s.issueWord ⟨p, i⟩ = .next t) (hheld : t.vorrad.held = []) :
    step s = .next { t with now := t.now + 1 } := by
  rw [step_of_pending_nil hpend, State.cycle_of_issueCores (hcores ▸ State.issueCores_singleton hissuer hissue) hheld]

/-- Settles O55: the front command runs; on an empty queue each core issues its word, and the time goes on. -/
theorem stepRunsTheFrontCommand : Obligations.StepRunsTheFrontCommand := by
  refine ⟨fun c cs s h => by rw [step, h], fun s hpend hheld hnone => ?_, fun s t p i hpend hcores hissuer => ⟨fun c hword hexec hheld => ?_,
    fun hword hheld hfires => ?_⟩, fun s n w => ⟨rfl, rfl⟩, wordsSpell⟩
  · rw [step_of_pending_nil hpend, State.cycle_of_issueCores (State.issueCores_of_none hnone _) hheld]
  · exact step_oneCore hpend hcores hissuer ((issueWord_spelt (a := ⟨p, i⟩) hword).trans hexec) hheld
  · have hissue := issueWord_illegal hfires hword
    exact ⟨_, step_oneCore hpend hcores hissuer hissue ((congrArg Vorrad.held (takeFault_vorrad _ _ _ _ _ _)).trans hheld),
      faulted_issued s ⟨p, i⟩ _ _ _⟩

end Sys2Proof.Claims

/-!
SUPPORT. What the examination of a core's waits leaves alone (R75, R82), and what a plain access does to the scratchpad (R93, R109).
-/
namespace Sys2Proof.Machine

/-! The examination of the waits of a core. -/

theorem settleSlot_of_not_waiting (now : Nat) (sp : Spad) (edges : SMap Nat) {sl : Slot} (h : sl.mode ≠ .waiting) :
    settleSlot now sp edges sl = sl.ripen now := by
  rw [settleSlot, if_pos (by simpa using h)]

/-- The first half of the examination: every slot's own wait. -/
def Core.settleSlots (now : Nat) (edges : SMap Nat) (c : Core) (is : List Nat) : Core :=
  is.foldl (fun c i => c.modSlot i (settleSlot now c.spad edges)) c

/-- The second half: the messages that wait for a slot. -/
def Core.deliverAll (now : Nat) (c : Core) (xs : List Nat) : Core := xs.foldl (Core.deliver now) c

theorem Core.settle_eq (now : Nat) (edges : SMap Nat) (c : Core) :
    c.settle now edges = (c.settleSlots now edges (List.range 8)).deliverAll now (List.range 32) := rfl

theorem Core.settleSlots_rest (now : Nat) (edges : SMap Nat) (is : List Nat) (c : Core) :
    ({ c.settleSlots now edges is with slots := c.slots } : Core) = c := by
  induction is generalizing c with
  | nil => rfl
  | cons i is ih =>
    have h := congrArg (fun d : Core => ({ d with slots := c.slots } : Core)) (ih (c.modSlot i (settleSlot now c.spad edges)))
    exact h

/-- A slot that does not wait goes through the examination with its tokens alone changed. -/
theorem Core.slot_settleSlots (now : Nat) (edges : SMap Nat) (is : List Nat) (c : Core) (j : Nat) (h : (c.slot j).mode ≠ .waiting) :
    (c.slot j).sameButTokens ((c.settleSlots now edges is).slot j) := by
  induction is generalizing c with
  | nil => exact Slot.sameButTokens_refl _
  | cons i is ih =>
    rcases eq_or_ne j i with rfl | hne
    · have hslot : (c.modSlot j (settleSlot now c.spad edges)).slot j = (c.slot j).ripen now := by
        rw [Core.slot_modSlot_same, settleSlot_of_not_waiting _ _ _ h]
      have hih := ih (c.modSlot j (settleSlot now c.spad edges)) (by rw [hslot, Slot.ripen_mode]; exact h)
      rw [hslot] at hih
      exact Slot.sameButTokens_trans ((c.slot j).ripen_sameButTokens now) hih
    · have hslot := Core.slot_modSlot_other c (settleSlot now c.spad edges) hne
      have hih := ih (c.modSlot i (settleSlot now c.spad edges)) (by rw [hslot]; exact h)
      rw [hslot] at hih
      exact hih

/-- Only a waiting slot receives a message (R82). -/
theorem Core.mode_of_receiver {c : Core} {k chan i : Nat} (h : c.receiver k chan = some i) : (c.slot i).mode = .waiting := by
  have hmem : ∀ (l : List (Nat × Nat)) (b : Option (Nat × Nat)) (x : Nat × Nat),
      l.foldl (fun best x => match best with
        | none => some x
        | some b => if x.1 < b.1 then some x else some b) b = some x → b = some x ∨ x ∈ l := by
    intro l
    induction l with
    | nil => exact fun b x h => .inl h
    | cons y l ih =>
      intro b x h
      rcases ih _ _ h with h | h
      · cases b with
        | none => exact .inr (List.mem_cons.2 (.inl (Option.some.inj h).symm))
        | some z =>
          simp only at h
          split at h
          · exact .inr (List.mem_cons.2 (.inl (Option.some.inj h).symm))
          · exact .inl h
      · exact .inr (List.mem_cons_of_mem _ h)
  obtain ⟨x, hx, rfl⟩ := Option.map_eq_some_iff.1 h
  rcases hmem _ _ _ hx with hx | hx
  · cases hx
  · obtain ⟨j, -, hj⟩ := List.mem_filterMap.1 hx
    revert hj
    simp only
    split
    · rename_i hmode hwait
      split
      · rintro ⟨⟩
        exact hmode
      · simp
    · simp

/-- The delivery of a message does nothing, or changes one waiting slot and the queue the message waited in. -/
theorem Core.deliver_spec (now : Nat) (c : Core) (x : Nat) :
    c.deliver now x = c ∨ ∃ i sl rest, (c.slot i).mode = .waiting
      ∧ c.deliver now x = { c.setSlot i sl with node := { c.node with recvQ := rest } } := by
  unfold Core.deliver
  dsimp only
  split
  · exact .inl rfl
  · rename_i i hi
    split
    · exact .inl rfl
    · exact .inr ⟨i, _, _, Core.mode_of_receiver hi, rfl⟩

theorem Core.deliver_rest (now : Nat) (c : Core) (x : Nat) :
    ({ c.deliver now x with slots := c.slots, node := c.node } : Core) = c := by
  rcases c.deliver_spec now x with h | ⟨i, sl, rest, -, h⟩
  · rw [h]
  · rw [h]
    rfl

theorem Core.slot_deliver (now : Nat) (c : Core) (x : Nat) {j : Nat} (h : (c.slot j).mode ≠ .waiting) :
    (c.deliver now x).slot j = c.slot j := by
  rcases c.deliver_spec now x with hx | ⟨i, sl, rest, hi, hx⟩
  · rw [hx]
  · have hne : j ≠ i := fun e => h (e ▸ hi)
    rw [hx, Core.slot_node, Core.slot_setSlot_other _ _ hne]

theorem Core.deliverAll_rest (now : Nat) (xs : List Nat) (c : Core) :
    ({ c.deliverAll now xs with slots := c.slots, node := c.node } : Core) = c := by
  induction xs generalizing c with
  | nil => rfl
  | cons x xs ih =>
    have h := congrArg (fun d : Core => ({ d with slots := c.slots, node := c.node } : Core)) (ih (c.deliver now x))
    exact h.trans (c.deliver_rest now x)

theorem Core.slot_deliverAll (now : Nat) (xs : List Nat) (c : Core) {j : Nat} (h : (c.slot j).mode ≠ .waiting) :
    (c.deliverAll now xs).slot j = c.slot j := by
  induction xs generalizing c with
  | nil => rfl
  | cons x xs ih =>
    have hx := c.slot_deliver now x h
    exact (ih (c.deliver now x) (by rw [hx]; exact h)).trans hx

/-- What the examination of the waits changes of a core: its slots and the node's queue of messages. -/
theorem Core.settle_rest (now : Nat) (edges : SMap Nat) (c : Core) :
    ({ c.settle now edges with slots := c.slots, node := c.node } : Core) = c := by
  have hslots := Core.settleSlots_rest now edges (List.range 8) c
  rw [Core.settle_eq]
  generalize c.settleSlots now edges (List.range 8) = d at hslots ⊢
  have hmessages := Core.deliverAll_rest now (List.range 32) d
  generalize d.deliverAll now (List.range 32) = e at hmessages ⊢
  rw [← hslots, ← hmessages]

/-- A field of a core other than its slots and its node stays through the examination of the waits. -/
theorem Core.settle_field {β : Type} (now : Nat) (edges : SMap Nat) (c : Core) (f : Core → β)
    (hf : ∀ (c : Core) (m : SMap Slot) (n : Node), f { c with slots := m, node := n } = f c) : f (c.settle now edges) = f c :=
  (hf _ _ _).symm.trans (congrArg f (c.settle_rest now edges))

theorem Core.slot_settle (now : Nat) (edges : SMap Nat) (c : Core) {j : Nat} (h : (c.slot j).mode ≠ .waiting) :
    (c.slot j).sameButTokens ((c.settle now edges).slot j) := by
  have hslots := Core.slot_settleSlots now edges (List.range 8) c j h
  have hmode := Slot.sameButTokens_field hslots Slot.mode fun _ _ _ => rfl
  rw [Core.settle_eq, Core.slot_deliverAll now _ _ (by rw [hmode]; exact h)]
  exact hslots

/-! A plain access. -/

/-- The sticky flags of windows are all that a plain access sets (R109). -/
theorem Spad.touchPlain_rest (now : Nat) (sp : Spad) (isWrite : Bool) (o n : Nat) :
    ({ sp.touchPlain now isWrite o n with wins := sp.wins } : Spad) = sp := by
  unfold Spad.touchPlain
  generalize List.range 32 = ws
  induction ws generalizing sp with
  | nil => rfl
  | cons w ws ih =>
    rw [List.foldl_cons]
    have h := congrArg (fun x : Spad => ({ x with wins := sp.wins } : Spad)) (ih (if (sp.win w).isOpen && (sp.win w).channel && (sp.win w).check
      then if ((sp.win w).slotsAt o n).any (fun i => (sp.win w).isFull i == isWrite) then sp.setWin w ((sp.win w).mark now (b2n isWrite)) else sp
      else sp))
    refine h.trans ?_
    split
    · split
      · rfl
      · rfl
    · rfl

/-- A field of the scratchpad other than its windows stays through a plain access. -/
theorem Spad.touchPlain_field {β : Type} (now : Nat) (sp : Spad) (isWrite : Bool) (o n : Nat) (f : Spad → β)
    (hf : ∀ (x : Spad) (m : SMap Window), f { x with wins := m } = f x) : f (sp.touchPlain now isWrite o n) = f sp :=
  (hf _ _).symm.trans (congrArg f (sp.touchPlain_rest now isWrite o n))

theorem Spad.touchPlain_bytes (now : Nat) (sp : Spad) (isWrite : Bool) (o n : Nat) : (sp.touchPlain now isWrite o n).bytes = sp.bytes :=
  Spad.touchPlain_field now sp isWrite o n Spad.bytes fun _ _ => rfl
theorem Spad.touchPlain_ue (now : Nat) (sp : Spad) (isWrite : Bool) (o n : Nat) : (sp.touchPlain now isWrite o n).ue = sp.ue :=
  Spad.touchPlain_field now sp isWrite o n Spad.ue fun _ _ => rfl

/-- The words that an access of `n` bytes at `o` touches. -/
theorem mem_wordsOf {o n w : Nat} (h : w ∈ wordsOf o n) : o / 8 * 8 ≤ w ∧ w < o + n ∧ w % 8 = 0 := by
  obtain ⟨k, hk, rfl⟩ := List.mem_map.1 h
  rw [List.mem_range] at hk
  omega

end Sys2Proof.Machine

/-!
SUPPORT. A load's way through its bank: the one request that waits there, its grant and the return of its data (R70, R71, R88, R89).
-/
namespace Sys2Proof.Machine

/-- One step of the search for the oldest request at a bank (R89). -/
def Core.olderRequest (c : Core) (t b : Nat) (best : Option (Nat × MemOp)) (i : Nat) : Option (Nat × MemOp) :=
  match c.memAt t b i, best with
  | none, best => best
  | some m, none => some (i, m)
  | some m, some (j, m') => if m.seq < m'.seq then some (i, m) else some (j, m')

theorem Core.tpRequest_eq (c : Core) (t b : Nat) : c.tpRequest t b = (List.range 8).foldl (c.olderRequest t b) none := rfl

theorem Core.olderRequest_of_none {c : Core} {t b i : Nat} (best : Option (Nat × MemOp)) (h : c.memAt t b i = none) :
    c.olderRequest t b best i = best := by
  unfold Core.olderRequest
  rw [h]

theorem Core.olderRequest_none {c : Core} {t b i : Nat} {m : MemOp} (h : c.memAt t b i = some m) :
    c.olderRequest t b none i = some (i, m) := by
  unfold Core.olderRequest
  rw [h]

theorem Core.foldl_olderRequest_of_none {c : Core} {t b : Nat} {l : List Nat} (best : Option (Nat × MemOp))
    (h : ∀ j ∈ l, c.memAt t b j = none) : l.foldl (c.olderRequest t b) best = best := by
  induction l generalizing best with
  | nil => rfl
  | cons j l ih =>
    rw [List.foldl_cons, Core.olderRequest_of_none best (h j List.mem_cons_self)]
    exact ih best fun k hk => h k (List.mem_cons_of_mem _ hk)

/-- A bank's only request is the oldest. -/
theorem Core.tpRequest_of_alone {c : Core} {t b i : Nat} {m : MemOp} (hi : i < 8) (hm : c.memAt t b i = some m)
    (hothers : ∀ j, j < 8 → j ≠ i → c.memAt t b j = none) : c.tpRequest t b = some (i, m) := by
  obtain ⟨before, after, hsplit⟩ := List.append_of_mem (List.mem_range.2 hi)
  have hnodup : (before ++ i :: after).Nodup := hsplit ▸ List.nodup_range
  have hne : ∀ j ∈ before ++ after, j < 8 ∧ j ≠ i := by
    intro j hj
    have hj' : j ∈ List.range 8 := by
      rw [hsplit]
      rcases List.mem_append.1 hj with h | h
      · exact List.mem_append_left _ h
      · exact List.mem_append_right _ (List.mem_cons_of_mem _ h)
    refine ⟨List.mem_range.1 hj', fun e => ?_⟩
    rw [List.nodup_middle, List.nodup_cons] at hnodup
    exact hnodup.1 (e ▸ hj)
  have hnone : ∀ j ∈ before ++ after, c.memAt t b j = none := fun j hj => hothers j (hne j hj).1 (hne j hj).2
  rw [Core.tpRequest_eq, hsplit, List.foldl_append, Core.foldl_olderRequest_of_none none fun j hj => hnone j (List.mem_append_left _ hj),
    List.foldl_cons, Core.olderRequest_none hm, Core.foldl_olderRequest_of_none _ fun j hj => hnone j (List.mem_append_right _ hj)]

theorem Core.memAt_of_none {c : Core} (t b : Nat) {i : Nat} (h : (c.slot i).mem = none) : c.memAt t b i = none := by
  simp only [Core.memAt, h]

theorem Spad.anyUe_touchPlain (now : Nat) (sp : Spad) (isWrite : Bool) (o n o' n' : Nat) :
    (sp.touchPlain now isWrite o n).anyUe o' n' = sp.anyUe o' n' := by
  unfold Spad.anyUe Spad.isUe
  rw [Spad.touchPlain_ue]

theorem Spad.read_touchPlain (now : Nat) (sp : Spad) (isWrite : Bool) (o n o' n' : Nat) :
    (sp.touchPlain now isWrite o n).read o' n' = sp.read o' n' := by
  unfold Spad.read
  rw [Spad.touchPlain_bytes]

theorem Slot.setReg_pc (sl : Slot) (r : Nat) (v : Word) : (sl.setReg r v).pc = sl.pc := by
  unfold Slot.setReg
  split
  · rfl
  · rfl

theorem Slot.setReg_mode (sl : Slot) (r : Nat) (v : Word) : (sl.setReg r v).mode = sl.mode := by
  unfold Slot.setReg
  split
  · rfl
  · rfl

theorem Core.slot_modSpad (c : Core) (f : Spad → Spad) (i : Nat) : (c.modSpad f).slot i = c.slot i := rfl
theorem Core.modSlot_spad (c : Core) (i : Nat) (f : Slot → Slot) : (c.modSlot i f).spad = c.spad := rfl
theorem Core.spad_modSpad (c : Core) (f : Spad → Spad) : (c.modSpad f).spad = f c.spad := rfl

theorem State.spad_touchPlain (s : State) (p : Nat) (isWrite : Bool) (o n : Nat) :
    (s.touchPlain p isWrite o n).spad p = (s.spad p).touchPlain s.now isWrite o n := by
  rw [State.touchPlain, State.modSpad, State.spad, State.core_modCore_same, Core.spad_modSpad, State.spad]

variable (s : State)

@[simp] theorem State.touchPlain_now (p : Nat) (isWrite : Bool) (o n : Nat) : (s.touchPlain p isWrite o n).now = s.now := by
  rw [State.touchPlain, State.modSpad_now]

@[simp] theorem State.touchPlain_gen (p : Nat) (isWrite : Bool) (o n : Nat) : (s.touchPlain p isWrite o n).gen = s.gen := by
  rw [State.touchPlain, State.modSpad_gen]

/-- The bank takes the oldest task processor request where nothing on its other ports has waited for seven cycles (R89). -/
theorem State.grantAt_of_tpRequest {p b i : Nat} {m : MemOp} (err : EccErr) (hp6 : ((s.spad p).bank b).p6wait < 7)
    (h : (s.core p).tpRequest s.now b = some (i, m)) :
    s.grantAt p b err = some (((s.takeBank p b).missP6 p b m.kind.cycles).grantSlot p i m err) := by
  unfold State.grantAt
  simp only [decide_eq_false (Nat.not_le.2 hp6), h]
  generalize ((s.spad p).bank b).nextP6 s.now (s.scrubOn p) = next
  cases next
  · rfl
  · rfl

/-- A read that meets no error changes nothing but what it reads. -/
theorem State.eccRead_of_clean {p o n : Nat} (scrub : Bool) (h : (s.spad p).anyUe o n = false) :
    s.eccRead p o n ⟨0, 0⟩ scrub = s := by
  unfold State.eccRead
  rw [Spad.anyUe, List.any_eq_false] at h
  generalize wordsOf o n = ws at h ⊢
  induction ws with
  | nil => rfl
  | cons w ws ih =>
    rw [List.foldl_cons, if_neg (by simp [bit, h w List.mem_cons_self]), if_neg (by simp [bit])]
    exact ih fun v hv => h v (List.mem_cons_of_mem _ hv)

/-- The slot of a load whose word is on its way back. -/
def Slot.withReply (m : MemOp) (v : Word) (due : Nat) (sl : Slot) : Slot :=
  { sl with mem := some { m with reply := some (some v), dueAt := due }, mode := .ready, wait := .none }

/-- The grant of a load from clean words: the bytes are on their way back, and the waits of the core are examined (R70, R71). -/
theorem State.core_grantLoad {p i : Nat} {m : MemOp} {n : Nat} {sgn : Bool} (hk : m.kind = .load n sgn)
    (hclean : (s.spad p).anyUe m.off n = false) :
    (s.grantTp p i m ⟨0, 0⟩).core p = Core.settle s.now s.gen.lastEdge
      (((s.core p).modSpad (fun sp => sp.touchPlain s.now false m.off n)).modSlot i
        (Slot.withReply m (m.kind.extend (leNat ((s.spad p).read m.off n))) (s.now + 6))) := by
  have htouch : (s.touchPlain p false m.off n).core p = (s.core p).modSpad (fun sp => sp.touchPlain s.now false m.off n) := by
    rw [State.touchPlain, State.modSpad, State.core_modCore_same]
  have hue : ((s.touchPlain p false m.off n).spad p).anyUe m.off n = false := by
    rw [State.spad_touchPlain, Spad.anyUe_touchPlain, hclean]
  have hread : ((s.touchPlain p false m.off n).spad p).read m.off n = (s.spad p).read m.off n := by
    rw [State.spad_touchPlain, Spad.read_touchPlain]
  have hready : (s.spad p).memReady m = true := by
    rw [Spad.memReady, hk]
  have hreads : m.kind.reads = true := by
    rw [hk]
    rfl
  have hgrant : s.grantTp p i m ⟨0, 0⟩ = ((s.touchPlain p false m.off n).modSlot p i
      (Slot.withReply m (m.kind.extend (leNat ((s.spad p).read m.off n))) (s.now + 6))).settle p := by
    rw [State.grantTp, hready, if_neg (by decide), if_pos hreads, State.grantLoad]
    simp only [hk, MemKind.size, State.eccRead_of_clean _ _ hue, hue, hread, MemOp.amo, Bool.false_eq_true, if_false]
    rw [← hk, State.touchPlain_now]
    rfl
  rw [hgrant, State.settle, State.core_modCore_same, State.modSlot, State.core_modCore_same, htouch, State.modCore_now,
    State.modCore_gen, State.touchPlain_now, State.touchPlain_gen]

end Sys2Proof.Machine

/-!
SUPPORT. A load from its issue over its grant to the return of its data (R70, R71, R88).
-/
namespace Sys2Proof.Claims

open Sys2Proof.Machine

/-! A load (R70). -/

theorem loadForm_eq {s : State} {i : Instr} {a : At} {n : Nat} {sgn : Bool} {rd : Reg} {ta : Word}
    (h : loadForm s i = some (a, n, sgn, rd, ta)) :
    ∃ op ra imm, exec i s = load a op n sgn rd ra imm s ∧ ta = (own s a).reg ra + sext16 imm
      ∧ (n = 1 ∨ n = 2 ∨ n = 4 ∨ n = 8 ∧ sgn = false) := by
  unfold loadForm at h
  split at h
  case h_8 => exact absurd h (by simp)
  all_goals
    simp only [Option.some.injEq, Prod.mk.injEq] at h
    obtain ⟨rfl, rfl, rfl, rfl, rfl⟩ := h
    exact ⟨_, _, _, rfl, ofInt_add_signExtend _ _, by decide⟩

theorem load_fires {s : State} {a : At} (op n : Nat) (sgn : Bool) (rd ra : Reg) (imm : BitVec 16) (h : Fires s a 4)
    (haddr : (own s a).addrFault ((own s a).reg ra + sext16 imm) n = none) :
    load a op n sgn rd ra imm s
      = .next ((s.issued a).request (corep a) a.slot.val (.load n sgn) rd 0 ((own s a).reg ra + sext16 imm)) := by
  dsimp only [load, tpAccess]
  rw [tpIssue_fires _ _ _ h, if_pos rfl]
  simp only [show (s.issued a).slot a.core.val a.slot.val = own s a from slot_issued_eq s a, MemKind.size, haddr]

/-- The value of a number of two's complement. -/
theorem sextNat_eq_ofInt (w x : Nat) (hw : w = 8 ∨ w = 16 ∨ w = 32) : sextNat w x = BitVec.ofInt 64 (toSigned w x) := by
  rw [sextNat, BitVec.signExtend, BitVec.toInt_eq_toNat_cond, BitVec.toNat_ofNat, toSigned]
  congr 1
  rcases hw with rfl | rfl | rfl
  all_goals
    split
    · rw [if_pos (by omega)]
    · rw [if_neg (by omega)]
      norm_num

theorem extend_eq_loadValue {n : Nat} {sgn : Bool} (bs : List Byte) (h : n = 1 ∨ n = 2 ∨ n = 4 ∨ n = 8 ∧ sgn = false) :
    (MemKind.load n sgn).extend (leNat bs) = loadValue n sgn bs := by
  cases sgn
  · rfl
  · have hw : 8 * n = 8 ∨ 8 * n = 16 ∨ 8 * n = 32 := by
      rcases h with rfl | rfl | rfl | ⟨-, h⟩
      · decide
      · decide
      · decide
      · cases h
    exact sextNat_eq_ofInt _ _ hw

/-! The bank of a load. -/

theorem anyUe_of_clean {sp : Spad} {o n : Nat} (h : Clean sp o n) : sp.anyUe o n = false := by
  rw [Spad.anyUe, List.any_eq_false]
  intro w hw
  obtain ⟨hlo, hhi, hmod⟩ := mem_wordsOf hw
  rw [h w hlo hhi hmod]
  decide

/-- The access that waits in slot `a` alone at bank `b`, in state `t`. -/
structure LoadWaits (t : State) (a : At) (b : Nat) (m : MemOp) (n : Nat) (sgn : Bool) : Prop where
  kind : m.kind = .load n sgn
  mem : (at_ t a).mem = some m
  reply : m.reply = none
  wait : (at_ t a).wait = .none
  bank : bankOf m.off = b
  alone : ∀ j, j < 8 → j ≠ a.slot.val → (t.slot (corep a) j).mem = none
  serves : BankServes t (corep a) b
  p6wait : ((t.spad (corep a)).bank b).p6wait < 7
  clean : (t.spad (corep a)).anyUe m.off n = false

/-- What the bank takes of its own state at a grant leaves slots, bytes and errors of its core. -/
theorem core_takeBank_missP6 (t : State) (p b k : Nat) :
    ∃ banks, ((t.takeBank p b).missP6 p b k).core p = { t.core p with spad := { t.spad p with banks := banks } } := by
  simp only [State.takeBank, State.missP6, State.modBank, State.modSpad, State.core_modCore_same]
  exact ⟨_, rfl⟩

/-- The grant of a load that waits alone: its bytes are on their way back to its slot (R70, R88, R89). -/
theorem grantAt_load {t : State} {a : At} {b : Nat} {m : MemOp} {n : Nat} {sgn : Bool} (h : LoadWaits t a b m n sgn) :
    ∃ u, t.grantAt (corep a) b ⟨0, 0⟩ = some u
      ∧ ((at_ t a).withReply m (m.kind.extend (leNat ((t.spad (corep a)).read m.off n))) (t.now + 6)).sameButTokens (at_ u a)
      ∧ (u.spad (corep a)).bytes = (t.spad (corep a)).bytes := by
  obtain ⟨hkind, hmem, hreply, hwait, hbank, halone, -, hp6, hclean⟩ := h
  have hrequest : (t.core (corep a)).tpRequest t.now b = some (a.slot.val, m) := by
    refine Core.tpRequest_of_alone a.slot.isLt ?_ fun j hlt hne => Core.memAt_of_none _ _ (halone j hlt hne)
    have hslot : (t.core (corep a)).slot a.slot.val = at_ t a := rfl
    simp only [Core.memAt, hslot, hmem, hreply, hwait, hbank, Option.isNone_none, beq_self_eq_true, Bool.true_and, bne_iff_ne,
      ne_eq, reduceCtorEq, not_false_eq_true, Bool.or_eq_true, true_or, if_true]
  refine ⟨_, State.grantAt_of_tpRequest t _ hp6 hrequest, ?_⟩
  obtain ⟨banks, hcore⟩ := core_takeBank_missP6 t (corep a) b m.kind.cycles
  have hnow : ((t.takeBank (corep a) b).missP6 (corep a) b m.kind.cycles).now = t.now := by
    simp only [State.takeBank, State.missP6, State.modBank_now]
  generalize (t.takeBank (corep a) b).missP6 (corep a) b m.kind.cycles = w at hcore hnow ⊢
  have hgrant : w.grantSlot (corep a) a.slot.val m ⟨0, 0⟩ = w.grantTp (corep a) a.slot.val m ⟨0, 0⟩ := by
    rw [State.grantSlot, hkind]
  have hspad : w.spad (corep a) = { t.spad (corep a) with banks := banks } := congrArg Core.spad hcore
  have hslot : at_ w a = at_ t a := by
    have h := congrArg (fun c : Core => c.slot a.slot.val) hcore
    exact h
  have hclean' : (w.spad (corep a)).anyUe m.off n = false := by
    rw [hspad]
    exact hclean
  have hread : (w.spad (corep a)).read m.off n = (t.spad (corep a)).read m.off n := by
    rw [hspad]
    rfl
  have hend := w.core_grantLoad (i := a.slot.val) hkind hclean'
  rw [hgrant, ← hread, ← hslot, ← hnow]
  generalize m.kind.extend (leNat ((w.spad (corep a)).read m.off n)) = v at hend ⊢
  constructor
  · have hready : (((w.core (corep a)).modSpad (fun sp => sp.touchPlain w.now false m.off n)).modSlot a.slot.val
        (Slot.withReply m v (w.now + 6))).slot a.slot.val = (at_ w a).withReply m v (w.now + 6) := by
      rw [Core.slot_modSlot_same, Core.slot_modSpad, at_, State.slot]
    have hsettle := Core.slot_settle w.now w.gen.lastEdge (((w.core (corep a)).modSpad (fun sp => sp.touchPlain w.now false m.off n)).modSlot
      a.slot.val (Slot.withReply m v (w.now + 6))) (j := a.slot.val) (by rw [hready]; exact SlotMode.noConfusion)
    rw [hready, ← hend] at hsettle
    exact hsettle
  · rw [State.spad, hend]
    rw [Core.settle_field _ _ _ (fun c => c.spad.bytes) fun _ _ _ => rfl, Core.modSlot_spad, Core.spad_modSpad, Spad.touchPlain_bytes]
    have h := congrArg Spad.bytes hspad
    exact h

/-- The bank grants in the first cycle in which it is free. -/
theorem bankGrant_load {t : State} {a : At} {b : Fin 16} {m : MemOp} {n : Nat} {sgn : Bool} (h : LoadWaits t a b.val m n sgn) :
    ∃ u due, exec (.bankGrant a.core b ⟨0, 0⟩) t = .next u
      ∧ ((at_ t a).withReply m (m.kind.extend (leNat ((t.spad (corep a)).read m.off n))) due).sameButTokens (at_ u a)
      ∧ (u.spad (corep a)).bytes = (t.spad (corep a)).bytes := by
  have hwaits : LoadWaits (t.advanceTo ((t.spad (corep a)).bank b.val).freeAt) a b.val m n sgn :=
    ⟨h.kind, h.mem, h.reply, h.wait, h.bank, h.alone, h.serves, h.p6wait, h.clean⟩
  obtain ⟨u, hgrant, hslot, hbytes⟩ := grantAt_load hwaits
  have hgrants : ((t.spad (corep a)).bank b.val).grants = true := by
    rw [Bank.grants, h.serves.1, h.serves.2]
    rfl
  refine ⟨u, _, ?_, hslot, hbytes⟩
  rw [exec_bankGrant, execBankGrant]
  simp only [show ((t.spad a.core.val).bank b.val).grants = true from hgrants, Bool.not_true, Bool.false_eq_true, if_false, hgrant]

/-- The data of a load returns to its slot (R70, R71). -/
theorem loadDataReturn_next {u : State} {a : At} {m : MemOp} {v : Word} (hmem : (at_ u a).mem = some m) (hreply : m.reply = some (some v)) :
    exec (.loadDataReturn a) u = .next ((u.advanceTo m.dueAt).modSlot (corep a) a.slot.val
      (fun sl => { (sl.setReg m.rd v) with mem := none, readyAt := (u.advanceTo m.dueAt).now })) := by
  rw [exec_loadDataReturn, execLoadDataReturn]
  simp only [show (u.slot a.core.val a.slot.val).mem = some m from hmem, hreply]

/-- A load that issues at a bank where nothing else waits is the one access there. -/
theorem loadWaits_request {s : State} {a : At} {n : Nat} {sgn : Bool} (rd : Reg) {ta : Word} {off b : Nat} (hwait : (own s a).wait = .none)
    (hoff : off = (own s a).seg.spadBase + ta.toNat) (hb : b = off / 0x10000) (halone : AloneAtBank s a b)
    (hclean : Clean (s.spad (corep a)) off n) :
    LoadWaits ((s.issued a).request (corep a) a.slot.val (.load n sgn) rd 0 ta) a b
      (requested (s.issued a) (corep a) a.slot.val (.load n sgn) rd 0 ta) n sgn := by
  obtain ⟨hserves, -, hp6, hnone⟩ := halone
  obtain ⟨hslot, -⟩ := request_issued s a (.load n sgn) rd 0 ta
  have hspad : ((s.issued a).request (corep a) a.slot.val (.load n sgn) rd 0 ta).spad (corep a) = s.spad (corep a) := by
    rw [State.spad, core_request, Core.modSlot_spad]
    exact core_issued_field s a Core.spad fun _ _ _ _ => rfl
  have hoff' : (requested (s.issued a) (corep a) a.slot.val (.load n sgn) rd 0 ta).off = off := by
    rw [hoff, requested, show (s.issued a).slot (corep a) a.slot.val = own s a from slot_issued_eq s a]
  obtain ⟨-, -, -, -, -, hslots, -⟩ := issueFrame_request s a (.load n sgn) rd 0 ta
  generalize (s.issued a).request (corep a) a.slot.val (.load n sgn) rd 0 ta = t at hslot hspad hslots ⊢
  have hmem := congrArg Slot.mem hslot
  have hwaits := congrArg Slot.wait hslot
  refine ⟨rfl, hmem, rfl, hwaits.trans hwait, by rw [hoff', hb]; rfl, fun j hlt hne => ?_, ?_, by rw [hspad]; exact hp6, ?_⟩
  · have hj := congrArg Slot.mem (hslots j hne)
    exact hj.trans (hnone j hlt hne)
  · rw [BankServes, hspad]
    exact hserves
  · rw [hspad, hoff']
    exact anyUe_of_clean hclean

/-- The slot behind the return of its load. -/
theorem slot_loadDataReturn {u : State} {a : At} {m : MemOp} {v : Word} {sl : Slot} {due : Nat}
    (hback : (sl.withReply m v due).sameButTokens (at_ u a)) :
    ∃ t, exec (.loadDataReturn a) u = .next t
      ∧ (∀ r, (at_ t a).reg r = if r = 0 then 0 else if r = m.rd then v else sl.reg r)
      ∧ (at_ t a).pc = sl.pc ∧ (at_ t a).mode = .ready ∧ (at_ t a).mem = none
      ∧ (t.spad (corep a)).bytes = (u.spad (corep a)).bytes := by
  have hmem := Slot.sameButTokens_field hback Slot.mem fun _ _ _ => rfl
  have hregs := Slot.sameButTokens_field hback Slot.regs fun _ _ _ => rfl
  have hpc := Slot.sameButTokens_field hback Slot.pc fun _ _ _ => rfl
  have hmode := Slot.sameButTokens_field hback Slot.mode fun _ _ _ => rfl
  refine ⟨_, loadDataReturn_next hmem rfl, fun r => ?_, ?_, ?_, ?_, ?_⟩
  · rw [at_, State.slot_modSlot_same]
    refine (Slot.reg_setReg (at_ u a) m.rd r v).trans ?_
    rw [Slot.reg, hregs]
    rfl
  · rw [at_, State.slot_modSlot_same]
    exact (Slot.setReg_pc (at_ u a) m.rd v).trans hpc
  · rw [at_, State.slot_modSlot_same]
    exact (Slot.setReg_mode (at_ u a) m.rd v).trans hmode
  · rw [at_, State.slot_modSlot_same]
  · rw [State.spad, State.modSlot, State.core_modCore_same, Core.modSlot_spad]
    rfl

/-- Settles O14: the issue leaves the load alone at its bank, the grant reads its bytes, and the return writes RD. -/
theorem loadRunsToItsEnd : Obligations.LoadRunsToItsEnd := by
  intro s i a n sgn rd ta off b hform hfires hwait hbound halign hoff hb halone hclean
  obtain ⟨op, ra, imm, hexec, hta, hn⟩ := loadForm_eq hform
  have haddr := (addrFault_eq_none (own s a) ta n).2 ⟨hbound, halign⟩
  have hissue : exec i s = .next ((s.issued a).request (corep a) a.slot.val (.load n sgn) rd 0 ta) := by
    rw [hexec, load_fires op n sgn rd ra imm hfires (by rw [← hta]; exact haddr), hta]
  obtain ⟨hslot, -⟩ := request_issued s a (.load n sgn) rd 0 ta
  have hspad : ((s.issued a).request (corep a) a.slot.val (.load n sgn) rd 0 ta).spad (corep a) = s.spad (corep a) := by
    rw [State.spad, core_request, Core.modSlot_spad]
    exact core_issued_field s a Core.spad fun _ _ _ _ => rfl
  have hmoff : (requested (s.issued a) (corep a) a.slot.val (.load n sgn) rd 0 ta).off = off := by
    rw [hoff, requested, show (s.issued a).slot (corep a) a.slot.val = own s a from slot_issued_eq s a]
  have hmrd : (requested (s.issued a) (corep a) a.slot.val (.load n sgn) rd 0 ta).rd = rd.val := rfl
  have hmkind : (requested (s.issued a) (corep a) a.slot.val (.load n sgn) rd 0 ta).kind = .load n sgn := rfl
  obtain ⟨u, due, hgrant, hback, hbytes⟩ := bankGrant_load (loadWaits_request (sgn := sgn) rd hwait hoff hb halone hclean)
  obtain ⟨v, hreturn, hreg, hpc, hmode, hmem, hbytes'⟩ := slot_loadDataReturn hback
  generalize (s.issued a).request (corep a) a.slot.val (.load n sgn) rd 0 ta = t at hissue hslot hspad hgrant hbytes hreg hpc
  generalize requested (s.issued a) (corep a) a.slot.val (.load n sgn) rd 0 ta = m at hslot hmoff hmrd hmkind hreg hback
  refine ⟨t, u, v, hissue, hgrant, hreturn, ?_, fun r hr => ?_, ?_, hmode, hmem, fun x => ?_⟩
  · rw [hreg rd.val, hmoff, hspad, if_pos hmrd.symm, hmkind, extend_eq_loadValue _ hn]
    simp only [Fin.val_eq_zero_iff]
  · have hne : ¬ r.val = m.rd := fun h => hr (Fin.ext (h.trans hmrd))
    rw [hreg r.val, if_neg hne, hslot]
    by_cases hzero : r.val = 0
    · rw [if_pos hzero, hzero]
      rfl
    · rw [if_neg hzero]
      rfl
  · rw [hpc, hslot]
    rfl
  · rw [sbyte, hbytes', hbytes, hspad, sbyte]

end Sys2Proof.Claims

/-!
SUPPORT. What the read of a DRAM line leaves alone, and what a fill does to the instruction cache (R42, R183).
-/
namespace Sys2Proof.Machine

variable (s : State)

/-! The read of a line leaves the cores. -/

@[simp] theorem State.bump_cores (u off lo w n : Nat) : (s.bump u off lo w n).cores = s.cores := rfl
@[simp] theorem State.modDram_cores (site : Nat) (f : Dram → Dram) : (s.modDram site f).cores = s.cores := rfl
@[simp] theorem State.modPort_cores (site p : Nat) (f : DramPort → DramPort) : (s.modPort site p f).cores = s.cores := rfl
@[simp] theorem State.appendLog_cores (kind site unit detail : Nat) : (s.appendLog kind site unit detail).cores = s.cores := rfl
@[simp] theorem State.raise_cores (sev : Severity) (code : Nat) (src : EventSrc) (tick : Option Nat) (data : Nat) (inj : Bool) :
    (s.raise sev code src tick data inj).cores = s.cores :=
  (s.raise_eventsOnly sev code src tick data inj).field_eq State.cores rfl

@[simp] theorem State.dramErr_cores (site o : Nat) (ue patrol : Bool) : (s.dramErr site o ue patrol).cores = s.cores := by
  rw [State.dramErr, State.setReg_cores]

theorem State.foldl_cores {β : Type} (f : State → β → State) (h : ∀ t b, (f t b).cores = t.cores) (l : List β) :
    (l.foldl f s).cores = s.cores := by
  induction l generalizing s with
  | nil => rfl
  | cons b l ih => exact (ih (f s b)).trans (h s b)

@[simp] theorem State.showPort_cores (site p : Nat) : (s.showPort site p).cores = s.cores := by
  unfold State.showPort
  dsimp only
  rw [State.foldl_cores _ _ fun t i => t.setReg_cores _ _ _]
  simp only [State.setReg_cores]

@[simp] theorem State.retireDram_cores (site p kind bank row : Nat) : (s.retireDram site p kind bank row).cores = s.cores := by
  unfold State.retireDram
  dsimp only
  split
  · rfl
  · exact (State.raise_cores _ _ _ _ _ _ _).trans ((State.appendLog_cores _ _ _ _ _).trans (State.showPort_cores _ _ _))

@[simp] theorem State.countRowError_cores (site o : Nat) (ue injected : Bool) : (s.countRowError site o ue injected).cores = s.cores := by
  unfold State.countRowError
  dsimp only
  split
  · rfl
  · split
    · rw [State.retireDram_cores]
    · rfl

@[simp] theorem State.lineError_cores (site o : Nat) (err : Symbols) (patrol injected : Bool) :
    (s.lineError site o err patrol injected).cores = s.cores := by
  cases err
  · rfl
  · simp only [State.lineError, State.countRowError_cores, State.dramErr_cores, State.bump_cores]
  · simp only [State.lineError, State.countRowError_cores, State.modDram_cores, State.dramErr_cores, State.bump_cores]

@[simp] theorem State.limitTime_cores (site p n : Nat) : (s.limitTime site p n).cores = s.cores := by
  unfold State.limitTime
  split
  · rfl
  · rfl

theorem State.dramGrant_cores {t : State} {site die p cls : Nat} (h : s.dramGrant site die p cls = some t) : t.cores = s.cores := by
  unfold State.dramGrant at h
  dsimp only at h
  split at h
  · split at h
    · cases h
      rfl
    · cases h
  · split at h
    · cases h
    · cases h
      rfl

/-- The read of a line of a DRAM leaves the cores as they are. -/
theorem State.readLine_cores {u : State} {site o n cls : Nat} {err : Symbols} {st : Status} {data : List Byte}
    (h : s.readLine site o n cls err = some (st, data, u)) : u.cores = s.cores := by
  unfold State.readLine at h
  dsimp only at h
  split at h
  · cases h
  · rename_i g hg
    have hcores := s.dramGrant_cores hg
    split at h
    · split at h
      · cases h
      · cases h
        exact hcores
    · split at h
      · cases h
      · split at h
        · cases h
          exact hcores
        · simp only [Option.some.injEq, Prod.mk.injEq] at h
          obtain ⟨-, -, rfl⟩ := h
          rw [apply_ite State.cores, State.lineError_cores, ite_self]
          simp only [State.modPort_cores, State.bump_cores, State.limitTime_cores, hcores]

/-! The instruction cache. -/

/-- The set of the cache that a line belongs to (R42). -/
def Core.setOf (c : Core) (line : Nat) : List (Nat × List Byte) := c.icache.filter (fun e => e.1 / 64 % 128 == line / 64 % 128)

/-- What a fill keeps of the cache: all of it while the set has a place, else one line of the set goes. -/
def Core.kept (c : Core) (line n : Nat) : List (Nat × List Byte) :=
  if (c.setOf line).length < 4 then c.icache else c.icache.erase ((c.setOf line).getD (n % (c.setOf line).length) (0, []))

theorem Core.kept_subset (c : Core) (line n : Nat) : ∀ l ∈ c.kept line n, l ∈ c.icache := by
  intro l hl
  unfold Core.kept at hl
  split at hl
  · exact hl
  · exact List.mem_of_mem_erase hl

theorem Core.kept_of_room {c : Core} {line : Nat} (n : Nat) (h : (c.setOf line).length < 4) : c.kept line n = c.icache := if_pos h

/-- A line of another set stays. -/
theorem Core.mem_kept_of_other {c : Core} {line : Nat} (n : Nat) {l : Nat × List Byte} (hl : l ∈ c.icache)
    (hset : l.1 / 64 % 128 ≠ line / 64 % 128) : l ∈ c.kept line n := by
  unfold Core.kept
  split
  · exact hl
  · rename_i hfull
    have hlt : n % (c.setOf line).length < (c.setOf line).length := Nat.mod_lt _ (by omega)
    have hmem : (c.setOf line).getD (n % (c.setOf line).length) (0, []) ∈ c.setOf line := by
      rw [List.getD_eq_getElem _ _ hlt]
      exact List.getElem_mem hlt
    refine (List.mem_erase_of_ne fun h => hset ?_).2 hl
    rw [← h] at hmem
    exact beq_iff_eq.1 (List.mem_filter.1 hmem).2

theorem State.installLine_eq (p line : Nat) (data : List Byte) :
    s.installLine p line data = s.freeNat.2.modCore p (fun c => { c with icache := (line, data) :: c.kept line s.freeNat.1 }) := rfl

end Sys2Proof.Machine

namespace Sys2Proof.Claims

open Sys2Proof.Machine

theorem core_of_cores {s u : State} (h : u.cores = s.cores) (p : Nat) : u.core p = s.core p := by
  rw [State.core, State.core, h]

theorem coreOnly_modCore (s : State) (p : Nat) (f : Core → Core) : CoreOnly s (s.modCore p f) p :=
  ⟨fun _ hq => s.core_modCore_other f hq, rfl⟩

theorem regOnly_setFld (s : State) (u o lo w v : Nat) : RegOnly s (s.setFld u o lo w v) u o :=
  ⟨fun _ hk d => by rw [State.setFld, State.get_regs_putReg_other _ _ _ hk, State.noteHw_regs], rfl⟩

/-- The clear of a slot's fault record: a fault of this very cycle is recorded again (R58). -/
theorem clearFault_spec (now : Nat) (sl : Slot) :
    ((∀ code pc addr, sl.lastFault ≠ some (now, code, pc, addr)) →
        sl.clearFault now = { sl with faultValid := false, faultOvf := false, faultCode := 0, faultPc := 0, faultAddr := 0 })
      ∧ (∀ code pc addr, sl.lastFault = some (now, code, pc, addr) →
        sl.clearFault now = { sl with
          faultValid := true, faultOvf := false, faultCode := BitVec.ofNat 8 code, faultPc := pc.truncate 32, faultAddr := addr }) := by
  unfold Slot.clearFault
  dsimp only
  refine ⟨fun h => ?_, fun code pc addr h => ?_⟩
  · split
    · rename_i t code pc addr hlast
      have hne : t ≠ now := fun e => h code pc addr (e ▸ hlast)
      rw [if_neg hne]
    · rfl
  · rw [h]
    simp only [if_true, Slot.record]
    rfl

theorem coreCommands : CoreControls := by
  intro s c a en
  refine ⟨⟨_, rfl, regOnly_setFld _ _ _ _ _ _, ?_, fun k hk => ?_⟩, ⟨_, rfl, State.core_modCore_same _ _ _, coreOnly_modCore _ _ _⟩,
    fun h => ?_, fun h => ?_, ?_⟩
  · rw [State.reg_setFld_same, testBit_setField, if_pos (by decide)]
    cases en
    · rfl
    · rfl
  · rw [State.reg_setFld_same, testBit_setField, if_neg (by omega)]
  · rw [exec_icacheInvalidationDone, execIcacheInvalidationDone, when, h, if_pos rfl]
    exact ⟨_, rfl, State.core_modCore_same _ _ _, coreOnly_modCore _ _ _⟩
  · rw [exec_icacheInvalidationDone, execIcacheInvalidationDone, when, h, if_neg (by decide)]
  · obtain ⟨hclear, hfault⟩ := clearFault_spec s.now (at_ s a)
    refine ⟨_, rfl, fun h => ?_, fun code pc addr h => ?_, fun j hj => ?_, ?_, coreOnly_modCore _ _ _⟩
    · rw [at_, State.slot_modSlot_same, hclear h]
    · rw [at_, State.slot_modSlot_same, hfault code pc addr h]
    · rw [State.slot, State.modSlot, State.core_modCore_same, Core.slot_modSlot_other _ _ hj, State.slot]
    · rw [State.modSlot, State.core_modCore_same]
      rfl

/-- The outcome of a fill whose port answers. -/
theorem instructionCacheFill_eq {s u : State} {a : At} {err : Symbols} {line d o site : Nat} {st : Status} {data : List Byte}
    (hmode : (at_ s a).mode = .ready) (hbound : (at_ s a).pc.toNat + 4 ≤ (at_ s a).seg.codeBound) (hdown : s.coreDown (corep a) = false)
    (hmissing : (s.core (corep a)).missingLine (at_ s a) = some line) (htarget : s.active.target line = some (.dram d o))
    (hsite : s.active.site d = some site) (hread : s.readLine site o 64 (s.dramClass d (corep a)) err = some (st, data, u)) :
    exec (.instructionCacheFill a err) s =
      if st = stOk then .next (u.installLine (corep a) line data)
      else if !(s.core (corep a)).needsLine (at_ s a) line then .next u
      else if !(at_ s a).canIssue || !(s.core (corep a)).itsTurn s.now a.slot.val then .next s
      else .next ((u.issued a).takeFault (corep a) a.slot.val fCodePoison (at_ s a).pc (at_ s a).pc) := by
  have hinside : (at_ s a).fetchInside 4 = true := decide_eq_true hbound
  have hguard : ((at_ s a).mode != .ready || !(at_ s a).fetchInside 4 || s.coreDown (corep a)) = false := by
    rw [hmode, hinside, hdown]
    rfl
  have hissued : (u.advanceTo ((s.core (corep a)).issueTime a.slot.val)).modCore (corep a)
      (fun c => c.beginIssue a.slot.val (u.advanceTo ((s.core (corep a)).issueTime a.slot.val)).now) = u.issued a := by
    rw [← core_of_cores (State.readLine_cores s hread)]
    rfl
  rw [exec_instructionCacheFill, execInstructionCacheFill]
  simp only [show ((s.slot a.core.val a.slot.val).mode != .ready || !(s.slot a.core.val a.slot.val).fetchInside 4
    || s.coreDown a.core.val) = false from hguard, Bool.false_eq_true, if_false,
    show (s.core a.core.val).missingLine (s.slot a.core.val a.slot.val) = some line from hmissing, htarget, hsite,
    show s.readLine site o 64 (s.dramClass d a.core.val) err = some (st, data, u) from hread]
  rw [← hissued]

theorem cacheFill : CacheFill := by
  intro s u a err line d o site st data hmode hbound hdown hmissing htarget hsite hread
  have hcores : ∀ q, u.core q = s.core q := core_of_cores (State.readLine_cores s hread)
  rw [instructionCacheFill_eq hmode hbound hdown hmissing htarget hsite hread]
  refine ⟨fun hst => ?_, fun hst hneeds => ?_, fun hst hneeds => ⟨fun hmem hturn => ?_, fun hwait => ?_⟩⟩
  · rw [if_pos (show st = stOk from hst), State.installLine_eq]
    have hcore : (u.freeNat.2.modCore (corep a) (fun c => { c with icache := (line, data) :: c.kept line u.freeNat.1 })).core (corep a)
        = { s.core (corep a) with icache := (line, data) :: (s.core (corep a)).kept line u.freeNat.1 } := by
      rw [State.core_modCore_same, ← hcores]
      rfl
    refine ⟨_, rfl, ?_, fun l hl hmem => ?_, fun l hl hset => ?_, fun hroom => ?_, ?_, fun q hq => ?_, rfl⟩
    · rw [hcore]
      exact List.mem_cons_self
    · rw [hcore] at hmem
      exact Core.kept_subset _ _ _ l ((List.mem_cons.1 hmem).resolve_left hl)
    · rw [hcore]
      exact List.mem_cons_of_mem _ (Core.mem_kept_of_other _ hl hset)
    · rw [hcore]
      exact congrArg ((line, data) :: ·) (Core.kept_of_room _ hroom)
    · rw [hcore]
    · exact (State.core_modCore_other _ _ hq).trans (hcores q)
  · rw [if_neg (show ¬ st = stOk from hst), hneeds, if_pos (by decide)]
  · have hnext : (!(at_ s a).canIssue || !(s.core (corep a)).itsTurn s.now a.slot.val) = false := by
      rw [(canIssue_iff _).2 ⟨hmode, hmem⟩, (itsTurn_iff s _ _).2 hturn]
      rfl
    have hat : at_ u a = at_ s a := congrArg (fun c : Core => c.slot a.slot.val) (hcores (corep a))
    have hcycle : issueCycle u a = Nat.max u.now (Nat.max (at_ s a).readyAt (s.core (corep a)).issueAt) := by
      rw [issueCycle, hat, hcores]
    have hfault := faulted_issued u a fCodePoison (at_ s a).pc (at_ s a).pc
    rw [Faulted, own, hat] at hfault
    rw [if_neg (show ¬ st = stOk from hst), hneeds, if_neg (by decide), hnext, if_neg (by decide)]
    refine ⟨_, rfl, ?_, ?_, ?_⟩
    · rw [State.core_takeFault]
      exact (core_issued_field u a Core.icache fun _ _ _ _ => rfl).trans (congrArg Core.icache (hcores _))
    · rw [State.takeFault_now, issued_now_eq, hcycle]
    · rw [State.takeFault_now, issued_now_eq]
      exact hfault
  · have hnext : (!(at_ s a).canIssue || !(s.core (corep a)).itsTurn s.now a.slot.val) = true := by
      rw [Bool.or_eq_true, Bool.not_eq_true', Bool.not_eq_true', ← Bool.not_eq_true, ← Bool.not_eq_true, canIssue_iff, itsTurn_iff]
      rcases hwait with hmem | ⟨j, hj⟩
      · exact .inl fun h => hmem h.2
      · exact .inr fun h => h j hj
    rw [if_neg (show ¬ st = stOk from hst), hneeds, if_neg (by decide), hnext, if_pos rfl]

/-- Settles O15: the commands write what they name, and a fill does what its port's answer asks. -/
theorem coreControls : Obligations.CoreControls := ⟨coreCommands, cacheFill⟩

end Sys2Proof.Claims

/-!
SUPPORT. The launcher: the slot of a launch, the banks it powers and the load of its task (R49, R50, R114).
-/
namespace Sys2Proof.Machine

/-! Requests for power. -/

/-- What requests for power do to the banks of core `p`: banks are as they were but for requests and their times (R114). -/
structure State.RequestsPower (s t : State) (p : Nat) : Prop where
  now : t.now = s.now
  rest : ({ t.core p with spad := { t.spad p with banks := (s.spad p).banks } } : Core) = s.core p
  on : ∀ b, ((t.spad p).bank b).on = ((s.spad p).bank b).on
  pdOffAt : ∀ b, ((t.spad p).bank b).pdOffAt = ((s.spad p).bank b).pdOffAt
  puReq : ∀ b, ((s.spad p).bank b).puReq = true → ((t.spad p).bank b).puReq = true

namespace State.RequestsPower

theorem refl (s : State) (p : Nat) : s.RequestsPower s p := ⟨rfl, rfl, fun _ => rfl, fun _ => rfl, fun _ h => h⟩

theorem trans {s t u : State} {p : Nat} (h : s.RequestsPower t p) (k : t.RequestsPower u p) : s.RequestsPower u p where
  now := k.now.trans h.now
  rest := by
    have e := congrArg (fun c : Core => ({ c with spad := { c.spad with banks := (s.spad p).banks } } : Core)) k.rest
    exact e.trans h.rest
  on b := (k.on b).trans (h.on b)
  pdOffAt b := (k.pdOffAt b).trans (h.pdOffAt b)
  puReq b hb := k.puReq b (h.puReq b hb)

theorem foldl {β : Type} {p : Nat} {f : State → β → State} (h : ∀ (t : State) (b : β), t.RequestsPower (f t b) p) (l : List β) (s : State) :
    s.RequestsPower (l.foldl f s) p := by
  induction l generalizing s with
  | nil => exact refl s p
  | cons b l ih => exact (h s b).trans (ih (f s b))

/-- A slot's core but for its banks is as it was. -/
theorem field {β : Type} {s t : State} {p : Nat} (h : s.RequestsPower t p) (f : Core → β)
    (hf : ∀ (c : Core) (m : SMap Bank), f { c with spad := { c.spad with banks := m } } = f c) : f (t.core p) = f (s.core p) :=
  (hf _ _).symm.trans (congrArg f h.rest)

end State.RequestsPower

variable (s : State)

theorem State.spad_modBank (p b : Nat) (f : Bank → Bank) : (s.modBank p b f).spad p = (s.spad p).setBank b (f ((s.spad p).bank b)) := by
  rw [State.modBank, State.modSpad, State.spad, State.core_modCore_same, Core.spad_modSpad, State.spad]

/-- A change of one bank that leaves it on or off. -/
theorem State.modBank_requestsPower {p b : Nat} {f : Bank → Bank} (hon : (f ((s.spad p).bank b)).on = ((s.spad p).bank b).on)
    (hoff : (f ((s.spad p).bank b)).pdOffAt = ((s.spad p).bank b).pdOffAt)
    (hreq : ((s.spad p).bank b).puReq = true → (f ((s.spad p).bank b)).puReq = true) : s.RequestsPower (s.modBank p b f) p where
  now := s.modBank_now p b f
  rest := by
    rw [s.spad_modBank, State.modBank, State.modSpad, State.core_modCore_same]
    rfl
  on j := by
    rw [s.spad_modBank]
    rcases eq_or_ne j b with rfl | h
    · rw [Spad.bank_setBank_same, hon]
    · rw [Spad.bank_setBank_other _ _ h]
  pdOffAt j := by
    rw [s.spad_modBank]
    rcases eq_or_ne j b with rfl | h
    · rw [Spad.bank_setBank_same, hoff]
    · rw [Spad.bank_setBank_other _ _ h]
  puReq j hj := by
    rw [s.spad_modBank]
    rcases eq_or_ne j b with rfl | h
    · rw [Spad.bank_setBank_same]
      exact hreq hj
    · rw [Spad.bank_setBank_other _ _ h]
      exact hj

theorem State.startPowerUps_requestsPower (p : Nat) : s.RequestsPower (s.startPowerUps p) p := by
  refine .foldl (fun t b => ?_) _ s
  dsimp only
  split
  · exact t.modBank_requestsPower rfl rfl id
  · exact .refl t p

/-- The request for one bank: an off bank asks for power. -/
def State.requestBank (p : Nat) (s : State) (b : Nat) : State :=
  s.modBank p b (fun x => if x.on ∧ x.pdOffAt.isNone then x else { x with puReq := true })

theorem State.requestUp_eq (p : Nat) (bs : List Nat) : s.requestUp p bs = (bs.foldl (State.requestBank p) s).startPowerUps p := rfl

theorem State.requestBank_requestsPower (p b : Nat) : s.RequestsPower (s.requestBank p b) p := by
  refine s.modBank_requestsPower ?_ ?_ fun h => ?_
  · split
    · rfl
    · rfl
  · split
    · rfl
    · rfl
  · split
    · exact h
    · rfl

theorem State.requestUp_requestsPower (p : Nat) (bs : List Nat) : s.RequestsPower (s.requestUp p bs) p := by
  rw [State.requestUp_eq]
  exact (State.RequestsPower.foldl (fun t b => t.requestBank_requestsPower p b) bs s).trans (State.startPowerUps_requestsPower _ p)

/-- Every off bank of a request asks for power (R114). -/
theorem State.requestUp_puReq {p b : Nat} {bs : List Nat} (hb : b ∈ bs) (hoff : ((s.spad p).bank b).on = false) :
    (((s.requestUp p bs).spad p).bank b).puReq = true := by
  rw [State.requestUp_eq]
  refine (State.startPowerUps_requestsPower _ p).puReq b ?_
  induction bs generalizing s with
  | nil => cases hb
  | cons c bs ih =>
    rw [List.foldl_cons]
    rcases List.mem_cons.1 hb with rfl | hb
    · refine (State.RequestsPower.foldl (fun t b => t.requestBank_requestsPower p b) bs _).puReq b ?_
      rw [State.requestBank, s.spad_modBank, Spad.bank_setBank_same, hoff, if_neg (by simp)]
    · exact ih (s.requestBank p c) hb (((s.requestBank_requestsPower p c).on b).trans hoff)

/-! The slot of a launch, and the load of its task. -/

theorem overlapsBank_iff (b lo hi : Nat) : overlapsBank b lo hi = true ↔ Claims.InBank b lo hi := by
  simp only [overlapsBank, Bool.and_eq_true, decide_eq_true_eq, Claims.InBank]
  constructor
  · rintro ⟨⟨hlt, hend⟩, hbegin⟩
    exact ⟨max lo (b * 0x10000), by omega, by omega, by omega⟩
  · rintro ⟨o, hlo, hhi, hb⟩
    omega

theorem Core.banksOn_iff (c : Core) (lo hi : Nat) :
    c.banksOn lo hi = true ↔ ∀ b, b < 16 → Claims.InBank b lo hi → (c.spad.bank b).on = true ∧ (c.spad.bank b).pdOffAt = none := by
  simp only [Core.banksOn, List.all_eq_true, List.mem_range, Bool.or_eq_true, Bool.not_eq_true', ← Bool.not_eq_true, overlapsBank_iff,
    Bool.and_eq_true, Option.isNone_iff_eq_none]
  exact forall_congr' fun b => imp_congr_right fun _ => by tauto

theorem State.launchSlot_of_selected {p i : Nat} {d : List Byte} (h : Claims.SlotSelected s p d i) : s.launchSlot p d = some i := by
  unfold Claims.SlotSelected at h
  unfold State.launchSlot
  have hbit : bit (leAt d 2 1) 7 = decide (leAt d 2 1 / 128 % 2 = 1) := by
    rw [bit, Nat.testBit_eq_decide_div_mod_eq]
  by_cases hany : leAt d 2 1 / 128 % 2 = 1
  · rw [if_pos hany] at h
    obtain ⟨hlt, hfree, hen, hleast⟩ := h
    dsimp only
    rw [if_pos (by rw [hbit]; exact decide_eq_true hany), List.find?_range_eq_some]
    refine ⟨?_, List.mem_range.2 hlt, fun j hj => ?_⟩
    · rw [Bool.and_eq_true, beq_iff_eq]
      exact ⟨hfree, hen⟩
    · rw [Bool.not_eq_true', ← Bool.not_eq_true, Bool.and_eq_true, beq_iff_eq]
      exact hleast j hj
  · rw [if_neg hany] at h
    obtain ⟨rfl, hfree⟩ := h
    dsimp only
    rw [if_neg (by rw [hbit]; exact fun h => hany (of_decide_eq_true h))]
    have hfield : field (leAt d 2 1) 0 3 = leAt d 2 1 % 8 := rfl
    rw [hfield]
    exact if_pos hfree

/-- The load that a task descriptor asks for (R50). -/
def launchLoad (d : List Byte) : LaunchLoad :=
  { seg := taskSegments d, entry := leAt d 20 4, arg0 := BitVec.ofNat 64 (leAt d 48 8), arg1 := BitVec.ofNat 64 (leAt d 56 8)
    zero := bit (leAt d 3 1) 0, clearNext := (taskSegments d).spadBase }

/-- The slot of a launch that waits for its banks or its clearing. -/
def Slot.launched (d : List Byte) (l : Launch) (sl : Slot) : Slot :=
  { (sl.taken d l) with mode := .launching, seg := taskSegments d, load := some (launchLoad d) }

/-- The panel behind a valid launch, before its load (R50 steps 2 to 4). -/
def State.launched (p i : Nat) (d : List Byte) (l : Launch) (rest : List Launch) : State :=
  (((s.modCore p (fun c => { c with launches := rest })).modSlot p i (fun sl => sl.taken d l)).modSlot p i (fun sl =>
      { sl with mode := .launching, seg := taskSegments d, load := some (launchLoad d) })).requestUp p
    ((List.range 16).filter (fun b => overlapsBank b (leAt d 24 4) (leAt d 24 4 + leAt d 28 4)))

end Sys2Proof.Machine

namespace Sys2Proof.Claims

open Sys2Proof.Machine

theorem mem_wordsOf_iff (o n w : Nat) : w ∈ wordsOf o n ↔ o / 8 * 8 ≤ w ∧ w < o + n ∧ w % 8 = 0 := by
  refine ⟨mem_wordsOf, fun ⟨hlo, hhi, hmod⟩ => List.mem_map.2 ⟨w / 8 - o / 8, ?_, ?_⟩⟩
  · rw [List.mem_range]
    omega
  · omega

theorem clean_iff (sp : Spad) (o n : Nat) : Clean sp o n ↔ sp.anyUe o n = false := by
  refine ⟨anyUe_of_clean, fun h w hlo hhi hmod => ?_⟩
  rw [Spad.anyUe, List.any_eq_false] at h
  exact Bool.eq_false_iff.2 (h w ((mem_wordsOf_iff o n w).2 ⟨hlo, hhi, hmod⟩))

/-- A launch that the launcher performs, but for its descriptor. -/
structure LauncherGoes (s : State) (p g : Nat) (l : Launch) (rest : List Launch) : Prop where
  launches : (s.core p).launches = l :: rest
  gid : s.gid p = some g
  goes : (s.maint.reloads.any (fun r => r.core == g) || !bit (s.reg (unitCore p) rCORE_CTRL) 1 || s.coreDown p
    || !((s.spad p).bank (bankOf l.off)).on) = false

theorem LauncherGoes.intro {s : State} {p g : Nat} {l : Launch} {rest : List Launch} (hl : (s.core p).launches = l :: rest)
    (hg : s.gid p = some g) (hreload : s.maint.reloads.any (fun r => r.core == g) = false)
    (hen : (s.reg (unitCore p) rCORE_CTRL).testBit 1 = true) (hdown : s.coreDown p = false)
    (hon : ((s.spad p).bank (l.off / 0x10000)).on = true) : LauncherGoes s p g l rest := by
  refine ⟨hl, hg, ?_⟩
  rw [hreload, bit, hen, hdown, bankOf, hon]
  rfl

/-- The outcomes of a launch (R50). -/
theorem taskLaunch_unread {s : State} {c : CoreIx} {g : Nat} {l : Launch} {rest : List Launch} (h : LauncherGoes s c.val g l rest)
    (hue : (s.spad c.val).anyUe l.off 64 = true) :
    exec (.taskLaunch c) s = .next ((s.modCore c.val (fun x => { x with launches := rest })).dropLaunch c.val l) := by
  rw [exec_taskLaunch, execTaskLaunch]
  simp only [h.launches, h.gid, h.goes, hue, Bool.false_eq_true, if_false, if_true]

theorem taskLaunch_read {s : State} {c : CoreIx} {g : Nat} {l : Launch} {rest : List Launch} {i : Nat} (h : LauncherGoes s c.val g l rest)
    (hue : (s.spad c.val).anyUe l.off 64 = false) {d : List Byte} (hd : d = (s.spad c.val).read l.off 64)
    (hslot : s.launchSlot c.val d = some i) :
    (taskOk s.active (g / 48) l.patch d = false → exec (.taskLaunch c) s = .next
        (((s.modCore c.val (fun x => { x with launches := rest })).modSlot c.val i (fun sl => sl.taken d l)).takeFault c.val i fLaunchInvalid
          (((s.modCore c.val (fun x => { x with launches := rest })).modSlot c.val i (fun sl => sl.taken d l)).slot c.val i).pc
          (BitVec.ofNat 64 l.off)))
      ∧ (taskOk s.active (g / 48) l.patch d = true → exec (.taskLaunch c) s = .next ((s.launched c.val i d l rest).tryLoad c.val i)) := by
  subst hd
  have hexec := exec_taskLaunch s c
  unfold execTaskLaunch at hexec
  simp only [h.launches, h.gid, h.goes, hue, hslot, Bool.false_eq_true, if_false] at hexec
  refine ⟨fun hok => hexec.trans ?_, fun hok => hexec.trans ?_⟩
  · rw [if_pos]
    rw [show (((s.modCore c.val (fun x => { x with launches := rest })).modSlot c.val i
      (fun sl => sl.taken ((s.spad c.val).read l.off 64) l)).active) = s.active from rfl, hok]
    rfl
  · rw [if_neg]
    · rfl
    · rw [show (((s.modCore c.val (fun x => { x with launches := rest })).modSlot c.val i
        (fun sl => sl.taken ((s.spad c.val).read l.off 64) l)).active) = s.active from rfl, hok]
      decide

/-! A launch that could be read. -/

/-- The panel whose slot has taken a descriptor and asks for its load. -/
theorem slot_launched (s : State) (p i : Nat) (d : List Byte) (l : Launch) (rest : List Launch) :
    (s.launched p i d l rest).slot p i = (s.slot p i).launched d l
      ∧ (∀ j, j ≠ i → (s.launched p i d l rest).slot p j = s.slot p j)
      ∧ ((s.launched p i d l rest).core p).launches = rest
      ∧ (s.launched p i d l rest).now = s.now
      ∧ (∀ b, (bankAt (s.launched p i d l rest) p b).on = (bankAt s p b).on)
      ∧ (∀ b, (bankAt (s.launched p i d l rest) p b).pdOffAt = (bankAt s p b).pdOffAt)
      ∧ (∀ b, b < 16 → InBank b (leAt d 24 4) (leAt d 24 4 + leAt d 28 4) → (bankAt s p b).on = false →
          (bankAt (s.launched p i d l rest) p b).puReq = true) := by
  have hcore : (((s.modCore p (fun c => { c with launches := rest })).modSlot p i (fun sl => sl.taken d l)).modSlot p i (fun sl =>
      { sl with mode := .launching, seg := taskSegments d, load := some (launchLoad d) })).core p
        = ((({ s.core p with launches := rest } : Core).modSlot i (fun sl => sl.taken d l)).modSlot i (fun sl =>
            { sl with mode := .launching, seg := taskSegments d, load := some (launchLoad d) })) := by
    rw [State.modSlot, State.core_modCore_same, State.modSlot, State.core_modCore_same, State.core_modCore_same]
  unfold State.launched
  generalize hu : ((s.modCore p (fun c => { c with launches := rest })).modSlot p i (fun sl => sl.taken d l)).modSlot p i (fun sl =>
      { sl with mode := .launching, seg := taskSegments d, load := some (launchLoad d) }) = u at hcore ⊢
  have hnow : u.now = s.now := by
    rw [← hu, State.modSlot_now, State.modSlot_now, State.modCore_now]
  have hspad : u.spad p = s.spad p := by
    rw [State.spad, hcore]
    rfl
  have hpower := u.requestUp_requestsPower p ((List.range 16).filter (fun b => overlapsBank b (leAt d 24 4) (leAt d 24 4 + leAt d 28 4)))
  refine ⟨?_, fun j hj => ?_, ?_, hpower.now.trans hnow, fun b => ?_, fun b => ?_, fun b hlt hin hoff => ?_⟩
  · refine (hpower.field (fun c => c.slot i) fun _ _ => rfl).trans ?_
    rw [hcore, Core.slot_modSlot_same, Core.slot_modSlot_same]
    rfl
  · refine (hpower.field (fun c => c.slot j) fun _ _ => rfl).trans ?_
    rw [hcore, Core.slot_modSlot_other _ _ hj, Core.slot_modSlot_other _ _ hj]
    rfl
  · refine (hpower.field Core.launches fun _ _ => rfl).trans ?_
    rw [hcore]
    rfl
  · exact (hpower.on b).trans (by rw [hspad])
  · exact (hpower.pdOffAt b).trans (by rw [hspad])
  · exact u.requestUp_puReq (List.mem_filter.2 ⟨List.mem_range.2 hlt, (overlapsBank_iff _ _ _).2 hin⟩) (by rw [hspad]; exact hoff)

/-- The load of a task: its slot is READY where its banks are on and there is nothing to clear, else it goes on waiting (R50, R114). -/
theorem tryLoad_of_launching {v : State} {p i : Nat} {load : LaunchLoad} (hmode : (v.slot p i).mode = .launching)
    (hload : (v.slot p i).load = some load) :
    v.tryLoad p i = if (v.core p).banksOn load.seg.spadBase (load.seg.spadBase + load.seg.spadBound) = true
        ∧ ¬ (load.zero = true ∧ load.clearNext < load.seg.spadBase + load.seg.spadBound) then
      v.modSlot p i (fun sl => sl.loaded load v.now) else v := by
  unfold State.tryLoad
  simp only [hmode, hload]

/-- The registers of a task that begins: its arguments in g1 and g2 (R50). -/
theorem reg_loaded (sl : Slot) (load : LaunchLoad) (now r : Nat) :
    (sl.loaded load now).reg r = if r = 1 then load.arg0 else if r = 2 then load.arg1 else 0 := by
  have hregs : (sl.loaded load now).regs = SMap.set 0 (SMap.set 0 [] 1 load.arg0) 2 load.arg1 := rfl
  rw [Slot.reg, hregs, SMap.get_set, SMap.get_set]
  by_cases h1 : r = 1
  · subst h1
    rfl
  · by_cases h2 : r = 2
    · subst h2
      rfl
    · by_cases h0 : r = 0
      · subst h0
        rfl
      · simp [h0, h1, h2]

theorem launch_of_valid {s t : State} {p i : Nat} {d : List Byte} {l : Launch} {rest : List Launch}
    (ht : t = (s.launched p i d l rest).tryLoad p i) :
    (t.core p).launches = rest ∧ TaskTaken t p i l d ∧ (∀ j, j ≠ i → t.slot p j = s.slot p j)
      ∧ (∀ b, bankAt t p b = bankAt (s.launched p i d l rest) p b)
      ∧ ((∀ b, b < 16 → InBank b (leAt d 24 4) (leAt d 24 4 + leAt d 28 4) → (bankAt s p b).on = true ∧ (bankAt s p b).pdOffAt = none) →
          ((leAt d 3 1).testBit 0 = false ∨ leAt d 28 4 = 0) →
            t.slot p i = ((s.slot p i).launched d l).loaded (launchLoad d) s.now)
      ∧ (((∃ b, b < 16 ∧ InBank b (leAt d 24 4) (leAt d 24 4 + leAt d 28 4) ∧ (bankAt s p b).on = false)
          ∨ ((leAt d 3 1).testBit 0 = true ∧ leAt d 28 4 ≠ 0)) → t.slot p i = (s.slot p i).launched d l) := by
  obtain ⟨hslot, hother, hlaunches, hnow, hon, hoff, -⟩ := slot_launched s p i d l rest
  generalize s.launched p i d l rest = v at ht hslot hother hlaunches hnow hon hoff
  have hbanks : (v.core p).banksOn (leAt d 24 4) (leAt d 24 4 + leAt d 28 4) = true
      ↔ ∀ b, b < 16 → InBank b (leAt d 24 4) (leAt d 24 4 + leAt d 28 4) → (bankAt s p b).on = true ∧ (bankAt s p b).pdOffAt = none := by
    rw [Core.banksOn_iff]
    refine forall_congr' fun b => imp_congr_right fun _ => imp_congr_right fun _ => ?_
    rw [← hon, ← hoff]
    rfl
  rw [tryLoad_of_launching (v := v) (p := p) (i := i) (load := launchLoad d) (by rw [hslot]; rfl) (by rw [hslot]; rfl)] at ht
  have hready : ((v.core p).banksOn (launchLoad d).seg.spadBase ((launchLoad d).seg.spadBase + (launchLoad d).seg.spadBound) = true
        ∧ ¬ ((launchLoad d).zero = true ∧ (launchLoad d).clearNext < (launchLoad d).seg.spadBase + (launchLoad d).seg.spadBound))
      ↔ (∀ b, b < 16 → InBank b (leAt d 24 4) (leAt d 24 4 + leAt d 28 4) → (bankAt s p b).on = true ∧ (bankAt s p b).pdOffAt = none)
        ∧ ((leAt d 3 1).testBit 0 = false ∨ leAt d 28 4 = 0) := by
    have hclear : ¬ ((leAt d 3 1).testBit 0 = true ∧ leAt d 24 4 < leAt d 24 4 + leAt d 28 4)
        ↔ (leAt d 3 1).testBit 0 = false ∨ leAt d 28 4 = 0 := by
      rw [not_and_or, Bool.not_eq_true]
      exact or_congr_right (by omega)
    exact and_congr hbanks hclear
  by_cases hgo : (v.core p).banksOn (launchLoad d).seg.spadBase ((launchLoad d).seg.spadBase + (launchLoad d).seg.spadBound) = true
      ∧ ¬ ((launchLoad d).zero = true ∧ (launchLoad d).clearNext < (launchLoad d).seg.spadBase + (launchLoad d).seg.spadBound)
  · rw [if_pos hgo] at ht
    have hcore : t.core p = (v.core p).modSlot i (fun sl => sl.loaded (launchLoad d) v.now) := by
      rw [ht, State.modSlot, State.core_modCore_same]
    have hmine : t.slot p i = ((s.slot p i).launched d l).loaded (launchLoad d) s.now := by
      rw [State.slot, hcore, Core.slot_modSlot_same, ← hslot, hnow]
      rfl
    refine ⟨?_, ?_, fun j hj => ?_, fun b => ?_, fun _ _ => hmine, fun h => ?_⟩
    · rw [hcore]
      exact hlaunches
    · rw [TaskTaken, hmine]
      exact ⟨rfl, rfl, rfl, rfl, rfl, rfl⟩
    · rw [State.slot, hcore, Core.slot_modSlot_other _ _ hj]
      exact hother j hj
    · rw [bankAt, State.spad, hcore]
      rfl
    · obtain ⟨hall, hclear⟩ := hready.1 hgo
      rcases h with ⟨b, hlt, hin, hoff⟩ | ⟨hzero, hlen⟩
      · exact absurd (hall b hlt hin).1 (by rw [hoff]; decide)
      · rcases hclear with h | h
        · exact absurd hzero (by rw [h]; decide)
        · exact absurd h hlen
  · rw [if_neg hgo] at ht
    subst ht
    refine ⟨hlaunches, ?_, hother, fun _ => rfl, fun hall hclear => absurd (hready.2 ⟨hall, hclear⟩) hgo, fun _ => hslot⟩
    rw [TaskTaken, hslot]
    exact ⟨rfl, rfl, rfl, rfl, rfl, rfl⟩

/-! A launch that could not be read, or whose descriptor is invalid. -/

theorem foldl_core_rest {β : Type} {p : Nat} {f : State → β → State}
    (h : ∀ (t : State) (b : β), ({ (f t b).core p with spad := t.spad p } : Core) = t.core p) (l : List β) (s : State) :
    ({ (l.foldl f s).core p with spad := s.spad p } : Core) = s.core p := by
  induction l generalizing s with
  | nil => rfl
  | cons b l ih =>
    have hrest := congrArg (fun c : Core => ({ c with spad := s.spad p } : Core)) (ih (f s b))
    exact hrest.trans (h s b)

theorem eccLast_core (s : State) (p w : Nat) (ue scrub : Bool) (q : Nat) : (s.eccLast p w ue scrub).core q = s.core q :=
  core_of_cores (s.setReg_cores _ _ _) q

theorem modSpad_core_rest (s : State) (p : Nat) (f : Spad → Spad) :
    ({ (s.modSpad p f).core p with spad := s.spad p } : Core) = s.core p := by
  rw [State.modSpad, State.core_modCore_same]
  rfl

/-- A read with errors changes the scratchpad alone of its core (R93). -/
theorem eccRead_core (s : State) (p o n : Nat) (err : EccErr) (scrub : Bool) :
    ({ (s.eccRead p o n err scrub).core p with spad := s.spad p } : Core) = s.core p := by
  unfold State.eccRead
  refine foldl_core_rest (fun t w => ?_) _ s
  dsimp only
  split
  · rw [eccLast_core, State.bump_core]
    exact modSpad_core_rest t p _
  · split
    · rw [eccLast_core, State.bump_core]
      exact modSpad_core_rest t p _
    · rfl

/-- A launch that is dropped: its core's flag of the tick is set, and its slots stay (R50 step 1). -/
theorem dropLaunch_spec (s : State) (p : Nat) (l : Launch) :
    ((s.dropLaunch p l).core p).launches = (s.core p).launches
      ∧ SMap.get false ((s.dropLaunch p l).core p).node.dropped (l.tick % 2) = true
      ∧ ∀ j, (s.dropLaunch p l).slot p j = s.slot p j := by
  have hecc := eccRead_core s p l.off 64 ⟨0, 0⟩ false
  unfold State.dropLaunch
  dsimp only
  generalize s.eccRead p l.off 64 ⟨0, 0⟩ false = e at hecc ⊢
  simp only [State.slot, State.core_raiseCore, State.core_notice, State.core_modCore_same, State.bump_core]
  have hlaunches := congrArg Core.launches hecc
  have hslots := fun j => congrArg (fun c : Core => c.slot j) hecc
  exact ⟨hlaunches, SMap.get_set_same _ _ _ _, hslots⟩

theorem taskLaunches : TaskLaunches := by
  intro s c g l rest d i
  refine ⟨fun hl hslot => ?_, fun hlaunches hgid hreload hen hdown hon hclean => ?_⟩
  · obtain ⟨hlaunches, hgid, hreload, hen, hdown, hon, hclean, hd⟩ := hl
    obtain ⟨hinvalid, hvalid⟩ := taskLaunch_read (.intro hlaunches hgid hreload hen hdown hon) (anyUe_of_clean hclean) hd
      (s.launchSlot_of_selected hslot)
    refine ⟨fun hok => ?_, fun hok => ?_⟩
    · obtain ⟨hrest, htaken, hother, hbanks, hready, hwaits⟩ := launch_of_valid (s := s) (p := c.val) (i := i) (d := d) (l := l) (rest := rest) rfl
      have hpu := (slot_launched s c.val i d l rest).2.2.2.2.2.2
      refine ⟨_, hvalid hok, hrest, htaken, hother, fun lo hi hlo hhi => ?_⟩
      generalize (s.launched c.val i d l rest).tryLoad c.val i = t at hready hwaits hbanks ⊢
      subst hlo hhi
      refine ⟨fun hall hclear => ?_, fun h => ?_, fun b hlt hin hoff => ?_⟩
      · have hmine := hready hall (hclear.imp id fun h => by omega)
        rw [hmine]
        exact ⟨rfl, rfl, fun r => reg_loaded _ _ _ r, fun k => rfl, rfl, rfl, rfl, rfl⟩
      · have hmine := hwaits (h.imp id fun ⟨hz, hlt⟩ => ⟨hz, by omega⟩)
        rw [hmine]
        rfl
      · rw [hbanks]
        exact hpu b hlt hin hoff
    · have hcore : ((s.modCore c.val (fun x => { x with launches := rest })).modSlot c.val i (fun sl => sl.taken d l)).core c.val
          = ({ s.core c.val with launches := rest } : Core).modSlot i (fun sl => sl.taken d l) := by
        rw [State.modSlot, State.core_modCore_same, State.core_modCore_same]
      have hexec := hinvalid hok
      generalize (s.modCore c.val (fun x => { x with launches := rest })).modSlot c.val i (fun sl => sl.taken d l) = u at hexec hcore
      have hslot' : u.slot c.val i = (s.slot c.val i).taken d l := by
        rw [State.slot, hcore, Core.slot_modSlot_same]
        rfl
      refine ⟨_, hexec, ?_, ?_, fun hfirst => ?_⟩
      · rw [State.core_takeFault, hcore]
        rfl
      · rw [State.slot_takeFault]
        rfl
      · obtain ⟨-, -, -, -, hrecord, -⟩ := Slot.record_spec (u.slot c.val i) fLaunchInvalid (u.slot c.val i).pc (BitVec.ofNat 64 l.off)
        obtain ⟨hcode, -, haddr, -⟩ := hrecord (by rw [hslot']; exact hfirst)
        rw [State.slot_takeFault]
        exact ⟨hcode, haddr⟩
  · have hue : (s.spad c.val).anyUe l.off 64 = true := by
      rwa [clean_iff, Bool.not_eq_false] at hclean
    obtain ⟨hrest, hdropped, hslots⟩ := dropLaunch_spec (s.modCore c.val (fun x => { x with launches := rest })) c.val l
    refine ⟨_, taskLaunch_unread (.intro hlaunches hgid hreload hen hdown hon) hue, ?_, hdropped, fun j => ?_⟩
    · rw [hrest, State.core_modCore_same]
    · rw [hslots, State.slot, State.core_modCore_same]
      rfl

/-! The end of a task (R51, R242). -/

theorem onlyDue_iff (sl : Slot) : sl.onlyDue = true ↔ ∀ k, k < 16 → sl.token k = .busy → ∃ e ∈ sl.due, e.2.1 = k := by
  simp only [Slot.onlyDue, List.all_eq_true, List.mem_range, Bool.or_eq_true, bne_iff_ne, List.any_eq_true, beq_iff_eq, or_iff_not_imp_left,
    not_not]

theorem le_lastDue {sl : Slot} {e : Nat × Nat × Status} (h : e ∈ sl.due) : e.1 ≤ sl.lastDue := by
  have hfold : ∀ (l : List Nat) (b x : Nat), x ≤ b ∨ x ∈ l → x ≤ l.foldl max b := by
    intro l
    induction l with
    | nil => exact fun b x h => h.resolve_right List.not_mem_nil
    | cons y l ih =>
      intro b x h
      refine ih (max b y) x ?_
      rcases h with h | h
      · exact .inl (h.trans (le_max_left b y))
      · rcases List.mem_cons.1 h with rfl | h
        · exact .inl (le_max_right b x)
        · exact .inr h
  exact hfold _ _ _ (.inr (List.mem_map_of_mem h))

theorem stillOpen_eq_nil (c : Core) (sl : Slot) :
    c.stillOpen sl = [] ↔ ∀ w g, (w, g) ∈ sl.opened → ¬ ((c.spad.win w).isOpen = true ∧ (c.spad.win w).gen = g) := by
  simp only [Core.stillOpen, List.map_eq_nil_iff, List.filter_eq_nil_iff, Bool.and_eq_true, beq_iff_eq, Prod.forall]

theorem core_uncover (s : State) (p lo hi : Nat) :
    ∃ banks, (s.uncover p lo hi).core p = { s.core p with spad := { s.spad p with banks := banks } } := by
  have hfold : ∀ (l : List Nat) (sp : Spad), ∃ banks, l.foldl (fun sp b =>
      if overlapsBank b lo hi then sp.setBank b { sp.bank b with uncoveredAt := s.now } else sp) sp = { sp with banks := banks } := by
    intro l
    induction l with
    | nil => exact fun sp => ⟨sp.banks, rfl⟩
    | cons b l ih =>
      intro sp
      rw [List.foldl_cons]
      split
      · obtain ⟨banks, h⟩ := ih (sp.setBank b { sp.bank b with uncoveredAt := s.now })
        exact ⟨banks, h⟩
      · exact ih sp
  obtain ⟨banks, h⟩ := hfold (List.range 16) (s.spad p)
  refine ⟨banks, ?_⟩
  rw [State.uncover, State.modSpad, State.core_modCore_same, Core.modSpad, show (s.core p).spad = s.spad p from rfl, h]

theorem core_uncover_other (s : State) {p q : Nat} (lo hi : Nat) (h : q ≠ p) : (s.uncover p lo hi).core q = s.core q :=
  s.core_modCore_other _ h

theorem uncover_now (s : State) (p lo hi : Nat) : (s.uncover p lo hi).now = s.now := s.modSpad_now p _

/-- A core that votes notes it at its node. -/
theorem core_tryVote (s : State) (p tick : Nat) : ∃ n, (s.tryVote p tick).core p = { s.core p with node := n } := by
  unfold State.tryVote
  dsimp only
  split
  · rw [core_of_cores (State.modHub_cores _ _ _), State.core_modCore_same]
    exact ⟨_, rfl⟩
  · exact ⟨(s.core p).node, rfl⟩

theorem core_tryVote_other (s : State) {p q : Nat} (tick : Nat) (h : q ≠ p) : (s.tryVote p tick).core q = s.core q := by
  unfold State.tryVote
  dsimp only
  split
  · rw [core_of_cores (State.modHub_cores _ _ _), State.core_modCore_other _ _ h]
  · rfl

theorem tryVote_now (s : State) (p tick : Nat) : (s.tryVote p tick).now = s.now := by
  unfold State.tryVote
  dsimp only
  split
  · rw [State.modHub_now, State.modCore_now]
  · rfl

/-- The end of a task whose tokens are not BUSY, or due, and whose windows are closed. -/
theorem taskEnded_eq {s : State} {a : At} (hmode : (at_ s a).mode = .ending) (hdown : s.coreDown (corep a) = false)
    (hdue : (at_ s a).onlyDue = true) (hopen : (s.core (corep a)).stillOpen (at_ s a) = []) :
    exec (.taskEnded a) s = .next (((((s.advanceTo (at_ s a).lastDue).modSlot (corep a) a.slot.val
        (Slot.ripen (s.advanceTo (at_ s a).lastDue).now)).modSlot (corep a) a.slot.val (fun sl => { sl.freed with tokens := [] })).uncover
          (corep a) (at_ s a).seg.spadBase ((at_ s a).seg.spadBase + (at_ s a).seg.spadBound)).tryVote (corep a) (at_ s a).tick) := by
  have hguard : ((at_ s a).mode != .ending || !(at_ s a).onlyDue || s.coreDown (corep a)) = false := by
    rw [hmode, hdue, hdown]
    rfl
  have hstill : (((s.advanceTo (at_ s a).lastDue).modSlot (corep a) a.slot.val (Slot.ripen (s.advanceTo (at_ s a).lastDue).now)).core
      (corep a)).stillOpen (((s.advanceTo (at_ s a).lastDue).modSlot (corep a) a.slot.val
        (Slot.ripen (s.advanceTo (at_ s a).lastDue).now)).slot (corep a) a.slot.val) = [] := by
    rw [State.slot_modSlot_same, State.modSlot, State.core_modCore_same]
    rw [stillOpen_eq_nil] at hopen ⊢
    rw [Slot.ripen_opened]
    exact hopen
  have hclose : ((s.advanceTo (at_ s a).lastDue).modSlot (corep a) a.slot.val (Slot.ripen (s.advanceTo (at_ s a).lastDue).now)).closeOwned
      (corep a) a.slot.val = (s.advanceTo (at_ s a).lastDue).modSlot (corep a) a.slot.val (Slot.ripen (s.advanceTo (at_ s a).lastDue).now) := by
    rw [State.closeOwned, hstill, List.foldl_nil, ite_self]
  rw [exec_taskEnded, execTaskEnded]
  simp only [show ((s.slot a.core.val a.slot.val).mode != .ending || !(s.slot a.core.val a.slot.val).onlyDue || s.coreDown a.core.val) = false
    from hguard, Bool.false_eq_true, if_false]
  rw [hclose, hstill]
  rfl

theorem taskEnds : TaskEnds := by
  intro s a hmode hdown
  refine ⟨fun hdue hopen => ?_, fun ⟨k, hlt, hbusy, hnot⟩ => ?_⟩
  · have hexec := taskEnded_eq hmode hdown ((onlyDue_iff _).2 hdue) ((stillOpen_eq_nil _ _).2 hopen)
    refine ⟨_, hexec, ?_⟩
    generalize hv : (((s.advanceTo (at_ s a).lastDue).modSlot (corep a) a.slot.val (Slot.ripen (s.advanceTo (at_ s a).lastDue).now)).modSlot
      (corep a) a.slot.val (fun sl => { sl.freed with tokens := [] })) = v
    have hnow : v.now = Nat.max s.now (at_ s a).lastDue := by
      rw [← hv, State.modSlot_now, State.modSlot_now]
      rfl
    have hcore : v.core (corep a) = ((s.core (corep a)).modSlot a.slot.val (Slot.ripen (s.advanceTo (at_ s a).lastDue).now)).modSlot a.slot.val
        (fun sl => { sl.freed with tokens := [] }) := by
      rw [← hv, State.modSlot, State.core_modCore_same, State.modSlot, State.core_modCore_same, State.core_advanceTo]
    have hothers : ∀ q, q ≠ corep a → v.core q = s.core q := fun q hq => by
      rw [← hv, State.modSlot, State.core_modCore_other _ _ hq, State.modSlot, State.core_modCore_other _ _ hq, State.core_advanceTo]
    obtain ⟨banks, huncover⟩ := core_uncover v (corep a) (at_ s a).seg.spadBase ((at_ s a).seg.spadBase + (at_ s a).seg.spadBound)
    have huncovered := fun q => core_uncover_other v (p := corep a) (q := q) (at_ s a).seg.spadBase
      ((at_ s a).seg.spadBase + (at_ s a).seg.spadBound)
    have hlater := uncover_now v (corep a) (at_ s a).seg.spadBase ((at_ s a).seg.spadBase + (at_ s a).seg.spadBound)
    generalize v.uncover (corep a) (at_ s a).seg.spadBase ((at_ s a).seg.spadBase + (at_ s a).seg.spadBound) = w
      at huncover huncovered hlater
    obtain ⟨n, hvote⟩ := core_tryVote w (corep a) (at_ s a).tick
    have hvoted := fun q => core_tryVote_other w (p := corep a) (q := q) (at_ s a).tick
    have hlast := tryVote_now w (corep a) (at_ s a).tick
    generalize w.tryVote (corep a) (at_ s a).tick = t at hvote hvoted hlast
    have hnow' : t.now = Nat.max s.now (at_ s a).lastDue := (hlast.trans hlater).trans hnow
    have hslots : ∀ j, t.slot (corep a) j = (((s.core (corep a)).modSlot a.slot.val (Slot.ripen (s.advanceTo (at_ s a).lastDue).now)).modSlot
        a.slot.val (fun sl => { sl.freed with tokens := [] })).slot j := fun j => by
      rw [State.slot, hvote, huncover, hcore]
      rfl
    have hmine : at_ t a = { ((at_ s a).ripen (s.advanceTo (at_ s a).lastDue).now).freed with tokens := [] } := by
      rw [at_, hslots, Core.slot_modSlot_same, Core.slot_modSlot_same]
      rfl
    have hspad : t.spad (corep a) = { s.spad (corep a) with banks := banks } := by
      rw [State.spad, hvote, huncover, State.spad, hcore]
      rfl
    rw [hmine, hspad, hnow']
    refine ⟨⟨le_max_left _ _, fun e he => (le_lastDue he).trans (le_max_right _ _)⟩, rfl, rfl, rfl, rfl, Slot.ripen_regs _ _,
      Slot.ripen_faultValid _ _, fun j hj => ?_, rfl, fun q hq => ?_⟩
    · rw [hslots, Core.slot_modSlot_other _ _ hj, Core.slot_modSlot_other _ _ hj]
      rfl
    · rw [hvoted q hq, huncovered q hq, hothers q hq]
  · have hnever : ¬ (at_ s a).onlyDue = true := fun h => by
      obtain ⟨e, he, hk⟩ := (onlyDue_iff _).1 h k hlt hbusy
      exact hnot e he hk
    rw [exec_taskEnded, execTaskEnded]
    simp only [show (s.slot a.core.val a.slot.val).onlyDue = false from Bool.eq_false_iff.2 hnever, Bool.not_false, Bool.or_true, Bool.true_or,
      if_true]

/-- Settles O16: a launch's outcomes by its descriptor, and the end of a task once its tokens and windows are done with. -/
theorem taskLaunchesAndEnds : Obligations.TaskLaunchesAndEnds := ⟨taskLaunches, taskEnds⟩

end Sys2Proof.Claims

/-!
SUPPORT. What a completed token, a write of scratchpad bytes and a change of one descriptor do (R43, R44, R75, R93).
-/
namespace Sys2Proof.Machine

/-! A completed token, and the slot that waits for it. -/

theorem Slot.token_setToken_same (sl : Slot) (t : Nat) (v : Token) : (sl.setToken t v).token t = v := by
  rw [Slot.token, Slot.setToken, SMap.get_set_same]

theorem Slot.token_setToken_other (sl : Slot) {t k : Nat} (v : Token) (h : t ≠ k) : (sl.setToken k v).token t = sl.token t := by
  rw [Slot.token, Slot.setToken, SMap.get_set_other _ _ _ _ h, Slot.token]

/-- A token that is not BUSY is not completed again. -/
theorem Slot.token_complete_of_ne (sl : Slot) (k : Nat) (st : Status) {t : Nat} (h : sl.token t ≠ .busy) :
    (sl.complete k st).token t = sl.token t := by
  unfold Slot.complete
  split
  · rename_i hk
    have hne : t ≠ k := fun e => h (e ▸ hk)
    exact sl.token_setToken_other _ hne
  · rfl

theorem Slot.token_complete_same {sl : Slot} {t : Nat} (st : Status) (h : sl.token t = .busy) :
    (sl.complete t st).token t = .completed st := by
  unfold Slot.complete
  rw [h]
  exact sl.token_setToken_same t _

theorem Slot.token_ripen_of_ne (now : Nat) (sl : Slot) {t : Nat} (h : sl.token t ≠ .busy) : (sl.ripen now).token t = sl.token t := by
  have hfold : ∀ (l : List (Nat × Nat × Status)) (x : Slot), x.token t ≠ .busy →
      (l.foldl (fun sl e => sl.complete e.2.1 e.2.2) x).token t = x.token t := by
    intro l
    induction l with
    | nil => exact fun x _ => rfl
    | cons e l ih =>
      intro x hx
      have he := x.token_complete_of_ne e.2.1 e.2.2 hx
      exact (ih _ (by rw [he]; exact hx)).trans he
  unfold Slot.ripen
  split
  · rfl
  · exact hfold _ sl h

/-- A slot that does not wait keeps its tokens but the BUSY ones through the examination of the waits. -/
theorem Core.token_settleSlots_of_ne (now : Nat) (edges : SMap Nat) (is : List Nat) (c : Core) {j t : Nat}
    (h : (c.slot j).mode ≠ .waiting) (ht : (c.slot j).token t ≠ .busy) :
    ((c.settleSlots now edges is).slot j).token t = (c.slot j).token t := by
  induction is generalizing c with
  | nil => rfl
  | cons i is ih =>
    rcases eq_or_ne j i with rfl | hne
    · have hslot : (c.modSlot j (settleSlot now c.spad edges)).slot j = (c.slot j).ripen now := by
        rw [Core.slot_modSlot_same, settleSlot_of_not_waiting _ _ _ h]
      have htok := (c.slot j).token_ripen_of_ne now ht
      have hih := ih (c.modSlot j (settleSlot now c.spad edges)) (by rw [hslot, Slot.ripen_mode]; exact h) (by rw [hslot, htok]; exact ht)
      rw [hslot, htok] at hih
      exact hih
    · have hslot := Core.slot_modSlot_other c (settleSlot now c.spad edges) hne
      have hih := ih (c.modSlot i (settleSlot now c.spad edges)) (by rw [hslot]; exact h) (by rw [hslot]; exact ht)
      rw [hslot] at hih
      exact hih

theorem Core.token_settle_of_ne (now : Nat) (edges : SMap Nat) (c : Core) {j t : Nat}
    (h : (c.slot j).mode ≠ .waiting) (ht : (c.slot j).token t ≠ .busy) :
    ((c.settle now edges).slot j).token t = (c.slot j).token t := by
  have hmode := Slot.sameButTokens_field (Core.slot_settleSlots now edges (List.range 8) c j h) Slot.mode fun _ _ _ => rfl
  rw [Core.settle_eq, Core.slot_deliverAll now _ _ (by rw [hmode]; exact h), Core.token_settleSlots_of_ne _ _ _ _ h ht]

/-- The slot of WAITT that takes its completed token (R75). -/
def Slot.takesToken (now rd t : Nat) (st : Status) (sl : Slot) : Slot := ((sl.consume t).setReg rd (BitVec.ofNat 64 st)).wake now

theorem settleSlot_of_token {now : Nat} (sp : Spad) (edges : SMap Nat) {sl : Slot} {rd t : Nat} {st : Status} (hmode : sl.mode = .waiting)
    (hwait : sl.wait = .token rd t) (ht : sl.token t = .completed st) :
    settleSlot now sp edges sl = (sl.ripen now).takesToken now rd t st := by
  have htok : (sl.ripen now).token t = .completed st := by
    rw [sl.token_ripen_of_ne now (by rw [ht]; exact fun h => nomatch h), ht]
  unfold settleSlot
  dsimp only
  rw [if_neg (by rw [Slot.ripen_mode, hmode]; decide)]
  simp only [Slot.ripen_wait, hwait, htok]
  rfl

theorem Slot.token_setReg (sl : Slot) (r : Nat) (v : Word) (t : Nat) : (sl.setReg r v).token t = sl.token t := by
  unfold Slot.setReg
  split
  · rfl
  · rfl

theorem Slot.takesToken_spec (now rd t : Nat) (st : Status) (sl : Slot) :
    (sl.takesToken now rd t st).mode = .ready ∧ (sl.takesToken now rd t st).token t = .free
      ∧ (sl.takesToken now rd t st).reg rd = if rd = 0 then 0 else BitVec.ofNat 64 st := by
  refine ⟨rfl, ?_, ?_⟩
  · have h := (sl.consume t).token_setReg rd (BitVec.ofNat 64 st) t
    have hfree := sl.token_setToken_same t .free
    exact h.trans hfree
  · have h := (sl.consume t).reg_setReg rd rd (BitVec.ofNat 64 st)
    rw [if_pos rfl] at h
    exact h

/-- The examination of the waits wakes the slot whose token is completed (R75). -/
theorem Core.slot_settle_of_token (now : Nat) (edges : SMap Nat) {c : Core} {i rd t : Nat} {st : Status} (hi : i < 8)
    (hmode : (c.slot i).mode = .waiting) (hwait : (c.slot i).wait = .token rd t) (ht : (c.slot i).token t = .completed st) :
    ((c.settle now edges).slot i).mode = .ready ∧ ((c.settle now edges).slot i).token t = .free
      ∧ ((c.settle now edges).slot i).reg rd = if rd = 0 then 0 else BitVec.ofNat 64 st := by
  have hslots : ∀ (is : List Nat) (c : Core), i ∈ is → (c.slot i).mode = .waiting → (c.slot i).wait = .token rd t →
      (c.slot i).token t = .completed st → ((c.settleSlots now edges is).slot i).mode = .ready
        ∧ ((c.settleSlots now edges is).slot i).token t = .free
        ∧ ((c.settleSlots now edges is).slot i).reg rd = if rd = 0 then 0 else BitVec.ofNat 64 st := by
    intro is
    induction is with
    | nil => exact fun c h => absurd h List.not_mem_nil
    | cons j is ih =>
      intro c hmem hmode hwait ht
      rcases eq_or_ne i j with rfl | hne
      · have hslot : (c.modSlot i (settleSlot now c.spad edges)).slot i = ((c.slot i).ripen now).takesToken now rd t st := by
          rw [Core.slot_modSlot_same, settleSlot_of_token _ _ hmode hwait ht]
        obtain ⟨hready, hfree, hreg⟩ := Slot.takesToken_spec now rd t st ((c.slot i).ripen now)
        have hnot : ((c.modSlot i (settleSlot now c.spad edges)).slot i).mode ≠ .waiting := by
          rw [hslot, hready]
          decide
        have hsame := Core.slot_settleSlots now edges is _ i hnot
        have htok := Core.token_settleSlots_of_ne now edges is _ (t := t) hnot (by rw [hslot, hfree]; decide)
        rw [hslot] at hsame htok
        refine ⟨?_, htok.trans hfree, ?_⟩
        · exact (Slot.sameButTokens_field hsame Slot.mode fun _ _ _ => rfl).trans hready
        · exact (Slot.sameButTokens_field hsame (fun x => x.reg rd) fun _ _ _ => rfl).trans hreg
      · have hslot := Core.slot_modSlot_other c (settleSlot now c.spad edges) hne
        exact ih (c.modSlot j (settleSlot now c.spad edges)) ((List.mem_cons.1 hmem).resolve_left hne) (by rw [hslot]; exact hmode)
          (by rw [hslot]; exact hwait) (by rw [hslot]; exact ht)
  have h := hslots (List.range 8) c (List.mem_range.2 hi) hmode hwait ht
  rw [Core.settle_eq, Core.slot_deliverAll now _ _ (by rw [h.1]; decide)]
  exact h

/-! A write of scratchpad bytes. -/

/-- The bytes of a range behind a write of it. -/
theorem SMap.get_setRange {α : Type} [DecidableEq α] (d e : α) (m : SMap α) (k j : Nat) (vs : List α) :
    SMap.get d (SMap.setRange d m k vs) j = if k ≤ j ∧ j < k + vs.length then vs.getD (j - k) e else SMap.get d m j := by
  induction vs generalizing m k with
  | nil =>
    rw [if_neg (by simp only [List.length_nil]; omega)]
    rfl
  | cons v vs ih =>
    rw [SMap.setRange, ih, List.length_cons]
    rcases lt_trichotomy j k with h | rfl | h
    · rw [if_neg (by omega), if_neg (by omega), SMap.get_set_other _ _ _ _ (by omega)]
    · rw [if_neg (by omega), if_pos (by omega), SMap.get_set_same, Nat.sub_self, List.getD_cons_zero]
    · rw [SMap.get_set_other _ _ _ _ (by omega)]
      refine if_congr (by omega) ?_ rfl
      rw [show j - k = j - (k + 1) + 1 by omega, List.getD_cons_succ]

/-- Core `p` has other scratchpad contents and other notices, and time and ticks are as they were. -/
structure State.SpadAndNode (s t : State) (p : Nat) : Prop where
  now : t.now = s.now
  gen : t.gen = s.gen
  rest : ({ t.core p with spad := s.spad p, node := (s.core p).node } : Core) = s.core p

namespace State.SpadAndNode

theorem refl (s : State) (p : Nat) : s.SpadAndNode s p := ⟨rfl, rfl, rfl⟩

theorem trans {s t u : State} {p : Nat} (h : s.SpadAndNode t p) (k : t.SpadAndNode u p) : s.SpadAndNode u p where
  now := k.now.trans h.now
  gen := k.gen.trans h.gen
  rest := by
    have e := congrArg (fun c : Core => ({ c with spad := s.spad p, node := (s.core p).node } : Core)) k.rest
    exact e.trans h.rest

theorem field {β : Type} {s t : State} {p : Nat} (h : s.SpadAndNode t p) (f : Core → β)
    (hf : ∀ (c : Core) (x : Spad) (n : Node), f { c with spad := x, node := n } = f c) : f (t.core p) = f (s.core p) :=
  (hf _ _ _).symm.trans (congrArg f h.rest)

theorem of_modSpad (s : State) (p : Nat) (f : Spad → Spad) : s.SpadAndNode (s.modSpad p f) p where
  now := s.modSpad_now p f
  gen := s.modSpad_gen p f
  rest := by
    have e := Claims.modSpad_core_rest s p f
    have e' := congrArg (fun c : Core => ({ c with node := (s.core p).node } : Core)) e
    exact e'

theorem of_raiseCore (s : State) (p slot : Nat) (sev : Severity) (code : Nat) (run : Option (Nat × Nat)) (data : Nat) (ahead : Bool) :
    s.SpadAndNode (s.raiseCore p slot sev code run data ahead) p where
  now := s.modCore_now p _
  gen := s.modCore_gen p _
  rest := by
    rw [State.core_raiseCore]
    rfl

end State.SpadAndNode

theorem State.spad_raiseCore (s : State) (p slot : Nat) (sev : Severity) (code : Nat) (run : Option (Nat × Nat)) (data : Nat)
    (ahead : Bool) : (s.raiseCore p slot sev code run data ahead).spad p = s.spad p := by
  rw [State.spad, State.core_raiseCore]
  rfl

theorem State.spad_modSpad (s : State) (p : Nat) (f : Spad → Spad) : (s.modSpad p f).spad p = f (s.spad p) := by
  rw [State.modSpad, State.spad, State.core_modCore_same, Core.spad_modSpad, State.spad]

/-- A write of bytes changes them, the codes of the words and the notices of the core, and nothing else of it (R93). -/
theorem State.spadWrite_spec (s : State) (p o : Nat) (bs : List Byte) (dbl : Nat → Bool) :
    s.SpadAndNode (s.spadWrite p o bs dbl) p
      ∧ ((s.spadWrite p o bs dbl).spad p).bytes = SMap.setRange 0 (s.spad p).bytes o bs := by
  have hfold : ∀ (l : List Nat) (u : State),
      u.SpadAndNode (l.foldl (fun s w => s.raiseCore p 0 .degraded 0x11 none w false) u) p
        ∧ (l.foldl (fun s w => s.raiseCore p 0 .degraded 0x11 none w false) u).spad p = u.spad p := by
    intro l
    induction l with
    | nil => exact fun u => ⟨.refl u p, rfl⟩
    | cons w l ih =>
      intro u
      obtain ⟨hnode, hspad⟩ := ih (u.raiseCore p 0 .degraded 0x11 none w false)
      exact ⟨(State.SpadAndNode.of_raiseCore u p _ _ _ _ _ _).trans hnode, hspad.trans (u.spad_raiseCore _ _ _ _ _ _ _)⟩
  unfold State.spadWrite
  dsimp only
  refine ⟨?_, ?_⟩
  · exact (State.SpadAndNode.of_modSpad s p _).trans ((State.SpadAndNode.of_modSpad _ p _).trans (hfold _ _).1)
  · rw [(hfold _ _).2, State.spad_modSpad, State.spad_modSpad]
    rfl

theorem State.touchPlain_spadAndNode (s : State) (p : Nat) (isWrite : Bool) (o n : Nat) :
    s.SpadAndNode (s.touchPlain p isWrite o n) p := State.SpadAndNode.of_modSpad s p _

theorem State.spad_touchPlain_bytes (s : State) (p : Nat) (isWrite : Bool) (o n : Nat) :
    ((s.touchPlain p isWrite o n).spad p).bytes = (s.spad p).bytes := by
  rw [State.spad_touchPlain, Spad.touchPlain_bytes]

end Sys2Proof.Machine

namespace Sys2Proof.Claims

open Sys2Proof.Machine

theorem bytesWritten_of_bytes {s t : State} {p o : Nat} {bs : List Byte} (h : (t.spad p).bytes = SMap.setRange 0 (s.spad p).bytes o bs) :
    BytesWritten s t p o bs := by
  intro x
  rw [sbyte, h, SMap.get_setRange 0 0]
  rfl

/-! Completions of descriptors. -/

/-- The end of a completion: its status word and its token (R43, R44). -/
theorem completeDesc_spec (u : State) (p slot tok off word st : Nat) (hslot : slot < 8) :
    BytesWritten u (u.completeDesc p slot tok off word st) p (off + 56) (leBytes 4 word)
      ∧ (∀ {β : Type} (f : Core → β), (∀ (c : Core) (m : SMap Slot) (x : Spad) (n : Node), f { c with slots := m, spad := x, node := n } = f c) →
          f ((u.completeDesc p slot tok off word st).core p) = f (u.core p))
      ∧ ((u.slot p slot).token tok = .busy → (u.slot p slot).mode ≠ .waiting →
          ((u.completeDesc p slot tok off word st).slot p slot).token tok = .completed st)
      ∧ (∀ rd, (u.slot p slot).token tok = .busy → (u.slot p slot).mode = .waiting → (u.slot p slot).wait = .token rd tok →
          ((u.completeDesc p slot tok off word st).slot p slot).mode = .ready
            ∧ ((u.completeDesc p slot tok off word st).slot p slot).token tok = .free
            ∧ ((u.completeDesc p slot tok off word st).slot p slot).reg rd = if rd = 0 then 0 else BitVec.ofNat 64 st) := by
  obtain ⟨hwrites, hbytes⟩ := (u.touchPlain p true (off + 56) 4).spadWrite_spec p (off + 56) (leBytes 4 word) (fun _ => false)
  have hkeeps := (u.touchPlain_spadAndNode p true (off + 56) 4).trans hwrites
  rw [State.spad_touchPlain_bytes] at hbytes
  have hdone : u.completeDesc p slot tok off word st
      = ((u.touchPlain p true (off + 56) 4).spadWrite p (off + 56) (leBytes 4 word)).completeToken p slot tok st := rfl
  rw [hdone]
  generalize (u.touchPlain p true (off + 56) 4).spadWrite p (off + 56) (leBytes 4 word) = w at hkeeps hbytes ⊢
  have hcore : (w.completeToken p slot tok st).core p
      = ((w.core p).modSlot slot (fun sl => sl.complete tok st)).settle w.now w.gen.lastEdge := by
    rw [State.completeToken, State.settle, State.core_modCore_same, State.modSlot_now, State.modSlot_gen, State.modSlot,
      State.core_modCore_same]
  have hold : w.slot p slot = u.slot p slot := hkeeps.field (fun c => c.slot slot) fun _ _ _ => rfl
  have hnew : ((w.core p).modSlot slot (fun sl => sl.complete tok st)).slot slot = (u.slot p slot).complete tok st := by
    rw [Core.slot_modSlot_same, ← hold]
    rfl
  have hsame := (u.slot p slot).complete_sameButTokens tok st
  have hmode : ((u.slot p slot).complete tok st).mode = (u.slot p slot).mode := Slot.sameButTokens_field hsame Slot.mode fun _ _ _ => rfl
  have hwait : ((u.slot p slot).complete tok st).wait = (u.slot p slot).wait := Slot.sameButTokens_field hsame Slot.wait fun _ _ _ => rfl
  refine ⟨bytesWritten_of_bytes ?_, fun {β} f hf => ?_, fun hbusy hnot => ?_, fun rd hbusy hwaiting hon => ?_⟩
  · rw [State.spad, hcore, Core.settle_field _ _ _ Core.spad fun _ _ _ => rfl, ← hbytes]
    rfl
  · rw [hcore, Core.settle_field _ _ _ f fun c m n => hf c m c.spad n]
    exact (hf (w.core p) _ (w.core p).spad (w.core p).node).trans (hkeeps.field f fun c x n => hf c c.slots x n)
  · rw [State.slot, hcore, Core.token_settle_of_ne]
    · rw [hnew, Slot.token_complete_same st hbusy]
    · rw [hnew, hmode]
      exact hnot
    · rw [hnew, Slot.token_complete_same st hbusy]
      exact fun h => nomatch h
  · rw [State.slot, hcore]
    exact Core.slot_settle_of_token _ _ hslot (by rw [hnew, hmode]; exact hwaiting) (by rw [hnew, hwait]; exact hon)
      (by rw [hnew, Slot.token_complete_same st hbusy])

end Sys2Proof.Claims

/-!
SUPPORT. Completions of descriptors (R43, R44, R48, R135).
-/
namespace Sys2Proof.Machine

theorem State.core_modDma (s : State) (p : Nat) (f : Dma → Dma) : (s.modDma p f).core p = (s.core p).modDma f := by
  rw [State.modDma, State.core_modCore_same]

/-- A change of one descriptor (R43). -/
def DmaDesc.changed (id : Nat) (f : DmaDesc → DmaDesc) (d : DmaDesc) : DmaDesc := if d.id = id then f d else d

theorem State.core_modDesc (s : State) (p id : Nat) (f : DmaDesc → DmaDesc) : (s.modDesc p id f).core p
    = (s.core p).modDma (fun m => { m with queue := m.queue.map (DmaDesc.changed id f), stopping := m.stopping.map (DmaDesc.changed id f) }) := by
  rw [State.modDesc, State.core_modDma]
  rfl

theorem State.addHash_cores (s : State) (tick h : Nat) : (s.addHash tick h).cores = s.cores := rfl

theorem State.engineDone_cores (s : State) (p cnt err : Nat) (d : EngDesc) (st : Status) : (s.engineDone p cnt err d st).cores = s.cores := by
  unfold State.engineDone
  dsimp only
  split
  · rfl
  · rw [State.setReg_cores]
    rfl

/-- The first descriptor of a queue leaves it. -/
def Core.dropMxu (c : Core) : Core := { c with mxu := { c.mxu with queue := c.mxu.queue.tail } }
def Core.dropVec (c : Core) : Core := { c with vec := { c.vec with queue := c.vec.queue.tail } }

/-- The other descriptors are not those of a changed number. -/
theorem filter_map_changed (l : List DmaDesc) (id : Nat) {f : DmaDesc → DmaDesc} (hf : ∀ d, (f d).id = d.id) :
    (l.map (DmaDesc.changed id f)).filter (fun e => e.id != id) = l.filter (fun e => e.id != id) := by
  induction l with
  | nil => rfl
  | cons d l ih =>
    by_cases h : d.id = id
    · have hid : (DmaDesc.changed id f d).id = id := by
        rw [DmaDesc.changed, if_pos h, hf, h]
      rw [List.map_cons, List.filter_cons_of_neg (by simp [hid]), List.filter_cons_of_neg (by simp [h]), ih]
    · have hsame : DmaDesc.changed id f d = d := if_neg h
      rw [List.map_cons, hsame, List.filter_cons_of_pos (by simp [h]), List.filter_cons_of_pos (by simp [h]), ih]

/-- A core that has lost descriptors and gained credits to return, and is else as it was. -/
theorem State.core_creditsDue (s : State) (p : Nat) (d : DmaDesc) : ∃ returns, (s.creditsDue p d).core p
    = (s.core p).modDma (fun m => { m with
        returns := returns
        queue := m.queue.map (DmaDesc.changed d.id (fun d => { d with owed := [] }))
        stopping := m.stopping.map (DmaDesc.changed d.id (fun d => { d with owed := [] })) }) := by
  refine ⟨(s.core p).dma.returns ++ (s.unused p d).map (fun (e : Nat × GrantRef) =>
    ({ desc := d.id, outstanding := d.outstanding, target := e.1, ref := e.2 } : CreditDue)), ?_⟩
  unfold State.creditsDue
  dsimp only
  rw [State.core_modDesc, State.core_modDma]
  rfl

end Sys2Proof.Machine

namespace Sys2Proof.Claims

open Sys2Proof.Machine

/-- The panel before a completion's status word and token: the slot's waits, its tokens and the scratchpad are as they were. -/
structure EngineLeft (s u : State) (p slot : Nat) : Prop where
  tokens : (u.slot p slot).tokens = (s.slot p slot).tokens
  mode : (u.slot p slot).mode = (s.slot p slot).mode
  wait : (u.slot p slot).wait = (s.slot p slot).wait
  bytes : (u.spad p).bytes = (s.spad p).bytes

theorem completion_of_engineLeft {s u : State} {p slot tok off word st : Nat} (h : EngineLeft s u p slot) (hslot : slot < 8) :
    BytesWritten s (u.completeDesc p slot tok off word st) p (off + 56) (leBytes 4 word)
      ∧ ((s.slot p slot).token tok = .busy → (s.slot p slot).mode ≠ .waiting →
          ((u.completeDesc p slot tok off word st).slot p slot).token tok = .completed st)
      ∧ (∀ rd, (s.slot p slot).token tok = .busy → (s.slot p slot).mode = .waiting → (s.slot p slot).wait = .token rd tok →
          ((u.completeDesc p slot tok off word st).slot p slot).mode = .ready
            ∧ ((u.completeDesc p slot tok off word st).slot p slot).token tok = .free
            ∧ ((u.completeDesc p slot tok off word st).slot p slot).reg rd = if rd = 0 then 0 else BitVec.ofNat 64 st) := by
  obtain ⟨hbytes, -, hbusy, hwaits⟩ := completeDesc_spec u p slot tok off word st hslot
  have htok : (u.slot p slot).token tok = (s.slot p slot).token tok := by
    rw [Slot.token, h.tokens, Slot.token]
  rw [htok, h.mode] at hbusy hwaits
  rw [h.wait] at hwaits
  refine ⟨fun x => ?_, hbusy, hwaits⟩
  rw [hbytes x, sbyte, sbyte, h.bytes]

/-- A matrix or vector descriptor leaves its queue (R43, R135). -/
theorem engineLeft_of_dropped {s u : State} {p slot now : Nat} {flags : BitVec 6} {drop : Core → Core}
    (hu : u.core p = (drop (s.core p)).modSlot slot (fun sl => sl.mergeFlags now flags))
    (hslots : (drop (s.core p)).slots = (s.core p).slots) (hspad : (drop (s.core p)).spad = (s.core p).spad) :
    EngineLeft s u p slot := by
  have hold : (drop (s.core p)).slot slot = s.slot p slot := by
    rw [Core.slot, hslots]
    rfl
  have hslot : u.slot p slot = (s.slot p slot).mergeFlags now flags := by
    rw [State.slot, hu, Core.slot_modSlot_same, hold]
  refine ⟨?_, ?_, ?_, ?_⟩
  · rw [hslot]
    rfl
  · rw [hslot]
    rfl
  · rw [hslot]
    rfl
  · rw [State.spad, hu, Core.modSlot_spad, hspad]
    rfl

/-- The panel from which a matrix or vector descriptor completes. -/
def engineDropped (s : State) (p cnt err : Nat) (d : EngDesc) (st : Status) (drop : Core → Core) : State :=
  ((s.modCore p drop).modSlot p d.slot (fun sl => sl.mergeFlags s.now d.flags)).engineDone p cnt err d st

theorem core_engineDropped (s : State) (p cnt err : Nat) (d : EngDesc) (st : Status) (drop : Core → Core) :
    (engineDropped s p cnt err d st drop).core p = (drop (s.core p)).modSlot d.slot (fun sl => sl.mergeFlags s.now d.flags) := by
  rw [engineDropped, core_of_cores (State.engineDone_cores _ _ _ _ _ _), State.modSlot, State.core_modCore_same, State.core_modCore_same]

/-- The panel from which a DMA descriptor completes. -/
def dmaDropped (s : State) (p id : Nat) (d : DmaDesc) (st : Status) : State :=
  if st = stOk then ((s.creditsDue p d).modDma p (fun m => { m with queue := m.queue.filter (fun e => e.id != id) })).addHash d.tick d.hash
  else (s.creditsDue p d).modDma p (fun m => { m with queue := m.queue.filter (fun e => e.id != id) })

theorem core_dmaDropped (s : State) (p : Nat) (d : DmaDesc) (st : Status) : ∃ stopping returns, (dmaDropped s p d.id d st).core p
    = (s.core p).modDma (fun m => { m with
        returns := returns, stopping := stopping, queue := m.queue.filter (fun e => e.id != d.id) }) := by
  obtain ⟨returns, hcore⟩ := s.core_creditsDue p d
  refine ⟨(s.core p).dma.stopping.map (DmaDesc.changed d.id (fun d => { d with owed := [] })), returns, ?_⟩
  have hdropped : (dmaDropped s p d.id d st).core p
      = ((s.creditsDue p d).core p).modDma (fun m => { m with queue := m.queue.filter (fun e => e.id != d.id) }) := by
    rw [← State.core_modDma]
    unfold dmaDropped
    split
    · exact core_of_cores (State.addHash_cores _ _ _) p
    · rfl
  have hqueue := filter_map_changed (s.core p).dma.queue d.id (f := fun d => { d with owed := [] }) fun _ => rfl
  rw [hdropped, hcore]
  simp only [Core.modDma, hqueue]

theorem mxuCompletion_eq {s : State} {c : CoreIx} {d : EngDesc} {q : List EngDesc} {st : Nat} (hq : (s.core c.val).mxu.queue = d :: q)
    (hst : d.finished = some st) : exec (.descriptorCompletion c .matrix) s = .next
      ((engineDropped s c.val rMXU_DESC_COUNT rMXU_LAST_ERROR d st Core.dropMxu).completeDesc
        c.val d.slot d.token d.off (st + 256 * b2n d.qovf) st) := by
  rw [exec_descriptorCompletion, execDescriptorCompletion]
  simp only [hq, hst]
  rfl

theorem vecCompletion_eq {s : State} {c : CoreIx} {d : EngDesc} {q : List EngDesc} {st : Nat} (hq : (s.core c.val).vec.queue = d :: q)
    (hst : d.finished = some st) : exec (.descriptorCompletion c .vector) s = .next
      ((engineDropped s c.val rVEC_DESC_COUNT rVEC_LAST_ERROR d st Core.dropVec).completeDesc
        c.val d.slot d.token d.off (st + 256 * b2n d.qovf) st) := by
  rw [exec_descriptorCompletion, execDescriptorCompletion]
  simp only [hq, hst]
  rfl

theorem dmaCompletion_eq {s : State} {c : CoreIx} {id : Nat} {d : DmaDesc} {st : Status}
    (hq : (s.core c.val).dma.queue.find? (fun e => e.id == id) = some d) (hst : d.finished = some st) :
    exec (.descriptorCompletion c (.dma id)) s = .next ((dmaDropped s c.val id d st).completeDesc c.val d.slot d.token d.off st st) := by
  rw [exec_descriptorCompletion, execDescriptorCompletion]
  simp only [hq, hst]
  rfl

theorem overflowWord (st : Nat) (b : Bool) : st + 256 * b2n b = st + if b = true then 256 else 0 := by
  cases b
  · rfl
  · rfl

theorem descriptorCompletions : DescriptorCompletions := by
  intro s c eng slot tok off word st hfin hslot
  cases eng with
  | matrix =>
    obtain ⟨d, q, hq, hst, rfl, rfl, rfl, hword⟩ := hfin
    rw [← overflowWord] at hword
    subst hword
    have hcore := core_engineDropped s c.val rMXU_DESC_COUNT rMXU_LAST_ERROR d st Core.dropMxu
    refine ⟨_, mxuCompletion_eq hq hst, ?_⟩
    generalize engineDropped s c.val rMXU_DESC_COUNT rMXU_LAST_ERROR d st Core.dropMxu = u at hcore ⊢
    obtain ⟨hbytes, hbusy, hwaits⟩ := completion_of_engineLeft (tok := d.token) (off := d.off) (word := st + 256 * b2n d.qovf) (st := st)
      (engineLeft_of_dropped (drop := Core.dropMxu) hcore rfl rfl) hslot
    have hfield := (completeDesc_spec u c.val d.slot d.token d.off (st + 256 * b2n d.qovf) st hslot).2.1 Core.mxu fun _ _ _ _ => rfl
    have hdrop : (u.core c.val).mxu = (Core.dropMxu (s.core c.val)).mxu := by
      rw [hcore]
      rfl
    have hqueue : ((u.completeDesc c.val d.slot d.token d.off (st + 256 * b2n d.qovf) st).core c.val).mxu.queue
        = (s.core c.val).mxu.queue.tail := by
      rw [hfield, hdrop]
      rfl
    refine ⟨hbytes, hbusy, hwaits, ?_⟩
    dsimp only
    exact hqueue
  | vector =>
    obtain ⟨d, q, hq, hst, rfl, rfl, rfl, hword⟩ := hfin
    rw [← overflowWord] at hword
    subst hword
    have hcore := core_engineDropped s c.val rVEC_DESC_COUNT rVEC_LAST_ERROR d st Core.dropVec
    refine ⟨_, vecCompletion_eq hq hst, ?_⟩
    generalize engineDropped s c.val rVEC_DESC_COUNT rVEC_LAST_ERROR d st Core.dropVec = u at hcore ⊢
    obtain ⟨hbytes, hbusy, hwaits⟩ := completion_of_engineLeft (tok := d.token) (off := d.off) (word := st + 256 * b2n d.qovf) (st := st)
      (engineLeft_of_dropped (drop := Core.dropVec) hcore rfl rfl) hslot
    have hfield := (completeDesc_spec u c.val d.slot d.token d.off (st + 256 * b2n d.qovf) st hslot).2.1 Core.vec fun _ _ _ _ => rfl
    have hdrop : (u.core c.val).vec = (Core.dropVec (s.core c.val)).vec := by
      rw [hcore]
      rfl
    have hqueue : ((u.completeDesc c.val d.slot d.token d.off (st + 256 * b2n d.qovf) st).core c.val).vec.queue
        = (s.core c.val).vec.queue.tail := by
      rw [hfield, hdrop]
      rfl
    refine ⟨hbytes, hbusy, hwaits, ?_⟩
    dsimp only
    exact hqueue
  | dma id =>
    obtain ⟨d, hq, hst, rfl, rfl, rfl, rfl⟩ := hfin
    have hbeq := List.find?_some hq
    have hid : d.id = id := beq_iff_eq.1 hbeq
    subst hid
    obtain ⟨stopping, returns, hcore⟩ := core_dmaDropped s c.val d word
    have hleft : EngineLeft s (dmaDropped s c.val d.id d word) c.val d.slot := by
      have hslots : (dmaDropped s c.val d.id d word).slot c.val d.slot = s.slot c.val d.slot := by
        rw [State.slot, hcore]
        rfl
      exact ⟨by rw [hslots], by rw [hslots], by rw [hslots], by rw [State.spad, hcore]; rfl⟩
    obtain ⟨hbytes, hbusy, hwaits⟩ := completion_of_engineLeft (tok := d.token) (off := d.off) (word := word) (st := word) hleft hslot
    refine ⟨_, dmaCompletion_eq hq hst, hbytes, hbusy, hwaits, ?_⟩
    have hqueue := (completeDesc_spec (dmaDropped s c.val d.id d word) c.val d.slot d.token d.off word word hslot).2.1
      (fun c => c.dma.queue) fun _ _ _ _ => rfl
    exact hqueue.trans (by rw [hcore]; rfl)

end Sys2Proof.Claims

/-!
SUPPORT. A descriptor's next access, and the targets of a multicast (R43, R48, R214 to R217).
-/
namespace Sys2Proof.Machine

/-- The descriptor of a number behind its change (R43). -/
theorem Dma.find_changed (q l : List DmaDesc) (id : Nat) {f : DmaDesc → DmaDesc} (hf : ∀ e, e.id = id → (f e).id = id) :
    (q.map (DmaDesc.changed id f) ++ l.map (DmaDesc.changed id f)).find? (fun d => d.id == id)
      = ((q ++ l).find? (fun d => d.id == id)).map f := by
  have hkeep : (fun d : DmaDesc => d.id == id) ∘ DmaDesc.changed id f = fun d => d.id == id := by
    funext d
    by_cases h : d.id = id
    · simp [DmaDesc.changed, h, hf d h]
    · simp [DmaDesc.changed, h]
  rw [← List.map_append, List.find?_map, hkeep]
  cases hd : (q ++ l).find? (fun d => d.id == id) with
  | none => rfl
  | some d =>
    have hbeq := List.find?_some hd
    have hid : d.id = id := beq_iff_eq.1 hbeq
    rw [Option.map_some, Option.map_some, DmaDesc.changed, if_pos hid]

theorem State.dmaFind_modDesc (s : State) (p id : Nat) {f : DmaDesc → DmaDesc} (hf : ∀ e, e.id = id → (f e).id = id) :
    (s.modDesc p id f).dmaFind p id = (s.dmaFind p id).map f := by
  have h := Dma.find_changed (s.core p).dma.queue (s.core p).dma.stopping id hf
  rw [State.dmaFind, State.core_modDesc]
  exact h

theorem State.dmaFind_of_dma {s t : State} {p : Nat} (h : (t.core p).dma = (s.core p).dma) (id : Nat) : t.dmaFind p id = s.dmaFind p id := by
  rw [State.dmaFind, h, State.dmaFind]

/-! A new access. -/

/-- An access of a descriptor of core `p` (R43). -/
structure Access.IsOf (x : Access) (p desc addr : Nat) (kind : AccessKind) : Prop where
  core : x.core = p
  desc : x.desc = desc
  addr : x.addr = addr
  kind : x.kind = kind

theorem State.access_setAccess_same (s : State) (id : Nat) (a : Option Access) : (s.setAccess id a).access id = a := by
  rw [State.access, State.setAccess, SMap.get_set_same]

theorem State.access_of_accesses {s t : State} (h : t.mesh.accesses = s.mesh.accesses) (id : Nat) : t.access id = s.access id := by
  rw [State.access, h, State.access]

theorem State.sendRequest_rest (s : State) (id : Nat) (a : Access) (mid : Option Nat) :
    (s.sendRequest id a mid).mesh.accesses = s.mesh.accesses ∧ (s.sendRequest id a mid).cores = s.cores := by
  unfold State.sendRequest
  split
  · exact ⟨rfl, rfl⟩
  · exact ⟨rfl, rfl⟩

theorem State.drawMid_rest (s : State) (key a b : Nat) :
    (s.drawMid key a b).2.mesh.accesses = s.mesh.accesses ∧ (s.drawMid key a b).2.cores = s.cores := by
  unfold State.drawMid
  dsimp only
  split
  · exact ⟨rfl, rfl⟩
  · exact ⟨rfl, rfl⟩

/-- What a new access leaves: the access under its number, and the engine's queues. -/
structure State.Accesses (s t : State) (p id desc addr : Nat) (kind : AccessKind) : Prop where
  dma : (t.core p).dma = (s.core p).dma
  access : ∃ x, t.access id = some x ∧ x.IsOf p desc addr kind

theorem State.Accesses.of_rest {s t u : State} {p id desc addr : Nat} {kind : AccessKind} (h : s.Accesses t p id desc addr kind)
    (hu : u.mesh.accesses = t.mesh.accesses) (hcores : u.cores = t.cores) : s.Accesses u p id desc addr kind where
  dma := by rw [Claims.core_of_cores hcores, h.dma]
  access := by rw [State.access_of_accesses hu]; exact h.access

theorem State.Accesses.of_modBank {s t : State} {p id desc addr b : Nat} {kind : AccessKind} (f : Bank → Bank)
    (h : s.Accesses t p id desc addr kind) : s.Accesses (t.modBank p b f) p id desc addr kind where
  dma := by
    rw [State.modBank, State.modSpad, State.core_modCore_same]
    exact h.dma
  access := by
    rw [State.access_of_accesses (congrArg Mesh.accesses (t.modBank_mesh p b f))]
    exact h.access

theorem State.Accesses.setAccess {s t : State} {p id desc addr : Nat} {kind : AccessKind} (h : s.Accesses t p id desc addr kind)
    {x : Access} (hx : x.IsOf p desc addr kind) : s.Accesses (t.setAccess id (some x)) p id desc addr kind where
  dma := h.dma
  access := ⟨x, t.access_setAccess_same id _, hx⟩

theorem State.issueAccess_spec (s : State) (p : Nat) (d : DmaDesc) (row col : Nat) (kind : AccessKind) (addr : Nat)
    (grant : Option GrantRef) : s.Accesses (s.issueAccess p d row col kind addr grant) p s.mesh.nextAccess d.id addr kind := by
  unfold State.issueAccess
  dsimp only
  generalize hid : s.mesh.nextAccess = id
  generalize ha : ({ core := p, desc := d.id, row := row, col := col, kind := kind, addr := addr, patch := d.patch,
                      tick := d.tick, att := d.att, grant := grant, stage := .requesting, injectedAt := s.now, status := stOk, data := [],
                      answer := none, valiant := false } : Access) = a
  have hof : a.IsOf p d.id addr kind := by
    rw [← ha]
    exact ⟨rfl, rfl, rfl, rfl⟩
  generalize hu : ({ (s.setAccess id (some a)) with mesh := { (s.setAccess id (some a)).mesh with nextAccess := id + 1 } } : State) = u
  have hnew : s.Accesses u p id d.id addr kind := by
    rw [← hu]
    refine ⟨rfl, a, ?_, hof⟩
    exact (State.access_of_accesses rfl id).trans (s.access_setAccess_same id (some a))
  have hsent : ∀ (t : State), s.Accesses t p id d.id addr kind → ∀ mid, s.Accesses (t.sendRequest id a mid) p id d.id addr kind :=
    fun t ht mid => ht.of_rest (t.sendRequest_rest id a mid).1 (t.sendRequest_rest id a mid).2
  split
  · split
    · exact hnew.of_modBank _
    · exact hsent u hnew _
  · split
    · exact hnew.of_modBank _
    · exact hsent u hnew _
  · exact hnew.setAccess ⟨rfl, rfl, rfl, rfl⟩
  · split
    · split
      · rename_i die _ _
        have hdrawn := hnew.of_rest (u.drawMid_rest p ((u.gid p).getD 0 / 48) die).1 (u.drawMid_rest p ((u.gid p).getD 0 / 48) die).2
        exact hsent _ (hdrawn.setAccess ⟨rfl, rfl, rfl, rfl⟩) _
      · exact hsent u hnew _
    · exact hsent u hnew _

end Sys2Proof.Machine

namespace Sys2Proof.Claims

open Sys2Proof.Machine

/-! The source reads of a multicast, and a held start. -/

/-- The first access of a descriptor starts it (R43). -/
def mcastStarted (s : State) (p : Nat) (d : DmaDesc) : State :=
  if d.started then s else s.modDesc p d.id (fun e => { e with started := true, valiant := s.chooseValiant p })

theorem dmaFind_mcastStarted {s : State} {p : Nat} {d : DmaDesc} (h : s.dmaFind p d.id = some d) :
    ∃ v, (mcastStarted s p d).dmaFind p d.id = some { d with started := true, valiant := v } := by
  unfold mcastStarted
  split
  · rename_i hstarted
    refine ⟨d.valiant, h.trans ?_⟩
    rw [← hstarted]
  · refine ⟨s.chooseValiant p, ?_⟩
    rw [State.dmaFind_modDesc s p d.id (f := fun e => { e with started := true, valiant := s.chooseValiant p }) fun _ he => he, h]
    rfl

theorem mcast_eq {s : State} {c : CoreIx} {d : DmaDesc} (h : DmaGoes s c.val d) (hop : d.op = .mcast) (hre : d.resending = false) :
    ∃ e n, e.id = d.id ∧ n = min (64 - (d.src + d.col) % 64) (d.col / 64 * 64 + 64 - d.col)
      ∧ exec (.mcast c d.id) s = .next (((mcastStarted s c.val d).modDesc c.val d.id (fun x => { (x.step n) with outstanding := x.outstanding + 1 })).issueAccess
          c.val e 0 d.col (.read n) (d.src + d.col) none) := by
  obtain ⟨hfind, hfin, hstop, hrow, hdown, hstart⟩ := h
  refine ⟨{ d with valiant := (((mcastStarted s c.val d).dmaFind c.val d.id).getD d).valiant }, _, rfl, rfl, ?_⟩
  rw [exec_mcast, execMcast]
  simp only [hfind, hre, hdown, hop, hfin, hstop]
  have hgo : (d.started && decide (d.rows ≤ d.row)) = false := by
    rw [decide_eq_false (Nat.not_le.2 hrow), Bool.and_false]
  have hmay : (!d.started && !(s.core c.val).dma.mayStart d) = false := by
    rcases hstart with h | h
    · rw [h]
      rfl
    · rw [h, Bool.not_true, Bool.and_false]
  rw [if_neg (by decide), if_neg (by rw [hgo]; decide), if_neg (by rw [hmay]; decide)]
  rfl

theorem sourceRead {s : State} {c : CoreIx} {d : DmaDesc} (h : DmaGoes s c.val d) (hop : d.op = .mcast) (hre : d.resending = false) :
    ∃ t x d' n, exec (.mcast c d.id) s = .next t
        ∧ t.access s.mesh.nextAccess = some x ∧ x.core = c.val ∧ x.desc = d.id ∧ x.addr = d.src + d.col
        ∧ x.kind = .read n ∧ n ≤ 64 ∧ (d.src + d.col) % 64 + n ≤ 64
        ∧ t.dmaFind c.val d.id = some d' ∧ d'.started = true ∧ d'.outstanding = d.outstanding + 1 := by
  obtain ⟨e, n, hid, hn, hexec⟩ := mcast_eq h hop hre
  obtain ⟨v, hstarted⟩ := dmaFind_mcastStarted h.1
  have hstep : ∀ x : DmaDesc, (x.step n).id = x.id ∧ (x.step n).started = x.started := by
    intro x
    unfold DmaDesc.step
    split
    · exact ⟨rfl, rfl⟩
    · exact ⟨rfl, rfl⟩
  have hfind := State.dmaFind_modDesc (mcastStarted s c.val d) c.val d.id
    (f := fun x => { (x.step n) with outstanding := x.outstanding + 1 }) fun x hx => (hstep x).1.trans hx
  have hnext : ((mcastStarted s c.val d).modDesc c.val d.id (fun x => { (x.step n) with outstanding := x.outstanding + 1 })).mesh.nextAccess
      = s.mesh.nextAccess := by
    unfold mcastStarted
    split
    · rfl
    · rfl
  rw [hstarted] at hfind
  generalize (mcastStarted s c.val d).modDesc c.val d.id (fun x => { (x.step n) with outstanding := x.outstanding + 1 }) = u at hexec hfind hnext
  obtain ⟨hdma, x, hx, hcore, hdesc, haddr, hkind⟩ := u.issueAccess_spec c.val e 0 d.col (.read n) (d.src + d.col) none
  refine ⟨_, x, _, n, hexec, ?_, hcore, hdesc.trans hid, haddr, hkind, ?_, ?_, (State.dmaFind_of_dma hdma _).trans hfind, ?_, rfl⟩
  · rw [← hnext]
    exact hx
  · rw [hn]
    exact (Nat.min_le_left _ _).trans (Nat.sub_le _ _)
  · have hle : n ≤ 64 - (d.src + d.col) % 64 := hn ▸ Nat.min_le_left _ _
    have hlt := Nat.mod_lt (d.src + d.col) (show 0 < 64 by decide)
    omega
  · exact (hstep _).2

theorem coreOnly_trans {s t u : State} {p : Nat} (h : CoreOnly s t p) (k : CoreOnly t u p) : CoreOnly s u p := by
  obtain ⟨hcores, hrest⟩ := h
  obtain ⟨kcores, krest⟩ := k
  have e := congrArg (fun x : State => ({ x with cores := s.cores } : State)) krest
  exact ⟨fun q hq => (kcores q hq).trans (hcores q hq), e.trans hrest⟩

/-- The slot of a held DXI behind its start (R260). -/
def heldSlot (now : Nat) (sl : Slot) : Slot :=
  match sl.wait with
  | .held (.dxi rd k) => (sl.setReg rd (BitVec.ofNat 64 k)).wake now
  | _ => sl

theorem heldStart {s : State} {c : CoreIx} {d : DmaDesc} (h : (s.core c.val).dma.waiting.find? (fun e => !e.held) = some d)
    (hroom : (s.core c.val).dma.queue.length < 16) {rd k : Nat} (hwait : (s.slot c.val d.slot).wait = .held (.dxi rd k)) :
    ∃ t, exec (.heldDxiEnqueue c) s = .next t
      ∧ (t.core c.val).dma.queue = (s.core c.val).dma.queue ++ [d]
      ∧ (t.core c.val).dma.waiting = (s.core c.val).dma.waiting.erase d
      ∧ (t.slot c.val d.slot).mode = .ready ∧ (t.slot c.val d.slot).wait = .none
      ∧ (t.slot c.val d.slot).reg rd = (if rd = 0 then 0 else BitVec.ofNat 64 k)
      ∧ CoreOnly s t c.val := by
  have hexec : exec (.heldDxiEnqueue c) s = .next ((s.modDma c.val (fun m => { m with queue := m.queue ++ [d], waiting := m.waiting.erase d })).modSlot
      c.val d.slot (heldSlot s.now)) := by
    rw [exec_heldDxiEnqueue, execHeldDxiEnqueue]
    simp only [h]
    rw [if_neg (Nat.not_le.2 hroom)]
    rfl
  have hcore : ((s.modDma c.val (fun m => { m with queue := m.queue ++ [d], waiting := m.waiting.erase d })).modSlot c.val d.slot
      (heldSlot s.now)).core c.val
        = ((s.core c.val).modDma (fun m => { m with queue := m.queue ++ [d], waiting := m.waiting.erase d })).modSlot d.slot (heldSlot s.now) := by
    rw [State.modSlot, State.core_modCore_same, State.core_modDma]
  have honly : CoreOnly s ((s.modDma c.val (fun m => { m with queue := m.queue ++ [d], waiting := m.waiting.erase d })).modSlot c.val d.slot
      (heldSlot s.now)) c.val := coreOnly_trans (coreOnly_modCore s c.val _) (coreOnly_modCore _ c.val _)
  refine ⟨_, hexec, ?_⟩
  generalize (s.modDma c.val (fun m => { m with queue := m.queue ++ [d], waiting := m.waiting.erase d })).modSlot c.val d.slot
    (heldSlot s.now) = t at hcore honly ⊢
  have hslot : t.slot c.val d.slot = ((s.slot c.val d.slot).setReg rd (BitVec.ofNat 64 k)).wake s.now := by
    rw [State.slot, hcore, Core.slot_modSlot_same]
    have hheld : heldSlot s.now (s.slot c.val d.slot) = ((s.slot c.val d.slot).setReg rd (BitVec.ofNat 64 k)).wake s.now := by
      rw [heldSlot, hwait]
    exact hheld
  refine ⟨?_, ?_, ?_, ?_, ?_, honly⟩
  · rw [hcore]
    rfl
  · rw [hcore]
    rfl
  · rw [hslot]
    rfl
  · rw [hslot]
    rfl
  · have hreg := (s.slot c.val d.slot).reg_setReg rd rd (BitVec.ofNat 64 k)
    rw [if_pos rfl] at hreg
    rw [hslot]
    exact hreg

theorem multicastAndHeldStarts : MulticastAndHeldStarts :=
  fun _ _ _ => ⟨sourceRead, fun h hroom _ _ hwait => heldStart h hroom hwait⟩

end Sys2Proof.Claims

/-!
SUPPORT. The targets of a multicast, and its bitmap (R215, R216, R217).
-/
namespace Sys2Proof.Machine

/-! Bits and bytes (R5). -/

theorem length_leBytes (n x : Nat) : (leBytes n x).length = n := by
  induction n generalizing x with
  | zero => rfl
  | succ n ih => rw [leBytes, List.length_cons, ih]

theorem getD_leBytes {n k : Nat} (x : Nat) (h : k < n) : (leBytes n x).getD k 0 = BitVec.ofNat 8 (x / 256 ^ k) := by
  induction n generalizing x k with
  | zero => omega
  | succ n ih =>
    cases k with
    | zero => rw [leBytes, List.getD_cons_zero, Nat.pow_zero, Nat.div_one]
    | succ k =>
      rw [leBytes, List.getD_cons_succ, ih _ (by omega), Nat.div_div_eq_div_mul, Nat.pow_succ, Nat.mul_comm 256]

/-- The bits of a number in its bytes. -/
theorem getLsbD_leBytes {n j : Nat} (x : Nat) (h : j / 8 < n) : ((leBytes n x).getD (j / 8) 0).getLsbD (j % 8) = x.testBit j := by
  have hpow : 256 ^ (j / 8) = 2 ^ (8 * (j / 8)) := by
    rw [Nat.pow_mul]
  rw [getD_leBytes x h, BitVec.getLsbD_ofNat, hpow, Nat.testBit_div_two_pow, decide_eq_true (Nat.mod_lt j (by decide)), Bool.true_and,
    Nat.mod_add_div]

theorem testBit_ofBits (l : List Nat) (j : Nat) : (ofBits l).testBit j = decide (j ∈ l) := by
  have hfold : ∀ (l : List Nat) (a : Nat), (l.foldl (fun a i => a ||| 2 ^ i) a).testBit j = (a.testBit j || decide (j ∈ l)) := by
    intro l
    induction l with
    | nil => simp
    | cons i l ih =>
      intro a
      rw [List.foldl_cons, ih, Nat.testBit_or, Nat.testBit_two_pow, Bool.or_assoc]
      rw [← Bool.decide_or, @decide_eq_decide.2 (by rw [List.mem_cons, eq_comm] : i = j ∨ j ∈ l ↔ j ∈ i :: l)]
  rw [ofBits, hfold, Nat.zero_testBit, Bool.false_or]

/-! Targets. -/

theorem DmaDesc.targetIx_of {d : DmaDesc} {i t : Nat} (h : (groupTargets d.group)[i]? = some t) (hnodup : (groupTargets d.group).Nodup) :
    d.targetIx t = i := by
  obtain ⟨hlt, rfl⟩ := List.getElem?_eq_some_iff.1 h
  exact List.Nodup.idxOf_getElem hnodup i hlt

theorem DmaDesc.targetIx_lt {d : DmaDesc} {t : Nat} (h : t ∈ groupTargets d.group) : d.targetIx t < (groupTargets d.group).length :=
  List.findIdx_lt_length.2 ⟨t, h, beq_self_eq_true t⟩

theorem DmaDesc.target_setTarget (d : DmaDesc) (i : Nat) (x : TargetState) (j : Nat) :
    (d.setTarget i x).target j = if j = i then x else d.target j := by
  rw [DmaDesc.target, DmaDesc.setTarget, SMap.get_set, DmaDesc.target]

/-- A descriptor with no pending target has none that no line can reach (R217). -/
theorem State.refuseUnmapped_of_done (s : State) {d : DmaDesc} (h : ∀ j, j < (groupTargets d.group).length → d.target j ≠ .pending) :
    s.refuseUnmapped d = d := by
  unfold State.refuseUnmapped
  have hfold : ∀ l : List Nat, (∀ t ∈ l, t ∈ groupTargets d.group) → l.foldl (fun (d : DmaDesc) t =>
      if d.target (d.targetIx t) = .pending ∧ !s.hasTarget (groupKind d.group) t then
        d.setTarget (d.targetIx t) (.refused stAddressError) else d) d = d := by
    intro l
    induction l with
    | nil => exact fun _ => rfl
    | cons t l ih =>
      intro hl
      rw [List.foldl_cons, if_neg fun e => h _ (DmaDesc.targetIx_lt (hl t List.mem_cons_self)) e.1]
      exact ih fun t ht => hl t (List.mem_cons_of_mem _ ht)
  exact hfold _ fun _ h => h

theorem State.dmaFind_noteTarget {s : State} {p i t : Nat} {d : DmaDesc} (f : TargetState → TargetState) (h : s.dmaFind p d.id = some d)
    (hi : d.targetIx t = i) : (s.noteTarget p d.id t f).dmaFind p d.id = some (d.setTarget i (f (d.target i))) := by
  rw [State.noteTarget, State.dmaFind_modDesc s p d.id (f := fun e => e.setTarget (e.targetIx t) (f (e.target (e.targetIx t)))) fun _ he => he,
    h, Option.map_some, hi]

/-- What an acknowledgement makes of its target, and what a miss notice does (R215, R216). -/
def TargetState.acknowledge (st : Status) (x : TargetState) : TargetState :=
  match x with
  | .pending => if st = stOk then .acked else .refused st
  | x => x

def TargetState.miss (x : TargetState) : TargetState :=
  match x with
  | .pending => .missed
  | .acked => .missed
  | x => x

/-- The selected targets in their half of the bitmap (R214). -/
theorem DmaDesc.getLsbD_targetBits (d : DmaDesc) (f : TargetState → Bool) {j : Nat} (h : j < (groupTargets d.group).length) :
    j / 8 < (d.targetBits f).length ∧ ((d.targetBits f).getD (j / 8) 0).getLsbD (j % 8) = f (d.target j) := by
  have hlt : j / 8 < missBytes (groupTargets d.group).length / 2 := by
    unfold missBytes ceilDiv
    omega
  unfold DmaDesc.targetBits
  dsimp only
  refine ⟨by rw [length_leBytes]; exact hlt, ?_⟩
  rw [getLsbD_leBytes _ hlt, testBit_ofBits]
  simp [h]

/-- The bitmap's write, and the end of its descriptor (R217). -/
theorem State.writeBitmap_spec {s : State} {p : Nat} {d : DmaDesc} (st : Status) (h : s.dmaFind p d.id = some d) :
    (s.writeBitmap p d st).dmaFind p d.id = some { d with finished := some st }
      ∧ Claims.BytesWritten s (s.writeBitmap p d st) p d.missOff
          (d.targetBits TargetState.isMissed ++ d.targetBits (fun t => t.refusal.isSome)) := by
  have hdef : s.writeBitmap p d st = ((s.touchPlain p true d.missOff
      (d.targetBits TargetState.isMissed ++ d.targetBits (fun t => t.refusal.isSome)).length).spadWrite p d.missOff
        (d.targetBits TargetState.isMissed ++ d.targetBits (fun t => t.refusal.isSome))).modDesc p d.id (fun d => { d with finished := some st }) := rfl
  rw [hdef]
  generalize d.targetBits TargetState.isMissed ++ d.targetBits (fun t => t.refusal.isSome) = bits
  obtain ⟨hwrites, hbytes⟩ := (s.touchPlain p true d.missOff bits.length).spadWrite_spec p d.missOff bits (fun _ => false)
  have hkeeps := (s.touchPlain_spadAndNode p true d.missOff bits.length).trans hwrites
  rw [State.spad_touchPlain_bytes] at hbytes
  generalize (s.touchPlain p true d.missOff bits.length).spadWrite p d.missOff bits = u at hkeeps hbytes ⊢
  have hdma : (u.core p).dma = (s.core p).dma := hkeeps.field Core.dma fun _ _ _ => rfl
  refine ⟨?_, Claims.bytesWritten_of_bytes ?_⟩
  · rw [State.dmaFind_modDesc u p d.id (f := fun d => { d with finished := some st }) fun _ he => he, State.dmaFind_of_dma hdma, h]
    rfl
  · rw [State.spad, State.core_modDesc]
    exact hbytes

end Sys2Proof.Machine

namespace Sys2Proof.Claims

open Sys2Proof.Machine

theorem mcastAck_spec {s : State} {p k i t0 st : Nat} {d : DmaDesc} (hfind : s.dmaFind p d.id = some d) (hix : d.targetIx t0 = i)
    (hk : s.mesh.acks[k]? = some (p, d.id, t0, st)) (hpending : d.target i = .pending) :
    ∃ t d', exec (.mcastAck k) s = .next t ∧ t.mesh.acks = s.mesh.acks.eraseIdx k ∧ t.dmaFind p d.id = some d'
      ∧ d'.target i = (if st = 0 then .acked else .refused st) ∧ (∀ j, j ≠ i → d'.target j = d.target j) := by
  have hexec : exec (.mcastAck k) s = .next (({ s with mesh := { s.mesh with acks := s.mesh.acks.eraseIdx k } } : State).noteTarget p d.id t0
      (TargetState.acknowledge st)) := by
    rw [exec_mcastAck, execMcastAck]
    simp only [hk]
    rfl
  refine ⟨_, _, hexec, rfl, State.dmaFind_noteTarget _ hfind hix, ?_, fun j hj => ?_⟩
  · rw [DmaDesc.target_setTarget, if_pos rfl, hpending]
    rfl
  · rw [DmaDesc.target_setTarget, if_neg hj]

theorem missNotice_spec {s : State} {p k i t0 : Nat} {d : DmaDesc} (hfind : s.dmaFind p d.id = some d) (hix : d.targetIx t0 = i)
    (hk : s.mesh.notices[k]? = some (p, d.id, [t0])) (htarget : d.target i = .pending ∨ d.target i = .acked) :
    ∃ t d', exec (.missNotice k) s = .next t ∧ t.mesh.notices = s.mesh.notices.eraseIdx k ∧ t.dmaFind p d.id = some d'
      ∧ d'.target i = .missed ∧ (∀ j, j ≠ i → d'.target j = d.target j) := by
  have hexec : exec (.missNotice k) s = .next (({ s with mesh := { s.mesh with notices := s.mesh.notices.eraseIdx k } } : State).noteTarget p d.id t0
      TargetState.miss) := by
    rw [exec_missNotice, execMissNotice]
    simp only [hk]
    rfl
  refine ⟨_, _, hexec, rfl, State.dmaFind_noteTarget _ hfind hix, ?_, fun j hj => ?_⟩
  · rw [DmaDesc.target_setTarget, if_pos rfl]
    rcases htarget with h | h
    · rw [h]
      rfl
    · rw [h]
      rfl
  · rw [DmaDesc.target_setTarget, if_neg hj]

/-- A multicast with every target accounted for (R217). -/
structure AllAccounted (s : State) (p : Nat) (d : DmaDesc) : Prop where
  find : s.dmaFind p d.id = some d
  op : d.op = .mcast
  queued : d ∈ (s.core p).dma.queue
  up : s.coreDown p = false
  running : d.finished = none
  clean : d.failed = none
  sent : d.length = 64 * d.sentLines
  idle : d.resending = false
  done : ∀ j, j < (groupTargets d.group).length → d.target j ≠ .pending

/-- The re-send of its first missed target begins (R217). -/
def DmaDesc.resendTo (i a : Nat) (d : DmaDesc) : DmaDesc :=
  { d with resending := true, resendAt := i, row := 0, col := 0, stopped := false, dst := a }

theorem mcastResend_eq {s : State} {c : CoreIx} {d : DmaDesc} (h : AllAccounted s c.val d) :
    ((List.range (groupTargets d.group).length).find? (fun i => d.target i == .missed) = none → exec (.mcastResend c d.id) s
        = .next ((s.modDesc c.val d.id (fun _ => d)).writeBitmap c.val d d.mcastStatus))
      ∧ (∀ i, (List.range (groupTargets d.group).length).find? (fun i => d.target i == .missed) = some i → exec (.mcastResend c d.id) s
        = .next (s.modDesc c.val d.id (fun e => DmaDesc.resendTo i (e.targetAddr i) e))) := by
  have hqueued : (s.core c.val).dma.queue.contains d = true := List.contains_iff_mem.2 h.queued
  have hnone : (List.range (groupTargets d.group).length).any (fun i => d.target i == .pending) = false := by
    rw [List.any_eq_false]
    intro j hj e
    exact h.done j (List.mem_range.1 hj) (beq_iff_eq.1 e)
  have hexec := exec_mcastResend s c d.id
  unfold execMcastResend at hexec
  simp only [h.find, h.op, s.refuseUnmapped_of_done h.done, hqueued, h.up, h.running, h.clean, hnone, h.idle, if_true] at hexec
  rw [if_neg (by decide), if_neg (by simp [h.sent]), if_neg (by decide)] at hexec
  refine ⟨fun hfind => ?_, fun i hfind => ?_⟩
  · rw [hexec, hfind]
  · rw [hexec, hfind]
    rfl

theorem multicastTargets : MulticastTargets := by
  intro s c d i t0 hfind ht0 hnodup
  have hix := DmaDesc.targetIx_of ht0 hnodup
  refine ⟨fun k st hk => mcastAck_spec hfind hix hk, fun k hk => missNotice_spec hfind hix hk, ?_⟩
  intro hop hqueued hup hrunning hclean hsent hidle hdone
  have hall : AllAccounted s c.val d := ⟨hfind, hop, hqueued, hup, hrunning, hclean, hsent, hidle, hdone⟩
  refine ⟨fun hmiss => ?_, fun j hj hmissed hfirst => ?_⟩
  · have hnone : (List.range (groupTargets d.group).length).find? (fun i => d.target i == .missed) = none := by
      rw [List.find?_eq_none]
      intro j hj e
      exact hmiss j (List.mem_range.1 hj) (beq_iff_eq.1 e)
    have hsame : (s.modDesc c.val d.id (fun _ => d)).dmaFind c.val d.id = some d := by
      rw [State.dmaFind_modDesc s c.val d.id (f := fun _ => d) fun _ _ => rfl, hfind]
      rfl
    obtain ⟨hend, hbytes⟩ := State.writeBitmap_spec d.mcastStatus hsame
    refine ⟨_, _, (mcastResend_eq hall).1 hnone, hend, rfl, fun j hj => ?_⟩
    obtain ⟨hlt, hbit⟩ := d.getLsbD_targetBits TargetState.isMissed hj
    rw [hbytes, if_pos ⟨Nat.le_add_right _ _, by rw [List.length_append]; omega⟩, Nat.add_sub_cancel_left, List.getD_append _ _ _ _ hlt, hbit]
  · have hsome : (List.range (groupTargets d.group).length).find? (fun i => d.target i == .missed) = some j := by
      rw [List.find?_range_eq_some]
      refine ⟨beq_iff_eq.2 hmissed, List.mem_range.2 hj, fun k hk => ?_⟩
      rw [Bool.not_eq_true', beq_eq_false_iff_ne]
      exact hfirst k hk
    refine ⟨_, DmaDesc.resendTo j (d.targetAddr j) d, (mcastResend_eq hall).2 j hsome, ?_, rfl, rfl, rfl, rfl, rfl⟩
    rw [State.dmaFind_modDesc s c.val d.id (f := fun e => DmaDesc.resendTo j (e.targetAddr j) e) fun _ he => he, hfind]
    rfl

/-- Settles O20. The key facts are that a change of one descriptor is what its number finds behind it, and that a completed token
goes to the slot that waits for it. -/
theorem multicastAndCompletions : Obligations.MulticastAndCompletions :=
  ⟨multicastTargets, multicastAndHeldStarts, descriptorCompletions⟩

end Sys2Proof.Claims

/-!
SUPPORT. The resets of cores and of the fabric (R58, R105, R416, R417, R427).
-/
namespace Sys2Proof.Machine

variable (s : State)

/-! Waiting commands of the host. -/

/-- Nothing but the queue pairs of the host changes. -/
def State.PairsOnly (s t : State) : Prop := ({ t with host := { t.host with pairs := s.host.pairs } } : State) = s

theorem State.PairsOnly.trans {s t u : State} (h : s.PairsOnly t) (k : t.PairsOnly u) : s.PairsOnly u := by
  have hu : ({ u with host := { u.host with pairs := t.host.pairs } } : State) = t := k
  have e := congrArg (fun x : State => ({ x with host := { x.host with pairs := s.host.pairs } } : State)) hu
  exact e.trans h

theorem State.PairsOnly.foldl {β : Type} {f : State → β → State} (h : ∀ (s : State) (b : β), s.PairsOnly (f s b)) (l : List β) (s : State) :
    s.PairsOnly (l.foldl f s) := by
  induction l generalizing s with
  | nil => rfl
  | cons b l ih => exact State.PairsOnly.trans (h s b) (ih (f s b))

theorem State.PairsOnly.field {β : Type} {s t : State} (h : s.PairsOnly t) (f : State → β)
    (hf : f { t with host := { t.host with pairs := s.host.pairs } } = f t) : f t = f s := hf.symm.trans (congrArg f h)

theorem State.PairsOnly.regs {s t : State} (h : s.PairsOnly t) : t.regs = s.regs := h.field State.regs rfl

theorem State.PairsOnly.ite {c : Prop} [Decidable c] {s t u : State} (h : s.PairsOnly t) (k : s.PairsOnly u) :
    s.PairsOnly (if c then t else u) := by
  split
  · exact h
  · exact k

theorem State.finish_pairsOnly (q cid code detail result : Nat) : s.PairsOnly (s.finish q cid code detail result) := by
  unfold State.finish
  split
  · rfl
  · rfl

theorem State.tickWaiters_pairsOnly : s.PairsOnly s.tickWaiters := by
  have hend (t : State) (q cid code detail result : Nat) := t.finish_pairsOnly q cid code detail result
  have hstay (t : State) : t.PairsOnly t := rfl
  unfold State.tickWaiters
  refine .foldl (fun t e => .foldl (fun t c => ?_) _ _) _ _
  dsimp only
  refine .ite (hstay _) (.ite ?_ (.ite ?_ (hstay _)))
  · exact .ite (hend _ _ _ _ _ _) (.ite (hend _ _ _ _ _ _) (.ite (hend _ _ _ _ _ _) (hstay _)))
  · exact .ite (hend _ _ _ _ _ _) (.ite (hend _ _ _ _ _ _) (hstay _))

/-! The begin of a fabric reset. -/

/-- The panel of a fabric reset behind its count and before its registers and its waiting commands (R427). -/
def State.fabricClosed (s : State) (cause : Nat) : State :=
  let ticks := s.gen.ticks
  let s := s.dropMarks (s.gen.commitSeq.toNat + 1)
  let g := { TickGen.reset with
    commitSeq := s.gen.commitSeq, entry := s.gen.entry, rep := s.gen.rep, nodeSeq := s.gen.nodeSeq, commits := s.gen.commits
    last := s.gen.last, prev := s.gen.prev, tickOut := s.gen.tickOut
    attempts := ticks.foldl (fun (m : SMap Nat) t => SMap.set 0 m t.tick (t.att + 1)) s.gen.attempts }
  { s with
    gen := g
    mesh := { s.mesh with closed := true }
    host := { s.host with locked := none }
    events := { s.events with seq := 0, held := [] }
    boot := { s.boot with
      step := 1, level := 2, cause := cause, startedAt := s.now, stepAt := s.now, records := [], fabricAt := s.now
      fabricCommits := s.gen.commits } }

/-- The panel whose fabric reset is counted and asked for no more (R416). -/
def State.fabricCounted (s : State) : State := (s.bump unitMgmt rCFG_BOOT_COUNT 16 16 1).setFld unitMgmt rCFG_RESET_CTRL 0 1 0

theorem State.fabricCounted_regsOnly : Claims.RegsOnly s s.fabricCounted :=
  State.regsOnly_trans (s.bump_regsOnly unitMgmt rCFG_BOOT_COUNT 16 16 1)
    ((s.bump unitMgmt rCFG_BOOT_COUNT 16 16 1).setFld_regsOnly unitMgmt rCFG_RESET_CTRL 0 1 0)

theorem State.fabricClosed_gen (cause : Nat) : (s.fabricClosed cause).gen.gstate = .stopped ∧ (s.fabricClosed cause).gen.ticks = []
    ∧ (s.fabricClosed cause).gen.commitSeq = s.gen.commitSeq := ⟨rfl, rfl, rfl⟩

theorem State.fabricClosed_rest (cause : Nat) : (s.fabricClosed cause).host.locked = none ∧ (s.fabricClosed cause).mesh.closed = true
    ∧ (s.fabricClosed cause).active = s.active ∧ (s.fabricClosed cause).shadow = s.shadow ∧ (s.fabricClosed cause).drams = s.drams
    ∧ (s.fabricClosed cause).cores = s.cores := ⟨rfl, rfl, rfl, rfl, rfl, rfl⟩

theorem State.fabricClosed_boot (cause : Nat) : (s.fabricClosed cause).boot.step = 1 ∧ (s.fabricClosed cause).boot.level = 2
    ∧ (s.fabricClosed cause).boot.cause = cause := ⟨rfl, rfl, rfl⟩

/-- Its registers: neither features nor READY stay (R427). -/
def State.fabricRegs (s : State) (cause : Nat) : State :=
  (List.range 4).foldl (fun (s : State) w => s.setReg unitBar (rHOST_DRIVER_FEATURES + 8 * w) 0)
    (((s.fabricCounted.fabricClosed cause).setReg unitBar rHOST_FEAT_CTRL 0).setReadyCode 0)

theorem State.startFabric_eq (cause : Nat) : s.startFabric cause = (s.fabricRegs cause).newNonce.tickWaiters := rfl

theorem State.fabricRegs_regsOnly (cause : Nat) : Claims.RegsOnly (s.fabricCounted.fabricClosed cause) (s.fabricRegs cause) := by
  have hreg := (s.fabricCounted.fabricClosed cause).setReg_regsOnly unitBar rHOST_FEAT_CTRL 0
  have hready := ((s.fabricCounted.fabricClosed cause).setReg unitBar rHOST_FEAT_CTRL 0).setFld_regsOnly unitBar rHOST_DEVICE_STATUS 0 3 0
  exact State.regsOnly_trans (State.regsOnly_trans hreg hready) (State.regsOnly_foldl (fun t w => t.setReg_regsOnly _ _ _) _ _)

theorem State.reg_fabricRegs (cause : Nat) {off : Nat} (ho : off = rHOST_FEAT_CTRL ∨ off = rHOST_DEVICE_STATUS) :
    (s.fabricRegs cause).reg unitBar off = (((s.fabricCounted.fabricClosed cause).setReg unitBar rHOST_FEAT_CTRL 0).setReadyCode 0).reg unitBar off := by
  have hfold : ∀ (l : List Nat) (t : State), (∀ w ∈ l, w < 4) →
      (l.foldl (fun (s : State) w => s.setReg unitBar (rHOST_DRIVER_FEATURES + 8 * w) 0) t).reg unitBar off = t.reg unitBar off := by
    intro l
    induction l with
    | nil => exact fun _ _ => rfl
    | cons w l ih =>
      intro t hl
      have hw := hl w List.mem_cons_self
      rw [List.foldl_cons, ih _ fun v hv => hl v (List.mem_cons_of_mem _ hv)]
      refine t.reg_setReg_other _ (fun h => ?_)
      simp only [regKey, rHOST_DRIVER_FEATURES, rHOST_FEAT_CTRL, rHOST_DEVICE_STATUS] at h ho
      omega
  exact hfold _ _ fun w hw => List.mem_range.1 hw

theorem State.fabricRegs_ready (cause : Nat) : (s.fabricRegs cause).ready = 0 := by
  have h := State.fld_congr (s.reg_fabricRegs cause (.inr rfl)) 0 3
  rw [State.ready, h, State.setReadyCode, State.fld_setFld_same]
  rfl

theorem State.fabricRegs_features (cause : Nat) : (s.fabricRegs cause).fld unitBar rHOST_FEAT_CTRL 0 1 = 0 := by
  have h := State.fld_congr (s.reg_fabricRegs cause (.inl rfl)) 0 1
  rw [h, State.setReadyCode, State.fld_setFld_other _ _ _ _ _ _ (regKey_ne_of_off (by decide) (by decide) (by decide)),
    State.fld_setReg_same]
  rfl

/-- A part of the panel that neither registers, nor the nonce, nor the waiting commands touch. -/
theorem State.startFabric_field {β : Type} (cause : Nat) (f : State → β)
    (hpairs : ∀ (t : State) (m : SMap QPair), f { t with host := { t.host with pairs := m } } = f t) (hnonce : ∀ t : State, f t.newNonce = f t)
    (hregs : ∀ (t : State) (r : SMap Nat) (w : Nat × SMap (Nat × Nat × Nat)), f { t with regs := r, hw := w } = f t) :
    f (s.startFabric cause) = f (s.fabricCounted.fabricClosed cause) := by
  rw [State.startFabric_eq, (State.tickWaiters_pairsOnly _).field f (hpairs _ _), hnonce]
  exact State.regsOnly_eq (s.fabricRegs_regsOnly cause) f (hregs _ _ _)

theorem State.startFabric_reg (cause u off : Nat) : (s.startFabric cause).reg u off = (s.fabricRegs cause).reg u off := by
  rw [State.startFabric_eq]
  generalize s.fabricRegs cause = u
  have hregs : u.newNonce.tickWaiters.regs = u.regs := (State.tickWaiters_pairsOnly u.newNonce).regs
  rw [State.reg, hregs, State.reg]

theorem State.startFabric_isBegun (cause : Nat) : Claims.FabricResetBegun s (s.startFabric cause) cause := by
  have hfield := fun {β : Type} (f : State → β) => s.startFabric_field cause f
  have hready := State.fld_congr (s.startFabric_reg cause unitBar rHOST_DEVICE_STATUS) 0 3
  have hfeat := State.fld_congr (s.startFabric_reg cause unitBar rHOST_FEAT_CTRL) 0 1
  rw [s.fabricRegs_features] at hfeat
  have hnone := s.fabricRegs_ready cause
  rw [State.ready] at hnone
  rw [hnone] at hready
  obtain ⟨hstate, hticks, hseq⟩ := s.fabricCounted.fabricClosed_gen cause
  obtain ⟨hlocked, hclosed, hactive, hshadow, hdrams, hcores⟩ := s.fabricCounted.fabricClosed_rest cause
  obtain ⟨hstep, hlevel, hcause⟩ := s.fabricCounted.fabricClosed_boot cause
  have hcount := s.fabricCounted_regsOnly
  generalize s.fabricCounted.fabricClosed cause = u at *
  generalize s.fabricCounted = c at *
  rw [State.regsOnly_eq hcount State.gen rfl] at hseq
  rw [State.regsOnly_eq hcount State.active rfl] at hactive
  rw [State.regsOnly_eq hcount State.shadow rfl] at hshadow
  rw [State.regsOnly_eq hcount State.drams rfl] at hdrams
  rw [State.regsOnly_eq hcount State.cores rfl] at hcores
  generalize s.startFabric cause = t at *
  have hgen := hfield State.gen (fun _ _ => rfl) (fun _ => rfl) fun _ _ _ => rfl
  have hboot := hfield State.boot (fun _ _ => rfl) (fun _ => rfl) fun _ _ _ => rfl
  have hmesh := hfield State.mesh (fun _ _ => rfl) (fun _ => rfl) fun _ _ _ => rfl
  exact ⟨hgen ▸ hstate, hgen ▸ hticks, hgen ▸ hseq, hready,
    (hfield (fun t => t.host.locked) (fun _ _ => rfl) (fun _ => rfl) fun _ _ _ => rfl).trans hlocked, hmesh ▸ hclosed,
    hboot ▸ hstep, hboot ▸ hlevel, hboot ▸ hcause,
    (hfield State.active (fun _ _ => rfl) (fun _ => rfl) fun _ _ _ => rfl).trans hactive,
    (hfield State.shadow (fun _ _ => rfl) (fun _ => rfl) fun _ _ _ => rfl).trans hshadow,
    (hfield State.drams (fun _ _ => rfl) (fun _ => rfl) fun _ _ _ => rfl).trans hdrams,
    (hfield State.cores (fun _ _ => rfl) (fun _ => rfl) fun _ _ _ => rfl).trans hcores, hfeat⟩

/-! The reset of cores. -/

/-- The cores, time, ticking and memory are as they were, and so are the registers but for those of cores. -/
structure State.MeshOnly (s t : State) : Prop where
  cores : t.cores = s.cores
  now : t.now = s.now
  gen : t.gen = s.gen
  drams : t.drams = s.drams
  regs : t.regs = s.regs

namespace State.MeshOnly

theorem refl (s : State) : s.MeshOnly s := ⟨rfl, rfl, rfl, rfl, rfl⟩

theorem trans {s t u : State} (h : s.MeshOnly t) (k : t.MeshOnly u) : s.MeshOnly u :=
  ⟨k.cores.trans h.cores, k.now.trans h.now, k.gen.trans h.gen, k.drams.trans h.drams, k.regs.trans h.regs⟩

theorem foldl {β : Type} {f : State → β → State} (h : ∀ (s : State) (b : β), s.MeshOnly (f s b)) (l : List β) (s : State) :
    s.MeshOnly (l.foldl f s) := by
  induction l generalizing s with
  | nil => exact refl s
  | cons b l ih => exact (h s b).trans (ih (f s b))

end State.MeshOnly

theorem State.drawMid_meshOnly (key a b : Nat) : s.MeshOnly (s.drawMid key a b).2 := by
  unfold State.drawMid
  dsimp only
  split
  · exact ⟨rfl, rfl, rfl, rfl, rfl⟩
  · exact ⟨rfl, rfl, rfl, rfl, rfl⟩

theorem State.reply_meshOnly (id : Nat) (st : Status) (data : List Byte) : s.MeshOnly (s.reply id st data) := by
  have hmid (x : State) (valiant : Bool) (key a b : Nat) :
      x.MeshOnly (if valiant then x.drawMid key a b else (none, x)).2 := by
    split
    · exact x.drawMid_meshOnly key a b
    · exact .refl x
  have haccess (x : State) (a : Option Access) : x.MeshOnly (x.setAccess id a) := ⟨rfl, rfl, rfl, rfl, rfl⟩
  have hpacket (x : State) (k : Packet) : x.MeshOnly (x.newPacket k) := ⟨rfl, rfl, rfl, rfl, rfl⟩
  unfold State.reply
  split
  · exact .refl s
  · dsimp only
    split
    · exact haccess _ _
    · refine .trans ?_ (hpacket _ _)
      exact .trans (haccess s _) (hmid _ _ _ _ _)

theorem State.answerCredit_meshOnly (id : Nat) (ans : CreditAnswer) : s.MeshOnly (s.answerCredit id ans) := by
  unfold State.answerCredit
  split
  · exact .refl s
  · exact ⟨rfl, rfl, rfl, rfl, rfl⟩

/-- The requests that a reset core refuses (R58, R105). -/
def State.resetRefusals (p : Nat) (s : State) : State :=
  let s := (s.spad p).remoteWrites.foldl (fun (s : State) id => s.reply id stWindowRefused []) s
  (s.spad p).hold.foldl (fun (s : State) r => s.answerCredit r.id .refused) s

theorem State.resetRefusals_meshOnly (p : Nat) : s.MeshOnly (s.resetRefusals p) :=
  .trans (.foldl (fun t id => t.reply_meshOnly id _ _) _ s) (.foldl (fun t _ => t.answerCredit_meshOnly _ _) _ _)

theorem State.coreReset_eq (p : Nat) : s.coreReset p
    = (((s.resetRefusals p).resetRegs (· == unitCore p) 2 (fun _ off => off == rCORE_CLOCK)).resetRouter p).modCore p
        (fun c => c.coreReset (s.resetRefusals p).now (s.resetRefusals p).gen.commits) := rfl

/-- What the reset of core `p` does: its core is reset, and no other; time, ticking and memory stay (R58, R105). -/
structure State.ResetsCore (s t : State) (p : Nat) : Prop where
  core : t.core p = (s.core p).coreReset s.now s.gen.commits
  other : ∀ q, q ≠ p → t.core q = s.core q
  now : t.now = s.now
  gen : t.gen = s.gen
  drams : t.drams = s.drams
  reg : ∀ u off, u ≠ unitCore p → off < 2 ^ 32 → t.reg u off = s.reg u off

theorem State.coreReset_spec (p : Nat) : s.ResetsCore (s.coreReset p) p := by
  have hmesh := s.resetRefusals_meshOnly p
  rw [State.coreReset_eq]
  generalize s.resetRefusals p = u at hmesh ⊢
  have hcore : ∀ q, ((u.resetRegs (· == unitCore p) 2 (fun _ off => off == rCORE_CLOCK)).resetRouter p).core q = s.core q :=
    Claims.core_of_cores hmesh.cores
  have hreg : ∀ w off, w ≠ unitCore p → off < 2 ^ 32 →
      ((u.resetRegs (· == unitCore p) 2 (fun _ off => off == rCORE_CLOCK)).resetRouter p).reg w off = s.reg w off := by
    intro w off hw ho
    have hold : u.reg w off = s.reg w off := by
      rw [State.reg, hmesh.regs, State.reg]
    have hreset := u.reg_resetRegs_other (· == unitCore p) 2 (fun _ off => off == rCORE_CLOCK) ho (by simpa using hw)
    exact hreset.trans hold
  refine ⟨?_, fun q hq => ?_, hmesh.now, hmesh.gen, hmesh.drams, hreg⟩
  · rw [State.core_modCore_same, hcore, hmesh.now, hmesh.gen]
  · rw [State.core_modCore_other _ _ hq, hcore]

theorem State.reinit_regsOnly (p : Nat) : Claims.RegsOnly s (s.reinit p) := by
  unfold State.reinit
  split
  · exact s.setFld_regsOnly _ _ _ _ _
  · rfl

theorem State.reinit_reg (p : Nat) {u off : Nat} (hu : u ≠ unitCore p) (ho : off < 2 ^ 32) : (s.reinit p).reg u off = s.reg u off := by
  unfold State.reinit
  split
  · exact s.reg_setFld_other _ _ _ (regKey_ne_of_unit ho (by decide) hu)
  · rfl

theorem State.coreReinit_spec (p : Nat) : s.ResetsCore ((s.coreReset p).reinit p) p := by
  have hreset := s.coreReset_spec p
  have hregs := (s.coreReset p).reinit_regsOnly p
  have hreg := fun u off => (s.coreReset p).reinit_reg p (u := u) (off := off)
  generalize s.coreReset p = t at hreset hregs hreg ⊢
  have hcore : ∀ q, (t.reinit p).core q = t.core q := Claims.core_of_cores (State.regsOnly_eq hregs State.cores rfl)
  exact ⟨(hcore p).trans hreset.core, fun q hq => (hcore q).trans (hreset.other q hq), (State.regsOnly_eq hregs State.now rfl).trans hreset.now,
    (State.regsOnly_eq hregs State.gen rfl).trans hreset.gen, (State.regsOnly_eq hregs State.drams rfl).trans hreset.drams,
    fun u off hu ho => (hreg u off hu ho).trans (hreset.reg u off hu ho)⟩

theorem Slot.coreReset_reset : Slot.reset.coreReset = Slot.reset := rfl

theorem Core.slot_coreReset (c : Core) (now commits i : Nat) : (c.coreReset now commits).slot i = (c.slot i).coreReset := by
  have h := SMap.get_mapAll Slot.reset (fun _ sl => sl.coreReset) c.slots i Slot.coreReset_reset
  exact h

end Sys2Proof.Machine

/-!
SUPPORT. The resets of cores, patches and the panel (R58, R105, R351, R416, R417, R427).
-/
namespace Sys2Proof.Claims

open Sys2Proof.Machine

/-! Resets of cores. -/

/-- Some cores are reset, and no others; the registers of the management die are as they were (R417). -/
structure CoresReset (s t : State) (ps : List Nat) : Prop where
  reset : ∀ p, p ∈ ps → CoreIsReset s t p
  other : ∀ p, p ∉ ps → t.core p = s.core p
  now : t.now = s.now
  gen : t.gen = s.gen
  drams : t.drams = s.drams
  reg : ∀ off, off < 2 ^ 32 → t.reg unitMgmt off = s.reg unitMgmt off

theorem coreIsReset_of_core {s t : State} {p : Nat} (h : t.core p = (s.core p).coreReset s.now s.gen.commits) : CoreIsReset s t p := by
  refine ⟨fun i _ => ?_, ?_, ?_, ?_, ?_, ?_⟩
  · rw [State.slot, h, Core.slot_coreReset]
    rfl
  · rw [h]
    rfl
  · rw [h]
    rfl
  · rw [h]
    rfl
  · rw [h]
    rfl
  · rw [h]
    rfl

theorem coreIsReset_of_same {s u t : State} {p : Nat} (h : CoreIsReset u t p) (hnow : u.now = s.now)
    (hlaunches : (u.core p).launches = (s.core p).launches) : CoreIsReset s t p := by
  obtain ⟨hfree, hmxu, hvec, hat, hissue, hl⟩ := h
  exact ⟨hfree, hmxu, hvec, hat.trans hnow, hissue.trans hnow, hl.trans hlaunches⟩

theorem coresReset_foldl (ps : List Nat) (s : State) (hps : ∀ p ∈ ps, p < 0x4000) :
    CoresReset s (ps.foldl (fun (s : State) p => (s.coreReset p).reinit p) s) ps := by
  induction ps generalizing s with
  | nil => exact ⟨fun p h => absurd h List.not_mem_nil, fun _ _ => rfl, rfl, rfl, rfl, fun _ _ => rfl⟩
  | cons p ps ih =>
    have hp := s.coreReinit_spec p
    have hrest := ih ((s.coreReset p).reinit p) fun q hq => hps q (List.mem_cons_of_mem _ hq)
    rw [List.foldl_cons]
    generalize (s.coreReset p).reinit p = u at hp hrest ⊢
    generalize ps.foldl (fun (s : State) p => (s.coreReset p).reinit p) u = t at hrest ⊢
    have hlaunches : ∀ q, (u.core q).launches = (s.core q).launches := by
      intro q
      by_cases hq : q = p
      · rw [hq, hp.core]
        rfl
      · rw [hp.other q hq]
    have hmgmt : unitMgmt ≠ unitCore p := by
      have hlt := hps p List.mem_cons_self
      simp only [unitMgmt, unitEdge, unitCore]
      omega
    refine ⟨fun q hq => ?_, fun q hq => ?_, hrest.now.trans hp.now, hrest.gen.trans hp.gen, hrest.drams.trans hp.drams,
      fun off ho => (hrest.reg off ho).trans (hp.reg _ off hmgmt ho)⟩
    · by_cases hmem : q ∈ ps
      · exact coreIsReset_of_same (hrest.reset q hmem) hp.now (hlaunches q)
      · obtain rfl : q = p := (List.mem_cons.1 hq).resolve_right hmem
        exact coreIsReset_of_core ((hrest.other q hmem).trans hp.core)
    · rw [List.mem_cons, not_or] at hq
      exact (hrest.other q hq.2).trans (hp.other q hq.1)

theorem coreOf_lt {c : ConfigSet} {g p : Nat} (h : c.coreOf g = some p) : p < 0x4000 := by
  unfold ConfigSet.coreOf ConfigSet.coreIx at h
  split at h
  · rename_i v q hsite hphys
    cases h
    have hv : v < 204 := by
      unfold ConfigSet.site at hsite
      split at hsite
      · dsimp only at hsite
        split at hsite
        · cases hsite
          assumption
        · cases hsite
      · cases hsite
    have hq : q < 50 := by
      unfold ConfigSet.phys at hphys
      dsimp only at hphys
      split at hphys
      · rename_i hlt
        cases hphys
        exact hlt.2
      · cases hphys
    omega
  · cases h

theorem patchCores_lt {s : State} {g p : Nat} (h : p ∈ s.patchCores g) : p < 0x4000 := by
  have hfold : ∀ (es : List (List Byte)) (l : List Nat), (∀ p ∈ l, p < 0x4000) → ∀ p ∈ es.foldl (fun l e =>
      match s.active.coreOf (launchCore e) with
      | some p => insertAsc p l
      | none => l) l, p < 0x4000 := by
    intro es
    induction es with
    | nil => exact fun l hl => hl
    | cons e es ih =>
      intro l hl
      refine ih _ ?_
      dsimp only
      split
      · rename_i q hq
        intro p hp
        rcases mem_insertAsc.1 hp with rfl | hp
        · exact coreOf_lt hq
        · exact hl p hp
      · exact hl
  exact hfold _ _ (fun _ h => absurd h List.not_mem_nil) p h

/-- A reset of cores while ticking is still (R417). -/
theorem requestReset_still {s u : State} {ps : List Nat} (hu : RegsOnly s u) (hstill : s.still = true) (hps : ∀ p ∈ ps, p < 0x4000) :
    (∀ p ∈ ps, CoreIsReset s (u.requestReset ps) p) ∧ (∀ p, p ∉ ps → (u.requestReset ps).core p = s.core p)
      ∧ (u.requestReset ps).gen = s.gen ∧ (u.requestReset ps).drams = s.drams
      ∧ (u.requestReset ps).fld unitMgmt rCFG_RESET_CTRL 3 1 = 0
      ∧ ∀ lo w, 4 ≤ lo → (u.requestReset ps).fld unitMgmt rCFG_RESET_CTRL lo w = u.fld unitMgmt rCFG_RESET_CTRL lo w := by
  have hugen : u.gen = s.gen := State.regsOnly_eq hu State.gen rfl
  have hstill' : u.still = true := by
    rw [State.still, hugen]
    exact hstill
  have hdef : u.requestReset ps = ps.foldl (fun (s : State) p => (s.coreReset p).reinit p) (u.setFld unitMgmt rCFG_RESET_CTRL 3 1 0) := by
    rw [State.requestReset, hstill']
    rfl
  have hcleared := u.fld_setFld_same unitMgmt rCFG_RESET_CTRL 3 1 0
  have hapart := fun lo w (h : 4 ≤ lo) =>
    u.fld_setFld_apart unitMgmt rCFG_RESET_CTRL 0 (lo := 3) (w := 1) (lo' := lo) (w' := w) (.inr (by omega))
  have hv := State.regsOnly_trans hu (u.setFld_regsOnly unitMgmt rCFG_RESET_CTRL 3 1 0)
  have hresets := coresReset_foldl ps (u.setFld unitMgmt rCFG_RESET_CTRL 3 1 0) hps
  rw [← hdef] at hresets
  generalize u.setFld unitMgmt rCFG_RESET_CTRL 3 1 0 = v at hcleared hapart hv hresets
  generalize u.requestReset ps = t at hresets ⊢
  have hcore : ∀ p, v.core p = s.core p := core_of_cores (State.regsOnly_eq hv State.cores rfl)
  have hfld := fun lo w => State.fld_congr (hresets.reg rCFG_RESET_CTRL (by decide)) lo w
  exact ⟨fun p hp => coreIsReset_of_same (hresets.reset p hp) (State.regsOnly_eq hv State.now rfl) (by rw [hcore]),
    fun p hp => (hresets.other p hp).trans (hcore p), hresets.gen.trans (State.regsOnly_eq hv State.gen rfl),
    hresets.drams.trans (State.regsOnly_eq hv State.drams rfl), (hfld 3 1).trans hcleared, fun lo w h => (hfld lo w).trans (hapart lo w h)⟩

/-- A reset of cores is refused while ticking runs (R417). -/
theorem requestReset_refused {s u : State} {ps : List Nat} (hu : RegsOnly s u) (hstill : s.still = false) :
    (u.requestReset ps).fld unitMgmt rCFG_RESET_CTRL 3 1 = 1 ∧ RegsOnly s (u.requestReset ps) := by
  have hugen : u.gen = s.gen := State.regsOnly_eq hu State.gen rfl
  have hstill' : u.still = false := by
    rw [State.still, hugen]
    exact hstill
  have hdef : u.requestReset ps = u.setFld unitMgmt rCFG_RESET_CTRL 3 1 1 := by
    rw [State.requestReset, hstill']
    rfl
  rw [hdef]
  exact ⟨u.fld_setFld_same _ _ _ _ _, State.regsOnly_trans hu (u.setFld_regsOnly _ _ _ _ _)⟩

/-! Resets of the panel. -/

theorem coldReset_spec (s : State) : (s.powerOn 0 0).gen = TickGen.reset ∧ (s.powerOn 0 0).cores = [] ∧ (s.powerOn 0 0).drams = []
    ∧ (s.powerOn 0 0).mesh = Mesh.reset ∧ (s.powerOn 0 0).active = ConfigSet.empty ∧ (s.powerOn 0 0).ready = 0
    ∧ (s.powerOn 0 0).boot.level = 0 ∧ (s.powerOn 0 0).boot.step = 0 ∧ (s.powerOn 0 0).supply.latchedOff = false
    ∧ (s.powerOn 0 0).supply.shorted = [] ∧ (s.powerOn 0 0).fld unitMgmt rCFG_BOOT_COUNT 0 16 = 0
    ∧ (s.powerOn 0 0).boot.log = s.boot.log ∧ (s.powerOn 0 0).rom = s.rom ∧ (s.powerOn 0 0).sec.banks = s.sec.banks
    ∧ (s.powerOn 0 0).hostMem = s.hostMem ∧ (s.powerOn 0 0).pending = s.pending := by
  have hregs := s.powerOn_regsOnly 0 0
  have hdef : s.powerOn 0 0 = (s.blank 0 0).setReg unitMgmt rPWR_SUPPLY_REC s.boot.supplyRec := by
    rw [State.powerOn_eq, State.regsOnly_eq (s.blankRegs_regsOnly 0 0) State.supply rfl]
    rfl
  have hready : (s.powerOn 0 0).reg unitBar rHOST_DEVICE_STATUS = (s.blank 0 0).reg unitBar rHOST_DEVICE_STATUS := by
    rw [hdef]
    exact State.reg_setReg_other _ _ (regKey_ne_of_off (by decide) (by decide) (by decide))
  have hcount : (s.powerOn 0 0).reg unitMgmt rCFG_BOOT_COUNT = (s.blank 0 0).reg unitMgmt rCFG_BOOT_COUNT := by
    rw [hdef]
    exact State.reg_setReg_other _ _ (regKey_ne_of_off (by decide) (by decide) (by decide))
  have hreadyZero : (s.powerOn 0 0).ready = 0 := (State.fld_congr hready 0 3).trans rfl
  have hcountZero : (s.powerOn 0 0).fld unitMgmt rCFG_BOOT_COUNT 0 16 = 0 := (State.fld_congr hcount 0 16).trans rfl
  have hboot := State.regsOnly_eq hregs State.boot rfl
  have hsupply := State.regsOnly_eq hregs State.supply rfl
  have hsec := State.regsOnly_eq hregs State.sec rfl
  refine ⟨State.regsOnly_eq hregs State.gen rfl, State.regsOnly_eq hregs State.cores rfl, State.regsOnly_eq hregs State.drams rfl,
    State.regsOnly_eq hregs State.mesh rfl, State.regsOnly_eq hregs State.active rfl, hreadyZero, ?_, ?_, ?_, ?_, hcountZero, ?_,
    State.regsOnly_eq hregs State.rom rfl, ?_, State.regsOnly_eq hregs State.hostMem rfl, State.regsOnly_eq hregs State.pending rfl⟩
  · rw [hboot]
    rfl
  · rw [hboot]
    rfl
  · rw [hsupply]
    exact Bool.and_false _
  · rw [hsupply]
    rfl
  · rw [hboot]
    rfl
  · rw [hsec]
    rfl

theorem fabricAllowed_congr {s u : State} (h : RegsOnly s u) (hready : u.ready = s.ready) : u.fabricAllowed = s.fabricAllowed := by
  rw [State.fabricAllowed, hready, State.regsOnly_eq h State.boot rfl, State.regsOnly_eq h State.supply rfl, State.fabricAllowed]

theorem fabricResetBegun_of_regsOnly {s u t : State} {cause : Nat} (h : RegsOnly s u) (ht : FabricResetBegun u t cause) :
    FabricResetBegun s t cause := by
  unfold FabricResetBegun at ht ⊢
  rw [State.regsOnly_eq h State.gen rfl, State.regsOnly_eq h State.active rfl, State.regsOnly_eq h State.shadow rfl,
    State.regsOnly_eq h State.drams rfl, State.regsOnly_eq h State.cores rfl] at ht
  exact ht

theorem resets : Resets := by
  intro s pin g core
  have hwrite := s.setFld_regsOnly unitMgmt rCFG_RESET_CTRL 3 1 0
  have hready : (s.setFld unitMgmt rCFG_RESET_CTRL 3 1 0).ready = s.ready :=
    s.fld_setFld_other _ _ _ _ _ (regKey_ne_of_off (by decide) (by decide) (by decide))
  have hallowed := fabricAllowed_congr hwrite hready
  refine ⟨⟨_, rfl, coldReset_spec s⟩, fun hdown => ⟨s.moduleReset (if pin then 1 else 2), ?_, State.moduleReset_isReset s _⟩,
    fun h => ⟨⟨(s.setFld unitMgmt rCFG_RESET_CTRL 3 1 0).startFabric 5, ?_, fabricResetBegun_of_regsOnly hwrite (State.startFabric_isBegun _ 5)⟩,
      ⟨s.startFabric 2, ?_, State.startFabric_isBegun s 2⟩, ⟨s.startFabric 4, ?_, State.startFabric_isBegun s 4⟩⟩,
    fun h => ⟨?_, ?_, ?_⟩, fun h => ⟨?_, ?_⟩, fun h => ⟨?_, ?_⟩⟩
  · rw [exec_moduleReset, execModuleReset, hdown]
    rfl
  · rw [exec_fabricReset, execFabricReset, if_pos rfl, if_pos rfl, hallowed, h]
    rfl
  · rw [exec_fabricReset, execFabricReset, if_neg (by decide), if_neg (by decide), h]
    rfl
  · rw [exec_cxlReset, execCxlReset, h]
    rfl
  · rw [exec_fabricReset, execFabricReset, if_neg (by decide), if_neg (by decide), h]
    rfl
  · rw [exec_cxlReset, execCxlReset, h]
    rfl
  · rw [exec_fabricReset, execFabricReset, if_pos rfl, if_pos rfl, hallowed, h]
    rfl
  · obtain ⟨hreset, -, hgen, hdrams, hclear, hkeep⟩ := requestReset_still (s.setFld_regsOnly unitMgmt rCFG_RESET_CTRL 8 8 g.toNat) h
      (ps := s.patchCores g.toNat) fun p hp => patchCores_lt hp
    refine ⟨_, exec_patchReset s g, hclear, ?_, hreset, hgen, hdrams⟩
    rw [hkeep 8 8 (by decide), State.fld_setFld_same]
    exact Nat.mod_eq_of_lt g.isLt
  · obtain ⟨hreset, hother, hgen, hdrams, hclear, hkeep⟩ := requestReset_still (s.setFld_regsOnly unitMgmt rCFG_RESET_CTRL 16 14 core.val) h
      (ps := (s.active.coreOf core.val).toList) fun p hp => coreOf_lt (Option.mem_toList.1 hp)
    refine ⟨_, exec_coreReset s core, hclear, ?_, fun p hp => ⟨hreset p (Option.mem_toList.2 hp), fun j hj => hother j fun hmem => hj ?_⟩, hgen, hdrams⟩
    · rw [hkeep 16 14 (by decide), State.fld_setFld_same]
      exact Nat.mod_eq_of_lt (by omega)
    · exact Option.some.inj ((Option.mem_toList.1 hmem).symm.trans hp)
  · exact ⟨_, exec_patchReset s g, requestReset_refused (s.setFld_regsOnly unitMgmt rCFG_RESET_CTRL 8 8 g.toNat) h⟩
  · exact ⟨_, exec_coreReset s core, requestReset_refused (s.setFld_regsOnly unitMgmt rCFG_RESET_CTRL 16 14 core.val) h⟩

end Sys2Proof.Claims

/-!
SUPPORT. The steps of bring-up (R193, R420, R425, R430).
-/
namespace Sys2Proof.Machine

variable (s : State)

/-! The training of DRAM ports (R193). -/

/-- What the training of ports leaves, and the ports that train go on training. -/
structure State.Trains (s t : State) : Prop where
  cores : t.cores = s.cores
  gen : t.gen = s.gen
  boot : t.boot = s.boot
  bytes : ∀ v, (t.dram v).bytes = (s.dram v).bytes
  retired : ∀ v p, (Claims.portAt t v p).retired = (Claims.portAt s v p).retired
  training : ∀ v p, (Claims.portAt s v p).training = true → (Claims.portAt t v p).training = true

namespace State.Trains

theorem refl (s : State) : s.Trains s := ⟨rfl, rfl, rfl, fun _ => rfl, fun _ _ => rfl, fun _ _ h => h⟩

theorem trans {s t u : State} (h : s.Trains t) (k : t.Trains u) : s.Trains u :=
  ⟨k.cores.trans h.cores, k.gen.trans h.gen, k.boot.trans h.boot, fun v => (k.bytes v).trans (h.bytes v),
    fun v p => (k.retired v p).trans (h.retired v p), fun v p ht => k.training v p (h.training v p ht)⟩

theorem foldl {β : Type} {f : State → β → State} (h : ∀ (s : State) (b : β), s.Trains (f s b)) (l : List β) (s : State) :
    s.Trains (l.foldl f s) := by
  induction l generalizing s with
  | nil => exact refl s
  | cons b l ih => exact (h s b).trans (ih (f s b))

end State.Trains

theorem State.dram_of_drams {s t : State} (h : t.drams = s.drams) (v : Nat) : t.dram v = s.dram v := by
  rw [State.dram, h, State.dram]

theorem State.dram_modDram_same (site : Nat) (f : Dram → Dram) : (s.modDram site f).dram site = f (s.dram site) := by
  rw [State.dram, State.modDram, SMap.get_set_same]

theorem State.dram_modDram_other {site v : Nat} (f : Dram → Dram) (h : v ≠ site) : (s.modDram site f).dram v = s.dram v := by
  rw [State.dram, State.modDram, SMap.get_set_other _ _ _ _ h, State.dram]

theorem Dram.port_modPort_same (d : Dram) (p : Nat) (f : DramPort → DramPort) : (d.modPort p f).port p = f (d.port p) := by
  rw [Dram.port, Dram.modPort, SMap.get_set_same]

theorem Dram.port_modPort_other (d : Dram) {p q : Nat} (f : DramPort → DramPort) (h : q ≠ p) : (d.modPort p f).port q = d.port q := by
  rw [Dram.port, Dram.modPort, SMap.get_set_other _ _ _ _ h, Dram.port]

/-- One port begins its training, unless it has retired. -/
def State.trainPort (v : Nat) (s : State) (p : Nat) : State :=
  if ((s.dram v).port p).retired then s
  else (s.modPort v p (fun x => { x with training := true, trainBy := none })).setFld (unitDie v) (rDRAM_PORT_STATUS + 0x200 * p) 0 2 1

theorem State.portAt_modPort (v p w q : Nat) (f : DramPort → DramPort) :
    Claims.portAt (s.modPort v p f) w q = if w = v ∧ q = p then f (Claims.portAt s v p) else Claims.portAt s w q := by
  unfold Claims.portAt
  rw [State.modPort]
  by_cases hw : w = v
  · subst hw
    rw [State.dram_modDram_same]
    by_cases hq : q = p
    · subst hq
      rw [Dram.port_modPort_same, if_pos ⟨rfl, rfl⟩]
    · rw [Dram.port_modPort_other _ _ hq, if_neg fun h => hq h.2]
  · rw [State.dram_modDram_other _ _ hw, if_neg fun h => hw h.1]

theorem State.bytes_modPort (v p w : Nat) (f : DramPort → DramPort) : ((s.modPort v p f).dram w).bytes = (s.dram w).bytes := by
  rw [State.modPort]
  by_cases hw : w = v
  · subst hw
    rw [State.dram_modDram_same, Dram.modPort_bytes]
  · rw [State.dram_modDram_other _ _ hw]

theorem State.trainPort_spec (v p : Nat) : s.Trains (s.trainPort v p)
    ∧ ((Claims.portAt s v p).retired = false → (Claims.portAt (s.trainPort v p) v p).training = true) := by
  unfold State.trainPort
  split
  · rename_i hretired
    exact ⟨.refl s, fun h => absurd hretired (by rw [h]; decide)⟩
  · have hport := fun w q => s.portAt_modPort v p w q (fun x => { x with training := true, trainBy := none })
    have hbytes := fun w => s.bytes_modPort v p w (fun x => { x with training := true, trainBy := none })
    have hrest : ∀ f, (s.modPort v p f).cores = s.cores ∧ (s.modPort v p f).gen = s.gen ∧ (s.modPort v p f).boot = s.boot :=
      fun _ => ⟨rfl, rfl, rfl⟩
    obtain ⟨hcores, hgen, hboot⟩ := hrest (fun x => { x with training := true, trainBy := none })
    generalize s.modPort v p (fun x => { x with training := true, trainBy := none }) = m at hport hbytes hcores hgen hboot ⊢
    have hregs := m.setFld_regsOnly (unitDie v) (rDRAM_PORT_STATUS + 0x200 * p) 0 2 1
    generalize m.setFld (unitDie v) (rDRAM_PORT_STATUS + 0x200 * p) 0 2 1 = t at hregs ⊢
    have hdram := State.dram_of_drams (State.regsOnly_eq hregs State.drams rfl)
    have hport' : ∀ w q, Claims.portAt t w q
        = if w = v ∧ q = p then { Claims.portAt s v p with training := true, trainBy := none } else Claims.portAt s w q := by
      intro w q
      rw [← hport w q, Claims.portAt, hdram]
    refine ⟨⟨(State.regsOnly_eq hregs State.cores rfl).trans hcores, (State.regsOnly_eq hregs State.gen rfl).trans hgen,
      (State.regsOnly_eq hregs State.boot rfl).trans hboot, fun w => by rw [hdram, hbytes], fun w q => ?_, fun w q h => ?_⟩, fun _ => ?_⟩
    · rw [hport']
      split
      · rename_i h
        obtain ⟨rfl, rfl⟩ := h
        rfl
      · rfl
    · rw [hport']
      split
      · rfl
      · exact h
    · rw [hport', if_pos ⟨rfl, rfl⟩]

/-- The ports of a list at one site, and the ports of the sites of a list, train. -/
def State.trainSite (l : List Nat) (s : State) (v : Nat) : State := l.foldl (State.trainPort v) s
def State.trainSites (l : List Nat) (s : State) (vs : List Nat) : State := vs.foldl (State.trainSite l) s

theorem State.portsTrain_eq : s.portsTrain true = s.trainSites (List.range 8) (List.range 204) := rfl

theorem State.trainSite_spec (v : Nat) (l : List Nat) : s.Trains (s.trainSite l v)
    ∧ ∀ p ∈ l, (Claims.portAt s v p).retired = false → (Claims.portAt (s.trainSite l v) v p).training = true := by
  have htrains (l : List Nat) (t : State) : t.Trains (t.trainSite l v) := .foldl (fun t p => (t.trainPort_spec v p).1) l t
  refine ⟨htrains l s, fun p hp h => ?_⟩
  induction l generalizing s with
  | nil => cases hp
  | cons q l ih =>
    obtain ⟨hkeep, htrain⟩ := s.trainPort_spec v q
    rcases List.mem_cons.1 hp with rfl | hp
    · exact (htrains l _).training v p (htrain h)
    · exact ih _ hp ((hkeep.retired v p).trans h)

theorem State.trainSites_spec (l vs : List Nat) : s.Trains (s.trainSites l vs)
    ∧ ∀ v ∈ vs, ∀ p ∈ l, (Claims.portAt s v p).retired = false → (Claims.portAt (s.trainSites l vs) v p).training = true := by
  have htrains (vs : List Nat) (t : State) : t.Trains (t.trainSites l vs) := .foldl (fun t v => (t.trainSite_spec v l).1) vs t
  refine ⟨htrains vs s, fun v hv p hp h => ?_⟩
  induction vs generalizing s with
  | nil => cases hv
  | cons w vs ih =>
    obtain ⟨hkeep, htrain⟩ := s.trainSite_spec w l
    rcases List.mem_cons.1 hv with rfl | hv
    · exact (htrains vs _).training v p (htrain p hp h)
    · exact ih _ hv ((hkeep.retired v p).trans h)

theorem State.portsTrain_spec : s.Trains (s.portsTrain true)
    ∧ ∀ v p, v < 204 → p < 8 → (Claims.portAt s v p).retired = false → (Claims.portAt (s.portsTrain true) v p).training = true := by
  obtain ⟨hkeep, htrain⟩ := s.trainSites_spec (List.range 8) (List.range 204)
  rw [State.portsTrain_eq]
  exact ⟨hkeep, fun v p hv hp h => htrain v (List.mem_range.2 hv) p (List.mem_range.2 hp) h⟩

/-! The report of readiness (R430). -/

/-- Events, fuses and the supply's report may change; ticking, the mesh, bring-up and the registers but one of the host stay. -/
structure State.Reports (s t : State) : Prop where
  gen : t.gen = s.gen
  mesh : t.mesh = s.mesh
  boot : t.boot = s.boot
  reg : ∀ u off, regKey u off ≠ regKey unitBar rHOST_LINK → t.reg u off = s.reg u off

namespace State.Reports

theorem refl (s : State) : s.Reports s := ⟨rfl, rfl, rfl, fun _ _ _ => rfl⟩

theorem trans {s t u : State} (h : s.Reports t) (k : t.Reports u) : s.Reports u :=
  ⟨k.gen.trans h.gen, k.mesh.trans h.mesh, k.boot.trans h.boot, fun w off hk => (k.reg w off hk).trans (h.reg w off hk)⟩

theorem of_eventsOnly {s t : State} (h : s.EventsOnly t) : s.Reports t :=
  ⟨h.field_eq State.gen rfl, h.field_eq State.mesh rfl, h.field_eq State.boot rfl, h.reg⟩

theorem raise (s : State) (sev : Severity) (code : Nat) (src : EventSrc) (tick : Option Nat) (data : Nat) (inj : Bool) :
    s.Reports (s.raise sev code src tick data inj) := of_eventsOnly (s.raise_eventsOnly sev code src tick data inj)

theorem of_sec (s : State) (x : Security) : s.Reports { s with sec := x } := ⟨rfl, rfl, rfl, fun _ _ _ => rfl⟩
theorem of_supply (s : State) (x : Supply) : s.Reports { s with supply := x } := ⟨rfl, rfl, rfl, fun _ _ _ => rfl⟩

theorem foldl {β : Type} {f : State → β → State} (h : ∀ (s : State) (b : β), s.Reports (f s b)) (l : List β) (s : State) :
    s.Reports (l.foldl f s) := by
  induction l generalizing s with
  | nil => exact refl s
  | cons b l ih => exact (h s b).trans (ih (f s b))

end State.Reports

theorem State.advanceRollback_reports (c : Nat) : s.Reports (s.advanceRollback c) := by
  unfold State.advanceRollback
  dsimp only
  split
  · exact State.Reports.trans (State.Reports.of_sec s _) (State.Reports.raise _ _ _ _ _ _ _)
  · exact .refl s

/-- Readiness before it is reported (R430). -/
def State.readied (s : State) (loaded : List Nat) : State :=
  let u := (s.setReadyCode s.readiness).setReg unitMgmt rCFG_BOOT_STAT (2 ^ 16 * ((s.now - s.boot.startedAt) / Config.cycMs % 2 ^ 32))
  if s.readiness = 1 ∨ s.readiness = 2 then loaded.foldl (fun (s : State) c => s.advanceRollback c) u.becomeReady else u

/-- Injection opens, and bring-up has ended (R430). -/
def State.opened (s : State) (r : Nat) : State :=
  { s with
    mesh := { s.mesh with closed := false }
    gen := { s.gen with nodeSeq := s.gen.commitSeq }
    boot := { s.boot with wasReady := s.boot.wasReady || decide (r ≤ 3) } }

/-- BOOT_READY, and behind it the event of a shutdown (R396, R430). -/
def State.announced (s : State) (r ms : Nat) : State :=
  let s := s.raise .info 0xA9 .none none (r + 2 ^ 32 * (ms % 2 ^ 32))
  match s.supply.report with
  | none => s
  | some x => ({ s with supply := { s.supply with report := none } }).raise .moduleFatal 0x8C .none none (x.cause + 2 ^ 16 * x.extreme)

theorem State.report_eq (loaded : List Nat) : s.report loaded
    = ((s.readied loaded).opened s.readiness).announced s.readiness ((s.now - s.boot.startedAt) / Config.cycMs) := rfl

theorem State.announced_reports (r ms : Nat) : s.Reports (s.announced r ms) := by
  have hraise := State.Reports.raise s .info 0xA9 .none none (r + 2 ^ 32 * (ms % 2 ^ 32)) false
  unfold State.announced
  dsimp only
  generalize s.raise .info 0xA9 .none none (r + 2 ^ 32 * (ms % 2 ^ 32)) = u at hraise ⊢
  split
  · exact hraise
  · exact hraise.trans (State.Reports.trans (State.Reports.of_supply u _) (State.Reports.raise _ _ _ _ _ _ _))

end Sys2Proof.Machine

/-!
SUPPORT. Bring-up goes from step to step, and its broadcast (R193, R420, R421, R425, R430, R433, R469).
-/
namespace Sys2Proof.Machine

variable (s : State)

/-! Readiness. -/

/-- Every mapped core may launch (R430). -/
def State.launchAll (s : State) (ps : List Nat) : State := ps.foldl (fun (s : State) p => s.setFld (unitCore p) rCORE_CTRL 1 1 1) s

theorem State.becomeReady_eq : s.becomeReady = (s.launchAll s.mappedCores).setFld unitBar rHOST_MEM_CTRL 1 1 1 := rfl

theorem State.launchAll_regsOnly (ps : List Nat) : Claims.RegsOnly s (s.launchAll ps) :=
  State.regsOnly_foldl (fun t _ => t.setFld_regsOnly _ _ _ _ _) ps s

theorem State.reg_launchAll (ps : List Nat) (u : Nat) {off : Nat} (ho : off < 2 ^ 32) (h : off ≠ rCORE_CTRL) :
    (s.launchAll ps).reg u off = s.reg u off := by
  unfold State.launchAll
  induction ps generalizing s with
  | nil => rfl
  | cons p ps ih => exact (ih _).trans (s.reg_setFld_other _ _ _ (regKey_ne_of_off ho (by decide) h))

theorem State.fld_launchAll {ps : List Nat} {p : Nat} (h : p ∈ ps) : (s.launchAll ps).fld (unitCore p) rCORE_CTRL 1 1 = 1 := by
  have hkeep : ∀ (l : List Nat) (t : State), t.fld (unitCore p) rCORE_CTRL 1 1 = 1 → (t.launchAll l).fld (unitCore p) rCORE_CTRL 1 1 = 1 := by
    intro l
    induction l with
    | nil => exact fun _ h => h
    | cons q l ih =>
      intro t ht
      refine ih (t.setFld (unitCore q) rCORE_CTRL 1 1 1) ?_
      by_cases hq : p = q
      · subst hq
        exact t.fld_setFld_same _ _ _ _ _
      · exact (t.fld_setFld_other _ _ _ _ _ (regKey_ne_of_unit (by decide) (by decide) hq)).trans ht
  induction ps generalizing s with
  | nil => cases h
  | cons q ps ih =>
    rcases List.mem_cons.1 h with rfl | h
    · exact hkeep ps (s.setFld (unitCore p) rCORE_CTRL 1 1 1) (s.fld_setFld_same _ _ _ _ _)
    · exact ih _ h

theorem State.becomeReady_spec : Claims.RegsOnly s s.becomeReady ∧ s.becomeReady.ready = s.ready
    ∧ s.becomeReady.fld unitBar rHOST_MEM_CTRL 1 1 = 1
    ∧ ∀ p ∈ s.mappedCores, s.becomeReady.fld (unitCore p) rCORE_CTRL 1 1 = 1 := by
  have hregs := s.launchAll_regsOnly s.mappedCores
  have hreg := fun u off => s.reg_launchAll s.mappedCores u (off := off)
  have hlaunch := fun p => s.fld_launchAll (ps := s.mappedCores) (p := p)
  rw [State.becomeReady_eq]
  generalize s.launchAll s.mappedCores = u at hregs hreg hlaunch ⊢
  refine ⟨State.regsOnly_trans hregs (u.setFld_regsOnly _ _ _ _ _), ?_, u.fld_setFld_same _ _ _ _ _, fun p hp => ?_⟩
  · exact (u.fld_setFld_other _ _ _ _ _ (regKey_ne_of_off (by decide) (by decide) (by decide))).trans
      (State.fld_congr (hreg _ _ (by decide) (by decide)) 0 3)
  · exact (u.fld_setFld_other _ _ _ _ _ (regKey_ne_of_off (by decide) (by decide) (by decide))).trans (hlaunch p hp)

theorem State.Reports.fld {s t : State} (h : s.Reports t) {u off : Nat} (hkey : regKey u off ≠ regKey unitBar rHOST_LINK) (lo w : Nat) :
    t.fld u off lo w = s.fld u off lo w := State.fld_congr (h.reg u off hkey) lo w

/-- The mapped cores are cores of the panel. -/
theorem State.mappedCores_lt {s : State} {p : Nat} (h : p ∈ s.mappedCores) : p < 0x4000 := by
  unfold State.mappedCores at h
  split at h
  · cases h
  · obtain ⟨v, hv, hp⟩ := List.mem_flatMap.1 h
    have hv' : v < 204 := List.mem_range.1 hv
    split at hp
    · cases hp
    · obtain ⟨q, hq, hsome⟩ := List.mem_filterMap.1 hp
      obtain ⟨-, -, rfl⟩ := Option.map_eq_some_iff.1 hsome
      have hq' := List.mem_range.1 hq
      omega

theorem regKey_core_ne_link {s : State} {p : Nat} (h : p ∈ s.mappedCores) : regKey (unitCore p) rCORE_CTRL ≠ regKey unitBar rHOST_LINK := by
  have hlt := State.mappedCores_lt h
  exact regKey_ne_of_unit (by decide) (by decide) (by simp only [unitCore, unitBar]; omega)

theorem State.Reports.ready {s t : State} (h : s.Reports t) : t.ready = s.ready := h.fld (by decide) 0 3

theorem State.readiness_lt : 1 ≤ s.readiness ∧ s.readiness < 8 := by
  unfold State.readiness
  dsimp only
  split
  · omega
  · split
    · omega
    · split
      · omega
      · omega

theorem State.readied_spec (loaded : List Nat) : (s.readied loaded).gen = s.gen ∧ (s.readied loaded).mesh = s.mesh
    ∧ (s.readied loaded).boot = s.boot ∧ (s.readied loaded).ready = s.readiness
    ∧ ((s.readiness = 1 ∨ s.readiness = 2) → (s.readied loaded).fld unitBar rHOST_MEM_CTRL 1 1 = 1
        ∧ ∀ p ∈ s.mappedCores, (s.readied loaded).fld (unitCore p) rCORE_CTRL 1 1 = 1) := by
  unfold State.readied
  dsimp only
  have hcode : (s.setReadyCode s.readiness).ready = s.readiness :=
    (s.fld_setFld_same unitBar rHOST_DEVICE_STATUS 0 3 s.readiness).trans (Nat.mod_eq_of_lt s.readiness_lt.2)
  have hregs : Claims.RegsOnly s (s.setReadyCode s.readiness) := s.setFld_regsOnly _ _ _ _ _
  generalize s.setReadyCode s.readiness = c at hcode hregs ⊢
  have hu := State.regsOnly_trans hregs (c.setReg_regsOnly unitMgmt rCFG_BOOT_STAT (2 ^ 16 * ((s.now - s.boot.startedAt) / Config.cycMs % 2 ^ 32)))
  have huready : (c.setReg unitMgmt rCFG_BOOT_STAT (2 ^ 16 * ((s.now - s.boot.startedAt) / Config.cycMs % 2 ^ 32))).ready = s.readiness :=
    (State.fld_congr (c.reg_setReg_other _ (regKey_ne_of_off (by decide) (by decide) (by decide))) 0 3).trans hcode
  generalize c.setReg unitMgmt rCFG_BOOT_STAT (2 ^ 16 * ((s.now - s.boot.startedAt) / Config.cycMs % 2 ^ 32)) = u at hu huready ⊢
  have hgen := State.regsOnly_eq hu State.gen rfl
  have hmesh := State.regsOnly_eq hu State.mesh rfl
  have hboot := State.regsOnly_eq hu State.boot rfl
  have hactive := State.regsOnly_eq hu State.active rfl
  split
  · have hcores : u.mappedCores = s.mappedCores := by
      rw [State.mappedCores, hactive, State.mappedCores]
    obtain ⟨hb, hbready, hmem, hlaunch⟩ := u.becomeReady_spec
    rw [hcores] at hlaunch
    generalize u.becomeReady = b at hb hbready hmem hlaunch ⊢
    have hrep : b.Reports (loaded.foldl (fun (s : State) c => s.advanceRollback c) b) := .foldl (fun t c => t.advanceRollback_reports c) loaded b
    generalize loaded.foldl (fun (s : State) c => s.advanceRollback c) b = t at hrep ⊢
    exact ⟨hrep.gen.trans ((State.regsOnly_eq hb State.gen rfl).trans hgen), hrep.mesh.trans ((State.regsOnly_eq hb State.mesh rfl).trans hmesh),
      hrep.boot.trans ((State.regsOnly_eq hb State.boot rfl).trans hboot), hrep.ready.trans (hbready.trans huready),
      fun _ => ⟨(hrep.fld (by decide) 1 1).trans hmem, fun p hp => (hrep.fld (regKey_core_ne_link hp) 1 1).trans (hlaunch p hp)⟩⟩
  · rename_i hnot
    exact ⟨hgen, hmesh, hboot, huready, fun h => absurd h hnot⟩

/-- The report of the last step (R430). -/
theorem State.report_spec (loaded : List Nat) : (s.report loaded).ready = s.readiness ∧ (s.report loaded).mesh.closed = false
    ∧ (s.report loaded).gen.nodeSeq = s.gen.commitSeq ∧ (s.readiness ≤ 3 → (s.report loaded).boot.wasReady = true)
    ∧ ((s.readiness = 1 ∨ s.readiness = 2) → (s.report loaded).fld unitBar rHOST_MEM_CTRL 1 1 = 1
        ∧ ∀ p ∈ s.mappedCores, (s.report loaded).fld (unitCore p) rCORE_CTRL 1 1 = 1) := by
  obtain ⟨hgen, -, -, hready, hmapped⟩ := s.readied_spec loaded
  rw [State.report_eq]
  generalize s.readied loaded = u at hgen hready hmapped ⊢
  have hrep := (u.opened s.readiness).announced_reports s.readiness ((s.now - s.boot.startedAt) / Config.cycMs)
  generalize (u.opened s.readiness).announced s.readiness ((s.now - s.boot.startedAt) / Config.cycMs) = t at hrep ⊢
  have hfld : ∀ w off lo k, (u.opened s.readiness).fld w off lo k = u.fld w off lo k := fun _ _ _ _ => rfl
  have hopen : (u.opened s.readiness).mesh.closed = false ∧ (u.opened s.readiness).gen.nodeSeq = u.gen.commitSeq := ⟨rfl, rfl⟩
  have hwas : (u.opened s.readiness).boot.wasReady = (u.boot.wasReady || decide (s.readiness ≤ 3)) := rfl
  generalize u.opened s.readiness = o at *
  refine ⟨?_, ?_, ?_, fun h => ?_, fun h => ⟨?_, fun p hp => ?_⟩⟩
  · rw [hrep.ready, State.ready, hfld]
    exact hready
  · rw [hrep.mesh]
    exact hopen.1
  · rw [hrep.gen, hopen.2, hgen]
  · rw [hrep.boot, hwas, decide_eq_true h, Bool.or_true]
  · rw [hrep.fld (by decide), hfld]
    exact (hmapped h).1
  · rw [hrep.fld (regKey_core_ne_link hp), hfld]
    exact (hmapped h).2 p hp

/-! The steps. -/

/-- Behind a step that does not lead to the training of DRAM ports (R420). -/
theorem State.nextStep_of_ne {s : State} (h : s.boot.step + 1 ≠ s.dramStep) : s.nextStep = { s with boot := { s.boot with
    step := s.boot.step + 1, stepAt := if s.boot.level ≠ 2 ∧ s.boot.step = 8 then s.boot.stepAt else s.now } } := by
  unfold State.nextStep
  dsimp only
  rw [if_neg]
  exact h

theorem State.nextStep_of_eq {s : State} (h : s.boot.step + 1 = s.dramStep) : s.nextStep = ({ s with boot := { s.boot with
    step := s.boot.step + 1, stepAt := if s.boot.level ≠ 2 ∧ s.boot.step = 8 then s.boot.stepAt else s.now } } : State).portsTrain true := by
  unfold State.nextStep
  dsimp only
  rw [if_pos]
  exact h

end Sys2Proof.Machine

namespace Sys2Proof.Claims

open Sys2Proof.Machine

/-- Bring-up may go on with a step (R420, R433). -/
structure BootGoes (s : State) : Prop where
  ready : s.ready = 0
  up : s.supply.down = none
  collected : s.broadcasting = false
  lit : (s.turningOn && s.reef) = false

theorem bringUp_first {s : State} (h : BootGoes s) (f : BootFinding) (hstep : s.boot.step = 0) :
    exec (.bringUp f) s = .next { s with boot := { s.boot with step := 1, startedAt := s.now, stepAt := s.now } } := by
  rw [exec_bringUp, execBringUp, if_neg, if_pos hstep]
  rw [h.ready, h.up, h.collected, h.lit]
  decide

theorem bringUp_step {s : State} (h : BootGoes s) (f : BootFinding) (hstep : s.boot.step ≠ 0) {t : State}
    (ht : t = if s.boot.level = 2 then s.fabricStep f else s.bootStep f) :
    exec (.bringUp f) s = .next (if t.ready = 0 then t.nextStep else t) := by
  rw [exec_bringUp, execBringUp, if_neg, if_neg hstep, ht]
  rw [h.ready, h.up, h.collected, h.lit]
  decide

theorem turningOn_of_step {s : State} (h : s.boot.step ≠ 3) : s.turningOn = false := by
  rw [State.turningOn, beq_eq_false_iff_ne.2 h, Bool.false_and, Bool.false_and]

/-- The first steps and the eighth (R420, R469). -/
theorem bringUp_keys {s : State} (h : BootGoes s) (f : BootFinding) (hstep : s.boot.step = 1) (hlevel : s.boot.level < 2) :
    ∃ t, exec (.bringUp f) s = .next t ∧ t.boot = { s.boot with step := 2, stepAt := s.now }
      ∧ t.sec = { s.sec with keyStore := some ⟨hkdf384 (leBytes 32 s.rom.deviceSecret) "KCP-192 identity",
          hkdf384 (leBytes 32 s.rom.deviceSecret) "KCP-192 lms"⟩ }
      ∧ { t with boot := s.boot, sec := s.sec } = s := by
  have hstepped : s.deriveKeys = if s.boot.level = 2 then s.fabricStep f else s.bootStep f := by
    rw [if_neg (by omega), State.bootStep]
    simp only [hstep]
  have hexec := bringUp_step h f (by omega) hstepped
  have hready : s.deriveKeys.ready = 0 := h.ready
  have hnext : s.deriveKeys.nextStep = { s.deriveKeys with boot := { s.deriveKeys.boot with
      step := s.deriveKeys.boot.step + 1
      stepAt := if s.deriveKeys.boot.level ≠ 2 ∧ s.deriveKeys.boot.step = 8 then s.deriveKeys.boot.stepAt else s.deriveKeys.now } } := by
    refine State.nextStep_of_ne ?_
    have hboot : s.deriveKeys.boot = s.boot := rfl
    rw [State.dramStep, hboot, hstep, if_neg (by omega)]
    decide
  rw [if_pos hready, hnext] at hexec
  refine ⟨_, hexec, ?_, rfl, rfl⟩
  have hboot : s.deriveKeys.boot = s.boot := rfl
  have hnow : s.deriveKeys.now = s.now := rfl
  dsimp only
  rw [hboot, hnow, hstep, if_neg (by omega)]

theorem bringUp_eighth {s : State} (h : BootGoes s) (f : BootFinding) (hstep : s.boot.step = 8) (hlevel : s.boot.level < 2) :
    ∃ t, exec (.bringUp f) s = .next t ∧ t.boot = { s.boot with step := 9 } ∧ { t with boot := s.boot } = s := by
  have hstepped : s = if s.boot.level = 2 then s.fabricStep f else s.bootStep f := by
    rw [if_neg (by omega), State.bootStep]
    simp only [hstep]
  have hexec := bringUp_step h f (by omega) hstepped
  have hnext : s.nextStep = { s with boot := { s.boot with
      step := s.boot.step + 1, stepAt := if s.boot.level ≠ 2 ∧ s.boot.step = 8 then s.boot.stepAt else s.now } } := by
    refine State.nextStep_of_ne ?_
    rw [State.dramStep, hstep, if_neg (by omega)]
    decide
  rw [if_pos h.ready, hnext] at hexec
  refine ⟨_, hexec, ?_, rfl⟩
  dsimp only
  rw [if_pos ⟨by omega, hstep⟩, hstep]

theorem bringUp_last {s : State} (h : BootGoes s) (f : BootFinding) (hstep : s.boot.step = 12) (hlevel : s.boot.level < 2) :
    exec (.bringUp f) s = .next (s.report [0, 1, 2, 3]) := by
  have hstepped : s.report [0, 1, 2, 3] = if s.boot.level = 2 then s.fabricStep f else s.bootStep f := by
    rw [if_neg (by omega), State.bootStep]
    simp only [hstep]
  have hready : (s.report [0, 1, 2, 3]).ready ≠ 0 := by
    rw [(s.report_spec [0, 1, 2, 3]).1]
    have := s.readiness_lt
    omega
  rw [bringUp_step h f (by omega) hstepped, if_neg hready]

/-- Behind the sixth step of a fabric reset every core is reinitialised, and the DRAM ports train (R193, R427). -/
theorem bringUp_reinit {s : State} (h : BootGoes s) (f : BootFinding) (hstep : s.boot.step = 6) (hlevel : s.boot.level = 2) :
    ∃ t, exec (.bringUp f) s = .next t ∧ t.boot.step = 7
      ∧ (∀ p i, t.slot p i = Slot.reset) ∧ t.gen = s.gen
      ∧ (∀ v p, v < 204 → p < 8 → (portAt s v p).retired = false → (portAt t v p).training = true)
      ∧ ∀ v x, dbyte t v x = dbyte s v x := by
  have hstepped : s.reinitAll = if s.boot.level = 2 then s.fabricStep f else s.bootStep f := by
    rw [if_pos hlevel, State.fabricStep]
    simp only [hstep]
  have hexec := bringUp_step h f (by omega) hstepped
  have hready : s.reinitAll.ready = 0 := h.ready
  have hslot : ∀ p i, s.reinitAll.slot p i = Slot.reset := by
    intro p i
    have hcore := SMap.get_mapAll Core.reset (fun _ c => { c with slots := [], resetting := false }) s.cores p rfl
    have hslots := congrArg (fun c : Core => c.slot i) hcore
    exact hslots.trans rfl
  have hgen : s.reinitAll.gen = s.gen := rfl
  have hdrams : s.reinitAll.drams = s.drams := rfl
  have hboot : s.reinitAll.boot = s.boot := rfl
  generalize s.reinitAll = u at hexec hready hslot hgen hdrams hboot
  rw [if_pos hready, State.nextStep_of_eq (by rw [State.dramStep, hboot, hstep, if_pos hlevel])] at hexec
  have hnext : ∀ b : Boot, ({ u with boot := b } : State).drams = u.drams ∧ ({ u with boot := b } : State).cores = u.cores
      ∧ ({ u with boot := b } : State).gen = u.gen ∧ ({ u with boot := b } : State).boot = b := fun _ => ⟨rfl, rfl, rfl, rfl⟩
  obtain ⟨hvdrams, hvcores, hvgen, hvboot⟩ := hnext { u.boot with
    step := u.boot.step + 1, stepAt := if u.boot.level ≠ 2 ∧ u.boot.step = 8 then u.boot.stepAt else u.now }
  generalize ({ u with boot := { u.boot with
    step := u.boot.step + 1, stepAt := if u.boot.level ≠ 2 ∧ u.boot.step = 8 then u.boot.stepAt else u.now } } : State) = v
      at hexec hvdrams hvcores hvgen hvboot
  obtain ⟨hkeep, htrain⟩ := v.portsTrain_spec
  have hdram : ∀ w, v.dram w = s.dram w := State.dram_of_drams (hvdrams.trans hdrams)
  refine ⟨_, hexec, ?_, fun p i => ?_, hkeep.gen.trans (hvgen.trans hgen), fun w p hw hp hret => ?_, fun w x => ?_⟩
  · rw [hkeep.boot, hvboot]
    dsimp only
    rw [hboot, hstep]
  · rw [State.slot, core_of_cores (hkeep.cores.trans hvcores)]
    exact hslot p i
  · refine htrain w p hw hp ?_
    rw [portAt, hdram]
    exact hret
  · rw [dbyte, hkeep.bytes, hdram, dbyte]

/-! Times, records and the broadcast. -/

theorem bootStepTimeout_spec {s : State} (hstep : s.boot.step ≠ 0) (hlevel : s.boot.level < 2) (hready : s.ready = 0)
    (hreef : s.boot.step = 3 → s.reef = false) : ∃ t, exec .bootStepTimeout s = .next t
      ∧ t.now = Nat.max s.now (s.boot.stepAt + stepMs s.boot.step * 2100000) ∧ t.ready = 5 := by
  have hlit : (s.turningOn && s.reef) = false := by
    by_cases h : s.boot.step = 3
    · rw [hreef h, Bool.and_false]
    · rw [turningOn_of_step h, Bool.false_and]
  have hgo : (s.boot.step != 0 && s.boot.level != 2 && s.ready == 0 && !(s.turningOn && s.reef)) = true := by
    rw [hlit, hready, bne_iff_ne.2 hstep, bne_iff_ne.2 (by omega)]
    rfl
  have hexec : exec .bootStepTimeout s
      = .next (((s.advanceTo (s.boot.stepAt + stepMs s.boot.step * Config.cycMs)).raise .moduleFatal 0xA2 .none none s.boot.step).bootFails) := by
    rw [exec_bootStepTimeout, execBootStepTimeout, hgo]
    rfl
  have hraise := (s.advanceTo (s.boot.stepAt + stepMs s.boot.step * Config.cycMs)).raise_eventsOnly .moduleFatal 0xA2 .none none s.boot.step false
  refine ⟨_, hexec, ?_, State.fld_setFld_same _ _ _ _ _ _⟩
  generalize (s.advanceTo (s.boot.stepAt + stepMs s.boot.step * Config.cycMs)).raise .moduleFatal 0xA2 .none none s.boot.step = u at hraise ⊢
  have hnow : u.now = (s.advanceTo (s.boot.stepAt + stepMs s.boot.step * Config.cycMs)).now := hraise.field_eq State.now rfl
  have hfail : u.bootFails.now = u.now := State.regsOnly_eq (u.setFld_regsOnly unitBar rHOST_DEVICE_STATUS 0 3 5) State.now rfl
  rw [hfail, hnow]
  rfl

theorem identityRecord_spec {s : State} {v : Fin 213} (id : BitVec 64) (bc : BitVec 50) (be : BitVec 4)
    (hstep : s.boot.step = (if s.boot.level = 2 then 4 else 5)) (hready : s.ready = 0) (hruns : s.runs v.val = true) :
    ∃ t, exec (.identityRecord v id bc be) s = .next t
      ∧ SMap.get none t.boot.records v.val = some { dieId := id.toNat, badCores := bc, badExits := be }
      ∧ (∀ w, w ≠ v.val → SMap.get none t.boot.records w = SMap.get none s.boot.records w)
      ∧ { t with boot := { t.boot with records := s.boot.records } } = s := by
  have hgo : (s.boot.step == (if s.boot.level == 2 then 4 else 5) && s.ready == 0 && s.runs v.val) = true := by
    rw [hstep, hready, hruns]
    simp
  have hexec : exec (.identityRecord v id bc be) s = .next { s with boot := { s.boot with
      records := SMap.set none s.boot.records v.val (some { dieId := id.toNat, badCores := bc, badExits := be }) } } := by
    rw [exec_identityRecord, execIdentityRecord, hgo]
    rfl
  have hother : ∀ w, w ≠ v.val → SMap.get none (SMap.set none s.boot.records v.val
      (some ({ dieId := id.toNat, badCores := bc, badExits := be } : IdRecord))) w = SMap.get none s.boot.records w :=
    fun w hw => SMap.get_set_other _ _ _ _ hw
  have hsame : SMap.get none (SMap.set none s.boot.records v.val
      (some ({ dieId := id.toNat, badCores := bc, badExits := be } : IdRecord))) v.val = some { dieId := id.toNat, badCores := bc, badExits := be } :=
    SMap.get_set_same _ _ _ _
  exact ⟨_, hexec, hsame, hother, rfl⟩

/-! The broadcast of the core firmware (R425). -/

/-- One target lacks chunks: a round begins. -/
def round (s : State) : State := { s with boot := { s.boot with rounds := s.boot.rounds + 1 } }

theorem showBroadcast_regsOnly (s : State) : RegsOnly s s.showBroadcast := s.setReg_regsOnly _ _ _

theorem fld_showBroadcast (s : State) : s.showBroadcast.fld unitMgmt rCFG_FW_STAT 16 8 = Nat.min 2 s.boot.rounds := by
  have hmin : min 2 s.boot.rounds ≤ 2 := Nat.min_le_left _ _
  rw [State.showBroadcast, State.fld_setReg_same]
  have hdef : Nat.min 2 s.boot.rounds = min 2 s.boot.rounds := rfl
  rw [hdef]
  generalize min 2 s.boot.rounds = r at hmin
  generalize min (2 ^ 24 - 1) s.boot.resent = a
  generalize min 65535 s.boot.fwRetired = b
  have hlow : s.boot.chunks % 65536 < 65536 := Nat.mod_lt _ (by decide)
  generalize s.boot.chunks % 65536 = k at hlow
  simp only [field, Nat.shiftRight_eq_div_pow]
  omega

/-- A collection that finds one target lacking chunks (R425). -/
theorem collection_one {s : State} {c : CoreIx} {n : Fin 16385} (hb : s.broadcasting = true) (hready : s.ready = 0)
    (htarget : s.isTarget c.val = true) (hn : n.val ≠ 0) : exec (.broadcastCollection [(c, n, true)]) s
      = .next ((round s).resendTo c.val n.val true s.boot.step).showBroadcast := by
  have hround : (round s).isTarget c.val = true := htarget
  rw [exec_broadcastCollection, execBroadcastCollection, hb, hready, if_neg (by decide)]
  simp only [List.filter_cons, List.filter_nil, hn, ne_eq, not_false_eq_true, decide_true, Bool.true_or, if_true, List.foldl_cons, List.foldl_nil,
    insertAsc, htarget, List.isEmpty_cons, Bool.false_eq_true, if_false, List.find?_cons, beq_self_eq_true]
  rw [show ({ s with boot := { s.boot with rounds := s.boot.rounds + 1 } } : State) = round s from rfl, hround]
  rfl

theorem collection_resends {s : State} {c : CoreIx} {n : Fin 16385} (hb : s.broadcasting = true) (hready : s.ready = 0)
    (htarget : s.isTarget c.val = true) (hn : n.val ≠ 0) (hfails : SMap.get 0 s.boot.fails c.val ≠ 2) :
    ∃ t, exec (.broadcastCollection [(c, n, true)]) s = .next t ∧ t.boot.collected = s.boot.collected
      ∧ SMap.get 0 t.boot.fails c.val = SMap.get 0 s.boot.fails c.val + 1 ∧ t.boot.resent = s.boot.resent + n.val
      ∧ t.boot.rounds = s.boot.rounds + 1 ∧ t.fld unitMgmt rCFG_FW_STAT 16 8 = Nat.min 2 (s.boot.rounds + 1) := by
  have hboot : ((round s).resendTo c.val n.val true s.boot.step).boot = { s.boot with
      rounds := s.boot.rounds + 1, fails := SMap.set 0 s.boot.fails c.val (SMap.get 0 s.boot.fails c.val + 1)
      resent := s.boot.resent + n.val } := by
    unfold State.resendTo
    dsimp only
    rw [if_neg]
    · rfl
    · have hold : (round s).boot.fails = s.boot.fails := rfl
      rw [hold]
      omega
  have hexec := collection_one hb hready htarget hn
  generalize (round s).resendTo c.val n.val true s.boot.step = u at hboot hexec
  have hshown : u.showBroadcast.boot = u.boot := State.regsOnly_eq (showBroadcast_regsOnly u) State.boot rfl
  refine ⟨_, hexec, ?_, ?_, ?_, ?_, ?_⟩
  · rw [hshown, hboot]
  · rw [hshown, hboot]
    have hset : SMap.get 0 (SMap.set 0 s.boot.fails c.val (SMap.get 0 s.boot.fails c.val + 1)) c.val = SMap.get 0 s.boot.fails c.val + 1 :=
      SMap.get_set_same _ _ _ _
    exact hset
  · rw [hshown, hboot]
  · rw [hshown, hboot]
  · rw [fld_showBroadcast, hboot]

/-- A target whose firmware fails for the third time retires (R425). -/
theorem collection_retires {s : State} {c : CoreIx} {n : Fin 16385} (hb : s.broadcasting = true) (hready : s.ready = 0)
    (htarget : s.isTarget c.val = true) (hn : n.val ≠ 0) (hfails : SMap.get 0 s.boot.fails c.val = 2)
    (hspare : (s.failedAt (c.val / 50)).length < 2) :
    ∃ t, exec (.broadcastCollection [(c, n, true)]) s = .next t ∧ c.val ∈ t.boot.badCores ∧ t.boot.fwRetired = s.boot.fwRetired + 1 := by
  obtain ⟨hcore, hsite⟩ := Bool.and_eq_true_iff.1 htarget
  rw [Bool.not_eq_true'] at hcore hsite
  have hboot : ∀ w : State, w.boot.badCores = s.boot.badCores → w.boot.badSites = s.boot.badSites → ∃ v, w.bootCore c.val 2 s.boot.step
      = v ∧ c.val ∈ v.boot.badCores ∧ v.boot.fwRetired = w.boot.fwRetired := by
    intro w hcores hsites
    have hfailed : w.failedAt (c.val / 50) = s.failedAt (c.val / 50) := by
      rw [State.failedAt, hcores, State.failedAt]
    refine ⟨(w.retireCore c.val 2).raise .degraded 0xA6 (coreSrc c.val 0) none 2, ?_, ?_, ?_⟩
    · rw [State.bootCore, hcores, hsites, hfailed, hcore, hsite, if_neg (by decide), if_neg (by omega)]
    · rw [State.raise_boot]
      exact mem_insertAsc.2 (.inl rfl)
    · rw [State.raise_boot]
      rfl
  obtain ⟨v, hv, hmem, hretired⟩ := hboot ({ round s with boot := { (round s).boot with
      fails := SMap.set 0 s.boot.fails c.val 3, fwRetired := s.boot.fwRetired + 1 } } : State) rfl rfl
  have hresend : (round s).resendTo c.val n.val true s.boot.step = v := by
    rw [← hv]
    unfold State.resendTo
    dsimp only
    have hold : SMap.get 0 (round s).boot.fails c.val + 1 = 3 := congrArg (· + 1) hfails
    rw [if_pos hold, hold]
    rfl
  have hexec := collection_one hb hready htarget hn
  rw [hresend] at hexec
  have hshown : v.showBroadcast.boot = v.boot := State.regsOnly_eq (showBroadcast_regsOnly v) State.boot rfl
  exact ⟨_, hexec, hshown ▸ hmem, by rw [hshown, hretired]⟩

theorem collection_none {s : State} (hb : s.broadcasting = true) (hready : s.ready = 0) :
    ∃ t, exec (.broadcastCollection []) s = .next t ∧ t = { s with boot := { s.boot with collected := true } } := by
  refine ⟨_, ?_, rfl⟩
  rw [exec_broadcastCollection, execBroadcastCollection, hb, hready, if_neg (by decide)]
  rfl

theorem bringUp : BringUp := by
  intro s f v id bc be c n
  refine ⟨fun hready hup hcollected => ?_, fun hstep hlevel hready hreef => ⟨?_, ?_⟩,
    fun hstep hlevel hready hreef => bootStepTimeout_spec hstep hlevel hready hreef,
    fun hstep hready hruns => identityRecord_spec id bc be hstep hready hruns, fun hb hready => ⟨collection_none hb hready,
      fun htarget hn hfails => collection_resends hb hready htarget hn hfails,
      fun htarget hn hfails hspare => collection_retires hb hready htarget hn hfails hspare⟩⟩
  · have hgoes : s.boot.step ≠ 3 → BootGoes s := fun h => ⟨hready, hup, hcollected, by rw [turningOn_of_step h, Bool.false_and]⟩
    refine ⟨fun hstep => ⟨_, bringUp_first (hgoes (by omega)) f hstep, rfl, rfl⟩, fun hstep => bringUp_keys (hgoes (by omega)) f hstep,
      fun hstep => bringUp_eighth (hgoes (by omega)) f hstep,
      fun hstep hlevel => ⟨_, bringUp_last (hgoes (by omega)) f hstep hlevel, s.report_spec [0, 1, 2, 3]⟩,
      fun hstep => bringUp_reinit (hgoes (by omega)) noFinding hstep⟩
  · have hlit : (s.turningOn && s.reef) = true := by
      rw [State.turningOn, hstep, hready, hreef, bne_iff_ne.2 (by omega)]
      rfl
    rw [exec_bootStepTimeout, execBootStepTimeout, hlit, Bool.not_true, Bool.and_false]
    rfl
  · have hlit : (s.turningOn && s.reef) = true := by
      rw [State.turningOn, hstep, hready, hreef, bne_iff_ne.2 (by omega)]
      rfl
    rw [exec_bringUp, execBringUp, hlit, Bool.or_true, if_pos rfl]

/-- Settles O52. A reset of cores is a fold of resets that leave the others alone; each step of bring-up is its own work and then the
step behind it. -/
theorem resetsAndBringUp : Obligations.ResetsAndBringUp := ⟨resets, bringUp⟩

end Sys2Proof.Claims

/-!
SUPPORT. A state that the effect of an abandon does not hold in.
-/
namespace Sys2Proof.Claims

open Sys2Proof.Machine

/-- The index of a bucket entry far beyond those of its section: its scale register at the unit of an unmapped die is kept under the key
of TICK_TIMING. -/
def strayBucket : Nat := (regKey unitMgmt rTICK_TIMING - regKey (unitDie 255) rCOLL_SCALE) / 4

/-- ABANDON of tick 1 is due, a gap of 128 µs is set in TICK_TIMING, and the unit of die 0, which is unmapped, has fixed its scales. -/
def strayScale : State :=
  { State.reset with
    regs := [(regKey unitMgmt rTICK_TIMING, 2 ^ 23)]
    gen := { TickGen.reset with class0 := some (.abandon 1 0, 0) }
    active := { ConfigSet.empty with sections := [(8, [(strayBucket, [])])] }
    coll := { Coll.reset with fixedTick := [(0, some 1)] } }

/-- The gap has gone with the scale, so the replay is not held back by it. -/
theorem strayScale_gap {t : State} (h : exec .abandon strayScale = .next t) :
    ¬ t.gen.notBefore = t.now + 2100 * strayScale.fld unitMgmt rTICK_TIMING 16 10 := by
  have hrun : leaves .abandon strayScale
      (fun t => decide (t.gen.notBefore ≠ t.now + 2100 * strayScale.fld unitMgmt rTICK_TIMING 16 10)) = true := by decide +kernel
  exact of_decide_eq_true (of_leaves (P := fun t => decide (t.gen.notBefore ≠ t.now + 2100 * strayScale.fld unitMgmt rTICK_TIMING 16 10)) hrun h)

/-- Refutes O30: the gap of a replay is read behind the clearing of the units' scales (R286), which, in a state whose bucket section
holds an entry of an index without bound, clears a bit of TICK_TIMING; the statement takes the gap from the state before. -/
theorem not_tickOutcomes : ¬ Obligations.TickOutcomes := by
  rintro ⟨-, heffect, -⟩
  obtain ⟨t, ht, -, -, hgap, -⟩ := heffect strayScale 1 0 0 rfl rfl rfl
  exact strayScale_gap ht hgap

end Sys2Proof.Claims

/-!
SUPPORT. The words that the integer instructions write, and the targets of branches (R64-R69).
-/
namespace Sys2Proof.Machine

section
variable (x y : Word)

/-! The operations on words, as numbers (R64). -/

theorem word_add : x + y = BitVec.ofNat 64 (x.toNat + y.toNat) := by
  rw [BitVec.ofNat_add, BitVec.ofNat_toNat, BitVec.ofNat_toNat, BitVec.setWidth_eq, BitVec.setWidth_eq]

theorem word_sub : x - y = BitVec.ofInt 64 ((x.toNat : Int) - y.toNat) := by
  rw [Int.sub_eq_add_neg, BitVec.ofInt_add, BitVec.ofInt_neg, BitVec.ofInt_natCast, BitVec.ofInt_natCast, BitVec.sub_eq_add_neg,
    BitVec.ofNat_toNat, BitVec.ofNat_toNat, BitVec.setWidth_eq, BitVec.setWidth_eq]

theorem word_and : x &&& y = BitVec.ofNat 64 (x.toNat &&& y.toNat) := BitVec.eq_of_toNat_eq (by simp)

theorem word_or : x ||| y = BitVec.ofNat 64 (x.toNat ||| y.toNat) := BitVec.eq_of_toNat_eq (by simp)

theorem word_xor : x ^^^ y = BitVec.ofNat 64 (x.toNat ^^^ y.toNat) := BitVec.eq_of_toNat_eq (by simp)

theorem word_andn : x &&& ~~~y = BitVec.ofNat 64 (x.toNat &&& (2 ^ 64 - 1 - y.toNat)) := by
  rw [word_and, BitVec.toNat_not]

theorem sll_eq (n : Nat) : sll x n = BitVec.ofNat 64 (x.toNat * 2 ^ n) := BitVec.eq_of_toNat_eq (by simp [sll, Nat.shiftLeft_eq])

theorem srl_eq (n : Nat) : srl x n = BitVec.ofNat 64 (x.toNat / 2 ^ n) := by
  refine BitVec.eq_of_toNat_eq ?_
  rw [srl, BitVec.toNat_ushiftRight, BitVec.toNat_ofNat, Nat.shiftRight_eq_div_pow,
    Nat.mod_eq_of_lt (Nat.lt_of_le_of_lt (Nat.div_le_self _ _) x.isLt)]

theorem sra_eq (n : Nat) : sra x n = BitVec.ofInt 64 (x.toInt / 2 ^ n) := by
  rw [← BitVec.ofInt_toInt (x := sra x n), sra, BitVec.toInt_sshiftRight, Int.shiftRight_eq_div_pow]
  norm_cast

theorem ror_eq {n : Nat} (hn : n < 64) : ror x n = x.rotateRight n := by
  rw [BitVec.rotateRight_def, Nat.mod_eq_of_lt hn, ror]

theorem boolWord_slt : boolWord (x.slt y) = if x.toInt < y.toInt then 1 else 0 := by
  simp only [boolWord, BitVec.slt_iff_toInt_lt]

theorem boolWord_ult : boolWord (x.ult y) = if x.toNat < y.toNat then 1 else 0 := by
  simp only [boolWord, BitVec.ult_iff_toNat_lt]

theorem signed_min : (if x.slt y then x else y) = BitVec.ofInt 64 (Min.min x.toInt y.toInt) := by
  simp only [BitVec.slt_iff_toInt_lt]
  split
  · rw [min_eq_left (by omega), BitVec.ofInt_toInt]
  · rw [min_eq_right (by omega), BitVec.ofInt_toInt]

theorem signed_max : (if x.slt y then y else x) = BitVec.ofInt 64 (Max.max x.toInt y.toInt) := by
  simp only [BitVec.slt_iff_toInt_lt]
  split
  · rw [max_eq_right (by omega), BitVec.ofInt_toInt]
  · rw [max_eq_left (by omega), BitVec.ofInt_toInt]

theorem unsigned_min : (if x.ult y then x else y) = BitVec.ofNat 64 (Nat.min x.toNat y.toNat) := by
  show _ = BitVec.ofNat 64 (min x.toNat y.toNat)
  simp only [BitVec.ult_iff_toNat_lt]
  split
  · rw [min_eq_left (by omega), BitVec.ofNat_toNat, BitVec.setWidth_eq]
  · rw [min_eq_right (by omega), BitVec.ofNat_toNat, BitVec.setWidth_eq]

theorem unsigned_max : (if x.ult y then y else x) = BitVec.ofNat 64 (Nat.max x.toNat y.toNat) := by
  show _ = BitVec.ofNat 64 (max x.toNat y.toNat)
  simp only [BitVec.ult_iff_toNat_lt]
  split
  · rw [max_eq_right (by omega), BitVec.ofNat_toNat, BitVec.setWidth_eq]
  · rw [max_eq_left (by omega), BitVec.ofNat_toNat, BitVec.setWidth_eq]

theorem word_mul : x * y = BitVec.ofInt 64 (x.toInt * y.toInt) := by
  rw [BitVec.ofInt_mul, BitVec.ofInt_toInt, BitVec.ofInt_toInt]

end

/-! Saturation (R66). -/

theorem satS64_eq (x : Int) :
    satS64 x = (BitVec.ofInt 64 (Max.max (-(2 ^ 63)) (Min.min (2 ^ 63 - 1) x)), decide (x < -(2 ^ 63) ∨ 2 ^ 63 - 1 < x)) := by
  unfold satS64
  split
  · rw [min_eq_left (by omega), max_eq_right (by omega), decide_eq_true (by omega)]
  · split
    · rw [min_eq_right (by omega), max_eq_left (by omega), decide_eq_true (by omega)]
    · rw [min_eq_right (by omega), max_eq_right (by omega), decide_eq_false (by omega)]

/-! Division (R65). -/

section
variable (x y : Word)

theorem word_eq_zero_iff : y = 0 ↔ y.toNat = 0 := by rw [← BitVec.toNat_inj]; rfl

theorem divu_eq : divu x y = if y.toNat = 0 then BitVec.allOnes 64 else BitVec.ofNat 64 (x.toNat / y.toNat) := by
  simp only [divu, word_eq_zero_iff]

theorem remu_eq : remu x y = if y.toNat = 0 then x else BitVec.ofNat 64 (x.toNat % y.toNat) := by
  simp only [remu, word_eq_zero_iff]

/-- The one quotient that does not fit is the dividend itself. -/
theorem divs_eq : divs x y = if y.toNat = 0 then BitVec.allOnes 64
    else if x.toInt = -(2 ^ 63) ∧ y.toInt = -1 then x else BitVec.ofInt 64 (x.toInt.tdiv y.toInt) := by
  simp only [divs, word_eq_zero_iff]
  refine if_congr Iff.rfl rfl ?_
  split
  · rename_i h
    obtain ⟨hx, hy⟩ := h
    rw [hx, hy, ← BitVec.ofInt_toInt (x := x), hx]
    decide
  · rfl

theorem rems_eq : rems x y = if y.toNat = 0 then x
    else if x.toInt = -(2 ^ 63) ∧ y.toInt = -1 then 0 else BitVec.ofInt 64 (x.toInt.tmod y.toInt) := by
  simp only [rems, word_eq_zero_iff]
  refine if_congr Iff.rfl rfl ?_
  split
  · rename_i h
    rw [h.1, h.2]
    decide
  · rfl

end

theorem Slot.flush_late (sl : Slot) : sl.flush.late = none := by
  unfold Slot.flush
  split
  · assumption
  · rfl

/-! Counts of bits (R64). -/

theorem takeWhile_range' (p : Nat → Bool) (n o : Nat) {k : Nat} (hk : k = ((List.range' o n).takeWhile p).length) :
    k ≤ n ∧ (∀ i, i < k → p (o + i) = true) ∧ (k < n → p (o + k) = false) := by
  induction n generalizing o k with
  | zero => exact ⟨hk.le, fun i hi => absurd hi (by rw [hk]; exact Nat.not_lt_zero i), fun h => absurd h (Nat.not_lt_zero k)⟩
  | succ n ih =>
    rw [List.range'_succ, List.takeWhile_cons] at hk
    split at hk
    · rename_i ho
      obtain ⟨hle, hall, hstop⟩ := ih (o + 1) rfl
      rw [List.length_cons] at hk
      subst hk
      refine ⟨Nat.succ_le_succ hle, fun i hi => ?_, fun h => ?_⟩
      · cases i with
        | zero => exact ho
        | succ i =>
          have hi' := hall i (Nat.lt_of_succ_lt_succ hi)
          rwa [Nat.add_right_comm] at hi'
      · have hstop' := hstop (Nat.lt_of_succ_lt_succ h)
        rwa [Nat.add_right_comm] at hstop'
    · rename_i ho
      subst hk
      exact ⟨Nat.zero_le _, fun i hi => absurd hi (Nat.not_lt_zero i), fun _ => Bool.eq_false_iff.2 ho⟩

/-- The first elements of a range that hold: all of them, up to the first that does not. -/
theorem takeWhile_range (p : Nat → Bool) (n : Nat) {k : Nat} (hk : k = ((List.range n).takeWhile p).length) :
    k ≤ n ∧ (∀ i, i < k → p i = true) ∧ (k < n → p k = false) := by
  rw [List.range_eq_range'] at hk
  simpa only [Nat.zero_add] using takeWhile_range' p n 0 hk

theorem two_pow_dvd_iff (x k : Nat) : 2 ^ k ∣ x ↔ ∀ i, i < k → x.testBit i = false := by
  rw [Nat.dvd_iff_mod_eq_zero]
  constructor
  · intro h i hi
    have hbit := congrArg (fun y : Nat => y.testBit i) h
    simpa only [Nat.testBit_mod_two_pow, hi, decide_true, Bool.true_and, Nat.zero_testBit] using hbit
  · refine fun h => Nat.eq_of_testBit_eq fun i => ?_
    rw [Nat.testBit_mod_two_pow, Nat.zero_testBit, Bool.and_eq_false_imp]
    exact fun hi => h i (of_decide_eq_true hi)

variable (x : Word)

theorem clz64_eq : clz64 x = Claims.leadingZeros x.toNat := by
  obtain ⟨hle, hzeros, hone⟩ := takeWhile_range (fun i => !x.getLsbD (63 - i)) 64 (k := clz64 x) rfl
  simp only [Bool.not_eq_true', Bool.not_eq_false'] at hzeros hone
  simp only [← BitVec.testBit_toNat] at hzeros hone
  unfold Claims.leadingZeros
  split
  · rename_i hx
    rcases Nat.lt_or_eq_of_le hle with h | h
    · exact absurd (hone h) (by rw [hx, Nat.zero_testBit]; decide)
    · exact h
  · rename_i hx
    have htop := Nat.testBit_log2 hx
    have hlog : x.toNat.log2 < 64 := (Nat.log2_lt hx).2 x.isLt
    have hge : ¬ 63 - x.toNat.log2 < clz64 x := fun h => by
      have hzero := hzeros _ h
      rw [show 63 - (63 - x.toNat.log2) = x.toNat.log2 by omega, htop] at hzero
      cases hzero
    have hlow := (Nat.le_log2 hx).2 (Nat.ge_two_pow_of_testBit (hone (by omega)))
    omega

theorem clz64_le : clz64 x ≤ 64 := (takeWhile_range _ 64 rfl).1

theorem ctz64_spec : if x.toNat = 0 then ctz64 x = 64 else 2 ^ ctz64 x ∣ x.toNat ∧ ¬ 2 ^ (ctz64 x + 1) ∣ x.toNat := by
  obtain ⟨hle, hzeros, hone⟩ := takeWhile_range (fun i => !x.getLsbD i) 64 (k := ctz64 x) rfl
  simp only [Bool.not_eq_true', Bool.not_eq_false'] at hzeros hone
  simp only [← BitVec.testBit_toNat] at hzeros hone
  split
  · rename_i hx
    rcases Nat.lt_or_eq_of_le hle with h | h
    · exact absurd (hone h) (by rw [hx, Nat.zero_testBit]; decide)
    · exact h
  · rename_i hx
    have hdvd := (two_pow_dvd_iff x.toNat (ctz64 x)).2 hzeros
    refine ⟨hdvd, fun h => ?_⟩
    rcases Nat.lt_or_eq_of_le hle with hlt | heq
    · have hzero := (two_pow_dvd_iff _ _).1 h (ctz64 x) (Nat.lt_succ_self _)
      rw [hone hlt] at hzero
      cases hzero
    · rw [heq] at hdvd
      exact absurd (Nat.le_of_dvd (Nat.pos_of_ne_zero hx) hdvd) (Nat.not_le.2 x.isLt)

theorem ctz64_le : ctz64 x ≤ 64 := (takeWhile_range _ 64 rfl).1

theorem length_filter_eq_sum (p : Nat → Bool) (l : List Nat) : (l.filter p).length = (l.map (fun i => (p i).toNat)).sum := by
  induction l with
  | nil => rfl
  | cons i l ih =>
    rw [List.map_cons, List.sum_cons, ← ih, List.filter_cons]
    cases p i
    · exact (Nat.zero_add _).symm
    · exact Nat.add_comm _ _

theorem popc64_eq : popc64 x = Claims.oneBits x.toNat := by
  rw [popc64, length_filter_eq_sum, Claims.oneBits]
  congr 1
  refine List.map_congr_left fun i _ => ?_
  rw [← BitVec.testBit_toNat, Nat.toNat_testBit]

theorem popc64_le : popc64 x ≤ 64 := by
  have h := List.length_filter_le (fun i => x.getLsbD i) (List.range 64)
  rwa [List.length_range] at h

/-! Numbers of two's complement. -/

/-- The low `w` bits of a number, as a signed number. -/
theorem toInt_ofNat_eq_toSigned (w n : Nat) : (BitVec.ofNat w n).toInt = toSigned w n := by
  rw [BitVec.toInt_eq_toNat_cond, BitVec.toNat_ofNat, toSigned]
  cases w with
  | zero => simp [Nat.mod_one]
  | succ w =>
    rw [Nat.add_sub_cancel, Nat.pow_succ]
    refine if_congr (by omega) rfl ?_
    push_cast
    rfl

theorem toInt_signExtend_truncate {w : Nat} (hw : w ≤ 64) : ((x.truncate w).signExtend 64).toInt = toSigned w x.toNat := by
  rw [BitVec.toInt_signExtend_of_le hw, ← toInt_ofNat_eq_toSigned, BitVec.ofNat_toNat]

theorem toNat_zextw : ((x.truncate 32).zeroExtend 64).toNat = x.toNat % 2 ^ 32 := by
  rw [BitVec.truncate, BitVec.zeroExtend, BitVec.toNat_setWidth, BitVec.toNat_setWidth, Nat.mod_eq_of_lt]
  exact Nat.lt_trans (Nat.mod_lt _ (by decide)) (by decide)

/-! Immediates (R67). -/

section
variable (x : Word) (imm : BitVec 16)

theorem zext16_toNat : (zext16 imm).toNat = imm.toNat := by
  rw [zext16, BitVec.zeroExtend, BitVec.toNat_setWidth, Nat.mod_eq_of_lt (Nat.lt_trans imm.isLt (by decide))]

theorem lui_eq : sext16 imm * 0x10000 = BitVec.ofInt 64 (imm.toInt * 2 ^ 16) := by
  rw [BitVec.ofInt_mul]
  rfl

/-- LHI keeps the low 48 bits of RA below its immediate. -/
theorem lhi_eq : (x &&& (0x0000FFFFFFFFFFFF : Word)) ||| (zext16 imm <<< 48) = BitVec.ofNat 64 (x.toNat % 2 ^ 48 + imm.toNat * 2 ^ 48) := by
  have himm := imm.isLt
  have hlow : x.toNat % 2 ^ 48 < 2 ^ 48 := Nat.mod_lt _ (by decide)
  refine BitVec.eq_of_toNat_eq ?_
  rw [BitVec.toNat_or, BitVec.toNat_and, BitVec.toNat_shiftLeft, zext16_toNat, BitVec.toNat_ofNat, Nat.shiftLeft_eq,
    Nat.mod_eq_of_lt (by omega), Nat.mod_eq_of_lt (by omega), show BitVec.toNat (0x0000FFFFFFFFFFFF : Word) = 2 ^ 48 - 1 from rfl,
    Nat.and_two_pow_sub_one_eq_mod, Nat.or_comm, ← Nat.shiftLeft_eq, ← Nat.shiftLeft_add_eq_or_of_lt hlow, Nat.add_comm]

/-- SHI by the quarter of its immediate (R67). -/
theorem shi_eq (h : imm.toNat < 256) :
    (if imm.toNat / 64 % 4 = 0 then sll x (imm.toNat % 64)
      else if imm.toNat / 64 % 4 = 1 then srl x (imm.toNat % 64)
      else if imm.toNat / 64 % 4 = 2 then sra x (imm.toNat % 64)
      else ror x (imm.toNat % 64))
    = if imm.toNat < 64 then BitVec.ofNat 64 (x.toNat * 2 ^ imm.toNat)
      else if imm.toNat < 128 then BitVec.ofNat 64 (x.toNat / 2 ^ (imm.toNat - 64))
      else if imm.toNat < 192 then BitVec.ofInt 64 (x.toInt / 2 ^ (imm.toNat - 128))
      else x.rotateRight (imm.toNat - 192) := by
  split
  · rw [if_pos (show imm.toNat < 64 by omega), sll_eq, show imm.toNat % 64 = imm.toNat by omega]
  · rw [if_neg (show ¬ imm.toNat < 64 by omega)]
    split
    · rw [if_pos (show imm.toNat < 128 by omega), srl_eq, show imm.toNat % 64 = imm.toNat - 64 by omega]
    · rw [if_neg (show ¬ imm.toNat < 128 by omega)]
      split
      · rw [if_pos (show imm.toNat < 192 by omega), sra_eq, show imm.toNat % 64 = imm.toNat - 128 by omega]
      · rw [if_neg (show ¬ imm.toNat < 192 by omega), ror_eq _ (by omega), show imm.toNat % 64 = imm.toNat - 192 by omega]

end

/-! The targets of branches and jumps (R68, R69). -/

/-- PC + 4 × sext(OFF). -/
theorem pc_add_offset {n : Nat} (pc : Word) (off : BitVec n) :
    pc + off.signExtend 64 * 4 = BitVec.ofInt 64 ((pc.toNat : Int) + 4 * off.toInt) := by
  rw [BitVec.ofInt_add, BitVec.ofInt_natCast, BitVec.ofNat_toNat, BitVec.setWidth_eq, BitVec.ofInt_mul, BitVec.mul_comm]
  rfl

theorem clear_low_two (x : Word) : x &&& ~~~(3 : Word) = BitVec.ofNat 64 (x.toNat / 4 * 4) := by
  refine BitVec.eq_of_toNat_eq ?_
  have hx := x.isLt
  have hmask : x &&& ~~~(3 : Word) = (x >>> 2) <<< 2 := by
    refine BitVec.eq_of_getLsbD_eq fun i hi => ?_
    rw [BitVec.getLsbD_and, BitVec.getLsbD_shiftLeft, BitVec.getLsbD_ushiftRight]
    by_cases h : i < 2
    · have : i = 0 ∨ i = 1 := by omega
      rcases this with rfl | rfl <;> simp
    · have h3 : BitVec.getLsbD (~~~(3 : Word)) i = true := by
        rw [BitVec.getLsbD_not, decide_eq_true hi]
        simp only [Bool.true_and, Bool.not_eq_true', BitVec.getLsbD]
        exact Nat.testBit_lt_two_pow (Nat.lt_of_lt_of_le (show 3 < 2 ^ 2 by decide) (Nat.pow_le_pow_right (by decide) (by omega)))
      rw [h3, decide_eq_true hi, decide_eq_false h, Nat.add_sub_cancel' (by omega)]
      simp [hi]
  rw [hmask, BitVec.toNat_shiftLeft, BitVec.toNat_ushiftRight, Nat.shiftRight_eq_div_pow, Nat.shiftLeft_eq, BitVec.toNat_ofNat]

end Sys2Proof.Machine

/-!
SUPPORT. The general registers, the integer instructions and the branches (R62-R69, R86).
-/
namespace Sys2Proof.Claims

open Sys2Proof.Machine

/-- Settles O1: g0 is never stored, and a write changes the register it names alone. -/
theorem generalRegisters : Obligations.GeneralRegisters := by
  intro sl r q v
  refine ⟨rfl, rfl, fun hr => ?_, fun hq => ?_, ?_⟩
  · rw [Slot.reg_setReg, if_neg hr, if_pos rfl]
  · rw [Slot.reg_setReg, if_neg hq]
    exact ite_eq_right_iff.2 fun h => h ▸ rfl
  · unfold Slot.setReg
    split
    · rfl
    · rfl

/-! An instruction whose effect is on its own slot alone. -/

theorem issueFrame_modSlot (s : State) (a : At) (f : Slot → Slot) :
    IssueFrame s ((s.issued a).modSlot (corep a) a.slot.val f) a id id := by
  have hcore : ((s.issued a).modSlot (corep a) a.slot.val f).core (corep a) = ((s.issued a).core (corep a)).modSlot a.slot.val f := by
    rw [State.modSlot, State.core_modCore_same]
  refine issueFrame_of (issued_now_eq s a) (fun q hq => State.core_modCore_other _ _ hq) ?_ ?_ ?_ (fun j hj => ?_) rfl
  · rw [hcore]
    rfl
  · rw [hcore]
    rfl
  · rw [hcore]
    exact core_issued s a
  · rw [State.slot, hcore, Core.slot_modSlot_other _ _ hj, State.slot]

/-- The slot behind such an instruction, and its frame (R86). -/
theorem modSlot_issued (s : State) (a : At) (f : Slot → Slot) :
    at_ ((s.issued a).modSlot (corep a) a.slot.val f) a = f (own s a)
      ∧ IssueFrame s ((s.issued a).modSlot (corep a) a.slot.val f) a id id := by
  refine ⟨?_, issueFrame_modSlot s a f⟩
  rw [at_, State.slot_modSlot_same, show (s.issued a).slot a.core.val a.slot.val = own s a from slot_issued_eq s a]

theorem tpSimple_fires {s : State} {a : At} {len : Nat} (word : Nat) {legal : Bool} (f : Slot → Slot) (hl : legal = true)
    (h : Fires s a len) :
    ∃ t, tpSimple a len word legal f s = .next t ∧ at_ t a = f (stepped s a len (own s a)) ∧ IssueFrame s t a id id := by
  obtain ⟨hslot, hframe⟩ := modSlot_issued s a (fun sl => f (sl.advance len (issueCycle s a)))
  refine ⟨_, ?_, hslot, hframe⟩
  rw [tpSimple, tpIssue_fires _ _ _ h, if_pos hl]
  rfl

theorem stepped_setReg (s : State) (a : At) (len : Nat) (sl : Slot) (r : Nat) (v : Word) :
    (stepped s a len sl).setReg r v = stepped s a len (sl.setReg r v) := by
  unfold Slot.setReg
  split
  · rfl
  · rfl

theorem reg_stepped (s : State) (a : At) (len : Nat) (sl : Slot) (r : Nat) : (stepped s a len sl).reg r = sl.reg r := rfl

/-! Register operations of two sources (R64). -/

theorem aluR_fires {s : State} {a : At} (fn : Nat) (rd ra rb : Reg) (f : Word → Word → Word) (h : Fires s a 4) :
    ∃ t, aluR a fn rd ra rb f s = .next t
      ∧ at_ t a = stepped s a 4 ((own s a).setReg rd (f ((own s a).reg ra) ((own s a).reg rb))) ∧ IssueFrame s t a id id := by
  obtain ⟨t, ht, hslot, hframe⟩ := tpSimple_fires (encR 1 rd ra rb fn) (fun sl => sl.setReg rd (f (sl.reg ra) (sl.reg rb))) rfl h
  exact ⟨t, ht, by rw [hslot, stepped_setReg, reg_stepped, reg_stepped], hframe⟩

theorem integerResult_eq {s : State} {i : Instr} {a : At} {rd : Reg} {v : Word} (h : integerResult s i = some (a, rd, v)) :
    ∃ fn ra rb f, exec i s = aluR a fn rd ra rb f s ∧ f ((own s a).reg ra) ((own s a).reg rb) = v := by
  unfold integerResult at h
  split at h
  case h_20 => exact absurd h (by simp)
  all_goals
    simp only [Option.some.injEq, Prod.mk.injEq] at h
    obtain ⟨rfl, rfl, rfl⟩ := h
  · exact ⟨_, _, _, _, exec_add .., word_add _ _⟩
  · exact ⟨_, _, _, _, exec_sub .., word_sub _ _⟩
  · exact ⟨_, _, _, _, exec_and .., word_and _ _⟩
  · exact ⟨_, _, _, _, exec_or .., word_or _ _⟩
  · exact ⟨_, _, _, _, exec_xor .., word_xor _ _⟩
  · exact ⟨_, _, _, _, exec_andn .., word_andn _ _⟩
  · exact ⟨_, _, _, _, exec_sll .., sll_eq _ _⟩
  · exact ⟨_, _, _, _, exec_srl .., srl_eq _ _⟩
  · exact ⟨_, _, _, _, exec_sra .., sra_eq _ _⟩
  · exact ⟨_, _, _, _, exec_ror .., ror_eq _ (Nat.mod_lt _ (by decide))⟩
  · exact ⟨_, _, _, _, exec_slt .., boolWord_slt _ _⟩
  · exact ⟨_, _, _, _, exec_sltu .., boolWord_ult _ _⟩
  · exact ⟨_, _, _, _, exec_min .., signed_min _ _⟩
  · exact ⟨_, _, _, _, exec_max .., signed_max _ _⟩
  · exact ⟨_, _, _, _, exec_minu .., unsigned_min _ _⟩
  · exact ⟨_, _, _, _, exec_maxu .., unsigned_max _ _⟩
  · exact ⟨_, _, _, _, exec_mul .., word_mul _ _⟩
  · exact ⟨_, _, _, _, exec_mulhs .., rfl⟩
  · exact ⟨_, _, _, _, exec_mulhu .., rfl⟩

theorem integerResults : IntegerResults := by
  intro s i a rd v hform hfires
  obtain ⟨fn, ra, rb, f, hexec, rfl⟩ := integerResult_eq hform
  rw [hexec]
  exact aluR_fires fn rd ra rb f hfires

/-! Saturation (R66). -/

theorem saturatingExact_eq {s : State} {i : Instr} {a : At} {rd : Reg} {x : Int} (h : saturatingExact s i = some (a, rd, x)) :
    ∃ (word : Nat) (ra rb : Reg) (f : Int → Int → Int),
      exec i s = tpSimple a 4 word true (fun sl => sl.setSat rd (f (sl.reg ra).toInt (sl.reg rb).toInt)) s
        ∧ f (sg s a ra) (sg s a rb) = x := by
  unfold saturatingExact at h
  split at h
  case h_3 => exact absurd h (by simp)
  all_goals
    simp only [Option.some.injEq, Prod.mk.injEq] at h
    obtain ⟨rfl, rfl, rfl⟩ := h
  · exact ⟨_, _, _, _, exec_adds .., rfl⟩
  · exact ⟨_, _, _, _, exec_subs .., rfl⟩

theorem saturatingResults : SaturatingResults := by
  intro s i a rd x hform hfires
  obtain ⟨word, ra, rb, f, hexec, rfl⟩ := saturatingExact_eq hform
  obtain ⟨t, ht, hslot, hframe⟩ := tpSimple_fires word (fun sl => sl.setSat rd (f (sl.reg ra).toInt (sl.reg rb).toInt)) rfl hfires
  refine ⟨t, hexec.trans ht, ?_, hframe⟩
  rw [hslot, Slot.setSat, satS64_eq, stepped_setReg]
  rfl

/-! Division (R65). -/

theorem own_late (s : State) (a : At) : (own s a).late = none :=
  (Slot.sameButTokens_field (Slot.ripen_sameButTokens _ _) Slot.late fun _ _ _ => rfl).trans (Slot.flush_late _)

theorem divisionResult_eq {s : State} {i : Instr} {a : At} {rd : Reg} {v : Word} (h : divisionResult s i = some (a, rd, v)) :
    ∃ fn ra rb f, exec i s = aluDiv a fn rd ra rb f s ∧ f ((own s a).reg ra) ((own s a).reg rb) = v := by
  unfold divisionResult at h
  split at h
  case h_5 => exact absurd h (by simp)
  all_goals
    simp only [Option.some.injEq, Prod.mk.injEq] at h
    obtain ⟨rfl, rfl, rfl⟩ := h
  · exact ⟨_, _, _, _, exec_divu .., divu_eq _ _⟩
  · exact ⟨_, _, _, _, exec_remu .., remu_eq _ _⟩
  · exact ⟨_, _, _, _, exec_divs .., divs_eq _ _⟩
  · exact ⟨_, _, _, _, exec_rems .., rems_eq _ _⟩

/-- The slot behind a division: the write of its result waits (R86). -/
def dividing (s : State) (a : At) (rd : Reg) (v : Word) : Slot :=
  { stepped s a 4 (own s a) with late := some (rd.val, v), readyAt := issueCycle s a + 34 }

theorem flush_dividing (s : State) (a : At) (rd : Reg) (v : Word) :
    (dividing s a rd v).flush = { stepped s a 4 ((own s a).setReg rd v) with readyAt := issueCycle s a + 34 } := by
  have hlate := own_late s a
  show ({ (dividing s a rd v).setReg rd.val v with late := none } : Slot) = _
  unfold Slot.setReg
  split
  · rw [← hlate]
    rfl
  · rw [← hlate]
    rfl

theorem aluDiv_fires {s : State} {a : At} (fn : Nat) (rd ra rb : Reg) (f : Word → Word → Word) (h : Fires s a 4) :
    ∃ t, aluDiv a fn rd ra rb f s = .next t ∧ at_ t a = dividing s a rd (f ((own s a).reg ra) ((own s a).reg rb))
      ∧ IssueFrame s t a id id :=
  tpSimple_fires (encR 1 rd ra rb fn) (fun sl => { sl with late := some (rd.val, f (sl.reg ra) (sl.reg rb)), readyAt := sl.readyAt + 33 })
    rfl h

/-- Settles O2: the result waits in the slot, and the flush of the next issue writes it. -/
theorem divisionResults : Obligations.DivisionResults := by
  intro s i a rd v hform hfires
  obtain ⟨fn, ra, rb, f, hexec, rfl⟩ := divisionResult_eq hform
  obtain ⟨t, ht, hslot, hframe⟩ := aluDiv_fires fn rd ra rb f hfires
  refine ⟨t, hexec.trans ht, by rw [hslot, flush_dividing], fun r => by rw [hslot]; rfl, hframe⟩

theorem unaryForm_eq {i : Instr} {a : At} {rd : Reg} (s : State) (h : unaryForm i = some (a, rd)) :
    ∃ fn ra f, exec i s = aluU a fn rd ra 0 f s ∧ UnaryResult s (f ((own s a).reg ra)) i (a, rd) := by
  have hsmall : ∀ {n : Nat}, n ≤ 64 → (BitVec.ofNat 64 n).toNat = n := fun h => by
    rw [BitVec.toNat_ofNat, Nat.mod_eq_of_lt (Nat.lt_of_le_of_lt h (by decide))]
  unfold unaryForm at h
  split at h
  case h_8 => exact absurd h (by simp)
  all_goals
    rw [Option.ite_none_right_eq_some] at h
    obtain ⟨rfl, h⟩ := h
    simp only [Option.some.injEq, Prod.mk.injEq] at h
    obtain ⟨rfl, rfl⟩ := h
  · exact ⟨_, _, _, exec_clz .., rfl, rfl, (hsmall (clz64_le _)).trans (clz64_eq _)⟩
  · refine ⟨_, _, _, exec_ctz .., rfl, rfl, ?_⟩
    rw [hsmall (ctz64_le _)]
    exact ctz64_spec _
  · exact ⟨_, _, _, exec_popc .., rfl, rfl, (hsmall (popc64_le _)).trans (popc64_eq _)⟩
  · exact ⟨_, _, _, exec_sextb .., rfl, rfl, toInt_signExtend_truncate _ (by decide)⟩
  · exact ⟨_, _, _, exec_sexth .., rfl, rfl, toInt_signExtend_truncate _ (by decide)⟩
  · exact ⟨_, _, _, exec_sextw .., rfl, rfl, toInt_signExtend_truncate _ (by decide)⟩
  · exact ⟨_, _, _, exec_zextw .., rfl, rfl, toNat_zextw _⟩

theorem unaryResults : UnaryResults := by
  intro s i a rd hform hfires
  obtain ⟨fn, ra, f, hexec, hv⟩ := unaryForm_eq s hform
  obtain ⟨t, ht, hslot, hframe⟩ 
    := tpSimple_fires (encR 1 rd ra 0 fn) (legal := (0 : Reg) == 0) (fun sl => sl.setReg rd (f (sl.reg ra))) rfl hfires
  exact ⟨t, _, hexec.trans ht, hv, by rw [hslot, stepped_setReg, reg_stepped], hframe⟩

/-- An immediate instruction writes `v` to `rd` from one source register, with its reserved bits zero. -/
def ImmediateForm (s : State) (i : Instr) (a : At) (len : Nat) (rd : Reg) (v : Word) : Prop :=
  ∃ (word : Nat) (legal : Bool) (ra : Reg) (f : Word → Word), legal = true
    ∧ exec i s = tpSimple a len word legal (fun sl => sl.setReg rd (f (sl.reg ra))) s
    ∧ f ((own s a).reg ra) = v

theorem immediateForm_aluI {s : State} {i : Instr} {a : At} {op : Nat} {rd ra : Reg} {imm : BitVec 16} {legal : Bool}
    {f : Word → Word} {v : Word} (hl : legal = true) (hexec : exec i s = aluI a op rd ra imm legal f s) (hv : f ((own s a).reg ra) = v) :
    ImmediateForm s i a 4 rd v :=
  ⟨_, _, _, _, hl, hexec, hv⟩

theorem immediateForm_of_result {s : State} {i : Instr} {a : At} {len : Nat} {rd : Reg} {v : Word}
    (h : immediateResult s i = some (a, len, rd, v)) : ImmediateForm s i a len rd v := by
  unfold immediateResult at h
  split at h
  case h_11 => exact absurd h (by simp)
  case h_7 a' rd' ra imm =>
    rw [Option.ite_none_right_eq_some] at h
    obtain ⟨hlt, h⟩ := h
    simp only [Option.some.injEq, Prod.mk.injEq] at h
    obtain ⟨rfl, rfl, rfl, rfl⟩ := h
    exact immediateForm_aluI (decide_eq_true hlt) (exec_shi ..) (shi_eq _ _ hlt)
  case h_8 a' rd' ra imm =>
    rw [Option.ite_none_right_eq_some] at h
    obtain ⟨rfl, h⟩ := h
    simp only [Option.some.injEq, Prod.mk.injEq] at h
    obtain ⟨rfl, rfl, rfl, rfl⟩ := h
    exact immediateForm_aluI rfl (exec_lui ..) (lui_eq _)
  all_goals
    simp only [Option.some.injEq, Prod.mk.injEq] at h
    obtain ⟨rfl, rfl, rfl, rfl⟩ := h
  · exact immediateForm_aluI rfl (exec_addi ..) (ofInt_add_signExtend _ _).symm
  · exact immediateForm_aluI rfl (exec_andi ..) (by rw [word_and, zext16_toNat])
  · exact immediateForm_aluI rfl (exec_ori ..) (by rw [word_or, zext16_toNat])
  · exact immediateForm_aluI rfl (exec_xori ..) (by rw [word_xor, zext16_toNat])
  · refine immediateForm_aluI rfl (exec_slti ..) ?_
    rw [boolWord_slt, sext16, BitVec.toInt_signExtend_of_le (by decide)]
  · exact immediateForm_aluI rfl (exec_sltiu ..) (boolWord_ult _ _)
  · exact immediateForm_aluI rfl (exec_lhi ..) (lhi_eq _ _)
  case h_10 a' rd' ra imm =>
    refine ⟨_, _, ra, fun x => x + imm.signExtend 64, rfl, exec_addix .., ?_⟩
    rw [BitVec.ofInt_add, BitVec.ofInt_toInt]
    rfl

theorem immediateResults : ImmediateResults := by
  intro s i a len rd v hform hfires
  obtain ⟨word, legal, ra, f, hl, hexec, rfl⟩ := immediateForm_of_result hform
  obtain ⟨t, ht, hslot, hframe⟩ := tpSimple_fires word (fun sl => sl.setReg rd (f (sl.reg ra))) hl hfires
  exact ⟨t, hexec.trans ht, by rw [hslot, stepped_setReg, reg_stepped], hframe⟩

/-- Settles O4: the integer instructions of two sources, of one source and with an immediate. -/
theorem integerInstructions : Obligations.IntegerResults := ⟨integerResults, unaryResults, immediateResults⟩

/-- Settles O5: ADDS and SUBS by `saturatingResults`; the others only write RD, at once or late. -/
theorem saturationAndItsFlag : Obligations.SaturationAndItsFlag := by
  refine ⟨saturatingResults, fun s i a len h hfires => ?_⟩
  have hsat (rd : Nat) (v : Word) : (stepped s a len ((own s a).setReg rd v)).sat = (own s a).sat := by
    unfold Slot.setReg
    split
    · rfl
    · rfl
  obtain ⟨rfl, ⟨⟨rd, v⟩, hform⟩ | ⟨⟨rd, v⟩, hform⟩ | ⟨rd, hform⟩⟩ | ⟨⟨rd, v⟩, hform⟩ := h
  · obtain ⟨t, ht, hslot, -⟩ := integerResults s i a rd v hform hfires
    exact ⟨t, ht, by rw [hslot, hsat]⟩
  · obtain ⟨fn, ra, rb, f, hexec, -⟩ := divisionResult_eq hform
    obtain ⟨t, ht, hslot, -⟩ := aluDiv_fires fn rd ra rb f hfires
    exact ⟨t, hexec.trans ht, by rw [hslot]; rfl⟩
  · obtain ⟨t, v, ht, -, hslot, -⟩ := unaryResults s i a rd hform hfires
    exact ⟨t, ht, by rw [hslot, hsat]⟩
  · obtain ⟨t, ht, hslot, -⟩ := immediateResults s i a len rd v hform hfires
    exact ⟨t, ht, by rw [hslot, hsat]⟩

/-- A slot at its target (R86): it may issue one cycle later than otherwise. -/
def jumped (s : State) (a : At) (rd : Reg) (target : Word) : Slot :=
  { stepped s a 4 ((own s a).setReg rd ((own s a).pc + 4)) with
    pc := target, branchFrom := some (own s a).pc, readyAt := issueCycle s a + 2 }

/-- The slot behind a branch or jump. -/
def flowed (s : State) (a : At) (rd : Reg) : Option Word → Slot
  | none => stepped s a 4 (own s a)
  | some target => jumped s a rd target

/-- A branch or jump as an instruction whose effect is on its own slot. -/
def FlowForm (s : State) (i : Instr) (a : At) (target : Option Word) (rd : Reg) : Prop :=
  ∃ (word : Nat) (f : Slot → Slot), exec i s = tpSimple a 4 word true f s ∧ f (stepped s a 4 (own s a)) = flowed s a rd target

theorem flowForm_branch {s : State} {i : Instr} {a : At} {op : Nat} {ra rb : Reg} {off : BitVec 16} {c : Word → Word → Bool}
    {P : Prop} [Decidable P] (hexec : exec i s = branch a op ra rb off c s)
    (hc : c ((own s a).reg ra) ((own s a).reg rb) = true ↔ P) :
    FlowForm s i a (if P then some (flowResult.to16 s a off) else none) 0 := by
  refine ⟨_, fun sl => if c (sl.reg ra) (sl.reg rb) then sl.jump (at_ s a).pc ((at_ s a).pc + off16 off) else sl, hexec, ?_⟩
  beta_reduce
  rw [reg_stepped, reg_stepped, ← own_pc]
  by_cases h : P
  · rw [if_pos (hc.2 h), if_pos h]
    show ({ stepped s a 4 (own s a) with pc := _, branchFrom := _, readyAt := _ } : Slot) = jumped s a 0 (flowResult.to16 s a off)
    rw [off16, pc_add_offset]
    rfl
  · rw [if_neg (mt hc.1 h), if_neg h]
    rfl

/-- A jump links the address of the next instruction in RD. -/
theorem jump_stepped (s : State) (a : At) (rd : Reg) (target : Word) :
    ((stepped s a 4 (own s a)).setReg rd ((own s a).pc + 4)).jump (own s a).pc target = jumped s a rd target := by
  rw [stepped_setReg]
  rfl

theorem flowForm_of_result {s : State} {i : Instr} {a : At} {target : Option Word} {rd : Reg}
    (h : flowResult s i = some (a, target, rd)) : FlowForm s i a target rd := by
  unfold flowResult at h
  split at h
  case h_9 => exact absurd h (by simp)
  all_goals
    simp only [Option.some.injEq, Prod.mk.injEq] at h
    obtain ⟨rfl, rfl, rfl⟩ := h
  · exact flowForm_branch (exec_beq ..) (by rw [beq_iff_eq, BitVec.toNat_inj])
  · exact flowForm_branch (exec_bne ..) (by rw [bne_iff_ne, ne_eq, ne_eq, BitVec.toNat_inj])
  · exact flowForm_branch (exec_blt ..) BitVec.slt_iff_toInt_lt
  · exact flowForm_branch (exec_bge ..) (by rw [Bool.not_eq_true', ← Bool.not_eq_true, BitVec.slt_iff_toInt_lt, Int.not_lt])
  · exact flowForm_branch (exec_bltu ..) BitVec.ult_iff_toNat_lt
  · exact flowForm_branch (exec_bgeu ..) (by rw [Bool.not_eq_true', ← Bool.not_eq_true, BitVec.ult_iff_toNat_lt, Nat.not_lt])
  case h_7 a' rd' off =>
    refine ⟨_, fun sl => (sl.setReg rd' ((at_ s a').pc + 4)).jump (at_ s a').pc ((at_ s a').pc + off21 off), exec_jal .., ?_⟩
    beta_reduce
    rw [← own_pc, jump_stepped, off21, pc_add_offset]
    rfl
  case h_8 a' rd' ra imm =>
    refine ⟨_, fun sl => (sl.setReg rd' ((at_ s a').pc + 4)).jump (at_ s a').pc ((sl.reg ra + sext16 imm) &&& ~~~3), exec_jalr .., ?_⟩
    beta_reduce
    rw [← own_pc, reg_stepped, jump_stepped, clear_low_two, ofInt_add_signExtend]
    rfl

/-- Settles O3: by the form of each branch and jump. -/
theorem branchResults : Obligations.BranchResults := by
  intro s i a target rd hform hfires
  obtain ⟨word, f, hexec, hf⟩ := flowForm_of_result hform
  obtain ⟨t, ht, hslot, hframe⟩ := tpSimple_fires word f rfl hfires
  refine ⟨t, hexec.trans ht, ?_, hframe⟩
  rw [hslot, hf]
  cases target with
  | none => rfl
  | some x => rfl

end Sys2Proof.Claims

/-!
SUPPORT. The accesses of the scratchpad up to their bank (R70-R73, R78).
-/
namespace Sys2Proof.Claims

open Sys2Proof.Machine

/-! Accesses of the scratchpad (R70-R73, R78). -/

theorem accessBytes_eq_size (k : MemKind) : accessBytes k = k.size := by
  cases k with
  | load => rfl
  | store => rfl
  | _ => rfl

theorem getLsbD_fifteen (m : BitVec 16) : m.getLsbD 15 = decide (2 ^ 15 ≤ m.toNat) := by
  have hm := m.isLt
  rw [← BitVec.testBit_toNat, Nat.testBit_eq_decide_div_mod_eq]
  exact decide_eq_decide.2 (by omega)

/-- IMM[14:0] sign-extended from bit 14. -/
theorem ofInt_add_signExtend15 (x : Word) (m : BitVec 16) : BitVec.ofInt 64 (x.toInt + toSigned 15 m.toNat) = x + sext15 m := by
  rw [← toInt_ofNat_eq_toSigned, BitVec.ofInt_add, BitVec.ofInt_toInt, BitVec.ofNat_toNat]
  rfl

theorem accessForm_eq {s : State} {i : Instr} {a : At} {k : MemKind} {rd : Reg} {ta v : Word} (h : accessForm s i = some (a, k, rd, ta, v)) :
    ∃ word ra rv disp, exec i s = tpAccess a word k rd ra rv disp s ∧ (own s a).reg ra + disp = ta ∧ (own s a).reg rv = v := by
  have hdisp (a : At) (ra : Reg) (imm : BitVec 16) : (own s a).reg ra + sext16 imm = accessForm.ea s a ra imm :=
    (ofInt_add_signExtend _ _).symm
  have hdisp15 (a : At) (ra : Reg) (imm : BitVec 16) : (own s a).reg ra + sext15 imm = accessForm.ea15 s a ra imm :=
    (ofInt_add_signExtend15 _ _).symm
  unfold accessForm at h
  split at h
  case h_20 => exact absurd h (by simp)
  all_goals
    simp only [Option.some.injEq, Prod.mk.injEq] at h
    obtain ⟨rfl, rfl, rfl, rfl, rfl⟩ := h
  · exact ⟨_, _, _, _, exec_lb .., hdisp .., rfl⟩
  · exact ⟨_, _, _, _, exec_lbu .., hdisp .., rfl⟩
  · exact ⟨_, _, _, _, exec_lh .., hdisp .., rfl⟩
  · exact ⟨_, _, _, _, exec_lhu .., hdisp .., rfl⟩
  · exact ⟨_, _, _, _, exec_lw .., hdisp .., rfl⟩
  · exact ⟨_, _, _, _, exec_lwu .., hdisp .., rfl⟩
  · exact ⟨_, _, _, _, exec_ld .., hdisp .., rfl⟩
  · exact ⟨_, _, _, _, exec_sb .., hdisp .., rfl⟩
  · exact ⟨_, _, _, _, exec_sh .., hdisp .., rfl⟩
  · exact ⟨_, _, _, _, exec_sw .., hdisp .., rfl⟩
  · exact ⟨_, _, _, _, exec_sd .., hdisp .., rfl⟩
  · exact ⟨_, _, _, _, exec_amoadd .., BitVec.add_zero _, rfl⟩
  · exact ⟨_, _, _, _, exec_amoswap .., BitVec.add_zero _, rfl⟩
  · exact ⟨_, _, _, _, exec_amocas .., BitVec.add_zero _, rfl⟩
  · exact ⟨_, _, _, _, exec_amoor .., BitVec.add_zero _, rfl⟩
  · exact ⟨_, _, _, _, exec_amoand .., BitVec.add_zero _, rfl⟩
  · rw [← getLsbD_fifteen]
    exact ⟨_, _, _, _, exec_take .., hdisp15 .., rfl⟩
  · rw [← getLsbD_fifteen]
    exact ⟨_, _, _, _, exec_put .., hdisp15 .., rfl⟩
  case h_19 a' d x m => exact ⟨encI 0x2C d x m, x, 0, sext16 m, exec_wopen .., hdisp .., rfl⟩

section
variable {s : State} {a : At} (word : Nat) (k : MemKind) (rd ra rv : Reg) (disp : Word)

theorem tpAccess_faults {code : Nat} (h : Fires s a 4) (haddr : (own s a).addrFault ((own s a).reg ra + disp) k.size = some code) :
    tpAccess a word k rd ra rv disp s
      = .next ((s.issued a).takeFault (corep a) a.slot.val code (own s a).pc ((own s a).reg ra + disp)) := by
  dsimp only [tpAccess]
  rw [tpIssue_fires _ _ _ h, if_pos rfl]
  simp only [State.faultAt, show (s.issued a).slot a.core.val a.slot.val = own s a from slot_issued_eq s a, haddr]

theorem tpAccess_requests (h : Fires s a 4) (haddr : (own s a).addrFault ((own s a).reg ra + disp) k.size = none) :
    tpAccess a word k rd ra rv disp s = .next ((s.issued a).request (corep a) a.slot.val k rd rv ((own s a).reg ra + disp)) := by
  dsimp only [tpAccess]
  rw [tpIssue_fires _ _ _ h, if_pos rfl]
  simp only [show (s.issued a).slot a.core.val a.slot.val = own s a from slot_issued_eq s a, haddr]

end

/-- Settles O6: the check of the address, the bound before the alignment, and the request at the bank. -/
theorem accessIssue : Obligations.AccessIssue := by
  intro s i a k rd ta v hform hfires
  obtain ⟨word, ra, rv, disp, hexec, rfl, rfl⟩ := accessForm_eq hform
  rw [hexec, accessBytes_eq_size]
  have hown : (s.issued a).slot (corep a) a.slot.val = own s a := slot_issued_eq s a
  refine ⟨fun hbound halign => ?_, fun hbound => ?_, fun hbound halign => ?_⟩
  · obtain ⟨hslot, hseq⟩ := request_issued s a k rd rv ((own s a).reg ra + disp)
    rw [tpAccess_requests word k rd ra rv disp hfires ((addrFault_eq_none _ _ _).2 ⟨hbound, halign⟩)]
    refine ⟨_, _, rfl, hslot, rfl, rfl, ?_, rfl, ?_, ?_, ?_, rfl, hseq, issueFrame_request s a k rd rv _⟩
    · rw [requested, hown]
    · rw [requested, hown]
    · rw [requested, hown]
    · exact core_issued_field s a Core.memSeq fun _ _ _ _ => rfl
  · rw [tpAccess_faults word k rd ra rv disp hfires (addrFault_beyond hbound)]
    exact ⟨_, rfl, faulted_issued s a _ _ _⟩
  · rw [tpAccess_faults word k rd ra rv disp hfires (addrFault_misaligned hbound halign)]
    exact ⟨_, rfl, faulted_issued s a _ _ _⟩

end Sys2Proof.Claims

/-!
SUPPORT. User messages: their receivers and their sending (R82, R231, R235).
-/
namespace Sys2Proof.Machine

/-! Tokens that ripen, and the examination of one slot's wait. -/

theorem Slot.lt_of_mem_due_ripen {now : Nat} {sl : Slot} {e : Nat × Nat × Status} (h : e ∈ (sl.ripen now).due) : now < e.1 := by
  unfold Slot.ripen at h
  split at h
  · rename_i hempty
    rw [List.isEmpty_iff.1 hempty] at h
    cases h
  · exact of_decide_eq_true (List.mem_filter.1 h).2

theorem Slot.ripen_of_due {now : Nat} {sl : Slot} (h : ∀ e ∈ sl.due, now < e.1) : sl.ripen now = sl := by
  have hnone : sl.due.filter (fun e => decide (e.1 ≤ now)) = [] :=
    List.filter_eq_nil_iff.2 fun e he => by simpa using h e he
  have hall : sl.due.filter (fun e => decide (now < e.1)) = sl.due :=
    List.filter_eq_self.2 fun e he => decide_eq_true (h e he)
  unfold Slot.ripen
  split
  · rfl
  · rw [hnone, hall]
    rfl

/-- What is due by a cycle completes once. -/
theorem Core.slot_settleSlots_of_not_mem (now : Nat) (edges : SMap Nat) {is : List Nat} (c : Core) {j : Nat} (h : j ∉ is) :
    (c.settleSlots now edges is).slot j = c.slot j := by
  induction is generalizing c with
  | nil => rfl
  | cons i is ih =>
    rw [List.mem_cons, not_or] at h
    exact (ih (c.modSlot i (settleSlot now c.spad edges)) h.2).trans (Core.slot_modSlot_other c _ h.1)

/-- Each slot's own wait is examined once. -/
theorem Core.slot_settleSlots_of_mem (now : Nat) (edges : SMap Nat) {is : List Nat} (c : Core) {j : Nat} (hn : is.Nodup) (h : j ∈ is) :
    (c.settleSlots now edges is).slot j = settleSlot now c.spad edges (c.slot j) := by
  induction is generalizing c with
  | nil => cases h
  | cons i is ih =>
    rw [List.nodup_cons] at hn
    rcases eq_or_ne j i with rfl | hne
    · exact (Core.slot_settleSlots_of_not_mem now edges (c.modSlot j (settleSlot now c.spad edges)) hn.1).trans
        (Core.slot_modSlot_same c j _)
    · have hstep := ih (c.modSlot i (settleSlot now c.spad edges)) hn.2 ((List.mem_cons.1 h).resolve_left hne)
      rw [Core.slot_modSlot_other c _ hne] at hstep
      exact hstep

/-- A slot of a core that does not wait only ripens through the examination of the waits. -/
theorem Core.slot_settle_of_not_waiting (now : Nat) (edges : SMap Nat) (c : Core) {j : Nat} (hj : j < 8) (h : (c.slot j).mode ≠ .waiting) :
    (c.settle now edges).slot j = (c.slot j).ripen now := by
  have hslots := (Core.slot_settleSlots_of_mem now edges c List.nodup_range (List.mem_range.2 hj)).trans
    (settleSlot_of_not_waiting now c.spad edges h)
  rw [Core.settle_eq, Core.slot_deliverAll now _ _ (by rw [hslots, Slot.ripen_mode]; exact h), hslots]

/-! Messages and their receivers (R82, R231). -/

/-- The search for the earliest wait ends with what it began with or with an entry it met. -/
theorem mem_of_earliest {l : List (Nat × Nat)} {b : Option (Nat × Nat)} {x : Nat × Nat}
    (h : l.foldl (fun best x => match best with
      | none => some x
      | some b => if x.1 < b.1 then some x else some b) b = some x) : b = some x ∨ x ∈ l := by
  induction l generalizing b with
  | nil => exact .inl h
  | cons y l ih =>
    rcases ih h with h | h
    · cases b with
      | none => exact .inr (List.mem_cons.2 (.inl (Option.some.inj h).symm))
      | some z =>
        rcases ite_eq_iff.1 h with ⟨-, hy⟩ | ⟨-, hz⟩
        · exact .inr (List.mem_cons.2 (.inl (Option.some.inj hy).symm))
        · exact .inl hz
    · exact .inr (List.mem_cons_of_mem _ h)

/-- The slot that takes the next message waits for one of its channel and its TICKP. -/
theorem Core.receiver_spec {c : Core} {k chan i : Nat} (h : c.receiver k chan = some i) :
    ∃ rd since, (c.slot i).wait = .message rd chan since ∧ tickp (c.slot i).tick = k := by
  obtain ⟨x, hx, rfl⟩ := Option.map_eq_some_iff.1 h
  have hmem := (mem_of_earliest hx).resolve_left (fun h => nomatch h)
  obtain ⟨j, -, hj⟩ := List.mem_filterMap.1 hmem
  revert hj
  dsimp only
  split
  · rename_i rd ch since hmode hwait
    intro hj
    obtain ⟨⟨rfl, htick⟩, hentry⟩ := Option.ite_none_right_eq_some.1 hj
    obtain rfl := Option.some.inj hentry
    exact ⟨rd, since, hwait, htick⟩
  · intro hj
    cases hj

theorem takeMsg_eq_none {k chan : Nat} {q : List UserMsg} (h : ∀ m ∈ q, ¬ (m.chan = chan ∧ tickp m.tick = k)) : takeMsg k chan q = none := by
  induction q with
  | nil => rfl
  | cons m q ih =>
    rw [List.forall_mem_cons] at h
    rw [takeMsg, if_neg h.1, ih h.2]
    rfl

/-- The oldest message of the channel leaves the queue, and the others keep their order. -/
theorem takeMsg_append {k chan : Nat} {m : UserMsg} {before : List UserMsg} (after : List UserMsg) (hm : m.chan = chan ∧ tickp m.tick = k)
    (h : ∀ x ∈ before, ¬ (x.chan = chan ∧ tickp x.tick = k)) : takeMsg k chan (before ++ m :: after) = some (m, before ++ after) := by
  induction before with
  | nil => rw [List.nil_append, takeMsg, if_pos hm, List.nil_append]
  | cons x before ih =>
    rw [List.forall_mem_cons] at h
    rw [List.cons_append, takeMsg, if_neg h.1, ih h.2]
    rfl

theorem takeMsg_subset {k chan : Nat} {q rest : List UserMsg} {m : UserMsg} (h : takeMsg k chan q = some (m, rest)) : rest ⊆ q := by
  induction q generalizing m rest with
  | nil => cases h
  | cons x q ih =>
    rw [takeMsg] at h
    split at h
    · cases h
      exact List.subset_cons_self x q
    · obtain ⟨⟨y, r⟩, hr, hy⟩ := Option.map_eq_some_iff.1 h
      cases hy
      exact List.cons_subset_cons x (ih hr)

/-- A message that no queued message can end the wait of stays with its slot through a delivery. -/
theorem Core.deliver_of_no_message {now : Nat} {c : Core} {i rd chan since : Nat} (x : Nat)
    (hwait : (c.slot i).wait = .message rd chan since)
    (hnone : ∀ m ∈ c.node.recvQ, ¬ (m.chan = chan ∧ tickp m.tick = tickp (c.slot i).tick)) :
    (c.deliver now x).slot i = c.slot i ∧ (c.deliver now x).node.recvQ ⊆ c.node.recvQ := by
  unfold Core.deliver
  dsimp only
  split
  · exact ⟨rfl, List.Subset.refl _⟩
  · rename_i j hj
    split
    · exact ⟨rfl, List.Subset.refl _⟩
    · rename_i m rest htake
      obtain ⟨rd', since', hj', hk⟩ := Core.receiver_spec hj
      refine ⟨?_, takeMsg_subset htake⟩
      rcases eq_or_ne i j with rfl | hne
      · rw [hwait] at hj'
        cases hj'
        rw [takeMsg_eq_none (hk ▸ hnone)] at htake
        cases htake
      · rw [Core.slot_node, Core.slot_setSlot_other _ _ hne]

theorem Core.slot_deliverAll_of_no_message (now : Nat) (xs : List Nat) {c : Core} {i rd chan since : Nat}
    (hwait : (c.slot i).wait = .message rd chan since)
    (hnone : ∀ m ∈ c.node.recvQ, ¬ (m.chan = chan ∧ tickp m.tick = tickp (c.slot i).tick)) :
    (c.deliverAll now xs).slot i = c.slot i := by
  induction xs generalizing c with
  | nil => rfl
  | cons x xs ih =>
    obtain ⟨hslot, hsub⟩ := Core.deliver_of_no_message (now := now) x hwait hnone
    exact (ih (c := c.deliver now x) (by rw [hslot, hwait]) (by rw [hslot]; exact fun m hm => hnone m (hsub hm))).trans hslot

theorem Core.node_settleSlots (now : Nat) (edges : SMap Nat) (is : List Nat) (c : Core) : (c.settleSlots now edges is).node = c.node := by
  have h := Core.settleSlots_rest now edges is c
  generalize c.settleSlots now edges is = d at h ⊢
  rw [← h]

/-- A slot that waits for a message stays waiting while the queue holds none for it. -/
theorem Core.slot_settle_of_no_message (now : Nat) (edges : SMap Nat) {c : Core} {i rd chan since : Nat} (hi : i < 8)
    (hmode : (c.slot i).mode = .waiting) (hwait : (c.slot i).wait = .message rd chan since)
    (hnone : ∀ m ∈ c.node.recvQ, ¬ (m.chan = chan ∧ tickp m.tick = tickp (c.slot i).tick)) :
    (c.settle now edges).slot i = (c.slot i).ripen now := by
  have hripe : settleSlot now c.spad edges (c.slot i) = (c.slot i).ripen now := by
    unfold settleSlot
    dsimp only
    rw [if_neg (by rw [Slot.ripen_mode, hmode]; decide)]
    simp only [Slot.ripen_wait, hwait]
  have hslots := (Core.slot_settleSlots_of_mem now edges c List.nodup_range (List.mem_range.2 hi)).trans hripe
  have htick : ((c.slot i).ripen now).tick = (c.slot i).tick :=
    Slot.sameButTokens_field ((c.slot i).ripen_sameButTokens now) Slot.tick fun _ _ _ => rfl
  rw [Core.settle_eq, Core.slot_deliverAll_of_no_message now _ (by rw [hslots, Slot.ripen_wait, hwait])
    (by rw [hslots, Core.node_settleSlots, htick]; exact hnone), hslots]

/-! The sending of user messages (R235). -/

theorem sendNow_msgs (seen : List Nat) (q : List UserSend) : (sendNow seen q).1.map UserSend.msg = q.map UserSend.msg := by
  induction q generalizing seen with
  | nil => rfl
  | cons u q ih =>
    rw [sendNow]
    dsimp only
    split
    · rw [List.map_cons, List.map_cons, ih]
    · rw [List.map_cons, List.map_cons, ih]

theorem State.route2_rest (s : State) (h dest : Nat) (m : Class2) : ({ s.route2 h dest m with hubs := s.hubs } : State) = s := by
  unfold State.route2
  split
  · rfl
  · split
    · rfl
    · split
      · rfl
      · rfl

/-- The messages that leave change the hubs of their routes alone. -/
theorem State.routeUser_rest (s : State) (h : Nat) (ms : List UserMsg) :
    ({ ms.foldl (fun s m => s.route2 h (s.siteOf m.dest) (.user m)) s with hubs := s.hubs } : State) = s := by
  induction ms generalizing s with
  | nil => rfl
  | cons m ms ih =>
    have hms := congrArg (fun t : State => ({ t with hubs := s.hubs } : State)) (ih (s.route2 h (s.siteOf m.dest) (.user m)))
    exact hms.trans (s.route2_rest _ _ _)

/-- What a node's sending changes: the marks of its queued messages, and the hubs. -/
theorem State.pumpUser_spec (s : State) (p : Nat) :
    (s.pumpUser p).core p
        = { s.core p with node := { (s.core p).node with sendQ := (sendNow [] (s.core p).node.sendQ).1 } }
      ∧ (∀ q, q ≠ p → (s.pumpUser p).core q = s.core q)
      ∧ ({ s.pumpUser p with cores := s.cores, hubs := s.hubs } : State) = s := by
  have hroute : ({ s.pumpUser p with hubs := s.hubs } : State)
      = s.modCore p (fun c => { c with node := { c.node with sendQ := (sendNow [] (s.core p).node.sendQ).1 } }) :=
    State.routeUser_rest _ (p / 50) (sendNow [] (s.core p).node.sendQ).2
  generalize s.pumpUser p = t at hroute ⊢
  have hcore (q : Nat) := congrArg (fun w : State => w.core q) hroute
  have hrest := congrArg (fun w : State => ({ w with cores := s.cores } : State)) hroute
  exact ⟨(hcore p).trans (State.core_modCore_same ..), fun q hq => (hcore q).trans (State.core_modCore_other _ _ hq), hrest⟩

/-- A message enters the send queue behind those that wait there; the queue and the hubs are all that changes. -/
theorem State.enqueueUser_spec (s : State) (p : Nat) (m : UserMsg) :
    (∃ q, (s.enqueueUser p m).core p = { s.core p with node := { (s.core p).node with sendQ := q } }
        ∧ q.map UserSend.msg = (s.core p).node.sendQ.map UserSend.msg ++ [m])
      ∧ (∀ q, q ≠ p → (s.enqueueUser p m).core q = s.core q)
      ∧ ({ s.enqueueUser p m with cores := s.cores, hubs := s.hubs } : State) = s := by
  obtain ⟨hcore, hother, hrest⟩ := State.pumpUser_spec (s.modCore p (fun c => { c with node := { c.node with
    sendQ := c.node.sendQ ++ [{ msg := m, inFlight := false, resendAt := none }] } })) p
  rw [State.core_modCore_same] at hcore
  refine ⟨⟨_, hcore, ?_⟩, fun q hq => (hother q hq).trans (State.core_modCore_other _ _ hq), ?_⟩
  · rw [sendNow_msgs, List.map_append]
    rfl
  · have h := congrArg (fun w : State => ({ w with cores := s.cores } : State)) hrest
    exact h

end Sys2Proof.Machine

/-!
SUPPORT. HSEND and HRECV (R81, R82, R231, R260).
-/
namespace Sys2Proof.Claims

open Sys2Proof.Machine

/-! An instruction that changes its slot and the node of its core. -/

theorem node_issued {s t : State} {a : At} (f : Slot → Slot) (n : Node) {g : State → State} (hnow : t.now = issueCycle s a)
    (hcore : t.core (corep a) = { ((s.issued a).core (corep a)).modSlot a.slot.val f with node := n })
    (hother : ∀ q, q ≠ corep a → t.core q = (s.issued a).core q) (hrest : g { t with now := s.now, cores := s.cores } = s) :
    at_ t a = f (own s a) ∧ (t.core (corep a)).node = n ∧ IssueFrame s t a (fun c => { c with node := (s.core (corep a)).node }) g := by
  have hown : (s.issued a).slot (corep a) a.slot.val = own s a := slot_issued_eq s a
  have hback := congrArg (fun c : Core => ({ c with node := (s.core (corep a)).node } : Core)) (core_issued s a)
  refine ⟨?_, by rw [hcore], issueFrame_of hnow hother ?_ ?_ ?_ (fun j hj => ?_) hrest⟩
  · rw [at_, State.slot, hcore, Core.slot_node, Core.slot_modSlot_same, ← hown, State.slot]
  · rw [hcore]
    rfl
  · rw [hcore]
    rfl
  · rw [hcore]
    exact hback
  · rw [State.slot, hcore, Core.slot_node, Core.slot_modSlot_other _ _ hj, State.slot]

/-! HSEND (R81, R260). -/

theorem own_runahead (s : State) (a : At) : (own s a).runahead = (at_ s a).runahead :=
  (Slot.sameButTokens_field (Slot.ripen_sameButTokens _ _) Slot.runahead fun _ _ _ => rfl).trans
    (by simp only [Slot.flush, Slot.setReg]; split <;> [rfl; (split <;> rfl)])

/-- What HSEND does where it issues. -/
def hsendBody (a : At) (ra rb : Reg) (fn : BitVec 11) (s : State) : State :=
  let p := a.core.val
  let i := a.slot.val
  let sl := s.slot p i
  let dest := (sl.reg rb).toNat
  let pay := (sl.reg ra).truncate 32
  if dest > 9215 ∨ (s.active.site (dest / 48)).isNone then s.faultAt a fAddressError (sl.reg rb)
  else if sl.runahead then
    (s.modSlot p i (fun sl => { (sl.advance 4 s.now) with
      mode := .waiting, wait := .held (.hsend fn.toNat dest pay) })).countHeld
  else
    (s.modSlot p i (fun sl => sl.advance 4 s.now)).enqueueUser p (s.userMsg p sl fn.toNat dest pay)

theorem hsend_fires {s : State} {a : At} (ra rb : Reg) {fn : BitVec 11} (h : Fires s a 4) (hfn : fn.toNat ≤ 15)
    (hplace : (own s a).runahead = true ∨ (s.core (corep a)).node.sendQ.length < 8) :
    exec (.hsend a 0 ra rb fn) s = .next (hsendBody a ra rb fn (s.issued a)) := by
  have hlegal : ((0 : Reg) == 0 && decide (fn.toNat < 16)) = true := decide_eq_true (Nat.lt_succ_of_le hfn)
  have hwaits : (s.core a.core.val).sendWaits (s.slot a.core.val a.slot.val) ((0 : Reg) == 0 && decide (fn.toNat < 16)) = false := by
    rw [hlegal, Core.sendWaits, show (s.slot a.core.val a.slot.val).runahead = (own s a).runahead from (own_runahead s a).symm]
    rcases hplace with hra | hlen
    · rw [hra]
      simp
    · rw [decide_eq_false (Nat.not_le.2 hlen)]
      rfl
  rw [exec_hsend, execHsend]
  dsimp only
  rw [hwaits, Bool.and_false, if_neg (by decide), tpIssue_fires _ _ _ h, if_pos hlegal]
  rfl

/-- The slot goes on, and its message is in the send queue (R235). -/
theorem enqueue_issued {s t : State} {a : At} {m : UserMsg}
    (ht : t = ((s.issued a).modSlot (corep a) a.slot.val (fun sl => sl.advance 4 (s.issued a).now)).enqueueUser (corep a) m) :
    at_ t a = stepped s a 4 (own s a)
      ∧ (t.core (corep a)).node.sendQ.map UserSend.msg = (s.core (corep a)).node.sendQ.map UserSend.msg ++ [m]
      ∧ IssueFrame s t a (fun c => { c with node := (s.core (corep a)).node }) (fun u => { u with hubs := s.hubs }) := by
  obtain ⟨⟨q, hcore, hq⟩, hother, hrest⟩ := State.enqueueUser_spec
    ((s.issued a).modSlot (corep a) a.slot.val (fun sl => sl.advance 4 (s.issued a).now)) (corep a) m
  rw [← ht] at hcore hother hrest
  rw [State.modSlot, State.core_modCore_same] at hcore hq
  have hnow : t.now = (s.issued a).now := (congrArg State.now hrest :)
  have hback := congrArg (fun u : State => ({ u with now := s.now, cores := s.cores, hubs := s.hubs } : State)) hrest
  obtain ⟨hslot, hnode, hframe⟩ := node_issued (t := t) (g := fun u => { u with hubs := s.hubs })
    (fun sl => sl.advance 4 (s.issued a).now) _ (hnow.trans (issued_now_eq s a)) hcore
    (fun q hq => (hother q hq).trans (State.core_modCore_other _ _ hq)) hback
  refine ⟨hslot.trans (by rw [issued_now_eq]; rfl), ?_, hframe⟩
  have hsendQ : ((s.issued a).core (corep a)).node.sendQ = (s.core (corep a)).node.sendQ :=
    core_issued_field s a (fun c => c.node.sendQ) fun _ _ _ _ => rfl
  rw [hnode, ← hsendQ]
  exact hq

theorem issueFrame_bump {s t : State} {a : At} (u off lo w n : Nat) (h : IssueFrame s t a id id) :
    IssueFrame s (t.bump u off lo w n) a id (fun u => { u with regs := s.regs, hw := s.hw }) := by
  obtain ⟨hnow, hlast, hat, hother, hcore, hslots, hrest⟩ := h
  have hback := congrArg (fun u : State => ({ u with regs := s.regs, hw := s.hw } : State)) hrest
  exact ⟨hnow, hlast, hat, hother, hcore, hslots, hback⟩

/-- The count of a held instruction is all that changes beside the slot (R260). -/
theorem held_issued (s : State) (a : At) (f : Slot → Slot) :
    at_ ((s.issued a).modSlot (corep a) a.slot.val f).countHeld a = f (own s a)
      ∧ IssueFrame s ((s.issued a).modSlot (corep a) a.slot.val f).countHeld a id (fun u => { u with regs := s.regs, hw := s.hw }) := by
  obtain ⟨hslot, hframe⟩ := modSlot_issued s a f
  refine ⟨Eq.trans ?_ hslot, issueFrame_bump _ _ _ _ _ hframe⟩
  rw [at_, State.slot, State.countHeld, State.bump_core]
  rfl

/-! HRECV (R82, R231). -/

/-- What HRECV does where it issues. -/
def hrecvBody (a : At) (rd : Reg) (imm : BitVec 16) (s : State) : State :=
  let p := a.core.val
  let i := a.slot.val
  match takeMsg (tickp (s.slot p i).tick) (imm.toNat % 16) (s.core p).node.recvQ with
  | some (m, rest) =>
    (s.modCore p (fun c => { c with node := { c.node with recvQ := rest } })).modSlot p i (fun sl =>
      (sl.advance 4 s.now).setReg rd (userWord m))
  | none =>
    if imm.getLsbD 15 then s.modSlot p i (fun sl => (sl.advance 4 s.now).setReg rd 0)
    else s.waitOn a (.message rd.val (imm.toNat % 16) s.now)

theorem hrecv_fires {s : State} {a : At} (rd : Reg) {imm : BitVec 16} (h : Fires s a 4) (himm : imm.toNat / 16 % 2 ^ 11 = 0) :
    exec (.hrecv a rd 0 imm) s = .next (hrecvBody a rd imm (s.issued a)) := by
  have hlegal : ((0 : Reg) == 0 && decide (field imm.toNat 4 11 = 0)) = true := by
    rw [field, Nat.shiftRight_eq_div_pow]
    exact decide_eq_true himm
  rw [exec_hrecv, execHrecv]
  dsimp only
  rw [tpIssue_fires _ _ _ h, if_pos hlegal]
  rfl

/-- The message taken leaves the queue, and its word is in RD. -/
theorem taken_issued (s : State) (a : At) (rd : Reg) (m : UserMsg) (rest : List UserMsg) {t : State}
    (ht : t = ((s.issued a).modCore (corep a) (fun c => { c with node := { c.node with recvQ := rest } })).modSlot (corep a) a.slot.val
      (fun sl => (sl.advance 4 (s.issued a).now).setReg rd (userWord m))) :
    at_ t a = stepped s a 4 ((own s a).setReg rd (userWord m)) ∧ (t.core (corep a)).node.recvQ = rest
      ∧ IssueFrame s t a (fun c => { c with node := (s.core (corep a)).node }) id := by
  have hcore : t.core (corep a) = { ((s.issued a).core (corep a)).modSlot a.slot.val
        (fun sl => (sl.advance 4 (s.issued a).now).setReg rd (userWord m)) with
      node := { ((s.issued a).core (corep a)).node with recvQ := rest } } := by
    rw [ht, State.modSlot, State.core_modCore_same, State.core_modCore_same]
    rfl
  have hother : ∀ q, q ≠ corep a → t.core q = (s.issued a).core q := fun q hq => by
    rw [ht, State.modSlot, State.core_modCore_other _ _ hq, State.core_modCore_other _ _ hq]
  have hrest : ({ t with now := s.now, cores := s.cores } : State) = s := by
    rw [ht]
    rfl
  obtain ⟨hslot, hnode, hframe⟩ := node_issued (t := t) (g := id) _ _ (by rw [ht]; exact issued_now_eq s a) hcore hother hrest
  refine ⟨hslot.trans ?_, by rw [hnode], hframe⟩
  rw [issued_now_eq, ← stepped_setReg]
  rfl

theorem ripen_waitingOn (s : State) (a : At) (w : WaitOn) : (waitingOn s a w).ripen (issueCycle s a) = waitingOn s a w :=
  Slot.ripen_of_due (sl := waitingOn s a w) fun _ h => Slot.lt_of_mem_due_ripen (sl := (at_ s a).flush) h

/-- The slot waits while the queue holds no message for it. -/
theorem waitOn_message_issued (s : State) (a : At) (rd : Reg) (chan since : Nat)
    (hnone : ∀ m ∈ (s.core (corep a)).node.recvQ, ¬ (m.chan = chan ∧ tickp m.tick = tickp (own s a).tick)) :
    at_ ((s.issued a).waitOn a (.message rd.val chan since)) a = waitingOn s a (.message rd.val chan since) := by
  have hrecvQ : ((s.issued a).core (corep a)).node.recvQ = (s.core (corep a)).node.recvQ :=
    core_issued_field s a (fun c => c.node.recvQ) fun _ _ _ _ => rfl
  have hown : ((s.issued a).core (corep a)).slot a.slot.val = own s a := slot_issued_eq s a
  set c := ((s.issued a).core (corep a)).modSlot a.slot.val (fun sl =>
      { (sl.advance 4 (issueCycle s a)) with mode := .waiting, wait := .message rd.val chan since }) with hc
  have hslot : c.slot a.slot.val = waitingOn s a (.message rd.val chan since) := by
    rw [hc, Core.slot_modSlot_same, hown]
    rfl
  have hsettle := Core.slot_settle_of_no_message (issueCycle s a) (s.issued a).gen.lastEdge (c := c) a.slot.isLt (by rw [hslot]; rfl)
    (by rw [hslot]; rfl) (by rw [hslot]; exact hrecvQ ▸ hnone)
  rw [hslot, ripen_waitingOn] at hsettle
  rw [at_, State.waitOn, State.settle, State.slot, State.core_modCore_same, State.modSlot, State.core_modCore_same, issued_now_eq]
  exact (congrArg (fun now => (Core.settle now _ c).slot a.slot.val) (issued_now_eq s a)).trans hsettle

/-- Settles O8: the outcomes of HSEND and of HRECV where they issue. -/
theorem userMessages : Obligations.UserMessages := by
  intro s a rd ra rb fn imm hfires
  have hown : (s.issued a).slot a.core.val a.slot.val = own s a := slot_issued_eq s a
  have hactive : (s.issued a).active = s.active := rfl
  have hrecvQ : ((s.issued a).core a.core.val).node.recvQ = (s.core (corep a)).node.recvQ :=
    core_issued_field s a (fun c => c.node.recvQ) fun _ _ _ _ => rfl
  refine ⟨fun hfn => ⟨fun hra hlen hdest hsite => ?_, fun hra hdest hsite => ?_, fun hplace hbad => ?_⟩,
    fun himm => ⟨fun m before after hq hm hbefore => ?_, fun hnone => ?_⟩⟩
  · have hgo : ¬ (un s a rb > 9215 ∨ (s.active.site (un s a rb / 48)).isNone = true) := by
      rw [Option.isNone_iff_eq_none]
      exact not_or.2 ⟨Nat.not_lt.2 hdest, hsite⟩
    have hbody : hsendBody a ra rb fn (s.issued a)
        = ((s.issued a).modSlot (corep a) a.slot.val (fun sl => sl.advance 4 (s.issued a).now)).enqueueUser (corep a)
          ((s.issued a).userMsg (corep a) (own s a) fn.toNat (un s a rb) (((own s a).reg ra).truncate 32)) := by
      rw [hsendBody]
      dsimp only
      rw [hown, hactive, if_neg hgo, hra, if_neg (by decide)]
    obtain ⟨hslot, hmsgs, hframe⟩ := enqueue_issued hbody
    refine ⟨_, hsend_fires ra rb hfires hfn (.inr hlen), hslot, hmsgs.trans ?_, hframe⟩
    rw [State.userMsg, BitVec.truncate, BitVec.ofNat_toNat]
    rfl
  · have hgo : ¬ (un s a rb > 9215 ∨ (s.active.site (un s a rb / 48)).isNone = true) := by
      rw [Option.isNone_iff_eq_none]
      exact not_or.2 ⟨Nat.not_lt.2 hdest, hsite⟩
    have hbody : hsendBody a ra rb fn (s.issued a)
        = ((s.issued a).modSlot (corep a) a.slot.val (fun sl => { (sl.advance 4 (issueCycle s a)) with
            mode := .waiting, wait := .held (.hsend fn.toNat (un s a rb) (((own s a).reg ra).truncate 32)) })).countHeld := by
      rw [hsendBody]
      dsimp only
      rw [hown, hactive, if_neg hgo, hra, if_pos rfl, issued_now_eq]
    obtain ⟨hslot, hframe⟩ := held_issued s a (fun sl => { (sl.advance 4 (issueCycle s a)) with
      mode := .waiting, wait := .held (.hsend fn.toNat (un s a rb) (((own s a).reg ra).truncate 32)) })
    rw [← hbody] at hslot hframe
    refine ⟨_, hsend_fires ra rb hfires hfn (.inl hra), hslot.trans ?_, hframe⟩
    rw [waitingOn, BitVec.truncate, BitVec.ofNat_toNat]
    rfl
  · refine ⟨_, hsend_fires ra rb hfires hfn hplace, ?_⟩
    rw [hsendBody]
    dsimp only
    rw [hown, hactive, if_pos (by rw [Option.isNone_iff_eq_none]; exact hbad), State.faultAt, hown]
    exact faulted_issued s a _ _ _
  · have hbody : hrecvBody a rd imm (s.issued a)
        = ((s.issued a).modCore (corep a) (fun c => { c with node := { c.node with recvQ := before ++ after } })).modSlot (corep a)
          a.slot.val (fun sl => (sl.advance 4 (s.issued a).now).setReg rd (userWord m)) := by
      rw [hrecvBody]
      dsimp only
      rw [hown, hrecvQ, hq, takeMsg_append (k := tickp (own s a).tick) after hm hbefore]
    exact ⟨_, hrecv_fires rd hfires himm, taken_issued s a rd m _ hbody⟩
  · have hpoll : imm.getLsbD 15 = decide (2 ^ 15 ≤ imm.toNat) := getLsbD_fifteen imm
    have hbody : hrecvBody a rd imm (s.issued a)
        = if imm.getLsbD 15 then (s.issued a).modSlot (corep a) a.slot.val (fun sl => (sl.advance 4 (issueCycle s a)).setReg rd 0)
          else (s.issued a).waitOn a (.message rd.val (imm.toNat % 16) (issueCycle s a)) := by
      rw [hrecvBody]
      dsimp only
      rw [hown, hrecvQ, takeMsg_eq_none (k := tickp (own s a).tick) hnone, issued_now_eq]
    refine ⟨_, hrecv_fires rd hfires himm, fun hset => ?_, fun hclear => ?_⟩
    · rw [hbody, hpoll, if_pos (decide_eq_true hset),
        (modSlot_issued s a (fun sl => (sl.advance 4 (issueCycle s a)).setReg rd 0)).1, ← stepped_setReg]
      rfl
    · rw [hbody, hpoll, if_neg (by simpa using hclear)]
      exact waitOn_message_issued s a rd _ _ hnone

end Sys2Proof.Claims

/-!
SUPPORT. The close of a window (R79, R104, R105, R110).
-/
namespace Sys2Proof.Machine

/-! One core and the mesh. -/

/-- Nothing but core `p` and the accesses of the mesh changes. -/
structure State.CoreAndMesh (s t : State) (p : Nat) : Prop where
  others : ∀ q, q ≠ p → t.core q = s.core q
  rest : ({ t with cores := s.cores, mesh := s.mesh } : State) = s

namespace State.CoreAndMesh

theorem refl (s : State) (p : Nat) : s.CoreAndMesh s p := ⟨fun _ _ => rfl, rfl⟩

theorem trans {s t u : State} {p : Nat} (h : s.CoreAndMesh t p) (k : t.CoreAndMesh u p) : s.CoreAndMesh u p where
  others q hq := (k.others q hq).trans (h.others q hq)
  rest := by
    have hrest := congrArg (fun x : State => ({ x with cores := s.cores, mesh := s.mesh } : State)) k.rest
    exact hrest.trans h.rest

theorem of_modCore (s : State) (p : Nat) (f : Core → Core) : s.CoreAndMesh (s.modCore p f) p :=
  ⟨fun _ hq => State.core_modCore_other s f hq, rfl⟩

theorem of_answerCredit (s : State) (p id : Nat) (ans : CreditAnswer) : s.CoreAndMesh (s.answerCredit id ans) p := by
  unfold State.answerCredit
  split
  · exact .refl s p
  · exact ⟨fun _ _ => rfl, rfl⟩

/-- A field of the state other than its cores and the mesh. -/
theorem field {β : Type} {s t : State} {p : Nat} (h : s.CoreAndMesh t p) (f : State → β)
    (hf : ∀ (s : State) (m : SMap Core) (x : Mesh), f { s with cores := m, mesh := x } = f s) : f t = f s :=
  (hf t _ _).symm.trans (congrArg f h.rest)

end State.CoreAndMesh

/-! Windows of a scratchpad. -/

theorem Spad.win_setWin_same (sp : Spad) (w : Nat) (x : Window) : (sp.setWin w x).win w = x := SMap.get_set_same _ _ _ _

theorem Spad.win_setWin_other (sp : Spad) {w v : Nat} (x : Window) (h : v ≠ w) : (sp.setWin w x).win v = sp.win v :=
  SMap.get_set_other _ _ _ _ h

/-- Window `w` keeps what its close turns on, and the other windows and the bytes are as they were. -/
structure Spad.SameClose (w : Nat) (sp sp' : Spad) : Prop where
  bytes : sp'.bytes = sp.bytes
  other : ∀ v, v ≠ w → sp'.win v = sp.win v
  isOpen : (sp'.win w).isOpen = (sp.win w).isOpen
  closing : (sp'.win w).closing = (sp.win w).closing
  closers : (sp'.win w).closers = (sp.win w).closers

namespace Spad.SameClose

theorem refl (w : Nat) (sp : Spad) : Spad.SameClose w sp sp := ⟨rfl, fun _ _ => rfl, rfl, rfl, rfl⟩

theorem trans {w : Nat} {sp sp' sp'' : Spad} (h : Spad.SameClose w sp sp') (k : Spad.SameClose w sp' sp'') : Spad.SameClose w sp sp'' :=
  ⟨k.bytes.trans h.bytes, fun v hv => (k.other v hv).trans (h.other v hv), k.isOpen.trans h.isOpen, k.closing.trans h.closing,
    k.closers.trans h.closers⟩

theorem of_modWin (w : Nat) (sp : Spad) {f : Window → Window} (hopen : ∀ x, (f x).isOpen = x.isOpen)
    (hclosing : ∀ x, (f x).closing = x.closing) (hclosers : ∀ x, (f x).closers = x.closers) : Spad.SameClose w sp (sp.modWin w f) where
  bytes := rfl
  other _ hv := Spad.win_setWin_other sp _ hv
  isOpen := (congrArg Window.isOpen (Spad.win_setWin_same sp w _)).trans (hopen _)
  closing := (congrArg Window.closing (Spad.win_setWin_same sp w _)).trans (hclosing _)
  closers := (congrArg Window.closers (Spad.win_setWin_same sp w _)).trans (hclosers _)

theorem foldl {α : Type} {w : Nat} {f : Spad → α → Spad} (l : List α) (sp : Spad) (hf : ∀ sp x, Spad.SameClose w sp (f sp x)) :
    Spad.SameClose w sp (l.foldl f sp) := by
  induction l generalizing sp with
  | nil => exact .refl w sp
  | cons x l ih => exact .trans (hf sp x) (ih (f sp x))

theorem of_unholdSlots (w : Nat) (sp : Spad) (r : CreditReq) : Spad.SameClose w sp (sp.unholdSlots w r) :=
  .foldl _ sp fun sp _ => .of_modWin w sp (fun _ => rfl) (fun _ => rfl) (fun _ => rfl)

end Spad.SameClose

/-! The close of a window (R79, R104). -/

theorem Core.slot_spad (c : Core) (sp : Spad) (j : Nat) : ({ c with spad := sp } : Core).slot j = c.slot j := rfl

theorem State.slot_modSpad (s : State) (p : Nat) (f : Spad → Spad) (j : Nat) : (s.modSpad p f).slot p j = s.slot p j := by
  rw [State.slot, State.modSpad, State.core_modCore_same]
  rfl

theorem State.slot_modSlot_other (s : State) (p : Nat) {i j : Nat} (f : Slot → Slot) (h : j ≠ i) :
    (s.modSlot p i f).slot p j = s.slot p j := by
  rw [State.slot, State.modSlot, State.core_modCore_same, Core.slot_modSlot_other _ _ h, State.slot]

theorem State.spad_modSlot (s : State) (p i : Nat) (f : Slot → Slot) : (s.modSlot p i f).spad p = s.spad p := by
  rw [State.spad, State.modSlot, State.core_modCore_same]
  rfl

/-- The tokens of a window's WCLOSEs complete in the next cycle. -/
def State.closersDone (s : State) (p : Nat) (l : List (Nat × Nat)) : State :=
  l.foldl (fun (s : State) e => s.modSlot p e.1 (fun sl => sl.completeAt (s.now + 1) e.2 stOk)) s

theorem State.closersDone_spec (p i : Nat) (l : List (Nat × Nat)) (s : State) :
    s.CoreAndMesh (s.closersDone p l) p ∧ (s.closersDone p l).spad p = s.spad p
      ∧ ∃ more, (s.closersDone p l).slot p i = { s.slot p i with due := (s.slot p i).due ++ more }
        ∧ (∀ e ∈ more, e.1 = s.now + 1)
        ∧ ∀ k, (i, k) ∈ l → (s.slot p i).token k = .busy → (s.now + 1, k, stOk) ∈ more := by
  induction l generalizing s with
  | nil =>
    refine ⟨.refl s p, rfl, [], ?_, fun e h => absurd h List.not_mem_nil, fun k h => absurd h List.not_mem_nil⟩
    rw [List.append_nil]
    rfl
  | cons e l ih =>
    obtain ⟨j, u⟩ := e
    obtain ⟨hframe, hspad, more, hslot, hnext, hmem⟩ := ih (s.modSlot p j (fun sl => sl.completeAt (s.now + 1) u stOk))
    refine ⟨(State.CoreAndMesh.of_modCore s p _).trans hframe, hspad.trans (s.spad_modSlot p _ _), ?_⟩
    by_cases hself : i = j ∧ (s.slot p i).token u = .busy
    · obtain ⟨hij, hbusy⟩ := hself
      subst hij
      have hone : (s.modSlot p i (fun sl => sl.completeAt (s.now + 1) u stOk)).slot p i
          = { s.slot p i with due := (s.slot p i).due ++ [(s.now + 1, u, stOk)] } := by
        rw [State.slot_modSlot_same, Slot.completeAt, if_pos hbusy]
      rw [hone] at hslot hmem
      refine ⟨(s.now + 1, u, stOk) :: more, hslot.trans ?_, ?_, fun k hk hbusyk => ?_⟩
      · rw [List.append_assoc]
        rfl
      · exact List.forall_mem_cons.2 ⟨rfl, hnext⟩
      · rcases List.mem_cons.1 hk with heq | hk
        · rw [(Prod.mk.inj heq).2]
          exact List.mem_cons_self
        · exact List.mem_cons_of_mem _ (hmem k hk hbusyk)
    · have hone : (s.modSlot p j (fun sl => sl.completeAt (s.now + 1) u stOk)).slot p i = s.slot p i := by
        rcases eq_or_ne i j with rfl | hne
        · rw [State.slot_modSlot_same, Slot.completeAt, if_neg fun h => hself ⟨rfl, h⟩]
        · exact s.slot_modSlot_other p _ hne
      rw [hone] at hslot hmem
      refine ⟨more, hslot, hnext, fun k hk hbusyk => ?_⟩
      rcases List.mem_cons.1 hk with heq | hk
      · obtain ⟨rfl, rfl⟩ := Prod.mk.inj heq
        exact absurd ⟨rfl, hbusyk⟩ hself
      · exact hmem k hk hbusyk

/-- The waits on channel slots of a closed window end (R110). -/
def State.channelWaitsDone (s : State) (p : Nat) (x : Window) (is : List Nat) : State :=
  is.foldl (fun (s : State) i => s.modSlot p i (fun sl =>
    match sl.mode, sl.wait with
    | .waiting, .channel off _ => if x.base ≤ off ∧ off < x.base + x.bound then sl.wake (s.now + 1) else sl
    | _, _ => sl)) s

theorem State.channelWaitsDone_spec (p i : Nat) (x : Window) (is : List Nat) {s : State} (h : (s.slot p i).mode ≠ .waiting) :
    s.CoreAndMesh (s.channelWaitsDone p x is) p ∧ (s.channelWaitsDone p x is).spad p = s.spad p
      ∧ (s.channelWaitsDone p x is).slot p i = s.slot p i := by
  induction is generalizing s with
  | nil => exact ⟨.refl s p, rfl, rfl⟩
  | cons j is ih =>
    set g : Slot → Slot := fun sl =>
      match sl.mode, sl.wait with
      | .waiting, .channel off _ => if x.base ≤ off ∧ off < x.base + x.bound then sl.wake (s.now + 1) else sl
      | _, _ => sl with hg
    have hone : (s.modSlot p j g).slot p i = s.slot p i := by
      rcases eq_or_ne i j with rfl | hne
      · rw [State.slot_modSlot_same, hg]
        dsimp only
        split
        · exact absurd ‹_› h
        · rfl
      · exact s.slot_modSlot_other p _ hne
    obtain ⟨hframe, hspad, hslot⟩ := ih (s := s.modSlot p j g) (by rw [hone]; exact h)
    exact ⟨(State.CoreAndMesh.of_modCore s p _).trans hframe, hspad.trans (s.spad_modSlot p _ _), hslot.trans hone⟩

theorem State.completeClose_eq (s : State) (p w : Nat) :
    s.completeClose p w = (((((s.modSpad p (fun sp => sp.modWin w Window.closed)).closersDone p ((s.spad p).win w).closers).channelWaitsDone
      p ((s.spad p).win w) (List.range 8)).uncover p ((s.spad p).win w).base (((s.spad p).win w).base + ((s.spad p).win w).bound)).settle p) := rfl

/-- The scratchpad behind a step of a close differs in its banks alone. -/
theorem State.uncover_spec (s : State) (p lo hi i : Nat) :
    s.CoreAndMesh (s.uncover p lo hi) p ∧ ((s.uncover p lo hi).spad p).bytes = (s.spad p).bytes
      ∧ (∀ v, ((s.uncover p lo hi).spad p).win v = (s.spad p).win v) ∧ (s.uncover p lo hi).slot p i = s.slot p i := by
  obtain ⟨banks, hcore⟩ := Claims.core_uncover s p lo hi
  have hspad : (s.uncover p lo hi).spad p = { s.spad p with banks := banks } := congrArg Core.spad hcore
  refine ⟨State.CoreAndMesh.of_modCore s p (fun c => c.modSpad _), by rw [hspad], fun v => by rw [hspad]; rfl, s.slot_modSpad p _ i⟩

theorem State.settle_spec (s : State) (p : Nat) {i : Nat} (hi : i < 8) (h : (s.slot p i).mode ≠ .waiting) :
    s.CoreAndMesh (s.settle p) p ∧ (s.settle p).spad p = s.spad p ∧ (s.settle p).slot p i = (s.slot p i).ripen s.now := by
  refine ⟨.of_modCore s p _, ?_, ?_⟩
  · rw [State.spad, State.settle, State.core_modCore_same, State.spad]
    exact Core.settle_field _ _ _ Core.spad fun _ _ _ => rfl
  · rw [State.slot, State.settle, State.core_modCore_same]
    exact Core.slot_settle_of_not_waiting _ _ _ hi h

/-- What the completion of a close leaves (R79, R104, R105): the window is not open, and a slot that does not wait has its own
WCLOSEs of it due in the next cycle. -/
structure State.Closed (s t : State) (p w i : Nat) : Prop where
  frame : s.CoreAndMesh t p
  bytes : (t.spad p).bytes = (s.spad p).bytes
  other : ∀ v, v ≠ w → (t.spad p).win v = (s.spad p).win v
  isOpen : ((t.spad p).win w).isOpen = false
  slot : ∃ more, t.slot p i = { s.slot p i with due := (s.slot p i).due ++ more }
    ∧ ∀ k, (i, k) ∈ ((s.spad p).win w).closers → (s.slot p i).token k = .busy → (s.now + 1, k, stOk) ∈ more

theorem State.completeClose_spec (s : State) (p w : Nat) {i : Nat} (hi : i < 8) (hmode : (s.slot p i).mode ≠ .waiting)
    (hdue : ∀ e ∈ (s.slot p i).due, s.now < e.1) : s.Closed (s.completeClose p w) p w i := by
  rw [State.completeClose_eq]
  set s1 := s.modSpad p (fun sp => sp.modWin w Window.closed) with hs1
  have hspad1 : s1.spad p = (s.spad p).modWin w Window.closed := s.spad_modSpad p _
  have hslot1 : s1.slot p i = s.slot p i := s.slot_modSpad p _ i
  obtain ⟨hframe2, hspad2, more, hslot2, hnext, hmem⟩ := State.closersDone_spec p i ((s.spad p).win w).closers s1
  set s2 := s1.closersDone p ((s.spad p).win w).closers
  rw [hslot1] at hslot2 hmem
  obtain ⟨hframe3, hspad3, hslot3⟩ := State.channelWaitsDone_spec p i ((s.spad p).win w) (List.range 8) (s := s2)
    (by rw [hslot2]; exact hmode)
  set s3 := s2.channelWaitsDone p ((s.spad p).win w) (List.range 8)
  obtain ⟨hframe4, hbytes4, hwins4, hslot4⟩ := s3.uncover_spec p ((s.spad p).win w).base
    (((s.spad p).win w).base + ((s.spad p).win w).bound) i
  set s4 := s3.uncover p ((s.spad p).win w).base (((s.spad p).win w).base + ((s.spad p).win w).bound)
  have hslot : s4.slot p i = { s.slot p i with due := (s.slot p i).due ++ more } := hslot4.trans (hslot3.trans hslot2)
  obtain ⟨hframe5, hspad5, hslot5⟩ := s4.settle_spec p hi (by rw [hslot]; exact hmode)
  have hframe : s.CoreAndMesh s4 p := (State.CoreAndMesh.of_modCore s p _).trans (hframe2.trans (hframe3.trans hframe4))
  have hnow : s4.now = s.now := hframe.field State.now fun _ _ _ => rfl
  have hripe : (s4.slot p i).ripen s4.now = s4.slot p i := Slot.ripen_of_due fun e he => by
    rw [hslot] at he
    rw [hnow]
    rcases List.mem_append.1 he with he | he
    · exact hdue e he
    · rw [hnext e he]
      exact Nat.lt_succ_self _
  have hwin (v : Nat) : ((s4.settle p).spad p).win v = ((s.spad p).modWin w Window.closed).win v := by
    rw [hspad5, hwins4, hspad3, hspad2, hspad1]
  refine ⟨hframe.trans hframe5, ?_, fun v hv => ?_, ?_, more, ?_, hmem⟩
  · rw [hspad5, hbytes4, hspad3, hspad2, hspad1]
    rfl
  · rw [hwin]
    exact Spad.win_setWin_other _ _ hv
  · rw [hwin]
    exact congrArg Window.isOpen (Spad.win_setWin_same _ w _)
  · rw [hslot5, hripe, hslot]

/-- What the begin of a close leaves (R104): the window is closing with its WCLOSEs, or its close is complete. -/
structure State.CloseBegun (s t : State) (p w i : Nat) : Prop where
  frame : s.CoreAndMesh t p
  bytes : (t.spad p).bytes = (s.spad p).bytes
  other : ∀ v, v ≠ w → (t.spad p).win v = (s.spad p).win v
  slot : ∃ more, t.slot p i = { s.slot p i with due := (s.slot p i).due ++ more }
    ∧ ((((t.spad p).win w).closing = true ∧ ((t.spad p).win w).closers = ((s.spad p).win w).closers)
      ∨ (((t.spad p).win w).isOpen = false
        ∧ ∀ k, (i, k) ∈ ((s.spad p).win w).closers → (s.slot p i).token k = .busy → (s.now + 1, k, stOk) ∈ more))

theorem State.tryClose_spec (s : State) (p w : Nat) {i : Nat} (hi : i < 8) (hmode : (s.slot p i).mode ≠ .waiting)
    (hdue : ∀ e ∈ (s.slot p i).due, s.now < e.1) (hclosing : ((s.spad p).win w).closing = true) :
    s.CloseBegun (s.tryClose p w) p w i := by
  unfold State.tryClose
  split
  · obtain ⟨hframe, hbytes, hother, hopen, more, hslot, hmem⟩ := s.completeClose_spec p w hi hmode hdue
    exact ⟨hframe, hbytes, hother, more, hslot, .inr ⟨hopen, hmem⟩⟩
  · refine ⟨.refl s p, rfl, fun _ _ => rfl, [], ?_, .inl ⟨hclosing, rfl⟩⟩
    rw [List.append_nil]

/-- The held requests of a window are refused. -/
theorem State.refused_spec (p : Nat) (l : List CreditReq) (s : State) :
    s.CoreAndMesh (l.foldl (fun s r => s.answerCredit r.id .refused) s) p
      ∧ (l.foldl (fun s r => s.answerCredit r.id .refused) s).core p = s.core p := by
  induction l generalizing s with
  | nil => exact ⟨.refl s p, rfl⟩
  | cons r l ih =>
    obtain ⟨hframe, hcore⟩ := ih (s.answerCredit r.id .refused)
    refine ⟨(State.CoreAndMesh.of_answerCredit s p _ _).trans hframe, hcore.trans ?_⟩
    unfold State.answerCredit
    split
    · rfl
    · rfl

theorem State.beginClose_spec (s : State) (p w : Nat) {i : Nat} (hi : i < 8) (hmode : (s.slot p i).mode ≠ .waiting)
    (hdue : ∀ e ∈ (s.slot p i).due, s.now < e.1) (hopen : ((s.spad p).win w).isOpen = true) :
    s.CloseBegun (s.beginClose p w) p w i := by
  unfold State.beginClose
  dsimp only
  rw [hopen, if_neg (by decide)]
  set mine : CreditReq → Bool := fun r => decide (((s.spad p).win w).base ≤ r.off)
    && decide (r.off + r.extent ≤ ((s.spad p).win w).base + ((s.spad p).win w).bound)
  set refused := (s.spad p).hold.filter mine
  set opened := (s.spad p).modWin w (fun x => { x with closing := true })
  have hsame : Spad.SameClose w opened (refused.foldl (fun sp r => sp.unholdSlots w r) opened) :=
    .foldl refused _ fun sp r => .of_unholdSlots w sp r
  set s1 := s.modSpad p (fun sp => { (refused.foldl (fun sp r => sp.unholdSlots w r)
    (sp.modWin w (fun x => { x with closing := true }))) with hold := sp.hold.filter (fun r => !mine r) }) with hs1
  have hspad1 : s1.spad p = { refused.foldl (fun sp r => sp.unholdSlots w r) opened with hold := (s.spad p).hold.filter (fun r => !mine r) } :=
    s.spad_modSpad p _
  obtain ⟨hframe2, hcore2⟩ := State.refused_spec p refused s1
  set s2 := refused.foldl (fun s r => s.answerCredit r.id .refused) s1
  have hspad2 : s2.spad p = { refused.foldl (fun sp r => sp.unholdSlots w r) opened with hold := (s.spad p).hold.filter (fun r => !mine r) } :=
    (congrArg Core.spad hcore2).trans hspad1
  have hslot2 : s2.slot p i = s.slot p i := (congrArg (Core.slot · i) hcore2).trans (s.slot_modSpad p _ i)
  have hwin2 (v : Nat) : (s2.spad p).win v = (refused.foldl (fun sp r => sp.unholdSlots w r) opened).win v := by
    rw [hspad2]
    rfl
  have hopened : opened.win w = { (s.spad p).win w with closing := true } := Spad.win_setWin_same _ w _
  have hclosers : ((s2.spad p).win w).closers = ((s.spad p).win w).closers := by
    rw [hwin2, hsame.closers, hopened]
  have hframe : s.CoreAndMesh s2 p := (State.CoreAndMesh.of_modCore s p _).trans hframe2
  have hnow : s2.now = s.now := hframe.field State.now fun _ _ _ => rfl
  obtain ⟨hframe3, hbytes, hother, hslot⟩ := s2.tryClose_spec p w hi (by rw [hslot2]; exact hmode) (by rw [hslot2, hnow]; exact hdue)
    (by rw [hwin2, hsame.closing, hopened])
  rw [hslot2, hclosers, hnow] at hslot
  refine ⟨hframe.trans hframe3, ?_, fun v hv => ?_, hslot⟩
  · rw [hbytes, hspad2]
    exact hsame.bytes
  · rw [hother v hv, hwin2, hsame.other v hv]
    exact Spad.win_setWin_other _ _ hv

end Sys2Proof.Machine

/-!
SUPPORT. WCLOSE and WSTAT (R79, R80, R117).
-/
namespace Sys2Proof.Claims

open Sys2Proof.Machine

/-! The names of windows and the tokens of a task (R44, R79, R80). -/

theorem freeToken_eq_some {x : Slot} {k : Nat} (h : LowestFreeToken x k) : x.freeToken = some k := by
  obtain ⟨hk, hfree, hlow⟩ := h
  rw [Slot.freeToken, List.find?_range_eq_some]
  refine ⟨by rw [hfree]; rfl, List.mem_range.2 hk, fun u hu => ?_⟩
  simpa using hlow u hu

theorem handle_eq_some {s : State} {a : At} {sp : Spad} (hsp : sp = s.spad (corep a)) (h w : Nat) :
    sp.handle h (own s a).patch = some w ↔ Names s a h w := by
  have hfield : field h 16 16 = h / 2 ^ 16 % 2 ^ 16 := by rw [field, Nat.shiftRight_eq_div_pow]
  rw [Spad.handle, Option.ite_none_right_eq_some, Option.some_inj]
  simp only [Bool.and_eq_true, beq_iff_eq, hsp, hfield, Names]
  constructor
  · rintro ⟨⟨⟨hopen, hgen⟩, hpatch⟩, rfl⟩
    exact ⟨rfl, hopen, hgen, hpatch⟩
  · rintro ⟨rfl, hopen, hgen, hpatch⟩
    exact ⟨⟨⟨hopen, hgen⟩, hpatch⟩, rfl⟩

theorem handle_eq_none {s : State} {a : At} {sp : Spad} (hsp : sp = s.spad (corep a)) {h : Nat} (hnone : NamesNone s a h) :
    sp.handle h (own s a).patch = none :=
  Option.eq_none_iff_forall_ne_some.2 fun w hw => hnone w ((handle_eq_some hsp h w).1 hw)

theorem spad_issued (s : State) (a : At) : (s.issued a).spad (corep a) = s.spad (corep a) :=
  core_issued_field s a Core.spad fun _ _ _ _ => rfl

/-! WCLOSE (R79). -/

/-- The slot behind a WCLOSE that takes token `k`. -/
def closeTaken (s : State) (a : At) (rd : Reg) (k : Nat) : Slot :=
  stepped s a 4 (((own s a).setToken k .busy).setReg rd (BitVec.ofNat 64 k))

/-- What WCLOSE does where it issues. -/
def wcloseBody (a : At) (rd ra : Reg) (s : State) : State :=
  let p := a.core.val
  let i := a.slot.val
  let sl := s.slot p i
  let h := sl.reg ra
  match sl.freeToken with
  | none => s.faultAt a fTokenExhausted h
  | some t =>
    let s := s.modSlot p i (fun sl =>
      (((sl.advance 4 s.now).setToken t .busy).setReg rd (BitVec.ofNat 64 t)))
    match (s.spad p).handle h.toNat sl.patch with
    | none => s.modSlot p i (fun sl => sl.completeAt (s.now + 1) t stWindowRefused)
    | some w =>
      let s := s.modSpad p (fun sp => sp.modWin w (fun x => { x with closers := x.closers ++ [(i, t)] }))
      s.beginClose p w

theorem wclose_fires {s : State} {a : At} (rd ra : Reg) (h : Fires s a 4) :
    exec (.wclose a rd ra 0 0) s = .next (wcloseBody a rd ra (s.issued a)) := by
  rw [exec_wclose, execWclose]
  dsimp only
  rw [tpIssue_fires _ _ _ h, if_pos (by decide)]
  rfl

/-- The state in which the token is taken. -/
def wcloseTaken (s : State) (a : At) (rd : Reg) (k : Nat) : State :=
  (s.issued a).modSlot (corep a) a.slot.val (fun sl =>
    ((sl.advance 4 (issueCycle s a)).setToken k .busy).setReg rd (BitVec.ofNat 64 k))

theorem wcloseTaken_spec (s : State) (a : At) (rd : Reg) (k : Nat) :
    at_ (wcloseTaken s a rd k) a = closeTaken s a rd k ∧ (wcloseTaken s a rd k).spad (corep a) = s.spad (corep a)
      ∧ IssueFrame s (wcloseTaken s a rd k) a id id := by
  obtain ⟨hslot, hframe⟩ := modSlot_issued s a (fun sl => ((sl.advance 4 (issueCycle s a)).setToken k .busy).setReg rd (BitVec.ofNat 64 k))
  refine ⟨hslot.trans ?_, ((s.issued a).spad_modSlot _ _ _).trans (spad_issued s a), hframe⟩
  rw [closeTaken, ← stepped_setReg]
  rfl

section
variable {s : State} {a : At} (rd ra : Reg) {k : Nat}

theorem wcloseBody_refused (hk : LowestFreeToken (own s a) k) (hnone : NamesNone s a (un s a ra)) :
    wcloseBody a rd ra (s.issued a)
      = (wcloseTaken s a rd k).modSlot (corep a) a.slot.val (fun sl => sl.completeAt (issueCycle s a + 1) k stWindowRefused) := by
  have hown : (s.issued a).slot a.core.val a.slot.val = own s a := slot_issued_eq s a
  obtain ⟨-, hspad, -⟩ := wcloseTaken_spec s a rd k
  unfold wcloseTaken at hspad
  rw [wcloseBody]
  dsimp only
  rw [hown, freeToken_eq_some hk, issued_now_eq]
  dsimp only
  rw [handle_eq_none hspad hnone]
  exact congrArg (fun now => (wcloseTaken s a rd k).modSlot _ _ (fun sl => sl.completeAt (now + 1) k stWindowRefused)) (issued_now_eq s a)

theorem wcloseBody_begins (hk : LowestFreeToken (own s a) k) {w : Nat} (hw : Names s a (un s a ra) w) :
    wcloseBody a rd ra (s.issued a)
      = ((wcloseTaken s a rd k).modSpad (corep a) (fun sp =>
          sp.modWin w (fun x => { x with closers := x.closers ++ [(a.slot.val, k)] }))).beginClose (corep a) w := by
  have hown : (s.issued a).slot a.core.val a.slot.val = own s a := slot_issued_eq s a
  obtain ⟨-, hspad, -⟩ := wcloseTaken_spec s a rd k
  unfold wcloseTaken at hspad
  rw [wcloseBody]
  dsimp only
  rw [hown, freeToken_eq_some hk, issued_now_eq]
  dsimp only
  rw [(handle_eq_some hspad _ w).2 hw]
  rfl

theorem token_closeTaken (s : State) (a : At) (rd : Reg) (k : Nat) : (closeTaken s a rd k).token k = .busy :=
  ((own s a).setToken k .busy).token_setReg rd (BitVec.ofNat 64 k) k |>.trans ((own s a).token_setToken_same k .busy)

theorem due_closeTaken (s : State) (a : At) (rd : Reg) (k : Nat) : (closeTaken s a rd k).due = (own s a).due := by
  rw [closeTaken, stepped]
  unfold Slot.setReg
  split
  · rfl
  · rfl

theorem IssueFrame.modSlot {s t : State} {a : At} {f : Core → Core} {g : State → State} (h : IssueFrame s t a f g) (k : Slot → Slot) :
    IssueFrame s (t.modSlot (corep a) a.slot.val k) a f g := by
  obtain ⟨hnow, hlast, hat, hother, hcore, hslots, hrest⟩ := h
  have hself : (t.modSlot (corep a) a.slot.val k).core (corep a) = (t.core (corep a)).modSlot a.slot.val k := State.core_modCore_same ..
  refine ⟨hnow, ?_, ?_, fun q hq => (State.core_modCore_other _ _ hq).trans (hother q hq), ?_, fun j hj => ?_, hrest⟩
  · rw [hself]
    exact hlast
  · rw [hself]
    exact hat
  · rw [hself]
    exact hcore
  · rw [t.slot_modSlot_other _ _ hj]
    exact hslots j hj

/-- No window answers to the handle: the token completes in the next cycle. -/
theorem wclose_refused (hfires : Fires s a 4) (hk : LowestFreeToken (own s a) k) (hnone : NamesNone s a (un s a ra)) :
    ∃ t, exec (.wclose a rd ra 0 0) s = .next t
      ∧ at_ t a = { stepped s a 4 (((own s a).setToken k .busy).setReg rd (BitVec.ofNat 64 k)) with
          due := (own s a).due ++ [(issueCycle s a + 1, k, 2)] }
      ∧ IssueFrame s t a id id := by
  obtain ⟨hslot, -, hframe⟩ := wcloseTaken_spec s a rd k
  refine ⟨_, wclose_fires rd ra hfires, ?_, ?_⟩
  · rw [wcloseBody_refused rd ra hk hnone, at_, State.slot_modSlot_same, show (wcloseTaken s a rd k).slot a.core.val a.slot.val = _ from hslot,
      Slot.completeAt, if_pos (token_closeTaken s a rd k), due_closeTaken]
    rfl
  · rw [wcloseBody_refused rd ra hk hnone]
    exact hframe.modSlot _

end

theorem own_mode (s : State) (a : At) {len : Nat} (h : Fires s a len) : (own s a).mode = .ready := by
  rw [show (own s a).mode = (at_ s a).flush.mode from Slot.ripen_mode _ _]
  have hready : (at_ s a).mode = .ready := h.1
  unfold Slot.flush Slot.setReg
  split
  · exact hready
  · split
    · exact hready
    · exact hready

/-- The window of the handle begins its close (R104). -/
theorem wclose_begins {s : State} {a : At} (rd ra : Reg) {k w : Nat} (hfires : Fires s a 4) (hk : LowestFreeToken (own s a) k)
    (hw : Names s a (un s a ra) w) :
    ∃ t, exec (.wclose a rd ra 0 0) s = .next t
      ∧ (at_ t a).reg rd = (if rd = 0 then 0 else BitVec.ofNat 64 k) ∧ (at_ t a).token k = .busy
      ∧ (t.spad (corep a)).bytes = (s.spad (corep a)).bytes ∧ (∀ q, q ≠ corep a → t.core q = s.core q)
      ∧ t.regs = s.regs ∧ t.hubs = s.hubs ∧ t.drams = s.drams ∧ t.hostMem = s.hostMem ∧ t.events = s.events
      ∧ (∀ v, v ≠ w → ((t.spad (corep a)).win v).isOpen = ((s.spad (corep a)).win v).isOpen)
      ∧ ((((t.spad (corep a)).win w).closing = true ∧ (a.slot.val, k) ∈ ((t.spad (corep a)).win w).closers)
          ∨ (((t.spad (corep a)).win w).isOpen = false ∧ (issueCycle s a + 1, k, 0) ∈ (at_ t a).due)) := by
  obtain ⟨hslot, hspad, hnow, -, -, hother, -, -, hrest⟩ := wcloseTaken_spec s a rd k
  set u := (wcloseTaken s a rd k).modSpad (corep a) (fun sp =>
    sp.modWin w (fun x => { x with closers := x.closers ++ [(a.slot.val, k)] })) with hu
  have huslot : u.slot (corep a) a.slot.val = closeTaken s a rd k := ((wcloseTaken s a rd k).slot_modSpad _ _ _).trans hslot
  have huspad : u.spad (corep a) = (s.spad (corep a)).modWin w (fun x => { x with closers := x.closers ++ [(a.slot.val, k)] }) := by
    rw [hu, State.spad_modSpad, hspad]
  have huwin : (u.spad (corep a)).win w = { (s.spad (corep a)).win w with closers := ((s.spad (corep a)).win w).closers ++ [(a.slot.val, k)] } := by
    rw [huspad]
    exact Spad.win_setWin_same _ w _
  have hmode : (closeTaken s a rd k).mode = .ready := by
    have hready := own_mode s a hfires
    rw [closeTaken, stepped]
    unfold Slot.setReg
    split
    · exact hready
    · exact hready
  have hreg : (closeTaken s a rd k).reg rd = if rd = 0 then 0 else BitVec.ofNat 64 k := by
    rw [closeTaken, reg_stepped, Slot.reg_setReg, if_pos rfl]
    exact if_congr Fin.val_eq_zero_iff rfl rfl
  obtain ⟨hframe, hbytes, hwins, more, hclosed, hout⟩ := u.beginClose_spec (corep a) w a.slot.isLt (by rw [huslot, hmode]; decide)
    (by rw [huslot, due_closeTaken]; exact fun e he => Slot.lt_of_mem_due_ripen (sl := (at_ s a).flush) (hnow ▸ he))
    (by rw [huwin]; exact hw.2.1)
  rw [huslot, huwin] at hout
  rw [huslot] at hclosed
  have hunow : u.now = issueCycle s a := hnow
  refine ⟨_, (wclose_fires rd ra hfires).trans (congrArg _ (wcloseBody_begins rd ra hk hw)), ?_, ?_, ?_,
    fun q hq => (hframe.others q hq).trans ((State.core_modCore_other _ _ hq).trans (hother q hq)),
    hframe.field State.regs fun _ _ _ => rfl, hframe.field State.hubs fun _ _ _ => rfl, hframe.field State.drams fun _ _ _ => rfl,
    hframe.field State.hostMem fun _ _ _ => rfl, hframe.field State.events fun _ _ _ => rfl, fun v hv => ?_, ?_⟩
  · exact (congrArg (Slot.reg · rd) hclosed).trans hreg
  · exact (congrArg (Slot.token · k) hclosed).trans (token_closeTaken s a rd k)
  · rw [hbytes, huspad]
    rfl
  · rw [hwins v hv, huspad]
    exact congrArg Window.isOpen (Spad.win_setWin_other _ _ hv)
  · have hself : (a.slot.val, k) ∈ ((s.spad (corep a)).win w).closers ++ [(a.slot.val, k)] := List.mem_append_right _ List.mem_cons_self
    rcases hout with ⟨hclosing, hclosers⟩ | ⟨hopen, hdone⟩
    · exact .inl ⟨hclosing, hclosers ▸ hself⟩
    · refine .inr ⟨hopen, ?_⟩
      rw [at_, hclosed, ← hunow]
      exact List.mem_append_right _ (hdone k hself (token_closeTaken s a rd k))

/-! WSTAT (R80, R117). -/

theorem windowStatus_eq (x : Window) : x.status = windowStatus x := by
  have hb (n : Nat) (b : Bool) : n * b2n b = if b then n else 0 := by
    cases b
    · rfl
    · exact Nat.mul_one n
  simp only [Window.status, windowStatus, hb, Window.fullCount]
  rfl

theorem clearMarks_eq (s : State) (a : At) (x : Window) : x.clearMarks (issueCycle s a)
    = { x with unsyncRead := x.unsyncRead && freshMark s a x 0, overwriteFull := x.overwriteFull && freshMark s a x 1
               nacked := x.nacked && freshMark s a x 2 } := by
  have hbit (k : Nat) : bit (if x.fresh.1 = issueCycle s a then x.fresh.2.toNat else 0) k = freshMark s a x k := by
    rw [freshMark]
    by_cases h : x.fresh.1 = issueCycle s a
    · rw [if_pos h, decide_eq_true h, Bool.true_and]
      rfl
    · rw [if_neg h, decide_eq_false h, Bool.false_and]
      exact Nat.zero_testBit k
  unfold Window.clearMarks
  simp only [hbit]

/-- What WSTAT does where it issues. -/
def wstatBody (a : At) (rd ra : Reg) (fn : BitVec 11) (s : State) : State :=
  let p := a.core.val
  let i := a.slot.val
  let sl := s.slot p i
  match (s.spad p).handle (sl.reg ra).toNat sl.patch with
  | none => s.modSlot p i (fun sl => (sl.advance 4 s.now).setReg rd (BitVec.allOnes 64))
  | some w =>
    let v := ((s.spad p).win w).status
    let s := if fn = 1 then
        s.modSpad p (fun sp => sp.modWin w (fun x => x.clearMarks s.now))
      else s
    s.modSlot p i (fun sl => (sl.advance 4 s.now).setReg rd (BitVec.ofNat 64 v))

theorem wstat_fires {s : State} {a : At} (rd ra : Reg) {fn : BitVec 11} (h : Fires s a 4) (hfn : fn.toNat ≤ 1) :
    exec (.wstat a rd ra 0 fn) s = .next (wstatBody a rd ra fn (s.issued a)) := by
  have hlegal : ((0 : Reg) == 0 && decide (fn.toNat < 2)) = true := decide_eq_true (Nat.lt_succ_of_le hfn)
  rw [exec_wstat, execWstat]
  dsimp only
  rw [tpIssue_fires _ _ _ h, if_pos hlegal]
  rfl

/-- An instruction that changes its slot and the windows of its core. -/
theorem windows_issued (s : State) (a : At) (f : Slot → Slot) (g : Spad → Spad)
    (hg : ∀ sp, ({ g sp with wins := sp.wins } : Spad) = sp) :
    at_ (((s.issued a).modSpad (corep a) g).modSlot (corep a) a.slot.val f) a = f (own s a)
      ∧ (((s.issued a).modSpad (corep a) g).modSlot (corep a) a.slot.val f).spad (corep a) = g (s.spad (corep a))
      ∧ IssueFrame s (((s.issued a).modSpad (corep a) g).modSlot (corep a) a.slot.val f) a
          (fun c => { c with spad := { c.spad with wins := (s.spad (corep a)).wins } }) id := by
  set t := ((s.issued a).modSpad (corep a) g).modSlot (corep a) a.slot.val f with ht
  have hspad : ((s.issued a).core (corep a)).spad = (s.core (corep a)).spad := spad_issued s a
  have hcore : t.core (corep a) = { ((s.issued a).core (corep a)).modSlot a.slot.val f with spad := g (s.core (corep a)).spad } := by
    rw [ht, State.modSlot, State.core_modCore_same, State.modSpad, State.core_modCore_same, ← hspad]
    rfl
  have hback := congrArg (fun c : Core => ({ c with spad := (s.core (corep a)).spad } : Core)) (core_issued s a)
  have hrest : ({ t with now := s.now, cores := s.cores } : State) = s := rfl
  refine ⟨?_, by rw [State.spad, hcore]; rfl, issueFrame_of (issued_now_eq s a) (fun q hq => ?_) ?_ ?_ ?_ (fun j hj => ?_) hrest⟩
  · rw [at_, State.slot, hcore, Core.slot_spad, Core.slot_modSlot_same]
    exact congrArg f (slot_issued_eq s a)
  · rw [ht, State.modSlot, State.core_modCore_other _ _ hq, State.modSpad, State.core_modCore_other _ _ hq]
  · rw [hcore]
    rfl
  · rw [hcore]
    rfl
  · rw [hcore]
    have hwins := congrArg (fun sp : Spad => ({ (s.issued a).core (corep a) with
      slots := (s.core (corep a)).slots, lastSlot := (s.core (corep a)).lastSlot, issueAt := (s.core (corep a)).issueAt, spad := sp } : Core))
      (hg (s.core (corep a)).spad)
    exact hwins.trans hback
  · rw [State.slot, hcore, Core.slot_spad, Core.slot_modSlot_other _ _ hj, State.slot]

theorem wstat_named {s : State} {a : At} (rd ra : Reg) {fn : BitVec 11} (hfires : Fires s a 4) (hfn : fn.toNat ≤ 1) {w : Nat} {x : Window}
    (hw : Names s a (un s a ra) w) (hx : x = (s.spad (corep a)).win w) :
    ∃ t, exec (.wstat a rd ra 0 fn) s = .next t
      ∧ at_ t a = stepped s a 4 ((own s a).setReg rd (BitVec.ofNat 64 (windowStatus x)))
      ∧ (t.spad (corep a)).win w = (if fn = 1 then
          { x with unsyncRead := x.unsyncRead && freshMark s a x 0, overwriteFull := x.overwriteFull && freshMark s a x 1
                   nacked := x.nacked && freshMark s a x 2 }
        else x)
      ∧ IssueFrame s t a (fun c => { c with spad := { c.spad with wins := (s.spad (corep a)).wins } }) id := by
  have hown : (s.issued a).slot a.core.val a.slot.val = own s a := slot_issued_eq s a
  set f : Slot → Slot := fun sl => (sl.advance 4 (issueCycle s a)).setReg rd (BitVec.ofNat 64 (windowStatus x)) with hf
  have hstepped : f (own s a) = stepped s a 4 ((own s a).setReg rd (BitVec.ofNat 64 (windowStatus x))) := by
    rw [hf, ← stepped_setReg]
    rfl
  have hhandle := (handle_eq_some (spad_issued s a) (un s a ra) w).2 hw
  have hstatus : (((s.issued a).spad (corep a)).win w).status = windowStatus x := by rw [windowStatus_eq, spad_issued, hx]
  by_cases hclear : fn = 1
  · have hbody : wstatBody a rd ra fn (s.issued a)
        = ((s.issued a).modSpad (corep a) (fun sp => sp.modWin w (fun x => x.clearMarks (issueCycle s a)))).modSlot (corep a) a.slot.val f := by
      rw [wstatBody]
      dsimp only
      rw [hown, hhandle]
      dsimp only
      rw [hstatus, if_pos hclear, issued_now_eq]
      exact congrArg (fun now => State.modSlot _ _ _ (fun sl => (sl.advance 4 now).setReg rd (BitVec.ofNat 64 (windowStatus x)))) (issued_now_eq s a)
    obtain ⟨hslot, hspad, hframe⟩ := windows_issued s a f (fun sp => sp.modWin w (fun x => x.clearMarks (issueCycle s a))) fun _ => rfl
    rw [← hbody] at hslot hspad hframe
    refine ⟨_, wstat_fires rd ra hfires hfn, hslot.trans hstepped, ?_, hframe⟩
    rw [hspad, if_pos hclear, hx, ← clearMarks_eq]
    exact Spad.win_setWin_same _ w _
  · have hbody : wstatBody a rd ra fn (s.issued a) = (s.issued a).modSlot (corep a) a.slot.val f := by
      rw [wstatBody]
      dsimp only
      rw [hown, hhandle]
      dsimp only
      rw [hstatus, if_neg hclear, issued_now_eq]
    obtain ⟨hslot, hframe⟩ := modSlot_issued s a f
    have hspad : ((s.issued a).modSlot (corep a) a.slot.val f).spad (corep a) = s.spad (corep a) :=
      ((s.issued a).spad_modSlot _ _ _).trans (spad_issued s a)
    rw [← hbody] at hslot hframe hspad
    obtain ⟨hnow, hlast, hat, hother, hcore, hslots, hrest⟩ := hframe
    have hwins := congrArg (fun c : Core => ({ c with spad := { c.spad with wins := (s.spad (corep a)).wins } } : Core)) hcore
    exact ⟨_, wstat_fires rd ra hfires hfn, hslot.trans hstepped, by rw [hspad, if_neg hclear, hx],
      hnow, hlast, hat, hother, hwins, hslots, hrest⟩

/-- Settles O12: WCLOSE by its token and the window of its handle, WSTAT by its handle. -/
theorem windowInstructions : Obligations.WindowInstructions := by
  intro s a rd ra hfires
  have hown : (s.issued a).slot a.core.val a.slot.val = own s a := slot_issued_eq s a
  refine ⟨fun k hk => ⟨wclose_refused rd ra hfires hk, fun w => wclose_begins rd ra hfires hk⟩, fun hnone => ?_,
    fun fn hfn => ⟨fun hnone => ?_, fun w x => wstat_named rd ra hfires hfn⟩⟩
  · refine ⟨_, wclose_fires rd ra hfires, ?_⟩
    rw [wcloseBody]
    dsimp only
    rw [hown, (freeToken_eq_none _).2 hnone, State.faultAt, hown]
    exact faulted_issued s a _ _ _
  · have hbody : wstatBody a rd ra fn (s.issued a)
        = (s.issued a).modSlot (corep a) a.slot.val (fun sl => (sl.advance 4 (issueCycle s a)).setReg rd (BitVec.allOnes 64)) := by
      rw [wstatBody]
      dsimp only
      rw [hown, handle_eq_none (spad_issued s a) hnone, issued_now_eq]
    obtain ⟨hslot, hframe⟩ := modSlot_issued s a (fun sl => (sl.advance 4 (issueCycle s a)).setReg rd (BitVec.allOnes 64))
    rw [← hbody] at hslot hframe
    refine ⟨_, wstat_fires rd ra hfires hfn, hslot.trans ?_, hframe⟩
    rw [← stepped_setReg]
    rfl

end Sys2Proof.Claims

/-!
SUPPORT. The grant of a slot's request, and what it changes of its core (R38, R89, R90).
-/
namespace Sys2Proof.Machine

/-! The oldest request at a bank (R38, R89). -/

section
variable {c : Core} {t b i : Nat} {m : MemOp}

/-- The search has met no request, or one younger than `m`. -/
def Younger (m : MemOp) (best : Option (Nat × MemOp)) : Prop := ∀ j x, best = some (j, x) → m.seq < x.seq

theorem Core.olderRequest_takes {best : Option (Nat × MemOp)} (hm : c.memAt t b i = some m) (h : Younger m best) :
    c.olderRequest t b best i = some (i, m) := by
  cases best with
  | none => exact Core.olderRequest_none hm
  | some y =>
    obtain ⟨j, x⟩ := y
    unfold Core.olderRequest
    simp only [hm, if_pos (h j x rfl)]

theorem Core.olderRequest_stays {j : Nat} (h : ∀ x, c.memAt t b j = some x → m.seq < x.seq) :
    c.olderRequest t b (some (i, m)) j = some (i, m) := by
  cases hj : c.memAt t b j with
  | none => exact Core.olderRequest_of_none _ hj
  | some x =>
    unfold Core.olderRequest
    simp only [hj, if_neg (Nat.not_lt.2 (h x hj).le)]

theorem Core.younger_olderRequest {j : Nat} {best : Option (Nat × MemOp)} (hbest : Younger m best)
    (h : ∀ x, c.memAt t b j = some x → m.seq < x.seq) : Younger m (c.olderRequest t b best j) := by
  cases hj : c.memAt t b j with
  | none => rwa [Core.olderRequest_of_none _ hj]
  | some x =>
    intro k y hy
    cases best with
    | none =>
      rw [Core.olderRequest_none hj] at hy
      cases hy
      exact h x hj
    | some z =>
      obtain ⟨l, z⟩ := z
      unfold Core.olderRequest at hy
      simp only [hj] at hy
      split at hy
      · cases hy
        exact h x hj
      · cases hy
        exact hbest _ _ rfl

theorem Core.foldl_olderRequest_stays {l : List Nat} (h : ∀ j ∈ l, ∀ x, c.memAt t b j = some x → m.seq < x.seq) :
    l.foldl (c.olderRequest t b) (some (i, m)) = some (i, m) := by
  induction l with
  | nil => rfl
  | cons j l ih =>
    rw [List.forall_mem_cons] at h
    rw [List.foldl_cons, Core.olderRequest_stays h.1, ih h.2]

theorem Core.foldl_olderRequest_of_oldest {l : List Nat} {best : Option (Nat × MemOp)} (hn : l.Nodup) (hi : i ∈ l)
    (hm : c.memAt t b i = some m) (hbest : Younger m best)
    (h : ∀ j ∈ l, j ≠ i → ∀ x, c.memAt t b j = some x → m.seq < x.seq) : l.foldl (c.olderRequest t b) best = some (i, m) := by
  induction l generalizing best with
  | nil => cases hi
  | cons j l ih =>
    rw [List.nodup_cons] at hn
    rw [List.forall_mem_cons] at h
    rcases eq_or_ne j i with rfl | hne
    · rw [List.foldl_cons, Core.olderRequest_takes hm hbest]
      exact Core.foldl_olderRequest_stays fun k hk => h.2 k hk fun e => hn.1 (e ▸ hk)
    · exact ih hn.2 ((List.mem_cons.1 hi).resolve_left hne.symm) (Core.younger_olderRequest hbest (h.1 hne)) h.2

theorem Core.tpRequest_of_oldest (hi : i < 8) (hm : c.memAt t b i = some m)
    (h : ∀ j, j < 8 → j ≠ i → ∀ x, c.memAt t b j = some x → m.seq < x.seq) : c.tpRequest t b = some (i, m) := by
  rw [Core.tpRequest_eq]
  exact Core.foldl_olderRequest_of_oldest List.nodup_range (List.mem_range.2 hi) hm (fun _ _ h => nomatch h)
    fun j hj => h j (List.mem_range.1 hj)

theorem Core.memAt_eq_some : c.memAt t b i = some m ↔ (c.slot i).mem = some m ∧ m.reply = none ∧ bankOf m.off = b
    ∧ ((c.slot i).wait ≠ .checked ∨ (0 < m.dueAt ∧ m.dueAt ≤ t)) := by
  unfold Core.memAt
  dsimp only
  cases hmem : (c.slot i).mem with
  | none => simp
  | some x =>
    simp only [Option.ite_none_right_eq_some, Option.some_inj, Bool.and_eq_true, Bool.or_eq_true, bne_iff_ne, decide_eq_true_eq,
      beq_iff_eq, Option.isNone_iff_eq_none]
    constructor
    · rintro ⟨⟨⟨hreply, hbank⟩, hwait⟩, rfl⟩
      exact ⟨rfl, hreply, hbank, hwait⟩
    · rintro ⟨rfl, hreply, hbank, hwait⟩
      exact ⟨⟨⟨hreply, hbank⟩, hwait⟩, rfl⟩

end

/-! The grant of a slot's request (R89, R90). -/

theorem Bank.nextP6_eq_none {bk : Bank} {t : Nat} {scrub : Bool} (hp6 : bk.p6 = []) (hscrub : ¬ (scrub = true ∧ bk.scrubDue + 1024 ≤ t)) :
    bk.nextP6 t scrub = none := by
  have hnone : bk.waiting t scrub = [] := by rw [Bank.waiting, hp6, if_neg hscrub, List.append_nil]
  rw [Bank.nextP6, hnone]
  rfl

/-- The bank takes the oldest task processor request where no request of priority 6 comes first. -/
theorem State.grantAt_slot {s : State} {p b i : Nat} {m : MemOp} (err : EccErr)
    (hp6 : ((s.spad p).bank b).nextP6 s.now (s.scrubOn p) = none ∨ ((s.spad p).bank b).p6wait < 7)
    (h : (s.core p).tpRequest s.now b = some (i, m)) :
    s.grantAt p b err = some (((s.takeBank p b).missP6 p b m.kind.cycles).grantSlot p i m err) := by
  rcases hp6 with hp6 | hp6
  · unfold State.grantAt
    simp only [hp6, h]
  · exact State.grantAt_of_tpRequest s err hp6 h

/-! One scratchpad and its node. -/

/-- Nothing but the scratchpad and the node of core `p` changes. -/
structure State.SpadOnly (s t : State) (p : Nat) : Prop where
  others : ∀ q, q ≠ p → t.core q = s.core q
  core : s.SpadAndNode t p
  rest : ({ t with cores := s.cores } : State) = s

namespace State.SpadOnly

theorem refl (s : State) (p : Nat) : s.SpadOnly s p := ⟨fun _ _ => rfl, .refl s p, rfl⟩

theorem trans {s t u : State} {p : Nat} (h : s.SpadOnly t p) (k : t.SpadOnly u p) : s.SpadOnly u p where
  others q hq := (k.others q hq).trans (h.others q hq)
  core := h.core.trans k.core
  rest := by
    have hrest := congrArg (fun x : State => ({ x with cores := s.cores } : State)) k.rest
    exact hrest.trans h.rest

theorem of_modSpad (s : State) (p : Nat) (f : Spad → Spad) : s.SpadOnly (s.modSpad p f) p :=
  ⟨fun _ hq => State.core_modCore_other s _ hq, .of_modSpad s p f, rfl⟩

theorem of_raiseCore (s : State) (p slot : Nat) (sev : Severity) (code : Nat) (run : Option (Nat × Nat)) (data : Nat) (ahead : Bool) :
    s.SpadOnly (s.raiseCore p slot sev code run data ahead) p :=
  ⟨fun _ hq => State.core_modCore_other s _ hq, .of_raiseCore s p slot sev code run data ahead, rfl⟩

theorem of_spadWrite (s : State) (p o : Nat) (bs : List Byte) (dbl : Nat → Bool) : s.SpadOnly (s.spadWrite p o bs dbl) p := by
  have hraise (l : List Nat) (u : State) : u.SpadOnly (l.foldl (fun s w => s.raiseCore p 0 .degraded 0x11 none w false) u) p := by
    induction l generalizing u with
    | nil => exact .refl u p
    | cons w l ih => exact (of_raiseCore u p _ _ _ _ _ _).trans (ih _)
  exact (of_modSpad s p _).trans ((of_modSpad _ p _).trans (hraise _ _))

theorem of_touchPlain (s : State) (p : Nat) (isWrite : Bool) (o n : Nat) : s.SpadOnly (s.touchPlain p isWrite o n) p := of_modSpad s p _

theorem of_modBank (s : State) (p b : Nat) (f : Bank → Bank) : s.SpadOnly (s.modBank p b f) p := of_modSpad s p _

theorem of_missP6 (s : State) (p b n : Nat) : s.SpadOnly (s.missP6 p b n) p := of_modSpad s p _

/-- A field of the state other than its cores. -/
theorem field {β : Type} {s t : State} {p : Nat} (h : s.SpadOnly t p) (f : State → β) (hf : ∀ (s : State) (m : SMap Core), f { s with cores := m } = f s) :
    f t = f s :=
  (hf t _).symm.trans (congrArg f h.rest)

theorem slot {s t : State} {p : Nat} (h : s.SpadOnly t p) (j : Nat) : t.slot p j = s.slot p j :=
  h.core.field (fun c => c.slot j) fun _ _ _ => rfl

end State.SpadOnly

/-! The end of a grant: its slot, and the waits of the core. -/

/-- Slot `i` takes its new value, and the waits of the core are examined. -/
def State.endGranted (s : State) (p i : Nat) (f : Slot → Slot) : State := (s.modSlot p i f).settle p

theorem State.core_endGranted (s : State) (p i : Nat) (f : Slot → Slot) :
    (s.endGranted p i f).core p = ((s.core p).modSlot i f).settle s.now s.gen.lastEdge := by
  rw [State.endGranted, State.settle, State.core_modCore_same, State.modSlot, State.core_modCore_same]
  rfl

theorem State.slot_endGranted (s : State) (p : Nat) {i : Nat} (hi : i < 8) {f : Slot → Slot} (h : (f (s.slot p i)).mode ≠ .waiting) :
    (s.endGranted p i f).slot p i = (f (s.slot p i)).ripen s.now := by
  have hslot : ((s.core p).modSlot i f).slot i = f (s.slot p i) := Core.slot_modSlot_same ..
  rw [State.slot, State.core_endGranted, Core.slot_settle_of_not_waiting _ _ _ hi (by rw [hslot]; exact h), hslot]

theorem State.spad_endGranted (s : State) (p i : Nat) (f : Slot → Slot) : (s.endGranted p i f).spad p = s.spad p := by
  rw [State.spad, State.core_endGranted, Core.settle_field _ _ _ Core.spad fun _ _ _ => rfl]
  rfl

theorem State.endGranted_others (s : State) {p : Nat} (i : Nat) (f : Slot → Slot) {q : Nat} (h : q ≠ p) :
    (s.endGranted p i f).core q = s.core q := (State.core_modCore_other _ _ h).trans (State.core_modCore_other _ _ h)

theorem State.modCore_rest (s : State) (p : Nat) (f : Core → Core) : ({ s.modCore p f with cores := s.cores } : State) = s := rfl

theorem State.endGranted_rest (s : State) (p i : Nat) (f : Slot → Slot) : ({ s.endGranted p i f with cores := s.cores } : State) = s := by
  have hsettle := (s.modSlot p i f).modCore_rest p (Core.settle (s.modSlot p i f).now (s.modSlot p i f).gen.lastEdge)
  have hcores := congrArg (fun x : State => ({ x with cores := s.cores } : State)) hsettle
  exact hcores.trans (s.modCore_rest p _)

theorem State.core_field_endGranted {β : Type} (s : State) (p i : Nat) (f : Slot → Slot) (g : Core → β)
    (hg : ∀ (c : Core) (m : SMap Slot) (n : Node), g { c with slots := m, node := n } = g c) :
    g ((s.endGranted p i f).core p) = g (s.core p) := by
  rw [State.core_endGranted, Core.settle_field _ _ _ g hg]
  exact hg (s.core p) _ (s.core p).node

end Sys2Proof.Machine

/-!
SUPPORT. BANK_GRANT in the turn of a slot's request (R88-R90).
-/
namespace Sys2Proof.Claims

open Sys2Proof.Machine

/-- The panel in the cycle of the grant. -/
def atGrant (s : State) (p b : Nat) : State := s.advanceTo ((s.spad p).bank b).freeAt

/-- The panel in that cycle, the bank taken. -/
def granting (s : State) (p b : Nat) (m : MemOp) : State := ((atGrant s p b).takeBank p b).missP6 p b m.kind.cycles

theorem noError_eq {err : EccErr} (h : NoError err) : err = ⟨0, 0⟩ := by
  obtain ⟨hsingle, hdouble⟩ := h
  cases err
  exact congrArg₂ _ hsingle hdouble

theorem tpRequest_of_turn {s : State} {p b i : Nat} {m : MemOp} (h : TpTurn s p b i m) :
    (s.core p).tpRequest (grantCycle s p b) b = some (i, m) := by
  obtain ⟨-, hi, -, hmem, hreply, hbank, hwait, holdest⟩ := h
  refine Core.tpRequest_of_oldest hi (Core.memAt_eq_some.2 ⟨hmem, hreply, hbank, hwait⟩) fun j hj hne x hx => ?_
  obtain ⟨hxmem, hxreply, hxbank, -⟩ := Core.memAt_eq_some.1 hx
  exact holdest j hj hne x hxmem hxreply hxbank

theorem bankGrant_of_turn {s : State} {c : CoreIx} {b : Fin 16} {i : Nat} {m : MemOp} (err : EccErr) (h : TpTurn s c.val b.val i m) :
    exec (.bankGrant c b err) s = .next ((granting s c.val b.val m).grantSlot c.val i m err) := by
  have hrequest := tpRequest_of_turn h
  obtain ⟨⟨hon, hpd⟩, -, hp6, -⟩ := h
  have hgrants : ((s.spad c.val).bank b.val).grants = true := by
    rw [Bank.grants, hon, hpd]
    rfl
  have hnext : ((s.spad c.val).bank b.val).nextP6 (grantCycle s c.val b.val) (s.scrubOn c.val) = none
      ∨ ((s.spad c.val).bank b.val).p6wait < 7 := by
    refine hp6.imp_left fun ⟨hempty, hscrub⟩ => Bank.nextP6_eq_none hempty fun ⟨hon, hdue⟩ => ?_
    rcases hscrub with hoff | hlate
    · exact Bool.false_ne_true (hoff.symm.trans hon)
    · exact absurd hdue (Nat.not_le.2 hlate)
  rw [exec_bankGrant, execBankGrant]
  rw [hgrants, if_neg (by decide)]
  simp only [State.grantAt_slot (s := s.advanceTo ((s.spad c.val).bank b.val).freeAt) err hnext hrequest]
  rfl

theorem sameButDue_refl (x : Slot) : SameButDue x x := ⟨rfl, fun _ => rfl⟩

theorem sameButDue_ripen (now : Nat) (x : Slot) : SameButDue x (x.ripen now) :=
  ⟨x.ripen_sameButTokens now, fun h => Slot.ripen_of_due fun e he => absurd he (by rw [h]; exact List.not_mem_nil)⟩

/-- A slot that does not wait keeps all but what was due through the examination of the waits. -/
theorem sameButDue_settle (now : Nat) (edges : SMap Nat) (c : Core) {j : Nat} (h : (c.slot j).mode ≠ .waiting) :
    SameButDue (c.slot j) ((c.settle now edges).slot j) := by
  by_cases hj : j < 8
  · rw [Core.slot_settle_of_not_waiting now edges c hj h]
    exact sameButDue_ripen now _
  · have hslots := Core.slot_settleSlots_of_not_mem now edges c (mt List.mem_range.1 hj)
    rw [Core.settle_eq, Core.slot_deliverAll now _ _ (by rw [hslots]; exact h), hslots]
    exact sameButDue_refl _

section
variable {s v : State} {p i : Nat}

/-- What a grant changes beside its slot: the scratchpad, the node, and what the examination of the waits ends. -/
theorem grantFrame_endGranted (h : s.SpadOnly v p) (f : Slot → Slot) : GrantFrame s (v.endGranted p i f) p i := by
  have hcore {β : Type} (g : Core → β) (hg : ∀ (c : Core) (m : SMap Slot) (x : Spad) (n : Node),
      g { c with slots := m, spad := x, node := n } = g c) : g ((v.endGranted p i f).core p) = g (s.core p) :=
    (v.core_field_endGranted p i f g fun c m n => hg c m c.spad n).trans (h.core.field g fun c x n => hg c c.slots x n)
  have hrest {β : Type} (g : State → β) (hg : ∀ (s : State) (m : SMap Core), g { s with cores := m } = g s) :
      g (v.endGranted p i f) = g s := (hg _ v.cores).symm.trans ((congrArg g (v.endGranted_rest p i f)).trans (h.field g hg))
  refine ⟨fun q hq => (v.endGranted_others i f hq).trans (h.others q hq), fun j hj hmode => ?_, hcore Core.dma fun _ _ _ _ => rfl,
    hcore Core.mxu fun _ _ _ _ => rfl, hcore Core.vec fun _ _ _ _ => rfl, hcore Core.icache fun _ _ _ _ => rfl,
    hcore Core.hist fun _ _ _ _ => rfl, hrest State.pending fun _ _ => rfl, hrest State.mesh fun _ _ => rfl,
    hrest State.hubs fun _ _ => rfl, hrest State.drams fun _ _ => rfl, hrest State.gen fun _ _ => rfl,
    hrest State.active fun _ _ => rfl, hrest State.worlds fun _ _ => rfl⟩
  have hslot : ((v.core p).modSlot i f).slot j = s.slot p j := (Core.slot_modSlot_other _ _ hj).trans (h.slot j)
  rw [← hslot, State.slot, v.core_endGranted]
  exact sameButDue_settle _ _ _ (by rw [hslot]; exact hmode)

/-- The same where no wait is examined. -/
theorem grantFrame_spadOnly (i : Nat) (h : s.SpadOnly v p) : GrantFrame s v p i := by
  have hcore {β : Type} (g : Core → β) (hg : ∀ (c : Core) (x : Spad) (n : Node), g { c with spad := x, node := n } = g c) :
      g (v.core p) = g (s.core p) := h.core.field g hg
  refine ⟨h.others, fun j _ _ => ?_, hcore Core.dma fun _ _ _ => rfl, hcore Core.mxu fun _ _ _ => rfl, hcore Core.vec fun _ _ _ => rfl,
    hcore Core.icache fun _ _ _ => rfl, hcore Core.hist fun _ _ _ => rfl, h.field State.pending fun _ _ => rfl,
    h.field State.mesh fun _ _ => rfl, h.field State.hubs fun _ _ => rfl, h.field State.drams fun _ _ => rfl,
    h.field State.gen fun _ _ => rfl, h.field State.active fun _ _ => rfl, h.field State.worlds fun _ _ => rfl⟩
  rw [h.slot j]
  exact sameButDue_refl _

theorem GrantFrame.modSlot (h : GrantFrame s v p i) (f : Slot → Slot) : GrantFrame s (v.modSlot p i f) p i := by
  obtain ⟨hother, hslots, hdma, hmxu, hvec, hicache, hhist, hrest⟩ := h
  have hcore : (v.modSlot p i f).core p = (v.core p).modSlot i f := State.core_modCore_same ..
  refine ⟨fun q hq => (State.core_modCore_other _ _ hq).trans (hother q hq), fun j hj hmode => ?_, (congrArg Core.dma hcore).trans hdma,
    (congrArg Core.mxu hcore).trans hmxu, (congrArg Core.vec hcore).trans hvec, (congrArg Core.icache hcore).trans hicache,
    (congrArg Core.hist hcore).trans hhist, hrest⟩
  rw [v.slot_modSlot_other _ _ hj]
  exact hslots j hj hmode

end

/-! The panel whose bank is taken. -/

theorem granting_spadOnly (s : State) (p b : Nat) (m : MemOp) : (atGrant s p b).SpadOnly (granting s p b m) p :=
  State.SpadOnly.trans (t := (atGrant s p b).takeBank p b) (.of_modBank _ p b _) (.of_missP6 _ p b _)

theorem granting_now (s : State) (p b : Nat) (m : MemOp) : (granting s p b m).now = grantCycle s p b := (granting_spadOnly s p b m).core.now

theorem slot_granting (s : State) (p b : Nat) (m : MemOp) (j : Nat) : (granting s p b m).slot p j = s.slot p j :=
  (granting_spadOnly s p b m).slot j

/-- The scratchpad differs in its banks alone. -/
theorem spad_granting (s : State) (p b : Nat) (m : MemOp) :
    ∃ banks, (granting s p b m).spad p = { s.spad p with banks := banks } := by
  obtain ⟨banks, hcore⟩ := core_takeBank_missP6 (atGrant s p b) p b m.kind.cycles
  exact ⟨banks, congrArg Core.spad hcore⟩

theorem bytes_granting (s : State) (p b : Nat) (m : MemOp) : ((granting s p b m).spad p).bytes = (s.spad p).bytes := by
  obtain ⟨banks, h⟩ := spad_granting s p b m
  rw [h]

theorem wins_granting (s : State) (p b : Nat) (m : MemOp) : ((granting s p b m).spad p).wins = (s.spad p).wins := by
  obtain ⟨banks, h⟩ := spad_granting s p b m
  rw [h]

theorem read_granting (s : State) (p b : Nat) (m : MemOp) (o n : Nat) : ((granting s p b m).spad p).read o n = (s.spad p).read o n := by
  obtain ⟨banks, h⟩ := spad_granting s p b m
  rw [h]
  rfl

theorem anyUe_granting (s : State) (p b : Nat) (m : MemOp) (o n : Nat) : ((granting s p b m).spad p).anyUe o n = (s.spad p).anyUe o n := by
  obtain ⟨banks, h⟩ := spad_granting s p b m
  rw [h]
  rfl

end Sys2Proof.Claims

/-!
SUPPORT. The grants of loads, stores and atomics (R70-R72).
-/
namespace Sys2Proof.Machine

/-! The grants of loads, stores and atomics (R70-R72). -/

/-- A slot whose access is over: it may issue from cycle `t` on. -/
def Slot.accessed (t : Nat) (sl : Slot) : Slot := { sl with mem := none, mode := .ready, wait := .none, readyAt := t }

section
variable {s : State} {p i : Nat} {m : MemOp}

/-- The scratchpad behind a store. -/
def State.stored (s : State) (p : Nat) (m : MemOp) (n : Nat) (err : EccErr) : State :=
  (s.touchPlain p true m.off n).spadWrite p m.off (leBytes n m.val.toNat) (doubleAt err)

theorem State.stored_spadOnly (s : State) (p : Nat) (m : MemOp) (n : Nat) (err : EccErr) : s.SpadOnly (s.stored p m n err) p :=
  (State.SpadOnly.of_touchPlain s p true m.off n).trans (.of_spadWrite _ p _ _ _)

theorem State.grantTp_store {n : Nat} (err : EccErr) (hk : m.kind = .store n) :
    s.grantTp p i m err = (s.stored p m n err).endGranted p i (Slot.accessed (s.now + 1)) := by
  have hready : (s.spad p).memReady m = true := by rw [Spad.memReady, hk]
  have hreads : m.kind.reads = false := by rw [hk]; rfl
  have hnow : (s.stored p m n err).now = s.now := (s.stored_spadOnly p m n err).core.now
  rw [State.grantTp, hready, if_neg (by decide), hreads, if_neg (by decide), ← hnow, State.grantStore]
  simp only [hk]
  rfl

theorem State.bytes_stored (s : State) (p : Nat) (m : MemOp) (n : Nat) (err : EccErr) :
    ((s.stored p m n err).spad p).bytes = SMap.setRange 0 (s.spad p).bytes m.off (leBytes n m.val.toNat) := by
  rw [State.stored, (State.spadWrite_spec _ _ _ _ _).2, State.spad_touchPlain_bytes]

/-- A plain read of clean bytes. -/
theorem State.read_touched (s : State) (p o n : Nat) (h : (s.spad p).anyUe o n = false) :
    ((s.touchPlain p false o n).spad p).anyUe o n = false ∧ ((s.touchPlain p false o n).spad p).read o n = (s.spad p).read o n
      ∧ (s.touchPlain p false o n).eccRead p o n ⟨0, 0⟩ false = s.touchPlain p false o n := by
  have hue : ((s.touchPlain p false o n).spad p).anyUe o n = false := by rw [State.spad_touchPlain, Spad.anyUe_touchPlain, h]
  exact ⟨hue, by rw [State.spad_touchPlain, Spad.read_touchPlain], State.eccRead_of_clean _ _ hue⟩

theorem State.grantTp_load {n : Nat} {sgn : Bool} (hk : m.kind = .load n sgn) (h : (s.spad p).anyUe m.off n = false) :
    s.grantTp p i m ⟨0, 0⟩ = (s.touchPlain p false m.off n).endGranted p i
      (Slot.withReply m (m.kind.extend (leNat ((s.spad p).read m.off n))) (s.now + 6)) := by
  have hready : (s.spad p).memReady m = true := by rw [Spad.memReady, hk]
  have hreads : m.kind.reads = true := by rw [hk]; rfl
  obtain ⟨hue, hread, hecc⟩ := s.read_touched p m.off n h
  rw [State.grantTp, hready, if_neg (by decide), if_pos hreads, State.grantLoad]
  simp only [hk, MemKind.size, hecc, hue, hread, MemOp.amo, Bool.false_eq_true, if_false]
  rw [← hk, State.touchPlain_now]
  rfl

/-- The access is an atomic (R72). -/
def MemKind.IsAtomic (k : MemKind) : Prop := k = .amoAdd ∨ k = .amoSwap ∨ k = .amoCas ∨ k = .amoOr ∨ k = .amoAnd

theorem MemKind.atomic_reads {k : MemKind} (h : k.IsAtomic) : k.reads = true := by
  rcases h with rfl | rfl | rfl | rfl | rfl
  all_goals rfl

theorem MemKind.extend_atomic {k : MemKind} (h : k.IsAtomic) (x : Nat) : k.extend x = BitVec.ofNat 64 x := by
  rcases h with rfl | rfl | rfl | rfl | rfl
  all_goals rfl

theorem Spad.memReady_atomic (sp : Spad) (h : m.kind.IsAtomic) : sp.memReady m = true := by
  rcases h with h | h | h | h | h
  all_goals rw [Spad.memReady, h]

/-- The scratchpad behind an atomic. -/
def State.exchanged (s : State) (p : Nat) (m : MemOp) (new : Word) : State :=
  (((s.touchPlain p false m.off 8).touchPlain p true m.off 8).spadWrite p m.off (leBytes 8 new.toNat)).modBank p (bankOf m.off)
    (fun b => { b with freeAt := s.now + 2 })

theorem State.exchanged_spadOnly (s : State) (p : Nat) (m : MemOp) (new : Word) : s.SpadOnly (s.exchanged p m new) p :=
  (State.SpadOnly.of_touchPlain s p false m.off 8).trans <| (State.SpadOnly.of_touchPlain _ p true m.off 8).trans <|
    (State.SpadOnly.of_spadWrite _ p _ _ _).trans (.of_modBank _ p _ _)

theorem State.bytes_exchanged (s : State) (p : Nat) (m : MemOp) (new : Word) :
    ((s.exchanged p m new).spad p).bytes = SMap.setRange 0 (s.spad p).bytes m.off (leBytes 8 new.toNat) := by
  rw [State.exchanged, State.spad_modBank]
  show (State.spad (State.spadWrite _ _ _ _ _) p).bytes = _
  rw [(State.spadWrite_spec _ _ _ _ _).2, State.spad_touchPlain_bytes, State.spad_touchPlain_bytes]

theorem State.freeAt_exchanged (s : State) (p : Nat) (m : MemOp) (new : Word) :
    (((s.exchanged p m new).spad p).bank (bankOf m.off)).freeAt = s.now + 2 := by
  rw [State.exchanged, State.spad_modBank, Spad.bank_setBank_same]

theorem State.grantTp_atomic {new : Word} (hm : m.kind.IsAtomic) (h : (s.spad p).anyUe m.off 8 = false)
    (hnew : m.amo (BitVec.ofNat 64 (leNat ((s.spad p).read m.off 8))) = some new) :
    s.grantTp p i m ⟨0, 0⟩ = (s.exchanged p m new).endGranted p i
      (Slot.withReply m (BitVec.ofNat 64 (leNat ((s.spad p).read m.off 8))) (s.now + 6)) := by
  obtain ⟨hue, hread, hecc⟩ := s.read_touched p m.off 8 h
  have hext := MemKind.extend_atomic hm (leNat ((s.spad p).read m.off 8))
  rw [State.grantTp, Spad.memReady_atomic _ hm, if_neg (by decide), if_pos (MemKind.atomic_reads hm), State.grantLoad, State.exchanged]
  rcases hm with hk | hk | hk | hk | hk
  all_goals
    simp only [hk, MemKind.size, hecc, hue, hread, hnew, Bool.false_eq_true, if_false, State.touchPlain_now]
    rw [← hk, hext]
    rfl

end

end Sys2Proof.Machine

/-!
SUPPORT. BANK_GRANT of loads, stores and atomics (R37, R70-R72, R88).
-/
namespace Sys2Proof.Claims

open Sys2Proof.Machine

/-! BANK_GRANT of loads, stores and atomics (R70-R72, R88). -/

/-- The value of a load (R5, R70). -/
theorem extend_load (n : Nat) (sgn : Bool) (bs : List Byte) : (MemKind.load n sgn).extend (leNat bs) = loadValue n sgn bs := by
  cases sgn
  · rfl
  · rw [loadValue, if_pos rfl, ← toInt_ofNat_eq_toSigned]
    rfl

theorem amo_of_atomicResult {m : MemOp} {old new : Word} (h : atomicResult m.kind old m.val m.oldRd = some new) :
    m.kind.IsAtomic ∧ m.amo old = some new := by
  unfold atomicResult at h
  rw [MemOp.amo]
  split at h
  case h_6 => cases h
  all_goals
    rename_i hk
    have h := Option.some.inj h
    rw [hk]
  · exact ⟨.inl rfl, congrArg some ((word_add _ _).trans h)⟩
  · exact ⟨.inr (.inl rfl), congrArg some h⟩
  · exact ⟨.inr (.inr (.inl rfl)), congrArg some h⟩
  · exact ⟨.inr (.inr (.inr (.inl rfl))), congrArg some ((word_or _ _).trans h)⟩
  · exact ⟨.inr (.inr (.inr (.inr rfl))), congrArg some ((word_and _ _).trans h)⟩

theorem grantSlot_store {u : State} {p i : Nat} {m : MemOp} {err : EccErr} {n : Nat} (hk : m.kind = .store n) :
    u.grantSlot p i m err = u.grantTp p i m err := by
  rw [State.grantSlot, hk]

theorem grantSlot_load {u : State} {p i : Nat} {m : MemOp} {err : EccErr} {n : Nat} {sgn : Bool} (hk : m.kind = .load n sgn) :
    u.grantSlot p i m err = u.grantTp p i m err := by
  rw [State.grantSlot, hk]

theorem grantSlot_atomic {u : State} {p i : Nat} {m : MemOp} {err : EccErr} (hm : m.kind.IsAtomic) :
    u.grantSlot p i m err = u.grantTp p i m err := by
  rcases hm with hk | hk | hk | hk | hk
  all_goals rw [State.grantSlot, hk]

/-- What the end of a grant leaves of the panel. -/
structure GrantEnds (s t : State) (p b i : Nat) (sl : Slot) (sp : Spad) : Prop where
  slot : t.slot p i = sl.ripen (grantCycle s p b)
  spad : t.spad p = sp
  hostMem : t.hostMem = s.hostMem
  regs : t.regs = s.regs
  events : t.events = s.events
  frame : GrantFrame s t p i

theorem grantEnds {s v : State} {p b i : Nat} {m : MemOp} (hi : i < 8) (h : (granting s p b m).SpadOnly v p) {f : Slot → Slot}
    (hf : (f (s.slot p i)).mode ≠ .waiting) : GrantEnds s (v.endGranted p i f) p b i (f (s.slot p i)) (v.spad p) := by
  have hv : (atGrant s p b).SpadOnly v p := (granting_spadOnly s p b m).trans h
  have hslot : v.slot p i = s.slot p i := hv.slot i
  have hnow : v.now = grantCycle s p b := hv.core.now
  have hrest {β : Type} (g : State → β) (hg : ∀ (s : State) (m : SMap Core), g { s with cores := m } = g s) :
      g (v.endGranted p i f) = g (atGrant s p b) := (hg _ v.cores).symm.trans ((congrArg g (v.endGranted_rest p i f)).trans (hv.field g hg))
  refine ⟨?_, v.spad_endGranted p i f, hrest State.hostMem fun _ _ => rfl, hrest State.regs fun _ _ => rfl,
    hrest State.events fun _ _ => rfl, grantFrame_endGranted hv f⟩
  rw [v.slot_endGranted p hi (by rw [hslot]; exact hf), hslot, hnow]

theorem bytesWritten_none {s t : State} {p : Nat} (h : (t.spad p).bytes = (s.spad p).bytes) : BytesWritten s t p 0 [] := by
  intro x
  rw [if_neg (by simp), sbyte, h, sbyte]

theorem bankGrantOfAccess : BankGrantOfAccess := by
  intro s c b err i m hturn herr
  obtain rfl := noError_eq herr
  have hexec := bankGrant_of_turn ⟨0, 0⟩ hturn
  obtain ⟨-, hi, -, hmem, hreply, hbank, -⟩ := hturn
  set u := granting s c.val b.val m with hu
  have hunow : u.now = grantCycle s c.val b.val := granting_now ..
  refine ⟨fun n hk => ?_, fun n sgn hk hclean => ?_, fun new hnew _ hclean => ?_⟩
  · obtain ⟨hslot, hspad, hhost, hregs, hevents, hframe⟩ := grantEnds (i := i) hi (u.stored_spadOnly c.val m n ⟨0, 0⟩)
      (f := Slot.accessed (u.now + 1)) (by exact SlotMode.noConfusion)
    rw [grantSlot_store hk, State.grantTp_store _ hk] at hexec
    refine ⟨_, hexec, bytesWritten_of_bytes ?_, by rw [hslot, hunow]; rfl, hhost, hregs, hevents, hframe⟩
    rw [hspad, State.bytes_stored, bytes_granting]
  · have hue : (u.spad c.val).anyUe m.off n = false := by rw [anyUe_granting, anyUe_of_clean hclean]
    obtain ⟨hslot, hspad, hhost, hregs, hevents, hframe⟩ := grantEnds (i := i) hi (.of_touchPlain u c.val false m.off n)
      (f := Slot.withReply m (m.kind.extend (leNat ((u.spad c.val).read m.off n))) (u.now + 6)) (by exact SlotMode.noConfusion)
    rw [grantSlot_load hk, State.grantTp_load hk hue] at hexec
    refine ⟨_, hexec, bytesWritten_none ?_, ?_, hhost, hregs, hevents, hframe⟩
    · rw [hspad, State.spad_touchPlain_bytes, bytes_granting]
    · have hvalue : m.kind.extend (leNat ((u.spad c.val).read m.off n)) = loadValue n sgn ((s.spad c.val).read m.off n) := by
        rw [hk, extend_load, hu, read_granting]
      rw [hslot, hunow, hvalue]
      rfl
  · obtain ⟨hatomic, hamo⟩ := amo_of_atomicResult hnew
    have hread : (u.spad c.val).read m.off 8 = (s.spad c.val).read m.off 8 := read_granting ..
    have hue : (u.spad c.val).anyUe m.off 8 = false := by rw [anyUe_granting, anyUe_of_clean hclean]
    obtain ⟨hslot, hspad, hhost, hregs, hevents, hframe⟩ := grantEnds (i := i) hi (u.exchanged_spadOnly c.val m new)
      (f := Slot.withReply m (BitVec.ofNat 64 (leNat ((u.spad c.val).read m.off 8))) (u.now + 6)) (by exact SlotMode.noConfusion)
    rw [grantSlot_atomic hatomic, State.grantTp_atomic hatomic hue (by rw [hread]; exact hamo)] at hexec
    refine ⟨_, hexec, bytesWritten_of_bytes ?_, ?_, hhost, hregs, hevents, ?_, hframe⟩
    · rw [hspad, State.bytes_exchanged, bytes_granting]
    · rw [hslot, hunow, hread]
      rfl
    · rw [hspad, ← hunow, ← hbank]
      exact u.freeAt_exchanged c.val m new

end Sys2Proof.Claims

/-!
SUPPORT. The grants of TAKE and PUT (R73, R107, R108).
-/
namespace Sys2Proof.Machine

/-! Channel slots and checked accesses (R73, R107, R108). -/

theorem Spad.chanAt_congr {sp sp' : Spad} (h : sp'.wins = sp.wins) (o : Nat) : sp'.chanAt o = sp.chanAt o := by
  unfold Spad.chanAt Spad.win
  rw [h]

theorem Spad.win_congr {sp sp' : Spad} (h : sp'.wins = sp.wins) (w : Nat) : sp'.win w = sp.win w := by
  rw [Spad.win, h, Spad.win]

theorem Spad.bytes_setFullAt (sp : Spad) (o : Nat) (b : Bool) : (sp.setFullAt o b).bytes = sp.bytes := by
  unfold Spad.setFullAt
  split
  · rfl
  · rfl

theorem Spad.isFull_setFullAt {sp : Spad} {o w k : Nat} (h : sp.chanAt o = some (w, k)) (b : Bool) :
    ((sp.setFullAt o b).win w).isFull k = b := by
  rw [Spad.setFullAt, h]
  show ((sp.setWin w ((sp.win w).setFull k b)).win w).isFull k = b
  rw [Spad.win_setWin_same]
  exact SMap.get_set_same _ _ _ _

theorem State.wins_spadWrite (s : State) (p o : Nat) (bs : List Byte) (dbl : Nat → Bool) :
    ((s.spadWrite p o bs dbl).spad p).wins = (s.spad p).wins := by
  have hraise (l : List Nat) (u : State) : (l.foldl (fun s w => s.raiseCore p 0 .degraded 0x11 none w false) u).spad p = u.spad p := by
    induction l generalizing u with
    | nil => rfl
    | cons w l ih => exact (ih _).trans (u.spad_raiseCore p _ _ _ _ _ _)
  unfold State.spadWrite
  dsimp only
  rw [hraise, State.spad_modSpad, State.spad_modSpad]
  rfl

section
variable {s : State} {p i w k : Nat} {m : MemOp} {l : Bool}

theorem Spad.memReady_take {sp : Spad} (hk : m.kind = .take l) (h : sp.chanAt m.off = some (w, k)) : sp.memReady m = (sp.win w).isFull k := by
  rw [Spad.memReady, hk]
  simp only [Spad.takeReady, h]

theorem Spad.memReady_put {sp : Spad} (hk : m.kind = .put l) (h : sp.chanAt m.off = some (w, k)) :
    sp.memReady m = (!(sp.win w).isFull k && !(sp.win w).isReserved k) := by
  rw [Spad.memReady, hk]
  simp only [Spad.putReady, h]

/-- A checked access that must wait (R108). -/
def Slot.heldBack (m : MemOp) (sl : Slot) : Slot := { sl with mode := .waiting, wait := .checked, mem := some { m with dueAt := 0 } }

theorem State.grantTp_waits (err : EccErr) (h : (s.spad p).memReady m = false) :
    s.grantTp p i m err = s.modSlot p i (Slot.heldBack m) := by
  rw [State.grantTp, h, if_pos (by decide)]
  rfl

/-- The full bit of the channel slot, where the access has L. -/
def State.fullMarked (s : State) (p o : Nat) (l b : Bool) : State := if l then s.modSpad p (fun sp => sp.setFullAt o b) else s

theorem State.fullMarked_spadOnly (s : State) (p o : Nat) (l b : Bool) : s.SpadOnly (s.fullMarked p o l b) p := by
  unfold State.fullMarked
  split
  · exact .of_modSpad s p _
  · exact .refl s p

theorem State.bytes_fullMarked (s : State) (p o : Nat) (l b : Bool) : ((s.fullMarked p o l b).spad p).bytes = (s.spad p).bytes := by
  unfold State.fullMarked
  split
  · rw [State.spad_modSpad, Spad.bytes_setFullAt]
  · rfl

theorem State.isFull_fullMarked {o : Nat} (h : (s.spad p).chanAt o = some (w, k)) (b : Bool) :
    (((s.fullMarked p o l b).spad p).win w).isFull k = if l then b else ((s.spad p).win w).isFull k := by
  unfold State.fullMarked
  cases l
  · rfl
  · rw [if_pos rfl, if_pos rfl, State.spad_modSpad, Spad.isFull_setFullAt h]

theorem State.grantTp_take (hk : m.kind = .take l) (hready : (s.spad p).memReady m = true) (h : (s.spad p).anyUe m.off 8 = false) :
    s.grantTp p i m ⟨0, 0⟩ = (s.fullMarked p m.off l false).endGranted p i
      (Slot.withReply m (BitVec.ofNat 64 (leNat ((s.spad p).read m.off 8))) (s.now + 6)) := by
  have hreads : m.kind.reads = true := by rw [hk]; rfl
  have hext : m.kind.extend (leNat ((s.spad p).read m.off 8)) = BitVec.ofNat 64 (leNat ((s.spad p).read m.off 8)) := by rw [hk]; rfl
  rw [State.grantTp, hready, if_neg (by decide), if_pos hreads, State.grantLoad]
  simp only [hk, MemKind.size, State.eccRead_of_clean _ _ h, h, MemOp.amo, Bool.false_eq_true, if_false]
  rw [← hext]
  cases l
  · simp only [← hk]
    rfl
  · simp only [← hk]
    rfl

theorem State.grantTp_put (err : EccErr) (hk : m.kind = .put l) (hready : (s.spad p).memReady m = true) :
    s.grantTp p i m err = ((s.spadWrite p m.off (leBytes 8 m.val.toNat) (doubleAt err)).fullMarked p m.off l true).endGranted p i
      (Slot.accessed (s.now + 1)) := by
  have hreads : m.kind.reads = false := by rw [hk]; rfl
  have hnow : ((s.spadWrite p m.off (leBytes 8 m.val.toNat) (doubleAt err)).fullMarked p m.off l true).now = s.now :=
    ((State.SpadOnly.of_spadWrite s p _ _ _).trans (State.fullMarked_spadOnly _ p _ l true)).core.now
  rw [State.grantTp, hready, if_neg (by decide), hreads, if_neg (by decide), ← hnow, State.grantStore]
  simp only [hk]
  cases l
  · rfl
  · rfl

end

end Sys2Proof.Machine

/-!
SUPPORT. BANK_GRANT of TAKE and PUT, and LOAD_DATA_RETURN (R37, R71, R73).
-/
namespace Sys2Proof.Claims

open Sys2Proof.Machine

/-! Checked accesses at their bank (R73, R107, R108). -/

theorem grantSlot_take {u : State} {p i : Nat} {m : MemOp} {err : EccErr} {l : Bool} (hk : m.kind = .take l) :
    u.grantSlot p i m err = u.grantTp p i m err := by
  rw [State.grantSlot, hk]

theorem grantSlot_put {u : State} {p i : Nat} {m : MemOp} {err : EccErr} {l : Bool} (hk : m.kind = .put l) :
    u.grantSlot p i m err = u.grantTp p i m err := by
  rw [State.grantSlot, hk]

/-- A checked access whose channel slot is not as it needs it: its slot waits, and nothing else changes. -/
theorem checked_waits {s : State} {p b i : Nat} {m : MemOp} :
    ((granting s p b m).modSlot p i (Slot.heldBack m)).slot p i = { s.slot p i with
        mode := .waiting, wait := .checked, mem := some { m with dueAt := 0 } }
      ∧ BytesWritten s ((granting s p b m).modSlot p i (Slot.heldBack m)) p 0 []
      ∧ (((granting s p b m).modSlot p i (Slot.heldBack m)).spad p).wins = (s.spad p).wins
      ∧ GrantFrame s ((granting s p b m).modSlot p i (Slot.heldBack m)) p i := by
  have hspad := (granting s p b m).spad_modSlot p i (Slot.heldBack m)
  refine ⟨?_, bytesWritten_none ?_, ?_, (grantFrame_spadOnly (s := atGrant s p b) i (granting_spadOnly s p b m)).modSlot _⟩
  · rw [State.slot_modSlot_same, slot_granting]
    rfl
  · rw [hspad, bytes_granting]
  · rw [hspad, wins_granting]

theorem checkedAccess : CheckedAccess := by
  intro s c b err i w k m l hturn herr hclean _ hchan
  obtain rfl := noError_eq herr
  have hexec := bankGrant_of_turn ⟨0, 0⟩ hturn
  obtain ⟨-, hi, -⟩ := hturn
  set u := granting s c.val b.val m with hu
  have hunow : u.now = grantCycle s c.val b.val := granting_now ..
  have huwins : (u.spad c.val).wins = (s.spad c.val).wins := wins_granting ..
  have huchan : (u.spad c.val).chanAt m.off = some (w, k) := (Spad.chanAt_congr huwins _).trans hchan
  have huwin : (u.spad c.val).win w = (s.spad c.val).win w := Spad.win_congr huwins w
  have huread : (u.spad c.val).read m.off 8 = (s.spad c.val).read m.off 8 := read_granting ..
  have hue : (u.spad c.val).anyUe m.off 8 = false := by rw [anyUe_granting, anyUe_of_clean hclean]
  refine ⟨fun hk => ?_, fun hk => ?_⟩
  · have hready := Spad.memReady_take hk huchan
    rw [huwin] at hready
    rw [grantSlot_take hk] at hexec
    refine ⟨fun hempty => ?_, fun hfull => ?_⟩
    · rw [State.grantTp_waits _ (hready.trans hempty)] at hexec
      exact ⟨_, hexec, checked_waits⟩
    · rw [State.grantTp_take hk (hready.trans hfull) hue] at hexec
      obtain ⟨hslot, hspad, -, -, -, hframe⟩ := grantEnds (i := i) hi (u.fullMarked_spadOnly c.val m.off l false)
        (f := Slot.withReply m (BitVec.ofNat 64 (leNat ((u.spad c.val).read m.off 8))) (u.now + 6)) (by exact SlotMode.noConfusion)
      refine ⟨_, hexec, ?_, ?_, bytesWritten_none ?_, hframe⟩
      · rw [hslot, hunow, huread]
        exact Slot.sameButTokens_field (Slot.ripen_sameButTokens _ _) Slot.mem fun _ _ _ => rfl
      · rw [hspad, State.isFull_fullMarked huchan, huwin, hfull]
        cases l
        · rfl
        · rfl
      · rw [hspad, State.bytes_fullMarked, bytes_granting]
  · have hready := Spad.memReady_put hk huchan
    rw [huwin] at hready
    rw [grantSlot_put hk] at hexec
    refine ⟨fun hoccupied => ?_, fun hempty hunreserved => ?_⟩
    · have hnot : (u.spad c.val).memReady m = false := by
        rw [hready]
        rcases hoccupied with h | h
        · rw [h]
          rfl
        · rw [h, Bool.not_true, Bool.and_false]
      rw [State.grantTp_waits _ hnot] at hexec
      exact ⟨_, hexec, checked_waits⟩
    · rw [State.grantTp_put _ hk (by rw [hready, hempty, hunreserved]; rfl)] at hexec
      set v := u.spadWrite c.val m.off (leBytes 8 m.val.toNat) (doubleAt ⟨0, 0⟩) with hv
      have hvwins : (v.spad c.val).wins = (u.spad c.val).wins := State.wins_spadWrite ..
      obtain ⟨hslot, hspad, -, -, -, hframe⟩ := grantEnds (i := i) hi
        ((State.SpadOnly.of_spadWrite u c.val m.off (leBytes 8 m.val.toNat) (doubleAt ⟨0, 0⟩)).trans (v.fullMarked_spadOnly c.val m.off l true))
        (f := Slot.accessed (u.now + 1)) (by exact SlotMode.noConfusion)
      refine ⟨_, hexec, bytesWritten_of_bytes ?_, ?_, ?_, ?_, hframe⟩
      · rw [hspad, State.bytes_fullMarked, hv, (State.spadWrite_spec _ _ _ _ _).2, bytes_granting]
      · rw [hspad, State.isFull_fullMarked ((Spad.chanAt_congr hvwins _).trans huchan), Spad.win_congr hvwins, huwin, hempty]
        cases l
        · rfl
        · rfl
      · rw [hslot]
        exact Slot.sameButTokens_field (Slot.ripen_sameButTokens _ _) Slot.mem fun _ _ _ => rfl
      · rw [hslot]
        exact Slot.ripen_mode _ _

/-! LOAD_DATA_RETURN (R37, R71). -/

/-- A fault that the access of an instruction meets. -/
theorem faultBack_spec {s u : State} {p i : Nat} (code : Nat) (addr : Word) (hslot : u.slot p i = s.slot p i)
    (hnode : (u.core p).node = (s.core p).node) (hcount : u.fld (unitCore p) rCORE_FAULT_COUNT 0 32 = s.fld (unitCore p) rCORE_FAULT_COUNT 0 32)
    (hevents : u.events = s.events) (hother : ∀ q, q ≠ p → u.core q = s.core q)
    (hbytes : (u.core p).spad.bytes = (s.core p).spad.bytes) : FaultBack s (u.faultBack p i code addr) p i code addr := by
  set pc := (u.slot p i).pc - 4 with hpc
  have hcore : (u.modSlot p i (fun sl => { sl with pc := pc })).core p = (u.core p).modSlot i (fun sl => { sl with pc := pc }) :=
    State.core_modCore_same ..
  have h := faultFrom_takeFault (s := s) (u := u.modSlot p i (fun sl => { sl with pc := pc })) (p := p) (i := i) code pc addr
    ((congrArg Core.node hcore).trans hnode) hcount hevents
    (fun q hq => (State.core_modCore_other _ _ hq).trans (hother q hq))
    ((congrArg (fun c : Core => c.spad.bytes) hcore).trans hbytes)
  rw [State.slot_modSlot_same, hslot] at h
  rw [hpc, hslot] at h
  rw [FaultBack, State.faultBack, hslot]
  exact h

theorem loadReturn : LoadReturn := by
  intro s a
  refine ⟨fun m v hmem hreply => ?_, fun m hmem hreply => ?_, fun hnone => ?_⟩
  · refine ⟨_, loadDataReturn_next hmem hreply, rfl, ?_, fun q hq => State.core_modCore_other _ _ hq,
      fun j hj => State.slot_modSlot_other _ _ _ hj, ?_, rfl⟩
    · rw [at_, State.slot_modSlot_same]
      rfl
    · rw [State.modSlot, State.core_modCore_same]
      rfl
  · have hexec : exec (.loadDataReturn a) s
        = .next ((s.advanceTo m.dueAt).faultBack (corep a) a.slot.val fSpadUncorrectable m.taskAddr) := by
      rw [exec_loadDataReturn, execLoadDataReturn]
      simp only [show (s.slot a.core.val a.slot.val).mem = some m from hmem, hreply]
    exact ⟨_, hexec, faultBack_spec _ _ rfl rfl rfl rfl (fun _ _ => rfl) rfl⟩
  · rw [exec_loadDataReturn, execLoadDataReturn]
    dsimp only
    cases hmem : (s.slot a.core.val a.slot.val).mem with
    | none => rfl
    | some m => simp only [hnone m hmem]

end Sys2Proof.Claims

/-!
SUPPORT. The reads of descriptors (R74, R78, R92, R109).
-/
namespace Sys2Proof.Machine

/-- What of a slot no register write changes. -/
theorem Slot.setReg_field {β : Type} (f : Slot → β) (hf : ∀ (sl : Slot) (regs : SMap Word), f { sl with regs := regs } = f sl)
    (sl : Slot) (r : Nat) (x : Word) : f (sl.setReg r x) = f sl := by
  unfold Slot.setReg
  split
  · rfl
  · exact hf sl _

/-! What a plain access leaves of the windows (R109). -/

/-- The window is the same but for its sticky flags. -/
def Window.SameButMarks (x y : Window) : Prop :=
  { y with unsyncRead := x.unsyncRead, overwriteFull := x.overwriteFull, nacked := x.nacked, fresh := x.fresh } = x

theorem Window.SameButMarks.trans {x y z : Window} (h : x.SameButMarks y) (k : y.SameButMarks z) : x.SameButMarks z := by
  have hback := congrArg (fun w : Window => ({ w with
    unsyncRead := x.unsyncRead, overwriteFull := x.overwriteFull, nacked := x.nacked, fresh := x.fresh } : Window)) k
  exact hback.trans h

theorem Window.SameButMarks.field {β : Type} {x y : Window} (h : x.SameButMarks y) (f : Window → β)
    (hf : ∀ (x : Window) (a b c : Bool) (d : Nat × BitVec 3), f { x with unsyncRead := a, overwriteFull := b, nacked := c, fresh := d } = f x) :
    f y = f x := (hf y _ _ _ _).symm.trans (congrArg f h)

theorem Spad.win_touchPlain (now : Nat) (sp : Spad) (isWrite : Bool) (o n v : Nat) :
    (sp.win v).SameButMarks ((sp.touchPlain now isWrite o n).win v) := by
  unfold Spad.touchPlain
  generalize List.range 32 = ws
  induction ws generalizing sp with
  | nil => exact rfl
  | cons w ws ih =>
    have hmark (k : Nat) : (sp.win v).SameButMarks ((sp.setWin w ((sp.win w).mark now k)).win v) := by
      rcases eq_or_ne v w with rfl | hne
      · rw [Spad.win_setWin_same]
        rfl
      · rw [Spad.win_setWin_other _ _ hne]
        rfl
    refine Window.SameButMarks.trans ?_ (ih _)
    dsimp only
    split
    · split
      · exact hmark _
      · rfl
    · rfl

/-- The windows of two scratchpads are the same but for their sticky flags. -/
def Spad.SameWindows (sp sp' : Spad) : Prop := ∀ v, (sp.win v).SameButMarks (sp'.win v)

section
variable {sp sp' : Spad} (h : sp.SameWindows sp')
include h

theorem Spad.SameWindows.isOpen (v : Nat) : (sp'.win v).isOpen = (sp.win v).isOpen := (h v).field Window.isOpen fun _ _ _ _ _ => rfl

theorem Spad.SameWindows.overlapsOpen (lo hi : Nat) : sp'.overlapsOpen lo hi = sp.overlapsOpen lo hi := by
  have hbase (v : Nat) : (sp'.win v).base = (sp.win v).base := (h v).field Window.base fun _ _ _ _ _ => rfl
  have hbound (v : Nat) : (sp'.win v).bound = (sp.win v).bound := (h v).field Window.bound fun _ _ _ _ _ => rfl
  simp only [Spad.overlapsOpen, h.isOpen, hbase, hbound]

theorem Spad.SameWindows.roomFor (x : WinDesc) : sp'.roomFor x = sp.roomFor x := by
  have hchannel (v : Nat) : (sp'.win v).channel = (sp.win v).channel := (h v).field Window.channel fun _ _ _ _ _ => rfl
  have hcredits (v : Nat) : (sp'.win v).credits = (sp.win v).credits := (h v).field Window.credits fun _ _ _ _ _ => rfl
  have hslots : sp'.slotsUsed = sp.slotsUsed := by simp only [Spad.slotsUsed, h.isOpen, hchannel, hcredits]
  have hfree : sp'.freeWin = sp.freeWin := by simp only [Spad.freeWin, h.isOpen]
  rw [Spad.roomFor, Spad.roomFor, hslots, hfree]

end

/-! A read with errors (R92, R93). -/

/-- A read of the scratchpad of core `p` leaves bytes, the count of task faults, the events and the other cores. -/
structure State.ReadsSpad (s t : State) (p : Nat) : Prop where
  others : ∀ q, q ≠ p → t.core q = s.core q
  bytes : (t.spad p).bytes = (s.spad p).bytes
  ue : ∀ w, (s.spad p).isUe w = true → (t.spad p).isUe w = true
  faults : t.fld (unitCore p) rCORE_FAULT_COUNT 0 32 = s.fld (unitCore p) rCORE_FAULT_COUNT 0 32
  events : t.events = s.events

theorem State.ReadsSpad.refl (s : State) (p : Nat) : s.ReadsSpad s p := ⟨fun _ _ => rfl, rfl, fun _ h => h, rfl, rfl⟩

theorem State.ReadsSpad.trans {s t u : State} {p : Nat} (h : s.ReadsSpad t p) (k : t.ReadsSpad u p) : s.ReadsSpad u p :=
  ⟨fun q hq => (k.others q hq).trans (h.others q hq), k.bytes.trans h.bytes, fun w hw => k.ue w (h.ue w hw), k.faults.trans h.faults, k.events.trans h.events⟩

theorem State.ReadsSpad.of_record (s : State) (p w off : Nat) (ue scrub : Bool) (f : Spad → Spad) (hf : ∀ sp, (f sp).bytes = sp.bytes)
    (hue : ∀ sp v, Spad.isUe sp v = true → (f sp).isUe v = true) (hoff : off < 2 ^ 32) (hne : off ≠ rCORE_FAULT_COUNT) :
    s.ReadsSpad (((s.modSpad p f).bump (unitCore p) off 0 32 1).eccLast p w ue scrub) p := by
  have hcore (q : Nat) : (((s.modSpad p f).bump (unitCore p) off 0 32 1).eccLast p w ue scrub).core q = (s.modSpad p f).core q := by
    rw [Claims.eccLast_core, State.bump_core]
  have hspad : (((s.modSpad p f).bump (unitCore p) off 0 32 1).eccLast p w ue scrub).spad p = f (s.spad p) := by
    rw [State.spad, hcore, ← State.spad, State.spad_modSpad]
  refine ⟨fun q hq => (hcore q).trans (State.core_modCore_other _ _ hq), by rw [hspad, hf], fun v hv => by rw [hspad]; exact hue _ v hv, ?_, ?_⟩
  · have hlast : regKey (unitCore p) rCORE_FAULT_COUNT ≠ regKey (unitCore p) rSPAD_ECC_LAST :=
      regKey_ne_of_off (by decide) (by decide) (by decide)
    have hcount : regKey (unitCore p) rCORE_FAULT_COUNT ≠ regKey (unitCore p) off := regKey_ne_of_off (by decide) hoff hne.symm
    exact (State.fld_congr (State.reg_setReg_other _ _ hlast) 0 32).trans (State.fld_bump_other _ _ _ _ _ _ hcount)
  · rw [State.eccLast, State.setReg_events, State.bump_events]
    rfl

theorem State.eccRead_readsSpad (s : State) (p o n : Nat) (err : EccErr) (scrub : Bool) : s.ReadsSpad (s.eccRead p o n err scrub) p := by
  unfold State.eccRead
  generalize wordsOf o n = ws
  induction ws generalizing s with
  | nil => exact .refl s p
  | cons w ws ih =>
    refine State.ReadsSpad.trans ?_ (ih _)
    dsimp only
    split
    · refine .of_record s p w rSPAD_ECC_UE true scrub _ (fun _ => rfl) (fun sp v hv => ?_) (by decide) (by decide)
      rw [Spad.isUe, SMap.get_set]
      split
      · rfl
      · exact hv
    · split
      · exact .of_record s p w rSPAD_ECC_CE false scrub _ (fun _ => rfl) (fun _ _ hv => hv) (by decide) (by decide)
      · exact .refl s p

theorem State.ReadsSpad.anyUe {s t : State} {p o n : Nat} (h : s.ReadsSpad t p) (hue : (s.spad p).anyUe o n = true) :
    (t.spad p).anyUe o n = true := by
  rw [Spad.anyUe, List.any_eq_true] at hue ⊢
  obtain ⟨w, hw, hbad⟩ := hue
  exact ⟨w, hw, h.ue w hbad⟩

end Sys2Proof.Machine

/-!
SUPPORT. BANK_GRANT of a WOPEN (R78, R97-R99, R117).
-/
namespace Sys2Proof.Claims

open Sys2Proof.Machine

/-! The descriptor read at the bank (R74, R78). -/

/-- The panel behind the read of `n` bytes of a granted request. -/
def readIn (s : State) (p b : Nat) (m : MemOp) (n : Nat) : State :=
  ((granting s p b m).touchPlain p false m.off n).eccRead p m.off n ⟨0, 0⟩ false

section
variable (s : State) (p b : Nat) (m : MemOp) (n : Nat)

theorem granting_readsSpad : s.ReadsSpad (granting s p b m) p := by
  have h := granting_spadOnly s p b m
  obtain ⟨banks, hspad⟩ := spad_granting s p b m
  exact ⟨h.others, by rw [hspad], fun w hw => by rw [hspad]; exact hw, h.field (fun x => x.fld (unitCore p) rCORE_FAULT_COUNT 0 32) fun _ _ => rfl,
    h.field State.events fun _ _ => rfl⟩

theorem readIn_readsSpad : s.ReadsSpad (readIn s p b m n) p := by
  refine (granting_readsSpad s p b m).trans (State.ReadsSpad.trans ?_ (State.eccRead_readsSpad _ p m.off n ⟨0, 0⟩ false))
  refine ⟨fun q hq => State.core_modCore_other _ _ hq, State.spad_touchPlain_bytes _ _ _ _ _, fun w hw => ?_, rfl, rfl⟩
  rw [State.spad_touchPlain, Spad.isUe, Spad.touchPlain_ue]
  exact hw

theorem core_readIn : ({ (readIn s p b m n).core p with spad := s.spad p } : Core) = s.core p := by
  obtain ⟨banks, hgranting⟩ := core_takeBank_missP6 (atGrant s p b) p b m.kind.cycles
  have htouch := modSpad_core_rest (granting s p b m) p (fun sp => sp.touchPlain (granting s p b m).now false m.off n)
  have hread := eccRead_core ((granting s p b m).touchPlain p false m.off n) p m.off n ⟨0, 0⟩ false
  have hback := congrArg (fun c : Core => ({ c with spad := s.spad p } : Core)) hread
  have hback' := congrArg (fun c : Core => ({ c with spad := s.spad p } : Core)) htouch
  have hback'' := congrArg (fun c : Core => ({ c with spad := s.spad p } : Core)) hgranting
  exact hback.trans (hback'.trans hback'')

theorem slot_readIn (j : Nat) : (readIn s p b m n).slot p j = s.slot p j :=
  (congrArg (fun c : Core => c.slot j) (core_readIn s p b m n) :)

/-- A fault that the descriptor read meets. -/
theorem faultBack_readIn (i code : Nat) (addr : Word) : FaultBack s ((readIn s p b m n).faultBack p i code addr) p i code addr := by
  obtain ⟨hother, hbytes, -, hcount, hevents⟩ := readIn_readsSpad s p b m n
  exact faultBack_spec code addr (slot_readIn s p b m n i) (congrArg Core.node (core_readIn s p b m n) :) hcount hevents hother hbytes

theorem anyUe_readIn (h : ¬ Clean (s.spad p) m.off n) : ((readIn s p b m n).spad p).anyUe m.off n = true := by
  rw [clean_iff, Bool.not_eq_false] at h
  exact (readIn_readsSpad s p b m n).anyUe h

/-- A read of clean bytes changes sticky flags of windows alone. -/
theorem readIn_of_clean (h : Clean (s.spad p) m.off n) :
    (atGrant s p b).SpadOnly (readIn s p b m n) p ∧ ((readIn s p b m n).spad p).anyUe m.off n = false
      ∧ ((readIn s p b m n).spad p).read m.off n = (s.spad p).read m.off n
      ∧ (s.spad p).SameWindows ((readIn s p b m n).spad p) := by
  have hue : ((granting s p b m).spad p).anyUe m.off n = false := by rw [anyUe_granting, anyUe_of_clean h]
  obtain ⟨hue', hread, hecc⟩ := (granting s p b m).read_touched p m.off n hue
  rw [readIn, hecc, hread, read_granting]
  refine ⟨(granting_spadOnly s p b m).trans (.of_touchPlain _ p false m.off n), hue', rfl, fun v => ?_⟩
  rw [State.spad_touchPlain, ← Spad.win_congr (wins_granting s p b m)]
  exact Spad.win_touchPlain _ _ _ _ _ v

end

/-! The descriptor read of a WOPEN (R78, R97-R99). -/

/-- What WOPEN does with the descriptor it has read. -/
def openRead (s : State) (p i : Nat) (m : MemOp) : State :=
  if (s.spad p).anyUe m.off 32 then s.faultBack p i fSpadUncorrectable m.taskAddr
  else
    let sl := s.slot p i
    let d := (s.spad p).read m.off 32
    let x := winDesc d
    let lo := sl.seg.spadBase + x.base
    if !winDescOk d then s.faultBack p i fDescriptorInvalid m.taskAddr
    else if ¬ (x.base + x.bound ≤ sl.seg.spadBound) then s.faultBack p i fSpadBound (BitVec.ofNat 64 x.base)
    else if (s.spad p).overlapsOpen lo (lo + x.bound) then s.faultBack p i fDescriptorInvalid m.taskAddr
    else
      match (s.spad p).roomFor x with
      | none => s.endRead p i m.rd (BitVec.allOnes 64)
      | some w =>
        let g := nextGen ((s.spad p).win w).gen
        let s := s.modSpad p (fun sp => sp.setWin w (openWindow x lo sl.patch g))
        (s.endRead p i m.rd (BitVec.ofNat 64 (w + 2 ^ 16 * g.toNat))).modSlot p i (fun sl => { sl with
          opened := if x.persist then sl.opened else sl.opened ++ [(w, g)] })

theorem bankGrant_wopen {s : State} {c : CoreIx} {b : Fin 16} {i : Nat} {m : MemOp} (h : TpTurn s c.val b.val i m) (hk : m.kind = .wopen) :
    exec (.bankGrant c b ⟨0, 0⟩) s = .next (openRead (readIn s c.val b.val m 32) c.val i m) := by
  rw [bankGrant_of_turn ⟨0, 0⟩ h, State.grantSlot, hk]
  rfl

theorem overlapsOpen_iff (sp : Spad) (lo hi : Nat) : sp.overlapsOpen lo hi = true
    ↔ ∃ w, w < 32 ∧ (sp.win w).isOpen = true ∧ (sp.win w).base < hi ∧ lo < (sp.win w).base + (sp.win w).bound := by
  simp only [Spad.overlapsOpen, List.any_eq_true, List.mem_range, Bool.and_eq_true, decide_eq_true_eq]
  constructor
  · rintro ⟨w, hw, ⟨hopen, hlo⟩, hhi⟩
    exact ⟨w, hw, hopen, hhi, hlo⟩
  · rintro ⟨w, hw, hopen, hhi, hlo⟩
    exact ⟨w, hw, ⟨hopen, hlo⟩, hhi⟩

theorem freeWin_eq_some {sp : Spad} {w : Nat} (hw : w < 32) (hfree : (sp.win w).isOpen = false) (hlow : ∀ u, u < w → (sp.win u).isOpen = true) :
    sp.freeWin = some w := by
  rw [Spad.freeWin, List.find?_range_eq_some]
  refine ⟨by rw [hfree]; rfl, List.mem_range.2 hw, fun u hu => by rw [hlow u hu]; rfl⟩

theorem freeWin_eq_none {sp : Spad} (h : ∀ w, w < 32 → (sp.win w).isOpen = true) : sp.freeWin = none := by
  rw [Spad.freeWin, List.find?_eq_none]
  intro w hw
  rw [h w (List.mem_range.1 hw)]
  decide

theorem roomFor_eq_some {sp : Spad} {x : WinDesc} {w : Nat} (hw : sp.freeWin = some w)
    (hroom : x.channel = true → sp.slotsUsed + x.bound / x.slotBytes ≤ 1024) : sp.roomFor x = some w := by
  rw [Spad.roomFor, if_neg (fun ⟨hc, hfull⟩ => hfull (hroom hc)), hw]

theorem roomFor_eq_none {sp : Spad} {x : WinDesc} (h : (∀ w, w < 32 → (sp.win w).isOpen = true)
    ∨ (x.channel = true ∧ 1024 < sp.slotsUsed + x.bound / x.slotBytes)) : sp.roomFor x = none := by
  rcases h with h | ⟨hc, hfull⟩
  · rw [Spad.roomFor, freeWin_eq_none h, ite_self]
  · rw [Spad.roomFor, if_pos ⟨hc, Nat.not_le.2 hfull⟩]

section
variable {s : State} {p b i : Nat} {m : MemOp}

theorem openRead_of_unclean (h : ¬ Clean (s.spad p) m.off 32) :
    openRead (readIn s p b m 32) p i m = (readIn s p b m 32).faultBack p i fSpadUncorrectable m.taskAddr := by
  rw [openRead, anyUe_readIn s p b m 32 h, if_pos rfl]

/-- A descriptor of clean bytes: the checks of its fields, its extent and the open windows, in that order. -/
theorem openRead_of_clean {d : List Byte} {x : WinDesc} {lo : Nat} (h : Clean (s.spad p) m.off 32) (hd : d = (s.spad p).read m.off 32) (hx : x = winDesc d)
    (hlo : lo = (s.slot p i).seg.spadBase + x.base) :
    (winDescOk d = false → openRead (readIn s p b m 32) p i m = (readIn s p b m 32).faultBack p i fDescriptorInvalid m.taskAddr)
      ∧ (winDescOk d = true → (s.slot p i).seg.spadBound < x.base + x.bound →
          openRead (readIn s p b m 32) p i m = (readIn s p b m 32).faultBack p i fSpadBound (BitVec.ofNat 64 x.base))
      ∧ (winDescOk d = true → x.base + x.bound ≤ (s.slot p i).seg.spadBound →
          ((s.spad p).overlapsOpen lo (lo + x.bound) = true →
            openRead (readIn s p b m 32) p i m = (readIn s p b m 32).faultBack p i fDescriptorInvalid m.taskAddr)
          ∧ ((s.spad p).overlapsOpen lo (lo + x.bound) = false →
            ((s.spad p).roomFor x = none → openRead (readIn s p b m 32) p i m = (readIn s p b m 32).endRead p i m.rd (BitVec.allOnes 64))
            ∧ ∀ w g, (s.spad p).roomFor x = some w → g = nextGen ((s.spad p).win w).gen → openRead (readIn s p b m 32) p i m
              = ((((readIn s p b m 32).modSpad p (fun sp => sp.setWin w (openWindow x lo (s.slot p i).patch g))).endRead p i m.rd
                  (BitVec.ofNat 64 (w + 2 ^ 16 * g.toNat))).modSlot p i (fun sl => { sl with
                    opened := if x.persist then sl.opened else sl.opened ++ [(w, g)] })))) := by
  obtain ⟨-, hue, hread, hwins⟩ := readIn_of_clean s p b m 32 h
  have hgen (w : Nat) : (((readIn s p b m 32).spad p).win w).gen = ((s.spad p).win w).gen := (hwins w).field Window.gen fun _ _ _ _ _ => rfl
  rw [openRead, hue, if_neg (by decide)]
  dsimp only
  rw [slot_readIn, hread, hwins.overlapsOpen, hwins.roomFor, ← hd, ← hx, ← hlo]
  refine ⟨fun hbad => ?_, fun hok hbound => ?_, fun hok hbound => ⟨fun hover => ?_, fun hover => ⟨fun hroom => ?_, fun w g hroom hg => ?_⟩⟩⟩
  · rw [hbad, if_pos (by decide)]
  · rw [hok, if_neg (by decide), if_pos (Nat.not_le.2 hbound)]
  · rw [hok, if_neg (by decide), if_neg (not_not.2 hbound), if_pos hover]
  · rw [hok, if_neg (by decide), if_neg (not_not.2 hbound), hover, if_neg (by decide), hroom]
  · rw [hok, if_neg (by decide), if_neg (not_not.2 hbound), hover, if_neg (by decide), hroom]
    dsimp only
    rw [hgen, ← hg]

end

section
variable {s v : State} {p b i : Nat}

theorem opened_setReg (sl : Slot) (r : Nat) (x : Word) : (sl.setReg r x).opened = sl.opened :=
  Slot.setReg_field Slot.opened (fun _ _ => rfl) sl r x

/-- The slot goes on behind a descriptor read. -/
theorem slot_endRead (h : (atGrant s p b).SpadOnly v p) (rd n : Nat) :
    (v.endRead p i rd (BitVec.ofNat 64 n)).slot p i = readDone s p b i rd n (s.slot p i) := by
  rw [State.endRead, State.slot_modSlot_same, h.slot i, h.core.now, readDone]
  rfl

theorem spad_endRead (v : State) (p i rd : Nat) (x : Word) : (v.endRead p i rd x).spad p = v.spad p := v.spad_modSlot p i _

theorem grantFrame_endRead (h : (atGrant s p b).SpadOnly v p) (rd : Nat) (x : Word) : GrantFrame s (v.endRead p i rd x) p i :=
  (show GrantFrame s v p i from grantFrame_spadOnly (s := atGrant s p b) i h).modSlot _

end

theorem windowOpening : WindowOpening := by
  intro s c b err i m hturn herr hk
  obtain rfl := noError_eq herr
  have hexec := bankGrant_wopen hturn hk
  refine ⟨fun hunclean => ?_, fun hclean d x lo hd hx hlo => ?_⟩
  · rw [openRead_of_unclean hunclean] at hexec
    exact ⟨_, hexec, faultBack_readIn ..⟩
  · obtain ⟨hfields, hbounds, hopens⟩ := openRead_of_clean (b := b.val) hclean hd hx hlo
    obtain ⟨hread, -, -, hwins⟩ := readIn_of_clean s c.val b.val m 32 hclean
    have hbytes : ((readIn s c.val b.val m 32).spad c.val).bytes = (s.spad c.val).bytes := (readIn_readsSpad s c.val b.val m 32).bytes
    refine ⟨fun hbad => ⟨_, hexec.trans (congrArg _ (hfields hbad)), faultBack_readIn ..⟩,
      fun hok hbound => ⟨_, hexec.trans (congrArg _ (hbounds hok hbound)), faultBack_readIn ..⟩, fun hok hbound => ?_⟩
    obtain ⟨hover, hfits⟩ := hopens hok hbound
    refine ⟨fun hoverlaps => ⟨_, hexec.trans (congrArg _ (hover ((overlapsOpen_iff _ _ _).2 hoverlaps))), faultBack_readIn ..⟩, fun hapart => ?_⟩
    have hnone : (s.spad c.val).overlapsOpen lo (lo + x.bound) = false := by
      rw [← Bool.not_eq_true, overlapsOpen_iff]
      rintro ⟨w, hw, hopen, hbase, hend⟩
      have := hapart w hw hopen
      omega
    obtain ⟨hfull, hroom⟩ := hfits hnone
    refine ⟨fun w hw hfree hlow hbudget => ?_, fun hno => ?_⟩
    · set g := nextGen ((s.spad c.val).win w).gen with hg
      have hopened := hread.trans (.of_modSpad (readIn s c.val b.val m 32) c.val
        (fun sp => sp.setWin w (openWindow x lo (s.slot c.val i).patch g)))
      set r := (readIn s c.val b.val m 32).modSpad c.val (fun sp => sp.setWin w (openWindow x lo (s.slot c.val i).patch g)) with hr
      have hrspad : r.spad c.val = ((readIn s c.val b.val m 32).spad c.val).setWin w (openWindow x lo (s.slot c.val i).patch g) :=
        State.spad_modSpad ..
      rw [hroom w g (roomFor_eq_some (freeWin_eq_some hw hfree hlow) hbudget) hg] at hexec
      set t := (r.endRead c.val i m.rd (BitVec.ofNat 64 (w + 2 ^ 16 * g.toNat))).modSlot c.val i (fun sl => { sl with
        opened := if x.persist then sl.opened else sl.opened ++ [(w, g)] }) with ht
      have htspad : t.spad c.val = r.spad c.val := ((State.spad_modSlot ..).trans (spad_endRead ..))
      have htwin : (t.spad c.val).win w = openWindow x lo (s.slot c.val i).patch g := by
        rw [htspad, hrspad, Spad.win_setWin_same]
      have hkept : (readDone s c.val b.val i m.rd (w + 2 ^ 16 * g.toNat) (s.slot c.val i)).opened = (s.slot c.val i).opened :=
        opened_setReg _ _ _
      refine ⟨t, hexec, by rw [htwin]; rfl, by rw [htwin]; rfl, by rw [htwin]; rfl, by rw [htwin]; rfl, by rw [htwin]; rfl, by rw [htwin]; rfl,
        by rw [htwin]; rfl, by rw [htwin]; rfl, ?_, fun v hv => ?_, bytesWritten_none ?_, (grantFrame_endRead hopened _ _).modSlot _⟩
      · rw [show ((t.spad c.val).win w).gen = g from congrArg Window.gen htwin, ht, State.slot_modSlot_same, slot_endRead hopened]
        exact congrArg (fun o => ({ readDone s c.val b.val i m.rd (w + 2 ^ 16 * g.toNat) (s.slot c.val i) with
          opened := if x.persist then o else o ++ [(w, g)] } : Slot)) hkept
      · rw [htspad, hrspad, Spad.win_setWin_other _ _ hv, hwins.isOpen]
      · rw [htspad, hrspad]
        exact hbytes
    · rw [hfull (roomFor_eq_none hno), show BitVec.allOnes 64 = BitVec.ofNat 64 (2 ^ 64 - 1) from by decide] at hexec
      refine ⟨_, hexec, slot_endRead hread _ _, fun w => ?_, bytesWritten_none ?_, grantFrame_endRead hread _ _⟩
      · rw [spad_endRead, hwins.isOpen]
      · rw [spad_endRead, hbytes]

end Sys2Proof.Claims

/-!
SUPPORT. The parts of a queued descriptor (R43, R48).
-/
namespace Sys2Proof.Machine

theorem dmaOpOf_eq_getD (k : Nat) : dmaOpOf k = [DmaOp.copy, .copy2d, .fill, .mcast].getD k .mcast := by
  match k with
  | 0 => rfl
  | 1 => rfl
  | 2 => rfl
  | _ + 3 => simp [dmaOpOf]

end Sys2Proof.Machine

/-!
SUPPORT. BANK_GRANT of MXI, VXI and DXI (R43, R44, R74, R260).
-/
namespace Sys2Proof.Claims

open Sys2Proof.Machine

/-! The descriptor read of an engine-issue instruction (R74). -/

/-- A descriptor that passed its checks enters the queue of its engine, or waits with its slot (R260). -/
def enterQueue (k : MemKind) (p i rd : Nat) (s : State) (d : List Byte) (off t : Nat) : State :=
  match k with
  | .mxi => s.modCore p (fun c => { c with mxu := { c.mxu with queue := c.mxu.queue ++ [s.engDesc p i d off t] } })
  | .vxi => s.modCore p (fun c => { c with vec := { c.vec with queue := c.vec.queue ++ [s.engDesc p i d off t] } })
  | _ =>
    let x := s.dmaDesc p i d off t
    let s := s.modDma p (fun m => { m with nextId := m.nextId + 1 })
    if x.held then
      ((s.modDma p (fun m => { m with waiting := m.waiting ++ [x] })).modSlot p i (fun sl =>
        { sl with mode := .waiting, wait := .held (.dxi rd t) })).countHeld
    else s.modDma p (fun m => { m with queue := m.queue ++ [x] })

/-- The slot takes token `k`, its number in RD. -/
def tokenTaken (s : State) (p i rd k : Nat) : State :=
  (s.modSlot p i (fun sl => sl.setToken k .busy)).endRead p i rd (BitVec.ofNat 64 k)

/-- What an engine-issue instruction does with the descriptor it has read. -/
def engineRead (s : State) (p i : Nat) (m : MemOp) : State :=
  if (s.spad p).anyUe m.off 64 then s.faultBack p i fSpadUncorrectable m.taskAddr
  else
    let sl := s.slot p i
    let d := (s.spad p).read m.off 64
    if !descFields s m.kind d then s.faultBack p i fDescriptorInvalid m.taskAddr
    else
      match descOperands s m.kind sl d, sl.freeToken with
      | some (code, v), _ => s.faultBack p i code v
      | none, none => s.faultBack p i fTokenExhausted m.taskAddr
      | none, some t => enterQueue m.kind p i m.rd (tokenTaken s p i m.rd t) d m.off t

theorem bankGrant_engine {s : State} {c : CoreIx} {b : Fin 16} {i : Nat} {m : MemOp} (h : TpTurn s c.val b.val i m)
    (hk : m.kind = .mxi ∨ m.kind = .vxi ∨ m.kind = .dxi) :
    exec (.bankGrant c b ⟨0, 0⟩) s = .next (engineRead (readIn s c.val b.val m 64) c.val i m) := by
  rw [bankGrant_of_turn ⟨0, 0⟩ h, State.grantSlot]
  unfold engineRead
  rcases hk with hk | hk | hk
  · rw [hk]
    rfl
  · rw [hk]
    rfl
  · rw [hk]
    rfl

section
variable {s : State} {p b i : Nat} {m : MemOp}

theorem descFields_of_spadOnly {v : State} (h : (atGrant s p b).SpadOnly v p) (k : MemKind) (d : List Byte) : descFields v k d = descFields s k d :=
  h.field (fun x => descFields x k d) fun _ _ => rfl

theorem descOperands_of_spadOnly {v : State} (h : (atGrant s p b).SpadOnly v p) (k : MemKind) (sl : Slot) (d : List Byte) :
    descOperands v k sl d = descOperands s k sl d :=
  h.field (fun x => descOperands x k sl d) fun _ _ => rfl

theorem engineRead_of_unclean (h : ¬ Clean (s.spad p) m.off 64) :
    engineRead (readIn s p b m 64) p i m = (readIn s p b m 64).faultBack p i fSpadUncorrectable m.taskAddr := by
  rw [engineRead, anyUe_readIn s p b m 64 h, if_pos rfl]

/-- A descriptor of clean bytes: the checks of its fields, its operands and the tokens, in that order. -/
theorem engineRead_of_clean {d : List Byte} (h : Clean (s.spad p) m.off 64) (hd : d = (s.spad p).read m.off 64) :
    (descFields s m.kind d = false → engineRead (readIn s p b m 64) p i m = (readIn s p b m 64).faultBack p i fDescriptorInvalid m.taskAddr)
      ∧ (descFields s m.kind d = true →
        (∀ code v, descOperands s m.kind (s.slot p i) d = some (code, v) →
          engineRead (readIn s p b m 64) p i m = (readIn s p b m 64).faultBack p i code v)
        ∧ (descOperands s m.kind (s.slot p i) d = none →
          ((s.slot p i).freeToken = none → engineRead (readIn s p b m 64) p i m = (readIn s p b m 64).faultBack p i fTokenExhausted m.taskAddr)
          ∧ ∀ k, (s.slot p i).freeToken = some k →
            engineRead (readIn s p b m 64) p i m = enterQueue m.kind p i m.rd (tokenTaken (readIn s p b m 64) p i m.rd k) d m.off k)) := by
  obtain ⟨honly, hue, hread, -⟩ := readIn_of_clean s p b m 64 h
  rw [engineRead, hue, if_neg (by decide)]
  dsimp only
  rw [slot_readIn, hread, ← hd, descFields_of_spadOnly honly, descOperands_of_spadOnly honly]
  refine ⟨fun hbad => ?_, fun hok => ⟨fun code v hop => ?_, fun hop => ⟨fun htok => ?_, fun k htok => ?_⟩⟩⟩
  · rw [hbad, if_pos (by decide)]
  · rw [hok, if_neg (by decide), hop]
  · rw [hok, if_neg (by decide), hop, htok]
  · rw [hok, if_neg (by decide), hop, htok]

end

/-! What enters a queue (R43, R44, R74). -/

/-- What the grant of a valid descriptor leaves: the bytes, the other slots and cores, and the rest of the panel. -/
structure DescriptorOnly (s t : State) (p b i : Nat) : Prop where
  bytes : (t.spad p).bytes = (s.spad p).bytes
  slots : ∀ j, j ≠ i → t.slot p j = s.slot p j
  others : ∀ q, q ≠ p → t.core q = s.core q
  events : t.events = s.events
  mesh : t.mesh = s.mesh
  hubs : t.hubs = s.hubs
  drams : t.drams = s.drams
  now : t.now = grantCycle s p b

section
variable {s t : State} {p b i : Nat}

/-- A change of core `p` that keeps its scratchpad and its slots but `i`. -/
theorem DescriptorOnly.modCore (h : DescriptorOnly s t p b i) (f : Core → Core) (hspad : (f (t.core p)).spad = (t.core p).spad)
    (hslots : ∀ j, j ≠ i → (f (t.core p)).slot j = (t.core p).slot j) : DescriptorOnly s (t.modCore p f) p b i := by
  have hcore : (t.modCore p f).core p = f (t.core p) := State.core_modCore_same ..
  refine ⟨?_, fun j hj => ?_, fun q hq => (State.core_modCore_other _ _ hq).trans (h.others q hq), h.events, h.mesh, h.hubs, h.drams, h.now⟩
  · rw [State.spad, hcore, hspad]
    exact h.bytes
  · rw [State.slot, hcore, hslots j hj]
    exact h.slots j hj

theorem DescriptorOnly.modSlot (h : DescriptorOnly s t p b i) (f : Slot → Slot) : DescriptorOnly s (t.modSlot p i f) p b i :=
  h.modCore _ rfl fun _ hj => Core.slot_modSlot_other _ _ hj

theorem DescriptorOnly.modDma (h : DescriptorOnly s t p b i) (f : Dma → Dma) : DescriptorOnly s (t.modDma p f) p b i :=
  h.modCore _ rfl fun _ _ => rfl

theorem DescriptorOnly.bump (h : DescriptorOnly s t p b i) (u off lo w n : Nat) : DescriptorOnly s (t.bump u off lo w n) p b i :=
  ⟨h.bytes, h.slots, h.others, h.events, h.mesh, h.hubs, h.drams, h.now⟩

end

/-- A part of core `p` other than its slots, when the slot takes its token. -/
theorem core_tokenTaken {β : Type} (v : State) (p i rd k : Nat) (g : Core → β) (hg : ∀ (c : Core) (slots : SMap Slot), g { c with slots := slots } = g c) :
    g ((tokenTaken v p i rd k).core p) = g (v.core p) := by
  rw [tokenTaken, State.endRead, State.modSlot, State.core_modCore_same, State.modSlot, State.core_modCore_same]
  exact (hg _ _).trans (hg _ _)

section
variable {s : State} {p b : Nat} {m : MemOp}

theorem slot_tokenTaken (h : Clean (s.spad p) m.off 64) (i rd k : Nat) :
    (tokenTaken (readIn s p b m 64) p i rd k).slot p i = readDone s p b i rd k ((s.slot p i).setToken k .busy) := by
  have hnow : (readIn s p b m 64).now = grantCycle s p b := (readIn_of_clean s p b m 64 h).1.core.now
  rw [tokenTaken, State.endRead, State.slot_modSlot_same, State.slot_modSlot_same, slot_readIn, readDone, ← hnow]
  rfl

/-- A part of the slot that no token, register, request or time of issue changes. -/
theorem slot_tokenTaken_field {β : Type} (h : Clean (s.spad p) m.off 64) (i rd k : Nat) (f : Slot → β)
    (hf : ∀ (sl : Slot) (regs : SMap Word) (tokens : SMap Token) (mem : Option MemOp) (ready : Nat),
      f { sl with regs := regs, tokens := tokens, mem := mem, readyAt := ready } = f sl) :
    f ((tokenTaken (readIn s p b m 64) p i rd k).slot p i) = f (s.slot p i) := by
  rw [slot_tokenTaken h, readDone]
  set sl := (s.slot p i).setToken k .busy with hsl
  have hreg : f (sl.setReg rd (BitVec.ofNat 64 k)) = f sl := Slot.setReg_field f (fun x regs => hf x regs x.tokens x.mem x.readyAt) _ _ _
  exact (hf _ (sl.setReg rd (BitVec.ofNat 64 k)).regs (sl.setReg rd (BitVec.ofNat 64 k)).tokens none _).trans
    (hreg.trans (hf (s.slot p i) _ sl.tokens _ _))

theorem tokenTaken_rest {β : Type} (h : Clean (s.spad p) m.off 64) (i rd k : Nat) (f : State → β)
    (hf : ∀ (x : State) (cores : SMap Core), f { x with cores := cores } = f x) :
    f (tokenTaken (readIn s p b m 64) p i rd k) = f (atGrant s p b) :=
  ((hf _ _).trans (hf _ _)).trans ((readIn_of_clean s p b m 64 h).1.field f hf)

theorem descriptorOnly_tokenTaken (h : Clean (s.spad p) m.off 64) (i rd k : Nat) :
    DescriptorOnly s (tokenTaken (readIn s p b m 64) p i rd k) p b i := by
  obtain ⟨honly, -⟩ := readIn_of_clean s p b m 64 h
  have hread := readIn_readsSpad s p b m 64
  have hreadIn : DescriptorOnly s (readIn s p b m 64) p b i :=
    ⟨hread.bytes, fun j _ => slot_readIn s p b m 64 j, hread.others, hread.events, honly.field State.mesh fun _ _ => rfl,
      honly.field State.hubs fun _ _ => rfl, honly.field State.drams fun _ _ => rfl, honly.core.now⟩
  exact (hreadIn.modSlot _).modSlot _

end

section
variable {s : State} {p b : Nat} {m : MemOp}

theorem core_taken {β : Type} (s : State) (p b : Nat) (m : MemOp) (i rd k : Nat) (g : Core → β)
    (hg : ∀ (c : Core) (slots : SMap Slot) (x : Spad), g { c with slots := slots, spad := x } = g c) :
    g ((tokenTaken (readIn s p b m 64) p i rd k).core p) = g (s.core p) :=
  (core_tokenTaken _ p i rd k g fun c slots => hg c slots c.spad).trans
    ((hg _ ((readIn s p b m 64).core p).slots (s.spad p)).symm.trans (congrArg g (core_readIn s p b m 64)))

theorem queued_engDesc (h : Clean (s.spad p) m.off 64) (i rd k off : Nat) (d : List Byte) :
    Queued (s.slot p i) i d off k ((tokenTaken (readIn s p b m 64) p i rd k).engDesc p i d off k) :=
  ⟨rfl, rfl, slot_tokenTaken_field h i rd k Slot.tick fun _ _ _ _ _ => rfl, slot_tokenTaken_field h i rd k Slot.att fun _ _ _ _ _ => rfl, rfl, rfl,
    slot_tokenTaken_field h i rd k (fun x => x.seg.spadBase) fun _ _ _ _ _ => rfl,
    slot_tokenTaken_field h i rd k (fun x => x.seg.spadBound) fun _ _ _ _ _ => rfl, rfl, rfl, rfl, rfl⟩

/-- The resolved address depends on the map of the cores and the segments of the slot alone. -/
theorem resolved_tokenTaken (h : Clean (s.spad p) m.off 64) (i rd k mode x : Nat) :
    resolved (tokenTaken (readIn s p b m 64) p i rd k) p ((tokenTaken (readIn s p b m 64) p i rd k).slot p i) mode x
      = resolved s p (s.slot p i) mode x := by
  have hgid : (tokenTaken (readIn s p b m 64) p i rd k).gid p = s.gid p := tokenTaken_rest h i rd k (fun x => x.gid p) fun _ _ => rfl
  have hseg : ((tokenTaken (readIn s p b m 64) p i rd k).slot p i).seg = (s.slot p i).seg :=
    slot_tokenTaken_field h i rd k Slot.seg fun _ _ _ _ _ => rfl
  rw [resolved, resolved, hgid, hseg]

theorem queuedDma_dmaDesc (h : Clean (s.spad p) m.off 64) (i rd k off : Nat) (d : List Byte) :
    QueuedDma s p i (s.slot p i) d off k ((tokenTaken (readIn s p b m 64) p i rd k).dmaDesc p i d off k) := by
  refine ⟨rfl, rfl, slot_tokenTaken_field h i rd k Slot.tick fun _ _ _ _ _ => rfl, slot_tokenTaken_field h i rd k Slot.patch fun _ _ _ _ _ => rfl,
    rfl, dmaOpOf_eq_getD _, rfl, rfl, fun hfill => ?_, resolved_tokenTaken h i rd k _ _, rfl, rfl⟩
  exact (if_neg hfill).trans (resolved_tokenTaken h i rd k _ _)

theorem held_dmaDesc (h : Clean (s.spad p) m.off 64) (i rd k off : Nat) (d : List Byte) (hra : (s.slot p i).runahead = false) :
    ((tokenTaken (readIn s p b m 64) p i rd k).dmaDesc p i d off k).held = false := by
  have hslot : ((tokenTaken (readIn s p b m 64) p i rd k).slot p i).runahead = false :=
    (slot_tokenTaken_field h i rd k Slot.runahead fun _ _ _ _ _ => rfl).trans hra
  rw [State.dmaDesc]
  dsimp only
  rw [hslot, Bool.false_and]

end

/-! The queues. -/

section
variable {s v : State} {p b i rd k off : Nat} {d : List Byte}

theorem descriptorOnly_enterQueue (h : DescriptorOnly s v p b i) (kind : MemKind) : DescriptorOnly s (enterQueue kind p i rd v d off k) p b i := by
  unfold enterQueue
  split
  · exact h.modCore _ rfl fun _ _ => rfl
  · exact h.modCore _ rfl fun _ _ => rfl
  · dsimp only
    split
    · exact (((h.modDma _).modDma _).modSlot _).bump ..
    · exact (h.modDma _).modDma _

theorem core_enterQueue_mxi : (enterQueue .mxi p i rd v d off k).core p
    = { v.core p with mxu := { (v.core p).mxu with queue := (v.core p).mxu.queue ++ [v.engDesc p i d off k] } } := State.core_modCore_same ..

theorem core_enterQueue_vxi : (enterQueue .vxi p i rd v d off k).core p
    = { v.core p with vec := { (v.core p).vec with queue := (v.core p).vec.queue ++ [v.engDesc p i d off k] } } := State.core_modCore_same ..

theorem core_enterQueue_dxi_free (h : (v.dmaDesc p i d off k).held = false) : (enterQueue .dxi p i rd v d off k).core p
    = (v.core p).modDma (fun m => { m with nextId := m.nextId + 1, queue := m.queue ++ [v.dmaDesc p i d off k] }) := by
  unfold enterQueue
  dsimp only
  rw [h, if_neg (by decide), State.core_modDma, State.core_modDma]
  rfl

theorem core_enterQueue_dxi_held (h : (v.dmaDesc p i d off k).held = true) : (enterQueue .dxi p i rd v d off k).core p
    = ((v.core p).modDma (fun m => { m with nextId := m.nextId + 1, waiting := m.waiting ++ [v.dmaDesc p i d off k] })).modSlot i
      (fun sl => { sl with mode := .waiting, wait := .held (.dxi rd k) }) := by
  unfold enterQueue
  dsimp only
  rw [if_pos h, State.countHeld, State.bump_core, State.modSlot, State.core_modCore_same, State.core_modDma, State.core_modDma]
  rfl

theorem regs_enterQueue_dxi_free (h : (v.dmaDesc p i d off k).held = false) : (enterQueue .dxi p i rd v d off k).regs = v.regs := by
  unfold enterQueue
  dsimp only
  rw [h, if_neg (by decide)]
  rfl

end

section
variable {s t : State} {p b i k : Nat} {m : MemOp} (h : Clean (s.spad p) m.off 64) (d : List Byte)
  (ht : t = enterQueue m.kind p i m.rd (tokenTaken (readIn s p b m 64) p i m.rd k) d m.off k)
include h ht

theorem matrixDescriptorEnters (hk : m.kind = .mxi) : t.slot p i = readDone s p b i m.rd k ((s.slot p i).setToken k .busy) ∧ t.regs = s.regs
    ∧ ∃ e, Queued (s.slot p i) i d m.off k e ∧ (t.core p).mxu = { (s.core p).mxu with queue := (s.core p).mxu.queue ++ [e] }
      ∧ (t.core p).vec = (s.core p).vec ∧ (t.core p).dma = (s.core p).dma := by
  rw [hk] at ht
  have hcore := (congrArg (State.core · p) ht).trans core_enterQueue_mxi
  refine ⟨(congrArg (Core.slot · i) hcore).trans (slot_tokenTaken h i m.rd k), ?_, _, queued_engDesc (b := b) h i m.rd k m.off d, ?_, ?_, ?_⟩
  · rw [ht]
    exact tokenTaken_rest h i m.rd k State.regs fun _ _ => rfl
  · rw [hcore, core_taken s p b m i m.rd k Core.mxu fun _ _ _ => rfl]
  · exact (congrArg Core.vec hcore).trans (core_taken s p b m i m.rd k Core.vec fun _ _ _ => rfl)
  · exact (congrArg Core.dma hcore).trans (core_taken s p b m i m.rd k Core.dma fun _ _ _ => rfl)

theorem vectorDescriptorEnters (hk : m.kind = .vxi) : t.slot p i = readDone s p b i m.rd k ((s.slot p i).setToken k .busy) ∧ t.regs = s.regs
    ∧ ∃ e, Queued (s.slot p i) i d m.off k e ∧ (t.core p).vec = { (s.core p).vec with queue := (s.core p).vec.queue ++ [e] }
      ∧ (t.core p).mxu = (s.core p).mxu ∧ (t.core p).dma = (s.core p).dma := by
  rw [hk] at ht
  have hcore := (congrArg (State.core · p) ht).trans core_enterQueue_vxi
  refine ⟨(congrArg (Core.slot · i) hcore).trans (slot_tokenTaken h i m.rd k), ?_, _, queued_engDesc (b := b) h i m.rd k m.off d, ?_, ?_, ?_⟩
  · rw [ht]
    exact tokenTaken_rest h i m.rd k State.regs fun _ _ => rfl
  · rw [hcore, core_taken s p b m i m.rd k Core.vec fun _ _ _ => rfl]
  · exact (congrArg Core.mxu hcore).trans (core_taken s p b m i m.rd k Core.mxu fun _ _ _ => rfl)
  · exact (congrArg Core.dma hcore).trans (core_taken s p b m i m.rd k Core.dma fun _ _ _ => rfl)

/-- A DMA descriptor enters its queue, or waits with its slot when R260 holds it. -/
theorem dmaDescriptorEnters (hk : m.kind = .dxi) : ∃ e, QueuedDma s p i (s.slot p i) d m.off k e
    ∧ ((s.slot p i).runahead = false → e.held = false)
    ∧ (t.core p).mxu = (s.core p).mxu ∧ (t.core p).vec = (s.core p).vec
    ∧ (e.held = false → t.slot p i = readDone s p b i m.rd k ((s.slot p i).setToken k .busy) ∧ t.regs = s.regs
        ∧ (t.core p).dma.queue = (s.core p).dma.queue ++ [e] ∧ (t.core p).dma.waiting = (s.core p).dma.waiting)
    ∧ (e.held = true → t.slot p i
          = { readDone s p b i m.rd k ((s.slot p i).setToken k .busy) with mode := .waiting, wait := .held (.dxi m.rd k) }
        ∧ (t.core p).dma.queue = (s.core p).dma.queue ∧ (t.core p).dma.waiting = (s.core p).dma.waiting ++ [e]) := by
  rw [hk] at ht
  have hmxu := core_taken s p b m i m.rd k Core.mxu fun _ _ _ => rfl
  have hvec := core_taken s p b m i m.rd k Core.vec fun _ _ _ => rfl
  have hqueue := core_taken s p b m i m.rd k (fun c => c.dma.queue) fun _ _ _ => rfl
  have hwaiting := core_taken s p b m i m.rd k (fun c => c.dma.waiting) fun _ _ _ => rfl
  have hslot := slot_tokenTaken (b := b) h i m.rd k
  refine ⟨_, queuedDma_dmaDesc (b := b) h i m.rd k m.off d, held_dmaDesc h i m.rd k m.off d, ?_⟩
  cases hheld : ((tokenTaken (readIn s p b m 64) p i m.rd k).dmaDesc p i d m.off k).held with
  | false =>
    have hcore := (congrArg (State.core · p) ht).trans (core_enterQueue_dxi_free hheld)
    refine ⟨(congrArg Core.mxu hcore).trans hmxu, (congrArg Core.vec hcore).trans hvec, fun _ => ⟨(congrArg (Core.slot · i) hcore).trans hslot, ?_,
      (congrArg (fun c => c.dma.queue) hcore).trans (congrArg (· ++ _) hqueue), (congrArg (fun c => c.dma.waiting) hcore).trans hwaiting⟩,
      fun hno => absurd hno (by decide)⟩
    rw [ht, regs_enterQueue_dxi_free hheld]
    exact tokenTaken_rest h i m.rd k State.regs fun _ _ => rfl
  | true =>
    have hcore := (congrArg (State.core · p) ht).trans (core_enterQueue_dxi_held hheld)
    refine ⟨(congrArg Core.mxu hcore).trans hmxu, (congrArg Core.vec hcore).trans hvec, fun hno => absurd hno (by decide), fun _ => ⟨?_,
      (congrArg (fun c => c.dma.queue) hcore).trans hqueue, (congrArg (fun c => c.dma.waiting) hcore).trans (congrArg (· ++ _) hwaiting)⟩⟩
    rw [← hslot]
    exact (congrArg (Core.slot · i) hcore).trans (Core.slot_modSlot_same ..)

end

theorem descriptorGrant : DescriptorGrant := by
  intro s c b err i m d hturn herr hk hd
  obtain rfl := noError_eq herr
  have hexec := bankGrant_engine hturn hk
  refine ⟨fun hunclean => ?_, fun hclean hbad => ?_, fun code v hclean hok hop => ?_, fun hclean hok hop hnone => ?_, fun k hclean hok hop hlow => ?_⟩
  · exact ⟨_, hexec.trans (congrArg _ (engineRead_of_unclean hunclean)), faultBack_readIn ..⟩
  · exact ⟨_, hexec.trans (congrArg _ ((engineRead_of_clean hclean hd).1 hbad)), faultBack_readIn ..⟩
  · exact ⟨_, hexec.trans (congrArg _ (((engineRead_of_clean hclean hd).2 hok).1 code v hop)), faultBack_readIn ..⟩
  · obtain ⟨hfull, -⟩ := ((engineRead_of_clean (b := b.val) hclean hd).2 hok).2 hop
    exact ⟨_, hexec.trans (congrArg _ (hfull ((freeToken_eq_none _).2 hnone))), faultBack_readIn ..⟩
  · obtain ⟨-, henter⟩ := ((engineRead_of_clean (b := b.val) hclean hd).2 hok).2 hop
    rw [henter k (freeToken_eq_some hlow)] at hexec
    obtain ⟨hbytes, hslots, hothers, hevents, hmesh, hhubs, hdrams, hnow⟩ :=
      descriptorOnly_enterQueue (k := k) (rd := m.rd) (off := m.off) (d := d) (descriptorOnly_tokenTaken hclean i m.rd k) m.kind
    refine ⟨_, hexec, bytesWritten_none hbytes, hevents, hmesh, hhubs, hdrams, hnow, hothers, hslots, ?_⟩
    rintro sl rfl
    exact ⟨matrixDescriptorEnters hclean d rfl, vectorDescriptorEnters hclean d rfl, dmaDescriptorEnters hclean d rfl⟩

/-- Settles O13: a grant of the bank does the read, write, atomic, descriptor read or window opening of the oldest request, one
theorem for each kind. -/
theorem grantedAccesses : Obligations.GrantedAccesses :=
  ⟨bankGrantOfAccess, checkedAccess, loadReturn, descriptorGrant, windowOpening⟩

end Sys2Proof.Claims

/-!
SUPPORT. What a step keeps of the queue, the fuses and the memories' form (`State.Keeps`): one lemma for each function that a step
reaches, in the order of the model, each from the lemmas of the functions it calls. A function that answers a command's outcome has
`State.KeptBy`, one that may have no answer `State.KeptIn`. The name of each lemma is its function's with `_keeps`.
-/

namespace Sys2Proof.Machine

/-! Panels that keep the queue, the fuses and the memories' form. -/

/-- A change of fields other than the queue, the fuses and the memories. -/
theorem State.Keeps.fields (s : State) (now freeCtr regs hw readData mesh hubs gen worlds active shadow cfg coll vorrad power supply boot maint
    sec tel host events msix) :
    s.Keeps { s with
      now := now, freeCtr := freeCtr, regs := regs, hw := hw, readData := readData, mesh := mesh, hubs := hubs, gen := gen
      worlds := worlds, active := active, shadow := shadow, cfg := cfg, coll := coll, vorrad := vorrad, power := power
      supply := supply, boot := boot, maint := maint, sec := sec, tel := tel, host := host, events := events, msix := msix } :=
  .of_eq rfl rfl rfl rfl rfl

/-- The second of a pair that an operation answers. -/
theorem State.Keeps.snd {α : Type} {s t : State} {a : α} {p : α × State} (h : s.Keeps p.2) (e : p = (a, t)) : s.Keeps t := by
  subst e
  exact h

/-- The first of a pair that an operation answers. -/
theorem State.Keeps.fst {α : Type} {s t : State} {a : α} {p : State × α} (h : s.Keeps p.1) (e : p = (t, a)) : s.Keeps t := by
  subst e
  exact h

/-- The panel within an answer, if there is one, keeps the queue, the fuses and the memories' form. -/
structure State.KeptIn {α : Type} (s : State) (g : α → State) (o : Option α) : Prop where
  of_eq : ∀ {r}, o = some r → s.Keeps (g r)

theorem State.KeptIn.none {α : Type} {s : State} {g : α → State} : s.KeptIn g none := ⟨by rintro r ⟨⟩⟩

theorem State.KeptIn.some {α : Type} {s : State} {g : α → State} {r : α} (h : s.Keeps (g r)) : s.KeptIn g (some r) := by
  constructor
  rintro r ⟨⟩
  exact h

theorem State.KeptIn.ite {α : Type} {c : Prop} [Decidable c] {s : State} {g : α → State} {o o' : Option α} (h : s.KeptIn g o)
    (k : s.KeptIn g o') : s.KeptIn g (if c then o else o') := by
  split
  · exact h
  · exact k

theorem State.Keeps.keptIn {α : Type} {s t : State} {g : α → State} {o : Option α} (h : s.Keeps t) (k : t.KeptIn g o) : s.KeptIn g o :=
  ⟨fun hr => h.trans (k.of_eq hr)⟩

/-- The second of a pair that two branches answer. -/
theorem State.Keeps.sndIte {α : Type} {c : Prop} [Decidable c] {s : State} {p q : α × State} (h : s.Keeps p.2) (k : s.Keeps q.2) :
    s.Keeps (if c then p else q).2 := by
  split
  · exact h
  · exact k

theorem State.KeptIn.map {α β : Type} {s : State} {g : α → State} {g' : β → State} {f : α → β} {o : Option α} (h : s.KeptIn g o)
    (k : ∀ r, (g r).Keeps (g' (f r))) : s.KeptIn g' (o.map f) := by
  constructor
  intro r hr
  obtain ⟨q, hq, rfl⟩ := Option.map_eq_some_iff.1 hr
  exact (h.of_eq hq).trans (k q)

theorem State.KeptIn.getD {α : Type} {s : State} {g : α → State} {o : Option α} {d : α} (h : s.KeptIn g o) (k : s.Keeps (g d)) :
    s.Keeps (g (o.getD d)) := by
  cases o with
  | none => exact k
  | some r => exact h.of_eq rfl

/-- The panel that a command answers, if it goes on, keeps the queue, the fuses and the memories' form. -/
structure State.KeptBy (s : State) (r : Res) : Prop where
  of_eq : ∀ {t}, r = .next t → s.Keeps t

theorem State.KeptBy.next {s t : State} (h : s.Keeps t) : s.KeptBy (.next t) := by
  constructor
  rintro u ⟨⟩
  exact h

theorem State.KeptBy.fault {s : State} (f : Fault) : s.KeptBy (.fault f) := ⟨fun h => by cases h⟩

theorem State.KeptBy.refused {s : State} (f : Refusal) : s.KeptBy (.refused f) := ⟨fun h => by cases h⟩

theorem State.KeptBy.ite {c : Prop} [Decidable c] {s : State} {r r' : Res} (h : s.KeptBy r) (k : s.KeptBy r') :
    s.KeptBy (if c then r else r') := by
  split
  · exact h
  · exact k

theorem State.KeptBy.whenElse {s t u : State} {g : Bool} (h : s.Keeps t) (k : s.Keeps u) : s.KeptBy (when g t u) := .next (.ite k h)

theorem State.KeptBy.when {s t : State} {g : Bool} (h : s.Keeps t) : s.KeptBy (when g s t) := .whenElse (.refl s) h

theorem State.Keeps.keptBy {s t : State} {r : Res} (h : s.Keeps t) (k : t.KeptBy r) : s.KeptBy r := ⟨fun hu => h.trans (k.of_eq hu)⟩

/-! Cores and memories. -/

/-- Every core changes, and every scratchpad stays canonical. -/
theorem State.mapCores_keeps (s : State) {f : Nat → Core → Core}
    (h : ∀ j c, Memory.wf c.spad.bytes = true → Memory.wf (f j c).spad.bytes = true) :
    s.Keeps { s with cores := SMap.mapAll Core.reset f s.cores } := by
  refine ⟨rfl, rfl, fun hs => ?_⟩
  obtain ⟨hhost, hcores, hdrams⟩ := (State.memoriesCanonical_iff s).1 hs
  exact (State.memoriesCanonical_iff _).2 ⟨hhost, SMap.forall_mapAll (P := fun c : Core => Memory.wf c.spad.bytes = true) hcores h, hdrams⟩

/-- Every DRAM stack changes, and stays canonical. -/
theorem State.mapDrams_keeps (s : State) {f : Nat → Dram → Dram}
    (h : ∀ j d, Memory.wf d.bytes = true → Memory.wf (f j d).bytes = true) :
    s.Keeps { s with drams := SMap.mapAll Dram.reset f s.drams } := by
  refine ⟨rfl, rfl, fun hs => ?_⟩
  obtain ⟨hhost, hcores, hdrams⟩ := (State.memoriesCanonical_iff s).1 hs
  exact (State.memoriesCanonical_iff _).2 ⟨hhost, hcores, SMap.forall_mapAll (P := fun d : Dram => Memory.wf d.bytes = true) hdrams h⟩

/-- A core changes and its scratchpad does not. -/
theorem State.modCore_keeps_of_spad (s : State) (p : Nat) {f : Core → Core} (h : ∀ c, (f c).spad = c.spad) : s.Keeps (s.modCore p f) :=
  s.modCore_keeps p f fun hw => by rwa [h]

/-- A scratchpad changes and its bytes do not. -/
theorem State.modSpad_keeps_of_bytes (s : State) (p : Nat) {f : Spad → Spad} (h : ∀ sp, (f sp).bytes = sp.bytes) : s.Keeps (s.modSpad p f) :=
  s.modSpad_keeps p f fun hw => by rwa [h]

/-- What every step of a fold leaves, the fold leaves. -/
theorem foldl_field {α β γ : Type} (g : β → γ) {f : β → α → β} (h : ∀ b a, g (f b a) = g b) (l : List α) (b : β) :
    g (l.foldl f b) = g b := by
  induction l generalizing b with
  | nil => rfl
  | cons a l ih => exact (ih (f b a)).trans (h b a)

theorem State.settle_keeps (s : State) (p : Nat) : s.Keeps (s.settle p) :=
  s.modCore_keeps_of_spad p fun c => c.settle_field _ _ Core.spad fun _ _ _ => rfl

theorem State.touchPlain_keeps (s : State) (p : Nat) (isWrite : Bool) (o n : Nat) : s.Keeps (s.touchPlain p isWrite o n) :=
  s.modSpad_keeps_of_bytes p fun sp => sp.touchPlain_bytes _ _ _ _

theorem Core.beginIssue_bytes (c : Core) (i t : Nat) : (c.beginIssue i t).spad.bytes = c.spad.bytes := by
  obtain ⟨-, -, -, hrest, -⟩ := c.beginIssue_spec i t
  have h := congrArg (fun d : Core => d.spad.bytes) hrest
  exact h

theorem State.uncover_keeps (s : State) (p lo hi : Nat) : s.Keeps (s.uncover p lo hi) := by
  refine s.modSpad_keeps_of_bytes p fun sp => foldl_field Spad.bytes (fun sp b => ?_) _ sp
  split
  · rfl
  · rfl

theorem Spad.bytes_unholdSlots (sp : Spad) (w : Nat) (r : CreditReq) : (sp.unholdSlots w r).bytes = sp.bytes := by
  unfold Spad.unholdSlots
  refine foldl_field Spad.bytes (fun sp i => ?_) _ sp
  rfl

theorem Spad.bytes_releaseCredits (sp : Spad) (i n : Nat) : (sp.releaseCredits i n).bytes = sp.bytes := by
  unfold Spad.releaseCredits
  split
  · rfl
  · rfl

theorem Spad.bytes_unreserve (sp : Spad) (i : Nat) : (sp.unreserve i).bytes = sp.bytes := by
  unfold Spad.unreserve
  split
  · rfl
  · refine foldl_field Spad.bytes (fun sp e => ?_) _ sp
    rfl

theorem Spad.bytes_endGrant (sp : Spad) (i : Nat) : (sp.endGrant i).bytes = sp.bytes := by
  unfold Spad.endGrant
  split
  · rfl
  · exact (Spad.bytes_releaseCredits _ _ _).trans (sp.bytes_unreserve i)

theorem Spad.bytes_landIn (sp : Spad) (w gi off n i : Nat) : (sp.landIn w gi off n i).bytes = sp.bytes := by
  unfold Spad.landIn
  split
  · rfl
  · dsimp only
    split
    · exact Spad.bytes_releaseCredits _ _ _
    · rfl

theorem State.clearBlock_keeps (s : State) (p i : Nat) : s.Keeps (s.clearBlock p i) := by
  unfold State.clearBlock
  split
  · exact .refl s
  · exact .trans (s.modSpad_keeps p _ fun h => Spad.write_wf _ _ h) (.ite (State.modSlot_keeps ..) (State.modSlot_keeps ..))

/-- The bytes of a bank are lost. -/
theorem State.dropBank_keeps (s : State) (p b : Nat) : s.Keeps (s.modSpad p (fun sp => { sp with
    bytes := SMap.drop (fun k => bankOf k == b) sp.bytes, ue := SMap.drop (fun k => bankOf k == b) sp.ue })) :=
  s.modSpad_keeps p _ fun h => Memory.wf_drop (fun k => bankOf k == b) h

theorem tpIssue_keeps (a : At) (len word : Nat) (legal : Bool) {body : State → State} (s : State) (h : ∀ x : State, x.Keeps (body x)) :
    s.KeptBy (tpIssue a len word legal body s) := by
  have hissued : s.Keeps (s.issued a) := by
    unfold State.issued
    refine (s.advanceTo_keeps _).trans (State.modCore_keeps _ _ _ fun h => ?_)
    rwa [Core.beginIssue_bytes]
  rw [tpIssue_cases]
  refine .ite (.next (.refl s)) (.ite (.next ?_) (.ite (.next (.refl s)) (.ite (.next ?_) (.next ?_))))
  · exact hissued.trans (State.takeFault_keeps ..)
  · exact hissued.trans (State.takeFault_keeps ..)
  · exact hissued.trans (h _)

theorem State.modNodes_keeps (s : State) (f : Node → Node) : s.Keeps (s.modNodes f) := s.mapCores_keeps fun _ _ h => h

theorem State.freshEngines_keeps (s : State) (old : ConfigSet) : s.Keeps (s.freshEngines old) := by
  refine s.mapCores_keeps fun p c h => ?_
  split
  · exact h
  · exact h

theorem State.reinitAll_keeps (s : State) : s.Keeps s.reinitAll := s.mapCores_keeps fun _ _ h => h

theorem State.spadMerge_keeps (s : State) (p o : Nat) (l : List (Nat × Byte)) (dbl : Nat → Bool) : s.Keeps (s.spadMerge p o l dbl) := by
  unfold State.spadMerge
  extract_lets at_ ws hit part s1 bad s2 s3
  have hs1 : s.Keeps s1 := s.modUe_keeps p _
  have hs2 : s.Keeps s2 := hs1.trans (.foldl (fun x a => x.touchPlain_keeps ..) ..)
  have hs3 : s.Keeps s3 := hs2.trans (State.modSpad_keeps _ p _ (Memory.wf_setRange _ _))
  exact hs3.trans (.foldl (fun x a => x.raiseCore_keeps ..) ..)

theorem State.landRemote_keeps (s : State) (p off : Nat) (data : List Byte) (grant : Option GrantRef) (win : Option Nat) (err : EccErr) :
    s.Keeps (s.landRemote p off data grant win err) := by
  unfold State.landRemote
  extract_lets s1 s2
  have hs1 : s.Keeps s1 := s.spadWrite_keeps ..
  have hs2 : s.Keeps s2 := by
    unfold s2
    split
    · exact hs1
    split
    · exact hs1
    · exact .ite (hs1.trans (State.modSpad_keeps_of_bytes _ p fun sp => foldl_field Spad.bytes (fun sp i => sp.bytes_landIn ..) _ sp))
        (hs1.trans (State.modSpad_keeps_of_bytes _ p fun sp => sp.bytes_releaseCredits ..))
  split
  · exact hs2
  · exact hs2.trans (State.modSpad_keeps_of_bytes _ p fun _ => rfl)

theorem State.endGrant_keeps (s : State) (p i : Nat) : s.Keeps (s.modSpad p (fun sp => sp.endGrant i)) :=
  s.modSpad_keeps_of_bytes p fun sp => sp.bytes_endGrant i

theorem State.setFullAt_keeps (s : State) (p o : Nat) (b : Bool) : s.Keeps (s.modSpad p (fun sp => sp.setFullAt o b)) :=
  s.modSpad_keeps_of_bytes p fun sp => sp.bytes_setFullAt o b

/-! The one home of every register. -/

theorem State.putReg_keeps (s : State) (u off v : Nat) : s.Keeps (s.putReg u off v) :=
  .fields ..

theorem State.resetRegs_keeps (s : State) (us : Nat → Bool) (lvl : Nat) (keep : Nat → Nat → Bool) : s.Keeps (s.resetRegs us lvl keep) :=
  .fields ..

/-! Where a core is. -/

theorem State.modDie_keeps (s : State) (site : Nat) (f : DiePower → DiePower) : s.Keeps (s.modDie site f) :=
  .fields ..

theorem State.modRegion_keeps (s : State) (site r : Nat) (f : Region → Region) : s.Keeps (s.modRegion site r f) :=
  State.modDie_keeps ..

/-! Event records (R371–R374, R490). -/

theorem State.makeEvent_keeps (s : State) (sev : Severity) (code : Nat) (src : EventSrc) (tick : Option Nat) (data : Nat)
    (injected : Bool) : s.Keeps (s.makeEvent sev code src tick data injected).2 := by
  unfold State.makeEvent
  exact .fields ..

/-! Halyard notices (R226). -/

theorem State.coreEvent_keeps (s : State) (n : Notice) (e : CoreEvent) : s.Keeps (s.coreEvent n e) := by
  unfold State.coreEvent
  refine .ite (State.raise_keeps ..) ?_
  split
  · exact .ite (.refl _) (.ite (State.raise_keeps ..) (State.raiseHeld_keeps ..))
  · exact .ite (State.raise_keeps ..) (.refl _)

/-! The scratchpad of a core. -/

theorem State.eccLast_keeps (s : State) (p w : Nat) (ue scrub : Bool) : s.Keeps (s.eccLast p w ue scrub) :=
  State.setReg_keeps ..

theorem State.eccRead_keeps (s : State) (p o n : Nat) (err : EccErr) (scrub : Bool) : s.Keeps (s.eccRead p o n err scrub) := by
  unfold State.eccRead
  refine .foldl (fun _ _ => ?_) _ _
  exact .ite (.trans (.trans (State.modUe_keeps ..) (State.bump_keeps ..)) (State.eccLast_keeps ..))
      (.ite (.trans (.trans (State.modBank_keeps ..) (State.bump_keeps ..)) (State.eccLast_keeps ..)) (.refl _))

/-! Completion tokens and the conditions a WAITING slot waits for (R44, R45, R75–R82). -/

theorem State.completeToken_keeps (s : State) (p i t : Nat) (st : Status) : s.Keeps (s.completeToken p i t st) :=
  .trans (State.modSlot_keeps ..) (State.settle_keeps ..)

/-! The named operations of the halyard network (R222–R235). -/

theorem State.setHub_keeps (s : State) (h : Nat) (x : Hub) : s.Keeps (s.setHub h x) :=
  .fields ..

theorem State.modHub_keeps (s : State) (h : Nat) (f : Hub → Hub) : s.Keeps (s.modHub h f) :=
  State.setHub_keeps ..

theorem State.route2_keeps (s : State) (h dest : Nat) (m : Class2) : s.Keeps (s.route2 h dest m) := by
  unfold State.route2
  refine .ite (State.modHub_keeps ..) ?_
  split
  · exact .refl _
  · exact .ite (State.modHub_keeps ..) (State.modHub_keeps ..)

theorem State.pumpUser_keeps (s : State) (p : Nat) : s.Keeps (s.pumpUser p) := by
  unfold State.pumpUser
  split
  · exact .trans (State.modCore_keeps _ _ _ id) (.foldl (fun _ _ => State.route2_keeps ..) _ _)

/-! Barriers. -/

theorem State.barArrive_keeps (s : State) (p key n : Nat) : s.Keeps (s.barArrive p key n) := by
  unfold State.barArrive
  refine .ite ?_ (.refl _)
  exact .trans (State.modCore_keeps _ _ _ id) (State.modHub_keeps ..)

/-! Votes. -/

theorem State.tryVote_keeps (s : State) (p tick : Nat) : s.Keeps (s.tryVote p tick) := by
  unfold State.tryVote
  refine .ite ?_ (.refl _)
  exact .trans (State.modCore_keeps _ _ _ id) (State.modHub_keeps ..)

/-! Class 0. -/

theorem State.sendClass0_keeps (s : State) (m : Class0) : s.Keeps (s.sendClass0 m) := by
  unfold State.sendClass0
  split
  · exact .fields ..
  · exact .fields ..

theorem State.class0Done_keeps (s : State) : s.Keeps s.class0Done := by
  unfold State.class0Done
  extract_lets _ s1 _
  have hs1 : s.Keeps s1 := .fields ..
  split
  · exact hs1
  · exact .trans (hs1.trans (.fields ..)) (State.sendClass0_keeps ..)

/-! The search for the slot that issues (R36). -/

theorem tpSimple_keeps (a : At) (len word : Nat) (legal : Bool) (f : Slot → Slot) (s : State) : s.KeptBy (tpSimple a len word legal f s) :=
  tpIssue_keeps _ _ _ _ _ (fun _ => State.modSlot_keeps ..)

theorem State.faultAt_keeps (s : State) (a : At) (code : Nat) (addr : Word) : s.Keeps (s.faultAt a code addr) :=
  State.takeFault_keeps ..

theorem aluR_keeps (a : At) (fn : Nat) (rd ra rb : Reg) (f : Word → Word → Word) (s : State) : s.KeptBy (aluR a fn rd ra rb f s) :=
  tpSimple_keeps ..

theorem aluU_keeps (a : At) (fn : Nat) (rd ra rb : Reg) (f : Word → Word) (s : State) : s.KeptBy (aluU a fn rd ra rb f s) :=
  tpSimple_keeps ..

theorem aluDiv_keeps (a : At) (fn : Nat) (rd ra rb : Reg) (f : Word → Word → Word) (s : State) : s.KeptBy (aluDiv a fn rd ra rb f s) :=
  tpSimple_keeps ..

theorem aluI_keeps (a : At) (op : Nat) (rd ra : Reg) (imm : BitVec 16) (legal : Bool) (f : Word → Word) (s : State) :
    s.KeptBy (aluI a op rd ra imm legal f s) :=
  tpSimple_keeps ..

/-! Branches and jumps (R68, R69). -/

theorem branch_keeps (a : At) (op : Nat) (ra rb : Reg) (off : BitVec 16) (c : Word → Word → Bool) (s : State) :
    s.KeptBy (branch a op ra rb off c s) := by
  unfold branch
  exact tpSimple_keeps ..

theorem execJal_keeps (a : At) (rd : Reg) (off : BitVec 21) (s : State) : s.KeptBy (execJal a rd off s) := by
  unfold execJal
  exact tpSimple_keeps ..

theorem execJalr_keeps (a : At) (rd ra : Reg) (imm : BitVec 16) (s : State) : s.KeptBy (execJalr a rd ra imm s) := by
  unfold execJalr
  exact tpSimple_keeps ..

/-! The scratchpad loads, stores, atomics and checked channel accesses up to their bank request (R70–R73). -/

theorem State.request_keeps (s : State) (p i : Nat) (kind : MemKind) (rd rv : Reg) (ta : Word) : s.Keeps (s.request p i kind rd rv ta) := by
  unfold State.request
  exact .trans (State.modCore_keeps _ _ _ id) (State.modSlot_keeps ..)

theorem tpAccess_keeps (a : At) (word : Nat) (kind : MemKind) (rd ra rv : Reg) (disp : Word) (s : State) :
    s.KeptBy (tpAccess a word kind rd ra rv disp s) := by
  unfold tpAccess
  refine tpIssue_keeps _ _ _ _ _ ?_
  intro x1
  extract_lets
  split
  · exact State.faultAt_keeps ..
  · exact State.request_keeps ..

theorem load_keeps (a : At) (op n : Nat) (signed : Bool) (rd ra : Reg) (imm : BitVec 16) (s : State) :
    s.KeptBy (load a op n signed rd ra imm s) :=
  tpAccess_keeps ..

theorem store_keeps (a : At) (op n : Nat) (rs ra : Reg) (imm : BitVec 16) (s : State) : s.KeptBy (store a op n rs ra imm s) :=
  tpAccess_keeps ..

theorem atomic_keeps (a : At) (fn : Nat) (k : MemKind) (rd ra rb : Reg) (s : State) : s.KeptBy (atomic a fn k rd ra rb s) :=
  tpAccess_keeps ..

theorem execWaitc_keeps (a : At) (rd ra : Reg) (imm : BitVec 16) (s : State) : s.KeptBy (execWaitc a rd ra imm s) := by
  unfold execWaitc
  refine tpIssue_keeps _ _ _ _ _ ?_
  intro x1
  extract_lets
  split
  · exact State.faultAt_keeps ..
  · exact .trans (State.modSlot_keeps ..) (State.settle_keeps ..)

/-! The grant of a task processor access (R70–R73, R89, R108, R109). -/

theorem State.grantStore_keeps (s : State) (p i : Nat) (m : MemOp) (err : EccErr) : s.Keeps (s.grantStore p i m err) := by
  unfold State.grantStore
  extract_lets _ s1 s2 s3 _
  have hs1 : s.Keeps s1 := by
    unfold s1
    split
    · exact .refl _
    · exact State.touchPlain_keeps ..
  have hs2 : s.Keeps s2 := hs1.trans (State.spadWrite_keeps ..)
  have hs3 : s.Keeps s3 := by
    unfold s3
    split
    · exact hs2.trans (State.setFullAt_keeps ..)
    · exact hs2
  exact .trans (hs3.trans (State.modSlot_keeps ..)) (State.settle_keeps ..)

theorem State.grantLoad_keeps (s : State) (p i : Nat) (m : MemOp) (err : EccErr) : s.Keeps (s.grantLoad p i m err) := by
  unfold State.grantLoad
  extract_lets _ s1 s2 _ _ _ _ _ s4 _
  have hs1 : s.Keeps s1 := by
    unfold s1
    split
    · exact .refl _
    · exact State.touchPlain_keeps ..
  have hs2 : s.Keeps s2 := hs1.trans (State.eccRead_keeps ..)
  have hs4 : s.Keeps s4 := by
    unfold s4
    refine .ite hs2 ?_
    split
    · exact .trans (.trans (hs2.trans (State.touchPlain_keeps ..)) (State.spadWrite_keeps ..)) (State.modBank_keeps ..)
    · split
      · exact hs2.trans (State.setFullAt_keeps ..)
      · exact hs2
  exact .trans (hs4.trans (State.modSlot_keeps ..)) (State.settle_keeps ..)

theorem State.grantTp_keeps (s : State) (p i : Nat) (m : MemOp) (err : EccErr) : s.Keeps (s.grantTp p i m err) :=
  .ite (State.modSlot_keeps ..) (.ite (State.grantLoad_keeps ..) (State.grantStore_keeps ..))

theorem State.faultBack_keeps (s : State) (p i code : Nat) (addr : Word) : s.Keeps (s.faultBack p i code addr) := by
  unfold State.faultBack
  exact .trans (State.modSlot_keeps ..) (State.takeFault_keeps ..)

theorem State.endRead_keeps (s : State) (p i rd : Nat) (v : Word) : s.Keeps (s.endRead p i rd v) :=
  State.modSlot_keeps ..

theorem execLoadDataReturn_keeps (a : At) (s : State) : s.KeptBy (execLoadDataReturn a s) := by
  unfold execLoadDataReturn
  extract_lets
  split
  · split
    · exact .next (.refl _)
    · extract_lets s1
      have hs1 : s.Keeps s1 := State.advanceTo_keeps ..
      split
      · exact .next (hs1.trans (State.modSlot_keeps ..))
      · exact .next (hs1.trans (State.faultBack_keeps ..))
  · exact .next (.refl _)

/-! Windows. -/

theorem State.completeClose_keeps (s : State) (p w : Nat) : s.Keeps (s.completeClose p w) := by
  unfold State.completeClose
  extract_lets _ _ s2 s3
  have hs2 : s.Keeps s2 := .trans (State.modSpad_keeps _ _ _ id) (.foldl (fun _ _ => State.modSlot_keeps ..) _ _)
  have hs3 : s.Keeps s3 := hs2.trans (.foldl (fun _ _ => State.modSlot_keeps ..) _ _)
  exact .trans (hs3.trans (State.uncover_keeps ..)) (State.settle_keeps ..)

theorem State.tryClose_keeps (s : State) (p w : Nat) : s.Keeps (s.tryClose p w) :=
  .ite (State.completeClose_keeps ..) (.refl _)

theorem State.answerCredit_keeps (s : State) (id : Nat) (ans : CreditAnswer) : s.Keeps (s.answerCredit id ans) := by
  unfold State.answerCredit
  split
  · exact .refl _
  · exact .fields ..

theorem State.beginClose_keeps (s : State) (p w : Nat) : s.Keeps (s.beginClose p w) := by
  unfold State.beginClose
  extract_lets sp _ _ _ s1 s2
  have hs1 : s.Keeps s1 :=
    State.modSpad_keeps_of_bytes _ _ fun sp => foldl_field Spad.bytes (fun sp r => sp.bytes_unholdSlots w r) _ _
  have hs2 : s.Keeps s2 := hs1.trans (.foldl (fun _ _ => State.answerCredit_keeps ..) _ _)
  exact .ite (.refl _) (hs2.trans (State.tryClose_keeps ..))

/-! The window instructions. -/

theorem execWopen_keeps (a : At) (rd ra : Reg) (imm : BitVec 16) (s : State) : s.KeptBy (execWopen a rd ra imm s) := by
  unfold execWopen
  refine tpIssue_keeps _ _ _ _ _ ?_
  intro x1
  extract_lets
  split
  · exact State.faultAt_keeps ..
  · exact State.request_keeps ..

theorem State.grantWopen_keeps (s : State) (p i : Nat) (m : MemOp) (err : EccErr) : s.Keeps (s.grantWopen p i m err) := by
  unfold State.grantWopen
  extract_lets s1 _ _ _ _
  have hs1 : s.Keeps s1 := .trans (State.touchPlain_keeps ..) (State.eccRead_keeps ..)
  refine .ite (hs1.trans (State.faultBack_keeps ..)) ?_
  refine .ite (hs1.trans (State.faultBack_keeps ..)) ?_
  refine .ite (hs1.trans (State.faultBack_keeps ..)) ?_
  refine .ite (hs1.trans (State.faultBack_keeps ..)) ?_
  split
  · exact hs1.trans (State.endRead_keeps ..)
  · exact .trans (.trans (hs1.trans (State.modSpad_keeps _ _ _ id)) (State.endRead_keeps ..)) (State.modSlot_keeps ..)

theorem execWclose_keeps (a : At) (rd ra rb : Reg) (fn : BitVec 11) (s : State) : s.KeptBy (execWclose a rd ra rb fn s) := by
  unfold execWclose
  refine tpIssue_keeps _ _ _ _ _ ?_
  intro x1
  extract_lets
  split
  · exact State.faultAt_keeps ..
  · extract_lets s1
    have hs1 : x1.Keeps s1 := State.modSlot_keeps ..
    split
    · exact hs1.trans (State.modSlot_keeps ..)
    · exact .trans (hs1.trans (State.modSpad_keeps _ _ _ id)) (State.beginClose_keeps ..)

theorem execWstat_keeps (a : At) (rd ra rb : Reg) (fn : BitVec 11) (s : State) : s.KeptBy (execWstat a rd ra rb fn s) := by
  unfold execWstat
  refine tpIssue_keeps _ _ _ _ _ ?_
  intro x1
  extract_lets
  split
  · exact State.modSlot_keeps ..
  · exact .trans (.ite (State.modSpad_keeps _ _ _ id) (.refl _)) (State.modSlot_keeps ..)

/-! Waits, barriers, user messages and the system instructions (R75–R77, R81–R84). -/

theorem State.waitOn_keeps (s : State) (a : At) (w : WaitOn) : s.Keeps (s.waitOn a w) :=
  .trans (State.modSlot_keeps ..) (State.settle_keeps ..)

theorem execWaitt_keeps (a : At) (rd ra : Reg) (imm : BitVec 16) (s : State) : s.KeptBy (execWaitt a rd ra imm s) := by
  unfold execWaitt
  refine tpIssue_keeps _ _ _ _ _ ?_
  intro x1
  exact .ite (State.faultAt_keeps ..) (State.waitOn_keeps ..)

theorem execWaitm_keeps (a : At) (rd ra : Reg) (imm : BitVec 16) (s : State) : s.KeptBy (execWaitm a rd ra imm s) := by
  unfold execWaitm
  refine tpIssue_keeps _ _ _ _ _ ?_
  intro x1
  exact .ite (State.faultAt_keeps ..) (State.waitOn_keeps ..)

theorem execWaitp_keeps (a : At) (rd ra : Reg) (imm : BitVec 16) (s : State) : s.KeptBy (execWaitp a rd ra imm s) := by
  unfold execWaitp
  refine tpIssue_keeps _ _ _ _ _ ?_
  intro x1
  exact .ite (State.modSlot_keeps ..) (State.waitOn_keeps ..)

theorem execBar_keeps (a : At) (rd ra : Reg) (imm : BitVec 16) (s : State) : s.KeptBy (execBar a rd ra imm s) := by
  unfold execBar
  refine tpIssue_keeps _ _ _ _ _ ?_
  intro x1
  exact .ite (State.modSlot_keeps ..) (.trans (.trans (State.modCore_keeps _ _ _ id) (State.modSlot_keeps ..)) (State.barArrive_keeps ..))

theorem State.enqueueUser_keeps (s : State) (p : Nat) (m : UserMsg) : s.Keeps (s.enqueueUser p m) :=
  .trans (State.modCore_keeps _ _ _ id) (State.pumpUser_keeps ..)

theorem State.countHeld_keeps (s : State) : s.Keeps s.countHeld :=
  State.bump_keeps ..

theorem execHsend_keeps (a : At) (rd ra rb : Reg) (fn : BitVec 11) (s : State) : s.KeptBy (execHsend a rd ra rb fn s) := by
  unfold execHsend
  extract_lets
  refine .ite (.next (.refl _)) ?_
  refine tpIssue_keeps _ _ _ _ _ ?_
  intro x1
  exact .ite (State.faultAt_keeps ..) (.ite (.trans (State.modSlot_keeps ..) (State.countHeld_keeps ..))
      (.trans (State.modSlot_keeps ..) (State.enqueueUser_keeps ..)))

theorem execHrecv_keeps (a : At) (rd ra : Reg) (imm : BitVec 16) (s : State) : s.KeptBy (execHrecv a rd ra imm s) := by
  unfold execHrecv
  refine tpIssue_keeps _ _ _ _ _ ?_
  intro x1
  split
  · exact .trans (State.modCore_keeps _ _ _ id) (State.modSlot_keeps ..)
  · exact .ite (State.modSlot_keeps ..) (State.waitOn_keeps ..)

/-! Task end (R51). -/

theorem State.closeOwned_keeps (s : State) (p i : Nat) : s.Keeps (s.closeOwned p i) :=
  .ite (.refl _) (.foldl (fun _ _ => .ite (.refl _) (State.beginClose_keeps ..)) _ _)

theorem execTend_keeps (a : At) (rd ra : Reg) (imm : BitVec 16) (s : State) : s.KeptBy (execTend a rd ra imm s) := by
  unfold execTend
  exact tpIssue_keeps _ _ _ _ _ (fun _ => .trans (State.modSlot_keeps ..) (State.closeOwned_keeps ..))

theorem execTaskEnded_keeps (a : At) (s : State) : s.KeptBy (execTaskEnded a s) := by
  unfold execTaskEnded
  extract_lets _ _ _ _ s2
  have hs2 : s.Keeps s2 := .trans (.trans (State.advanceTo_keeps ..) (State.modSlot_keeps ..)) (State.closeOwned_keeps ..)
  exact .ite (.next (.refl _)) (.ite (.next hs2) (.next (.trans (.trans (hs2.trans (State.modSlot_keeps ..)) (State.uncover_keeps ..))
      (State.tryVote_keeps ..))))

theorem execRaise_keeps (a : At) (rd ra : Reg) (imm : BitVec 16) (s : State) : s.KeptBy (execRaise a rd ra imm s) :=
  tpIssue_keeps _ _ _ _ _ (fun _ => State.faultAt_keeps ..)

theorem execRdpar_keeps (a : At) (rd ra : Reg) (imm : BitVec 16) (s : State) : s.KeptBy (execRdpar a rd ra imm s) := by
  unfold execRdpar
  refine tpIssue_keeps _ _ _ _ _ ?_
  intro x1
  exact State.modSlot_keeps ..

theorem execRdsys_keeps (a : At) (rd ra : Reg) (imm : BitVec 16) (s : State) : s.KeptBy (execRdsys a rd ra imm s) := by
  unfold execRdsys
  refine tpIssue_keeps _ _ _ _ _ ?_
  intro x1
  exact State.modSlot_keeps ..

/-! Accesses of the DMA engines and their packets (R198, R208, R509, R512). -/

theorem State.setAccess_keeps (s : State) (id : Nat) (a : Option Access) : s.Keeps (s.setAccess id a) :=
  .fields ..

theorem State.setPacket_keeps (s : State) (k : Nat) (x : Option Packet) : s.Keeps (s.setPacket k x) :=
  .fields ..

theorem State.newPacket_keeps (s : State) (x : Packet) : s.Keeps (s.newPacket x) := by
  unfold State.newPacket
  exact .trans (State.setPacket_keeps ..) (.fields ..)

theorem State.sendRequest_keeps (s : State) (id : Nat) (a : Access) (mid : Option Nat) : s.Keeps (s.sendRequest id a mid) := by
  unfold State.sendRequest
  split
  · exact .refl _
  · exact State.newPacket_keeps ..

theorem State.drawMid_keeps (s : State) (key a b : Nat) : s.Keeps (s.drawMid key a b).2 := by
  unfold State.drawMid
  extract_lets _ _ _ s1
  have hs1 : s.Keeps s1 := .fields ..
  split
  · exact hs1
  · exact hs1

theorem State.reply_keeps (s : State) (id : Nat) (st : Status) (data : List Byte) : s.Keeps (s.reply id st data) := by
  unfold State.reply
  split
  · exact .refl _
  extract_lets s1
  have hs1 : s.Keeps s1 := State.setAccess_keeps ..
  split
  · exact hs1
  split
  split
  next h =>
  exact .trans ((State.Keeps.sndIte (hs1.trans (State.drawMid_keeps ..)) hs1).snd h) (State.newPacket_keeps ..)

theorem State.replyLocal_keeps (s : State) (id : Nat) (st : Status) (data : List Byte) : s.Keeps (s.replyLocal id st data) := by
  unfold State.replyLocal
  split
  · exact .refl _
  · exact State.setAccess_keeps ..

/-! Grants of credits. -/

theorem State.nack_keeps (s : State) (p off : Nat) (who : Requester) (cause : Nat) : s.Keeps (s.nack p off who cause) := by
  unfold State.nack
  exact .trans (State.bump_keeps ..) (State.setReg_keeps ..)

/-! Bank access. -/

theorem State.scrubLine_keeps (s : State) (p b : Nat) (err : EccErr) : s.Keeps (s.scrubLine p b err) := by
  unfold State.scrubLine
  exact .trans (.trans (State.modBank_keeps ..) (State.eccRead_keeps ..)) (.foldl (fun _ _ => State.raiseCore_keeps ..) _ _)

theorem State.performP6_keeps (s : State) (p b : Nat) (r : BankReq) (err : EccErr) : s.Keeps (s.performP6 p b r err) := by
  unfold State.performP6
  split
  · extract_lets s1
    have hs1 : s.Keeps s1 := .trans (State.touchPlain_keeps ..) (State.eccRead_keeps ..)
    exact .ite (hs1.trans (State.replyLocal_keeps ..)) (hs1.trans (State.replyLocal_keeps ..))
  · exact .trans (.trans (.trans (State.touchPlain_keeps ..) (State.spadWrite_keeps ..)) (State.uncover_keeps ..))
        (State.replyLocal_keeps ..)
  · exact .trans (.trans (.trans (State.landRemote_keeps ..) (State.reply_keeps ..)) (State.settle_keeps ..)) (State.uncover_keeps ..)
  · extract_lets s1
    have hs1 : s.Keeps s1 := State.eccRead_keeps ..
    exact .ite (hs1.trans (State.reply_keeps ..)) (hs1.trans (State.reply_keeps ..))
  · exact State.scrubLine_keeps ..

theorem State.grantP6_keeps (s : State) (p b : Nat) (r : BankReq) (err : EccErr) : s.Keeps (s.grantP6 p b r err) :=
  .trans (State.modBank_keeps ..) (State.performP6_keeps ..)

theorem State.missP6_keeps (s : State) (p b n : Nat) : s.Keeps (s.missP6 p b n) := by
  unfold State.missP6
  exact State.modBank_keeps ..

theorem State.takeBank_keeps (s : State) (p b : Nat) : s.Keeps (s.takeBank p b) :=
  State.modBank_keeps ..

theorem State.useBank_keeps (s : State) (p b : Nat) : s.Keeps (s.useBank p b) :=
  .trans (State.advanceTo_keeps ..) (State.takeBank_keeps ..)

/-! Remote accesses. -/

theorem State.refuseWrite_keeps (s : State) (p off : Nat) (who : Requester) (cause : Nat) (w : Option Nat) :
    s.Keeps (s.refuseWrite p off who cause w) := by
  unfold State.refuseWrite
  extract_lets s1
  have hs1 : s.Keeps s1 := State.nack_keeps ..
  split
  · exact hs1
  · exact hs1.trans (State.modSpad_keeps _ _ _ id)

theorem execRemoteWrite_keeps (acc : Nat) (s : State) : s.KeptBy (execRemoteWrite acc s) := by
  unfold execRemoteWrite
  split
  · exact .next (.refl _)
  · split
    · split
      · exact .when (.trans (State.setAccess_keeps ..) (State.modBank_keeps ..))
      · exact .next (.trans (State.refuseWrite_keeps ..) (State.reply_keeps ..))
    · exact .next (.refl _)

theorem State.readOffBank_keeps (s : State) (p b : Nat) : s.Keeps (s.readOffBank p b) :=
  .trans (State.modBank_keeps ..) (State.noteHw_keeps ..)

theorem execRemoteRead_keeps (acc : Nat) (s : State) : s.KeptBy (execRemoteRead acc s) := by
  unfold execRemoteRead
  split
  · exact .next (.refl _)
  · split
    · exact .ite (.next (.trans (State.setAccess_keeps ..) (State.modBank_keeps ..)))
          (.next (.trans (State.readOffBank_keeps ..) (State.reply_keeps ..)))
    · exact .next (.refl _)

/-! Credits (R104). -/

theorem State.issueGrant_keeps (s : State) (p : Nat) (r : CreditReq) (w n : Nat) (slots : List Nat) :
    s.Keeps (s.issueGrant p r w n slots) := by
  unfold State.issueGrant
  extract_lets
  split
  · exact .refl _
  · exact .trans (State.modSpad_keeps _ _ _ id) (State.answerCredit_keeps ..)

theorem Spad.bytes_reserveMore (sp : Spad) (w : Nat) (first : List CreditReq) (r : CreditReq) :
    (sp.reserveMore w first r).1.bytes = sp.bytes := by
  unfold Spad.reserveMore
  extract_lets slots free
  refine foldl_field Spad.bytes (fun sp _ => ?_) _ sp
  rfl

/-- The panel with what a request for slots of a channel has reserved (R104). -/
theorem State.reserved_keeps (s : State) (p w : Nat) (first : List CreditReq) (r : CreditReq) :
    s.Keeps (s.modSpad p fun _ => ((s.spad p).reserveMore w first r).1) := by
  refine s.modSpad_keeps p _ fun h => ?_
  rwa [Spad.bytes_reserveMore]

theorem State.serveCredit_keeps (s : State) (p w : Nat) (first : List CreditReq) (r : CreditReq) :
    s.Keeps (s.serveCredit p w first r).2.1 := by
  have h := s.reserved_keeps p w first r
  unfold State.serveCredit
  extract_lets x n
  split
  · dsimp only
    split
    · exact h
    · exact h
  · split
    · exact .refl _
    · exact .refl _

theorem State.serveCredit_keptIn (s : State) (p w : Nat) (first : List CreditReq) (r : CreditReq) :
    s.KeptIn id (s.serveCredit p w first r).1 := by
  have h := s.reserved_keeps p w first r
  unfold State.serveCredit
  extract_lets x n
  split
  · dsimp only
    split
    · exact .some (h.trans (State.issueGrant_keeps ..))
    · exact .none
  · split
    · exact .none
    · exact .some (.trans (State.modSpad_keeps _ _ _ id) (State.issueGrant_keeps ..))

/-- The grant of a request that is served now. -/
theorem State.Keeps.granted {s t t' : State} {p w : Nat} {first : List CreditReq} {r r' : CreditReq}
    (h : s.serveCredit p w first r = (Option.some t, t', r')) : s.Keeps t :=
  (s.serveCredit_keptIn p w first r).of_eq (r := t) (by rw [h])

/-- What a request that waits on has reserved. -/
theorem State.Keeps.waiting {s t : State} {p w : Nat} {first : List CreditReq} {r r' : CreditReq}
    (h : s.serveCredit p w first r = (.none, t, r')) : s.Keeps t := by
  have k := s.serveCredit_keeps p w first r
  rwa [h] at k

theorem execCreditRequest_keeps (acc : Nat) (s : State) : s.KeptBy (execCreditRequest acc s) := by
  unfold execCreditRequest
  split
  · exact .next (.refl _)
  split
  · extract_lets
    split
    · exact .next (.trans (.trans (State.nack_keeps ..) (State.reply_keeps ..)) (State.answerCredit_keeps ..))
    refine .ite (.next (.trans (State.reply_keeps ..) (State.answerCredit_keeps ..))) ?_
    split
    · exact .next (.refl _)
    split
    next h => exact .next ((State.reply_keeps ..).trans (State.Keeps.granted h))
    next h =>
      exact .next (.trans (.trans ((State.reply_keeps ..).trans (State.Keeps.waiting h)) (State.modSpad_keeps _ _ _ id))
        (State.answerCredit_keeps ..))
  · exact .next (.refl _)

theorem State.serveHeld_keeps (s : State) (p : Nat) (rs before : List CreditReq) : s.KeptIn (fun r => r) (s.serveHeld p rs before) := by
  induction rs generalizing before with
  | nil => exact .none
  | cons r rs ih =>
    unfold State.serveHeld
    split
    · exact ih _
    split
    next h => exact .some ((State.Keeps.granted h).trans (State.modSpad_keeps _ _ _ id))
    next h => exact .ite (.some ((State.Keeps.waiting h).trans (State.modSpad_keeps _ _ _ id))) (ih _)

theorem execGrantExpiry_keeps (c : CoreIx) (grant : Fin 64) (s : State) : s.KeptBy (execGrantExpiry c grant s) := by
  unfold execGrantExpiry
  split
  · exact .next (.refl _)
  · exact .next (.trans (State.advanceTo_keeps ..) (State.endGrant_keeps ..))

theorem execCloseComplete_keeps (c : CoreIx) (win : Fin 32) (s : State) : s.KeptBy (execCloseComplete c win s) :=
  .when (State.completeClose_keeps ..)

/-! Bank power (R112–R115). -/

theorem State.requestDown_keeps (s : State) (p : Nat) (bs : List Nat) : s.Keeps (s.requestDown p bs) :=
  .foldl (fun _ _ => State.modBank_keeps ..) _ _

theorem State.startPowerUps_keeps (s : State) (p : Nat) : s.Keeps (s.startPowerUps p) := by
  unfold State.startPowerUps
  refine .foldl (fun _ _ => ?_) _ _
  exact .ite (State.modBank_keeps ..) (.refl _)

theorem State.requestUp_keeps (s : State) (p : Nat) (bs : List Nat) : s.Keeps (s.requestUp p bs) :=
  .trans (.foldl (fun _ _ => State.modBank_keeps ..) _ _) (State.startPowerUps_keeps ..)

theorem execPdReq_keeps (c : CoreIx) (banks : BitVec 16) (s : State) : s.KeptBy (execPdReq c banks s) :=
  .next (State.requestDown_keeps ..)

theorem execPuReq_keeps (c : CoreIx) (banks : BitVec 16) (s : State) : s.KeptBy (execPuReq c banks s) :=
  .next (State.requestUp_keeps ..)

theorem execAutoPowerDown_keeps (c : CoreIx) (bank : Fin 16) (s : State) : s.KeptBy (execAutoPowerDown c bank s) := by
  unfold execAutoPowerDown
  exact .ite (.next (.refl _)) (.next (.trans (State.advanceTo_keeps ..) (State.requestDown_keeps ..)))

theorem execBankPowerDown_keeps (c : CoreIx) (bank : Fin 16) (s : State) : s.KeptBy (execBankPowerDown c bank s) := by
  unfold execBankPowerDown
  extract_lets
  split
  · exact .next (.trans (.trans (.trans (State.advanceTo_keeps ..) (State.dropBank_keeps ..)) (State.modBank_keeps ..))
        (State.startPowerUps_keeps ..))
  · exact .ite (.next (State.modBank_keeps ..)) (.next (.refl _))

theorem execPowerDownTimeout_keeps (c : CoreIx) (bank : Fin 16) (s : State) : s.KeptBy (execPowerDownTimeout c bank s) := by
  unfold execPowerDownTimeout
  extract_lets
  split
  · exact .next (.refl _)
  · exact .next (.trans (.trans (.trans (State.advanceTo_keeps ..) (State.modBank_keeps ..)) (State.noteHw_keeps ..))
        (State.raiseCore_keeps ..))

theorem State.tryLoad_keeps (s : State) (p i : Nat) : s.Keeps (s.tryLoad p i) := by
  unfold State.tryLoad
  extract_lets
  split
  · exact .ite (State.modSlot_keeps ..) (.refl _)
  · exact .refl _

theorem execBankPowerUpDone_keeps (c : CoreIx) (bank : Fin 16) (s : State) : s.KeptBy (execBankPowerUpDone c bank s) := by
  unfold execBankPowerUpDone
  extract_lets
  split
  · exact .next (.refl _)
  · exact .next (.trans (.trans (.trans (State.dropBank_keeps ..) (State.modBank_keeps ..)) (State.startPowerUps_keeps ..))
        (.foldl (fun _ _ => State.tryLoad_keeps ..) _ _))

/-! Engine issue (R43, R44, R74). -/

theorem engineIssue_keeps (a : At) (op : Nat) (kind : MemKind) (rd ra : Reg) (imm : BitVec 16) (s : State) :
    s.KeptBy (engineIssue a op kind rd ra imm s) := by
  unfold engineIssue
  extract_lets
  refine .ite (.next (.refl _)) ?_
  refine tpIssue_keeps _ _ _ _ _ ?_
  intro x1
  extract_lets
  split
  · exact State.faultAt_keeps ..
  · split
    · exact State.faultAt_keeps ..
    · exact State.request_keeps ..

theorem State.grantEngine_keeps (s : State) (p i : Nat) (m : MemOp) (err : EccErr) (fields : State → List Byte → Bool)
    (operands : State → Slot → List Byte → Option (Nat × Word)) {enter : State → List Byte → Nat → Nat → State}
    (h : ∀ (x : State) d o t, x.Keeps (enter x d o t)) : s.Keeps (s.grantEngine p i m err fields operands enter) := by
  unfold State.grantEngine
  extract_lets s1 _ d
  have hs1 : s.Keeps s1 := .trans (State.touchPlain_keeps ..) (State.eccRead_keeps ..)
  refine .ite (hs1.trans (State.faultBack_keeps ..)) (.ite (hs1.trans (State.faultBack_keeps ..)) ?_)
  split
  · exact hs1.trans (State.faultBack_keeps ..)
  · exact hs1.trans (State.faultBack_keeps ..)
  · exact .trans (.trans (hs1.trans (State.modSlot_keeps ..)) (State.endRead_keeps ..)) (h ..)

/-! What R260 holds of run-ahead work. -/

theorem State.modDma_keeps (s : State) (p : Nat) (f : Dma → Dma) : s.Keeps (s.modDma p f) :=
  State.modCore_keeps _ _ _ id

theorem State.grantDxi_keeps (s : State) (p i : Nat) (m : MemOp) (err : EccErr) : s.Keeps (s.grantDxi p i m err) := by
  unfold State.grantDxi
  refine State.grantEngine_keeps _ _ _ _ _ _ _ ?_
  intro x1 x x2 x3
  extract_lets _ s1
  have hs1 : x1.Keeps s1 := State.modDma_keeps ..
  exact .ite (.trans (.trans (hs1.trans (State.modDma_keeps ..)) (State.modSlot_keeps ..)) (State.countHeld_keeps ..))
      (hs1.trans (State.modDma_keeps ..))

/-! The queue. -/

theorem State.modDesc_keeps (s : State) (p id : Nat) (f : DmaDesc → DmaDesc) : s.Keeps (s.modDesc p id f) := by
  unfold State.modDesc
  exact State.modDma_keeps ..

/-! Accesses. -/

/-- An access to a far die is sent, over a middle die when its descriptor asks for one. -/
theorem State.sendFar_keeps (s : State) (p id : Nat) (d : DmaDesc) (a : Access) (near : Nat) (far : Option Nat) :
    s.Keeps (match far with
      | some die =>
        if d.valiant then
          let (mid, s) := s.drawMid p near die
          (s.setAccess id (some { a with valiant := mid.isSome })).sendRequest id a mid
        else s.sendRequest id a none
      | none => s.sendRequest id a none) := by
  split
  · refine .ite ?_ (State.sendRequest_keeps ..)
    exact .trans (.trans (State.drawMid_keeps ..) (State.setAccess_keeps ..)) (State.sendRequest_keeps ..)
  · exact State.sendRequest_keeps ..

theorem State.issueAccess_keeps (s : State) (p : Nat) (d : DmaDesc) (row col : Nat) (kind : AccessKind) (addr : Nat)
    (grant : Option GrantRef) : s.Keeps (s.issueAccess p d row col kind addr grant) := by
  unfold State.issueAccess
  extract_lets id a s1 _ s2 g
  have hs2 : s.Keeps s2 := .trans (State.setAccess_keeps ..) (.fields ..)
  split
  · exact .ite (hs2.trans (State.modBank_keeps ..)) (hs2.trans (State.sendRequest_keeps ..))
  · exact .ite (hs2.trans (State.modBank_keeps ..)) (hs2.trans (State.sendRequest_keeps ..))
  · exact hs2.trans (State.setAccess_keeps ..)
  · exact hs2.trans (State.sendFar_keeps ..)

theorem State.owe_keeps (s : State) (p id dst : Nat) (grant : Option GrantRef) : s.Keeps (s.owe p id dst grant) := by
  unfold State.owe
  split
  · exact State.modDesc_keeps ..
  · exact .refl _

theorem State.creditsDue_keeps (s : State) (p : Nat) (d : DmaDesc) : s.Keeps (s.creditsDue p d) := by
  unfold State.creditsDue
  exact .trans (State.modDma_keeps ..) (State.modDesc_keeps ..)

theorem State.askCredit_keeps (s : State) (p : Nat) (d : DmaDesc) (col n : Nat) : s.Keeps (s.askCredit p d col n) := by
  unfold State.askCredit
  exact .trans (.trans (State.creditsDue_keeps ..) (State.modDesc_keeps ..)) (State.issueAccess_keeps ..)

theorem State.withCredit_keeps (s : State) (p : Nat) (d : DmaDesc) (col n : Nat) {go : State → Option GrantRef → State}
    (h : ∀ (x : State) g, x.Keeps (go x g)) : s.Keeps (s.withCredit p d col n go) := by
  unfold State.withCredit
  split
  · exact h ..
  split
  · exact .trans (State.modDesc_keeps ..) (h ..)
  split
  · exact .refl _
  · exact .refl _
  · exact State.askCredit_keeps ..

theorem State.issueRead_keeps (s : State) (p : Nat) (d : DmaDesc) (grant : Option GrantRef) : s.Keeps (s.issueRead p d grant) := by
  unfold State.issueRead
  exact .trans (State.modDesc_keeps ..) (State.issueAccess_keeps ..)

theorem State.issueUnit_keeps (fuel : Nat) (s : State) (p id : Nat) (grant : Option GrantRef) : s.Keeps (s.issueUnit fuel p id grant) := by
  induction fuel generalizing s with
  | zero => exact .refl s
  | succ fuel ih =>
    unfold State.issueUnit
    split
    · exact .refl s
    extract_lets s1
    have hs1 : s.Keeps s1 := State.issueRead_keeps ..
    split
    · exact hs1
    · exact .ite (hs1.trans (ih _)) hs1

theorem State.issueByRegister_keeps (s : State) (p : Nat) (d : DmaDesc) : s.Keeps (s.issueByRegister p d) := by
  unfold State.issueByRegister
  refine .ite (.refl _) ?_
  extract_lets
  split
  · exact State.withCredit_keeps _ _ _ _ _ (fun _ _ => .trans (State.modDesc_keeps ..) (State.issueAccess_keeps ..))
  · exact .ite (.refl _) (State.issueRead_keeps ..)

theorem State.issueNext_keeps (s : State) (p : Nat) (d : DmaDesc) : s.Keeps (s.issueNext p d) := by
  unfold State.issueNext
  refine .ite (.refl _) ?_
  refine .ite (State.issueByRegister_keeps ..) ?_
  refine .ite (.refl _) ?_
  exact State.withCredit_keeps _ _ _ _ _ (fun _ _ => .ite (.trans (State.modDesc_keeps ..) (State.issueAccess_keeps ..))
      (State.issueUnit_keeps ..))

theorem dmaRun_keeps (op : DmaOp) (c : CoreIx) (id : Nat) (s : State) : s.KeptBy (dmaRun op c id s) := by
  unfold dmaRun
  extract_lets
  split
  · exact .next (.refl _)
  · refine .ite (.next (.refl _)) ?_
    refine .ite (.next (.refl _)) ?_
    extract_lets s1
    have hs1 : s.Keeps s1 := .ite (.refl _) (State.modDesc_keeps ..)
    split
    · exact .next hs1
    · exact .next (hs1.trans (State.issueNext_keeps ..))

/-! The telemetry accumulators (R477, R482), operating hours, and the alteration log (R422). -/

theorem State.telSampleAt_keeps (s : State) (key : Nat) (v : ℤ) (b : Nat) : s.Keeps (s.telSampleAt key v b) := by
  unfold State.telSampleAt
  exact .fields ..

theorem State.telSample_keeps (s : State) (key v : Nat) : s.Keeps (s.telSample key v) :=
  State.telSampleAt_keeps ..

theorem State.telSet_keeps (s : State) (key v : Nat) : s.Keeps (s.telSet key v) :=
  .fields ..

theorem State.telBump_keeps (s : State) (key lo w n : Nat) : s.Keeps (s.telBump key lo w n) := by
  unfold State.telBump
  exact State.telSet_keeps ..

theorem State.telMax_keeps (s : State) (key lo w v : Nat) : s.Keeps (s.telMax key lo w v) := by
  unfold State.telMax
  exact .ite (State.telSet_keeps ..) (.refl _)

theorem State.telMin_keeps (s : State) (key lo w v : Nat) : s.Keeps (s.telMin key lo w v) := by
  unfold State.telMin
  exact .ite (State.telSet_keeps ..) (.refl _)

theorem State.addHash_keeps (s : State) (tick h : Nat) : s.Keeps (s.addHash tick h) := by
  unfold State.addHash
  exact .fields ..

theorem State.addDigest_keeps (s : State) (tick a : Nat) (line : List Byte) : s.Keeps (s.addDigest tick a line) :=
  State.addHash_keeps ..

/-! The port's limits (R191, R192) and arbitration (R189, R190). -/

theorem State.dramGrant_keeps (s : State) (site die p cls : Nat) : s.KeptIn (fun r => r) (s.dramGrant site die p cls) := by
  unfold State.dramGrant
  exact .ite (.ite (.some (State.modPort_keeps ..)) .none) (.ite .none (.some (State.modPort_keeps ..)))

/-! Accesses that one command performs whole. -/

theorem State.limitTime_keeps (s : State) (site p n : Nat) : s.Keeps (s.limitTime site p n) :=
  .ite (.refl _) (State.advanceTo_keeps ..)

theorem State.readLine_keeps (s : State) (site o n cls : Nat) (err : Symbols) :
    s.KeptIn (fun r => r.2.2) (s.readLine site o n cls err) := by
  unfold State.readLine
  extract_lets
  split
  · exact .none
  next h =>
    split
    · split
      · exact .none
      · exact .some (.trans ((State.dramGrant_keeps ..).of_eq h) (State.bump_keeps ..))
    · refine .ite .none ?_
      refine .ite (.some ((State.dramGrant_keeps ..).of_eq h)) ?_
      extract_lets _ _ _ _ _ s4 _
      have hs4 : s.Keeps s4 :=
        .trans (.trans (.trans ((State.dramGrant_keeps ..).of_eq h) (State.limitTime_keeps ..)) (State.bump_keeps ..))
          (State.modPort_keeps ..)
      exact .some (.ite hs4 (hs4.trans (State.lineError_keeps ..)))

theorem State.writeLine_keeps (s : State) (site o cls : Nat) {put : SMap Byte → SMap Byte} (whole : Bool) (err : Symbols)
    (hput : ∀ m, Memory.wf m = true → Memory.wf (put m) = true) : s.KeptIn (fun r => r.2) (s.writeLine site o cls put whole err) := by
  unfold State.writeLine
  extract_lets
  split
  · exact .none
  next h =>
  have hs := (State.dramGrant_keeps ..).of_eq h
  refine .ite .none (.ite (.some hs) (.some ?_))
  exact .trans (.trans (hs.trans (State.limitTime_keeps ..)) (State.modPort_keeps ..)) (State.dramPut_keeps _ _ _ _ _ _ hput)

theorem State.writeBytes_keeps (s : State) (site o cls : Nat) (bs : List Byte) (err : Symbols) :
    s.KeptIn (fun r => r.2) (s.writeBytes site o cls bs err) :=
  State.writeLine_keeps _ _ _ _ _ _ fun _ => Memory.wf_setRange _ _

theorem State.writeMask_keeps (s : State) (site o cls : Nat) (line : List Byte) (mask : Nat) :
    s.KeptIn (fun r => r.2) (s.writeMask site o cls line mask) := by
  unfold State.writeMask
  refine .ite (.some (.refl _)) ?_
  extract_lets put
  split
  next h =>
  have hs := (State.Keeps.sndIte (.refl s) (State.freeFinding_keeps _)).snd h
  exact hs.keptIn (State.writeLine_keeps _ _ _ _ _ _ fun _ => Memory.wf_masked _ _ _ _)

/-! Shared operations of power and clocks (spec/17, 18). -/

theorem State.setHalf_keeps (s : State) (site r : Nat) (on : Bool) : s.Keeps (s.setHalf site r on) := by
  unfold State.setHalf
  exact .trans (.trans (.trans (State.setFld_keeps ..) (State.setFld_keeps ..)) (State.setFld_keeps ..))
      (.foldl (fun _ _ => State.setFld_keeps ..) _ _)

/-! Slack (R383). -/

theorem State.stopDie_keeps (s : State) (site : Nat) : s.Keeps (s.stopDie site) := by
  unfold State.stopDie
  exact .trans (State.modDie_keeps ..) (.foldl (fun _ _ => State.modCore_keeps _ _ _ id) _ _)

theorem State.latchGroup_keeps (s : State) (i : Nat) : s.Keeps (s.latchGroup i) :=
  State.setFld_keeps ..

theorem State.telRegionMv_keeps (s : State) (site r mv : Nat) : s.Keeps (s.telRegionMv site r mv) :=
  .trans (State.telMin_keeps ..) (State.telMax_keeps ..)

theorem State.telTemp_keeps (s : State) (site temp : Nat) : s.Keeps (s.telTemp site temp) :=
  .foldl (fun _ _ => .trans (State.telMin_keeps ..) (State.telMax_keeps ..)) _ _

theorem State.telCurrent_keeps (s : State) (site r cur : Nat) : s.Keeps (s.telCurrent site r cur) :=
  State.telMax_keeps ..

/-! The power budget (R390, R391). -/

theorem State.setBudgets_keeps (s : State) (fixed eta : Nat) : s.Keeps (s.setBudgets fixed eta) := by
  unfold State.setBudgets
  refine .trans (.trans (.trans (.trans (State.setFld_keeps ..) (State.setFld_keeps ..)) (State.setFld_keeps ..)) (.fields ..))
      (.foldl (fun _ _ => ?_) _ _)
  exact State.setFld_keeps ..

/-! The tree and the substitutes (R294, R299). -/

theorem State.noteOffers_keeps (s : State) (tick : Nat) (ks : List Nat) : s.Keeps (s.noteOffers tick ks) := by
  unfold State.noteOffers
  exact .fields ..

/-! Units and their buckets. -/

theorem State.modUnit_keeps (s : State) (d : Nat) (f : CollUnit → CollUnit) : s.Keeps (s.modUnit d f) :=
  .fields ..

theorem State.modBucket_keeps (s : State) (d t : Nat) (f : UnitBucket → UnitBucket) : s.Keeps (s.modBucket d t f) :=
  State.modUnit_keeps ..

theorem State.clearScales_keeps (s : State) : s.Keeps s.clearScales := by
  unfold State.clearScales
  extract_lets s1 _
  have hs1 : s.Keeps s1 := .foldl (fun _ _ => .foldl (fun _ _ => .ite (.refl _) (State.setFld_keeps ..)) _ _) _ _
  exact hs1.trans (.fields ..)

theorem State.missingCopies_keeps (s : State) (tick prog : Nat) : s.Keeps (s.missingCopies tick prog) := by
  unfold State.missingCopies
  refine .foldl (fun _ _ => ?_) _ _
  refine .foldl (fun _ _ => ?_) _ _
  exact .foldl (fun _ _ => .ite (.refl _) (State.raise_keeps ..)) _ _

theorem State.collAbandon_keeps (s : State) (tick prog : Nat) : s.Keeps (s.collAbandon tick prog) := by
  unfold State.collAbandon
  exact .trans (.trans (State.missingCopies_keeps ..) (State.clearScales_keeps ..)) (.fields ..)

theorem State.collCommit_keeps (s : State) (tick prog : Nat) : s.Keeps (s.collCommit tick prog) := by
  unfold State.collCommit
  exact .trans (State.clearScales_keeps ..) (.fields ..)

/-! Queue pairs and the finishing of a fetched command (R360–R367), and the ends of maintenance entries and injections (R447, R451). -/

theorem State.modPair_keeps (s : State) (q : Nat) (f : QPair → QPair) : s.Keeps (s.modPair q f) :=
  .fields ..

theorem State.modCmd_keeps (s : State) (q cid : Nat) (f : HostCmd → HostCmd) : s.Keeps (s.modCmd q cid f) :=
  State.modPair_keeps ..

theorem State.finish_keeps (s : State) (q cid code detail result : Nat) : s.Keeps (s.finish q cid code detail result) := by
  unfold State.finish
  split
  · exact .refl _
  · exact State.modPair_keeps ..

theorem State.finishOpt_keeps (s : State) (c : Option (Nat × Nat)) (code detail result : Nat) :
    s.Keeps (s.finishOpt c code detail result) := by
  unfold State.finishOpt
  split
  · exact .refl _
  · exact State.finish_keeps ..

theorem State.tickWaiters_keeps (s : State) : s.Keeps s.tickWaiters := by
  unfold State.tickWaiters
  refine .foldl (fun _ _ => ?_) _ _
  refine .foldl (fun _ _ => ?_) _ _
  exact .ite (.refl _) (.ite (.ite (State.finish_keeps ..) (.ite (State.finish_keeps ..) (.ite (State.finish_keeps ..) (.refl _))))
      (.ite (.ite (State.finish_keeps ..) (.ite (State.finish_keeps ..) (.refl _))) (.refl _)))

theorem State.endEntry_keeps (s : State) (e : MaintEntry) (outcome : Nat) : s.Keeps (s.endEntry e outcome) := by
  unfold State.endEntry
  exact .trans (.fields ..) (State.raise_keeps ..)

theorem State.endInjection_keeps (s : State) : s.Keeps s.endInjection := by
  unfold State.endInjection
  split
  · exact .refl _
  · extract_lets _ _ s2
    have hs2 : s.Keeps s2 := .trans (.fields ..) (State.raise_keeps ..)
    split
    · exact hs2
    · exact hs2.trans (State.endEntry_keeps ..)

/-! The commands of the DRAM ports (spec/08). -/

theorem State.replyRead_keeps (s : State) (id : Nat) (r : DramRead) (st : Status) : s.Keeps (s.replyRead id r st) := by
  unfold State.replyRead
  split
  · exact .refl _
  · exact State.reply_keeps ..

theorem execDramRead_keeps (acc : Nat) (s : State) : s.KeptBy (execDramRead acc s) := by
  unfold execDramRead
  split
  · exact .next (.refl _)
  · split
    · extract_lets
      split
      · exact .next (.refl _)
      next h2 =>
        split
        · extract_lets g
          have hg : s.Keeps g := .trans ((State.dramGrant_keeps ..).of_eq h2) (State.bump_keeps ..)
          split
          · exact .next (hg.trans (State.replyRead_keeps ..))
          · exact .next (hg.trans (State.modPort_keeps ..))
        · refine .ite (.next (.refl _)) ?_
          refine .ite (.next (.trans ((State.dramGrant_keeps ..).of_eq h2) (State.reply_keeps ..))) ?_
          refine .ite (.next (.refl _)) ?_
          exact .next (.trans (.trans ((State.dramGrant_keeps ..).of_eq h2) (State.bump_keeps ..)) (State.modPort_keeps ..))
    · exact .next (.refl _)

theorem execDramWrite_keeps (acc : Nat) (err : Symbols) (s : State) : s.KeptBy (execDramWrite acc err s) := by
  unfold execDramWrite
  split
  · exact .next (.refl _)
  next fst _ _ _ =>
    split
    · extract_lets
      split
      · exact .next (.refl _)
      next h2 =>
        refine .ite (.next (.refl _)) ?_
        refine .ite (.next (.trans ((State.dramGrant_keeps ..).of_eq h2) (State.reply_keeps ..))) ?_
        refine .ite (.next (.refl _)) ?_
        extract_lets
        split
        next h3 =>
          exact .next (.trans (.trans (.trans ((State.dramGrant_keeps ..).of_eq h2) (State.modPort_keeps ..))
              ((State.dramWrite_keeps ..).fst h3)) (State.reply_keeps ..))
    · exact .next (.refl _)

theorem execDramReadData_keeps (site : Fin 204) (port : Fin 8) (k : Nat) (err : Symbols) (s : State) :
    s.KeptBy (execDramReadData site port k err s) := by
  unfold execDramReadData
  extract_lets
  split
  · exact .next (.refl _)
  · extract_lets _ _ _ _ s1 _ _ s4 _
    have hs1 : s.Keeps s1 := State.lineError_keeps ..
    have hs4 : s.Keeps s4 :=
      .trans (.trans (.ite (hs1.trans (State.modDram_keeps _ _ _ id)) hs1) (State.telSample_keeps ..))
        (.foldl (fun _ _ => State.replyRead_keeps ..) _ _)
    exact .next (hs4.trans (State.modPort_keeps ..))

theorem execRefresh_keeps (site : Fin 204) (port : Fin 8) (bank : Fin 32) (s : State) : s.KeptBy (execRefresh site port bank s) := by
  unfold execRefresh
  exact .ite (.next (.refl _)) (.next (.trans (State.advanceTo_keeps ..) (State.modPort_keeps ..)))

theorem execPatrolRead_keeps (site : Fin 204) (port : Fin 8) (err : Symbols) (s : State) : s.KeptBy (execPatrolRead site port err s) := by
  unfold execPatrolRead
  extract_lets _ _ _ _ _ s1 _
  have hs1 : s.Keeps s1 := .ite (.refl _) (State.lineError_keeps ..)
  exact .ite (.next (.refl _)) (.next (.trans (.ite (hs1.trans (State.endInjection_keeps ..)) hs1) (State.modPort_keeps ..)))

theorem execDramLimitInterval_keeps (site : Fin 204) (port : Fin 8) (s : State) : s.KeptBy (execDramLimitInterval site port s) := by
  unfold execDramLimitInterval
  exact .next (.trans (State.advanceTo_keeps ..) (State.modPort_keeps ..))

theorem State.protectDie_keeps (s : State) (site temp : Nat) : s.Keeps (s.protectDie site temp) := by
  unfold State.protectDie
  extract_lets
  refine .ite (.trans (.trans (State.modDie_keeps ..) (State.stopDie_keeps ..)) (State.latchGroup_keeps ..)) ?_
  refine .ite (State.modDie_keeps ..) ?_
  refine .ite ?_ (.refl _)
  refine .ite ?_ (State.modDie_keeps ..)
  split
  · exact State.modDie_keeps ..
  · exact .ite (State.modDie_keeps ..) (.refl _)

theorem execThermalSample_keeps (site : Fin 204) (temp : Fin 256) (s : State) : s.KeptBy (execThermalSample site temp s) := by
  unfold execThermalSample
  extract_lets
  split
  · exact .next (.trans (.trans (.trans (.trans (.ite (State.raise_keeps ..) (.refl _)) (State.modDram_keeps _ _ _ id))
        (State.setReg_keeps ..)) (State.telTemp_keeps ..)) (State.protectDie_keeps ..))

theorem execDramRetire_keeps (site : Fin 204) (cmd : BitVec 32) (s : State) : s.KeptBy (execDramRetire site cmd s) := by
  unfold execDramRetire
  extract_lets _ _ _ result _ _
  have hresult : ∀ s1 r1, State.Keeps s1 (result s1 r1) := fun _ _ => State.modDram_keeps _ _ _ id
  exact .ite (.next (.refl _)) (.ite (.next (hresult _ _)) (.ite (.next (hresult _ _))
      (.ite (.next (hresult _ _)) (.next (.trans (State.retireDram_keeps ..) (hresult _ _))))))

/-! The world table (R252–R258, R267). -/

theorem State.setWorld_keeps (s : State) (w : Nat) (x : World) : s.Keeps (s.setWorld w x) :=
  .fields ..

/-! Register reads (R6, R8, R56, R510). -/

theorem State.clearRoc_keeps (s : State) (u off clr : Nat) : s.Keeps (s.clearRoc u off clr).2 := by
  unfold State.clearRoc
  extract_lets
  split
  · exact .ite (.refl _) (State.putReg_keeps ..)
  · split
    · exact .ite (.refl _) (State.putReg_keeps ..)
    · exact .trans (.fields ..) (State.putReg_keeps ..)

theorem State.afterRead_keeps (s : State) (u off : Nat) : s.Keeps (s.afterRead u off) := by
  unfold State.afterRead
  refine .ite (.refl _) ?_
  refine .ite (State.putReg_keeps ..) ?_
  split
  · exact State.modRegion_keeps ..
  · exact .refl _

theorem State.readFull_keeps (s : State) (u : Nat) (r : RegRow) (off mask : Nat) : s.Keeps (s.readFull u r off mask).2 := by
  unfold State.readFull
  extract_lets
  split
  next h =>
    exact .trans ((State.clearRoc_keeps ..).snd h) (State.afterRead_keeps ..)

theorem State.regRead_keeps (s : State) (u off n : Nat) : s.Keeps (s.regRead u off n).2 := by
  have hfull (r : RegRow) (o mask : Nat) : s.Keeps (s.readFull u r o mask).2 := s.readFull_keeps ..
  unfold State.regRead
  split
  · exact .refl _
  split
  · split
    · split
      · exact hfull ..
      split
      · exact hfull ..
      · exact hfull ..
    · extract_lets one
      have hone (x : State) (o : Nat) : x.Keeps (one x o).2 := by
        unfold one
        split
        · exact State.readFull_keeps ..
        · exact .refl _
      dsimp only
      split
      · exact (hone ..).trans (hone ..)
      · exact hone ..
  · split
    · split
      · exact hfull ..
      split
      · exact hfull ..
      · exact .refl _
    · exact .refl _

theorem State.meshBump_keeps (s : State) (p off lo w n : Nat) : s.Keeps (s.meshBump p off lo w n) := by
  unfold State.meshBump
  extract_lets s1
  have hs1 : s.Keeps s1 := State.telBump_keeps ..
  exact .ite hs1 (hs1.trans (State.bump_keeps ..))

/-! Multicast. -/

theorem State.sendLines_keeps (fuel : Nat) (s : State) (p id : Nat) : s.Keeps (s.sendLines fuel p id) := by
  induction fuel generalizing s with
  | zero => exact .refl s
  | succ fuel ih =>
    unfold State.sendLines
    split
    · exact .refl s
    extract_lets b
    split
    · exact .refl s
    · exact .trans (.trans (State.newPacket_keeps ..) (State.modDesc_keeps ..)) (ih _)

theorem execMcast_keeps (c : CoreIx) (desc : Nat) (s : State) : s.KeptBy (execMcast c desc s) := by
  unfold execMcast
  split
  · exact .next (.refl _)
  · refine .ite (.next (.refl _)) ?_
    refine .ite (.next (.refl _)) ?_
    refine .ite (.next (.refl _)) ?_
    exact .next (.trans (.trans (.ite (.refl _) (State.modDesc_keeps ..)) (State.modDesc_keeps ..)) (State.issueAccess_keeps ..))

theorem State.forgetStream_keeps (s : State) (p id : Nat) : s.Keeps (s.forgetStream p id) :=
  .fields ..

theorem State.writeBitmap_keeps (s : State) (p : Nat) (d : DmaDesc) (st : Status) : s.Keeps (s.writeBitmap p d st) := by
  unfold State.writeBitmap
  exact .trans (.trans (State.touchPlain_keeps ..) (State.spadWrite_keeps ..)) (State.modDesc_keeps ..)

theorem execMcastResend_keeps (c : CoreIx) (desc : Nat) (s : State) : s.KeptBy (execMcastResend c desc s) := by
  unfold execMcastResend
  extract_lets
  split
  · exact .next (.refl _)
  · extract_lets
    refine .ite (.next (.refl _)) ?_
    split
    · exact .ite (.next (.refl _)) (.next (.trans (.trans (State.modDesc_keeps ..) (State.writeBitmap_keeps ..))
          (State.forgetStream_keeps ..)))
    · refine .ite (.next (.refl _)) ?_
      refine .ite (.ite (.ite (.next (.trans (State.creditsDue_keeps ..) (State.modDesc_keeps ..))) (.next (.refl _)))
          (.next (.trans (State.modDesc_keeps ..) (State.issueNext_keeps ..)))) ?_
      split
      · exact .next (State.modDesc_keeps ..)
      · exact .next (.trans (State.modDesc_keeps ..) (State.writeBitmap_keeps ..))

theorem State.noteTarget_keeps (s : State) (p id t : Nat) (f : TargetState → TargetState) : s.Keeps (s.noteTarget p id t f) :=
  State.modDesc_keeps ..

theorem execMcastAck_keeps (k : Nat) (s : State) : s.KeptBy (execMcastAck k s) := by
  unfold execMcastAck
  split
  · exact .next (.refl _)
  · exact .next (.trans (.fields ..) (State.noteTarget_keeps ..))

theorem execMissNotice_keeps (k : Nat) (s : State) : s.KeptBy (execMissNotice k s) := by
  unfold execMissNotice
  split
  · exact .next (.refl _)
  · exact .next (.trans (.fields ..) (.foldl (fun _ _ => State.noteTarget_keeps ..) _ _))

/-! Replies. -/

theorem State.lineArrived_keeps (s : State) (p : Nat) (d : DmaDesc) (a : Access) : s.Keeps (s.lineArrived p d a) := by
  unfold State.lineArrived
  extract_lets _ _ s1 behind
  have hs1 : s.Keeps s1 := State.modDesc_keeps ..
  split
  · exact hs1
  split
  next h =>
  extract_lets s3
  have hs3 : s.Keeps s3 := .trans ((State.Keeps.sndIte (hs1.trans (State.freeBit_keeps ..)) hs1).snd h) (State.modDesc_keeps ..)
  exact .ite (.trans (hs3.trans (State.modDesc_keeps ..)) (State.issueAccess_keeps ..)) (hs3.trans (State.owe_keeps ..))

theorem State.dataArrived_keeps (s : State) (p : Nat) (d : DmaDesc) (a : Access) : s.Keeps (s.dataArrived p d a) := by
  unfold State.dataArrived
  refine .ite (.ite (.refl _) (.trans (State.modDesc_keeps ..) (State.sendLines_keeps ..))) ?_
  refine .ite ?_ (State.lineArrived_keeps ..)
  refine .ite (.refl _) ?_
  extract_lets _ s1
  have hs1 : s.Keeps s1 := State.modDesc_keeps ..
  exact .ite (hs1.trans (State.issueByRegister_keeps ..)) hs1

theorem State.answerLate_keeps (s : State) (p id : Nat) : s.Keeps (s.answerLate p id) :=
  State.modDma_keeps ..

theorem State.endStopping_keeps (s : State) (p id : Nat) : s.Keeps (s.endStopping p id) := by
  unfold State.endStopping
  split
  · exact .refl _
  · exact .ite (.refl _) (.trans (State.creditsDue_keeps ..) (State.modDma_keeps ..))

theorem execReplyArrival_keeps (acc : Nat) (s : State) : s.KeptBy (execReplyArrival acc s) := by
  unfold execReplyArrival
  split
  · exact .next (.refl _)
  · extract_lets _ _ s2 s3
    have hs2 : s.Keeps s2 := .trans (State.setAccess_keeps ..) (State.answerLate_keeps ..)
    have hs3 : s.Keeps s3 := hs2.trans (State.modDesc_keeps ..)
    refine .ite (.next (.refl _)) ?_
    split
    · exact .next (.refl _)
    · exact .next (.refl _)
    · extract_lets _ s4
      have hs4 : s.Keeps s4 := hs3.trans (State.modDesc_keeps ..)
      split
      · exact .next hs2
      · split
        · exact .next hs3
        · extract_lets s5
          have hs5 : s.Keeps s5 := .ite (.ite (hs4.trans (State.owe_keeps ..)) hs4) (.ite (hs3.trans (State.dataArrived_keeps ..)) hs3)
          exact .next (.trans (hs5.trans (State.modDesc_keeps ..)) (State.endStopping_keeps ..))

/-! Credits at the sender (R104). -/

theorem execCreditReply_keeps (acc : Nat) (s : State) : s.KeptBy (execCreditReply acc s) := by
  unfold execCreditReply
  split
  · exact .next (.refl _)
  · split
    · refine .ite (.next (.refl _)) ?_
      extract_lets _ s1
      have hs1 : s.Keeps s1 := State.setAccess_keeps ..
      split
      · exact .next (State.setAccess_keeps ..)
      · exact .next (.trans (State.setAccess_keeps ..) (State.modDesc_keeps ..))
      · exact .next (.trans (State.setAccess_keeps ..) (State.modDesc_keeps ..))
      · split
        · exact .next (hs1.trans (State.modDesc_keeps ..))
        · exact .next (hs1.trans (State.modDma_keeps ..))
        · exact .next hs1
    · exact .next (.refl _)

theorem execCreditRetry_keeps (c : CoreIx) (desc : Nat) (s : State) : s.KeptBy (execCreditRetry c desc s) := by
  unfold execCreditRetry
  split
  · exact .next (.refl _)
  · split
    · exact .ite (.next (.refl _)) (.next (.trans (State.advanceTo_keeps ..) (State.askCredit_keeps ..)))
    · exact .next (.refl _)

theorem execCreditReturn_keeps (c : CoreIx) (desc : Nat) (s : State) : s.KeptBy (execCreditReturn c desc s) := by
  unfold execCreditReturn
  split
  · exact .next (.refl _)
  · extract_lets s1
    have hs1 : s.Keeps s1 := State.modDma_keeps ..
    split
    · exact .next hs1
    · exact .next (.trans (.trans (hs1.trans (State.endGrant_keeps ..)) (State.tryClose_keeps ..)) (State.settle_keeps ..))

/-! Completion (R43, R44). -/

theorem State.completeDesc_keeps (s : State) (p slot token off word st : Nat) : s.Keeps (s.completeDesc p slot token off word st) := by
  unfold State.completeDesc
  exact .trans (.trans (State.touchPlain_keeps ..) (State.spadWrite_keeps ..)) (State.completeToken_keeps ..)

theorem State.engineDone_keeps (s : State) (p cnt err : Nat) (d : EngDesc) (st : Status) : s.Keeps (s.engineDone p cnt err d st) := by
  unfold State.engineDone
  extract_lets _ s1
  have hs1 : s.Keeps s1 := State.bump_keeps ..
  exact .ite hs1 (hs1.trans (State.setReg_keeps ..))

theorem execDescriptorCompletion_keeps (c : CoreIx) (eng : Engine) (s : State) : s.KeptBy (execDescriptorCompletion c eng s) := by
  unfold execDescriptorCompletion
  extract_lets p fin
  have hfin : ∀ q cnt err drop, (∀ c : Core, (drop c).spad = c.spad) → State.KeptBy s (fin q cnt err drop) := by
    intro q cnt err drop hdrop
    unfold fin
    split
    · exact .next (.refl _)
    split
    · exact .next (.refl _)
    extract_lets s1
    have hs1 : s.Keeps s1 := .trans (State.modCore_keeps_of_spad _ _ hdrop) (State.modSlot_keeps ..)
    exact .next (.trans (hs1.trans (State.engineDone_keeps ..)) (State.completeDesc_keeps ..))
  split
  · exact hfin _ _ _ _ fun _ => rfl
  · exact hfin _ _ _ _ fun _ => rfl
  split
  · exact .next (.refl _)
  split
  · exact .next (.refl _)
  extract_lets s1 _
  have hs1 : s.Keeps s1 := .trans (State.creditsDue_keeps ..) (State.modDma_keeps ..)
  exact .next (.trans (.ite (hs1.trans (State.addHash_keeps ..)) hs1) (State.completeDesc_keeps ..))

theorem execHeldDxiEnqueue_keeps (c : CoreIx) (s : State) : s.KeptBy (execHeldDxiEnqueue c s) := by
  unfold execHeldDxiEnqueue
  extract_lets
  split
  · exact .next (.refl _)
  · refine .ite (.next (.refl _)) ?_
    exact .next (.trans (State.modDma_keeps ..) (State.modSlot_keeps ..))

/-! The bulk mesh (spec/09). -/

theorem State.modPacket_keeps (s : State) (k : Nat) (f : Packet → Packet) : s.Keeps (s.modPacket k f) := by
  unfold State.modPacket
  split
  · exact .refl _
  · exact State.setPacket_keeps ..

theorem State.discard_keeps (s : State) (k : Nat) (x : Packet) : s.Keeps (s.discard k x) := by
  unfold State.discard
  extract_lets _ s1
  have hs1 : s.Keeps s1 := by
    unfold s1
    split
    · exact .fields ..
    · exact .refl _
  exact .trans (hs1.trans (State.setPacket_keeps ..)) (State.bump_keeps ..)

/-! Throttling (R219). -/

theorem State.noteDepth_keeps (s : State) (site r : Nat) : s.Keeps (s.noteDepth site r) := by
  unfold State.noteDepth
  exact .fields ..

theorem execThrottleLevelFall_keeps (c : CoreIx) (s : State) : s.KeptBy (execThrottleLevelFall c s) := by
  unfold execThrottleLevelFall
  exact .ite (.next (.refl _)) (.next (.trans (.trans (State.advanceTo_keeps ..) (.fields ..)) (State.noteDepth_keeps ..)))

/-! Multicast branches (R215, R216). -/

theorem State.clearDrop_keeps (s : State) (site r : Nat) (x : Packet) : s.Keeps (s.clearDrop site r x) := by
  unfold State.clearDrop
  split
  · exact .fields ..
  · exact .refl _

theorem State.splitMcast_keeps (s : State) (k : Nat) : s.Keeps (s.splitMcast k) := by
  unfold State.splitMcast
  split
  · exact .refl _
  · split
    · extract_lets _ _ _ _ s1
      have hs1 : s.Keeps s1 := State.setPacket_keeps ..
      refine .trans (.ite (hs1.trans (State.clearDrop_keeps ..)) hs1) (.foldl (fun _ _ => ?_) _ _)
      extract_lets
      split
      · exact State.bump_keeps ..
      · exact .ite (State.bump_keeps ..) (State.newPacket_keeps ..)
    · exact .refl _

/-! Die entry (R203). -/

theorem State.enterEscape_keeps (s : State) (k : Nat) (x : Packet) : s.Keeps (s.enterEscape k x) := by
  unfold State.enterEscape
  extract_lets t
  clear_value t
  cases t with
  | none => exact State.discard_keeps ..
  | some e => exact State.setPacket_keeps ..

theorem State.dropIfFenced_keeps (s : State) (k v e : Nat) : s.Keeps (s.dropIfFenced k v e) := by
  unfold State.dropIfFenced
  split
  · exact .ite (State.discard_keeps ..) (.refl _)
  · exact .refl _

theorem State.chooseExit_keeps (s : State) (k : Nat) : s.Keeps (s.chooseExit k) := by
  unfold State.chooseExit
  split
  · exact .refl _
  · extract_lets _ _ _ s1 s2 _
    have hs1 : s.Keeps s1 := State.setPacket_keeps ..
    have hs2 : s.Keeps s2 := hs1.trans (State.enterEscape_keeps ..)
    refine .ite (hs1.trans (State.splitMcast_keeps ..)) ?_
    refine .ite ?_ ?_
    · split
      · exact hs1.trans (State.discard_keeps ..)
      · exact .trans (hs1.trans (State.setPacket_keeps ..)) (State.dropIfFenced_keeps ..)
    · refine .ite ?_ ?_
      · split
        · exact hs2.trans (State.dropIfFenced_keeps ..)
        · exact hs2
      · split
        · refine .ite (hs1.trans (State.discard_keeps ..)) ?_
          exact .trans (hs1.trans (State.setPacket_keeps ..)) (State.dropIfFenced_keeps ..)

theorem State.noteInjected_keeps (s : State) (x : Packet) : s.Keeps (s.noteInjected x) := by
  unfold State.noteInjected
  split
  · split
    · exact State.setAccess_keeps ..
    · exact .refl _
  · exact .refl _

theorem execPacketDieEntry_keeps (pkt : Nat) (s : State) : s.KeptBy (execPacketDieEntry pkt s) := by
  unfold execPacketDieEntry
  split
  · exact .next (.refl _)
  · refine .ite (.next (.refl _)) ?_
    split
    · extract_lets _ _ _ s1 _
      have hs1 : s.Keeps s1 := by
        unfold s1
        refine .ite ?_ (.refl _)
        split
        · exact .fields ..
      exact .ite (.next (.refl _)) (.ite (.next (.trans (State.advanceTo_keeps ..) (State.meshBump_keeps ..)))
          (.next (.trans (.trans (.trans (hs1.trans (State.noteInjected_keeps ..)) (State.setPacket_keeps ..)) (State.chooseExit_keeps ..))
          (State.noteDepth_keeps ..))))
    · exact .ite (.next (.refl _)) (.next (.trans (State.setPacket_keeps ..) (State.chooseExit_keeps ..)))
    · exact .next (.refl _)
    · exact .next (.trans (State.advanceTo_keeps ..) (State.chooseExit_keeps ..))

/-! Delivery. -/

theorem State.regAccess_keeps (s : State) (id : Nat) (a : Access) : s.Keeps (s.regAccess id a) := by
  unfold State.regAccess
  split
  · exact .refl _
  split
  · refine .ite (State.reply_keeps ..) ?_
    refine .trans ?_ (State.reply_keeps ..)
    split
    · exact .refl _
    · exact State.regRead_keeps ..
  · exact .ite (.refl _) (.trans (.ite (State.bump_keeps ..) (.refl _)) (State.reply_keeps ..))
  · exact .refl _

theorem State.tellSource_keeps (s : State) (site r core : Nat) (cargo : Cargo) : s.Keeps (s.tellSource site r core cargo) := by
  unfold State.tellSource
  split
  · exact State.newPacket_keeps ..

theorem State.mcastDram_keeps (s : State) (site r : Nat) (x : Packet) : s.Keeps (s.mcastDram site r x) := by
  unfold State.mcastDram
  split
  · split
    next h2 =>
      exact .ite (.trans (.trans ((State.dramWriteFree_keeps ..).fst h2) (.fields ..)) (State.tellSource_keeps ..))
          (.trans ((State.dramWriteFree_keeps ..).fst h2) (.fields ..))
  · exact .refl _

theorem State.deliver_keeps (s : State) (k : Nat) (x : Packet) : s.Keeps (s.deliver k x) := by
  unfold State.deliver
  extract_lets s1 _
  have hs1 : s.Keeps s1 := State.setPacket_keeps ..
  split
  · split
    · exact hs1
    · exact .trans (hs1.trans (State.setAccess_keeps ..)) (State.regAccess_keeps ..)
  · split
    · exact hs1
    · exact .trans (.ite (hs1.trans (State.telSample_keeps ..)) hs1) (State.setAccess_keeps ..)
  · split
    · exact hs1.trans (State.mcastDram_keeps ..)
    · exact hs1
  · exact hs1.trans (.fields ..)
  · exact hs1.trans (.fields ..)
  · exact hs1
  · split
    · exact hs1.trans (State.newPacket_keeps ..)
    · exact hs1
  · exact hs1.trans (.fields ..)

/-! The grant of an output (R201). -/

theorem State.countDepart_keeps (s : State) (p q : Nat) (x : Packet) : s.Keeps (s.countDepart p q x) := by
  unfold State.countDepart
  exact .trans (.trans (State.meshBump_keeps ..) (State.meshBump_keeps ..)) (State.meshBump_keeps ..)

theorem State.noteMax_keeps (s : State) (k : Nat) : s.Keeps (s.noteMax k) := by
  unfold State.noteMax
  split
  · split
    · extract_lets _ _ _ s1
      have hs1 : s.Keeps s1 := State.telMax_keeps ..
      exact .ite hs1 (.ite (hs1.trans (State.setFld_keeps ..)) hs1)
    · exact .refl _
  · exact .refl _

theorem State.noteBlocked_keeps (s : State) (p q : Nat) (l : List (Nat × Packet)) : s.Keeps (s.noteBlocked p q l) := by
  unfold State.noteBlocked
  exact .trans (.trans (.ite (.refl _) (State.meshBump_keeps ..)) (.fields ..))
      (.foldl (fun _ _ => .ite (State.modPacket_keeps ..) (.refl _)) _ _)

theorem State.moveOn_keeps (s : State) (site r q k : Nat) (x : Packet) : s.Keeps (s.moveOn site r q k x) := by
  unfold State.moveOn
  extract_lets _ s1 s2
  have hs1 : s.Keeps s1 := .trans (State.countDepart_keeps ..) (State.clearDrop_keeps ..)
  have hs2 : s.Keeps s2 := by
    unfold s2
    split
    · exact hs1.trans (State.meshBump_keeps ..)
    · exact hs1
  refine .ite (.trans (hs2.trans (State.deliver_keeps ..)) (State.noteDepth_keeps ..)) ?_
  split
  · extract_lets s3 _
    have hs3 : s.Keeps s3 := hs2.trans (State.setPacket_keeps ..)
    exact .trans (.trans (.ite (hs3.trans (State.splitMcast_keeps ..)) (hs3.trans (State.noteMax_keeps ..))) (State.noteDepth_keeps ..))
        (State.noteDepth_keeps ..)
  · split
    · exact hs2
    · exact .trans (hs2.trans (State.setPacket_keeps ..)) (State.noteDepth_keeps ..)

theorem State.crossSeam_keeps (s : State) (w r inPort k : Nat) (x : Packet) : s.Keeps (s.crossSeam w r inPort k x) := by
  unfold State.crossSeam
  exact .ite (State.setPacket_keeps ..) (.trans (State.setPacket_keeps ..) (State.noteDepth_keeps ..))

theorem State.dropBranch_keeps (s : State) (k : Nat) (x : Packet) : s.Keeps (s.dropBranch k x) := by
  unfold State.dropBranch
  split
  · extract_lets _ _ _ _ s3 _ _ s5
    have hs3 : s.Keeps s3 := .trans (.trans (State.meshBump_keeps ..) (State.tellSource_keeps ..)) (State.setPacket_keeps ..)
    have hs5 : s.Keeps s5 := by
      unfold s5
      refine .ite ?_ hs3
      refine .trans (hs3.trans (.fields ..)) (.foldl (fun _ _ => ?_) _ _)
      split
      · refine .ite ?_ (.refl _)
        exact .ite (.trans (State.setPacket_keeps ..) (State.clearDrop_keeps ..)) (State.setPacket_keeps ..)
      · exact .refl _
    exact hs5.trans (State.noteDepth_keeps ..)
  · exact .refl _

theorem execRouterForward_keeps (h : Hop) (s : State) : s.KeptBy (execRouterForward h s) := by
  unfold execRouterForward
  split
  · extract_lets _ s1 _ _ _ _
    have hs1 : s.Keeps s1 := State.advanceTo_keeps ..
    refine .ite (.next (.refl _)) ?_
    refine .ite (.next (hs1.trans (.foldl (fun _ _ => State.dropBranch_keeps ..) _ _))) ?_
    split
    · extract_lets s2 s3 _
      have hs2 : s.Keeps s2 := hs1.trans (State.noteBlocked_keeps ..)
      have hs3 : s.Keeps s3 := .ite (hs2.trans (State.meshBump_keeps ..)) hs2
      split
      · exact .next (hs2.trans (State.advanceTo_keeps ..))
      · exact .next (.trans (.ite (hs3.trans (.fields ..)) hs3) (State.moveOn_keeps ..))
  · extract_lets _ _ s1 _
    have hs1 : s.Keeps s1 := State.advanceTo_keeps ..
    refine .ite (.next (.refl _)) ?_
    refine .ite (.next (.foldl (fun _ _ => State.discard_keeps ..) _ _)) ?_
    split
    · exact .next hs1
    · split
      · split
        · exact .ite (.next (hs1.trans (State.crossSeam_keeps ..))) (.next (hs1.trans (State.crossSeam_keeps ..)))
        · exact .next hs1
      · exact .next hs1
  · extract_lets _ _ _ _ _ _ s1 _
    have hs1 : s.Keeps s1 := State.advanceTo_keeps ..
    refine .ite (.next (.foldl (fun _ _ => State.discard_keeps ..) _ _)) ?_
    refine .ite ?_ ?_
    · split
      next h =>
        split
        · extract_lets s'
          have hs' : s.Keeps s' := .trans ((State.freeNat_keeps ..).snd h) (State.advanceTo_keeps ..)
          split
          · exact .next hs'
          · exact .next (hs'.trans (State.crossSeam_keeps ..))
    · refine .ite (.next (.refl _)) ?_
      refine .ite ?_ ?_
      · split
        · exact .next hs1
        · exact .next (hs1.trans (State.deliver_keeps ..))
      · split
        · exact .next hs1
        · split
          · exact .next hs1
          · exact .next (hs1.trans (State.setPacket_keeps ..))

theorem execEscapeEntry_keeps (pkt : Nat) (s : State) : s.KeptBy (execEscapeEntry pkt s) := by
  unfold execEscapeEntry
  split
  · exact .next (.refl _)
  · split
    · exact .next (.refl _)
    · extract_lets s1 s2 s3
      have hs1 : s.Keeps s1 := State.advanceTo_keeps ..
      have hs2 : s.Keeps s2 := hs1.trans (State.enterEscape_keeps ..)
      have hs3 : s.Keeps s3 := by
        unfold s3
        split
        · exact hs2.trans (State.noteDepth_keeps ..)
        · exact hs2
      refine .ite (.next hs1) ?_
      refine .ite ?_ ?_
      · split
        · exact .next (.trans (hs1.trans (State.advanceTo_keeps ..)) (State.meshBump_keeps ..))
        · exact .next hs1
      · split
        · exact .next (hs3.trans (State.dropIfFenced_keeps ..))
        · exact .next hs3

theorem execMcastBranchDrop_keeps (pkt : Nat) (s : State) : s.KeptBy (execMcastBranchDrop pkt s) := by
  unfold execMcastBranchDrop
  split
  · exact .next (.refl _)
  · split
    · exact .ite (.next (.refl _)) (.next (.trans (State.advanceTo_keeps ..) (State.dropBranch_keeps ..)))
    · exact .next (.refl _)

theorem execMulticastWrite_keeps (arr : Nat) (s : State) : s.KeptBy (execMulticastWrite arr s) := by
  unfold execMulticastWrite
  split
  · exact .next (.refl _)
  · split
    · refine .ite (.next (.refl _)) ?_
      extract_lets _ s1 _ _ _ _ done hold refuse
      have hs1 : s.Keeps s1 := State.advanceTo_keeps ..
      have hdone : ∀ s2 st1, State.Keeps s2 (done s2 st1) := by
        intro s2 st1
        unfold done
        extract_lets _ _ _ s3 _ _ s5 _ s6
        have hs3 : s2.Keeps s3 := by
          unfold s3
          split
          · exact State.meshBump_keeps ..
          · exact .refl _
        have hs5 : s2.Keeps s5 :=
          .trans (.trans (.trans (hs3.trans (.fields ..)) (State.countDepart_keeps ..)) (State.clearDrop_keeps ..))
            (State.setPacket_keeps ..)
        have hs6 : s2.Keeps s6 := .ite (.trans (hs5.trans (.fields ..)) (State.tellSource_keeps ..)) (hs5.trans (.fields ..))
        exact hs6.trans (State.noteDepth_keeps ..)
      have hhold : ∀ s2, State.Keeps s2 (hold s2) := fun s2 => State.modPacket_keeps ..
      have hrefuse : ∀ s2 cause1 w1, State.Keeps s2 (refuse s2 cause1 w1) :=
        fun s2 cause1 w1 => .trans (State.refuseWrite_keeps ..) (hdone _ _)
      refine .ite (.next hs1) ?_
      refine .ite (.next (hs1.trans (State.dropBranch_keeps ..))) ?_
      refine .ite (.next (.trans (hs1.trans (State.modBank_keeps ..)) (hdone _ _))) ?_
      split
      · exact .ite (.next (hs1.trans (hhold _))) (.next (hs1.trans (hrefuse _ _ _)))
      · exact .ite (.next (hs1.trans (hhold _))) (.ite (.next (hs1.trans (hrefuse _ _ _)))
            (.ite (.next (hs1.trans (hrefuse _ _ _))) (.ite (.next (.trans (.trans (hs1.trans (State.modSpad_keeps _ _ _ id))
            (State.modBank_keeps ..)) (hdone _ _))) (.next (hs1.trans (hhold _))))))
    · exact .next (.refl _)

/-! Links. -/

theorem State.fenceLink_keeps (s : State) (l : Nat) : s.Keeps (s.fenceLink l) :=
  .ite (.refl _) (.fields ..)

theorem State.purgeLink_keeps (s : State) (l : Nat) : s.Keeps (s.purgeLink l) := by
  unfold State.purgeLink
  refine .foldl (fun _ _ => ?_) _ _
  exact .ite (State.discard_keeps ..) (.refl _)

/-! The launcher, the instruction cache, and the cancellation of a tick's work (R39, R42, R49, R50, R54, R57). -/

theorem State.dropLaunch_keeps (s : State) (p : Nat) (l : Launch) : s.Keeps (s.dropLaunch p l) := by
  unfold State.dropLaunch
  exact .trans (.trans (.trans (.trans (State.eccRead_keeps ..) (State.bump_keeps ..)) (State.modCore_keeps _ _ _ id))
      (State.notice_keeps ..)) (State.raiseCore_keeps ..)

theorem execTaskLaunch_keeps (c : CoreIx) (s : State) : s.KeptBy (execTaskLaunch c s) := by
  unfold execTaskLaunch
  extract_lets
  split
  · refine .ite (.next (.refl _)) ?_
    refine .ite (.next (.trans (State.modCore_keeps _ _ _ id) (State.dropLaunch_keeps ..))) ?_
    extract_lets
    split
    · exact .next (.refl _)
    · extract_lets s2 _
      have hs2 : s.Keeps s2 := .trans (State.modCore_keeps _ _ _ id) (State.modSlot_keeps ..)
      exact .ite (.next (hs2.trans (State.takeFault_keeps ..))) (.next (.trans
          (.trans (hs2.trans (State.modSlot_keeps ..)) (State.requestUp_keeps ..)) (State.tryLoad_keeps ..)))
  · exact .next (.refl _)

/-! The instruction cache (R42). -/

theorem execIcinv_keeps (c : CoreIx) (s : State) : s.KeptBy (execIcinv c s) :=
  .next (State.modCore_keeps _ _ _ id)

theorem execIcacheInvalidationDone_keeps (c : CoreIx) (s : State) : s.KeptBy (execIcacheInvalidationDone c s) :=
  .when (State.modCore_keeps _ _ _ id)

theorem State.installLine_keeps (s : State) (p line : Nat) (data : List Byte) : s.Keeps (s.installLine p line data) := by
  unfold State.installLine
  split
  next h =>
    exact .trans ((State.freeNat_keeps ..).snd h) (State.modCore_keeps _ _ _ id)

theorem execInstructionCacheFill_keeps (a : At) (err : Symbols) (s : State) : s.KeptBy (execInstructionCacheFill a err s) := by
  unfold execInstructionCacheFill
  extract_lets p i _
  refine .ite (.next (.refl _)) ?_
  split
  · exact .next (.refl _)
  split
  · split
    · exact .next (.refl _)
    split
    · exact .next (.refl _)
    next h =>
    have hs1 := (State.readLine_keeps ..).of_eq h
    refine .ite (.next (hs1.trans (State.installLine_keeps ..))) (.ite (.next hs1) (.ite (.next (.refl _)) ?_))
    extract_lets s2
    have hs2 : s.Keeps s2 := hs1.trans (State.advanceTo_keeps ..)
    refine .next (.trans (hs2.trans (State.modCore_keeps _ _ _ fun h => ?_)) (State.takeFault_keeps ..))
    rwa [Core.beginIssue_bytes]
  · exact .next (.refl _)

theorem execLaunchEn_keeps (c : CoreIx) (en : Bool) (s : State) : s.KeptBy (execLaunchEn c en s) :=
  .next (State.setFld_keeps ..)

theorem execTaskFaultValidClear_keeps (a : At) (s : State) : s.KeptBy (execTaskFaultValidClear a s) :=
  .next (State.modSlot_keeps ..)

/-! Reads and writes of the panel by its edge dies. -/

theorem State.freeEcc_keeps (s : State) : s.Keeps s.freeEcc.2 := by
  unfold State.freeEcc
  split
  next h =>
    exact (State.freeNat_keeps ..).snd h

theorem State.edgeCredit_keeps (s : State) (p o n ext : Nat) (who : Requester) :
    s.KeptIn (fun r => r.1) (s.edgeCredit p o n ext who) := by
  unfold State.edgeCredit
  extract_lets
  split
  extract_lets
  split
  · exact .some (State.nack_keeps ..)
  split
  · exact .some (State.nack_keeps ..)
  split
  next h => exact .some (State.Keeps.granted h)
  · exact .none

theorem State.edgeLand_keeps (s : State) (p o : Nat) (bs : List Byte) (grant : Option GrantRef) : s.Keeps (s.edgeLand p o bs grant) := by
  unfold State.edgeLand
  extract_lets
  split
  next h =>
  exact .trans (.trans (.trans ((State.Keeps.sndIte (State.freeEcc_keeps _) (.refl s)).snd h) (State.useBank_keeps ..))
    (State.landRemote_keeps ..)) (State.settle_keeps ..)

theorem State.edgeWriteOf_keeps (s : State) (e a : Nat) (bs : List Byte) (ext : Nat) :
    s.KeptIn (fun r => r.2) (s.edgeWriteOf e a bs ext) := by
  unfold State.edgeWriteOf
  split
  · split
    · exact .some (.refl _)
    split
    next h => exact State.Keeps.keptIn ((State.Keeps.sndIte (.refl s) (State.freeFinding_keeps _)).snd h) (State.writeBytes_keeps ..)
  · split
    · exact .some (.refl _)
    refine .ite (.some (State.edgeLand_keeps ..)) ?_
    split
    · exact .ite (.some (State.edgeLand_keeps ..)) .none
    split
    · exact .none
    next h => exact .some ((State.edgeCredit_keeps ..).of_eq h)
    next h => exact .ite (.some (.trans ((State.edgeCredit_keeps ..).of_eq h) (State.edgeLand_keeps ..))) .none
  · exact .some (.refl _)

theorem State.edgeWrite_keeps (s : State) (e a : Nat) (bs : List Byte) : s.Keeps (s.edgeWrite e a bs) := by
  unfold State.edgeWrite
  split
  next h =>
    exact (State.edgeWriteOf_keeps ..).of_eq h
  · exact .fields ..

theorem State.retryEdge_keeps (s : State) : s.Keeps s.retryEdge := by
  unfold State.retryEdge
  refine .trans ?_ (.foldl (fun _ _ => State.edgeWrite_keeps ..) _ _)
  exact .fields ..

theorem State.edgeReadLine_keeps (s : State) (a n : Nat) (dbl : Bool) : s.KeptIn (fun r => r.2.2) (s.edgeReadLine a n dbl) := by
  unfold State.edgeReadLine
  split
  · split
    · exact .some (.refl _)
    split
    next h => exact State.Keeps.keptIn ((State.freeBit_keeps ..).snd h) (State.readLine_keeps ..)
  · split
    · exact .some (.refl _)
    refine .ite (.some (State.readOffBank_keeps ..)) (.ite .none ?_)
    split
    next h =>
    extract_lets _ s2
    have hs2 : s.Keeps s2 := .trans (.trans ((State.freeEcc_keeps ..).snd h) (State.useBank_keeps ..)) (State.eccRead_keeps ..)
    exact .ite (.some hs2) (.some hs2)
  · exact .some (.refl _)

theorem State.edgeRead_keeps (s : State) (a n : Nat) (dbl : Bool) : s.KeptIn (fun r => r.2.2) (s.edgeRead a n dbl) := by
  unfold State.edgeRead
  extract_lets
  split
  · exact .none
  next s1 h =>
  have hs1 : s.Keeps s1 := (State.edgeReadLine_keeps ..).of_eq h
  refine .ite (.some hs1) ?_
  split
  · exact .none
  next s2 h2 =>
  have hs2 : s1.Keeps s2 := (State.edgeReadLine_keeps ..).of_eq h2
  exact .some (hs1.trans hs2)

theorem execHeldRequestGrant_keeps (c : CoreIx) (s : State) : s.KeptBy (execHeldRequestGrant c s) := by
  unfold execHeldRequestGrant
  split
  next h =>
    exact .next ((State.serveHeld_keeps ..).of_eq h)
  · exact .next (State.retryEdge_keeps ..)

/-! What the matrix unit and the vector engine share. -/

theorem State.engTurn_keeps (s : State) (p b : Nat) : s.Keeps (s.engTurn p b) :=
  .trans (State.useBank_keeps ..) (State.missP6_keeps ..)

theorem State.engRead_keeps (s : State) (p : Nat) (x : Nat × Nat) (err : EccErr) : s.Keeps (s.engRead p x err).1 := by
  unfold State.engRead
  exact .trans (State.touchPlain_keeps ..) (State.eccRead_keeps ..)

theorem State.tap_keeps (s : State) (p tick hsel : Nat) (bins : List Nat) : s.Keeps (s.tap p tick hsel bins) :=
  .ite (State.modCore_keeps _ _ _ id) (.refl _)

theorem State.stalls_keeps (s : State) (p off limit : Nat) : s.Keeps (s.stalls p off limit) := by
  unfold State.stalls
  split
  next h =>
    extract_lets s2
    have hs2 : s.Keeps s2 := .trans ((State.freeNat_keeps ..).snd h) (State.bump_keeps ..)
    refine .ite hs2 ?_
    split
    next h1 =>
      exact .trans (hs2.trans ((State.freeNat_keeps ..).snd h1)) (State.bump_keeps ..)

theorem State.modMxuHead_keeps (s : State) (p : Nat) (f : EngDesc → EngDesc) : s.Keeps (s.modMxuHead p f) :=
  State.modCore_keeps _ _ _ id

theorem State.modVecHead_keeps (s : State) (p : Nat) (f : EngDesc → EngDesc) : s.Keeps (s.modVecHead p f) :=
  State.modCore_keeps _ _ _ id

theorem State.mxuDone_keeps (s : State) (p : Nat) (st : Status) (flags : Nat) : s.Keeps (s.mxuDone p st flags) :=
  State.modMxuHead_keeps ..

theorem State.vecDone_keeps (s : State) (p : Nat) (st : Status) : s.Keeps (s.vecDone p st) :=
  State.modVecHead_keeps ..

/-! Stage words (R165). -/

theorem State.grantVxi_keeps (s : State) (p i : Nat) (m : MemOp) (err : EccErr) : s.Keeps (s.grantVxi p i m err) := by
  unfold State.grantVxi
  refine State.grantEngine_keeps _ _ _ _ _ _ _ ?_
  intro x1 x x2 x3
  exact State.modCore_keeps _ _ _ id

/-! Parameters (R168). -/

theorem State.modVec_keeps (s : State) (p : Nat) (f : Vec → Vec) : s.Keeps (s.modVec p f) :=
  State.modCore_keeps _ _ _ id

/-! Groups (R163). -/

theorem State.scaleNotice_keeps (s : State) (p : Nat) (d : EngDesc) : s.Keeps (s.scaleNotice p d) := by
  unfold State.scaleNotice
  exact .trans (State.setReg_keeps ..) (State.modCore_keeps _ _ _ id)

theorem State.groupDone_keeps (s : State) (p : Nat) (d : EngDesc) : s.Keeps (s.groupDone p d) := by
  unfold State.groupDone
  extract_lets _ _ _ _ _ _ s2 _
  have hs2 : s.Keeps s2 := .trans (.ite (State.scaleNotice_keeps ..) (.refl _)) (State.tap_keeps ..)
  exact .trans (.ite hs2 (hs2.trans (State.modVec_keeps ..))) (State.modVecHead_keeps ..)

theorem State.vecFail_keeps (s : State) (p : Nat) (d : EngDesc) : s.Keeps (s.vecFail p d) := by
  unfold State.vecFail
  exact .trans (.ite (.refl _) (State.modVec_keeps ..)) (State.vecDone_keeps ..)

theorem State.groupOver_keeps (s : State) (p : Nat) : s.Keeps (s.groupOver p) := by
  unfold State.groupOver
  split
  · exact .refl _
  · exact .ite (State.groupDone_keeps ..) (.refl _)

theorem State.vecAccess_keeps (s : State) (p : Nat) (err : EccErr) : s.Keeps (s.vecAccess p err) := by
  unfold State.vecAccess
  extract_lets
  split
  · exact .refl _
  · extract_lets s1
    have hs1 : s.Keeps s1 := .ite (State.bump_keeps ..) (.refl _)
    split
    · split
      next h2 =>
        refine .ite (.trans (hs1.trans ((State.engRead_keeps ..).fst h2)) (State.vecFail_keeps ..)) ?_
        exact .ite (.trans (.trans (hs1.trans ((State.engRead_keeps ..).fst h2)) (State.modVec_keeps ..)) (State.modVecHead_keeps ..))
            (.trans (.trans (hs1.trans ((State.engRead_keeps ..).fst h2)) (State.modVecHead_keeps ..)) (State.groupOver_keeps ..))
    · split
      · exact hs1
      · exact .trans (.trans (hs1.trans (State.spadMerge_keeps ..)) (State.modVecHead_keeps ..)) (State.groupOver_keeps ..)

theorem State.vecRun_keeps (p : Nat) (err : StreamErr) (n : Nat) (s : State) : s.Keeps (State.vecRun p err n s) := by
  induction n generalizing s with
  | zero => exact .refl s
  | succ n ih =>
    unfold State.vecRun
    split
    · exact .ite (.refl s) (.trans (.trans (State.engTurn_keeps ..) (State.vecAccess_keeps ..)) (ih _))
    split
    · exact .refl s
    · exact .ite (.trans (.trans (State.bump_keeps ..) (State.groupDone_keeps ..)) (ih _)) (.refl s)

theorem execChain_keeps (c : CoreIx) (err : StreamErr) (s : State) : s.KeptBy (execChain c err s) := by
  unfold execChain
  extract_lets
  split
  · exact .next (.refl _)
  · refine .ite (.next (State.vecDone_keeps ..)) ?_
    extract_lets s1
    have hs1 : s.Keeps s1 := State.vecRun_keeps ..
    split
    · exact .next (hs1.trans (State.stalls_keeps ..))
    · exact .ite (.next hs1) (.next (.trans (hs1.trans (State.stalls_keeps ..)) (State.vecDone_keeps ..)))

theorem State.loadParams_keeps (s : State) (p : Nat) (d : EngDesc) : s.Keeps (s.loadParams p d) :=
  State.modVec_keeps ..

theorem execLdparam_keeps (c : CoreIx) (err : StreamErr) (s : State) : s.KeptBy (execLdparam c err s) := by
  unfold execLdparam
  extract_lets _ s1
  have hs1 : s.Keeps s1 := State.vecRun_keeps ..
  split
  · exact .next (.refl _)
  · split
    · exact .next hs1
    · exact .ite (.next hs1) (.next (.trans (hs1.trans (State.loadParams_keeps ..)) (State.vecDone_keeps ..)))

theorem execLdtile_keeps (c : CoreIx) (err : StreamErr) (s : State) : s.KeptBy (execLdtile c err s) := by
  unfold execLdtile
  extract_lets
  split
  · exact .next (.refl _)
  · extract_lets s1
    have hs1 : s.Keeps s1 := State.vecRun_keeps ..
    split
    · exact .next hs1
    · exact .ite (.next hs1) (.next (.trans (hs1.trans (State.modVec_keeps ..)) (State.vecDone_keeps ..)))

theorem State.forceGroup_keeps (p n : Nat) (s : State) : s.Keeps (State.forceGroup p n s) := by
  induction n generalizing s with
  | zero => exact .refl s
  | succ n ih =>
    unfold State.forceGroup
    split
    · exact .refl s
    · exact .ite (.refl s) ((State.vecAccess_keeps ..).trans (ih _))

theorem State.finishGroup_keeps (p : Nat) (s : State) : s.Keeps (State.finishGroup p s) := by
  unfold State.finishGroup
  split
  · exact .ite (.refl _) (State.loadParams_keeps ..)
  · exact State.forceGroup_keeps ..

/-! Descriptor fields (R144). -/

theorem State.grantMxi_keeps (s : State) (p i : Nat) (m : MemOp) (err : EccErr) : s.Keeps (s.grantMxi p i m err) := by
  unfold State.grantMxi
  refine State.grantEngine_keeps _ _ _ _ _ _ _ ?_
  intro x1 x x2 x3
  exact State.modCore_keeps _ _ _ id

/-! Tiles (R142, R145). -/

theorem State.modMxu_keeps (s : State) (p : Nat) (f : Mxu → Mxu) : s.Keeps (s.modMxu p f) :=
  State.modCore_keeps _ _ _ id

/-! Streams (R147, R156). -/

theorem State.mxuBusy_keeps (s : State) (p : Nat) (d : EngDesc) : s.Keeps (s.mxuBusy p d) := by
  unfold State.mxuBusy
  exact .ite (State.bump_keeps ..) (.refl _)

theorem State.mxuFail_keeps (s : State) (p : Nat) (d : EngDesc) (can : Nat) : s.Keeps (s.mxuFail p d can) := by
  unfold State.mxuFail
  split
  next h =>
    exact .trans (.trans (.trans (State.mxuBusy_keeps ..) ((State.freeNat_keeps ..).snd h)) (State.modMxu_keeps ..))
        (State.mxuDone_keeps ..)

theorem State.mxuAccess_keeps (s : State) (p : Nat) (err : EccErr) : s.Keeps (s.mxuAccess p err) := by
  unfold State.mxuAccess
  extract_lets
  split
  · exact .refl _
  · split
    · exact .refl _
    · refine .ite (.trans (.trans (State.touchPlain_keeps ..) (State.spadWrite_keeps ..)) (State.modMxuHead_keeps ..)) ?_
      split
      next h2 =>
        exact .ite (.trans ((State.engRead_keeps ..).fst h2) (State.mxuFail_keeps ..))
            (.trans ((State.engRead_keeps ..).fst h2) (State.modMxuHead_keeps ..))

theorem State.mxuRun_keeps (p : Nat) (err : StreamErr) (n : Nat) (s : State) : s.Keeps (State.mxuRun p err n s) := by
  induction n generalizing s with
  | zero => exact .refl s
  | succ n ih =>
    unfold State.mxuRun
    split
    · exact .refl s
    · exact .ite (.refl s) (.trans (.trans (State.engTurn_keeps ..) (State.mxuAccess_keeps ..)) (ih _))

theorem State.mxuStream_keeps (s : State) (p op : Nat) (err : StreamErr) : s.Keeps (s.mxuStream p op err).1 := by
  unfold State.mxuStream
  split
  · exact .refl _
  · extract_lets _ s1
    have hs1 : s.Keeps s1 := State.mxuRun_keeps ..
    split
    · exact hs1
    · split
      · exact hs1
      · exact hs1

/-! MMA (R148, R153). -/

theorem State.mmaResult_keeps (s : State) (p : Nat) (d : EngDesc) : s.Keeps (s.mmaResult p d) := by
  unfold State.mmaResult
  exact .trans (State.modMxu_keeps ..) (State.mxuDone_keeps ..)

theorem execMma_keeps (c : CoreIx) (err : StreamErr) (s : State) : s.KeptBy (execMma c err s) := by
  unfold execMma
  extract_lets
  split
  next h =>
    exact .next ((State.mxuStream_keeps ..).fst h)
  next h =>
    exact .next (.trans (.trans (.trans ((State.mxuStream_keeps ..).fst h) (State.bump_keeps ..)) (State.stalls_keeps ..))
        (State.mmaResult_keeps ..))

/-! The other operations (R154, R155). -/

theorem execZacc_keeps (c : CoreIx) (s : State) : s.KeptBy (execZacc c s) := by
  unfold execZacc
  extract_lets
  split
  · exact .next (.refl _)
  · exact .next (.trans (State.modMxu_keeps ..) (State.mxuDone_keeps ..))

theorem execLdacc_keeps (c : CoreIx) (err : StreamErr) (s : State) : s.KeptBy (execLdacc c err s) := by
  unfold execLdacc
  extract_lets
  split
  next h =>
    exact .next ((State.mxuStream_keeps ..).fst h)
  next h =>
    exact .next (.trans (.trans ((State.mxuStream_keeps ..).fst h) (State.modMxu_keeps ..)) (State.mxuDone_keeps ..))

theorem execAddacc_keeps (c : CoreIx) (err : StreamErr) (s : State) : s.KeptBy (execAddacc c err s) := by
  unfold execAddacc
  extract_lets
  split
  next h =>
    exact .next ((State.mxuStream_keeps ..).fst h)
  next h =>
    exact .next (.trans (.trans ((State.mxuStream_keeps ..).fst h) (State.modMxu_keeps ..)) (State.mxuDone_keeps ..))

theorem execStacc_keeps (c : CoreIx) (err : StreamErr) (s : State) : s.KeptBy (execStacc c err s) := by
  unfold execStacc
  extract_lets
  split
  · exact .next (.refl _)
  · refine .ite (.next (State.mxuDone_keeps ..)) ?_
    split
    next h1 =>
      exact .next ((State.mxuStream_keeps ..).fst h1)
    next h1 =>
      exact .next (.trans (.trans ((State.mxuStream_keeps ..).fst h1) (State.tap_keeps ..)) (State.mxuDone_keeps ..))

/-! Cancellation of the work of a tick (R54, R158, R178). -/

theorem State.engineCancelled_keeps (s : State) (p cnt err : Nat) (d : EngDesc) : s.Keeps (s.engineCancelled p cnt err d) :=
  .trans (.trans (State.engineDone_keeps ..) (State.touchPlain_keeps ..)) (State.spadWrite_keeps ..)

theorem State.cancelMatrix_keeps (s : State) (p tick : Nat) : s.Keeps (s.cancelMatrix p tick) :=
  .foldl (fun _ _ => .trans (.trans (.ite (State.mxuBusy_keeps ..) (.refl _)) (State.modCore_keeps _ _ _ id))
      (State.engineCancelled_keeps ..)) _ _

theorem State.cancelVector_keeps (s : State) (p tick : Nat) {finish : State → State} (h : s.Keeps (finish s)) :
    s.Keeps (s.cancelVector p tick finish) := by
  unfold State.cancelVector
  refine .trans (.ite h (.refl _)) (.foldl (fun _ _ => ?_) _ _)
  exact .trans (.ite (.refl _) (State.modCore_keeps _ _ _ id)) (State.engineCancelled_keeps ..)

theorem State.cancelDma_keeps (s : State) (p tick : Nat) : s.Keeps (s.cancelDma p tick) := by
  unfold State.cancelDma
  refine .foldl (fun x _ => ?_) _ _
  extract_lets s1 _
  have hs1 : x.Keeps s1 := .trans (State.touchPlain_keeps ..) (State.spadWrite_keeps ..)
  exact .trans (.trans (.ite (hs1.trans (State.forgetStream_keeps ..)) hs1) (State.modDma_keeps ..)) (State.endStopping_keeps ..)

theorem State.cancelDescs_keeps (s : State) (p tick : Nat) : s.Keeps (s.cancelDescs p tick) := by
  unfold State.cancelDescs
  extract_lets s1
  have hs1 : s.Keeps s1 :=
    .trans ((State.cancelMatrix_keeps ..).trans (State.cancelVector_keeps _ _ _ (State.finishGroup_keeps ..))) (State.cancelDma_keeps ..)
  exact hs1.trans (State.modCore_keeps_of_spad _ _ fun _ => rfl)

theorem State.cancelSlot_keeps (s : State) (p i : Nat) : s.Keeps (s.cancelSlot p i) := by
  unfold State.cancelSlot
  extract_lets _ _ s3 _
  have hs3 : s.Keeps s3 := .trans (.trans (State.modSlot_keeps ..) (State.modSpad_keeps _ _ _ id)) (State.closeOwned_keeps ..)
  exact .ite (.trans (hs3.trans (State.modSlot_keeps ..)) (State.uncover_keeps ..)) hs3

theorem State.cancelTick_keeps (s : State) (p tick : Nat) : s.Keeps (s.cancelTick p tick) := by
  unfold State.cancelTick
  refine .trans (.trans (State.modCore_keeps _ _ _ id) (State.cancelDescs_keeps ..)) (.foldl (fun _ _ => ?_) _ _)
  exact .ite (State.cancelSlot_keeps ..) (.refl _)

/-! Snapshots of telemetry. -/

theorem State.telBoundary_keeps (s : State) (stopped : Bool) : s.Keeps (s.telBoundary stopped) := by
  unfold State.telBoundary
  exact .ite (.trans (.fields ..) (State.bump_keeps ..)) (.fields ..)

/-! A die that has not written in time goes on with its interval (R478). -/

theorem State.telResume_keeps (s : State) (data : TelData) (sites : List Nat) : s.Keeps (s.telResume data sites) := by
  unfold State.telResume
  extract_lets _ s1
  have hs1 : s.Keeps s1 := .foldl (fun _ _ => State.telSet_keeps ..) _ _
  refine .trans hs1 (.foldl (fun _ _ => ?_) _ _)
  exact .fields ..

/-! Transfer contexts. -/

theorem State.modCtx_keeps (s : State) (c : Nat) (f : XCtx → XCtx) : s.Keeps (s.modCtx c f) :=
  .fields ..

/-! DRAM accesses of contexts (R323). -/

theorem State.ctxIssue_keeps (s : State) (c : Nat) (l : XLine) : s.Keeps (s.ctxIssue c l) := by
  unfold State.ctxIssue
  split
  · exact State.modCtx_keeps ..
  · exact .trans (State.modCtx_keeps ..) (State.newPacket_keeps ..)

theorem State.ctxPump_keeps (s : State) (c fuel : Nat) : s.Keeps (s.ctxPump c fuel) := by
  induction fuel generalizing s with
  | zero => exact .refl s
  | succ fuel ih =>
    unfold State.ctxPump
    extract_lets x
    refine .ite (.refl s) ?_
    split
    · exact .refl s
    · exact .ite (.refl s) (.trans (.trans (State.modCtx_keeps ..) (State.ctxIssue_keeps ..)) (ih _))

theorem State.addPost_keeps (s : State) (c len src off done : Nat) (stamp : Option (Nat × Nat)) (command : Bool) :
    s.Keeps (s.addPost c len src off done stamp command) := by
  unfold State.addPost
  exact .trans (State.modCtx_keeps ..) (State.ctxPump_keeps ..)

/-! The tick generator's decisions (R238–R251). -/

theorem State.modGen_keeps (s : State) (f : TickGen → TickGen) : s.Keeps (s.modGen f) :=
  .fields ..

theorem State.modRun_keeps (s : State) (tick : Nat) (f : TickRun → TickRun) : s.Keeps (s.modRun tick f) :=
  State.modGen_keeps ..

/-! Systems of panels (R315, R318). -/

theorem State.ownAbort_keeps (s : State) (tick att cause : Nat) (raise : Option Nat) : s.Keeps (s.ownAbort tick att cause raise) := by
  unfold State.ownAbort
  refine .ite ?_ (.refl _)
  exact .fields ..

/-! Schedule positions (R238). -/

theorem State.setReady_keeps (s : State) (t : Nat) : s.Keeps (s.setReady t) :=
  State.modGen_keeps ..

theorem State.clearReady_keeps (s : State) : s.Keeps s.clearReady :=
  State.modGen_keeps ..

theorem State.settleState_keeps (s : State) : s.Keeps s.settleState :=
  .ite (State.modGen_keeps ..) (.refl _)

/-! Done marks and reset copies (R254, R255). -/

theorem State.dropMarks_keeps (s : State) (tick : Nat) : s.Keeps (s.dropMarks tick) :=
  .fields ..

/-! Abandon (R245). -/

theorem State.recordAbandon_keeps (s : State) (t : TickRun) (c : Cause) (discard : Bool) : s.Keeps (s.recordAbandon t c discard) := by
  unfold State.recordAbandon
  extract_lets _ s2 _ _ _
  have hs2 : s.Keeps s2 := .trans (State.setReg_keeps ..) (State.bump_keeps ..)
  exact .trans (.trans (.ite (hs2.trans (State.bump_keeps ..)) hs2) (State.telBump_keeps ..)) (.fields ..)

theorem State.abandon_keeps (s : State) (tick : Nat) (c : Cause) (raise : Option Nat) (inj : Bool) :
    s.Keeps (s.abandon tick c raise inj) := by
  unfold State.abandon
  split
  · exact .refl _
  · refine .ite (.refl _) ?_
    extract_lets _ _ _ s2 _ s3 _ _ s5 _ s6 s7
    have hs2 : s.Keeps s2 :=
      .trans (.trans (.trans (State.modGen_keeps ..) (State.clearReady_keeps ..)) (State.recordAbandon_keeps ..)) (State.dropMarks_keeps ..)
    have hs3 : s.Keeps s3 := hs2.trans (.fields ..)
    have hs5 : s.Keeps s5 := .trans (.ite (hs3.trans (.fields ..)) hs3) (State.raise_keeps ..)
    have hs6 : s.Keeps s6 := by
      unfold s6
      refine .ite (.ite hs5 (hs5.trans (State.ownAbort_keeps ..))) ?_
      split
      · exact hs5.trans (.fields ..)
      · exact hs5
    have hs7 : s.Keeps s7 :=
      .ite (.trans (.trans (hs6.trans (State.modGen_keeps ..)) (State.raise_keeps ..)) (State.tickWaiters_keeps ..)) hs6
    exact hs7.trans (State.sendClass0_keeps ..)

theorem State.abandonOldest_keeps (s : State) (c : Cause) (inj : Bool) : s.Keeps (s.abandonOldest c inj) := by
  unfold State.abandonOldest
  split
  · exact .refl _
  · exact State.abandon_keeps ..

/-! Commit (R247). -/

theorem State.ownRecord_keeps (s : State) (type tick att : Nat) (nora : Bool) : s.Keeps (s.ownRecord type tick att nora) := by
  unfold State.ownRecord
  refine .ite ?_ (.refl _)
  exact .fields ..

theorem State.postDigest_keeps (s : State) (tick : Nat) : s.Keeps (s.postDigest tick) := by
  unfold State.postDigest
  extract_lets
  split
  · exact .refl _
  · exact .ite (.refl _) (.trans (State.dramWrite_keeps ..) (State.addPost_keeps ..))

theorem State.tryOffer_keeps (s : State) : s.Keeps s.tryOffer := by
  unfold State.tryOffer
  split
  · exact .refl _
  · extract_lets s1
    have hs1 : s.Keeps s1 := .ite (.trans (State.modRun_keeps ..) (State.postDigest_keeps ..)) (.refl _)
    exact .ite (.trans (hs1.trans (State.modRun_keeps ..)) (State.ownRecord_keeps ..)) hs1

theorem State.tryCommit_keeps (s : State) : s.Keeps s.tryCommit := by
  unfold State.tryCommit
  extract_lets s1
  have hs1 : s.Keeps s1 := State.tryOffer_keeps ..
  split
  · exact hs1
  · exact .ite (hs1.trans (State.abandon_keeps ..)) (.ite (.trans (hs1.trans (State.modRun_keeps ..)) (State.sendClass0_keeps ..)) hs1)

theorem State.haltTicking_keeps (s : State) : s.Keeps s.haltTicking :=
  .trans (.trans (State.modGen_keeps ..) (State.clearReady_keeps ..)) (State.tickWaiters_keeps ..)

/-! Start (R239, R249). -/

theorem State.startTick_keeps (s : State) (tick t0 : Nat) : s.Keeps (s.startTick tick t0) := by
  unfold State.startTick
  extract_lets _ _ _ _ _ _ s1 _ _ _ _
  have hs1 : s.Keeps s1 := State.modGen_keeps ..
  exact .trans (.ite (hs1.trans (State.bump_keeps ..)) hs1) (.fields ..)

theorem execStartTick_keeps (fixed eta : BitVec 16) (s : State) : s.KeptBy (execStartTick fixed eta s) := by
  unfold execStartTick
  split
  · exact .next (.refl _)
  · refine .ite (.next (.refl _)) ?_
    extract_lets
    split
    · exact .next (.refl _)
    · extract_lets s1 _
      have hs1 : s.Keeps s1 := State.advanceTo_keeps ..
      exact .next (.trans (.trans (.trans (.ite (hs1.trans (State.bump_keeps ..)) hs1) (State.clearReady_keeps ..))
          (State.startTick_keeps ..)) (State.setBudgets_keeps ..))

theorem execTickInEdge_keeps (s : State) : s.KeptBy (execTickInEdge s) := by
  unfold execTickInEdge
  split
  · exact .next (.refl _)
  · exact .when (State.modGen_keeps ..)

/-! Phases (R240, R241). -/

theorem execPhaseSend_keeps (tick : Nat) (s : State) : s.KeptBy (execPhaseSend tick s) := by
  unfold execPhaseSend
  split
  · exact .next (.refl _)
  · refine .ite (.next (.refl _)) ?_
    exact .next (.trans (.trans (State.advanceTo_keeps ..) (State.modRun_keeps ..)) (State.sendClass0_keeps ..))

theorem State.launchEdge_keeps (s : State) (tick att p : Nat) : s.Keeps (s.launchEdge tick att p) := by
  unfold State.launchEdge
  refine .foldl (fun _ _ => ?_) _ _
  split
  · exact .refl _
  · exact State.modCore_keeps _ _ _ id

theorem State.settleAll_keeps (s : State) : s.Keeps s.settleAll :=
  .foldl (fun _ _ => State.settle_keeps ..) _ _

theorem execPhase_keeps (s : State) : s.KeptBy (execPhase s) := by
  unfold execPhase
  split
  · extract_lets s1 _ _ _ s5 s6
    have hs1 : s.Keeps s1 := State.advanceTo_keeps ..
    have hs5 : s.Keeps s5 :=
      .trans (.trans (.trans (.trans (.ite (hs1.trans (State.modNodes_keeps ..)) hs1) (State.modGen_keeps ..)) (State.modRun_keeps ..))
        (State.launchEdge_keeps ..)) (State.settleAll_keeps ..)
    have hs6 : s.Keeps s6 := .ite (hs5.trans (.foldl (fun _ _ => State.tryVote_keeps ..) _ _)) hs5
    exact .next (hs6.trans (State.class0Done_keeps ..))
  · exact .next (.refl _)

/-! The vote and the end (R243). -/

theorem execRootVote_keeps (k : Fin 2) (s : State) : s.KeptBy (execRootVote k s) := by
  unfold execRootVote
  extract_lets
  split
  · exact .next (.refl _)
  · refine .ite (.next (.refl _)) ?_
    refine .ite (.next (State.abandon_keeps ..)) ?_
    refine .ite (.next (State.abandon_keeps ..)) ?_
    extract_lets s1 _ _ _
    have hs1 : s.Keeps s1 := State.modRun_keeps ..
    exact .ite (.next hs1) (.next (.trans (hs1.trans (State.setFld_keeps ..)) (State.bump_keeps ..)))

theorem execTickEnd_keeps (tick : Nat) (s : State) : s.KeptBy (execTickEnd tick s) := by
  unfold execTickEnd
  split
  · exact .next (.refl _)
  · split
    · exact .next (.refl _)
    · refine .ite (.next (.refl _)) ?_
      extract_lets _ _ s3 _ _ s4 _
      have hs3 : s.Keeps s3 := .trans (.trans (State.advanceTo_keeps ..) (State.modRun_keeps ..)) (State.ownRecord_keeps ..)
      have hs4 : s.Keeps s4 := .ite hs3 (hs3.trans (.fields ..))
      exact .next (.trans (.ite (hs4.trans (State.setReady_keeps ..)) hs4) (State.tryCommit_keeps ..))

theorem execOverrun_keeps (tick : Nat) (s : State) : s.KeptBy (execOverrun tick s) := by
  unfold execOverrun
  split
  · exact .next (.refl _)
  · split
    · exact .next (.refl _)
    · exact .when (.trans (State.advanceTo_keeps ..) (State.abandon_keeps ..))

theorem execCommitTimeout_keeps (tick : Nat) (s : State) : s.KeptBy (execCommitTimeout tick s) := by
  unfold execCommitTimeout
  split
  · exact .next (.refl _)
  · split
    · exact .next (.refl _)
    · exact .when (.trans (State.advanceTo_keeps ..) (State.abandon_keeps ..))

/-! Abandon takes effect (R54, R137, R228, R231, R245). -/

theorem State.cancelXposts_keeps (s : State) (tick : Nat) : s.Keeps (s.cancelXposts tick) := by
  unfold State.cancelXposts
  exact .fields ..

theorem execAbandon_keeps (s : State) : s.KeptBy (execAbandon s) := by
  unfold execAbandon
  split
  · extract_lets s1 ps s2 s3 s4 s5 s6 s7 s8 s9 gap s10 oldest ended s11
    have hs3 : s.Keeps s3 := by
      unfold s3 s2
      refine .trans ?_ (State.modNodes_keeps ..)
      refine .trans (State.advanceTo_keeps ..) (.foldl (fun _ _ => ?_) _ _)
      exact (State.cancelTick_keeps ..).trans (State.cancelTick_keeps ..)
    have hs4 : s.Keeps s4 := hs3.trans (State.mapCores_keeps _ fun _ _ h => h)
    have hs7 : s.Keeps s7 := .trans (.trans (.trans (hs4.trans (.fields ..)) (State.modGen_keeps ..)) (State.collAbandon_keeps ..))
      (State.cancelXposts_keeps ..)
    have hs10 : s.Keeps s10 := (hs7.trans (.fields ..)).trans (State.modGen_keeps ..)
    exact .next (.trans (.ite (hs10.trans (State.setReady_keeps ..)) hs10) (State.class0Done_keeps ..))
  · exact .next (.refl _)

/-! Commit takes effect (R248). -/

theorem State.releaseHsend_keeps (s : State) (p : Nat) : s.Keeps (s.releaseHsend p) := by
  unfold State.releaseHsend
  refine .foldl (fun _ _ => ?_) _ _
  extract_lets
  split
  · exact .ite (.refl _) (.trans (State.modSlot_keeps ..) (State.enqueueUser_keeps ..))
  · exact .refl _

theorem State.releaseEvents_keeps (s : State) : s.Keeps s.releaseEvents := by
  unfold State.releaseEvents
  refine .trans ?_ (.foldl (fun _ _ => State.emit_keeps ..) _ _)
  exact .fields ..

theorem State.commitWorlds_keeps (s : State) (t : TickRun) : s.Keeps (s.commitWorlds t) := by
  unfold State.commitWorlds
  exact .fields ..

theorem State.commitGen_keeps (s : State) (t : TickRun) : s.Keeps (s.commitGen t) := by
  unfold State.commitGen
  exact State.modGen_keeps ..

theorem State.commitTel_keeps (s : State) (t : TickRun) : s.Keeps (s.commitTel t) := by
  unfold State.commitTel
  extract_lets _ _ _ s3 _
  have hs3 : s.Keeps s3 := .trans (.trans (State.telSample_keeps ..) (State.telBump_keeps ..)) (.fields ..)
  exact .ite (hs3.trans (State.telBoundary_keeps ..)) hs3

theorem State.commitMaint_keeps (s : State) (t : TickRun) : s.Keeps (s.commitMaint t) := by
  unfold State.commitMaint
  extract_lets _ _ s2 _ s3 s4 _ _ _ _ _
  have hs2 : s.Keeps s2 := .trans (State.setReg_keeps ..) (.fields ..)
  have hs3 : s.Keeps s3 := .ite (hs2.trans (.fields ..)) hs2
  have hs4 : s.Keeps s4 := .ite (hs3.trans (State.endInjection_keeps ..)) hs3
  exact .ite (.trans (.trans (.trans (hs4.trans (.fields ..)) (State.setFld_keeps ..)) (State.raise_keeps ..))
      (.foldl (fun _ _ => .foldl (fun _ _ => .ite (State.modCmd_keeps ..) (.refl _)) _ _) _ _)) hs4

theorem State.handHist_keeps (s : State) (k p : Nat) : s.Keeps (s.handHist k p) := by
  unfold State.handHist
  exact .foldl (fun _ _ => State.modHub_keeps ..) _ _

theorem State.readyAfter_keeps (s : State) (replay : Bool) : s.Keeps (s.readyAfter replay) := by
  unfold State.readyAfter
  refine .ite (.refl _) ?_
  split
  · exact .ite (State.setReady_keeps ..) (.refl _)
  · exact .ite (State.setReady_keeps ..) (.refl _)

theorem execCommit_keeps (s : State) : s.KeptBy (execCommit s) := by
  unfold execCommit
  split
  next x _ run _ _ =>
    refine .ite (.next (State.class0Done_keeps ..)) ?_
    extract_lets s1 replay s2 s3 s4 s5 s6 s7 n s8 _
    have hs3 : s.Keeps s3 := .trans (.trans (.trans (State.advanceTo_keeps ..) (State.commitWorlds_keeps ..))
      (State.collCommit_keeps ..)) (State.commitGen_keeps ..)
    have hs4 : s.Keeps s4 := .trans (hs3.trans (State.mapCores_keeps _ (f := fun _ c => c.commit x) fun _ _ h => h))
      (.of_eq rfl rfl rfl rfl rfl)
    have hs5 : s.Keeps s5 := hs4.trans (.foldl (fun _ _ => State.handHist_keeps ..) _ _)
    have hs6 : s.Keeps s6 := by
      unfold s6
      exact .trans (hs5.trans (State.releaseEvents_keeps ..)) (.foldl (fun _ _ => State.releaseHsend_keeps ..) _ _)
    have hs7 : s.Keeps s7 := .trans (hs6.trans (State.commitTel_keeps ..)) (State.commitMaint_keeps ..)
    exact .next (.trans (.trans (.trans (.trans (.trans (.ite (hs7.trans (.fields ..)) hs7) (State.readyAfter_keeps ..))
      (State.settleState_keeps ..)) (State.tickWaiters_keeps ..)) (State.class0Done_keeps ..)) (State.tryCommit_keeps ..))
  · exact .next (.refl _)

theorem execControl_keeps (cmd : BitVec 9) (operand : BitVec 32) (node : Option CoreIx) (s : State) :
    s.KeptBy (execControl cmd operand node s) := by
  unfold execControl
  split
  · exact .next (.refl _)
  · exact .next (.trans (State.advanceTo_keeps ..) (State.modGen_keeps ..))

/-! Reset copies (R255). -/

theorem State.copyLine_keeps (s : State) (tick src dst : Nat) (ue : Bool) : s.KeptIn (fun r => r.1) (s.copyLine tick src dst ue) := by
  unfold State.copyLine
  split
  · split
    · exact .none
    next s1 h =>
    have hs1 : s.Keeps s1 := (State.readLine_keeps ..).of_eq h
    have hpoison (d o : Nat) : s.Keeps (s1.modDram d fun x => x.setPoison o true) := hs1.trans (s1.modDram_keeps _ _ id)
    refine .ite (.some (hpoison ..)) (hs1.keptIn ?_)
    exact (State.writeBytes_keeps ..).map fun _ => State.addDigest_keeps ..
  · exact .some (.refl _)

theorem State.copyLines_keeps (tick src dst : Nat) (bad : List Nat) (n k : Nat) (s : State) (err : Bool) :
    s.KeptIn (fun r => r.1) (State.copyLines tick src dst bad n k s err) := by
  induction n generalizing k s err with
  | zero => exact .some (.refl s)
  | succ n ih =>
    unfold State.copyLines
    split
    · exact .none
    next h => exact ((State.copyLine_keeps ..).of_eq h).keptIn (ih ..)

theorem execResetCopy_keeps (w : Fin 4096) (bad : List Nat) (s : State) : s.KeptBy (execResetCopy w bad s) := by
  unfold execResetCopy
  split
  · exact .next (.refl _)
  · extract_lets
    split
    · exact .next (.refl _)
    next h1 =>
      extract_lets _ s2 _
      have hs2 : s.Keeps s2 := .trans ((State.copyLines_keeps ..).of_eq h1) (.fields ..)
      exact .ite (.next (.trans (hs2.trans (State.setWorld_keeps ..)) (State.raise_keeps ..))) (.next hs2)

theorem execResetCopyComplete_keeps (tick : Nat) (s : State) : s.KeptBy (execResetCopyComplete tick s) := by
  unfold execResetCopyComplete
  split
  · exact .next (.refl _)
  · exact .when (.trans (.fields ..) (State.tryCommit_keeps ..))

/-! Done marks and the status word (R254, R258, R267). -/

theorem execWctxDoneSet_keeps (acc : Nat) (s : State) : s.KeptBy (execWctxDoneSet acc s) := by
  unfold execWctxDoneSet
  split
  · exact .next (.refl _)
  · split
    · exact .next (.trans (.ite (.refl _) (.fields ..)) (State.reply_keeps ..))
    · exact .next (.refl _)

theorem execResetReq_keeps (w : Fin 4096) (s : State) : s.KeptBy (execResetReq w s) :=
  .next (State.setWorld_keeps ..)

theorem execWctxStatusWrite_keeps (w : Fin 4096) (v : Word) (s : State) : s.KeptBy (execWctxStatusWrite w v s) :=
  .when (State.setWorld_keeps ..)

/-! TICK_CTRL (R251). -/

theorem State.writeRun_keeps (s : State) (run : Bool) : s.Keeps (s.writeRun run) := by
  unfold State.writeRun
  split
  · exact .refl _
  · extract_lets s1
    have hs1 : s.Keeps s1 := State.modGen_keeps ..
    split
    · exact .ite (hs1.trans (State.setReady_keeps ..)) hs1
    · exact .ite (hs1.trans (State.setReady_keeps ..)) hs1
  · extract_lets s1
    have hs1 : s.Keeps s1 := State.modGen_keeps ..
    exact .ite (.trans (hs1.trans (State.modGen_keeps ..)) (State.setReady_keeps ..)) hs1
  · extract_lets s1 _
    have hs1 : s.Keeps s1 := State.modGen_keeps ..
    exact .trans (.trans (.ite (hs1.trans (State.clearReady_keeps ..)) hs1) (State.settleState_keeps ..)) (State.tickWaiters_keeps ..)
  · exact .refl _

theorem execStepLeft_keeps (n : BitVec 32) (s : State) : s.KeptBy (execStepLeft n s) :=
  .next (State.modGen_keeps ..)

theorem State.writeSeq_keeps (s : State) (v : Word) : s.Keeps (s.writeSeq v) :=
  .ite (State.modGen_keeps ..) (.refl _)

theorem execTickCommitSeqWrite_keeps (v : Word) (s : State) : s.KeptBy (execTickCommitSeqWrite v s) :=
  .next (State.writeSeq_keeps ..)

/-! The flits (R224). -/

theorem State.noteWait_keeps (s : State) (h cls : Nat) : s.Keeps (s.noteWait h cls) := by
  unfold State.noteWait
  refine .ite ?_ (.refl _)
  split
  next h1 =>
    exact .trans ((State.freeNat_keeps ..).snd h1) (State.setFld_keeps ..)

theorem State.discardAt_keeps (s : State) (h : Nat) : s.Keeps (s.discardAt h) :=
  .ite (State.bump_keeps ..) (.refl _)

theorem State.modHubOut_keeps (s : State) (h : Nat) (p : HubPort) (f : HubOut → HubOut) : s.Keeps (s.modHubOut h p f) :=
  State.modHub_keeps ..

theorem State.releaseAt_keeps (s : State) (h k att : Nat) (bits : BitVec 64) : s.Keeps (s.releaseAt h k att bits) := by
  unfold State.releaseAt
  extract_lets _ _ s2 _
  have hs2 : s.Keeps s2 := by
    unfold s2
    refine .trans (State.modHub_keeps ..) (.foldl (fun _ _ => ?_) _ _)
    exact State.modHub_keeps ..
  exact hs2.trans (State.modHub_keeps ..)

theorem State.noticeAtRoot_keeps (s : State) (n : Notice) : s.Keeps (s.noticeAtRoot n) := by
  unfold State.noticeAtRoot
  extract_lets _ _ s1 s2
  have hs1 : s.Keeps s1 := .ite (.fields ..) (.refl _)
  have hs2 : s.Keeps s2 := by
    unfold s2
    split
    · exact hs1.trans (State.coreEvent_keeps ..)
    · exact hs1
  exact .ite hs2 (.ite (hs2.trans (State.abandon_keeps ..)) (.ite (hs2.trans (State.abandon_keeps ..)) hs2))

theorem State.arriveUp_keeps (s : State) (h v : Nat) (m : OutMsg) : s.Keeps (s.arriveUp h v m) := by
  unfold State.arriveUp
  split
  · exact .ite (State.modHub_keeps ..) (State.discardAt_keeps ..)
  · exact State.modHub_keeps ..
  · exact .ite (State.modHub_keeps ..) (State.discardAt_keeps ..)
  · exact State.modHub_keeps ..
  · exact State.modHub_keeps ..
  · split
    · refine .ite (State.modHub_keeps ..) ?_
      exact State.modHub_keeps ..
    · exact State.route2_keeps ..
    · exact State.route2_keeps ..
    · exact State.route2_keeps ..

theorem State.arriveDown_keeps (s : State) (v : Nat) (m : OutMsg) : s.Keeps (s.arriveDown v m) := by
  unfold State.arriveDown
  split
  · exact .ite (State.releaseAt_keeps ..) (State.discardAt_keeps ..)
  · exact State.route2_keeps ..
  · exact State.route2_keeps ..
  · exact State.route2_keeps ..
  · exact .refl _

theorem execHalyardForward_keeps (h : Fin 214) (out : HubPort) (cls0 : Bool) (s : State) : s.KeptBy (execHalyardForward h out cls0 s) := by
  unfold execHalyardForward
  refine .ite (.when (State.noteWait_keeps ..)) ?_
  split
  · exact .next (.refl _)
  · split
    · exact .next (.refl _)
    · split
      · exact .next (.refl _)
      · exact .ite (.next (.refl _)) (.next (.trans (.trans (State.modHubOut_keeps ..) (State.noteWait_keeps ..))
            (State.arriveUp_keeps ..)))
  · refine .ite (.next (.refl _)) ?_
    split
    · exact .next (.refl _)
    · exact .next (.trans (.trans (State.modHubOut_keeps ..) (State.noteWait_keeps ..)) (State.arriveDown_keeps ..))

theorem State.intoRoot_keeps (s : State) (h : Nat) : s.KeptIn (fun r => r.2) (s.intoRoot h) := by
  unfold State.intoRoot
  refine .ite ?_ .none
  split
  · exact .ite (.some (.trans (State.modHubOut_keeps ..) (State.noteWait_keeps ..))) .none
  · exact .none

/-! Barriers (R230). -/

theorem execBarUp_keeps (h : Fin 214) (k : Fin 2) (s : State) : s.KeptBy (execBarUp h k s) := by
  unfold execBarUp
  split
  · exact .next (.refl _)
  · exact .ite (.next (State.releaseAt_keeps ..)) (.next (State.modHub_keeps ..))

theorem State.releaseCore_keeps (s : State) (p k b : Nat) : s.Keeps (s.releaseCore p k b) := by
  unfold State.releaseCore
  extract_lets
  split
  · exact .refl _
  · exact .trans (.trans (State.telSample_keeps ..) (State.modCore_keeps _ _ _ id)) (State.barArrive_keeps ..)

theorem execBarRel_keeps (h : Fin 214) (s : State) : s.KeptBy (execBarRel h s) := by
  unfold execBarRel
  split
  · extract_lets s1
    have hs1 : s.Keeps s1 := .trans (State.modHubOut_keeps ..) (State.noteWait_keeps ..)
    exact .ite (.next (hs1.trans (State.discardAt_keeps ..))) (.next (hs1.trans
        (.foldl (fun _ _ => .foldl (fun _ _ => State.releaseCore_keeps ..) _ _) _ _)))
  · exact .next (.refl _)

/-! Votes (R229, R279). -/

theorem execVote_keeps (h : Fin 214) (k : Fin 3) (s : State) : s.KeptBy (execVote h k s) := by
  unfold execVote
  refine .ite (.next (.refl _)) ?_
  extract_lets
  refine .ite ?_ (.ite (.next (.refl _)) (.next (State.modHub_keeps ..)))
  split
  · exact .next (.refl _)
  · exact .ite (.next (.refl _)) (.next (State.modHub_keeps ..))

/-! Notices and heartbeats (R226, R233). -/

theorem execNotice_keeps (hop : NoticeHop) (s : State) : s.KeptBy (execNotice hop s) := by
  unfold execNotice
  split
  · extract_lets
    split
    · exact .next (.refl _)
    · exact .when (.trans (State.modCore_keeps _ _ _ id) (State.modHub_keeps ..))
  · split
    next h =>
      exact .next (.trans ((State.intoRoot_keeps ..).of_eq h) (State.noticeAtRoot_keeps ..))
    · exact .next (.refl _)

theorem execDieHb_keeps (h : Fin 214) (s : State) : s.KeptBy (execDieHb h s) := by
  unfold execDieHb
  split
  next h1 =>
    exact .next (.trans ((State.intoRoot_keeps ..).of_eq h1) (State.modGen_keeps ..))
  · exact .next (.refl _)

theorem execHeartbeat_keeps (h : Fin 214) (s : State) : s.KeptBy (execHeartbeat h s) := by
  unfold execHeartbeat
  refine .ite (.next (.refl _)) ?_
  extract_lets _ _ s2 _ s3
  have hs2 : s.Keeps s2 := .trans (State.advanceTo_keeps ..) (.foldl (fun _ _ => State.modCore_keeps _ _ _ id) _ _)
  have hs3 : s.Keeps s3 := hs2.trans (State.modHub_keeps ..)
  exact .ite (.next hs3) (.next (hs3.trans (State.modHub_keeps ..)))

theorem execHeartbeatTimeout_keeps (c : CoreIx) (s : State) : s.KeptBy (execHeartbeatTimeout c s) := by
  unfold execHeartbeatTimeout
  exact .ite (.next (.refl _)) (.next (.trans (.trans (State.advanceTo_keeps ..) (State.setFld_keeps ..)) (State.modHub_keeps ..)))

/-! Histogram merges (R234). -/

theorem State.rootMerged_keeps (s : State) (k : Nat) (t : TickRun) : s.Keeps (s.rootMerged k t) := by
  unfold State.rootMerged
  exact .ite (.ite (.fields ..) (State.noteOffers_keeps ..)) (.refl _)

theorem execHist_keeps (h : Fin 214) (k : Fin 2) (slot : Fin 16) (s : State) : s.KeptBy (execHist h k slot s) := by
  unfold execHist
  extract_lets _ _ _ _ s1 _
  have hs1 : s.Keeps s1 := State.modHub_keeps ..
  split
  · exact .next (.refl _)
  · exact .ite (.next (.refl _)) (.ite (.next (hs1.trans (State.rootMerged_keeps ..))) (.next (hs1.trans (State.modHub_keeps ..))))

/-! User messages (R235). -/

theorem execUser_keeps (h : Fin 214) (s : State) : s.KeptBy (execUser h s) := by
  unfold execUser
  split
  · extract_lets s1
    have hs1 : s.Keeps s1 := .trans (State.modHubOut_keeps ..) (State.noteWait_keeps ..)
    refine .ite (.next (hs1.trans (State.discardAt_keeps ..))) ?_
    split
    · exact .next hs1
    · extract_lets _ s2
      have hs2 : s.Keeps s2 :=
        .ite (hs1.trans (State.bump_keeps ..)) (.trans (hs1.trans (State.modCore_keeps _ _ _ id)) (State.settle_keeps ..))
      exact .next (hs2.trans (State.route2_keeps ..))
  · exact .next (.refl _)

theorem execUserAck_keeps (h : Fin 214) (s : State) : s.KeptBy (execUserAck h s) := by
  unfold execUserAck
  split
  · extract_lets s1
    have hs1 : s.Keeps s1 := .trans (State.modHubOut_keeps ..) (State.noteWait_keeps ..)
    split
    · exact .next hs1
    · exact .next (.trans (.trans (hs1.trans (State.modCore_keeps _ _ _ id)) (State.pumpUser_keeps ..)) (State.releaseHsend_keeps ..))
  · exact .next (.refl _)

theorem execHalDebug_keeps (h : Fin 214) (s : State) : s.KeptBy (execHalDebug h s) := by
  unfold execHalDebug
  split
  · exact .next (.trans (State.modHubOut_keeps ..) (State.noteWait_keeps ..))
  · exact .next (.refl _)

theorem execUserResend_keeps (c : CoreIx) (s : State) : s.KeptBy (execUserResend c s) := by
  unfold execUserResend
  extract_lets
  split
  · exact .next (.refl _)
  · exact .next (.trans (.trans (.trans (State.advanceTo_keeps ..) (State.modCore_keeps _ _ _ id)) (State.bump_keeps ..))
        (State.pumpUser_keeps ..))

/-! The registers of a set (R268, R276). -/

theorem State.writeRwt_keeps (s : State) (u off v : Nat) : s.Keeps (s.writeRwt u off v) :=
  .ite (.fields ..) (.ite (.fields ..) (.ite (.fields ..) (.ite (.fields ..) (.refl _))))

/-! The outcome of a seal (R275). -/

theorem State.recordSeal_keeps (s : State) (f : SealFail) : s.Keeps (s.recordSeal f) :=
  State.setReg_keeps ..

theorem State.sealed_keeps (s : State) (c : ConfigSet) (digest : List Byte) (amended : Bool) : s.Keeps (s.sealed c digest amended) :=
  .fields ..

theorem State.requestOn_keeps (s : State) (e : Nat × Nat) : s.Keeps (s.requestOn e) :=
  State.setFld_keeps ..

/-! The remap (R25, R27). -/

theorem State.noteRemap_keeps (s : State) (old new : ConfigSet) : s.Keeps (s.noteRemap old new) := by
  unfold State.noteRemap
  extract_lets s1
  have hs1 : s.Keeps s1 := .foldl (fun _ _ => State.appendLog_keeps ..) _ _
  refine .trans hs1 (.foldl (fun _ _ => ?_) _ _)
  exact .trans (State.appendLog_keeps ..) (State.raise_keeps ..)

/-! Acceptance (R278, R281). -/

theorem State.acceptTack_keeps (s : State) (auto : Bool) (cmd : Option (Nat × Nat)) (halt : Bool) : s.Keeps (s.acceptTack auto cmd halt) :=
  .fields ..

theorem State.autoTack_keeps (s : State) (halt : Bool) : s.Keeps (s.autoTack halt) := by
  unfold State.autoTack
  refine .ite ?_ ?_
  · extract_lets _ s1
    have hs1 : s.Keeps s1 := .fields ..
    exact .ite (hs1.trans (State.haltTicking_keeps ..)) hs1
  · extract_lets _ _ _ _ s2 _
    have hs2 : s.Keeps s2 := .trans (.trans (State.sealed_keeps ..) (State.noteRemap_keeps ..)) (State.raise_keeps ..)
    split
    · extract_lets s3 _ s4
      have hs3 : s.Keeps s3 := State.recordSeal_keeps ..
      have hs4 : s.Keeps s4 := .ite hs3 (hs3.trans (.fields ..))
      exact .ite (hs4.trans (State.haltTicking_keeps ..)) hs4
    · exact .ite (hs2.trans (.fields ..)) (hs2.trans (State.acceptTack_keeps ..))

/-! The boundary (R273, R278, R279). -/

theorem State.tackCloses_keeps (s : State) (p : Nat) : s.Keeps (s.tackCloses p) := by
  unfold State.tackCloses
  extract_lets _ _ _ _ _ s1
  have hs1 : s.Keeps s1 := .foldl (fun _ _ => State.raiseCore_keeps ..) _ _
  exact hs1.trans (.foldl (fun _ _ => .ite (.refl _) (State.beginClose_keeps ..)) _ _)

theorem State.tackBoundary_keeps (s : State) : s.Keeps s.tackBoundary := by
  unfold State.tackBoundary
  extract_lets _ _ _ s1 s2 _
  have hs1 : s.Keeps s1 := by
    unfold s1
    split
    · exact .refl _
    · exact .fields ..
  have hs2 : s.Keeps s2 := hs1.trans (.foldl (fun _ _ => State.tackCloses_keeps ..) _ _)
  exact .ite hs1 (.ite (.trans (hs2.trans (.fields ..)) (State.sendClass0_keeps ..)) hs2)

/-! The exchange (R279 step 4). -/

theorem State.openTemplates_keeps (s : State) (p : Nat) : s.Keeps (s.openTemplates p) := by
  unfold State.openTemplates
  refine .foldl (fun _ _ => ?_) _ _
  extract_lets
  split
  · exact State.modSpad_keeps _ _ _ id
  · exact .refl _

theorem State.capNow_keeps (s : State) : s.Keeps s.capNow :=
  .ite (.refl _) (State.setFld_keeps ..)

theorem State.calibrate_keeps (s : State) : s.Keeps s.calibrate :=
  .fields ..

theorem State.noteMap_keeps (s : State) : s.Keeps s.noteMap :=
  .ite (.refl _) (.fields ..)

theorem State.darkenSpares_keeps (s : State) (old : ConfigSet) : s.Keeps (s.darkenSpares old) :=
  .foldl (fun _ _ => .ite (.foldl (fun _ _ => .ite (.refl _) (State.setFld_keeps ..)) _ _) (.refl _)) _ _

theorem State.exchange_keeps (s : State) : s.Keeps s.exchange := by
  unfold State.exchange
  extract_lets _ _ _ _ _ _ _ s1 s2 s3 s4 s5 _ _ _ _ _
  have hs1 : s.Keeps s1 := .trans (State.mapCores_keeps _ (f := fun _ c => { c with icache := [] }) fun _ _ h => h)
    (.of_eq rfl rfl rfl rfl rfl)
  have hs2 : s.Keeps s2 := .ite (hs1.trans (State.modGen_keeps ..)) hs1
  have hs3 : s.Keeps s3 :=
    .ite (.trans (.trans (hs2.trans (State.noteMap_keeps ..)) (State.darkenSpares_keeps ..)) (State.freshEngines_keeps ..)) hs2
  have hs4 : s.Keeps s4 := hs3.trans (.foldl (fun _ _ => State.openTemplates_keeps ..) _ _)
  have hs5 : s.Keeps s5 := .ite (hs4.trans (State.raise_keeps ..)) hs4
  exact .trans (.trans (.trans (.ite (hs5.trans (State.haltTicking_keeps ..)) hs5) (State.capNow_keeps ..)) (.fields ..))
    (.foldl (fun _ _ => State.writeRwt_keeps ..) _ _)

/-! Completion (R279 step 6, R386). -/

theorem State.offerShrink_keeps (s : State) : s.Keeps s.offerShrink := by
  unfold State.offerShrink
  refine .ite (.refl _) ?_
  extract_lets _ _ _ s1
  have hs1 : s.Keeps s1 := by
    unfold s1
    refine .ite ?_ (.refl _)
    split
    · exact State.sealed_keeps ..
    · exact State.recordSeal_keeps ..
  exact hs1.trans (State.raise_keeps ..)

theorem State.completeTack_keeps (s : State) : s.Keeps s.completeTack := by
  unfold State.completeTack
  extract_lets _ _ _ _ _ _ _ _ _ _ _ s3 _ _ s5
  have hs3 : s.Keeps s3 := .trans (.trans (.trans (.fields ..) (State.bump_keeps ..)) (State.raise_keeps ..)) (State.finishOpt_keeps ..)
  have hs5 : s.Keeps s5 := .trans (.ite (hs3.trans (State.setReady_keeps ..)) hs3) (State.offerShrink_keeps ..)
  exact .ite (hs5.trans (State.autoTack_keeps ..)) hs5

/-! The commands of a tack. -/

theorem execTackBoundary_keeps (s : State) : s.KeptBy (execTackBoundary s) :=
  .when (State.tackBoundary_keeps ..)

theorem execTack_keeps (s : State) : s.KeptBy (execTack s) := by
  unfold execTack
  split
  · exact .next (.trans (.trans (State.advanceTo_keeps ..) (State.exchange_keeps ..)) (State.class0Done_keeps ..))
  · exact .next (.refl _)

theorem execTackComplete_keeps (s : State) : s.KeptBy (execTackComplete s) := by
  unfold execTackComplete
  exact .when (State.completeTack_keeps ..)

theorem execTackVoteTimeout_keeps (s : State) : s.KeptBy (execTackVoteTimeout s) := by
  unfold execTackVoteTimeout
  split
  · exact .next (.trans (State.advanceTo_keeps ..) (State.completeTack_keeps ..))
  · exact .next (.refl _)

/-! The maintenance arbiter (R446–R448). -/

theorem State.addEntry_keeps (s : State) (code resource arg target : Nat) (pliwick : Bool) (c : Option (Nat × Nat)) :
    s.KeptIn (fun r => r.2) (s.addEntry code resource arg target pliwick c) := by
  unfold State.addEntry
  refine .ite .none ?_
  exact .some (.fields ..)

theorem State.pliwickEntry_keeps (s : State) (code resource : Nat) : s.Keeps (s.pliwickEntry code resource) :=
  .ite (.refl _) (State.KeptIn.getD (g := fun r => r) ((s.addEntry_keeps ..).map fun _ => .refl _) (.refl s))

theorem State.modEntry_keeps (s : State) (handle : Nat) (f : MaintEntry → MaintEntry) : s.Keeps (s.modEntry handle f) :=
  .fields ..

theorem State.stepOver_keeps (s : State) (e : MaintEntry) (finished ok : Bool) : s.Keeps (s.stepOver e finished ok) :=
  .ite (State.endEntry_keeps ..) (.ite (State.endEntry_keeps ..) (State.modEntry_keeps ..))

/-! The sending side of a Vorrad port (R310–R313). -/

theorem State.modVPort_keeps (s : State) (i : Nat) (f : VPort → VPort) : s.Keeps (s.modVPort i f) :=
  .fields ..

theorem State.setPortState_keeps (s : State) (i v : Nat) : s.Keeps (s.setPortState i v) :=
  State.setFld_keeps ..

/-! The bytes of a flit (R310, R311, R319). -/

theorem State.pumpPort_keeps (s : State) (i fuel : Nat) : s.Keeps (s.pumpPort i fuel) := by
  induction fuel generalizing s with
  | zero => exact .refl s
  | succ fuel ih =>
    unfold State.pumpPort
    refine .ite (.refl s) ?_
    split
    · exact .refl s
    · exact .trans (.trans (State.modVPort_keeps ..) (State.bump_keeps ..)) (ih _)

theorem State.pump_keeps (s : State) (i : Nat) : s.Keeps (s.pump i) :=
  State.pumpPort_keeps ..

theorem State.queueSlot_keeps (s : State) (i : Nat) (x : VSlot) : s.Keeps (s.queueSlot i x) :=
  .trans (State.modVPort_keeps ..) (State.pump_keeps ..)

theorem State.queueRecord_keeps (s : State) (i : Nat) (r : SysRecord) : s.Keeps (s.queueRecord i r) :=
  .trans (State.modVPort_keeps ..) (State.pump_keeps ..)

theorem State.returnSlot_keeps (s : State) (i c : Nat) : s.Keeps (s.returnSlot i c) :=
  .ite (.refl _) (State.modVPort_keeps ..)

/-! The current attempt and its buckets. -/

theorem State.putBucket_keeps (s : State) (d t : Nat) (b : UnitBucket) : s.Keeps (s.putBucket d t b) :=
  State.modBucket_keeps ..

theorem State.putEngine_keeps (s : State) (dim t : Nat) (b : EngineBucket) : s.Keeps (s.putEngine dim t b) :=
  .fields ..

/-! Failure (R299, R304). -/

theorem State.collFail_keeps (s : State) (n : CollNode) (dim t cause contrib copy line : Nat) (run : TickRun) (inj : Bool) :
    s.Keeps (s.collFail n dim t cause contrib copy line run inj) := by
  unfold State.collFail
  extract_lets _ _ s1 _ s2 _
  have hs1 : s.Keeps s1 := .trans (State.setReg_keeps ..) (State.setReg_keeps ..)
  have hs2 : s.Keeps s2 := by
    unfold s2
    split
    · exact hs1.trans (State.putBucket_keeps ..)
    · exact hs1.trans (State.putEngine_keeps ..)
  exact hs2.trans (.fields ..)

theorem State.collMismatch_keeps (s : State) (n : CollNode) (dim t line : Nat) (run : TickRun) (inj : Bool) :
    s.Keeps (s.collMismatch n dim t line run inj) := by
  unfold State.collMismatch
  extract_lets _ s1 _ _ s2 _ _ _
  have hs1 : s.Keeps s1 := .trans (State.collFail_keeps ..) (State.bump_keeps ..)
  have hs2 : s.Keeps s2 := hs1.trans (.fields ..)
  exact .ite hs1 (.ite (.trans (.trans (hs2.trans (.fields ..)) (State.appendLog_keeps ..)) (State.raise_keeps ..)) hs2)

/-! Posts (R292). -/

theorem execCollPost_keeps (acc : Nat) (s : State) : s.KeptBy (execCollPost acc s) := by
  unfold execCollPost
  split
  · exact .next (.refl _)
  · split
    · refine .ite (.next (.refl _)) ?_
      split
      · exact .next (State.reply_keeps ..)
      · extract_lets err _ _ _ _ _
        have herr : ∀ s1, State.Keeps s1 (err s1) := fun s1 => State.bump_keeps ..
        refine .ite (.next (.trans (herr _) (State.reply_keeps ..))) ?_
        split
        · exact .next (.trans (herr _) (State.reply_keeps ..))
        · refine .ite (.next (.trans (herr _) (State.reply_keeps ..))) ?_
          exact .ite (.next (.trans (herr _) (State.reply_keeps ..))) (.next (.trans
              (.trans (.ite (State.bump_keeps ..) (.refl _)) (State.putBucket_keeps ..)) (State.reply_keeps ..)))
    · exact .next (.refl _)

/-! Scale (R285, R286). -/

theorem execScaleFix_keeps (d : Fin 192) (s : State) : s.KeptBy (execScaleFix d s) := by
  unfold execScaleFix
  split
  · exact .next (.refl _)
  · refine .ite (.next (.refl _)) ?_
    extract_lets _ s1 _ _
    have hs1 : s.Keeps s1 := by
      unfold s1
      refine .foldl (fun _ _ => ?_) _ _
      exact .trans (State.putBucket_keeps ..) (State.setReg_keeps ..)
    exact .next (.trans (hs1.trans (State.setReg_keeps ..)) (.fields ..))

/-! Start (R295, R305). -/

theorem State.bucketStart_keeps (s : State) (d t : Nat) : s.Keeps (s.bucketStart d t) := by
  unfold State.bucketStart
  split
  · exact .refl _
  · extract_lets _ _ _ s1 _
    have hs1 : s.Keeps s1 := State.putBucket_keeps ..
    refine .ite (.refl _) ?_
    refine .ite (.trans (hs1.trans (State.collFail_keeps ..)) (State.raise_keeps ..)) ?_
    split
    · exact hs1.trans (State.collFail_keeps ..)
    · exact hs1

theorem execBucketStart_keeps (d : Fin 192) (tag : Fin 1024) (s : State) : s.KeptBy (execBucketStart d tag s) :=
  .next (State.bucketStart_keeps ..)

theorem execPairingDeadline_keeps (d : Fin 192) (tag : Fin 1024) (s : State) : s.KeptBy (execPairingDeadline d tag s) := by
  unfold execPairingDeadline
  split
  · exact .next (.refl _)
  · exact .when (.trans (State.advanceTo_keeps ..) (State.bucketStart_keeps ..))

/-! Lines downward (R288, R295, R303). -/

theorem State.sendReduction_keeps (s : State) (k : CollPacket) : s.Keeps (s.sendReduction k) := by
  unfold State.sendReduction
  exact .ite (.fields ..) (.trans (.fields ..) (State.newPacket_keeps ..))

theorem State.resultWrite_keeps (s : State) (m off : Nat) (bs : List Byte) (run : TickRun) : s.Keeps (s.resultWrite m off bs run) := by
  unfold State.resultWrite
  split
  · exact .refl _
  · exact .trans (State.dramWriteFree_keeps ..) (State.addDigest_keeps ..)

theorem State.bucketDone_keeps (s : State) (d t : Nat) (b : List Byte) (run : TickRun) : s.Keeps (s.bucketDone d t b run) := by
  unfold State.bucketDone
  extract_lets _ _ s1
  have hs1 : s.Keeps s1 := by
    unfold s1
    refine .foldl (fun _ _ => ?_) _ _
    split
    · exact .refl _
    · exact .trans (State.dramWriteFree_keeps ..) (.fields ..)
  exact hs1.trans (State.putBucket_keeps ..)

theorem State.downLine_keeps (s : State) (d t : Nat) (b : List Byte) (l : Line) (run : TickRun) : s.Keeps (s.downLine d t b l run) := by
  unfold State.downLine
  extract_lets
  refine .ite (State.collMismatch_keeps ..) ?_
  split
  · extract_lets _ s1 _ s3
    have hs1 : s.Keeps s1 := .foldl (fun _ _ => State.resultWrite_keeps ..) _ _
    have hs3 : s.Keeps s3 := .trans (hs1.trans (State.putBucket_keeps ..)) (.foldl (fun _ _ => State.sendReduction_keeps ..) _ _)
    exact .ite (hs3.trans (State.bucketDone_keeps ..)) hs3

theorem State.drainDown_keeps (d t : Nat) (b : List Byte) (run : TickRun) (fuel : Nat) (s : State) :
    s.Keeps (State.drainDown d t b run fuel s) := by
  induction fuel generalizing s with
  | zero => exact .refl s
  | succ fuel ih =>
    unfold State.drainDown
    extract_lets u s1
    split
    · exact .refl s
    refine .ite (.refl s) ?_
    extract_lets s2 _ s3
    have hs2 : s.Keeps s2 := (State.putBucket_keeps ..).trans (State.downLine_keeps ..)
    refine .trans ?_ (ih _)
    unfold s3
    split
    · exact hs2
    · exact hs2.trans (.fields ..)

/-! Lines upward (R295, R298, R305). -/

theorem State.srcNote_keeps (s : State) (a n : Nat) (bad : Bool) : s.Keeps (s.srcNote a n bad) := by
  unfold State.srcNote
  split
  · split
    · exact .refl _
    · refine .ite (.refl _) ?_
      extract_lets t
      have ht : s.Keeps t := State.bump_keeps ..
      exact .ite (ht.trans (State.lineError_keeps ..)) ht
  · split
    · exact .refl _
    · exact State.eccRead_keeps ..
  · exact .refl _

theorem State.stageNote_keeps (s : State) (b : List Byte) (line : Nat) (bad : Bool) : s.Keeps (s.stageNote b line bad) :=
  State.srcNote_keeps ..

theorem State.stageWrite_keeps (s : State) (b : List Byte) (line : Nat) (l : Line) : s.Keeps (s.stageWrite b line l) := by
  unfold State.stageWrite
  split
  · exact .refl _
  · exact State.dramWrite_keeps ..

theorem State.upSend_keeps (s : State) (d t : Nat) (b : List Byte) (l : Line) (run : TickRun) : s.Keeps (s.upSend d t b l run) := by
  unfold State.upSend
  extract_lets _ _ _ _ _ s1 _ s3 s4 _
  have hs1 : s.Keeps s1 := .fields ..
  have hs3 : s.Keeps s3 := hs1.trans (State.putBucket_keeps ..)
  have hs4 : s.Keeps s4 := hs3.trans (State.stageWrite_keeps ..)
  split
  · exact .trans (hs1.trans (State.putBucket_keeps ..)) (State.sendReduction_keeps ..)
  · exact .ite (hs3.trans (State.downLine_keeps ..)) (.ite (hs4.trans (.fields ..)) hs4)

theorem State.upStep_keeps (s : State) (d t : Nat) (flip : Option (Nat × Nat)) (bad : List Nat) (run : TickRun) :
    s.Keeps (s.upStep d t flip bad run) := by
  unfold State.upStep
  extract_lets _ _ _ _ _ _ _ _ _ _ s1 _ _ _
  have hs1 : s.Keeps s1 := .foldl (fun _ _ => State.srcNote_keeps ..) _ _
  refine .ite (hs1.trans (State.collFail_keeps ..)) ?_
  split
  · exact hs1.trans (State.collFail_keeps ..)
  split
  · exact .trans (hs1.trans (State.collFail_keeps ..)) (State.raise_keeps ..)
  refine .ite (hs1.trans (State.collFail_keeps ..)) ?_
  split
  next h =>
  have hs2 := (State.Keeps.sndIte (hs1.trans (State.freeNat_keeps ..)) hs1).snd h
  extract_lets _ s3 _ _
  have hs3 : s.Keeps s3 := .ite (hs2.trans (.fields ..)) hs2
  split
  · exact hs3.trans (State.collFail_keeps ..)
  · exact hs3.trans (State.collMismatch_keeps ..)
  · exact hs3.trans (State.upSend_keeps ..)

theorem State.stagedStep_keeps (s : State) (d t : Nat) (bad : List Nat) (run : TickRun) : s.Keeps (s.stagedStep d t bad run) := by
  unfold State.stagedStep
  extract_lets b u staged s1
  have hs1 : s.Keeps s1 := State.stageNote_keeps ..
  clear_value staged
  cases staged with
  | none => exact hs1.trans (State.collFail_keeps ..)
  | some l => exact hs1.trans (State.downLine_keeps ..)

/-! Engines (R300). -/

theorem State.stageOver_keeps (s : State) (dim t : Nat) (u : EngineBucket) (run : TickRun) : s.Keeps (s.stageOver dim t u run) := by
  unfold State.stageOver
  exact .trans (State.putEngine_keeps ..) (.fields ..)

theorem State.engineMoved_keeps (s : State) (dim t : Nat) (u : EngineBucket) (run : TickRun) : s.Keeps (s.engineMoved dim t u run) := by
  unfold State.engineMoved
  exact .ite (State.stageOver_keeps ..) (State.putEngine_keeps ..)

theorem State.ringSend_keeps (s : State) (dim t line phase : Nat) (l : Line) (run : TickRun) :
    s.Keeps (s.ringSend dim t line phase l run) := by
  unfold State.ringSend
  exact .ite (State.queueSlot_keeps ..) (State.sendReduction_keeps ..)

theorem State.engineStep_keeps (s : State) (dim t : Nat) (flip : Option (Nat × Nat)) (bad : List Nat) (run : TickRun) :
    s.Keeps (s.engineStep dim t flip bad run) := by
  unfold State.engineStep
  extract_lets _ u _ _ me _ line _ staged s1 moved _
  have hs1 : s.Keeps s1 := .ite (State.stageNote_keeps ..) (.refl _)
  clear_value staged
  refine .ite (.refl s) ?_
  split
  · cases staged with
    | none => exact hs1.trans (State.collFail_keeps ..)
    | some l => exact (hs1.trans (State.ringSend_keeps ..)).trans (State.engineMoved_keeps ..)
  · exact hs1
  refine .ite ?_ (.ite (hs1.trans (State.collMismatch_keeps ..)) ?_)
  · cases staged with
    | none => exact hs1.trans (State.collFail_keeps ..)
    | some l =>
      dsimp only
      split
      · exact hs1.trans (State.collFail_keeps ..)
      · exact hs1.trans (State.collMismatch_keeps ..)
      · exact .trans (.ite (hs1.trans (State.stageWrite_keeps ..)) (hs1.trans (State.ringSend_keeps ..))) (State.engineMoved_keeps ..)
  · extract_lets s2
    have hs2 : s.Keeps s2 := hs1.trans (State.stageWrite_keeps ..)
    exact .trans (.ite hs2 (hs2.trans (State.ringSend_keeps ..))) (State.engineMoved_keeps ..)

theorem execUnitLineStep_keeps (w : CollAt) (flip : Option (Fin 8 × Fin 64)) (bad : List Nat) (s : State) :
    s.KeptBy (execUnitLineStep w flip bad s) := by
  unfold execUnitLineStep
  split
  · exact .next (.refl _)
  · extract_lets
    split
    · exact .when (State.engineStep_keeps ..)
    · extract_lets
      split
      · exact .next (.refl _)
      · extract_lets s1
        have hs1 : s.Keeps s1 := State.modUnit_keeps ..
        exact .ite (.next (hs1.trans (State.upStep_keeps ..))) (.next (hs1.trans (State.stagedStep_keeps ..)))

/-! Packets, credits and signals (R296, R298, R300). -/

theorem execCollectivePacket_keeps (n : Nat) (flip : Option (Fin 8 × Fin 64)) (s : State) : s.KeptBy (execCollectivePacket n flip s) := by
  unfold execCollectivePacket
  split
  · exact .next (.refl _)
  · refine .ite (.next (.refl _)) ?_
    extract_lets _ s1 _ stale _ _
    have hs1 : s.Keeps s1 := .fields ..
    have hstale : s.Keeps stale := hs1.trans (.fields ..)
    split
    · exact .next (hs1.trans (State.queueSlot_keeps ..))
    · split
      · exact .next hstale
      · extract_lets
        refine .ite (.next hstale) ?_
        split
        · exact .ite (.next (hs1.trans (State.putBucket_keeps ..))) (.next (.trans (hs1.trans (State.putBucket_keeps ..))
              (State.drainDown_keeps ..)))
        · exact .next (hs1.trans (State.putEngine_keeps ..))
        · exact .next hs1

theorem execLineCreditReturn_keeps (n : Nat) (s : State) : s.KeptBy (execLineCreditReturn n s) := by
  unfold execLineCreditReturn
  split
  · extract_lets _ s1 _ _
    have hs1 : s.Keeps s1 := .fields ..
    exact .ite (.next hs1) (.next (.trans (hs1.trans (State.putBucket_keeps ..)) (State.drainDown_keeps ..)))
  · exact .next (.fields ..)
  · exact .next (.refl _)

theorem execEngineStageSignal_keeps (n : Nat) (s : State) : s.KeptBy (execEngineStageSignal n s) := by
  unfold execEngineStageSignal
  split
  · exact .next (.refl _)
  · extract_lets _ s1 _ _ _
    have hs1 : s.Keeps s1 := .fields ..
    split
    · exact .next hs1
    · refine .ite (.next hs1) ?_
      refine .ite (.next (hs1.trans (State.putBucket_keeps ..))) ?_
      exact .next (hs1.trans (State.engineMoved_keeps ..))

/-! At the management die (R303, R304). -/

theorem execBucketCompletionReport_keeps (n : Nat) (s : State) : s.KeptBy (execBucketCompletionReport n s) := by
  unfold execBucketCompletionReport
  split
  · exact .next (.refl _)
  · extract_lets _ s1 _ _ s2
    have hs1 : s.Keeps s1 := .fields ..
    have hs2 : s.Keeps s2 := hs1.trans (.fields ..)
    split
    · exact .next hs1
    · exact .ite (.next hs1) (.ite (.next (.trans (.trans (hs2.trans (State.bump_keeps ..)) (State.modRun_keeps ..))
          (State.tryCommit_keeps ..))) (.next hs2))

theorem State.badVotes_keeps (s : State) (n : CollNode) (tick : Nat) : s.Keeps (s.badVotes n tick) := by
  unfold State.badVotes
  split
  · exact .refl _
  · exact .trans (.fields ..) (.foldl (fun _ _ => .trans (State.modCore_keeps _ _ _ id) (State.tryVote_keeps ..)) _ _)

theorem execFailureRecord_keeps (n : Nat) (s : State) : s.KeptBy (execFailureRecord n s) := by
  unfold execFailureRecord
  -- a name for the search of the run, which the kernel would otherwise unfold
  obtain ⟨find, hfind⟩ : ∃ find, find = State.tickRun := ⟨_, rfl⟩
  rw [← hfind]
  split
  · exact .next (.refl _)
  extract_lets _ s1 s2 src s3
  have hs2 : s.Keeps s2 := (State.Keeps.fields ..).trans (State.bump_keeps ..)
  have hs3 : s.Keeps s3 := .ite hs2 (hs2.trans (State.setReg_keeps ..))
  split
  · exact .next hs3
  · exact .ite (.next hs3) (.next (.trans (hs3.trans (State.badVotes_keeps ..)) (State.abandon_keeps ..)))

/-! System records (R319). -/

theorem State.sendRecord_keeps (s : State) (side : Nat) (r : SysRecord) : s.Keeps (s.sendRecord side r) := by
  unfold State.sendRecord
  split
  · exact .refl _
  · exact State.queueRecord_keeps ..

theorem State.sendDown_keeps (s : State) (r : SysRecord) (spent : Option Nat) : s.Keeps (s.sendDown r spent) := by
  unfold State.sendDown
  refine .foldl (fun _ _ => ?_) _ _
  extract_lets
  split
  · exact State.sendRecord_keeps ..
  · exact State.sendRecord_keeps ..

theorem State.sendUp_keeps (s : State) (r : SysRecord) : s.Keeps (s.sendUp r) := by
  unfold State.sendUp
  split
  · exact .refl _
  · exact State.sendRecord_keeps ..

theorem State.relayRecord_keeps (s : State) (r : SysRecord) : s.Keeps (s.relayRecord r) := by
  unfold State.relayRecord
  refine .ite ?_ (.ite (State.sendDown_keeps ..) (.ite (State.sendDown_keeps ..) (.refl _)))
  refine .ite (.refl _) ?_
  exact .trans (.fields ..) (State.sendUp_keeps ..)

/-! The hem ring (R19–R21, R211). -/

theorem State.enterHem_keeps (s : State) (place port : Nat) (rev : List Nat) (x : VSlot) : s.Keeps (s.enterHem place port rev x) :=
  .fields ..

theorem State.sendSlot_keeps (s : State) (place : Nat) (x : VSlot) (rev : List Nat) : s.Keeps (s.sendSlot place x rev) :=
  State.enterHem_keeps ..

theorem State.leaveHem_keeps (s : State) (n : Nat) (h : HemSlot) : s.Keeps (s.leaveHem n h) :=
  .trans (.fields ..) (State.returnSlot_keeps ..)

theorem State.hemHop_keeps (s : State) (n : Nat) (h : HemSlot) (goal : Nat) : s.Keeps (s.hemHop n h goal) := by
  unfold State.hemHop
  split
  · exact .refl _
  · exact .trans (.fields ..) (State.returnSlot_keeps ..)

theorem State.hemMove_keeps (s : State) (n : Nat) (h : HemSlot) : s.Keeps (s.hemMove n h) := by
  unfold State.hemMove
  split
  · exact .refl _
  · split
    · exact .ite (.refl _) (State.hemHop_keeps ..)
    · extract_lets
      refine .ite (.ite (.trans (State.leaveHem_keeps ..) (State.queueSlot_keeps ..)) (State.hemHop_keeps ..)) ?_
      split
      · exact State.leaveHem_keeps ..
      · exact .trans (State.leaveHem_keeps ..) (State.sendSlot_keeps ..)

/-! Completion (R326). -/

theorem State.postEnds_keeps (s : State) (c : Nat) (p : XPost) (st : Nat) : s.Keeps (s.postEnds c p st) := by
  unfold State.postEnds
  refine .ite ?_ (State.edgeWrite_keeps ..)
  split
  · exact .refl _
  · exact .ite (State.finish_keeps ..) (State.finish_keeps ..)

theorem State.ctxFail_keeps (s : State) (c st : Nat) : s.Keeps (s.ctxFail c st) := by
  unfold State.ctxFail
  exact .trans (State.modCtx_keeps ..) (.foldl (fun _ _ => State.postEnds_keeps ..) _ _)

theorem State.ctxFinish_keeps (s : State) (c fuel : Nat) : s.Keeps (s.ctxFinish c fuel) := by
  induction fuel generalizing s with
  | zero => exact .refl s
  | succ fuel ih =>
    unfold State.ctxFinish
    split
    · exact .refl s
    · exact .ite (.refl s) (.trans (.trans (State.modCtx_keeps ..) (State.postEnds_keeps ..)) (ih _))

theorem State.ctxAck_keeps (s : State) (c st lseq : Nat) : s.Keeps (s.ctxAck c st lseq) :=
  State.sendSlot_keeps ..

theorem State.ctxAckDue_keeps (s : State) (c : Nat) : s.Keeps (s.ctxAckDue c) := by
  unfold State.ctxAckDue
  exact .ite (.trans (State.modCtx_keeps ..) (State.ctxAck_keeps ..)) (State.modCtx_keeps ..)

theorem State.ctxsReset_keeps (s : State) : s.Keeps s.ctxsReset := by
  unfold State.ctxsReset
  exact .trans (.fields ..) (.foldl (fun _ _ => .foldl (fun _ _ => .ite (State.finish_keeps ..) (.refl _)) _ _) _ _)

theorem State.ctxOpen_keeps (s : State) (c mode : Nat) : s.Keeps (s.ctxOpen c mode) :=
  State.modCtx_keeps ..

/-! Flits (R310–R312). -/

theorem State.replay_keeps (s : State) (i : Nat) : s.Keeps (s.replay i) := by
  unfold State.replay
  split
  · exact .refl _
  · exact .trans (State.modVPort_keeps ..) (State.bump_keeps ..)

theorem State.badLanes_keeps (s : State) (i : Nat) (bad : List Nat) : s.Keeps (s.badLanes i bad) := by
  unfold State.badLanes
  refine .foldl (fun x _ => ?_) _ _
  extract_lets s1 _ _ s2 _ _
  have hs1 : x.Keeps s1 := State.bump_keeps ..
  have hs2 : x.Keeps s2 := hs1.trans (.fields ..)
  exact .ite hs1 (.ite (.trans (.trans (hs2.trans (State.modVPort_keeps ..)) (State.appendLog_keeps ..)) (State.raise_keeps ..)) hs2)

theorem State.flitHead_keeps (s : State) (i : Nat) (f : List Byte) : s.Keeps (s.flitHead i f) := by
  unfold State.flitHead
  extract_lets _ s1 _ s2
  have hs1 : s.Keeps s1 := State.modVPort_keeps ..
  have hs2 : s.Keeps s2 := by
    unfold s2
    split
    · exact hs1
    · exact .ite (.trans (hs1.trans (State.modVPort_keeps ..)) (State.endInjection_keeps ..)) hs1
  exact .ite (hs2.trans (State.replay_keeps ..)) hs2

theorem State.flitBody_keeps (s : State) (i : Nat) (f : List Byte) : s.Keeps (s.flitBody i f) := by
  unfold State.flitBody
  extract_lets
  refine .ite ?_ (.ite (.ite (.foldl (fun _ _ => State.relayRecord_keeps ..) _ _) (.fields ..))
      (.trans (State.modVPort_keeps ..) (State.setPortState_keeps ..)))
  refine .foldl (fun _ _ => ?_) _ _
  split
  · exact .refl _
  · exact .trans (State.sendReduction_keeps ..) (State.returnSlot_keeps ..)
  · exact State.enterHem_keeps ..

theorem execFlitReceive_keeps (i : Fin 8) (flit : List Byte) (corrected : Nat) (bad : List (Fin 16)) (s : State) :
    s.KeptBy (execFlitReceive i flit corrected bad s) := by
  unfold execFlitReceive
  extract_lets _ _ s1 discard s2 _ _
  have hs1 : s.Keeps s1 := .trans (State.bump_keeps ..) (State.badLanes_keeps ..)
  have hdiscard : ∀ s4, State.Keeps s4 (discard s4) := fun s4 => .trans (State.modVPort_keeps ..) (State.bump_keeps ..)
  have hs2 : s.Keeps s2 := hs1.trans (State.modVPort_keeps ..)
  exact .ite (.fault _) (.ite (.next (.refl _)) (.ite (.next (hs1.trans (hdiscard _)))
      (.ite (.next (.ite (hs2.trans (hdiscard _)) (.trans (hs2.trans (State.flitHead_keeps ..)) (State.pump_keeps ..))))
      (.ite (.next (hs2.trans (hdiscard _))) (.next (.trans (.trans (.trans (.trans (hs2.trans (State.modVPort_keeps ..))
      (State.bump_keeps ..)) (State.flitHead_keeps ..)) (State.flitBody_keeps ..)) (State.pump_keeps ..)))))))

theorem execReplayTimeout_keeps (i : Fin 8) (s : State) : s.KeptBy (execReplayTimeout i s) :=
  .when (.trans (State.advanceTo_keeps ..) (State.replay_keeps ..))

/-! Training and loss (R314, R316, R329, R444). -/

theorem execPortTraining_keeps (i : Fin 8) (trained : Bool) (peer : Fin 4096) (port : Fin 8) (dim : Fin 4) (delay : BitVec 16)
    (s : State) : s.KeptBy (execPortTraining i trained peer port dim delay s) := by
  unfold execPortTraining
  extract_lets _ _ _ s1 _
  have hs1 : s.Keeps s1 := .trans (.trans (State.setPortState_keeps ..) (State.setFld_keeps ..)) (State.setReg_keeps ..)
  exact .ite (.next (.refl _)) (.ite (.next (hs1.trans (State.modVPort_keeps ..)))
      (.next (.trans (State.setFld_keeps ..) (State.raise_keeps ..))))

theorem State.noteMissing_keeps (s : State) (i : Nat) : s.Keeps (s.noteMissing i) := by
  unfold State.noteMissing
  exact .ite (State.raise_keeps ..) (.refl _)

theorem State.linkDown_keeps (s : State) (i : Nat) : s.Keeps (s.linkDown i) := by
  unfold State.linkDown
  extract_lets _ _ s1 _ _ _ _ s5 s6
  have hs1 : s.Keeps s1 := State.setPortState_keeps ..
  have hs5 : s.Keeps s5 := by
    unfold s5
    refine .trans (.trans (.trans (.ite (hs1.trans (State.endInjection_keeps ..)) hs1) (State.modVPort_keeps ..)) (State.raise_keeps ..))
        (.foldl (fun x1 a => ?_) _ _)
    split
    · exact .refl _
    · exact State.sendSlot_keeps ..
  have hs6 : s.Keeps s6 := by
    unfold s6
    split
    · exact hs5
    · exact hs5.trans (.foldl (fun _ _ => State.queueRecord_keeps ..) _ _)
  exact hs6.trans (State.noteMissing_keeps ..)

theorem execLinkDown_keeps (i : Fin 8) (los : Bool) (s : State) : s.KeptBy (execLinkDown i los s) := by
  unfold execLinkDown
  exact .when (.trans (State.advanceTo_keeps ..) (State.linkDown_keeps ..))

theorem execVlnkCtrlRetrain_keeps (i : Fin 8) (s : State) : s.KeptBy (execVlnkCtrlRetrain i s) :=
  .next (.trans (State.setFld_keeps ..) (State.pliwickEntry_keeps ..))

theorem execVlnkRetrain_keeps (i : Fin 8) (s : State) : s.KeptBy (execVlnkRetrain i s) := by
  unfold execVlnkRetrain
  split
  · exact .next (.refl _)
  · refine .ite (.next (.refl _)) ?_
    exact .next (.trans (.trans (.trans (State.modVPort_keeps ..) (State.setPortState_keeps ..)) (State.bump_keeps ..))
        (State.modEntry_keeps ..))

theorem State.portFailed_keeps (s : State) (i : Nat) : s.Keeps (s.portFailed i) := by
  unfold State.portFailed
  extract_lets _ _ _ s3 s4
  have hs3 : s.Keeps s3 := by
    unfold s3
    refine .trans (.trans (.trans (State.setPortState_keeps ..) (State.appendLog_keeps ..)) (State.raise_keeps ..))
        (.foldl (fun x1 a => ?_) _ _)
    split
    · exact .refl _
    · exact State.sendSlot_keeps ..
  have hs4 : s.Keeps s4 := by
    unfold s4
    split
    · exact hs3
    · exact hs3.trans (.foldl (fun _ _ => State.queueRecord_keeps ..) _ _)
  exact .trans (hs4.trans (State.modVPort_keeps ..)) (State.noteMissing_keeps ..)

theorem State.narrowPort_keeps (s : State) (i : Nat) (lanes : List Nat) : s.Keeps (s.narrowPort i lanes) := by
  unfold State.narrowPort
  extract_lets _ _ s1
  have hs1 : s.Keeps s1 := State.setFld_keeps ..
  exact .ite hs1 (.ite (hs1.trans (State.portFailed_keeps ..)) (hs1.trans (State.setFld_keeps ..)))

theorem execVlnkRetrainingComplete_keeps (i : Fin 8) (ok : Bool) (failed : List (Fin 16)) (s : State) :
    s.KeptBy (execVlnkRetrainingComplete i ok failed s) := by
  unfold execVlnkRetrainingComplete
  extract_lets _ _ _ _ _ _ _ s4 _ _ s5 _ s6 s7 s8
  have hs4 : s.Keeps s4 := by
    unfold s4
    refine .trans (.trans (.trans (.trans (State.setFld_keeps ..) (State.modVPort_keeps ..)) (State.setPortState_keeps ..))
        (State.narrowPort_keeps ..)) (.foldl (fun _ _ => ?_) _ _)
    refine .ite (.refl _) ?_
    exact .trans (.trans (State.modVPort_keeps ..) (State.appendLog_keeps ..)) (State.raise_keeps ..)
  have hs5 : s.Keeps s5 := .ite hs4 (hs4.trans (.fields ..))
  have hs6 : s.Keeps s6 := .ite (hs5.trans (State.portFailed_keeps ..)) hs5
  have hs7 : s.Keeps s7 := .ite hs6 (.ite (hs6.trans (State.pliwickEntry_keeps ..)) hs6)
  have hs8 : s.Keeps s8 := by
    unfold s8
    split
    · exact hs7
    · exact hs7.trans (State.stepOver_keeps ..)
  exact .ite (.next (.refl _)) (.next (.trans (.ite (hs8.trans (State.replay_keeps ..)) hs8) (State.pump_keeps ..)))

/-! System records (R318–R321). -/

theorem State.takeRecord_keeps (s : State) (n type : Nat) : s.KeptIn (fun r => r.2.2.2) (s.takeRecord n type) := by
  unfold State.takeRecord
  refine .ite .none ?_
  split
  · exact .none
  · exact .ite .none (.some (.fields ..))

theorem State.sendMark_keeps (s : State) (tick att : Nat) : s.Keeps (s.sendMark tick att) := by
  unfold State.sendMark
  exact .trans (.fields ..) (State.sendDown_keeps ..)

theorem State.takeToken_keeps (s : State) (r : SysRecord) : s.Keeps (s.takeToken r) := by
  unfold State.takeToken
  split
  · exact .refl _
  · exact .ite (.refl _) (.trans (State.modRun_keeps ..) (State.tryCommit_keeps ..))

theorem State.rootGathered_keeps (s : State) (g : Gather) : s.Keeps (s.rootGathered g) := by
  unfold State.rootGathered
  refine .ite (.ite (State.sendMark_keeps ..) (.fields ..)) ?_
  refine .ite ?_ ?_
  · extract_lets _ s1 _
    have hs1 : s.Keeps s1 := .trans (State.sendDown_keeps ..) (State.takeToken_keeps ..)
    exact .ite (.trans (hs1.trans (.fields ..)) (State.sendMark_keeps ..)) hs1
  · exact .trans (State.sendDown_keeps ..) (State.noteOffers_keeps ..)

theorem State.gather_keeps (s : State) (from_ : Option Nat) (r : SysRecord) : s.Keeps (s.gather from_ r) := by
  unfold State.gather
  extract_lets _ _ _ _ _ _ s1
  have hs1 : s.Keeps s1 := .fields ..
  exact .ite (.refl _) (.ite (.ite (hs1.trans (State.rootGathered_keeps ..)) (hs1.trans (State.sendUp_keeps ..))) (.fields ..))

theorem State.upward_keeps (s : State) (n type : Nat) : s.Keeps (s.upward n type) := by
  unfold State.upward
  split
  · exact .refl _
  next h =>
    exact .ite (.trans ((State.takeRecord_keeps ..).of_eq h) (State.gather_keeps ..))
        (.ite (.trans ((State.takeRecord_keeps ..).of_eq h) (State.gather_keeps ..)) ((State.takeRecord_keeps ..).of_eq h))

theorem execEndRecord_keeps (n : Nat) (s : State) : s.KeptBy (execEndRecord n s) :=
  .next (State.upward_keeps ..)

theorem execOffer_keeps (n : Nat) (s : State) : s.KeptBy (execOffer n s) :=
  .next (State.upward_keeps ..)

theorem execHistUp_keeps (n : Nat) (s : State) : s.KeptBy (execHistUp n s) :=
  .next (State.upward_keeps ..)

theorem State.takeSysAbandon_keeps (s : State) (r : SysRecord) : s.Keeps (s.takeSysAbandon r) := by
  unfold State.takeSysAbandon
  extract_lets s1 _
  have hs1 : s.Keeps s1 := by
    unfold s1
    split
    · exact .refl _
    · exact .ite (.trans (State.abandon_keeps ..) (State.bump_keeps ..)) (.refl _)
  exact .ite (hs1.trans (.fields ..)) hs1

theorem State.rootAbort_keeps (s : State) (r : SysRecord) : s.Keeps (s.rootAbort r) := by
  unfold State.rootAbort
  refine .ite (.refl _) ?_
  exact .trans (.trans (.trans (.fields ..) (State.sendDown_keeps ..)) (State.takeSysAbandon_keeps ..)) (.fields ..)

theorem execAbortRecord_keeps (n : Nat) (s : State) : s.KeptBy (execAbortRecord n s) := by
  unfold execAbortRecord
  split
  · exact .next (.refl _)
  next h =>
    refine .ite (.next ((State.takeRecord_keeps ..).of_eq h)) ?_
    refine .ite (.next (.trans ((State.takeRecord_keeps ..).of_eq h) (State.rootAbort_keeps ..))) ?_
    refine .ite (.next ((State.takeRecord_keeps ..).of_eq h)) ?_
    exact .next (.trans (.trans (.trans ((State.takeRecord_keeps ..).of_eq h) (.fields ..)) (State.sendUp_keeps ..)) (State.bump_keeps ..))

theorem execMark_keeps (n : Nat) (s : State) : s.KeptBy (execMark n s) := by
  unfold execMark
  split
  · exact .next (.refl _)
  next h =>
    refine .ite (.next ((State.takeRecord_keeps ..).of_eq h)) ?_
    exact .next (.trans (.trans ((State.takeRecord_keeps ..).of_eq h) (.fields ..)) (State.sendDown_keeps ..))

theorem execToken_keeps (n : Nat) (s : State) : s.KeptBy (execToken n s) := by
  unfold execToken
  split
  · exact .next (.refl _)
  next h =>
    exact .ite (.next (.trans (.trans ((State.takeRecord_keeps ..).of_eq h) (State.sendDown_keeps ..)) (State.takeToken_keeps ..)))
        (.next ((State.takeRecord_keeps ..).of_eq h))

theorem execSysAbandon_keeps (n : Nat) (s : State) : s.KeptBy (execSysAbandon n s) := by
  unfold execSysAbandon
  split
  · exact .next (.refl _)
  next h =>
    exact .ite (.next (.trans (.trans ((State.takeRecord_keeps ..).of_eq h) (State.sendDown_keeps ..)) (State.takeSysAbandon_keeps ..)))
        (.next ((State.takeRecord_keeps ..).of_eq h))

theorem execHistDown_keeps (n : Nat) (s : State) : s.KeptBy (execHistDown n s) := by
  unfold execHistDown
  split
  · exact .next (.refl _)
  next h =>
    exact .ite (.next (.trans (.trans ((State.takeRecord_keeps ..).of_eq h) (State.sendDown_keeps ..)) (State.noteOffers_keeps ..)))
        (.next ((State.takeRecord_keeps ..).of_eq h))

theorem execNextAttemptMark_keeps (s : State) : s.KeptBy (execNextAttemptMark s) := by
  unfold execNextAttemptMark
  split
  · exact .next (.refl _)
  · extract_lets _ _ s1
    have hs1 : s.Keeps s1 := .trans (State.advanceTo_keeps ..) (.fields ..)
    exact .whenElse hs1 (hs1.trans (State.sendMark_keeps ..))

/-! Posts (R324, R327). -/

theorem execVlnkXpost_keeps (acc : Nat) (s : State) : s.KeptBy (execVlnkXpost acc s) := by
  unfold execVlnkXpost
  split
  · exact .next (.refl _)
  · split
    · refine .ite (.next (.refl _)) ?_
      refine .ite (.next (State.reply_keeps ..)) ?_
      exact .ite (.next (State.reply_keeps ..)) (.ite (.next (State.reply_keeps ..))
          (.next (.trans (State.addPost_keeps ..) (State.reply_keeps ..))))
    · exact .next (.refl _)

/-! Lines and acknowledgements (R325, R326). -/

theorem State.importDone_keeps (s : State) (c : Nat) : s.Keeps (s.importDone c) := by
  unfold State.importDone
  split
  · exact .ite (State.finish_keeps ..) (.refl _)
  · exact .refl _

theorem State.receiveLine_keeps (s : State) (c lseq line sctx spanel : Nat) (data : List Byte) :
    s.Keeps (s.receiveLine c lseq line sctx spanel data) := by
  unfold State.receiveLine
  extract_lets _ refuse _
  have hrefuse : ∀ s1 st1, State.Keeps s1 (refuse s1 st1) := fun _ _ => State.sendSlot_keeps ..
  refine .ite (hrefuse _ _) ?_
  refine .ite (hrefuse _ _) ?_
  refine .ite (.refl _) ?_
  split
  next h =>
    extract_lets _ s2 _ s4
    have hs2 : s.Keeps s2 := .trans ((State.freeBit_keeps ..).snd h) (State.modCtx_keeps ..)
    have hs4 : s.Keeps s4 := .trans (.ite (hs2.trans (State.ctxIssue_keeps ..)) hs2) (State.importDone_keeps ..)
    exact .ite (hs4.trans (State.ctxAckDue_keeps ..)) hs4

theorem execTransferLine_keeps (n : Nat) (s : State) : s.KeptBy (execTransferLine n s) := by
  unfold execTransferLine
  split
  · exact .next (.refl _)
  · split
    · exact .ite (.next (.refl _)) (.next (.trans (State.leaveHem_keeps ..) (State.receiveLine_keeps ..)))
    · exact .next (.refl _)

theorem State.retransmit_keeps (s : State) (c : Nat) : s.Keeps (s.retransmit c) := by
  unfold State.retransmit
  exact .trans (State.modCtx_keeps ..) (State.ctxPump_keeps ..)

theorem State.takePathDown_keeps (s : State) (c d : Nat) : s.Keeps (s.takePathDown c d) := by
  unfold State.takePathDown
  extract_lets _ s1 s2
  have hs1 : s.Keeps s1 := State.modCtx_keeps ..
  have hs2 : s.Keeps s2 := State.modCtx_keeps ..
  exact .ite (.refl _) (.ite (.ite (hs1.trans (State.retransmit_keeps ..)) hs1) (.ite (hs2.trans (State.retransmit_keeps ..)) hs2))

theorem State.receiveAck_keeps (s : State) (c lseq st d : Nat) : s.Keeps (s.receiveAck c lseq st d) := by
  unfold State.receiveAck
  refine .ite (State.takePathDown_keeps ..) ?_
  exact .ite (.refl _) (.ite (.trans (.trans (State.modCtx_keeps ..) (State.ctxFinish_keeps ..)) (State.ctxPump_keeps ..))
      (State.ctxFail_keeps ..))

theorem execTransferAck_keeps (n : Nat) (s : State) : s.KeptBy (execTransferAck n s) := by
  unfold execTransferAck
  split
  · exact .next (.refl _)
  · split
    · exact .ite (.next (.refl _)) (.next (.trans (State.leaveHem_keeps ..) (State.receiveAck_keeps ..)))
    · exact .next (.refl _)

theorem execTransitSlot_keeps (n : Nat) (s : State) : s.KeptBy (execTransitSlot n s) := by
  unfold execTransitSlot
  split
  · exact .next (.refl _)
  · exact .next (State.hemMove_keeps ..)

theorem execReceiveAckTimer_keeps (c : Fin 4096) (s : State) : s.KeptBy (execReceiveAckTimer c s) := by
  unfold execReceiveAckTimer
  split
  · exact .next (.refl _)
  · exact .when (.trans (State.advanceTo_keeps ..) (State.ctxAckDue_keeps ..))

theorem execRetransmitTimeout_keeps (c : Fin 4096) (s : State) : s.KeptBy (execRetransmitTimeout c s) := by
  unfold execRetransmitTimeout
  exact .when (.trans (State.advanceTo_keeps ..) (State.retransmit_keeps ..))

theorem execPathTimeout_keeps (c : Fin 4096) (s : State) : s.KeptBy (execPathTimeout c s) := by
  unfold execPathTimeout
  split
  · exact .next (.refl _)
  · exact .when (.trans (State.advanceTo_keeps ..) (State.ctxFail_keeps ..))

/-! DRAM replies (R323, R325). -/

theorem State.sourceLine_keeps (s : State) (c : Nat) (l : XLine) (got : Option (List Byte)) : s.Keeps (s.sourceLine c l got) := by
  unfold State.sourceLine
  extract_lets
  refine .ite (.refl _) ?_
  refine .ite (.refl _) ?_
  split
  · exact State.ctxFail_keeps ..
  · exact .trans (State.modCtx_keeps ..) (State.sendSlot_keeps ..)

theorem State.pumpCtxs_keeps (s : State) (e : Nat) : s.Keeps (s.pumpCtxs e) :=
  .foldl (fun _ _ => .ite (State.ctxPump_keeps ..) (.refl _)) _ _

theorem State.ctxAccess_keeps (s : State) (c : Nat) (l : XLine) (err : Symbols) : s.KeptIn (fun r => r.2) (s.ctxAccess c l err) := by
  unfold State.ctxAccess
  split
  · exact .some (.refl _)
  · exact .ite ((State.writeBytes_keeps ..).map fun _ => .refl _) ((State.readLine_keeps ..).map fun _ => .refl _)

theorem execContextDramReply_keeps (c : Fin 4096) (err : Symbols) (s : State) : s.KeptBy (execContextDramReply c err s) := by
  unfold execContextDramReply
  extract_lets
  split
  · exact .next (.refl _)
  · refine .ite (.next (.refl _)) ?_
    split
    · exact .next (.refl _)
    next h1 =>
      extract_lets _ _ s3 s4 _
      have hs3 : s.Keeps s3 := .trans (.trans ((State.ctxAccess_keeps ..).of_eq h1) (.fields ..)) (State.modCtx_keeps ..)
      have hs4 : s.Keeps s4 := .ite hs3 (hs3.trans (State.sourceLine_keeps ..))
      exact .next (.trans (.ite (hs4.trans (State.ctxAckDue_keeps ..)) hs4) (State.pumpCtxs_keeps ..))

/-! The link (R334, R349, R351). -/

theorem State.linkFail_keeps (s : State) (rate width : Nat) (proto : Bool) : s.Keeps (s.linkFail rate width proto) :=
  .trans (.fields ..) (State.raise_keeps ..)

theorem execHostLinkTraining_keeps (rate : Fin 5) (width : Fin 17) (protocols : Bool) (s : State) :
    s.KeptBy (execHostLinkTraining rate width protocols s) := by
  unfold execHostLinkTraining
  refine .ite (.next (.refl _)) ?_
  refine .ite (.next (State.linkFail_keeps ..)) ?_
  refine .ite (.next (.refl _)) ?_
  exact .next (.trans (State.setFld_keeps ..) (.fields ..))

theorem execHostLinkTimeout_keeps (rate : Fin 5) (width : Fin 17) (s : State) : s.KeptBy (execHostLinkTimeout rate width s) := by
  unfold execHostLinkTimeout
  split
  · exact .next (.refl _)
  · exact .when (.trans (State.advanceTo_keeps ..) (State.linkFail_keeps ..))

theorem State.linkLost_keeps (s : State) : s.Keeps s.linkLost :=
  .ite (.trans (State.setFld_keeps ..) (State.bump_keeps ..)) (.refl _)

theorem execHostLinkLoss_keeps (s : State) : s.KeptBy (execHostLinkLoss s) :=
  .next (State.linkLost_keeps ..)

theorem execIdeIntegrityFailure_keeps (s : State) : s.KeptBy (execIdeIntegrityFailure s) :=
  .when (.trans (.fields ..) (State.linkLost_keeps ..))

theorem execIdeKeyManagement_keeps (cachemem activate : Bool) (s : State) : s.KeptBy (execIdeKeyManagement cachemem activate s) := by
  unfold execIdeKeyManagement
  exact .ite (.next (.refl _)) (.ite (.when (State.setFld_keeps ..)) (.next (.fields ..)))

/-! Panel accesses to host memory (R338, R339). -/

theorem execHostMemoryAccess_keeps (acc : Nat) (data : List Byte) (s : State) : s.KeptBy (execHostMemoryAccess acc data s) := by
  unfold execHostMemoryAccess
  split
  · exact .next (.refl _)
  · split
    · split
      · exact .ite (.next (State.reply_keeps ..)) (.next (.trans (State.hostRefused_keeps ..) (State.reply_keeps ..)))
      · exact .ite (.next (.trans (State.writeHost_keeps ..) (State.reply_keeps ..)))
            (.next (.trans (State.hostRefused_keeps ..) (State.reply_keeps ..)))
      · exact .next (State.reply_keeps ..)
    · exact .next (.refl _)

/-! The memory window (R340–R345). -/

theorem execHostMemEn_keeps (on : Bool) (s : State) : s.KeptBy (execHostMemEn on s) := by
  unfold execHostMemEn
  refine .ite (.next (.refl _)) ?_
  refine .ite (.next (State.setFld_keeps ..)) ?_
  extract_lets _ s1 _ _
  have hs1 : s.Keeps s1 := State.setFld_keeps ..
  exact .ite (.next (hs1.trans (State.setFld_keeps ..))) (.next (.trans (hs1.trans (State.setFld_keeps ..)) (.fields ..)))

theorem State.memReply_keeps (s : State) (data : List Byte) (poison : Bool) : s.Keeps (s.memReply data poison) :=
  .fields ..

theorem execCxlMemRead_keeps (line : Nat) (err : Symbols) (s : State) : s.KeptBy (execCxlMemRead line err s) := by
  unfold execCxlMemRead
  extract_lets _ poison
  have hpoison : ∀ s1, State.Keeps s1 (poison s1) := fun s1 => State.memReply_keeps ..
  refine .ite (.next (.refl _)) ?_
  refine .ite (.next (hpoison _)) ?_
  split
  · exact .next (.trans (State.bump_keeps ..) (hpoison _))
  · exact .next (State.memReply_keeps ..)
  · split
    · exact .next (.trans (State.bump_keeps ..) (hpoison _))
    · split
      · exact .next (.refl _)
      next h2 =>
        exact .ite (.next (.trans ((State.readLine_keeps ..).of_eq h2) (State.memReply_keeps ..)))
            (.next (.trans (.trans ((State.readLine_keeps ..).of_eq h2) (State.bump_keeps ..)) (hpoison _)))

theorem execCxlMemWrite_keeps (line : Nat) (data : List Byte) (mask : BitVec 64) (s : State) :
    s.KeptBy (execCxlMemWrite line data mask s) := by
  unfold execCxlMemWrite
  extract_lets _ s1 _ _ _
  have hs1 : s.Keeps s1 := State.bump_keeps ..
  refine .ite (.fault _) ?_
  refine .ite (.next (.refl _)) ?_
  split
  · exact .next (State.bump_keeps ..)
  · refine .ite (.ite (.next hs1) (.next (.trans (hs1.trans (.fields ..)) (State.raise_keeps ..)))) ?_
    split
    · exact .next (.refl _)
    · split
      · exact .next (.refl _)
      next h2 =>
        exact .next ((State.writeMask_keeps ..).of_eq h2)

/-! Notifications and interrupts (R348, R350). -/

theorem execCommitNotification_keeps (s : State) : s.KeptBy (execCommitNotification s) := by
  unfold execCommitNotification
  split
  · exact .next (.refl _)
  · extract_lets _ _ _ s1 s2
    have hs1 : s.Keeps s1 := .fields ..
    have hs2 : s.Keeps s2 := .ite hs1 (.ite (hs1.trans (State.writeHost_keeps ..)) (hs1.trans (State.hostRefused_keeps ..)))
    exact .ite (.next hs1) (.next (.ite (hs2.trans (State.signal_keeps ..)) hs2))

theorem execMsixUnmask_keeps (v : Fin 64) (enable : Bool) (s : State) : s.KeptBy (execMsixUnmask v enable s) := by
  unfold execMsixUnmask
  extract_lets _ _ _ t _
  have ht : s.Keeps t := .fields ..
  exact .ite (.next (.refl _)) (.ite (.next (ht.trans (.fields ..))) (.next ht))

/-! Host-side resets (R351, R359, R376). -/

theorem State.functionReset_keeps (s : State) : s.Keeps s.functionReset := by
  unfold State.functionReset
  exact .trans (State.resetRegs_keeps ..) (.fields ..)

theorem execFunctionLevelReset_keeps (s : State) : s.KeptBy (execFunctionLevelReset s) :=
  .next (State.functionReset_keeps ..)

theorem State.conventionalReset_keeps (s : State) : s.Keeps s.conventionalReset := by
  unfold State.conventionalReset
  exact .trans (.trans (.trans (.trans (State.functionReset_keeps ..) (State.resetRegs_keeps ..)) (State.setFld_keeps ..))
      (State.setReg_keeps ..)) (.fields ..)

theorem execConventionalReset_keeps (s : State) : s.KeptBy (execConventionalReset s) :=
  .next (State.conventionalReset_keeps ..)

/-! Features (R356–R359). -/

theorem State.setReadyCode_keeps (s : State) (v : Nat) : s.Keeps (s.setReadyCode v) :=
  State.setFld_keeps ..

theorem State.becomeReady_keeps (s : State) : s.Keeps s.becomeReady := by
  unfold State.becomeReady
  extract_lets s1
  have hs1 : s.Keeps s1 := .foldl (fun _ _ => State.setFld_keeps ..) _ _
  exact hs1.trans (State.setFld_keeps ..)

theorem execFeaturesOk_keeps (s : State) : s.KeptBy (execFeaturesOk s) := by
  unfold execFeaturesOk
  extract_lets refuse _ _ _ _ s'1
  have hrefuse : ∀ b1, State.Keeps s (refuse b1) := fun b1 => State.setFld_keeps ..
  have hs'1 : s.Keeps s'1 := .trans (State.setFld_keeps ..) (.fields ..)
  exact .ite (.next (.refl _)) (.ite (.next (hrefuse _)) (.ite (.next (hrefuse _))
      (.next (.ite (.trans (hs'1.trans (State.setReadyCode_keeps ..)) (State.becomeReady_keeps ..)) hs'1))))

theorem execHostDriverFeaturesWrite_keeps (w : Fin 4) (v : BitVec 64) (s : State) : s.KeptBy (execHostDriverFeaturesWrite w v s) :=
  .ite (.next (.refl _)) (.next (.trans (State.setReg_keeps ..) (State.setFld_keeps ..)))

/-! Pairs (R360, R361, R364). -/

theorem State.setQStat_keeps (s : State) (q lo w v : Nat) : s.Keeps (s.setQStat q lo w v) :=
  State.setFld_keeps ..

theorem execQueueEnable_keeps (q : Fin 64) (v : BitVec 64) (s : State) : s.KeptBy (execQueueEnable q v s) := by
  unfold execQueueEnable
  exact .ite (.next (.refl _)) (.ite (.ite (.next (.refl _)) (.next (.trans (State.setFld_keeps ..) (State.modPair_keeps ..))))
      (.ite (.next (.refl _)) (.ite (.next (State.setReg_keeps ..)) (.ite (.next (.refl _))
      (.next (.trans (.trans (State.setReg_keeps ..) (State.setReg_keeps ..)) (State.modPair_keeps ..)))))))

theorem State.queueError_keeps (s : State) (q cause : Nat) : s.Keeps (s.queueError q cause) :=
  .trans (.trans (State.setQStat_keeps ..) (State.setQStat_keeps ..)) (State.raise_keeps ..)

theorem State.takeTail_keeps (s : State) (q v : Nat) : s.Keeps (s.takeTail q v) :=
  .ite (State.queueError_keeps ..) (State.modPair_keeps ..)

theorem State.takeHead_keeps (s : State) (q v : Nat) : s.Keeps (s.takeHead q v) := by
  unfold State.takeHead
  exact .ite (State.queueError_keeps ..) (State.modPair_keeps ..)

theorem State.dbIgnored_keeps (s : State) : s.Keeps s.dbIgnored :=
  State.bump_keeps ..

theorem execSqTailDoorbell_keeps (q : Fin 64) (v : BitVec 12) (s : State) : s.KeptBy (execSqTailDoorbell q v s) :=
  .ite (.next (.refl _)) (.ite (.next (State.dbIgnored_keeps ..)) (.ite (.next (State.modPair_keeps ..)) (.next (State.takeTail_keeps ..))))

theorem execCqHeadDoorbell_keeps (q : Fin 64) (v : BitVec 12) (s : State) : s.KeptBy (execCqHeadDoorbell q v s) :=
  .ite (.next (.refl _)) (.ite (.next (State.dbIgnored_keeps ..)) (.ite (.next (State.modPair_keeps ..)) (.next (State.takeHead_keeps ..))))

theorem State.releaseDoorbells_keeps (s : State) : s.Keeps s.releaseDoorbells := by
  unfold State.releaseDoorbells
  refine .foldl (fun x _ => ?_) _ _
  extract_lets _ s1 s2
  have hs1 : x.Keeps s1 := by
    unfold s1
    split
    · exact .refl _
    · exact State.takeTail_keeps ..
  have hs2 : x.Keeps s2 := by
    unfold s2
    split
    · exact hs1
    · exact hs1.trans (State.takeHead_keeps ..)
  exact .ite hs2 (hs2.trans (State.modPair_keeps ..))

theorem execEventHeadDoorbell_keeps (v : BitVec 16) (s : State) : s.KeptBy (execEventHeadDoorbell v s) := by
  unfold execEventHeadDoorbell
  split
  · exact .next (.refl _)
  · refine .ite (.next (.refl _)) ?_
    extract_lets _ s1 _ _
    have hs1 : s.Keeps s1 := .fields ..
    refine .ite (.next hs1) ?_
    split
    next h1 =>
      exact .next (.trans (.trans (hs1.trans ((State.makeEvent_keeps ..).snd h1)) (State.ringWrite_keeps ..)) (.fields ..))

/-! Commands (R362, R365–R369). -/

theorem execCommandFetch_keeps (q : Fin 64) (bytes : List Byte) (s : State) : s.KeptBy (execCommandFetch q bytes s) := by
  unfold execCommandFetch
  extract_lets _ _ _ _ _ _ _ _ s2 _ _ _ _
  have hs2 : s.Keeps s2 := .trans (.fields ..) (State.setQStat_keeps ..)
  refine .ite (.fault _) ?_
  refine .ite (.next (.refl _)) ?_
  refine .ite (.next (.trans (State.hostRefused_keeps ..) (State.queueError_keeps ..))) ?_
  refine .ite (.next (hs2.trans (State.modPair_keeps ..))) ?_
  split
  · exact .next (hs2.trans (State.modPair_keeps ..))
  · exact .next (hs2.trans (State.modPair_keeps ..))

theorem State.await_keeps (s : State) (q cid note : Nat) : s.Keeps (s.await q cid note) :=
  State.modCmd_keeps ..

theorem execCompletionWrite_keeps (q : Fin 64) (s : State) : s.KeptBy (execCompletionWrite q s) := by
  unfold execCompletionWrite
  extract_lets
  split
  · exact .next (.refl _)
  · refine .ite (.next (.refl _)) ?_
    refine .ite (.ite (.next (.refl _)) (.next (.trans (State.hostRefused_keeps ..) (State.queueError_keeps ..)))) ?_
    extract_lets _ _ s3 s4
    have hs3 : s.Keeps s3 := .trans (.trans (State.writeHost_keeps ..) (State.modPair_keeps ..)) (State.setQStat_keeps ..)
    have hs4 : s.Keeps s4 := .ite (hs3.trans (State.setQStat_keeps ..)) hs3
    exact .next (.ite (hs4.trans (State.signal_keeps ..)) hs4)

/-! Status codes (R367). -/

theorem State.done_keeps (s : State) (q : Fin 64) (cid : Cid) (result : Nat) : s.Keeps (s.done q cid result) :=
  State.finish_keeps ..

theorem State.fail_keeps (s : State) (q : Fin 64) (cid : Cid) (code detail : Nat) : s.Keeps (s.fail q cid code detail) :=
  State.finish_keeps ..

theorem onCommand_keeps (s : State) (q : Fin 64) (cid : Cid) (op : Nat) {f : HostCmd → State} (h : ∀ c, s.Keeps (f c)) :
    s.KeptBy (onCommand s q cid op f) := by
  unfold onCommand
  split
  · exact .next (.refl _)
  · exact .next (h _)

theorem State.toBuffer_keeps (s : State) (q : Fin 64) (cid : Cid) (c : HostCmd) (k : Nat) (bs : List Byte) (result : Nat) :
    s.Keeps (s.toBuffer q cid c k bs result) :=
  .ite (.trans (State.writeHost_keeps ..) (State.done_keeps ..)) (.trans (State.hostRefused_keeps ..) (State.fail_keeps ..))

theorem State.fromBuffer_keeps (s : State) (q : Fin 64) (cid : Cid) (c : HostCmd) (k n : Nat) {f : State} (h : s.Keeps f) :
    s.Keeps (s.fromBuffer q cid c k n f) :=
  .ite h (.trans (State.hostRefused_keeps ..) (State.fail_keeps ..))

/-! Identity, features, ABORT, events (R368, R370, R371, R431). -/

theorem execIdentify_keeps (q : Fin 64) (cid : Cid) (s : State) : s.KeptBy (execIdentify q cid s) :=
  onCommand_keeps _ _ _ _ (fun _ => .ite (State.fail_keeps ..) (State.toBuffer_keeps ..))

theorem execFeaturesGet_keeps (q : Fin 64) (cid : Cid) (s : State) : s.KeptBy (execFeaturesGet q cid s) :=
  onCommand_keeps _ _ _ _ (fun _ => State.toBuffer_keeps ..)

theorem execAbort_keeps (q : Fin 64) (cid : Cid) (waiting : List (BitVec 16)) (s : State) : s.KeptBy (execAbort q cid waiting s) := by
  unfold execAbort
  refine onCommand_keeps _ _ _ _ ?_
  intro x
  extract_lets _ _ gone _
  have hgone : ∀ s1 head1, State.Keeps s1 (gone s1 head1) := fun _ _ => State.modPair_keeps ..
  split
  · exact .ite (.trans (.trans (hgone _ _) (State.modPair_keeps ..)) (State.done_keeps ..)) (State.done_keeps ..)
  · split
    · exact State.done_keeps ..
    · exact .ite (.trans (.trans (hgone _ _) (State.modPair_keeps ..)) (State.done_keeps ..)) (State.done_keeps ..)

theorem execEventRing_keeps (q : Fin 64) (cid : Cid) (s : State) : s.KeptBy (execEventRing q cid s) := by
  unfold execEventRing
  refine onCommand_keeps _ _ _ _ ?_
  intro x
  exact .ite (.trans (.fields ..) (State.done_keeps ..)) (.ite (State.fail_keeps ..)
      (.ite (State.fail_keeps ..) (.ite (.trans (State.hostRefused_keeps ..) (State.fail_keeps ..))
      (.trans (.trans (.fields ..) (.foldl (fun _ _ => State.publish_keeps ..) _ _)) (State.done_keeps ..)))))

/-! Configuration sets (R274, R275, R278, R369). -/

theorem execCfgLoad_keeps (q : Fin 64) (cid : Cid) (data : List Byte) (s : State) : s.KeptBy (execCfgLoad q cid data s) := by
  unfold execCfgLoad
  refine onCommand_keeps _ _ _ _ ?_
  intro x
  exact .ite (State.fail_keeps ..) (.ite (State.fail_keeps ..) (.ite (State.fail_keeps ..)
      (.ite (.trans (State.hostRefused_keeps ..) (State.fail_keeps ..)) (.trans (.fields ..) (State.done_keeps ..)))))

theorem execCfgSeal_keeps (q : Fin 64) (cid : Cid) (s : State) : s.KeptBy (execCfgSeal q cid s) := by
  unfold execCfgSeal
  refine onCommand_keeps _ _ _ _ ?_
  intro x
  refine .ite (State.fail_keeps ..) ?_
  extract_lets _ _ s1 _
  have hs1 : s.Keeps s1 := .fields ..
  split
  · exact .trans (hs1.trans (State.recordSeal_keeps ..)) (State.fail_keeps ..)
  · exact .ite (.trans (hs1.trans (State.sealed_keeps ..)) (State.done_keeps ..))
        (.trans (hs1.trans (.foldl (fun _ _ => State.requestOn_keeps ..) _ _)) (State.await_keeps ..))

theorem execCfgTack_keeps (q : Fin 64) (cid : Cid) (s : State) : s.KeptBy (execCfgTack q cid s) :=
  onCommand_keeps _ _ _ _ (fun _ => .ite (State.fail_keeps ..) (.ite (State.fail_keeps ..)
      (.trans (State.acceptTack_keeps ..) (State.await_keeps ..))))

/-! Ticking (R251, R369). -/

theorem State.startTicking_keeps (s : State) : s.Keeps s.startTicking := by
  unfold State.startTicking
  extract_lets _ s1
  have hs1 : s.Keeps s1 := State.writeRun_keeps ..
  exact .ite (hs1.trans (State.sendMark_keeps ..)) hs1

theorem execRun_keeps (run : Bool) (s : State) : s.KeptBy (execRun run s) :=
  .next (.ite (State.startTicking_keeps ..) (State.writeRun_keeps ..))

theorem execTickStart_keeps (q : Fin 64) (cid : Cid) (s : State) : s.KeptBy (execTickStart q cid s) := by
  unfold execTickStart
  refine onCommand_keeps _ _ _ _ ?_
  intro x
  refine .ite (State.fail_keeps ..) ?_
  exact .trans (.trans (State.modGen_keeps ..) (State.startTicking_keeps ..)) (State.await_keeps ..)

theorem execTickStop_keeps (q : Fin 64) (cid : Cid) (s : State) : s.KeptBy (execTickStop q cid s) :=
  onCommand_keeps _ _ _ _ (fun _ => .ite (State.done_keeps ..) (.trans (.trans (State.await_keeps ..) (State.writeRun_keeps ..))
      (State.tickWaiters_keeps ..)))

theorem execTickStep_keeps (q : Fin 64) (cid : Cid) (s : State) : s.KeptBy (execTickStep q cid s) := by
  unfold execTickStep
  refine onCommand_keeps _ _ _ _ ?_
  intro x
  exact .ite (State.fail_keeps ..) (.ite (State.fail_keeps ..) (.trans (.trans (State.modGen_keeps ..) (State.startTicking_keeps ..))
      (State.await_keeps ..)))

theorem execTickSetSeq_keeps (q : Fin 64) (cid : Cid) (s : State) : s.KeptBy (execTickSetSeq q cid s) :=
  onCommand_keeps _ _ _ _ (fun _ => .ite (.trans (State.writeSeq_keeps ..) (State.done_keeps ..)) (State.fail_keeps ..))

/-! Worlds (R254, R257, R258, R267, R369). -/

theorem execWorldRead_keeps (q : Fin 64) (cid : Cid) (s : State) : s.KeptBy (execWorldRead q cid s) := by
  unfold execWorldRead
  refine onCommand_keeps _ _ _ _ ?_
  intro x
  exact State.toBuffer_keeps ..

theorem execWorldWrite_keeps (q : Fin 64) (cid : Cid) (data : List Byte) (s : State) : s.KeptBy (execWorldWrite q cid data s) := by
  unfold execWorldWrite
  refine onCommand_keeps _ _ _ _ ?_
  intro x
  exact State.fromBuffer_keeps _ _ _ _ _ _ (.ite (State.fail_keeps ..) (.ite (State.fail_keeps ..)
      (.ite (State.fail_keeps ..) (.trans (State.setWorld_keeps ..) (State.done_keeps ..)))))

theorem execWorldReset_keeps (q : Fin 64) (cid : Cid) (s : State) : s.KeptBy (execWorldReset q cid s) :=
  onCommand_keeps _ _ _ _ (fun _ => .ite (State.fail_keeps ..) (.trans (.foldl (fun _ _ => State.setWorld_keeps ..) _ _)
      (State.done_keeps ..)))

theorem execWorldState_keeps (q : Fin 64) (cid : Cid) (s : State) : s.KeptBy (execWorldState q cid s) := by
  unfold execWorldState
  refine onCommand_keeps _ _ _ _ ?_
  intro x
  exact .ite (State.fail_keeps ..) (.ite (State.fail_keeps ..) (.ite (State.fail_keeps ..)
      (.trans (.foldl (fun _ _ => State.setWorld_keeps ..) _ _) (State.done_keeps ..))))

/-! Data (R342, R369). -/

theorem dmaToPanel_keeps (host panel n : Nat) (data : List Byte) (s : State) :
    s.KeptIn (fun r => r.1) (dmaToPanel host panel n data s) := by
  induction n generalizing host panel data s with
  | zero => exact .some (.refl s)
  | succ n ih =>
    unfold dmaToPanel
    extract_lets first bs rest
    refine .ite (.some (State.hostRefused_keeps ..)) (.ite (.some (.refl s)) ?_)
    split
    · exact .none
    next h =>
    have hs1 := (State.edgeWriteOf_keeps ..).of_eq h
    split
    · exact .none
    next h2 =>
    have hs2 := hs1.trans ((State.KeptIn.ite (State.edgeWriteOf_keeps ..) (.some (.refl _))).of_eq h2)
    exact .ite (hs2.keptIn (ih ..)) (.some hs2)

theorem execDmaWrite_keeps (q : Fin 64) (cid : Cid) (data : List Byte) (s : State) : s.KeptBy (execDmaWrite q cid data s) := by
  unfold execDmaWrite
  refine onCommand_keeps _ _ _ _ ?_
  intro x
  split
  · exact State.fail_keeps ..
  · split
    · exact .refl _
    next h1 =>
      exact .trans ((dmaToPanel_keeps ..).of_eq h1) (State.done_keeps ..)
    next h1 =>
      exact .trans ((dmaToPanel_keeps ..).of_eq h1) (State.fail_keeps ..)

theorem dmaToHost_keeps (host panel : Nat) (bad : List Nat) (n k : Nat) (s : State) :
    s.KeptIn (fun r => r.1) (dmaToHost host panel bad n k s) := by
  induction n generalizing k s with
  | zero => exact .some (.refl s)
  | succ n ih =>
    unfold dmaToHost
    extract_lets h a
    refine .ite (.some (.refl s)) ?_
    split
    · exact .none
    next he =>
    have hs := (State.edgeRead_keeps ..).of_eq he
    exact .ite (.some hs) (.ite (.some (hs.trans (State.hostRefused_keeps ..))) ((hs.trans (State.writeHost_keeps ..)).keptIn (ih ..)))

theorem execDmaRead_keeps (q : Fin 64) (cid : Cid) (bad : List Nat) (s : State) : s.KeptBy (execDmaRead q cid bad s) := by
  unfold execDmaRead
  refine onCommand_keeps _ _ _ _ ?_
  intro x
  split
  · exact State.fail_keeps ..
  · split
    · exact .refl _
    next h1 =>
      exact .trans ((dmaToHost_keeps ..).of_eq h1) (State.done_keeps ..)
    next h1 =>
      exact .trans ((dmaToHost_keeps ..).of_eq h1) (State.fail_keeps ..)

theorem execHistRead_keeps (q : Fin 64) (cid : Cid) (s : State) : s.KeptBy (execHistRead q cid s) := by
  unfold execHistRead
  refine onCommand_keeps _ _ _ _ ?_
  intro x
  exact State.toBuffer_keeps ..

theorem execPowerCap_keeps (q : Fin 64) (cid : Cid) (s : State) : s.KeptBy (execPowerCap q cid s) := by
  unfold execPowerCap
  refine onCommand_keeps _ _ _ _ ?_
  intro x
  refine .ite (State.fail_keeps ..) ?_
  exact .trans (.trans (State.setFld_keeps ..) (State.capNow_keeps ..)) (State.done_keeps ..)

/-! A core reset. -/

theorem State.resetRouter_keeps (s : State) (p : Nat) : s.Keeps (s.resetRouter p) :=
  .fields ..

theorem State.coreReset_keeps (s : State) (p : Nat) : s.Keeps (s.coreReset p) := by
  unfold State.coreReset
  extract_lets s1 s2 _ _
  have hs1 : s.Keeps s1 := .foldl (fun _ _ => State.reply_keeps ..) _ _
  have hs2 : s.Keeps s2 := hs1.trans (.foldl (fun _ _ => State.answerCredit_keeps ..) _ _)
  exact .trans (.trans (hs2.trans (State.resetRegs_keeps ..)) (State.resetRouter_keeps ..)) (State.modCore_keeps _ _ _ id)

theorem State.reinit_keeps (s : State) (p : Nat) : s.Keeps (s.reinit p) :=
  .ite (State.setFld_keeps ..) (.refl _)

/-! A cold or module reset. -/

theorem State.newNonce_keeps (s : State) : s.Keeps s.newNonce :=
  .fields ..

/-- A panel without cores and DRAM stacks. -/
theorem State.Keeps.bare {s t : State} (h1 : t.pending = s.pending) (h2 : t.rom = s.rom) (h3 : t.hostMem = s.hostMem) (h4 : t.cores = [])
    (h5 : t.drams = []) : s.Keeps t := by
  refine ⟨h1, h2, fun hs => ?_⟩
  obtain ⟨hhost, -, -⟩ := (State.memoriesCanonical_iff s).1 hs
  exact (State.memoriesCanonical_iff t).2 ⟨by rwa [h3], by simp [h4], by simp [h5]⟩

theorem State.powerOn_keeps (s : State) (level cause : Nat) : s.Keeps (s.powerOn level cause) := by
  unfold State.powerOn
  extract_lets _ _ _ __src1 t t1 _
  have ht : s.Keeps t := .bare rfl rfl rfl rfl rfl
  have ht1 : s.Keeps t1 := .trans (ht.trans (State.newNonce_keeps ..)) (State.setReg_keeps ..)
  exact .trans (.ite ht1 (ht1.trans (State.setReg_keeps ..))) (.foldl (fun _ _ => State.latchGroup_keeps ..) _ _)

theorem State.moduleReset_keeps (s : State) (cause : Nat) : s.Keeps (s.moduleReset cause) :=
  .trans (State.powerOn_keeps ..) (State.bump_keeps ..)

theorem State.shutdown_keeps (s : State) (cause extreme : Nat) : s.Keeps (s.shutdown cause extreme) := by
  unfold State.shutdown
  exact .trans (.trans (.fields ..) (State.powerOn_keeps ..)) (.fields ..)

/-! Cores (R438, R439). -/

theorem State.retireCore_keeps (s : State) (p cause : Nat) : s.Keeps (s.retireCore p cause) := by
  unfold State.retireCore
  exact .trans (.fields ..) (State.appendLog_keeps ..)

theorem State.noteLoss_keeps (s : State) (p : Nat) (inj : Bool) : s.Keeps (s.noteLoss p inj) := by
  unfold State.noteLoss
  exact .trans (.ite (.refl _) (.trans (.fields ..) (State.bump_keeps ..))) (State.raise_keeps ..)

theorem State.coreLost_keeps (s : State) (p : Nat) : s.Keeps (s.coreLost p) := by
  unfold State.coreLost
  refine .ite (.refl _) ?_
  extract_lets _ _ s1 _ _
  have hs1 : s.Keeps s1 := State.noteLoss_keeps ..
  exact .ite (hs1.trans (State.retireCore_keeps ..)) (.trans (.trans (hs1.trans (State.coreReset_keeps ..)) (State.reinit_keeps ..))
      (.fields ..))

theorem State.tackIfMapped_keeps (s : State) (ps : List Nat) : s.Keeps (s.tackIfMapped ps) :=
  .ite (State.autoTack_keeps ..) (.refl _)

theorem State.coresLost_keeps (s : State) (ps : List Nat) : s.Keeps (s.coresLost ps) := by
  unfold State.coresLost
  extract_lets _ _ s1
  have hs1 : s.Keeps s1 := .foldl (fun _ _ => State.coreLost_keeps ..) _ _
  exact .ite (.trans (hs1.trans (State.tackIfMapped_keeps ..)) (State.abandonOldest_keeps ..)) hs1

/-! Regions (R385, R386). -/

theorem State.darkRegion_keeps (s : State) (site r code : Nat) : s.Keeps (s.darkRegion site r code) := by
  unfold State.darkRegion
  extract_lets _ _ _ _ s3 _ s4
  have hs3 : s.Keeps s3 :=
    .trans (.trans (.trans (State.setReg_keeps ..) (State.setFld_keeps ..)) (State.appendLog_keeps ..)) (State.raise_keeps ..)
  have hs4 : s.Keeps s4 := hs3.trans (.foldl (fun _ _ => State.noteLoss_keeps ..) _ _)
  exact .ite hs3 (.trans (hs4.trans (State.autoTack_keeps ..)) (State.abandonOldest_keeps ..))

/-! Dies (R387, R402, R437, R442). -/

theorem State.fenceNode_keeps (s : State) (v : Nat) : s.Keeps (s.fenceNode v) :=
  .foldl (fun _ _ => .trans (State.fenceLink_keeps ..) (State.purgeLink_keeps ..)) _ _

theorem State.dieLost_keeps (s : State) (site : Nat) : s.Keeps (s.dieLost site) := by
  unfold State.dieLost
  extract_lets die _ s1 s2
  have hs2 : s.Keeps s2 :=
    .trans (.trans (.trans (.fields ..) (State.stopDie_keeps ..)) (State.fenceNode_keeps ..)) (State.appendLog_keeps ..)
  clear_value die
  refine .ite (.refl s) ?_
  cases die with
  | none => exact hs2.trans (State.autoTack_keeps ..)
  | some d =>
    exact .trans (.trans (.trans (hs2.trans (State.bump_keeps ..)) (State.autoTack_keeps ..)) (State.raise_keeps ..))
      (State.abandonOldest_keeps ..)

theorem State.seamLost_keeps (s : State) (site exit : Nat) : s.Keeps (s.seamLost site exit) := by
  unfold State.seamLost
  extract_lets _ s1 s2
  have hs1 : s.Keeps s1 := .trans (.trans (State.fenceLink_keeps ..) (State.purgeLink_keeps ..)) (State.appendLog_keeps ..)
  have hs2 : s.Keeps s2 := hs1.trans (State.raise_keeps ..)
  split
  · exact hs2.trans (State.autoTack_keeps ..)
  · exact hs2.trans (.foldl (fun _ _ => State.dieLost_keeps ..) _ _)

theorem State.edgeLost_keeps (s : State) (e step : Nat) : s.Keeps (s.edgeLost e step) := by
  unfold State.edgeLost
  refine .ite (.refl _) ?_
  extract_lets _ _ s2 _ _ _
  have hs2 : s.Keeps s2 := .trans (.trans (.fields ..) (State.fenceNode_keeps ..)) (State.appendLog_keeps ..)
  exact .trans (.ite (.trans (.trans (.ite (hs2.trans (State.linkDown_keeps ..)) hs2) (State.setPortState_keeps ..)) (.fields ..))
      (hs2.trans (State.linkLost_keeps ..))) (State.autoTack_keeps ..)

theorem State.groupLost_keeps (s : State) (i cause : Nat) : s.Keeps (s.groupLost i cause) := by
  unfold State.groupLost
  refine .ite (.refl _) ?_
  extract_lets s1 _ s2 _
  have hs1 : s.Keeps s1 := State.latchGroup_keeps ..
  have hs2 : s.Keeps s2 := .ite (hs1.trans (.fields ..)) hs1
  exact .ite (.trans (hs2.trans (State.raise_keeps ..)) (State.dieLost_keeps ..))
      (.ite (.trans (hs2.trans (State.raise_keeps ..)) (State.moduleReset_keeps ..))
      (.trans (hs2.trans (State.raise_keeps ..)) (State.edgeLost_keeps ..)))

/-! Converter groups (R377–R379, R387, R507). -/

theorem State.derate_keeps (s : State) (site cause : Nat) : s.Keeps (s.derate site cause) :=
  .trans (State.setFld_keeps ..) (State.appendLog_keeps ..)

theorem execConverterPhaseFailure_keeps (i : Fin 220) (phase : Fin 4) (s : State) : s.KeptBy (execConverterPhaseFailure i phase s) := by
  unfold execConverterPhaseFailure
  extract_lets _ _ s1 _ s3 _
  have hs1 : s.Keeps s1 := State.setFld_keeps ..
  have hs3 : s.Keeps s3 := .trans (.trans (.ite (hs1.trans (State.setFld_keeps ..)) hs1) (State.appendLog_keeps ..)) (State.raise_keeps ..)
  exact .ite (.next (.refl _)) (.ite (.next hs3) (.ite (.ite (.next hs3) (.next
      (.trans (hs3.trans (State.setFld_keeps ..)) (State.derate_keeps ..)))) (.next (hs3.trans (State.groupLost_keeps ..)))))

theorem execGroupOutputShort_keeps (i : Fin 220) (s : State) : s.KeptBy (execGroupOutputShort i s) :=
  .next (State.groupLost_keeps ..)

theorem execConverterOvertemp_keeps (i : Fin 220) (s : State) : s.KeptBy (execConverterOvertemp i s) :=
  .next (State.groupLost_keeps ..)

/-! Region regulators (R385). -/

theorem State.losePhase_keeps (s : State) (site r : Nat) (phase : Option Nat) (inj : Bool) : s.Keeps (s.losePhase site r phase inj) := by
  unfold State.losePhase
  extract_lets
  split
  · exact State.darkRegion_keeps ..
  · extract_lets s1 _ _ _
    have hs1 : s.Keeps s1 := State.setFld_keeps ..
    exact .ite (hs1.trans (State.raise_keeps ..)) (.ite (.trans (hs1.trans (State.appendLog_keeps ..)) (State.raise_keeps ..))
        (.ite (.trans (.trans (hs1.trans (State.modRegion_keeps ..)) (State.appendLog_keeps ..)) (State.raise_keeps ..))
        (hs1.trans (State.darkRegion_keeps ..))))

theorem execRegionPhaseFailure_keeps (site : Fin 204) (r : Fin 10) (phase : Option (Fin 5)) (s : State) :
    s.KeptBy (execRegionPhaseFailure site r phase s) := by
  unfold execRegionPhaseFailure
  exact .when (State.losePhase_keeps ..)

theorem execRegionOvercurrent_keeps (site : Fin 204) (r : Fin 10) (s : State) : s.KeptBy (execRegionOvercurrent site r s) :=
  .when (State.darkRegion_keeps ..)

/-! Turning regions on and off (R383, R384). -/

theorem execOnReq_keeps (site : Fin 204) (req : BitVec 10) (s : State) : s.KeptBy (execOnReq site req s) :=
  .next (.foldl (fun _ _ => .ite (State.requestOn_keeps ..) (.refl _)) _ _)

theorem execOffReq_keeps (site : Fin 204) (req : BitVec 10) (s : State) : s.KeptBy (execOffReq site req s) := by
  unfold execOffReq
  refine .next ?_
  refine .foldl (fun _ _ => ?_) _ _
  exact .ite (State.setFld_keeps ..) (.refl _)

theorem execRegionTurnOff_keeps (site : Fin 204) (r : Fin 10) (s : State) : s.KeptBy (execRegionTurnOff site r s) := by
  unfold execRegionTurnOff
  extract_lets _ _ _ _ _ _ t1
  have ht1 : s.Keeps t1 :=
    .trans (.trans (.trans (State.setFld_keeps ..) (State.setFld_keeps ..)) (State.setFld_keeps ..)) (State.setFld_keeps ..)
  exact .when ht1

theorem State.sealAfterRegions_keeps (s : State) : s.Keeps s.sealAfterRegions := by
  unfold State.sealAfterRegions
  extract_lets
  refine .ite (.refl _) ?_
  refine .foldl (fun _ _ => ?_) _ _
  refine .foldl (fun _ _ => ?_) _ _
  refine .ite (.refl _) ?_
  split
  · exact .trans (State.recordSeal_keeps ..) (State.finish_keeps ..)
  · exact .trans (State.sealed_keeps ..) (State.finish_keeps ..)

theorem State.regionOn_keeps (s : State) (site r : Nat) : s.Keeps (s.regionOn site r) := by
  unfold State.regionOn
  extract_lets _ _ _ _ s3
  have hs3 : s.Keeps s3 :=
    .trans (.trans (.trans (State.setFld_keeps ..) (State.setFld_keeps ..)) (State.setFld_keeps ..))
      (.foldl (fun _ _ => .ite (.refl _) (.trans (State.coreReset_keeps ..) (State.reinit_keeps ..))) _ _)
  exact hs3.trans (State.setHalf_keeps ..)

theorem execRegionStage_keeps (site : Fin 204) (r : Fin 10) (below above : BitVec 8) (s : State) :
    s.KeptBy (execRegionStage site r below above s) := by
  unfold execRegionStage
  extract_lets _ _ _ _ _ _ _ _ _ _ _ s3
  have hs3 : s.Keeps s3 :=
    .trans (.trans (.trans (.ite (State.advanceTo_keeps ..) (.refl _)) (State.setFld_keeps ..)) (State.setFld_keeps ..))
      (State.modRegion_keeps ..)
  exact .ite (.next (.refl _)) (.ite (.next hs3) (.next (.trans (.trans (hs3.trans (State.advanceTo_keeps ..)) (State.regionOn_keeps ..))
      (State.sealAfterRegions_keeps ..))))

/-! Contacts (R388, R389). -/

theorem State.trendEstimate_keeps (s : State) (site est : Nat) : s.Keeps (s.trendEstimate site est) := by
  unfold State.trendEstimate
  extract_lets
  split
  · exact .ite (.fields ..) (.fields ..)

theorem State.contactEstimate_keeps (s : State) (site est mv current : Nat) : s.Keeps (s.contactEstimate site est mv current) := by
  unfold State.contactEstimate
  extract_lets _ _ s2 e base src last s3 s4 s5 s6
  have hs2 : s.Keeps s2 := .trans (.trans (State.setReg_keeps ..) (State.telMin_keeps ..)) (State.telMax_keeps ..)
  have hs4 : s.Keeps s4 := .trans (.trans (.trans (hs2.trans (State.setFld_keeps ..)) (State.telMax_keeps ..))
    (State.trendEstimate_keeps ..)) (State.modDie_keeps ..)
  have hs5 : s.Keeps s5 :=
    .ite (.trans (hs4.trans (State.modDie_keeps ..)) (State.raise_keeps ..)) (.ite (hs4.trans (State.modDie_keeps ..)) hs4)
  have hs6 : s.Keeps s6 := .ite (.trans (hs5.trans (State.derate_keeps ..)) (State.raise_keeps ..)) hs5
  clear_value last
  refine .ite hs2 (.ite hs4 ?_)
  cases last with
  | none => exact hs6
  | some l => exact .ite (hs6.trans (State.raise_keeps ..)) hs6

theorem execContactEstimate_keeps (site : Fin 204) (est mv current : BitVec 16) (s : State) :
    s.KeptBy (execContactEstimate site est mv current s) :=
  .next (State.contactEstimate_keeps ..)

/-! The power budget (R392, R393). -/

theorem execPowerCompare_keeps (site : Fin 204) (avg : BitVec 16) (s : State) : s.KeptBy (execPowerCompare site avg s) := by
  unfold execPowerCompare
  extract_lets _ _ _ _ s1 _
  have hs1 : s.Keeps s1 := .trans (State.setFld_keeps ..) (State.telMax_keeps ..)
  exact .ite (.next (hs1.trans (State.modDie_keeps ..))) (.ite (.next (hs1.trans (State.modDie_keeps ..)))
      (.next (hs1.trans (State.modDie_keeps ..))))

theorem execBackstopCheck_keeps (avg : BitVec 16) (s : State) : s.KeptBy (execBackstopCheck avg s) := by
  unfold execBackstopCheck
  extract_lets _ s1 s2
  have hs1 : s.Keeps s1 := .trans (State.setFld_keeps ..) (State.telMax_keeps ..)
  have hs2 : s.Keeps s2 := hs1.trans (.foldl (fun _ _ => State.modDie_keeps ..) _ _)
  exact .ite (.next (hs2.trans (State.setFld_keeps ..))) (.next hs1)

/-! The supply (R394–R397). -/

theorem State.inputHigh_keeps (s : State) (mv : Nat) : s.Keeps (s.inputHigh mv) := by
  unfold State.inputHigh
  exact .ite (.fields ..) (.fields ..)

theorem State.telInput_keeps (s : State) (mv : Nat) : s.Keeps (s.telInput mv) := by
  unfold State.telInput
  exact .trans (.trans (.ite (State.telSet_keeps ..) (.refl _)) (State.telMin_keeps ..)) (State.telMax_keeps ..)

theorem State.reefOn_keeps (s : State) (mv : Nat) : s.Keeps (s.reefOn mv) := by
  unfold State.reefOn
  exact .trans (.trans (.trans (State.setReg_keeps ..) (State.bump_keeps ..)) (.fields ..)) (State.raise_keeps ..)

theorem State.reefOff_keeps (s : State) : s.Keeps s.reefOff := by
  unfold State.reefOff
  exact .trans (.trans (.trans (.ite (.fields ..) (.refl _)) (State.setReg_keeps ..)) (.fields ..)) (State.raise_keeps ..)

theorem execSupplySample_keeps (mv : BitVec 16) (s : State) : s.KeptBy (execSupplySample mv s) := by
  unfold execSupplySample
  extract_lets _ s1 _ _ _ _ s3 since _ s4
  have hs1 : s.Keeps s1 := .trans (.trans (State.setFld_keeps ..) (State.telInput_keeps ..)) (State.inputHigh_keeps ..)
  have hs4 : s.Keeps s4 := .trans (hs1.trans (State.setFld_keeps ..)) (.fields ..)
  clear_value since
  refine .ite (.next (.refl _)) (.ite (.next (.trans (hs1.trans (.fields ..)) (State.shutdown_keeps ..)))
    (.ite (.next (hs1.trans (State.shutdown_keeps ..))) (.ite ?_ ?_)))
  · exact .ite (.next (hs1.trans (State.reefOn_keeps ..))) (.next (hs1.trans (.fields ..)))
  · cases since with
    | none => exact .next hs4
    | some t => exact .ite (.next (hs4.trans (State.reefOff_keeps ..))) (.next hs4)

theorem execInputHighTimer_keeps (s : State) : s.KeptBy (execInputHighTimer s) := by
  unfold execInputHighTimer
  split
  · exact .next (.refl _)
  · exact .when (.trans (.trans (.fields ..) (State.advanceTo_keeps ..)) (State.raise_keeps ..))

theorem execSupplyRecovery_keeps (s : State) : s.KeptBy (execSupplyRecovery s) :=
  .when (State.moduleReset_keeps ..)

/-! The reference and the PLLs (R402). -/

theorem execReferenceLoss_keeps (s : State) : s.KeptBy (execReferenceLoss s) := by
  unfold execReferenceLoss
  exact .when (.trans (.trans (.fields ..) (State.setFld_keeps ..)) (State.bump_keeps ..))

theorem execReferenceReturn_keeps (s : State) : s.KeptBy (execReferenceReturn s) := by
  unfold execReferenceReturn
  split
  · exact .next (.refl _)
  · exact .when (.trans (.fields ..) (State.setFld_keeps ..))

theorem execHoldoverExpiry_keeps (s : State) : s.KeptBy (execHoldoverExpiry s) := by
  unfold execHoldoverExpiry
  split
  · exact .next (.refl _)
  · exact .next (.trans (.trans (State.advanceTo_keeps ..) (State.raise_keeps ..)) (State.shutdown_keeps ..))

theorem execPllLockLoss_keeps (v : Fin 214) (s : State) : s.KeptBy (execPllLockLoss v s) :=
  .ite (.next (.trans (State.setFld_keeps ..) (State.dieLost_keeps ..))) (.ite (.next (State.moduleReset_keeps ..))
      (.next (State.edgeLost_keeps ..)))

/-! Seam links (R16, R404, R405). -/

theorem State.setSep_keeps (s : State) (site e sep : Nat) : s.Keeps (s.setSep site e sep) := by
  unfold State.setSep
  extract_lets _ s1 _
  have hs1 : s.Keeps s1 := State.setFld_keeps ..
  exact .ite (hs1.trans (State.setFld_keeps ..)) hs1

theorem State.holdLink_keeps (s : State) (l : Nat) : s.Keeps (s.holdLink l) :=
  .fields ..

theorem execDriftRetraining_keeps (site : Fin 204) (e : Fin 4) (sep : BitVec 9) (s : State) :
    s.KeptBy (execDriftRetraining site e sep s) := by
  unfold execDriftRetraining
  exact .when (.trans (.trans (.trans (State.setSep_keeps ..) (State.bump_keeps ..)) (State.raise_keeps ..)) (State.holdLink_keeps ..))

theorem State.repairTracks_keeps (s : State) (spar : Nat) (ts : List (Nat × Nat × Nat)) : s.Keeps (s.repairTracks spar ts).1 := by
  induction ts generalizing s with
  | nil => exact .refl s
  | cons t ts ih =>
    unfold State.repairTracks
    extract_lets k n s1
    split
    · exact .fields ..
    · exact .trans (.trans (.fields ..) (State.appendLog_keeps ..)) (ih _)

theorem execRetrainingComplete_keeps (site : Fin 204) (e : Fin 4) (ok : Bool) (tracks : List (Fin 8 × Fin 256 × Fin 64)) (s : State) :
    s.KeptBy (execRetrainingComplete site e ok tracks s) := by
  unfold execRetrainingComplete
  extract_lets
  refine .ite (.next (.refl _)) ?_
  split
  next h =>
  have hs1 := (State.Keeps.sndIte (.refl s) (State.freeBit_keeps _)).snd h
  refine .ite (.next hs1) ?_
  extract_lets
  split
  next h1 =>
  extract_lets _ s3 _ _ s5 s6
  have hs3 : s.Keeps s3 := .trans (hs1.trans ((State.repairTracks_keeps ..).fst h1)) (.fields ..)
  have hs5 : s.Keeps s5 := .ite (hs3.trans (State.setFld_keeps ..))
    (.trans (.trans (hs3.trans (State.bump_keeps ..)) (State.raise_keeps ..)) (State.seamLost_keeps ..))
  have hs6 : s.Keeps s6 := by
    unfold s6
    split
    · exact hs5
    · exact hs5.trans (State.stepOver_keeps ..)
  exact .next (.ite (hs6.trans (State.endInjection_keeps ..)) hs6)

theorem execSeamLinkFail_keeps (site : Fin 204) (e : Fin 4) (s : State) : s.KeptBy (execSeamLinkFail site e s) := by
  unfold execSeamLinkFail
  exact .when (State.seamLost_keeps ..)

/-! The margin controller (R407–R409). -/

theorem State.setMv_keeps (s : State) (site r mv : Nat) : s.Keeps (s.setMv site r mv) := by
  unfold State.setMv
  exact .trans (State.setFld_keeps ..) (State.setFld_keeps ..)

theorem State.applyPlan_keeps (s : State) (site r : Nat) : s.Keeps (s.applyPlan site r) := by
  unfold State.applyPlan
  extract_lets
  split
  · refine .ite (.refl _) ?_
    exact .trans (.trans (State.setReg_keeps ..) (State.modRegion_keeps ..)) (State.setMv_keeps ..)
  · exact .refl _

theorem State.phaseReturns_keeps (s : State) (site r : Nat) : s.Keeps (s.phaseReturns site r) := by
  unfold State.phaseReturns
  split
  · exact .refl _
  · refine .ite (.refl _) ?_
    exact .trans (.trans (State.modRegion_keeps ..) (State.setFld_keeps ..)) (State.endInjection_keeps ..)

theorem State.wantHalf_keeps (s : State) (site r : Nat) : s.Keeps (s.wantHalf site r) :=
  State.modRegion_keeps ..

theorem State.raiseMv_keeps (s : State) (site r mv : Nat) : s.Keeps (s.raiseMv site r mv) := by
  unfold State.raiseMv
  extract_lets _ _ _ _ s1 _ s2
  have hs1 : s.Keeps s1 := .trans (State.modRegion_keeps ..) (State.setMv_keeps ..)
  have hs2 : s.Keeps s2 := State.modRegion_keeps ..
  exact .ite (.ite (.trans (hs1.trans (State.modRegion_keeps ..)) (State.raise_keeps ..)) hs1)
      (.ite (.trans (hs2.trans (State.wantHalf_keeps ..)) (State.raise_keeps ..)) hs2)

theorem execMarginControl_keeps (site : Fin 204) (r : Fin 10) (code : BitVec 6) (cur : BitVec 8) (s : State) :
    s.KeptBy (execMarginControl site r code cur s) := by
  unfold execMarginControl
  extract_lets _ _ _ _ s1 _ _ _ _ _ s5 _ _ _ _ s7 _
  have hs1 : s.Keeps s1 := .trans (State.setFld_keeps ..) (State.setFld_keeps ..)
  have hs5 : s.Keeps s5 :=
    .trans (.trans (.trans (.trans (.trans (.ite (hs1.trans (State.setFld_keeps ..)) hs1) (State.modRegion_keeps ..))
      (State.applyPlan_keeps ..)) (State.phaseReturns_keeps ..)) (State.telRegionMv_keeps ..)) (State.telCurrent_keeps ..)
  have hs7 : s.Keeps s7 := hs5.trans (State.modRegion_keeps ..)
  exact .ite (.next (.refl _)) (.ite (.next (.trans (.trans (hs5.trans (State.wantHalf_keeps ..)) (State.setFld_keeps ..))
      (State.raise_keeps ..))) (.ite (.next hs5) (.ite (.next (.trans (hs5.trans (State.modRegion_keeps ..)) (State.raiseMv_keeps ..)))
      (.ite (.ite (.next (.trans (hs7.trans (State.modRegion_keeps ..)) (State.setMv_keeps ..))) (.next hs7))
      (.next (hs5.trans (State.modRegion_keeps ..)))))))

theorem execHalfRateSwitch_keeps (site : Fin 204) (r : Fin 10) (s : State) : s.KeptBy (execHalfRateSwitch site r s) := by
  unfold execHalfRateSwitch
  extract_lets _ _ _ t1
  have ht1 : s.Keeps t1 :=
    .trans (.trans (.trans (State.advanceTo_keeps ..) (State.modRegion_keeps ..)) (State.setHalf_keeps ..)) (State.setMv_keeps ..)
  exact .when ht1

theorem execFullRateReturn_keeps (site : Fin 204) (r : Fin 10) (s : State) : s.KeptBy (execFullRateReturn site r s) := by
  unfold execFullRateReturn
  exact .when (.trans (.trans (.trans (State.modRegion_keeps ..) (State.setHalf_keeps ..)) (State.setMv_keeps ..)) (State.setFld_keeps ..))

/-! The margin plan (R411). -/

theorem State.queueReplan_keeps (s : State) : s.Keeps s.queueReplan :=
  .trans (State.setFld_keeps ..) (State.pliwickEntry_keeps ..)

theorem execReplan_keeps (s : State) : s.KeptBy (execReplan s) :=
  .next (State.queueReplan_keeps ..)

theorem execReplanInterval_keeps (s : State) : s.KeptBy (execReplanInterval s) := by
  unfold execReplanInterval
  exact .when (.trans (State.advanceTo_keeps ..) (State.queueReplan_keeps ..))

theorem State.startPlan_keeps (s : State) (e : MaintEntry) : s.Keeps (s.startPlan e) := by
  unfold State.startPlan
  extract_lets _ _ s1
  have hs1 : s.Keeps s1 := .foldl (fun _ _ => State.modRegion_keeps ..) _ _
  exact .trans (hs1.trans (State.setFld_keeps ..)) (State.setFld_keeps ..)

theorem State.planRegion_keeps (s : State) (site r mv : Nat) (half : Bool) : s.Keeps (s.planRegion site r mv half) := by
  unfold State.planRegion
  exact .trans (.trans (.trans (.fields ..) (State.modRegion_keeps ..)) (State.setMv_keeps ..)) (State.setFld_keeps ..)

theorem State.planDone_keeps (s : State) : s.Keeps s.planDone := by
  unfold State.planDone
  refine .ite (.refl _) ?_
  exact .trans (.trans (.trans (.fields ..) (State.setFld_keeps ..)) (State.setFld_keeps ..)) (State.raise_keeps ..)

theorem State.dropPlan_keeps (s : State) (e : MaintEntry) : s.Keeps (s.dropPlan e) := by
  unfold State.dropPlan
  extract_lets _ _ s1 _ s2
  have hs1 : s.Keeps s1 := by
    unfold s1
    refine .foldl (fun x1 _ => ?_) _ _
    extract_lets s3
    have hs3 : x1.Keeps s3 := by
      unfold s3
      split
      · exact .refl _
      · exact State.setMv_keeps ..
    exact hs3.trans (State.modRegion_keeps ..)
  have hs2 : s.Keeps s2 := hs1.trans (State.setFld_keeps ..)
  exact .ite (.trans (hs2.trans (State.setFld_keeps ..)) (State.setFld_keeps ..)) hs2

theorem State.sweepEnds_keeps (s : State) (site r : Nat) (x : Sweep) (v : Option Nat) : s.Keeps (s.sweepEnds site r x v) := by
  unfold State.sweepEnds
  extract_lets _ _ full
  clear_value full
  refine .ite (.trans (State.planRegion_keeps ..) (State.raise_keeps ..)) ?_
  cases full with
  | none => exact State.modRegion_keeps ..
  | some mv => exact State.planRegion_keeps ..

theorem execMarginSweep_keeps (site : Fin 204) (r : Fin 10) (code : BitVec 6) (s : State) : s.KeptBy (execMarginSweep site r code s) := by
  unfold execMarginSweep
  extract_lets _ _ _ _ _ _ s2 _ s3
  have hs2 : s.Keeps s2 := .trans (State.advanceTo_keeps ..) (State.modRegion_keeps ..)
  have hs3 : s.Keeps s3 :=
    .ite (hs2.trans (State.sweepEnds_keeps ..)) (.ite (hs2.trans (State.sweepEnds_keeps ..))
      (.trans (hs2.trans (State.modRegion_keeps ..)) (State.setFld_keeps ..)))
  split
  · exact .next (.refl _)
  · refine .ite (.next (.refl _)) ?_
    exact .next (.ite (.trans (hs3.trans (State.planDone_keeps ..)) (State.stepOver_keeps ..))
        (.ite (.trans (hs3.trans (State.dropPlan_keeps ..)) (State.stepOver_keeps ..)) (hs3.trans (State.stepOver_keeps ..))))

/-! Ageing (R410). -/

theorem execAgeingInterval_keeps (site : Fin 204) (s : State) : s.KeptBy (execAgeingInterval site s) := by
  unfold execAgeingInterval
  exact .when (.trans (.trans (State.advanceTo_keeps ..) (State.pliwickEntry_keeps ..)) (.fields ..))

theorem execAgeing_keeps (site : Fin 204) (index : BitVec 20) (s : State) : s.KeptBy (execAgeing site index s) := by
  unfold execAgeing
  split
  · exact .next (.refl _)
  · exact .when (.trans (.trans (State.advanceTo_keeps ..) (State.setFld_keeps ..)) (State.stepOver_keeps ..))

/-! What the steps of bring-up do (R419–R430). -/

theorem State.bootFails_keeps (s : State) : s.Keeps s.bootFails :=
  State.setReadyCode_keeps ..

/-! Firmware (R419, R464–R467). -/

theorem State.setBank_keeps (s : State) (c : Nat) (b : Bool) (x : FwBank) : s.Keeps (s.setBank c b x) :=
  .fields ..

theorem State.authFail_keeps (s : State) (c why : Nat) : s.Keeps (s.authFail c why) :=
  State.raise_keeps ..

theorem State.measure_keeps (s : State) (c : Nat) : s.Keeps (s.measure c) :=
  .fields ..

theorem State.loadComponent_keeps (s : State) (c : Nat) (bad : List Nat) : s.Keeps (s.loadComponent c bad).1 := by
  unfold State.loadComponent
  extract_lets _ _ _ s1 _ s2 _ _ _
  have hs1 : s.Keeps s1 := .fields ..
  have hs2 : s.Keeps s2 := hs1.trans (State.authFail_keeps ..)
  split
  · exact hs1.trans (State.measure_keeps ..)
  · split
    · exact .trans (.trans (hs2.trans (.fields ..)) (State.raise_keeps ..)) (State.measure_keeps ..)
    · exact hs2.trans (State.authFail_keeps ..)

theorem State.advanceRollback_keeps (s : State) (c : Nat) : s.Keeps (s.advanceRollback c) := by
  unfold State.advanceRollback
  exact .ite (.trans (.fields ..) (State.raise_keeps ..)) (.refl _)

/-! Failures (R423). -/

theorem State.bootFence_keeps (s : State) (site exit : Nat) : s.Keeps (s.bootFence site exit) := by
  unfold State.bootFence
  exact .ite (.refl _) (.trans (.trans (State.fenceLink_keeps ..) (State.appendLog_keeps ..)) (State.raise_keeps ..))

theorem State.holeAt_keeps (s : State) (v : Nat) : s.Keeps (s.holeAt v) := by
  unfold State.holeAt
  refine .trans ?_ (.foldl (fun _ _ => State.fenceLink_keeps ..) _ _)
  exact .fields ..

theorem State.failSite_keeps (s : State) (v n : Nat) : s.Keeps (s.failSite v n) := by
  unfold State.failSite
  refine .ite (.refl _) ?_
  exact .trans (.trans (State.holeAt_keeps ..) (State.appendLog_keeps ..)) (State.raise_keeps ..)

theorem State.bootCore_keeps (s : State) (p cause n : Nat) : s.Keeps (s.bootCore p cause n) :=
  .ite (.refl _) (.ite (State.failSite_keeps ..) (.trans (State.retireCore_keeps ..) (State.raise_keeps ..)))

theorem State.bootEdge_keeps (s : State) (e n : Nat) : s.Keeps (s.bootEdge e n) := by
  unfold State.bootEdge
  refine .ite (.refl _) ?_
  extract_lets _ _ s2 _ _
  have hs2 : s.Keeps s2 := .trans (.fields ..) (State.appendLog_keeps ..)
  exact .ite (.trans (.trans (hs2.trans (.fields ..)) (State.setPortState_keeps ..)) (State.raise_keeps ..))
      (.trans (hs2.trans (State.raise_keeps ..)) (State.bootFails_keeps ..))

/-! The records (R422). -/

theorem State.readPattern_keeps (s : State) : s.Keeps s.readPattern := by
  unfold State.readPattern
  extract_lets _ s1 _ _
  have hs1 : s.Keeps s1 := .foldl (fun _ _ => State.holeAt_keeps ..) _ _
  exact hs1.trans (.fields ..)

theorem State.reapply_keeps (s : State) (e : LogEntry) : s.Keeps (s.reapply e) := by
  unfold State.reapply
  extract_lets _ _ _ s2 s3 _ _ _ s4
  have hs2 : s.Keeps s2 := .trans (State.modRegion_keeps ..) (State.setFld_keeps ..)
  have hs3 : s.Keeps s3 := State.setFld_keeps ..
  have hs4 : s.Keeps s4 := State.setFld_keeps ..
  split
  · exact State.holeAt_keeps ..
  · exact .fields ..
  · exact .ite (hs2.trans (State.setFld_keeps ..)) hs2
  · exact .ite (hs3.trans (State.setFld_keeps ..)) hs3
  · exact .fields ..
  · exact State.fenceLink_keeps ..
  · exact .ite (State.setFld_keeps ..) (State.setPortState_keeps ..)
  · exact .fields ..
  · exact .ite (hs4.trans (State.setFld_keeps ..)) hs4
  · exact .refl _

theorem State.reapplyDram_keeps (s : State) (e : LogEntry) : s.Keeps (s.reapplyDram e) :=
  .ite (State.modPort_keeps ..) (.refl _)

/-! Power and links (steps 3 and 4). -/

theorem State.bootRegion_keeps (s : State) (v r : Nat) : s.Keeps (s.bootRegion v r) := by
  unfold State.bootRegion
  extract_lets _ s1 s2
  have hs1 : s.Keeps s1 := State.setReg_keeps ..
  have hs2 : s.Keeps s2 := .trans (hs1.trans (State.setFld_keeps ..)) (State.setFld_keeps ..)
  exact .ite hs1 (.ite (hs2.trans (State.setHalf_keeps ..)) hs2)

theorem State.bootSite_keeps (s : State) (v : Nat) : s.Keeps (s.bootSite v) := by
  unfold State.bootSite
  refine .ite (.refl _) ?_
  extract_lets _ s1
  have hs1 : s.Keeps s1 := .trans (.trans (State.setFld_keeps ..) (State.setFld_keeps ..)) (State.setFld_keeps ..)
  exact .ite hs1 (hs1.trans (.foldl (fun _ _ => State.bootRegion_keeps ..) _ _))

theorem State.freshPhases_keeps (s : State) (v : Nat) : s.Keeps (s.freshPhases v) := by
  unfold State.freshPhases
  exact .trans (State.setFld_keeps ..) (.foldl (fun _ _ => State.setFld_keeps ..) _ _)

theorem State.centreLinks_keeps (s : State) : s.Keeps s.centreLinks :=
  .foldl (fun _ _ => .foldl (fun _ _ => .ite (.refl _) (.trans (State.setFld_keeps ..) (State.setFld_keeps ..))) _ _) _ _

theorem State.trainHem_keeps (s : State) (f : BootFinding) : s.Keeps (s.trainHem f) := by
  unfold State.trainHem
  extract_lets down s1 s2
  have hdown : ∀ s3 k1, State.Keeps s3 (down s3 k1) := fun _ _ => .fields ..
  have hs1 : s.Keeps s1 := .foldl (fun _ _ => hdown _ _) _ _
  have hs2 : s.Keeps s2 := by
    unfold s2
    refine .trans hs1 (.foldl (fun x a => ?_) _ _)
    split
    · exact .refl _
    · split
      next h1 =>
        exact .ite ((State.repairTracks_keeps ..).fst h1) (.trans ((State.repairTracks_keeps ..).fst h1) (hdown _ _))
  exact hs2.trans (.foldl (fun _ _ => State.repairTracks_keeps ..) _ _)

theorem State.trainLinks_keeps (s : State) (f : BootFinding) : s.Keeps (s.trainLinks f) := by
  unfold State.trainLinks
  extract_lets _ _ s2
  have hs2 : s.Keeps s2 := by
    unfold s2
    refine .trans (.fields ..) (.foldl (fun x a => ?_) _ _)
    split
    next h =>
      exact .ite ((State.repairTracks_keeps ..).fst h) (.trans ((State.repairTracks_keeps ..).fst h) (State.bootFence_keeps ..))
  exact .trans (hs2.trans (.foldl (fun _ _ => State.bootFence_keeps ..) _ _)) (State.centreLinks_keeps ..)

/-! Topology and placement (R423, R424). -/

theorem State.compareSite_keeps (s : State) (v n : Nat) : s.Keeps (s.compareSite v n) := by
  unfold State.compareSite
  refine .ite (.refl _) ?_
  split
  · exact State.failSite_keeps ..
  · refine .ite (.trans (State.raise_keeps ..) (State.bootFails_keeps ..)) ?_
    exact .ite (State.failSite_keeps ..) (.foldl (fun _ _ => State.bootCore_keeps ..) _ _)

theorem State.compareLinks_keeps (s : State) (v : Nat) : s.Keeps (s.compareLinks v) := by
  unfold State.compareLinks
  split
  · exact .refl _
  · exact .ite (.refl _) (.foldl (fun _ _ => State.bootFence_keeps ..) _ _)

theorem State.compareAll_keeps (s : State) (n : Nat) : s.Keeps (s.compareAll n) := by
  unfold State.compareAll
  extract_lets s1 s2
  have hs1 : s.Keeps s1 := .foldl (fun _ _ => State.compareLinks_keeps ..) _ _
  have hs2 : s.Keeps s2 := hs1.trans (.foldl (fun _ _ => State.compareSite_keeps ..) _ _)
  refine .trans hs2 (.foldl (fun _ _ => ?_) _ _)
  split
  · exact State.bootEdge_keeps ..
  · exact .ite (.refl _) (.trans (State.raise_keeps ..) (State.bootFails_keeps ..))

theorem State.completePlacement_keeps (s : State) (c : ConfigSet) (lost : List Nat) : s.Keeps (s.completePlacement c lost).1 := by
  unfold State.completePlacement
  extract_lets placed s1 moved s2
  have hs1 : s.Keeps s1 := .foldl (fun _ _ => State.appendLog_keeps ..) _ _
  have hs2 : s.Keeps s2 := hs1.trans (.foldl (fun _ _ => State.appendLog_keeps ..) _ _)
  clear_value s2
  exact hs2

theorem State.lightSpares_keeps (s : State) : s.Keeps s.lightSpares :=
  .foldl (fun _ _ => .ite (.foldl (fun _ _ => .ite (State.bootRegion_keeps ..) (.refl _)) _ _) (.refl _)) _ _

theorem State.deriveKeys_keeps (s : State) : s.Keeps s.deriveKeys := by
  unfold State.deriveKeys
  exact .fields ..

theorem State.noteTree_keeps (s : State) : s.Keeps s.noteTree :=
  .ite (State.raise_keeps ..) (.refl _)

theorem State.placeBoot_keeps (s : State) : s.Keeps s.placeBoot := by
  unfold State.placeBoot
  extract_lets
  split
  next h =>
    exact .trans (.trans (.trans (.trans ((State.completePlacement_keeps ..).fst h) (.fields ..)) (State.calibrate_keeps ..))
        (State.lightSpares_keeps ..)) (State.noteTree_keeps ..)

theorem State.placeFabric_keeps (s : State) : s.Keeps s.placeFabric := by
  unfold State.placeFabric
  extract_lets
  split
  next h =>
    extract_lets _ _ _ _ _ s3 _ _ _
    have hs3 : s.Keeps s3 :=
      .trans (.trans (.trans (.trans ((State.completePlacement_keeps ..).fst h) (.fields ..)) (State.calibrate_keeps ..))
        (State.lightSpares_keeps ..)) (State.noteTree_keeps ..)
    exact .ite (.trans (.ite (hs3.trans (State.sealed_keeps ..)) (hs3.trans (.fields ..))) (State.raise_keeps ..)) (hs3.trans (.fields ..))

/-! Readiness (R430). -/

theorem State.report_keeps (s : State) (loaded : List Nat) : s.Keeps (s.report loaded) := by
  unfold State.report
  extract_lets _ _ s1 s2 _ _ _ _ s4 _
  have hs1 : s.Keeps s1 := .trans (State.setReadyCode_keeps ..) (State.setReg_keeps ..)
  have hs2 : s.Keeps s2 := by
    unfold s2
    refine .ite ?_ hs1
    refine .trans ?_ (.foldl (fun _ _ => State.advanceRollback_keeps ..) _ _)
    exact hs1.trans (State.becomeReady_keeps ..)
  have hs4 : s.Keeps s4 := .trans (hs2.trans (.fields ..)) (State.raise_keeps ..)
  split
  · exact hs4
  · exact .trans (hs4.trans (.fields ..)) (State.raise_keeps ..)

/-! The broadcast (R425). -/

theorem State.startBroadcast_keeps (s : State) : s.Keeps s.startBroadcast := by
  unfold State.startBroadcast
  exact .trans (.fields ..) (State.setReg_keeps ..)

theorem State.showBroadcast_keeps (s : State) : s.Keeps s.showBroadcast :=
  State.setReg_keeps ..

theorem State.resendTo_keeps (s : State) (p missing : Nat) (digestOk : Bool) (n : Nat) : s.Keeps (s.resendTo p missing digestOk n) := by
  unfold State.resendTo
  extract_lets _ _ s1 _
  have hs1 : s.Keeps s1 := .fields ..
  exact .ite (.trans (hs1.trans (.fields ..)) (State.bootCore_keeps ..)) (hs1.trans (.fields ..))

/-! The fabric reset (R427, R428). -/

theorem State.startFabric_keeps (s : State) (cause : Nat) : s.Keeps (s.startFabric cause) := by
  unfold State.startFabric
  extract_lets _ _ _ _ _ _ _ _ _ _ _ s5
  have hs5 : s.Keeps s5 :=
    .trans (.trans (.trans (.trans (.trans (.trans (State.bump_keeps ..) (State.setFld_keeps ..)) (State.dropMarks_keeps ..)) (.fields ..))
      (State.setReg_keeps ..)) (State.setReadyCode_keeps ..)) (.foldl (fun _ _ => State.setReg_keeps ..) _ _)
  exact .trans (hs5.trans (State.newNonce_keeps ..)) (State.tickWaiters_keeps ..)

theorem State.portsTrain_keeps (s : State) (on : Bool) : s.Keeps (s.portsTrain on) :=
  .foldl (fun _ _ => .foldl (fun _ _ => .ite (.refl _) (.trans (State.modPort_keeps ..) (State.setFld_keeps ..))) _ _) _ _

/-- The cores, the DRAM stacks, the mesh, the hubs and the buckets after a fabric reset. -/
theorem State.freshUnits_keeps (s : State) : s.Keeps { s with
    cores := SMap.mapAll Core.reset (fun _ c => c.fabricReset s.now) s.cores
    drams := SMap.mapAll Dram.reset (fun _ d => { d with ports := SMap.mapAll DramPort.reset (fun _ x => x.fabricReset) d.ports }) s.drams
    mesh := { Mesh.reset with fenced := s.mesh.fenced, closed := true, nextAccess := s.mesh.nextAccess, nextPacket := s.mesh.nextPacket }
    hubs := [], coll := { Coll.reset with retired := s.coll.retired }
    maint := { s.maint with resuming := [], reloads := [] } } := by
  refine .trans (.trans (s.mapCores_keeps fun _ c _ => ?_) (State.mapDrams_keeps _ fun _ _ h => ?_)) (.fields ..)
  · exact Memory.wf_nil
  · exact h

theorem State.resetUnits_keeps (s : State) : s.Keeps s.resetUnits := by
  refine .trans (.trans ?_ (State.freshUnits_keeps _)) (State.ctxsReset_keeps _)
  refine .trans (State.resetRegs_keeps ..) (.foldl (fun x _ => .foldl (fun x _ => ?_) _ _) _ _)
  extract_lets y1 y2 y3
  have hy3 : x.Keeps y3 :=
    .trans (.trans (.trans (State.setReg_keeps ..) (State.setFld_keeps ..)) (State.setFld_keeps ..)) (State.modRegion_keeps ..)
  exact .ite (hy3.trans (State.setHalf_keeps ..)) hy3

/-! Resets (R416, R417). -/

theorem execColdReset_keeps (s : State) : s.KeptBy (execColdReset s) :=
  .next (State.powerOn_keeps ..)

theorem execModuleReset_keeps (pin : Bool) (s : State) : s.KeptBy (execModuleReset pin s) :=
  .when (State.moduleReset_keeps ..)

theorem execFabricReset_keeps (byWrite : Bool) (s : State) : s.KeptBy (execFabricReset byWrite s) := by
  unfold execFabricReset
  extract_lets s1
  have hs1 : s.Keeps s1 := .ite (State.setFld_keeps ..) (.refl _)
  exact .whenElse hs1 (hs1.trans (State.startFabric_keeps ..))

theorem execCxlReset_keeps (s : State) : s.KeptBy (execCxlReset s) :=
  .when (State.startFabric_keeps ..)

theorem State.requestReset_keeps (s : State) (ps : List Nat) : s.Keeps (s.requestReset ps) := by
  unfold State.requestReset
  refine .ite (State.setFld_keeps ..) ?_
  refine .trans ?_ (.foldl (fun _ _ => .trans (State.coreReset_keeps ..) (State.reinit_keeps ..)) _ _)
  exact State.setFld_keeps ..

theorem execPatchReset_keeps (g : BitVec 8) (s : State) : s.KeptBy (execPatchReset g s) :=
  .next (.trans (State.setFld_keeps ..) (State.requestReset_keeps ..))

theorem execCoreReset_keeps (core : Fin 9216) (s : State) : s.KeptBy (execCoreReset core s) :=
  .next (.trans (State.setFld_keeps ..) (State.requestReset_keeps ..))

/-! Bring-up (R420, R427). -/

theorem State.nextStep_keeps (s : State) : s.Keeps s.nextStep := by
  unfold State.nextStep
  extract_lets _ _ t
  have ht : s.Keeps t := .fields ..
  exact .ite (ht.trans (State.portsTrain_keeps ..)) ht

theorem State.bist_keeps (s : State) (f : BootFinding) (n : Nat) {redo : State → State} (h : ∀ x : State, x.Keeps (redo x)) :
    s.Keeps (s.bist f n redo) := by
  unfold State.bist
  extract_lets t t1 t2
  have ht : s.Keeps t := .foldl (fun _ _ => State.bootCore_keeps ..) _ _
  have ht1 : s.Keeps t1 := ht.trans (.foldl (fun _ _ => State.failSite_keeps ..) _ _)
  have ht2 : s.Keeps t2 := ht1.trans (.foldl (fun _ _ => State.bootEdge_keeps ..) _ _)
  exact .ite ht2 (ht2.trans (h _))

theorem State.trainDram_keeps (s : State) (f : BootFinding) : s.Keeps (s.trainDram f) := by
  unfold State.trainDram
  refine .trans ?_ (.foldl (fun _ _ => State.retireDram_keeps ..) _ _)
  exact State.portsTrain_keeps ..

/-- Components that are loaded one after the other. -/
theorem State.loadComponents_keeps (bad : List Nat) (l : List Nat) (x : State × Bool) :
    x.1.Keeps (l.foldl (fun (x : State × Bool) c => ((x.1.loadComponent c bad).1, x.2 && (x.1.loadComponent c bad).2)) x).1 := by
  induction l generalizing x with
  | nil => exact .refl _
  | cons c l ih =>
    have h := ih ((x.1.loadComponent c bad).1, x.2 && (x.1.loadComponent c bad).2)
    exact (State.loadComponent_keeps x.1 c bad).trans h

theorem State.bootVerify_keeps (s : State) (f : BootFinding) : s.Keeps (s.bootVerify f) := by
  unfold State.bootVerify
  extract_lets
  split
  next h =>
  have hs1 := (State.loadComponents_keeps _ _ (s, true)).fst h
  split
  next h1 =>
  have hs2 := hs1.trans ((State.loadComponent_keeps ..).fst h1)
  extract_lets s3 s4
  have hs3 : s.Keeps s3 := by
    refine .ite hs2 (.trans hs2 ?_)
    exact .foldl (fun _ _ => State.bootEdge_keeps ..) _ _
  have hs4 : s.Keeps s4 := hs3.trans (.foldl (fun _ _ => State.freshPhases_keeps ..) _ _)
  refine .ite (hs3.trans (State.bootFails_keeps ..)) ?_
  split
  · exact .trans (hs3.trans (State.raise_keeps ..)) (State.bootFails_keeps ..)
  · refine .trans (hs4.trans (State.readPattern_keeps ..)) ?_
    exact .foldl (fun _ _ => State.reapply_keeps ..) _ _

theorem State.trainLanes_keeps (s : State) (f : BootFinding) : s.Keeps (s.trainLanes f) :=
  .foldl (fun _ _ => .ite (.refl _) (.trans (.trans (State.setFld_keeps ..) (State.appendLog_keeps ..)) (State.raise_keeps ..))) _ _

theorem State.bootStep_keeps (s : State) (f : BootFinding) : s.Keeps (s.bootStep f) := by
  unfold State.bootStep
  split
  · exact State.deriveKeys_keeps ..
  · exact State.bootVerify_keeps ..
  · exact .foldl (fun _ _ => State.bootSite_keeps ..) _ _
  · exact .trans (.trans (State.trainLinks_keeps ..) (State.trainHem_keeps ..)) (State.trainLanes_keeps ..)
  · exact .ite (.refl _) (State.advanceTo_keeps ..)
  · exact State.compareAll_keeps ..
  · exact .trans (State.placeBoot_keeps ..) (State.startBroadcast_keeps ..)
  · exact .foldl (fun _ _ => State.bootEdge_keeps ..) _ _
  · exact .trans (.foldl (fun _ _ => State.reapplyDram_keeps ..) _ _) (State.trainDram_keeps ..)
  · exact State.bist_keeps _ _ _ (fun _ => .trans (State.compareAll_keeps ..) (State.placeBoot_keeps ..))
  · exact State.report_keeps ..
  · exact .refl _

theorem State.fabricFirmware_keeps (s : State) (f : BootFinding) : s.Keeps (s.fabricFirmware f) :=
  .ite (.trans (State.loadComponent_keeps ..) (State.startBroadcast_keeps ..))
      (.trans (State.loadComponent_keeps ..) (State.bootFails_keeps ..))

theorem State.fabricStep_keeps (s : State) (f : BootFinding) : s.Keeps (s.fabricStep f) := by
  unfold State.fabricStep
  split
  · exact State.resetUnits_keeps ..
  · exact State.trainLinks_keeps ..
  · exact State.compareAll_keeps ..
  · exact .trans (State.placeFabric_keeps ..) (State.fabricFirmware_keeps ..)
  · exact State.reinitAll_keeps ..
  · exact State.trainDram_keeps ..
  · exact State.bist_keeps _ _ _ (fun _ => .trans (State.compareAll_keeps ..) (State.placeFabric_keeps ..))
  · exact .ite (.trans (State.report_keeps ..) (State.functionReset_keeps ..)) (State.report_keeps ..)
  · exact .refl _

theorem execBringUp_keeps (f : BootFinding) (s : State) : s.KeptBy (execBringUp f s) := by
  unfold execBringUp
  refine .ite (.next (.refl _)) ?_
  refine .ite (.next (.fields ..)) ?_
  extract_lets t
  have ht : s.Keeps t := .ite (State.fabricStep_keeps ..) (State.bootStep_keeps ..)
  exact .next (.ite (ht.trans (State.nextStep_keeps ..)) ht)

theorem execBootStepTimeout_keeps (s : State) : s.KeptBy (execBootStepTimeout s) :=
  .when (.trans (.trans (State.advanceTo_keeps ..) (State.raise_keeps ..)) (State.bootFails_keeps ..))

theorem execIdentityRecord_keeps (v : Fin 213) (dieId : BitVec 64) (badCores : BitVec 50) (badExits : BitVec 4) (s : State) :
    s.KeptBy (execIdentityRecord v dieId badCores badExits s) := by
  unfold execIdentityRecord
  exact .when (.fields ..)

/-! The broadcast (R425). -/

theorem execBroadcastCollection_keeps (found : List (CoreIx × Fin 16385 × Bool)) (s : State) :
    s.KeptBy (execBroadcastCollection found s) := by
  unfold execBroadcastCollection
  refine .ite (.next (.refl _)) ?_
  extract_lets
  refine .ite (.next (.fields ..)) ?_
  refine .next ?_
  refine .trans ?_ (State.showBroadcast_keeps ..)
  refine .trans (.fields ..) (.foldl (fun _ _ => ?_) _ _)
  split
  · exact .ite (State.resendTo_keeps ..) (.refl _)
  · exact .refl _

/-! Admission (R447, R451). -/

theorem State.inject_keeps (s : State) (e : MaintEntry) : s.Keeps (s.inject e) := by
  unfold State.inject
  extract_lets _ _ _ _ _ _ s3 _ _
  have hs3 : s.Keeps s3 :=
    .trans (.trans (.trans (.trans (.fields ..) (State.setFld_keeps ..)) (State.setFld_keeps ..)) (State.bump_keeps ..))
      (State.finishOpt_keeps ..)
  split
  · split
    · exact hs3.trans (State.modCore_keeps _ _ _ id)
    · exact hs3
  · exact hs3.trans (State.modVPort_keeps ..)
  · exact hs3.trans (.fields ..)
  · exact hs3.trans (.fields ..)
  · exact .trans (hs3.trans (State.losePhase_keeps ..)) (State.modRegion_keeps ..)
  · exact hs3

theorem State.pauseCommands_keeps (s : State) : s.Keeps s.pauseCommands :=
  State.setFld_keeps ..

theorem State.resumeCommands_keeps (s : State) : s.Keeps s.resumeCommands :=
  .ite (.refl _) (.trans (State.setFld_keeps ..) (State.releaseDoorbells_keeps ..))

theorem State.startEntry_keeps (s : State) (e : MaintEntry) : s.Keeps (s.startEntry e) := by
  unfold State.startEntry
  extract_lets s1 _
  have hs1 : s.Keeps s1 := State.modEntry_keeps ..
  exact .ite (hs1.trans (State.startPlan_keeps ..)) (.ite (hs1.trans (State.inject_keeps ..))
      (.ite (.trans (hs1.trans (.fields ..)) (State.pauseCommands_keeps ..)) hs1))

theorem State.endLost_keeps (s : State) (e : MaintEntry) : s.Keeps (s.endLost e) := by
  unfold State.endLost
  extract_lets s1
  have hs1 : s.Keeps s1 := .ite (State.finishOpt_keeps ..) (.refl _)
  exact .trans (.ite (hs1.trans (State.dropPlan_keeps ..)) hs1) (State.endEntry_keeps ..)

theorem State.stopEntry_keeps (s : State) (e : MaintEntry) : s.Keeps (s.stopEntry e) := by
  unfold State.stopEntry
  refine .ite (State.modEntry_keeps ..) ?_
  extract_lets s1
  have hs1 : s.Keeps s1 := .ite (.refl _) (State.finishOpt_keeps ..)
  exact .trans (.ite (hs1.trans (State.dropPlan_keeps ..)) hs1) (State.endEntry_keeps ..)

/-! Losses (R233, R438, R439, R442). -/

theorem execDieHbTimeout_keeps (h : Fin 214) (s : State) : s.KeptBy (execDieHbTimeout h s) := by
  unfold execDieHbTimeout
  extract_lets _ t
  have ht : s.Keeps t := State.advanceTo_keeps ..
  exact .ite (.next (.refl _)) (.ite (.when (ht.trans (State.dieLost_keeps ..))) (.when (ht.trans (State.edgeLost_keeps ..))))

theorem execLostNotice_keeps (h : Fin 214) (s : State) : s.KeptBy (execLostNotice h s) := by
  unfold execLostNotice
  split
  next h1 =>
    exact .next (.trans ((State.intoRoot_keeps ..).of_eq h1) (State.coresLost_keeps ..))
  · exact .next (.refl _)

theorem execHeartbeatResumeTimeout_keeps (c : CoreIx) (s : State) : s.KeptBy (execHeartbeatResumeTimeout c s) := by
  unfold execHeartbeatResumeTimeout
  extract_lets
  split
  · exact .next (.refl _)
  · extract_lets s2
    have hs2 : s.Keeps s2 := .trans (.fields ..) (State.advanceTo_keeps ..)
    exact .ite (.next hs2) (.next (.trans (hs2.trans (State.retireCore_keeps ..)) (State.tackIfMapped_keeps ..)))

/-! Reloads (R441). -/

theorem State.reloadLines_keeps (site o cls p off : Nat) (bad : List Nat) (n k : Nat) (s : State) (b : Bool) :
    s.KeptIn (fun r => r.1) (State.reloadLines site o cls p off bad n k s b) := by
  induction n generalizing k s b with
  | zero => exact .some (.refl s)
  | succ n ih =>
    unfold State.reloadLines
    split
    · exact .none
    next h =>
    have hs := (State.readLine_keeps ..).of_eq h
    exact .ite (((hs.trans (State.useBank_keeps ..)).trans (State.spadWrite_keeps ..)).keptIn (ih ..)) (hs.keptIn (ih ..))

theorem execReload_keeps (core : Fin 9216) (bad : List Nat) (s : State) : s.KeptBy (execReload core bad s) := by
  unfold execReload
  extract_lets
  split
  · extract_lets
    refine .ite (.next (.refl _)) ?_
    split
    · exact .next (.refl _)
    next h3 =>
      exact .next (.trans (.trans ((State.reloadLines_keeps ..).of_eq h3) (.fields ..)) (State.settle_keeps ..))
  · exact .next (.refl _)

theorem execReloadComplete_keeps (core : Fin 9216) (s : State) : s.KeptBy (execReloadComplete core s) := by
  unfold execReloadComplete
  extract_lets _ _ s1 _
  have hs1 : s.Keeps s1 := .fields ..
  exact .ite (.next (.refl _)) (.ite (.next (.trans (hs1.trans (State.raise_keeps ..)) (State.haltTicking_keeps ..))) (.next hs1))

/-! The arbiter (R446, R447, R451). -/

theorem execArbiterAdmission_keeps (s : State) : s.KeptBy (execArbiterAdmission s) := by
  unfold execArbiterAdmission
  split
  · exact .next (State.endLost_keeps ..)
  · split
    · exact .next (State.startEntry_keeps ..)
    · exact .next (.refl _)

theorem State.askEntry_keeps (s : State) (q : Fin 64) (cid : Cid) (c : HostCmd) (code resource arg target : Nat) (waits : Bool) :
    s.Keeps (s.askEntry q cid c code resource arg target waits) := by
  unfold State.askEntry
  split
  · exact State.fail_keeps ..
  next h1 =>
    exact .ite (State.fail_keeps ..) (.ite (.trans ((State.addEntry_keeps ..).of_eq h1) (State.await_keeps ..))
        (.trans ((State.addEntry_keeps ..).of_eq h1) (State.done_keeps ..)))

theorem execMaintStart_keeps (q : Fin 64) (cid : Cid) (s : State) : s.KeptBy (execMaintStart q cid s) := by
  unfold execMaintStart
  refine onCommand_keeps _ _ _ _ ?_
  intro x
  exact .ite (State.fail_keeps ..) (.ite (State.fail_keeps ..) (State.askEntry_keeps ..))

theorem execMaintStop_keeps (q : Fin 64) (cid : Cid) (s : State) : s.KeptBy (execMaintStop q cid s) := by
  unfold execMaintStop
  refine onCommand_keeps _ _ _ _ ?_
  intro x
  split
  · exact State.fail_keeps ..
  · exact .trans (State.stopEntry_keeps ..) (State.done_keeps ..)

theorem execFaultRehearse_keeps (q : Fin 64) (cid : Cid) (s : State) : s.KeptBy (execFaultRehearse q cid s) := by
  unfold execFaultRehearse
  refine onCommand_keeps _ _ _ _ ?_
  intro x
  exact .ite (State.fail_keeps ..) (.ite (State.fail_keeps ..) (State.askEntry_keeps ..))

/-! Activities (R446). -/

theorem execSeamRetrainActivity_keeps (site : Fin 204) (s : State) : s.KeptBy (execSeamRetrainActivity site s) := by
  unfold execSeamRetrainActivity
  split
  · exact .next (.refl _)
  · split
    · exact .next (State.stepOver_keeps ..)
    · exact .ite (.next (State.stepOver_keeps ..)) (.when (.trans (.trans (State.holdLink_keeps ..) (State.bump_keeps ..))
          (State.modEntry_keeps ..)))

theorem execDramRetrain_keeps (site : Fin 204) (s : State) : s.KeptBy (execDramRetrain site s) := by
  unfold execDramRetrain
  split
  · exact .next (.refl _)
  · exact .ite (.next (State.stepOver_keeps ..)) (.when (.trans (.trans (State.modPort_keeps ..) (State.showPort_keeps ..))
        (State.modEntry_keeps ..)))

theorem execDramRetrainingComplete_keeps (site : Fin 204) (port : Fin 8) (ok : Bool) (s : State) :
    s.KeptBy (execDramRetrainingComplete site port ok s) := by
  unfold execDramRetrainingComplete
  extract_lets _ _ s1 s2 _ s3 _
  have hs1 : s.Keeps s1 := .trans (State.modPort_keeps ..) (State.showPort_keeps ..)
  have hs2 : s.Keeps s2 := by
    unfold s2
    split
    · exact hs1
    · exact hs1.trans (State.stepOver_keeps ..)
  have hs3 : s.Keeps s3 := hs2.trans (.fields ..)
  exact .ite (.next (.refl _)) (.ite (.next hs2) (.next (.ite (hs3.trans (State.retireDram_keeps ..))
      (hs3.trans (State.pliwickEntry_keeps ..)))))

theorem execScrub_keeps (handle : BitVec 16) (s : State) : s.KeptBy (execScrub handle s) := by
  unfold execScrub
  split
  · exact .next (.refl _)
  · exact .next (State.stepOver_keeps ..)

theorem execPhaseTest_keeps (site : Fin 204) (ok : Bool) (s : State) : s.KeptBy (execPhaseTest site ok s) := by
  unfold execPhaseTest
  split
  · exact .next (.refl _)
  · extract_lets _ _ _ s1 _ _
    have hs1 : s.Keeps s1 := State.advanceTo_keeps ..
    exact .when (.trans (.ite (hs1.trans (State.losePhase_keeps ..)) hs1) (State.stepOver_keeps ..))

theorem execContactCheck_keeps (site : Fin 204) (est mv current : BitVec 16) (s : State) :
    s.KeptBy (execContactCheck site est mv current s) := by
  unfold execContactCheck
  split
  · exact .next (.refl _)
  · exact .when (.trans (State.contactEstimate_keeps ..) (State.stepOver_keeps ..))

theorem State.bistStack_keeps (s : State) (v unit : Nat) : s.Keeps (s.bistStack v unit) :=
  .ite (State.modDram_keeps _ _ _ (fun _ => rfl)) (.refl _)

theorem execSpareBist_keeps (site : Fin 204) (ok : Bool) (s : State) : s.KeptBy (execSpareBist site ok s) := by
  unfold execSpareBist
  extract_lets
  split
  · exact .next (.refl _)
  · extract_lets _ _ t1
    have ht1 : s.Keeps t1 :=
      .ite (.trans (State.dieLost_keeps ..) (State.raise_keeps ..)) (.trans (State.retireCore_keeps ..) (State.raise_keeps ..))
    exact .ite (.next (.refl _)) (.ite (.next (.trans (.ite (State.bistStack_keeps ..) (.refl _)) (State.stepOver_keeps ..)))
        (.next (ht1.trans (State.endEntry_keeps ..))))

/-! Restarts of Pliwick (R458). -/

theorem State.restartPliwick_keeps (s : State) (cause : Nat) : s.Keeps (s.restartPliwick cause) :=
  .trans (.trans (.fields ..) (State.pauseCommands_keeps ..)) (State.raise_keeps ..)

theorem execWatchdogExpiry_keeps (s : State) : s.KeptBy (execWatchdogExpiry s) :=
  .when (.trans (State.advanceTo_keeps ..) (State.restartPliwick_keeps ..))

theorem execManagementMemoryUncorrectable_keeps (s : State) : s.KeptBy (execManagementMemoryUncorrectable s) :=
  .when (State.restartPliwick_keeps ..)

theorem execPliwickRestartComplete_keeps (s : State) : s.KeptBy (execPliwickRestartComplete s) := by
  unfold execPliwickRestartComplete
  refine .when ?_
  refine .trans ?_ (.foldl (fun _ _ => State.emit_keeps ..) _ _)
  exact .trans (.fields ..) (State.resumeCommands_keeps ..)

/-! Shard transfer (R452). -/

theorem execShardExport_keeps (q : Fin 64) (cid : Cid) (s : State) : s.KeptBy (execShardExport q cid s) := by
  unfold execShardExport
  refine onCommand_keeps _ _ _ _ ?_
  intro x
  extract_lets
  split
  · exact State.fail_keeps ..
  · exact .ite (State.fail_keeps ..) (.ite (State.done_keeps ..) (.trans (State.await_keeps ..) (State.addPost_keeps ..)))

theorem execShardImport_keeps (q : Fin 64) (cid : Cid) (s : State) : s.KeptBy (execShardImport q cid s) := by
  unfold execShardImport
  refine onCommand_keeps _ _ _ _ ?_
  intro x
  extract_lets
  split
  · exact State.fail_keeps ..
  · exact .ite (State.fail_keeps ..) (.trans (.trans (State.await_keeps ..) (State.modCmd_keeps ..)) (State.importDone_keeps ..))

/-! Basting (R453–R457). -/

theorem State.openDigestCtx_keeps (s : State) (mode panel : Nat) : s.Keeps (s.openDigestCtx mode panel) := by
  unfold State.openDigestCtx
  exact .trans (.trans (.trans (State.setReg_keeps ..) (State.setReg_keeps ..)) (State.setReg_keeps ..)) (State.ctxOpen_keeps ..)

theorem execBasteAttach_keeps (q : Fin 64) (cid : Cid) (answer : Option (List Byte × Word)) (s : State) :
    s.KeptBy (execBasteAttach q cid answer s) := by
  unfold execBasteAttach
  refine onCommand_keeps _ _ _ _ ?_
  intro x
  split
  · exact .trans (State.advanceTo_keeps ..) (State.fail_keeps ..)
  · refine .ite (State.fail_keeps ..) ?_
    refine .ite (State.fail_keeps ..) ?_
    exact .trans (.trans (.trans (.trans (State.openDigestCtx_keeps ..) (State.setReg_keeps ..)) (State.setReg_keeps ..)) (.fields ..))
        (State.done_keeps ..)

theorem State.endBasting_keeps (s : State) (cause tick : Nat) : s.Keeps (s.endBasting cause tick) := by
  unfold State.endBasting
  exact .trans (.trans (.trans (.fields ..) (State.setFld_keeps ..)) (State.raise_keeps ..)) (State.tryCommit_keeps ..)

theorem execBasteDigest_keeps (digest : BitVec 64) (s : State) : s.KeptBy (execBasteDigest digest s) := by
  unfold execBasteDigest
  split
  · exact .next (.refl _)
  · refine .ite (.next (.refl _)) ?_
    refine .ite (.next (State.endBasting_keeps ..)) ?_
    extract_lets s1 _ _ s2
    have hs1 : s.Keeps s1 := .trans (State.modRun_keeps ..) (State.bump_keeps ..)
    have hs2 : s.Keeps s2 := .ite (.trans (.trans (hs1.trans (.fields ..)) (State.setFld_keeps ..)) (State.raise_keeps ..)) hs1
    exact .next (hs2.trans (State.tryCommit_keeps ..))

theorem execBasteDigestTimeout_keeps (s : State) : s.KeptBy (execBasteDigestTimeout s) := by
  unfold execBasteDigestTimeout
  split
  · exact .next (.refl _)
  · exact .when (.trans (State.advanceTo_keeps ..) (State.endBasting_keeps ..))

theorem execBastePromote_keeps (q : Fin 64) (cid : Cid) (s : State) : s.KeptBy (execBastePromote q cid s) :=
  onCommand_keeps _ _ _ _ (fun _ => .ite (State.fail_keeps ..) (.trans (.fields ..) (State.await_keeps ..)))

/-! The commands (R368, R466). -/

theorem execFwStage_keeps (q : Fin 64) (cid : Cid) (data : List Byte) (s : State) : s.KeptBy (execFwStage q cid data s) := by
  unfold execFwStage
  refine onCommand_keeps _ _ _ _ ?_
  intro x
  extract_lets
  refine .ite (State.fail_keeps ..) ?_
  refine .ite (State.fail_keeps ..) ?_
  refine State.fromBuffer_keeps _ _ _ _ _ _ ?_
  split
  · exact .trans (State.setBank_keeps ..) (State.done_keeps ..)
  · exact .trans (.trans (State.setBank_keeps ..) (State.authFail_keeps ..)) (State.fail_keeps ..)
  · exact .trans (.trans (State.setBank_keeps ..) (State.authFail_keeps ..)) (State.fail_keeps ..)
  · exact .trans (.trans (State.setBank_keeps ..) (State.authFail_keeps ..)) (State.fail_keeps ..)

theorem execFwActivate_keeps (q : Fin 64) (cid : Cid) (s : State) : s.KeptBy (execFwActivate q cid s) := by
  unfold execFwActivate
  refine onCommand_keeps _ _ _ _ ?_
  intro x
  extract_lets
  refine .ite (State.fail_keeps ..) ?_
  split
  · exact .trans (.fields ..) (State.done_keeps ..)
  · exact .trans (State.authFail_keeps ..) (State.fail_keeps ..)
  · exact .trans (State.authFail_keeps ..) (State.fail_keeps ..)

theorem execFwLiveUpdate_keeps (q : Fin 64) (cid : Cid) (s : State) : s.KeptBy (execFwLiveUpdate q cid s) := by
  unfold execFwLiveUpdate
  refine onCommand_keeps _ _ _ _ ?_
  intro x
  exact .ite (State.fail_keeps ..) (.ite (.trans (State.authFail_keeps ..) (State.fail_keeps ..)) (State.askEntry_keeps ..))

theorem execLiveUpdateEnd_keeps (started : Bool) (s : State) : s.KeptBy (execLiveUpdateEnd started s) := by
  unfold execLiveUpdateEnd
  split
  · extract_lets _ ended _ _ _ _ s3 _ s5
    have hended : ∀ s6, State.Keeps s6 (ended s6) := fun s6 => .trans (.fields ..) (State.resumeCommands_keeps ..)
    have hs3 : s.Keeps s3 :=
      .trans (.trans (.trans (.trans (.fields ..) (State.measure_keeps ..)) (State.finishOpt_keeps ..)) (hended _)) (State.raise_keeps ..)
    have hs5 : s.Keeps s5 := .trans (.trans (State.advanceTo_keeps ..) (State.finishOpt_keeps ..)) (State.raise_keeps ..)
    exact .ite (.ite (.next (.refl _)) (.next (.trans (.ite (hs3.trans (State.advanceRollback_keeps ..)) hs3) (State.endEntry_keeps ..))))
        (.next (.trans (hs5.trans (hended _)) (State.endEntry_keeps ..)))
  · exact .next (.refl _)

/-! The grant of a scratchpad bank, and its scrub (R88–R94). -/

theorem State.grantSlot_keeps (s : State) (p i : Nat) (m : MemOp) (err : EccErr) : s.Keeps (s.grantSlot p i m err) := by
  unfold State.grantSlot
  split
  · exact State.grantMxi_keeps ..
  · exact State.grantVxi_keeps ..
  · exact State.grantDxi_keeps ..
  · exact State.grantWopen_keeps ..
  · exact State.grantTp_keeps ..

theorem State.grantAt_keeps (s : State) (p b : Nat) (err : EccErr) : s.KeptIn (fun r => r) (s.grantAt p b err) := by
  unfold State.grantAt
  extract_lets _ _ took
  have htook : s.Keeps took := State.takeBank_keeps ..
  split
  · exact .some (htook.trans (State.grantP6_keeps ..))
  · split
    · exact .some (.trans (htook.trans (State.missP6_keeps ..)) (State.grantSlot_keeps ..))
    · split
      · exact .some (.trans (.trans (htook.trans (State.missP6_keeps ..)) (State.modCore_keeps _ _ _ id)) (State.clearBlock_keeps ..))
      · refine .ite (.some (.trans (htook.trans (State.missP6_keeps ..)) (State.vecAccess_keeps ..))) ?_
        refine .ite (.some (.trans (htook.trans (State.missP6_keeps ..)) (State.mxuAccess_keeps ..))) ?_
        split
        · exact .some (htook.trans (State.grantP6_keeps ..))
        · split
          · exact .some (htook.trans (State.modBank_keeps ..))
          · exact .none

theorem execBankGrant_keeps (c : CoreIx) (bank : Fin 16) (err : EccErr) (s : State) : s.KeptBy (execBankGrant c bank err s) := by
  unfold execBankGrant
  extract_lets
  refine .ite (.next (.refl _)) ?_
  split
  next h =>
    exact .next (.trans (State.advanceTo_keeps ..) ((State.grantAt_keeps ..).of_eq h))
  · split
    · exact .next (.refl _)
    · split
      next h2 =>
        exact .next (.trans (State.advanceTo_keeps ..) ((State.grantAt_keeps ..).of_eq h2))
      · exact .next (.refl _)

theorem execScrubRead_keeps (c : CoreIx) (bank : Fin 16) (err : EccErr) (s : State) : s.KeptBy (execScrubRead c bank err s) := by
  unfold execScrubRead
  extract_lets
  refine .ite (.next (.refl _)) ?_
  split
  · exact .next (.trans (.trans (State.advanceTo_keeps ..) (State.takeBank_keeps ..)) (State.scrubLine_keeps ..))
  · exact .next (.refl _)

/-! SPDM (R471). -/

theorem State.setSpdm_keeps (s : State) (t : Nat) (x : Spdm) : s.Keeps (s.setSpdm t x) :=
  .fields ..

theorem State.respond_keeps (s : State) (t : Nat) (x : Spdm) (r : SpdmResponse) : s.Keeps (s.respond t x r) :=
  State.setSpdm_keeps ..

theorem State.respondSigned_keeps (s : State) (t : Nat) (x : Spdm) (r : SpdmResponse) : s.Keeps (s.respondSigned t x r) :=
  State.setSpdm_keeps ..

theorem State.spdmError_keeps (s : State) (t : Nat) (unexpected : Bool) : s.Keeps (s.spdmError t unexpected) :=
  State.respond_keeps ..

theorem State.cosign_keeps (s : State) (t : Nat) : s.Keeps (s.cosign t) := by
  unfold State.cosign
  extract_lets _ _ _ _ _ s2
  have hs2 : s.Keeps s2 := .trans (State.respond_keeps ..) (.fields ..)
  exact .ite (State.spdmError_keeps ..) (.ite (.trans (State.respond_keeps ..) (State.raise_keeps ..))
      (.ite (hs2.trans (State.raise_keeps ..)) hs2))

theorem State.spdm_keeps (s : State) (t : Nat) (r : SpdmReq) : s.Keeps (s.spdm t r) := by
  unfold State.spdm
  extract_lets
  split
  · exact State.respond_keeps ..
  · exact .ite (State.respond_keeps ..) (State.spdmError_keeps ..)
  · exact .ite (State.respond_keeps ..) (State.spdmError_keeps ..)
  · exact .ite (State.respond_keeps ..) (State.spdmError_keeps ..)
  · exact .ite (State.respond_keeps ..) (State.spdmError_keeps ..)
  · exact .ite (State.respondSigned_keeps ..) (State.spdmError_keeps ..)
  · exact .ite (State.spdmError_keeps ..) (.ite (State.respondSigned_keeps ..) (State.respond_keeps ..))
  · exact .ite (State.spdmError_keeps ..) (.ite (State.respond_keeps ..) (State.spdmError_keeps ..))
  · exact .ite (State.spdmError_keeps ..) (.ite (State.respond_keeps ..) (State.spdmError_keeps ..))
  · exact .ite (State.spdmError_keeps ..) (.ite (State.respond_keeps ..) (State.spdmError_keeps ..))
  · exact State.cosign_keeps ..
  · exact State.spdmError_keeps ..

theorem execGetVersion_keeps (doe : Bool) (s : State) : s.KeptBy (execGetVersion doe s) :=
  .next (State.spdm_keeps ..)

theorem execGetCapabilities_keeps (doe : Bool) (s : State) : s.KeptBy (execGetCapabilities doe s) :=
  .next (State.spdm_keeps ..)

theorem execNegotiateAlgorithms_keeps (doe : Bool) (s : State) : s.KeptBy (execNegotiateAlgorithms doe s) :=
  .next (State.spdm_keeps ..)

theorem execGetDigests_keeps (doe : Bool) (s : State) : s.KeptBy (execGetDigests doe s) :=
  .next (State.spdm_keeps ..)

theorem execGetCertificate_keeps (doe : Bool) (s : State) : s.KeptBy (execGetCertificate doe s) :=
  .next (State.spdm_keeps ..)

theorem execChallenge_keeps (doe : Bool) (s : State) : s.KeptBy (execChallenge doe s) :=
  .next (State.spdm_keeps ..)

theorem execGetMeasurements_keeps (doe signed : Bool) (s : State) : s.KeptBy (execGetMeasurements doe signed s) :=
  .next (State.spdm_keeps ..)

theorem execKeyExchange_keeps (doe : Bool) (s : State) : s.KeptBy (execKeyExchange doe s) :=
  .next (State.spdm_keeps ..)

theorem execFinish_keeps (doe : Bool) (s : State) : s.KeptBy (execFinish doe s) :=
  .next (State.spdm_keeps ..)

theorem execEndSession_keeps (doe : Bool) (s : State) : s.KeptBy (execEndSession doe s) :=
  .next (State.spdm_keeps ..)

theorem execLmsCosign_keeps (doe : Bool) (s : State) : s.KeptBy (execLmsCosign doe s) :=
  .next (State.spdm_keeps ..)

theorem execAttest_keeps (q : Fin 64) (cid : Cid) (req : SpdmReq) (s : State) : s.KeptBy (execAttest q cid req s) := by
  unfold execAttest
  refine onCommand_keeps _ _ _ _ ?_
  intro x
  refine State.fromBuffer_keeps _ _ _ _ _ _ ?_
  exact .trans (.trans (.fields ..) (State.spdm_keeps ..)) (State.toBuffer_keeps ..)

/-! Debug unlock (R473). -/

theorem execDebugToken_keeps (img : List Byte) (s : State) : s.KeptBy (execDebugToken img s) := by
  unfold execDebugToken
  extract_lets _ _ t _
  have ht : s.Keeps t := State.newNonce_keeps ..
  exact .ite (.next (.trans (ht.trans (.fields ..)) (State.raise_keeps ..))) (.next (ht.trans (State.raise_keeps ..)))

/-! Snapshots (R478, R486). -/

theorem execSnap_keeps (s : State) : s.KeptBy (execSnap s) :=
  .when (.trans (State.telBoundary_keeps ..) (State.setFld_keeps ..))

theorem execSnapshotFlip_keeps (missing : List (Fin 192)) (s : State) : s.KeptBy (execSnapshotFlip missing s) := by
  unfold execSnapshotFlip
  split
  · exact .next (.refl _)
  · exact .next (.trans (.trans (.trans (.ite (.refl _) (State.advanceTo_keeps ..)) (State.telResume_keeps ..)) (State.setFld_keeps ..))
        (.fields ..))

theorem execSlackReport_keeps (d : Fin 192) (s : State) : s.KeptBy (execSlackReport d s) := by
  unfold execSlackReport
  split
  · exact .next (.refl _)
  · refine .next ?_
    refine .foldl (fun x1 _ => ?_) _ _
    extract_lets _ _ _ s1 _
    have hs1 : x1.Keeps s1 := .fields ..
    exact .ite (hs1.trans (State.telSampleAt_keeps ..)) hs1

/-! Reads (R480, R481, R487–R489). -/

theorem execTelRead_keeps (q : Fin 64) (cid : Cid) (s : State) : s.KeptBy (execTelRead q cid s) := by
  unfold execTelRead
  refine onCommand_keeps _ _ _ _ ?_
  intro x
  exact .ite (State.fail_keeps ..) (.ite (State.fail_keeps ..) (State.toBuffer_keeps ..))

theorem State.mctpSend_keeps (s : State) (bs : List Byte) : s.Keeps (s.mctpSend bs) :=
  .fields ..

theorem execTelGet_keeps (page : BitVec 8) (off : BitVec 16) (n : Fin 49) (s : State) : s.KeptBy (execTelGet page off n s) :=
  .when (State.mctpSend_keeps ..)

theorem execMctpStatus_keeps (s : State) : s.KeptBy (execMctpStatus s) :=
  .next (State.mctpSend_keeps ..)

/-! Pushed events (R490). -/

theorem execMctpEvent_keeps (s : State) : s.KeptBy (execMctpEvent s) := by
  unfold execMctpEvent
  split
  · exact .next (.refl _)
  · exact .when (.trans (State.mctpSend_keeps ..) (.fields ..))

theorem State.mctpNext_keeps (s : State) : s.Keeps s.mctpNext :=
  .fields ..

theorem execMctpEventRetry_keeps (s : State) : s.KeptBy (execMctpEventRetry s) := by
  unfold execMctpEventRetry
  split
  · extract_lets s1 _ _
    have hs1 : s.Keeps s1 := State.advanceTo_keeps ..
    exact .ite (.next (.trans (hs1.trans (State.mctpNext_keeps ..)) (State.bump_keeps ..)))
        (.next (.trans (hs1.trans (State.mctpSend_keeps ..)) (.fields ..)))
  · exact .next (.refl _)

theorem execMctpEventAcknowledged_keeps (s : State) : s.KeptBy (execMctpEventAcknowledged s) :=
  .when (State.mctpNext_keeps ..)

/-! Register writes (R6–R8, R56, R196, R276, R510). -/

theorem State.after_keeps (s : State) {r : Res} (h : s.KeptBy r) : s.Keeps (s.after r) := by
  unfold State.after
  split
  · exact h.of_eq rfl
  · exact .refl _

theorem State.plainWrite_keeps (s : State) (u : Nat) (r : RegRow) (off v m : Nat) : s.Keeps (s.plainWrite u r off v m) :=
  State.putReg_keeps ..

theorem State.checkedWrite_keeps (s : State) (u : Nat) (r : RegRow) (off v m : Nat) (ok : Nat → Bool) :
    s.Keeps (s.checkedWrite u r off v m ok) :=
  .ite (State.plainWrite_keeps ..) (.refl _)

theorem State.clearRecord_keeps (s : State) (u off w bit_ : Nat) : s.Keeps (s.clearRecord u off w bit_) :=
  .ite (State.putReg_keeps ..) (.refl _)

/-! Core registers. -/

theorem State.clearRouter_keeps (s : State) (p : Nat) : s.Keeps (s.clearRouter p) := by
  unfold State.clearRouter
  exact .trans (.fields ..) (State.setFld_keeps ..)

theorem State.coreWrite_keeps (s : State) (p : Nat) (r : RegRow) (off v m : Nat) : s.Keeps (s.coreWrite p r off v m) := by
  unfold State.coreWrite
  extract_lets _ _ s1 _ s2 _
  have hs1 : s.Keeps s1 := State.plainWrite_keeps ..
  have hs2 : s.Keeps s2 := .ite (State.modSlot_keeps ..) (.refl _)
  exact .ite (.ite (hs1.trans (State.modCore_keeps _ _ _ id)) hs1) (.ite (.ite (hs2.trans (State.modSlot_keeps ..)) hs2)
      (.ite (hs1.trans (.foldl (fun _ _ => .ite (State.modBank_keeps ..) (.refl _)) _ _))
      (.ite (.trans (State.requestDown_keeps ..) (State.requestUp_keeps ..)) (.ite (.foldl (fun _ _ => State.modBank_keeps ..) _ _)
      (.ite (State.clearRecord_keeps ..) (.ite (State.checkedWrite_keeps ..) (.ite
      (.trans (State.checkedWrite_keeps ..) (State.noteDepth_keeps ..)) (.ite (.ite (hs1.trans (State.clearRouter_keeps ..)) hs1)
      (State.plainWrite_keeps ..)))))))))

/-! Die registers. -/

theorem State.dieWrite_keeps (s : State) (site : Nat) (r : RegRow) (off v m : Nat) : s.Keeps (s.dieWrite site r off v m) := by
  unfold State.dieWrite
  extract_lets _ _ s1
  have hs1 : s.Keeps s1 := State.plainWrite_keeps ..
  refine .ite (State.checkedWrite_keeps ..) ?_
  refine .ite ?_ ?_
  · split
    · exact State.after_keeps _ (execDramRetire_keeps ..)
    · exact .refl _
  · refine .ite (State.clearRecord_keeps ..) ?_
    refine .ite (State.bump_keeps ..) ?_
    refine .ite (.ite (.trans (State.putReg_keeps ..) (State.putReg_keeps ..)) (.refl _)) ?_
    refine .ite ?_ (State.plainWrite_keeps ..)
    split
    · exact .trans (hs1.trans (State.after_keeps _ (execOnReq_keeps ..))) (State.after_keeps _ (execOffReq_keeps ..))
    · exact hs1

/-! Registers of the management die. -/

theorem State.tickWrite_keeps (s : State) (v m : Nat) : s.Keeps (s.tickWrite v m) := by
  unfold State.tickWrite
  extract_lets _ _ s1
  have hs1 : s.Keeps s1 := State.modGen_keeps ..
  exact .ite (hs1.trans (State.after_keeps _ (execRun_keeps ..))) hs1

theorem State.resetWrite_keeps (s : State) (r : RegRow) (v m : Nat) : s.Keeps (s.resetWrite r v m) := by
  unfold State.resetWrite
  extract_lets _ s1 s2
  have hs1 : s.Keeps s1 := State.plainWrite_keeps ..
  have hs2 : s.Keeps s2 := .ite (hs1.trans (State.after_keeps _ (execPatchReset_keeps ..))) hs1
  exact .ite (hs1.trans (State.after_keeps _ (execFabricReset_keeps ..))) (.ite (hs2.trans (State.requestReset_keeps ..)) hs2)

theorem State.basteWrite_keeps (s : State) (r : RegRow) (v m : Nat) : s.Keeps (s.basteWrite r v m) := by
  unfold State.basteWrite
  extract_lets _ s1 _
  have hs1 : s.Keeps s1 := State.plainWrite_keeps ..
  exact .ite (hs1.trans (State.openDigestCtx_keeps ..)) (.ite (.trans (hs1.trans (State.setReg_keeps ..)) (State.ctxOpen_keeps ..)) hs1)

theorem State.mgmtWrite_keeps (s : State) (r : RegRow) (off v m : Nat) : s.Keeps (s.mgmtWrite r off v m) := by
  unfold State.mgmtWrite
  extract_lets _ _ _ _ _ s1 s2
  have hs1 : s.Keeps s1 := State.checkedWrite_keeps ..
  have hs2 : s.Keeps s2 := State.checkedWrite_keeps ..
  exact .ite (State.tickWrite_keeps ..) (.ite (State.writeSeq_keeps ..) (.ite (State.checkedWrite_keeps ..)
      (.ite (State.clearRecord_keeps ..) (.ite (State.checkedWrite_keeps ..) (.ite
      (.trans (State.checkedWrite_keeps ..) (State.capNow_keeps ..)) (.ite (State.checkedWrite_keeps ..)
      (.ite (.ite (.trans (State.putReg_keeps ..) (.fields ..)) (.refl _)) (.ite (.ite (hs1.trans (State.queueReplan_keeps ..)) hs1)
      (.ite (State.resetWrite_keeps ..) (.ite (State.checkedWrite_keeps ..) (.ite (State.basteWrite_keeps ..)
      (.ite (.ite (hs2.trans (State.after_keeps _ (execSnap_keeps ..))) hs2) (.ite (State.checkedWrite_keeps ..)
      (State.plainWrite_keeps ..))))))))))))))

/-! Registers of the link dies (R330, R331). -/

theorem State.ctxWrite_keeps (s : State) (e : Nat) (r : RegRow) (off v m : Nat) : s.Keeps (s.ctxWrite e r off v m) := by
  unfold State.ctxWrite
  exact .ite (.ite (.refl _) (.ite (.trans (State.putReg_keeps ..) (State.ctxOpen_keeps ..))
      (.ite (.refl _) (.trans (State.putReg_keeps ..) (State.ctxOpen_keeps ..))))) (.ite (.refl _) (State.putReg_keeps ..))

theorem State.linkWrite_keeps (s : State) (e : Nat) (r : RegRow) (off v m : Nat) : s.Keeps (s.linkWrite e r off v m) := by
  unfold State.linkWrite
  extract_lets _ _ s1 s2
  have hs1 : s.Keeps s1 := State.plainWrite_keeps ..
  have hs2 : s.Keeps s2 := .ite (hs1.trans (State.linkDown_keeps ..)) hs1
  refine .ite ?_ (.ite (.refl _) (.ite (State.bump_keeps ..) (.ite (.ite (.trans (State.putReg_keeps ..) (State.putReg_keeps ..)) (.refl _))
      (.ite (State.ctxWrite_keeps ..) (State.plainWrite_keeps ..)))))
  split
  · exact .ite (hs2.trans (State.after_keeps _ (execVlnkCtrlRetrain_keeps ..))) hs2
  · exact hs2

/-! Registers of BAR0 (R355, R376). -/

theorem State.barWrite_keeps (s : State) (r : RegRow) (off v m : Nat) : s.Keeps (s.barWrite r off v m) := by
  unfold State.barWrite
  exact .ite (State.checkedWrite_keeps ..) (.ite (State.checkedWrite_keeps ..)
      (.ite (.ite (State.after_keeps _ (execHostMemEn_keeps ..)) (.refl _)) (.ite (.ite (.refl _) (State.checkedWrite_keeps ..))
      (.ite (State.checkedWrite_keeps ..) (.ite (.ite (.refl _) (State.checkedWrite_keeps ..))
      (.ite (.ite (State.after_keeps _ (execFeaturesOk_keeps ..)) (.refl _)) (.ite
      (State.after_keeps _ (execHostDriverFeaturesWrite_keeps ..)) (.ite (.ite (.refl _) (State.plainWrite_keeps ..))
      (.ite (.ite (.refl _) (State.plainWrite_keeps ..)) (.ite (State.after_keeps _ (execQueueEnable_keeps ..))
      (.ite (State.after_keeps _ (execSqTailDoorbell_keeps ..)) (.ite (State.after_keeps _ (execCqHeadDoorbell_keeps ..))
      (.ite (State.after_keeps _ (execEventHeadDoorbell_keeps ..)) (State.plainWrite_keeps ..))))))))))))))

/-! All holders. -/

theorem State.writeFull_keeps (s : State) (u : Nat) (r : RegRow) (off v m : Nat) : s.Keeps (s.writeFull u r off v m) := by
  unfold State.writeFull
  extract_lets _ s1
  have hs1 : s.Keeps s1 := .ite (.refl _) (State.writeRwt_keeps ..)
  exact .ite hs1 (.ite (hs1.trans (State.coreWrite_keeps ..)) (.ite (hs1.trans (State.dieWrite_keeps ..))
      (.ite (hs1.trans (State.linkWrite_keeps ..)) (.ite (hs1.trans (State.mgmtWrite_keeps ..))
      (.ite (hs1.trans (State.barWrite_keeps ..)) (hs1.trans (State.plainWrite_keeps ..)))))))

theorem State.worldPut_keeps (s : State) (w k v m : Nat) : s.Keeps (s.worldPut w k v m) := by
  unfold State.worldPut
  exact .ite (.ite (State.setWorld_keeps ..) (.refl _)) (.ite (State.setWorld_keeps ..) (.refl _))

theorem State.regWrite_keeps (s : State) (u off n v : Nat) : s.Keeps (s.regWrite u off n v) := by
  unfold State.regWrite
  extract_lets
  split
  · exact State.worldPut_keeps ..
  · split
    · refine .ite (State.writeFull_keeps ..) ?_
      extract_lets s1
      have hs1 : s.Keeps s1 := .ite (State.writeFull_keeps ..) (.refl _)
      refine .ite ?_ hs1
      split
      · exact hs1.trans (State.writeFull_keeps ..)
      · exact hs1
    · split
      · exact .ite (State.writeFull_keeps ..) (.refl _)
      · exact .refl _

/-! Configuration space (R335). -/

theorem State.configWrite_keeps (s : State) (f : ConfigField) (v : Nat) : s.Keeps (s.configWrite f v) := by
  unfold State.configWrite
  split
  · exact .ite (.fields ..) (.refl _)
  · exact .refl _

theorem State.readAt_keeps (s : State) (u off n : Nat) : s.Keeps (s.readAt u off n).2 := by
  unfold State.readAt
  split
  · exact .refl _
  · split
    · exact .refl _
    · exact State.regRead_keeps ..

theorem State.windowRead_keeps (s : State) (x n : Nat) : s.Keeps (s.windowRead x n) := by
  unfold State.windowRead
  split
  · exact .fields ..
  · split
    next h1 =>
      exact .trans ((State.readAt_keeps ..).snd h1) (.fields ..)

theorem State.windowWrite_keeps (s : State) (x n v : Nat) : s.Keeps (s.windowWrite x n v) := by
  unfold State.windowWrite
  split
  · exact .refl _
  · exact State.regWrite_keeps ..

theorem execRocRead_keeps (p : RegPlace) (wide : Bool) (s : State) : s.KeptBy (execRocRead p wide s) := by
  unfold execRocRead
  extract_lets
  split
  · split
    · exact .next (.fields ..)
    · exact .next (.fields ..)
    · refine .ite (.next (.fields ..)) ?_
      refine .ite (.next (State.windowRead_keeps ..)) ?_
      split
      next h3 =>
        exact .next (.trans ((State.readAt_keeps ..).snd h3) (.fields ..))

theorem execRegisterWrite_keeps (p : RegPlace) (wide : Bool) (v : BitVec 64) (s : State) : s.KeptBy (execRegisterWrite p wide v s) := by
  unfold execRegisterWrite
  extract_lets
  split
  · split
    · exact .when (.ite (.fields ..) (.fields ..))
    · exact .next (State.configWrite_keeps ..)
    · exact .ite (.next (.refl _)) (.ite (.next (State.windowWrite_keeps ..)) (.next (State.regWrite_keeps ..)))

theorem execRwtWrite_keeps (p : RegPlace) (wide : Bool) (v : BitVec 64) (s : State) : s.KeptBy (execRwtWrite p wide v s) := by
  unfold execRwtWrite
  extract_lets
  split
  · split
    · exact .next (.refl _)
    · exact .next (.refl _)
    · exact .when (State.regWrite_keeps ..)

theorem execPanelRegisterWindow_keeps (off : BitVec 25) (n : Fin 65) (write : Option (BitVec 64)) (s : State) :
    s.KeptBy (execPanelRegisterWindow off n write s) := by
  unfold execPanelRegisterWindow
  extract_lets
  split
  · exact .next (.ite (State.windowRead_keeps ..) (.fields ..))
  · exact .when (State.windowWrite_keeps ..)

/-! The one dispatch. -/

theorem exec_keeps (i : Instr) (s : State) : s.KeptBy (exec i s) := by
  unfold exec
  split
  · exact aluR_keeps ..
  · exact aluR_keeps ..
  · exact aluR_keeps ..
  · exact aluR_keeps ..
  · exact aluR_keeps ..
  · exact aluR_keeps ..
  · exact aluR_keeps ..
  · exact aluR_keeps ..
  · exact aluR_keeps ..
  · exact aluR_keeps ..
  · exact aluR_keeps ..
  · exact aluR_keeps ..
  · exact aluR_keeps ..
  · exact aluR_keeps ..
  · exact aluR_keeps ..
  · exact aluR_keeps ..
  · exact aluR_keeps ..
  · exact aluR_keeps ..
  · exact aluR_keeps ..
  · exact tpSimple_keeps ..
  · exact tpSimple_keeps ..
  · exact aluDiv_keeps ..
  · exact aluDiv_keeps ..
  · exact aluDiv_keeps ..
  · exact aluDiv_keeps ..
  · exact aluU_keeps ..
  · exact aluU_keeps ..
  · exact aluU_keeps ..
  · exact aluU_keeps ..
  · exact aluU_keeps ..
  · exact aluU_keeps ..
  · exact aluU_keeps ..
  · exact aluI_keeps ..
  · exact aluI_keeps ..
  · exact aluI_keeps ..
  · exact aluI_keeps ..
  · exact aluI_keeps ..
  · exact aluI_keeps ..
  · exact aluI_keeps ..
  · exact aluI_keeps ..
  · exact aluI_keeps ..
  · exact tpSimple_keeps ..
  · exact branch_keeps ..
  · exact branch_keeps ..
  · exact branch_keeps ..
  · exact branch_keeps ..
  · exact branch_keeps ..
  · exact branch_keeps ..
  · exact execJal_keeps ..
  · exact execJalr_keeps ..
  · exact load_keeps ..
  · exact load_keeps ..
  · exact load_keeps ..
  · exact load_keeps ..
  · exact load_keeps ..
  · exact load_keeps ..
  · exact load_keeps ..
  · exact store_keeps ..
  · exact store_keeps ..
  · exact store_keeps ..
  · exact store_keeps ..
  · exact atomic_keeps ..
  · exact atomic_keeps ..
  · exact atomic_keeps ..
  · exact atomic_keeps ..
  · exact atomic_keeps ..
  · exact tpAccess_keeps ..
  · exact tpAccess_keeps ..
  · exact execWaitc_keeps ..
  · exact engineIssue_keeps ..
  · exact engineIssue_keeps ..
  · exact engineIssue_keeps ..
  · exact execWopen_keeps ..
  · exact execWclose_keeps ..
  · exact execWstat_keeps ..
  · exact execWaitt_keeps ..
  · exact execWaitm_keeps ..
  · exact execWaitp_keeps ..
  · exact execBar_keeps ..
  · exact execHsend_keeps ..
  · exact execHrecv_keeps ..
  · exact execTend_keeps ..
  · exact tpSimple_keeps ..
  · exact execRaise_keeps ..
  · exact execRdpar_keeps ..
  · exact execRdsys_keeps ..
  · exact tpSimple_keeps ..
  · exact execLoadDataReturn_keeps ..
  · exact execBankGrant_keeps ..
  · exact execScrubRead_keeps ..
  · exact execTaskLaunch_keeps ..
  · exact execTaskEnded_keeps ..
  · exact execDescriptorCompletion_keeps ..
  · exact dmaRun_keeps ..
  · exact dmaRun_keeps ..
  · exact dmaRun_keeps ..
  · exact execMcast_keeps ..
  · exact execReplyArrival_keeps ..
  · exact execMma_keeps ..
  · exact execZacc_keeps ..
  · exact execLdacc_keeps ..
  · exact execAddacc_keeps ..
  · exact execStacc_keeps ..
  · exact execChain_keeps ..
  · exact execLdparam_keeps ..
  · exact execLdtile_keeps ..
  · exact execRemoteWrite_keeps ..
  · exact execRemoteRead_keeps ..
  · exact execMulticastWrite_keeps ..
  · exact execCreditRequest_keeps ..
  · exact execHeldRequestGrant_keeps ..
  · exact execCreditReply_keeps ..
  · exact execCreditRetry_keeps ..
  · exact execCreditReturn_keeps ..
  · exact execGrantExpiry_keeps ..
  · exact execCloseComplete_keeps ..
  · exact execPdReq_keeps ..
  · exact execPuReq_keeps ..
  · exact execAutoPowerDown_keeps ..
  · exact execBankPowerDown_keeps ..
  · exact execPowerDownTimeout_keeps ..
  · exact execBankPowerUpDone_keeps ..
  · exact execIcinv_keeps ..
  · exact execIcacheInvalidationDone_keeps ..
  · exact execLaunchEn_keeps ..
  · exact execTaskFaultValidClear_keeps ..
  · exact execRocRead_keeps ..
  · exact execRegisterWrite_keeps ..
  · exact execRwtWrite_keeps ..
  · exact execDramRead_keeps ..
  · exact execDramWrite_keeps ..
  · exact execDramReadData_keeps ..
  · exact execRefresh_keeps ..
  · exact execPatrolRead_keeps ..
  · exact execDramLimitInterval_keeps ..
  · exact execThermalSample_keeps ..
  · exact execDramRetire_keeps ..
  · exact execPacketDieEntry_keeps ..
  · exact execRouterForward_keeps ..
  · exact execEscapeEntry_keeps ..
  · exact execMcastBranchDrop_keeps ..
  · exact execMissNotice_keeps ..
  · exact execMcastAck_keeps ..
  · exact execMcastResend_keeps ..
  · exact execSeamLinkFail_keeps ..
  · exact execThrottleLevelFall_keeps ..
  · exact execHalyardForward_keeps ..
  · exact execPhaseSend_keeps ..
  · exact execPhase_keeps ..
  · exact execAbandon_keeps ..
  · exact execCommit_keeps ..
  · exact execTack_keeps ..
  · exact execControl_keeps ..
  · exact execBarUp_keeps ..
  · exact execBarRel_keeps ..
  · exact execVote_keeps ..
  · exact execNotice_keeps ..
  · exact execDieHb_keeps ..
  · exact execHist_keeps ..
  · exact execUser_keeps ..
  · exact execUserAck_keeps ..
  · exact execHalDebug_keeps ..
  · exact execUserResend_keeps ..
  · exact execHeartbeat_keeps ..
  · exact execHeartbeatTimeout_keeps ..
  · exact execDieHbTimeout_keeps ..
  · exact execStartTick_keeps ..
  · exact execTickInEdge_keeps ..
  · exact execRootVote_keeps ..
  · exact execTickEnd_keeps ..
  · exact execOverrun_keeps ..
  · exact execCommitTimeout_keeps ..
  · exact execResetCopy_keeps ..
  · exact execResetCopyComplete_keeps ..
  · exact execWctxDoneSet_keeps ..
  · exact execResetReq_keeps ..
  · exact execWctxStatusWrite_keeps ..
  · exact execHeldDxiEnqueue_keeps ..
  · exact execRun_keeps ..
  · exact execStepLeft_keeps ..
  · exact execTickCommitSeqWrite_keeps ..
  · exact execTackBoundary_keeps ..
  · exact execTackComplete_keeps ..
  · exact execTackVoteTimeout_keeps ..
  · exact execCollPost_keeps ..
  · exact execScaleFix_keeps ..
  · exact execBucketStart_keeps ..
  · exact execUnitLineStep_keeps ..
  · exact execCollectivePacket_keeps ..
  · exact execPairingDeadline_keeps ..
  · exact execBucketCompletionReport_keeps ..
  · exact execFailureRecord_keeps ..
  · exact execEngineStageSignal_keeps ..
  · exact execFlitReceive_keeps ..
  · exact execReplayTimeout_keeps ..
  · exact execPortTraining_keeps ..
  · exact execVlnkCtrlRetrain_keeps ..
  · exact execLinkDown_keeps ..
  · exact execEndRecord_keeps ..
  · exact execOffer_keeps ..
  · exact execHistUp_keeps ..
  · exact execAbortRecord_keeps ..
  · exact execMark_keeps ..
  · exact execToken_keeps ..
  · exact execSysAbandon_keeps ..
  · exact execHistDown_keeps ..
  · exact execVlnkXpost_keeps ..
  · exact execTransferLine_keeps ..
  · exact execTransferAck_keeps ..
  · exact execReceiveAckTimer_keeps ..
  · exact execRetransmitTimeout_keeps ..
  · exact execPathTimeout_keeps ..
  · exact execTransitSlot_keeps ..
  · exact execHostLinkTraining_keeps ..
  · exact execHostLinkTimeout_keeps ..
  · exact execHostMemoryAccess_keeps ..
  · exact execCxlMemRead_keeps ..
  · exact execCxlMemWrite_keeps ..
  · exact execHostMemEn_keeps ..
  · exact execCommitNotification_keeps ..
  · exact execIdeIntegrityFailure_keeps ..
  · exact execMsixUnmask_keeps ..
  · exact execFunctionLevelReset_keeps ..
  · exact execCxlReset_keeps ..
  · exact execConventionalReset_keeps ..
  · exact execHostLinkLoss_keeps ..
  · exact execPanelRegisterWindow_keeps ..
  · exact execFeaturesOk_keeps ..
  · exact execHostDriverFeaturesWrite_keeps ..
  · exact execQueueEnable_keeps ..
  · exact execSqTailDoorbell_keeps ..
  · exact execCqHeadDoorbell_keeps ..
  · exact execEventHeadDoorbell_keeps ..
  · exact execCommandFetch_keeps ..
  · exact execCompletionWrite_keeps ..
  · exact execIdentify_keeps ..
  · exact execFeaturesGet_keeps ..
  · exact execAbort_keeps ..
  · exact execEventRing_keeps ..
  · exact execCfgLoad_keeps ..
  · exact execCfgSeal_keeps ..
  · exact execCfgTack_keeps ..
  · exact execTickStart_keeps ..
  · exact execTickStop_keeps ..
  · exact execTickStep_keeps ..
  · exact execTickSetSeq_keeps ..
  · exact execWorldRead_keeps ..
  · exact execWorldWrite_keeps ..
  · exact execWorldReset_keeps ..
  · exact execWorldState_keeps ..
  · exact execDmaWrite_keeps ..
  · exact execDmaRead_keeps ..
  · exact execHistRead_keeps ..
  · exact execTelRead_keeps ..
  · exact execPowerCap_keeps ..
  · exact execMaintStart_keeps ..
  · exact execMaintStop_keeps ..
  · exact execFaultRehearse_keeps ..
  · exact execBasteAttach_keeps ..
  · exact execBastePromote_keeps ..
  · exact execShardExport_keeps ..
  · exact execShardImport_keeps ..
  · exact execFwStage_keeps ..
  · exact execFwActivate_keeps ..
  · exact execFwLiveUpdate_keeps ..
  · exact execAttest_keeps ..
  · exact execConverterPhaseFailure_keeps ..
  · exact execGroupOutputShort_keeps ..
  · exact execConverterOvertemp_keeps ..
  · exact execRegionPhaseFailure_keeps ..
  · exact execRegionOvercurrent_keeps ..
  · exact execOnReq_keeps ..
  · exact execOffReq_keeps ..
  · exact execRegionStage_keeps ..
  · exact execRegionTurnOff_keeps ..
  · exact execContactEstimate_keeps ..
  · exact execPowerCompare_keeps ..
  · exact execBackstopCheck_keeps ..
  · exact execSupplySample_keeps ..
  · exact execInputHighTimer_keeps ..
  · exact execReferenceLoss_keeps ..
  · exact execHoldoverExpiry_keeps ..
  · exact execPllLockLoss_keeps ..
  · exact execDriftRetraining_keeps ..
  · exact execRetrainingComplete_keeps ..
  · exact execMarginControl_keeps ..
  · exact execHalfRateSwitch_keeps ..
  · exact execFullRateReturn_keeps ..
  · exact execReplan_keeps ..
  · exact execReplanInterval_keeps ..
  · exact execColdReset_keeps ..
  · exact execModuleReset_keeps ..
  · exact execFabricReset_keeps ..
  · exact execPatchReset_keeps ..
  · exact execCoreReset_keeps ..
  · exact execBringUp_keeps ..
  · exact execBootStepTimeout_keeps ..
  · exact execIdentityRecord_keeps ..
  · exact execBroadcastCollection_keeps ..
  · exact execLostNotice_keeps ..
  · exact execHeartbeatResumeTimeout_keeps ..
  · exact execReload_keeps ..
  · exact execReloadComplete_keeps ..
  · exact execArbiterAdmission_keeps ..
  · exact execSeamRetrainActivity_keeps ..
  · exact execVlnkRetrain_keeps ..
  · exact execDramRetrain_keeps ..
  · exact execScrub_keeps ..
  · exact execMarginSweep_keeps ..
  · exact execAgeing_keeps ..
  · exact execPhaseTest_keeps ..
  · exact execContactCheck_keeps ..
  · exact execSpareBist_keeps ..
  · exact execBasteDigest_keeps ..
  · exact execBasteDigestTimeout_keeps ..
  · exact execWatchdogExpiry_keeps ..
  · exact execGetVersion_keeps ..
  · exact execGetCapabilities_keeps ..
  · exact execNegotiateAlgorithms_keeps ..
  · exact execGetDigests_keeps ..
  · exact execGetCertificate_keeps ..
  · exact execChallenge_keeps ..
  · exact execGetMeasurements_keeps ..
  · exact execKeyExchange_keeps ..
  · exact execFinish_keeps ..
  · exact execEndSession_keeps ..
  · exact execLmsCosign_keeps ..
  · exact execDebugToken_keeps ..
  · exact execSnap_keeps ..
  · exact execSnapshotFlip_keeps ..
  · exact execSlackReport_keeps ..
  · exact execTelGet_keeps ..
  · exact execMctpStatus_keeps ..
  · exact execMctpEvent_keeps ..
  · exact execMctpEventRetry_keeps ..
  · exact execReferenceReturn_keeps ..
  · exact execSupplyRecovery_keeps ..
  · exact execVlnkRetrainingComplete_keeps ..
  · exact execDramRetrainingComplete_keeps ..
  · exact execLiveUpdateEnd_keeps ..
  · exact execPliwickRestartComplete_keeps ..
  · exact execManagementMemoryUncorrectable_keeps ..
  · exact execAgeingInterval_keeps ..
  · exact execNextAttemptMark_keeps ..
  · exact execLineCreditReturn_keeps ..
  · exact execInstructionCacheFill_keeps ..
  · exact execContextDramReply_keeps ..
  · exact execIdeKeyManagement_keeps ..
  · exact execMctpEventAcknowledged_keeps ..

/-! What a fabric cycle does of itself, while no command waits. -/

theorem State.issueWord_keeps (s : State) (a : At) : s.KeptBy (s.issueWord a) := by
  unfold State.issueWord
  extract_lets
  split
  · exact exec_keeps ..
  · exact tpIssue_keeps _ _ _ _ _ (fun _ => .refl _)

theorem State.issueCore_keeps (s : State) (p : Nat) : s.KeptBy (s.issueCore p) := by
  unfold State.issueCore
  split
  · split
    · exact State.issueWord_keeps ..
    · exact .next (.refl _)
  · exact .next (.refl _)

theorem State.issueCores_keeps (s : State) (ps : List Nat) : s.KeptBy (s.issueCores ps) := by
  induction ps generalizing s with
  | nil => exact .next (.refl s)
  | cons p ps ih =>
    unfold State.issueCores
    split
    next h => exact State.Keeps.keptBy ((State.issueCore_keeps ..).of_eq h) (ih _)
    · exact .fault _
    · exact .refused _

theorem State.cycle_keeps (s : State) : s.KeptBy s.cycle := by
  unfold State.cycle
  split
  next h => exact .next (.trans (((State.issueCores_keeps ..).of_eq h).trans (State.retryEdge_keeps ..)) (.fields ..))
  · exact .fault _
  · exact .refused _

/-- A step keeps the canonical form: it runs the next command of the queue, or a cycle of the fabric. -/
theorem step_memoriesCanonical {s t : State} (h : s.memoriesCanonical = true) (ht : step s = .next t) : t.memoriesCanonical = true := by
  unfold step at ht
  split at ht
  · exact (s.cycle_keeps.of_eq ht).memories h
  next c rest _ => exact ((exec_keeps c { s with pending := rest }).of_eq ht).memories h

end Sys2Proof.Machine

namespace Sys2Proof.Claims

open Sys2Proof.Machine

/-- Settles O58: every function that a step reaches keeps the form of the memories, one lemma for each. -/
theorem memoriesStayCanonical : Obligations.MemoriesStayCanonical := fun _ _ h ht => step_memoriesCanonical h ht

end Sys2Proof.Claims

/-!
SUPPORT. Bank power (R112-R115): the requests change the banks of their core alone, and bytes go and come with the power.
-/
namespace Sys2Proof.Machine

theorem SMap.get_drop {α : Type} (d : α) (p : Nat → Bool) (m : SMap α) (k : Nat) :
    SMap.get d (SMap.drop p m) k = if p k = true then d else SMap.get d m k := by
  split
  next h =>
    refine SMap.get_absent d _ k ?_
    simp only [SMap.drop, List.all_filter, List.all_eq_true, Bool.not_not, Bool.or_eq_true, bne_iff_ne]
    rintro ⟨j, v⟩ -
    by_cases hj : j = k
    · exact .inl (hj ▸ h)
    · exact .inr hj
  next h => exact get_filter_of_keeps d _ m fun v => by simpa using h

end Sys2Proof.Machine

namespace Sys2Proof.Claims

open Sys2Proof.Machine

/-- Of the steps of a fold one alone changes the state. -/
theorem foldl_of_one {σ β : Type} {f : σ → β → σ} {s t : σ} {b : β} {l : List β} (hl : l.Nodup) (hb : b ∈ l) (hstep : f s b = t)
    (hs : ∀ x ∈ l, x ≠ b → f s x = s) (ht : ∀ x ∈ l, x ≠ b → f t x = t) : l.foldl f s = t := by
  induction l with
  | nil => cases hb
  | cons a l ih =>
    obtain ⟨ha, hnodup⟩ := List.nodup_cons.1 hl
    by_cases hab : a = b
    · subst hab
      rw [List.foldl_cons, hstep]
      exact List.foldlRecOn (motive := fun u => u = t) l f rfl fun u hu x hx => by
        rw [hu]
        exact ht x (List.mem_cons_of_mem _ hx) fun he => ha (he ▸ hx)
    · rw [List.foldl_cons, hs a List.mem_cons_self hab]
      exact ih hnodup ((List.mem_cons.1 hb).resolve_left (Ne.symm hab)) (fun x hx => hs x (List.mem_cons_of_mem _ hx))
        fun x hx => ht x (List.mem_cons_of_mem _ hx)

theorem fld_of_coreOnly {s t : State} {p : Nat} (h : CoreOnly s t p) (u off lo w : Nat) : t.fld u off lo w = s.fld u off lo w := by
  have e := congrArg (fun x : State => x.fld u off lo w) h.2
  exact e

/-! Changes of the banks of one core. -/

/-- The banks of core `p` change, and nothing else. -/
structure OnlyBanks (s t : State) (p : Nat) : Prop where
  core : CoreOnly s t p
  banks : BanksOnly s t p

theorem OnlyBanks.refl (s : State) (p : Nat) : OnlyBanks s s p := ⟨⟨fun _ _ => rfl, rfl⟩, rfl⟩

theorem OnlyBanks.trans {s t u : State} {p : Nat} (h : OnlyBanks s t p) (k : OnlyBanks t u p) : OnlyBanks s u p where
  core := coreOnly_trans h.core k.core
  banks := by
    have e := congrArg (fun c : Core => ({ c with spad := { c.spad with banks := (s.core p).spad.banks } } : Core)) k.banks
    exact e.trans h.banks

theorem OnlyBanks.foldl {β : Type} {p : Nat} {f : State → β → State} (h : ∀ (t : State) (b : β), OnlyBanks t (f t b) p) (l : List β)
    (s : State) : OnlyBanks s (l.foldl f s) p := by
  induction l generalizing s with
  | nil => exact .refl s p
  | cons b l ih => exact (h s b).trans (ih (f s b))

theorem OnlyBanks.now {s t : State} {p : Nat} (h : OnlyBanks s t p) : t.now = s.now := by
  have e := congrArg State.now h.core.2
  exact e

theorem onlyBanks_modBank (s : State) (p b : Nat) (f : Bank → Bank) : OnlyBanks s (s.modBank p b f) p where
  core := coreOnly_modCore s p _
  banks := by
    rw [BanksOnly, State.modBank, State.modSpad, State.core_modCore_same]
    rfl

theorem bankAt_modBank (s : State) (p b k : Nat) (f : Bank → Bank) :
    bankAt (s.modBank p b f) p k = if k = b then f (bankAt s p b) else bankAt s p k := by
  rw [bankAt, s.spad_modBank]
  split
  next h => rw [h, Spad.bank_setBank_same, bankAt]
  next h => rw [Spad.bank_setBank_other _ _ h, bankAt]

theorem bankAt_modBank_same (s : State) (p b : Nat) (f : Bank → Bank) : bankAt (s.modBank p b f) p b = f (bankAt s p b) := by
  rw [bankAt_modBank, if_pos rfl]

theorem coreAndTime_ofLater {s t : State} {p k : Nat} (h : CoreOnly (s.advanceTo k) t p) : CoreAndTime s t p ∧ t.now = Nat.max s.now k := by
  have hnow := congrArg State.now h.2
  exact ⟨⟨h.1, congrArg (fun x : State => ({ x with now := s.now } : State)) h.2⟩, hnow⟩

/-- A panel in a later cycle, in which the banks of core `p` then change. -/
theorem OnlyBanks.ofLater {s t : State} {p k : Nat} (h : OnlyBanks (s.advanceTo k) t p) :
    CoreAndTime s t p ∧ BanksOnly s t p ∧ t.now = Nat.max s.now k := by
  obtain ⟨htime, hnow⟩ := coreAndTime_ofLater h.core
  exact ⟨htime, h.banks, hnow⟩

/-! Power down (R113). -/

/-- A bank that has taken a request to power down at `now`. -/
def downRequested (now : Nat) (x : Bank) : Bank :=
  if x.on ∧ x.pdSince.isNone ∧ x.pdOffAt.isNone then { x with pdSince := some now } else x

theorem downRequested_twice (now : Nat) (x : Bank) : downRequested now (downRequested now x) = downRequested now x := by
  unfold downRequested
  split
  · exact if_neg fun h => absurd h.2.1 (by simp)
  · rfl

theorem onlyBanks_requestDown (s : State) (p : Nat) (bs : List Nat) : OnlyBanks s (s.requestDown p bs) p :=
  .foldl (fun t b => onlyBanks_modBank t p b _) bs s

theorem bankAt_requestDown (s : State) (p : Nat) (bs : List Nat) (k : Nat) :
    bankAt (s.requestDown p bs) p k = if k ∈ bs then downRequested s.now (bankAt s p k) else bankAt s p k := by
  induction bs generalizing s with
  | nil => rfl
  | cons b bs ih =>
    have hstep : s.requestDown p (b :: bs) = (s.modBank p b (downRequested s.now)).requestDown p bs := rfl
    rw [hstep, ih, bankAt_modBank, (onlyBanks_modBank s p b _).now]
    by_cases hk : k = b
    · subst hk
      simp [downRequested_twice]
    · simp [hk]

/-! Power up (R114). -/

/-- The banks of core `p` take requests for power and begin to power up. -/
structure PowersUp (s t : State) (p : Nat) : Prop where
  only : OnlyBanks s t p
  bank : ∀ k, { bankAt t p k with puReq := (bankAt s p k).puReq, puDoneBy := (bankAt s p k).puDoneBy } = bankAt s p k

theorem PowersUp.refl (s : State) (p : Nat) : PowersUp s s p := ⟨.refl s p, fun _ => rfl⟩

theorem PowersUp.trans {s t u : State} {p : Nat} (h : PowersUp s t p) (k : PowersUp t u p) : PowersUp s u p where
  only := h.only.trans k.only
  bank j := by
    have e := congrArg (fun x : Bank => ({ x with puReq := (bankAt s p j).puReq, puDoneBy := (bankAt s p j).puDoneBy } : Bank)) (k.bank j)
    exact e.trans (h.bank j)

theorem PowersUp.foldl {β : Type} {p : Nat} {f : State → β → State} (h : ∀ (t : State) (b : β), PowersUp t (f t b) p) (l : List β)
    (s : State) : PowersUp s (l.foldl f s) p := by
  induction l generalizing s with
  | nil => exact .refl s p
  | cons b l ih => exact (h s b).trans (ih (f s b))

theorem PowersUp.on {s t : State} {p : Nat} (h : PowersUp s t p) (k : Nat) : (bankAt t p k).on = (bankAt s p k).on := by
  have e := congrArg Bank.on (h.bank k)
  exact e

theorem PowersUp.pdOffAt {s t : State} {p : Nat} (h : PowersUp s t p) (k : Nat) : (bankAt t p k).pdOffAt = (bankAt s p k).pdOffAt := by
  have e := congrArg Bank.pdOffAt (h.bank k)
  exact e

theorem powersUp_modBank {s : State} {p b : Nat} {f : Bank → Bank}
    (h : ∀ x : Bank, ({ f x with puReq := x.puReq, puDoneBy := x.puDoneBy } : Bank) = x) : PowersUp s (s.modBank p b f) p where
  only := onlyBanks_modBank s p b f
  bank k := by
    rw [bankAt_modBank]
    split
    next hk =>
      subst hk
      exact h _
    · rfl

/-- The turn of bank `b` to begin its power-up. -/
def startPowerUp (p : Nat) (s : State) (b : Nat) : State :=
  if (bankAt s p b).puReq ∧ !(bankAt s p b).on ∧ (bankAt s p b).puDoneBy.isNone ∧ (s.core p).poweringUp < 4 then
    s.modBank p b (fun x => { x with puDoneBy := some (s.now + 2 * Config.cycUs) })
  else s

theorem startPowerUps_eq (s : State) (p : Nat) : s.startPowerUps p = (List.range 16).foldl (startPowerUp p) s := rfl

theorem powersUp_startPowerUp (s : State) (p b : Nat) : PowersUp s (startPowerUp p s b) p := by
  unfold startPowerUp
  split
  · exact powersUp_modBank fun _ => rfl
  · exact .refl s p

theorem powersUp_startPowerUps (s : State) (p : Nat) : PowersUp s (s.startPowerUps p) p :=
  .foldl (fun t b => powersUp_startPowerUp t p b) _ s

/-- A begun power-up leaves the requests. -/
theorem puReq_startPowerUp (s : State) (p b k : Nat) : (bankAt (startPowerUp p s b) p k).puReq = (bankAt s p k).puReq := by
  unfold startPowerUp
  split
  · rw [bankAt_modBank]
    split
    next hk => rw [hk]
    · rfl
  · rfl

theorem puReq_startPowerUps (s : State) (p k : Nat) : (bankAt (s.startPowerUps p) p k).puReq = (bankAt s p k).puReq := by
  rw [startPowerUps_eq]
  generalize List.range 16 = bs
  induction bs generalizing s with
  | nil => rfl
  | cons b bs ih => exact (ih (startPowerUp p s b)).trans (puReq_startPowerUp s p b k)

theorem powersUp_requestBank (s : State) (p b : Nat) : PowersUp s (s.requestBank p b) p := by
  refine powersUp_modBank fun x => ?_
  split
  · rfl
  · rfl

theorem powersUp_requestUp (s : State) (p : Nat) (bs : List Nat) : PowersUp s (s.requestUp p bs) p :=
  (PowersUp.foldl (fun t b => powersUp_requestBank t p b) bs s).trans (powersUp_startPowerUps _ p)

/-! Banks that power up at a time (R114). -/

theorem poweringUp_eq (s : State) (p : Nat) :
    (s.core p).poweringUp = ((List.range 16).filter fun b => (bankAt s p b).puDoneBy.isSome).length := rfl

theorem poweringUp_modBank_le (s : State) (p b : Nat) (f : Bank → Bank) :
    ((s.modBank p b f).core p).poweringUp ≤ (s.core p).poweringUp + 1 := by
  rw [poweringUp_eq, poweringUp_eq, ← List.length_cons (a := b)]
  refine ((List.nodup_range.filter _).subperm fun k hk => ?_).length_le
  rw [List.mem_filter, bankAt_modBank] at hk
  obtain ⟨hlt, hup⟩ := hk
  by_cases hkb : k = b
  · exact hkb ▸ List.mem_cons_self
  · rw [if_neg hkb] at hup
    exact List.mem_cons_of_mem _ (List.mem_filter.2 ⟨hlt, hup⟩)

theorem poweringUp_requestBank (s : State) (p b : Nat) : ((s.requestBank p b).core p).poweringUp = (s.core p).poweringUp := by
  have h (k : Nat) : (bankAt (s.requestBank p b) p k).puDoneBy = (bankAt s p k).puDoneBy := by
    rw [State.requestBank, bankAt_modBank]
    split
    next hk =>
      rw [hk]
      split
      · rfl
      · rfl
    · rfl
  simp only [poweringUp_eq, h]

theorem poweringUp_requestBanks (s : State) (p : Nat) (bs : List Nat) :
    ((bs.foldl (State.requestBank p) s).core p).poweringUp = (s.core p).poweringUp := by
  induction bs generalizing s with
  | nil => rfl
  | cons b bs ih => exact (ih (s.requestBank p b)).trans (poweringUp_requestBank s p b)

theorem poweringUp_startPowerUp_le {s : State} {p : Nat} (b : Nat) (h : (s.core p).poweringUp ≤ 4) :
    ((startPowerUp p s b).core p).poweringUp ≤ 4 := by
  unfold startPowerUp
  split
  next hb => exact (poweringUp_modBank_le s p b _).trans hb.2.2.2
  · exact h

theorem poweringUp_startPowerUps_le {s : State} {p : Nat} (h : (s.core p).poweringUp ≤ 4) :
    ((s.startPowerUps p).core p).poweringUp ≤ 4 := by
  rw [startPowerUps_eq]
  generalize List.range 16 = bs
  induction bs generalizing s with
  | nil => exact h
  | cons b bs ih => exact ih (poweringUp_startPowerUp_le b h)

theorem poweringUp_requestUp_le {s : State} {p : Nat} (bs : List Nat) (h : (s.core p).poweringUp ≤ 4) :
    ((s.requestUp p bs).core p).poweringUp ≤ 4 :=
  poweringUp_startPowerUps_le ((poweringUp_requestBanks s p bs).le.trans h)

/-- The one bank that waits for its turn begins. -/
theorem foldl_startPowerUp_of_one {s : State} {p b : Nat} {bs : List Nat} (hbs : bs.Nodup) (hb : b ∈ bs)
    (hidle : ∀ k ∈ bs, k ≠ b → (bankAt s p k).puReq = false) (hreq : (bankAt s p b).puReq = true) (hoff : (bankAt s p b).on = false)
    (hdone : (bankAt s p b).puDoneBy = none) (hroom : (s.core p).poweringUp < 4) :
    bs.foldl (startPowerUp p) s = s.modBank p b (fun x => { x with puDoneBy := some (s.now + 2 * Config.cycUs) }) := by
  have hskip {t : State} {k : Nat} (h : (bankAt t p k).puReq = false) : startPowerUp p t k = t :=
    if_neg fun hturn => Bool.false_ne_true (h.symm.trans hturn.1)
  refine foldl_of_one hbs hb (if_pos ⟨hreq, by rw [hoff]; rfl, by rw [hdone]; rfl, hroom⟩) (fun k hk hne => hskip (hidle k hk hne)) ?_
  intro k hk hne
  refine hskip ?_
  rw [bankAt_modBank, if_neg hne]
  exact hidle k hk hne

theorem bitsOf_one (b : Fin 16) : bitsOf 16 (BitVec.ofNat 16 (2 ^ b.val)).toNat = [b.val] := by
  revert b
  decide

/-- The one request of a core whose fewer than four banks power up is served at once, in 2 µs (R114). -/
theorem requestUp_one {s : State} {p : Nat} {b : Fin 16} (hroom : (s.core p).poweringUp < 4)
    (hidle : ∀ k, k < 16 → (bankAt s p k).puReq = false) (hoff : (bankAt s p b.val).on = false)
    (hdone : (bankAt s p b.val).puDoneBy = none) :
    (bankAt (s.requestUp p [b.val]) p b.val).puDoneBy = some (s.now + 2 * Config.cycUs) := by
  have hask (k : Nat) : bankAt (s.requestBank p b.val) p k =
      if k = b.val then { bankAt s p b.val with puReq := true } else bankAt s p k := by
    rw [State.requestBank, bankAt_modBank]
    simp only [hoff, Bool.false_eq_true, false_and, if_false]
  have hb := hask b.val
  rw [if_pos rfl] at hb
  have hstart := foldl_startPowerUp_of_one (s := s.requestBank p b.val) (p := p) (b := b.val) List.nodup_range (List.mem_range.2 b.isLt)
    (fun k hk hne => by rw [hask, if_neg hne]; exact hidle k (List.mem_range.1 hk)) (by rw [hb]) (by rw [hb]; exact hoff)
    (by rw [hb]; exact hdone)
    ((poweringUp_requestBank s p b.val).trans_lt hroom)
  rw [State.requestUp_eq, startPowerUps_eq, List.foldl_cons, List.foldl_nil, hstart, bankAt_modBank_same]
  exact congrArg (fun n => some (n + _)) (onlyBanks_modBank s p b.val _).now

/-! The end of a power-down, and of a power-up (R113, R114). -/

/-- The panel without the bytes of bank `b`. -/
def withoutBank (s : State) (p b : Nat) : State :=
  s.modSpad p (fun sp => { sp with
    bytes := SMap.drop (fun k => bankOf k == b) sp.bytes
    ue := SMap.drop (fun k => bankOf k == b) sp.ue })

theorem spad_withoutBank (s : State) (p b : Nat) : (withoutBank s p b).spad p = { s.spad p with
    bytes := SMap.drop (fun k => bankOf k == b) (s.spad p).bytes
    ue := SMap.drop (fun k => bankOf k == b) (s.spad p).ue } := s.spad_modSpad p _

theorem sbyte_withoutBank (s : State) (p b o : Nat) : sbyte (withoutBank s p b) p o = if o / 0x10000 = b then 0 else sbyte s p o := by
  rw [sbyte, spad_withoutBank, SMap.get_drop]
  simp only [bankOf, beq_iff_eq]
  rfl

theorem bankAt_withoutBank (s : State) (p b k : Nat) : bankAt (withoutBank s p b) p k = bankAt s p k := by
  rw [bankAt, spad_withoutBank]
  rfl

theorem coreOnly_withoutBank (s : State) (p b : Nat) : CoreOnly s (withoutBank s p b) p := coreOnly_modCore s p _

theorem OnlyBanks.sbyte {s t : State} {p : Nat} (h : OnlyBanks s t p) (o : Nat) : sbyte t p o = sbyte s p o := by
  rw [Claims.sbyte, h.banks.bytes_wins.1, Claims.sbyte]

/-- A bank after its power went, or came: its bytes are lost, and other banks may begin to power up. -/
theorem bankChanged_spec (s : State) (p b : Nat) (f : Bank → Bank) :
    PowersUp ((withoutBank s p b).modBank p b f) (((withoutBank s p b).modBank p b f).startPowerUps p) p
      ∧ bankAt ((withoutBank s p b).modBank p b f) p b = f (bankAt s p b)
      ∧ CoreOnly s (((withoutBank s p b).modBank p b f).startPowerUps p) p
      ∧ ∀ o, sbyte (((withoutBank s p b).modBank p b f).startPowerUps p) p o = if o / 0x10000 = b then 0 else sbyte s p o := by
  have hup := powersUp_startPowerUps ((withoutBank s p b).modBank p b f) p
  have hmod := onlyBanks_modBank (withoutBank s p b) p b f
  refine ⟨hup, ?_, coreOnly_trans (coreOnly_withoutBank s p b) (coreOnly_trans hmod.core hup.only.core), fun o => ?_⟩
  · rw [bankAt_modBank_same, bankAt_withoutBank]
  · rw [hup.only.sbyte, hmod.sbyte, sbyte_withoutBank]

/-- A slot of core `p` may go on, and the scratchpad stays. -/
theorem tryLoad_spec (s : State) (p i : Nat) : CoreOnly s (s.tryLoad p i) p ∧ (s.tryLoad p i).spad p = s.spad p := by
  unfold State.tryLoad
  dsimp only
  split
  · split
    · exact ⟨coreOnly_modCore s p _, s.spad_modSlot p i _⟩
    · exact ⟨(OnlyBanks.refl s p).core, rfl⟩
  · exact ⟨(OnlyBanks.refl s p).core, rfl⟩

theorem tryLoads_spec (s : State) (p : Nat) (l : List Nat) :
    CoreOnly s (l.foldl (fun s i => s.tryLoad p i) s) p ∧ (l.foldl (fun s i => s.tryLoad p i) s).spad p = s.spad p := by
  induction l generalizing s with
  | nil => exact ⟨(OnlyBanks.refl s p).core, rfl⟩
  | cons i l ih =>
    obtain ⟨hcore, hspad⟩ := tryLoad_spec s p i
    obtain ⟨kcore, kspad⟩ := ih (s.tryLoad p i)
    exact ⟨coreOnly_trans hcore kcore, kspad.trans hspad⟩

/-! An event of a core (R224, R226). -/

theorem noticeOf_raiseCore (s : State) (p slot : Nat) (sev : Severity) (code : Nat) (run : Option (Nat × Nat)) (data : Nat) (ahead : Bool) :
    NoticeOf s (s.raiseCore p slot sev code run data ahead) p code := by
  rw [NoticeOf, State.core_raiseCore]
  by_cases h : ∀ m ∈ (s.core p).node.notices, m.kind ≠ 3
  · exact ⟨_, mem_addNotice_of_absent h, rfl, fun _ => ⟨_, rfl, rfl⟩⟩
  · push Not at h
    obtain ⟨m, hm, hk⟩ := exists_mem_addNotice_of_kind _ h
    exact ⟨m, hm, hk, fun hno => absurd h (by push Not; exact hno)⟩

theorem raiseCore_spec (s : State) (p slot : Nat) (sev : Severity) (code : Nat) (run : Option (Nat × Nat)) (data : Nat) (ahead : Bool) :
    CoreOnly s (s.raiseCore p slot sev code run data ahead) p
      ∧ { (s.raiseCore p slot sev code run data ahead).core p with node := (s.core p).node } = s.core p := by
  refine ⟨coreOnly_modCore s p _, ?_⟩
  rw [State.core_raiseCore]

/-! The commands of bank power (R112-R115). -/

section
variable {s : State} {c : CoreIx}

theorem pdReq_spec (banks : BitVec 16) : ∃ t, exec (.pdReq c banks) s = .next t ∧ CoreOnly s t c.val ∧ BanksOnly s t c.val
    ∧ ∀ k, k < 16 → bankAt t c.val k =
        if banks.getLsbD k = true ∧ (bankAt s c.val k).on = true ∧ (bankAt s c.val k).pdSince = none
            ∧ (bankAt s c.val k).pdOffAt = none
        then { bankAt s c.val k with pdSince := some s.now } else bankAt s c.val k := by
  have h := onlyBanks_requestDown s c.val (bitsOf 16 banks.toNat)
  refine ⟨_, rfl, h.core, h.banks, fun k hk => ?_⟩
  have hmem : k ∈ bitsOf 16 banks.toNat ↔ banks.getLsbD k = true := by rw [mem_bitsOf, ← BitVec.testBit_toNat]; exact and_iff_right hk
  rw [bankAt_requestDown, downRequested]
  simp only [hmem, Option.isNone_iff_eq_none, ← ite_and]

theorem puReq_spec (banks : BitVec 16) (b : Fin 16) : ∃ t, exec (.puReq c banks) s = .next t ∧ CoreOnly s t c.val ∧ BanksOnly s t c.val
    ∧ (∀ k, k < 16 → banks.getLsbD k = true → (bankAt s c.val k).on = false → (bankAt t c.val k).puReq = true)
    ∧ (∀ k, k < 16 → { bankAt t c.val k with
          puReq := (bankAt s c.val k).puReq, puDoneBy := (bankAt s c.val k).puDoneBy } = bankAt s c.val k)
    ∧ ((s.core c.val).poweringUp ≤ 4 → (t.core c.val).poweringUp ≤ 4)
    ∧ ((s.core c.val).poweringUp < 4 → banks = BitVec.ofNat 16 (2 ^ b.val) →
        (∀ k, k < 16 → (bankAt s c.val k).puReq = false) → (bankAt s c.val b.val).on = false →
        (bankAt s c.val b.val).puDoneBy = none →
          (bankAt t c.val b.val).puDoneBy = some (s.now + 2 * Config.cycUs)) := by
  have h := powersUp_requestUp s c.val (bitsOf 16 banks.toNat)
  refine ⟨_, rfl, h.only.core, h.only.banks, fun k hk hbit hoff => ?_, fun k _ => h.bank k, poweringUp_requestUp_le _, ?_⟩
  · exact State.requestUp_puReq s (mem_bitsOf.2 ⟨hk, (BitVec.testBit_toNat banks).trans hbit⟩) hoff
  · rintro hroom rfl hidle hoff hdone
    rw [bitsOf_one]
    exact requestUp_one hroom hidle hoff hdone

/-- AUTO_PD applies to bank `b`: it is on, uncovered and clear in KEEP (R113). -/
def AutoDown (s : State) (p b : Nat) : Prop :=
  (bankAt s p b).on = true ∧ (s.reg (unitCore p) rSPAD_CTRL).testBit 1 = true
    ∧ (s.reg (unitCore p) rSPAD_CTRL).testBit (16 + b) = false ∧ (s.core p).covered b = false

theorem autoPowerDown_requests {b : Fin 16} (h : AutoDown s c.val b.val) (hs : (bankAt s c.val b.val).pdSince = none)
    (ho : (bankAt s c.val b.val).pdOffAt = none) :
    ∃ t, exec (.autoPowerDown c b) s = .next t ∧ CoreAndTime s t c.val ∧ BanksOnly s t c.val
      ∧ t.now = Nat.max s.now ((bankAt s c.val b.val).uncoveredAt + 100 * Config.cycUs)
      ∧ bankAt t c.val b.val = { bankAt s c.val b.val with pdSince := some t.now } := by
  obtain ⟨hon, hauto, hkeep, hcov⟩ := h
  have hexec : exec (.autoPowerDown c b) s =
      .next ((s.advanceTo ((bankAt s c.val b.val).uncoveredAt + 100 * Config.cycUs)).requestDown c.val [b.val]) := by
    rw [exec_autoPowerDown, execAutoPowerDown]
    exact if_neg (by simp [bit, hauto, hkeep, hcov, show ((s.spad c.val).bank b.val).on = true from hon,
      show ((s.spad c.val).bank b.val).pdSince = none from hs, show ((s.spad c.val).bank b.val).pdOffAt = none from ho])
  have hdown := onlyBanks_requestDown (s.advanceTo ((bankAt s c.val b.val).uncoveredAt + 100 * Config.cycUs)) c.val [b.val]
  obtain ⟨hcore, hbanks, hnow⟩ := hdown.ofLater
  refine ⟨_, hexec, hcore, hbanks, hnow, ?_⟩
  rw [bankAt_requestDown, if_pos List.mem_cons_self, hdown.now, downRequested]
  exact if_pos ⟨hon, Option.isNone_iff_eq_none.2 hs, Option.isNone_iff_eq_none.2 ho⟩

/-- Nothing happens at a bank with a request, at a covered one, or at one that is off. -/
theorem autoPowerDown_none {b : Fin 16} (h : (bankAt s c.val b.val).pdSince ≠ none ∨ (bankAt s c.val b.val).pdOffAt ≠ none
      ∨ (s.core c.val).covered b.val = true ∨ (bankAt s c.val b.val).on = false) :
    exec (.autoPowerDown c b) s = .next s := by
  rw [exec_autoPowerDown, execAutoPowerDown]
  refine if_pos ?_
  change (_ || _ || _ || !(bankAt s c.val b.val).on || (bankAt s c.val b.val).pdSince.isSome
    || (bankAt s c.val b.val).pdOffAt.isSome) = true
  simp only [Bool.or_eq_true, Bool.not_eq_true', Option.isSome_iff_ne_none]
  tauto

/-- A waiting request is granted once the bank is uncovered, in a later cycle (R113, R115). -/
theorem bankPowerDown_stops {b : Fin 16} {k : Nat} (hon : (bankAt s c.val b.val).on = true)
    (hs : (bankAt s c.val b.val).pdSince = some k) (ho : (bankAt s c.val b.val).pdOffAt = none) :
    (k < s.now → (s.core c.val).covered b.val = false → ∃ t, exec (.bankPowerDown c b) s = .next t ∧ CoreOnly s t c.val
        ∧ BanksOnly s t c.val
        ∧ bankAt t c.val b.val = { bankAt s c.val b.val with pdSince := none, pdOffAt := some (s.now + 64) })
      ∧ ((s.now ≤ k ∨ (s.core c.val).covered b.val = true) → exec (.bankPowerDown c b) s = .next s) := by
  have hexec : exec (.bankPowerDown c b) s = if k < s.now ∧ (s.core c.val).covered b.val = false then
      .next (s.modBank c.val b.val (fun x => { x with pdSince := none, pdOffAt := some (s.now + 64) })) else .next s := by
    rw [exec_bankPowerDown, execBankPowerDown]
    simp only [show ((s.spad c.val).bank b.val).on = true from hon, show ((s.spad c.val).bank b.val).pdSince = some k from hs,
      show ((s.spad c.val).bank b.val).pdOffAt = none from ho, Option.any_some, Bool.true_and, Bool.and_eq_true, decide_eq_true_eq,
      Bool.not_eq_true']
  have hmod := onlyBanks_modBank s c.val b.val (fun x => { x with pdSince := none, pdOffAt := some (s.now + 64) })
  refine ⟨fun hk hcov => ⟨_, hexec.trans (if_pos ⟨hk, hcov⟩), hmod.core, hmod.banks, bankAt_modBank_same ..⟩, fun h => ?_⟩
  refine hexec.trans (if_neg ?_)
  rintro ⟨hk, hcov⟩
  rcases h with hle | hyes
  · exact absurd hk (Nat.not_lt.2 hle)
  · exact Bool.false_ne_true (hcov.symm.trans hyes)

theorem execBankPowerDown_off {b : Fin 16} {k : Nat} (ho : ((s.spad c.val).bank b.val).pdOffAt = some k) :
    execBankPowerDown c b s = .next (((withoutBank (s.advanceTo k) c.val b.val).modBank c.val b.val
      (fun x => { x with on := false, pdOffAt := none, writeBacks := [], p6wait := 0 })).startPowerUps c.val) := by
  unfold execBankPowerDown withoutBank
  dsimp only
  rw [ho]

/-- 64 cycles after the grant the bank is off, and its bytes are lost (R113). -/
theorem bankPowerDown_off {b : Fin 16} {k : Nat} (ho : (bankAt s c.val b.val).pdOffAt = some k) :
    ∃ t, exec (.bankPowerDown c b) s = .next t ∧ CoreAndTime s t c.val ∧ t.now = Nat.max s.now k
      ∧ (bankAt t c.val b.val).on = false ∧ (bankAt t c.val b.val).pdOffAt = none
      ∧ (∀ o, o / 0x10000 ≠ b.val → sbyte t c.val o = sbyte s c.val o) := by
  refine ⟨_, execBankPowerDown_off ho, ?_⟩
  obtain ⟨hup, hbank, hcore, hbytes⟩ := bankChanged_spec (s.advanceTo k) c.val b.val
    (fun x => { x with on := false, pdOffAt := none, writeBacks := [], p6wait := 0 })
  generalize ((withoutBank (s.advanceTo k) c.val b.val).modBank c.val b.val
    (fun x => { x with on := false, pdOffAt := none, writeBacks := [], p6wait := 0 })) = u at hup hbank hcore hbytes ⊢
  obtain ⟨htime, hnow⟩ := coreAndTime_ofLater hcore
  have hoff := hup.on b.val
  have hdone := hup.pdOffAt b.val
  rw [hbank] at hoff hdone
  refine ⟨htime, hnow, hoff, hdone, fun o hne => ?_⟩
  rw [hbytes, if_neg hne]
  rfl

/-- A request that has waited 100 µs is cancelled, with PD_TIMEOUT (R113). -/
theorem powerDownTimeout_spec {b : Fin 16} {k : Nat} (hs : (bankAt s c.val b.val).pdSince = some k) :
    ∃ t, exec (.powerDownTimeout c b) s = .next t ∧ t.now = Nat.max s.now (k + 100 * Config.cycUs)
      ∧ bankAt t c.val b.val = { bankAt s c.val b.val with pdSince := none, pdTimeout := true }
      ∧ { t.core c.val with node := (s.core c.val).node
                            spad := { (t.spad c.val) with banks := (s.spad c.val).banks } } = s.core c.val
      ∧ NoticeOf s t c.val 0x13 ∧ (∀ q, q ≠ c.val → t.core q = s.core q) ∧ t.regs = s.regs ∧ t.events = s.events := by
  have hexec : exec (.powerDownTimeout c b) s = .next
      ((((s.advanceTo (k + 100 * Config.cycUs)).modBank c.val b.val (fun x => { x with pdSince := none, pdTimeout := true })).noteHw
        (unitCore c.val) rSPAD_BANK_STATUS (2 ^ (32 + b.val)) 0).raiseCore c.val 0 .info 0x13 none b.val false) := by
    rw [exec_powerDownTimeout, execPowerDownTimeout]
    simp only [show ((s.spad c.val).bank b.val).pdSince = some k from hs]
  have hmod := onlyBanks_modBank (s.advanceTo (k + 100 * Config.cycUs)) c.val b.val (fun x => { x with pdSince := none, pdTimeout := true })
  have hbank := bankAt_modBank_same (s.advanceTo (k + 100 * Config.cycUs)) c.val b.val
    (fun x => { x with pdSince := none, pdTimeout := true })
  refine ⟨_, hexec, ?_⟩
  generalize (s.advanceTo (k + 100 * Config.cycUs)).modBank c.val b.val
    (fun x => { x with pdSince := none, pdTimeout := true }) = u at hmod hbank
  obtain ⟨hothers, hrest⟩ := coreAndTime_ofLater hmod.core
  obtain ⟨hcore, hnode⟩ := raiseCore_spec (u.noteHw (unitCore c.val) rSPAD_BANK_STATUS (2 ^ (32 + b.val)) 0) c.val 0 .info 0x13
    none b.val false
  have hnotice := noticeOf_raiseCore (u.noteHw (unitCore c.val) rSPAD_BANK_STATUS (2 ^ (32 + b.val)) 0) c.val 0 .info 0x13
    none b.val false
  generalize (u.noteHw (unitCore c.val) rSPAD_BANK_STATUS (2 ^ (32 + b.val)) 0).raiseCore c.val 0 .info 0x13 none b.val false = t
    at hcore hnode hnotice
  have hnow := congrArg State.now hcore.2
  have hregs := congrArg State.regs hcore.2
  have hevents := congrArg State.events hcore.2
  have uregs := congrArg State.regs hothers.2
  have uevents := congrArg State.events hothers.2
  have hspad : t.spad c.val = u.spad c.val := by
    have e := congrArg Core.spad hnode
    exact e
  have unode : (u.core c.val).node = (s.core c.val).node := by
    have e := congrArg Core.node hmod.banks
    exact e
  refine ⟨Eq.trans hnow hrest, ?_, ?_, ?_, fun q hq => (hcore.1 q hq).trans (hothers.1 q hq), Eq.trans hregs uregs,
    Eq.trans hevents uevents⟩
  · rw [bankAt, hspad]
    exact hbank
  · have e := congrArg (fun x : Core => ({ x with
      node := (s.core c.val).node, spad := { x.spad with banks := (s.spad c.val).banks } } : Core)) hnode
    have k := congrArg (fun x : Core => ({ x with node := (s.core c.val).node } : Core)) hmod.banks
    exact Eq.trans e k
  · rw [NoticeOf, State.noteHw_core, unode] at hnotice
    exact hnotice

/-- A bank that comes on reads as zero (R114). -/
theorem bankPowerUpDone_spec {b : Fin 16} {k : Nat} (hd : (bankAt s c.val b.val).puDoneBy = some k) :
    ∃ t, exec (.bankPowerUpDone c b) s = .next t ∧ (bankAt t c.val b.val).on = true
      ∧ (bankAt t c.val b.val).puReq = false
      ∧ (∀ o, sbyte t c.val o = if o / 0x10000 = b.val then 0 else sbyte s c.val o)
      ∧ CoreOnly s t c.val := by
  obtain ⟨hup, hbank, hcore, hbytes⟩ := bankChanged_spec s c.val b.val
    (fun x => { x with on := true, puReq := false, puDoneBy := none, uncoveredAt := s.now })
  have hreq := puReq_startPowerUps ((withoutBank s c.val b.val).modBank c.val b.val
    (fun x => { x with on := true, puReq := false, puDoneBy := none, uncoveredAt := s.now })) c.val b.val
  have hon := hup.on b.val
  rw [hbank] at hreq hon
  obtain ⟨lcore, lspad⟩ := tryLoads_spec (((withoutBank s c.val b.val).modBank c.val b.val
    (fun x => { x with on := true, puReq := false, puDoneBy := none, uncoveredAt := s.now })).startPowerUps c.val) c.val (List.range 8)
  have hexec : exec (.bankPowerUpDone c b) s = .next ((List.range 8).foldl (fun s i => s.tryLoad c.val i)
      (((withoutBank s c.val b.val).modBank c.val b.val
        (fun x => { x with on := true, puReq := false, puDoneBy := none, uncoveredAt := s.now })).startPowerUps c.val)) := by
    rw [exec_bankPowerUpDone, execBankPowerUpDone]
    simp only [show ((s.spad c.val).bank b.val).puDoneBy = some k from hd]
    rfl
  refine ⟨_, hexec, ?_, ?_, fun o => ?_, coreOnly_trans hcore lcore⟩
  · rw [bankAt, lspad]
    exact hon
  · rw [bankAt, lspad]
    exact hreq
  · rw [sbyte, lspad]
    exact hbytes o

theorem bankPowerUpDone_none {b : Fin 16} (hd : (bankAt s c.val b.val).puDoneBy = none) : exec (.bankPowerUpDone c b) s = .next s := by
  rw [exec_bankPowerUpDone, execBankPowerUpDone]
  simp only [show ((s.spad c.val).bank b.val).puDoneBy = none from hd]

end

theorem bankPower : BankPower := by
  intro s c banks b
  refine ⟨pdReq_spec banks, puReq_spec banks b, fun h => ⟨autoPowerDown_requests h, fun hr => ?_⟩, fun h => ?_,
    fun k hon hs ho => bankPowerDown_stops hon hs ho, fun k => bankPowerDown_off, fun k => powerDownTimeout_spec,
    fun k => bankPowerUpDone_spec, bankPowerUpDone_none⟩
  · exact autoPowerDown_none (hr.imp_right .inl)
  · exact autoPowerDown_none (.inr (.inr h))

/-! The scrubber (R92, R94). -/

/-- The eight words of a line. -/
theorem wordsOf_line (m : Nat) : wordsOf (64 * m) 64 = (List.range 8).map fun j => 64 * m + 8 * j := by
  have hlen : (64 * m + 64 + 7) / 8 - 64 * m / 8 = 8 := by omega
  rw [wordsOf, hlen]
  exact List.map_congr_left fun j _ => by omega

theorem nodup_wordsOf_line (m : Nat) : (wordsOf (64 * m) 64).Nodup := by
  rw [wordsOf_line]
  exact List.nodup_range.map fun i j h => by simpa using h

/-- The word at `w` reads as uncorrectable, and the scrub counts it (R92, R94). -/
def scrubbedUe (s : State) (p w : Nat) : State :=
  ((s.modSpad p (fun sp => { sp with ue := SMap.set false sp.ue w true })).bump (unitCore p) rSPAD_ECC_UE 0 32 1).eccLast p w true true

theorem core_scrubbedUe (s : State) (p w q : Nat) :
    (scrubbedUe s p w).core q = (s.modSpad p (fun sp => { sp with ue := SMap.set false sp.ue w true })).core q := by
  rw [scrubbedUe, eccLast_core, State.bump_core]

theorem spad_scrubbedUe (s : State) (p w : Nat) :
    (scrubbedUe s p w).spad p = { s.spad p with ue := SMap.set false (s.spad p).ue w true } := by
  rw [State.spad, core_scrubbedUe]
  exact s.spad_modSpad p _

theorem isUe_scrubbedUe (s : State) (p w v : Nat) :
    ((scrubbedUe s p w).spad p).isUe v = if v = w then true else (s.spad p).isUe v := by
  rw [spad_scrubbedUe, Spad.isUe]
  dsimp only
  split
  next h => rw [h, SMap.get_set_same]
  next h => exact SMap.get_set_other false _ _ _ h

theorem fld_scrubbedUe (s : State) (p w : Nat) : (scrubbedUe s p w).fld (unitCore p) rSPAD_ECC_UE 0 32
    = Nat.min (2 ^ 32 - 1) (s.fld (unitCore p) rSPAD_ECC_UE 0 32 + 1) := by
  refine (State.fld_congr (State.reg_setReg_other _ _ (regKey_ne_of_off ?_ ?_ ?_)) _ _).trans (State.fld_bump_same _ _ _ _ _)
  all_goals decide

theorem bit_two_pow_byte (k : Fin 8) (j : Nat) : bit (BitVec.ofNat 8 (2 ^ k.val)).toNat j = decide (k.val = j) := by
  have hlt : 2 ^ k.val < 2 ^ 8 := Nat.pow_lt_pow_right (by decide) k.isLt
  rw [BitVec.toNat_ofNat, Nat.mod_eq_of_lt hlt, bit, Nat.testBit_two_pow]

/-- What a read does at one of its words (R92). -/
def eccWord (p o : Nat) (err : EccErr) (scrub : Bool) (s : State) (w : Nat) : State :=
  if bit err.double.toNat (w / 8 % 8) || (s.spad p).isUe w then
    ((s.modSpad p (fun sp => { sp with ue := SMap.set false sp.ue w true })).bump (unitCore p) rSPAD_ECC_UE 0 32 1).eccLast p w true scrub
  else if bit err.single.toNat (w / 8 % 8) then
    ((s.modBank p (bankOf o) (fun b => { b with writeBacks := insertAsc w b.writeBacks })).bump (unitCore p) rSPAD_ECC_CE 0 32 1).eccLast
      p w false scrub
  else s

theorem eccRead_eq (s : State) (p o n : Nat) (err : EccErr) (scrub : Bool) :
    s.eccRead p o n err scrub = (wordsOf o n).foldl (eccWord p o err scrub) s := rfl

theorem eccWord_double {s : State} {p o w : Nat} {err : EccErr} (h : bit err.double.toNat (w / 8 % 8) = true) :
    eccWord p o err true s w = scrubbedUe s p w := if_pos (by rw [h]; rfl)

theorem eccWord_clean {s : State} {p o w : Nat} {err : EccErr} {scrub : Bool} (hsingle : err.single = 0)
    (hdouble : bit err.double.toNat (w / 8 % 8) = false) (hue : (s.spad p).isUe w = false) : eccWord p o err scrub s w = s := by
  rw [eccWord, if_neg (by rw [hdouble, hue]; exact Bool.false_ne_true), if_neg (by rw [hsingle]; simp [bit])]

theorem mem_wordsOf_line {m w : Nat} : w ∈ wordsOf (64 * m) 64 ↔ ∃ j : Fin 8, w = 64 * m + 8 * j.val := by
  rw [wordsOf_line, List.mem_map]
  exact ⟨fun ⟨j, hj, hw⟩ => ⟨⟨j, List.mem_range.1 hj⟩, hw.symm⟩, fun ⟨j, hw⟩ => ⟨j.val, List.mem_range.2 j.isLt, hw.symm⟩⟩

/-- A scrub of a line whose one word shows a double-bit error (R92). -/
theorem eccRead_double {s : State} {p m : Nat} {err : EccErr} {k : Fin 8} (hclean : Clean (s.spad p) (64 * m) 64)
    (hsingle : err.single = 0) (hdouble : err.double = BitVec.ofNat 8 (2 ^ k.val)) :
    s.eccRead p (64 * m) 64 err true = scrubbedUe s p (64 * m + 8 * k.val) := by
  have hbit (j : Fin 8) : bit err.double.toNat ((64 * m + 8 * j.val) / 8 % 8) = decide (k.val = j.val) := by
    rw [hdouble, bit_two_pow_byte]
    congr 2
    omega
  have hue (j : Fin 8) : (s.spad p).isUe (64 * m + 8 * j.val) = false := hclean _ (by omega) (by omega) (by omega)
  have hother {x : Nat} (hx : x ∈ wordsOf (64 * m) 64) (hne : x ≠ 64 * m + 8 * k.val) :
      bit err.double.toNat (x / 8 % 8) = false ∧ (s.spad p).isUe x = false := by
    obtain ⟨j, rfl⟩ := mem_wordsOf_line.1 hx
    exact ⟨(hbit j).trans (decide_eq_false fun he => hne (by rw [he])), hue j⟩
  rw [eccRead_eq]
  refine foldl_of_one (nodup_wordsOf_line m) (mem_wordsOf_line.2 ⟨k, rfl⟩) (eccWord_double ((hbit k).trans (decide_eq_true rfl)))
    (fun x hx hne => ?_) fun x hx hne => ?_
  · obtain ⟨hdb, hclean⟩ := hother hx hne
    exact eccWord_clean hsingle hdb hclean
  · obtain ⟨hdb, hclean⟩ := hother hx hne
    exact eccWord_clean hsingle hdb (by rw [isUe_scrubbedUe, if_neg hne, hclean])

/-- The bank after it took the read of its next line. -/
def scrubMoves (s : State) (p b : Nat) : State :=
  (s.takeBank p b).modBank p b (fun x => { x with
    scrubLine := (x.scrubLine + 1) % 1024, scrubDue := s.now + (if s.scrubbing (p / 50) then 1024 else 8192) })

theorem onlyBanks_scrubMoves (s : State) (p b : Nat) : OnlyBanks s (scrubMoves s p b) p :=
  (onlyBanks_modBank s p b _).trans (onlyBanks_modBank (s.takeBank p b) p b _)

theorem bankAt_scrubMoves (s : State) (p b : Nat) : bankAt (scrubMoves s p b) p b = { bankAt s p b with
    scrubLine := ((bankAt s p b).scrubLine + 1) % 1024
    scrubDue := s.now + (if s.scrubbing (p / 50) then 1024 else 8192)
    freeAt := s.now + 1 } := by
  rw [scrubMoves, bankAt_modBank_same, State.takeBank, bankAt_modBank_same]

/-- The events of the uncorrectable words of the line at `64 * m` (R94). -/
def raiseScrubUes (s : State) (p m : Nat) : State :=
  ((wordsOf (64 * m) 64).filter (s.spad p).isUe).foldl (fun s w => s.raiseCore p 0 .degraded 0x12 none w false) s

theorem scrubLine_takeBank {s : State} {p b m : Nat} (err : EccErr) (hline : b * 0x10000 + (bankAt s p b).scrubLine * 64 = 64 * m) :
    (s.takeBank p b).scrubLine p b err = raiseScrubUes ((scrubMoves s p b).eccRead p (64 * m) 64 err true) p m := by
  have hnext : (((s.takeBank p b).spad p).bank b).scrubLine = (bankAt s p b).scrubLine := by
    have e := congrArg Bank.scrubLine (bankAt_modBank_same s p b (fun x => { x with freeAt := s.now + 1 }))
    exact e
  unfold State.scrubLine
  dsimp only
  rw [hnext, hline]
  rfl

theorem OnlyBanks.isUe {s t : State} {p : Nat} (h : OnlyBanks s t p) (w : Nat) : (t.spad p).isUe w = (s.spad p).isUe w := by
  have e := congrArg (fun x : Core => x.spad.isUe w) h.banks
  exact e

theorem OnlyBanks.anyUe {s t : State} {p : Nat} (h : OnlyBanks s t p) (o n : Nat) : (t.spad p).anyUe o n = (s.spad p).anyUe o n := by
  have e := congrArg (fun x : Core => x.spad.anyUe o n) h.banks
  exact e

/-- One word of the line is uncorrectable, and raises the one event. -/
theorem raiseScrubUes_scrubbedUe {s : State} {p m : Nat} {k : Fin 8} (hclean : Clean (s.spad p) (64 * m) 64) :
    raiseScrubUes (scrubbedUe s p (64 * m + 8 * k.val)) p m
      = (scrubbedUe s p (64 * m + 8 * k.val)).raiseCore p 0 .degraded 0x12 none (64 * m + 8 * k.val) false := by
  have hbad : (wordsOf (64 * m) 64).filter ((scrubbedUe s p (64 * m + 8 * k.val)).spad p).isUe = [64 * m + 8 * k.val] := by
    have hiff : ∀ x ∈ wordsOf (64 * m) 64, ((scrubbedUe s p (64 * m + 8 * k.val)).spad p).isUe x = (x == 64 * m + 8 * k.val) := by
      intro x hx
      obtain ⟨hlo, hhi, hmod⟩ := mem_wordsOf hx
      rw [isUe_scrubbedUe]
      split
      next he => rw [he, beq_self_eq_true]
      next hne => rw [hclean x hlo hhi hmod, beq_eq_false_iff_ne.2 hne]
    rw [List.filter_congr hiff, List.filter_beq, List.count_eq_one_of_mem (nodup_wordsOf_line m) (mem_wordsOf_line.2 ⟨k, rfl⟩)]
    rfl
  rw [raiseScrubUes, hbad, List.foldl_cons, List.foldl_nil]

section
variable {s : State} {c : CoreIx} {b : Fin 16} {err : EccErr}

/-- The cycle in which the scrub of a bank may read. -/
def scrubCycle (s : State) (p b : Nat) : Nat := Nat.max (bankAt s p b).scrubDue (bankAt s p b).freeAt

theorem scrubRead_eq (hserves : BankServes s c.val b.val) (hon : (s.reg (unitCore c.val) rSPAD_CTRL).testBit 0 = true) :
    exec (.scrubRead c b err) s = match (s.advanceTo (scrubCycle s c.val b.val)).grantAt c.val b.val err with
      | none => .next (((s.advanceTo (scrubCycle s c.val b.val)).takeBank c.val b.val).scrubLine c.val b.val err)
      | some _ => .next s := by
  obtain ⟨hpower, hup⟩ := hserves
  rw [exec_scrubRead, execScrubRead]
  exact if_neg (by simp [Bank.grants, hpower, hup, State.scrubOn, bit, hon])

/-- Another access at the bank comes first. -/
theorem scrubRead_waits (hserves : BankServes s c.val b.val) (hon : (s.reg (unitCore c.val) rSPAD_CTRL).testBit 0 = true)
    (h : (s.advanceTo (scrubCycle s c.val b.val)).grantAt c.val b.val err ≠ none) : exec (.scrubRead c b err) s = .next s := by
  rw [scrubRead_eq hserves hon]
  obtain ⟨u, hu⟩ := Option.ne_none_iff_exists'.1 h
  rw [hu]

theorem scrubRead_reads {m : Nat} (hserves : BankServes s c.val b.val) (hon : (s.reg (unitCore c.val) rSPAD_CTRL).testBit 0 = true)
    (h : (s.advanceTo (scrubCycle s c.val b.val)).grantAt c.val b.val err = none)
    (hline : b.val * 0x10000 + (bankAt s c.val b.val).scrubLine * 64 = 64 * m) :
    exec (.scrubRead c b err) s = .next (raiseScrubUes
      ((scrubMoves (s.advanceTo (scrubCycle s c.val b.val)) c.val b.val).eccRead c.val (64 * m) 64 err true) c.val m) := by
  have hscrub := scrubLine_takeBank (s := s.advanceTo (scrubCycle s c.val b.val)) err hline
  rw [scrubRead_eq hserves hon, h, ← hscrub]

/-- A line without an error changes nothing but its bank. -/
theorem scrubRead_clean {m : Nat} (hserves : BankServes s c.val b.val) (hon : (s.reg (unitCore c.val) rSPAD_CTRL).testBit 0 = true)
    (h : (s.advanceTo (scrubCycle s c.val b.val)).grantAt c.val b.val err = none)
    (hline : b.val * 0x10000 + (bankAt s c.val b.val).scrubLine * 64 = 64 * m) (hclean : Clean (s.spad c.val) (64 * m) 64)
    (herr : NoError err) :
    exec (.scrubRead c b err) s = .next (scrubMoves (s.advanceTo (scrubCycle s c.val b.val)) c.val b.val) := by
  have hmoves := onlyBanks_scrubMoves (s.advanceTo (scrubCycle s c.val b.val)) c.val b.val
  have hexec := scrubRead_reads hserves hon h hline
  generalize scrubMoves (s.advanceTo (scrubCycle s c.val b.val)) c.val b.val = u at hmoves hexec ⊢
  obtain rfl := noError_eq herr
  have hue : (u.spad c.val).anyUe (64 * m) 64 = false := by
    rw [hmoves.anyUe]
    exact anyUe_of_clean hclean
  have hbad : (wordsOf (64 * m) 64).filter (u.spad c.val).isUe = [] := List.filter_eq_nil_iff.2 (List.any_eq_false.1 hue)
  rw [hexec, State.eccRead_of_clean u true hue, raiseScrubUes, hbad, List.foldl_nil]

/-- A double-bit error at one word of the line. -/
theorem scrubRead_double {m : Nat} {k : Fin 8} (hserves : BankServes s c.val b.val)
    (hon : (s.reg (unitCore c.val) rSPAD_CTRL).testBit 0 = true)
    (h : (s.advanceTo (scrubCycle s c.val b.val)).grantAt c.val b.val err = none)
    (hline : b.val * 0x10000 + (bankAt s c.val b.val).scrubLine * 64 = 64 * m) (hclean : Clean (s.spad c.val) (64 * m) 64)
    (hsingle : err.single = 0) (hdouble : err.double = BitVec.ofNat 8 (2 ^ k.val)) :
    ∃ u, OnlyBanks (s.advanceTo (scrubCycle s c.val b.val)) u c.val ∧ exec (.scrubRead c b err) s = .next
      ((scrubbedUe u c.val (64 * m + 8 * k.val)).raiseCore c.val 0 .degraded 0x12 none (64 * m + 8 * k.val) false) := by
  have hmoves := onlyBanks_scrubMoves (s.advanceTo (scrubCycle s c.val b.val)) c.val b.val
  have hexec := scrubRead_reads hserves hon h hline
  generalize scrubMoves (s.advanceTo (scrubCycle s c.val b.val)) c.val b.val = u at hmoves hexec ⊢
  have hu : Clean (u.spad c.val) (64 * m) 64 := by
    rw [clean_iff, hmoves.anyUe]
    exact anyUe_of_clean hclean
  refine ⟨u, hmoves, ?_⟩
  rw [hexec, eccRead_double hu hsingle hdouble, raiseScrubUes_scrubbedUe hu]

end

theorem scrubReads : ScrubReads := by
  intro s c b err line hserves hon hline hclean due hdue
  subst hdue
  have hm : b.val * 0x10000 + (bankAt s c.val b.val).scrubLine * 64 = 64 * (b.val * 1024 + (bankAt s c.val b.val).scrubLine) := by omega
  rw [hm] at hline
  refine ⟨scrubRead_waits hserves hon, fun herr hnone => ?_, fun k hk hsingle hdouble hnone => ?_⟩
  · have hexec := scrubRead_clean hserves hon hnone hm (hline ▸ hclean) herr
    have hmoves := onlyBanks_scrubMoves (s.advanceTo (scrubCycle s c.val b.val)) c.val b.val
    have hbank := bankAt_scrubMoves (s.advanceTo (scrubCycle s c.val b.val)) c.val b.val
    obtain ⟨htime, hbanks, hnow⟩ := hmoves.ofLater
    refine ⟨_, hexec, htime, hbanks, hnow, hbank.trans ?_⟩
    rw [hnow]
    rfl
  · obtain ⟨u, hmoves, hexec⟩ := scrubRead_double (k := ⟨k, hk⟩) hserves hon hnone hm (hline ▸ hclean) hsingle hdouble
    rw [← hline] at hexec
    obtain ⟨hcore, hnode⟩ := raiseCore_spec (scrubbedUe u c.val (line + 8 * k)) c.val 0 .degraded 0x12 none (line + 8 * k) false
    have hnotice := noticeOf_raiseCore (scrubbedUe u c.val (line + 8 * k)) c.val 0 .degraded 0x12 none (line + 8 * k) false
    refine ⟨_, hexec, ?_⟩
    generalize (scrubbedUe u c.val (line + 8 * k)).raiseCore c.val 0 .degraded 0x12 none (line + 8 * k) false = t at hcore hnode hnotice
    have hspad : t.spad c.val = (scrubbedUe u c.val (line + 8 * k)).spad c.val := by
      have e := congrArg Core.spad hnode
      exact e
    have unode : (u.core c.val).node = (s.core c.val).node := by
      have e := congrArg Core.node hmoves.banks
      exact e
    refine ⟨fun w => ?_, ?_, fun o => ?_, fun q hq => ?_, ?_⟩
    · rw [hspad, isUe_scrubbedUe, hmoves.isUe]
      rfl
    · rw [fld_of_coreOnly hcore, fld_scrubbedUe, fld_of_coreOnly hmoves.core]
      rfl
    · rw [sbyte, hspad, spad_scrubbedUe]
      exact hmoves.sbyte o
    · rw [hcore.1 q hq, core_scrubbedUe, State.modSpad, State.core_modCore_other _ _ hq]
      exact hmoves.core.1 q hq
    · have hquiet : ((scrubbedUe u c.val (line + 8 * k)).core c.val).node = (s.core c.val).node := by
        rw [core_scrubbedUe, State.modSpad, State.core_modCore_same]
        exact unode
      rw [NoticeOf, hquiet] at hnotice
      exact hnotice

end Sys2Proof.Claims

namespace Sys2Proof.Claims

/-- Settles O17: the requests of bank power change the banks alone, and a scrub reads the eight words of its line one by one. -/
theorem banksAndScrub : Obligations.BanksAndScrub := ⟨bankPower, scrubReads⟩

end Sys2Proof.Claims

/-!
SUPPORT. Remote accesses and credits (R95-R106): what an answer leaves, and what a grant and its end do to a scratchpad.
-/
namespace Sys2Proof.Machine

section
variable {s : State} {id : Nat} {a : Access}

/-! Answers. -/

/-- An access on its way back to its requester. -/
def Access.answered (a : Access) (st : Status) (data : List Byte) : Access := { a with stage := .replying, status := st, data := data }

theorem State.access_reply (st : Status) (data : List Byte) (h : s.access id = some a) :
    (s.reply id st data).access id = some (a.answered st data) := by
  have hset := s.access_setAccess_same id (some (a.answered st data))
  have hmid (x : State) (valiant : Bool) (key a b : Nat) :
      (if valiant then x.drawMid key a b else (none, x)).2.mesh.accesses = x.mesh.accesses := by
    split
    · exact (x.drawMid_rest key a b).1
    · rfl
  have hpacket (x : State) (k : Packet) : (x.newPacket k).mesh.accesses = x.mesh.accesses := rfl
  unfold State.reply
  rw [h]
  dsimp only
  split
  · exact hset
  · exact (State.access_of_accesses ((hpacket _ _).trans (hmid _ _ _ _ _)) id).trans hset

theorem State.access_answerCredit (ans : CreditAnswer) (h : s.access id = some a) :
    (s.answerCredit id ans).access id = some { a with answer := some ans, stage := .replying } := by
  rw [State.access] at h
  rw [State.access, State.answerCredit, h]
  dsimp only
  exact SMap.get_set_same (none : Option Access) _ _ _

theorem State.MeshOnly.spad {t : State} (h : s.MeshOnly t) (p : Nat) : t.spad p = s.spad p :=
  congrArg Core.spad (Claims.core_of_cores h.cores p)

theorem State.MeshOnly.fld {t : State} (h : s.MeshOnly t) (u off lo w : Nat) : t.fld u off lo w = s.fld u off lo w :=
  State.fld_congr (congrArg (fun r => SMap.get (regReset u off) r (regKey u off)) h.regs) lo w

end

/-! Grants (R101, R103). -/

theorem Spad.freeGrant_eq_some {sp : Spad} {gi : Nat} (h : sp.freeGrant = some gi) :
    sp.grant gi = none ∧ gi < 64 ∧ ∀ k, k < gi → sp.grant k ≠ none := by
  obtain ⟨hnone, hmem, hbelow⟩ := List.find?_range_eq_some.1 h
  exact ⟨Option.isNone_iff_eq_none.1 hnone, List.mem_range.1 hmem, fun k hk he => by simpa [he] using hbelow k hk⟩

theorem Spad.freeGrant_isSome {sp : Spad} (h : ∃ k, k < 64 ∧ sp.grant k = none) : ∃ gi, sp.freeGrant = some gi := by
  obtain ⟨k, hk, hnone⟩ := h
  exact Option.isSome_iff_exists.1 (List.find?_isSome.2 ⟨k, List.mem_range.2 hk, by rw [hnone]; rfl⟩)

theorem Spad.freeGrant_eq_none {sp : Spad} (h : ∀ k, k < 64 → sp.grant k ≠ none) : sp.freeGrant = none :=
  List.find?_eq_none.2 fun k hk hnone => h k (List.mem_range.1 hk) (Option.isNone_iff_eq_none.1 hnone)

theorem Spad.grant_setGrant_same (sp : Spad) (i : Nat) (g : Option Grant) : (sp.setGrant i g).grant i = g := SMap.get_set_same _ _ _ _

theorem Spad.liveGrant_of {sp : Spad} {r : GrantRef} {g : Grant} (h : sp.grant r.index = some g) (hno : g.no = r.no) :
    sp.liveGrant r = some g := by
  rw [Spad.liveGrant, h]
  exact if_pos hno

/-! Credits at their sender (R104). -/

/-- A descriptor in another state of its credits. -/
def DmaDesc.withCredit (x : CreditState) (d : DmaDesc) : DmaDesc := { d with credit := x }

/-- A request for credits of a register-addressed descriptor starts over at its first row. -/
def DmaDesc.retried (d : DmaDesc) : DmaDesc := if d.byRegister then { d with row := 0 } else d

theorem DmaDesc.retried_id (d : DmaDesc) : d.retried.id = d.id := by
  unfold DmaDesc.retried
  split
  · rfl
  · rfl

theorem DmaDesc.retried_stopped (d : DmaDesc) : d.retried.stopped = d.stopped := by
  unfold DmaDesc.retried
  split
  · rfl
  · rfl

theorem DmaDesc.dstAt_retried (d : DmaDesc) :
    d.retried.dstAt d.retried.row 0 = d.dst + (if d.byRegister then 0 else d.row * d.dstStride) := by
  unfold DmaDesc.retried DmaDesc.dstAt
  split
  · rw [Nat.zero_mul, Nat.add_zero]
  · rfl

theorem State.id_of_dmaFind {s : State} {p id : Nat} {d : DmaDesc} (h : s.dmaFind p id = some d) : d.id = id := by
  rw [State.dmaFind, Dma.find] at h
  have hid := List.find?_some h
  exact beq_iff_eq.1 hid

theorem State.sendRequest_now (s : State) (id : Nat) (a : Access) (mid : Option Nat) : (s.sendRequest id a mid).now = s.now := by
  unfold State.sendRequest
  split
  · rfl
  · rfl

theorem State.issueAccess_now (s : State) (p : Nat) (d : DmaDesc) (row col : Nat) (kind : AccessKind) (addr : Nat)
    (grant : Option GrantRef) : (s.issueAccess p d row col kind addr grant).now = s.now := by
  unfold State.issueAccess
  dsimp only
  split
  · split
    · rfl
    · exact State.sendRequest_now ..
  · split
    · rfl
    · exact State.sendRequest_now ..
  · rfl
  · split
    · split
      · exact (State.sendRequest_now ..).trans (State.drawMid_meshOnly _ _ _ _).now
      · exact State.sendRequest_now ..
    · exact State.sendRequest_now ..

theorem State.dmaFind_creditsDue {s : State} {p : Nat} {d e : DmaDesc} (h : s.dmaFind p d.id = some e) :
    (s.creditsDue p d).dmaFind p d.id = some { e with owed := [] } := by
  have hsame (l : List CreditDue) : (s.modDma p (fun m => { m with returns := m.returns ++ l })).dmaFind p d.id = some e := by
    rw [State.dmaFind, State.core_modDma]
    exact h
  unfold State.creditsDue
  dsimp only
  rw [State.dmaFind_modDesc _ _ _ (f := fun e => { e with owed := [] }) fun e he => he, hsame]
  rfl

end Sys2Proof.Machine

namespace Sys2Proof.Claims

open Sys2Proof.Machine

/-! Remote accesses (R95, R96, R102). -/

section
variable {s : State} {id p off : Nat} {a : Access}

theorem spadAccess_of_atSpad (h : AtSpad s id a p off) : s.spadAccess id = some (a, p, off, requester s a) := by
  obtain ⟨hacc, hstage, d, l, htarget, hcore⟩ := h
  rw [State.spadAccess, hacc]
  simp only [hstage, bne_self_eq_false, Bool.false_eq_true, if_false, htarget, hcore, Option.map_some]
  rfl

theorem covered_iff (n : Nat) (r : GrantRef) : Covered s p off n a r ↔ a.grant = some r
    ∧ (∃ g, (s.spad p).liveGrant r = some g ∧ s.now < g.expireAt)
    ∧ ((s.spad p).win r.win).isOpen = true ∧ ((s.spad p).win r.win).gen = r.gen
    ∧ ((s.spad p).win r.win).base ≤ off ∧ off + n ≤ ((s.spad p).win r.win).base + ((s.spad p).win r.win).bound := by
  have hlive (g : Grant) : (s.spad p).liveGrant r = some g ↔ (s.spad p).grant r.index = some g ∧ g.no = r.no := by
    unfold Spad.liveGrant
    cases (s.spad p).grant r.index with
    | none => simp
    | some g' => simp only [Option.ite_none_right_eq_some, Option.some.injEq]; exact ⟨fun h => ⟨h.2, h.2 ▸ h.1⟩, fun h => ⟨h.1 ▸ h.2, h.1⟩⟩
  simp only [Covered, hlive, and_assoc]

/-- R102: a write goes through exactly when a live grant covers it. -/
theorem writeRefused_eq_none_iff (n : Nat) : s.writeRefused p off n a.grant = none ↔ ∃ r, Covered s p off n a r := by
  simp only [covered_iff]
  unfold State.writeRefused
  cases a.grant with
  | none => exact iff_of_false (Option.some_ne_none _) fun ⟨r, hr, _⟩ => Option.some_ne_none r hr.symm
  | some r =>
    simp only [Option.some.injEq, exists_eq_left']
    split
    next hopen => exact iff_of_false (Option.some_ne_none _) fun h => by simp [h.2.1] at hopen
    split
    next hgen => exact iff_of_false (Option.some_ne_none _) fun h => hgen h.2.2.1
    next hopen hgen =>
    cases hlive : (s.spad p).liveGrant r with
    | none => exact iff_of_false (Option.some_ne_none _) fun ⟨⟨g, hg, _⟩, _⟩ => Option.some_ne_none g hg.symm
    | some g =>
      simp only [Option.some.injEq, exists_eq_left']
      split
      next hpast => exact iff_of_false (Option.some_ne_none _) fun h => absurd h.1 (Nat.not_lt.2 hpast)
      split
      next hout => exact iff_of_false (Option.some_ne_none _) fun h => hout h.2.2.2
      next hnow hin => exact iff_of_true rfl ⟨Nat.not_le.1 hnow, by simpa using hopen, not_not.1 hgen, not_not.1 hin⟩

theorem remoteWrite_covered {data : List Byte} {r : GrantRef} (h : AtSpad s id a p off) (hk : a.kind = .write data)
    (hr : Covered s p off data.length a r) : exec (.remoteWrite id) s = when ((s.core p).takesWrite (bankOf off)) s
      ((s.setAccess id (some { a with stage := .requesting })).modBank p (bankOf off) (fun b =>
        { b with p6 := b.p6 ++ [.remoteWrite id off data (some r) none] })) := by
  have hgo := (writeRefused_eq_none_iff (s := s) data.length).2 ⟨r, hr⟩
  rw [exec_remoteWrite, execRemoteWrite, spadAccess_of_atSpad h]
  dsimp only
  rw [hk]
  dsimp only
  rw [hgo, hr.1]

theorem remoteWrite_refused {data : List Byte} {cause : Nat} {w : Option Nat} (h : AtSpad s id a p off) (hk : a.kind = .write data)
    (hr : s.writeRefused p off data.length a.grant = some (cause, w)) :
    exec (.remoteWrite id) s = .next ((s.refuseWrite p off (requester s a) cause w).reply id stWindowRefused []) := by
  rw [exec_remoteWrite, execRemoteWrite, spadAccess_of_atSpad h]
  dsimp only
  rw [hk]
  dsimp only
  rw [hr]

/-- A request joins the queue of its bank. -/
theorem queuedAt_modBank (s : State) (id : Nat) (x : Option Access) (p b : Nat) (r : BankReq) :
    QueuedAt s ((s.setAccess id x).modBank p b (fun b => { b with p6 := b.p6 ++ [r] })) p b r
      ∧ BanksOnly s ((s.setAccess id x).modBank p b (fun b => { b with p6 := b.p6 ++ [r] })) p
      ∧ (∀ q, q ≠ p → ((s.setAccess id x).modBank p b (fun b => { b with p6 := b.p6 ++ [r] })).core q = s.core q)
      ∧ ∀ o, sbyte ((s.setAccess id x).modBank p b (fun b => { b with p6 := b.p6 ++ [r] })) p o = sbyte s p o := by
  have hmod := onlyBanks_modBank (s.setAccess id x) p b (fun b => { b with p6 := b.p6 ++ [r] })
  exact ⟨bankAt_modBank_same (s.setAccess id x) p b _, hmod.banks, hmod.core.1, hmod.sbyte⟩

theorem core_modSpad_other (s : State) {p q : Nat} (f : Spad → Spad) (h : q ≠ p) : (s.modSpad p f).core q = s.core q :=
  State.core_modCore_other s _ h

/-- A NACK changes registers alone, and counts (R102). -/
theorem nack_spec (s : State) (p off : Nat) (who : Requester) (cause : Nat) :
    (s.nack p off who cause).cores = s.cores ∧ (s.nack p off who cause).mesh = s.mesh
      ∧ (s.nack p off who cause).fld (unitCore p) rSPAD_NACK_COUNT 0 32
        = Nat.min (2 ^ 32 - 1) (s.fld (unitCore p) rSPAD_NACK_COUNT 0 32 + 1) := by
  unfold State.nack
  dsimp only
  refine ⟨(State.setReg_cores ..).trans (State.bump_cores ..), (State.setReg_mesh ..).trans (State.bump_mesh ..), ?_⟩
  refine (State.fld_congr (State.reg_setReg_other _ _ (regKey_ne_of_off ?_ ?_ ?_)) _ _).trans (State.fld_bump_same _ _ _ _ _)
  all_goals decide

/-- A refused write: its NACK, and at most a flag of one window (R102). -/
theorem refuseWrite_spec (s : State) (p off : Nat) (who : Requester) (cause : Nat) (w : Option Nat) :
    (∀ q, ((s.refuseWrite p off who cause w).spad q).bytes = (s.spad q).bytes)
      ∧ ((s.refuseWrite p off who cause w).spad p).banks = (s.spad p).banks
      ∧ (s.refuseWrite p off who cause w).mesh = s.mesh
      ∧ (s.refuseWrite p off who cause w).fld (unitCore p) rSPAD_NACK_COUNT 0 32
        = Nat.min (2 ^ 32 - 1) (s.fld (unitCore p) rSPAD_NACK_COUNT 0 32 + 1) := by
  obtain ⟨hcores, hmesh, hcount⟩ := nack_spec s p off who cause
  have hcore (q : Nat) : (s.nack p off who cause).core q = s.core q := core_of_cores hcores q
  unfold State.refuseWrite
  dsimp only
  generalize s.nack p off who cause = u at hcore hmesh hcount ⊢
  cases w with
  | none => exact ⟨fun q => by rw [State.spad, hcore, State.spad], by rw [State.spad, hcore, State.spad], hmesh, hcount⟩
  | some w =>
    refine ⟨fun q => ?_, ?_, hmesh, hcount⟩
    · by_cases hq : q = p
      · subst hq
        rw [u.spad_modSpad, State.spad, hcore, State.spad]
        rfl
      · rw [State.spad, core_modSpad_other u _ hq, hcore, State.spad]
    · rw [u.spad_modSpad, State.spad, hcore, State.spad]
      rfl

theorem remoteRead_eq {n : Nat} (h : AtSpad s id a p off) (hk : a.kind = .read n) :
    exec (.remoteRead id) s = if (bankAt s p (bankOf off)).on then
        .next ((s.setAccess id (some { a with stage := .requesting })).modBank p (bankOf off) (fun b =>
          { b with p6 := b.p6 ++ [.remoteRead id off n] }))
      else .next ((s.readOffBank p (bankOf off)).reply id stOk (zeros n)) := by
  rw [exec_remoteRead, execRemoteRead, spadAccess_of_atSpad h]
  dsimp only
  rw [hk]

end

theorem remoteAccesses : RemoteAccesses := by
  intro s id p off a h
  refine ⟨fun data r hk hr hfull => ?_, fun data r hk hr hroom => ?_, fun data hk hno => ?_, fun n hk hon => ?_, fun n hk hoff => ?_⟩
  · rw [remoteWrite_covered h hk hr, when, Core.takesWrite, bankOf, decide_eq_false (Nat.not_lt.2 hfull)]
    rfl
  · obtain ⟨hqueued, hbanks, hothers, hbytes⟩ := queuedAt_modBank s id (some { a with stage := .requesting }) p (off / 0x10000)
      (.remoteWrite id off data (some r) none)
    refine ⟨_, ?_, hqueued, hbanks, hothers, hbytes⟩
    rw [remoteWrite_covered h hk hr, when, Core.takesWrite, bankOf, decide_eq_true hroom]
    rfl
  · obtain ⟨⟨cause, w⟩, hcause⟩ := Option.ne_none_iff_exists'.1 (mt (writeRefused_eq_none_iff data.length).1 (not_exists.2 hno))
    obtain ⟨hbytes, hbanks, hmesh, hcount⟩ := refuseWrite_spec s p off (requester s a) cause w
    have hacc : (s.refuseWrite p off (requester s a) cause w).access id = some a := by
      rw [State.access, hmesh]
      exact h.1
    have hexec := remoteWrite_refused h hk hcause
    generalize s.refuseWrite p off (requester s a) cause w = u at hexec hbytes hbanks hcount hacc
    have honly := u.reply_meshOnly id stWindowRefused []
    refine ⟨_, hexec, ⟨_, State.access_reply _ _ hacc, rfl, rfl⟩, (honly.fld _ _ _ _).trans hcount, fun q x => ?_, ?_⟩
    · rw [sbyte, honly.spad, hbytes, sbyte]
    · rw [honly.spad, hbanks]
  · obtain ⟨hqueued, hbanks, -, -⟩ := queuedAt_modBank s id (some { a with stage := .requesting }) p (off / 0x10000) (.remoteRead id off n)
    exact ⟨_, (remoteRead_eq h hk).trans (if_pos hon), hqueued, hbanks⟩
  · have hacc : (s.readOffBank p (bankOf off)).access id = some a := h.1
    have honly := (s.readOffBank p (bankOf off)).reply_meshOnly id stOk (zeros n)
    refine ⟨_, (remoteRead_eq h hk).trans (if_neg (ne_true_of_eq_false hoff)), ⟨_, State.access_reply _ _ hacc, rfl, rfl, rfl⟩, ?_⟩
    rw [bankAt, honly.spad]
    exact bankAt_modBank_same s p (bankOf off) (fun x => { x with readOff := true })

/-! Requests for credits (R101, R103, R104). -/

section
variable {s : State} {p w gi n : Nat} {r : CreditReq}

/-- The grant of `n` credits of plain window `w` to a request. -/
def plainGrant (s : State) (p w n : Nat) (r : CreditReq) : Grant :=
  { win := w, gen := ((s.spad p).win w).gen, no := (s.spad p).grantNo, out := n, slots := [], who := r.who, lo := r.off
    hi := r.off + r.extent, expireAt := s.now + s.fld (unitCore p) rSPAD_CREDIT_TTL 0 10 * Config.cycUs }

theorem issueGrant_eq (h : (s.spad p).freeGrant = some gi) : s.issueGrant p r w n [] =
    (s.modSpad p (fun sp => { (sp.setGrant gi (some (plainGrant s p w n r))) with grantNo := sp.grantNo + 1 })).answerCredit r.id
      (.grant ⟨gi, w, ((s.spad p).win w).gen, (s.spad p).grantNo⟩ n) := by
  unfold State.issueGrant
  dsimp only
  rw [h]
  rfl

/-- The panel whose window `w` has counted `n` credits out. -/
def creditsTaken (s : State) (p w n : Nat) : State :=
  s.modSpad p (fun sp => sp.modWin w (fun x => { x with creditsOut := x.creditsOut + n }))

theorem spad_creditsTaken (s : State) (p w n : Nat) :
    (creditsTaken s p w n).spad p = (s.spad p).modWin w (fun x => { x with creditsOut := x.creditsOut + n }) := s.spad_modSpad p _

/-- What a grant of credits of a plain window leaves. -/
theorem issueGrant_spec (h : (s.spad p).freeGrant = some gi) :
    NewGrant s ((creditsTaken s p w n).issueGrant p r w n []) p w gi r.off r.extent n r.who
      ∧ (((creditsTaken s p w n).issueGrant p r w n []).spad p).hold = (s.spad p).hold
      ∧ ∀ a, s.access r.id = some a → ((creditsTaken s p w n).issueGrant p r w n []).access r.id
        = some { a with answer := some (.grant ⟨gi, w, ((s.spad p).win w).gen, (s.spad p).grantNo⟩ n), stage := .replying } := by
  have htaken := spad_creditsTaken s p w n
  have hwin : ((creditsTaken s p w n).spad p).win w = { (s.spad p).win w with creditsOut := ((s.spad p).win w).creditsOut + n } := by
    rw [htaken]
    exact Spad.win_setWin_same _ _ _
  have hfree : ((creditsTaken s p w n).spad p).freeGrant = some gi := by
    rw [htaken]
    exact h
  have hgrant : plainGrant (creditsTaken s p w n) p w n r = plainGrant s p w n r := by
    unfold plainGrant
    rw [hwin, htaken]
    rfl
  have hno : ((creditsTaken s p w n).spad p).grantNo = (s.spad p).grantNo := by
    rw [htaken]
    rfl
  obtain ⟨hnone, hlt, hbelow⟩ := Spad.freeGrant_eq_some h
  have hexec := issueGrant_eq (s := creditsTaken s p w n) (p := p) (w := w) (n := n) (r := r) hfree
  rw [hgrant, hwin, hno] at hexec
  rw [hexec]
  have honly := State.answerCredit_meshOnly (s := (creditsTaken s p w n).modSpad p (fun sp =>
    { (sp.setGrant gi (some (plainGrant s p w n r))) with grantNo := sp.grantNo + 1 })) r.id
      (.grant ⟨gi, w, ((s.spad p).win w).gen, (s.spad p).grantNo⟩ n)
  have hspad := (honly.spad p).trans ((creditsTaken s p w n).spad_modSpad p _)
  refine ⟨⟨hnone, hlt, hbelow, ?_, ?_⟩, ?_, fun a ha => State.access_answerCredit _ ha⟩
  · rw [hspad]
    exact Spad.grant_setGrant_same ((creditsTaken s p w n).spad p) gi (some (plainGrant s p w n r))
  · rw [hspad]
    exact congrArg Window.creditsOut hwin
  · rw [hspad, htaken]
    rfl

/-- A request for credits of a plain window, none held before it for the same window, is granted what the pool has (R104). -/
theorem serveCredit_granted {first : List CreditReq} (hplain : ((s.spad p).win w).channel = false)
    (hn : n = Nat.min r.want (((s.spad p).win w).credits - ((s.spad p).win w).creditsOut)) (hone : 1 ≤ n)
    (hfree : (s.spad p).freeGrant = some gi) (hfirst : ∀ q ∈ first, (s.spad p).winAt q.off q.extent ≠ some w) :
    s.serveCredit p w first r = (some ((creditsTaken s p w n).issueGrant p r w n []), s, r) := by
  have hno : ¬ (n = 0 ∨ (s.spad p).freeGrant.isNone = true
      ∨ (first.any fun q => (s.spad p).winAt q.off q.extent == some w) = true) := by
    rintro (hzero | hnone | hany)
    · omega
    · rw [hfree] at hnone
      exact Bool.false_ne_true hnone
    · obtain ⟨q, hq, hwin⟩ := List.any_eq_true.1 hany
      exact hfirst q hq (beq_iff_eq.1 hwin)
  unfold State.serveCredit
  dsimp only
  rw [hplain, if_neg Bool.false_ne_true]
  subst hn
  exact if_neg hno

/-- Without a credit the request is held, with nothing reserved (R104). -/
theorem serveCredit_held {first : List CreditReq} (hplain : ((s.spad p).win w).channel = false)
    (hn : Nat.min r.want (((s.spad p).win w).credits - ((s.spad p).win w).creditsOut) = 0) : s.serveCredit p w first r = (none, s, r) := by
  unfold State.serveCredit
  dsimp only
  rw [hplain, if_neg Bool.false_ne_true]
  exact if_pos (.inl hn)

theorem NewGrant.of_meshOnly {s u t : State} {p w gi off extent n : Nat} {who : Requester} (h : s.MeshOnly u)
    (hg : NewGrant u t p w gi off extent n who) : NewGrant s t p w gi off extent n who := by
  rwa [NewGrant, h.spad, h.now, h.fld] at hg

end

/-- A held request that leaves the queue. -/
theorem NewGrant.dropHold {s t : State} {p w gi off extent n : Nat} {who : Requester} (rest : List CreditReq)
    (h : NewGrant s t p w gi off extent n who) :
    NewGrant s (t.modSpad p (fun sp => { sp with hold := rest })) p w gi off extent n who := by
  obtain ⟨hnone, hlt, hbelow, hgrant, hcount⟩ := h
  refine ⟨hnone, hlt, hbelow, ?_, ?_⟩
  · rw [t.spad_modSpad]
    exact hgrant
  · rw [t.spad_modSpad]
    exact hcount

theorem heldRequestGrant_of_front {s t u : State} {c : CoreIx} {w : Nat} {r q : CreditReq} {rest : List CreditReq}
    (hhold : (s.spad c.val).hold = r :: rest) (hwin : (s.spad c.val).winAt r.off r.extent = some w)
    (hserve : s.serveCredit c.val w [] r = (some t, u, q)) :
    exec (.heldRequestGrant c) s = .next (t.modSpad c.val (fun sp => { sp with hold := rest })) := by
  rw [exec_heldRequestGrant, execHeldRequestGrant, hhold, State.serveHeld, hwin]
  dsimp only
  rw [hserve]
  rfl

section
variable {s : State} {id p off w extent want n : Nat} {a : Access}

/-- The request that an access for credits makes. -/
def requestOf (s : State) (id off extent want : Nat) (a : Access) : CreditReq :=
  { id := id, who := requester s a, off := off, extent := extent, want := want, got := 0 }

/-- A request for credits of an open plain window that admits its sender is not refused (R104). -/
theorem requestRefused_eq_none (hr : PlainRequest s p w off extent want n) (hadmits : ((s.spad p).win w).admits (requester s a) = true) :
    (s.spad p).requestRefused (requestOf s id off extent want a) = none := by
  obtain ⟨-, hwin, hplain, hopen, -⟩ := hr
  have hplace : (s.spad p).winAt (requestOf s id off extent want a).off (requestOf s id off extent want a).extent = some w := hwin
  have hwho : (requestOf s id off extent want a).who = requester s a := rfl
  unfold Spad.requestRefused
  rw [hplace]
  dsimp only
  rw [hopen, hwho, hadmits, hplain]
  rfl

section
variable (h : AtSpad s id a p off) (hk : a.kind = .creditReq extent want) (hr : PlainRequest s p w off extent want n)
  (hadmits : ((s.spad p).win w).admits (requester s a) = true)
include h hk hr hadmits

theorem creditRequest_retry (hbusy : (s.spad p).freeGrant.isNone = true ∨ 64 ≤ (s.spad p).hold.length) :
    exec (.creditRequest id) s = .next ((s.reply id stOk []).answerCredit id .retry) := by
  have hok := requestRefused_eq_none (id := id) hr hadmits
  rw [exec_creditRequest, execCreditRequest, spadAccess_of_atSpad h]
  dsimp only
  rw [hk]
  dsimp only
  rw [show CreditReq.mk id (requester s a) off extent want 0 = requestOf s id off extent want a from rfl, hok]
  exact if_pos hbusy

variable (hidle : ¬ ((s.spad p).freeGrant.isNone = true ∨ 64 ≤ (s.spad p).hold.length)) {t u : State} {r : CreditReq}
include hidle

theorem creditRequest_served
    (hserve : (s.reply id stOk []).serveCredit p w (s.spad p).hold (requestOf s id off extent want a) = (some t, u, r)) :
    exec (.creditRequest id) s = .next t := by
  have hok := requestRefused_eq_none (id := id) hr hadmits
  rw [exec_creditRequest, execCreditRequest, spadAccess_of_atSpad h]
  dsimp only
  rw [hk]
  dsimp only
  rw [show CreditReq.mk id (requester s a) off extent want 0 = requestOf s id off extent want a from rfl, hok]
  dsimp only
  rw [if_neg hidle, hr.2.1]
  dsimp only
  rw [hserve]

theorem creditRequest_held
    (hserve : (s.reply id stOk []).serveCredit p w (s.spad p).hold (requestOf s id off extent want a) = (none, t, r)) :
    exec (.creditRequest id) s = .next ((t.modSpad p (fun sp => { sp with hold := sp.hold ++ [r] })).answerCredit id .hold) := by
  have hok := requestRefused_eq_none (id := id) hr hadmits
  rw [exec_creditRequest, execCreditRequest, spadAccess_of_atSpad h]
  dsimp only
  rw [hk]
  dsimp only
  rw [show CreditReq.mk id (requester s a) off extent want 0 = requestOf s id off extent want a from rfl, hok]
  dsimp only
  rw [if_neg hidle, hr.2.1]
  dsimp only
  rw [hserve]

end

end

theorem creditRequests : CreditRequests := by
  intro s c id p off w extent want n a
  refine ⟨fun h hk hr hadmits => ⟨fun hfree hroom hone hfirst => ?_, fun hbusy => ?_, fun hfree hroom hzero => ?_⟩,
    fun r rest hhold hr hone hfree => ?_⟩
  · obtain ⟨gi, hgi⟩ := Spad.freeGrant_isSome hfree
    have hidle : ¬ ((s.spad p).freeGrant.isNone = true ∨ 64 ≤ (s.spad p).hold.length) :=
      not_or.2 ⟨by rw [hgi]; exact Bool.false_ne_true, Nat.not_le.2 hroom⟩
    have hrequest := hr
    obtain ⟨-, -, hplain, -, hn⟩ := hrequest
    have hexec := fun t u r => creditRequest_served (t := t) (u := u) (r := r) h hk hr hadmits hidle
    have honly := s.reply_meshOnly id stOk []
    have hacc := State.access_reply stOk [] h.1
    generalize s.reply id stOk [] = u at hexec honly hacc
    have hu := honly.spad p
    obtain ⟨hnew, hhold, haccess⟩ := issueGrant_spec (s := u) (p := p) (w := w) (n := n) (r := requestOf s id off extent want a)
      (by rw [hu]; exact hgi)
    refine ⟨_, gi, _, hexec _ _ _ (serveCredit_granted (gi := gi) (n := n) (by rw [hu]; exact hplain) (by rw [hu]; exact hn) hone
      (by rw [hu]; exact hgi) (by rw [hu]; exact hfirst)), hnew.of_meshOnly honly, haccess _ hacc, ?_, hhold.trans (by rw [hu])⟩
    rw [hu]
  · have honly := (s.reply_meshOnly id stOk []).trans (State.answerCredit_meshOnly _ id .retry)
    refine ⟨_, _, creditRequest_retry h hk hr hadmits ?_, State.access_answerCredit .retry (State.access_reply stOk [] h.1),
      rfl, honly.cores⟩
    rcases hbusy with hnone | hfull
    · exact .inl (by rw [Spad.freeGrant_eq_none hnone]; rfl)
    · exact .inr hfull
  · obtain ⟨gi, hgi⟩ := Spad.freeGrant_isSome hfree
    have hidle : ¬ ((s.spad p).freeGrant.isNone = true ∨ 64 ≤ (s.spad p).hold.length) :=
      not_or.2 ⟨by rw [hgi]; exact Bool.false_ne_true, Nat.not_le.2 hroom⟩
    have hrequest := hr
    obtain ⟨-, -, hplain, -, hn⟩ := hrequest
    have hexec := fun t r => creditRequest_held (t := t) (r := r) h hk hr hadmits hidle
    have honly := s.reply_meshOnly id stOk []
    have hacc := State.access_reply stOk [] h.1
    generalize s.reply id stOk [] = u at hexec honly hacc
    have hu := honly.spad p
    refine ⟨_, _, hexec _ _ (serveCredit_held (by rw [hu]; exact hplain) (by rw [hu]; exact hn.symm.trans hzero)),
      State.access_answerCredit .hold (s := u.modSpad p _) hacc, rfl, ?_⟩
    rw [(State.answerCredit_meshOnly _ id .hold).spad, u.spad_modSpad, hu]
    rfl
  · obtain ⟨gi, hgi⟩ := Spad.freeGrant_isSome hfree
    obtain ⟨-, hwin, hplain, hopen, hn⟩ := hr
    obtain ⟨hnew, -, -⟩ := issueGrant_spec (s := s) (p := c.val) (w := w) (n := n) (r := r) hgi
    refine ⟨_, gi, heldRequestGrant_of_front hhold hwin
      (serveCredit_granted hplain hn hone hgi fun q hq => absurd hq List.not_mem_nil), hnew.dropHold rest, ?_⟩
    rw [State.spad_modSpad]

/-! The ends of grants (R103, R104). -/

section
variable {sp : Spad} {i : Nat} {g : Grant}

theorem releaseCredits_all (h : sp.grant i = some g) : sp.releaseCredits i g.out =
    (sp.modWin g.win (fun x => if x.gen = g.gen then { x with creditsOut := x.creditsOut - g.out } else x)).setGrant i none := by
  unfold Spad.releaseCredits
  rw [h]
  dsimp only
  rw [Nat.min_self, if_pos le_rfl]

/-- Slots that lose their reservation leave the grants. -/
theorem grant_unreserve (sp : Spad) (i k : Nat) : (sp.unreserve i).grant k = sp.grant k := by
  have hfold (w : Nat) (gen : BitVec 16) (l : SMap Nat) (sp : Spad) :
      (l.foldl (fun sp e => sp.modWin w (fun x => if x.gen = gen then x.setReserved e.1 false else x)) sp).grant k = sp.grant k := by
    induction l generalizing sp with
    | nil => rfl
    | cons e l ih => exact (ih _).trans rfl
  unfold Spad.unreserve
  split
  · rfl
  · exact hfold _ _ _ sp

theorem endGrant_eq (h : sp.grant i = some g) : sp.endGrant i = (sp.unreserve i).releaseCredits i g.out := by
  rw [Spad.endGrant, h]

theorem grant_endGrant (h : sp.grant i = some g) : (sp.endGrant i).grant i = none := by
  rw [endGrant_eq h, releaseCredits_all ((grant_unreserve sp i i).trans h)]
  exact Spad.grant_setGrant_same _ i none

/-- A grant of a plain window ends: its window counts its credits back. -/
theorem endGrant_plain (h : sp.grant i = some g) (hs : g.slots = []) : sp.endGrant i =
    (sp.modWin g.win (fun x => if x.gen = g.gen then { x with creditsOut := x.creditsOut - g.out } else x)).setGrant i none := by
  have hsame : sp.unreserve i = sp := by
    rw [Spad.unreserve, h]
    dsimp only
    rw [hs, List.foldl_nil]
  rw [endGrant_eq h, hsame, releaseCredits_all h]

end

section
variable {s : State} {c : CoreIx}

theorem grantExpiry_plain {gi : Fin 64} {g : Grant} (h : (s.spad c.val).grant gi.val = some g) (hs : g.slots = []) :
    ∃ t, exec (.grantExpiry c gi) s = .next t ∧ t.now = Nat.max s.now g.expireAt
      ∧ (t.spad c.val).grant gi.val = none
      ∧ ((t.spad c.val).win g.win).creditsOut = ((s.spad c.val).win g.win).creditsOut
          - (if ((s.spad c.val).win g.win).gen = g.gen then g.out else 0)
      ∧ CoreAndTime s t c.val ∧ (∀ x, sbyte t c.val x = sbyte s c.val x) := by
  have hexec : exec (.grantExpiry c gi) s = .next ((s.advanceTo g.expireAt).modSpad c.val (fun sp => sp.endGrant gi.val)) := by
    rw [exec_grantExpiry, execGrantExpiry, h]
  have hspad : ((s.advanceTo g.expireAt).modSpad c.val (fun sp => sp.endGrant gi.val)).spad c.val = (s.spad c.val).endGrant gi.val :=
    (s.advanceTo g.expireAt).spad_modSpad c.val _
  obtain ⟨htime, hnow⟩ := coreAndTime_ofLater (coreOnly_modCore (s.advanceTo g.expireAt) c.val
    (fun x => x.modSpad (fun sp => sp.endGrant gi.val)))
  refine ⟨_, hexec, hnow, ?_, ?_, htime, fun x => ?_⟩
  · rw [hspad, grant_endGrant h]
  · have hwin : ((s.spad c.val).endGrant gi.val).win g.win =
        if ((s.spad c.val).win g.win).gen = g.gen then
          { (s.spad c.val).win g.win with creditsOut := ((s.spad c.val).win g.win).creditsOut - g.out }
        else (s.spad c.val).win g.win := by
      rw [endGrant_plain h hs]
      exact Spad.win_setWin_same (s.spad c.val) g.win _
    rw [hspad, hwin]
    split
    · rfl
    · rfl
  · rw [sbyte, hspad, endGrant_plain h hs]
    rfl

end

/-! The end of a close (R104, R105, R110). -/

theorem coreOnly_refl (s : State) (p : Nat) : CoreOnly s s p := ⟨fun _ _ => rfl, rfl⟩

theorem coreOnly_foldl {β : Type} {p : Nat} {f : State → β → State} (h : ∀ (t : State) (b : β), CoreOnly t (f t b) p) (l : List β)
    (s : State) : CoreOnly s (l.foldl f s) p := by
  induction l generalizing s with
  | nil => exact coreOnly_refl s p
  | cons b l ih => exact coreOnly_trans (h s b) (ih (f s b))

/-- What each step of a fold keeps, the fold keeps. -/
theorem foldl_keeps {σ β γ : Type} {f : σ → β → σ} (g : σ → γ) (h : ∀ (t : σ) (b : β), g (f t b) = g t) (l : List β) (s : σ) :
    g (l.foldl f s) = g s := by
  induction l generalizing s with
  | nil => rfl
  | cons b l ih => exact (ih (f s b)).trans (h s b)

theorem dma_modSlot (s : State) (p i : Nat) (f : Slot → Slot) : ((s.modSlot p i f).core p).dma = (s.core p).dma := by
  rw [State.modSlot, State.core_modCore_same]
  rfl

theorem coreOnly_settle (s : State) (p : Nat) : CoreOnly s (s.settle p) p := coreOnly_modCore s p _

theorem core_settle_field {β : Type} (s : State) (p : Nat) (f : Core → β)
    (hf : ∀ (c : Core) (m : SMap Slot) (n : Node), f { c with slots := m, node := n } = f c) : f ((s.settle p).core p) = f (s.core p) := by
  rw [State.settle, State.core_modCore_same]
  exact Core.settle_field _ _ _ f hf

theorem spad_settle (s : State) (p q : Nat) : (s.settle p).spad q = s.spad q := by
  by_cases hq : q = p
  · subst hq
    exact core_settle_field s q Core.spad fun _ _ _ => rfl
  · exact congrArg Core.spad ((coreOnly_settle s p).1 q hq)

theorem coreOnly_uncover (s : State) (p lo hi : Nat) : CoreOnly s (s.uncover p lo hi) p := coreOnly_modCore s p _

theorem coreOnly_modSlot (s : State) (p i : Nat) (f : Slot → Slot) : CoreOnly s (s.modSlot p i f) p := coreOnly_modCore s p _

theorem closersDone_core (s : State) (p : Nat) (l : List (Nat × Nat)) :
    CoreOnly s (s.closersDone p l) p ∧ (s.closersDone p l).spad p = s.spad p ∧ ((s.closersDone p l).core p).dma = (s.core p).dma := by
  unfold State.closersDone
  refine ⟨coreOnly_foldl (fun t e => ?_) l s, foldl_keeps (State.spad · p) (fun t e => ?_) l s,
    foldl_keeps (fun t => (t.core p).dma) (fun t e => ?_) l s⟩
  · exact coreOnly_modSlot t p e.1 _
  · exact t.spad_modSlot p e.1 _
  · exact dma_modSlot t p e.1 _

theorem channelWaitsDone_core (s : State) (p : Nat) (x : Window) (is : List Nat) :
    CoreOnly s (s.channelWaitsDone p x is) p ∧ (s.channelWaitsDone p x is).spad p = s.spad p
      ∧ ((s.channelWaitsDone p x is).core p).dma = (s.core p).dma := by
  unfold State.channelWaitsDone
  refine ⟨coreOnly_foldl (fun t i => ?_) is s, foldl_keeps (State.spad · p) (fun t i => ?_) is s,
    foldl_keeps (fun t => (t.core p).dma) (fun t i => ?_) is s⟩
  · exact coreOnly_modSlot t p i _
  · exact t.spad_modSlot p i _
  · exact dma_modSlot t p i _

theorem dma_modSpad (s : State) (p : Nat) (f : Spad → Spad) : ((s.modSpad p f).core p).dma = (s.core p).dma := by
  rw [State.modSpad, State.core_modCore_same]
  rfl

/-- A completed close changes, of its scratchpad, its window and banks, and leaves the engine. -/
theorem completeClose_core (s : State) (p w : Nat) : CoreOnly s (s.completeClose p w) p
    ∧ (∃ banks, (s.completeClose p w).spad p = { (s.spad p).modWin w Window.closed with banks := banks })
    ∧ ((s.completeClose p w).core p).dma = (s.core p).dma := by
  rw [State.completeClose_eq]
  have hopen := coreOnly_modCore s p (fun c => c.modSpad (fun sp => sp.modWin w Window.closed))
  have hclosed := s.spad_modSpad p (fun sp => sp.modWin w Window.closed)
  have hdma := dma_modSpad s p (fun sp => sp.modWin w Window.closed)
  change CoreOnly s (s.modSpad p (fun sp => sp.modWin w Window.closed)) p at hopen
  generalize s.modSpad p (fun sp => sp.modWin w Window.closed) = s1 at hopen hclosed hdma ⊢
  obtain ⟨honly1, hspad1, hdma1⟩ := closersDone_core s1 p ((s.spad p).win w).closers
  generalize s1.closersDone p ((s.spad p).win w).closers = s2 at honly1 hspad1 hdma1 ⊢
  obtain ⟨honly2, hspad2, hdma2⟩ := channelWaitsDone_core s2 p ((s.spad p).win w) (List.range 8)
  generalize s2.channelWaitsDone p ((s.spad p).win w) (List.range 8) = s3 at honly2 hspad2 hdma2 ⊢
  obtain ⟨banks, hcore⟩ := core_uncover s3 p ((s.spad p).win w).base (((s.spad p).win w).base + ((s.spad p).win w).bound)
  have honly3 := coreOnly_uncover s3 p ((s.spad p).win w).base (((s.spad p).win w).base + ((s.spad p).win w).bound)
  generalize s3.uncover p ((s.spad p).win w).base (((s.spad p).win w).base + ((s.spad p).win w).bound) = s4 at hcore honly3 ⊢
  refine ⟨coreOnly_trans hopen (coreOnly_trans honly1 (coreOnly_trans honly2 (coreOnly_trans honly3 (coreOnly_settle s4 p)))),
    ⟨banks, ?_⟩, ?_⟩
  · rw [spad_settle, State.spad, hcore, hspad2, hspad1, hclosed]
  · rw [core_settle_field s4 p Core.dma fun _ _ _ => rfl, hcore]
    exact hdma2.trans (hdma1.trans hdma)

/-- A token of which nothing is due yet. -/
theorem token_ripen_of_later {now : Nat} {sl : Slot} {k : Nat} (h : ∀ e ∈ sl.due, e.2.1 = k → now < e.1) :
    (sl.ripen now).token k = sl.token k := by
  have hfold (l : List (Nat × Nat × Status)) (hl : ∀ e ∈ l, e.2.1 ≠ k) (x : Slot) :
      (l.foldl (fun sl e => sl.complete e.2.1 e.2.2) x).token k = x.token k := by
    induction l generalizing x with
    | nil => rfl
    | cons e l ih =>
      have he : (x.complete e.2.1 e.2.2).token k = x.token k := by
        unfold Slot.complete
        split
        · exact x.token_setToken_other _ (hl e List.mem_cons_self).symm
        · rfl
      exact (ih (fun d hd => hl d (List.mem_cons_of_mem _ hd)) _).trans he
  unfold Slot.ripen
  split
  · rfl
  · refine hfold _ (fun e he hk => ?_) sl
    obtain ⟨hmem, hdue⟩ := List.mem_filter.1 he
    exact absurd (of_decide_eq_true hdue) (Nat.not_le.2 (h e hmem hk))

theorem mem_due_ripen {now : Nat} {sl : Slot} {e : Nat × Nat × Status} (he : e ∈ sl.due) (h : now < e.1) : e ∈ (sl.ripen now).due := by
  unfold Slot.ripen
  split
  · exact he
  · exact List.mem_filter.2 ⟨he, decide_eq_true h⟩

theorem slot_settle_cases (s : State) (p : Nat) {j : Nat} (h : (s.slot p j).mode ≠ .waiting) :
    (s.settle p).slot p j = s.slot p j ∨ (s.settle p).slot p j = (s.slot p j).ripen s.now := by
  rw [State.slot, State.settle, State.core_modCore_same]
  by_cases hj : j < 8
  · exact .inr (Core.slot_settle_of_not_waiting _ _ _ hj h)
  · have hslot := Core.slot_settleSlots_of_not_mem s.now s.gen.lastEdge (s.core p) (j := j) (is := List.range 8)
      fun hmem => hj (List.mem_range.1 hmem)
    have hmode := h
    rw [State.slot, ← hslot] at hmode
    exact .inl ((Core.slot_deliverAll _ _ _ hmode).trans hslot)

/-- The tokens of the WCLOSEs of a completed close are due in the next cycle (R79, R105). -/
theorem completeClose_closer {s : State} {p w i k : Nat} (hmem : (i, k) ∈ ((s.spad p).win w).closers)
    (hmode : (s.slot p i).mode ≠ .waiting) (hbusy : (s.slot p i).token k = .busy) (hdue : NotDue (s.slot p i) k) :
    ((s.completeClose p w).slot p i).token k = .busy ∧ (s.now + 1, k, 0) ∈ ((s.completeClose p w).slot p i).due := by
  rw [State.completeClose_eq]
  have hslot1 := s.slot_modSpad p (fun sp => sp.modWin w Window.closed) i
  have hnow1 : (s.modSpad p (fun sp => sp.modWin w Window.closed)).now = s.now := s.modSpad_now p _
  generalize s.modSpad p (fun sp => sp.modWin w Window.closed) = s1 at hslot1 hnow1 ⊢
  obtain ⟨hframe2, -, more, hslot2, hnext, hdone⟩ := State.closersDone_spec p i ((s.spad p).win w).closers s1
  generalize s1.closersDone p ((s.spad p).win w).closers = s2 at hframe2 hslot2 ⊢
  rw [hslot1] at hslot2 hdone
  obtain ⟨hframe3, -, hslot3⟩ := State.channelWaitsDone_spec p i ((s.spad p).win w) (List.range 8) (s := s2)
    (by rw [hslot2]; exact hmode)
  generalize s2.channelWaitsDone p ((s.spad p).win w) (List.range 8) = s3 at hframe3 hslot3 ⊢
  obtain ⟨hframe4, -, -, hslot4⟩ := s3.uncover_spec p ((s.spad p).win w).base (((s.spad p).win w).base + ((s.spad p).win w).bound) i
  generalize s3.uncover p ((s.spad p).win w).base (((s.spad p).win w).base + ((s.spad p).win w).bound) = s4 at hframe4 hslot4 ⊢
  have hnow : s4.now = s.now := ((hframe2.trans (hframe3.trans hframe4)).field State.now fun _ _ _ => rfl).trans hnow1
  have hslot : s4.slot p i = { s.slot p i with due := (s.slot p i).due ++ more } := hslot4.trans (hslot3.trans hslot2)
  have hin : (s.now + 1, k, 0) ∈ (s4.slot p i).due := by
    rw [hslot, ← hnow1]
    exact List.mem_append_right _ (hdone k hmem hbusy)
  have htok : (s4.slot p i).token k = .busy := by
    rw [hslot]
    exact hbusy
  have hlater : ∀ e ∈ (s4.slot p i).due, e.2.1 = k → s4.now < e.1 := by
    intro e he hk
    rw [hslot] at he
    rcases List.mem_append.1 he with hold | hnew
    · exact absurd hk (hdue e hold)
    · rw [hnext e hnew, hnow, hnow1]
      exact Nat.lt_succ_self _
  rcases slot_settle_cases s4 p (by rw [hslot]; exact hmode) with hsame | hripe
  · rw [hsame]
    exact ⟨htok, hin⟩
  · rw [hripe]
    exact ⟨(token_ripen_of_later hlater).trans htok, mem_due_ripen hin (by rw [hnow]; exact Nat.lt_succ_self _)⟩

section
variable {s : State} {c : CoreIx}

theorem closeComplete_ready {w : Fin 32} (hopen : ((s.spad c.val).win w.val).isOpen = true)
    (hclosing : ((s.spad c.val).win w.val).closing = true) (hout : ((s.spad c.val).win w.val).creditsOut = 0)
    (hquiet : (s.spad c.val).writesWaiting ((s.spad c.val).win w.val) = false) :
    ∃ t, exec (.closeComplete c w) s = .next t
      ∧ (t.spad c.val).win w.val = { Window.reset with gen := ((s.spad c.val).win w.val).gen }
      ∧ (∀ i k, (i, k) ∈ ((s.spad c.val).win w.val).closers → (s.slot c.val i).mode ≠ .waiting →
          (s.slot c.val i).token k = .busy → NotDue (s.slot c.val i) k →
            (t.slot c.val i).token k = .busy ∧ (s.now + 1, k, 0) ∈ (t.slot c.val i).due)
      ∧ CoreOnly s t c.val := by
  have hready : (s.spad c.val).closeReady w.val = true := by
    rw [Spad.closeReady]
    simp only [hopen, hclosing, hout, hquiet]
    rfl
  obtain ⟨honly, ⟨banks, hspad⟩, -⟩ := completeClose_core s c.val w.val
  refine ⟨_, ?_, ?_, fun i k => completeClose_closer, honly⟩
  · rw [exec_closeComplete, execCloseComplete, hready]
    rfl
  · rw [hspad]
    exact Spad.win_setWin_same (s.spad c.val) w.val _

/-! Credits at their sender (R104). -/

theorem creditReply_grant {id : Nat} {a : Access} {r : GrantRef} {n extent want q : Nat} {d : DmaDesc} (hacc : s.access id = some a)
    (hk : a.kind = .creditReq extent want) (hans : a.answer = some (.grant r n)) (hway : s.replyOnWay id = false)
    (hneeds : s.needsCredit a.core a.addr = some q) (hplain : ((s.spad q).win r.win).channel = false)
    (hfind : s.dmaFind a.core a.desc = some d) :
    ∃ t d', exec (.creditReply id) s = .next t ∧ t.access id = none ∧ t.dmaFind a.core a.desc = some d'
      ∧ d' = { d with credit := .granted r n a.addr (a.addr + extent) } := by
  have hchannel : (((s.setAccess id none).spad q).win r.win).channel = false := hplain
  have hexec : exec (.creditReply id) s = .next ((s.setAccess id none).modDesc a.core a.desc
      (DmaDesc.withCredit (.granted r n a.addr (a.addr + extent)))) := by
    rw [exec_creditReply, execCreditReply, hacc]
    dsimp only
    rw [hk, hans]
    dsimp only
    rw [hway, if_neg Bool.false_ne_true,
      show (s.setAccess id none).needsCredit a.core a.addr = some q from hneeds,
      show (s.setAccess id none).dmaFind a.core a.desc = some d from hfind]
    dsimp only
    rw [hchannel]
    rfl
  refine ⟨_, _, hexec, ?_, ?_, rfl⟩
  · exact s.access_setAccess_same id none
  · rw [State.dmaFind_modDesc _ _ _ (f := DmaDesc.withCredit _) fun e he => he]
    exact congrArg (Option.map (DmaDesc.withCredit (.granted r n a.addr (a.addr + extent)))) hfind

theorem askCredit_spec {u : State} {p lo n : Nat} {d e : DmaDesc} (hfind : u.dmaFind p d.id = some e) (hle : d.dstAt d.row 0 ≤ lo) :
    (u.askCredit p d (lo - d.dstAt d.row 0) n).now = u.now
      ∧ (∃ b, (u.askCredit p d (lo - d.dstAt d.row 0) n).access u.mesh.nextAccess = some b ∧ b.addr = lo
        ∧ ∃ m, b.kind = .creditReq n m)
      ∧ ∃ d' m, (u.askCredit p d (lo - d.dstAt d.row 0) n).dmaFind p d.id = some d' ∧ d'.credit = .asked lo n m := by
  have hlo : d.dstAt d.row (lo - d.dstAt d.row 0) = lo := by
    have h0 : d.dstAt d.row (lo - d.dstAt d.row 0) = d.dstAt d.row 0 + (lo - d.dstAt d.row 0) := rfl
    rw [h0, Nat.add_sub_of_le hle]
  unfold State.askCredit
  dsimp only
  rw [hlo]
  generalize max 1 (min 64 (d.writesIn 130 d.row (lo - d.dstAt d.row 0) n)) = want
  have hasked : ((u.creditsDue p d).modDesc p d.id (DmaDesc.withCredit (.asked lo n want))).dmaFind p d.id
      = some (DmaDesc.withCredit (.asked lo n want) { e with owed := [] }) := by
    rw [State.dmaFind_modDesc _ _ _ (f := DmaDesc.withCredit _) fun e he => he, State.dmaFind_creditsDue hfind]
    rfl
  obtain ⟨hdma, b, hb, hof⟩ := State.issueAccess_spec ((u.creditsDue p d).modDesc p d.id (DmaDesc.withCredit (.asked lo n want))) p d
    d.row (lo - d.dstAt d.row 0) (.creditReq n want) lo none
  refine ⟨State.issueAccess_now .., ⟨b, hb, hof.addr, want, hof.kind⟩, _, want, (State.dmaFind_of_dma hdma _).trans hasked, rfl⟩

theorem creditRetry_asks {desc lo extent want k : Nat} {d : DmaDesc} (hfind : s.dmaFind c.val desc = some d)
    (hcredit : d.credit = .retryAt lo extent want k) (hstop : d.stopped = false)
    (hle : d.dst + (if d.byRegister then 0 else d.row * d.dstStride) ≤ lo) :
    ∃ t b, exec (.creditRetry c desc) s = .next t ∧ t.now = Nat.max s.now k
      ∧ t.access s.mesh.nextAccess = some b ∧ b.addr = lo ∧ (∃ m, b.kind = .creditReq extent m)
      ∧ (∃ d' m, t.dmaFind c.val desc = some d' ∧ d'.credit = .asked lo extent m) := by
  have hexec : exec (.creditRetry c desc) s =
      .next ((s.advanceTo k).askCredit c.val d.retried (lo - d.retried.dstAt d.retried.row 0) extent) := by
    rw [exec_creditRetry, execCreditRetry, hfind]
    dsimp only
    split
    next lo' extent' want' k' h =>
      obtain ⟨rfl, rfl, rfl, rfl⟩ := CreditState.retryAt.inj (hcredit.symm.trans h)
      exact if_neg (ne_true_of_eq_false (d.retried_stopped.trans hstop))
    next h => exact absurd hcredit (h _ _ _ _)
  have hid : d.retried.id = desc := d.retried_id.trans (State.id_of_dmaFind hfind)
  have hplace : d.retried.dstAt d.retried.row 0 ≤ lo := d.dstAt_retried.trans_le hle
  generalize d.retried = d0 at hexec hid hplace
  subst hid
  obtain ⟨hnow, ⟨b, hb, haddr, hkind⟩, hasked⟩ := askCredit_spec (u := s.advanceTo k) (n := extent) hfind hplace
  exact ⟨_, b, hexec, hnow, hb, haddr, hkind, hasked⟩

/-- A close that goes on as far as it can changes one core, and of it neither the engine's returns nor a grant. -/
theorem tryClose_core (s : State) (p w : Nat) : CoreOnly s (s.tryClose p w) p
    ∧ ((s.tryClose p w).core p).dma = (s.core p).dma ∧ ((s.tryClose p w).spad p).grants = (s.spad p).grants := by
  unfold State.tryClose
  split
  · obtain ⟨honly, ⟨banks, hspad⟩, hdma⟩ := completeClose_core s p w
    exact ⟨honly, hdma, by rw [hspad]; rfl⟩
  · exact ⟨coreOnly_refl s p, rfl, rfl⟩

/-- The grants of a scratchpad whose credits are returned, and the engine, behind what the return sets going. -/
theorem returned_spec (u : State) (q w : Nat) (f : Spad → Spad) (p k : Nat) :
    ((((u.modSpad q f).tryClose q w).settle q).core p).dma = (u.core p).dma
      ∧ ((((u.modSpad q f).tryClose q w).settle q).spad q).grant k = (f (u.spad q)).grant k := by
  have hspad := u.spad_modSpad q f
  have hdma := dma_modSpad u q f
  have hother (r : Nat) (hr : r ≠ q) := core_modSpad_other u f hr
  generalize u.modSpad q f = u1 at hspad hdma hother ⊢
  obtain ⟨honly, hdma1, hgrants⟩ := tryClose_core u1 q w
  generalize u1.tryClose q w = u2 at honly hdma1 hgrants ⊢
  constructor
  · by_cases hp : p = q
    · subst hp
      exact (core_settle_field u2 p Core.dma fun _ _ _ => rfl).trans (hdma1.trans hdma)
    · rw [(coreOnly_settle u2 q).1 p hp, honly.1 p hp, hother p hp]
  · rw [spad_settle, Spad.grant, hgrants, hspad, Spad.grant]

theorem creditReturn_ends {desc : Nat} {r : CreditDue} {rest : List CreditDue} {g : Grant}
    (hret : (s.core c.val).dma.returns = r :: rest) (hdesc : r.desc = desc) (hout : r.outstanding = 0)
    (hgrant : (s.spad r.target).grant r.ref.index = some g) (hno : g.no = r.ref.no) :
    ∃ t, exec (.creditReturn c desc) s = .next t ∧ (t.core c.val).dma.returns = rest
      ∧ (t.spad r.target).grant r.ref.index = none := by
  have hfind : (s.core c.val).dma.returns.find? (fun r => r.desc == desc && r.outstanding == 0) = some r := by
    rw [hret]
    exact List.find?_cons_of_pos (by rw [hdesc, hout, beq_self_eq_true, beq_self_eq_true]; rfl)
  have hcore (q : Nat) : (s.modDma c.val (fun m => { m with returns := m.returns.erase r })).spad q = s.spad q := by
    by_cases hq : q = c.val
    · subst hq
      rw [State.spad, State.core_modDma]
      rfl
    · exact congrArg Core.spad (State.core_modCore_other s _ hq)
  have hreturns : ((s.modDma c.val (fun m => { m with returns := m.returns.erase r })).core c.val).dma.returns = rest := by
    rw [State.core_modDma]
    change (s.core c.val).dma.returns.erase r = rest
    rw [hret, List.erase_cons_head]
  have hexec : exec (.creditReturn c desc) s = .next ((((s.modDma c.val (fun m => { m with returns := m.returns.erase r })).modSpad r.target
      (fun sp => sp.endGrant r.ref.index)).tryClose r.target g.win).settle r.target) := by
    have hlive : ((s.modDma c.val (fun m => { m with returns := m.returns.erase r })).spad r.target).liveGrant r.ref = some g := by
      rw [hcore]
      exact Spad.liveGrant_of hgrant hno
    rw [exec_creditReturn, execCreditReturn, hfind]
    dsimp only
    rw [hlive]
  generalize s.modDma c.val (fun m => { m with returns := m.returns.erase r }) = u at hexec hcore hreturns
  obtain ⟨hdma, hends⟩ := returned_spec u r.target g.win (fun sp => sp.endGrant r.ref.index) c.val r.ref.index
  refine ⟨_, hexec, by rw [hdma, hreturns], hends.trans ?_⟩
  rw [hcore]
  exact grant_endGrant hgrant

end

theorem creditEnds : CreditEnds := by
  intro s c
  refine ⟨fun gi g => grantExpiry_plain, fun w => closeComplete_ready, fun id a r n extent want q d => creditReply_grant,
    fun desc d lo extent want k hfind hcredit hstop _ hle => creditRetry_asks hfind hcredit hstop hle,
    fun desc r rest g => creditReturn_ends⟩

/-- Settles O18: a grant, its expiry, its return and a close each change the one core they name. -/
theorem remoteAccessesAndCredits : Obligations.RemoteAccessesAndCredits := ⟨remoteAccesses, creditRequests, creditEnds⟩

end Sys2Proof.Claims

/-!
SUPPORT. States that single clauses of the statements about the matrix unit and the bulk mesh do not hold in.
-/
namespace Sys2Proof.Claims

open Sys2Proof.Machine

/-! Operands beyond the banks of the scratchpad (O21). -/

/-- An LDACC of one tile whose rows of 128 bytes begin at the end of the sixteen banks. -/
def loadBeyondBanks : EngDesc :=
  { slot := 0, token := 0, tick := 0, att := 0
    raw := [2, 0, 0, 0x11] ++ zeros 28 ++ leBytes 4 0x100000 ++ leBytes 4 128 ++ zeros 24
    off := 0, spadBase := 0, spadBound := 0x100000, pos := 0, got := [], group := 0, finished := none, flags := 0, qovf := false }

/-- The matrix queue of core 0 holds it alone. The scrub is off, and of the banks of the core one is off: the one behind the
sixteen. -/
def loadingBeyondBanks : State :=
  (State.reset.setReg (unitCore 0) rSPAD_CTRL 0).modCore 0 (fun c => { c with
    mxu := { c.mxu with queue := [loadBeyondBanks] }
    spad := { c.spad with banks := [(16, { Bank.reset with on := false })] } })

theorem loadingBeyondBanks_head : MatrixHead loadingBeyondBanks 0 loadBeyondBanks [] 2 := by unfold MatrixHead; decide +kernel

theorem loadingBeyondBanks_free : MatrixFree loadingBeyondBanks 0 (mxAccesses loadBeyondBanks).length :=
  ⟨⟨by unfold BankServes; decide +kernel, by decide +kernel, .inl (by decide +kernel)⟩, by decide +kernel⟩

theorem loadingBeyondBanks_clean : StreamClean loadingBeyondBanks 0 ⟨[], []⟩ (mxRowsC loadBeyondBanks) :=
  ⟨rfl, rfl, fun _ _ _ _ _ _ => rfl⟩

/-- The bank of the first row grants nothing, so the LDACC is not finished. -/
theorem ldacc_waits {t : State} (h : exec (.ldacc 0 ⟨[], []⟩) loadingBeyondBanks = .next t) :
    (t.core 0).mxu.queue.head?.bind EngDesc.finished = none :=
  of_decide_eq_true (of_leaves (P := fun t => (t.core 0).mxu.queue.head?.bind EngDesc.finished = none) (by decide +kernel) h)

/-- Refutes O21: the statement asks that the sixteen banks of the scratchpad serve, but not that the rows of C lie in them (R146). A
descriptor whose rows begin behind the last of them waits at a bank that need not serve, and is not finished. -/
theorem not_matrixUnit : ¬ Obligations.MatrixUnit := by
  rintro ⟨hmoves, -, -⟩
  obtain ⟨-, hload, -⟩ := hmoves loadingBeyondBanks 0 loadBeyondBanks [] ⟨[], []⟩ (by decide) (by decide)
  obtain ⟨t, ht, ⟨f, k, hdone⟩, -⟩ := hload loadingBeyondBanks_head loadingBeyondBanks_free loadingBeyondBanks_clean
  have hfinished := congrArg (fun q : List EngDesc => q.head?.bind EngDesc.finished) hdone
  exact Option.some_ne_none 0 (Eq.trans hfinished.symm (ldacc_waits ht))

/-! Windows that overlap (O25). -/

/-- A LAST multicast line of 64 bytes from core 1 for offset 0 of the core of target 0, at the local output of its router. -/
def lineToOverlap : Packet :=
  { cargo := .mcast 1 0 0 (zeros 64) true, from_ := .router 0 1, dest := 0, destRouter := 0, vc := 7, mid := none, esc := false,
    poolQ := false, exit := some 4, seamHops := 0, flits := 1, since := 0, place := .router 0 0, inPort := 4, patch := 0, held := none,
    targets := [0] }

/-- Die 0 at site 0 runs logical core 0 on its first physical core, whose window 0 holds the first byte alone of the line, and whose
channel window 1 holds all of it. -/
def overlappingWindows : State :=
  { State.reset.modSpad 0 (fun sp => (sp.setWin 0 { Window.reset with isOpen := true, bound := 8 }).setWin 1
      { Window.reset with isOpen := true, bound := 64, channel := true, coreMode := 3 }) with
    active := { ConfigSet.empty with sections := [(1, [(0, zeros 64)])], counts := [(1, 1)] }
    mesh := { Mesh.reset with packets := [(0, some lineToOverlap)], nextPacket := 1 } }

theorem overlappingWindows_line : LineAt overlappingWindows 0 lineToOverlap 0 1 0 0 0 (zeros 64) true := by
  refine ⟨rfl, ?_, rfl, rfl, rfl, rfl, rfl, rfl, ?_, by decide, ?_, ?_, (fun t0 h => by cases h), fun e h => by cases h⟩
  · show (0 : Nat) ≠ 1
    decide
  all_goals decide +kernel

/-- The line is refused at window 1, so window 0 has no NACK. -/
theorem multicastWrite_marks_one {t : State} (h : exec (.multicastWrite 0) overlappingWindows = .next t) :
    ((t.spad 0).win 0).nacked = false :=
  of_decide_eq_true (of_leaves (P := fun t => ((t.spad 0).win 0).nacked = false) (by decide +kernel) h)

/-- Refutes O25: a line refused at a channel window marks the window that holds the whole line (R102), and the statement asks for
the mark of the first window that holds the line's first byte. In a state with overlapping open windows, which R98 keeps from being
opened, they are two. -/
theorem not_meshPackets : ¬ Obligations.MeshPackets := by
  rintro ⟨-, -, -, hlines⟩
  obtain ⟨hwindow, -⟩ := hlines overlappingWindows 0 lineToOverlap 0 1 0 0 0 (zeros 64) true overlappingWindows_line (by decide)
  obtain ⟨-, -, hchannel⟩ := hwindow 1 (by decide +kernel) (by decide +kernel) (by decide +kernel)
  obtain ⟨t, ht, -, -, -, -, -, -, hmark⟩ := hchannel (by decide +kernel)
  exact Bool.false_ne_true ((multicastWrite_marks_one ht).symm.trans (hmark 0 (by decide +kernel)))

end Sys2Proof.Claims
